-- ==== Sys2Proof/Word.lean ====
section
/-!
DEFINITION. The words of the machine: registers are 32 bits wide (R2), memory is bytes.
-/
namespace Sys2Proof

/-- A 32-bit word: a register, an engine register, a descriptor word (R2). -/
abbrev Word := BitVec 32

/-- A byte of memory. -/
abbrev Byte := BitVec 8

end Sys2Proof
end

