-- ==== Sys2Proof/Syntax.lean ====
section
/-!
DEFINITION. The commands of the block: one constructor of `Instr` for each row of spec/opcode_table.json, with the row's
operands. What the wires, the pins and the analogue inputs bring is an operand of the row that samples it; the initiator of a
register access is an operand of the row that makes it (R40, R467).
-/
namespace Sys2Proof

/-- Who starts an access (R40, R463): harts A0-A3 are 0-3 and B0-B3 are 4-7; real-time pairs L0-L3; the Hearth pair HC;
thread `t` of engine NE`e`; the debug port (R641). -/
inductive Initiator where
  | hart (n : Fin 8)
  | pair (n : Fin 4)
  | hc
  | thread (e : Fin 24) (t : Fin 4)
  | debug
  deriving DecidableEq, Repr

/-- The width of a register access (R632). -/
inductive AccSize where
  | byte
  | half
  | word
  deriving DecidableEq, Repr

/-- The two core supply domains (R28). -/
inductive Domain where
  | a
  | b
  deriving DecidableEq, Repr

/-- How an access of an engine thread, of a queue or of a unit's own reads and writes ends at its destination: carried out, ended
by a bus or far-side error, or by an uncorrectable memory error (R10, R167). -/
inductive BusEnd where
  | ok
  | busError
  | eccError
  deriving DecidableEq, Repr

/-- What comes of an engine's access to a shared bank when the bank's other port accesses the same bank word in the same bank cycle (R415): `silent`, an earlier read meets a later
write, and the reader's data are undefined; `retried`, the later access is busied and served in the next bank cycle; `clear`, there is no such access. -/
inductive Clash where
  | clear
  | silent
  | retried
  deriving DecidableEq, Repr

/-- What the ECC of a CSI-2 packet header finds (R123). -/
inductive HdrEcc where
  | clean
  | corrected
  | bad
  deriving DecidableEq, Repr

/-- The format of a CAN frame (R255). -/
inductive CanFmt where
  | classical
  | fd
  | xl
  deriving DecidableEq, Repr

/-- How a CAN transmission attempt ends (R279), or what the controller finds wrong with a frame: the codes of ERR.LEC (R295). -/
inductive CanErr where
  | stuff
  | form
  | ack
  | bit1
  | bit0
  | crc
  deriving DecidableEq, Repr

/-- The end of a CAN transmission attempt. -/
inductive CanEnd where
  | success
  | lostArbitration
  | error (e : CanErr)
  deriving DecidableEq, Repr

/-- A CAN transmission attempt as the bus ends it: how, and whether its ACK slot was filled (R284). -/
structure CanTxEnd where
  how : CanEnd
  acked : Bool
  deriving DecidableEq, Repr

/-- An error that a CAN receiver detects, and whether it is one that counts 8 (R284). -/
structure CanRxErr where
  err : CanErr
  heavy : Bool
  deriving DecidableEq, Repr

/-- The mark of a matrix column that comes, and whether another node's frame is on the bus then (R280). -/
structure ColMark where
  col : Fin 32
  busBusy : Bool
  deriving DecidableEq, Repr

/-- A current and how long it has stood, in mA and us (R366). -/
structure OverCurrent where
  ma : Nat
  us : Nat
  deriving DecidableEq, Repr

/-- The voltage at an analogue input in uV, and the error of its conversion, of which 6 is none (R602). -/
structure AiVolt where
  uv : Nat
  err : Fin 13
  deriving DecidableEq, Repr

/-- The register that points at a job descriptor in data RAM, and how the read of the descriptor ends (R167, R205). -/
structure DescPtr where
  reg : Fin 32
  read : BusEnd
  deriving DecidableEq, Repr

/-- What an atomic memory operation of a hart does (R418): those of the A extension, LR and SC. -/
inductive AmoOp where
  | add
  | swap
  | and
  | or
  | xor
  | min
  | max
  | minu
  | maxu
  | lr
  | sc
  deriving DecidableEq, Repr

/-- A register whose read pops a FIFO (access code RP, R432). -/
inductive PopReg where
  | capture (m : Fin 16)
  | canRx (c : Fin 12)
  | errlog
  | violation
  | claim (t : Fin 13)
  deriving DecidableEq, Repr

/-- The privilege modes of a hart (R406, R471) and of a real-time pair. HS and S are one mode here; `virt` of `HartCtx` tells VS and VU. -/
inductive Mode where
  | u
  | s
  | m
  deriving DecidableEq, Repr

/-- What a hart's own program has brought its registers to when it executes WCALL (R471, R472). -/
structure HartCtx where
  mode : Mode
  virt : Bool
  vmid : Nat
  pc : BitVec 64
  mepc : BitVec 64
  mpp : Mode
  mpie : Bool
  mie : Bool
  a0 : BitVec 64
  deriving DecidableEq, Repr

/-- The registers of a real-time pair that vector assist saves or changes (R447), as its program has left them: x1, x5-x7, x10-x17 and x28-x31 in that order, sp, pc, and
the machine-mode registers of an exception. -/
structure PairRegs where
  x : Vector Word 16
  sp : Word
  pc : Word
  mepc : Word
  mcause : Word
  mtval : Word
  mtvec : Word
  mstatus : Word
  fcsr : Word
  mode : Mode
  deriving DecidableEq, Repr

/-- What wakes the Z480 (R452): a wake input, or a tamper alarm. -/
inductive WakeBy where
  | input (n : Fin 85)
  | tamper
  deriving DecidableEq, Repr

/-- The commands of the block, in the order of spec/opcode_table.json. -/
inductive Instr where
  /-- REGISTER_WRITE (R6): A write to a register that has no row of its own sets RW fields, clears W1C bits or sets W1S bits as its access code gives. -/
  | registerWrite (w : Initiator) (addr : BitVec 40) (size : AccSize) (data : Word)
  /-- CLOCK_DOWN (R21): ISL_CMD CLOCK_DOWN divides a RUN island's clock and moves it to SLOW. -/
  | clockDown (w : Initiator) (i : Fin 21) (div : Fin 4)
  /-- RESTORE (R21): ISL_CMD RESTORE returns a SLOW island to its full clock in RUN. -/
  | restore (w : Initiator) (i : Fin 21)
  /-- STOP (R21): ISL_CMD STOP closes an island's inbound gates and starts its drain timer, or is recorded and held under a keep-alive vote. -/
  | stop (w : Initiator) (i : Fin 21)
  /-- START (R31): ISL_CMD START starts a STOPPED island, cancels a drain, or restarts an OFF island whose rail and clock are valid. -/
  | start (w : Initiator) (i : Fin 21)
  /-- RESET (R575): ISL_CMD RESET drains an island, then resets its logic and zeroes its SRAMs before it starts again. -/
  | reset (w : Initiator) (i : Fin 21)
  /-- RESET_HOLD (R575): ISL_CMD RESET_HOLD drains and resets an island and holds it in RESET until RELEASE. -/
  | resetHold (w : Initiator) (i : Fin 21)
  /-- RELEASE (R21): ISL_CMD RELEASE takes an island held in RESET to STARTING. -/
  | release (w : Initiator) (i : Fin 21)
  /-- DRAIN_COMPLETE (R633): Every open transaction of a DRAINING island has completed, so the island stops or passes to RESET. -/
  | drainComplete (i : Fin 21)
  /-- DRAIN_TIMER_EXPIRE (R22): The drain timer expires: open inbound transactions end ABORTED_ISLAND_OFF and the island stops or resets. -/
  | drainTimerExpire (i : Fin 21)
  /-- RESET_COMPLETE (R634): An island's reset and SRAM zeroing finish and the island passes to STARTING. -/
  | resetComplete (i : Fin 21)
  /-- CLOCK_STABLE (R21): A STARTING island's clock is stable and the island enters RUN with its gates open. -/
  | clockStable (i : Fin 21)
  /-- DOMAIN_LOST (R30): A domain's rail or clock fails: its islands are clamped OFF and open transactions into them end ABORTED_ISLAND_OFF. -/
  | domainLost (d : Domain)
  /-- RESPONSE_DISCARD (R26): A response that reaches a gate after its source island has stopped is discarded and counted. -/
  | responseDiscard (i : Fin 21)
  /-- NOW_NS_READ (R40): A read of TIME.NOW_NS returns master VT nanoseconds and latches seconds and fraction into the reader's shadow. -/
  | nowNsRead (w : Initiator)
  /-- SPLIT_COMPARE (R42): The 1 µs comparator samples both time islands and writes SPLIT_DIFF. -/
  | splitCompare (driftA driftB : Int)
  /-- RESYNC (R88): A write of TIME.CTRL.RESYNC requests a copy into a faulty island and ends any hold. -/
  | resync (w : Initiator)
  /-- GPTP_STANDBY_TAKEOVER (R50): The standby gPTP thread on NE12 t0 takes over after NE0 t0 traps or domain A is lost. -/
  | gptpStandbyTakeover
  /-- SERVO_SAMPLE (R63): The servo takes the oldest queued sample, judges it and feeds, refuses or discards it. -/
  | servoSample
  /-- HOLDOVER_TIMEOUT (R63): No sample has been fed for HOLD_CFG.TIMEOUT, so the state enters HOLDOVER. -/
  | holdoverTimeout
  /-- HOLD_LIMIT (R80): Holdover reaches HOLD_CFG.LIMIT, so HOLD_LIMIT is raised and QUALITY degrades. -/
  | holdLimit
  /-- STEP_ACCEPT (R65): A write of STEP_ACCEPT in REFUSING schedules a step of STEP_PEND. -/
  | stepAccept (w : Initiator)
  /-- STEP_INSTANT (R67): At the step instant VT is stepped on both islands and EPOCH increments. -/
  | stepInstant
  /-- ROLE_WRITE (R63): A write of TIME.CTRL.ROLE moves the time state to FREE or out of it. -/
  | roleWrite (w : Initiator) (role : Fin 4)
  /-- TWIN_EN_CHANGE (R637): A change of TWIN_EN resets the twin-path status, offsets and baselines. -/
  | twinEnChange (w : Initiator) (en : Bool)
  /-- SET_GO (R69): A write of SET_CMD.GO latches the SET value, or is refused outside UNSYNC and FREE. -/
  | setGo (w : Initiator)
  /-- SET_APPLY (R69): At the next compare boundary VT is set to the latched value and EPOCH increments. -/
  | setApply
  /-- HOLDOVER_FREQ_RECOMPUTE (R78): Every 1 ms outside locking FREQ is recomputed from the learned table. -/
  | holdoverFreqRecompute
  /-- TEMP_SENSOR_READ (R76): Every 1 ms the time island's temperature sensor is read and its bin chosen. -/
  | tempSensorRead (degA degB : Int)
  /-- TWIN_ABSENT (R75): A twin direction that has supplied no sample for HOLD_CFG.TIMEOUT becomes ABSENT. -/
  | twinAbsent (dir : Bool)
  /-- TWIN_RESUME (R73): A write of TWIN_CMD.RESUME forces a direction to OK and relearns its baseline. -/
  | twinResume (w : Initiator) (dir : Bool)
  /-- PPS_EDGE (R82): A PPS_IN edge is stamped and, if accepted, forms a servo sample. -/
  | ppsEdge (rise : Bool) (sub : Fin 8)
  /-- PPS_LOST (R82): After 1.1 s without an accepted PPS edge PPS_LOST is raised and the state enters HOLDOVER. -/
  | ppsLost
  /-- TIME_CNT_CLR (R102): A write of TIME.CNT_CLR clears the four time counters. -/
  | timeCntClr (w : Initiator)
  /-- TRG_START (R108): A trigger START arms a valid schedule at its first instant, or sets REFUSED. -/
  | trgStart (w : Initiator) (n : Fin 16)
  /-- TRG_STOP (R108): A trigger STOP returns an ARMED trigger to IDLE or stops a RUNNING trigger's leading edges. -/
  | trgStop (w : Initiator) (n : Fin 16)
  /-- TRIGGER_INSTANT (R108): A grid instant is reached: a leading edge is driven, or skipped behind a closed quality gate. -/
  | triggerInstant (n : Fin 16)
  /-- TRAILING_EDGE (R105): WIDTH after a leading edge the pulse ends, and a STOPPING trigger goes IDLE. -/
  | trailingEdge (n : Fin 16)
  /-- TRG_LAST_READ (R115): A read of LAST_NS returns the latest edge's nanoseconds and latches the rest into the shadow. -/
  | trgLastRead (w : Initiator) (n : Fin 16)
  /-- CAPTURE_EDGE (R119): A selected edge on CAPm is stamped into the FIFO, merged or dropped. -/
  | captureEdge (m : Fin 16) (rise : Bool) (after hold : Nat)
  /-- CAP_STAMP_POP (R120): A read of STAMP_NS pops the head capture entry and latches it into the shadow. -/
  | capStampPop (w : Initiator) (m : Fin 16)
  /-- CSI_FRAME_START (R134): A frame-start short packet is stamped and opens a frame, aborting an open one. -/
  | csiFrameStart (n : Fin 4) (vc : Fin 16) (num : BitVec 16) (ecc : HdrEcc)
  /-- CSI_FRAME_END (R134): A frame-end short packet closes the VC's frame with an END packet. -/
  | csiFrameEnd (n : Fin 4) (vc : Fin 16) (ecc : HdrEcc)
  /-- CSI_LINE_START (R124): A line-start short packet stamps the start of a line. -/
  | csiLineStart (n : Fin 4) (vc : Fin 16) (num : BitVec 16) (ecc : HdrEcc)
  /-- CSI_LONG_PACKET (R127): A line's long packet is staged, CRC-checked and offered for forwarding, or dropped. -/
  | csiLongPacket (n : Fin 4) (vc : Fin 16) (dt : BitVec 6) (payload : List Byte) (crcOk : Bool) (ecc : HdrEcc)
  /-- CSI_GENERIC_SHORT_PACKET (R123): A generic short packet is discarded and counted. -/
  | csiGenericShortPacket (n : Fin 4)
  /-- CSI_LINK_TIMEOUT (R134): No burst for LINK_TO ends every open frame with ABORT and raises LINK_LOST. -/
  | csiLinkTimeout (n : Fin 4)
  /-- LINE_ITEM_PUSH (R128): A staged line is pushed as an item onto its header thread's queue when an entry is free. -/
  | lineItemPush (n : Fin 4)
  /-- LINE_STAGING_FREE (R127): A line's last segment enters the switch buffer and its staging is freed. -/
  | lineStagingFree (n : Fin 4)
  /-- CAM_CNT_CLR (R136): A write of CAM.CNT_CLR clears the five camera counters. -/
  | camCntClr (w : Initiator) (n : Fin 4)
  /-- THR_START (R142): THR_CMD START makes a thread READY at its entry, or sets REFUSED. -/
  | thrStart (w : Initiator) (e : Fin 24) (t : Fin 4)
  /-- THR_STOP (R142): THR_CMD STOP halts a thread and ends its held items ABORTED_CANCEL. -/
  | thrStop (w : Initiator) (e : Fin 24) (t : Fin 4)
  /-- DOORBELL (R159): THR_CMD DOORBELL latches event bit 28 of the thread. -/
  | doorbell (w : Initiator) (e : Fin 24) (t : Fin 4)
  /-- BUDGET_FRAME_START (R163): At each 1 ms frame start every thread's usage returns to 0 and throttled threads resume. -/
  | budgetFrameStart
  /-- WAIT_COMPLETE (R143): The condition that a waiting thread awaits is met and the thread becomes READY. -/
  | waitComplete (e : Fin 24) (t : Fin 4) (r : BusEnd) (c : Clash)
  /-- POSTED_STORE_ERROR (R189): A posted store's error response arrives and traps the thread BUS. -/
  | postedStoreError (e : Fin 24) (t : Fin 4) (k : Fin 8)
  /-- TIME_ALARM (R161): Master VT reaches a thread's alarm value and latches event bit 26. -/
  | timeAlarm (e : Fin 24) (t : Fin 4)
  /-- ILLEGAL_ENCODING (R208): An illegal instruction word traps ILLEGAL. -/
  | illegalEncoding (e : Fin 24) (t : Fin 4) (word : Word) (ecc : Bool)
  /-- ADD (R180): ADD writes na + nb to nd. -/
  | add (e : Fin 24) (t : Fin 4) (nd na nb : Fin 32)
  /-- SUB (R180): SUB writes na − nb to nd. -/
  | sub (e : Fin 24) (t : Fin 4) (nd na nb : Fin 32)
  /-- AND (R180): AND writes the bitwise and of na and nb. -/
  | and (e : Fin 24) (t : Fin 4) (nd na nb : Fin 32)
  /-- OR (R180): OR writes the bitwise or of na and nb. -/
  | or (e : Fin 24) (t : Fin 4) (nd na nb : Fin 32)
  /-- XOR (R180): XOR writes the bitwise exclusive or of na and nb. -/
  | xor (e : Fin 24) (t : Fin 4) (nd na nb : Fin 32)
  /-- SHL (R180): SHL shifts na left by nb[4:0]. -/
  | shl (e : Fin 24) (t : Fin 4) (nd na nb : Fin 32)
  /-- SHR (R180): SHR shifts na right logically by nb[4:0]. -/
  | shr (e : Fin 24) (t : Fin 4) (nd na nb : Fin 32)
  /-- SAR (R180): SAR shifts na right arithmetically by nb[4:0]. -/
  | sar (e : Fin 24) (t : Fin 4) (nd na nb : Fin 32)
  /-- MUL (R180): MUL writes the low 32 bits of na × nb. -/
  | mul (e : Fin 24) (t : Fin 4) (nd na nb : Fin 32)
  /-- MULH (R180): MULH writes the high 32 bits of the signed product. -/
  | mulh (e : Fin 24) (t : Fin 4) (nd na nb : Fin 32)
  /-- MIN (R180): MIN writes the signed minimum of na and nb. -/
  | min (e : Fin 24) (t : Fin 4) (nd na nb : Fin 32)
  /-- MAX (R180): MAX writes the signed maximum of na and nb. -/
  | max (e : Fin 24) (t : Fin 4) (nd na nb : Fin 32)
  /-- CLZ (R180): CLZ writes the count of leading zeros of na. -/
  | clz (e : Fin 24) (t : Fin 4) (nd na : Fin 32)
  /-- POPC (R180): POPC writes the count of 1 bits in na. -/
  | popc (e : Fin 24) (t : Fin 4) (nd na : Fin 32)
  /-- SLT (R180): SLT writes 1 when na < nb signed. -/
  | slt (e : Fin 24) (t : Fin 4) (nd na nb : Fin 32)
  /-- SLTU (R180): SLTU writes 1 when na < nb unsigned. -/
  | sltu (e : Fin 24) (t : Fin 4) (nd na nb : Fin 32)
  /-- ADDI (R180): ADDI adds a sign-extended immediate to na. -/
  | addi (e : Fin 24) (t : Fin 4) (nd na : Fin 32) (imm : BitVec 16)
  /-- ANDI (R180): ANDI ands na with a zero-extended immediate. -/
  | andi (e : Fin 24) (t : Fin 4) (nd na : Fin 32) (imm : BitVec 16)
  /-- ORI (R180): ORI ors na with a zero-extended immediate. -/
  | ori (e : Fin 24) (t : Fin 4) (nd na : Fin 32) (imm : BitVec 16)
  /-- XORI (R180): XORI exclusive-ors na with a zero-extended immediate. -/
  | xori (e : Fin 24) (t : Fin 4) (nd na : Fin 32) (imm : BitVec 16)
  /-- SHLI (R180): SHLI shifts na left by imm[4:0]. -/
  | shli (e : Fin 24) (t : Fin 4) (nd na : Fin 32) (imm : BitVec 16)
  /-- SHRI (R180): SHRI shifts na right logically by imm[4:0]. -/
  | shri (e : Fin 24) (t : Fin 4) (nd na : Fin 32) (imm : BitVec 16)
  /-- SARI (R180): SARI shifts na right arithmetically by imm[4:0]. -/
  | sari (e : Fin 24) (t : Fin 4) (nd na : Fin 32) (imm : BitVec 16)
  /-- LUI (R180): LUI writes imm << 16 to nd. -/
  | lui (e : Fin 24) (t : Fin 4) (nd : Fin 32) (imm : BitVec 16)
  /-- SLTI (R180): SLTI writes 1 when na is less than the immediate, signed. -/
  | slti (e : Fin 24) (t : Fin 4) (nd na : Fin 32) (imm : BitVec 16)
  /-- SLTUI (R180): SLTUI writes 1 when na is less than the immediate, unsigned. -/
  | sltui (e : Fin 24) (t : Fin 4) (nd na : Fin 32) (imm : BitVec 16)
  /-- LDB (R188): LDB loads a zero-extended byte from a thread window. -/
  | ldb (e : Fin 24) (t : Fin 4) (nd na : Fin 32) (imm : BitVec 16) (r : Option BusEnd) (c : Clash)
  /-- LDH (R188): LDH loads a zero-extended halfword. -/
  | ldh (e : Fin 24) (t : Fin 4) (nd na : Fin 32) (imm : BitVec 16) (r : Option BusEnd) (c : Clash)
  /-- LDW (R188): LDW loads a word. -/
  | ldw (e : Fin 24) (t : Fin 4) (nd na : Fin 32) (imm : BitVec 16) (r : Option BusEnd) (c : Clash)
  /-- LDQ (R186): LDQ loads four words into nd..nd+3. -/
  | ldq (e : Fin 24) (t : Fin 4) (nd na : Fin 32) (imm : BitVec 16) (r : Option BusEnd) (c : Clash)
  /-- STB (R188): STB stores the low byte of nd, or asserts RAISE at the RAISE address. -/
  | stb (e : Fin 24) (t : Fin 4) (nd na : Fin 32) (imm : BitVec 16) (done : Fin 9) (c : Clash)
  /-- STH (R188): STH stores the low halfword of nd. -/
  | sth (e : Fin 24) (t : Fin 4) (nd na : Fin 32) (imm : BitVec 16) (done : Fin 9) (c : Clash)
  /-- STW (R188): STW stores nd. -/
  | stw (e : Fin 24) (t : Fin 4) (nd na : Fin 32) (imm : BitVec 16) (done : Fin 9) (c : Clash)
  /-- STQ (R189): STQ stores nd..nd+3. -/
  | stq (e : Fin 24) (t : Fin 4) (nd na : Fin 32) (imm : BitVec 16) (done : Fin 9) (c : Clash)
  /-- BEQ (R183): BEQ branches when na equals nb. -/
  | beq (e : Fin 24) (t : Fin 4) (na nb : Fin 32) (off : BitVec 16)
  /-- BNE (R183): BNE branches when na differs from nb. -/
  | bne (e : Fin 24) (t : Fin 4) (na nb : Fin 32) (off : BitVec 16)
  /-- BLT (R183): BLT branches when na < nb signed. -/
  | blt (e : Fin 24) (t : Fin 4) (na nb : Fin 32) (off : BitVec 16)
  /-- BGE (R183): BGE branches when na ≥ nb signed. -/
  | bge (e : Fin 24) (t : Fin 4) (na nb : Fin 32) (off : BitVec 16)
  /-- BLTU (R183): BLTU branches when na < nb unsigned. -/
  | bltu (e : Fin 24) (t : Fin 4) (na nb : Fin 32) (off : BitVec 16)
  /-- BGEU (R183): BGEU branches when na ≥ nb unsigned. -/
  | bgeu (e : Fin 24) (t : Fin 4) (na nb : Fin 32) (off : BitVec 16)
  /-- JAL (R190): JAL jumps by an offset and links to n31. -/
  | jal (e : Fin 24) (t : Fin 4) (off : BitVec 26)
  /-- JALR (R190): JALR jumps to na plus an immediate and links to nd. -/
  | jalr (e : Fin 24) (t : Fin 4) (nd na : Fin 32) (imm : BitVec 16)
  /-- EXT (R191): EXT extracts a bit field, optionally sign-extended. -/
  | ext (e : Fin 24) (t : Fin 4) (nd na width pos : Fin 32) (sx : Bool)
  /-- INS (R191): INS inserts a bit field of na into nd. -/
  | ins (e : Fin 24) (t : Fin 4) (nd na width pos : Fin 32)
  /-- DEP (R191): DEP deposits a bit field of na into a zeroed word. -/
  | dep (e : Fin 24) (t : Fin 4) (nd na width pos : Fin 32)
  /-- PKHOLD (R192): PKHOLD selects a held packet or allocates a new packet for port E. -/
  | pkhold (e : Fin 24) (t : Fin 4) (nd na nb : Fin 32) (cls : Fin 8)
  /-- PKSEND (R193): PKSEND hands a held packet to port E or the camera packetiser. -/
  | pksend (e : Fin 24) (t : Fin 4) (nd na nb : Fin 32)
  /-- PKDROP (R194): PKDROP ends a held packet FAILED_REFUSED. -/
  | pkdrop (e : Fin 24) (t : Fin 4) (nd na : Fin 32)
  /-- PKCOPY (R195): PKCOPY copies bytes between local memory and the selected packet. -/
  | pkcopy (e : Fin 24) (t : Fin 4) (nd na nb : Fin 32) (dir : Bool) (r : BusEnd)
  /-- QPOP (R152): QPOP holds the head item of a pop slot and loads its descriptor. -/
  | qpop (e : Fin 24) (t : Fin 4) (nd q : Fin 32)
  /-- QPUSH (R156): QPUSH submits an item to a push slot's home block and returns its status. -/
  | qpush (e : Fin 24) (t : Fin 4) (nd q : Fin 32) (r : BusEnd)
  /-- QACK (R154): QACK ends a held ordinary item with a status and frees its handle. -/
  | qack (e : Fin 24) (t : Fin 4) (nd na nb : Fin 32)
  /-- QPEEK (R156): QPEEK returns the head descriptor of a pop slot without holding it. -/
  | qpeek (e : Fin 24) (t : Fin 4) (nd q : Fin 32)
  /-- LKP (R197): LKP reads the 16-byte definition of a signal through the table unit. -/
  | lkp (e : Fin 24) (t : Fin 4) (nd na : Fin 32)
  /-- LKPW (R197): LKPW writes a signal definition through to DRAM. -/
  | lkpw (e : Fin 24) (t : Fin 4) (nd na : Fin 32)
  /-- LKPS (R308): LKPS finds the nb-th definition of a source key in the active variant. -/
  | lkps (e : Fin 24) (t : Fin 4) (nd na nb : Fin 32)
  /-- TNOW (R200): TNOW writes master VT and EPOCH to nd..nd+3. -/
  | tnow (e : Fin 24) (t : Fin 4) (nd : Fin 32)
  /-- TAT (R201): TAT sets the thread's time alarm. -/
  | tat (e : Fin 24) (t : Fin 4) (nd na : Fin 32)
  /-- TSEND (R202): TSEND sends a held packet to be admitted at a launch time. -/
  | tsend (e : Fin 24) (t : Fin 4) (nd na nb : Fin 32)
  /-- TSTAMP (R203): TSTAMP marks the selected packet for egress stamp insertion. -/
  | tstamp (e : Fin 24) (t : Fin 4) (na : Fin 32) (form : Bool)
  /-- AADD (R204): AADD performs a locked add on a shared-bank word. -/
  | aadd (e : Fin 24) (t : Fin 4) (nd na nb : Fin 32) (r : Option BusEnd)
  /-- ASWP (R204): ASWP performs a locked swap on a shared-bank word. -/
  | aswp (e : Fin 24) (t : Fin 4) (nd na nb : Fin 32) (r : Option BusEnd)
  /-- WEV (R160): WEV waits on the thread's event vector and reports and clears the events found. -/
  | wev (e : Fin 24) (t : Fin 4) (nd na : Fin 32)
  /-- PSCAN (R162): PSCAN reads one word of the engine's pending bits. -/
  | pscan (e : Fin 24) (t : Fin 4) (nd na : Fin 32)
  /-- PCLR (R162): PCLR clears selected pending bits and returns those that were set. -/
  | pclr (e : Fin 24) (t : Fin 4) (nd na nb : Fin 32)
  /-- CQ (R205): CQ submits a crypto job descriptor and returns a job tag. -/
  | cq (e : Fin 24) (t : Fin 4) (nd : Fin 32) (na : DescPtr)
  /-- CQWAIT (R206): CQWAIT waits for a crypto job, returns its status and frees the tag. -/
  | cqwait (e : Fin 24) (t : Fin 4) (nd na : Fin 32)
  /-- YIELD (R141): YIELD passes the thread over until every other READY thread has issued. -/
  | yield (e : Fin 24) (t : Fin 4)
  /-- HALT (R142): HALT halts the thread, or traps HALT_HELD with items held. -/
  | halt (e : Fin 24) (t : Fin 4)
  /-- TRAP (R167): TRAP traps the thread with cause TRAP. -/
  | trap (e : Fin 24) (t : Fin 4) (na : Fin 32)
  /-- BUDGET (R181): BUDGET writes the thread's remaining budget. -/
  | budget (e : Fin 24) (t : Fin 4) (nd : Fin 32)
  /-- FENCE (R207): FENCE waits until every outstanding access of the thread has completed. -/
  | fence (e : Fin 24) (t : Fin 4) (done : Fin 9)
  /-- SIGRD (R198): SIGRD extracts and converts a signal from a payload. -/
  | sigrd (e : Fin 24) (t : Fin 4) (nd na nb : Fin 32) (r : BusEnd)
  /-- SIGWR (R199): SIGWR converts a value and deposits it as a signal, logging it when enabled. -/
  | sigwr (e : Fin 24) (t : Fin 4) (nd na nb : Fin 32) (r : BusEnd)
  /-- FRAME_RECEIVE (R217): A frame received on a switch port is classified, filtered, looked up and admitted to its egress queues. -/
  | frameReceive (p : Fin 18) (bytes : List Byte) (fcsOk : Bool)
  /-- TRANSMISSION_SELECTION (R222): An egress port selects and starts the next frame from its highest eligible class. -/
  | transmissionSelection (p : Fin 23)
  /-- FRAME_TX_COMPLETE (R239): A submitted frame's copies have left and the frame ends with its completion. -/
  | frameTxComplete (p : Fin 18)
  /-- GATE_ENTRY (R224): A gate control list entry's instant is reached and its gate states take effect. -/
  | gateEntry (p : Fin 23)
  /-- GATE_CHANGE_ARM (R226): A write of GATE_CTRL.CHANGE arms the admin bank, or is refused with GATE_ERR. -/
  | gateChangeArm (w : Initiator) (p : Fin 23)
  /-- GATE_CHANGE (R226): At the change instant the old list is cut and the banks swap. -/
  | gateChange (p : Fin 23)
  /-- STREAM_GATE_ENTRY (R229): A stream gate list entry takes effect on its VT grid. -/
  | streamGateEntry (g : Fin 256)
  /-- FRER_RESET_TIMEOUT (R232): A recovery function's reset timeout passes without a copy. -/
  | frerResetTimeout (f : Fin 128)
  /-- PREEMPT_VERIFY (R233): A pre-emption verify exchange runs at VERIFY_TIME intervals and activates or disables pre-emption. -/
  | preemptVerify (p : Fin 6) (answered : Bool)
  /-- FRAME_AGED (R240): A frame that has waited MAX_RES in an egress queue is discarded and counted. -/
  | frameAged (p : Fin 23) (c : Fin 8)
  /-- ADDRESS_AGEING (R220): A dynamic address entry not refreshed for AGE_S is removed. -/
  | addressAgeing (i : Fin 16384)
  /-- PLANE_RETURN (R213): Moved port queues return to their configured plane when it runs again and they are empty. -/
  | planeReturn
  /-- HOST_RING_TAIL (R252): A write of RING_TAIL hands descriptors to the Z480. -/
  | hostRingTail (w : Initiator) (h : Fin 2) (r : Fin 16) (v : BitVec 13)
  /-- HOST_TX_DESCRIPTOR (R238): The Z480 fetches a transmit descriptor with OWN = 1 and submits its frame. -/
  | hostTxDescriptor (h : Fin 2) (r : Fin 8)
  /-- FLUSH_DYN (R248): A write of CTRL.FLUSH_DYN removes all dynamic address entries. -/
  | flushDyn (w : Initiator)
  /-- TBL_READ (R254): TBL_CMD read copies a table entry into TBL_DATA. -/
  | tblRead (w : Initiator) (t : Fin 16)
  /-- TBL_WRITE (R254): TBL_CMD write writes TBL_DATA into a table entry. -/
  | tblWrite (w : Initiator) (t : Fin 16)
  /-- SLEEP_REQ (R244): TC10.SLEEP_REQ starts the sleep handshake on a port. -/
  | sleepReq (w : Initiator) (p : Fin 18)
  /-- WAKE_REQ (R244): TC10.WAKE_REQ sends a wake-up on a port. -/
  | wakeReq (w : Initiator) (p : Fin 18)
  /-- TC10_SLEEP_COMPLETE (R245): A sleeping port's queues empty or 10 ms pass; the remainder is flushed and the handshake completes. -/
  | tc10SleepComplete (p : Fin 18)
  /-- WAKE_SEEN (R245): A wake-up is received on a port, cancelling a pending sleep. -/
  | wakeSeen (p : Fin 18)
  /-- LINK_CHANGE (R246): A port's link changes state. -/
  | linkChange (p : Fin 18) (up : Bool)
  /-- SW_CNT_CLR (R249): A write of SW.CNT_CLR clears every switch counter. -/
  | swCntClr (w : Initiator)
  /-- CAN_FRAME_RECEIVE (R257): A received CAN frame is stamped, filtered and stored in the queue or a buffer. -/
  | canFrameReceive (c : Fin 12) (fmt : CanFmt) (idw : Word) (data : List Byte) (esi : Bool) (af : Word) (ago : Nat)
  /-- RXQ_POP (R265): A read of RXQ_POP pops the head receive entry and returns its index. -/
  | rxqPop (w : Initiator) (c : Fin 12)
  /-- RXE_WORD7_READ (R266): In LOCK mode a read of a popped entry's word 7 frees it. -/
  | rxeWord7Read (w : Initiator) (c : Fin 12) (i : Fin 32)
  /-- MB_ID_READ (R266): In LOCK mode a read of MB_ID locks the receive buffer. -/
  | mbIdRead (w : Initiator) (c : Fin 12) (b : Fin 64)
  /-- MB_STAT_READ (R266): In LOCK mode a read of MB_STAT releases the buffer and applies its shadow. -/
  | mbStatRead (w : Initiator) (c : Fin 12) (b : Fin 64)
  /-- LOCK_EXPIRED (R266): A buffer lock or popped entry not released within LOCK_TO is released by the controller. -/
  | lockExpired (c : Fin 12)
  /-- MB_ACK (R267): In OWN mode a write of MB_ACK returns a buffer to the controller. -/
  | mbAck (w : Initiator) (c : Fin 12) (b : Fin 64)
  /-- RXQ_ACK (R267): In OWN mode a write of RXQ_ACK frees a popped entry. -/
  | rxqAck (w : Initiator) (c : Fin 12) (i : Fin 32)
  /-- TXB_REQ (R269): A write of TXB_REQ requests transmission from a buffer. -/
  | txbReq (w : Initiator) (c : Fin 12) (k : Fin 2) (m : Word)
  /-- TXQ_SUBMIT (R269): A write of TXQ_SUBMIT submits a host transmit-queue entry. -/
  | txqSubmit (w : Initiator) (c : Fin 12) (i : Fin 32)
  /-- TXB_CANCEL (R278): A write of TXB_CANCEL cancels a buffer's pending item, or arms a late cancel. -/
  | txbCancel (w : Initiator) (c : Fin 12) (k : Fin 2) (m : Word)
  /-- TXQ_CANCEL (R278): A write of TXQ_CANCEL cancels a queue entry, or arms a late cancel. -/
  | txqCancel (w : Initiator) (c : Fin 12) (i : Fin 32)
  /-- CAN_TX_START (R274): When the bus permits, the controller chooses the next pending item and starts its frame. -/
  | canTxStart (c : Fin 12)
  /-- CAN_TX_ATTEMPT_END (R279): A transmission attempt ends and its item ends or stays pending. -/
  | canTxAttemptEnd (c : Fin 12) (r : CanTxEnd)
  /-- CAN_DEADLINE (R276): A pending item's deadline passes and it ends FAILED_TIMEOUT. -/
  | canDeadline (c : Fin 12)
  /-- BUS_OFF_RECOVERY (R286): 128 occurrences of 11 recessive bits complete bus-off recovery. -/
  | busOffRecovery (c : Fin 12)
  /-- RECOVER (R286): A write of CMD.RECOVER starts bus-off recovery. -/
  | recover (w : Initiator) (c : Fin 12)
  /-- ALONE_RESUME (R284): A write of CMD.ALONE_RESUME clears SUSPENDED on every buffer. -/
  | aloneResume (w : Initiator) (c : Fin 12)
  /-- TT_COLUMN_MARK (R280): A matrix column's mark opens its window in the time-triggered schedule. -/
  | ttColumnMark (c : Fin 12) (k : ColMark)
  /-- TT_REFERENCE_DUE (R282): A VT-locked reference message falls due and is sent or enters arbitration late. -/
  | ttReferenceDue (c : Fin 12) (busBusy : Bool)
  /-- TT_REFERENCE_TIMEOUT (R281): A slave receives no reference within 1.5 basic cycles and loses SYNC. -/
  | ttReferenceTimeout (c : Fin 12)
  /-- CAN_CNT_CLR (R295): A write of CAN.CNT_CLR clears all CAN counters. -/
  | canCntClr (w : Initiator) (c : Fin 12)
  /-- LIN_HEADER_START (R290): An idle LIN channel with a request and a free response entry starts the request's header. -/
  | linHeaderStart (l : Fin 6)
  /-- LIN_RESPONSE_END (R291): A LIN frame ends and its response item is written with its status. -/
  | linResponseEnd (l : Fin 6) (data : List Byte) (sum : Option Byte) (bitBad frameBad : Bool)
  /-- LIN_RESPONSE_TIMEOUT (R291): A subscribe receives no byte in time and ends FAILED_TIMEOUT. -/
  | linResponseTimeout (l : Fin 6)
  /-- BUS_STUCK (R291): A LIN bus dominant for 100 bit times raises BUS_STUCK and ends the request. -/
  | busStuck (l : Fin 6)
  /-- LIN_WAKE_PULSE_END (R292): A wake pulse's WAKE.US passes and the request ends DONE. -/
  | linWakePulseEnd (l : Fin 6)
  /-- WAKE_RX (R292): An idle channel receives a dominant phase of 150 µs to 5 ms and raises WAKE_RX. -/
  | wakeRx (l : Fin 6) (us : Nat)
  /-- LIN_CNT_CLR (R298): A write of LIN.CNT_CLR clears the three LIN counters. -/
  | linCntClr (w : Initiator) (l : Fin 6)
  /-- SIG_ENABLE (R310): SIG.CTRL.EN set to 1 loads the conversion table and pins the listed lines. -/
  | sigEnable (w : Initiator)
  /-- SIG_DISABLE (R303): SIG.CTRL.EN set to 0 drops the conversion table and takes the catalogue out of service. -/
  | sigDisable (w : Initiator)
  /-- READY (R310): The conversion table and pins are in place and STATUS.READY becomes 1. -/
  | ready (badConv badPins : List Nat)
  /-- LOG_ENABLE (R324): LOG_EN set to 1 opens a chain and writes its genesis. -/
  | logEnable (w : Initiator)
  /-- LOG_DISABLE (R326): LOG_EN set to 0 triggers the chain-end seal. -/
  | logDisable (w : Initiator)
  /-- SEAL (R326): A write of CMD.SEAL triggers a seal. -/
  | seal (w : Initiator)
  /-- CRASH (R330): A write of CMD.CRASH freezes the crash ring, seals and starts writing a crash image. -/
  | crash (w : Initiator)
  /-- CRASH_REARM (R331): A write of CMD.CRASH_REARM unfreezes the crash ring. -/
  | crashRearm (w : Initiator)
  /-- INVALIDATE (R313): A write of CMD.INVALIDATE discards every unpinned cache line. -/
  | invalidate (w : Initiator)
  /-- DEF_READ (R639): DEF_CMD READ reads a definition into DEF_DATA through the table unit. -/
  | defRead (w : Initiator)
  /-- DEF_WRITE (R639): DEF_CMD WRITE writes DEF_DATA into the catalogue as an LKPW does. -/
  | defWrite (w : Initiator)
  /-- DEF_CMD_DONE (R639): A definition command finishes, writes its status and clears BUSY. -/
  | defCmdDone
  /-- LOG_PUSH (R320): A write of LOG_PUSH_3 submits a host log record and returns its status. -/
  | logPush (w : Initiator) (w3 : Word)
  /-- LOG_RECORD_ACCEPT (R322): The SIG unit takes a record from the sink, packs it into the open block and the crash ring. -/
  | logRecordAccept
  /-- SEAL_PERIODIC (R326): Every SEAL_MS on the raw count a periodic seal is triggered. -/
  | sealPeriodic
  /-- SEAL_LATE (R326): A seal pending for 50 ms raises SEAL_LATE. -/
  | sealLate
  /-- CACHE_FILL (R312): A signal-cache line fill from DRAM completes and its waiting lookups proceed. -/
  | cacheFill (e : BusEnd)
  /-- CRASH_DONE (R330): The crash image's seal is programmed last and CRASH_DONE is raised. -/
  | crashDone
  /-- SIG_CNT_CLR (R333): A write of SIG.CNT_CLR clears the eight SIG counters. -/
  | sigCntClr (w : Initiator)
  /-- WISP_RECEIVE (R338): A received wisp is accepted into the member table and may bring consensus or abort. -/
  | wispReceive (r : Fin 13) (w : BitVec 64)
  /-- WISP_FORWARD (R337): HOP_MS after accepting a wisp addressed to it the Z480 forwards it to its successor. -/
  | wispForward (r : Fin 13)
  /-- RING_LOST (R340): RING_MS passes without an accepted wisp and the NODE_ID wait begins. -/
  | ringLost (r : Fin 13)
  /-- WISP_REGENERATE (R340): After the further wait the Z480 removes the silent node and sends a REGEN wisp. -/
  | wispRegenerate (r : Fin 13)
  /-- NM_CTLBLK_READ (R339): Every 1 ms the NM block reads the control block's consent bytes. -/
  | nmCtlblkRead
  /-- MIN_AWAKE_END (R339): A segment's minimum-awake time passes since its last wake. -/
  | minAwakeEnd (g : Fin 35)
  /-- PREPARE_END (R342): PREP_MS passes with the bus idle and the segment enters SLEEP_ENTRY. -/
  | prepareEnd (g : Fin 35)
  /-- SETTLE_END (R342): SETTLE_US passes and the segment enters SLEEP. -/
  | settleEnd (g : Fin 35)
  /-- WAKING_END (R342): WAKE_US passes and the segment returns to AWAKE. -/
  | wakingEnd (g : Fin 35)
  /-- SEGMENT_WAKE_INPUT (R343): A wake input of a segment arrives and is latched or acted on. -/
  | segmentWakeInput (g : Fin 35) (k : Fin 5)
  /-- LATCHED_WAKE_ACTION (R343): The NM block acts on a latched wake in its next cycle. -/
  | latchedWakeAction (g : Fin 35)
  /-- MAX_AWAKE_EXPIRE (R346): The maximum-awake timer reaches MAX_AWAKE_S and the segment enters ISOLATED. -/
  | maxAwakeExpire (g : Fin 35)
  /-- SEG_CTRL_WAKE (R342): A write of SEG_CTRL.WAKE wakes a sleeping segment. -/
  | segCtrlWake (w : Initiator) (g : Fin 35)
  /-- REJOIN (R342): A write of SEG_CTRL.REJOIN takes an ISOLATED segment to WAKING. -/
  | rejoin (w : Initiator) (g : Fin 35)
  /-- SEG_ENABLE (R348): SEG_CFG.EN set to 1 starts a segment in AWAKE or SLEEP. -/
  | segEnable (w : Initiator) (g : Fin 35)
  /-- SEG_DISABLE (R342): SEG_CFG.EN set to 0 disables a segment and reverses its sleep action. -/
  | segDisable (w : Initiator) (g : Fin 35)
  /-- SLUICE_LIN_RELEASE (R344): 100 ms after the NM wake pulse a held LIN request starts. -/
  | sluiceLinRelease (l : Fin 6)
  /-- NM_CNT_CLR (R351): A write of NM.CNT_CLR clears the six NM counters. -/
  | nmCntClr (w : Initiator)
  /-- CQ_SUBMIT (R357): A write of CQ_W3 submits a load-channel command or refuses it when the queue is full. -/
  | cqSubmit (w : Initiator) (q : Fin 4) (w3 : Word)
  /-- OFF (R361): The power die applies an OFF command, ending any shed of the channel. -/
  | off (src : Fin 5)
  /-- ON (R361): The power die applies an ON command unless the channel is latched or shed. -/
  | on (src : Fin 5)
  /-- PWM (R361): The power die applies a PWM command at the given duty and frequency. -/
  | pwm (src : Fin 5)
  /-- CLEAR (R361): The power die applies a CLEAR command, removing a latch unless cooling. -/
  | clear (src : Fin 5)
  /-- TEST (R374): The power die applies a TEST command, starting an on-state switch test pulse. -/
  | test (src : Fin 5)
  /-- HB_SET (R389): The power die sets a half-bridge OFF, HIGH or LOW. -/
  | hbSet (src : Fin 5)
  /-- BRIDGE (R389): The power die sets an H-bridge pair to COAST, FORWARD, REVERSE or a brake. -/
  | bridge (src : Fin 5)
  /-- CMD_LINK_TIMEOUT (R361): A command unconfirmed by the power die within 1 ms ends FAILED_TIMEOUT. -/
  | cmdLinkTimeout (src : Fin 5)
  /-- HARD_SHORT (R366): An output passes 2.5 × I_R and is switched off and latched SHORT. -/
  | hardShort (n : Fin 48) (ma : Nat)
  /-- TRIP (R366): Current above I_TRIP or I_INRUSH for T_TRIP latches the output TRIP. -/
  | trip (n : Fin 48) (i : OverCurrent)
  /-- VDS_FAULT (R366): A predriver's VDS above VDS_TH after blanking latches the output VDS. -/
  | vdsFault (n : Fin 48) (mv : Nat)
  /-- I2T_UPDATE (R370): Every 1 ms the wire-heating value is updated and latches I2T at W_TH. -/
  | i2tUpdate (n : Fin 48) (isq : Nat)
  /-- INRUSH_WINDOW_END (R369): An output's inrush window closes and I_TRIP applies. -/
  | inrushWindowEnd (n : Fin 48)
  /-- TG_TEMP_READ (R377): Every 1 ms a thermal group's sensor is read for warning, limit and over-temperature. -/
  | tgTempRead (g : Fin 6) (deg : Int)
  /-- TG_SHED_STEP (R378): A group at or above LIM sheds one more output every 100 ms. -/
  | tgShedStep (g : Fin 6)
  /-- OPEN_ON (R372): An on output below OL_ON for 2 ms sets OPEN_ON. -/
  | openOn (n : Fin 48) (ua : Nat)
  /-- OFF_STATE_TEST (R373): Every OL_OFF_MS an off output is tested for SHORT_BAT and OPEN_OFF. -/
  | offStateTest (n : Fin 48) (out vbat loaded : Nat)
  /-- TEST_PULSE_END (R374): A switch test pulse ends and the command ends DONE with TEST_FAIL as found. -/
  | testPulseEnd (n : Fin 48) (out vbat : Nat)
  /-- TEST_DEFER_TIMEOUT (R374): A TEST waiting for an inrush window for 100 ms ends DEFERRED. -/
  | testDeferTimeout (n : Fin 48)
  /-- CURRENT_UPDATE (R375): Every 100 µs each output's mean current is written to CH_CUR. -/
  | currentUpdate (n : Fin 48) (ua : Nat)
  /-- POWER_BUDGET_UPDATE (R380): Every 1 ms P_NOW and P_AVG are computed and the budget warnings judged. -/
  | powerBudgetUpdate
  /-- BUDGET_SHED_STEP (R380): Every 10 ms over budget one more output is shed. -/
  | budgetShedStep
  /-- SHED_RESTORE_STEP (R384): Every RESTORE_MS one released output is restored. -/
  | shedRestoreStep
  /-- LOADCH_CLAIM (R386): A write of CTRL.CLAIM takes control of the power die. -/
  | loadchClaim (w : Initiator)
  /-- PARK (R387): A write of CTRL.PARK parks the power die. -/
  | park (w : Initiator)
  /-- CONTROL_LOST (R386): A reset notice or 1 ms of lane silence passes the power die to HOLDING. -/
  | controlLost (notice : Bool)
  /-- T_HOLD_EXPIRE (R386): An output's hold timer expires and it takes its limp state. -/
  | tHoldExpire (n : Fin 48)
  /-- PD_RESTART (R386): VBAT below the power die's undervoltage level restarts it and applies the OTP record. -/
  | pdRestart
  /-- LANE_LOSS (R15): One power-die lane is lost and reported without changing any channel. -/
  | laneLoss (b : Bool)
  /-- PD_VBAT_SAMPLE (R382): While not CONTROLLED the power die measures VBAT and applies stages itself. -/
  | pdVbatSample (mv : Nat)
  /-- OTP_PROG (R402): OTP_CMD PROG programs an output's OTP record once. -/
  | otpProg (w : Initiator)
  /-- OTP_READ (R402): OTP_CMD READ reads an output's OTP record into OTP_DATA. -/
  | otpRead (w : Initiator)
  /-- DI_SAMPLE (R392): Every 1 ms digital inputs are sampled and debounced. -/
  | diSample (mv : Vector Nat 48)
  /-- DI_POLL (R393): In deep sleep every POLL_MS wake inputs are pulsed, sampled and confirmed. -/
  | diPoll (mv : Vector Nat 48)
  /-- AI_CONVERT (R394): Every 100 µs each enabled analogue input is converted and window-checked. -/
  | aiConvert (j : Fin 16) (v : AiVolt) (cal : Bool)
  /-- LOADCH_CNT_CLR (R396): A write of LOADCH.CNT_CLR clears the four counters. -/
  | loadchCntClr (w : Initiator)
  /-- TCMCPY_GO (R412): A write of TCMCPY_CTL.GO starts a TCM copy or refuses it. -/
  | tcmcpyGo (w : Initiator) (len : BitVec 19)
  /-- TCMCPY_DONE (R412): A TCM copy ends and writes its status. -/
  | tcmcpyDone (e : BusEnd)
  /-- ATOM_AADD (R419): A write of ATOM_AADD performs an atomic add on the bank word at ATOM_ADDR. -/
  | atomAadd (w : Initiator) (v : Word)
  /-- ATOM_ASWP (R419): A write of ATOM_ASWP performs an atomic swap on the bank word at ATOM_ADDR. -/
  | atomAswp (w : Initiator) (v : Word)
  /-- HART_BANK_AMO (R418): A hart AMO, LR or SC on a shared-bank word is performed in the bank. -/
  | hartBankAmo (h : Fin 8) (op : AmoOp) (dbl : Bool) (addr : BitVec 40) (v : BitVec 64)
  /-- LR_RESERVATION_EXPIRE (R418): A bank LR reservation is cleared after 1,024 bank cycles. -/
  | lrReservationExpire (h : Fin 8)
  /-- CWY_LOCKED_SEQUENCE (R427): A hart's locked AMO or LR/SC to a peripheral address locks the peripheral fabric. -/
  | cwyLockedSequence (h : Fin 8) (op : AmoOp) (dbl : Bool) (addr : BitVec 40) (v : Word) (retries : Fin 9)
  /-- LOCK_BROKEN (R427): A Causeway lock held for 64 cycles is broken. -/
  | lockBroken
  /-- CWY_TIMEOUT (R426): A far side silent for CTRL.TIMEOUT ends the transaction FAILED_TIMEOUT. -/
  | cwyTimeout (w : Initiator) (addr : BitVec 40) (write : Bool) (part : Fin 8) (be : BitVec 4)
  /-- CWY_POSTED_ERROR (R426): A posted write's far-side error is logged in ERRLOG and raises ERR. -/
  | cwyPostedError (w : Initiator) (addr : BitVec 40) (e : BusEnd) (part : Fin 8) (be : BitVec 4)
  /-- LATE_RESP (R426): A response after the Causeway timeout is discarded and counted. -/
  | lateResp
  /-- POP_UNDO (R432): A discarded speculative pop restores the item to its FIFO head. -/
  | popUndo (r : PopReg)
  /-- ERRLOG_POP (R435): A read of ERRLOG_POP pops the oldest Causeway error and latches its details. -/
  | errlogPop (w : Initiator)
  /-- DRAM_SCRUB (R422): Patrol scrubbing reads and corrects DRAM, logging uncorrectable errors. -/
  | dramScrub (addr : BitVec 40) (found : HdrEcc)
  /-- MEM_CNT_CLR (R434): A write of MEM.CNT_CLR clears every MEM counter. -/
  | memCntClr (w : Initiator)
  /-- CWY_CNT_CLR (R435): A write of CWY.CNT_CLR clears the five Causeway counters. -/
  | cwyCntClr (w : Initiator)
  /-- SGI_SET (R437): A write of SGI_SET latches an edge source's request. -/
  | sgiSet (w : Initiator) (id : Fin 1024)
  /-- IC_CLAIM (R442): A read of CLAIM returns the best pending source and pushes it on the target's stack. -/
  | icClaim (w : Initiator) (t : Fin 13)
  /-- EOI (R444): A write of EOI pops the source at the top of the target's stack. -/
  | eoi (w : Initiator) (t : Fin 13) (id : Fin 1024)
  /-- VECTOR_ENTRY (R446): A real-time pair with vector assist claims a source, saves its frame and enters the handler. -/
  | vectorEntry (p : Fin 4) (r : PairRegs)
  /-- ASSISTED_MRET (R450): MRET in an assisted handler performs EOI and tail-chains or restores the frame. -/
  | assistedMret (p : Fin 4) (r : PairRegs)
  /-- WCALL (R471): WCALL enters Anvil from world 0 or returns from world 1. -/
  | wcall (h : Fin 8) (c : HartCtx)
  /-- SLEEP_STANDBY (R454): SLEEP_CMD STANDBY starts sleep entry or is refused. -/
  | sleepStandby (w : Initiator)
  /-- SLEEP_DEEP (R454): SLEEP_CMD DEEP starts sleep entry towards DEEP or is refused. -/
  | sleepDeep (w : Initiator)
  /-- SLEEP_ENTRY_STEP (R455): A stopped group of islands lets Heron's sleep entry pass to its next step. -/
  | sleepEntryStep
  /-- HERON_WAKE (R456): A wake input or tamper wakes the Z480 from STANDBY or DEEP, or aborts an entry. -/
  | heronWake (by_ : WakeBy)
  /-- WATCHED_SOURCE_WAKE (R453): A watched source becoming requesting while asleep latches its bit and wakes the Z480. -/
  | watchedSourceWake (k : Fin 64)
  /-- WAKE_ORDER_STEP (R456): After each ORDER entry's DELAY_US the next island of the wake order starts. -/
  | wakeOrderStep
  /-- VREG_DELAY_END (R457): VREG_DELAY after a DEEP wake the core die starts its power-on sequence. -/
  | vregDelayEnd
  /-- INVAL_PAGE (R470): INVAL_CMD PAGE drops one page's entries from every ownership cache. -/
  | invalPage (w : Initiator)
  /-- INVAL_ALL (R470): INVAL_CMD ALL drops every entry from every ownership cache. -/
  | invalAll (w : Initiator)
  /-- INVAL_DONE (R470): Every cache has dropped the named entries and BUSY clears. -/
  | invalDone
  /-- ANVIL_TIMEOUT (R473): A hart in world 1 beyond ANVIL_MAX is returned with WCALL_TIMEOUT. -/
  | anvilTimeout (h : Fin 8)
  /-- L2_RES_CHANGE (R475): A change of L2_RES writes back and invalidates ways 14 and 15 before it takes effect. -/
  | l2ResChange (w : Initiator) (b en : Bool)
  /-- TONGS_REQUEST (R477): TONGS_CMD REQUEST asks a block's owner to release it. -/
  | tongsRequest (w : Initiator) (k : Fin 32) (nw : Bool) (ni : Fin 32)
  /-- TONGS_FORCE (R477): TONGS_CMD FORCE takes a block into RESET. -/
  | tongsForce (w : Initiator) (k : Fin 32) (nw : Bool) (ni : Fin 32)
  /-- TONGS_GRANT (R477): TONGS_CMD GRANT gives a GRANTABLE block to its new owner. -/
  | tongsGrant (w : Initiator) (k : Fin 32) (nw : Bool) (ni : Fin 32)
  /-- TONGS_REL (R480): A write of TONGS_REL by the owner releases a block into RESET. -/
  | tongsRel (w : Initiator) (k : Fin 32)
  /-- TONGS_TIMEOUT (R477): TO_MS passes in RELEASING and the block is forced or flagged. -/
  | tongsTimeout (k : Fin 27)
  /-- TONGS_DONE (R478): A tongs block reset completes and the block becomes GRANTABLE. -/
  | tongsDone (k : Fin 27)
  /-- KEEPALIVE (R482): A write of OWN.KEEPALIVE sets or withdraws island votes. -/
  | keepalive (w : Initiator) (v : Word)
  /-- LC_CMD (R483): A write of LC_CMD blows a permitted life-cycle change or is refused. -/
  | lcCmd (w : Initiator) (target : Fin 4) (code : BitVec 16)
  /-- HWDT_KICK (R485): A write of HWDT_KICK restarts the Hearth watchdog, or counts as an expiry. -/
  | hwdtKick (w : Initiator) (v : Word)
  /-- HEARTH_RESTART (R486): The Hearth watchdog expires and Hearth restarts alone. -/
  | hearthRestart
  /-- HEARTH_IMAGE_VERIFY (R487): A restarted Hearth image is hashed and verified, or escalates to a chip reset. -/
  | hearthImageVerify
  /-- SERVICE_UP (R486): Hearth firmware writes SERVICE_UP and WCALLs enter Anvil again. -/
  | serviceUp (w : Initiator)
  /-- DEBUG_ACCESS (R641): The debug port issues an access with its own identity through MEM. -/
  | debugAccess (write : Bool) (addr : BitVec 40) (size : AccSize) (data : Word)
  /-- OWN_CNT_CLR (R489): A write of OWN.CNT_CLR clears the four OWN counters. -/
  | ownCntClr (w : Initiator)
  /-- VIOL_POP (R489): A read of VIOL_POP pops the oldest violation and latches its details. -/
  | violPop (w : Initiator)
  /-- SQ_TAIL (R490): A write of SQ_TAIL offers descriptors to the VQI. -/
  | sqTail (w : Initiator) (i : Fin 32) (p : Fin 8) (v : BitVec 13)
  /-- VQI_FETCH (R490): The VQI fetches an offered descriptor when a CQ entry is free and reserves it. -/
  | vqiFetch (i : Fin 32) (p : Fin 8)
  /-- ADMISSION_SLOT (R501): Each 3.2 ns admission slot admits one item of an instance to a target. -/
  | admissionSlot (t : Fin 4) (take : Bool)
  /-- SHARE_ROUND_BOUNDARY (R502): At a round boundary a new share takes effect and OVER_SHARE may be set. -/
  | shareRoundBoundary
  /-- VQI_COMPLETION (R495): A target completes an instance item and its CQ record is written, or a stale one discarded. -/
  | vqiCompletion
  /-- INSTANCE_RESET (R504): CMD.RESET in the instance page resets an ACTIVE instance. -/
  | instanceReset (w : Initiator) (i : Fin 32)
  /-- MANAGER_RESET (R504): The manager's CMD.RESET resets an instance in any state but DISABLED. -/
  | managerReset (w : Initiator) (i : Fin 32)
  /-- FREEZE (R507): CMD.FREEZE stops an ACTIVE instance's fetching and starts the freeze timer. -/
  | freeze (w : Initiator) (i : Fin 32)
  /-- THAW (R507): CMD.THAW resumes a FROZEN instance. -/
  | thaw (w : Initiator) (i : Fin 32)
  /-- VQI_ENABLE (R507): CFG.EN set to 1 enables an instance when the share sum allows. -/
  | vqiEnable (w : Initiator) (i : Fin 32)
  /-- VQI_DISABLE (R504): CFG.EN set to 0 resets an instance into DISABLED. -/
  | vqiDisable (w : Initiator) (i : Fin 32)
  /-- FREEZE_TIMEOUT (R507): The 2 ms freeze timer expires and remaining items end ABORTED_RESET. -/
  | freezeTimeout (i : Fin 32)
  /-- SHARE_WRITE (R501): A SHARE write is accepted or refused by the share-sum rule. -/
  | shareWrite (w : Initiator) (i : Fin 32) (v : BitVec 11)
  /-- MIG_EXPORT (R509): MIG_CMD EXPORT builds and MACs a FROZEN instance's export record. -/
  | migExport (w : Initiator) (i : Fin 32)
  /-- MIG_RESTORE (R510): MIG_CMD RESTORE checks and applies an export record to a DISABLED instance. -/
  | migRestore (w : Initiator) (i : Fin 32)
  /-- MIG_DONE (R510): A migration command finishes and writes MIG_STAT. -/
  | migDone
  /-- VQI_CNT_CLR (R512): A write of CNT_CLR clears an instance's six counters. -/
  | vqiCntClr (w : Initiator) (i : Fin 32)
  /-- ERASE_4K (R518): XSPI CMD ERASE_4K erases a sector or is refused. -/
  | erase4k (w : Initiator)
  /-- ERASE_64K (R518): XSPI CMD ERASE_64K erases a block or is refused. -/
  | erase64k (w : Initiator)
  /-- PROGRAM (R518): XSPI CMD PROGRAM programs and reads back bytes or is refused. -/
  | program (w : Initiator) (e : BusEnd)
  /-- CMD_DONE (R518): A settings-flash command ends and writes STAT.LAST. -/
  | cmdDone (differs : Bool)
  /-- XSPI_BUSY_TIMEOUT (R518): The flash busy for 2 s ends the command FAILED_TIMEOUT. -/
  | xspiBusyTimeout
  /-- XSPI_SUSPEND (R519): A window read suspends a running erase or program. -/
  | xspiSuspend
  /-- XSPI_RESUME (R519): After 20 µs of window idle the suspended operation resumes. -/
  | xspiResume
  /-- ALT (R532): BOOT_CMD.ALT performs a software reset with the booted slot excluded. -/
  | alt (w : Initiator)
  /-- ROLLBACK_ADV (R535): BOOT_CMD.ROLLBACK_ADV blows the next rollback fuse or is refused. -/
  | rollbackAdv (w : Initiator)
  /-- POWER_ON (R529): VBAT becomes valid and the power die, peat domain and regulator enables start. -/
  | powerOn (aon : Bool)
  /-- CORE_RESET_RELEASE (R529): The core die leaves reset and the boot ROM chooses a slot and starts Hearth. -/
  | coreResetRelease (cap : Option (Fin 3)) (dram : Option (Fin 4 × Fin 4)) (full : Bool)
  /-- BOOT_RETRY (R528): With no valid slot the boot ROM repeats slot selection every 2 s. -/
  | bootRetry
  /-- JQ_SUBMIT (R547): JQ_SUBMIT.GO submits a host crypto job or refuses it. -/
  | jqSubmit (w : Initiator)
  /-- SHA512 (R546): A SHA512 job hashes its input. -/
  | sha512
  /-- HMAC (R546): An HMAC job computes a tag with an HMAC key. -/
  | hmac
  /-- HMAC_VER (R546): An HMAC_VER job checks an expected tag. -/
  | hmacVer
  /-- CMAC (R546): A CMAC job computes an AES CMAC tag. -/
  | cmac
  /-- CMAC_VER (R546): A CMAC_VER job checks an expected CMAC tag. -/
  | cmacVer
  /-- GCM_ENC (R546): A GCM_ENC job encrypts and tags data. -/
  | gcmEnc
  /-- GCM_DEC (R546): A GCM_DEC job decrypts and checks data. -/
  | gcmDec
  /-- SIGN (R546): A SIGN job signs with a P-521 private key. -/
  | sign
  /-- VERIFY (R546): A VERIFY job checks a P-521 signature. -/
  | verify
  /-- DERIVE (R537): A DERIVE job derives a key into a destination slot. -/
  | derive
  /-- WRAP (R546): A WRAP job exports a slot key wrapped under an AES key. -/
  | wrap
  /-- UNWRAP (R546): An UNWRAP job loads a wrapped key into a slot. -/
  | unwrap
  /-- PUBKEY (R546): A PUBKEY job outputs a slot's public key. -/
  | pubkey
  /-- ATTEST (R550): An ATTEST job builds and signs an attestation statement. -/
  | attest
  /-- RANDOM (R546): A RANDOM job outputs DRBG bytes. -/
  | random
  /-- LOADPUB (R546): A LOADPUB job loads a public key into a slot. -/
  | loadpub
  /-- CRYPTO_JOB_DONE (R548): A crypto job completes, writes its output and reports its status to its submitter. -/
  | cryptoJobDone (pk : Bool)
  /-- SLOT_CLEAR (R559): SLOT_CMD CLEAR clears a key slot. -/
  | slotClear (w : Initiator) (slot : Fin 64)
  /-- SLOT_COMMIT (R553): SLOT_CMD COMMIT replaces the active part with the shadow. -/
  | slotCommit (w : Initiator) (slot : Fin 64)
  /-- SLOT_DISCARD (R559): SLOT_CMD DISCARD discards a slot's shadow. -/
  | slotDiscard (w : Initiator) (slot : Fin 64)
  /-- KEY_CNT_CLR (R559): A write of KEY.CNT_CLR clears the three KEY counters. -/
  | keyCntClr (w : Initiator)
  /-- TAMPER_ALARM (R555): A tamper source alarms and drives Quench. -/
  | tamperAlarm (src : Fin 7)
  /-- CLEAR_LATCH (R557): TAMP.CMD.CLEAR_LATCH clears TAMPER_LATCH when no source alarms. -/
  | clearLatch (w : Initiator)
  /-- TAMP_CFG_LOCK (R561): A write of TAMP.CFG.LOCK makes CFG read-only until power-on. -/
  | tampCfgLock (w : Initiator)
  /-- VBAT_SAMPLE (R562): Every 100 µs Bellows samples VBAT and enters or releases stages. -/
  | vbatSample (mv : Nat)
  /-- HART_PARK (R566): PARK_MS after PARK_PEND a hart completes its accesses and its clock stops. -/
  | hartPark (h : Fin 8)
  /-- STAGE4_SEAL_STOP (R564): The LOGSEAL engine's threads stop once the stage-4 seal is produced or 50 ms pass. -/
  | stage4SealStop
  /-- BROWN_OUT (R568): Both core rails below 0.68 V for 1 µs perform a brown-out reset. -/
  | brownOut
  /-- CORE_TJ_READ (R570): Every 1 ms Bellows reads the hottest core junction and acts on its thresholds. -/
  | coreTjRead (deg : Int)
  /-- PIN_RESET (R571): RSTn held low for 1 µs performs a PIN chip reset. -/
  | pinReset
  /-- CHIP_RST (R574): A keyed write of CHIP_RST performs a software chip reset. -/
  | chipRst (w : Initiator) (go : Bool) (key : BitVec 16)
  /-- WD_KICK (R577): A write of WD_KICK forms part of a chip watchdog kick, or counts as an expiry. -/
  | wdKick (w : Initiator) (v : Word)
  /-- WD_WARN (R577): At 75 % of its period the chip watchdog raises WD_WARN. -/
  | wdWarn
  /-- CHIP_WDOG (R577): The chip watchdog period ends and performs a CHIP_WDOG reset. -/
  | chipWdog
  /-- WD_CFG_LOCK (R577): A write of WD_CFG.LOCK fixes WD_CFG until the next chip reset. -/
  | wdCfgLock (w : Initiator)
  /-- HB_KICK (R578): A write of HB_KICK kicks a heartbeat channel back to ALIVE. -/
  | hbKick (w : Initiator) (c : Fin 16)
  /-- HEARTBEAT_LOST (R578): A heartbeat channel's timeout passes or its primary island stops, and it becomes LOST. -/
  | heartbeatLost (c : Fin 16)
  /-- LOCKSTEP (R579): A real-time pair disagreement puts its island in RESET within 100 ns. -/
  | lockstep (p : Fin 4)
  /-- HC_LOCKSTEP (R580): An HC disagreement is handled as a Hearth watchdog expiry. -/
  | hcLockstep
  /-- BIST_REQ (R586): BIST_REQ.GO requests a logic-BIST window and asserts BIST_ASK. -/
  | bistReq (w : Initiator) (h : Fin 8) (go : Bool)
  /-- BIST_GRANT (R587): BIST_GRANT.GRANT starts the hart's 2 ms BIST window. -/
  | bistGrant (w : Initiator) (h : Fin 8)
  /-- BIST_DENY (R586): BIST_GRANT.DENY ends the request DEFERRED. -/
  | bistDeny (w : Initiator) (h : Fin 8)
  /-- BIST_GRANT_TIMEOUT (R586): A request ungranted for 100 ms ends DEFERRED. -/
  | bistGrantTimeout
  /-- BIST_WINDOW_END (R587): The BIST window ends DONE with its pass result. -/
  | bistWindowEnd (pass : Bool)
  /-- BLW_CNT_CLR (R589): A write of BLW.CNT_CLR clears the five Bellows counters. -/
  | blwCntClr (w : Initiator)
  /-- SYSCTL_CNT_CLR (R591): A write of SYSCTL.CNT_CLR clears both SYSCTL counters. -/
  | sysctlCntClr (w : Initiator)
  /-- DOMAIN_RAIL_VALID (R31): A lost domain's rail power-good and clock-good rise again, so BLW.RAIL shows it good and a START of its OFF islands becomes acceptable. -/
  | domainRailValid (d : Domain)
  /-- LANE_RESTORED (R386): A silent power-die interface lane becomes alive again, setting STATUS.LANE_A or LANE_B and allowing CLAIM out of PARKED, HOLDING or LIMP. -/
  | laneRestored (b : Bool)
  /-- CSI_SKEW_CALIBRATION (R123): An initial or periodic skew calibration sequence on a CSI port's lanes completes and sets CAM.STATUS.DESKEWED. -/
  | csiSkewCalibration (n : Fin 4)
  /-- TAMPER_CONDITION_CLEARED (R561): The last alarming tamper source returns within its limits and TAMP.STATUS.ACTIVE clears. -/
  | tamperConditionCleared (src : Fin 7)
  /-- CAN_RECEIVE_ERROR (R284): The controller detects a stuff, form, CRC or bit error in a frame on the bus that it does not transmit, signals the error and raises REC, possibly changing its error state. -/
  | canReceiveError (c : Fin 12) (e : CanRxErr)
  deriving DecidableEq, Repr

end Sys2Proof
end

