-- ==== Sys2Proof/Config.lean ====
section
/-!
DEFINITION. What one chip fixes and the manual does not state, and the values the manual leaves open. Every one is an opaque
constant: nothing can be proved of its value, so a theorem about the machine holds whatever it is.
-/
namespace Sys2Proof.Config

/-- The free values: the `n`-th value that the manual leaves undefined (assumption 3). -/
opaque freeNat (n : Nat) : Nat

/-- The life-cycle state that the fuses of this chip give (R483): 0 BLANK, 1 DEVELOP, 2 PRODUCTION, 3 RETURNED. -/
opaque lifeCycle : Nat

/-- Whether wafer test left the debug port available in BLANK (chapter 00, the life-cycle states). -/
opaque blankDebug : Bool

/-- The payload bytes of a camera segment, SEG_MAX of R128; the manual gives it in an example only. -/
opaque segMax : Nat

/-- The kind of a camera line item and its descriptor words 1 to 3, which the manual does not give (R152). -/
opaque lineWord (k : Nat) : Nat

/-- The kind of an NM event item and its words 2 and 3, which the manual does not give (R349). -/
opaque nmWord (k : Nat) : Nat

/-- The source address of the backbone wisp, which the manual does not give (R335). -/
opaque wispSource : Nat

/-- The hash of FID and MAC address that chooses a set of the address table; R219 does not give it. -/
opaque addrHash (fid mac : Nat) : Nat

/-- What the byte of DRAM at an address holds after the `n`-th reset that leaves DRAM undefined, until it is written (R640). -/
opaque dramByte (n a : Nat) : Nat

/-- Whether the crash ring outlives a wake from DEEP: R329 keeps it through every reset but power-on and brown-out, R454 lets the core die lose its contents. -/
opaque deepKeepsCrash : Bool

/-- The bytes of the boot ROM (R32). -/
opaque bootRom (a : Nat) : Nat

/-- The fused identities: unique ID, fuse root, platform ID, hash of the image key, the Worval key held in the boot ROM, the rollback count at the factory (R483, R523, R536, R559). -/
opaque uid : Nat
opaque fuseRoot : Nat
opaque platformId : Nat
opaque imageKeyHash : Nat
opaque worvalKey : Nat
opaque rollback : Nat

end Sys2Proof.Config
end

