-- ==== Sys2Proof/Machine/RegNames.lean ====
section
/-!
DEFINITION. The names of the registers and of their fields, each at the place the register tables of spec/ give it (R1, R34, R35).
`R.BLOCK_REG` is a register's physical address (with its unit `u` and its indices), `F.BLOCK_REG_FIELD` a field's place in it.
-/
namespace Sys2Proof.Machine

/-- A field of a register: the register's address, its highest and its lowest bit (R3). -/
structure Fld where
  addr : Nat
  hi : Nat
  lo : Nat
  deriving DecidableEq, Repr

/-! ### Register addresses -/
def R.SYSCTL_RESET_CAUSE : Nat := 0x4000000
def R.SYSCTL_CHIP_RST : Nat := 0x4000004
def R.SYSCTL_EVENT : Nat := 0x4000008
def R.SYSCTL_EVENT_EN : Nat := 0x400000C
def R.SYSCTL_DISCARD_CNT : Nat := 0x4000010
def R.SYSCTL_ISL_RST_CNT : Nat := 0x4000014
def R.SYSCTL_CNT_CLR : Nat := 0x4000018
def R.SYSCTL_DRAIN_US : Nat := 0x4000020
def R.SYSCTL_LS_STAT : Nat := 0x4000024
def R.SYSCTL_ISL_CMD_i (i : Nat) : Nat := 0x4000100 + 8 * i
def R.SYSCTL_ISL_STAT_i (i : Nat) : Nat := 0x4000104 + 8 * i
def R.SYSCTL_BIST_REQ : Nat := 0x4000300
def R.SYSCTL_BIST_GRANT : Nat := 0x4000304
def R.SYSCTL_BIST_STAT : Nat := 0x4000308
def R.SYSCTL_BOOT_STATUS : Nat := 0x4008000
def R.SYSCTL_BOOT_SEQ_LO : Nat := 0x4008004
def R.SYSCTL_BOOT_SEQ_HI : Nat := 0x4008008
def R.SYSCTL_BOOT_RETRIES : Nat := 0x400800C
def R.SYSCTL_BOOT_CMD : Nat := 0x4008010
def R.SYSCTL_ROLLBACK : Nat := 0x4008014
def R.SYSCTL_BOOT_VAR : Nat := 0x4008018
def R.SYSCTL_XSPI_CAP : Nat := 0x4008100
def R.SYSCTL_XSPI_WIN_BASE : Nat := 0x4008104
def R.SYSCTL_XSPI_CMD : Nat := 0x4008108
def R.SYSCTL_XSPI_ADDR : Nat := 0x400810C
def R.SYSCTL_XSPI_SRC_LO : Nat := 0x4008110
def R.SYSCTL_XSPI_SRC_HI : Nat := 0x4008114
def R.SYSCTL_XSPI_LEN : Nat := 0x4008118
def R.SYSCTL_XSPI_STAT : Nat := 0x400811C
def R.SYSCTL_XSPI_EVENT : Nat := 0x4008120
def R.SYSCTL_XSPI_EVENT_EN : Nat := 0x4008124
def R.TIME_CTRL : Nat := 0x4010000
def R.TIME_STATUS : Nat := 0x4010004
def R.TIME_EVENT : Nat := 0x4010008
def R.TIME_EVENT_EN : Nat := 0x401000C
def R.TIME_NOW_NS : Nat := 0x4010010
def R.TIME_NOW_SEC_LO : Nat := 0x4010014
def R.TIME_NOW_SEC_HI : Nat := 0x4010018
def R.TIME_NOW_FRAC : Nat := 0x401001C
def R.TIME_SET_NS : Nat := 0x4010020
def R.TIME_SET_SEC_LO : Nat := 0x4010024
def R.TIME_SET_SEC_HI : Nat := 0x4010028
def R.TIME_SET_CMD : Nat := 0x401002C
def R.TIME_FREQ : Nat := 0x4010030
def R.TIME_SERVO : Nat := 0x4010034
def R.TIME_JUMP_TH : Nat := 0x4010038
def R.TIME_PERSIST : Nat := 0x401003C
def R.TIME_STEP_ACCEPT : Nat := 0x4010040
def R.TIME_STEP_PEND_LO : Nat := 0x4010044
def R.TIME_STEP_PEND_HI : Nat := 0x4010048
def R.TIME_EPOCH : Nat := 0x401004C
def R.TIME_OFFSET_LAST : Nat := 0x4010050
def R.TIME_STEP_LAST : Nat := 0x4010054
def R.TIME_SPLIT_CFG : Nat := 0x4010058
def R.TIME_SPLIT_DIFF : Nat := 0x401005C
def R.TIME_HOLD_CFG : Nat := 0x4010060
def R.TIME_DOM_n (i : Nat) : Nat := 0x4010070 + 4 * i
def R.TIME_DOM_OFS_n (i : Nat) : Nat := 0x4010080 + 4 * i
def R.TIME_TWIN_CFG : Nat := 0x4010090
def R.TIME_TWIN_STATUS : Nat := 0x4010094
def R.TIME_ASYM_EST : Nat := 0x4010098
def R.TIME_TWIN_CMD : Nat := 0x401009C
def R.TIME_TWIN_CORR_P0 : Nat := 0x40100A0
def R.TIME_TWIN_CORR_P1 : Nat := 0x40100A4
def R.TIME_THETA_P0 : Nat := 0x40100A8
def R.TIME_THETA_P1 : Nat := 0x40100AC
def R.TIME_BASE_P0 : Nat := 0x40100B0
def R.TIME_BASE_P1 : Nat := 0x40100B4
def R.TIME_TEMP : Nat := 0x40100C0
def R.TIME_LEARN_IDX : Nat := 0x40100C4
def R.TIME_LEARN_FREQ : Nat := 0x40100C8
def R.TIME_LEARN_CNT : Nat := 0x40100CC
def R.TIME_PPS_CFG : Nat := 0x40100D0
def R.TIME_PPS_DELAY : Nat := 0x40100D4
def R.TIME_PPS_SEC_LO : Nat := 0x40100D8
def R.TIME_PPS_SEC_HI : Nat := 0x40100DC
def R.TIME_PHY_RX_LAT_n (i : Nat) : Nat := 0x4010100 + 16 * i
def R.TIME_PHY_TX_LAT_n (i : Nat) : Nat := 0x4010104 + 16 * i
def R.TIME_PORT_ASYM_n (i : Nat) : Nat := 0x4010108 + 16 * i
def R.TIME_SPLIT_CNT : Nat := 0x4010300
def R.TIME_REFUSED_CNT : Nat := 0x4010304
def R.TIME_DISCARD_CNT : Nat := 0x4010308
def R.TIME_PPS_SPUR_CNT : Nat := 0x401030C
def R.TIME_CNT_CLR : Nat := 0x4010310
def R.TRG_CFG_n (i : Nat) : Nat := 0x4020000 + 64 * i
def R.TRG_ANCHOR_NS_n (i : Nat) : Nat := 0x4020004 + 64 * i
def R.TRG_ANCHOR_SEC_LO_n (i : Nat) : Nat := 0x4020008 + 64 * i
def R.TRG_ANCHOR_SEC_HI_n (i : Nat) : Nat := 0x402000C + 64 * i
def R.TRG_ANCHOR_FRAC_n (i : Nat) : Nat := 0x4020010 + 64 * i
def R.TRG_PERIOD_NS_n (i : Nat) : Nat := 0x4020014 + 64 * i
def R.TRG_PERIOD_FRAC_n (i : Nat) : Nat := 0x4020018 + 64 * i
def R.TRG_WIDTH_n (i : Nat) : Nat := 0x402001C + 64 * i
def R.TRG_COUNT_n (i : Nat) : Nat := 0x4020020 + 64 * i
def R.TRG_CMD_n (i : Nat) : Nat := 0x4020024 + 64 * i
def R.TRG_STATUS_n (i : Nat) : Nat := 0x4020028 + 64 * i
def R.TRG_EDGE_IDX_n (i : Nat) : Nat := 0x402002C + 64 * i
def R.TRG_LAST_NS_n (i : Nat) : Nat := 0x4020030 + 64 * i
def R.TRG_LAST_SEC_LO_n (i : Nat) : Nat := 0x4020034 + 64 * i
def R.TRG_LAST_HI_n (i : Nat) : Nat := 0x4020038 + 64 * i
def R.TRG_SKIP_CNT_n (i : Nat) : Nat := 0x402003C + 64 * i
def R.TRG_CAP_CFG_m (i : Nat) : Nat := 0x4021000 + 32 * i
def R.TRG_CAP_DELAY_m (i : Nat) : Nat := 0x4021004 + 32 * i
def R.TRG_CAP_STAMP_NS_m (i : Nat) : Nat := 0x4021008 + 32 * i
def R.TRG_CAP_STAMP_SEC_LO_m (i : Nat) : Nat := 0x402100C + 32 * i
def R.TRG_CAP_STAMP_HI_m (i : Nat) : Nat := 0x4021010 + 32 * i
def R.TRG_CAP_STAMP_INFO_m (i : Nat) : Nat := 0x4021014 + 32 * i
def R.TRG_CAP_STATUS_m (i : Nat) : Nat := 0x4021018 + 32 * i
def R.TRG_CAP_DROP_CNT_m (i : Nat) : Nat := 0x402101C + 32 * i
def R.TRG_OUT_EN : Nat := 0x4022000
def R.CAM_CTRL (u : Nat) : Nat := 0x4030000 + 0x4000 * u
def R.CAM_PHY_RATE (u : Nat) : Nat := 0x4030004 + 0x4000 * u
def R.CAM_LINK_LAT (u : Nat) : Nat := 0x4030008 + 0x4000 * u
def R.CAM_LINK_TO (u : Nat) : Nat := 0x403000C + 0x4000 * u
def R.CAM_STAGE_CFG (u : Nat) : Nat := 0x4030010 + 0x4000 * u
def R.CAM_STATUS (u : Nat) : Nat := 0x4030014 + 0x4000 * u
def R.CAM_EVENT (u : Nat) : Nat := 0x4030018 + 0x4000 * u
def R.CAM_EVENT_EN (u : Nat) : Nat := 0x403001C + 0x4000 * u
def R.CAM_LINES_FWD (u : Nat) : Nat := 0x4030040 + 0x4000 * u
def R.CAM_LINES_DROP (u : Nat) : Nat := 0x4030044 + 0x4000 * u
def R.CAM_PKT_DISC (u : Nat) : Nat := 0x4030048 + 0x4000 * u
def R.CAM_CRC_CNT (u : Nat) : Nat := 0x403004C + 0x4000 * u
def R.CAM_FRAMES_ABORT (u : Nat) : Nat := 0x4030050 + 0x4000 * u
def R.CAM_CNT_CLR (u : Nat) : Nat := 0x4030054 + 0x4000 * u
def R.CAM_VC_CFG_v (u : Nat) (i : Nat) : Nat := 0x4030100 + 0x4000 * u + 16 * i
def R.CAM_VC_TRIG_v (u : Nat) (i : Nat) : Nat := 0x4030104 + 0x4000 * u + 16 * i
def R.CAM_VC_SEQ_v (u : Nat) (i : Nat) : Nat := 0x4030108 + 0x4000 * u + 16 * i
def R.ENG_STATUS (u : Nat) : Nat := 0x2020000 + 0x80000 * u
def R.ENG_EVENT (u : Nat) : Nat := 0x2020004 + 0x80000 * u
def R.ENG_EVENT_EN (u : Nat) : Nat := 0x2020008 + 0x80000 * u
def R.ENG_THR_CMD_t (u : Nat) (i : Nat) : Nat := 0x2020100 + 0x80000 * u + 64 * i
def R.ENG_THR_PC_t (u : Nat) (i : Nat) : Nat := 0x2020104 + 0x80000 * u + 64 * i
def R.ENG_THR_USED_t (u : Nat) (i : Nat) : Nat := 0x2020108 + 0x80000 * u + 64 * i
def R.ENG_THR_OVER_CNT_t (u : Nat) (i : Nat) : Nat := 0x202010C + 0x80000 * u + 64 * i
def R.ENG_THR_HELD_t (u : Nat) (i : Nat) : Nat := 0x2020110 + 0x80000 * u + 64 * i
def R.ENG_TRAP_0_t (u : Nat) (i : Nat) : Nat := 0x2020120 + 0x80000 * u + 64 * i
def R.ENG_TRAP_1_t (u : Nat) (i : Nat) : Nat := 0x2020124 + 0x80000 * u + 64 * i
def R.ENG_TRAP_2_t (u : Nat) (i : Nat) : Nat := 0x2020128 + 0x80000 * u + 64 * i
def R.ENG_TRAP_3_t (u : Nat) (i : Nat) : Nat := 0x202012C + 0x80000 * u + 64 * i
def R.ENG_TRAP_4_t (u : Nat) (i : Nat) : Nat := 0x2020130 + 0x80000 * u + 64 * i
def R.ENG_TRAP_5_t (u : Nat) (i : Nat) : Nat := 0x2020134 + 0x80000 * u + 64 * i
def R.ENG_TRAP_6_t (u : Nat) (i : Nat) : Nat := 0x2020138 + 0x80000 * u + 64 * i
def R.ENG_TRAP_7_t (u : Nat) (i : Nat) : Nat := 0x202013C + 0x80000 * u + 64 * i
def R.ENG_THR_CFG_t (u : Nat) (i : Nat) : Nat := 0x2021000 + 0x80000 * u + 64 * i
def R.ENG_THR_BUDGET_t (u : Nat) (i : Nat) : Nat := 0x2021004 + 0x80000 * u + 64 * i
def R.ENG_THR_ENTRY_t (u : Nat) (i : Nat) : Nat := 0x2021008 + 0x80000 * u + 64 * i
def R.ENG_THR_CODE_t (u : Nat) (i : Nat) : Nat := 0x202100C + 0x80000 * u + 64 * i
def R.ENG_SEG_BASE_s_t (u : Nat) (i j : Nat) : Nat := 0x2021010 + 0x80000 * u + 64 * i + 8 * j
def R.ENG_SEG_CFG_s_t (u : Nat) (i j : Nat) : Nat := 0x2021014 + 0x80000 * u + 64 * i + 8 * j
def R.ENG_QSLOT_q (u : Nat) (i : Nat) : Nat := 0x2021200 + 0x80000 * u + 4 * i
def R.SW_CTRL : Nat := 0x4100000
def R.SW_STATUS : Nat := 0x4100004
def R.SW_EVENT : Nat := 0x4100008
def R.SW_EVENT_EN : Nat := 0x410000C
def R.SW_RES_c (i : Nat) : Nat := 0x4100020 + 4 * i
def R.SW_FLOOR_c (i : Nat) : Nat := 0x4100040 + 4 * i
def R.SW_USE_c (i : Nat) : Nat := 0x4100060 + 4 * i
def R.SW_SHARED_FREE : Nat := 0x4100080
def R.SW_ECPL_BASE : Nat := 0x4100090
def R.SW_ECPL_SIZE : Nat := 0x4100094
def R.SW_ECPL_HEAD : Nat := 0x4100098
def R.SW_ECPL_CNT_s (i : Nat) : Nat := 0x41000A0 + 4 * i
def R.SW_ECPL_OVF : Nat := 0x41000C0
def R.SW_E_ABANDON : Nat := 0x41000C4
def R.SW_LEARN_FAIL_CNT : Nat := 0x41000C8
def R.SW_PTP_DROP : Nat := 0x41000CC
def R.SW_CNT_CLR : Nat := 0x41000D0
def R.SW_PORT_CFG_p (i : Nat) : Nat := 0x4110000 + 4096 * i
def R.SW_PORT_STATUS_p (i : Nat) : Nat := 0x4110004 + 4096 * i
def R.SW_PCP_MAP_p (i : Nat) : Nat := 0x4110008 + 4096 * i
def R.SW_QLIM_c_p (i j : Nat) : Nat := 0x4110020 + 4096 * i + 4 * j
def R.SW_CBS_c_p (i j : Nat) : Nat := 0x4110040 + 4096 * i + 4 * j
def R.SW_GATE_CTRL_p (i : Nat) : Nat := 0x4110100 + 4096 * i
def R.SW_ADMIN_BASE_NS_p (i : Nat) : Nat := 0x4110104 + 4096 * i
def R.SW_ADMIN_BASE_SEC_LO_p (i : Nat) : Nat := 0x4110108 + 4096 * i
def R.SW_ADMIN_BASE_SEC_HI_p (i : Nat) : Nat := 0x411010C + 4096 * i
def R.SW_ADMIN_CYCLE_NS_p (i : Nat) : Nat := 0x4110110 + 4096 * i
def R.SW_OPER_BASE_NS_p (i : Nat) : Nat := 0x4110114 + 4096 * i
def R.SW_OPER_BASE_SEC_LO_p (i : Nat) : Nat := 0x4110118 + 4096 * i
def R.SW_OPER_BASE_SEC_HI_p (i : Nat) : Nat := 0x411011C + 4096 * i
def R.SW_OPER_CYCLE_NS_p (i : Nat) : Nat := 0x4110120 + 4096 * i
def R.SW_PREEMPT_p (i : Nat) : Nat := 0x4110180 + 4096 * i
def R.SW_PLCA_p (i : Nat) : Nat := 0x41101C0 + 4096 * i
def R.SW_TC10_p (i : Nat) : Nat := 0x41101E0 + 4096 * i
def R.SW_RING_BASE_LO_h_r (i j : Nat) : Nat := 0x4122400 + 4096 * i + 32 * j
def R.SW_RING_BASE_HI_h_r (i j : Nat) : Nat := 0x4122404 + 4096 * i + 32 * j
def R.SW_RING_SIZE_h_r (i j : Nat) : Nat := 0x4122408 + 4096 * i + 32 * j
def R.SW_RING_HEAD_h_r (i j : Nat) : Nat := 0x412240C + 4096 * i + 32 * j
def R.SW_RING_TAIL_h_r (i j : Nat) : Nat := 0x4122410 + 4096 * i + 32 * j
def R.SW_RX_p_c (i j : Nat) : Nat := 0x4140000 + 512 * i + 32 * j
def R.SW_TX_p_c (i j : Nat) : Nat := 0x4140004 + 512 * i + 32 * j
def R.SW_NOBUF_p_c (i j : Nat) : Nat := 0x4140008 + 512 * i + 32 * j
def R.SW_QLIM_CNT_p_c (i j : Nat) : Nat := 0x414000C + 512 * i + 32 * j
def R.SW_DROP_STREAM_p_c (i j : Nat) : Nat := 0x4140010 + 512 * i + 32 * j
def R.SW_AGED_p_c (i j : Nat) : Nat := 0x4140014 + 512 * i + 32 * j
def R.SW_FLUSH_p_c (i j : Nat) : Nat := 0x4140018 + 512 * i + 32 * j
def R.SW_FCS_ERR_p (i : Nat) : Nat := 0x4140100 + 512 * i
def R.SW_FCS_STOMP_p (i : Nat) : Nat := 0x4140104 + 512 * i
def R.SW_OVERSIZE_p (i : Nat) : Nat := 0x4140108 + 512 * i
def R.SW_VLAN_MISS_p (i : Nat) : Nat := 0x414010C + 512 * i
def R.SW_MOVE_p (i : Nat) : Nat := 0x4140110 + 512 * i
def R.SW_TBL_CMD : Nat := 0x4180000
def R.SW_TBL_INDEX : Nat := 0x4180004
def R.SW_TBL_DATA_k (i : Nat) : Nat := 0x4180010 + 4 * i
def R.CAN_CTRL (u : Nat) : Nat := 0x10000000 + 0x10000 * u
def R.CAN_NBT (u : Nat) : Nat := 0x10000004 + 0x10000 * u
def R.CAN_DBT (u : Nat) : Nat := 0x10000008 + 0x10000 * u
def R.CAN_XBT (u : Nat) : Nat := 0x1000000C + 0x10000 * u
def R.CAN_TDC (u : Nat) : Nat := 0x10000010 + 0x10000 * u
def R.CAN_XLCFG (u : Nat) : Nat := 0x10000014 + 0x10000 * u
def R.CAN_ERR (u : Nat) : Nat := 0x10000018 + 0x10000 * u
def R.CAN_CMD (u : Nat) : Nat := 0x1000001C + 0x10000 * u
def R.CAN_ALONE (u : Nat) : Nat := 0x10000020 + 0x10000 * u
def R.CAN_RX_DELAY (u : Nat) : Nat := 0x10000024 + 0x10000 * u
def R.CAN_LOCK_TO (u : Nat) : Nat := 0x10000028 + 0x10000 * u
def R.CAN_EVENT (u : Nat) : Nat := 0x10000030 + 0x10000 * u
def R.CAN_EVENT_EN (u : Nat) : Nat := 0x10000034 + 0x10000 * u
def R.CAN_TXCPL_BASE (u : Nat) : Nat := 0x10000040 + 0x10000 * u
def R.CAN_TXCPL_SIZE (u : Nat) : Nat := 0x10000044 + 0x10000 * u
def R.CAN_TXCPL_HEAD (u : Nat) : Nat := 0x10000048 + 0x10000 * u
def R.CAN_RXPAY (u : Nat) : Nat := 0x1000004C + 0x10000 * u
def R.CAN_TXB_REQ_k (u : Nat) (i : Nat) : Nat := 0x10000060 + 0x10000 * u + 4 * i
def R.CAN_TXB_CANCEL_k (u : Nat) (i : Nat) : Nat := 0x10000068 + 0x10000 * u + 4 * i
def R.CAN_MB_ACK (u : Nat) : Nat := 0x10000070 + 0x10000 * u
def R.CAN_TX_OK (u : Nat) : Nat := 0x10000080 + 0x10000 * u
def R.CAN_RX_OK (u : Nat) : Nat := 0x10000084 + 0x10000 * u
def R.CAN_RX_DROP (u : Nat) : Nat := 0x10000088 + 0x10000 * u
def R.CAN_BUS_OFF_CNT (u : Nat) : Nat := 0x1000008C + 0x10000 * u
def R.CAN_TXCPL_OVF (u : Nat) : Nat := 0x10000090 + 0x10000 * u
def R.CAN_CANCEL_LATE_CNT (u : Nat) : Nat := 0x10000094 + 0x10000 * u
def R.CAN_ACK_ERR (u : Nat) : Nat := 0x10000098 + 0x10000 * u
def R.CAN_TT_MISS (u : Nat) : Nat := 0x1000009C + 0x10000 * u
def R.CAN_CPL_CNT_s (u : Nat) (i : Nat) : Nat := 0x100000A0 + 0x10000 * u + 4 * i
def R.CAN_CNT_CLR (u : Nat) : Nat := 0x100000C0 + 0x10000 * u
def R.CAN_FILT_PATTERN_f (u : Nat) (i : Nat) : Nat := 0x10001000 + 0x10000 * u + 16 * i
def R.CAN_FILT_MASK_f (u : Nat) (i : Nat) : Nat := 0x10001004 + 0x10000 * u + 16 * i
def R.CAN_FILT_ACT_f (u : Nat) (i : Nat) : Nat := 0x10001008 + 0x10000 * u + 16 * i
def R.CAN_MB_ID_b (u : Nat) (i : Nat) : Nat := 0x10002000 + 0x10000 * u + 128 * i
def R.CAN_MB_CTL_b (u : Nat) (i : Nat) : Nat := 0x10002004 + 0x10000 * u + 128 * i
def R.CAN_MB_STAMP_b_k (u : Nat) (i j : Nat) : Nat := 0x10002008 + 0x10000 * u + 128 * i + 4 * j
def R.CAN_MB_DATA_b_k (u : Nat) (i j : Nat) : Nat := 0x10002020 + 0x10000 * u + 128 * i + 4 * j
def R.CAN_MB_STAT_b (u : Nat) (i : Nat) : Nat := 0x1000207C + 0x10000 * u + 128 * i
def R.CAN_RXE_i_w (u : Nat) (i j : Nat) : Nat := 0x10004000 + 0x10000 * u + 32 * i + 4 * j
def R.CAN_TXE_i_w (u : Nat) (i j : Nat) : Nat := 0x10006000 + 0x10000 * u + 32 * i + 4 * j
def R.CAN_RXQ_POP (u : Nat) : Nat := 0x10005000 + 0x10000 * u
def R.CAN_RXQ_ACK (u : Nat) : Nat := 0x10005004 + 0x10000 * u
def R.CAN_TXQ_SUBMIT (u : Nat) : Nat := 0x10007000 + 0x10000 * u
def R.CAN_TXQ_CANCEL (u : Nat) : Nat := 0x10007004 + 0x10000 * u
def R.CAN_TT_CELL_y_k (u : Nat) (i j : Nat) : Nat := 0x10008000 + 0x10000 * u + 128 * i + 4 * j
def R.CAN_WUF_k_w (u : Nat) (i j : Nat) : Nat := 0x1000B000 + 0x10000 * u + 32 * i + 4 * j
def R.CAN_WUF_CFG_k (u : Nat) (i : Nat) : Nat := 0x1000B018 + 0x10000 * u + 32 * i
def R.CAN_TT_CFG (u : Nat) : Nat := 0x1000A000 + 0x10000 * u
def R.CAN_TT_REF_ID (u : Nat) : Nat := 0x1000A004 + 0x10000 * u
def R.CAN_TT_CYCLE_NS (u : Nat) : Nat := 0x1000A008 + 0x10000 * u
def R.CAN_TT_ANCHOR_NS (u : Nat) : Nat := 0x1000A00C + 0x10000 * u
def R.CAN_TT_ANCHOR_SEC_LO (u : Nat) : Nat := 0x1000A010 + 0x10000 * u
def R.CAN_TT_ANCHOR_SEC_HI (u : Nat) : Nat := 0x1000A014 + 0x10000 * u
def R.CAN_TT_STATUS (u : Nat) : Nat := 0x1000A018 + 0x10000 * u
def R.CAN_TT_SKIP_CNT (u : Nat) : Nat := 0x1000A01C + 0x10000 * u
def R.CAN_TT_MARK_k (u : Nat) (i : Nat) : Nat := 0x1000A100 + 0x10000 * u + 4 * i
def R.LIN_CFG (u : Nat) : Nat := 0x10100000 + 0x1000 * u
def R.LIN_BAUD (u : Nat) : Nat := 0x10100004 + 0x1000 * u
def R.LIN_WAKE (u : Nat) : Nat := 0x10100008 + 0x1000 * u
def R.LIN_STATUS (u : Nat) : Nat := 0x1010000C + 0x1000 * u
def R.LIN_EVENT (u : Nat) : Nat := 0x10100010 + 0x1000 * u
def R.LIN_EVENT_EN (u : Nat) : Nat := 0x10100014 + 0x1000 * u
def R.LIN_FRAMES_OK (u : Nat) : Nat := 0x10100020 + 0x1000 * u
def R.LIN_ERRORS (u : Nat) : Nat := 0x10100024 + 0x1000 * u
def R.LIN_ABORT_CNT (u : Nat) : Nat := 0x10100028 + 0x1000 * u
def R.LIN_CNT_CLR (u : Nat) : Nat := 0x1010002C + 0x1000 * u
def R.SIG_CTRL : Nat := 0x4200000
def R.SIG_STATUS : Nat := 0x4200004
def R.SIG_CMD : Nat := 0x4200008
def R.SIG_EVENT : Nat := 0x420000C
def R.SIG_EVENT_EN : Nat := 0x4200010
def R.SIG_CAT_BASE : Nat := 0x4200020
def R.SIG_CAT_COUNT : Nat := 0x4200024
def R.SIG_CONV_BASE : Nat := 0x4200028
def R.SIG_SRCIDX_BASE : Nat := 0x420002C
def R.SIG_SRCIDX_LOG2 : Nat := 0x4200030
def R.SIG_PIN_BASE : Nat := 0x4200034
def R.SIG_PIN_COUNT : Nat := 0x4200038
def R.SIG_LOG_CLASS_EN : Nat := 0x4200060
def R.SIG_SEAL_MS : Nat := 0x4200064
def R.SIG_RING_BASE : Nat := 0x4200068
def R.SIG_RING_LOG2 : Nat := 0x420006C
def R.SIG_CTLBLK_OFS : Nat := 0x4200070
def R.SIG_CHAIN_ID_LO : Nat := 0x4200074
def R.SIG_CHAIN_ID_HI : Nat := 0x4200078
def R.SIG_LOG_CFG : Nat := 0x420007C
def R.SIG_LOG_PUSH_k (i : Nat) : Nat := 0x4200080 + 4 * i
def R.SIG_LOG_PUSH_STAT : Nat := 0x4200090
def R.SIG_DEF_IDX : Nat := 0x42000A0
def R.SIG_DEF_DATA_k (i : Nat) : Nat := 0x42000A4 + 4 * i
def R.SIG_DEF_CMD : Nat := 0x42000B4
def R.SIG_LOOKUPS : Nat := 0x4200100
def R.SIG_MISSES : Nat := 0x4200104
def R.SIG_UPDATES : Nat := 0x4200108
def R.SIG_LOG_ACCEPT : Nat := 0x420010C
def R.SIG_LOG_LOST : Nat := 0x4200110
def R.SIG_PIN_OVF : Nat := 0x4200114
def R.SIG_SEALS : Nat := 0x4200118
def R.SIG_CRASH_SKIP : Nat := 0x420011C
def R.SIG_CNT_CLR : Nat := 0x4200120
def R.NM_CTRL : Nat := 0x10400000
def R.NM_ETH_DA_LO : Nat := 0x10400004
def R.NM_ETH_DA_HI : Nat := 0x10400008
def R.NM_ETH_TYPE : Nat := 0x1040000C
def R.NM_CAN_ID : Nat := 0x10400010
def R.NM_EVENT : Nat := 0x10400014
def R.NM_EVENT_EN : Nat := 0x10400018
def R.NM_WAKE_ABORT : Nat := 0x10400040
def R.NM_SLUICE_DROP : Nat := 0x10400044
def R.NM_SLUICE_PASS : Nat := 0x10400048
def R.NM_RING_REGEN : Nat := 0x1040004C
def R.NM_IGNORED_WAKE : Nat := 0x10400050
def R.NM_ISOLATIONS : Nat := 0x10400054
def R.NM_CNT_CLR : Nat := 0x10400058
def R.NM_SEG_CFG_s (i : Nat) : Nat := 0x10400100 + 32 * i
def R.NM_SEG_TIME_s (i : Nat) : Nat := 0x10400104 + 32 * i
def R.NM_SEG_TIME2_s (i : Nat) : Nat := 0x10400108 + 32 * i
def R.NM_SEG_TIME3_s (i : Nat) : Nat := 0x1040010C + 32 * i
def R.NM_SEG_CTRL_s (i : Nat) : Nat := 0x10400110 + 32 * i
def R.NM_SEG_STATUS_s (i : Nat) : Nat := 0x10400114 + 32 * i
def R.NM_WITHHOLD_LO_s (i : Nat) : Nat := 0x10400118 + 32 * i
def R.NM_WITHHOLD_HI_s (i : Nat) : Nat := 0x1040011C + 32 * i
def R.NM_SL_PATTERN_s_k (i j : Nat) : Nat := 0x10401000 + 64 * i + 8 * j
def R.NM_SL_MASK_s_k (i j : Nat) : Nat := 0x10401004 + 64 * i + 8 * j
def R.NM_FEED_SEL_k (i : Nat) : Nat := 0x10402000 + 16 * i
def R.NM_FEED_CH_k (i : Nat) : Nat := 0x10402004 + 16 * i
def R.NM_FEED_CH_HI_k (i : Nat) : Nat := 0x10402008 + 16 * i
def R.LOADCH_CTRL : Nat := 0x10200000
def R.LOADCH_STATUS : Nat := 0x10200004
def R.LOADCH_EVENT : Nat := 0x10200008
def R.LOADCH_EVENT_EN : Nat := 0x1020000C
def R.LOADCH_TG_CFG_g (i : Nat) : Nat := 0x10200040 + 8 * i
def R.LOADCH_TG_STAT_g (i : Nat) : Nat := 0x10200044 + 8 * i
def R.LOADCH_BUDGET : Nat := 0x10200080
def R.LOADCH_POWER : Nat := 0x10200084
def R.LOADCH_LATCH_CNT : Nat := 0x102000C0
def R.LOADCH_SHED_CNT : Nat := 0x102000C4
def R.LOADCH_CONTROL_LOST_CNT : Nat := 0x102000C8
def R.LOADCH_REFUSED_CNT : Nat := 0x102000CC
def R.LOADCH_CNT_CLR : Nat := 0x102000D0
def R.LOADCH_CQ_W_q_k (i j : Nat) : Nat := 0x10210000 + 4096 * i + 4 * j
def R.LOADCH_CQ_STAT_q (i : Nat) : Nat := 0x10210010 + 4096 * i
def R.LOADCH_CPL_BASE_q (i : Nat) : Nat := 0x10210014 + 4096 * i
def R.LOADCH_CPL_SIZE_q (i : Nat) : Nat := 0x10210018 + 4096 * i
def R.LOADCH_CPL_HEAD_q (i : Nat) : Nat := 0x1021001C + 4096 * i
def R.LOADCH_CQ_EVENT_q (i : Nat) : Nat := 0x10210020 + 4096 * i
def R.LOADCH_CPL_OVF_CNT_q (i : Nat) : Nat := 0x10210024 + 4096 * i
def R.LOADCH_CPL_CNT_q_s (i j : Nat) : Nat := 0x10210040 + 4096 * i + 4 * j
def R.LOADCH_CPL_CNT_RSV_q_k (i j : Nat) : Nat := 0x10210058 + 4096 * i + 4 * j
def R.LOADCH_CH_CFG_n (i : Nat) : Nat := 0x10220000 + 64 * i
def R.LOADCH_TRIP_n (i : Nat) : Nat := 0x10220004 + 64 * i
def R.LOADCH_INRUSH_n (i : Nat) : Nat := 0x10220008 + 64 * i
def R.LOADCH_I2T_A_n (i : Nat) : Nat := 0x1022000C + 64 * i
def R.LOADCH_I2T_B_n (i : Nat) : Nat := 0x10220010 + 64 * i
def R.LOADCH_OL_n (i : Nat) : Nat := 0x10220014 + 64 * i
def R.LOADCH_LIMP_PWM_n (i : Nat) : Nat := 0x10220018 + 64 * i
def R.LOADCH_ALIGN_n (i : Nat) : Nat := 0x1022001C + 64 * i
def R.LOADCH_OFFTEST_n (i : Nat) : Nat := 0x10220020 + 64 * i
def R.LOADCH_GD_CFG_n (i : Nat) : Nat := 0x10220024 + 64 * i
def R.LOADCH_GD_VDS_n (i : Nat) : Nat := 0x10220028 + 64 * i
def R.LOADCH_HB_CFG_n (i : Nat) : Nat := 0x1022002C + 64 * i
def R.LOADCH_CQ_MASK_LO_q (i : Nat) : Nat := 0x10220C00 + 8 * i
def R.LOADCH_CQ_MASK_HI_q (i : Nat) : Nat := 0x10220C04 + 8 * i
def R.LOADCH_CH_STAT_n (i : Nat) : Nat := 0x10230000 + 16 * i
def R.LOADCH_CH_CUR_n (i : Nat) : Nat := 0x10230004 + 16 * i
def R.LOADCH_CH_I2T_n (i : Nat) : Nat := 0x10230008 + 16 * i
def R.LOADCH_CH_EVENT_n (i : Nat) : Nat := 0x1023000C + 16 * i
def R.LOADCH_SNS_CFG_k (i : Nat) : Nat := 0x10240000 + 4 * i
def R.LOADCH_OTP_IDX : Nat := 0x10250000
def R.LOADCH_OTP_DATA_k (i : Nat) : Nat := 0x10250004 + 4 * i
def R.LOADCH_OTP_CMD : Nat := 0x10250014
def R.LOADCH_OTP_STATUS : Nat := 0x10250018
def R.FIO_DI_CFG_i (i : Nat) : Nat := 0x10300000 + 4 * i
def R.FIO_DI_STATE_k (i : Nat) : Nat := 0x10300100 + 4 * i
def R.FIO_DI_CHG_k (i : Nat) : Nat := 0x10300108 + 4 * i
def R.FIO_DI_POLL : Nat := 0x10300110
def R.FIO_AI_CFG_j (i : Nat) : Nat := 0x10300200 + 4 * i
def R.FIO_AI_WIN_j (i : Nat) : Nat := 0x10300240 + 4 * i
def R.FIO_AI_VAL_j (i : Nat) : Nat := 0x10300280 + 4 * i
def R.FIO_AI_EVT : Nat := 0x103002C0
def R.FIO_AI_CAL : Nat := 0x103002C4
def R.MEM_EVENT : Nat := 0x4800000
def R.MEM_EVENT_EN : Nat := 0x4800004
def R.MEM_DRAM_CFG : Nat := 0x4800010
def R.MEM_ECC_CE_CNT : Nat := 0x4800014
def R.MEM_ECC_UE_CNT : Nat := 0x4800018
def R.MEM_ECC_CE_TH : Nat := 0x480001C
def R.MEM_ECC_LAST_LO : Nat := 0x4800020
def R.MEM_ECC_LAST_HI : Nat := 0x4800024
def R.MEM_SCRUB : Nat := 0x4800028
def R.MEM_UNMAP_LO : Nat := 0x4800030
def R.MEM_UNMAP_HI : Nat := 0x4800034
def R.MEM_UNMAP_CNT : Nat := 0x4800038
def R.MEM_SRAM_CE_CNT : Nat := 0x4800040
def R.MEM_SRAM_UE_CNT : Nat := 0x4800044
def R.MEM_COLL_SILENT_b (i : Nat) : Nat := 0x4800100 + 8 * i
def R.MEM_COLL_RETRY_b (i : Nat) : Nat := 0x4800104 + 8 * i
def R.MEM_SPEC_POP : Nat := 0x4800200
def R.MEM_RTWIN_p (i : Nat) : Nat := 0x4800300 + 4 * i
def R.MEM_TCMCPY_SRC_LO : Nat := 0x4800400
def R.MEM_TCMCPY_SRC_HI : Nat := 0x4800404
def R.MEM_TCMCPY_DST : Nat := 0x4800408
def R.MEM_TCMCPY_CTL : Nat := 0x480040C
def R.MEM_TCMCPY_STAT : Nat := 0x4800410
def R.MEM_CNT_CLR : Nat := 0x4800500
def R.MEM_ATOM_ADDR : Nat := 0x4810000
def R.MEM_ATOM_AADD : Nat := 0x4810004
def R.MEM_ATOM_ASWP : Nat := 0x4810008
def R.MEM_ATOM_OLD : Nat := 0x481000C
def R.MEM_ATOM_STAT : Nat := 0x4810010
def R.CWY_CTRL : Nat := 0x4900000
def R.CWY_EVENT : Nat := 0x4900004
def R.CWY_EVENT_EN : Nat := 0x4900008
def R.CWY_RANGE_BASE_k (i : Nat) : Nat := 0x4900100 + 16 * i
def R.CWY_RANGE_LIMIT_k (i : Nat) : Nat := 0x4900104 + 16 * i
def R.CWY_RANGE_CFG_k (i : Nat) : Nat := 0x4900108 + 16 * i
def R.CWY_RETRY_CNT : Nat := 0x4900200
def R.CWY_RETRY_HOLD_CNT : Nat := 0x4900204
def R.CWY_LOCK_BROKEN_CNT : Nat := 0x4900208
def R.CWY_LATE_RESP_CNT : Nat := 0x490020C
def R.CWY_ERR_OVF : Nat := 0x4900210
def R.CWY_CNT_CLR : Nat := 0x4900214
def R.CWY_ERRLOG_POP : Nat := 0x4901000
def R.CWY_ERRLOG_INFO : Nat := 0x4901004
def R.CWY_ERRLOG_NS : Nat := 0x4901008
def R.CWY_ERRLOG_FILL : Nat := 0x490100C
def R.IC_SRC_CFG_i (i : Nat) : Nat := 0x4300000 + 4 * i
def R.IC_SRC_OWN_i (i : Nat) : Nat := 0x4301000 + 4 * i
def R.IC_SGI_SET : Nat := 0x4302000
def R.IC_EOI_ERR_CNT : Nat := 0x4302004
def R.IC_CLAIM_t (i : Nat) : Nat := 0x4310000 + 4096 * i
def R.IC_EOI_t (i : Nat) : Nat := 0x4310004 + 4096 * i
def R.IC_THRESH_t (i : Nat) : Nat := 0x4310008 + 4096 * i
def R.IC_STAT_t (i : Nat) : Nat := 0x431000C + 4096 * i
def R.IC_VA_CFG_t (i : Nat) : Nat := 0x4310020 + 4096 * i
def R.HERON_SLEEP_CMD : Nat := 0x10500000
def R.HERON_STATUS : Nat := 0x10500004
def R.HERON_WAKE_SRC : Nat := 0x10500008
def R.HERON_VREG_DELAY : Nat := 0x1050000C
def R.HERON_EVENT : Nat := 0x10500010
def R.HERON_EVENT_EN : Nat := 0x10500014
def R.HERON_WAKE_EN_k (i : Nat) : Nat := 0x10500020 + 4 * i
def R.HERON_WAKE_LATCH_k (i : Nat) : Nat := 0x10500030 + 4 * i
def R.HERON_WATCH_LATCH_k (i : Nat) : Nat := 0x10500040 + 4 * i
def R.HERON_SEG_LATCH_LO : Nat := 0x10500048
def R.HERON_SEG_LATCH_HI : Nat := 0x1050004C
def R.HERON_RTC_LO : Nat := 0x10500060
def R.HERON_RTC_HI : Nat := 0x10500064
def R.HERON_RTC_ALARM_LO : Nat := 0x10500068
def R.HERON_RTC_ALARM_HI : Nat := 0x1050006C
def R.HERON_WATCH_k (i : Nat) : Nat := 0x10500100 + 4 * i
def R.HERON_ORDER_k (i : Nat) : Nat := 0x10500200 + 4 * i
def R.OWN_CTRL : Nat := 0x4400000
def R.OWN_STATUS : Nat := 0x4400004
def R.OWN_EVENT : Nat := 0x4400008
def R.OWN_EVENT_EN : Nat := 0x440000C
def R.OWN_PT_BASE : Nat := 0x4400010
def R.OWN_PT_IO_BASE : Nat := 0x4400014
def R.OWN_INVAL_ADDR : Nat := 0x4400018
def R.OWN_INVAL_CMD : Nat := 0x440001C
def R.OWN_ANVIL_VEC_LO : Nat := 0x4400020
def R.OWN_ANVIL_VEC_HI : Nat := 0x4400024
def R.OWN_ANVIL_MAX : Nat := 0x4400028
def R.OWN_KEEPALIVE : Nat := 0x4400030
def R.OWN_HWDT_CFG : Nat := 0x4400040
def R.OWN_HWDT_KICK : Nat := 0x4400044
def R.OWN_HWDT_STAT : Nat := 0x4400048
def R.OWN_MEAS_k (i : Nat) : Nat := 0x4400060 + 4 * i
def R.OWN_LC_CMD : Nat := 0x44000A0
def R.OWN_LC_STAT : Nat := 0x44000A4
def R.OWN_DBG_CFG : Nat := 0x44000B0
def R.OWN_HART_CFG_h (i : Nat) : Nat := 0x4400100 + 4 * i
def R.OWN_VMID_MAP_v (i : Nat) : Nat := 0x4400200 + 4 * i
def R.OWN_INIT_CFG_p (i : Nat) : Nat := 0x4400300 + 4 * i
def R.OWN_BLK_k (i : Nat) : Nat := 0x4400400 + 4 * i
def R.OWN_TONGS_CMD : Nat := 0x4400500
def R.OWN_TONGS_CFG : Nat := 0x4400504
def R.OWN_VIOL_CNT : Nat := 0x4400510
def R.OWN_WORLD_GATE_CNT : Nat := 0x4400514
def R.OWN_TONGS_BLOCKED_CNT : Nat := 0x4400518
def R.OWN_CACHE_MISS_CNT : Nat := 0x440051C
def R.OWN_CNT_CLR : Nat := 0x4400520
def R.OWN_VIOL_POP : Nat := 0x4401000
def R.OWN_VIOL_INFO : Nat := 0x4401004
def R.OWN_VIOL_FILL : Nat := 0x4401008
def R.OWN_TONGS_REL : Nat := 0x4410000
def R.OWN_REL_PEND : Nat := 0x4410004
def R.VQI_MGR_EVENT : Nat := 0x4500000
def R.VQI_MGR_EVENT_EN : Nat := 0x4500004
def R.VQI_MGR_SRC : Nat := 0x4500008
def R.VQI_MGR_LAST : Nat := 0x450000C
def R.VQI_STAGE_OFS : Nat := 0x4500010
def R.VQI_SHARE_SUM : Nat := 0x4500014
def R.VQI_MIG_BUF_LO : Nat := 0x4500020
def R.VQI_MIG_BUF_HI : Nat := 0x4500024
def R.VQI_MIG_CMD : Nat := 0x4500028
def R.VQI_MIG_STAT : Nat := 0x450002C
def R.VQI_MIG_SEQ : Nat := 0x4500030
def R.VQI_MIG_CFG : Nat := 0x4501000
def R.VQI_CFG_i (i : Nat) : Nat := 0x4520000 + 1024 * i
def R.VQI_CMD_i (i : Nat) : Nat := 0x4520004 + 1024 * i
def R.VQI_STATE_i (i : Nat) : Nat := 0x4520008 + 1024 * i
def R.VQI_SHARE_i (i : Nat) : Nat := 0x452000C + 1024 * i
def R.VQI_PAIR_KIND_i_p (i j : Nat) : Nat := 0x4520010 + 1024 * i + 4 * j
def R.VQI_MAC_LO_i_k (i j : Nat) : Nat := 0x4520040 + 1024 * i + 8 * j
def R.VQI_MAC_HI_i_k (i j : Nat) : Nat := 0x4520044 + 1024 * i + 8 * j
def R.VQI_VLAN_i_k (i j : Nat) : Nat := 0x4520060 + 1024 * i + 4 * j
def R.VQI_CAN_LO_i_k (i j : Nat) : Nat := 0x4520080 + 1024 * i + 8 * j
def R.VQI_CAN_HI_i_k (i j : Nat) : Nat := 0x4520084 + 1024 * i + 8 * j
def R.VQI_SIG_LO_i_k (i j : Nat) : Nat := 0x45200C0 + 1024 * i + 8 * j
def R.VQI_SIG_HI_i_k (i j : Nat) : Nat := 0x45200C4 + 1024 * i + 8 * j
def R.VQI_ADMIT_i (i : Nat) : Nat := 0x4520100 + 1024 * i
def R.VQI_SPOOF_CNT_i (i : Nat) : Nat := 0x4520104 + 1024 * i
def R.VQI_STALE_CNT_i (i : Nat) : Nat := 0x4520108 + 1024 * i
def R.VQI_RX_NOBUF_i (i : Nat) : Nat := 0x452010C + 1024 * i
def R.VQI_DELIV_DROP_i (i : Nat) : Nat := 0x4520110 + 1024 * i
def R.VQI_OVER_SHARE_CNT_i (i : Nat) : Nat := 0x4520114 + 1024 * i
def R.VQI_CNT_CLR_i (i : Nat) : Nat := 0x4520118 + 1024 * i
def R.VQI_OCC_i_t (i j : Nat) : Nat := 0x4520120 + 1024 * i + 4 * j
def R.VQI_SQ_BASE_LO_i_p (i j : Nat) : Nat := 0x4580000 + 4096 * i + 64 * j
def R.VQI_SQ_BASE_HI_i_p (i j : Nat) : Nat := 0x4580004 + 4096 * i + 64 * j
def R.VQI_CQ_BASE_LO_i_p (i j : Nat) : Nat := 0x4580008 + 4096 * i + 64 * j
def R.VQI_CQ_BASE_HI_i_p (i j : Nat) : Nat := 0x458000C + 4096 * i + 64 * j
def R.VQI_RING_SIZE_i_p (i j : Nat) : Nat := 0x4580010 + 4096 * i + 64 * j
def R.VQI_SQ_TAIL_i_p (i j : Nat) : Nat := 0x4580014 + 4096 * i + 64 * j
def R.VQI_SQ_HEAD_i_p (i j : Nat) : Nat := 0x4580018 + 4096 * i + 64 * j
def R.VQI_CQ_TAIL_i_p (i j : Nat) : Nat := 0x458001C + 4096 * i + 64 * j
def R.VQI_CQ_HEAD_i_p (i j : Nat) : Nat := 0x4580020 + 4096 * i + 64 * j
def R.VQI_PAIR_STATUS_i_p (i j : Nat) : Nat := 0x4580024 + 4096 * i + 64 * j
def R.VQI_ICMD_i (i : Nat) : Nat := 0x4580800 + 4096 * i
def R.VQI_ISTATUS_i (i : Nat) : Nat := 0x4580804 + 4096 * i
def R.KEY_STATUS : Nat := 0x4600000
def R.KEY_EVENT : Nat := 0x4600004
def R.KEY_EVENT_EN : Nat := 0x4600008
def R.KEY_JQ_ADDR_LO : Nat := 0x4600010
def R.KEY_JQ_ADDR_HI : Nat := 0x4600014
def R.KEY_JQ_SUBMIT : Nat := 0x4600018
def R.KEY_JQ_STAT : Nat := 0x460001C
def R.KEY_SLOT_CMD : Nat := 0x4600020
def R.KEY_SLOT_STAT : Nat := 0x4600024
def R.KEY_UID_LO : Nat := 0x4600030
def R.KEY_UID_HI : Nat := 0x4600034
def R.KEY_JOBS : Nat := 0x4600040
def R.KEY_REFUSED : Nat := 0x4600044
def R.KEY_TAMPER_ABORTS : Nat := 0x4600048
def R.KEY_CNT_CLR : Nat := 0x4600050
def R.KEY_ATTR_s_h (i j : Nat) : Nat := 0x4600100 + 32 * i + 16 * j
def R.KEY_USES_s_h (i j : Nat) : Nat := 0x4600104 + 32 * i + 16 * j
def R.KEY_KCV_LO_s_h (i j : Nat) : Nat := 0x4600108 + 32 * i + 16 * j
def R.KEY_KCV_HI_s_h (i j : Nat) : Nat := 0x460010C + 32 * i + 16 * j
def R.TAMP_STATUS : Nat := 0x4700000
def R.TAMP_CAUSE : Nat := 0x4700004
def R.TAMP_CMD : Nat := 0x4700008
def R.TAMP_CFG : Nat := 0x470000C
def R.TAMP_FIRST_RTC_LO : Nat := 0x4700010
def R.TAMP_FIRST_RTC_HI : Nat := 0x4700014
def R.TAMP_COUNT : Nat := 0x4700018
def R.BLW_STATUS : Nat := 0x10600000
def R.BLW_VBAT : Nat := 0x10600004
def R.BLW_EVENT : Nat := 0x10600008
def R.BLW_EVENT_EN : Nat := 0x1060000C
def R.BLW_TH_k (i : Nat) : Nat := 0x10600010 + 4 * i
def R.BLW_PARK_MS : Nat := 0x10600020
def R.BLW_NONESS_LO : Nat := 0x10600024
def R.BLW_NONESS_HI : Nat := 0x10600028
def R.BLW_LIDAR_PORTS : Nat := 0x1060002C
def R.BLW_RAIL : Nat := 0x10600030
def R.BLW_TJ : Nat := 0x10600034
def R.BLW_STAGE_CNT_k (i : Nat) : Nat := 0x10600040 + 4 * i
def R.BLW_CRASH_MISSED : Nat := 0x10600050
def R.BLW_CNT_CLR : Nat := 0x10600054
def R.WDOG_WD_CFG : Nat := 0x10700000
def R.WDOG_WD_KICK : Nat := 0x10700004
def R.WDOG_WD_STAT : Nat := 0x10700008
def R.WDOG_HB_CFG_c (i : Nat) : Nat := 0x10700100 + 16 * i
def R.WDOG_HB_STAT_c (i : Nat) : Nat := 0x10700104 + 16 * i
def R.WDOG_HB_LOST_CNT_c (i : Nat) : Nat := 0x10700108 + 16 * i
def R.WDOG_HB_KICK_c (i : Nat) : Nat := 0x10701000 + 4096 * i

/-! ### Fields -/
def F.SYSCTL_RESET_CAUSE_KIND : Fld := ⟨R.SYSCTL_RESET_CAUSE, 3, 0⟩
def F.SYSCTL_RESET_CAUSE_DETAIL : Fld := ⟨R.SYSCTL_RESET_CAUSE, 7, 4⟩
def F.SYSCTL_RESET_CAUSE_COUNT : Fld := ⟨R.SYSCTL_RESET_CAUSE, 15, 8⟩
def F.SYSCTL_RESET_CAUSE_ISLAND : Fld := ⟨R.SYSCTL_RESET_CAUSE, 16, 16⟩
def F.SYSCTL_RESET_CAUSE_HEARTH : Fld := ⟨R.SYSCTL_RESET_CAUSE, 17, 17⟩
def F.SYSCTL_RESET_CAUSE_INSTANCE : Fld := ⟨R.SYSCTL_RESET_CAUSE, 18, 18⟩
def F.SYSCTL_RESET_CAUSE_BLOCK : Fld := ⟨R.SYSCTL_RESET_CAUSE, 19, 19⟩
def F.SYSCTL_RESET_CAUSE_LAST_ISLAND : Fld := ⟨R.SYSCTL_RESET_CAUSE, 28, 24⟩
def F.SYSCTL_CHIP_RST_GO : Fld := ⟨R.SYSCTL_CHIP_RST, 0, 0⟩
def F.SYSCTL_CHIP_RST_KEY : Fld := ⟨R.SYSCTL_CHIP_RST, 31, 16⟩
def F.SYSCTL_EVENT : Fld := ⟨R.SYSCTL_EVENT, 5, 0⟩
def F.SYSCTL_EVENT_EN : Fld := ⟨R.SYSCTL_EVENT_EN, 5, 0⟩
def F.SYSCTL_DISCARD_CNT : Fld := ⟨R.SYSCTL_DISCARD_CNT, 31, 0⟩
def F.SYSCTL_ISL_RST_CNT : Fld := ⟨R.SYSCTL_ISL_RST_CNT, 31, 0⟩
def F.SYSCTL_CNT_CLR_CLR : Fld := ⟨R.SYSCTL_CNT_CLR, 0, 0⟩
def F.SYSCTL_DRAIN_US : Fld := ⟨R.SYSCTL_DRAIN_US, 9, 0⟩
def F.SYSCTL_LS_STAT : Fld := ⟨R.SYSCTL_LS_STAT, 3, 0⟩
def F.SYSCTL_ISL_CMD_i_OP (i : Nat) : Fld := ⟨R.SYSCTL_ISL_CMD_i i, 2, 0⟩
def F.SYSCTL_ISL_CMD_i_DIV (i : Nat) : Fld := ⟨R.SYSCTL_ISL_CMD_i i, 5, 4⟩
def F.SYSCTL_ISL_STAT_i_STATE (i : Nat) : Fld := ⟨R.SYSCTL_ISL_STAT_i i, 2, 0⟩
def F.SYSCTL_ISL_STAT_i_HELD (i : Nat) : Fld := ⟨R.SYSCTL_ISL_STAT_i i, 3, 3⟩
def F.SYSCTL_ISL_STAT_i_BLW (i : Nat) : Fld := ⟨R.SYSCTL_ISL_STAT_i i, 4, 4⟩
def F.SYSCTL_BIST_REQ_HART : Fld := ⟨R.SYSCTL_BIST_REQ, 2, 0⟩
def F.SYSCTL_BIST_REQ_GO : Fld := ⟨R.SYSCTL_BIST_REQ, 8, 8⟩
def F.SYSCTL_BIST_GRANT_HART : Fld := ⟨R.SYSCTL_BIST_GRANT, 2, 0⟩
def F.SYSCTL_BIST_GRANT_GRANT : Fld := ⟨R.SYSCTL_BIST_GRANT, 8, 8⟩
def F.SYSCTL_BIST_GRANT_DENY : Fld := ⟨R.SYSCTL_BIST_GRANT, 9, 9⟩
def F.SYSCTL_BIST_STAT_STATUS : Fld := ⟨R.SYSCTL_BIST_STAT, 7, 0⟩
def F.SYSCTL_BIST_STAT_PASS : Fld := ⟨R.SYSCTL_BIST_STAT, 8, 8⟩
def F.SYSCTL_BIST_STAT_PENDING : Fld := ⟨R.SYSCTL_BIST_STAT, 9, 9⟩
def F.SYSCTL_BIST_STAT_BUSY : Fld := ⟨R.SYSCTL_BIST_STAT, 10, 10⟩
def F.SYSCTL_BIST_STAT_HART : Fld := ⟨R.SYSCTL_BIST_STAT, 14, 12⟩
def F.SYSCTL_BOOT_STATUS_SLOT : Fld := ⟨R.SYSCTL_BOOT_STATUS, 1, 0⟩
def F.SYSCTL_BOOT_STATUS_RESULT : Fld := ⟨R.SYSCTL_BOOT_STATUS, 3, 2⟩
def F.SYSCTL_BOOT_STATUS_KEYLESS : Fld := ⟨R.SYSCTL_BOOT_STATUS, 4, 4⟩
def F.SYSCTL_BOOT_STATUS_TRAIN_FULL : Fld := ⟨R.SYSCTL_BOOT_STATUS, 5, 5⟩
def F.SYSCTL_BOOT_STATUS_UPDATE : Fld := ⟨R.SYSCTL_BOOT_STATUS, 15, 8⟩
def F.SYSCTL_BOOT_STATUS_UPD_SLOT : Fld := ⟨R.SYSCTL_BOOT_STATUS, 16, 16⟩
def F.SYSCTL_BOOT_STATUS_A_REASON : Fld := ⟨R.SYSCTL_BOOT_STATUS, 23, 20⟩
def F.SYSCTL_BOOT_STATUS_B_REASON : Fld := ⟨R.SYSCTL_BOOT_STATUS, 27, 24⟩
def F.SYSCTL_BOOT_SEQ_LO : Fld := ⟨R.SYSCTL_BOOT_SEQ_LO, 31, 0⟩
def F.SYSCTL_BOOT_SEQ_HI : Fld := ⟨R.SYSCTL_BOOT_SEQ_HI, 31, 0⟩
def F.SYSCTL_BOOT_RETRIES : Fld := ⟨R.SYSCTL_BOOT_RETRIES, 31, 0⟩
def F.SYSCTL_BOOT_CMD_ALT : Fld := ⟨R.SYSCTL_BOOT_CMD, 0, 0⟩
def F.SYSCTL_BOOT_CMD_ROLLBACK_ADV : Fld := ⟨R.SYSCTL_BOOT_CMD, 1, 1⟩
def F.SYSCTL_ROLLBACK_COUNT : Fld := ⟨R.SYSCTL_ROLLBACK, 6, 0⟩
def F.SYSCTL_ROLLBACK_RESULT : Fld := ⟨R.SYSCTL_ROLLBACK, 15, 8⟩
def F.SYSCTL_BOOT_VAR_VARIANT : Fld := ⟨R.SYSCTL_BOOT_VAR, 4, 0⟩
def F.SYSCTL_BOOT_VAR_VAR_DEFAULT : Fld := ⟨R.SYSCTL_BOOT_VAR, 8, 8⟩
def F.SYSCTL_XSPI_CAP_SIZE : Fld := ⟨R.SYSCTL_XSPI_CAP, 1, 0⟩
def F.SYSCTL_XSPI_CAP_OK : Fld := ⟨R.SYSCTL_XSPI_CAP, 2, 2⟩
def F.SYSCTL_XSPI_WIN_BASE_BASE : Fld := ⟨R.SYSCTL_XSPI_WIN_BASE, 4, 0⟩
def F.SYSCTL_XSPI_CMD_OP : Fld := ⟨R.SYSCTL_XSPI_CMD, 2, 0⟩
def F.SYSCTL_XSPI_CMD_BUSY : Fld := ⟨R.SYSCTL_XSPI_CMD, 31, 31⟩
def F.SYSCTL_XSPI_ADDR : Fld := ⟨R.SYSCTL_XSPI_ADDR, 28, 0⟩
def F.SYSCTL_XSPI_SRC_LO : Fld := ⟨R.SYSCTL_XSPI_SRC_LO, 31, 0⟩
def F.SYSCTL_XSPI_SRC_HI : Fld := ⟨R.SYSCTL_XSPI_SRC_HI, 7, 0⟩
def F.SYSCTL_XSPI_LEN : Fld := ⟨R.SYSCTL_XSPI_LEN, 12, 0⟩
def F.SYSCTL_XSPI_STAT_LAST : Fld := ⟨R.SYSCTL_XSPI_STAT, 7, 0⟩
def F.SYSCTL_XSPI_STAT_VERIFY : Fld := ⟨R.SYSCTL_XSPI_STAT, 8, 8⟩
def F.SYSCTL_XSPI_STAT_SUSPENDED : Fld := ⟨R.SYSCTL_XSPI_STAT, 9, 9⟩
def F.SYSCTL_XSPI_STAT_CRASH_ACTIVE : Fld := ⟨R.SYSCTL_XSPI_STAT, 10, 10⟩
def F.SYSCTL_XSPI_EVENT_EVENT : Fld := ⟨R.SYSCTL_XSPI_EVENT, 1, 0⟩
def F.SYSCTL_XSPI_EVENT_EN_EVENT_EN : Fld := ⟨R.SYSCTL_XSPI_EVENT_EN, 1, 0⟩
def F.TIME_CTRL_ROLE : Fld := ⟨R.TIME_CTRL, 1, 0⟩
def F.TIME_CTRL_STEER_SLOT : Fld := ⟨R.TIME_CTRL, 3, 2⟩
def F.TIME_CTRL_TWIN_EN : Fld := ⟨R.TIME_CTRL, 4, 4⟩
def F.TIME_CTRL_REFUSE_INIT : Fld := ⟨R.TIME_CTRL, 5, 5⟩
def F.TIME_CTRL_SRC_POLICY : Fld := ⟨R.TIME_CTRL, 6, 6⟩
def F.TIME_CTRL_GPTP_STBY : Fld := ⟨R.TIME_CTRL, 7, 7⟩
def F.TIME_CTRL_AUTO_RESYNC : Fld := ⟨R.TIME_CTRL, 8, 8⟩
def F.TIME_CTRL_LEARN_EN : Fld := ⟨R.TIME_CTRL, 10, 10⟩
def F.TIME_CTRL_RESYNC : Fld := ⟨R.TIME_CTRL, 11, 11⟩
def F.TIME_STATUS_STATE : Fld := ⟨R.TIME_STATUS, 2, 0⟩
def F.TIME_STATUS_QUALITY : Fld := ⟨R.TIME_STATUS, 4, 3⟩
def F.TIME_STATUS_MASTER : Fld := ⟨R.TIME_STATUS, 5, 5⟩
def F.TIME_STATUS_TA_OK : Fld := ⟨R.TIME_STATUS, 6, 6⟩
def F.TIME_STATUS_TB_OK : Fld := ⟨R.TIME_STATUS, 7, 7⟩
def F.TIME_STATUS_WARM : Fld := ⟨R.TIME_STATUS, 8, 8⟩
def F.TIME_STATUS_STEP_PENDING : Fld := ⟨R.TIME_STATUS, 9, 9⟩
def F.TIME_STATUS_STBY_ACTIVE : Fld := ⟨R.TIME_STATUS, 10, 10⟩
def F.TIME_EVENT : Fld := ⟨R.TIME_EVENT, 11, 0⟩
def F.TIME_EVENT_EN : Fld := ⟨R.TIME_EVENT_EN, 11, 0⟩
def F.TIME_NOW_NS_NS : Fld := ⟨R.TIME_NOW_NS, 31, 0⟩
def F.TIME_NOW_SEC_LO_SEC : Fld := ⟨R.TIME_NOW_SEC_LO, 31, 0⟩
def F.TIME_NOW_SEC_HI_SEC : Fld := ⟨R.TIME_NOW_SEC_HI, 15, 0⟩
def F.TIME_NOW_FRAC_FRAC : Fld := ⟨R.TIME_NOW_FRAC, 15, 0⟩
def F.TIME_SET_NS_NS : Fld := ⟨R.TIME_SET_NS, 31, 0⟩
def F.TIME_SET_SEC_LO_SEC : Fld := ⟨R.TIME_SET_SEC_LO, 31, 0⟩
def F.TIME_SET_SEC_HI_SEC : Fld := ⟨R.TIME_SET_SEC_HI, 15, 0⟩
def F.TIME_SET_CMD_GO : Fld := ⟨R.TIME_SET_CMD, 0, 0⟩
def F.TIME_FREQ_ADJ : Fld := ⟨R.TIME_FREQ, 31, 0⟩
def F.TIME_SERVO_KP : Fld := ⟨R.TIME_SERVO, 15, 0⟩
def F.TIME_SERVO_KI : Fld := ⟨R.TIME_SERVO, 31, 16⟩
def F.TIME_JUMP_TH_NS : Fld := ⟨R.TIME_JUMP_TH, 19, 0⟩
def F.TIME_PERSIST_N : Fld := ⟨R.TIME_PERSIST, 7, 0⟩
def F.TIME_PERSIST_TOL : Fld := ⟨R.TIME_PERSIST, 23, 8⟩
def F.TIME_STEP_ACCEPT_ACCEPT : Fld := ⟨R.TIME_STEP_ACCEPT, 0, 0⟩
def F.TIME_STEP_PEND_LO : Fld := ⟨R.TIME_STEP_PEND_LO, 31, 0⟩
def F.TIME_STEP_PEND_HI : Fld := ⟨R.TIME_STEP_PEND_HI, 31, 0⟩
def F.TIME_EPOCH_COUNT : Fld := ⟨R.TIME_EPOCH, 15, 0⟩
def F.TIME_OFFSET_LAST_PS : Fld := ⟨R.TIME_OFFSET_LAST, 31, 0⟩
def F.TIME_STEP_LAST_NS : Fld := ⟨R.TIME_STEP_LAST, 31, 0⟩
def F.TIME_SPLIT_CFG_TH : Fld := ⟨R.TIME_SPLIT_CFG, 3, 0⟩
def F.TIME_SPLIT_DIFF_PS : Fld := ⟨R.TIME_SPLIT_DIFF, 31, 0⟩
def F.TIME_HOLD_CFG_TIMEOUT : Fld := ⟨R.TIME_HOLD_CFG, 13, 0⟩
def F.TIME_HOLD_CFG_LIMIT : Fld := ⟨R.TIME_HOLD_CFG, 25, 14⟩
def F.TIME_DOM_n_DOMAIN_NUMBER (i : Nat) : Fld := ⟨R.TIME_DOM_n i, 7, 0⟩
def F.TIME_DOM_n_EN (i : Nat) : Fld := ⟨R.TIME_DOM_n i, 8, 8⟩
def F.TIME_DOM_OFS_n_PS (i : Nat) : Fld := ⟨R.TIME_DOM_OFS_n i, 31, 0⟩
def F.TIME_TWIN_CFG_SLOT_P0 : Fld := ⟨R.TIME_TWIN_CFG, 1, 0⟩
def F.TIME_TWIN_CFG_SLOT_P1 : Fld := ⟨R.TIME_TWIN_CFG, 3, 2⟩
def F.TIME_TWIN_CFG_PREF : Fld := ⟨R.TIME_TWIN_CFG, 4, 4⟩
def F.TIME_TWIN_CFG_ASYM_TH : Fld := ⟨R.TIME_TWIN_CFG, 17, 8⟩
def F.TIME_TWIN_CFG_DELAY_JUMP : Fld := ⟨R.TIME_TWIN_CFG, 31, 18⟩
def F.TIME_TWIN_STATUS_STATE_P0 : Fld := ⟨R.TIME_TWIN_STATUS, 1, 0⟩
def F.TIME_TWIN_STATUS_STATE_P1 : Fld := ⟨R.TIME_TWIN_STATUS, 3, 2⟩
def F.TIME_TWIN_STATUS_STEER : Fld := ⟨R.TIME_TWIN_STATUS, 5, 4⟩
def F.TIME_TWIN_STATUS_LAST_DIR : Fld := ⟨R.TIME_TWIN_STATUS, 7, 6⟩
def F.TIME_TWIN_STATUS_AGREE_COUNT : Fld := ⟨R.TIME_TWIN_STATUS, 15, 8⟩
def F.TIME_ASYM_EST_PS : Fld := ⟨R.TIME_ASYM_EST, 31, 0⟩
def F.TIME_TWIN_CMD_RESUME : Fld := ⟨R.TIME_TWIN_CMD, 0, 0⟩
def F.TIME_TWIN_CMD_DIR : Fld := ⟨R.TIME_TWIN_CMD, 1, 1⟩
def F.TIME_TWIN_CORR_P0_PS : Fld := ⟨R.TIME_TWIN_CORR_P0, 31, 0⟩
def F.TIME_TWIN_CORR_P1_PS : Fld := ⟨R.TIME_TWIN_CORR_P1, 31, 0⟩
def F.TIME_THETA_P0_PS : Fld := ⟨R.TIME_THETA_P0, 31, 0⟩
def F.TIME_THETA_P1_PS : Fld := ⟨R.TIME_THETA_P1, 31, 0⟩
def F.TIME_BASE_P0_PS : Fld := ⟨R.TIME_BASE_P0, 31, 0⟩
def F.TIME_BASE_P1_PS : Fld := ⟨R.TIME_BASE_P1, 31, 0⟩
def F.TIME_TEMP_DEG : Fld := ⟨R.TIME_TEMP, 9, 0⟩
def F.TIME_TEMP_BIN : Fld := ⟨R.TIME_TEMP, 22, 16⟩
def F.TIME_LEARN_IDX_BIN : Fld := ⟨R.TIME_LEARN_IDX, 6, 0⟩
def F.TIME_LEARN_FREQ_ADJ : Fld := ⟨R.TIME_LEARN_FREQ, 31, 0⟩
def F.TIME_LEARN_CNT_COUNT : Fld := ⟨R.TIME_LEARN_CNT, 7, 0⟩
def F.TIME_PPS_CFG_EDGE : Fld := ⟨R.TIME_PPS_CFG, 0, 0⟩
def F.TIME_PPS_DELAY_PS : Fld := ⟨R.TIME_PPS_DELAY, 31, 0⟩
def F.TIME_PPS_SEC_LO_SEC : Fld := ⟨R.TIME_PPS_SEC_LO, 31, 0⟩
def F.TIME_PPS_SEC_HI_SEC : Fld := ⟨R.TIME_PPS_SEC_HI, 15, 0⟩
def F.TIME_PPS_SEC_HI_VALID : Fld := ⟨R.TIME_PPS_SEC_HI, 31, 31⟩
def F.TIME_PHY_RX_LAT_n_LAT (i : Nat) : Fld := ⟨R.TIME_PHY_RX_LAT_n i, 31, 0⟩
def F.TIME_PHY_TX_LAT_n_LAT (i : Nat) : Fld := ⟨R.TIME_PHY_TX_LAT_n i, 31, 0⟩
def F.TIME_PORT_ASYM_n_PS (i : Nat) : Fld := ⟨R.TIME_PORT_ASYM_n i, 31, 0⟩
def F.TIME_SPLIT_CNT : Fld := ⟨R.TIME_SPLIT_CNT, 31, 0⟩
def F.TIME_REFUSED_CNT : Fld := ⟨R.TIME_REFUSED_CNT, 31, 0⟩
def F.TIME_DISCARD_CNT : Fld := ⟨R.TIME_DISCARD_CNT, 31, 0⟩
def F.TIME_PPS_SPUR_CNT : Fld := ⟨R.TIME_PPS_SPUR_CNT, 31, 0⟩
def F.TIME_CNT_CLR_CLR : Fld := ⟨R.TIME_CNT_CLR, 0, 0⟩
def F.TRG_CFG_n_POL (i : Nat) : Fld := ⟨R.TRG_CFG_n i, 0, 0⟩
def F.TRG_CFG_n_QUAL_GATE (i : Nat) : Fld := ⟨R.TRG_CFG_n i, 1, 1⟩
def F.TRG_CFG_n_IE_SKIP (i : Nat) : Fld := ⟨R.TRG_CFG_n i, 8, 8⟩
def F.TRG_CFG_n_IE_LATE (i : Nat) : Fld := ⟨R.TRG_CFG_n i, 9, 9⟩
def F.TRG_CFG_n_IE_DONE (i : Nat) : Fld := ⟨R.TRG_CFG_n i, 10, 10⟩
def F.TRG_CFG_n_IE_REFUSED (i : Nat) : Fld := ⟨R.TRG_CFG_n i, 11, 11⟩
def F.TRG_ANCHOR_NS_n_NS (i : Nat) : Fld := ⟨R.TRG_ANCHOR_NS_n i, 31, 0⟩
def F.TRG_ANCHOR_SEC_LO_n_SEC (i : Nat) : Fld := ⟨R.TRG_ANCHOR_SEC_LO_n i, 31, 0⟩
def F.TRG_ANCHOR_SEC_HI_n_SEC (i : Nat) : Fld := ⟨R.TRG_ANCHOR_SEC_HI_n i, 15, 0⟩
def F.TRG_ANCHOR_FRAC_n_FRAC (i : Nat) : Fld := ⟨R.TRG_ANCHOR_FRAC_n i, 15, 0⟩
def F.TRG_PERIOD_NS_n_NS (i : Nat) : Fld := ⟨R.TRG_PERIOD_NS_n i, 31, 0⟩
def F.TRG_PERIOD_FRAC_n_FRAC (i : Nat) : Fld := ⟨R.TRG_PERIOD_FRAC_n i, 15, 0⟩
def F.TRG_WIDTH_n_W (i : Nat) : Fld := ⟨R.TRG_WIDTH_n i, 31, 0⟩
def F.TRG_COUNT_n_N (i : Nat) : Fld := ⟨R.TRG_COUNT_n i, 31, 0⟩
def F.TRG_CMD_n_START (i : Nat) : Fld := ⟨R.TRG_CMD_n i, 0, 0⟩
def F.TRG_CMD_n_STOP (i : Nat) : Fld := ⟨R.TRG_CMD_n i, 1, 1⟩
def F.TRG_STATUS_n_STATE (i : Nat) : Fld := ⟨R.TRG_STATUS_n i, 1, 0⟩
def F.TRG_STATUS_n_LEVEL (i : Nat) : Fld := ⟨R.TRG_STATUS_n i, 2, 2⟩
def F.TRG_STATUS_n_SKIP (i : Nat) : Fld := ⟨R.TRG_STATUS_n i, 8, 8⟩
def F.TRG_STATUS_n_LATE (i : Nat) : Fld := ⟨R.TRG_STATUS_n i, 9, 9⟩
def F.TRG_STATUS_n_DONE (i : Nat) : Fld := ⟨R.TRG_STATUS_n i, 10, 10⟩
def F.TRG_STATUS_n_REFUSED (i : Nat) : Fld := ⟨R.TRG_STATUS_n i, 11, 11⟩
def F.TRG_EDGE_IDX_n_COUNT (i : Nat) : Fld := ⟨R.TRG_EDGE_IDX_n i, 31, 0⟩
def F.TRG_LAST_NS_n_NS (i : Nat) : Fld := ⟨R.TRG_LAST_NS_n i, 31, 0⟩
def F.TRG_LAST_SEC_LO_n_SEC (i : Nat) : Fld := ⟨R.TRG_LAST_SEC_LO_n i, 31, 0⟩
def F.TRG_LAST_HI_n_SEC (i : Nat) : Fld := ⟨R.TRG_LAST_HI_n i, 15, 0⟩
def F.TRG_LAST_HI_n_FRAC (i : Nat) : Fld := ⟨R.TRG_LAST_HI_n i, 31, 16⟩
def F.TRG_SKIP_CNT_n_COUNT (i : Nat) : Fld := ⟨R.TRG_SKIP_CNT_n i, 31, 0⟩
def F.TRG_CAP_CFG_m_EDGE (i : Nat) : Fld := ⟨R.TRG_CAP_CFG_m i, 1, 0⟩
def F.TRG_CAP_CFG_m_FILT (i : Nat) : Fld := ⟨R.TRG_CAP_CFG_m i, 5, 2⟩
def F.TRG_CAP_CFG_m_IE_DATA (i : Nat) : Fld := ⟨R.TRG_CAP_CFG_m i, 8, 8⟩
def F.TRG_CAP_CFG_m_IE_ERR (i : Nat) : Fld := ⟨R.TRG_CAP_CFG_m i, 9, 9⟩
def F.TRG_CAP_DELAY_m_PS (i : Nat) : Fld := ⟨R.TRG_CAP_DELAY_m i, 31, 0⟩
def F.TRG_CAP_STAMP_NS_m_NS (i : Nat) : Fld := ⟨R.TRG_CAP_STAMP_NS_m i, 31, 0⟩
def F.TRG_CAP_STAMP_SEC_LO_m_SEC (i : Nat) : Fld := ⟨R.TRG_CAP_STAMP_SEC_LO_m i, 31, 0⟩
def F.TRG_CAP_STAMP_HI_m_SEC (i : Nat) : Fld := ⟨R.TRG_CAP_STAMP_HI_m i, 15, 0⟩
def F.TRG_CAP_STAMP_HI_m_FRAC (i : Nat) : Fld := ⟨R.TRG_CAP_STAMP_HI_m i, 31, 16⟩
def F.TRG_CAP_STAMP_INFO_m_RISE (i : Nat) : Fld := ⟨R.TRG_CAP_STAMP_INFO_m i, 0, 0⟩
def F.TRG_CAP_STAMP_INFO_m_EPOCH (i : Nat) : Fld := ⟨R.TRG_CAP_STAMP_INFO_m i, 4, 1⟩
def F.TRG_CAP_STAMP_INFO_m_GAP (i : Nat) : Fld := ⟨R.TRG_CAP_STAMP_INFO_m i, 8, 8⟩
def F.TRG_CAP_STATUS_m_FILL (i : Nat) : Fld := ⟨R.TRG_CAP_STATUS_m i, 4, 0⟩
def F.TRG_CAP_STATUS_m_OVF (i : Nat) : Fld := ⟨R.TRG_CAP_STATUS_m i, 8, 8⟩
def F.TRG_CAP_STATUS_m_MERGE (i : Nat) : Fld := ⟨R.TRG_CAP_STATUS_m i, 9, 9⟩
def F.TRG_CAP_DROP_CNT_m_COUNT (i : Nat) : Fld := ⟨R.TRG_CAP_DROP_CNT_m i, 31, 0⟩
def F.TRG_OUT_EN_EN : Fld := ⟨R.TRG_OUT_EN, 15, 0⟩
def F.CAM_CTRL_EN (u : Nat) : Fld := ⟨R.CAM_CTRL u, 0, 0⟩
def F.CAM_CTRL_LANES (u : Nat) : Fld := ⟨R.CAM_CTRL u, 2, 1⟩
def F.CAM_CTRL_CONT_CLK (u : Nat) : Fld := ⟨R.CAM_CTRL u, 3, 3⟩
def F.CAM_CTRL_LANE_MAP (u : Nat) : Fld := ⟨R.CAM_CTRL u, 11, 4⟩
def F.CAM_CTRL_LANE_POL (u : Nat) : Fld := ⟨R.CAM_CTRL u, 15, 12⟩
def F.CAM_PHY_RATE_MBPS (u : Nat) : Fld := ⟨R.CAM_PHY_RATE u, 11, 0⟩
def F.CAM_LINK_LAT_LAT (u : Nat) : Fld := ⟨R.CAM_LINK_LAT u, 31, 0⟩
def F.CAM_LINK_TO_US (u : Nat) : Fld := ⟨R.CAM_LINK_TO u, 16, 0⟩
def F.CAM_STAGE_CFG_SIZE (u : Nat) : Fld := ⟨R.CAM_STAGE_CFG u, 5, 0⟩
def F.CAM_STATUS_LINK (u : Nat) : Fld := ⟨R.CAM_STATUS u, 0, 0⟩
def F.CAM_STATUS_DESKEWED (u : Nat) : Fld := ⟨R.CAM_STATUS u, 1, 1⟩
def F.CAM_STATUS_OPEN (u : Nat) : Fld := ⟨R.CAM_STATUS u, 2, 2⟩
def F.CAM_EVENT (u : Nat) : Fld := ⟨R.CAM_EVENT u, 8, 0⟩
def F.CAM_EVENT_EN (u : Nat) : Fld := ⟨R.CAM_EVENT_EN u, 8, 0⟩
def F.CAM_LINES_FWD (u : Nat) : Fld := ⟨R.CAM_LINES_FWD u, 31, 0⟩
def F.CAM_LINES_DROP (u : Nat) : Fld := ⟨R.CAM_LINES_DROP u, 31, 0⟩
def F.CAM_PKT_DISC (u : Nat) : Fld := ⟨R.CAM_PKT_DISC u, 31, 0⟩
def F.CAM_CRC_CNT (u : Nat) : Fld := ⟨R.CAM_CRC_CNT u, 31, 0⟩
def F.CAM_FRAMES_ABORT (u : Nat) : Fld := ⟨R.CAM_FRAMES_ABORT u, 31, 0⟩
def F.CAM_CNT_CLR_CLR (u : Nat) : Fld := ⟨R.CAM_CNT_CLR u, 0, 0⟩
def F.CAM_VC_CFG_v_EN (u : Nat) (i : Nat) : Fld := ⟨R.CAM_VC_CFG_v u i, 0, 0⟩
def F.CAM_VC_CFG_v_EMB_EN (u : Nat) (i : Nat) : Fld := ⟨R.CAM_VC_CFG_v u i, 1, 1⟩
def F.CAM_VC_CFG_v_PORT_MAP (u : Nat) (i : Nat) : Fld := ⟨R.CAM_VC_CFG_v u i, 3, 2⟩
def F.CAM_VC_CFG_v_FAILOVER (u : Nat) (i : Nat) : Fld := ⟨R.CAM_VC_CFG_v u i, 4, 4⟩
def F.CAM_VC_CFG_v_CRC_DROP (u : Nat) (i : Nat) : Fld := ⟨R.CAM_VC_CFG_v u i, 5, 5⟩
def F.CAM_VC_CFG_v_TRG_SEL (u : Nat) (i : Nat) : Fld := ⟨R.CAM_VC_CFG_v u i, 11, 8⟩
def F.CAM_VC_CFG_v_TRG_EN (u : Nat) (i : Nat) : Fld := ⟨R.CAM_VC_CFG_v u i, 12, 12⟩
def F.CAM_VC_TRIG_v_WIN_MS (u : Nat) (i : Nat) : Fld := ⟨R.CAM_VC_TRIG_v u i, 15, 0⟩
def F.CAM_VC_TRIG_v_LAG_US (u : Nat) (i : Nat) : Fld := ⟨R.CAM_VC_TRIG_v u i, 31, 16⟩
def F.CAM_VC_SEQ_v_FRAME_SEQ (u : Nat) (i : Nat) : Fld := ⟨R.CAM_VC_SEQ_v u i, 31, 0⟩
def F.ENG_STATUS_STATE_0 (u : Nat) : Fld := ⟨R.ENG_STATUS u, 2, 0⟩
def F.ENG_STATUS_STATE_1 (u : Nat) : Fld := ⟨R.ENG_STATUS u, 5, 3⟩
def F.ENG_STATUS_STATE_2 (u : Nat) : Fld := ⟨R.ENG_STATUS u, 8, 6⟩
def F.ENG_STATUS_STATE_3 (u : Nat) : Fld := ⟨R.ENG_STATUS u, 11, 9⟩
def F.ENG_STATUS_SLOW (u : Nat) : Fld := ⟨R.ENG_STATUS u, 12, 12⟩
def F.ENG_EVENT_TRAP (u : Nat) : Fld := ⟨R.ENG_EVENT u, 3, 0⟩
def F.ENG_EVENT_BUDGET_C0 (u : Nat) : Fld := ⟨R.ENG_EVENT u, 7, 4⟩
def F.ENG_EVENT_THROTTLE (u : Nat) : Fld := ⟨R.ENG_EVENT u, 11, 8⟩
def F.ENG_EVENT_RAISE (u : Nat) : Fld := ⟨R.ENG_EVENT u, 12, 12⟩
def F.ENG_EVENT_REFUSED (u : Nat) : Fld := ⟨R.ENG_EVENT u, 19, 16⟩
def F.ENG_EVENT_EN_TRAP (u : Nat) : Fld := ⟨R.ENG_EVENT_EN u, 3, 0⟩
def F.ENG_EVENT_EN_BUDGET_C0 (u : Nat) : Fld := ⟨R.ENG_EVENT_EN u, 7, 4⟩
def F.ENG_EVENT_EN_THROTTLE (u : Nat) : Fld := ⟨R.ENG_EVENT_EN u, 11, 8⟩
def F.ENG_EVENT_EN_RAISE (u : Nat) : Fld := ⟨R.ENG_EVENT_EN u, 12, 12⟩
def F.ENG_EVENT_EN_REFUSED (u : Nat) : Fld := ⟨R.ENG_EVENT_EN u, 19, 16⟩
def F.ENG_THR_CMD_t_START (u : Nat) (i : Nat) : Fld := ⟨R.ENG_THR_CMD_t u i, 0, 0⟩
def F.ENG_THR_CMD_t_STOP (u : Nat) (i : Nat) : Fld := ⟨R.ENG_THR_CMD_t u i, 1, 1⟩
def F.ENG_THR_CMD_t_DOORBELL (u : Nat) (i : Nat) : Fld := ⟨R.ENG_THR_CMD_t u i, 2, 2⟩
def F.ENG_THR_PC_t_PC (u : Nat) (i : Nat) : Fld := ⟨R.ENG_THR_PC_t u i, 13, 0⟩
def F.ENG_THR_USED_t_COUNT (u : Nat) (i : Nat) : Fld := ⟨R.ENG_THR_USED_t u i, 19, 0⟩
def F.ENG_THR_OVER_CNT_t_COUNT (u : Nat) (i : Nat) : Fld := ⟨R.ENG_THR_OVER_CNT_t u i, 31, 0⟩
def F.ENG_THR_HELD_t_ITEMS (u : Nat) (i : Nat) : Fld := ⟨R.ENG_THR_HELD_t u i, 3, 0⟩
def F.ENG_THR_HELD_t_PACKETS (u : Nat) (i : Nat) : Fld := ⟨R.ENG_THR_HELD_t u i, 6, 4⟩
def F.ENG_THR_HELD_t_CRYPTO (u : Nat) (i : Nat) : Fld := ⟨R.ENG_THR_HELD_t u i, 11, 8⟩
def F.ENG_TRAP_0_t_CAUSE (u : Nat) (i : Nat) : Fld := ⟨R.ENG_TRAP_0_t u i, 7, 0⟩
def F.ENG_TRAP_0_t_VALID (u : Nat) (i : Nat) : Fld := ⟨R.ENG_TRAP_0_t u i, 8, 8⟩
def F.ENG_TRAP_0_t_PC (u : Nat) (i : Nat) : Fld := ⟨R.ENG_TRAP_0_t u i, 29, 16⟩
def F.ENG_TRAP_1_t_ADDR (u : Nat) (i : Nat) : Fld := ⟨R.ENG_TRAP_1_t u i, 31, 0⟩
def F.ENG_TRAP_2_t_INSN (u : Nat) (i : Nat) : Fld := ⟨R.ENG_TRAP_2_t u i, 31, 0⟩
def F.ENG_TRAP_3_t_ENDED (u : Nat) (i : Nat) : Fld := ⟨R.ENG_TRAP_3_t u i, 3, 0⟩
def F.ENG_TRAP_3_t_STATUS (u : Nat) (i : Nat) : Fld := ⟨R.ENG_TRAP_3_t u i, 15, 8⟩
def F.ENG_TRAP_3_t_USED_HI (u : Nat) (i : Nat) : Fld := ⟨R.ENG_TRAP_3_t u i, 19, 16⟩
def F.ENG_TRAP_4_t_NS (u : Nat) (i : Nat) : Fld := ⟨R.ENG_TRAP_4_t u i, 31, 0⟩
def F.ENG_TRAP_5_t_SEC (u : Nat) (i : Nat) : Fld := ⟨R.ENG_TRAP_5_t u i, 31, 0⟩
def F.ENG_TRAP_6_t_SEC (u : Nat) (i : Nat) : Fld := ⟨R.ENG_TRAP_6_t u i, 15, 0⟩
def F.ENG_TRAP_6_t_FRAC (u : Nat) (i : Nat) : Fld := ⟨R.ENG_TRAP_6_t u i, 31, 16⟩
def F.ENG_TRAP_7_t_EPOCH (u : Nat) (i : Nat) : Fld := ⟨R.ENG_TRAP_7_t u i, 15, 0⟩
def F.ENG_TRAP_7_t_USED_LO (u : Nat) (i : Nat) : Fld := ⟨R.ENG_TRAP_7_t u i, 31, 16⟩
def F.ENG_THR_CFG_t_CLASS (u : Nat) (i : Nat) : Fld := ⟨R.ENG_THR_CFG_t u i, 1, 0⟩
def F.ENG_THR_CFG_t_WORLD (u : Nat) (i : Nat) : Fld := ⟨R.ENG_THR_CFG_t u i, 2, 2⟩
def F.ENG_THR_CFG_t_INST (u : Nat) (i : Nat) : Fld := ⟨R.ENG_THR_CFG_t u i, 7, 3⟩
def F.ENG_THR_CFG_t_RESERVED (u : Nat) (i : Nat) : Fld := ⟨R.ENG_THR_CFG_t u i, 9, 9⟩
def F.ENG_THR_BUDGET_t_CYCLES (u : Nat) (i : Nat) : Fld := ⟨R.ENG_THR_BUDGET_t u i, 19, 0⟩
def F.ENG_THR_ENTRY_t_PC (u : Nat) (i : Nat) : Fld := ⟨R.ENG_THR_ENTRY_t u i, 13, 0⟩
def F.ENG_THR_CODE_t_LO (u : Nat) (i : Nat) : Fld := ⟨R.ENG_THR_CODE_t u i, 13, 0⟩
def F.ENG_THR_CODE_t_HI (u : Nat) (i : Nat) : Fld := ⟨R.ENG_THR_CODE_t u i, 29, 16⟩
def F.ENG_SEG_BASE_s_t_PAGE (u : Nat) (i j : Nat) : Fld := ⟨R.ENG_SEG_BASE_s_t u i j, 27, 0⟩
def F.ENG_SEG_CFG_s_t_SIZE (u : Nat) (i j : Nat) : Fld := ⟨R.ENG_SEG_CFG_s_t u i j, 16, 0⟩
def F.ENG_SEG_CFG_s_t_RO (u : Nat) (i j : Nat) : Fld := ⟨R.ENG_SEG_CFG_s_t u i j, 17, 17⟩
def F.ENG_SEG_CFG_s_t_EN (u : Nat) (i j : Nat) : Fld := ⟨R.ENG_SEG_CFG_s_t u i j, 31, 31⟩
def F.ENG_QSLOT_q_QID (u : Nat) (i : Nat) : Fld := ⟨R.ENG_QSLOT_q u i, 11, 0⟩
def F.ENG_QSLOT_q_DIR (u : Nat) (i : Nat) : Fld := ⟨R.ENG_QSLOT_q u i, 12, 12⟩
def F.ENG_QSLOT_q_THREAD (u : Nat) (i : Nat) : Fld := ⟨R.ENG_QSLOT_q u i, 14, 13⟩
def F.ENG_QSLOT_q_EN (u : Nat) (i : Nat) : Fld := ⟨R.ENG_QSLOT_q u i, 15, 15⟩
def F.ENG_QSLOT_q_GONE (u : Nat) (i : Nat) : Fld := ⟨R.ENG_QSLOT_q u i, 16, 16⟩
def F.SW_CTRL_EN : Fld := ⟨R.SW_CTRL, 0, 0⟩
def F.SW_CTRL_FLUSH_DYN : Fld := ⟨R.SW_CTRL, 1, 1⟩
def F.SW_CTRL_AGE_S : Fld := ⟨R.SW_CTRL, 17, 2⟩
def F.SW_CTRL_MAX_RES : Fld := ⟨R.SW_CTRL, 27, 18⟩
def F.SW_STATUS_PLANE0_OK : Fld := ⟨R.SW_STATUS, 0, 0⟩
def F.SW_STATUS_PLANE1_OK : Fld := ⟨R.SW_STATUS, 1, 1⟩
def F.SW_EVENT : Fld := ⟨R.SW_EVENT, 8, 0⟩
def F.SW_EVENT_EN : Fld := ⟨R.SW_EVENT_EN, 8, 0⟩
def F.SW_RES_c (i : Nat) : Fld := ⟨R.SW_RES_c i, 14, 0⟩
def F.SW_FLOOR_c (i : Nat) : Fld := ⟨R.SW_FLOOR_c i, 14, 0⟩
def F.SW_USE_c_RES (i : Nat) : Fld := ⟨R.SW_USE_c i, 14, 0⟩
def F.SW_USE_c_SHARED (i : Nat) : Fld := ⟨R.SW_USE_c i, 30, 16⟩
def F.SW_SHARED_FREE : Fld := ⟨R.SW_SHARED_FREE, 14, 0⟩
def F.SW_ECPL_BASE_OFS : Fld := ⟨R.SW_ECPL_BASE, 21, 4⟩
def F.SW_ECPL_SIZE_N : Fld := ⟨R.SW_ECPL_SIZE, 12, 0⟩
def F.SW_ECPL_HEAD_IDX : Fld := ⟨R.SW_ECPL_HEAD, 12, 0⟩
def F.SW_ECPL_CNT_s (i : Nat) : Fld := ⟨R.SW_ECPL_CNT_s i, 31, 0⟩
def F.SW_ECPL_OVF : Fld := ⟨R.SW_ECPL_OVF, 31, 0⟩
def F.SW_E_ABANDON : Fld := ⟨R.SW_E_ABANDON, 31, 0⟩
def F.SW_LEARN_FAIL_CNT : Fld := ⟨R.SW_LEARN_FAIL_CNT, 31, 0⟩
def F.SW_PTP_DROP : Fld := ⟨R.SW_PTP_DROP, 31, 0⟩
def F.SW_CNT_CLR_CLR : Fld := ⟨R.SW_CNT_CLR, 0, 0⟩
def F.SW_PORT_CFG_p_EN (i : Nat) : Fld := ⟨R.SW_PORT_CFG_p i, 0, 0⟩
def F.SW_PORT_CFG_p_LEARN (i : Nat) : Fld := ⟨R.SW_PORT_CFG_p i, 1, 1⟩
def F.SW_PORT_CFG_p_INGRESS_FILT (i : Nat) : Fld := ⟨R.SW_PORT_CFG_p i, 2, 2⟩
def F.SW_PORT_CFG_p_ACCEPT_UNTAGGED (i : Nat) : Fld := ⟨R.SW_PORT_CFG_p i, 3, 3⟩
def F.SW_PORT_CFG_p_ACCEPT_TAGGED (i : Nat) : Fld := ⟨R.SW_PORT_CFG_p i, 4, 4⟩
def F.SW_PORT_CFG_p_PLANE (i : Nat) : Fld := ⟨R.SW_PORT_CFG_p i, 5, 5⟩
def F.SW_PORT_CFG_p_DEF_PCP (i : Nat) : Fld := ⟨R.SW_PORT_CFG_p i, 8, 6⟩
def F.SW_PORT_CFG_p_PVID (i : Nat) : Fld := ⟨R.SW_PORT_CFG_p i, 20, 9⟩
def F.SW_PORT_CFG_p_CUT_THRU (i : Nat) : Fld := ⟨R.SW_PORT_CFG_p i, 21, 21⟩
def F.SW_PORT_STATUS_p_LINK (i : Nat) : Fld := ⟨R.SW_PORT_STATUS_p i, 0, 0⟩
def F.SW_PORT_STATUS_p_PLANE_NOW (i : Nat) : Fld := ⟨R.SW_PORT_STATUS_p i, 1, 1⟩
def F.SW_PORT_STATUS_p_PREEMPT_ACTIVE (i : Nat) : Fld := ⟨R.SW_PORT_STATUS_p i, 2, 2⟩
def F.SW_PCP_MAP_p (i : Nat) : Fld := ⟨R.SW_PCP_MAP_p i, 23, 0⟩
def F.SW_QLIM_c_p (i j : Nat) : Fld := ⟨R.SW_QLIM_c_p i j, 15, 0⟩
def F.SW_CBS_c_p_IDLE_SLOPE (i j : Nat) : Fld := ⟨R.SW_CBS_c_p i j, 23, 0⟩
def F.SW_CBS_c_p_EN (i j : Nat) : Fld := ⟨R.SW_CBS_c_p i j, 31, 31⟩
def F.SW_GATE_CTRL_p_EN (i : Nat) : Fld := ⟨R.SW_GATE_CTRL_p i, 0, 0⟩
def F.SW_GATE_CTRL_p_CHANGE (i : Nat) : Fld := ⟨R.SW_GATE_CTRL_p i, 1, 1⟩
def F.SW_GATE_CTRL_p_ACTIVE_BANK (i : Nat) : Fld := ⟨R.SW_GATE_CTRL_p i, 2, 2⟩
def F.SW_GATE_CTRL_p_PENDING (i : Nat) : Fld := ⟨R.SW_GATE_CTRL_p i, 3, 3⟩
def F.SW_GATE_CTRL_p_GATES_IDLE (i : Nat) : Fld := ⟨R.SW_GATE_CTRL_p i, 11, 4⟩
def F.SW_GATE_CTRL_p_ADMIN_LEN (i : Nat) : Fld := ⟨R.SW_GATE_CTRL_p i, 20, 12⟩
def F.SW_ADMIN_BASE_NS_p (i : Nat) : Fld := ⟨R.SW_ADMIN_BASE_NS_p i, 31, 0⟩
def F.SW_ADMIN_BASE_SEC_LO_p (i : Nat) : Fld := ⟨R.SW_ADMIN_BASE_SEC_LO_p i, 31, 0⟩
def F.SW_ADMIN_BASE_SEC_HI_p (i : Nat) : Fld := ⟨R.SW_ADMIN_BASE_SEC_HI_p i, 15, 0⟩
def F.SW_ADMIN_CYCLE_NS_p (i : Nat) : Fld := ⟨R.SW_ADMIN_CYCLE_NS_p i, 29, 0⟩
def F.SW_OPER_BASE_NS_p (i : Nat) : Fld := ⟨R.SW_OPER_BASE_NS_p i, 31, 0⟩
def F.SW_OPER_BASE_SEC_LO_p (i : Nat) : Fld := ⟨R.SW_OPER_BASE_SEC_LO_p i, 31, 0⟩
def F.SW_OPER_BASE_SEC_HI_p (i : Nat) : Fld := ⟨R.SW_OPER_BASE_SEC_HI_p i, 31, 0⟩
def F.SW_OPER_CYCLE_NS_p (i : Nat) : Fld := ⟨R.SW_OPER_CYCLE_NS_p i, 31, 0⟩
def F.SW_PREEMPT_p_MASK (i : Nat) : Fld := ⟨R.SW_PREEMPT_p i, 7, 0⟩
def F.SW_PREEMPT_p_EN (i : Nat) : Fld := ⟨R.SW_PREEMPT_p i, 8, 8⟩
def F.SW_PREEMPT_p_VERIFY_DIS (i : Nat) : Fld := ⟨R.SW_PREEMPT_p i, 9, 9⟩
def F.SW_PREEMPT_p_ADD_FRAG (i : Nat) : Fld := ⟨R.SW_PREEMPT_p i, 11, 10⟩
def F.SW_PREEMPT_p_VERIFY_TIME (i : Nat) : Fld := ⟨R.SW_PREEMPT_p i, 23, 16⟩
def F.SW_PLCA_p_EN (i : Nat) : Fld := ⟨R.SW_PLCA_p i, 0, 0⟩
def F.SW_PLCA_p_NODE_ID (i : Nat) : Fld := ⟨R.SW_PLCA_p i, 8, 1⟩
def F.SW_PLCA_p_NODE_COUNT (i : Nat) : Fld := ⟨R.SW_PLCA_p i, 16, 9⟩
def F.SW_PLCA_p_TO_TIMER (i : Nat) : Fld := ⟨R.SW_PLCA_p i, 24, 17⟩
def F.SW_TC10_p_SLEEP_REQ (i : Nat) : Fld := ⟨R.SW_TC10_p i, 0, 0⟩
def F.SW_TC10_p_WAKE_REQ (i : Nat) : Fld := ⟨R.SW_TC10_p i, 1, 1⟩
def F.SW_TC10_p_STATE (i : Nat) : Fld := ⟨R.SW_TC10_p i, 3, 2⟩
def F.SW_TC10_p_WAKE_SEEN (i : Nat) : Fld := ⟨R.SW_TC10_p i, 4, 4⟩
def F.SW_RING_BASE_LO_h_r (i j : Nat) : Fld := ⟨R.SW_RING_BASE_LO_h_r i j, 31, 0⟩
def F.SW_RING_BASE_HI_h_r (i j : Nat) : Fld := ⟨R.SW_RING_BASE_HI_h_r i j, 7, 0⟩
def F.SW_RING_SIZE_h_r (i j : Nat) : Fld := ⟨R.SW_RING_SIZE_h_r i j, 12, 0⟩
def F.SW_RING_HEAD_h_r (i j : Nat) : Fld := ⟨R.SW_RING_HEAD_h_r i j, 12, 0⟩
def F.SW_RING_TAIL_h_r (i j : Nat) : Fld := ⟨R.SW_RING_TAIL_h_r i j, 12, 0⟩
def F.SW_RX_p_c (i j : Nat) : Fld := ⟨R.SW_RX_p_c i j, 31, 0⟩
def F.SW_TX_p_c (i j : Nat) : Fld := ⟨R.SW_TX_p_c i j, 31, 0⟩
def F.SW_NOBUF_p_c (i j : Nat) : Fld := ⟨R.SW_NOBUF_p_c i j, 31, 0⟩
def F.SW_QLIM_CNT_p_c (i j : Nat) : Fld := ⟨R.SW_QLIM_CNT_p_c i j, 31, 0⟩
def F.SW_DROP_STREAM_p_c (i j : Nat) : Fld := ⟨R.SW_DROP_STREAM_p_c i j, 31, 0⟩
def F.SW_AGED_p_c (i j : Nat) : Fld := ⟨R.SW_AGED_p_c i j, 31, 0⟩
def F.SW_FLUSH_p_c (i j : Nat) : Fld := ⟨R.SW_FLUSH_p_c i j, 31, 0⟩
def F.SW_FCS_ERR_p (i : Nat) : Fld := ⟨R.SW_FCS_ERR_p i, 31, 0⟩
def F.SW_FCS_STOMP_p (i : Nat) : Fld := ⟨R.SW_FCS_STOMP_p i, 31, 0⟩
def F.SW_OVERSIZE_p (i : Nat) : Fld := ⟨R.SW_OVERSIZE_p i, 31, 0⟩
def F.SW_VLAN_MISS_p (i : Nat) : Fld := ⟨R.SW_VLAN_MISS_p i, 31, 0⟩
def F.SW_MOVE_p (i : Nat) : Fld := ⟨R.SW_MOVE_p i, 31, 0⟩
def F.SW_TBL_CMD_TABLE : Fld := ⟨R.SW_TBL_CMD, 3, 0⟩
def F.SW_TBL_CMD_OP : Fld := ⟨R.SW_TBL_CMD, 4, 4⟩
def F.SW_TBL_CMD_BUSY : Fld := ⟨R.SW_TBL_CMD, 31, 31⟩
def F.SW_TBL_INDEX : Fld := ⟨R.SW_TBL_INDEX, 17, 0⟩
def F.SW_TBL_DATA_k (i : Nat) : Fld := ⟨R.SW_TBL_DATA_k i, 31, 0⟩
def F.CAN_CTRL_EN (u : Nat) : Fld := ⟨R.CAN_CTRL u, 0, 0⟩
def F.CAN_CTRL_MODE (u : Nat) : Fld := ⟨R.CAN_CTRL u, 3, 1⟩
def F.CAN_CTRL_FD_EN (u : Nat) : Fld := ⟨R.CAN_CTRL u, 4, 4⟩
def F.CAN_CTRL_XL_EN (u : Nat) : Fld := ⟨R.CAN_CTRL u, 5, 5⟩
def F.CAN_CTRL_CONSIST (u : Nat) : Fld := ⟨R.CAN_CTRL u, 6, 6⟩
def F.CAN_CTRL_TXQ_PRIO (u : Nat) : Fld := ⟨R.CAN_CTRL u, 7, 7⟩
def F.CAN_CTRL_BO_AUTO (u : Nat) : Fld := ⟨R.CAN_CTRL u, 8, 8⟩
def F.CAN_CTRL_BO_REROUTE (u : Nat) : Fld := ⟨R.CAN_CTRL u, 9, 9⟩
def F.CAN_CTRL_ALONE_SUSP (u : Nat) : Fld := ⟨R.CAN_CTRL u, 10, 10⟩
def F.CAN_CTRL_TT_EN (u : Nat) : Fld := ⟨R.CAN_CTRL u, 11, 11⟩
def F.CAN_CTRL_NOMATCH_Q (u : Nat) : Fld := ⟨R.CAN_CTRL u, 12, 12⟩
def F.CAN_CTRL_SLOT_ALL (u : Nat) : Fld := ⟨R.CAN_CTRL u, 13, 13⟩
def F.CAN_NBT_BRP (u : Nat) : Fld := ⟨R.CAN_NBT u, 7, 0⟩
def F.CAN_NBT_TSEG1 (u : Nat) : Fld := ⟨R.CAN_NBT u, 15, 8⟩
def F.CAN_NBT_TSEG2 (u : Nat) : Fld := ⟨R.CAN_NBT u, 22, 16⟩
def F.CAN_NBT_SJW (u : Nat) : Fld := ⟨R.CAN_NBT u, 30, 24⟩
def F.CAN_DBT_BRP (u : Nat) : Fld := ⟨R.CAN_DBT u, 7, 0⟩
def F.CAN_DBT_TSEG1 (u : Nat) : Fld := ⟨R.CAN_DBT u, 13, 8⟩
def F.CAN_DBT_TSEG2 (u : Nat) : Fld := ⟨R.CAN_DBT u, 19, 16⟩
def F.CAN_DBT_SJW (u : Nat) : Fld := ⟨R.CAN_DBT u, 27, 24⟩
def F.CAN_XBT_BRP (u : Nat) : Fld := ⟨R.CAN_XBT u, 7, 0⟩
def F.CAN_XBT_TSEG1 (u : Nat) : Fld := ⟨R.CAN_XBT u, 13, 8⟩
def F.CAN_XBT_TSEG2 (u : Nat) : Fld := ⟨R.CAN_XBT u, 19, 16⟩
def F.CAN_XBT_SJW (u : Nat) : Fld := ⟨R.CAN_XBT u, 27, 24⟩
def F.CAN_TDC_OFFSET (u : Nat) : Fld := ⟨R.CAN_TDC u, 7, 0⟩
def F.CAN_TDC_EN (u : Nat) : Fld := ⟨R.CAN_TDC u, 8, 8⟩
def F.CAN_XLCFG_PWMS (u : Nat) : Fld := ⟨R.CAN_XLCFG u, 5, 0⟩
def F.CAN_XLCFG_PWML (u : Nat) : Fld := ⟨R.CAN_XLCFG u, 13, 8⟩
def F.CAN_XLCFG_PWMO (u : Nat) : Fld := ⟨R.CAN_XLCFG u, 21, 16⟩
def F.CAN_XLCFG_TMS_EN (u : Nat) : Fld := ⟨R.CAN_XLCFG u, 24, 24⟩
def F.CAN_ERR_TEC (u : Nat) : Fld := ⟨R.CAN_ERR u, 8, 0⟩
def F.CAN_ERR_REC (u : Nat) : Fld := ⟨R.CAN_ERR u, 23, 16⟩
def F.CAN_ERR_STATE (u : Nat) : Fld := ⟨R.CAN_ERR u, 25, 24⟩
def F.CAN_ERR_LEC (u : Nat) : Fld := ⟨R.CAN_ERR u, 30, 28⟩
def F.CAN_CMD_RECOVER (u : Nat) : Fld := ⟨R.CAN_CMD u, 0, 0⟩
def F.CAN_CMD_ALONE_RESUME (u : Nat) : Fld := ⟨R.CAN_CMD u, 1, 1⟩
def F.CAN_ALONE_LIMIT (u : Nat) : Fld := ⟨R.CAN_ALONE u, 7, 0⟩
def F.CAN_ALONE_RUN (u : Nat) : Fld := ⟨R.CAN_ALONE u, 15, 8⟩
def F.CAN_RX_DELAY_PS (u : Nat) : Fld := ⟨R.CAN_RX_DELAY u, 31, 0⟩
def F.CAN_LOCK_TO_US (u : Nat) : Fld := ⟨R.CAN_LOCK_TO u, 13, 0⟩
def F.CAN_EVENT (u : Nat) : Fld := ⟨R.CAN_EVENT u, 13, 0⟩
def F.CAN_EVENT_EN (u : Nat) : Fld := ⟨R.CAN_EVENT_EN u, 13, 0⟩
def F.CAN_TXCPL_BASE_OFS (u : Nat) : Fld := ⟨R.CAN_TXCPL_BASE u, 21, 4⟩
def F.CAN_TXCPL_SIZE_N (u : Nat) : Fld := ⟨R.CAN_TXCPL_SIZE u, 12, 0⟩
def F.CAN_TXCPL_HEAD_IDX (u : Nat) : Fld := ⟨R.CAN_TXCPL_HEAD u, 12, 0⟩
def F.CAN_RXPAY_EN (u : Nat) : Fld := ⟨R.CAN_RXPAY u, 0, 0⟩
def F.CAN_RXPAY_OFS (u : Nat) : Fld := ⟨R.CAN_RXPAY u, 21, 4⟩
def F.CAN_TXB_REQ_k (u : Nat) (i : Nat) : Fld := ⟨R.CAN_TXB_REQ_k u i, 31, 0⟩
def F.CAN_TXB_CANCEL_k (u : Nat) (i : Nat) : Fld := ⟨R.CAN_TXB_CANCEL_k u i, 31, 0⟩
def F.CAN_MB_ACK_IDX (u : Nat) : Fld := ⟨R.CAN_MB_ACK u, 5, 0⟩
def F.CAN_TX_OK (u : Nat) : Fld := ⟨R.CAN_TX_OK u, 31, 0⟩
def F.CAN_RX_OK (u : Nat) : Fld := ⟨R.CAN_RX_OK u, 31, 0⟩
def F.CAN_RX_DROP (u : Nat) : Fld := ⟨R.CAN_RX_DROP u, 31, 0⟩
def F.CAN_BUS_OFF_CNT (u : Nat) : Fld := ⟨R.CAN_BUS_OFF_CNT u, 31, 0⟩
def F.CAN_TXCPL_OVF (u : Nat) : Fld := ⟨R.CAN_TXCPL_OVF u, 31, 0⟩
def F.CAN_CANCEL_LATE_CNT (u : Nat) : Fld := ⟨R.CAN_CANCEL_LATE_CNT u, 31, 0⟩
def F.CAN_ACK_ERR (u : Nat) : Fld := ⟨R.CAN_ACK_ERR u, 31, 0⟩
def F.CAN_TT_MISS (u : Nat) : Fld := ⟨R.CAN_TT_MISS u, 31, 0⟩
def F.CAN_CPL_CNT_s (u : Nat) (i : Nat) : Fld := ⟨R.CAN_CPL_CNT_s u i, 31, 0⟩
def F.CAN_CNT_CLR_CLR (u : Nat) : Fld := ⟨R.CAN_CNT_CLR u, 0, 0⟩
def F.CAN_FILT_PATTERN_f (u : Nat) (i : Nat) : Fld := ⟨R.CAN_FILT_PATTERN_f u i, 31, 0⟩
def F.CAN_FILT_MASK_f (u : Nat) (i : Nat) : Fld := ⟨R.CAN_FILT_MASK_f u i, 31, 0⟩
def F.CAN_FILT_ACT_f_ACTION (u : Nat) (i : Nat) : Fld := ⟨R.CAN_FILT_ACT_f u i, 1, 0⟩
def F.CAN_FILT_ACT_f_BUF (u : Nat) (i : Nat) : Fld := ⟨R.CAN_FILT_ACT_f u i, 7, 2⟩
def F.CAN_FILT_ACT_f_XL (u : Nat) (i : Nat) : Fld := ⟨R.CAN_FILT_ACT_f u i, 8, 8⟩
def F.CAN_MB_ID_b (u : Nat) (i : Nat) : Fld := ⟨R.CAN_MB_ID_b u i, 31, 0⟩
def F.CAN_MB_CTL_b_TYPE (u : Nat) (i : Nat) : Fld := ⟨R.CAN_MB_CTL_b u i, 1, 0⟩
def F.CAN_MB_CTL_b_LEN (u : Nat) (i : Nat) : Fld := ⟨R.CAN_MB_CTL_b u i, 22, 16⟩
def F.CAN_MB_CTL_b_FD (u : Nat) (i : Nat) : Fld := ⟨R.CAN_MB_CTL_b u i, 23, 23⟩
def F.CAN_MB_STAMP_b_k (u : Nat) (i j : Nat) : Fld := ⟨R.CAN_MB_STAMP_b_k u i j, 31, 0⟩
def F.CAN_MB_DATA_b_k (u : Nat) (i j : Nat) : Fld := ⟨R.CAN_MB_DATA_b_k u i j, 31, 0⟩
def F.CAN_MB_STAT_b_LAST (u : Nat) (i : Nat) : Fld := ⟨R.CAN_MB_STAT_b u i, 7, 0⟩
def F.CAN_MB_STAT_b_NEW (u : Nat) (i : Nat) : Fld := ⟨R.CAN_MB_STAT_b u i, 8, 8⟩
def F.CAN_MB_STAT_b_PENDING (u : Nat) (i : Nat) : Fld := ⟨R.CAN_MB_STAT_b u i, 9, 9⟩
def F.CAN_MB_STAT_b_BUS_OFF_HELD (u : Nat) (i : Nat) : Fld := ⟨R.CAN_MB_STAT_b u i, 10, 10⟩
def F.CAN_MB_STAT_b_SUSPENDED (u : Nat) (i : Nat) : Fld := ⟨R.CAN_MB_STAT_b u i, 11, 11⟩
def F.CAN_RXE_i_w (u : Nat) (i j : Nat) : Fld := ⟨R.CAN_RXE_i_w u i j, 31, 0⟩
def F.CAN_TXE_i_w (u : Nat) (i j : Nat) : Fld := ⟨R.CAN_TXE_i_w u i j, 31, 0⟩
def F.CAN_RXQ_POP (u : Nat) : Fld := ⟨R.CAN_RXQ_POP u, 31, 0⟩
def F.CAN_RXQ_ACK_IDX (u : Nat) : Fld := ⟨R.CAN_RXQ_ACK u, 4, 0⟩
def F.CAN_TXQ_SUBMIT_IDX (u : Nat) : Fld := ⟨R.CAN_TXQ_SUBMIT u, 4, 0⟩
def F.CAN_TXQ_CANCEL_IDX (u : Nat) : Fld := ⟨R.CAN_TXQ_CANCEL u, 4, 0⟩
def F.CAN_TT_CELL_y_k_TYPE (u : Nat) (i j : Nat) : Fld := ⟨R.CAN_TT_CELL_y_k u i j, 1, 0⟩
def F.CAN_TT_CELL_y_k_MB (u : Nat) (i j : Nat) : Fld := ⟨R.CAN_TT_CELL_y_k u i j, 7, 2⟩
def F.CAN_WUF_k_w (u : Nat) (i j : Nat) : Fld := ⟨R.CAN_WUF_k_w u i j, 31, 0⟩
def F.CAN_WUF_CFG_k_LEN (u : Nat) (i : Nat) : Fld := ⟨R.CAN_WUF_CFG_k u i, 3, 0⟩
def F.CAN_WUF_CFG_k_EN (u : Nat) (i : Nat) : Fld := ⟨R.CAN_WUF_CFG_k u i, 8, 8⟩
def F.CAN_TT_CFG_ROLE (u : Nat) : Fld := ⟨R.CAN_TT_CFG u, 0, 0⟩
def F.CAN_TT_CFG_CYCLES_LOG2 (u : Nat) : Fld := ⟨R.CAN_TT_CFG u, 3, 1⟩
def F.CAN_TT_CFG_REF_MB (u : Nat) : Fld := ⟨R.CAN_TT_CFG u, 9, 4⟩
def F.CAN_TT_CFG_VT_LOCK (u : Nat) : Fld := ⟨R.CAN_TT_CFG u, 10, 10⟩
def F.CAN_TT_CFG_TXEN (u : Nat) : Fld := ⟨R.CAN_TT_CFG u, 16, 12⟩
def F.CAN_TT_REF_ID (u : Nat) : Fld := ⟨R.CAN_TT_REF_ID u, 31, 0⟩
def F.CAN_TT_CYCLE_NS (u : Nat) : Fld := ⟨R.CAN_TT_CYCLE_NS u, 29, 0⟩
def F.CAN_TT_ANCHOR_NS (u : Nat) : Fld := ⟨R.CAN_TT_ANCHOR_NS u, 31, 0⟩
def F.CAN_TT_ANCHOR_SEC_LO (u : Nat) : Fld := ⟨R.CAN_TT_ANCHOR_SEC_LO u, 31, 0⟩
def F.CAN_TT_ANCHOR_SEC_HI (u : Nat) : Fld := ⟨R.CAN_TT_ANCHOR_SEC_HI u, 15, 0⟩
def F.CAN_TT_STATUS_CYCLE (u : Nat) : Fld := ⟨R.CAN_TT_STATUS u, 5, 0⟩
def F.CAN_TT_STATUS_SYNC (u : Nat) : Fld := ⟨R.CAN_TT_STATUS u, 6, 6⟩
def F.CAN_TT_SKIP_CNT (u : Nat) : Fld := ⟨R.CAN_TT_SKIP_CNT u, 31, 0⟩
def F.CAN_TT_MARK_k (u : Nat) (i : Nat) : Fld := ⟨R.CAN_TT_MARK_k u i, 29, 0⟩
def F.LIN_CFG_EN (u : Nat) : Fld := ⟨R.LIN_CFG u, 0, 0⟩
def F.LIN_CFG_BREAK_EXT (u : Nat) : Fld := ⟨R.LIN_CFG u, 3, 1⟩
def F.LIN_CFG_DELIM (u : Nat) : Fld := ⟨R.LIN_CFG u, 5, 4⟩
def F.LIN_CFG_TOL (u : Nat) : Fld := ⟨R.LIN_CFG u, 11, 8⟩
def F.LIN_BAUD_BPS (u : Nat) : Fld := ⟨R.LIN_BAUD u, 14, 0⟩
def F.LIN_WAKE_US (u : Nat) : Fld := ⟨R.LIN_WAKE u, 12, 0⟩
def F.LIN_STATUS_STATE (u : Nat) : Fld := ⟨R.LIN_STATUS u, 1, 0⟩
def F.LIN_STATUS_REQ_FILL (u : Nat) : Fld := ⟨R.LIN_STATUS u, 4, 2⟩
def F.LIN_EVENT (u : Nat) : Fld := ⟨R.LIN_EVENT u, 4, 0⟩
def F.LIN_EVENT_EN (u : Nat) : Fld := ⟨R.LIN_EVENT_EN u, 4, 0⟩
def F.LIN_FRAMES_OK (u : Nat) : Fld := ⟨R.LIN_FRAMES_OK u, 31, 0⟩
def F.LIN_ERRORS (u : Nat) : Fld := ⟨R.LIN_ERRORS u, 31, 0⟩
def F.LIN_ABORT_CNT (u : Nat) : Fld := ⟨R.LIN_ABORT_CNT u, 31, 0⟩
def F.LIN_CNT_CLR_CLR (u : Nat) : Fld := ⟨R.LIN_CNT_CLR u, 0, 0⟩
def F.SIG_CTRL_EN : Fld := ⟨R.SIG_CTRL, 0, 0⟩
def F.SIG_CTRL_LOG_EN : Fld := ⟨R.SIG_CTRL, 1, 1⟩
def F.SIG_CTRL_VARIANT : Fld := ⟨R.SIG_CTRL, 6, 2⟩
def F.SIG_CTRL_WARM_PERSIST : Fld := ⟨R.SIG_CTRL, 7, 7⟩
def F.SIG_STATUS_READY : Fld := ⟨R.SIG_STATUS, 0, 0⟩
def F.SIG_STATUS_CHAIN_OPEN : Fld := ⟨R.SIG_STATUS, 1, 1⟩
def F.SIG_STATUS_CRASH_FROZEN : Fld := ⟨R.SIG_STATUS, 2, 2⟩
def F.SIG_STATUS_CONV_ERR : Fld := ⟨R.SIG_STATUS, 3, 3⟩
def F.SIG_STATUS_CRASH_RESULT : Fld := ⟨R.SIG_STATUS, 15, 8⟩
def F.SIG_CMD_SEAL : Fld := ⟨R.SIG_CMD, 0, 0⟩
def F.SIG_CMD_CRASH : Fld := ⟨R.SIG_CMD, 1, 1⟩
def F.SIG_CMD_CRASH_REARM : Fld := ⟨R.SIG_CMD, 2, 2⟩
def F.SIG_CMD_INVALIDATE : Fld := ⟨R.SIG_CMD, 3, 3⟩
def F.SIG_EVENT : Fld := ⟨R.SIG_EVENT, 6, 0⟩
def F.SIG_EVENT_EN : Fld := ⟨R.SIG_EVENT_EN, 6, 0⟩
def F.SIG_CAT_BASE_PAGE : Fld := ⟨R.SIG_CAT_BASE, 27, 0⟩
def F.SIG_CAT_COUNT_N : Fld := ⟨R.SIG_CAT_COUNT, 23, 0⟩
def F.SIG_CONV_BASE_PAGE : Fld := ⟨R.SIG_CONV_BASE, 27, 0⟩
def F.SIG_SRCIDX_BASE_PAGE : Fld := ⟨R.SIG_SRCIDX_BASE, 27, 0⟩
def F.SIG_SRCIDX_LOG2_K : Fld := ⟨R.SIG_SRCIDX_LOG2, 4, 0⟩
def F.SIG_PIN_BASE_PAGE : Fld := ⟨R.SIG_PIN_BASE, 27, 0⟩
def F.SIG_PIN_COUNT_N : Fld := ⟨R.SIG_PIN_COUNT, 12, 0⟩
def F.SIG_LOG_CLASS_EN : Fld := ⟨R.SIG_LOG_CLASS_EN, 31, 0⟩
def F.SIG_SEAL_MS : Fld := ⟨R.SIG_SEAL_MS, 13, 0⟩
def F.SIG_RING_BASE_PAGE : Fld := ⟨R.SIG_RING_BASE, 27, 0⟩
def F.SIG_RING_LOG2 : Fld := ⟨R.SIG_RING_LOG2, 4, 0⟩
def F.SIG_CTLBLK_OFS : Fld := ⟨R.SIG_CTLBLK_OFS, 21, 8⟩
def F.SIG_CHAIN_ID_LO : Fld := ⟨R.SIG_CHAIN_ID_LO, 31, 0⟩
def F.SIG_CHAIN_ID_HI : Fld := ⟨R.SIG_CHAIN_ID_HI, 31, 0⟩
def F.SIG_LOG_CFG_KEY_SLOT : Fld := ⟨R.SIG_LOG_CFG, 5, 0⟩
def F.SIG_LOG_PUSH_k (i : Nat) : Fld := ⟨R.SIG_LOG_PUSH_k i, 31, 0⟩
def F.SIG_LOG_PUSH_STAT : Fld := ⟨R.SIG_LOG_PUSH_STAT, 7, 0⟩
def F.SIG_DEF_IDX : Fld := ⟨R.SIG_DEF_IDX, 22, 0⟩
def F.SIG_DEF_DATA_k (i : Nat) : Fld := ⟨R.SIG_DEF_DATA_k i, 31, 0⟩
def F.SIG_DEF_CMD_READ : Fld := ⟨R.SIG_DEF_CMD, 0, 0⟩
def F.SIG_DEF_CMD_WRITE : Fld := ⟨R.SIG_DEF_CMD, 1, 1⟩
def F.SIG_DEF_CMD_STATUS : Fld := ⟨R.SIG_DEF_CMD, 15, 8⟩
def F.SIG_DEF_CMD_BUSY : Fld := ⟨R.SIG_DEF_CMD, 31, 31⟩
def F.SIG_LOOKUPS : Fld := ⟨R.SIG_LOOKUPS, 31, 0⟩
def F.SIG_MISSES : Fld := ⟨R.SIG_MISSES, 31, 0⟩
def F.SIG_UPDATES : Fld := ⟨R.SIG_UPDATES, 31, 0⟩
def F.SIG_LOG_ACCEPT : Fld := ⟨R.SIG_LOG_ACCEPT, 31, 0⟩
def F.SIG_LOG_LOST : Fld := ⟨R.SIG_LOG_LOST, 31, 0⟩
def F.SIG_PIN_OVF : Fld := ⟨R.SIG_PIN_OVF, 31, 0⟩
def F.SIG_SEALS : Fld := ⟨R.SIG_SEALS, 31, 0⟩
def F.SIG_CRASH_SKIP : Fld := ⟨R.SIG_CRASH_SKIP, 31, 0⟩
def F.SIG_CNT_CLR_CLR : Fld := ⟨R.SIG_CNT_CLR, 0, 0⟩
def F.NM_CTRL_EN : Fld := ⟨R.NM_CTRL, 0, 0⟩
def F.NM_CTRL_CTLBLK_OFS : Fld := ⟨R.NM_CTRL, 21, 10⟩
def F.NM_CTRL_CTLBLK_EN : Fld := ⟨R.NM_CTRL, 22, 22⟩
def F.NM_ETH_DA_LO : Fld := ⟨R.NM_ETH_DA_LO, 31, 0⟩
def F.NM_ETH_DA_HI : Fld := ⟨R.NM_ETH_DA_HI, 15, 0⟩
def F.NM_ETH_TYPE : Fld := ⟨R.NM_ETH_TYPE, 15, 0⟩
def F.NM_CAN_ID_BASE : Fld := ⟨R.NM_CAN_ID, 10, 0⟩
def F.NM_EVENT : Fld := ⟨R.NM_EVENT, 3, 0⟩
def F.NM_EVENT_EN : Fld := ⟨R.NM_EVENT_EN, 3, 0⟩
def F.NM_WAKE_ABORT : Fld := ⟨R.NM_WAKE_ABORT, 31, 0⟩
def F.NM_SLUICE_DROP : Fld := ⟨R.NM_SLUICE_DROP, 31, 0⟩
def F.NM_SLUICE_PASS : Fld := ⟨R.NM_SLUICE_PASS, 31, 0⟩
def F.NM_RING_REGEN : Fld := ⟨R.NM_RING_REGEN, 31, 0⟩
def F.NM_IGNORED_WAKE : Fld := ⟨R.NM_IGNORED_WAKE, 31, 0⟩
def F.NM_ISOLATIONS : Fld := ⟨R.NM_ISOLATIONS, 31, 0⟩
def F.NM_CNT_CLR_CLR : Fld := ⟨R.NM_CNT_CLR, 0, 0⟩
def F.NM_SEG_CFG_s_EN (i : Nat) : Fld := ⟨R.NM_SEG_CFG_s i, 0, 0⟩
def F.NM_SEG_CFG_s_NODE_ID (i : Nat) : Fld := ⟨R.NM_SEG_CFG_s i, 6, 1⟩
def F.NM_SEG_CFG_s_SL_EN (i : Nat) : Fld := ⟨R.NM_SEG_CFG_s i, 14, 7⟩
def F.NM_SEG_CFG_s_STB_POL (i : Nat) : Fld := ⟨R.NM_SEG_CFG_s i, 15, 15⟩
def F.NM_SEG_CFG_s_ANY_ACT_WAKE (i : Nat) : Fld := ⟨R.NM_SEG_CFG_s i, 16, 16⟩
def F.NM_SEG_CFG_s_FEED_OFF (i : Nat) : Fld := ⟨R.NM_SEG_CFG_s i, 17, 17⟩
def F.NM_SEG_CFG_s_FOLLOW (i : Nat) : Fld := ⟨R.NM_SEG_CFG_s i, 18, 18⟩
def F.NM_SEG_CFG_s_PARENT (i : Nat) : Fld := ⟨R.NM_SEG_CFG_s i, 24, 19⟩
def F.NM_SEG_TIME_s_PREP_MS (i : Nat) : Fld := ⟨R.NM_SEG_TIME_s i, 9, 0⟩
def F.NM_SEG_TIME_s_HOP_MS (i : Nat) : Fld := ⟨R.NM_SEG_TIME_s i, 17, 10⟩
def F.NM_SEG_TIME_s_RING_MS (i : Nat) : Fld := ⟨R.NM_SEG_TIME_s i, 27, 18⟩
def F.NM_SEG_TIME2_s_MAX_AWAKE_S (i : Nat) : Fld := ⟨R.NM_SEG_TIME2_s i, 15, 0⟩
def F.NM_SEG_TIME2_s_MIN_AWAKE_MS (i : Nat) : Fld := ⟨R.NM_SEG_TIME2_s i, 31, 16⟩
def F.NM_SEG_TIME3_s_SETTLE_US (i : Nat) : Fld := ⟨R.NM_SEG_TIME3_s i, 9, 0⟩
def F.NM_SEG_TIME3_s_WAKE_US (i : Nat) : Fld := ⟨R.NM_SEG_TIME3_s i, 25, 16⟩
def F.NM_SEG_CTRL_s_CONSENT (i : Nat) : Fld := ⟨R.NM_SEG_CTRL_s i, 0, 0⟩
def F.NM_SEG_CTRL_s_WAKE (i : Nat) : Fld := ⟨R.NM_SEG_CTRL_s i, 1, 1⟩
def F.NM_SEG_CTRL_s_REJOIN (i : Nat) : Fld := ⟨R.NM_SEG_CTRL_s i, 2, 2⟩
def F.NM_SEG_STATUS_s_STATE (i : Nat) : Fld := ⟨R.NM_SEG_STATUS_s i, 2, 0⟩
def F.NM_SEG_STATUS_s_OWN_CONSENT (i : Nat) : Fld := ⟨R.NM_SEG_STATUS_s i, 3, 3⟩
def F.NM_SEG_STATUS_s_LATCHED (i : Nat) : Fld := ⟨R.NM_SEG_STATUS_s i, 4, 4⟩
def F.NM_SEG_STATUS_s_OFFENDER (i : Nat) : Fld := ⟨R.NM_SEG_STATUS_s i, 15, 8⟩
def F.NM_SEG_STATUS_s_WAKE_SRC (i : Nat) : Fld := ⟨R.NM_SEG_STATUS_s i, 23, 16⟩
def F.NM_SEG_STATUS_s_CHANGED (i : Nat) : Fld := ⟨R.NM_SEG_STATUS_s i, 24, 24⟩
def F.NM_WITHHOLD_LO_s (i : Nat) : Fld := ⟨R.NM_WITHHOLD_LO_s i, 31, 0⟩
def F.NM_WITHHOLD_HI_s (i : Nat) : Fld := ⟨R.NM_WITHHOLD_HI_s i, 31, 0⟩
def F.NM_SL_PATTERN_s_k (i j : Nat) : Fld := ⟨R.NM_SL_PATTERN_s_k i j, 31, 0⟩
def F.NM_SL_MASK_s_k (i j : Nat) : Fld := ⟨R.NM_SL_MASK_s_k i j, 31, 0⟩
def F.NM_FEED_SEL_k_NODE (i : Nat) : Fld := ⟨R.NM_FEED_SEL_k i, 5, 0⟩
def F.NM_FEED_SEL_k_SEG (i : Nat) : Fld := ⟨R.NM_FEED_SEL_k i, 13, 8⟩
def F.NM_FEED_SEL_k_EN (i : Nat) : Fld := ⟨R.NM_FEED_SEL_k i, 31, 31⟩
def F.NM_FEED_CH_k_HS (i : Nat) : Fld := ⟨R.NM_FEED_CH_k i, 31, 0⟩
def F.NM_FEED_CH_HI_k_HB (i : Nat) : Fld := ⟨R.NM_FEED_CH_HI_k i, 5, 0⟩
def F.NM_FEED_CH_HI_k_GD (i : Nat) : Fld := ⟨R.NM_FEED_CH_HI_k i, 15, 8⟩
def F.LOADCH_CTRL_CLAIM : Fld := ⟨R.LOADCH_CTRL, 0, 0⟩
def F.LOADCH_CTRL_PARK : Fld := ⟨R.LOADCH_CTRL, 1, 1⟩
def F.LOADCH_CTRL_TEST_CLASS : Fld := ⟨R.LOADCH_CTRL, 12, 8⟩
def F.LOADCH_CTRL_RESTORE_MS : Fld := ⟨R.LOADCH_CTRL, 23, 16⟩
def F.LOADCH_STATUS_CSTATE : Fld := ⟨R.LOADCH_STATUS, 1, 0⟩
def F.LOADCH_STATUS_LANE_A : Fld := ⟨R.LOADCH_STATUS, 2, 2⟩
def F.LOADCH_STATUS_LANE_B : Fld := ⟨R.LOADCH_STATUS, 3, 3⟩
def F.LOADCH_STATUS_STAGE : Fld := ⟨R.LOADCH_STATUS, 6, 4⟩
def F.LOADCH_EVENT : Fld := ⟨R.LOADCH_EVENT, 14, 0⟩
def F.LOADCH_EVENT_EN : Fld := ⟨R.LOADCH_EVENT_EN, 14, 0⟩
def F.LOADCH_TG_CFG_g_WARN (i : Nat) : Fld := ⟨R.LOADCH_TG_CFG_g i, 7, 0⟩
def F.LOADCH_TG_CFG_g_LIM (i : Nat) : Fld := ⟨R.LOADCH_TG_CFG_g i, 15, 8⟩
def F.LOADCH_TG_STAT_g_TEMP (i : Nat) : Fld := ⟨R.LOADCH_TG_STAT_g i, 9, 0⟩
def F.LOADCH_TG_STAT_g_WARN (i : Nat) : Fld := ⟨R.LOADCH_TG_STAT_g i, 16, 16⟩
def F.LOADCH_TG_STAT_g_LIMIT (i : Nat) : Fld := ⟨R.LOADCH_TG_STAT_g i, 17, 17⟩
def F.LOADCH_TG_STAT_g_OT (i : Nat) : Fld := ⟨R.LOADCH_TG_STAT_g i, 18, 18⟩
def F.LOADCH_BUDGET_P_BUDGET : Fld := ⟨R.LOADCH_BUDGET, 7, 0⟩
def F.LOADCH_BUDGET_P_WARN : Fld := ⟨R.LOADCH_BUDGET, 15, 8⟩
def F.LOADCH_POWER_P_NOW : Fld := ⟨R.LOADCH_POWER, 15, 0⟩
def F.LOADCH_POWER_P_AVG : Fld := ⟨R.LOADCH_POWER, 31, 16⟩
def F.LOADCH_LATCH_CNT : Fld := ⟨R.LOADCH_LATCH_CNT, 31, 0⟩
def F.LOADCH_SHED_CNT : Fld := ⟨R.LOADCH_SHED_CNT, 31, 0⟩
def F.LOADCH_CONTROL_LOST_CNT : Fld := ⟨R.LOADCH_CONTROL_LOST_CNT, 31, 0⟩
def F.LOADCH_REFUSED_CNT : Fld := ⟨R.LOADCH_REFUSED_CNT, 31, 0⟩
def F.LOADCH_CNT_CLR_CLR : Fld := ⟨R.LOADCH_CNT_CLR, 0, 0⟩
def F.LOADCH_CQ_W_q_k (i j : Nat) : Fld := ⟨R.LOADCH_CQ_W_q_k i j, 31, 0⟩
def F.LOADCH_CQ_STAT_q_LAST (i : Nat) : Fld := ⟨R.LOADCH_CQ_STAT_q i, 7, 0⟩
def F.LOADCH_CQ_STAT_q_FILL (i : Nat) : Fld := ⟨R.LOADCH_CQ_STAT_q i, 13, 8⟩
def F.LOADCH_CPL_BASE_q_OFS (i : Nat) : Fld := ⟨R.LOADCH_CPL_BASE_q i, 21, 4⟩
def F.LOADCH_CPL_SIZE_q_N (i : Nat) : Fld := ⟨R.LOADCH_CPL_SIZE_q i, 12, 0⟩
def F.LOADCH_CPL_HEAD_q_IDX (i : Nat) : Fld := ⟨R.LOADCH_CPL_HEAD_q i, 12, 0⟩
def F.LOADCH_CQ_EVENT_q_CPL (i : Nat) : Fld := ⟨R.LOADCH_CQ_EVENT_q i, 0, 0⟩
def F.LOADCH_CQ_EVENT_q_CPL_OVF (i : Nat) : Fld := ⟨R.LOADCH_CQ_EVENT_q i, 1, 1⟩
def F.LOADCH_CQ_EVENT_q_CPL_EN (i : Nat) : Fld := ⟨R.LOADCH_CQ_EVENT_q i, 8, 8⟩
def F.LOADCH_CQ_EVENT_q_OVF_EN (i : Nat) : Fld := ⟨R.LOADCH_CQ_EVENT_q i, 9, 9⟩
def F.LOADCH_CPL_OVF_CNT_q (i : Nat) : Fld := ⟨R.LOADCH_CPL_OVF_CNT_q i, 31, 0⟩
def F.LOADCH_CPL_CNT_q_s (i j : Nat) : Fld := ⟨R.LOADCH_CPL_CNT_q_s i j, 31, 0⟩
def F.LOADCH_CPL_CNT_RSV_q_k (i j : Nat) : Fld := ⟨R.LOADCH_CPL_CNT_RSV_q_k i j, 31, 0⟩
def F.LOADCH_CH_CFG_n_CLASS (i : Nat) : Fld := ⟨R.LOADCH_CH_CFG_n i, 2, 0⟩
def F.LOADCH_CH_CFG_n_RESET_MODE (i : Nat) : Fld := ⟨R.LOADCH_CH_CFG_n i, 5, 4⟩
def F.LOADCH_CH_CFG_n_LIMP (i : Nat) : Fld := ⟨R.LOADCH_CH_CFG_n i, 7, 6⟩
def F.LOADCH_CH_CFG_n_T_HOLD (i : Nat) : Fld := ⟨R.LOADCH_CH_CFG_n i, 18, 8⟩
def F.LOADCH_CH_CFG_n_FINE_EN (i : Nat) : Fld := ⟨R.LOADCH_CH_CFG_n i, 20, 20⟩
def F.LOADCH_CH_CFG_n_OL_OFF_EN (i : Nat) : Fld := ⟨R.LOADCH_CH_CFG_n i, 21, 21⟩
def F.LOADCH_CH_CFG_n_VT_ALIGN (i : Nat) : Fld := ⟨R.LOADCH_CH_CFG_n i, 22, 22⟩
def F.LOADCH_CH_CFG_n_SHED_RESTORE (i : Nat) : Fld := ⟨R.LOADCH_CH_CFG_n i, 23, 23⟩
def F.LOADCH_TRIP_n_I_TRIP (i : Nat) : Fld := ⟨R.LOADCH_TRIP_n i, 15, 0⟩
def F.LOADCH_TRIP_n_T_TRIP (i : Nat) : Fld := ⟨R.LOADCH_TRIP_n i, 31, 16⟩
def F.LOADCH_INRUSH_n_I_INRUSH (i : Nat) : Fld := ⟨R.LOADCH_INRUSH_n i, 15, 0⟩
def F.LOADCH_INRUSH_n_INRUSH_MS (i : Nat) : Fld := ⟨R.LOADCH_INRUSH_n i, 27, 16⟩
def F.LOADCH_I2T_A_n_I_W (i : Nat) : Fld := ⟨R.LOADCH_I2T_A_n i, 15, 0⟩
def F.LOADCH_I2T_A_n_TAU (i : Nat) : Fld := ⟨R.LOADCH_I2T_A_n i, 28, 16⟩
def F.LOADCH_I2T_B_n_W_TH (i : Nat) : Fld := ⟨R.LOADCH_I2T_B_n i, 15, 0⟩
def F.LOADCH_I2T_B_n_W_CLR (i : Nat) : Fld := ⟨R.LOADCH_I2T_B_n i, 31, 16⟩
def F.LOADCH_OL_n_OL_ON (i : Nat) : Fld := ⟨R.LOADCH_OL_n i, 15, 0⟩
def F.LOADCH_OL_n_OL_OFF_MS (i : Nat) : Fld := ⟨R.LOADCH_OL_n i, 27, 16⟩
def F.LOADCH_LIMP_PWM_n_LIMP_DUTY (i : Nat) : Fld := ⟨R.LOADCH_LIMP_PWM_n i, 10, 0⟩
def F.LOADCH_LIMP_PWM_n_LIMP_FREQ (i : Nat) : Fld := ⟨R.LOADCH_LIMP_PWM_n i, 31, 16⟩
def F.LOADCH_ALIGN_n_PHASE_US (i : Nat) : Fld := ⟨R.LOADCH_ALIGN_n i, 19, 0⟩
def F.LOADCH_OFFTEST_n_OFFTEST_US (i : Nat) : Fld := ⟨R.LOADCH_OFFTEST_n i, 7, 0⟩
def F.LOADCH_GD_CFG_n_RATING (i : Nat) : Fld := ⟨R.LOADCH_GD_CFG_n i, 9, 0⟩
def F.LOADCH_GD_CFG_n_SHUNT (i : Nat) : Fld := ⟨R.LOADCH_GD_CFG_n i, 29, 16⟩
def F.LOADCH_GD_VDS_n_VDS_TH (i : Nat) : Fld := ⟨R.LOADCH_GD_VDS_n i, 11, 0⟩
def F.LOADCH_GD_VDS_n_VDS_BLANK (i : Nat) : Fld := ⟨R.LOADCH_GD_VDS_n i, 23, 16⟩
def F.LOADCH_HB_CFG_n_DEAD_NS (i : Nat) : Fld := ⟨R.LOADCH_HB_CFG_n i, 10, 0⟩
def F.LOADCH_CQ_MASK_LO_q (i : Nat) : Fld := ⟨R.LOADCH_CQ_MASK_LO_q i, 31, 0⟩
def F.LOADCH_CQ_MASK_HI_q_HB (i : Nat) : Fld := ⟨R.LOADCH_CQ_MASK_HI_q i, 5, 0⟩
def F.LOADCH_CQ_MASK_HI_q_GD (i : Nat) : Fld := ⟨R.LOADCH_CQ_MASK_HI_q i, 15, 8⟩
def F.LOADCH_CH_STAT_n_STATE (i : Nat) : Fld := ⟨R.LOADCH_CH_STAT_n i, 3, 0⟩
def F.LOADCH_CH_STAT_n_CAUSE (i : Nat) : Fld := ⟨R.LOADCH_CH_STAT_n i, 7, 4⟩
def F.LOADCH_CH_STAT_n_SHED_SRC (i : Nat) : Fld := ⟨R.LOADCH_CH_STAT_n i, 10, 8⟩
def F.LOADCH_CH_STAT_n_INRUSH (i : Nat) : Fld := ⟨R.LOADCH_CH_STAT_n i, 11, 11⟩
def F.LOADCH_CH_STAT_n_LIMPED (i : Nat) : Fld := ⟨R.LOADCH_CH_STAT_n i, 12, 12⟩
def F.LOADCH_CH_STAT_n_OPEN_ON (i : Nat) : Fld := ⟨R.LOADCH_CH_STAT_n i, 13, 13⟩
def F.LOADCH_CH_STAT_n_OPEN_OFF (i : Nat) : Fld := ⟨R.LOADCH_CH_STAT_n i, 14, 14⟩
def F.LOADCH_CH_STAT_n_SHORT_BAT (i : Nat) : Fld := ⟨R.LOADCH_CH_STAT_n i, 15, 15⟩
def F.LOADCH_CH_STAT_n_STUCK_ON (i : Nat) : Fld := ⟨R.LOADCH_CH_STAT_n i, 16, 16⟩
def F.LOADCH_CH_CUR_n_CUR (i : Nat) : Fld := ⟨R.LOADCH_CH_CUR_n i, 15, 0⟩
def F.LOADCH_CH_CUR_n_CUR_FINE (i : Nat) : Fld := ⟨R.LOADCH_CH_CUR_n i, 23, 16⟩
def F.LOADCH_CH_I2T_n_W (i : Nat) : Fld := ⟨R.LOADCH_CH_I2T_n i, 15, 0⟩
def F.LOADCH_CH_I2T_n_LATCHES (i : Nat) : Fld := ⟨R.LOADCH_CH_I2T_n i, 31, 16⟩
def F.LOADCH_CH_EVENT_n_EVENT (i : Nat) : Fld := ⟨R.LOADCH_CH_EVENT_n i, 6, 0⟩
def F.LOADCH_CH_EVENT_n_EVENT_EN (i : Nat) : Fld := ⟨R.LOADCH_CH_EVENT_n i, 22, 16⟩
def F.LOADCH_SNS_CFG_k_SEL (i : Nat) : Fld := ⟨R.LOADCH_SNS_CFG_k i, 5, 0⟩
def F.LOADCH_SNS_CFG_k_OR_GROUP (i : Nat) : Fld := ⟨R.LOADCH_SNS_CFG_k i, 8, 8⟩
def F.LOADCH_OTP_IDX : Fld := ⟨R.LOADCH_OTP_IDX, 5, 0⟩
def F.LOADCH_OTP_DATA_k (i : Nat) : Fld := ⟨R.LOADCH_OTP_DATA_k i, 31, 0⟩
def F.LOADCH_OTP_CMD_PROG : Fld := ⟨R.LOADCH_OTP_CMD, 0, 0⟩
def F.LOADCH_OTP_CMD_READ : Fld := ⟨R.LOADCH_OTP_CMD, 1, 1⟩
def F.LOADCH_OTP_STATUS_PROGRAMMED : Fld := ⟨R.LOADCH_OTP_STATUS, 0, 0⟩
def F.LOADCH_OTP_STATUS_BUSY : Fld := ⟨R.LOADCH_OTP_STATUS, 1, 1⟩
def F.LOADCH_OTP_STATUS_RESULT : Fld := ⟨R.LOADCH_OTP_STATUS, 15, 8⟩
def F.FIO_DI_CFG_i_EN (i : Nat) : Fld := ⟨R.FIO_DI_CFG_i i, 0, 0⟩
def F.FIO_DI_CFG_i_WET (i : Nat) : Fld := ⟨R.FIO_DI_CFG_i i, 1, 1⟩
def F.FIO_DI_CFG_i_DIR (i : Nat) : Fld := ⟨R.FIO_DI_CFG_i i, 2, 2⟩
def F.FIO_DI_CFG_i_INV (i : Nat) : Fld := ⟨R.FIO_DI_CFG_i i, 3, 3⟩
def F.FIO_DI_CFG_i_DEB (i : Nat) : Fld := ⟨R.FIO_DI_CFG_i i, 7, 4⟩
def F.FIO_DI_CFG_i_WAKE_EN (i : Nat) : Fld := ⟨R.FIO_DI_CFG_i i, 8, 8⟩
def F.FIO_DI_CFG_i_WAKE_EDGE (i : Nat) : Fld := ⟨R.FIO_DI_CFG_i i, 10, 9⟩
def F.FIO_DI_CFG_i_IE (i : Nat) : Fld := ⟨R.FIO_DI_CFG_i i, 11, 11⟩
def F.FIO_DI_STATE_k (i : Nat) : Fld := ⟨R.FIO_DI_STATE_k i, 31, 0⟩
def F.FIO_DI_CHG_k (i : Nat) : Fld := ⟨R.FIO_DI_CHG_k i, 31, 0⟩
def F.FIO_DI_POLL_POLL_MS : Fld := ⟨R.FIO_DI_POLL, 9, 0⟩
def F.FIO_DI_POLL_PULSE_US : Fld := ⟨R.FIO_DI_POLL, 15, 10⟩
def F.FIO_AI_CFG_j_EN (i : Nat) : Fld := ⟨R.FIO_AI_CFG_j i, 0, 0⟩
def F.FIO_AI_CFG_j_AVG (i : Nat) : Fld := ⟨R.FIO_AI_CFG_j i, 2, 1⟩
def F.FIO_AI_CFG_j_IE (i : Nat) : Fld := ⟨R.FIO_AI_CFG_j i, 3, 3⟩
def F.FIO_AI_WIN_j_LO (i : Nat) : Fld := ⟨R.FIO_AI_WIN_j i, 11, 0⟩
def F.FIO_AI_WIN_j_HI (i : Nat) : Fld := ⟨R.FIO_AI_WIN_j i, 27, 16⟩
def F.FIO_AI_VAL_j_VALUE (i : Nat) : Fld := ⟨R.FIO_AI_VAL_j i, 11, 0⟩
def F.FIO_AI_VAL_j_SEQ (i : Nat) : Fld := ⟨R.FIO_AI_VAL_j i, 31, 16⟩
def F.FIO_AI_EVT : Fld := ⟨R.FIO_AI_EVT, 15, 0⟩
def F.FIO_AI_CAL_OK : Fld := ⟨R.FIO_AI_CAL, 0, 0⟩
def F.FIO_AI_CAL_CAL_CNT : Fld := ⟨R.FIO_AI_CAL, 31, 16⟩
def F.MEM_EVENT : Fld := ⟨R.MEM_EVENT, 4, 0⟩
def F.MEM_EVENT_EN : Fld := ⟨R.MEM_EVENT_EN, 4, 0⟩
def F.MEM_DRAM_CFG_SIZE : Fld := ⟨R.MEM_DRAM_CFG, 1, 0⟩
def F.MEM_DRAM_CFG_ECC_EN : Fld := ⟨R.MEM_DRAM_CFG, 2, 2⟩
def F.MEM_DRAM_CFG_TRAINED : Fld := ⟨R.MEM_DRAM_CFG, 3, 3⟩
def F.MEM_DRAM_CFG_RATE : Fld := ⟨R.MEM_DRAM_CFG, 6, 4⟩
def F.MEM_ECC_CE_CNT : Fld := ⟨R.MEM_ECC_CE_CNT, 31, 0⟩
def F.MEM_ECC_UE_CNT : Fld := ⟨R.MEM_ECC_UE_CNT, 31, 0⟩
def F.MEM_ECC_CE_TH_TH : Fld := ⟨R.MEM_ECC_CE_TH, 15, 0⟩
def F.MEM_ECC_LAST_LO : Fld := ⟨R.MEM_ECC_LAST_LO, 31, 0⟩
def F.MEM_ECC_LAST_HI_ADDR : Fld := ⟨R.MEM_ECC_LAST_HI, 7, 0⟩
def F.MEM_ECC_LAST_HI_INIT : Fld := ⟨R.MEM_ECC_LAST_HI, 15, 8⟩
def F.MEM_ECC_LAST_HI_UE : Fld := ⟨R.MEM_ECC_LAST_HI, 16, 16⟩
def F.MEM_ECC_LAST_HI_SCRUB : Fld := ⟨R.MEM_ECC_LAST_HI, 17, 17⟩
def F.MEM_SCRUB_SCRUB_H : Fld := ⟨R.MEM_SCRUB, 7, 0⟩
def F.MEM_SCRUB_EN : Fld := ⟨R.MEM_SCRUB, 8, 8⟩
def F.MEM_UNMAP_LO : Fld := ⟨R.MEM_UNMAP_LO, 31, 0⟩
def F.MEM_UNMAP_HI : Fld := ⟨R.MEM_UNMAP_HI, 15, 0⟩
def F.MEM_UNMAP_CNT : Fld := ⟨R.MEM_UNMAP_CNT, 31, 0⟩
def F.MEM_SRAM_CE_CNT : Fld := ⟨R.MEM_SRAM_CE_CNT, 31, 0⟩
def F.MEM_SRAM_UE_CNT : Fld := ⟨R.MEM_SRAM_UE_CNT, 31, 0⟩
def F.MEM_COLL_SILENT_b (i : Nat) : Fld := ⟨R.MEM_COLL_SILENT_b i, 31, 0⟩
def F.MEM_COLL_RETRY_b (i : Nat) : Fld := ⟨R.MEM_COLL_RETRY_b i, 31, 0⟩
def F.MEM_SPEC_POP : Fld := ⟨R.MEM_SPEC_POP, 31, 0⟩
def F.MEM_RTWIN_p_BASE (i : Nat) : Fld := ⟨R.MEM_RTWIN_p i, 2, 0⟩
def F.MEM_RTWIN_p_EN (i : Nat) : Fld := ⟨R.MEM_RTWIN_p i, 8, 8⟩
def F.MEM_TCMCPY_SRC_LO : Fld := ⟨R.MEM_TCMCPY_SRC_LO, 31, 0⟩
def F.MEM_TCMCPY_SRC_HI : Fld := ⟨R.MEM_TCMCPY_SRC_HI, 7, 0⟩
def F.MEM_TCMCPY_DST_OFS : Fld := ⟨R.MEM_TCMCPY_DST, 18, 0⟩
def F.MEM_TCMCPY_DST_TARGET : Fld := ⟨R.MEM_TCMCPY_DST, 22, 20⟩
def F.MEM_TCMCPY_CTL_LEN : Fld := ⟨R.MEM_TCMCPY_CTL, 18, 0⟩
def F.MEM_TCMCPY_CTL_GO : Fld := ⟨R.MEM_TCMCPY_CTL, 31, 31⟩
def F.MEM_TCMCPY_STAT_STATUS : Fld := ⟨R.MEM_TCMCPY_STAT, 7, 0⟩
def F.MEM_TCMCPY_STAT_BUSY : Fld := ⟨R.MEM_TCMCPY_STAT, 8, 8⟩
def F.MEM_CNT_CLR_CLR : Fld := ⟨R.MEM_CNT_CLR, 0, 0⟩
def F.MEM_ATOM_ADDR : Fld := ⟨R.MEM_ATOM_ADDR, 21, 2⟩
def F.MEM_ATOM_AADD : Fld := ⟨R.MEM_ATOM_AADD, 31, 0⟩
def F.MEM_ATOM_ASWP : Fld := ⟨R.MEM_ATOM_ASWP, 31, 0⟩
def F.MEM_ATOM_OLD : Fld := ⟨R.MEM_ATOM_OLD, 31, 0⟩
def F.MEM_ATOM_STAT : Fld := ⟨R.MEM_ATOM_STAT, 7, 0⟩
def F.CWY_CTRL_TIMEOUT : Fld := ⟨R.CWY_CTRL, 15, 0⟩
def F.CWY_EVENT : Fld := ⟨R.CWY_EVENT, 3, 0⟩
def F.CWY_EVENT_EN : Fld := ⟨R.CWY_EVENT_EN, 3, 0⟩
def F.CWY_RANGE_BASE_k_BASE (i : Nat) : Fld := ⟨R.CWY_RANGE_BASE_k i, 27, 12⟩
def F.CWY_RANGE_LIMIT_k_LIMIT (i : Nat) : Fld := ⟨R.CWY_RANGE_LIMIT_k i, 27, 12⟩
def F.CWY_RANGE_CFG_k_EN (i : Nat) : Fld := ⟨R.CWY_RANGE_CFG_k i, 0, 0⟩
def F.CWY_RANGE_CFG_k_POSTED (i : Nat) : Fld := ⟨R.CWY_RANGE_CFG_k i, 1, 1⟩
def F.CWY_RANGE_CFG_k_RA (i : Nat) : Fld := ⟨R.CWY_RANGE_CFG_k i, 2, 2⟩
def F.CWY_RETRY_CNT : Fld := ⟨R.CWY_RETRY_CNT, 31, 0⟩
def F.CWY_RETRY_HOLD_CNT : Fld := ⟨R.CWY_RETRY_HOLD_CNT, 31, 0⟩
def F.CWY_LOCK_BROKEN_CNT : Fld := ⟨R.CWY_LOCK_BROKEN_CNT, 31, 0⟩
def F.CWY_LATE_RESP_CNT : Fld := ⟨R.CWY_LATE_RESP_CNT, 31, 0⟩
def F.CWY_ERR_OVF : Fld := ⟨R.CWY_ERR_OVF, 31, 0⟩
def F.CWY_CNT_CLR_CLR : Fld := ⟨R.CWY_CNT_CLR, 0, 0⟩
def F.CWY_ERRLOG_POP : Fld := ⟨R.CWY_ERRLOG_POP, 31, 0⟩
def F.CWY_ERRLOG_INFO_STATUS : Fld := ⟨R.CWY_ERRLOG_INFO, 7, 0⟩
def F.CWY_ERRLOG_INFO_INIT : Fld := ⟨R.CWY_ERRLOG_INFO, 15, 8⟩
def F.CWY_ERRLOG_INFO_PART : Fld := ⟨R.CWY_ERRLOG_INFO, 18, 16⟩
def F.CWY_ERRLOG_INFO_BE : Fld := ⟨R.CWY_ERRLOG_INFO, 23, 20⟩
def F.CWY_ERRLOG_NS : Fld := ⟨R.CWY_ERRLOG_NS, 31, 0⟩
def F.CWY_ERRLOG_FILL : Fld := ⟨R.CWY_ERRLOG_FILL, 3, 0⟩
def F.IC_SRC_CFG_i_PRIO (i : Nat) : Fld := ⟨R.IC_SRC_CFG_i i, 4, 0⟩
def F.IC_SRC_CFG_i_TARGET (i : Nat) : Fld := ⟨R.IC_SRC_CFG_i i, 13, 8⟩
def F.IC_SRC_CFG_i_EN (i : Nat) : Fld := ⟨R.IC_SRC_CFG_i i, 16, 16⟩
def F.IC_SRC_CFG_i_PEND (i : Nat) : Fld := ⟨R.IC_SRC_CFG_i i, 24, 24⟩
def F.IC_SRC_CFG_i_ACTIVE (i : Nat) : Fld := ⟨R.IC_SRC_CFG_i i, 25, 25⟩
def F.IC_SRC_OWN_i_WORLD (i : Nat) : Fld := ⟨R.IC_SRC_OWN_i i, 0, 0⟩
def F.IC_SRC_OWN_i_INST (i : Nat) : Fld := ⟨R.IC_SRC_OWN_i i, 5, 1⟩
def F.IC_SGI_SET_ID : Fld := ⟨R.IC_SGI_SET, 9, 0⟩
def F.IC_EOI_ERR_CNT : Fld := ⟨R.IC_EOI_ERR_CNT, 31, 0⟩
def F.IC_CLAIM_t (i : Nat) : Fld := ⟨R.IC_CLAIM_t i, 31, 0⟩
def F.IC_EOI_t_ID (i : Nat) : Fld := ⟨R.IC_EOI_t i, 9, 0⟩
def F.IC_THRESH_t_PRI (i : Nat) : Fld := ⟨R.IC_THRESH_t i, 4, 0⟩
def F.IC_STAT_t_RUNPRI (i : Nat) : Fld := ⟨R.IC_STAT_t i, 4, 0⟩
def F.IC_STAT_t_DEPTH (i : Nat) : Fld := ⟨R.IC_STAT_t i, 12, 8⟩
def F.IC_STAT_t_STACK_FULL (i : Nat) : Fld := ⟨R.IC_STAT_t i, 13, 13⟩
def F.IC_STAT_t_TOP_ID (i : Nat) : Fld := ⟨R.IC_STAT_t i, 25, 16⟩
def F.IC_VA_CFG_t_EN (i : Nat) : Fld := ⟨R.IC_VA_CFG_t i, 0, 0⟩
def F.IC_VA_CFG_t_VTAB (i : Nat) : Fld := ⟨R.IC_VA_CFG_t i, 31, 12⟩
def F.HERON_SLEEP_CMD_LEVEL : Fld := ⟨R.HERON_SLEEP_CMD, 1, 0⟩
def F.HERON_STATUS_STATE : Fld := ⟨R.HERON_STATUS, 2, 0⟩
def F.HERON_WAKE_SRC_INPUT : Fld := ⟨R.HERON_WAKE_SRC, 7, 0⟩
def F.HERON_WAKE_SRC_WATCH : Fld := ⟨R.HERON_WAKE_SRC, 15, 8⟩
def F.HERON_WAKE_SRC_TAMPER : Fld := ⟨R.HERON_WAKE_SRC, 16, 16⟩
def F.HERON_VREG_DELAY_MS : Fld := ⟨R.HERON_VREG_DELAY, 7, 0⟩
def F.HERON_EVENT : Fld := ⟨R.HERON_EVENT, 2, 0⟩
def F.HERON_EVENT_EN : Fld := ⟨R.HERON_EVENT_EN, 2, 0⟩
def F.HERON_WAKE_EN_k (i : Nat) : Fld := ⟨R.HERON_WAKE_EN_k i, 31, 0⟩
def F.HERON_WAKE_LATCH_k (i : Nat) : Fld := ⟨R.HERON_WAKE_LATCH_k i, 31, 0⟩
def F.HERON_WATCH_LATCH_k (i : Nat) : Fld := ⟨R.HERON_WATCH_LATCH_k i, 31, 0⟩
def F.HERON_SEG_LATCH_LO : Fld := ⟨R.HERON_SEG_LATCH_LO, 31, 0⟩
def F.HERON_SEG_LATCH_HI : Fld := ⟨R.HERON_SEG_LATCH_HI, 2, 0⟩
def F.HERON_RTC_LO : Fld := ⟨R.HERON_RTC_LO, 31, 0⟩
def F.HERON_RTC_HI : Fld := ⟨R.HERON_RTC_HI, 31, 0⟩
def F.HERON_RTC_ALARM_LO : Fld := ⟨R.HERON_RTC_ALARM_LO, 31, 0⟩
def F.HERON_RTC_ALARM_HI : Fld := ⟨R.HERON_RTC_ALARM_HI, 31, 0⟩
def F.HERON_WATCH_k_SRC (i : Nat) : Fld := ⟨R.HERON_WATCH_k i, 9, 0⟩
def F.HERON_WATCH_k_EN (i : Nat) : Fld := ⟨R.HERON_WATCH_k i, 15, 15⟩
def F.HERON_ORDER_k_ISLAND (i : Nat) : Fld := ⟨R.HERON_ORDER_k i, 4, 0⟩
def F.HERON_ORDER_k_EN (i : Nat) : Fld := ⟨R.HERON_ORDER_k i, 7, 7⟩
def F.HERON_ORDER_k_DELAY_US (i : Nat) : Fld := ⟨R.HERON_ORDER_k i, 23, 8⟩
def F.OWN_CTRL_EN : Fld := ⟨R.OWN_CTRL, 0, 0⟩
def F.OWN_CTRL_FLUSH_ON_SWITCH : Fld := ⟨R.OWN_CTRL, 1, 1⟩
def F.OWN_CTRL_L2_RES_A : Fld := ⟨R.OWN_CTRL, 2, 2⟩
def F.OWN_CTRL_L2_RES_B : Fld := ⟨R.OWN_CTRL, 3, 3⟩
def F.OWN_STATUS_LC : Fld := ⟨R.OWN_STATUS, 1, 0⟩
def F.OWN_STATUS_TEST_ROOT : Fld := ⟨R.OWN_STATUS, 2, 2⟩
def F.OWN_EVENT : Fld := ⟨R.OWN_EVENT, 7, 0⟩
def F.OWN_EVENT_EN : Fld := ⟨R.OWN_EVENT_EN, 7, 0⟩
def F.OWN_PT_BASE_PAGE : Fld := ⟨R.OWN_PT_BASE, 27, 0⟩
def F.OWN_PT_IO_BASE_PAGE : Fld := ⟨R.OWN_PT_IO_BASE, 27, 0⟩
def F.OWN_INVAL_ADDR_PAGE : Fld := ⟨R.OWN_INVAL_ADDR, 27, 0⟩
def F.OWN_INVAL_CMD_PAGE : Fld := ⟨R.OWN_INVAL_CMD, 0, 0⟩
def F.OWN_INVAL_CMD_ALL : Fld := ⟨R.OWN_INVAL_CMD, 1, 1⟩
def F.OWN_INVAL_CMD_BUSY : Fld := ⟨R.OWN_INVAL_CMD, 31, 31⟩
def F.OWN_ANVIL_VEC_LO : Fld := ⟨R.OWN_ANVIL_VEC_LO, 31, 0⟩
def F.OWN_ANVIL_VEC_HI : Fld := ⟨R.OWN_ANVIL_VEC_HI, 7, 0⟩
def F.OWN_ANVIL_MAX_US : Fld := ⟨R.OWN_ANVIL_MAX, 13, 0⟩
def F.OWN_KEEPALIVE : Fld := ⟨R.OWN_KEEPALIVE, 20, 0⟩
def F.OWN_HWDT_CFG_PERIOD_MS : Fld := ⟨R.OWN_HWDT_CFG, 9, 0⟩
def F.OWN_HWDT_KICK : Fld := ⟨R.OWN_HWDT_KICK, 31, 0⟩
def F.OWN_HWDT_STAT_RESTARTS : Fld := ⟨R.OWN_HWDT_STAT, 7, 0⟩
def F.OWN_HWDT_STAT_IN_RESTART : Fld := ⟨R.OWN_HWDT_STAT, 8, 8⟩
def F.OWN_HWDT_STAT_SERVICE_UP : Fld := ⟨R.OWN_HWDT_STAT, 9, 9⟩
def F.OWN_MEAS_k (i : Nat) : Fld := ⟨R.OWN_MEAS_k i, 31, 0⟩
def F.OWN_LC_CMD_TARGET : Fld := ⟨R.OWN_LC_CMD, 1, 0⟩
def F.OWN_LC_CMD_CODE : Fld := ⟨R.OWN_LC_CMD, 31, 16⟩
def F.OWN_LC_STAT_RESULT : Fld := ⟨R.OWN_LC_STAT, 7, 0⟩
def F.OWN_DBG_CFG_HEARTH_DBG : Fld := ⟨R.OWN_DBG_CFG, 0, 0⟩
def F.OWN_HART_CFG_h_HS_INST (i : Nat) : Fld := ⟨R.OWN_HART_CFG_h i, 4, 0⟩
def F.OWN_HART_CFG_h_WORLD (i : Nat) : Fld := ⟨R.OWN_HART_CFG_h i, 8, 8⟩
def F.OWN_VMID_MAP_v_INST (i : Nat) : Fld := ⟨R.OWN_VMID_MAP_v i, 4, 0⟩
def F.OWN_VMID_MAP_v_EN (i : Nat) : Fld := ⟨R.OWN_VMID_MAP_v i, 8, 8⟩
def F.OWN_INIT_CFG_p_INST (i : Nat) : Fld := ⟨R.OWN_INIT_CFG_p i, 4, 0⟩
def F.OWN_BLK_k_WORLD (i : Nat) : Fld := ⟨R.OWN_BLK_k i, 0, 0⟩
def F.OWN_BLK_k_INST (i : Nat) : Fld := ⟨R.OWN_BLK_k i, 5, 1⟩
def F.OWN_BLK_k_STATE (i : Nat) : Fld := ⟨R.OWN_BLK_k i, 9, 8⟩
def F.OWN_BLK_k_FORCED (i : Nat) : Fld := ⟨R.OWN_BLK_k i, 10, 10⟩
def F.OWN_BLK_k_RRQ (i : Nat) : Fld := ⟨R.OWN_BLK_k i, 19, 16⟩
def F.OWN_TONGS_CMD_BLOCK : Fld := ⟨R.OWN_TONGS_CMD, 4, 0⟩
def F.OWN_TONGS_CMD_OP : Fld := ⟨R.OWN_TONGS_CMD, 9, 8⟩
def F.OWN_TONGS_CMD_NEW_WORLD : Fld := ⟨R.OWN_TONGS_CMD, 10, 10⟩
def F.OWN_TONGS_CMD_NEW_INST : Fld := ⟨R.OWN_TONGS_CMD, 15, 11⟩
def F.OWN_TONGS_CMD_BUSY : Fld := ⟨R.OWN_TONGS_CMD, 31, 31⟩
def F.OWN_TONGS_CFG_TO_MS : Fld := ⟨R.OWN_TONGS_CFG, 15, 0⟩
def F.OWN_TONGS_CFG_AUTO_FORCE : Fld := ⟨R.OWN_TONGS_CFG, 16, 16⟩
def F.OWN_VIOL_CNT : Fld := ⟨R.OWN_VIOL_CNT, 31, 0⟩
def F.OWN_WORLD_GATE_CNT : Fld := ⟨R.OWN_WORLD_GATE_CNT, 31, 0⟩
def F.OWN_TONGS_BLOCKED_CNT : Fld := ⟨R.OWN_TONGS_BLOCKED_CNT, 31, 0⟩
def F.OWN_CACHE_MISS_CNT : Fld := ⟨R.OWN_CACHE_MISS_CNT, 31, 0⟩
def F.OWN_CNT_CLR_CLR : Fld := ⟨R.OWN_CNT_CLR, 0, 0⟩
def F.OWN_VIOL_POP : Fld := ⟨R.OWN_VIOL_POP, 31, 0⟩
def F.OWN_VIOL_INFO_ADDR_HI : Fld := ⟨R.OWN_VIOL_INFO, 7, 0⟩
def F.OWN_VIOL_INFO_INIT : Fld := ⟨R.OWN_VIOL_INFO, 15, 8⟩
def F.OWN_VIOL_INFO_WORLD : Fld := ⟨R.OWN_VIOL_INFO, 16, 16⟩
def F.OWN_VIOL_INFO_INST : Fld := ⟨R.OWN_VIOL_INFO, 21, 17⟩
def F.OWN_VIOL_INFO_WRITE : Fld := ⟨R.OWN_VIOL_INFO, 22, 22⟩
def F.OWN_VIOL_INFO_CAUSE : Fld := ⟨R.OWN_VIOL_INFO, 26, 24⟩
def F.OWN_VIOL_FILL : Fld := ⟨R.OWN_VIOL_FILL, 4, 0⟩
def F.OWN_TONGS_REL_BLOCK : Fld := ⟨R.OWN_TONGS_REL, 4, 0⟩
def F.OWN_REL_PEND : Fld := ⟨R.OWN_REL_PEND, 26, 0⟩
def F.VQI_MGR_EVENT_EVENT : Fld := ⟨R.VQI_MGR_EVENT, 4, 0⟩
def F.VQI_MGR_EVENT_EN_EVENT_EN : Fld := ⟨R.VQI_MGR_EVENT_EN, 4, 0⟩
def F.VQI_MGR_SRC_ID : Fld := ⟨R.VQI_MGR_SRC, 9, 0⟩
def F.VQI_MGR_LAST_INST : Fld := ⟨R.VQI_MGR_LAST, 4, 0⟩
def F.VQI_STAGE_OFS : Fld := ⟨R.VQI_STAGE_OFS, 21, 6⟩
def F.VQI_SHARE_SUM : Fld := ⟨R.VQI_SHARE_SUM, 10, 0⟩
def F.VQI_MIG_BUF_LO : Fld := ⟨R.VQI_MIG_BUF_LO, 31, 0⟩
def F.VQI_MIG_BUF_HI : Fld := ⟨R.VQI_MIG_BUF_HI, 7, 0⟩
def F.VQI_MIG_CMD_INST : Fld := ⟨R.VQI_MIG_CMD, 4, 0⟩
def F.VQI_MIG_CMD_OP : Fld := ⟨R.VQI_MIG_CMD, 9, 8⟩
def F.VQI_MIG_CMD_BUSY : Fld := ⟨R.VQI_MIG_CMD, 31, 31⟩
def F.VQI_MIG_STAT_STATUS : Fld := ⟨R.VQI_MIG_STAT, 7, 0⟩
def F.VQI_MIG_STAT_REASON : Fld := ⟨R.VQI_MIG_STAT, 10, 8⟩
def F.VQI_MIG_SEQ : Fld := ⟨R.VQI_MIG_SEQ, 31, 0⟩
def F.VQI_MIG_CFG_KEY_SLOT : Fld := ⟨R.VQI_MIG_CFG, 5, 0⟩
def F.VQI_CFG_i_EN (i : Nat) : Fld := ⟨R.VQI_CFG_i i, 0, 0⟩
def F.VQI_CFG_i_INST (i : Nat) : Fld := ⟨R.VQI_CFG_i i, 5, 1⟩
def F.VQI_CFG_i_PLANE (i : Nat) : Fld := ⟨R.VQI_CFG_i i, 6, 6⟩
def F.VQI_CFG_i_RX_MCAST (i : Nat) : Fld := ⟨R.VQI_CFG_i i, 7, 7⟩
def F.VQI_CMD_i_RESET (i : Nat) : Fld := ⟨R.VQI_CMD_i i, 0, 0⟩
def F.VQI_CMD_i_FREEZE (i : Nat) : Fld := ⟨R.VQI_CMD_i i, 1, 1⟩
def F.VQI_CMD_i_THAW (i : Nat) : Fld := ⟨R.VQI_CMD_i i, 2, 2⟩
def F.VQI_STATE_i_STATE (i : Nat) : Fld := ⟨R.VQI_STATE_i i, 1, 0⟩
def F.VQI_STATE_i_OVER_SHARE (i : Nat) : Fld := ⟨R.VQI_STATE_i i, 2, 2⟩
def F.VQI_STATE_i_GEN (i : Nat) : Fld := ⟨R.VQI_STATE_i i, 31, 16⟩
def F.VQI_SHARE_i (i : Nat) : Fld := ⟨R.VQI_SHARE_i i, 10, 0⟩
def F.VQI_PAIR_KIND_i_p_KIND (i j : Nat) : Fld := ⟨R.VQI_PAIR_KIND_i_p i j, 2, 0⟩
def F.VQI_PAIR_KIND_i_p_CLASSES (i j : Nat) : Fld := ⟨R.VQI_PAIR_KIND_i_p i j, 15, 8⟩
def F.VQI_MAC_LO_i_k (i j : Nat) : Fld := ⟨R.VQI_MAC_LO_i_k i j, 31, 0⟩
def F.VQI_MAC_HI_i_k_MAC (i j : Nat) : Fld := ⟨R.VQI_MAC_HI_i_k i j, 15, 0⟩
def F.VQI_MAC_HI_i_k_EN (i j : Nat) : Fld := ⟨R.VQI_MAC_HI_i_k i j, 31, 31⟩
def F.VQI_VLAN_i_k_VID (i j : Nat) : Fld := ⟨R.VQI_VLAN_i_k i j, 11, 0⟩
def F.VQI_VLAN_i_k_EN (i j : Nat) : Fld := ⟨R.VQI_VLAN_i_k i j, 31, 31⟩
def F.VQI_CAN_LO_i_k_ID (i j : Nat) : Fld := ⟨R.VQI_CAN_LO_i_k i j, 29, 0⟩
def F.VQI_CAN_LO_i_k_EN (i j : Nat) : Fld := ⟨R.VQI_CAN_LO_i_k i j, 31, 31⟩
def F.VQI_CAN_HI_i_k_ID (i j : Nat) : Fld := ⟨R.VQI_CAN_HI_i_k i j, 29, 0⟩
def F.VQI_SIG_LO_i_k_ID (i j : Nat) : Fld := ⟨R.VQI_SIG_LO_i_k i j, 22, 0⟩
def F.VQI_SIG_LO_i_k_EN (i j : Nat) : Fld := ⟨R.VQI_SIG_LO_i_k i j, 31, 31⟩
def F.VQI_SIG_HI_i_k_ID (i j : Nat) : Fld := ⟨R.VQI_SIG_HI_i_k i j, 22, 0⟩
def F.VQI_ADMIT_i (i : Nat) : Fld := ⟨R.VQI_ADMIT_i i, 31, 0⟩
def F.VQI_SPOOF_CNT_i (i : Nat) : Fld := ⟨R.VQI_SPOOF_CNT_i i, 31, 0⟩
def F.VQI_STALE_CNT_i (i : Nat) : Fld := ⟨R.VQI_STALE_CNT_i i, 31, 0⟩
def F.VQI_RX_NOBUF_i (i : Nat) : Fld := ⟨R.VQI_RX_NOBUF_i i, 31, 0⟩
def F.VQI_DELIV_DROP_i (i : Nat) : Fld := ⟨R.VQI_DELIV_DROP_i i, 31, 0⟩
def F.VQI_OVER_SHARE_CNT_i (i : Nat) : Fld := ⟨R.VQI_OVER_SHARE_CNT_i i, 31, 0⟩
def F.VQI_CNT_CLR_i_CLR (i : Nat) : Fld := ⟨R.VQI_CNT_CLR_i i, 0, 0⟩
def F.VQI_OCC_i_t (i j : Nat) : Fld := ⟨R.VQI_OCC_i_t i j, 10, 0⟩
def F.VQI_SQ_BASE_LO_i_p (i j : Nat) : Fld := ⟨R.VQI_SQ_BASE_LO_i_p i j, 31, 0⟩
def F.VQI_SQ_BASE_HI_i_p (i j : Nat) : Fld := ⟨R.VQI_SQ_BASE_HI_i_p i j, 7, 0⟩
def F.VQI_CQ_BASE_LO_i_p (i j : Nat) : Fld := ⟨R.VQI_CQ_BASE_LO_i_p i j, 31, 0⟩
def F.VQI_CQ_BASE_HI_i_p (i j : Nat) : Fld := ⟨R.VQI_CQ_BASE_HI_i_p i j, 7, 0⟩
def F.VQI_RING_SIZE_i_p_SQ_LOG2 (i j : Nat) : Fld := ⟨R.VQI_RING_SIZE_i_p i j, 3, 0⟩
def F.VQI_RING_SIZE_i_p_CQ_LOG2 (i j : Nat) : Fld := ⟨R.VQI_RING_SIZE_i_p i j, 11, 8⟩
def F.VQI_RING_SIZE_i_p_EN (i j : Nat) : Fld := ⟨R.VQI_RING_SIZE_i_p i j, 12, 12⟩
def F.VQI_RING_SIZE_i_p_DB (i j : Nat) : Fld := ⟨R.VQI_RING_SIZE_i_p i j, 15, 13⟩
def F.VQI_RING_SIZE_i_p_IE (i j : Nat) : Fld := ⟨R.VQI_RING_SIZE_i_p i j, 16, 16⟩
def F.VQI_SQ_TAIL_i_p (i j : Nat) : Fld := ⟨R.VQI_SQ_TAIL_i_p i j, 12, 0⟩
def F.VQI_SQ_HEAD_i_p (i j : Nat) : Fld := ⟨R.VQI_SQ_HEAD_i_p i j, 12, 0⟩
def F.VQI_CQ_TAIL_i_p (i j : Nat) : Fld := ⟨R.VQI_CQ_TAIL_i_p i j, 12, 0⟩
def F.VQI_CQ_HEAD_i_p (i j : Nat) : Fld := ⟨R.VQI_CQ_HEAD_i_p i j, 12, 0⟩
def F.VQI_PAIR_STATUS_i_p_FAULT (i j : Nat) : Fld := ⟨R.VQI_PAIR_STATUS_i_p i j, 0, 0⟩
def F.VQI_ICMD_i_RESET (i : Nat) : Fld := ⟨R.VQI_ICMD_i i, 0, 0⟩
def F.VQI_ISTATUS_i_STATE (i : Nat) : Fld := ⟨R.VQI_ISTATUS_i i, 1, 0⟩
def F.VQI_ISTATUS_i_GEN (i : Nat) : Fld := ⟨R.VQI_ISTATUS_i i, 31, 16⟩
def F.KEY_STATUS_ROOT_SEL : Fld := ⟨R.KEY_STATUS, 0, 0⟩
def F.KEY_STATUS_ROOT_BLOCKED : Fld := ⟨R.KEY_STATUS, 1, 1⟩
def F.KEY_STATUS_QUEUE_FILL : Fld := ⟨R.KEY_STATUS, 15, 8⟩
def F.KEY_EVENT : Fld := ⟨R.KEY_EVENT, 2, 0⟩
def F.KEY_EVENT_EN : Fld := ⟨R.KEY_EVENT_EN, 2, 0⟩
def F.KEY_JQ_ADDR_LO : Fld := ⟨R.KEY_JQ_ADDR_LO, 31, 6⟩
def F.KEY_JQ_ADDR_HI : Fld := ⟨R.KEY_JQ_ADDR_HI, 7, 0⟩
def F.KEY_JQ_SUBMIT_GO : Fld := ⟨R.KEY_JQ_SUBMIT, 0, 0⟩
def F.KEY_JQ_STAT_LAST : Fld := ⟨R.KEY_JQ_STAT, 7, 0⟩
def F.KEY_JQ_STAT_OUT : Fld := ⟨R.KEY_JQ_STAT, 20, 16⟩
def F.KEY_SLOT_CMD_SLOT : Fld := ⟨R.KEY_SLOT_CMD, 5, 0⟩
def F.KEY_SLOT_CMD_OP : Fld := ⟨R.KEY_SLOT_CMD, 9, 8⟩
def F.KEY_SLOT_CMD_BUSY : Fld := ⟨R.KEY_SLOT_CMD, 31, 31⟩
def F.KEY_SLOT_STAT_RESULT : Fld := ⟨R.KEY_SLOT_STAT, 7, 0⟩
def F.KEY_UID_LO : Fld := ⟨R.KEY_UID_LO, 31, 0⟩
def F.KEY_UID_HI : Fld := ⟨R.KEY_UID_HI, 31, 0⟩
def F.KEY_JOBS : Fld := ⟨R.KEY_JOBS, 31, 0⟩
def F.KEY_REFUSED : Fld := ⟨R.KEY_REFUSED, 31, 0⟩
def F.KEY_TAMPER_ABORTS : Fld := ⟨R.KEY_TAMPER_ABORTS, 31, 0⟩
def F.KEY_CNT_CLR_CLR : Fld := ⟨R.KEY_CNT_CLR, 0, 0⟩
def F.KEY_ATTR_s_h_TYPE (i j : Nat) : Fld := ⟨R.KEY_ATTR_s_h i j, 2, 0⟩
def F.KEY_ATTR_s_h_SIGN (i j : Nat) : Fld := ⟨R.KEY_ATTR_s_h i j, 8, 8⟩
def F.KEY_ATTR_s_h_VERIFY (i j : Nat) : Fld := ⟨R.KEY_ATTR_s_h i j, 9, 9⟩
def F.KEY_ATTR_s_h_ENCRYPT (i j : Nat) : Fld := ⟨R.KEY_ATTR_s_h i j, 10, 10⟩
def F.KEY_ATTR_s_h_DECRYPT (i j : Nat) : Fld := ⟨R.KEY_ATTR_s_h i j, 11, 11⟩
def F.KEY_ATTR_s_h_DERIVE (i j : Nat) : Fld := ⟨R.KEY_ATTR_s_h i j, 12, 12⟩
def F.KEY_ATTR_s_h_MAC (i j : Nat) : Fld := ⟨R.KEY_ATTR_s_h i j, 13, 13⟩
def F.KEY_ATTR_s_h_ATTEST (i j : Nat) : Fld := ⟨R.KEY_ATTR_s_h i j, 14, 14⟩
def F.KEY_ATTR_s_h_EXPORT (i j : Nat) : Fld := ⟨R.KEY_ATTR_s_h i j, 15, 15⟩
def F.KEY_ATTR_s_h_USE_CNT_EN (i j : Nat) : Fld := ⟨R.KEY_ATTR_s_h i j, 16, 16⟩
def F.KEY_ATTR_s_h_EXPIRE_RESET (i j : Nat) : Fld := ⟨R.KEY_ATTR_s_h i j, 17, 17⟩
def F.KEY_ATTR_s_h_ANY_INST (i j : Nat) : Fld := ⟨R.KEY_ATTR_s_h i j, 18, 18⟩
def F.KEY_ATTR_s_h_OWNER_WORLD (i j : Nat) : Fld := ⟨R.KEY_ATTR_s_h i j, 19, 19⟩
def F.KEY_ATTR_s_h_OWNER_INST (i j : Nat) : Fld := ⟨R.KEY_ATTR_s_h i j, 24, 20⟩
def F.KEY_ATTR_s_h_DTYPE (i j : Nat) : Fld := ⟨R.KEY_ATTR_s_h i j, 27, 25⟩
def F.KEY_ATTR_s_h_DISABLED (i j : Nat) : Fld := ⟨R.KEY_ATTR_s_h i j, 30, 30⟩
def F.KEY_ATTR_s_h_VALID (i j : Nat) : Fld := ⟨R.KEY_ATTR_s_h i j, 31, 31⟩
def F.KEY_USES_s_h_USES (i j : Nat) : Fld := ⟨R.KEY_USES_s_h i j, 23, 0⟩
def F.KEY_KCV_LO_s_h (i j : Nat) : Fld := ⟨R.KEY_KCV_LO_s_h i j, 31, 0⟩
def F.KEY_KCV_HI_s_h (i j : Nat) : Fld := ⟨R.KEY_KCV_HI_s_h i j, 31, 0⟩
def F.TAMP_STATUS_TAMPER_LATCH : Fld := ⟨R.TAMP_STATUS, 0, 0⟩
def F.TAMP_STATUS_ROOT_BLOCKED : Fld := ⟨R.TAMP_STATUS, 1, 1⟩
def F.TAMP_STATUS_LOCKED : Fld := ⟨R.TAMP_STATUS, 2, 2⟩
def F.TAMP_STATUS_ACTIVE : Fld := ⟨R.TAMP_STATUS, 3, 3⟩
def F.TAMP_CAUSE : Fld := ⟨R.TAMP_CAUSE, 6, 0⟩
def F.TAMP_CMD_CLEAR_LATCH : Fld := ⟨R.TAMP_CMD, 0, 0⟩
def F.TAMP_CFG_TAMP0_EN : Fld := ⟨R.TAMP_CFG, 0, 0⟩
def F.TAMP_CFG_TAMP0_POL : Fld := ⟨R.TAMP_CFG, 1, 1⟩
def F.TAMP_CFG_TAMP0_FILT : Fld := ⟨R.TAMP_CFG, 4, 2⟩
def F.TAMP_CFG_TAMP1_EN : Fld := ⟨R.TAMP_CFG, 8, 8⟩
def F.TAMP_CFG_TAMP1_POL : Fld := ⟨R.TAMP_CFG, 9, 9⟩
def F.TAMP_CFG_TAMP1_FILT : Fld := ⟨R.TAMP_CFG, 12, 10⟩
def F.TAMP_CFG_INT_MASK : Fld := ⟨R.TAMP_CFG, 16, 16⟩
def F.TAMP_CFG_LOCK : Fld := ⟨R.TAMP_CFG, 31, 31⟩
def F.TAMP_FIRST_RTC_LO : Fld := ⟨R.TAMP_FIRST_RTC_LO, 31, 0⟩
def F.TAMP_FIRST_RTC_HI : Fld := ⟨R.TAMP_FIRST_RTC_HI, 31, 0⟩
def F.TAMP_COUNT : Fld := ⟨R.TAMP_COUNT, 31, 0⟩
def F.BLW_STATUS_STAGE : Fld := ⟨R.BLW_STATUS, 2, 0⟩
def F.BLW_VBAT_MV : Fld := ⟨R.BLW_VBAT, 15, 0⟩
def F.BLW_EVENT : Fld := ⟨R.BLW_EVENT, 6, 0⟩
def F.BLW_EVENT_EN : Fld := ⟨R.BLW_EVENT_EN, 6, 0⟩
def F.BLW_TH_k (i : Nat) : Fld := ⟨R.BLW_TH_k i, 13, 0⟩
def F.BLW_PARK_MS : Fld := ⟨R.BLW_PARK_MS, 4, 0⟩
def F.BLW_NONESS_LO : Fld := ⟨R.BLW_NONESS_LO, 31, 0⟩
def F.BLW_NONESS_HI : Fld := ⟨R.BLW_NONESS_HI, 2, 0⟩
def F.BLW_LIDAR_PORTS : Fld := ⟨R.BLW_LIDAR_PORTS, 17, 0⟩
def F.BLW_RAIL : Fld := ⟨R.BLW_RAIL, 3, 0⟩
def F.BLW_TJ_DEG : Fld := ⟨R.BLW_TJ, 9, 0⟩
def F.BLW_TJ_TJ_WARN : Fld := ⟨R.BLW_TJ, 23, 16⟩
def F.BLW_STAGE_CNT_k (i : Nat) : Fld := ⟨R.BLW_STAGE_CNT_k i, 31, 0⟩
def F.BLW_CRASH_MISSED : Fld := ⟨R.BLW_CRASH_MISSED, 31, 0⟩
def F.BLW_CNT_CLR_CLR : Fld := ⟨R.BLW_CNT_CLR, 0, 0⟩
def F.WDOG_WD_CFG_PERIOD_MS : Fld := ⟨R.WDOG_WD_CFG, 13, 0⟩
def F.WDOG_WD_CFG_WINDOW : Fld := ⟨R.WDOG_WD_CFG, 15, 14⟩
def F.WDOG_WD_CFG_DIS : Fld := ⟨R.WDOG_WD_CFG, 16, 16⟩
def F.WDOG_WD_CFG_LOCK : Fld := ⟨R.WDOG_WD_CFG, 31, 31⟩
def F.WDOG_WD_KICK : Fld := ⟨R.WDOG_WD_KICK, 31, 0⟩
def F.WDOG_WD_STAT_REMAIN_MS : Fld := ⟨R.WDOG_WD_STAT, 13, 0⟩
def F.WDOG_WD_STAT_WARN : Fld := ⟨R.WDOG_WD_STAT, 16, 16⟩
def F.WDOG_WD_STAT_WARN_EN : Fld := ⟨R.WDOG_WD_STAT, 17, 17⟩
def F.WDOG_HB_CFG_c_EN (i : Nat) : Fld := ⟨R.WDOG_HB_CFG_c i, 0, 0⟩
def F.WDOG_HB_CFG_c_PRIMARY (i : Nat) : Fld := ⟨R.WDOG_HB_CFG_c i, 5, 1⟩
def F.WDOG_HB_CFG_c_TIMEOUT_US (i : Nat) : Fld := ⟨R.WDOG_HB_CFG_c i, 29, 16⟩
def F.WDOG_HB_STAT_c_STATE (i : Nat) : Fld := ⟨R.WDOG_HB_STAT_c i, 1, 0⟩
def F.WDOG_HB_STAT_c_LOST (i : Nat) : Fld := ⟨R.WDOG_HB_STAT_c i, 2, 2⟩
def F.WDOG_HB_STAT_c_IE (i : Nat) : Fld := ⟨R.WDOG_HB_STAT_c i, 3, 3⟩
def F.WDOG_HB_LOST_CNT_c (i : Nat) : Fld := ⟨R.WDOG_HB_LOST_CNT_c i, 31, 0⟩
def F.WDOG_HB_KICK_c (i : Nat) : Fld := ⟨R.WDOG_HB_KICK_c i, 31, 0⟩

end Sys2Proof.Machine
end

