-- ==== Sys2Proof/Machine/RegTable.lean ====
section
/-!
DEFINITION. The register tables of spec/ as data: which bits of a register each access code of R6 covers and what the
register holds after reset (R4; a reset value of — is 0 here: DESIGN CHOICE, assumption 2).
-/
namespace Sys2Proof.Machine

/-- One row of a register table: offset in its block, the strides and counts of its indices (largest stride first),
the masks of its RW, W1C, W1S and WO fields, and its reset value. Bits in no mask are RO, RP or reserved. -/
structure RegRow where
  off : Nat
  dims : List (Nat × Nat)
  rw : Nat
  w1c : Nat
  w1s : Nat
  wo : Nat
  rst : Nat
  deriving DecidableEq, Repr

/-- A register block: where its first unit lies, the distance between units, how many there are, and the bytes a unit spans. -/
structure RegBlock where
  base : Nat
  stride : Nat
  count : Nat
  span : Nat
  rows : List RegRow
  deriving DecidableEq, Repr

/-- Whether a distance is reached by some indices of the given strides and counts. -/
def dimsReach : List (Nat × Nat) → Nat → Bool
  | [], d => d == 0
  | (st, n) :: rest, d => decide (d / st < n) && dimsReach rest (d % st)

/-- Whether a row holds the register at an offset of its block. -/
def RegRow.holds (r : RegRow) (o : Nat) : Bool := decide (r.off ≤ o) && dimsReach r.dims (o - r.off)

def rowsSYSCTL0 : List RegRow := [
  ⟨0x0, [], 0x0, 0xF0000, 0x0, 0x0, 0x1⟩ /- RESET_CAUSE -/,
  ⟨0x4, [], 0x0, 0x0, 0x0, 0xFFFF0001, 0x0⟩ /- CHIP_RST -/,
  ⟨0x8, [], 0x0, 0x3F, 0x0, 0x0, 0x0⟩ /- EVENT -/,
  ⟨0xC, [], 0x3F, 0x0, 0x0, 0x0, 0x3F⟩ /- EVENT_EN -/,
  ⟨0x10, [], 0x0, 0x0, 0x0, 0x0, 0x0⟩ /- DISCARD_CNT -/,
  ⟨0x14, [], 0x0, 0x0, 0x0, 0x0, 0x0⟩ /- ISL_RST_CNT -/,
  ⟨0x18, [], 0x0, 0x0, 0x0, 0x1, 0x0⟩ /- CNT_CLR -/,
  ⟨0x20, [], 0x3FF, 0x0, 0x0, 0x0, 0xA⟩ /- DRAIN_US -/,
  ⟨0x24, [], 0x0, 0xF, 0x0, 0x0, 0x0⟩ /- LS_STAT -/,
  ⟨0x100, [(8, 21)], 0x0, 0x0, 0x0, 0x37, 0x0⟩ /- ISL_CMD_i -/,
  ⟨0x104, [(8, 21)], 0x0, 0x0, 0x0, 0x0, 0x0⟩ /- ISL_STAT_i -/,
  ⟨0x300, [], 0x7, 0x0, 0x0, 0x100, 0x0⟩ /- BIST_REQ -/,
  ⟨0x304, [], 0x7, 0x0, 0x0, 0x300, 0x0⟩ /- BIST_GRANT -/,
  ⟨0x308, [], 0x0, 0x0, 0x0, 0x0, 0x0⟩ /- BIST_STAT -/,
  ⟨0x8000, [], 0x0, 0x0, 0x0, 0x0, 0x0⟩ /- BOOT_STATUS -/,
  ⟨0x8004, [], 0x0, 0x0, 0x0, 0x0, 0x0⟩ /- BOOT_SEQ_LO -/,
  ⟨0x8008, [], 0x0, 0x0, 0x0, 0x0, 0x0⟩ /- BOOT_SEQ_HI -/,
  ⟨0x800C, [], 0x0, 0x0, 0x0, 0x0, 0x0⟩ /- BOOT_RETRIES -/,
  ⟨0x8010, [], 0x0, 0x0, 0x0, 0x3, 0x0⟩ /- BOOT_CMD -/,
  ⟨0x8014, [], 0x0, 0x0, 0x0, 0x0, 0x0⟩ /- ROLLBACK -/,
  ⟨0x8018, [], 0x11F, 0x0, 0x0, 0x0, 0x0⟩ /- BOOT_VAR -/,
  ⟨0x8100, [], 0x0, 0x0, 0x0, 0x0, 0x0⟩ /- XSPI_CAP -/,
  ⟨0x8104, [], 0x1F, 0x0, 0x0, 0x0, 0x0⟩ /- XSPI_WIN_BASE -/,
  ⟨0x8108, [], 0x0, 0x0, 0x0, 0x7, 0x0⟩ /- XSPI_CMD -/,
  ⟨0x810C, [], 0x1FFFFFFF, 0x0, 0x0, 0x0, 0x0⟩ /- XSPI_ADDR -/,
  ⟨0x8110, [], 0xFFFFFFFF, 0x0, 0x0, 0x0, 0x0⟩ /- XSPI_SRC_LO -/,
  ⟨0x8114, [], 0xFF, 0x0, 0x0, 0x0, 0x0⟩ /- XSPI_SRC_HI -/,
  ⟨0x8118, [], 0x1FFF, 0x0, 0x0, 0x0, 0x0⟩ /- XSPI_LEN -/,
  ⟨0x811C, [], 0x0, 0x0, 0x0, 0x0, 0x0⟩ /- XSPI_STAT -/,
  ⟨0x8120, [], 0x0, 0x3, 0x0, 0x0, 0x0⟩ /- XSPI_EVENT -/]

def rowsSYSCTL1 : List RegRow := [
  ⟨0x8124, [], 0x3, 0x0, 0x0, 0x0, 0x3⟩ /- XSPI_EVENT_EN -/]

def blockSYSCTL : RegBlock := ⟨0x4000000, 0x10000, 1, 0x10000, rowsSYSCTL0 ++ rowsSYSCTL1⟩

def rowsTIME0 : List RegRow := [
  ⟨0x0, [], 0x5FF, 0x0, 0x0, 0x800, 0x580⟩ /- CTRL -/,
  ⟨0x4, [], 0x0, 0x0, 0x0, 0x0, 0xD0⟩ /- STATUS -/,
  ⟨0x8, [], 0x0, 0xFFF, 0x0, 0x0, 0x0⟩ /- EVENT -/,
  ⟨0xC, [], 0xFFF, 0x0, 0x0, 0x0, 0xFFF⟩ /- EVENT_EN -/,
  ⟨0x10, [], 0x0, 0x0, 0x0, 0x0, 0x0⟩ /- NOW_NS -/,
  ⟨0x14, [], 0x0, 0x0, 0x0, 0x0, 0x0⟩ /- NOW_SEC_LO -/,
  ⟨0x18, [], 0x0, 0x0, 0x0, 0x0, 0x0⟩ /- NOW_SEC_HI -/,
  ⟨0x1C, [], 0x0, 0x0, 0x0, 0x0, 0x0⟩ /- NOW_FRAC -/,
  ⟨0x20, [], 0xFFFFFFFF, 0x0, 0x0, 0x0, 0x0⟩ /- SET_NS -/,
  ⟨0x24, [], 0xFFFFFFFF, 0x0, 0x0, 0x0, 0x0⟩ /- SET_SEC_LO -/,
  ⟨0x28, [], 0xFFFF, 0x0, 0x0, 0x0, 0x0⟩ /- SET_SEC_HI -/,
  ⟨0x2C, [], 0x0, 0x0, 0x0, 0x1, 0x0⟩ /- SET_CMD -/,
  ⟨0x30, [], 0x0, 0x0, 0x0, 0x0, 0x0⟩ /- FREQ -/,
  ⟨0x34, [], 0xFFFFFFFF, 0x0, 0x0, 0x0, 0x10008000⟩ /- SERVO -/,
  ⟨0x38, [], 0xFFFFF, 0x0, 0x0, 0x0, 0x1F4⟩ /- JUMP_TH -/,
  ⟨0x3C, [], 0xFFFFFF, 0x0, 0x0, 0x0, 0x6400⟩ /- PERSIST -/,
  ⟨0x40, [], 0x0, 0x0, 0x0, 0x1, 0x0⟩ /- STEP_ACCEPT -/,
  ⟨0x44, [], 0x0, 0x0, 0x0, 0x0, 0x0⟩ /- STEP_PEND_LO -/,
  ⟨0x48, [], 0x0, 0x0, 0x0, 0x0, 0x0⟩ /- STEP_PEND_HI -/,
  ⟨0x4C, [], 0x0, 0x0, 0x0, 0x0, 0x0⟩ /- EPOCH -/,
  ⟨0x50, [], 0x0, 0x0, 0x0, 0x0, 0x0⟩ /- OFFSET_LAST -/,
  ⟨0x54, [], 0x0, 0x0, 0x0, 0x0, 0x0⟩ /- STEP_LAST -/,
  ⟨0x58, [], 0xF, 0x0, 0x0, 0x0, 0x4⟩ /- SPLIT_CFG -/,
  ⟨0x5C, [], 0x0, 0x0, 0x0, 0x0, 0x0⟩ /- SPLIT_DIFF -/,
  ⟨0x60, [], 0x3FFFFFF, 0x0, 0x0, 0x0, 0x78190⟩ /- HOLD_CFG -/,
  ⟨0x70, [(4, 1)], 0x1FF, 0x0, 0x0, 0x0, 0x100⟩ /- DOM_n -/,
  ⟨0x74, [(4, 3)], 0x1FF, 0x0, 0x0, 0x0, 0x0⟩ /- DOM_n -/,
  ⟨0x80, [(4, 4)], 0x0, 0x0, 0x0, 0x0, 0x0⟩ /- DOM_OFS_n -/,
  ⟨0x90, [], 0xFFFFFF1F, 0x0, 0x0, 0x0, 0x3E82804⟩ /- TWIN_CFG -/,
  ⟨0x94, [], 0x0, 0x0, 0x0, 0x0, 0x2A⟩ /- TWIN_STATUS -/]

def rowsTIME1 : List RegRow := [
  ⟨0x98, [], 0x0, 0x0, 0x0, 0x0, 0x0⟩ /- ASYM_EST -/,
  ⟨0x9C, [], 0x0, 0x0, 0x0, 0x3, 0x0⟩ /- TWIN_CMD -/,
  ⟨0xA0, [], 0xFFFFFFFF, 0x0, 0x0, 0x0, 0x0⟩ /- TWIN_CORR_P0 -/,
  ⟨0xA4, [], 0xFFFFFFFF, 0x0, 0x0, 0x0, 0x0⟩ /- TWIN_CORR_P1 -/,
  ⟨0xA8, [], 0x0, 0x0, 0x0, 0x0, 0x0⟩ /- THETA_P0 -/,
  ⟨0xAC, [], 0x0, 0x0, 0x0, 0x0, 0x0⟩ /- THETA_P1 -/,
  ⟨0xB0, [], 0x0, 0x0, 0x0, 0x0, 0x0⟩ /- BASE_P0 -/,
  ⟨0xB4, [], 0x0, 0x0, 0x0, 0x0, 0x0⟩ /- BASE_P1 -/,
  ⟨0xC0, [], 0x0, 0x0, 0x0, 0x0, 0x0⟩ /- TEMP -/,
  ⟨0xC4, [], 0x7F, 0x0, 0x0, 0x0, 0x0⟩ /- LEARN_IDX -/,
  ⟨0xC8, [], 0xFFFFFFFF, 0x0, 0x0, 0x0, 0x0⟩ /- LEARN_FREQ -/,
  ⟨0xCC, [], 0xFF, 0x0, 0x0, 0x0, 0x0⟩ /- LEARN_CNT -/,
  ⟨0xD0, [], 0x1, 0x0, 0x0, 0x0, 0x0⟩ /- PPS_CFG -/,
  ⟨0xD4, [], 0xFFFFFFFF, 0x0, 0x0, 0x0, 0x0⟩ /- PPS_DELAY -/,
  ⟨0xD8, [], 0xFFFFFFFF, 0x0, 0x0, 0x0, 0x0⟩ /- PPS_SEC_LO -/,
  ⟨0xDC, [], 0x8000FFFF, 0x0, 0x0, 0x0, 0x0⟩ /- PPS_SEC_HI -/,
  ⟨0x100, [(16, 18)], 0xFFFFFFFF, 0x0, 0x0, 0x0, 0x0⟩ /- PHY_RX_LAT_n -/,
  ⟨0x104, [(16, 18)], 0xFFFFFFFF, 0x0, 0x0, 0x0, 0x0⟩ /- PHY_TX_LAT_n -/,
  ⟨0x108, [(16, 18)], 0xFFFFFFFF, 0x0, 0x0, 0x0, 0x0⟩ /- PORT_ASYM_n -/,
  ⟨0x300, [], 0x0, 0x0, 0x0, 0x0, 0x0⟩ /- SPLIT_CNT -/,
  ⟨0x304, [], 0x0, 0x0, 0x0, 0x0, 0x0⟩ /- REFUSED_CNT -/,
  ⟨0x308, [], 0x0, 0x0, 0x0, 0x0, 0x0⟩ /- DISCARD_CNT -/,
  ⟨0x30C, [], 0x0, 0x0, 0x0, 0x0, 0x0⟩ /- PPS_SPUR_CNT -/,
  ⟨0x310, [], 0x0, 0x0, 0x0, 0x1, 0x0⟩ /- CNT_CLR -/]

def blockTIME : RegBlock := ⟨0x4010000, 0x10000, 1, 0x10000, rowsTIME0 ++ rowsTIME1⟩

def rowsTRG0 : List RegRow := [
  ⟨0x0, [(64, 16)], 0xF03, 0x0, 0x0, 0x0, 0x0⟩ /- CFG_n -/,
  ⟨0x4, [(64, 16)], 0xFFFFFFFF, 0x0, 0x0, 0x0, 0x0⟩ /- ANCHOR_NS_n -/,
  ⟨0x8, [(64, 16)], 0xFFFFFFFF, 0x0, 0x0, 0x0, 0x0⟩ /- ANCHOR_SEC_LO_n -/,
  ⟨0xC, [(64, 16)], 0xFFFF, 0x0, 0x0, 0x0, 0x0⟩ /- ANCHOR_SEC_HI_n -/,
  ⟨0x10, [(64, 16)], 0xFFFF, 0x0, 0x0, 0x0, 0x0⟩ /- ANCHOR_FRAC_n -/,
  ⟨0x14, [(64, 16)], 0xFFFFFFFF, 0x0, 0x0, 0x0, 0x0⟩ /- PERIOD_NS_n -/,
  ⟨0x18, [(64, 16)], 0xFFFF, 0x0, 0x0, 0x0, 0x0⟩ /- PERIOD_FRAC_n -/,
  ⟨0x1C, [(64, 16)], 0xFFFFFFFF, 0x0, 0x0, 0x0, 0x0⟩ /- WIDTH_n -/,
  ⟨0x20, [(64, 16)], 0xFFFFFFFF, 0x0, 0x0, 0x0, 0x0⟩ /- COUNT_n -/,
  ⟨0x24, [(64, 16)], 0x0, 0x0, 0x0, 0x3, 0x0⟩ /- CMD_n -/,
  ⟨0x28, [(64, 16)], 0x0, 0xF00, 0x0, 0x0, 0x0⟩ /- STATUS_n -/,
  ⟨0x2C, [(64, 16)], 0x0, 0x0, 0x0, 0x0, 0x0⟩ /- EDGE_IDX_n -/,
  ⟨0x30, [(64, 16)], 0x0, 0x0, 0x0, 0x0, 0x0⟩ /- LAST_NS_n -/,
  ⟨0x34, [(64, 16)], 0x0, 0x0, 0x0, 0x0, 0x0⟩ /- LAST_SEC_LO_n -/,
  ⟨0x38, [(64, 16)], 0x0, 0x0, 0x0, 0x0, 0x0⟩ /- LAST_HI_n -/,
  ⟨0x3C, [(64, 16)], 0x0, 0x0, 0x0, 0x0, 0x0⟩ /- SKIP_CNT_n -/,
  ⟨0x1000, [(32, 16)], 0x33F, 0x0, 0x0, 0x0, 0x0⟩ /- CAP_CFG_m -/,
  ⟨0x1004, [(32, 16)], 0xFFFFFFFF, 0x0, 0x0, 0x0, 0x0⟩ /- CAP_DELAY_m -/,
  ⟨0x1008, [(32, 16)], 0x0, 0x0, 0x0, 0x0, 0xFFFFFFFF⟩ /- CAP_STAMP_NS_m -/,
  ⟨0x100C, [(32, 16)], 0x0, 0x0, 0x0, 0x0, 0x0⟩ /- CAP_STAMP_SEC_LO_m -/,
  ⟨0x1010, [(32, 16)], 0x0, 0x0, 0x0, 0x0, 0x0⟩ /- CAP_STAMP_HI_m -/,
  ⟨0x1014, [(32, 16)], 0x0, 0x0, 0x0, 0x0, 0x0⟩ /- CAP_STAMP_INFO_m -/,
  ⟨0x1018, [(32, 16)], 0x0, 0x300, 0x0, 0x0, 0x0⟩ /- CAP_STATUS_m -/,
  ⟨0x101C, [(32, 16)], 0x0, 0x0, 0x0, 0x0, 0x0⟩ /- CAP_DROP_CNT_m -/,
  ⟨0x2000, [], 0xFFFF, 0x0, 0x0, 0x0, 0x0⟩ /- OUT_EN -/]

def blockTRG : RegBlock := ⟨0x4020000, 0x10000, 1, 0x10000, rowsTRG0⟩

def rowsCAM0 : List RegRow := [
  ⟨0x0, [], 0xFFFF, 0x0, 0x0, 0x0, 0xEE44⟩ /- CTRL -/,
  ⟨0x4, [], 0xFFF, 0x0, 0x0, 0x0, 0x5DC⟩ /- PHY_RATE -/,
  ⟨0x8, [], 0xFFFFFFFF, 0x0, 0x0, 0x0, 0x0⟩ /- LINK_LAT -/,
  ⟨0xC, [], 0x1FFFF, 0x0, 0x0, 0x0, 0x7D0⟩ /- LINK_TO -/,
  ⟨0x10, [], 0x3F, 0x0, 0x0, 0x0, 0x10⟩ /- STAGE_CFG -/,
  ⟨0x14, [], 0x0, 0x0, 0x0, 0x0, 0x0⟩ /- STATUS -/,
  ⟨0x18, [], 0x0, 0x1FF, 0x0, 0x0, 0x0⟩ /- EVENT -/,
  ⟨0x1C, [], 0x1FF, 0x0, 0x0, 0x0, 0x1FF⟩ /- EVENT_EN -/,
  ⟨0x40, [], 0x0, 0x0, 0x0, 0x0, 0x0⟩ /- LINES_FWD -/,
  ⟨0x44, [], 0x0, 0x0, 0x0, 0x0, 0x0⟩ /- LINES_DROP -/,
  ⟨0x48, [], 0x0, 0x0, 0x0, 0x0, 0x0⟩ /- PKT_DISC -/,
  ⟨0x4C, [], 0x0, 0x0, 0x0, 0x0, 0x0⟩ /- CRC_CNT -/,
  ⟨0x50, [], 0x0, 0x0, 0x0, 0x0, 0x0⟩ /- FRAMES_ABORT -/,
  ⟨0x54, [], 0x0, 0x0, 0x0, 0x1, 0x0⟩ /- CNT_CLR -/,
  ⟨0x100, [(16, 16)], 0x1F3F, 0x0, 0x0, 0x0, 0x0⟩ /- VC_CFG_v -/,
  ⟨0x104, [(16, 16)], 0xFFFFFFFF, 0x0, 0x0, 0x0, 0x64⟩ /- VC_TRIG_v -/,
  ⟨0x108, [(16, 16)], 0x0, 0x0, 0x0, 0x0, 0x0⟩ /- VC_SEQ_v -/]

def blockCAM : RegBlock := ⟨0x4030000, 0x4000, 4, 0x4000, rowsCAM0⟩

def rowsENG0 : List RegRow := [
  ⟨0x20000, [], 0x0, 0x0, 0x0, 0x0, 0x0⟩ /- STATUS -/,
  ⟨0x20004, [], 0x0, 0xF1FFF, 0x0, 0x0, 0x0⟩ /- EVENT -/,
  ⟨0x20008, [], 0xF1FFF, 0x0, 0x0, 0x0, 0x10FF⟩ /- EVENT_EN -/,
  ⟨0x20100, [(64, 4)], 0x0, 0x0, 0x0, 0x7, 0x0⟩ /- THR_CMD_t -/,
  ⟨0x20104, [(64, 4)], 0x0, 0x0, 0x0, 0x0, 0x0⟩ /- THR_PC_t -/,
  ⟨0x20108, [(64, 4)], 0x0, 0x0, 0x0, 0x0, 0x0⟩ /- THR_USED_t -/,
  ⟨0x2010C, [(64, 4)], 0x0, 0x0, 0x0, 0x0, 0x0⟩ /- THR_OVER_CNT_t -/,
  ⟨0x20110, [(64, 4)], 0x0, 0x0, 0x0, 0x0, 0x0⟩ /- THR_HELD_t -/,
  ⟨0x20120, [(64, 4)], 0x0, 0x0, 0x0, 0x0, 0x0⟩ /- TRAP_0_t -/,
  ⟨0x20124, [(64, 4)], 0x0, 0x0, 0x0, 0x0, 0x0⟩ /- TRAP_1_t -/,
  ⟨0x20128, [(64, 4)], 0x0, 0x0, 0x0, 0x0, 0x0⟩ /- TRAP_2_t -/,
  ⟨0x2012C, [(64, 4)], 0x0, 0x0, 0x0, 0x0, 0x0⟩ /- TRAP_3_t -/,
  ⟨0x20130, [(64, 4)], 0x0, 0x0, 0x0, 0x0, 0x0⟩ /- TRAP_4_t -/,
  ⟨0x20134, [(64, 4)], 0x0, 0x0, 0x0, 0x0, 0x0⟩ /- TRAP_5_t -/,
  ⟨0x20138, [(64, 4)], 0x0, 0x0, 0x0, 0x0, 0x0⟩ /- TRAP_6_t -/,
  ⟨0x2013C, [(64, 4)], 0x0, 0x0, 0x0, 0x0, 0x0⟩ /- TRAP_7_t -/,
  ⟨0x21000, [(64, 4)], 0xFF, 0x0, 0x0, 0x0, 0x3⟩ /- THR_CFG_t -/,
  ⟨0x21004, [(64, 4)], 0xFFFFF, 0x0, 0x0, 0x0, 0x186A0⟩ /- THR_BUDGET_t -/,
  ⟨0x21008, [(64, 4)], 0x3FFF, 0x0, 0x0, 0x0, 0x0⟩ /- THR_ENTRY_t -/,
  ⟨0x2100C, [(64, 4)], 0x3FFF3FFF, 0x0, 0x0, 0x0, 0x3FFF0000⟩ /- THR_CODE_t -/,
  ⟨0x21010, [(64, 4), (8, 4)], 0xFFFFFFF, 0x0, 0x0, 0x0, 0x0⟩ /- SEG_BASE_s_t -/,
  ⟨0x21014, [(64, 4), (8, 4)], 0x8003FFFF, 0x0, 0x0, 0x0, 0x0⟩ /- SEG_CFG_s_t -/,
  ⟨0x21200, [(4, 24)], 0xFFFF, 0x0, 0x0, 0x0, 0x0⟩ /- QSLOT_q -/]

def blockENG : RegBlock := ⟨0x2000000, 0x80000, 24, 0x80000, rowsENG0⟩

def rowsSW0 : List RegRow := [
  ⟨0x0, [], 0xFFFFFFD, 0x0, 0x0, 0x2, 0x7D004B0⟩ /- CTRL -/,
  ⟨0x4, [], 0x0, 0x0, 0x0, 0x0, 0x3⟩ /- STATUS -/,
  ⟨0x8, [], 0x0, 0x1FF, 0x0, 0x0, 0x0⟩ /- EVENT -/,
  ⟨0xC, [], 0x1FF, 0x0, 0x0, 0x0, 0x1FF⟩ /- EVENT_EN -/,
  ⟨0x20, [(4, 6)], 0x7FFF, 0x0, 0x0, 0x0, 0x200⟩ /- RES_c -/,
  ⟨0x38, [(4, 2)], 0x7FFF, 0x0, 0x0, 0x0, 0x400⟩ /- RES_c -/,
  ⟨0x40, [(4, 1)], 0x7FFF, 0x0, 0x0, 0x0, 0x2600⟩ /- FLOOR_c -/,
  ⟨0x44, [(4, 1)], 0x7FFF, 0x0, 0x0, 0x0, 0x1C80⟩ /- FLOOR_c -/,
  ⟨0x48, [(4, 1)], 0x7FFF, 0x0, 0x0, 0x0, 0x1300⟩ /- FLOOR_c -/,
  ⟨0x4C, [(4, 1)], 0x7FFF, 0x0, 0x0, 0x0, 0x980⟩ /- FLOOR_c -/,
  ⟨0x50, [(4, 1)], 0x7FFF, 0x0, 0x0, 0x0, 0x4C0⟩ /- FLOOR_c -/,
  ⟨0x54, [(4, 1)], 0x7FFF, 0x0, 0x0, 0x0, 0x0⟩ /- FLOOR_c -/,
  ⟨0x60, [(4, 8)], 0x0, 0x0, 0x0, 0x0, 0x0⟩ /- USE_c -/,
  ⟨0x80, [], 0x0, 0x0, 0x0, 0x0, 0x4C00⟩ /- SHARED_FREE -/,
  ⟨0x90, [], 0x3FFFF0, 0x0, 0x0, 0x0, 0x0⟩ /- ECPL_BASE -/,
  ⟨0x94, [], 0x1FFF, 0x0, 0x0, 0x0, 0x0⟩ /- ECPL_SIZE -/,
  ⟨0x98, [], 0x0, 0x0, 0x0, 0x0, 0x0⟩ /- ECPL_HEAD -/,
  ⟨0xA0, [(4, 8)], 0x0, 0x0, 0x0, 0x0, 0x0⟩ /- ECPL_CNT_s -/,
  ⟨0xC0, [], 0x0, 0x0, 0x0, 0x0, 0x0⟩ /- ECPL_OVF -/,
  ⟨0xC4, [], 0x0, 0x0, 0x0, 0x0, 0x0⟩ /- E_ABANDON -/,
  ⟨0xC8, [], 0x0, 0x0, 0x0, 0x0, 0x0⟩ /- LEARN_FAIL_CNT -/,
  ⟨0xCC, [], 0x0, 0x0, 0x0, 0x0, 0x0⟩ /- PTP_DROP -/,
  ⟨0xD0, [], 0x0, 0x0, 0x0, 0x1, 0x0⟩ /- CNT_CLR -/,
  ⟨0x10000, [(8192, 12)], 0x3FFFFF, 0x0, 0x0, 0x0, 0x20021E⟩ /- PORT_CFG_p -/,
  ⟨0x11000, [(8192, 11)], 0x3FFFFF, 0x0, 0x0, 0x0, 0x20023E⟩ /- PORT_CFG_p -/,
  ⟨0x10004, [(8192, 12)], 0x0, 0x0, 0x0, 0x0, 0x0⟩ /- PORT_STATUS_p -/,
  ⟨0x11004, [(8192, 11)], 0x0, 0x0, 0x0, 0x0, 0x2⟩ /- PORT_STATUS_p -/,
  ⟨0x10008, [(4096, 23)], 0xFFFFFF, 0x0, 0x0, 0x0, 0xFAC688⟩ /- PCP_MAP_p -/,
  ⟨0x10020, [(4096, 23), (4, 8)], 0xFFFF, 0x0, 0x0, 0x0, 0x1000⟩ /- QLIM_c_p -/,
  ⟨0x10040, [(4096, 23), (4, 8)], 0x80FFFFFF, 0x0, 0x0, 0x0, 0x0⟩ /- CBS_c_p -/]

def rowsSW1 : List RegRow := [
  ⟨0x10100, [(4096, 23)], 0x1FFFF1, 0x0, 0x0, 0x2, 0xFF0⟩ /- GATE_CTRL_p -/,
  ⟨0x10104, [(4096, 23)], 0xFFFFFFFF, 0x0, 0x0, 0x0, 0x0⟩ /- ADMIN_BASE_NS_p -/,
  ⟨0x10108, [(4096, 23)], 0xFFFFFFFF, 0x0, 0x0, 0x0, 0x0⟩ /- ADMIN_BASE_SEC_LO_p -/,
  ⟨0x1010C, [(4096, 23)], 0xFFFF, 0x0, 0x0, 0x0, 0x0⟩ /- ADMIN_BASE_SEC_HI_p -/,
  ⟨0x10110, [(4096, 23)], 0x3FFFFFFF, 0x0, 0x0, 0x0, 0x0⟩ /- ADMIN_CYCLE_NS_p -/,
  ⟨0x10114, [(4096, 23)], 0x0, 0x0, 0x0, 0x0, 0x0⟩ /- OPER_BASE_NS_p -/,
  ⟨0x10118, [(4096, 23)], 0x0, 0x0, 0x0, 0x0, 0x0⟩ /- OPER_BASE_SEC_LO_p -/,
  ⟨0x1011C, [(4096, 23)], 0x0, 0x0, 0x0, 0x0, 0x0⟩ /- OPER_BASE_SEC_HI_p -/,
  ⟨0x10120, [(4096, 23)], 0x0, 0x0, 0x0, 0x0, 0x0⟩ /- OPER_CYCLE_NS_p -/,
  ⟨0x10180, [(4096, 6)], 0xFF0FFF, 0x0, 0x0, 0x0, 0xA003F⟩ /- PREEMPT_p -/,
  ⟨0x16180, [(4096, 17)], 0xFF0F00, 0x0, 0x0, 0x0, 0xA0000⟩ /- PREEMPT_p -/,
  ⟨0x101C0, [(4096, 23)], 0x1FFFFFF, 0x0, 0x0, 0x0, 0x401000⟩ /- PLCA_p -/,
  ⟨0x101E0, [(4096, 23)], 0x0, 0x10, 0x0, 0x3, 0x0⟩ /- TC10_p -/,
  ⟨0x22400, [(4096, 2), (32, 16)], 0xFFFFFFFF, 0x0, 0x0, 0x0, 0x0⟩ /- RING_BASE_LO_h_r -/,
  ⟨0x22404, [(4096, 2), (32, 16)], 0xFF, 0x0, 0x0, 0x0, 0x0⟩ /- RING_BASE_HI_h_r -/,
  ⟨0x22408, [(4096, 2), (32, 16)], 0x1FFF, 0x0, 0x0, 0x0, 0x0⟩ /- RING_SIZE_h_r -/,
  ⟨0x2240C, [(4096, 2), (32, 16)], 0x0, 0x0, 0x0, 0x0, 0x0⟩ /- RING_HEAD_h_r -/,
  ⟨0x22410, [(4096, 2), (32, 16)], 0x1FFF, 0x0, 0x0, 0x0, 0x0⟩ /- RING_TAIL_h_r -/,
  ⟨0x40000, [(512, 23), (32, 8)], 0x0, 0x0, 0x0, 0x0, 0x0⟩ /- RX_p_c -/,
  ⟨0x40004, [(512, 23), (32, 8)], 0x0, 0x0, 0x0, 0x0, 0x0⟩ /- TX_p_c -/,
  ⟨0x40008, [(512, 23), (32, 8)], 0x0, 0x0, 0x0, 0x0, 0x0⟩ /- NOBUF_p_c -/,
  ⟨0x4000C, [(512, 23), (32, 8)], 0x0, 0x0, 0x0, 0x0, 0x0⟩ /- QLIM_CNT_p_c -/,
  ⟨0x40010, [(512, 23), (32, 8)], 0x0, 0x0, 0x0, 0x0, 0x0⟩ /- DROP_STREAM_p_c -/,
  ⟨0x40014, [(512, 23), (32, 8)], 0x0, 0x0, 0x0, 0x0, 0x0⟩ /- AGED_p_c -/,
  ⟨0x40018, [(512, 23), (32, 8)], 0x0, 0x0, 0x0, 0x0, 0x0⟩ /- FLUSH_p_c -/,
  ⟨0x40100, [(512, 23)], 0x0, 0x0, 0x0, 0x0, 0x0⟩ /- FCS_ERR_p -/,
  ⟨0x40104, [(512, 23)], 0x0, 0x0, 0x0, 0x0, 0x0⟩ /- FCS_STOMP_p -/,
  ⟨0x40108, [(512, 23)], 0x0, 0x0, 0x0, 0x0, 0x0⟩ /- OVERSIZE_p -/,
  ⟨0x4010C, [(512, 23)], 0x0, 0x0, 0x0, 0x0, 0x0⟩ /- VLAN_MISS_p -/,
  ⟨0x40110, [(512, 23)], 0x0, 0x0, 0x0, 0x0, 0x0⟩ /- MOVE_p -/]

def rowsSW2 : List RegRow := [
  ⟨0x80000, [], 0x1F, 0x0, 0x0, 0x0, 0x0⟩ /- TBL_CMD -/,
  ⟨0x80004, [], 0x3FFFF, 0x0, 0x0, 0x0, 0x0⟩ /- TBL_INDEX -/,
  ⟨0x80010, [(4, 4)], 0xFFFFFFFF, 0x0, 0x0, 0x0, 0x0⟩ /- TBL_DATA_k -/]

def blockSW : RegBlock := ⟨0x4100000, 0x100000, 1, 0x100000, rowsSW0 ++ rowsSW1 ++ rowsSW2⟩

def rowsCAN0 : List RegRow := [
  ⟨0x0, [], 0x3FFF, 0x0, 0x0, 0x0, 0x110⟩ /- CTRL -/,
  ⟨0x4, [], 0x7F7FFFFF, 0x0, 0x0, 0x0, 0xF0F3E01⟩ /- NBT -/,
  ⟨0x8, [], 0xF0F3FFF, 0x0, 0x0, 0x0, 0x9091C00⟩ /- DBT -/,
  ⟨0xC, [], 0xF0F3FFF, 0x0, 0x0, 0x0, 0x1010400⟩ /- XBT -/,
  ⟨0x10, [], 0x1FF, 0x0, 0x0, 0x0, 0x11E⟩ /- TDC -/,
  ⟨0x14, [], 0x13F3F3F, 0x0, 0x0, 0x0, 0x503⟩ /- XLCFG -/,
  ⟨0x18, [], 0x0, 0x0, 0x0, 0x0, 0x0⟩ /- ERR -/,
  ⟨0x1C, [], 0x0, 0x0, 0x0, 0x3, 0x0⟩ /- CMD -/,
  ⟨0x20, [], 0xFF, 0x0, 0x0, 0x0, 0x10⟩ /- ALONE -/,
  ⟨0x24, [], 0xFFFFFFFF, 0x0, 0x0, 0x0, 0x0⟩ /- RX_DELAY -/,
  ⟨0x28, [], 0x3FFF, 0x0, 0x0, 0x0, 0x64⟩ /- LOCK_TO -/,
  ⟨0x30, [], 0x0, 0x3FFF, 0x0, 0x0, 0x0⟩ /- EVENT -/,
  ⟨0x34, [], 0x3FFF, 0x0, 0x0, 0x0, 0x3FFF⟩ /- EVENT_EN -/,
  ⟨0x40, [], 0x3FFFF0, 0x0, 0x0, 0x0, 0x0⟩ /- TXCPL_BASE -/,
  ⟨0x44, [], 0x1FFF, 0x0, 0x0, 0x0, 0x0⟩ /- TXCPL_SIZE -/,
  ⟨0x48, [], 0x0, 0x0, 0x0, 0x0, 0x0⟩ /- TXCPL_HEAD -/,
  ⟨0x4C, [], 0x3FFFF1, 0x0, 0x0, 0x0, 0x0⟩ /- RXPAY -/,
  ⟨0x60, [(4, 2)], 0x0, 0x0, 0xFFFFFFFF, 0x0, 0x0⟩ /- TXB_REQ_k -/,
  ⟨0x68, [(4, 2)], 0x0, 0x0, 0xFFFFFFFF, 0x0, 0x0⟩ /- TXB_CANCEL_k -/,
  ⟨0x70, [], 0x0, 0x0, 0x0, 0x3F, 0x0⟩ /- MB_ACK -/,
  ⟨0x80, [], 0x0, 0x0, 0x0, 0x0, 0x0⟩ /- TX_OK -/,
  ⟨0x84, [], 0x0, 0x0, 0x0, 0x0, 0x0⟩ /- RX_OK -/,
  ⟨0x88, [], 0x0, 0x0, 0x0, 0x0, 0x0⟩ /- RX_DROP -/,
  ⟨0x8C, [], 0x0, 0x0, 0x0, 0x0, 0x0⟩ /- BUS_OFF_CNT -/,
  ⟨0x90, [], 0x0, 0x0, 0x0, 0x0, 0x0⟩ /- TXCPL_OVF -/,
  ⟨0x94, [], 0x0, 0x0, 0x0, 0x0, 0x0⟩ /- CANCEL_LATE_CNT -/,
  ⟨0x98, [], 0x0, 0x0, 0x0, 0x0, 0x0⟩ /- ACK_ERR -/,
  ⟨0x9C, [], 0x0, 0x0, 0x0, 0x0, 0x0⟩ /- TT_MISS -/,
  ⟨0xA0, [(4, 8)], 0x0, 0x0, 0x0, 0x0, 0x0⟩ /- CPL_CNT_s -/,
  ⟨0xC0, [], 0x0, 0x0, 0x0, 0x1, 0x0⟩ /- CNT_CLR -/]

def rowsCAN1 : List RegRow := [
  ⟨0x1000, [(16, 128)], 0xFFFFFFFF, 0x0, 0x0, 0x0, 0x0⟩ /- FILT_PATTERN_f -/,
  ⟨0x1004, [(16, 128)], 0xFFFFFFFF, 0x0, 0x0, 0x0, 0x0⟩ /- FILT_MASK_f -/,
  ⟨0x1008, [(16, 128)], 0x1FF, 0x0, 0x0, 0x0, 0x0⟩ /- FILT_ACT_f -/,
  ⟨0x2000, [(128, 64)], 0xFFFFFFFF, 0x0, 0x0, 0x0, 0x0⟩ /- MB_ID_b -/,
  ⟨0x2004, [(128, 64)], 0xFF0003, 0x0, 0x0, 0x0, 0x0⟩ /- MB_CTL_b -/,
  ⟨0x2008, [(128, 64), (4, 3)], 0x0, 0x0, 0x0, 0x0, 0x0⟩ /- MB_STAMP_b_k -/,
  ⟨0x2020, [(128, 64), (4, 16)], 0xFFFFFFFF, 0x0, 0x0, 0x0, 0x0⟩ /- MB_DATA_b_k -/,
  ⟨0x207C, [(128, 64)], 0x0, 0x0, 0x0, 0x0, 0x0⟩ /- MB_STAT_b -/,
  ⟨0x4000, [(32, 32), (4, 8)], 0x0, 0x0, 0x0, 0x0, 0x0⟩ /- RXE_i_w -/,
  ⟨0x6000, [(32, 32), (4, 8)], 0xFFFFFFFF, 0x0, 0x0, 0x0, 0x0⟩ /- TXE_i_w -/,
  ⟨0x5000, [], 0x0, 0x0, 0x0, 0x0, 0xFFFFFFFF⟩ /- RXQ_POP -/,
  ⟨0x5004, [], 0x0, 0x0, 0x0, 0x1F, 0x0⟩ /- RXQ_ACK -/,
  ⟨0x7000, [], 0x0, 0x0, 0x0, 0x1F, 0x0⟩ /- TXQ_SUBMIT -/,
  ⟨0x7004, [], 0x0, 0x0, 0x0, 0x1F, 0x0⟩ /- TXQ_CANCEL -/,
  ⟨0x8000, [(128, 64), (4, 32)], 0xFF, 0x0, 0x0, 0x0, 0x0⟩ /- TT_CELL_y_k -/,
  ⟨0xB000, [(32, 8), (4, 6)], 0xFFFFFFFF, 0x0, 0x0, 0x0, 0x0⟩ /- WUF_k_w -/,
  ⟨0xB018, [(32, 8)], 0x10F, 0x0, 0x0, 0x0, 0x0⟩ /- WUF_CFG_k -/,
  ⟨0xA000, [], 0x1F7FF, 0x0, 0x0, 0x0, 0x10000⟩ /- TT_CFG -/,
  ⟨0xA004, [], 0xFFFFFFFF, 0x0, 0x0, 0x0, 0x0⟩ /- TT_REF_ID -/,
  ⟨0xA008, [], 0x3FFFFFFF, 0x0, 0x0, 0x0, 0x0⟩ /- TT_CYCLE_NS -/,
  ⟨0xA00C, [], 0xFFFFFFFF, 0x0, 0x0, 0x0, 0x0⟩ /- TT_ANCHOR_NS -/,
  ⟨0xA010, [], 0xFFFFFFFF, 0x0, 0x0, 0x0, 0x0⟩ /- TT_ANCHOR_SEC_LO -/,
  ⟨0xA014, [], 0xFFFF, 0x0, 0x0, 0x0, 0x0⟩ /- TT_ANCHOR_SEC_HI -/,
  ⟨0xA018, [], 0x0, 0x0, 0x0, 0x0, 0x0⟩ /- TT_STATUS -/,
  ⟨0xA01C, [], 0x0, 0x0, 0x0, 0x0, 0x0⟩ /- TT_SKIP_CNT -/,
  ⟨0xA100, [(4, 32)], 0x3FFFFFFF, 0x0, 0x0, 0x0, 0x0⟩ /- TT_MARK_k -/]

def blockCAN : RegBlock := ⟨0x10000000, 0x10000, 12, 0x10000, rowsCAN0 ++ rowsCAN1⟩

def rowsLIN0 : List RegRow := [
  ⟨0x0, [], 0xF3F, 0x0, 0x0, 0x0, 0x400⟩ /- CFG -/,
  ⟨0x4, [], 0x7FFF, 0x0, 0x0, 0x0, 0x4B00⟩ /- BAUD -/,
  ⟨0x8, [], 0x1FFF, 0x0, 0x0, 0x0, 0x3E8⟩ /- WAKE -/,
  ⟨0xC, [], 0x0, 0x0, 0x0, 0x0, 0x0⟩ /- STATUS -/,
  ⟨0x10, [], 0x0, 0x1F, 0x0, 0x0, 0x0⟩ /- EVENT -/,
  ⟨0x14, [], 0x1F, 0x0, 0x0, 0x0, 0x1F⟩ /- EVENT_EN -/,
  ⟨0x20, [], 0x0, 0x0, 0x0, 0x0, 0x0⟩ /- FRAMES_OK -/,
  ⟨0x24, [], 0x0, 0x0, 0x0, 0x0, 0x0⟩ /- ERRORS -/,
  ⟨0x28, [], 0x0, 0x0, 0x0, 0x0, 0x0⟩ /- ABORT_CNT -/,
  ⟨0x2C, [], 0x0, 0x0, 0x0, 0x1, 0x0⟩ /- CNT_CLR -/]

def blockLIN : RegBlock := ⟨0x10100000, 0x1000, 6, 0x1000, rowsLIN0⟩

def rowsSIG0 : List RegRow := [
  ⟨0x0, [], 0xFF, 0x0, 0x0, 0x0, 0x0⟩ /- CTRL -/,
  ⟨0x4, [], 0x0, 0x0, 0x0, 0x0, 0x0⟩ /- STATUS -/,
  ⟨0x8, [], 0x0, 0x0, 0x0, 0xF, 0x0⟩ /- CMD -/,
  ⟨0xC, [], 0x0, 0x7F, 0x0, 0x0, 0x0⟩ /- EVENT -/,
  ⟨0x10, [], 0x7F, 0x0, 0x0, 0x0, 0x7F⟩ /- EVENT_EN -/,
  ⟨0x20, [], 0xFFFFFFF, 0x0, 0x0, 0x0, 0x0⟩ /- CAT_BASE -/,
  ⟨0x24, [], 0xFFFFFF, 0x0, 0x0, 0x0, 0x0⟩ /- CAT_COUNT -/,
  ⟨0x28, [], 0xFFFFFFF, 0x0, 0x0, 0x0, 0x0⟩ /- CONV_BASE -/,
  ⟨0x2C, [], 0xFFFFFFF, 0x0, 0x0, 0x0, 0x0⟩ /- SRCIDX_BASE -/,
  ⟨0x30, [], 0x1F, 0x0, 0x0, 0x0, 0xA⟩ /- SRCIDX_LOG2 -/,
  ⟨0x34, [], 0xFFFFFFF, 0x0, 0x0, 0x0, 0x0⟩ /- PIN_BASE -/,
  ⟨0x38, [], 0x1FFF, 0x0, 0x0, 0x0, 0x0⟩ /- PIN_COUNT -/,
  ⟨0x60, [], 0xFFFFFFFF, 0x0, 0x0, 0x0, 0x0⟩ /- LOG_CLASS_EN -/,
  ⟨0x64, [], 0x3FFF, 0x0, 0x0, 0x0, 0xFA⟩ /- SEAL_MS -/,
  ⟨0x68, [], 0xFFFFFFF, 0x0, 0x0, 0x0, 0x0⟩ /- RING_BASE -/,
  ⟨0x6C, [], 0x1F, 0x0, 0x0, 0x0, 0x0⟩ /- RING_LOG2 -/,
  ⟨0x70, [], 0x3FFF00, 0x0, 0x0, 0x0, 0x0⟩ /- CTLBLK_OFS -/,
  ⟨0x74, [], 0xFFFFFFFF, 0x0, 0x0, 0x0, 0x0⟩ /- CHAIN_ID_LO -/,
  ⟨0x78, [], 0xFFFFFFFF, 0x0, 0x0, 0x0, 0x0⟩ /- CHAIN_ID_HI -/,
  ⟨0x7C, [], 0x3F, 0x0, 0x0, 0x0, 0x0⟩ /- LOG_CFG -/,
  ⟨0x80, [(4, 4)], 0x0, 0x0, 0x0, 0xFFFFFFFF, 0x0⟩ /- LOG_PUSH_k -/,
  ⟨0x90, [], 0x0, 0x0, 0x0, 0x0, 0x0⟩ /- LOG_PUSH_STAT -/,
  ⟨0xA0, [], 0x7FFFFF, 0x0, 0x0, 0x0, 0x0⟩ /- DEF_IDX -/,
  ⟨0xA4, [(4, 4)], 0xFFFFFFFF, 0x0, 0x0, 0x0, 0x0⟩ /- DEF_DATA_k -/,
  ⟨0xB4, [], 0x0, 0x0, 0x0, 0x3, 0x0⟩ /- DEF_CMD -/,
  ⟨0x100, [], 0x0, 0x0, 0x0, 0x0, 0x0⟩ /- LOOKUPS -/,
  ⟨0x104, [], 0x0, 0x0, 0x0, 0x0, 0x0⟩ /- MISSES -/,
  ⟨0x108, [], 0x0, 0x0, 0x0, 0x0, 0x0⟩ /- UPDATES -/,
  ⟨0x10C, [], 0x0, 0x0, 0x0, 0x0, 0x0⟩ /- LOG_ACCEPT -/,
  ⟨0x110, [], 0x0, 0x0, 0x0, 0x0, 0x0⟩ /- LOG_LOST -/]

def rowsSIG1 : List RegRow := [
  ⟨0x114, [], 0x0, 0x0, 0x0, 0x0, 0x0⟩ /- PIN_OVF -/,
  ⟨0x118, [], 0x0, 0x0, 0x0, 0x0, 0x0⟩ /- SEALS -/,
  ⟨0x11C, [], 0x0, 0x0, 0x0, 0x0, 0x0⟩ /- CRASH_SKIP -/,
  ⟨0x120, [], 0x0, 0x0, 0x0, 0x1, 0x0⟩ /- CNT_CLR -/]

def blockSIG : RegBlock := ⟨0x4200000, 0x100000, 1, 0x100000, rowsSIG0 ++ rowsSIG1⟩

def rowsNM0 : List RegRow := [
  ⟨0x0, [], 0x7FFC01, 0x0, 0x0, 0x0, 0x0⟩ /- CTRL -/,
  ⟨0x4, [], 0xFFFFFFFF, 0x0, 0x0, 0x0, 0x0⟩ /- ETH_DA_LO -/,
  ⟨0x8, [], 0xFFFF, 0x0, 0x0, 0x0, 0x0⟩ /- ETH_DA_HI -/,
  ⟨0xC, [], 0xFFFF, 0x0, 0x0, 0x0, 0x0⟩ /- ETH_TYPE -/,
  ⟨0x10, [], 0x7FF, 0x0, 0x0, 0x0, 0x500⟩ /- CAN_ID -/,
  ⟨0x14, [], 0x0, 0xF, 0x0, 0x0, 0x0⟩ /- EVENT -/,
  ⟨0x18, [], 0xF, 0x0, 0x0, 0x0, 0xF⟩ /- EVENT_EN -/,
  ⟨0x40, [], 0x0, 0x0, 0x0, 0x0, 0x0⟩ /- WAKE_ABORT -/,
  ⟨0x44, [], 0x0, 0x0, 0x0, 0x0, 0x0⟩ /- SLUICE_DROP -/,
  ⟨0x48, [], 0x0, 0x0, 0x0, 0x0, 0x0⟩ /- SLUICE_PASS -/,
  ⟨0x4C, [], 0x0, 0x0, 0x0, 0x0, 0x0⟩ /- RING_REGEN -/,
  ⟨0x50, [], 0x0, 0x0, 0x0, 0x0, 0x0⟩ /- IGNORED_WAKE -/,
  ⟨0x54, [], 0x0, 0x0, 0x0, 0x0, 0x0⟩ /- ISOLATIONS -/,
  ⟨0x58, [], 0x0, 0x0, 0x0, 0x1, 0x0⟩ /- CNT_CLR -/,
  ⟨0x100, [(32, 35)], 0x1FFFFFF, 0x0, 0x0, 0x0, 0x600000⟩ /- SEG_CFG_s -/,
  ⟨0x104, [(32, 35)], 0xFFFFFFF, 0x0, 0x0, 0x0, 0x1902896⟩ /- SEG_TIME_s -/,
  ⟨0x108, [(32, 35)], 0xFFFFFFFF, 0x0, 0x0, 0x0, 0x3E80708⟩ /- SEG_TIME2_s -/,
  ⟨0x10C, [(32, 35)], 0x3FF03FF, 0x0, 0x0, 0x0, 0x3200C8⟩ /- SEG_TIME3_s -/,
  ⟨0x110, [(32, 35)], 0x1, 0x0, 0x0, 0x6, 0x0⟩ /- SEG_CTRL_s -/,
  ⟨0x114, [(32, 35)], 0x0, 0x1000000, 0x0, 0x0, 0xFF00⟩ /- SEG_STATUS_s -/,
  ⟨0x118, [(32, 35)], 0x0, 0x0, 0x0, 0x0, 0x0⟩ /- WITHHOLD_LO_s -/,
  ⟨0x11C, [(32, 35)], 0x0, 0x0, 0x0, 0x0, 0x0⟩ /- WITHHOLD_HI_s -/,
  ⟨0x1000, [(64, 35), (8, 8)], 0xFFFFFFFF, 0x0, 0x0, 0x0, 0x0⟩ /- SL_PATTERN_s_k -/,
  ⟨0x1004, [(64, 35), (8, 8)], 0xFFFFFFFF, 0x0, 0x0, 0x0, 0x0⟩ /- SL_MASK_s_k -/,
  ⟨0x2000, [(16, 32)], 0x80003F3F, 0x0, 0x0, 0x0, 0x0⟩ /- FEED_SEL_k -/,
  ⟨0x2004, [(16, 32)], 0xFFFFFFFF, 0x0, 0x0, 0x0, 0x0⟩ /- FEED_CH_k -/,
  ⟨0x2008, [(16, 32)], 0xFF3F, 0x0, 0x0, 0x0, 0x0⟩ /- FEED_CH_HI_k -/]

def blockNM : RegBlock := ⟨0x10400000, 0x100000, 1, 0x100000, rowsNM0⟩

def rowsLOADCH0 : List RegRow := [
  ⟨0x0, [], 0xFF1F00, 0x0, 0x0, 0x3, 0x20700⟩ /- CTRL -/,
  ⟨0x4, [], 0x0, 0x0, 0x0, 0x0, 0x0⟩ /- STATUS -/,
  ⟨0x8, [], 0x0, 0x7FFF, 0x0, 0x0, 0x0⟩ /- EVENT -/,
  ⟨0xC, [], 0x7FFF, 0x0, 0x0, 0x0, 0x7FFF⟩ /- EVENT_EN -/,
  ⟨0x40, [(8, 6)], 0xFFFF, 0x0, 0x0, 0x0, 0x9182⟩ /- TG_CFG_g -/,
  ⟨0x44, [(8, 6)], 0x0, 0x0, 0x0, 0x0, 0x0⟩ /- TG_STAT_g -/,
  ⟨0x80, [], 0xFFFF, 0x0, 0x0, 0x0, 0x6C78⟩ /- BUDGET -/,
  ⟨0x84, [], 0x0, 0x0, 0x0, 0x0, 0x0⟩ /- POWER -/,
  ⟨0xC0, [], 0x0, 0x0, 0x0, 0x0, 0x0⟩ /- LATCH_CNT -/,
  ⟨0xC4, [], 0x0, 0x0, 0x0, 0x0, 0x0⟩ /- SHED_CNT -/,
  ⟨0xC8, [], 0x0, 0x0, 0x0, 0x0, 0x0⟩ /- CONTROL_LOST_CNT -/,
  ⟨0xCC, [], 0x0, 0x0, 0x0, 0x0, 0x0⟩ /- REFUSED_CNT -/,
  ⟨0xD0, [], 0x0, 0x0, 0x0, 0x1, 0x0⟩ /- CNT_CLR -/,
  ⟨0x10000, [(4096, 4), (4, 4)], 0x0, 0x0, 0x0, 0xFFFFFFFF, 0x0⟩ /- CQ_W_q_k -/,
  ⟨0x10010, [(4096, 4)], 0x0, 0x0, 0x0, 0x0, 0x0⟩ /- CQ_STAT_q -/,
  ⟨0x10014, [(4096, 4)], 0x3FFFF0, 0x0, 0x0, 0x0, 0x0⟩ /- CPL_BASE_q -/,
  ⟨0x10018, [(4096, 4)], 0x1FFF, 0x0, 0x0, 0x0, 0x0⟩ /- CPL_SIZE_q -/,
  ⟨0x1001C, [(4096, 4)], 0x0, 0x0, 0x0, 0x0, 0x0⟩ /- CPL_HEAD_q -/,
  ⟨0x10020, [(4096, 4)], 0x300, 0x3, 0x0, 0x0, 0x300⟩ /- CQ_EVENT_q -/,
  ⟨0x10024, [(4096, 4)], 0x0, 0x0, 0x0, 0x0, 0x0⟩ /- CPL_OVF_CNT_q -/,
  ⟨0x10040, [(4096, 4), (4, 6)], 0x0, 0x0, 0x0, 0x0, 0x0⟩ /- CPL_CNT_q_s -/,
  ⟨0x10058, [(4096, 4), (4, 2)], 0x0, 0x0, 0x0, 0x0, 0x0⟩ /- CPL_CNT_RSV_q_k -/,
  ⟨0x20000, [(64, 38)], 0xF7FFF7, 0x0, 0x0, 0x0, 0x806400⟩ /- CH_CFG_n -/,
  ⟨0x20A00, [(64, 8)], 0xF7FFF7, 0x0, 0x0, 0x0, 0x806400⟩ /- CH_CFG_n -/,
  ⟨0x20004, [(64, 8)], 0xFFFFFFFF, 0x0, 0x0, 0x0, 0x3E82EE0⟩ /- TRIP_n -/,
  ⟨0x20204, [(64, 16)], 0xFFFFFFFF, 0x0, 0x0, 0x0, 0x3E81770⟩ /- TRIP_n -/,
  ⟨0x20604, [(64, 8)], 0xFFFFFFFF, 0x0, 0x0, 0x0, 0x3E808CA⟩ /- TRIP_n -/,
  ⟨0x20804, [(64, 6)], 0xFFFFFFFF, 0x0, 0x0, 0x0, 0x3E81D4C⟩ /- TRIP_n -/,
  ⟨0x20A04, [(64, 8)], 0xFFFFFFFF, 0x0, 0x0, 0x0, 0x3E805DC⟩ /- TRIP_n -/,
  ⟨0x20008, [(64, 8)], 0xFFFFFFF, 0x0, 0x0, 0x0, 0xA3E80⟩ /- INRUSH_n -/]

def rowsLOADCH1 : List RegRow := [
  ⟨0x20208, [(64, 16)], 0xFFFFFFF, 0x0, 0x0, 0x0, 0xA1F40⟩ /- INRUSH_n -/,
  ⟨0x20608, [(64, 8)], 0xFFFFFFF, 0x0, 0x0, 0x0, 0xA0BB8⟩ /- INRUSH_n -/,
  ⟨0x20808, [(64, 6)], 0xFFFFFFF, 0x0, 0x0, 0x0, 0xA2710⟩ /- INRUSH_n -/,
  ⟨0x20A08, [(64, 8)], 0xFFFFFFF, 0x0, 0x0, 0x0, 0xA07D0⟩ /- INRUSH_n -/,
  ⟨0x2000C, [(64, 8)], 0x1FFFFFFF, 0x0, 0x0, 0x0, 0xC81F40⟩ /- I2T_A_n -/,
  ⟨0x2020C, [(64, 16)], 0x1FFFFFFF, 0x0, 0x0, 0x0, 0xC80FA0⟩ /- I2T_A_n -/,
  ⟨0x2060C, [(64, 8)], 0x1FFFFFFF, 0x0, 0x0, 0x0, 0xC805DC⟩ /- I2T_A_n -/,
  ⟨0x2080C, [(64, 6)], 0x1FFFFFFF, 0x0, 0x0, 0x0, 0xC81388⟩ /- I2T_A_n -/,
  ⟨0x20A0C, [(64, 8)], 0x1FFFFFFF, 0x0, 0x0, 0x0, 0xC803E8⟩ /- I2T_A_n -/,
  ⟨0x20010, [(64, 38)], 0xFFFFFFFF, 0x0, 0x0, 0x0, 0x800140⟩ /- I2T_B_n -/,
  ⟨0x20A10, [(64, 8)], 0xFFFFFFFF, 0x0, 0x0, 0x0, 0x800140⟩ /- I2T_B_n -/,
  ⟨0x20014, [(64, 8)], 0xFFFFFFF, 0x0, 0x0, 0x0, 0x640064⟩ /- OL_n -/,
  ⟨0x20214, [(64, 16)], 0xFFFFFFF, 0x0, 0x0, 0x0, 0x640032⟩ /- OL_n -/,
  ⟨0x20614, [(64, 8)], 0xFFFFFFF, 0x0, 0x0, 0x0, 0x64000A⟩ /- OL_n -/,
  ⟨0x20814, [(64, 6)], 0xFFFFFFF, 0x0, 0x0, 0x0, 0x640032⟩ /- OL_n -/,
  ⟨0x20A14, [(64, 8)], 0xFFFFFFF, 0x0, 0x0, 0x0, 0x640005⟩ /- OL_n -/,
  ⟨0x20018, [(64, 38)], 0xFFFF07FF, 0x0, 0x0, 0x0, 0x640000⟩ /- LIMP_PWM_n -/,
  ⟨0x20A18, [(64, 8)], 0xFFFF07FF, 0x0, 0x0, 0x0, 0x640000⟩ /- LIMP_PWM_n -/,
  ⟨0x2001C, [(64, 38)], 0xFFFFF, 0x0, 0x0, 0x0, 0x0⟩ /- ALIGN_n -/,
  ⟨0x20A1C, [(64, 8)], 0xFFFFF, 0x0, 0x0, 0x0, 0x0⟩ /- ALIGN_n -/,
  ⟨0x20020, [(64, 38)], 0xFF, 0x0, 0x0, 0x0, 0x64⟩ /- OFFTEST_n -/,
  ⟨0x20A20, [(64, 8)], 0xFF, 0x0, 0x0, 0x0, 0x64⟩ /- OFFTEST_n -/,
  ⟨0x20A24, [(64, 8)], 0x3FFF03FF, 0x0, 0x0, 0x0, 0x3E80064⟩ /- GD_CFG_n -/,
  ⟨0x20024, [(64, 38)], 0x0, 0x0, 0x0, 0x0, 0x0⟩ /- GD_CFG_n -/,
  ⟨0x20A28, [(64, 8)], 0xFF0FFF, 0x0, 0x0, 0x0, 0xA01F4⟩ /- GD_VDS_n -/,
  ⟨0x20028, [(64, 38)], 0x0, 0x0, 0x0, 0x0, 0x0⟩ /- GD_VDS_n -/,
  ⟨0x2082C, [(64, 6)], 0x7FF, 0x0, 0x0, 0x0, 0x1F4⟩ /- HB_CFG_n -/,
  ⟨0x2002C, [(64, 32)], 0x0, 0x0, 0x0, 0x0, 0x0⟩ /- HB_CFG_n -/,
  ⟨0x20A2C, [(64, 8)], 0x0, 0x0, 0x0, 0x0, 0x0⟩ /- HB_CFG_n -/,
  ⟨0x20C00, [(8, 1)], 0xFFFFFFFF, 0x0, 0x0, 0x0, 0xFFFFFFFF⟩ /- CQ_MASK_LO_q -/]

def rowsLOADCH2 : List RegRow := [
  ⟨0x20C08, [(8, 3)], 0xFFFFFFFF, 0x0, 0x0, 0x0, 0x0⟩ /- CQ_MASK_LO_q -/,
  ⟨0x20C04, [(8, 1)], 0xFF3F, 0x0, 0x0, 0x0, 0xFF3F⟩ /- CQ_MASK_HI_q -/,
  ⟨0x20C0C, [(8, 3)], 0xFF3F, 0x0, 0x0, 0x0, 0x0⟩ /- CQ_MASK_HI_q -/,
  ⟨0x30000, [(16, 38)], 0x0, 0x0, 0x0, 0x0, 0x0⟩ /- CH_STAT_n -/,
  ⟨0x30280, [(16, 8)], 0x0, 0x0, 0x0, 0x0, 0x0⟩ /- CH_STAT_n -/,
  ⟨0x30004, [(16, 38)], 0x0, 0x0, 0x0, 0x0, 0x0⟩ /- CH_CUR_n -/,
  ⟨0x30284, [(16, 8)], 0x0, 0x0, 0x0, 0x0, 0x0⟩ /- CH_CUR_n -/,
  ⟨0x30008, [(16, 38)], 0x0, 0x0, 0x0, 0x0, 0x80⟩ /- CH_I2T_n -/,
  ⟨0x30288, [(16, 8)], 0x0, 0x0, 0x0, 0x0, 0x80⟩ /- CH_I2T_n -/,
  ⟨0x3000C, [(16, 38)], 0x7F0000, 0x7F, 0x0, 0x0, 0x7F0000⟩ /- CH_EVENT_n -/,
  ⟨0x3028C, [(16, 8)], 0x7F0000, 0x7F, 0x0, 0x0, 0x7F0000⟩ /- CH_EVENT_n -/,
  ⟨0x40000, [(4, 4)], 0x13F, 0x0, 0x0, 0x0, 0x3F⟩ /- SNS_CFG_k -/,
  ⟨0x50000, [], 0x3F, 0x0, 0x0, 0x0, 0x0⟩ /- OTP_IDX -/,
  ⟨0x50004, [(4, 4)], 0xFFFFFFFF, 0x0, 0x0, 0x0, 0x0⟩ /- OTP_DATA_k -/,
  ⟨0x50014, [], 0x0, 0x0, 0x0, 0x3, 0x0⟩ /- OTP_CMD -/,
  ⟨0x50018, [], 0x0, 0x0, 0x0, 0x0, 0x0⟩ /- OTP_STATUS -/]

def blockLOADCH : RegBlock := ⟨0x10200000, 0x100000, 1, 0x100000, rowsLOADCH0 ++ rowsLOADCH1 ++ rowsLOADCH2⟩

def rowsFIO0 : List RegRow := [
  ⟨0x0, [(4, 48)], 0xFFF, 0x0, 0x0, 0x0, 0x630⟩ /- DI_CFG_i -/,
  ⟨0x100, [(4, 1)], 0x0, 0x0, 0x0, 0x0, 0x0⟩ /- DI_STATE_k -/,
  ⟨0x104, [(4, 1)], 0x0, 0x0, 0x0, 0x0, 0x0⟩ /- DI_STATE_k -/,
  ⟨0x108, [(4, 1)], 0x0, 0xFFFFFFFF, 0x0, 0x0, 0x0⟩ /- DI_CHG_k -/,
  ⟨0x10C, [(4, 1)], 0x0, 0xFFFF, 0x0, 0x0, 0x0⟩ /- DI_CHG_k -/,
  ⟨0x110, [], 0xFFFF, 0x0, 0x0, 0x0, 0x5064⟩ /- DI_POLL -/,
  ⟨0x200, [(4, 16)], 0xF, 0x0, 0x0, 0x0, 0x0⟩ /- AI_CFG_j -/,
  ⟨0x240, [(4, 16)], 0xFFF0FFF, 0x0, 0x0, 0x0, 0xFFF0000⟩ /- AI_WIN_j -/,
  ⟨0x280, [(4, 16)], 0x0, 0x0, 0x0, 0x0, 0x0⟩ /- AI_VAL_j -/,
  ⟨0x2C0, [], 0x0, 0xFFFF, 0x0, 0x0, 0x0⟩ /- AI_EVT -/,
  ⟨0x2C4, [], 0x0, 0x0, 0x0, 0x0, 0x0⟩ /- AI_CAL -/]

def blockFIO : RegBlock := ⟨0x10300000, 0x100000, 1, 0x100000, rowsFIO0⟩

def rowsMEM0 : List RegRow := [
  ⟨0x0, [], 0x0, 0x1F, 0x0, 0x0, 0x0⟩ /- EVENT -/,
  ⟨0x4, [], 0x1F, 0x0, 0x0, 0x0, 0x1F⟩ /- EVENT_EN -/,
  ⟨0x10, [], 0x7, 0x0, 0x0, 0x0, 0x4⟩ /- DRAM_CFG -/,
  ⟨0x14, [], 0x0, 0x0, 0x0, 0x0, 0x0⟩ /- ECC_CE_CNT -/,
  ⟨0x18, [], 0x0, 0x0, 0x0, 0x0, 0x0⟩ /- ECC_UE_CNT -/,
  ⟨0x1C, [], 0xFFFF, 0x0, 0x0, 0x0, 0x10⟩ /- ECC_CE_TH -/,
  ⟨0x20, [], 0x0, 0x0, 0x0, 0x0, 0x0⟩ /- ECC_LAST_LO -/,
  ⟨0x24, [], 0x0, 0x0, 0x0, 0x0, 0x0⟩ /- ECC_LAST_HI -/,
  ⟨0x28, [], 0x1FF, 0x0, 0x0, 0x0, 0x118⟩ /- SCRUB -/,
  ⟨0x30, [], 0x0, 0x0, 0x0, 0x0, 0x0⟩ /- UNMAP_LO -/,
  ⟨0x34, [], 0x0, 0x0, 0x0, 0x0, 0x0⟩ /- UNMAP_HI -/,
  ⟨0x38, [], 0x0, 0x0, 0x0, 0x0, 0x0⟩ /- UNMAP_CNT -/,
  ⟨0x40, [], 0x0, 0x0, 0x0, 0x0, 0x0⟩ /- SRAM_CE_CNT -/,
  ⟨0x44, [], 0x0, 0x0, 0x0, 0x0, 0x0⟩ /- SRAM_UE_CNT -/,
  ⟨0x100, [(8, 16)], 0x0, 0x0, 0x0, 0x0, 0x0⟩ /- COLL_SILENT_b -/,
  ⟨0x104, [(8, 16)], 0x0, 0x0, 0x0, 0x0, 0x0⟩ /- COLL_RETRY_b -/,
  ⟨0x200, [], 0x0, 0x0, 0x0, 0x0, 0x0⟩ /- SPEC_POP -/,
  ⟨0x300, [(4, 5)], 0x107, 0x0, 0x0, 0x0, 0x0⟩ /- RTWIN_p -/,
  ⟨0x400, [], 0xFFFFFFFF, 0x0, 0x0, 0x0, 0x0⟩ /- TCMCPY_SRC_LO -/,
  ⟨0x404, [], 0xFF, 0x0, 0x0, 0x0, 0x0⟩ /- TCMCPY_SRC_HI -/,
  ⟨0x408, [], 0x77FFFF, 0x0, 0x0, 0x0, 0x0⟩ /- TCMCPY_DST -/,
  ⟨0x40C, [], 0x7FFFF, 0x0, 0x0, 0x80000000, 0x0⟩ /- TCMCPY_CTL -/,
  ⟨0x410, [], 0x0, 0x0, 0x0, 0x0, 0x0⟩ /- TCMCPY_STAT -/,
  ⟨0x500, [], 0x0, 0x0, 0x0, 0x1, 0x0⟩ /- CNT_CLR -/,
  ⟨0x10000, [], 0x3FFFFC, 0x0, 0x0, 0x0, 0x0⟩ /- ATOM_ADDR -/,
  ⟨0x10004, [], 0x0, 0x0, 0x0, 0xFFFFFFFF, 0x0⟩ /- ATOM_AADD -/,
  ⟨0x10008, [], 0x0, 0x0, 0x0, 0xFFFFFFFF, 0x0⟩ /- ATOM_ASWP -/,
  ⟨0x1000C, [], 0x0, 0x0, 0x0, 0x0, 0x0⟩ /- ATOM_OLD -/,
  ⟨0x10010, [], 0x0, 0x0, 0x0, 0x0, 0x0⟩ /- ATOM_STAT -/]

def blockMEM : RegBlock := ⟨0x4800000, 0x100000, 1, 0x100000, rowsMEM0⟩

def rowsCWY0 : List RegRow := [
  ⟨0x0, [], 0xFFFF, 0x0, 0x0, 0x0, 0x1000⟩ /- CTRL -/,
  ⟨0x4, [], 0x0, 0xF, 0x0, 0x0, 0x0⟩ /- EVENT -/,
  ⟨0x8, [], 0xF, 0x0, 0x0, 0x0, 0xF⟩ /- EVENT_EN -/,
  ⟨0x100, [(16, 8)], 0xFFFF000, 0x0, 0x0, 0x0, 0x0⟩ /- RANGE_BASE_k -/,
  ⟨0x104, [(16, 8)], 0xFFFF000, 0x0, 0x0, 0x0, 0x0⟩ /- RANGE_LIMIT_k -/,
  ⟨0x108, [(16, 8)], 0x7, 0x0, 0x0, 0x0, 0x0⟩ /- RANGE_CFG_k -/,
  ⟨0x200, [], 0x0, 0x0, 0x0, 0x0, 0x0⟩ /- RETRY_CNT -/,
  ⟨0x204, [], 0x0, 0x0, 0x0, 0x0, 0x0⟩ /- RETRY_HOLD_CNT -/,
  ⟨0x208, [], 0x0, 0x0, 0x0, 0x0, 0x0⟩ /- LOCK_BROKEN_CNT -/,
  ⟨0x20C, [], 0x0, 0x0, 0x0, 0x0, 0x0⟩ /- LATE_RESP_CNT -/,
  ⟨0x210, [], 0x0, 0x0, 0x0, 0x0, 0x0⟩ /- ERR_OVF -/,
  ⟨0x214, [], 0x0, 0x0, 0x0, 0x1, 0x0⟩ /- CNT_CLR -/,
  ⟨0x1000, [], 0x0, 0x0, 0x0, 0x0, 0xFFFFFFFF⟩ /- ERRLOG_POP -/,
  ⟨0x1004, [], 0x0, 0x0, 0x0, 0x0, 0x0⟩ /- ERRLOG_INFO -/,
  ⟨0x1008, [], 0x0, 0x0, 0x0, 0x0, 0x0⟩ /- ERRLOG_NS -/,
  ⟨0x100C, [], 0x0, 0x0, 0x0, 0x0, 0x0⟩ /- ERRLOG_FILL -/]

def blockCWY : RegBlock := ⟨0x4900000, 0x100000, 1, 0x100000, rowsCWY0⟩

def rowsIC0 : List RegRow := [
  ⟨0x0, [(4, 1024)], 0x13F1F, 0x0, 0x0, 0x0, 0x0⟩ /- SRC_CFG_i -/,
  ⟨0x1000, [(4, 384)], 0x3F, 0x0, 0x0, 0x0, 0x0⟩ /- SRC_OWN_i -/,
  ⟨0x1600, [(4, 32)], 0x3F, 0x0, 0x0, 0x0, 0x1⟩ /- SRC_OWN_i -/,
  ⟨0x1680, [(4, 608)], 0x3F, 0x0, 0x0, 0x0, 0x0⟩ /- SRC_OWN_i -/,
  ⟨0x2000, [], 0x0, 0x0, 0x0, 0x3FF, 0x0⟩ /- SGI_SET -/,
  ⟨0x2004, [], 0x0, 0x0, 0x0, 0x0, 0x0⟩ /- EOI_ERR_CNT -/,
  ⟨0x10000, [(4096, 13)], 0x0, 0x0, 0x0, 0x0, 0x0⟩ /- CLAIM_t -/,
  ⟨0x10004, [(4096, 13)], 0x0, 0x0, 0x0, 0x3FF, 0x0⟩ /- EOI_t -/,
  ⟨0x10008, [(4096, 13)], 0x1F, 0x0, 0x0, 0x0, 0x0⟩ /- THRESH_t -/,
  ⟨0x1000C, [(4096, 13)], 0x0, 0x2000, 0x0, 0x0, 0x0⟩ /- STAT_t -/,
  ⟨0x18020, [(4096, 4)], 0xFFFFF001, 0x0, 0x0, 0x0, 0x0⟩ /- VA_CFG_t -/]

def blockIC : RegBlock := ⟨0x4300000, 0x100000, 1, 0x100000, rowsIC0⟩

def rowsHERON0 : List RegRow := [
  ⟨0x0, [], 0x0, 0x0, 0x0, 0x3, 0x0⟩ /- SLEEP_CMD -/,
  ⟨0x4, [], 0x0, 0x0, 0x0, 0x0, 0x0⟩ /- STATUS -/,
  ⟨0x8, [], 0x0, 0x0, 0x0, 0x0, 0xFFFF⟩ /- WAKE_SRC -/,
  ⟨0xC, [], 0xFF, 0x0, 0x0, 0x0, 0x5⟩ /- VREG_DELAY -/,
  ⟨0x10, [], 0x0, 0x7, 0x0, 0x0, 0x0⟩ /- EVENT -/,
  ⟨0x14, [], 0x7, 0x0, 0x0, 0x0, 0x7⟩ /- EVENT_EN -/,
  ⟨0x20, [(4, 2)], 0xFFFFFFFF, 0x0, 0x0, 0x0, 0x0⟩ /- WAKE_EN_k -/,
  ⟨0x28, [(4, 1)], 0x1FFFFF, 0x0, 0x0, 0x0, 0x0⟩ /- WAKE_EN_k -/,
  ⟨0x30, [(4, 3)], 0x0, 0xFFFFFFFF, 0x0, 0x0, 0x0⟩ /- WAKE_LATCH_k -/,
  ⟨0x40, [(4, 2)], 0x0, 0xFFFFFFFF, 0x0, 0x0, 0x0⟩ /- WATCH_LATCH_k -/,
  ⟨0x48, [], 0x0, 0x0, 0x0, 0x0, 0x0⟩ /- SEG_LATCH_LO -/,
  ⟨0x4C, [], 0x0, 0x0, 0x0, 0x0, 0x0⟩ /- SEG_LATCH_HI -/,
  ⟨0x60, [], 0x0, 0x0, 0x0, 0x0, 0x0⟩ /- RTC_LO -/,
  ⟨0x64, [], 0x0, 0x0, 0x0, 0x0, 0x0⟩ /- RTC_HI -/,
  ⟨0x68, [], 0xFFFFFFFF, 0x0, 0x0, 0x0, 0xFFFFFFFF⟩ /- RTC_ALARM_LO -/,
  ⟨0x6C, [], 0xFFFFFFFF, 0x0, 0x0, 0x0, 0xFFFFFFFF⟩ /- RTC_ALARM_HI -/,
  ⟨0x100, [(4, 64)], 0x83FF, 0x0, 0x0, 0x0, 0x0⟩ /- WATCH_k -/,
  ⟨0x200, [(4, 16)], 0xFFFF9F, 0x0, 0x0, 0x0, 0x0⟩ /- ORDER_k -/]

def blockHERON : RegBlock := ⟨0x10500000, 0x100000, 1, 0x100000, rowsHERON0⟩

def rowsOWN0 : List RegRow := [
  ⟨0x0, [], 0xF, 0x0, 0x0, 0x0, 0x0⟩ /- CTRL -/,
  ⟨0x4, [], 0x0, 0x0, 0x0, 0x0, 0x0⟩ /- STATUS -/,
  ⟨0x8, [], 0x0, 0xFF, 0x0, 0x0, 0x0⟩ /- EVENT -/,
  ⟨0xC, [], 0xFF, 0x0, 0x0, 0x0, 0xFF⟩ /- EVENT_EN -/,
  ⟨0x10, [], 0xFFFFFFF, 0x0, 0x0, 0x0, 0x0⟩ /- PT_BASE -/,
  ⟨0x14, [], 0xFFFFFFF, 0x0, 0x0, 0x0, 0x0⟩ /- PT_IO_BASE -/,
  ⟨0x18, [], 0xFFFFFFF, 0x0, 0x0, 0x0, 0x0⟩ /- INVAL_ADDR -/,
  ⟨0x1C, [], 0x0, 0x0, 0x0, 0x3, 0x0⟩ /- INVAL_CMD -/,
  ⟨0x20, [], 0xFFFFFFFF, 0x0, 0x0, 0x0, 0x0⟩ /- ANVIL_VEC_LO -/,
  ⟨0x24, [], 0xFF, 0x0, 0x0, 0x0, 0x0⟩ /- ANVIL_VEC_HI -/,
  ⟨0x28, [], 0x3FFF, 0x0, 0x0, 0x0, 0x64⟩ /- ANVIL_MAX -/,
  ⟨0x30, [], 0x1FFFFF, 0x0, 0x0, 0x0, 0x0⟩ /- KEEPALIVE -/,
  ⟨0x40, [], 0x3FF, 0x0, 0x0, 0x0, 0x64⟩ /- HWDT_CFG -/,
  ⟨0x44, [], 0x0, 0x0, 0x0, 0xFFFFFFFF, 0x0⟩ /- HWDT_KICK -/,
  ⟨0x48, [], 0x0, 0x0, 0x200, 0x0, 0x0⟩ /- HWDT_STAT -/,
  ⟨0x60, [(4, 16)], 0x0, 0x0, 0x0, 0x0, 0x0⟩ /- MEAS_k -/,
  ⟨0xA0, [], 0x0, 0x0, 0x0, 0xFFFF0003, 0x0⟩ /- LC_CMD -/,
  ⟨0xA4, [], 0x0, 0x0, 0x0, 0x0, 0x0⟩ /- LC_STAT -/,
  ⟨0xB0, [], 0x1, 0x0, 0x0, 0x0, 0x0⟩ /- DBG_CFG -/,
  ⟨0x100, [(4, 8)], 0x1F, 0x0, 0x0, 0x0, 0x0⟩ /- HART_CFG_h -/,
  ⟨0x200, [(4, 64)], 0x11F, 0x0, 0x0, 0x0, 0x0⟩ /- VMID_MAP_v -/,
  ⟨0x300, [(4, 4)], 0x1F, 0x0, 0x0, 0x0, 0x0⟩ /- INIT_CFG_p -/,
  ⟨0x400, [(4, 26)], 0xF0000, 0x0, 0x0, 0x0, 0x0⟩ /- BLK_k -/,
  ⟨0x468, [(4, 1)], 0xF0000, 0x0, 0x0, 0x0, 0x1⟩ /- BLK_k -/,
  ⟨0x500, [], 0xFC1F, 0x0, 0x0, 0x300, 0x0⟩ /- TONGS_CMD -/,
  ⟨0x504, [], 0x1FFFF, 0x0, 0x0, 0x0, 0x10064⟩ /- TONGS_CFG -/,
  ⟨0x510, [], 0x0, 0x0, 0x0, 0x0, 0x0⟩ /- VIOL_CNT -/,
  ⟨0x514, [], 0x0, 0x0, 0x0, 0x0, 0x0⟩ /- WORLD_GATE_CNT -/,
  ⟨0x518, [], 0x0, 0x0, 0x0, 0x0, 0x0⟩ /- TONGS_BLOCKED_CNT -/,
  ⟨0x51C, [], 0x0, 0x0, 0x0, 0x0, 0x0⟩ /- CACHE_MISS_CNT -/]

def rowsOWN1 : List RegRow := [
  ⟨0x520, [], 0x0, 0x0, 0x0, 0x1, 0x0⟩ /- CNT_CLR -/,
  ⟨0x1000, [], 0x0, 0x0, 0x0, 0x0, 0xFFFFFFFF⟩ /- VIOL_POP -/,
  ⟨0x1004, [], 0x0, 0x0, 0x0, 0x0, 0x0⟩ /- VIOL_INFO -/,
  ⟨0x1008, [], 0x0, 0x0, 0x0, 0x0, 0x0⟩ /- VIOL_FILL -/,
  ⟨0x10000, [], 0x0, 0x0, 0x0, 0x1F, 0x0⟩ /- TONGS_REL -/,
  ⟨0x10004, [], 0x0, 0x0, 0x0, 0x0, 0x0⟩ /- REL_PEND -/]

def blockOWN : RegBlock := ⟨0x4400000, 0x100000, 1, 0x100000, rowsOWN0 ++ rowsOWN1⟩

def rowsVQI0 : List RegRow := [
  ⟨0x0, [], 0x0, 0x1F, 0x0, 0x0, 0x0⟩ /- MGR_EVENT -/,
  ⟨0x4, [], 0x1F, 0x0, 0x0, 0x0, 0x1F⟩ /- MGR_EVENT_EN -/,
  ⟨0x8, [], 0x3FF, 0x0, 0x0, 0x0, 0x2FF⟩ /- MGR_SRC -/,
  ⟨0xC, [], 0x0, 0x0, 0x0, 0x0, 0x0⟩ /- MGR_LAST -/,
  ⟨0x10, [], 0x3FFFC0, 0x0, 0x0, 0x0, 0x0⟩ /- STAGE_OFS -/,
  ⟨0x14, [], 0x0, 0x0, 0x0, 0x0, 0x0⟩ /- SHARE_SUM -/,
  ⟨0x20, [], 0xFFFFFFFF, 0x0, 0x0, 0x0, 0x0⟩ /- MIG_BUF_LO -/,
  ⟨0x24, [], 0xFF, 0x0, 0x0, 0x0, 0x0⟩ /- MIG_BUF_HI -/,
  ⟨0x28, [], 0x1F, 0x0, 0x0, 0x300, 0x0⟩ /- MIG_CMD -/,
  ⟨0x2C, [], 0x0, 0x0, 0x0, 0x0, 0x0⟩ /- MIG_STAT -/,
  ⟨0x30, [], 0x0, 0x0, 0x0, 0x0, 0x0⟩ /- MIG_SEQ -/,
  ⟨0x1000, [], 0x3F, 0x0, 0x0, 0x0, 0x0⟩ /- MIG_CFG -/,
  ⟨0x20000, [(1024, 32)], 0xFF, 0x0, 0x0, 0x0, 0x0⟩ /- CFG_i -/,
  ⟨0x20004, [(1024, 32)], 0x0, 0x0, 0x0, 0x7, 0x0⟩ /- CMD_i -/,
  ⟨0x20008, [(1024, 32)], 0x0, 0x0, 0x0, 0x0, 0x0⟩ /- STATE_i -/,
  ⟨0x2000C, [(1024, 32)], 0x7FF, 0x0, 0x0, 0x0, 0x0⟩ /- SHARE_i -/,
  ⟨0x20010, [(1024, 32), (4, 8)], 0xFF07, 0x0, 0x0, 0x0, 0x0⟩ /- PAIR_KIND_i_p -/,
  ⟨0x20040, [(1024, 32), (8, 4)], 0xFFFFFFFF, 0x0, 0x0, 0x0, 0x0⟩ /- MAC_LO_i_k -/,
  ⟨0x20044, [(1024, 32), (8, 4)], 0x8000FFFF, 0x0, 0x0, 0x0, 0x0⟩ /- MAC_HI_i_k -/,
  ⟨0x20060, [(1024, 32), (4, 8)], 0x80000FFF, 0x0, 0x0, 0x0, 0x0⟩ /- VLAN_i_k -/,
  ⟨0x20080, [(1024, 32), (8, 8)], 0xBFFFFFFF, 0x0, 0x0, 0x0, 0x0⟩ /- CAN_LO_i_k -/,
  ⟨0x20084, [(1024, 32), (8, 8)], 0x3FFFFFFF, 0x0, 0x0, 0x0, 0x0⟩ /- CAN_HI_i_k -/,
  ⟨0x200C0, [(1024, 32), (8, 8)], 0x807FFFFF, 0x0, 0x0, 0x0, 0x0⟩ /- SIG_LO_i_k -/,
  ⟨0x200C4, [(1024, 32), (8, 8)], 0x7FFFFF, 0x0, 0x0, 0x0, 0x0⟩ /- SIG_HI_i_k -/,
  ⟨0x20100, [(1024, 32)], 0x0, 0x0, 0x0, 0x0, 0x0⟩ /- ADMIT_i -/,
  ⟨0x20104, [(1024, 32)], 0x0, 0x0, 0x0, 0x0, 0x0⟩ /- SPOOF_CNT_i -/,
  ⟨0x20108, [(1024, 32)], 0x0, 0x0, 0x0, 0x0, 0x0⟩ /- STALE_CNT_i -/,
  ⟨0x2010C, [(1024, 32)], 0x0, 0x0, 0x0, 0x0, 0x0⟩ /- RX_NOBUF_i -/,
  ⟨0x20110, [(1024, 32)], 0x0, 0x0, 0x0, 0x0, 0x0⟩ /- DELIV_DROP_i -/,
  ⟨0x20114, [(1024, 32)], 0x0, 0x0, 0x0, 0x0, 0x0⟩ /- OVER_SHARE_CNT_i -/]

def rowsVQI1 : List RegRow := [
  ⟨0x20118, [(1024, 32)], 0x0, 0x0, 0x0, 0x1, 0x0⟩ /- CNT_CLR_i -/,
  ⟨0x20120, [(1024, 32), (4, 4)], 0x0, 0x0, 0x0, 0x0, 0x0⟩ /- OCC_i_t -/,
  ⟨0x80000, [(4096, 32), (64, 8)], 0xFFFFFFFF, 0x0, 0x0, 0x0, 0x0⟩ /- SQ_BASE_LO_i_p -/,
  ⟨0x80004, [(4096, 32), (64, 8)], 0xFF, 0x0, 0x0, 0x0, 0x0⟩ /- SQ_BASE_HI_i_p -/,
  ⟨0x80008, [(4096, 32), (64, 8)], 0xFFFFFFFF, 0x0, 0x0, 0x0, 0x0⟩ /- CQ_BASE_LO_i_p -/,
  ⟨0x8000C, [(4096, 32), (64, 8)], 0xFF, 0x0, 0x0, 0x0, 0x0⟩ /- CQ_BASE_HI_i_p -/,
  ⟨0x80010, [(4096, 32), (64, 8)], 0x1FF0F, 0x0, 0x0, 0x0, 0x0⟩ /- RING_SIZE_i_p -/,
  ⟨0x80014, [(4096, 32), (64, 8)], 0x1FFF, 0x0, 0x0, 0x0, 0x0⟩ /- SQ_TAIL_i_p -/,
  ⟨0x80018, [(4096, 32), (64, 8)], 0x0, 0x0, 0x0, 0x0, 0x0⟩ /- SQ_HEAD_i_p -/,
  ⟨0x8001C, [(4096, 32), (64, 8)], 0x0, 0x0, 0x0, 0x0, 0x0⟩ /- CQ_TAIL_i_p -/,
  ⟨0x80020, [(4096, 32), (64, 8)], 0x1FFF, 0x0, 0x0, 0x0, 0x0⟩ /- CQ_HEAD_i_p -/,
  ⟨0x80024, [(4096, 32), (64, 8)], 0x0, 0x0, 0x0, 0x0, 0x0⟩ /- PAIR_STATUS_i_p -/,
  ⟨0x80800, [(4096, 32)], 0x0, 0x0, 0x0, 0x1, 0x0⟩ /- ICMD_i -/,
  ⟨0x80804, [(4096, 32)], 0x0, 0x0, 0x0, 0x0, 0x0⟩ /- ISTATUS_i -/]

def blockVQI : RegBlock := ⟨0x4500000, 0x100000, 1, 0x100000, rowsVQI0 ++ rowsVQI1⟩

def rowsKEY0 : List RegRow := [
  ⟨0x0, [], 0x0, 0x0, 0x0, 0x0, 0x0⟩ /- STATUS -/,
  ⟨0x4, [], 0x0, 0x7, 0x0, 0x0, 0x0⟩ /- EVENT -/,
  ⟨0x8, [], 0x7, 0x0, 0x0, 0x0, 0x7⟩ /- EVENT_EN -/,
  ⟨0x10, [], 0xFFFFFFC0, 0x0, 0x0, 0x0, 0x0⟩ /- JQ_ADDR_LO -/,
  ⟨0x14, [], 0xFF, 0x0, 0x0, 0x0, 0x0⟩ /- JQ_ADDR_HI -/,
  ⟨0x18, [], 0x0, 0x0, 0x0, 0x1, 0x0⟩ /- JQ_SUBMIT -/,
  ⟨0x1C, [], 0x0, 0x0, 0x0, 0x0, 0x0⟩ /- JQ_STAT -/,
  ⟨0x20, [], 0x3F, 0x0, 0x0, 0x300, 0x0⟩ /- SLOT_CMD -/,
  ⟨0x24, [], 0x0, 0x0, 0x0, 0x0, 0x0⟩ /- SLOT_STAT -/,
  ⟨0x30, [], 0x0, 0x0, 0x0, 0x0, 0x0⟩ /- UID_LO -/,
  ⟨0x34, [], 0x0, 0x0, 0x0, 0x0, 0x0⟩ /- UID_HI -/,
  ⟨0x40, [], 0x0, 0x0, 0x0, 0x0, 0x0⟩ /- JOBS -/,
  ⟨0x44, [], 0x0, 0x0, 0x0, 0x0, 0x0⟩ /- REFUSED -/,
  ⟨0x48, [], 0x0, 0x0, 0x0, 0x0, 0x0⟩ /- TAMPER_ABORTS -/,
  ⟨0x50, [], 0x0, 0x0, 0x0, 0x1, 0x0⟩ /- CNT_CLR -/,
  ⟨0x100, [(32, 64), (16, 2)], 0x0, 0x0, 0x0, 0x0, 0x0⟩ /- ATTR_s_h -/,
  ⟨0x104, [(32, 64), (16, 2)], 0x0, 0x0, 0x0, 0x0, 0x0⟩ /- USES_s_h -/,
  ⟨0x108, [(32, 64), (16, 2)], 0x0, 0x0, 0x0, 0x0, 0x0⟩ /- KCV_LO_s_h -/,
  ⟨0x10C, [(32, 64), (16, 2)], 0x0, 0x0, 0x0, 0x0, 0x0⟩ /- KCV_HI_s_h -/]

def blockKEY : RegBlock := ⟨0x4600000, 0x100000, 1, 0x100000, rowsKEY0⟩

def rowsTAMP0 : List RegRow := [
  ⟨0x0, [], 0x0, 0x0, 0x0, 0x0, 0x0⟩ /- STATUS -/,
  ⟨0x4, [], 0x0, 0x7F, 0x0, 0x0, 0x0⟩ /- CAUSE -/,
  ⟨0x8, [], 0x0, 0x0, 0x0, 0x1, 0x0⟩ /- CMD -/,
  ⟨0xC, [], 0x11F1F, 0x0, 0x80000000, 0x0, 0x0⟩ /- CFG -/,
  ⟨0x10, [], 0x0, 0x0, 0x0, 0x0, 0x0⟩ /- FIRST_RTC_LO -/,
  ⟨0x14, [], 0x0, 0x0, 0x0, 0x0, 0x0⟩ /- FIRST_RTC_HI -/,
  ⟨0x18, [], 0x0, 0x0, 0x0, 0x0, 0x0⟩ /- COUNT -/]

def blockTAMP : RegBlock := ⟨0x4700000, 0x100000, 1, 0x100000, rowsTAMP0⟩

def rowsBLW0 : List RegRow := [
  ⟨0x0, [], 0x0, 0x0, 0x0, 0x0, 0x0⟩ /- STATUS -/,
  ⟨0x4, [], 0x0, 0x0, 0x0, 0x0, 0x0⟩ /- VBAT -/,
  ⟨0x8, [], 0x0, 0x7F, 0x0, 0x0, 0x0⟩ /- EVENT -/,
  ⟨0xC, [], 0x7F, 0x0, 0x0, 0x0, 0x7F⟩ /- EVENT_EN -/,
  ⟨0x10, [(4, 1)], 0x3FFF, 0x0, 0x0, 0x0, 0x2328⟩ /- TH_k -/,
  ⟨0x14, [(4, 1)], 0x3FFF, 0x0, 0x0, 0x0, 0x1D4C⟩ /- TH_k -/,
  ⟨0x18, [(4, 1)], 0x3FFF, 0x0, 0x0, 0x0, 0x1964⟩ /- TH_k -/,
  ⟨0x1C, [(4, 1)], 0x3FFF, 0x0, 0x0, 0x0, 0x157C⟩ /- TH_k -/,
  ⟨0x20, [], 0x1F, 0x0, 0x0, 0x0, 0x2⟩ /- PARK_MS -/,
  ⟨0x24, [], 0xFFFFFFFF, 0x0, 0x0, 0x0, 0x0⟩ /- NONESS_LO -/,
  ⟨0x28, [], 0x7, 0x0, 0x0, 0x0, 0x0⟩ /- NONESS_HI -/,
  ⟨0x2C, [], 0x3FFFF, 0x0, 0x0, 0x0, 0x3C⟩ /- LIDAR_PORTS -/,
  ⟨0x30, [], 0x0, 0x0, 0x0, 0x0, 0xF⟩ /- RAIL -/,
  ⟨0x34, [], 0xFF0000, 0x0, 0x0, 0x0, 0x8C0000⟩ /- TJ -/,
  ⟨0x40, [(4, 4)], 0x0, 0x0, 0x0, 0x0, 0x0⟩ /- STAGE_CNT_k -/,
  ⟨0x50, [], 0x0, 0x0, 0x0, 0x0, 0x0⟩ /- CRASH_MISSED -/,
  ⟨0x54, [], 0x0, 0x0, 0x0, 0x1, 0x0⟩ /- CNT_CLR -/]

def blockBLW : RegBlock := ⟨0x10600000, 0x100000, 1, 0x100000, rowsBLW0⟩

def rowsWDOG0 : List RegRow := [
  ⟨0x0, [], 0x1FFFF, 0x0, 0x80000000, 0x0, 0x7D0⟩ /- WD_CFG -/,
  ⟨0x4, [], 0x0, 0x0, 0x0, 0xFFFFFFFF, 0x0⟩ /- WD_KICK -/,
  ⟨0x8, [], 0x20000, 0x10000, 0x0, 0x0, 0x207D0⟩ /- WD_STAT -/,
  ⟨0x100, [(16, 16)], 0x3FFF003F, 0x0, 0x0, 0x0, 0xC80000⟩ /- HB_CFG_c -/,
  ⟨0x104, [(16, 16)], 0x8, 0x4, 0x0, 0x0, 0x0⟩ /- HB_STAT_c -/,
  ⟨0x108, [(16, 16)], 0x0, 0x0, 0x0, 0x0, 0x0⟩ /- HB_LOST_CNT_c -/,
  ⟨0x1000, [(4096, 16)], 0x0, 0x0, 0x0, 0xFFFFFFFF, 0x0⟩ /- HB_KICK_c -/]

def blockWDOG : RegBlock := ⟨0x10700000, 0x100000, 1, 0x100000, rowsWDOG0⟩

/-- Every register block of R34 and R35, and the engine blocks of R145. -/
def regBlocks : List RegBlock := [
  blockIC, blockENG, blockCAN, blockSYSCTL, blockTIME, blockTRG, blockCAM, blockSW, blockLIN, blockSIG, blockNM, blockLOADCH, blockFIO, blockMEM, blockCWY, blockHERON, blockOWN, blockVQI, blockKEY, blockTAMP, blockBLW, blockWDOG]

/-- The block that spans an address, and the address's offset in its unit. -/
def blockAt (a : Nat) : Option (RegBlock × Nat) :=
  (regBlocks.find? fun b =>
      decide (b.base ≤ a) && decide ((a - b.base) / b.stride < b.count) && decide ((a - b.base) % b.stride < b.span)).map
    fun b => (b, (a - b.base) % b.stride)

/-- The table row of the register at an address; none where no register lies (R33). -/
def rowAt (a : Nat) : Option RegRow :=
  match blockAt a with
  | none => none
  | some (b, o) => b.rows.find? fun r => r.holds o

/-- What the register at an address holds after reset (R4). -/
def resetVal (a : Nat) : BitVec 32 :=
  match rowAt a with
  | none => 0
  | some r => BitVec.ofNat 32 r.rst

end Sys2Proof.Machine
end

