-- ==== Sys2Proof/Machine/Sparse.lean ====
section
/-!
DEFINITION. Data that is mostly at its default, as plain data: a list of (key, value) pairs in one canonical form.
The registers and every memory of the machine are held this way, so equal contents are equal data.
-/
namespace Sys2Proof.Machine

/-- What a sparse list holds at a key: the listed value, else what an unlisted key reads as. -/
def sget {α : Type} (d : Nat → α) : List (Nat × α) → Nat → α
  | [], a => d a
  | (k, v) :: l, a => if k = a then v else sget d l a

/-- Lists a key with a value, in its place. -/
def sins {α : Type} (a : Nat) (v : α) : List (Nat × α) → List (Nat × α)
  | [] => [(a, v)]
  | (k, w) :: l => if k < a then (k, w) :: sins a v l else if k = a then (a, v) :: l else (a, v) :: (k, w) :: l

/-- Writes a key. Writing the value that an unlisted key reads as removes the entry, so the form stays canonical. -/
def sput {α : Type} [DecidableEq α] (d : Nat → α) (a : Nat) (v : α) (l : List (Nat × α)) : List (Nat × α) :=
  if v = d a then l.filter fun p => p.1 != a else sins a v l

/-- Puts every key of a range of addresses back to its default. -/
def sdrop {α : Type} (lo hi : Nat) (l : List (Nat × α)) : List (Nat × α) :=
  l.filter fun p => !(decide (lo ≤ p.1) && decide (p.1 < hi))

/-- The canonical form: keys strictly rising, and no entry equal to what an unlisted key reads as. -/
def swf {α : Type} [DecidableEq α] (d : Nat → α) : List (Nat × α) → Bool
  | [] => true
  | [(k, v)] => decide (v ≠ d k)
  | (k, v) :: (k', v') :: l => decide (v ≠ d k) && decide (k < k') && swf d ((k', v') :: l)

/-- Changes one member of a fixed family. -/
def upd {α : Type} {n : Nat} (v : Vector α n) (i : Fin n) (f : α → α) : Vector α n :=
  v.set i.1 (f v[i.1]) i.2

end Sys2Proof.Machine
end

