-- ==== Sys2Proof/Machine/Types.lean ====
section
/-!
DEFINITION. The state of each unit that software does not read as a register: what the manual says a unit holds, as plain data.
Whatever software can read as a register lives in the registers of `State` and nowhere else.
-/
namespace Sys2Proof.Machine

/-- The status codes of R10. -/
inductive Status where
  | done
  | failedBus
  | failedEcc
  | failedTimeout
  | failedRefused
  | abortedReset
  | abortedIslandOff
  | abortedTamper
  | abortedCancel
  | staleGeneration
  | deferred
  deriving DecidableEq, Repr

/-- The 8-bit code of a status (R10). -/
def Status.code : Status → Nat
  | .done => 0x00
  | .failedBus => 0x10
  | .failedEcc => 0x11
  | .failedTimeout => 0x12
  | .failedRefused => 0x13
  | .abortedReset => 0x20
  | .abortedIslandOff => 0x21
  | .abortedTamper => 0x22
  | .abortedCancel => 0x23
  | .staleGeneration => 0x30
  | .deferred => 0x31

/-- The last response the block gave to the initiator of a register access: its status and, of a read, its data. -/
structure Resp where
  status : Status
  data : Word
  deriving DecidableEq, Repr

/-- The island states of R21. -/
inductive IslState where
  | run
  | slow
  | draining
  | stopped
  | starting
  | off
  | reset
  deriving DecidableEq, Repr

/-- An island (R21): its state, its clock-down factor, whether a reset (and a hold after it) is recorded, whether a stop request is
held by a keep-alive vote (R482), whether Bellows holds it (R565), and the instant its drain timer expires (R22). -/
structure Island where
  st : IslState
  div : Nat
  resetRec : Bool
  holdRec : Bool
  held : Bool
  blw : Bool
  drainDue : Nat
  deriving DecidableEq, Repr

/-- One time island (R36, R44, R57): VT in units of 2^-48 ns, the raw cycle count, FREQ in force (units of 2^-32), the integrator in the
same units, the learned frequencies and their counts (R76), whether it takes FREQ changes, steps and SETs (R44, R635), and, while it does not, the written registers of
TIME as it last took them (R87). -/
structure TimeIsl where
  vt : Nat
  raw : Nat
  freq : Int
  integ : Rat
  learnF : Vector Int 96
  learnC : Vector Nat 96
  copied : Bool
  held : List (Nat × Word)
  deriving DecidableEq, Repr

/-- A servo sample record (R59); stamps in units of 2^-16 ns. -/
structure Sample where
  seq : Nat
  port : Nat
  slot : Nat
  oneStep : Bool
  gm : Nat
  rx : Nat
  origin : Nat
  corr : Int
  mld : Nat
  deriving DecidableEq, Repr

/-- The source of a sample (R61): a domain slot with its grandmaster, the twin slots of a sample fed with TWIN_EN = 1 (they count as one), or PPS_IN. -/
inductive Source where
  | slot (n : Nat) (gm : Nat)
  | twin (gm : Nat)
  | pps
  deriving DecidableEq, Repr

/-- One direction of the twin-path watch (R70-R75): its latest offset in ns with the instant it came, its latest delay, its baseline, its
latest grandmaster with the instant, the samples in a row outside DELAY_JUMP, the instant of its latest sample, and whether it has a sample
in the open pair. -/
structure TwinDir where
  theta : Option (Rat × Nat)
  delay : Option Rat
  base : Option Rat
  gm : Option (Nat × Nat)
  outside : Nat
  lastSample : Option Nat
  inPair : Bool
  deriving DecidableEq, Repr

/-- The time block beside its registers (chapter 02). `mraw` counts the cycles of whichever island is master: the raw count that spacings and widths are measured on, over changes
of mastership (R57). `holdDone` says that HOLD_LIMIT was raised for the present holdover (R80), `ppsSince` from when 1.1 s without an accepted edge count (R82). `past` holds the changes of FREQ and the jumps of master VT of the last second: the raw count, master VT and FREQ just before each. -/
structure TimeSt where
  ta : TimeIsl
  tb : TimeIsl
  mraw : Nat
  peatF : Vector Int 96
  peatC : Vector Nat 96
  queue : List Sample
  prevRx : Option Nat
  goodRun : Nat
  lockFirst : Bool
  src : Option Source
  srcBefore : Option Source
  refusedSrc : Option Source
  stepSrc : Option Source
  fromUnsync : Bool
  persistFirst : Option Rat
  persistCnt : Nat
  stepVal : Int
  stepAt : Option Nat
  holdInteg : Rat
  beyond : Bool
  holdDone : Bool
  tempA : Int
  tempB : Int
  lastFed : Nat
  holdSince : Option Nat
  setPend : Option Nat
  srcChanged : Bool
  accepted : Option (Nat × Nat)
  resyncReq : Bool
  splitHold : Bool
  splitFirst : Option Nat
  splitRun : Nat
  readmit : Nat
  skipCompare : Bool
  twin0 : TwinDir
  twin1 : TwinDir
  joint : Bool
  ppsLast : Option Nat
  ppsSince : Nat
  ppsLost : Bool
  past : List (Nat × (Nat × Int))
  shadows : List (Nat × (Nat × Nat))
  deriving DecidableEq, Repr

/-- A trigger beside its registers (R104-R113): the index of its next grid instant, the instant (on TimeSt.mraw, in 125 ps) its active pulse ends, the placed instant of
its latest edge, and the placed instants of its 64 latest edges with their epochs, newest first (R126); units of 2^-16 ns; and the level that its ball holds while an active pulse completes over a reset (R113). -/
structure Trigger where
  next : Nat
  pulseEnd : Option Nat
  last : Nat
  history : List (Nat × Nat)
  carry : Option Bool
  deriving DecidableEq, Repr

/-- An entry of a capture FIFO (R119, R121): the stamp in units of 2^-16 ns, the edge, TIME.EPOCH [3:0], GAP. -/
structure CapEntry where
  stamp : Nat
  rise : Bool
  epoch : Nat
  gap : Bool
  deriving DecidableEq, Repr

/-- A capture input beside its registers: its FIFO, oldest first, the instant (on TimeSt.mraw, in 125 ps) of the latest edge that met the spacing, whether edges
were lost since the latest entry, the private shadows of R120, and the entry popped last (R432). -/
structure Capture where
  fifo : List CapEntry
  lastEdge : Option Nat
  gap : Bool
  shadows : List (Nat × CapEntry)
  undo : Option CapEntry
  deriving DecidableEq, Repr

/-- A line start as it was stamped (R124): its corrected stamp, line number, TIME.EPOCH, and whether its header was corrected. -/
structure CamStart where
  stamp : Nat
  num : Nat
  epoch : Nat
  corrected : Bool
  deriving DecidableEq, Repr

/-- A frame that is open on a virtual channel (R124, R126, R130): its number, the lines counted and forwarded, the corrected frame-start stamp, the
exposure-trigger VT, the epochs of the two, whether a line was lost since the last line packet, and the stamp and number of a line-start packet. -/
structure CamFrame where
  num : Nat
  lines : Nat
  forwarded : Nat
  fsVt : Nat
  fsEpoch : Nat
  trigVt : Option (Nat × Nat)
  seq : Nat
  loss : Bool
  lineStart : Option CamStart
  deriving DecidableEq, Repr

/-- A line in staging, or an END packet (R127, R130). `header` is the packet window's first bytes once the thread has sent the item. -/
structure CamLine where
  id : Nat
  vc : Fin 16
  dt : Nat
  flags : Nat
  frameNum : Nat
  lineNum : Nat
  frameSeq : Nat
  epoch : Nat
  trigVt : Nat
  fsVt : Nat
  arrVt : Nat
  payload : List Byte
  queued : Bool
  header : Option (List Byte)
  mark : Option (Nat × Bool)
  deriving DecidableEq, Repr

/-- A camera port beside its registers (chapter 03). -/
structure CamSt where
  frames : Vector (Option CamFrame) 16
  staged : List CamLine
  queue : List Nat
  nextId : Nat
  seqNum : Vector Nat 16
  moved : Vector Bool 16
  lastBurst : Nat
  deriving DecidableEq, Repr

/-- Who submitted a frame to the switch, and where its completion goes (R235, R238, R239). -/
inductive Submitter where
  | none
  | engine (e : Fin 24) (t : Fin 4) (count : Nat)
  | host (h : Fin 2) (desc : Nat) (tag stamp : Bool)
  | camera (n : Fin 4) (line : Nat)
  | vqi (i : Fin 32) (item gen : Nat)
  deriving DecidableEq, Repr

/-- A copy of a frame that waits in an egress queue: its port, class, the instant it was queued (R222, R240), and the half that stores it (R212). -/
structure SwCopy where
  port : Nat
  cls : Nat
  since : Nat
  half : Bool
  deriving DecidableEq, Repr

/-- A frame in the buffer: its bytes from the destination address, without FCS; its ingress port, the corrected ingress stamp and raw count; the
copies still queued; how many copies are on the wire; the status of the first copy that failed (R239); and whether it has a single egress port (R215). -/
structure SwFrame where
  id : Nat
  bytes : List Byte
  ingress : Nat
  stamp : Nat
  raw : Nat
  cls : Nat
  vid : Nat
  sub : Submitter
  mark : Option (Nat × Bool)
  copies : List SwCopy
  out : Nat
  failed : Option Status
  egressStamp : Nat
  single : Bool
  deriving DecidableEq, Repr

/-- Cells a frame or packet holds in one half of the pool, by reservation and from the shared cells, and how many of its copies in that half have
not left (R241, R242). -/
structure SwAlloc where
  id : Nat
  half : Bool
  cls : Nat
  res : Nat
  shared : Nat
  refs : Nat
  deriving DecidableEq, Repr

/-- A transmission in progress on a port: the frame, its class, the half that stores it, the bytes on the wire, whether its FCS is inverted (R216), the corrected
egress stamp and raw count of its start (R54), the instant its last byte leaves (of a pre-empted one, the ns that are left), the instant it was queued, and the instant
its present fragment began (R233). -/
structure SwTx where
  id : Nat
  cls : Nat
  half : Bool
  bytes : List Byte
  stomped : Bool
  stamp : Nat
  raw : Nat
  ends : Nat
  since : Nat
  frag : Nat
  deriving DecidableEq, Repr

/-- The state of a recovery function (R232): the latest accepted number, the history below it, the instants of the latest copies from P0 and P1, and the latest copy from P1 that
was admitted: its instant, number and frame. -/
structure FrerRec where
  takeAny : Bool
  seq : Nat
  history : Nat
  last0 : Option Nat
  last1 : Option Nat
  tie : Option (Nat × Nat × Nat)
  deriving DecidableEq, Repr

/-- The credit of a shaped class (R223), in 10^-6 bit, and the instant it was brought up to date. -/
structure SwCredit where
  credit : Int
  at_ : Nat
  deriving DecidableEq, Repr

/-- A flow meter's buckets (R230), in 10^-6 bit, and the instant they were brought up to date. -/
structure SwMeter where
  c : Nat
  e : Nat
  at_ : Nat
  used : Bool
  deriving DecidableEq, Repr

/-- A packet as a thread or a mailbox holds it: its bytes without FCS, its class when it has one (R217), the stamp mark of TSTAMP (R203), and the cells it
holds in the switch buffer. -/
structure Packet where
  bytes : List Byte
  cls : Option Nat
  mark : Option (Nat × Bool)
  alloc : Option (Nat × Bool)
  deriving DecidableEq, Repr

/-- A mailbox item (R151, R236): its descriptor words 1 to 3, kind and length, and the packet of a packet item. -/
structure MailItem where
  kind : Nat
  len : Nat
  words : Nat × Nat × Nat
  pkt : Option Packet
  deriving DecidableEq, Repr

/-- A frame that port E admits at its launch time (R202). -/
structure SwLaunch where
  at16 : Nat
  e : Fin 24
  t : Fin 4
  pkt : Packet
  deriving DecidableEq, Repr

/-- Where an item of a virtual instance is (R490, R500): read from its ring and not yet admitted, in the admission buffer of its target, taken by the target,
or an unfilled receive buffer. -/
inductive VqiPlace where
  | fetched
  | admitted
  | taken
  | rxbuf
  deriving DecidableEq, Repr

/-- An item of a virtual instance (R490, R503): its pair, SQ index, generation, descriptor, and its staging slot (R494). -/
structure VqiItem where
  id : Nat
  inst : Fin 32
  pair : Fin 8
  sq : Nat
  gen : Nat
  desc : List Byte
  place : VqiPlace
  slot : Option Nat
  deriving DecidableEq, Repr

/-- An ended item that waits for its completion record (R495): status, length, bytes 12-15 and the stamp of bytes 16-27. -/
structure VqiDone where
  id : Nat
  inst : Fin 32
  gen : Nat
  status : Status
  len : Nat
  extra : Nat
  stamp : Option Nat
  deriving DecidableEq, Repr

/-- The virtual instances beside their registers (chapter 14): their items in fetch order, the ended ones, the admission rounds (slots passed and slots each
instance took of each target, the instance that took the latest), the shares in force (R502), the freeze timers (R507), and a migration command that runs: its OP,
instance, and the world and instance ID of its manager. -/
structure VqiSt where
  items : List VqiItem
  done : List VqiDone
  nextId : Nat
  passed : Vector Nat 4
  took : List ((Nat × Nat) × Nat)
  turn : Vector Nat 4
  share : Vector Nat 32
  freezeDue : Vector Nat 32
  mig : Option (Nat × Fin 32 × Bool × Nat)
  deriving DecidableEq, Repr

/-- A change of a gate list that is armed (R226): its instant in ns of VT, and the base, cycle and length it was armed with. -/
structure GateArm where
  at_ : Nat
  base : Nat
  cycle : Nat
  len : Nat
  deriving DecidableEq, Repr

/-- A camera line whose segments are in the switch (R129): its port, number, virtual channel and frame, the segments that have not ended, whether one has failed, and whether it
is an END packet. -/
structure SwLine where
  cam : Fin 4
  id : Nat
  vc : Fin 16
  seq : Nat
  left : Nat
  bad : Bool
  isEnd : Bool
  deriving DecidableEq, Repr

/-- The switch beside its registers (chapter 06). Its tables are one sparse map of 128-bit entries under table number × 2^18 + index (R254). `sgPend` holds writes
to a running stream gate with the instant they take effect; `eQueue` is port E's pop queues. -/
structure SwSt where
  tbl : List (Nat × BitVec 128)
  refreshed : List (Nat × Nat)
  sgPend : List (Nat × (Nat × BitVec 128))
  frames : List SwFrame
  allocs : List SwAlloc
  nextId : Nat
  tx : Vector (Option SwTx) 18
  preempted : Vector (Option SwTx) 18
  eQueue : Vector (List MailItem) 8
  gateArm : Vector (Option GateArm) 23
  operLen : Vector Nat 23
  credits : List (Nat × SwCredit)
  meters : List (Nat × SwMeter)
  frer : List (Nat × FrerRec)
  verify : Vector Nat 6
  verifyAt : Vector Nat 6
  lastEnd : Vector Nat 18
  subCount : Vector Nat 24
  ringNext : Vector Nat 16
  lines : List SwLine
  launches : List SwLaunch
  ecplCount : Nat
  tc10Due : Vector Nat 18
  deriving DecidableEq, Repr

/-- A CAN frame: the ID word of R260, the data, ESI, and the acceptance field of an XL frame. -/
structure CanFrame where
  fmt : CanFmt
  idw : Nat
  data : List Byte
  esi : Bool
  af : Nat
  deriving DecidableEq, Repr

/-- Where a CAN transmit item comes from (R275): a buffer, a host queue entry, an engine push with its count and words, the NM block with the bytes of its wisp (R335). -/
inductive CanSrc where
  | buffer (b : Fin 64)
  | host (i : Fin 32)
  | engine (count w0 w1 w2 w3 : Nat)
  | wisp (w : Nat)
  deriving DecidableEq, Repr

/-- A CAN transmit item: its source, its place in the order of acceptance, the instant its deadline passes (R276), REROUTE, BUS_OFF_HELD (R285), and whether the
Sluice holds it (R344). -/
structure CanItem where
  src : CanSrc
  seq : Nat
  deadline : Option Nat
  reroute : Bool
  busOff : Bool
  held : Bool
  deriving DecidableEq, Repr

/-- A CAN attempt: its item (none: a reference message), the frame on the bus, whether a cancel is armed (R278), whether its window is exclusive, the stamp of its
start-of-frame in units of 2^-16 ns, and the instant of it. -/
structure CanTry where
  item : Option CanItem
  frame : CanFrame
  cancel : Bool
  exclusive : Bool
  stamp : Nat
  at_ : Nat
  deriving DecidableEq, Repr

/-- The open window of the time-triggered matrix (R280): its cell type and buffer, the instant after which nothing starts in it, and whether its buffer has started. -/
structure TtWindow where
  type : Nat
  mb : Nat
  closes : Nat
  started : Bool
  deriving DecidableEq, Repr

/-- A CAN controller beside its registers (chapter 07): the receive queue's waiting entries oldest first, those popped by a host with the instants at which their locks
expire, those held by an engine, the locked buffers, the shadow frames with their stamps; the transmit items; and the time-triggered state: the next index of the reference
grid, the index of a reference that waits for the bus, the index sent last, the start of the present basic cycle, the latest reference, the open window, and updates that wait. -/
structure CanSt where
  rxq : List (Fin 32)
  popped : List (Fin 32 × Nat)
  engHeld : List (Fin 32)
  undo : Option (Fin 32)
  locks : List (Fin 64 × Nat)
  shadow : List (Fin 64 × (CanFrame × Nat))
  items : List CanItem
  nextSeq : Nat
  cur : Option CanTry
  engCount : Nat
  cplCount : Nat
  alone : Bool
  updates : List (Nat × Nat × Nat × Nat)
  cells : List (Nat × Nat × Nat)
  refNext : Nat
  refDue : Option Nat
  refIdx : Nat
  cycleAt : Option Nat
  lastRef : Option Nat
  window : Option TtWindow
  deriving DecidableEq, Repr

/-- A LIN request (R290). The NM block's own (R334, R344) are internal: they have no response item. -/
structure LinReq where
  tag : Nat
  kind : Nat
  len : Nat
  ident : Nat
  enhanced : Bool
  data : List Byte
  internal : Bool
  held : Bool
  deriving DecidableEq, Repr

/-- A LIN channel beside its registers: its requests oldest first, the one on the bus, its response queue, the instant its header ended, the instant its wake pulse ends, 
the instant at which held requests are released (R344), and the bytes that the channel drives for the request on the bus: the protected identifier, and of a publish the data and
the checksum (R289). -/
structure LinSt where
  reqs : List LinReq
  cur : Option LinReq
  resp : List MailItem
  headerEnd : Nat
  pulseEnd : Nat
  release : Option Nat
  wire : List Byte
  deriving DecidableEq, Repr

/-- A wisp as it is sent (R335): on CAN the identifier of its frame, on the backbone the destination and EtherType of its frame; and the bytes of the frame's payload. -/
structure NmFrame where
  canId : Option Nat
  ethDa : Nat
  ethType : Nat
  bytes : List Byte
  deriving DecidableEq, Repr

/-- A segment of the NM block beside its registers (chapter 09): the instant of its latest state change and the count of them, the ring timer's start, the running wait before a
REGEN wisp, the member table as a mask, the last SEQ accepted of each SRC, the last DST, a wisp to forward (its RUN_START and instant), the count of sent wisps and the latest sent, the
end of the minimum-awake time, the instant from which the maximum-awake timer runs and what it has counted before, the control block's consent, the wake that Heron latched, the wake that
is being acted on, whether its sleep action is in force, and the level at which the peat domain holds CANn_STB since a reset (R348). -/
structure NmSeg where
  since : Nat
  changes : Nat
  ring : Nat
  regen : Option Nat
  members : Nat
  lastSeq : List (Nat × Nat)
  lastDst : Option Nat
  forward : Option (Nat × Nat)
  seq : Nat
  sent : Option NmFrame
  minEnd : Nat
  maxStart : Option Nat
  maxRun : Nat
  ctl : Bool
  latched : Option Nat
  src : Nat
  asleep : Bool
  level : Option Bool
  deriving DecidableEq, Repr

/-- The NM block: its segments and its event queue (R349). -/
structure NmSt where
  segs : Vector NmSeg 35
  queue : List MailItem
  deriving DecidableEq, Repr

/-- A held item of a thread (R152, R153): its handle, the queue it came from, what the home block knows it by (and its generation), its packet when it is one, with the packet's length (the bytes
kept may be more), and the status its home
block has ended it with. -/
structure Hold where
  handle : Nat
  qid : Nat
  ref : Nat
  gen : Nat
  pkt : Option Packet
  len : Nat
  ended : Option Status
  deriving DecidableEq, Repr

/-- A lookup of the table unit that an instruction waits for (R143): the operands that it read, and the address of its payload. -/
inductive LookOp where
  | lkp (nd : Fin 32) (id : Nat)
  | lkpw (nd : Fin 32) (id : Nat) (d : List Byte)
  | lkps (nd : Fin 32) (key k : Nat)
  | sigrd (nd : Fin 32) (id addr : Nat)
  | sigwr (nd : Fin 32) (id addr : Nat) (value : Word)
  deriving DecidableEq, Repr

/-- What a waiting thread waits for (R143): an event of a mask, with the register that takes it; a crypto job, with its tag and register; the end of its accesses; the data
of a load (size and local address); the response of an atomic; a free posted-store slot, with the store; a lookup, with the lines that have been counted. The last four carry the
instruction's index and word. -/
inductive EngWait where
  | event (nd : Fin 32) (mask : Word)
  | crypto (nd : Fin 32) (tag : Nat)
  | fence
  | load (nd : Fin 32) (size addr pc word : Nat)
  | atomic (nd : Fin 32) (add : Bool) (addr : Nat) (v : Word) (pc word : Nat)
  | store (size addr data pc word : Nat)
  | lookup (op : LookOp) (counted pc word : Nat)
  | result
  deriving DecidableEq, Repr

/-- A thread of an engine beside its registers (R139): n0-n31, the packet window, the handle of the selected packet, the hold table, the time alarm in units of 2^-16 ns, the latched
events (alarm, frame start, doorbell: R159), its wait, its outstanding posted stores with their words, oldest first (R189), the threads that must issue before it after a YIELD, whether its budget was passed in this frame
(R164, R173), and for how many issues of the other threads it may be passed over for a result or a branch of its latest instruction (R182, R183). -/
structure EngThr where
  n : Vector Word 32
  window : Vector Byte 256
  selected : Option Nat
  holds : List Hold
  alarm : Option Nat
  evAlarm : Bool
  evFrame : Bool
  evBell : Bool
  wait : Option EngWait
  posted : List (Nat × Nat)
  passed : List Nat
  overFrame : Bool
  slack : Nat
  deriving DecidableEq, Repr

/-- How an output of the power die is driven (R389, R400); `high` is ON for an output that is no half-bridge, and `low` is of half-bridges alone. -/
inductive PdDrive where
  | off
  | high
  | low
  | pwm (duty freq : Nat)
  deriving DecidableEq, Repr

/-- What control drives an output (R364, R386): the latest command, the off state of a control loss, the held state, the limp state, the limp state that CLAIM has left it. -/
inductive PdMode where
  | cmd
  | off
  | held
  | limp
  | kept
  deriving DecidableEq, Repr

/-- An output of the power die beside its registers: its commanded state, what controls it, whether it waits for its restore (R384), the end of its inrush window, the
wire-heating value (R370) and the latest mean square current in mA² with the loss in mW (R379) and the loss before it was shed (R380), the end of its hold timer, the
instant from which its on-phases run in order (R365) or it is on, and the end of an on-phase that a realignment found running. -/
structure PdCh where
  cmd : PdDrive
  mode : PdMode
  wait : Bool
  inrushEnd : Nat
  w : Rat
  isq : Nat
  loss : Rat
  shedLoss : Rat
  holdDue : Option Nat
  phase : Nat
  tail : Nat
  deriving DecidableEq, Repr

/-- A command that waits in a load-channel queue (R358), with the instant of its submission. -/
structure PdCmd where
  w0 : Nat
  w1 : Nat
  w2 : Nat
  w3 : Nat
  at_ : Nat
  deriving DecidableEq, Repr

/-- A TEST command that has not ended (R374): its queue, TAG and output, the instant it was applied, and the end of its pulse once it runs. -/
structure PdTest where
  src : Nat
  tag : Nat
  ch : Fin 48
  since : Nat
  pulse : Option Nat
  deriving DecidableEq, Repr

/-- The power die and its queues beside their registers (chapter 10): the outputs by channel index, the command queues, the NM block's switch-off commands, the tests, the instant of the
latest application, the completion records software has not seen, the instant at which both lanes fell silent, the die's own measure of the Bellows stages (samples towards a change,
stages entered, thresholds last sent), the thermal groups' next shed instants and whether they hold outputs shed, the last 1,000 losses with the budget's conditions, the next restore
instant, and the OTP records. -/
structure PdSt where
  ch : Vector PdCh 48
  cq : Vector (List PdCmd) 4
  nmq : List Nat
  tests : List PdTest
  lastApply : Nat
  unread : Vector Nat 4
  silent : Nat
  stageCnt : Vector Nat 4
  stageIn : Vector Bool 4
  th : Vector Nat 4
  tgDue : Vector (Option Nat) 6
  tgHeld : Vector Bool 6
  win : List Rat
  warnOn : Bool
  overOn : Bool
  budgetOn : Bool
  c4 : Bool
  budgetDue : Nat
  nextRestore : Nat
  otp : Vector (Option (Word × Word × Word × Word)) 48
  deriving DecidableEq, Repr

/-- The field inputs beside their registers (R392-R394): the latest sample of each digital input with the count of equal ones, the level and the latest poll of each wake input, the
latest conversions of each analogue input, and the inputs outside their window. `closed` is what the comparator of each digital input shows (R601). -/
structure FioSt where
  closed : BitVec 48
  last : BitVec 48
  count : Vector Nat 48
  pollBase : BitVec 48
  pollLast : BitVec 48
  hist : Vector (List Nat) 16
  out : BitVec 16
  deriving DecidableEq, Repr

/-- A line of the signal cache (R309): of the source index or of definitions, its number, its 64 bytes, whether it is pinned. -/
structure SigLine where
  idx : Bool
  line : Nat
  data : List Byte
  pinned : Bool
  deriving DecidableEq, Repr

/-- A seal that waits to be posted (R326): its reasons and the VT and epoch of its latest trigger. -/
structure SealReq where
  reason : Nat
  time : Nat
  epoch : Nat
  deriving DecidableEq, Repr

/-- A crash image that is being written (R330, R331): its slot, the ring frozen (oldest first), the 260 bytes of its seal, the status of its signature job, and the
instant of the trigger. -/
structure CrashImg where
  slot : Nat
  ring : List (BitVec 128)
  head : List Byte
  status : Status
  at_ : Nat
  deriving DecidableEq, Repr

/-- A definition command that runs (R639): whether it writes, whether it was refused when it was made, its definition and data, and whether its lookup is counted. -/
structure DefCmd where
  write : Bool
  refused : Bool
  idx : Nat
  data : List Byte
  counted : Bool
  deriving DecidableEq, Repr

/-- The SIG unit beside its registers and its control block (chapter 08): the conversion table (none: an entry held invalid), the cache with the latest used line first, the fills
outstanding or waiting, oldest first, the fill that has just failed (none between commands), a definition command that runs; of the open chain the blocks closed, the records of the open block, the checkpoint number, the records kept and lost, the records that met a full ring since the latest LOSS record, the instant the pending
seal was posted and whether it was reported late, the merged seal, the raw count of the next periodic seal; the crash ring (newest first), the block of its newest record, whether it was kept
through a warm reset, the images begun (the first is being written), and the device's count of them. -/
structure SigSt where
  conv : List (Option (BitVec 128))
  cache : List SigLine
  fills : List (Bool × Nat)
  failed : Option (Bool × Nat)
  defCmd : Option DefCmd
  prod : Nat
  blk : Nat
  k : Nat
  records : Nat
  lost : Nat
  ringLoss : Nat
  sealAt : Option Nat
  sealLate : Bool
  merged : Option SealReq
  sealNext : Nat
  crash : List (BitVec 128)
  newest : Nat
  kept : Bool
  images : List CrashImg
  imageCount : Nat
  deriving DecidableEq, Repr

/-- An entry of the Causeway error log (R435). -/
structure CwyErr where
  addr : Nat
  status : Nat
  init : Nat
  part : Nat
  be : Nat
  ns : Nat
  deriving DecidableEq, Repr

/-- A TCM copy that runs, as TCMCPY_CTL.GO took it (R412): the source, the length, the target and the offset in its TCM. -/
structure TcmCopy where
  src : Nat
  len : Nat
  target : Nat
  ofs : Nat
  deriving DecidableEq, Repr

/-- The memory island and the Causeway beside their registers (chapter 11): each initiator's ATOM_ADDR, ATOM_OLD and ATOM_STAT (R419), a TCM copy that runs, whether HC runs the boot ROM
path (R412), the 8-byte words whose latest read met an uncorrectable error and that nothing has written since (R421), the harts' reservations on bank words with their instants (R418), the lock of the peripheral fabric with its hart, address and instant (R427), the error log, its shadows
and the entry popped last (R432). -/
structure CwySt where
  atom : List (Nat × (Nat × Nat × Nat))
  copy : Option TcmCopy
  hcBoot : Bool
  bad : List Nat
  resv : Vector (Option (Nat × Nat)) 8
  lock : Option (Fin 8 × Nat × Nat)
  log : List CwyErr
  shadows : List (Nat × CwyErr)
  undo : Option CwyErr
  deriving DecidableEq, Repr

/-- What the manual gives a hart towards the block: its world bit (R463), mode and guest, the registers WCALL and its return read and write
(R471, R472), the instant it entered Anvil (R473), the instant at which Bellows parks it and whether it has (R566), whether a logic-BIST window
holds it in reset (R587), and the cause of the latest exception the Z480 raised in it (0: none). -/
structure Hart where
  world : Bool
  mode : Mode
  virt : Bool
  vmid : Nat
  pc : BitVec 64
  mepc : BitVec 64
  mcause : BitVec 64
  mpp : Mode
  mpie : Bool
  mie : Bool
  a0 : BitVec 64
  anvilSince : Nat
  parkDue : Option Nat
  parked : Bool
  bistHeld : Bool
  bistFailed : Bool
  exc : Nat
  deriving DecidableEq, Repr

/-- A violation record (R467, R489). -/
structure Violation where
  addr : Nat
  init : Nat
  world : Bool
  inst : Nat
  write : Bool
  cause : Nat
  deriving DecidableEq, Repr

/-- A page entry held by an ownership cache (R468): the port, the page and the table entry it keeps. -/
structure OwnEntry where
  port : Nat
  page : Nat
  entry : Nat
  deriving DecidableEq, Repr

/-- The ownership unit beside its registers (chapter 13): the caches' entries; the violation FIFO, its shadows and the entry popped last (R432); an invalidation that runs (one page, or all);
the ends of the tongs timers (0: it has run out); the life-cycle state and the one blown for the next power-on; the end of the Hearth watchdog's period (0: it does not count yet) and its first
expiry. -/
structure OwnSt where
  cache : List OwnEntry
  viol : List Violation
  violShadow : List (Nat × Nat)
  undo : Option Violation
  inval : Option (Option Nat)
  tongsDue : Vector Nat 27
  lc : Nat
  lcPending : Nat
  kickDue : Nat
  firstExpiry : Option Nat
  deriving DecidableEq, Repr

/-- The interrupt controller beside its registers (chapter 12): the latched edge requests of sources 768-1023, the priority stack of each processor target (source and
priority, top first) with the latest claim and whether it took a latched request (R432), and the pending bits of each engine. -/
structure IcSt where
  edge : BitVec 256
  stack : Vector (List (Nat × Nat)) 13
  undo : Vector (Option (Nat × Bool)) 13
  bits : Vector (BitVec 1024) 24
  deriving DecidableEq, Repr

/-- Heron beside its registers (R452-R459): whether the sleep asked for is DEEP, the step of its entry, the islands the entry has stopped, the next entry of the wake order and the
instant its wait ends, the end of the regulators' wait, the VT recorded at sleep entry with its instant, and the instant the RTC counts from. -/
structure HeronSt where
  deep : Bool
  step : Nat
  stopped : List (Fin 21)
  order : Nat
  due : Nat
  rec_ : Option (Nat × Nat)
  rtcBase : Nat
  deriving DecidableEq, Repr

/-- Who submitted a crypto job (R545, R548): a thread with its tag, the host (and whether HC did), an item of a virtual instance. -/
inductive CrySub where
  | engine (e : Fin 24) (t : Fin 4) (tag : Nat)
  | host (hc : Bool)
  | vqi (inst : Fin 32) (item gen : Nat)
  deriving DecidableEq, Repr

/-- A crypto job: its submitter, the identity of its accesses (cache, code, world, instance), where its descriptor lies and the descriptor's 64 bytes, and the status that the loss of its
submitter has given it (R168, R549). -/
structure CryJob where
  id : Nat
  sub : CrySub
  port : Nat
  code : Nat
  world : Bool
  inst : Nat
  at_ : Nat
  desc : List Byte
  drop : Option Status
  deriving DecidableEq, Repr

/-- A key part that a job is about to load: the part, its key, its type and attributes, its uses and its KCV (R540, R546). -/
structure KeyLoad where
  part : Fin 128
  key : List Byte
  type : Nat
  attr : Nat
  uses : Nat
  kcv : List Byte
  deriving DecidableEq, Repr

/-- The job that a unit of the crypto engine runs, with what it has computed: its status, RESULT, its output and the key it loads. -/
structure CryRun where
  job : CryJob
  status : Status
  result : Nat
  out : List Byte
  load : Option KeyLoad
  deriving DecidableEq, Repr

/-- The key RAM and the crypto engine beside their registers (chapter 16): the key of each part (active part of slot s at 2 × s, shadow at 2 × s + 1), the jobs that wait in order of arrival,
the running job of the SYM and of the PK unit, the jobs of threads that have completed and are not collected, and the tamper sources that alarm now. -/
structure KeySt where
  keys : Vector (List Byte) 128
  queue : List CryJob
  sym : Option CryRun
  pk : Option CryRun
  nextId : Nat
  coll : List ((Fin 24 × Fin 4 × Nat) × Status)
  alarms : List Nat
  deriving DecidableEq, Repr

/-- A settings-flash command (R518, R519): its operation (1 ERASE_4K, 2 ERASE_64K, 3 PROGRAM), range and bytes, whether it waits for the crash sequence, the instant its 2 s pass, the
instant of the next suspend grant, and the instant it was suspended. -/
structure XspiCmd where
  op : Nat
  addr : Nat
  len : Nat
  data : List Byte
  waiting : Bool
  due : Nat
  grant : Nat
  susp : Option Nat
  deriving DecidableEq, Repr

/-- What the boot and the settings memory keep beside their registers: the rollback fuse count, the slot that ALT excludes from the next selection, the flash command, the earliest instant at which
the core die leaves reset while it is held there (R572), and the instant of the next attempt of a boot without a valid slot (R528; 0: none). -/
structure BootSt where
  rollback : Nat
  exclude : Option Nat
  cmd : Option XspiCmd
  inReset : Option Nat
  retryAt : Nat
  deriving DecidableEq, Repr

/-- Bellows, the watchdogs and the self-test windows beside their registers (chapter 17): the samples in a row that lie below TH_k and at or above TH_k + 300 mV, the stages that are
entered, the threads, segments and islands that Bellows has stopped or forced, the instant by which the engine of the sealing program stops, the ports that are closed, and the instant at which a port that is being closed loses what it still holds (R245),
whether the thermal limit is in force, and the islands that it has clocked down; the instant at which the watchdog's period began, whether it runs, the instant of the first word of a kick; the instant each
heartbeat channel was kicked last; the instant of the self-test request and of its grant. -/
structure BlwSt where
  low : Vector Nat 4
  high : Vector Nat 4
  entered : Vector Bool 4
  stopped : List (Fin 96)
  forced : List (Fin 35)
  logStop : Option Nat
  shut : List (Fin 18)
  shutDue : Nat
  thermOn : Bool
  thermal : List (Fin 21)
  wdStart : Nat
  wdOn : Bool
  wdFirst : Option Nat
  hbKick : Vector Nat 16
  bistAsk : Nat
  bistEnd : Nat
  deriving DecidableEq, Repr

/-- The log sink (R321): records of 16 bytes as numbers, oldest first, and the records lost since the latest LOSS record. -/
structure LogSt where
  sink : List (BitVec 128)
  loss : Nat
  deriving DecidableEq, Repr

end Sys2Proof.Machine
end

