-- ==== Sys2Proof/Machine/State.lean ====
section
/-!
DEFINITION. The state of the block, the reasons a step can stop, and the state after reset.
-/
namespace Sys2Proof.Machine

/-- The reasons a command stops the machine. -/
inductive Fault where
  /-- No command raises it: every error of this block is a status, an event or a trap of a thread, which are next states (R9, R166). Safe. -/
  | none
  deriving DecidableEq, Repr

/-- The reasons a command has no meaning here. -/
inductive Refusal where
  /-- The command has no meaning in this model yet. Raised by the dispatch alone. Safe. -/
  | notModelled (mnemonic : String)
  deriving DecidableEq, Repr

/-- The whole block. -/
structure State where
  /-- The commands that wait, first in first out (the model's own field). -/
  pending : List Instr
  /-- Every stored register, by physical address; an unlisted one holds its reset value (R4). -/
  regs : List (Nat × Word)
  /-- Every byte of the boot ROM, the shared banks, the engine RAMs and the DRAM, by physical address (R32). -/
  mem : List Host.Cell
  /-- How many resets have left DRAM undefined (the model's own field). -/
  dram : Nat
  /-- Every byte of the settings flash, by flash offset; an erased one reads 0xFF (R516, R526). -/
  flash : List Host.Cell
  cwy : CwySt
  /-- True time in ns (the model's own field). -/
  now : Nat
  /-- The last response to an initiator (the model's own field). -/
  resp : Resp
  /-- How many free values have been used (the model's own field). -/
  fresh : Nat
  isl : Vector Island 21
  time : TimeSt
  log : LogSt
  sig : SigSt
  harts : Vector Hart 8
  /-- Whether the rail and clock of domain A, of domain B, are valid (R30, R31). -/
  railA : Bool
  railB : Bool
  own : OwnSt
  trg : Vector Trigger 16
  cap : Vector Capture 16
  /-- The private shadows of the triggers' LAST registers, by trigger and initiator (R115). -/
  trgShadows : List (Nat × Nat)
  cam : Vector CamSt 4
  can : Vector CanSt 12
  lin : Vector LinSt 6
  nm : NmSt
  /-- The threads of the engines: thread `t` of NE`e` is at 4 × e + t. -/
  eng : Vector EngThr 96
  /-- The thread of each engine that issued last (R141). -/
  issuer : Vector (Fin 4) 24
  sw : SwSt
  vqi : VqiSt
  /-- The mailboxes MB0-MB95 (R151), oldest item first. -/
  mbox : Vector (List MailItem) 96
  /-- Requests of interrupt sources that have no status bit of their own, held until they are delivered (assumption 13). -/
  pulses : List Nat
  pd : PdSt
  fio : FioSt
  ic : IcSt
  /-- The real-time pairs L0-L3, as their programs and vector assist last left them. -/
  pair : Vector PairRegs 4
  heron : HeronSt
  key : KeySt
  boot : BootSt
  blw : BlwSt
  deriving DecidableEq, Repr

def Island.init : Island := ⟨.run, 0, false, false, false, false, 0⟩

def TimeIsl.init : TimeIsl := ⟨0, 0, 0, 0, Vector.replicate 96 0, Vector.replicate 96 0, true, []⟩

def TwinDir.init : TwinDir := ⟨none, none, none, none, 0, none, false⟩

def TimeSt.init : TimeSt :=
  { ta := TimeIsl.init, tb := TimeIsl.init, mraw := 0, peatF := Vector.replicate 96 0, peatC := Vector.replicate 96 0, queue := [],
    prevRx := none, goodRun := 0, lockFirst := true, src := none, srcBefore := none, refusedSrc := none, stepSrc := none, fromUnsync := false, persistFirst := none,
    persistCnt := 0, stepVal := 0, stepAt := none, holdInteg := 0, beyond := false, holdDone := false, tempA := 0, tempB := 0, lastFed := 0, holdSince := none, setPend := none,
    srcChanged := false, accepted := none, resyncReq := false, splitHold := false, splitFirst := none, splitRun := 0,
    readmit := 0, skipCompare := false, twin0 := TwinDir.init, twin1 := TwinDir.init, joint := false, ppsLast := none, ppsSince := 0,
    ppsLost := false, past := [], shadows := [] }

def Hart.init : Hart := ⟨false, .m, false, 0, 0, 0, 0, .m, false, false, 0, 0, none, false, false, false, 0⟩

def OwnSt.init : OwnSt :=
  ⟨[], [], [], none, none, Vector.replicate 27 0, Config.lifeCycle % 4, Config.lifeCycle % 4, 0, none⟩

def Trigger.init : Trigger := ⟨0, none, 0, [], none⟩

def Capture.init : Capture := ⟨[], none, false, [], none⟩

def CamSt.init : CamSt := ⟨Vector.replicate 16 none, [], [], 1, Vector.replicate 16 0, Vector.replicate 16 false, 0⟩

def CanSt.init : CanSt :=
  { rxq := [], popped := [], engHeld := [], undo := none, locks := [], shadow := [], items := [], nextSeq := 0, cur := none, engCount := 0, cplCount := 0,
    alone := false, updates := [], cells := [], refNext := 0, refDue := none, refIdx := 0, cycleAt := none, lastRef := none, window := none }

def LinSt.init : LinSt := ⟨[], none, [], 0, 0, none, []⟩

def NmSeg.init : NmSeg :=
  { since := 0, changes := 0, ring := 0, regen := none, members := 0, lastSeq := [], lastDst := none, forward := none, seq := 0, sent := none,
    minEnd := 0, maxStart := none, maxRun := 0, ctl := false, latched := none, src := 0, asleep := false, level := none }

def NmSt.init : NmSt := ⟨Vector.replicate 35 NmSeg.init, []⟩

def EngThr.init : EngThr :=
  { n := Vector.replicate 32 0, window := Vector.replicate 256 0, selected := none, holds := [], alarm := none, evAlarm := false, evFrame := false,
    evBell := false, wait := none, posted := [], passed := [], overFrame := false, slack := 0 }

def SwSt.init : SwSt :=
  { tbl := [], refreshed := [], sgPend := [], frames := [], allocs := [], nextId := 1, tx := Vector.replicate 18 none,
    preempted := Vector.replicate 18 none, eQueue := Vector.replicate 8 [], gateArm := Vector.replicate 23 none,
    operLen := Vector.replicate 23 0, credits := [], meters := [], frer := [], verify := Vector.replicate 6 0, verifyAt := Vector.replicate 6 0, lastEnd := Vector.replicate 18 0,
    subCount := Vector.replicate 24 0, ringNext := Vector.replicate 16 0, lines := [], launches := [], ecplCount := 0,
    tc10Due := Vector.replicate 18 0 }

def VqiSt.init : VqiSt :=
  ⟨[], [], 1, Vector.replicate 4 0, [], Vector.replicate 4 0, Vector.replicate 32 0, Vector.replicate 32 0, none⟩

/-- An output after a power-die restart: W is 0.5 (R370). -/
def PdCh.init : PdCh := ⟨.off, .cmd, false, 0, 1 / 2, 0, 0, 0, none, 0, 0⟩

/-- The power die at power-on (R382 gives its thresholds in mV); its restart and hold timers are the row PD_RESTART. -/
def PdSt.init : PdSt :=
  { ch := Vector.replicate 48 PdCh.init, cq := Vector.replicate 4 [], nmq := [], tests := [], lastApply := 0, unread := Vector.replicate 4 0, silent := 0,
    stageCnt := Vector.replicate 4 0, stageIn := Vector.replicate 4 false, th := #v[9000, 7500, 6500, 5500], tgDue := Vector.replicate 6 none,
    tgHeld := Vector.replicate 6 false, win := [], warnOn := false, overOn := false, budgetOn := false, c4 := false, budgetDue := 0, nextRestore := 0,
    otp := Vector.replicate 48 none }

def FioSt.init : FioSt := ⟨0, 0, Vector.replicate 48 0, 0, 0, Vector.replicate 16 [], 0⟩

def SigSt.init : SigSt := ⟨[], [], [], none, none, 0, 0, 0, 0, 0, 0, none, false, none, 0, [], 0, false, [], 0⟩

/-- HC runs the boot ROM path at power-on (R412). -/
def CwySt.init : CwySt := ⟨[], none, true, [], Vector.replicate 8 none, none, [], [], none⟩

def IcSt.init : IcSt := ⟨0, Vector.replicate 13 [], Vector.replicate 13 none, Vector.replicate 24 0⟩

def PairRegs.init : PairRegs := ⟨Vector.replicate 16 0, 0, 0, 0, 0, 0, 0, 0, 0, .m⟩

def HeronSt.init : HeronSt := ⟨false, 0, [], 0, 0, none, 0⟩

def KeySt.init : KeySt := ⟨Vector.replicate 128 [], [], none, none, 1, [], []⟩

def BootSt.init : BootSt := ⟨Config.rollback % 65, none, none, none, 0⟩

/-- The chip watchdog runs from the end of every chip-level reset (R577). -/
def BlwSt.init : BlwSt :=
  { low := Vector.replicate 4 0, high := Vector.replicate 4 0, entered := Vector.replicate 4 false, stopped := [], forced := [], logStop := none,
    shut := [], shutDue := 0, thermOn := false, thermal := [], wdStart := 0, wdOn := true, wdFirst := none, hbKick := Vector.replicate 16 0, bistAsk := 0, bistEnd := 0 }

def LogSt.init : LogSt := ⟨[], 0⟩

/-- The block at the end of a power-on: every island in RUN (R21, R529), every register at its reset value (R4), VT 0 in UNSYNC with TA
as master (R39, R41). -/
def State.reset : State :=
  { pending := [], regs := [], mem := [], dram := 0, flash := [], cwy := CwySt.init, now := 0, resp := ⟨.done, 0⟩, fresh := 0, isl := Vector.replicate 21 Island.init,
    time := TimeSt.init, log := LogSt.init, sig := SigSt.init,
    harts := Vector.replicate 8 Hart.init, railA := true, railB := true, own := OwnSt.init,
    trg := Vector.replicate 16 Trigger.init, cap := Vector.replicate 16 Capture.init, trgShadows := [],
    cam := Vector.replicate 4 CamSt.init, can := Vector.replicate 12 CanSt.init, lin := Vector.replicate 6 LinSt.init, nm := NmSt.init,
    eng := Vector.replicate 96 EngThr.init, issuer := Vector.replicate 24 3, sw := SwSt.init, vqi := VqiSt.init, mbox := Vector.replicate 96 [], pulses := [],
    pd := PdSt.init, fio := FioSt.init, ic := IcSt.init, pair := Vector.replicate 4 PairRegs.init, heron := HeronSt.init,
    key := KeySt.init, boot := BootSt.init, blw := BlwSt.init }

end Sys2Proof.Machine
end

