-- ==== Sys2Proof/Machine/Ops.lean ====
section
/-!
DEFINITION. The named operations over registers, memory, responses, free values and events that every meaning is written with.
The state is the last argument, so that an effect reads in the order in which it happens.
-/
namespace Sys2Proof.Machine

/-- A sequence of bits of a number, `[hi:lo]` (R3). -/
def bits (v hi lo : Nat) : Nat := v / 2 ^ lo % 2 ^ (hi + 1 - lo)

/-- The value of a two's complement field of `w` bits. -/
def signedOf (w v : Nat) : Int := if v < 2 ^ (w - 1) then (v : Int) else (v : Int) - 2 ^ w

/-- A number as a two's complement field of `w` bits. -/
def toField (w : Nat) (i : Int) : Nat := (i % (2 ^ w : Int)).toNat

/-- A number clamped to a range. -/
def clampNat (lo hi v : Nat) : Nat := max lo (min hi v)

/-- A signed number clamped to a range. -/
def clampInt (lo hi v : Int) : Int := max lo (min hi v)

/-- The nearest whole number, halves away from zero (DESIGN CHOICE, assumption 7: the manual names units, not a rounding). -/
def roundNearest (q : Rat) : Int := if 0 ≤ q then (q + 1 / 2).floor else -((-q + 1 / 2).floor)

/-- The whole number towards zero. -/
def roundZero (q : Rat) : Int := if 0 ≤ q then q.floor else -((-q).floor)

/-- Replaces the bits `[hi:lo]` of a word. -/
def insertBits (w : Word) (hi lo v : Nat) : Word :=
  (w &&& ~~~(BitVec.ofNat 32 ((2 ^ (hi + 1 - lo) - 1) * 2 ^ lo))) ||| BitVec.ofNat 32 (v % 2 ^ (hi + 1 - lo) * 2 ^ lo)

/-! ### Registers -/

/-- What a register holds (R2). -/
def rd (a : Nat) (s : State) : Word := sget resetVal s.regs a

/-- Gives a register a value. -/
def wr (a : Nat) (v : Word) (s : State) : State := { s with regs := sput resetVal a v s.regs }

/-- What a field holds. -/
def fget (f : Fld) (s : State) : Nat := bits (rd f.addr s).toNat f.hi f.lo

/-- What a two's complement field holds. -/
def fgetI (f : Fld) (s : State) : Int := signedOf (f.hi + 1 - f.lo) (fget f s)

/-- Whether a field is not zero. -/
def ftst (f : Fld) (s : State) : Bool := fget f s != 0

/-- Gives a field a value. -/
def fput (f : Fld) (v : Nat) (s : State) : State := wr f.addr (insertBits (rd f.addr s) f.hi f.lo v) s

/-- Gives a two's complement field a value. -/
def fputI (f : Fld) (v : Int) (s : State) : State := fput f (toField (f.hi + 1 - f.lo) v) s

/-- Gives a two's complement field a value, saturating. -/
def fputSat (f : Fld) (v : Int) (s : State) : State :=
  fputI f (clampInt (-(2 ^ (f.hi - f.lo))) (2 ^ (f.hi - f.lo) - 1) v) s

/-- Sets bit `n` of an event or status field. -/
def raise (f : Fld) (n : Nat) (s : State) : State := wr f.addr (rd f.addr s ||| BitVec.ofNat 32 (2 ^ (f.lo + n))) s

/-- Clears bit `n` of a field. -/
def lower (f : Fld) (n : Nat) (s : State) : State := wr f.addr (rd f.addr s &&& ~~~(BitVec.ofNat 32 (2 ^ (f.lo + n)))) s

/-- Whether bit `n` of a field is set. -/
def fbit (f : Fld) (n : Nat) (s : State) : Bool := (rd f.addr s).getLsbD (f.lo + n)

/-- Adds to a 32-bit counter that saturates at 0xFFFF_FFFF. -/
def bumpBy (n : Nat) (a : Nat) (s : State) : State := wr a (BitVec.ofNat 32 (min 0xFFFFFFFF ((rd a s).toNat + n))) s

/-- Counts one event in a saturating counter. -/
def bump (a : Nat) (s : State) : State := bumpBy 1 a s

/-- Clears registers. -/
def clearRegs (as : List Nat) (s : State) : State := as.foldl (fun s a => wr a 0 s) s

/-- Puts the registers of a range of addresses back to their reset values. -/
def dropRegs (lo hi : Nat) (s : State) : State := { s with regs := sdrop lo hi s.regs }

/-! ### Memory -/

/-- What a byte of memory that nothing has written reads as: zero (R413); of DRAM an open value after each of the resets of R640 (assumption 6). -/
def memDflt (n a : Nat) : Byte := if 0x800000000 ≤ a ∧ a < 0xA00000000 then BitVec.ofNat 8 (Config.dramByte n a) else 0

/-- Reads one byte of memory. -/
def mrd (a : Nat) (s : State) : Byte := sget (memDflt s.dram) s.mem a

/-- A write to a bank word clears the reservations that harts hold on it (R418); a write of a word ends its uncorrectable error (assumption 10). -/
def clearResv (a : Nat) (s : State) : State :=
  { s with cwy := { s.cwy with bad := s.cwy.bad.filter (fun k => k != a / 8), resv := s.cwy.resv.map fun r => if r.any (fun p => p.1 == a / 16) then none else r } }

/-- Writes one byte of memory. -/
def mwr (a : Nat) (v : Byte) (s : State) : State := clearResv a { s with mem := sput (memDflt s.dram) a v s.mem }

/-- The `n` bytes from an address, as a little-endian number (R2). -/
def mrdN (a : Nat) : Nat → State → Nat
  | 0, _ => 0
  | n + 1, s => (mrd a s).toNat + 256 * mrdN (a + 1) n s

/-- Writes the `n` low bytes of a number from an address, little-endian (R2). -/
def mwrN (a : Nat) : Nat → Nat → State → State
  | 0, _, s => s
  | n + 1, v, s => mwrN (a + 1) n (v / 256) (mwr a (BitVec.ofNat 8 v) s)

/-- The bytes from an address. -/
def mrdBytes (a n : Nat) (s : State) : List Byte := (List.range n).map fun i => mrd (a + i) s

/-- Writes bytes from an address. -/
def mwrBytes (a : Nat) : List Byte → State → State
  | [], s => s
  | b :: bs, s => mwrBytes (a + 1) bs (mwr a b s)

/-- Empties a range of memory. -/
def dropMem (lo hi : Nat) (s : State) : State := { s with mem := sdrop lo hi s.mem }

/-- The canonical form of memory. -/
def Memory.wf (n : Nat) (m : List Host.Cell) : Bool := swf (memDflt n) m

/-- Bytes as a little-endian number. -/
def leNat : List Byte → Nat
  | [] => 0
  | b :: bs => b.toNat + 256 * leNat bs

/-- The `n` low bytes of a number, little-endian. -/
def leBytes : Nat → Nat → List Byte
  | 0, _ => []
  | n + 1, v => BitVec.ofNat 8 v :: leBytes n (v / 256)

/-- Bytes as a big-endian number, as the wires carry it. -/
def beNat (l : List Byte) : Nat := l.foldl (fun n b => n * 256 + b.toNat) 0

/-- The `n` low bytes of a number, big-endian. -/
def beBytes (n v : Nat) : List Byte := (leBytes n v).reverse

/-! ### Responses and free values -/

/-- The answer to the initiator of an access. -/
def answer (st : Status) (d : Nat) (s : State) : State := { s with resp := ⟨st, BitVec.ofNat 32 d⟩ }

/-- A normal response. -/
def ok (s : State) : State := answer .done 0 s

/-- An error response: the access is ignored. -/
def bad (s : State) : State := answer .failedRefused 0 s

/-- Takes the next free value (assumption 3): a step that uses one advances the counter. -/
def useFree (s : State) : State := { s with fresh := s.fresh + 1 }

/-- The free value that a step may use. -/
def freeVal (s : State) : Nat := Config.freeNat s.fresh

/-- Does an effect when a condition holds. -/
def whenB (c : Bool) (f : State → State) (s : State) : State := if c then f s else s

/-- Does an effect for each of the first `n` numbers, in order. -/
def forN (n : Nat) (f : Nat → State → State) (s : State) : State := (List.range n).foldl (fun s i => f i s) s

/-- Does an effect for each member of a fixed family, in index order. -/
def forFin (n : Nat) (f : Fin n → State → State) (s : State) : State := (List.finRange n).foldl (fun s i => f i s) s

/-- Asserts an interrupt source that has no status bit of its own: the request is held until it is delivered (assumption 13). -/
def pulse (src : Nat) (s : State) : State := if s.pulses.contains src then s else { s with pulses := s.pulses ++ [src] }

/-- The first `n` numbers that meet a condition. -/
def mask (n : Nat) (f : Nat → Bool) : List Nat := (List.range n).filter f

/-! ### Islands (R16) -/

/-- The state of an island. -/
def islSt (i : Fin 21) (s : State) : IslState := s.isl[i.1].st

/-- Whether an island's clock runs and its gates are open (R21). -/
def islOpen (i : Fin 21) (s : State) : Bool :=
  match islSt i s with
  | .run | .slow => true
  | _ => false

/-- Changes an island. -/
def updIsl (i : Fin 21) (f : Island → Island) (s : State) : State := { s with isl := upd s.isl i f }

def islPEAT : Fin 21 := 0
def islMEM : Fin 21 := 1
def islCWY : Fin 21 := 2
def islHC : Fin 21 := 3
def islCLA : Fin 21 := 4
def islCLB : Fin 21 := 5
def islL (p : Fin 4) : Fin 21 := ⟨6 + p.1, by omega⟩
def islG (g : Fin 4) : Fin 21 := ⟨10 + g.1, by omega⟩
def islSW0 : Fin 21 := 14
def islSW1 : Fin 21 := 15
def islCAM0 : Fin 21 := 16
def islCAM1 : Fin 21 := 17
def islTA : Fin 21 := 18
def islTB : Fin 21 := 19
def islSWP : Fin 21 := 20

/-- The island that holds an engine (R16). -/
def engIsl (e : Fin 24) : Fin 21 := ⟨10 + e.1 / 6, by omega⟩

/-- The islands that a domain feeds alone (R28). -/
def domainIslands : Domain → List (Fin 21)
  | .a => [islCLA, islL 0, islL 1, islG 0, islG 1, islSW0, islCAM0, islTA]
  | .b => [islCLB, islL 2, islL 3, islG 2, islG 3, islSW1, islCAM1, islTB]

/-- Whether a thread is reserved for the gPTP program: NE0 t0, and NE12 t0 while GPTP_STBY = 1 (R51, R175). -/
def thrReserved (e t : Nat) (s : State) : Bool := t == 0 && (e == 0 || (e == 12 && ftst F.TIME_CTRL_GPTP_STBY s))

/-- The undo entry of a pop: only a hart may discard one; every other initiator's pop commits (R432). -/
def undoFor {α : Type} (w : Initiator) (x : α) : Option α :=
  match w with
  | .hart _ => some x
  | _ => none

/-- The number that a private shadow of an initiator is kept under (R40). -/
def initIdx : Initiator → Nat
  | .hart n => n.1
  | .pair n => 8 + n.1
  | .hc => 12
  | .thread e t => 16 + 4 * e.1 + t.1
  | .debug => 13

end Sys2Proof.Machine
end

