-- ==== Sys2Proof/Machine/Access.lean ====
section
/-!
DEFINITION. Register accesses: the home island of an address (R32-R35), the identity of an initiator (R463), the page ownership check
(R464-R470), and the shared path of every register command: ownership first, then the gate of the home island, then the effect.
-/
namespace Sys2Proof.Machine

/-- The number that names an initiator in fault and violation records (R316, R434). -/
def initCode : Initiator → Nat
  | .thread e _ => e.1
  | .hart n => 0x20 + n.1
  | .pair n => 0x28 + n.1
  | .hc => 0x2C
  | .debug => 0x40

/-- The world bit of an initiator's accesses (R463). -/
def initWorld (w : Initiator) (s : State) : Bool :=
  match w with
  | .hart n => s.harts[n.1].world
  | .pair _ => false
  | .hc => true
  | .thread e t => ftst (F.ENG_THR_CFG_t_WORLD e.1 t.1) s
  | .debug => ftst F.OWN_DBG_CFG_HEARTH_DBG s

/-- The VQI unit number (instance ID) of an initiator's accesses (R463). -/
def initInst (w : Initiator) (s : State) : Nat :=
  match w with
  | .hart n =>
    let h := s.harts[n.1]
    if h.world then 0
    else if h.virt && decide (h.vmid ≤ 63) && ftst (F.OWN_VMID_MAP_v_EN h.vmid) s then fget (F.OWN_VMID_MAP_v_INST h.vmid) s
    else fget (F.OWN_HART_CFG_h_HS_INST n.1) s
  | .pair p => fget (F.OWN_INIT_CFG_p_INST p.1) s
  | .hc => 0
  | .thread e t => fget (F.ENG_THR_CFG_t_INST e.1 t.1) s
  | .debug => 0

/-- The ownership cache an initiator is checked in (R468): one for each hart, each pair, each engine group and the MEM island's own. -/
def initPort : Initiator → Nat
  | .hart n => n.1
  | .pair n => 8 + n.1
  | .thread e _ => 12 + e.1 / 6
  | .hc => 16
  | .debug => 16

/-! ### The page ownership table -/

/-- Where the table entry of an address's page lies (R464); none where the address has no entry. -/
def ownEntryAddr (a : Nat) (s : State) : Option Nat :=
  if 0x800000000 ≤ a ∧ a < 0xA00000000 then some (fget F.OWN_PT_BASE_PAGE s * 4096 + 2 * ((a - 0x800000000) / 4096))
  else if a < 0x28000000 then some (fget F.OWN_PT_IO_BASE_PAGE s * 4096 + 2 * (a / 4096))
  else none

/-- Whether an address lies in either part of the table itself (R464, R466); the DRAM part has one entry for each page of the installed capacity. -/
def inOwnTable (a : Nat) (s : State) : Bool :=
  let d := fget F.OWN_PT_BASE_PAGE s * 4096
  let i := fget F.OWN_PT_IO_BASE_PAGE s * 4096
  (decide (d ≤ a) && decide (a < d + 2 ^ (19 + fget F.MEM_DRAM_CFG_SIZE s))) || (decide (i ≤ a) && decide (a < i + 2 * 163840))

/-- What a table entry allows a normal-world access (R465, R466). A reserved OWNER or a non-zero [15:9] acts as unassigned. -/
def entryAllows (entry inst : Nat) (write : Bool) : Bool :=
  if bits entry 15 9 ≠ 0 then false
  else (bits entry 1 0 == 1 && (bits entry 6 2 == inst || bits entry 8 8 == 1)) || (!write && bits entry 7 7 == 1)

/-- Logs a memory error (R421, R434); a word with an uncorrectable one keeps it until it is written. -/
def eccLog (a code : Nat) (ue scrub : Bool) (s : State) : State :=
  let s := s |> wr R.MEM_ECC_LAST_LO (BitVec.ofNat 32 a)
    |> wr R.MEM_ECC_LAST_HI (BitVec.ofNat 32 (a / 2 ^ 32 % 256 + code * 256 + (if ue then 2 ^ 16 else 0) + (if scrub then 2 ^ 17 else 0)))
  if ue then
    let s := { s with cwy := { s.cwy with bad := s.cwy.bad.filter (fun k => k != a / 8) ++ [a / 8] } }
    raise F.MEM_EVENT 1 (bump R.MEM_ECC_UE_CNT s)
  else
    let s := bump R.MEM_ECC_CE_CNT s
    whenB (decide (fget F.MEM_ECC_CE_TH_TH s ≤ (rd R.MEM_ECC_CE_CNT s).toNat)) (raise F.MEM_EVENT 0) s

/-- Whether a word has an uncorrectable error that a read of it has met (R421, assumption 10). -/
def wordBad (a : Nat) (s : State) : Bool := s.cwy.bad.contains (a / 8)

/-- The entry an ownership cache holds for a page; a miss reads the table, is counted, and keeps the entry, the oldest of 1,024 leaving
(R468; the choice of the leaving entry is a DESIGN CHOICE, assumption 10). None when the read meets an uncorrectable error: the cache keeps nothing (R469). -/
def ownLookup (port a : Nat) (s : State) : Option Nat × State :=
  match s.own.cache.find? fun c => c.port == port && c.page == a / 4096 with
  | some c => (some c.entry, s)
  | none =>
    if (ownEntryAddr a s).any fun p => wordBad p s then (none, eccLog ((ownEntryAddr a s).getD 0) 0x40 true false (bump R.OWN_CACHE_MISS_CNT s))
    else
    let e := match ownEntryAddr a s with
      | some p => mrdN p 2 s
      | none => 0
    let mine := s.own.cache.filter fun c => c.port == port
    let kept := if mine.length < 1024 then s.own.cache else
      match mine.head? with
      | some c => s.own.cache.erase c
      | none => s.own.cache
    (some e, bump R.OWN_CACHE_MISS_CNT { s with own := { s.own with cache := kept ++ [⟨port, a / 4096, e⟩] } })

/-- Appends a violation record, or loses it to a full FIFO (R467). -/
def violate (w : Nat) (world : Bool) (inst a : Nat) (write : Bool) (cause : Nat) (s : State) : State :=
  let s := raise F.OWN_EVENT 0 (bump R.OWN_VIOL_CNT s)
  if s.own.viol.length < 16 then { s with own := { s.own with viol := s.own.viol ++ [⟨a, w, world, inst, write, cause⟩] } }
  else raise F.OWN_EVENT 1 s

/-- Records a violation of an initiator. -/
def violateBy (w : Initiator) (a : Nat) (write : Bool) (cause : Nat) (s : State) : State :=
  violate (initCode w) (initWorld w s) (initInst w s) a write cause s

/-- The tongs block (R476) whose registers hold an address. -/
def tongsBlockAt (a : Nat) : Option Nat :=
  if 0x10000000 ≤ a ∧ a < 0x100C0000 then some ((a - 0x10000000) / 0x10000)
  else if 0x10100000 ≤ a ∧ a < 0x10106000 then some (12 + (a - 0x10100000) / 0x1000)
  else if 0x10200000 ≤ a ∧ a < 0x10300000 then some 18
  else if 0x10300000 ≤ a ∧ a < 0x10400000 then some 19
  else if 0x04030000 ≤ a ∧ a < 0x04040000 then some (20 + (a - 0x04030000) / 0x4000)
  else if 0x04020000 ≤ a ∧ a < 0x04030000 then some 24
  else if 0x10400000 ≤ a ∧ a < 0x10500000 then some 25
  else if 0x10500000 ≤ a ∧ a < 0x10600000 then some 26
  else none

/-- Whether an address lies in a tongs block that no one owns at present (R479). -/
def inUnowned (a : Nat) (s : State) : Bool :=
  match tongsBlockAt a with
  | some k => fget (F.OWN_BLK_k_STATE k) s ≥ 2
  | none => false

/-- Checks an access of an identity through an ownership cache (R466, R469, R479). The answer says whether it is allowed; the state after it has
the cache's new entry, and the violation record of a refused access (R467). -/
def ownCheck (port code : Nat) (world : Bool) (inst a : Nat) (write : Bool) (s : State) : Bool × State :=
  if !world && inUnowned a s then (false, bump R.OWN_TONGS_BLOCKED_CNT (violate code world inst a write 3 s))
  else if !ftst F.OWN_CTRL_EN s then (true, s)
  else if world then (true, s)
  else if inOwnTable a s then (false, violate code world inst a write 0 s)
  else
    match ownLookup port a s with
    | (none, s) => (false, raise F.OWN_EVENT 2 (violate code world inst a write 1 s))
    | (some e, s) => if entryAllows e inst write then (true, s) else (false, violate code world inst a write 0 s)

/-- Checks an access of an initiator. -/
def initCheck (w : Initiator) (a : Nat) (write : Bool) (s : State) : Bool × State :=
  ownCheck (initPort w) (initCode w) (initWorld w s) (initInst w s) a write s

/-! ### Home islands -/

/-- Whether the peripheral fabric answers (R34). -/
def cwyOpen (s : State) : Bool := islOpen islCWY s

/-- Whether a domain feeds its circuits. -/
def railOk (d : Domain) (s : State) : Bool :=
  match d with
  | .a => s.railA
  | .b => s.railB

/-- The master time island (R41). TIME is reached while it runs, whatever the other one does (R34, R87, assumption 27). -/
def masterIsl (s : State) : Fin 21 := if ftst F.TIME_STATUS_MASTER s then islTB else islTA

/-- Whether the home island of an address takes new transactions (R21, R34, R35): PEAT never stops, the trigger slice is dual-fed, a CAN
controller needs its own domain (R28). HERON, BLW and WDOG of PEAT lie behind the Causeway, and are reached while CWY runs (R35, assumption 27). -/
def homeOpen (a : Nat) (s : State) : Bool :=
  if 0x02000000 ≤ a ∧ a < 0x02C00000 then islOpen (engIsl (Fin.ofNat 24 ((a - 0x02000000) / 0x80000))) s
  else if 0x04010000 ≤ a ∧ a < 0x04020000 then islOpen (masterIsl s) s
  else if 0x04020000 ≤ a ∧ a < 0x04030000 then true
  else if 0x04030000 ≤ a ∧ a < 0x04038000 then islOpen islCAM0 s
  else if 0x04038000 ≤ a ∧ a < 0x04040000 then islOpen islCAM1 s
  else if 0x04100000 ≤ a ∧ a < 0x04200000 then islOpen islSWP s
  else if 0x04500000 ≤ a ∧ a < 0x04600000 then islOpen islSWP s
  else if 0x04600000 ≤ a ∧ a < 0x04700000 then islOpen islHC s
  else if 0x04700000 ≤ a ∧ a < 0x04800000 then true
  else if 0x04900000 ≤ a ∧ a < 0x04A00000 then cwyOpen s
  else if 0x10000000 ≤ a ∧ a < 0x10060000 then cwyOpen s && s.railA
  else if 0x10060000 ≤ a ∧ a < 0x100C0000 then cwyOpen s && s.railB
  else if 0x10000000 ≤ a ∧ a < 0x20000000 then cwyOpen s
  else islOpen islMEM s

/-- Logs an access that no range maps (R33). -/
def logUnmapped (code a : Nat) (s : State) : State :=
  s |> bump R.MEM_UNMAP_CNT |> raise F.MEM_EVENT 2 |> wr R.MEM_UNMAP_LO (BitVec.ofNat 32 a)
    |> wr R.MEM_UNMAP_HI (BitVec.ofNat 32 (a / 2 ^ 32 % 256 + 256 * code))

/-! ### Memory that is mapped (R32, R420) -/

/-- The usable DRAM in bytes: the installed capacity, less its top eighth while ECC is enabled (R420). -/
def dramUsable (s : State) : Nat :=
  let inst := 2 ^ (30 + fget F.MEM_DRAM_CFG_SIZE s)
  if ftst F.MEM_DRAM_CFG_ECC_EN s then inst / 8 * 7 else inst

/-- Whether a range of addresses lies wholly in the shared banks. -/
def inBanks (a n : Nat) : Bool := decide (0x01000000 ≤ a) && decide (a + n ≤ 0x01400000)

/-- Whether a range of addresses lies wholly in the usable DRAM. -/
def inDram (a n : Nat) (s : State) : Bool := decide (0x800000000 ≤ a) && decide (a + n ≤ 0x800000000 + dramUsable s)

/-- An identity that a unit presents to the ownership checks (R463, R468): its cache, its initiator code (0x40 for a unit, R434), world and instance. -/
structure Ident where
  port : Nat
  code : Nat
  world : Bool
  inst : Nat

/-- The identity of an initiator. -/
def initIdent (w : Initiator) (s : State) : Ident := ⟨initPort w, initCode w, initWorld w s, initInst w s⟩

/-- The identity of the DMA of a tongs block (R463). -/
def blockIdent (k port : Nat) (s : State) : Ident := ⟨port, 0x40, ftst (F.OWN_BLK_k_WORLD k) s, fget (F.OWN_BLK_k_INST k) s⟩

/-- Checks an access of `n` bytes, page by page. -/
def rangeCheck (w : Ident) (write : Bool) (a : Nat) : Nat → State → Bool × State
  | 0, s => (true, s)
  | k + 1, s =>
    match ownCheck w.port w.code w.world w.inst a write s with
    | (false, s) => (false, s)
    | (true, s) => rangeCheck w write ((a / 4096 + 1) * 4096) k s

/-- An access of a unit to memory outside itself: to the banks or the usable DRAM, while MEM runs, and allowed by the ownership table; else
it gets an error response (R33, R467). -/
def dmaCheck (w : Ident) (write : Bool) (a n : Nat) (s : State) : Bool × State :=
  if !islOpen islMEM s then (false, s)
  else if !(inBanks a n || inDram a n s) then (false, logUnmapped w.code a s)
  else rangeCheck w write a ((a + n - 1) / 4096 + 1 - a / 4096) s

/-- Reads memory for a unit. -/
def dmaRead (w : Ident) (a n : Nat) (s : State) : Option (List Byte) × State :=
  match dmaCheck w false a n s with
  | (false, s) => (none, s)
  | (true, s) => (some (mrdBytes a n s), s)

/-- Writes memory for a unit; the answer says whether it was allowed. -/
def dmaWrite (w : Ident) (a : Nat) (d : List Byte) (s : State) : Bool × State :=
  match dmaCheck w true a d.length s with
  | (false, s) => (false, s)
  | (true, s) => (true, mwrBytes a d s)

/-! ### The shared path of register commands -/

/-- The Causeway breaks the lock of the peripheral fabric (R427). -/
def breakLock (s : State) : State :=
  raise F.CWY_EVENT 1 (bump R.CWY_LOCK_BROKEN_CNT { s with cwy := { s.cwy with lock := none } })

/-- An access to the peripheral fabric waits while a hart has locked it, so the lock is held for its 64 cycles and broken (R427, assumption 21). -/
def fabricWait (a : Nat) (s : State) : State :=
  if 0x10000000 ≤ a && a < 0x20000000 && s.cwy.lock.isSome then breakLock s else s

/-- An access to a register: a refused one is not performed and gets an error response (R467); one whose home island is closed ends
ABORTED_ISLAND_OFF (R24, R25); else it has its effect, with a normal response unless the effect gives another. -/
def regAccess (w : Initiator) (a : Nat) (write : Bool) (f : State → State) (s : State) : State :=
  match initCheck w a write s with
  | (false, s) => answer .failedBus 0 s
  | (true, s) => if homeOpen a s then f (ok (fabricWait a s)) else answer .abortedIslandOff 0 s

/-- A write command to a register. -/
def regCmd (w : Initiator) (a : Nat) (f : State → State) (s : State) : State := regAccess w a true f s

/-- A read command of a register. -/
def regRead (w : Initiator) (a : Nat) (f : State → State) (s : State) : State := regAccess w a false f s

/-- An effect that only Hearth may have; any other writer is answered with an error response (R489, R591). -/
def hearthOnly (w : Initiator) (f : State → State) (s : State) : State := if initWorld w s then f s else bad s

end Sys2Proof.Machine
end

