-- ==== Sys2Proof/Machine/Log.lean ====
section
/-!
DEFINITION. The records that the Z480 itself writes to the log (R316-R319) and the log sink (R321).
-/
namespace Sys2Proof.Machine

/-! ### Vehicle time (R7, R36) -/

/-- One ns in the units of a VT count. -/
def nsUnit : Nat := 2 ^ 48

/-- One second in ns. -/
def secNs : Nat := 1000000000

/-- The master time island (R41). -/
def mIsl (s : State) : TimeIsl := if ftst F.TIME_STATUS_MASTER s then s.time.tb else s.time.ta

/-- Master VT in units of 2^-48 ns. -/
def vt (s : State) : Nat := (mIsl s).vt

/-- Master VT in whole ns. -/
def vtNs (s : State) : Nat := vt s / nsUnit

/-- Master VT in units of 2^-16 ns, the visible fraction of R7. -/
def vt16 (s : State) : Nat := vt s / 2 ^ 32

/-- Master VT at the resolution of a stamp, 125 ps (R37), in units of 2^-16 ns: the phase that VT has reached, not the nearest one (assumption 12). -/
def stamp16 (s : State) : Nat := vt16 s / 0x2000 * 0x2000

/-- The parts of a VT value in units of 2^-16 ns: seconds (48 bits), nanoseconds, fraction (R7). -/
def vtParts (v : Nat) : Nat × Nat × Nat := (v / 65536 / secNs % 2 ^ 48, v / 65536 % secNs, v % 65536)

/-- A VT value in units of 2^-16 ns as three words (R200): nanoseconds, seconds [31:0], seconds [47:32] with the fraction. -/
def vtWords (v : Nat) : List Nat :=
  let (sec, ns, frac) := vtParts v
  [ns, sec % 2 ^ 32, sec / 2 ^ 32 + frac * 65536]

/-- The present epoch (R93). -/
def epoch (s : State) : Nat := fget F.TIME_EPOCH_COUNT s

/-! ### Records -/

/-- A log record (R316): TIME, KIND and EPOCH, ORIGIN, and the eight bytes of its body. -/
def logRecord (vtNs kind epoch origin body : Nat) : BitVec 128 :=
  BitVec.ofNat 128 (vtNs % 2 ^ 48 + (kind % 16 + epoch % 16 * 16) * 2 ^ 48 + origin % 256 * 2 ^ 56 + body % 2 ^ 64 * 2 ^ 64)

/-- The LOSS record of `n` lost records, which goes before the next record that is accepted (R317, R321). -/
def lossRecord (n : Nat) (s : State) : BitVec 128 := logRecord (vtNs s) 5 (epoch s) 0x30 (n % 2 ^ 32)

/-- A lost record is counted and raises SINK_FULL (R321). -/
def countLost (s : State) : State :=
  raise F.SIG_EVENT 0 (bump R.SIG_LOG_LOST { s with sig := { s.sig with lost := min 0xFFFFFFFF (s.sig.lost + 1) } })

/-- A record that the sink cannot accept is lost. -/
def sinkLose (s : State) : State := countLost { s with log := { s.log with loss := s.log.loss + 1 } }

/-- Puts a record into the sink, after a LOSS record when some were lost. -/
def sinkPut (r : BitVec 128) (s : State) : State :=
  let pre := if s.log.loss = 0 then [] else [lossRecord s.log.loss s]
  { s with log := { s.log with sink := s.log.sink ++ pre ++ [r], loss := 0 } }

/-- How many entries a record needs: one more when a LOSS record goes before it. -/
def sinkNeed (s : State) : Nat := if s.log.loss = 0 then 1 else 2

/-- Whether the sink can take a record from software or a thread: 64 of its 1,024 entries are kept for the Z480's own records (R321). -/
def sinkRoom (s : State) : Bool := decide (s.log.sink.length + sinkNeed s ≤ 960)

/-- Writes one of the Z480's own records. While LOG_EN = 0 no chain is open and none is written. -/
def logOwn (r : BitVec 128) (s : State) : State :=
  if !ftst F.SIG_CTRL_LOG_EN s then s
  else if s.log.sink.length + sinkNeed s ≤ 1024 then sinkPut r s else sinkLose s

/-- A TIME record (R318). -/
def logTime (sub : Nat) (value : Int) (s : State) : State :=
  logOwn (logRecord (vtNs s) 3 (epoch s) 0x31 (sub + toField 48 value * 2 ^ 16)) s

/-- A FAULT record (R317, R319): the source, CODE, status, DETAIL, and the origin that writes it. -/
def logFault (origin source code status detail : Nat) (s : State) : State :=
  logOwn (logRecord (vtNs s) 4 (epoch s) origin (source % 2 ^ 16 + code % 256 * 2 ^ 16 + status % 256 * 2 ^ 24 + detail % 2 ^ 32 * 2 ^ 32)) s

end Sys2Proof.Machine
end

