-- ==== Sys2Proof/Machine/Time.lean ====
section
/-!
DEFINITION. Vehicle time (chapter 02): the counters and their comparison, the servo, the time states, holdover, the twin-path watch, PPS.
-/
namespace Sys2Proof.Machine

/-! ### The counters (R36, R41) -/

/-- What one cycle adds to a count at a FREQ (R36), in units of 2^-48 ns. -/
def cycleStep (freq : Int) : Int := 2 ^ 48 + freq * 2 ^ 16

/-- `n` cycles of a counter. -/
def TimeIsl.run (n : Nat) (t : TimeIsl) : TimeIsl :=
  { t with vt := ((t.vt : Int) + n * cycleStep t.freq).toNat, raw := t.raw + n }

/-- Whether a time island's clock runs. -/
def clocked (i : Fin 21) (s : State) : Bool :=
  match islSt i s with
  | .run | .slow | .draining => true
  | _ => false

/-- `n` ns pass: every clocked time island counts. -/
def advance (n : Nat) (s : State) : State :=
  { s with
    now := s.now + n
    time := { s.time with
      ta := if clocked islTA s then s.time.ta.run n else s.time.ta
      tb := if clocked islTB s then s.time.tb.run n else s.time.tb
      mraw := if clocked (masterIsl s) s then s.time.mraw + n else s.time.mraw } }

/-- Time passes until an instant, when it lies ahead (assumption 5: the command of a timed row means that its instant has come). -/
def elapseTo (t : Nat) (s : State) : State := advance (t - s.now) s

/-- Time passes until master VT reaches a value (in units of 2^-48 ns), when it lies ahead. -/
def elapseVt (v : Nat) (s : State) : State :=
  let d : Int := v - vt s
  if d ≤ 0 then s else advance ((d + cycleStep (mIsl s).freq - 1) / cycleStep (mIsl s).freq).toNat s

/-- Changes the state of the time block. -/
def updTime (f : TimeSt → TimeSt) (s : State) : State := { s with time := f s.time }

/-- Changes every time island that takes FREQ changes, steps and SETs (R41, R44). -/
def onCopied (f : TimeIsl → TimeIsl) (s : State) : State :=
  updTime (fun t => { t with ta := if t.ta.copied then f t.ta else t.ta, tb := if t.tb.copied then f t.tb else t.tb }) s

/-- A change of FREQ or a jump of master VT is kept for a second: the raw count, master VT and FREQ just before it. -/
def keepPast (old s : State) : State :=
  if vt old = vt s ∧ (mIsl old).freq = (mIsl s).freq then s
  else updTime (fun t => { t with past := (old.time.mraw, (vt old, (mIsl old).freq)) :: t.past.filter fun p => decide (t.mraw < p.1 + secNs) }) s

/-- Master VT as it was `h` half nanoseconds ago, in units of 2^-48 ns. -/
def vtAgo (h : Nat) (s : State) : Nat :=
  let at2 : Int := 2 * (s.time.mraw : Int) - h
  let back (m : Int) (v : Nat) (f : Int) : Nat := ((v : Int) - (2 * m - at2) * cycleStep f / 2).toNat
  match (s.time.past.filter fun p => decide (at2 < 2 * (p.1 : Int))).getLast? with
  | some (m, v, f) => back m v f
  | none => back s.time.mraw (vt s) (mIsl s).freq

def stUnsync : Nat := 0
def stLocking : Nat := 1
def stLocked : Nat := 2
def stHoldover : Nat := 3
def stRefusing : Nat := 4
def stFree : Nat := 5

/-- TIME.STATUS.STATE (R89). -/
def timeState (s : State) : Nat := fget F.TIME_STATUS_STATE s

/-- A change of FREQ, within the clamp of R38 (R93 shows it). -/
def setFreq (f : Int) (s : State) : State :=
  let f := clampInt (-429497) 429497 f
  keepPast s (fputI F.TIME_FREQ_ADJ f (onCopied (fun t => { t with freq := f }) s))

/-- Gives the integrator a value, in units of 2^-32. -/
def setInteg (i : Rat) (s : State) : State := onCopied (fun t => { t with integ := i }) s

/-- STATUS.QUALITY as R80 and R89 give it for the present state. -/
def showQuality (s : State) : State :=
  let st := timeState s
  let q := if st = stFree then 3 else if st = stLocked then 0
    else if s.time.beyond || st == stUnsync || (st == stRefusing && s.time.fromUnsync) then 2 else 1
  fput F.TIME_STATUS_QUALITY q s

/-! ### Holdover frequency (R76-R78) -/

/-- The bin of a junction temperature (R76). -/
def tempBin (deg : Int) : Nat := clampNat 0 95 ((deg + 40) / 2).toNat

/-- The present temperature, of the master's sensor. -/
def presentTemp (s : State) : Int := if ftst F.TIME_STATUS_MASTER s then s.time.tempB else s.time.tempA

/-- Whether a bin exists and has a count of at least 16. -/
def binGood (t : TimeIsl) (b : Int) : Bool := decide (0 ≤ b) && decide (b < 96) && decide (16 ≤ t.learnC.toList.getD b.toNat 0)

/-- F of a bin. -/
def binF (t : TimeIsl) (b : Int) : Int := t.learnF.toList.getD b.toNat 0

/-- The nearest good bin within four, the present temperature's side first (R78). -/
def nearestBin (t : TimeIsl) (b : Int) (above : Bool) : Option Int :=
  let cand := [1, 2, 3, 4].flatMap fun (d : Int) => if above then [b + d, b - d] else [b - d, b + d]
  cand.find? fun c => binGood t c

/-- The holdover frequency of R78, in units of 2^-32. -/
def holdoverFreq (s : State) : Rat :=
  let t := mIsl s
  let deg := presentTemp s
  let b : Int := tempBin deg
  let off := deg - (2 * b - 39)
  let nb := if 0 < off then b + 1 else b - 1
  if binGood t b then
    if off ≠ 0 && binGood t nb then (binF t b : Rat) + ((binF t nb - binF t b : Int) : Rat) * ((if off < 0 then -off else off : Int) : Rat) / 2
    else binF t b
  else match nearestBin t b (decide (0 < off)) with
    | some c => binF t c
    | none => s.time.holdInteg

/-- One update of the learned table at a sample fed in LOCKED (R77), with its peat mirror (R76). -/
def learn (s : State) : State :=
  let b : Fin 96 := Fin.ofNat 96 (tempBin (presentTemp s))
  let up (t : TimeIsl) : TimeIsl :=
    let f := if t.learnC[b.1] = 0 then roundZero t.integ
      else t.learnF[b.1] + roundZero ((t.integ - (t.learnF[b.1] : Rat)) / 16)
    { t with learnF := upd t.learnF b fun _ => f, learnC := upd t.learnC b fun c => min (c + 1) 255 }
  let s := onCopied up s
  updTime (fun t => { t with peatF := (mIsl s).learnF, peatC := (mIsl s).learnC }) s

/-! ### Time states (R63) -/

/-- Whether a state runs on the holdover frequency (R78). -/
def freeRunning (st : Nat) : Bool := st == stUnsync || st == stHoldover || st == stRefusing || st == stFree

/-- Whether time in a state counts as holdover (R80). -/
def countsHoldover (fromUnsync : Bool) (st : Nat) : Bool := st == stHoldover || (st == stRefusing && !fromUnsync)

/-- Passes to a time state: what R62, R63, R78 and R80 attach to the passage. With no sample fed since, HOLD_CFG.TIMEOUT counts from the entry to LOCKING (R63, assumption 12). -/
def enterState (st : Nat) (s : State) : State :=
  let old := timeState s
  let s := fput F.TIME_STATUS_STATE st s
  let s := if freeRunning st && !freeRunning old then
      updTime (fun t => { t with holdInteg := (mIsl s).integ }) s else s
  let s := if freeRunning st && st != old then setFreq (roundNearest (holdoverFreq s)) s else s
  let s := updTime (fun t => { t with
      lockFirst := if st = stLocking then true else t.lockFirst
      goodRun := if st = stLocking then 0 else t.goodRun
      lastFed := if st = stLocking then s.now else t.lastFed
      beyond := if st = stLocked then false else t.beyond
      holdDone := t.holdDone && countsHoldover t.fromUnsync st
      holdSince := if countsHoldover t.fromUnsync st then (match t.holdSince with | some h => some h | none => some s.now) else none }) s
  showQuality s

/-- Enters HOLDOVER with its event and its record (R63, R318). What REFUSING held of an entry from UNSYNC is over. -/
def enterHoldover (s : State) : State := s |> updTime (fun t => { t with fromUnsync := false }) |> enterState stHoldover |> raise F.TIME_EVENT 3 |> logTime 3 0

/-- STEP_PEND, signed 64-bit ns (R93). -/
def putStepPend (v : Int) (s : State) : State :=
  let n := toField 64 v
  s |> wr R.TIME_STEP_PEND_LO (BitVec.ofNat 32 n) |> wr R.TIME_STEP_PEND_HI (BitVec.ofNat 32 (n / 2 ^ 32))

/-- Drops any pending step. -/
def dropStep (s : State) : State := fput F.TIME_STATUS_STEP_PENDING 0 (updTime (fun t => { t with stepAt := none }) s)

/-- Accepts a step of `θ` ns: its instant is the first whole ms of VT at least 100 µs later (R67). -/
def acceptStep (theta : Int) (s : State) : State :=
  let at_ := (vtNs s + (if vt s % nsUnit = 0 then 0 else 1) + 100000 + 999999) / 1000000 * 1000000
  s |> updTime (fun t => { t with stepVal := theta, stepAt := some at_, stepSrc := t.refusedSrc }) |> fput F.TIME_STATUS_STEP_PENDING 1

/-- The feed of a sample: the PI loop of R62, the count towards LOCKED, the learning of R77, and the implied source time of R43. -/
def feed (theta : Rat) (rx : Nat) (src : Source) (s : State) : State :=
  let wasLocked := timeState s = stLocked
  let m := mIsl s
  let ts : Rat := if s.time.lockFirst then 1 / 8 else match s.time.prevRx with
    | some p => max (1 / 32) (min 2 (((rx : Int) - p : Int) / (65536 * 1000000000 : Rat)))
    | none => 1 / 8
  let unit : Rat := 4294967296 / 1000000000
  let kp : Rat := (fget F.TIME_SERVO_KP s : Rat) / 65536
  let ki : Rat := (fget F.TIME_SERVO_KI s : Rat) / 65536
  let lim : Rat := 100000 * unit
  let i := max (-lim) (min lim (m.integ - ki * theta / ts * unit))
  let f := max (-lim) (min lim (i - kp * theta / ts * unit))
  let s := s |> setInteg i |> setFreq (roundNearest f)
  let implied := ((vt s : Int) - (theta * 281474976710656).floor).toNat
  let good := if -50 ≤ theta ∧ theta ≤ 50 then s.time.goodRun + 1 else 0
  let s := updTime (fun t => { t with
      prevRx := some rx
      lockFirst := false
      goodRun := good
      lastFed := s.now
      src := some src
      accepted := some (implied, s.now) }) s
  let s := if wasLocked && ftst F.TIME_CTRL_LEARN_EN s then learn s else s
  if timeState s = stLocking && decide (8 ≤ good) then logTime 8 0 (enterState stLocked s) else s

/-- The refusal of a sample (R63, R66): STEP_PEND, the run of the persistence rule, and a step that the run accepts. -/
def refuse (theta : Rat) (src : Source) (changed : Bool) (s : State) : State :=
  let tn := roundNearest theta
  let s :=
    if timeState s = stRefusing then s
    else
      let fu := decide (timeState s = stUnsync)
      let s := updTime (fun t => { t with
          fromUnsync := fu
          srcBefore := if fu then some src else t.src
          persistFirst := none
          persistCnt := 0 }) s
      let s := s |> enterState stRefusing |> raise F.TIME_EVENT 1 |> logTime 7 tn
      whenB changed (fun s => s |> raise F.TIME_EVENT 7 |> logTime 9 0) s
  let tol : Rat := fget F.TIME_PERSIST_TOL s
  let (first, cnt) := match s.time.persistFirst with
    | some p => if -tol ≤ theta - p ∧ theta - p ≤ tol then (p, s.time.persistCnt + 1) else (theta, 1)
    | none => (theta, 1)
  let s := putStepPend tn (updTime (fun t => { t with persistFirst := some first, persistCnt := cnt, refusedSrc := some src }) s)
  let n := fget F.TIME_PERSIST_N s
  if n ≠ 0 && decide (max n 2 ≤ cnt) then acceptStep tn s else s

/-- Whether a slot is one of the twin slots (R70). -/
def isTwinSlot (n : Nat) (s : State) : Bool := n == fget F.TIME_TWIN_CFG_SLOT_P0 s || n == fget F.TIME_TWIN_CFG_SLOT_P1 s

/-- Whether two samples have one source (R61). A slot is the source of the twin slots when it is one of them and names their grandmaster, so that a change of TWIN_EN alone
is no change of source (R637). -/
def sameSource (a : Option Source) (b : Source) (s : State) : Bool :=
  match a, b with
  | some (.slot n g), .twin h | some (.twin h), .slot n g => isTwinSlot n s && g == h
  | _, _ => a == some b

/-- Judges a sample of a steering direction by the table of R63. -/
def judge (theta : Rat) (src : Source) (rx : Nat) (s : State) : State :=
  let s := fputSat F.TIME_OFFSET_LAST_PS (roundNearest (theta * 1000)) s
  let th : Rat := clampNat 50 1000000 (fget F.TIME_JUMP_TH_NS s)
  let jump := decide (theta < -th) || decide (th < theta)
  let changed := s.time.srcChanged || !sameSource s.time.src src s
  let policy := ftst F.TIME_CTRL_SRC_POLICY s
  let forced := s.time.srcChanged
  let s := updTime (fun t => { t with srcChanged := false }) s
  let st := timeState s
  if st = stUnsync then
    if ftst F.TIME_CTRL_REFUSE_INIT s then refuse theta src false s
    else
      let i := holdoverFreq s
      let s := acceptStep (roundNearest theta) (updTime (fun t => { t with refusedSrc := some src }) s)
      updTime (fun t => { t with src := some src }) (setInteg i (enterState stLocking s))
  else if st = stRefusing then
    if !jump && !forced && sameSource s.time.srcBefore src s then
      let s := putStepPend 0 s
      let s := if s.time.fromUnsync then setInteg (holdoverFreq s) s else s
      let s := updTime (fun t => { t with persistFirst := none, persistCnt := 0, fromUnsync := false }) s
      feed theta rx src (enterState stLocking s)
    else refuse theta src false s
  else if st = stHoldover then
    if !jump && (!changed || policy) then
      let s := setInteg (mIsl s).freq s
      let s := enterState stLocking s
      let s := whenB changed (fun s => s |> raise F.TIME_EVENT 7 |> logTime 9 0) s
      feed theta rx src s
    else refuse theta src changed s
  else if st = stFree then s
  else if jump || (changed && !policy) then refuse theta src changed s
  else
    let s := if changed then s |> enterState stLocking |> raise F.TIME_EVENT 7 |> logTime 9 0 else s
    feed theta rx src s

/-! ### Samples (R53, R58-R61) -/

/-- Whether a domain slot is enabled; of two slots with one domainNumber the higher counts as disabled (R53). -/
def slotEnabled (n : Nat) (s : State) : Bool :=
  ftst (F.TIME_DOM_n_EN n) s
    && !((List.range n).any fun k => ftst (F.TIME_DOM_n_EN k) s
      && fget (F.TIME_DOM_n_DOMAIN_NUMBER k) s == fget (F.TIME_DOM_n_DOMAIN_NUMBER n) s)

/-- The 48-byte record of R59, read as a little-endian number. Stamps are in units of 2^-16 ns. -/
def decodeSample (v : Nat) : Sample :=
  { seq := v % 2 ^ 16, port := bits v 23 16, slot := bits v 25 24, oneStep := bits v 26 26 == 1, gm := bits v 95 32,
    rx := (bits v 143 96 * secNs + bits v 175 144) * 65536 + bits v 191 176,
    origin := (bits v 239 192 * secNs + bits v 271 240) * 65536,
    corr := signedOf 64 (bits v 351 288), mld := bits v 383 352 }

/-- The thread that runs the active gPTP program (R50). -/
def activeGptp (s : State) : Initiator := if ftst F.TIME_STATUS_STBY_ACTIVE s then .thread 12 0 else .thread 0 0

/-- Refuses a pushed sample (R58). -/
def refuseSample (s : State) : State := s |> bump R.TIME_REFUSED_CNT |> raise F.TIME_EVENT 9

/-- The push of a sample record onto the servo queue (R58): `v` is the record read, none when it could not be read. -/
def pushSample (w : Initiator) (w0 w1 : Nat) (v : Option Nat) (s : State) : Status × State :=
  match v with
  | none => (.failedRefused, refuseSample s)
  | some v =>
    let p := decodeSample v
    if w = activeGptp s ∧ s.time.queue.length < 16 ∧ bits w0 15 8 = 1 ∧ bits w0 31 16 = 48 ∧ w1 % 16 = 0
        ∧ bits v 175 144 < secNs ∧ bits v 271 240 < secNs ∧ p.port ≤ 13 ∧ slotEnabled p.slot s = true
        ∧ vt16 s ≤ p.rx + 2 * secNs * 65536 then
      (.done, updTime (fun t => { t with queue := t.queue ++ [p] }) s)
    else (.failedRefused, refuseSample s)

/-- The path delay of a sample, in ns (R60). -/
def sampleDelay (p : Sample) : Rat := ((p.corr + p.mld : Int) : Rat) / 65536

/-- The direction whose slot a sample bears, with the twin-path watch on (R70). -/
def twinDirOf (slot : Nat) (s : State) : Option Bool :=
  if ftst F.TIME_CTRL_TWIN_EN s = false then none
  else if slot = fget F.TIME_TWIN_CFG_SLOT_P0 s then some false
  else if slot = fget F.TIME_TWIN_CFG_SLOT_P1 s then some true else none

/-- The correction of a direction, in ns (R98). -/
def twinCorr (d : Bool) (s : State) : Rat := (fgetI (if d then F.TIME_TWIN_CORR_P1_PS else F.TIME_TWIN_CORR_P0_PS) s : Rat) / 1000

/-- The offset of a sample, in ns; one from a twin slot is corrected for its direction (R60). -/
def sampleTheta (p : Sample) (s : State) : Rat :=
  (((p.rx : Int) - p.origin - p.corr - p.mld : Int) : Rat) / 65536 - (fgetI (F.TIME_PORT_ASYM_n_PS p.port) s : Rat) / 1000
    - (match twinDirOf p.slot s with
      | some d => twinCorr d s
      | none => 0)

/-- Tracks a slot that does not steer (R52): the offset of its grandmaster time from VT. -/
def track (slot : Nat) (theta : Rat) (s : State) : State := fputSat (F.TIME_DOM_OFS_n_PS slot) (roundNearest (-theta * 1000)) s

/-! ### The twin-path watch (R70-R75) -/

def twOk : Nat := 0
def twSuspect : Nat := 1
def twAbsent : Nat := 2

/-- One direction: `false` is P0, `true` is P1. -/
def twin (d : Bool) (s : State) : TwinDir := if d then s.time.twin1 else s.time.twin0

/-- Changes one direction. -/
def updTwin (d : Bool) (f : TwinDir → TwinDir) (s : State) : State :=
  updTime (fun t => if d then { t with twin1 := f t.twin1 } else { t with twin0 := f t.twin0 }) s

/-- The state field of a direction. -/
def twinFld (d : Bool) : Fld := if d then F.TIME_TWIN_STATUS_STATE_P1 else F.TIME_TWIN_STATUS_STATE_P0

/-- The state of a direction (R97). -/
def twinState (d : Bool) (s : State) : Nat := fget (twinFld d) s

/-- Gives AGREE_COUNT a value. -/
def putAgree (n : Nat) (s : State) : State := fput F.TIME_TWIN_STATUS_AGREE_COUNT (min n 255) s

/-- Gives a direction a state; a new state starts its runs afresh. -/
def setTwin (d : Bool) (st : Nat) (s : State) : State :=
  if twinState d s = st then s else updTwin d (fun t => { t with outside := 0 }) (fput (twinFld d) st s)

/-- The direction PREF names. -/
def prefDir (s : State) : Bool := ftst F.TIME_TWIN_CFG_PREF s

/-- Chooses the steering direction: PREF when it is OK, else the other when it is OK; none during the joint wait (R70, R73). -/
def chooseSteer (s : State) : State :=
  let p := prefDir s
  let n := if s.time.joint then 2
    else if twinState p s = twOk then p.toNat
    else if twinState (!p) s = twOk then (!p).toNat else 2
  fput F.TIME_TWIN_STATUS_STEER n s

/-- Gives a direction a baseline, shown in BASE_Px. -/
def setBase (d : Bool) (b : Option Rat) (s : State) : State :=
  let f := if d then F.TIME_BASE_P1_PS else F.TIME_BASE_P0_PS
  fputSat f (roundNearest (match b with | some x => x * 1000 | none => 0)) (updTwin d (fun t => { t with base := b }) s)

/-- A direction becomes ABSENT (R75): when the other is SUSPECT the joint wait of R73 begins or goes on. -/
def makeAbsent (d : Bool) (s : State) : State :=
  let s := setTwin d twAbsent s
  let s := updTwin d (fun t => { t with inPair := false }) s
  let s := if !s.time.joint && twinState (!d) s == twSuspect then
      putAgree 0 (updTime (fun t => { t with joint := true, twin0 := { t.twin0 with inPair := false }, twin1 := { t.twin1 with inPair := false } }) s)
    else s
  chooseSteer s

/-- A direction returns to OK with its baseline at its latest delay (R73). -/
def relearn (d : Bool) (s : State) : State :=
  let s := setTwin d twOk s
  match (twin d s).delay with
  | some x => setBase d (some x) s
  | none => s

/-- The baseline update of an OK direction (R72). -/
def learnBase (d agree : Bool) (s : State) : State :=
  let jumpTh : Rat := fget F.TIME_TWIN_CFG_DELAY_JUMP s
  match (twin d s).base, (twin d s).delay with
  | none, some x => setBase d (some x) s
  | some b, some x =>
    if -jumpTh ≤ x - b ∧ x - b ≤ jumpTh then setBase d (some (b + (x - b) / 16)) (updTwin d (fun t => { t with outside := 0 }) s)
    else if agree then
      let n := (twin d s).outside + 1
      if 16 ≤ n then setBase d (some x) (updTwin d (fun t => { t with outside := 0 }) s)
      else updTwin d (fun t => { t with outside := n }) s
    else updTwin d (fun t => { t with outside := 0 }) s
  | _, none => s

/-- Whether a direction's delay has jumped (R71). -/
def jumped (d : Bool) (s : State) : Bool :=
  let jumpTh : Rat := fget F.TIME_TWIN_CFG_DELAY_JUMP s
  match (twin d s).base, (twin d s).delay with
  | some b, some x => decide (x - b < -jumpTh) || decide (jumpTh < x - b)
  | _, _ => false

/-- HOLD_CFG.TIMEOUT in ns. -/
def holdTimeout (s : State) : Nat := clampNat 10 10000 (fget F.TIME_HOLD_CFG_TIMEOUT s) * 1000000

/-- The latest offset of a direction that is not older than HOLD_CFG.TIMEOUT (R71). -/
def freshTheta (d : Bool) (s : State) : Option Rat :=
  if twinState d s = twAbsent then none
  else match (twin d s).theta with
    | some (x, at_) => if s.now ≤ at_ + holdTimeout s then some x else none
    | none => none

/-- What the check of a sample means for the servo (R71). -/
inductive TwinVerdict where
  | judged
  | monitored
  | withheld
  | holdover
  | tracked
  deriving DecidableEq, Repr

/-- The verdict on an OK direction's sample: it is judged when the direction steers. -/
def steerVerdict (d : Bool) (s : State) : TwinVerdict × State :=
  let s := chooseSteer s
  (if fget F.TIME_TWIN_STATUS_STEER s = d.toNat then .judged else .monitored, s)

/-- PATH_ASYM (R71, R74): LAST_DIR, the estimate, the event and the record. -/
def pathAsym (lastDir : Nat) (est : Rat) (s : State) : State :=
  let e := roundNearest (est * 1000)
  s |> fput F.TIME_TWIN_STATUS_LAST_DIR lastDir |> fputSat F.TIME_ASYM_EST_PS e |> raise F.TIME_EVENT 2 |> logTime 5 e

/-- A sample of the joint wait (R73): a pair completes at the later of its two samples, and the next sample of the steering direction after the joint return is the first fed. -/
def jointSample (d : Bool) (theta : Rat) (s : State) : TwinVerdict × State :=
  let s := if twinState d s = twAbsent then setTwin d twSuspect s else s
  let s := updTwin d (fun t => { t with inPair := true }) s
  if (twin (!d) s).inPair then
    let s := updTime (fun t => { t with twin0 := { t.twin0 with inPair := false }, twin1 := { t.twin1 with inPair := false } }) s
    let half : Rat := (fget F.TIME_TWIN_CFG_ASYM_TH s : Rat) / 2
    let other := match (twin (!d) s).theta with | some (x, _) => x | none => theta
    let n := if -half ≤ theta - other ∧ theta - other ≤ half then fget F.TIME_TWIN_STATUS_AGREE_COUNT s + 1 else 0
    if 16 ≤ n then
      let s := updTime (fun t => { t with joint := false }) (putAgree 0 s)
      (.withheld, s |> relearn false |> relearn true |> raise F.TIME_EVENT 11 |> chooseSteer)
    else (.withheld, putAgree n s)
  else (.withheld, s)

/-- The check of a sample of direction `d` against the other (R70-R73, R75). -/
def twinCheck (d : Bool) (theta delay : Rat) (gm : Nat) (s : State) : TwinVerdict × State :=
  let o := !d
  let s := updTwin d (fun t => { t with gm := some (gm, s.now) }) s
  let differs := match (twin o s).gm with
    | some (g, at_) => g != gm && decide (s.now ≤ at_ + holdTimeout s)
    | none => false
  if differs && d != prefDir s && twinState o s != twAbsent then
    (.tracked, if twinState d s = twAbsent then s else makeAbsent d s)
  else
    let s := if differs && d == prefDir s && twinState o s != twAbsent then makeAbsent o s else s
    let s := updTwin d (fun t => { t with theta := some (theta, s.now), delay := some delay, lastSample := some s.now }) s
    let s := fputSat (if d then F.TIME_THETA_P1_PS else F.TIME_THETA_P0_PS) (roundNearest (theta * 1000)) s
    let s := match (twin d s).base with
      | none => setBase d (some delay) s
      | some _ => s
    if s.time.joint then jointSample d theta s
    else match freshTheta o s with
      | none =>
        if twinState d s = twSuspect then (.withheld, s)
        else steerVerdict d (learnBase d false (setTwin d twOk s))
      | some other =>
        let diff := theta - other
        let asym : Rat := clampNat 4 1000 (fget F.TIME_TWIN_CFG_ASYM_TH s)
        let within := decide (-asym ≤ diff) && decide (diff ≤ asym)
        if twinState d s = twSuspect then
          if -(asym / 2) ≤ diff ∧ diff ≤ asym / 2 then
            let n := fget F.TIME_TWIN_STATUS_AGREE_COUNT s + 1
            if 16 ≤ n then steerVerdict d (s |> putAgree 0 |> relearn d |> raise F.TIME_EVENT 11)
            else (.withheld, putAgree n s)
          else (.withheld, putAgree 0 s)
        else if within || twinState o s == twSuspect then
          steerVerdict d (learnBase d within (setTwin d twOk s))
        else
          let jd := jumped d s
          let jo := jumped o s
          let th0 := if d then other else theta
          let th1 := if d then theta else other
          if jd && !jo then
            (.withheld, chooseSteer (pathAsym d.toNat (2 * (theta - other)) (putAgree 0 (setTwin d twSuspect s))))
          else if jo && !jd then
            let s := learnBase d false (setTwin d twOk (putAgree 0 (setTwin o twSuspect s)))
            steerVerdict d (pathAsym o.toNat (2 * (other - theta)) s)
          else
            let s := s |> setTwin false twSuspect |> setTwin true twSuspect |> putAgree 0
            let s := updTime (fun t => { t with joint := true, twin0 := { t.twin0 with inPair := false }, twin1 := { t.twin1 with inPair := false } }) s
            (.holdover, chooseSteer (pathAsym (if jd then 2 else 3) (2 * (th0 - th1)) s))

/-- The servo takes one sample (R52, R58, R63, R67, R71). When both directions become SUSPECT the state is HOLDOVER at once, whichever it was; the sample that made them so is
not counted as withheld (assumption 12). -/
def takeSample (p : Sample) (s : State) : State :=
  let theta := sampleTheta p s
  if fget F.TIME_CTRL_ROLE s ≠ 0 then track p.slot theta s
  else if ftst F.TIME_CTRL_TWIN_EN s then
    match twinDirOf p.slot s with
    | none => track p.slot theta s
    | some d =>
      if s.time.stepAt.isSome then bump R.TIME_DISCARD_CNT s
      else
        match twinCheck d theta (sampleDelay p) p.gm s with
        | (.judged, s) => judge theta (.twin p.gm) p.rx s
        | (.monitored, s) => s
        | (.withheld, s) => bump R.TIME_DISCARD_CNT s
        | (.tracked, s) => track p.slot theta s
        | (.holdover, s) =>
          if timeState s = stHoldover then s else enterHoldover s
  else if p.slot ≠ fget F.TIME_CTRL_STEER_SLOT s then track p.slot theta s
  else if s.time.stepAt.isSome then bump R.TIME_DISCARD_CNT s
  else judge theta (.slot p.slot p.gm) p.rx s

/-- The twin-path watch starts afresh (R637). -/
def twinReset (s : State) : State :=
  s |> updTime (fun t => { t with twin0 := TwinDir.init, twin1 := TwinDir.init, joint := false })
    |> clearRegs [R.TIME_THETA_P0, R.TIME_THETA_P1, R.TIME_BASE_P0, R.TIME_BASE_P1] |> wr R.TIME_TWIN_STATUS (resetVal R.TIME_TWIN_STATUS)

/-! ### The split comparator, copies and mastership (R42-R47) -/

/-- The OK bit of a time island. -/
def okFld (b : Bool) : Fld := if b then F.TIME_STATUS_TB_OK else F.TIME_STATUS_TA_OK

/-- A time island: `false` is TA, `true` is TB. -/
def timeIsl (b : Bool) (s : State) : TimeIsl := if b then s.time.tb else s.time.ta

/-- Changes a time island. -/
def updTimeIsl (b : Bool) (f : TimeIsl → TimeIsl) (s : State) : State :=
  updTime (fun t => if b then { t with tb := f t.tb } else { t with ta := f t.ta }) s

/-- The island ID of a time island. -/
def timeIslId (b : Bool) : Fin 21 := if b then islTB else islTA

/-- The master: `false` is TA. -/
def masterB (s : State) : Bool := ftst F.TIME_STATUS_MASTER s

/-- Mastership moves to an island (R45), with its record (R318). -/
def setMaster (b : Bool) (s : State) : State :=
  if masterB s = b then s else keepPast s (logTime 6 (b.toNat : Int) (fput F.TIME_STATUS_MASTER b.toNat s))

/-- Whether a register of TIME is one that software writes and both islands hold (R87): the others show what the hardware does. -/
def timeHeld (a : Nat) : Bool :=
  [R.TIME_CTRL, R.TIME_EVENT_EN, R.TIME_SET_NS, R.TIME_SET_SEC_LO, R.TIME_SET_SEC_HI, R.TIME_SERVO, R.TIME_JUMP_TH, R.TIME_PERSIST, R.TIME_SPLIT_CFG, R.TIME_HOLD_CFG,
    R.TIME_TWIN_CFG, R.TIME_TWIN_CORR_P0, R.TIME_TWIN_CORR_P1, R.TIME_LEARN_IDX, R.TIME_PPS_CFG, R.TIME_PPS_DELAY, R.TIME_PPS_SEC_LO, R.TIME_PPS_SEC_HI].contains a
    || (decide (R.TIME_DOM_n 0 ≤ a) && decide (a ≤ R.TIME_DOM_n 3)) || (decide (R.TIME_PHY_RX_LAT_n 0 ≤ a) && decide (a ≤ R.TIME_PORT_ASYM_n 17))

/-- An island becomes faulty: it takes nothing more until it has been copied (R44), no write of a register either (R87). -/
def markFaulty (b : Bool) (s : State) : State :=
  let now := s.regs.filter fun p => timeHeld p.1
  updTime (fun t => { t with readmit := 0 })
    (updTimeIsl b (fun t => { t with copied := false, held := if t.copied then now else t.held }) (fput (okFld b) 0 s))

/-- The registers of TIME are those that an island which took no writes holds (R87). -/
def takeHeld (b : Bool) (s : State) : State :=
  let old := (timeIsl b s).held
  let now := s.regs.filter fun p => timeHeld p.1
  let s := now.foldl (fun s p => wr p.1 (resetVal p.1) s) s
  old.foldl (fun s p => wr p.1 p.2 s) s

/-- An island that is reset or lost begins a fault of its own: a hold and a request of an earlier fault are over (R44, R635). -/
def freshFault (s : State) : State := updTime (fun t => { t with splitHold := false, splitFirst := none, splitRun := 0, resyncReq := false }) s

/-- A TIME_SPLIT of a run: the third within 1 s of the first holds the island faulty (R44). -/
def countSplit (s : State) : State :=
  let (first, n) := match s.time.splitFirst with
    | some f => if s.now ≤ f + secNs then (f, s.time.splitRun + 1) else (s.now, 1)
    | none => (s.now, 1)
  updTime (fun t => { t with splitFirst := some first, splitRun := n, splitHold := t.splitHold || decide (3 ≤ n) }) s

/-- The master's count, FREQ, integrator and learned table are copied into the other island (R44). -/
def copyIsland (s : State) : State :=
  let m := mIsl s
  let s := updTimeIsl (!masterB s) (fun t => { m with raw := t.raw, copied := true, held := [] }) s
  updTime (fun t => { t with readmit := 0, resyncReq := false }) s

/-- The mastership decision of a TIME_SPLIT (R43): the island nearer to the extrapolated source time; the present master when the deviations
differ by 125 ps or less, or when no sample has been accepted. -/
def splitMaster (s : State) : Bool :=
  match s.time.accepted with
  | none => masterB s
  | some (src, at_) =>
    let ext : Int := src + ((s.now - at_ : Nat) : Int) * cycleStep (mIsl s).freq
    let da := ((s.time.ta.vt : Int) - ext).natAbs
    let db := ((s.time.tb.vt : Int) - ext).natAbs
    if (da : Int) - db ≤ nsUnit / 8 ∧ (db : Int) - da ≤ nsUnit / 8 then masterB s else decide (db < da)

/-- One compare of the two islands at a compare boundary (R42-R44, R47), without what a change of master does to triggers. A copy that is due is made at a skipped compare
too; an island under the hold of R44 is not readmitted before the copy of its RESYNC. SPLIT_DIFF is the difference in whole ps, towards zero (assumption 12). -/
def compareIslands (driftA driftB : Int) (s : State) : State :=
  let s := elapseTo ((s.now / 1000 + 1) * 1000) s
  let bend (d : Int) (t : TimeIsl) : TimeIsl := { t with vt := ((t.vt : Int) + d * nsUnit / 1000).toNat }
  let s := updTime (fun t => { t with ta := bend driftA t.ta, tb := bend driftB t.tb }) s
  let f := !masterB s
  let faulty := !ftst (okFld f) s
  let both := islOpen islTA s && islOpen islTB s
  let skip := s.time.skipCompare
  let s := updTime (fun t => { t with skipCompare := false }) s
  if !both then s
  else if faulty && (!(timeIsl f s).copied || s.time.resyncReq) then
    if s.time.resyncReq || (ftst F.TIME_CTRL_AUTO_RESYNC s && !s.time.splitHold) then copyIsland s else s
  else if skip then s
  else
    let diff : Int := (s.time.tb.vt : Int) - s.time.ta.vt
    let ps := roundZero ((diff * 1000 : Int) / (nsUnit : Rat))
    let s := fputSat F.TIME_SPLIT_DIFF_PS ps s
    if faulty then
      if s.time.splitHold then s
      else if diff.natAbs ≤ nsUnit / 2 then
        if s.time.readmit + 1 ≥ 2 then updTime (fun t => { t with readmit := 0 }) (fput (okFld f) 1 s)
        else updTime (fun t => { t with readmit := t.readmit + 1 }) s
      else
        let s := countSplit (updTime (fun t => { t with readmit := 0 }) s)
        if ftst F.TIME_CTRL_AUTO_RESYNC s && !s.time.splitHold then updTimeIsl f (fun t => { t with copied := false }) s else s
    else if max 1 (fget F.TIME_SPLIT_CFG_TH s) * nsUnit < diff.natAbs then
      let s := s |> raise F.TIME_EVENT 0 |> bump R.TIME_SPLIT_CNT |> countSplit
      let m := splitMaster s
      markFaulty (!m) (setMaster m s)
    else s

/-- A step or SET moves every island that takes them, in one time-bus cycle (R41): VT becomes `target` (units of 2^-48 ns) on the master. -/
def moveVt (target : Nat) (s : State) : State :=
  let d : Int := (target : Int) - vt s
  let s := keepPast s (onCopied (fun t => { t with vt := ((t.vt : Int) + d).toNat }) s)
  let s := fput F.TIME_EPOCH_COUNT (epoch s + 1) s
  updTime (fun t => { t with skipCompare := true }) (raise F.TIME_EVENT 5 s)

end Sys2Proof.Machine
end

