-- ==== Sys2Proof/Machine/Trigger.lean ====
section
/-!
DEFINITION. The trigger and capture slice (chapter 03, R103-R122): schedules in VT, edges, what steps and mastership changes do to them, and
the capture FIFOs.
-/
namespace Sys2Proof.Machine

def trgIdle : Nat := 0
def trgArmed : Nat := 1
def trgRunning : Nat := 2
def trgStopping : Nat := 3

/-- TRG.STATUS_n.STATE (R108). -/
def trgState (n : Fin 16) (s : State) : Nat := fget (F.TRG_STATUS_n_STATE n.1) s

/-- Gives a trigger a state. -/
def putTrgState (n : Fin 16) (st : Nat) (s : State) : State := fput (F.TRG_STATUS_n_STATE n.1) st s

/-- Changes a trigger. -/
def updTrg (n : Fin 16) (f : Trigger → Trigger) (s : State) : State := { s with trg := upd s.trg n f }

/-- The anchor of a schedule, in units of 2^-16 ns. -/
def trgAnchor (n : Fin 16) (s : State) : Nat :=
  ((fget (F.TRG_ANCHOR_SEC_LO_n_SEC n.1) s + fget (F.TRG_ANCHOR_SEC_HI_n_SEC n.1) s * 2 ^ 32) * secNs + fget (F.TRG_ANCHOR_NS_n_NS n.1) s) * 65536
    + fget (F.TRG_ANCHOR_FRAC_n_FRAC n.1) s

/-- The period of a schedule, in units of 2^-16 ns. -/
def trgPeriod (n : Fin 16) (s : State) : Nat := fget (F.TRG_PERIOD_NS_n_NS n.1) s * 65536 + fget (F.TRG_PERIOD_FRAC_n_FRAC n.1) s

/-- The pulse width of a schedule, in units of 125 ps. -/
def trgWidth (n : Fin 16) (s : State) : Nat := fget (F.TRG_WIDTH_n_W n.1) s

/-- The instant t_k of a schedule (R104). -/
def trgInstant (n : Fin 16) (k : Nat) (s : State) : Nat := trgAnchor n s + k * trgPeriod n s

/-- The placed instant: rounded to the nearest 125 ps, ties upwards (R104). -/
def placed (t : Nat) : Nat := (t + 0x1000) / 0x2000 * 0x2000

/-- Whether a schedule is valid (R106). -/
def trgValid (n : Fin 16) (s : State) : Bool :=
  decide (fget (F.TRG_ANCHOR_NS_n_NS n.1) s ≤ 999999999) && decide (100 * 65536 ≤ trgPeriod n s) && decide (64 ≤ trgWidth n s)
    && decide (trgWidth n s * 0x2000 + 8 * 65536 ≤ trgPeriod n s)

/-- The least k whose instant is not earlier than a VT value (R107). -/
def firstIndex (n : Fin 16) (v : Nat) (s : State) : Nat :=
  if v ≤ trgAnchor n s then 0 else (v - trgAnchor n s + trgPeriod n s - 1) / trgPeriod n s

/-- Whether the quality gate is open (R109). -/
def gateOpen (n : Fin 16) (s : State) : Bool := !(ftst (F.TRG_CFG_n_QUAL_GATE n.1) s && fget F.TIME_STATUS_QUALITY s == 2)

/-- An instant is skipped: counted and shown (R108, R111, R638). -/
def skipInstant (n : Fin 16) (s : State) : State := raise (F.TRG_STATUS_n_SKIP n.1) 0 (bump (R.TRG_SKIP_CNT_n n.1) s)

/-- Whether a pulse of a trigger is active. -/
def pulseActive (n : Fin 16) (s : State) : Bool := s.trg[n.1].pulseEnd.isSome

/-- A leading edge at a placed instant (R105, R108): the pulse, EDGE_IDX, LAST, the history, and the end of a counted schedule. -/
def leadingEdge (n : Fin 16) (at_ : Nat) (s : State) : State :=
  let s := putTrgState n trgRunning s
  let s := updTrg n (fun t => { t with pulseEnd := some (s.time.mraw * 8 + trgWidth n s), last := at_, history := ((at_, epoch s) :: t.history).take 64 }) s
  let s := fput (F.TRG_STATUS_n_LEVEL n.1) 1 s
  let s := fput (F.TRG_LAST_NS_n_NS n.1) (vtParts at_).2.1 s
  let idx := fget (F.TRG_EDGE_IDX_n_COUNT n.1) s + 1
  let s := fput (F.TRG_EDGE_IDX_n_COUNT n.1) idx s
  let cnt := fget (F.TRG_COUNT_n_N n.1) s
  if cnt ≠ 0 ∧ cnt ≤ idx then raise (F.TRG_STATUS_n_DONE n.1) 0 (putTrgState n trgStopping s) else s

/-- The instant that is next is reached: an edge, or a skipped instant (R108, R109, R638). -/
def instantReached (n : Fin 16) (at_ : Nat) (s : State) : State :=
  let s := updTrg n (fun t => { t with next := t.next + 1 }) s
  if !gateOpen n s || pulseActive n s then skipInstant n s else leadingEdge n at_ s

/-- Whether a trigger waits for its next instant. -/
def trgWaiting (n : Fin 16) (s : State) : Bool := trgState n s == trgArmed || trgState n s == trgRunning

/-- Skips `m` instants. -/
def skipMany (n : Fin 16) (m : Nat) (s : State) : State :=
  if m = 0 then s
  else raise (F.TRG_STATUS_n_SKIP n.1) 0 (bumpBy m (R.TRG_SKIP_CNT_n n.1) (updTrg n (fun t => { t with next := t.next + m }) s))

/-- What a step or SET forward does to a trigger: the instants it passes over are skipped (R111). -/
def skipPassed (n : Fin 16) (s : State) : State :=
  if trgWaiting n s then skipMany n (firstIndex n (vt16 s) s - s.trg[n.1].next) s else s

/-- What a change of mastership does to a trigger: of the instants a jump passes over the latest is driven late, the earlier ones are skipped
(R112); an active pulse is not restarted (R638). -/
def latePassed (n : Fin 16) (s : State) : State :=
  if trgWaiting n s then
    let m := firstIndex n (vt16 s) s - s.trg[n.1].next
    if m = 0 then s
    else
      let s := skipMany n (m - 1) s
      let s := updTrg n (fun t => { t with next := t.next + 1 }) s
      if !gateOpen n s || pulseActive n s then skipInstant n s
      else raise (F.TRG_STATUS_n_LATE n.1) 0 (leadingEdge n (stamp16 s) s)
  else s

/-- The mastership change of every trigger. -/
def lateTriggers (s : State) : State := forFin 16 latePassed s

/-- The step of every trigger. -/
def skipTriggers (s : State) : State := forFin 16 skipPassed s

/-- An effect that may move mastership, with what the move does to the triggers (R103, R112). -/
def withMasterMove (f : State → State) (s : State) : State :=
  let m := masterB s
  let s := f s
  if masterB s = m then s else lateTriggers s

/-- STOP of a trigger (R108). -/
def trgStop (n : Fin 16) (s : State) : State :=
  if trgState n s = trgArmed then putTrgState n trgIdle s
  else if trgState n s = trgRunning then putTrgState n (if pulseActive n s then trgStopping else trgIdle) s
  else s

/-- START of a trigger (R107, R108). -/
def trgStart (n : Fin 16) (s : State) : State :=
  if trgState n s = trgIdle ∧ trgValid n s = true then
    let k := firstIndex n (vt16 s + 2000 * 65536 + (if vt s % 2 ^ 32 = 0 then 0 else 1)) s
    s |> putTrgState n trgArmed |> updTrg n (fun t => { t with next := k, history := [] })
      |> clearRegs [R.TRG_EDGE_IDX_n n.1, R.TRG_SKIP_CNT_n n.1]
  else raise (F.TRG_STATUS_n_REFUSED n.1) 0 s

/-- What the TRGn ball shows: high-impedance while its driver is off, else the level of the schedule (R114). -/
def trgBall (n : Fin 16) (s : State) : Option Bool :=
  if s.trg[n.1].carry.isSome then s.trg[n.1].carry
  else if fbit F.TRG_OUT_EN_EN n.1 s then some (pulseActive n s != ftst (F.TRG_CFG_n_POL n.1) s) else none

/-- TRG_START. -/
def execTrgStart (w : Initiator) (n : Fin 16) (s : State) : Host.Outcome State Fault Refusal :=
  .next (regCmd w (R.TRG_CMD_n n.1) (trgStart n) s)

/-- TRG_STOP. -/
def execTrgStop (w : Initiator) (n : Fin 16) (s : State) : Host.Outcome State Fault Refusal :=
  .next (regCmd w (R.TRG_CMD_n n.1) (trgStop n) s)

/-- TRIGGER_INSTANT: VT reaches the trigger's next instant (R108). -/
def execTriggerInstant (n : Fin 16) (s : State) : Host.Outcome State Fault Refusal :=
  .next (
    if trgWaiting n s then
      let t := placed (trgInstant n s.trg[n.1].next s)
      instantReached n t (elapseVt (t * 2 ^ 32) s)
    else s)

/-- TRAILING_EDGE: WIDTH after its leading edge, on the raw count, a pulse ends (R105, R108). -/
def execTrailingEdge (n : Fin 16) (s : State) : Host.Outcome State Fault Refusal :=
  .next (
    match s.trg[n.1].pulseEnd with
    | none => s
    | some e =>
      let s := advance ((e + 7) / 8 - s.time.mraw) s
      let s := fput (F.TRG_STATUS_n_LEVEL n.1) 0 (updTrg n (fun t => { t with pulseEnd := none, carry := none }) s)
      if trgState n s = trgStopping then putTrgState n trgIdle s else s)

/-- What a read of LAST_NS does (R115). -/
def trgLastRead (w : Initiator) (n : Fin 16) (s : State) : State :=
  let l := s.trg[n.1].last
  answer .done (vtParts l).2.1 { s with trgShadows := sput (fun _ => 0) (n.1 * 256 + initIdx w) l s.trgShadows }

/-- TRG_LAST_READ: the latest edge's nanoseconds; seconds and fraction go to the reader's shadow (R115). -/
def execTrgLastRead (w : Initiator) (n : Fin 16) (s : State) : Host.Outcome State Fault Refusal :=
  .next (regRead w (R.TRG_LAST_NS_n n.1) (trgLastRead w n) s)

/-! ### Captures (R117-R122) -/

/-- Changes a capture input. -/
def updCap (m : Fin 16) (f : Capture → Capture) (s : State) : State := { s with cap := upd s.cap m f }

/-- Shows the head of a capture FIFO and its fill in the registers. -/
def showCap (m : Fin 16) (s : State) : State :=
  let f := s.cap[m.1].fifo
  let s := fput (F.TRG_CAP_STATUS_m_FILL m.1) f.length s
  wr (R.TRG_CAP_STAMP_NS_m m.1) (match f.head? with | some e => BitVec.ofNat 32 (vtParts e.stamp).2.1 | none => 0xFFFFFFFF) s

/-- Whether CFG selects an edge (R119). -/
def capSelected (m : Fin 16) (rise : Bool) (s : State) : Bool := fget (F.TRG_CAP_CFG_m_EDGE m.1) s / (if rise then 1 else 2) % 2 == 1

/-- An edge that counts, at a raw instant in 125 ps (R119). -/
def captureEdge (m : Fin 16) (rise : Bool) (at8 sub : Nat) (s : State) : State :=
  let c := s.cap[m.1]
  let near := match c.lastEdge with
    | some l => decide (at8 < l + 32)
    | none => false
  if near then raise (F.TRG_CAP_STATUS_m_MERGE m.1) 0 (updCap m (fun c => { c with gap := true }) s)
  else
    let s := updCap m (fun c => { c with lastEdge := some at8 }) s
    if 16 ≤ c.fifo.length then
      s |> updCap m (fun c => { c with gap := true }) |> bump (R.TRG_CAP_DROP_CNT_m m.1) |> raise (F.TRG_CAP_STATUS_m_OVF m.1) 0
    else
      let raw : Int := (vt16 s / 0x2000 * 0x2000 + sub * 0x2000 : Nat)
      let dly := roundNearest ((fgetI (F.TRG_CAP_DELAY_m_PS m.1) s : Rat) * 65536 / 1000)
      let e : CapEntry := ⟨(raw - dly).toNat, rise, epoch s % 16, c.gap⟩
      showCap m (updCap m (fun c => { c with fifo := c.fifo ++ [e], gap := false }) s)

/-- CAPTURE_EDGE: an edge crosses the threshold `after` 125-ps units from now, and the new level holds for `hold` ns (R117-R119). -/
def execCaptureEdge (m : Fin 16) (rise : Bool) (after hold : Nat) (s : State) : Host.Outcome State Fault Refusal :=
  .next (
    let s := advance (after / 8) s
    if capSelected m rise s && decide (fget (F.TRG_CAP_CFG_m_FILT m.1) s * 8 ≤ hold) then
      captureEdge m rise (s.time.mraw * 8 + after % 8) (after % 8) s
    else s)

/-- What a read of STAMP_NS does (R120). -/
def capPop (w : Initiator) (m : Fin 16) (s : State) : State :=
  match s.cap[m.1].fifo with
  | [] => answer .done 0xFFFFFFFF s
  | e :: rest =>
    answer .done (vtParts e.stamp).2.1
      (showCap m (updCap m (fun c => { c with
        fifo := rest
        undo := undoFor w e
        shadows := sput (fun _ => ⟨0, false, 0, false⟩) (initIdx w) e c.shadows }) s))

/-- CAP_STAMP_POP: pops the head entry into the reader's shadow; an empty FIFO returns 0xFFFF_FFFF and changes nothing (R120). -/
def execCapStampPop (w : Initiator) (m : Fin 16) (s : State) : Host.Outcome State Fault Refusal :=
  .next (regRead w (R.TRG_CAP_STAMP_NS_m m.1) (capPop w m) s)

end Sys2Proof.Machine
end

