-- ==== Sys2Proof/Machine/Camera.lean ====
section
/-!
DEFINITION. Camera ingest (chapter 03, R123-R136): frames, lines, staging, line items and the line packet.
-/
namespace Sys2Proof.Machine

/-- The island of a camera port (R16). -/
def camIsl (n : Fin 4) : Fin 21 := if n.1 < 2 then islCAM0 else islCAM1

/-- Changes a camera port. -/
def updCam (n : Fin 4) (f : CamSt → CamSt) (s : State) : State := { s with cam := upd s.cam n f }

/-- The open frame of a virtual channel. -/
def camFrame (n : Fin 4) (vc : Fin 16) (s : State) : Option CamFrame := s.cam[n.1].frames[vc.1]

/-- Gives a virtual channel its open frame, or none, and shows STATUS.OPEN (R136). -/
def putFrame (n : Fin 4) (vc : Fin 16) (f : Option CamFrame) (s : State) : State :=
  let s := updCam n (fun c => { c with frames := upd c.frames vc fun _ => f }) s
  fput (F.CAM_STATUS_OPEN n.1) (s.cam[n.1].frames.toList.any Option.isSome).toNat s

/-- Whether a port takes packets: enabled, and its island takes new transactions (R135). -/
def camTakes (n : Fin 4) (s : State) : Bool := ftst (F.CAM_CTRL_EN n.1) s && islOpen (camIsl n) s

/-- A burst arrives: STATUS.LINK (R136). -/
def camBurst (n : Fin 4) (s : State) : State := updCam n (fun c => { c with lastBurst := s.now }) (fput (F.CAM_STATUS_LINK n.1) 1 s)

/-- The instant at which LINK_TO has passed since the latest burst (R134, R136). -/
def linkDue (n : Fin 4) (s : State) : Nat := s.cam[n.1].lastBurst + clampNat 10 100000 (fget (F.CAM_LINK_TO_US n.1) s) * 1000

/-- A packet is discarded and counted (R134). -/
def camDiscard (n : Fin 4) (s : State) : State := bump (R.CAM_PKT_DISC n.1) s

/-- An uncorrectable header (R134). -/
def camBadHeader (n : Fin 4) (s : State) : State := raise (F.CAM_EVENT n.1) 1 (camDiscard n s)

/-- Whether a staged line is an END packet. -/
def CamLine.isEnd (l : CamLine) : Bool := l.flags / 128 % 2 == 1

/-- Whether a staged line has not yet reached its header thread: the descriptor and the window of its item are not written. -/
def lineWaits (n : Fin 4) (l : CamLine) (s : State) : Bool := l.header.isNone && (!l.queued || s.cam[n.1].queue.contains l.id)

/-- A staged line with LOSS. -/
def CamLine.withLoss (l : CamLine) : CamLine := if l.flags / 4 % 2 = 1 then l else { l with flags := l.flags + 4 }

/-- Line `id` of a frame is lost: LOSS in the frame's next line packet (R129, R131), which is the oldest later one that waits, or the next that the open frame brings. -/
def markLoss (n : Fin 4) (vc : Fin 16) (seq id : Nat) (s : State) : State :=
  match s.cam[n.1].staged.find? fun l => l.vc == vc && l.frameSeq == seq && decide (id < l.id) && lineWaits n l s with
  | some l => updCam n (fun c => { c with staged := c.staged.map fun m => if m.id = l.id then m.withLoss else m }) s
  | none => match camFrame n vc s with
    | some f => if f.seq = seq then putFrame n vc (some { f with loss := true }) s else s
    | none => s

/-- A line of the open frame is lost as it arrives. -/
def arrivalLost (n : Fin 4) (vc : Fin 16) (s : State) : State :=
  match camFrame n vc s with
  | some f => putFrame n vc (some { f with loss := true }) s
  | none => s

/-- A lost line that is also counted (R129, R133). -/
def dropLine (n : Fin 4) (vc : Fin 16) (seq id : Nat) (s : State) : State := markLoss n vc seq id (bump (R.CAM_LINES_DROP n.1) s)

/-- The corrected stamp of what arrives now: the Z480's own ingest latency is in the stamp and removed again; LINK_LAT is the deserialiser's (R125). -/
def camStamp (n : Fin 4) (s : State) : Nat := stamp16 s - (rd (R.CAM_LINK_LAT n.1) s).toNat

/-- The staging that a port's lines use, in bytes. -/
def stagedBytes (n : Fin 4) (s : State) : Nat := (s.cam[n.1].staged.map fun l => l.payload.length).sum

/-- The staging a port has, in bytes (R136). -/
def stageSize (n : Fin 4) (s : State) : Nat := fget (F.CAM_STAGE_CFG_SIZE n.1) s * 65536

/-- The exposure trigger of a frame (R126). -/
def findTrigger (n : Fin 4) (vc : Fin 16) (fs : Nat) (s : State) : Option (Nat × Nat) :=
  let lag := fget (F.CAM_VC_TRIG_v_LAG_US n.1 vc.1) s * 1000 * 65536
  let win := clampNat 1 1000 (fget (F.CAM_VC_TRIG_v_WIN_MS n.1 vc.1) s) * 1000000 * 65536
  let g : Fin 16 := Fin.ofNat 16 (fget (F.CAM_VC_CFG_v_TRG_SEL n.1 vc.1) s)
  let h := s.trg[g.1].history
  if !ftst (F.CAM_VC_CFG_v_TRG_EN n.1 vc.1) s || decide (fs < lag) then none
  else match h.find? fun p => decide (p.1 ≤ fs - lag) with
    | some p => if fs - lag ≤ p.1 + win then some p else none
    | none => none

/-- TIME_WARN (R131). -/
def timeWarn (s : State) : Bool := fget F.TIME_STATUS_QUALITY s == 1 || fget F.TIME_STATUS_QUALITY s == 2

/-- A line of a frame as it enters staging, with the flags of R131 that its arrival fixes; `ep` is TIME.EPOCH at its stamp. -/
def makeLine (n : Fin 4) (vc : Fin 16) (f : CamFrame) (dt lineNum arr ep extra : Nat) (payload : List Byte) (s : State) : CamLine :=
  let stepped := ep != f.fsEpoch || (match f.trigVt with | some (_, e) => e != ep | none => false)
  let flags := extra + (if f.loss then 4 else 0) + (if f.trigVt.isNone then 8 else 0) + (if timeWarn s then 64 else 0) + (if stepped then 512 else 0)
  { id := s.cam[n.1].nextId, vc := vc, dt := dt, flags := flags, frameNum := f.num, lineNum := lineNum, frameSeq := f.seq, epoch := ep,
    trigVt := (match f.trigVt with | some (t, _) => t | none => 0), fsVt := f.fsVt, arrVt := arr, payload := payload, queued := false, header := none, mark := none }

/-- Puts a line into staging. -/
def stageLine (n : Fin 4) (l : CamLine) (s : State) : State :=
  updCam n (fun c => { c with staged := c.staged ++ [l], nextId := c.nextId + 1 }) s

/-- Closes an open frame with its END packet (R131, R134): `arr` is its stamp, `extra` the flags its end adds. -/
def endFrame (n : Fin 4) (vc : Fin 16) (arr extra : Nat) (s : State) : State :=
  match camFrame n vc s with
  | none => s
  | some f => putFrame n vc none (stageLine n (makeLine n vc f 0 f.forwarded arr (epoch s) (128 + extra) [] s) s)

/-- Closes an open frame with ABORT: no frame-end packet has closed it (R131, R134). -/
def abortFrame (n : Fin 4) (vc : Fin 16) (arr : Nat) (s : State) : State :=
  if (camFrame n vc s).isNone then s else raise (F.CAM_EVENT n.1) 5 (bump (R.CAM_FRAMES_ABORT n.1) (endFrame n vc arr 256 s))

/-- Whether a ring port can carry camera packets (R132): its link is up, and its plane, which is fixed (R212), is there. -/
def ringPortUp (q : Nat) (s : State) : Bool :=
  ftst (F.SW_PORT_STATUS_p_LINK q) s && ftst (if q = 0 then F.SW_STATUS_PLANE0_OK else F.SW_STATUS_PLANE1_OK) s

/-- A frame starts: the VC returns to its own port when that is up (R132). -/
def placeVc (n : Fin 4) (vc : Fin 16) (s : State) : State :=
  let m := fget (F.CAM_VC_CFG_v_PORT_MAP n.1 vc.1) s
  let away := ftst (F.CAM_VC_CFG_v_FAILOVER n.1 vc.1) s && decide (m < 2) && !ringPortUp m s
  updCam n (fun c => { c with moved := upd c.moved vc fun _ => away }) s

/-- A ring port has gone down: every VC with FAILOVER that is mapped to it moves (R132). -/
def moveVcs (q : Nat) (s : State) : State :=
  forFin 4 (fun n s => updCam n (fun c => { c with
    moved := Vector.ofFn fun v => c.moved[v.1] || (ftst (F.CAM_VC_CFG_v_FAILOVER n.1 v.1) s && fget (F.CAM_VC_CFG_v_PORT_MAP n.1 v.1) s == q) }) s) s

/-- Opens a frame (R126, R130). -/
def openFrame (n : Fin 4) (vc : Fin 16) (num : Nat) (s : State) : State :=
  let fs := camStamp n s
  let trig := findTrigger n vc fs s
  let seq := (fget (F.CAM_VC_SEQ_v_FRAME_SEQ n.1 vc.1) s + 1) % 2 ^ 32
  let s := fput (F.CAM_VC_SEQ_v_FRAME_SEQ n.1 vc.1) seq s
  let s := putFrame n vc (some ⟨num, 0, 0, fs, epoch s, trig, seq, false, none⟩) s
  whenB (ftst (F.CAM_VC_CFG_v_TRG_EN n.1 vc.1) s && trig.isNone) (raise (F.CAM_EVENT n.1) 6) s

/-- CSI_FRAME_START (R124, R134). -/
def execCsiFrameStart (n : Fin 4) (vc : Fin 16) (num : BitVec 16) (ecc : HdrEcc) (s : State) : Host.Outcome State Fault Refusal :=
  .next (
    if !camTakes n s then s
    else
      let s := camBurst n s
      if ecc = .bad then camBadHeader n s
      else if !ftst (F.CAM_VC_CFG_v_EN n.1 vc.1) s then camDiscard n s
      else openFrame n vc num.toNat (abortFrame n vc (camStamp n s) (placeVc n vc s)))

/-- CSI_FRAME_END (R134). -/
def execCsiFrameEnd (n : Fin 4) (vc : Fin 16) (ecc : HdrEcc) (s : State) : Host.Outcome State Fault Refusal :=
  .next (
    if !camTakes n s then s
    else
      let s := camBurst n s
      if ecc = .bad then camBadHeader n s
      else if !ftst (F.CAM_VC_CFG_v_EN n.1 vc.1) s || (camFrame n vc s).isNone then camDiscard n s
      else endFrame n vc (camStamp n s) (if ecc = .corrected then 2 else 0) s)

/-- CSI_LINE_START (R124): its stamp is the stamp of the line that follows. -/
def execCsiLineStart (n : Fin 4) (vc : Fin 16) (num : BitVec 16) (ecc : HdrEcc) (s : State) : Host.Outcome State Fault Refusal :=
  .next (
    if !camTakes n s then s
    else
      let s := camBurst n s
      if ecc = .bad then camBadHeader n s
      else if !ftst (F.CAM_VC_CFG_v_EN n.1 vc.1) s then camDiscard n s
      else match camFrame n vc s with
        | some f => putFrame n vc (some { f with lineStart := some ⟨camStamp n s, num.toNat, epoch s, ecc == .corrected⟩ }) s
        | none => camDiscard n s)

/-- The long-packet data types that are supported (R123). -/
def dtSupported (dt : Nat) : Bool := [0x2A, 0x2B, 0x2C, 0x2D, 0x2E, 0x1E, 0x12].contains dt

/-- A line of an open frame whose header is good (R127, R133, R134). -/
def takeLine (n : Fin 4) (vc : Fin 16) (f : CamFrame) (dt : Nat) (payload : List Byte) (crcOk corrected : Bool) (s : State) : State :=
  let l := f.lineStart.getD ⟨camStamp n s, 0, epoch s, false⟩
  let num := if l.num = 0 then f.lines + 1 else l.num
  let s := putFrame n vc (some { f with lines := f.lines + 1, lineStart := none }) s
  if stageSize n s < stagedBytes n s + payload.length then raise (F.CAM_EVENT n.1) 4 (arrivalLost n vc (bump (R.CAM_LINES_DROP n.1) s))
  else
    let s := if crcOk then s else raise (F.CAM_EVENT n.1) 2 (bump (R.CAM_CRC_CNT n.1) s)
    if !crcOk && ftst (F.CAM_VC_CFG_v_CRC_DROP n.1 vc.1) s then arrivalLost n vc s
    else
      let extra := (if crcOk then 0 else 1) + (if corrected || l.corrected then 2 else 0) + (if dt = 0x12 then 32 else 0)
      let s := stageLine n (makeLine n vc f dt num l.stamp l.epoch extra payload s) s
      putFrame n vc (some { f with lines := f.lines + 1, lineStart := none, loss := false }) s

/-- CSI_LONG_PACKET (R127, R133, R134). -/
def execCsiLongPacket (n : Fin 4) (vc : Fin 16) (dt : BitVec 6) (payload : List Byte) (crcOk : Bool) (ecc : HdrEcc) (s : State) :
    Host.Outcome State Fault Refusal :=
  .next (
    if !camTakes n s then s
    else
      let s := camBurst n s
      if ecc = .bad then arrivalLost n vc (camBadHeader n s)
      else if !dtSupported dt.toNat then raise (F.CAM_EVENT n.1) 3 (camDiscard n s)
      else if !ftst (F.CAM_VC_CFG_v_EN n.1 vc.1) s then camDiscard n s
      else if dt = 0x12 ∧ ftst (F.CAM_VC_CFG_v_EMB_EN n.1 vc.1) s = false then s
      else if payload.isEmpty then raise (F.CAM_EVENT n.1) 8 (camDiscard n s)
      else match camFrame n vc s with
        | none => raise (F.CAM_EVENT n.1) 7 (camDiscard n s)
        | some f => takeLine n vc f dt.toNat payload crcOk (ecc == .corrected) s)

/-- CSI_GENERIC_SHORT_PACKET: discarded and counted (R123). -/
def execCsiGenericShortPacket (n : Fin 4) (s : State) : Host.Outcome State Fault Refusal :=
  .next (if camTakes n s then camDiscard n (camBurst n s) else s)

/-- CSI_LINK_TIMEOUT: no burst for LINK_TO while a frame is open ends every open frame with ABORT, stamped with the VT of the detection (R134). -/
def execCsiLinkTimeout (n : Fin 4) (s : State) : Host.Outcome State Fault Refusal :=
  .next (
    let s := fput (F.CAM_STATUS_LINK n.1) 0 (elapseTo (linkDue n s) s)
    if ftst (F.CAM_STATUS_OPEN n.1) s then raise (F.CAM_EVENT n.1) 0 (forFin 16 (fun vc s => abortFrame n vc (stamp16 s) s) s) else s)

/-- CSI_SKEW_CALIBRATION (R123, R136). -/
def execCsiSkewCalibration (n : Fin 4) (s : State) : Host.Outcome State Fault Refusal :=
  .next (if camTakes n s then fput (F.CAM_STATUS_DESKEWED n.1) 1 (camBurst n s) else s)

/-- The counters of a camera port (R136). -/
def camCounters (n : Nat) : List Nat :=
  [R.CAM_LINES_FWD n, R.CAM_LINES_DROP n, R.CAM_PKT_DISC n, R.CAM_CRC_CNT n, R.CAM_FRAMES_ABORT n]

/-- CAM_CNT_CLR. -/
def execCamCntClr (w : Initiator) (n : Fin 4) (s : State) : Host.Outcome State Fault Refusal :=
  .next (regCmd w (R.CAM_CNT_CLR n.1) (clearRegs (camCounters n.1)) s)

/-! ### Line items and the line packet (R128-R130) -/

/-- A VT value in the packet's layout: seconds 6 bytes, nanoseconds 4, fraction 2, big-endian (R130). -/
def vtBytes (v : Nat) : List Byte :=
  let (sec, ns, frac) := vtParts v
  beBytes 6 sec ++ beBytes 4 ns ++ beBytes 2 frac

/-- Bytes 22-79 of a segment of a line packet (R130). -/
def lineHeader (n : Fin 4) (l : CamLine) (seg ofs : Nat) (last : Bool) : List Byte :=
  [1, BitVec.ofNat 8 l.dt, BitVec.ofNat 8 (l.vc.1 + 16 * n.1), 0] ++ beBytes 2 (l.flags + if last then 16 else 0) ++ beBytes 2 l.frameNum
    ++ beBytes 2 l.lineNum ++ beBytes 4 l.frameSeq ++ beBytes 2 seg ++ beBytes 2 l.payload.length ++ beBytes 2 ofs ++ beBytes 2 l.epoch
    ++ vtBytes l.trigVt ++ vtBytes l.fsVt ++ vtBytes l.arrVt

/-- The window the header thread finds for a line item: bytes 22-79 of the line packet at offsets 40-97 (R157). -/
def lineWindow (n : Fin 4) (l : CamLine) : List Byte := List.replicate 40 0 ++ lineHeader n l 0 0 false ++ List.replicate 158 0

/-- The payload cut into segments of SEG_MAX bytes; an END packet is one empty segment (R128, R131). -/
def cutSegments (m : Nat) : Nat → List Byte → List (List Byte)
  | 0, _ => []
  | fuel + 1, p => if p.length ≤ m then [p] else p.take m :: cutSegments m fuel (p.drop m)

/-- The header of a segment: a copy of the thread's 98 bytes, in which the packetiser writes sequence_num (byte 2 of the line packet), LAST_SEG in FLAGS (26-27), SEG_IDX
(36-37) and BYTE_OFS (40-41); the line packet begins at offset 18 (R128, R157). -/
def segHeader (h : List Byte) (seq idx ofs : Nat) (last : Bool) : List Byte :=
  let low := (h.getD 45 0).toNat
  let flags := low / 32 * 32 + low % 16 + if last then 16 else 0
  h.take 20 ++ [BitVec.ofNat 8 seq] ++ (h.drop 21).take 24 ++ [BitVec.ofNat 8 flags] ++ (h.drop 46).take 8
    ++ beBytes 2 idx ++ (h.drop 56).take 2 ++ beBytes 2 ofs ++ (h.drop 60).take 38

/-- The frames of a sent line: each segment with a copy of the thread's header and its own fields (R128). -/
def lineFrames (l : CamLine) (header : List Byte) (seq0 : Nat) : List (List Byte) :=
  let m := max 1 Config.segMax
  let segs := cutSegments m (l.payload.length + 1) l.payload
  (segs.zip (List.range segs.length)).map fun (p, i) =>
    segHeader header (seq0 + i) i (i * m) (decide (i + 1 = segs.length) && !l.isEnd) ++ p

/-- A line leaves staging. -/
def unstage (n : Fin 4) (id : Nat) (s : State) : State :=
  updCam n (fun c => { c with staged := c.staged.filter fun l => l.id != id, queue := c.queue.filter fun k => k != id }) s

/-- The end of a line that was not forwarded: it is counted and LOSS is set (R129); an END packet is no line. -/
def lineFailed (n : Fin 4) (vc : Fin 16) (seq id : Nat) (isEnd : Bool) (s : State) : State := if isEnd then s else dropLine n vc seq id s

/-- A line item ends other than by being sent: its staging is released (R129). -/
def lineLost (n : Fin 4) (id : Nat) (s : State) : State :=
  match s.cam[n.1].staged.find? fun l => l.id == id with
  | none => s
  | some l => lineFailed n l.vc l.frameSeq id l.isEnd (unstage n id s)

/-- One more line of a frame is forwarded: the open frame's count, or the one that its waiting END packet carries (R130). -/
def countForwarded (n : Fin 4) (vc : Fin 16) (seq : Nat) (s : State) : State :=
  match (camFrame n vc s).filter fun f => f.seq == seq with
  | some f => putFrame n vc (some { f with forwarded := f.forwarded + 1 }) s
  | none => updCam n (fun c => { c with
      staged := c.staged.map fun m => if m.vc = vc ∧ m.frameSeq = seq ∧ m.isEnd = true ∧ lineWaits n m s = true then { m with lineNum := m.lineNum + 1 } else m }) s

/-- A line item is sent: the packetiser has it, with the thread's header and its stamp mark (R128, R136, R203). -/
def lineSent (n : Fin 4) (id : Nat) (header : List Byte) (mark : Option (Nat × Bool)) (s : State) : State :=
  match s.cam[n.1].staged.find? fun l => l.id == id with
  | none => s
  | some l =>
    let s := updCam n (fun c => { c with staged := c.staged.map fun m => if m.id = id then { m with header := some header, mark := mark } else m }) s
    if l.isEnd then s else countForwarded n l.vc l.frameSeq s

/-- Whether the thread that a camera's line queue is bound to runs in a group that is OFF: its lines end (R135). -/
def headerThreadGone (n : Fin 4) (s : State) : Bool :=
  (List.finRange 24).any fun e => (List.range 24).any fun q =>
    ftst (F.ENG_QSLOT_q_EN e.1 q) s && !ftst (F.ENG_QSLOT_q_DIR e.1 q) s && fget (F.ENG_QSLOT_q_QID e.1 q) s == 0x010 + n.1
      && islSt (engIsl e) s == .off

/-- The lines on a camera's queue end when the header thread's domain is lost (R135). -/
def queueLost (n : Fin 4) (s : State) : State := if headerThreadGone n s then s.cam[n.1].queue.foldl (fun s id => lineLost n id s) s else s

/-- LINE_ITEM_PUSH: the oldest staged line that is not yet offered goes onto its header thread's queue when an entry is free (R128, R151); it ends there when the thread's domain
is lost (R135). -/
def execLineItemPush (n : Fin 4) (s : State) : Host.Outcome State Fault Refusal :=
  .next (
    match s.cam[n.1].staged.find? fun l => !l.queued with
    | none => s
    | some l =>
      if 32 ≤ s.cam[n.1].queue.length then s
      else queueLost n (updCam n (fun c => { c with
        queue := c.queue ++ [l.id]
        staged := c.staged.map fun m => if m.id = l.id then { m with queued := true } else m }) s))

/-- An island stop begins: each open frame gets its END packet with ABORT (R135). -/
def camAbortFrames (n : Fin 4) (s : State) : State := forFin 16 (fun vc s => abortFrame n vc (camStamp n s) s) s

/-- The island has stopped or is lost: staged lines that have not been sent are discarded and counted (R135). -/
def camFlush (n : Fin 4) (s : State) : State :=
  let k := (s.cam[n.1].staged.filter fun l => l.header.isNone && !l.isEnd).length
  let s := updCam n (fun c => { c with staged := [], queue := [], frames := Vector.replicate 16 none }) s
  fput (F.CAM_STATUS_OPEN n.1) 0 (bumpBy k (R.CAM_LINES_DROP n.1) s)

end Sys2Proof.Machine
end

