-- ==== Sys2Proof/Machine/PdCore.lean ====
section
/-!
DEFINITION. The power die as other blocks meet it (chapter 10): what drives an output (R364), its latches (R366, R390), shedding and restore (R378-R384),
the control states (R386), and the completion records of its queues (R362).
-/
namespace Sys2Proof.Machine

/-- Changes the state of the power die. -/
def updPd (f : PdSt → PdSt) (s : State) : State := { s with pd := f s.pd }

/-- Changes an output. -/
def updCh (n : Fin 48) (f : PdCh → PdCh) (s : State) : State := updPd (fun p => { p with ch := upd p.ch n f }) s

/-- An output beside its registers. -/
def pdCh (n : Fin 48) (s : State) : PdCh := s.pd.ch[n.1]

/-! ### Families (R355, R356) -/

/-- Whether a channel index names an output. -/
def chExists (n : Nat) : Bool := decide (n < 38) || (decide (40 ≤ n) && decide (n < 48))

/-- Whether an output is a half-bridge. -/
def isHb (n : Nat) : Bool := decide (32 ≤ n) && decide (n < 38)

/-- Whether an output is a gate predriver. -/
def isGd (n : Nat) : Bool := decide (40 ≤ n)

/-- Whether an output is a light channel. -/
def isLight (n : Nat) : Bool := decide (24 ≤ n) && decide (n < 32)

/-- The unit of an output's current fields, in mA (R398). -/
def curUnit (n : Nat) : Nat := if isGd n then 10 else 1

/-- I_R in mA (R355, R391). -/
def iR (n : Nat) (s : State) : Nat :=
  if n < 8 then 8000 else if n < 24 then 4000 else if n < 32 then 1500 else if n < 38 then 5000 else 100 * fget (F.LOADCH_GD_CFG_n_RATING n) s

/-- R_ON at 25 °C in mΩ; a predriver contributes no loss (R355, R379). -/
def rOn25 (n : Nat) : Nat := if n < 8 then 10 else if n < 24 then 25 else if n < 32 then 80 else if n < 38 then 40 else 0

/-- The thermal group of an output (R355). -/
def tgOf (n : Nat) : Fin 6 := if n < 4 then 0 else if n < 8 then 1 else if n < 16 then 2 else if n < 24 then 3 else if isHb n then 5 else 4

/-- The range of PWM frequencies of an output's family, in Hz (R355). -/
def pwmRange (n : Nat) : Nat × Nat := if isHb n then (1000, 25000) else if isLight n then (50, 2000) else (50, 400)

/-- Every output, in index order. -/
def allCh : List (Fin 48) := (List.finRange 48).filter fun n => chExists n.1

/-- Does an effect for every output, in index order. -/
def forCh (f : Fin 48 → State → State) (s : State) : State := allCh.foldl (fun s n => f n s) s

/-! ### What drives an output (R364) -/

def csHolding : Nat := 0
def csLimp : Nat := 1
def csControlled : Nat := 2
def csParked : Nat := 3

/-- The control state (R386). -/
def cstate (s : State) : Nat := fget F.LOADCH_STATUS_CSTATE s

/-- Whether one lane of the interface at least is alive (R15). -/
def laneAlive (s : State) : Bool := ftst F.LOADCH_STATUS_LANE_A s || ftst F.LOADCH_STATUS_LANE_B s

/-- A drive at a duty: 0 acts as OFF and 1,024 as ON (R358). -/
def pwmDrive (duty freq : Nat) : PdDrive := if duty = 0 then .off else if duty ≥ 1024 then .high else .pwm duty freq

/-- The limp state of an output (R385). -/
def limpDrive (n : Fin 48) (s : State) : PdDrive :=
  match fget (F.LOADCH_CH_CFG_n_LIMP n.1) s with
  | 1 => .high
  | 2 => pwmDrive (fget (F.LOADCH_LIMP_PWM_n_LIMP_DUTY n.1) s) (fget (F.LOADCH_LIMP_PWM_n_LIMP_FREQ n.1) s)
  | 3 => if isHb n.1 then .low else .off
  | _ => .off

/-- Whether an output is latched (R368). -/
def chLatched (n : Fin 48) (s : State) : Bool := ftst (F.LOADCH_CH_STAT_n_CAUSE n.1) s

/-- Whether an output is shed, or waits for its restore (R383, R384). -/
def chShed (n : Fin 48) (s : State) : Bool := ftst (F.LOADCH_CH_STAT_n_SHED_SRC n.1) s || (pdCh n s).wait

/-- Whether a test pulse of R374 is in progress on an output. -/
def chPulsing (n : Fin 48) (s : State) : Bool := s.pd.tests.any fun t => t.ch == n && t.pulse.isSome

/-- What control asks of an output (R364, row 4). -/
def controlDrive (n : Fin 48) (s : State) : PdDrive :=
  match (pdCh n s).mode with
  | .off => .off
  | .limp => limpDrive n s
  | .cmd | .held | .kept => (pdCh n s).cmd

/-- Whether an output is meant to be on, apart from a test pulse. -/
def chWanted (n : Fin 48) (s : State) : Bool := !chLatched n s && !chShed n s && controlDrive n s != .off

/-- The drive of an output (R364). -/
def chDrive (n : Fin 48) (s : State) : PdDrive := if chWanted n s && !chPulsing n s then controlDrive n s else .off

/-- Whether an output is on. -/
def chOn (n : Fin 48) (s : State) : Bool := chDrive n s != .off

def drvCode : PdDrive → Nat
  | .off => 0
  | .high => 1
  | .pwm _ _ => 2
  | .low => 8

/-- CH_STAT.STATE (R400). -/
def chStateCode (n : Fin 48) (s : State) : Nat :=
  if chLatched n s then 3
  else if chShed n s then 4
  else if chPulsing n s then 7
  else
    match (pdCh n s).mode with
    | .off => 0
    | .held => 5
    | .limp | .kept => 6
    | .cmd => drvCode (pdCh n s).cmd

/-- Shows the state of an output. -/
def chShow (n : Fin 48) (s : State) : State := fput (F.LOADCH_CH_STAT_n_STATE n.1) (chStateCode n s) s

/-- Opens the inrush window of an output that turns on: it runs from the first on-phase (R369). -/
def openInrush (n : Fin 48) (s : State) : State :=
  let ms := clampNat 0 2000 (fget (F.LOADCH_INRUSH_n_INRUSH_MS n.1) s)
  s |> updCh n (fun c => { c with inrushEnd := c.phase + ms * 1000000 }) |> fput (F.LOADCH_CH_STAT_n_INRUSH n.1) (if ms = 0 then 0 else 1)

/-- The period of a PWM frequency in ns. -/
def pwmPeriod (freq : Nat) : Nat := max 1 (secNs / max 1 freq)

/-- The on-time of a PWM drive in ns. -/
def pwmOnNs (duty freq : Nat) : Nat := pwmPeriod freq * duty / 1024

/-- Whether an output's on-phases follow VT (R365): without control it has no mark of VT. -/
def pwmAligned (n : Fin 48) (s : State) : Bool := ftst (F.LOADCH_CH_CFG_n_VT_ALIGN n.1) s && cstate s == csControlled

/-- How far a VT value, in ns, lies behind the latest aligned instant of an output (R365). -/
def alignPos (n : Fin 48) (freq : Nat) (v : Int) (s : State) : Nat := ((v - (fget (F.LOADCH_ALIGN_n_PHASE_US n.1) s * 1000 : Nat)) % (pwmPeriod freq : Nat)).toNat

/-- The ns from an instant to the next aligned one. -/
def alignWait (n : Fin 48) (freq t : Nat) (s : State) : Nat :=
  let p := alignPos n freq ((vtNs s : Int) + ((t : Int) - s.now)) s
  if p = 0 then 0 else pwmPeriod freq - p

/-- Where in its period a PWM output is, with VT less `d`; none before its first on-phase (R365). -/
def phasePos (d : Int) (n : Fin 48) (s : State) : Option Nat :=
  match controlDrive n s with
  | .pwm _ f =>
    if s.now < (pdCh n s).phase then none
    else some (if pwmAligned n s then alignPos n f ((vtNs s : Int) - d) s else (s.now - (pdCh n s).phase) % pwmPeriod f)
  | _ => none

/-- Starts the on-phases of an output that turns on or takes another drive: at once, or at the aligned instants (R365). -/
def startPhase (n : Fin 48) (s : State) : State :=
  match controlDrive n s with
  | .pwm _ f => updCh n (fun c => { c with phase := s.now + (if pwmAligned n s then alignWait n f s.now s else 0), tail := s.now }) s
  | _ => updCh n (fun c => { c with phase := s.now, tail := s.now }) s

/-- An output goes on from a place in its period after a change of its alignment: from its next period start it is aligned, and no on-phase is shortened; without alignment it
runs on (R365). -/
def phaseSettle (n : Fin 48) (pos : Option Nat) (s : State) : State :=
  match controlDrive n s with
  | .pwm d f =>
    let from_ := match pos with
      | some p => if p = 0 then s.now else s.now + (pwmPeriod f - p)
      | none => max s.now (pdCh n s).phase
    if pwmAligned n s then
      updCh n (fun c => { c with
        phase := from_ + alignWait n f from_ s
        tail := (match pos with | some p => if p = 0 then s.now else s.now + (pwmOnNs d f - p) | none => s.now) }) s
    else match pos with
      | some p => updCh n (fun c => { c with phase := s.now - p, tail := s.now }) s
      | none => s
  | _ => s

/-- Does what changes the alignment of outputs, or moves VT by `d`. -/
def withPhases (d : Int) (f : State → State) (s : State) : State :=
  let s' := f s
  forCh (fun n t => phaseSettle n (phasePos d n s) t) s'

/-- Changes what decides an output: an output that turns on opens its inrush window, whatever turns it on (R369); the end of a test pulse turns nothing
on in this sense. -/
def chChange (n : Fin 48) (f : State → State) (s : State) : State :=
  let was := chWanted n s
  let old := controlDrive n s
  let s := f s
  chShow n (if !was && chWanted n s then openInrush n (startPhase n s)
    else if was && !chWanted n s then fput (F.LOADCH_CH_STAT_n_INRUSH n.1) 0 s
    else if was && controlDrive n s != old then startPhase n s else s)

/-- Realigns every aligned PWM output after a step or SET that has moved VT by `d` ns (R365). -/
def realignPwm (d : Int) (s : State) : State := withPhases d id s

/-- The instant of a PWM output's next natural off-phase (R374): now, when it is in one. -/
def nextOffPhase (n : Fin 48) (s : State) : Nat :=
  match controlDrive n s with
  | .pwm d f =>
    match phasePos 0 n s with
    | none => max s.now (pdCh n s).tail
    | some p => s.now + (pwmOnNs d f - p)
  | _ => s.now

/-! ### Events -/

/-- Sets a bit of LOADCH.EVENT (R396). -/
def pdEvent (n : Nat) (s : State) : State := raise F.LOADCH_EVENT n s

def pdLaneLoss : Nat := 0
def pdControlLost : Nat := 1
def pdLimpEntered : Nat := 2
def pdClaimed : Nat := 3
def pdTgWarn : Nat := 4
def pdTgLimit : Nat := 5
def pdTgOt : Nat := 6
def pdBudgetWarn : Nat := 7
def pdBudgetOver : Nat := 8
def pdBudgetC4 : Nat := 9
def pdShedApplied : Nat := 10
def pdShedRestored : Nat := 11
def pdRestarted : Nat := 14

/-- Sets a bit of an output's CH_EVENT (R400). -/
def chEvent (n : Fin 48) (b : Nat) (s : State) : State := raise (F.LOADCH_CH_EVENT_n_EVENT n.1) b s

/-! ### Latches (R366, R368, R390) -/

def causeTrip : Nat := 1
def causeShort : Nat := 2
def causeI2t : Nat := 3
def causeOvertemp : Nat := 4
def causeVds : Nat := 5
def causePartner : Nat := 6

/-- Latches one output. -/
def latchOne (n : Fin 48) (cause : Nat) (s : State) : State :=
  if chLatched n s then s
  else
    s |> chChange n (fput (F.LOADCH_CH_STAT_n_CAUSE n.1) cause)
      |> fput (F.LOADCH_CH_I2T_n_LATCHES n.1) (min 0xFFFF (fget (F.LOADCH_CH_I2T_n_LATCHES n.1) s + 1))
      |> chEvent n 0 |> bump R.LOADCH_LATCH_CNT

/-- The other half of an H-bridge (R389). -/
def hbPartner (n : Fin 48) : Fin 48 := Fin.ofNat 48 (if n.1 % 2 = 0 then n.1 + 1 else n.1 - 1)

/-- Latches an output with its cause; the other half of an H-bridge turns off with CAUSE PARTNER (R390). -/
def latch (n : Fin 48) (cause : Nat) (s : State) : State :=
  if chLatched n s then s else whenB (isHb n.1) (latchOne (hbPartner n) causePartner) (latchOne n cause s)

/-! ### Shedding (R378-R384) -/

def shedBellows : Nat := 0
def shedGroup : Nat := 1
def shedBudget : Nat := 2

/-- The Bellows stage at which a class is shed; class 4 never (R381). -/
def classStage (c : Nat) : Nat := if c ≤ 1 then 1 else if c = 2 then 2 else if c = 3 then 3 else 99

/-- The shed class of an output. -/
def chClass (n : Fin 48) (s : State) : Nat := fget (F.LOADCH_CH_CFG_n_CLASS n.1) s

/-- A source sheds an output (R383). -/
def shed (n : Fin 48) (src : Nat) (s : State) : State :=
  let was := chShed n s
  let s := chChange n (fun s => s |> raise (F.LOADCH_CH_STAT_n_SHED_SRC n.1) src |> updCh n (fun c => { c with wait := false })) s
  if was then s else s |> chEvent n 5 |> bump R.LOADCH_SHED_CNT |> pdEvent pdShedApplied

/-- A source releases an output: once every source has, it waits for its restore, or stays off (R383, R384). -/
def release (n : Fin 48) (src : Nat) (s : State) : State :=
  if !fbit (F.LOADCH_CH_STAT_n_SHED_SRC n.1) src s then s
  else
    chChange n (fun s =>
      let s := lower (F.LOADCH_CH_STAT_n_SHED_SRC n.1) src s
      if ftst (F.LOADCH_CH_STAT_n_SHED_SRC n.1) s then s
      else if ftst (F.LOADCH_CH_CFG_n_SHED_RESTORE n.1) s then updCh n (fun c => { c with wait := true }) s
      else updCh n (fun c => { c with cmd := .off, mode := if c.mode = .cmd then .cmd else .off }) s) s

/-- Whether the stage in force sheds an output (R382). -/
def stageSheds (n : Fin 48) (s : State) : Bool := decide (classStage (chClass n s) ≤ fget F.LOADCH_STATUS_STAGE s)

/-- Brings an output's Bellows shedding in line with its class and the stage. -/
def settleStage (n : Fin 48) (s : State) : State :=
  let held := fbit (F.LOADCH_CH_STAT_n_SHED_SRC n.1) shedBellows s
  if stageSheds n s && !held then shed n shedBellows s
  else if !stageSheds n s && held then release n shedBellows s else s

/-- The power die applies a stage (R382). -/
def applyStage (st : Nat) (s : State) : State := forCh settleStage (fput F.LOADCH_STATUS_STAGE (min 4 st) s)

/-- The stage the power die has measured itself (R382). -/
def ownStage (s : State) : Nat := (List.range 4).foldl (fun m k => if s.pd.stageIn[k]?.getD false then k + 1 else m) 0

/-- The order of shedding (R378): class, then the highest loss, then the lowest index. -/
def shedBefore (a b : Fin 48) (s : State) : Bool :=
  decide (chClass a s < chClass b s) ||
    (chClass a s == chClass b s && (decide ((pdCh b s).loss < (pdCh a s).loss) || ((pdCh a s).loss == (pdCh b s).loss && decide (a.1 < b.1))))

/-- The first output to shed of those that are on and meet a condition; class 4 never is. -/
def shedPick (p : Fin 48 → Bool) (s : State) : Option (Fin 48) :=
  (allCh.filter fun n => p n && chOn n s && decide (chClass n s < 4)).foldl
    (fun best n =>
      match best with
      | none => some n
      | some b => if shedBefore n b s then some n else some b) none

/-! ### Control (R385-R387) -/

/-- What a control loss makes of an output (R385, R386). -/
def loseOne (n : Fin 48) (s : State) : State :=
  chChange n (fun s =>
    match fget (F.LOADCH_CH_CFG_n_RESET_MODE n.1) s with
    | 1 => updCh n (fun c => { c with mode := if c.mode = .cmd then .held else c.mode }) s
    | 2 => s |> updCh n (fun c => { c with mode := .limp }) |> fput (F.LOADCH_CH_STAT_n_LIMPED n.1) 1
    | _ => updCh n (fun c => { c with mode := .off }) s) s

/-- Starts every output's hold timer. -/
def startHolds (s : State) : State :=
  forCh (fun n s => updCh n (fun c => { c with holdDue := some (s.now + clampNat 10 2000 (fget (F.LOADCH_CH_CFG_n_T_HOLD n.1) s) * 1000000) }) s) s

/-- The power die begins to measure the stage itself, from the stage that is applied (R382, R384). -/
def ownMeasure (s : State) : State :=
  updPd (fun p => { p with stageIn := Vector.ofFn fun k => decide (k.1 < fget F.LOADCH_STATUS_STAGE s), stageCnt := Vector.replicate 4 0 }) s

/-- Gives the control state a value; the alignment and the stage that applies follow it (R365, R382). -/
def setCstate (c : Nat) (s : State) : State :=
  let s := whenB (cstate s == csControlled && c != csControlled) ownMeasure s
  let s := withPhases 0 (fput F.LOADCH_STATUS_CSTATE c) s
  applyStage (if c = csControlled then fget F.BLW_STATUS_STAGE s else ownStage s) s

/-- Control is lost: HOLDING (R386). -/
def loseControl (s : State) : State :=
  s |> setCstate csHolding |> forCh loseOne |> startHolds |> pdEvent pdControlLost |> bump R.LOADCH_CONTROL_LOST_CNT

/-- The reset notice that the core die sends on both lanes (R386). -/
def resetNotice (s : State) : State :=
  if laneAlive s && (cstate s == csControlled || cstate s == csParked) then loseControl s else s

/-! ### Completion records (R362) -/

def rsnLatched : Nat := 1
def rsnShed : Nat := 2
def rsnUnclaimed : Nat := 3
def rsnMask : Nat := 4
def rsnInvalid : Nat := 5
def rsnCooling : Nat := 6
def rsnClass : Nat := 7
def rsnLink : Nat := 8
def rsnState : Nat := 9

/-- The counter of a status: DONE, FAILED_REFUSED, FAILED_TIMEOUT, ABORTED_RESET, DEFERRED, other (R397). -/
def cplKind : Status → Nat
  | .done => 0
  | .failedRefused => 1
  | .failedTimeout => 2
  | .abortedReset => 3
  | .deferred => 4
  | _ => 5

/-- Writes the completion record of a command; the NM block's go to CQ0's ring with source 4 (R359). A record over one that software has not seen is counted (assumption 19). -/
def pdRecord (src : Fin 5) (tag ch : Nat) (st : Status) (reason testFail : Nat) (s : State) : State :=
  let q : Fin 4 := if h : src.1 < 4 then ⟨src.1, h⟩ else 0
  let code := if chExists ch then chStateCode (Fin.ofNat 48 ch) s else 0
  let w0 := st.code + reason * 256 + ch % 64 * 65536 + src.1 * 2 ^ 24
  let s := bump (R.LOADCH_CPL_CNT_q_s q.1 (cplKind st)) s
  let s := whenB (st == .failedRefused) (bump R.LOADCH_REFUSED_CNT) s
  let n := fget (F.LOADCH_CPL_SIZE_q_N q.1) s
  if n = 0 then s
  else
    let i := fget (F.LOADCH_CPL_HEAD_q_IDX q.1) s % n
    let ns := (vtParts (vt16 s)).2.1
    let bytes := leBytes 4 w0 ++ leBytes 4 (if src.1 = 4 then 0 else tag) ++ leBytes 4 (code + testFail * 16) ++ leBytes 4 ns
    let s := (dmaWrite (blockIdent 18 20 s) (0x01000000 + 16 * fget (F.LOADCH_CPL_BASE_q_OFS q.1) s + 16 * i) bytes s).2
    let full := decide (n ≤ s.pd.unread[q.1])
    let s := whenB full (fun s => s |> bump (R.LOADCH_CPL_OVF_CNT_q q.1) |> fput (F.LOADCH_CQ_EVENT_q_CPL_OVF q.1) 1) s
    s |> updPd (fun p => { p with unread := upd p.unread q fun u => min n (u + 1) })
      |> fput (F.LOADCH_CPL_HEAD_q_IDX q.1) ((i + 1) % n) |> fput (F.LOADCH_CQ_EVENT_q_CPL q.1) 1

/-- The commands waiting in a queue show in CQ_STAT.FILL (R397). -/
def showFill (q : Fin 4) (s : State) : State := fput (F.LOADCH_CQ_STAT_q_FILL q.1) s.pd.cq[q.1].length s

/-- Ends every command that the power die has not applied with ABORTED_RESET (R363); a test that it has applied goes on. -/
def abortCommands (s : State) : State :=
  let s := forFin 4 (fun q s =>
    let l := s.pd.cq[q.1]
    let s := updPd (fun p => { p with cq := p.cq.set q.1 [] q.2 }) s
    showFill q (l.foldl (fun s c => pdRecord (Fin.ofNat 5 q.1) c.w1 (bits c.w0 5 0) .abortedReset 0 0 s) s)) s
  let nm := s.pd.nmq
  nm.foldl (fun s c => pdRecord 4 0 c .abortedReset 0 0 s) (updPd (fun p => { p with nmq := [] }) s)

/-- The registers of LOADCH that a reset of the block puts back: the power die keeps its own (R388), and what its status pages show stands. -/
def loadchRegsReset (s : State) : State :=
  let test := fget F.LOADCH_CTRL_TEST_CLASS s
  let rest := fget F.LOADCH_CTRL_RESTORE_MS s
  let s := s |> dropRegs 0x10200000 0x10200004 |> fput F.LOADCH_CTRL_TEST_CLASS test |> fput F.LOADCH_CTRL_RESTORE_MS rest
  let s := s |> dropRegs R.LOADCH_EVENT (R.LOADCH_EVENT_EN + 4) |> dropRegs R.LOADCH_LATCH_CNT (R.LOADCH_CNT_CLR + 4) |> dropRegs 0x10210000 0x10220000
    |> dropRegs 0x10250000 0x10260000
  let s := forCh (fun n s => dropRegs (R.LOADCH_CH_EVENT_n n.1) (R.LOADCH_CH_EVENT_n n.1 + 4) s) s
  updPd (fun p => { p with unread := Vector.replicate 4 0 }) s

/-- A reset of the LOADCH block (R363): it does not reach the power die. -/
def loadchReset (s : State) : State := loadchRegsReset (abortCommands s)

end Sys2Proof.Machine
end

