-- ==== Sys2Proof/Machine/Fio.lean ====
section
/-!
DEFINITION. The field inputs (R392-R394): digital inputs with their debounce, wake polls, and analogue inputs with their windows.
-/
namespace Sys2Proof.Machine

/-- Changes the state of the field inputs. -/
def updFio (f : FioSt → FioSt) (s : State) : State := { s with fio := f s.fio }

/-- The register and bit of a digital input in a pair of 32-bit registers. -/
def diBit (f : Nat → Fld) (i : Nat) : Fld × Nat := (f (i / 32), i % 32)

/-- The comparators of the digital inputs at their voltages in mV (R601): closed at 2.0 V or below, open at 4.5 V or above, and as before between the two. -/
def diCompare (mv : Vector Nat 48) (s : State) : State :=
  forFin 48 (fun i s =>
    let bit := BitVec.ofNat 48 (2 ^ i.1)
    if mv[i.1] ≤ 2000 then updFio (fun x => { x with closed := x.closed ||| bit }) s
    else if 4500 ≤ mv[i.1] then updFio (fun x => { x with closed := x.closed &&& ~~~bit }) s
    else s) s

/-- One sample of one enabled input, 1 when it is closed (assumption 19), or open with INV (R392): its state follows after DEB consecutive equal samples. -/
def diSampleOne (levels : BitVec 48) (i : Fin 48) (s : State) : State :=
  if !ftst (F.FIO_DI_CFG_i_EN i.1) s then s
  else
    let v := (levels.getLsbD i.1) != ftst (F.FIO_DI_CFG_i_INV i.1) s
    let n := if s.fio.last.getLsbD i.1 == v then s.fio.count[i.1] + 1 else 1
    let s := updFio (fun x =>
      { x with
        last := if v then x.last ||| BitVec.ofNat 48 (2 ^ i.1) else x.last &&& ~~~(BitVec.ofNat 48 (2 ^ i.1))
        count := x.count.set i.1 (min n 16) i.2 }) s
    let (f, b) := diBit F.FIO_DI_STATE_k i.1
    if decide (max 1 (fget (F.FIO_DI_CFG_i_DEB i.1) s) ≤ n) && fbit f b s != v then
      let s := if v then raise f b s else lower f b s
      raise (diBit F.FIO_DI_CHG_k i.1).1 b s
    else s

/-- Whether the Z480 is in deep sleep, where no input is sampled but for the polls (R392-R394). -/
def inDeep (s : State) : Bool := fget F.HERON_STATUS_STATE s == 3

/-- Every 1 ms the digital inputs are sampled at their voltages and debounced (R392, R601). -/
def execDiSample (mv : Vector Nat 48) (s : State) : Host.Outcome State Fault Refusal :=
  .next (if inDeep s then s else let s := diCompare mv s; forFin 48 (diSampleOne s.fio.closed) s)

/-- The number of conversions of AVG (R403). -/
def aiAvg (j : Nat) (s : State) : Nat :=
  match fget (F.FIO_AI_CFG_j_AVG j) s with
  | 0 => 1
  | 1 => 4
  | _ => 16

/-- The code of a conversion (R394, R602): 4,096 steps over 5.0 V, with an error of at most 6 steps; above 5.0 V it is 0xFFF. -/
def aiCode (uv : Nat) (err : Fin 13) : Nat :=
  if 5000000 < uv then 0xFFF else clampNat 6 4101 (uv * 4096 / 5000000 + err.1) - 6

/-- An analogue input is converted (R394, R602): the mean of its latest conversions, and its window, once for each excursion. `cal` says that a calibration, which is interleaved, completes. -/
def execAiConvert (j : Fin 16) (v : AiVolt) (cal : Bool) (s : State) : Host.Outcome State Fault Refusal :=
  .next (
    let s := whenB cal (fun s => s |> fput F.FIO_AI_CAL_OK 1 |> fput F.FIO_AI_CAL_CAL_CNT (fget F.FIO_AI_CAL_CAL_CNT s + 1)) s
    if inDeep s || !ftst (F.FIO_AI_CFG_j_EN j.1) s then s
    else
      let s := updFio (fun x => { x with hist := upd x.hist j fun l => (aiCode v.uv v.err :: l).take 16 }) s
      let l := s.fio.hist[j.1].take (aiAvg j.1 s)
      let v := (roundNearest (((l.foldl (· + ·) 0 : Nat) : Rat) / (max 1 l.length : Nat))).toNat
      let s := s |> fput (F.FIO_AI_VAL_j_VALUE j.1) v |> fput (F.FIO_AI_VAL_j_SEQ j.1) (fget (F.FIO_AI_VAL_j_SEQ j.1) s + 1)
      let isOut := decide (v < fget (F.FIO_AI_WIN_j_LO j.1) s) || decide (fget (F.FIO_AI_WIN_j_HI j.1) s < v)
      let was := s.fio.out.getLsbD j.1
      let s := updFio (fun x => { x with out := if isOut then x.out ||| BitVec.ofNat 16 (2 ^ j.1) else x.out &&& ~~~(BitVec.ofNat 16 (2 ^ j.1)) }) s
      whenB (isOut && !was) (raise F.FIO_AI_EVT j.1) s)

end Sys2Proof.Machine
end

