-- ==== Sys2Proof/Machine/FlashCore.lean ====
section
/-!
DEFINITION. The settings flash as other blocks meet it (R514-R517), and reads of physical memory through every range that holds bytes (R32).
-/
namespace Sys2Proof.Machine

/-- What a flash byte reads as that nothing has programmed since its erasure (R526). -/
def flashDflt : Nat → Byte := fun _ => 0xFF

/-- Reads one byte of the flash. -/
def frd (a : Nat) (s : State) : Byte := sget flashDflt s.flash a

/-- Programs one byte: a program can only clear bits, as NOR flash does. -/
def fprog (a : Nat) (v : Byte) (s : State) : State := { s with flash := sput flashDflt a (v &&& frd a s) s.flash }

/-- The bytes of the flash from an offset. -/
def frdBytes (a n : Nat) (s : State) : List Byte := (List.range n).map fun i => frd (a + i) s

/-- Programs bytes from an offset. -/
def fprogBytes (a : Nat) : List Byte → State → State
  | [], s => s
  | b :: bs, s => fprogBytes (a + 1) bs (fprog a b s)

/-- Erases a range of the flash. -/
def ferase (a n : Nat) (s : State) : State := { s with flash := sdrop a (a + n) s.flash }

/-- The capacity of the flash in bytes (R514); 0 when none was found good (R515). -/
def flashSize (s : State) : Nat :=
  if !ftst F.SYSCTL_XSPI_CAP_OK s then 0 else 128 * 2 ^ 20 * 2 ^ min 2 (fget F.SYSCTL_XSPI_CAP_SIZE s)

/-- The slot size (R516). -/
def slotSize (s : State) : Nat := if flashSize s ≤ 128 * 2 ^ 20 then 56 * 2 ^ 20 else 64 * 2 ^ 20

/-- Where a slot begins (R516). -/
def slotBase (k : Nat) (s : State) : Nat := 0x1000000 + k * slotSize s

/-- Where the log partition begins (R516). -/
def logPartition : Nat := 0x100000

/-- The flash offset that a window address shows (R517). -/
def windowOffset (a : Nat) (s : State) : Nat := fget F.SYSCTL_XSPI_WIN_BASE_BASE s * 2 ^ 24 + (a - 0x20000000)

/-- The bytes of a physical range that holds memory (R32, R33, R517); none where it is unmapped. -/
def physBytes (a n : Nat) (s : State) : Option (List Byte) :=
  if inBanks a n || inDram a n s then some (mrdBytes a n s)
  else if a + n ≤ 0x20000 then some ((List.range n).map fun i => BitVec.ofNat 8 (Config.bootRom (a + i)))
  else if 0x20000000 ≤ a ∧ a + n ≤ 0x28000000 ∧ windowOffset a s + n ≤ flashSize s then some (frdBytes (windowOffset a s) n s)
  else none

/-- A read of a unit from any range that holds memory: allowed by the ownership table, while MEM runs (R33, R467). -/
def unitRead (w : Ident) (a n : Nat) (s : State) : Option (List Byte) × State :=
  if !islOpen islMEM s then (none, s)
  else
    match physBytes a n s with
    | none => (none, logUnmapped w.code a s)
    | some _ =>
      match rangeCheck w false a ((a + n - 1) / 4096 + 1 - a / 4096) s with
      | (false, s) => (none, s)
      | (true, s) => (some ((physBytes a n s).getD []), s)

end Sys2Proof.Machine
end

