-- ==== Sys2Proof/Machine/MemCwy.lean ====
section
/-!
DEFINITION. The memory island and the Causeway (chapter 11): the TCM copy engine, bank atomics and reservations, ECC, and the Causeway's errors.
-/
namespace Sys2Proof.Machine

/-- Changes the state of the memory island and the Causeway. -/
def updCwy (f : CwySt → CwySt) (s : State) : State := { s with cwy := f s.cwy }

/-! ### The TCM copy engine (R410, R412) -/

/-- Where the TCM of a processor is kept in the memory of the model: above every physical address; 0-3 are L0-L3, 4 is HC. -/
def tcmBase (t : Nat) : Nat := 2 ^ 40 + t * 2 ^ 20

/-- Whether a range lies inside the TCM of a target (R410, R434): instruction and data TCM of a pair, the unified TCM of HC. -/
def tcmFits (t ofs n : Nat) : Bool :=
  if t < 4 then decide (ofs + n ≤ 0x30000) || (decide (0x40000 ≤ ofs) && decide (ofs + n ≤ 0x80000)) else decide (ofs + n ≤ 0x40000)

/-- Whether the copy engine may write a target now (R412). -/
def tcmOpen (t : Nat) (s : State) : Bool :=
  if t < 4 then islSt (islL (Fin.ofNat 4 t)) s == .reset else t == 4 && s.cwy.hcBoot

/-- The end of a TCM copy (R412). -/
def copyEnd (st : Status) (s : State) : State :=
  s |> updCwy (fun c => { c with copy := none }) |> fput F.MEM_TCMCPY_STAT_STATUS st.code |> fput F.MEM_TCMCPY_STAT_BUSY 0 |> raise F.MEM_EVENT 4

/-- A write of TCMCPY_CTL.GO with LEN starts a copy, or refuses it (R412). -/
def tcmcpyGo (len : Nat) (s : State) : State :=
  if ftst F.MEM_TCMCPY_STAT_BUSY s then bad s
  else
    let s := fput F.MEM_TCMCPY_CTL_LEN len s
    let t := fget F.MEM_TCMCPY_DST_TARGET s
    if !tcmOpen t s || len % 16 ≠ 0 || !tcmFits t (fget F.MEM_TCMCPY_DST_OFS s) len then copyEnd .failedRefused s
    else
      let d : TcmCopy := ⟨fget F.MEM_TCMCPY_SRC_LO s + 2 ^ 32 * fget F.MEM_TCMCPY_SRC_HI s, len, t, fget F.MEM_TCMCPY_DST_OFS s⟩
      s |> updCwy (fun c => { c with copy := some d }) |> fput F.MEM_TCMCPY_STAT_BUSY 1

/-- TCMCPY_GO. -/
def execTcmcpyGo (w : Initiator) (len : BitVec 19) (s : State) : Host.Outcome State Fault Refusal :=
  .next (regCmd w R.MEM_TCMCPY_CTL (hearthOnly w (tcmcpyGo len.toNat)) s)

/-- A TCM copy ends (R412); `e` says whether its source reads failed. The engine reads with Hearth's identity. A target that has left the state in which the copy may write it
refuses it (assumption 21). -/
def execTcmcpyDone (e : BusEnd) (s : State) : Host.Outcome State Fault Refusal :=
  .next (match s.cwy.copy with
  | none => s
  | some c =>
    match e with
    | .busError => copyEnd .failedBus s
    | .eccError => copyEnd .failedEcc s
    | .ok =>
      if !tcmOpen c.target s then copyEnd .failedRefused s
      else
        match unitRead ⟨16, 0x40, true, 0⟩ c.src c.len s with
        | (none, s) => copyEnd .failedBus s
        | (some d, s) => copyEnd .done (mwrBytes (tcmBase c.target + c.ofs) d s))

/-! ### Bank atomics (R417-R419) -/

/-- The bank atomic window: the atomic happens at the word that the initiator's own ATOM_ADDR names, if the ownership table allows it. -/
def atomic (w : Initiator) (f : Nat → Nat) (s : State) : State :=
  let (addr, old, _) := sget (fun _ => (0, 0, 0)) s.cwy.atom (initIdx w)
  let a := 0x01000000 + addr / 4 * 4 % 0x400000
  let put (o st : Nat) (s : State) : State := updCwy (fun c => { c with atom := sput (fun _ => (0, 0, 0)) (initIdx w) (addr, o, st) c.atom }) s
  match initCheck w a true s with
  | (false, s) => bad (put old Status.failedRefused.code s)
  | (true, s) =>
    let v := mrdN a 4 s
    put v Status.done.code (mwrN a 4 (f v) s)

/-- A write of ATOM_AADD (R419). -/
def execAtomAadd (w : Initiator) (v : Word) (s : State) : Host.Outcome State Fault Refusal :=
  .next (regCmd w R.MEM_ATOM_AADD (atomic w fun o => o + v.toNat) s)

/-- A write of ATOM_ASWP (R419). -/
def execAtomAswp (w : Initiator) (v : Word) (s : State) : Host.Outcome State Fault Refusal :=
  .next (regCmd w R.MEM_ATOM_ASWP (atomic w fun _ => v.toNat) s)

/-- The bits that an AMO writes, of `n` bits. -/
def amoValue (n : Nat) : AmoOp → Nat → Nat → Nat
  | .add, o, v => (o + v) % 2 ^ n
  | .swap, _, v => v % 2 ^ n
  | .and, o, v => o &&& v
  | .or, o, v => (o ||| v) % 2 ^ n
  | .xor, o, v => (o ^^^ v) % 2 ^ n
  | .min, o, v => if signedOf n o ≤ signedOf n (v % 2 ^ n) then o else v % 2 ^ n
  | .max, o, v => if signedOf n o ≤ signedOf n (v % 2 ^ n) then v % 2 ^ n else o
  | .minu, o, v => min o (v % 2 ^ n)
  | .maxu, o, v => max o (v % 2 ^ n)
  | .lr, o, _ => o
  | .sc, _, v => v % 2 ^ n

/-- Gives a hart's reservation (R418). -/
def setResv (h : Fin 8) (r : Option (Nat × Nat)) (s : State) : State := updCwy (fun c => { c with resv := c.resv.set h.1 r h.2 }) s

/-- The cause of a hart's address-misaligned exception: 4 for LR, 6 for an AMO or SC (R418; the number is PRESUMED, assumption 22). -/
def amoMisaligned : AmoOp → Nat
  | .lr => 4
  | _ => 6

/-- The cause of a hart's access fault: 5 for LR, 7 for an AMO or SC (R418; the number is PRESUMED, assumption 22). -/
def amoFault : AmoOp → Nat
  | .lr => 5
  | _ => 7

/-- Anvil's vector (R471, R472). -/
def anvilVec (s : State) : Nat := fget F.OWN_ANVIL_VEC_LO s + 2 ^ 32 * fget F.OWN_ANVIL_VEC_HI s

/-- A hart takes an exception in place of the access; in world 1 it goes to ANVIL_VEC + 0x40 and the world stays 1 (R472). -/
def hartExc (h : Fin 8) (c : Nat) (s : State) : State :=
  { s with harts := upd s.harts h fun x =>
      if x.world then { x with exc := c, mcause := BitVec.ofNat 64 c, pc := BitVec.ofNat 64 (anvilVec s + 0x40) } else { x with exc := c } }

/-- Whether an address lies in the engine windows or the system blocks (R32). -/
def inBlocks (a : Nat) : Bool := (decide (0x02000000 ≤ a) && decide (a < 0x03000000)) || (decide (0x04000000 ≤ a) && decide (a < 0x05000000))

/-- A hart's AMO, LR or SC on a shared-bank word is performed in the bank (R418); the answer carries the old value, or for SC whether it failed. A misaligned one, or one to the
engine windows or the system blocks, is an exception of the hart and no access; one to another address is not this command's (assumption 22). -/
def execHartBankAmo (h : Fin 8) (op : AmoOp) (dbl : Bool) (addr : BitVec 40) (v : BitVec 64) (s : State) : Host.Outcome State Fault Refusal :=
  .next (
    let n := if dbl then 8 else 4
    let a := addr.toNat
    if a % n ≠ 0 then answer .failedBus 0 (hartExc h (amoMisaligned op) s)
    else if inBlocks a then answer .failedBus 0 (hartExc h (amoFault op) s)
    else if !inBanks a n then s
    else
      match initCheck (.hart h) a (op != .lr) s with
      | (false, s) => answer .failedBus 0 s
      | (true, s) =>
        if !islOpen islMEM s then answer .abortedIslandOff 0 s
        else
          let o := mrdN a n s
          match op with
          | .lr => answer .done o (setResv h (some (a / 16, s.now)) s)
          | .sc =>
            if s.cwy.resv[h.1].any fun r => r.1 == a / 16 && decide (s.now < r.2 + 1280) then answer .done 0 (setResv h none (mwrN a n (v.toNat % 2 ^ (8 * n)) s))
            else answer .done 1 (setResv h none s)
          | _ => answer .done o (mwrN a n (amoValue (8 * n) op o v.toNat) s))

/-- A reservation is cleared after 1,024 bank cycles, 1,280 ns (R413, R418). -/
def execLrReservationExpire (h : Fin 8) (s : State) : Host.Outcome State Fault Refusal :=
  .next (match s.cwy.resv[h.1] with
  | none => s
  | some (_, t) => setResv h none (elapseTo (t + 1280) s))

/-! ### ECC and scrubbing (R421, R422) -/

/-- Patrol scrubbing meets a corrected or an uncorrectable error at an address, or a good word (R422). -/
def execDramScrub (addr : BitVec 40) (found : HdrEcc) (s : State) : Host.Outcome State Fault Refusal :=
  .next (if !ftst F.MEM_SCRUB_EN s || !inDram addr.toNat 8 s then s
  else
    match found with
    | .clean => s
    | .corrected => eccLog addr.toNat 0x40 false true s
    | .bad => eccLog addr.toNat 0x40 true true s)

/-! ### Causeway errors (R426, R427, R432, R435) -/

/-- Shows the number of entries of the error log. -/
def showErrlog (s : State) : State := fput F.CWY_ERRLOG_FILL s.cwy.log.length s

/-- The Causeway appends an error of a posted write (R426). -/
def cwyError (e : CwyErr) (s : State) : State :=
  if s.cwy.log.length ≥ 8 then bump R.CWY_ERR_OVF s
  else raise F.CWY_EVENT 0 (showErrlog (updCwy (fun c => { c with log := c.log ++ [e] }) s))

/-- Whether an address lies in the peripheral fabric (R32). -/
def inFabric (a : Nat) : Bool := decide (0x10000000 ≤ a) && decide (a < 0x20000000)

/-- The range that decides an address of the peripheral fabric posts its writes (R424). -/
def cwyPosted (a : Nat) (s : State) : Bool :=
  let page := (a - 0x10000000) / 4096
  match (List.range 8).find? fun k =>
      ftst (F.CWY_RANGE_CFG_k_EN k) s && decide (fget (F.CWY_RANGE_BASE_k_BASE k) s ≤ page) && decide (page ≤ fget (F.CWY_RANGE_LIMIT_k_LIMIT k) s) with
  | some k => ftst (F.CWY_RANGE_CFG_k_POSTED k) s
  | none => false

/-- An error entry of now. -/
def cwyEntry (w : Initiator) (a : Nat) (st : Status) (part : Fin 8) (be : BitVec 4) (s : State) : CwyErr :=
  ⟨a % 2 ^ 32, st.code, initCode w, part.1, be.toNat, (vtParts (vt16 s)).2.1⟩

/-- A far side silent for TIMEOUT ends a transaction of the peripheral fabric FAILED_TIMEOUT: a posted write in the error log, another one at its initiator (R426). -/
def execCwyTimeout (w : Initiator) (addr : BitVec 40) (write : Bool) (part : Fin 8) (be : BitVec 4) (s : State) : Host.Outcome State Fault Refusal :=
  .next (if !inFabric addr.toNat then s
  else
    let u := advance (4 * clampNat 256 65535 (fget F.CWY_CTRL_TIMEOUT s)) s
    if write && cwyPosted addr.toNat s then cwyError (cwyEntry w addr.toNat .failedTimeout part be u) u else answer .failedTimeout 0 u)

/-- A posted write's far-side error (R426). -/
def execCwyPostedError (w : Initiator) (addr : BitVec 40) (e : BusEnd) (part : Fin 8) (be : BitVec 4) (s : State) : Host.Outcome State Fault Refusal :=
  .next (if !inFabric addr.toNat || !cwyPosted addr.toNat s then s
  else
    match e with
    | .ok => s
    | .busError => cwyError (cwyEntry w addr.toNat .failedBus part be s) s
    | .eccError => cwyError (cwyEntry w addr.toNat .failedEcc part be s) s)

/-- A response that arrives after the timeout is discarded and counted (R426). -/
def execLateResp (s : State) : Host.Outcome State Fault Refusal := .next (raise F.CWY_EVENT 3 (bump R.CWY_LATE_RESP_CNT s))

/-- A lock held for 64 peripheral cycles, 256 ns, is broken (R427). -/
def execLockBroken (s : State) : Host.Outcome State Fault Refusal :=
  .next (match s.cwy.lock with
  | none => s
  | some (_, _, t) => breakLock (elapseTo (t + 256) s))

/-- What a read of ERRLOG_POP does (R435). -/
def errlogPop (w : Initiator) (s : State) : State :=
  match s.cwy.log with
  | [] => answer .done 0xFFFFFFFF s
  | e :: rest =>
    answer .done e.addr (showErrlog (updCwy (fun c =>
      { c with
        log := rest
        undo := undoFor w e
        shadows := sput (fun _ => ⟨0, 0, 0, 0, 0, 0⟩) (initIdx w) e c.shadows }) s))

/-- A read of ERRLOG_POP (R435). -/
def execErrlogPop (w : Initiator) (s : State) : Host.Outcome State Fault Refusal :=
  .next (regRead w R.CWY_ERRLOG_POP (errlogPop w) s)

/-- The counters of MEM (R434). -/
def memCounters : List Nat :=
  [R.MEM_ECC_CE_CNT, R.MEM_ECC_UE_CNT, R.MEM_UNMAP_CNT, R.MEM_SRAM_CE_CNT, R.MEM_SRAM_UE_CNT, R.MEM_SPEC_POP] ++
    (List.range 16).flatMap fun b => [R.MEM_COLL_SILENT_b b, R.MEM_COLL_RETRY_b b]

/-- The counters of the Causeway (R435). -/
def cwyCounters : List Nat := [R.CWY_RETRY_CNT, R.CWY_RETRY_HOLD_CNT, R.CWY_LOCK_BROKEN_CNT, R.CWY_LATE_RESP_CNT, R.CWY_ERR_OVF]

/-- A write of MEM.CNT_CLR clears every MEM counter (R434). -/
def execMemCntClr (w : Initiator) (s : State) : Host.Outcome State Fault Refusal :=
  .next (regCmd w R.MEM_CNT_CLR (hearthOnly w (clearRegs memCounters)) s)

/-- A write of CWY.CNT_CLR clears the five Causeway counters (R435). -/
def execCwyCntClr (w : Initiator) (s : State) : Host.Outcome State Fault Refusal :=
  .next (regCmd w R.CWY_CNT_CLR (hearthOnly w (clearRegs cwyCounters)) s)

end Sys2Proof.Machine
end

