-- ==== Sys2Proof/Machine/Holds.lean ====
section
/-!
DEFINITION. The engine threads as the home blocks of their items meet them: bound queues, and items that a home block ends (R150, R153).
-/
namespace Sys2Proof.Machine

/-- The place of a thread. -/
def thrIdx (e : Fin 24) (t : Fin 4) : Fin 96 := ⟨4 * e.1 + t.1, by omega⟩

/-- A thread. -/
def thr (e : Fin 24) (t : Fin 4) (s : State) : EngThr := s.eng[(thrIdx e t).1]

/-- Changes a thread. -/
def updThr (e : Fin 24) (t : Fin 4) (f : EngThr → EngThr) (s : State) : State := { s with eng := upd s.eng (thrIdx e t) f }

/-- Whether a slot of some engine is bound to a queue (R150). -/
def qidBound (qid : Nat) (s : State) : Bool :=
  (List.range 24).any fun e => (List.range 24).any fun q => ftst (F.ENG_QSLOT_q_EN e q) s && fget (F.ENG_QSLOT_q_QID e q) s == qid

/-- A home block ends the held items that a condition picks; an item that has ended keeps its status (R153, R155). -/
def endHolds (pick : Hold → Bool) (st : Status) (s : State) : State :=
  { s with eng := s.eng.map fun t => { t with holds := t.holds.map fun h => if pick h && h.ended.isNone then { h with ended := some st } else h } }

end Sys2Proof.Machine
end

