-- ==== Sys2Proof/Machine/NmCore.lean ====
section
/-!
DEFINITION. Network sleep as the buses meet it (chapter 09): segment states, own consent, the sleep actions, and the Sluice.
-/
namespace Sys2Proof.Machine

/-! ### TC10 of the integrated PHYs (R244, R245) -/

def tc10Active : Nat := 0
def tc10SleepPend : Nat := 1
def tc10Sleep : Nat := 2
def tc10Waking : Nat := 3

/-- Whether a port has TC10 (R209). -/
def hasTc10 (p : Nat) : Bool := decide (6 ≤ p) && decide (p < 18)

/-- The effect of TC10.SLEEP_REQ (R244, R245). -/
def sleepReq (p : Fin 18) (s : State) : State :=
  if hasTc10 p.1 ∧ fget (F.SW_TC10_p_STATE p.1) s = tc10Active then
    fput (F.SW_TC10_p_STATE p.1) tc10SleepPend { s with sw := { s.sw with tc10Due := upd s.sw.tc10Due p fun _ => s.now + 10000000 } }
  else s

/-- The effect of TC10.WAKE_REQ (R244). -/
def wakeReq (p : Fin 18) (s : State) : State :=
  if hasTc10 p.1 ∧ fget (F.SW_TC10_p_STATE p.1) s = tc10Sleep then fput (F.SW_TC10_p_STATE p.1) tc10Waking s else s

/-! ### Segments (R334, R342) -/

def segDisabled : Nat := 0
def segAwake : Nat := 1
def segPrepare : Nat := 2
def segSleepEntry : Nat := 3
def segSleep : Nat := 4
def segWaking : Nat := 5
def segIsolated : Nat := 6
def segLost : Nat := 7

/-- The events of the NM block (R351). -/
def nmIsolated : Nat := 0
def nmSluiceDrop : Nat := 1
def nmRingLost : Nat := 2
def nmPrepAbort : Nat := 3

/-- The wake sources of R352. -/
def wakePin : Nat := 1
def wakeFrame : Nat := 2
def wakeTc10 : Nat := 3
def wakeLin : Nat := 4
def wakeActivity : Nat := 5
def wakeSluice : Nat := 6
def wakeCtrl : Nat := 7
def wakeAbort : Nat := 8
def wakeParent : Nat := 9
def wakeConsent : Nat := 10

/-- A segment's state. -/
def segState (g : Fin 35) (s : State) : Nat := fget (F.NM_SEG_STATUS_s_STATE g.1) s

/-- A segment. -/
def seg (g : Fin 35) (s : State) : NmSeg := s.nm.segs[g.1]

/-- Changes a segment. -/
def updSeg (g : Fin 35) (f : NmSeg → NmSeg) (s : State) : State := { s with nm := { s.nm with segs := upd s.nm.segs g f } }

/-- Whether a segment has a consent ring (R334). -/
def ringSeg (g : Fin 35) : Bool := decide (g.1 ≤ 12)

/-- Where a segment's control-block entry lies (R349). -/
def ctlBlock (g : Fin 35) (s : State) : Nat := 0x01000000 + 1024 * fget F.NM_CTRL_CTLBLK_OFS s + 16 * g.1

/-- Writes a segment's control-block entry; byte 2 is NMRING's (R349). -/
def ctlWrite (g : Fin 35) (s : State) : State :=
  if !ftst F.NM_CTRL_CTLBLK_EN s then s
  else
    let a := ctlBlock g s
    s |> mwrN a 2 (segState g s + 256 * fget (F.NM_SEG_STATUS_s_WAKE_SRC g.1) s) |> mwrN (a + 4) 4 (seg g s).changes
      |> mwrN (a + 8) 8 (fget (F.NM_WITHHOLD_LO_s g.1) s + 2 ^ 32 * fget (F.NM_WITHHOLD_HI_s g.1) s)

/-- An event item of the NM queue, of 16 entries (R349). Its kind and words 2 and 3 are open (assumption 17). -/
def nmEvent (g : Fin 35) (s : State) : State :=
  if 16 ≤ s.nm.queue.length then s
  else
    let w1 := g.1 + 256 * segState g s + 65536 * fget (F.NM_SEG_STATUS_s_WAKE_SRC g.1) s
    { s with nm := { s.nm with queue := s.nm.queue ++ [⟨Config.nmWord 0 % 256, 0, (w1, Config.nmWord 2 % 2 ^ 32, Config.nmWord 3 % 2 ^ 32), none⟩] } }

/-- The Z480's own consent on a segment (R339). -/
def ownConsent (g : Fin 35) (s : State) : Bool :=
  ftst (F.NM_SEG_CTRL_s_CONSENT g.1) s && (!ftst F.NM_CTRL_CTLBLK_EN s || (seg g s).ctl) && decide ((seg g s).minEnd ≤ s.now)

/-- The maximum-awake timer of a ring segment follows its state and the consent (R346): it runs in AWAKE, stands in PREPARE, and is zero otherwise and without the consent. -/
def maxSettle (g : Fin 35) (s : State) : State :=
  let st := segState g s
  let zero (x : NmSeg) : NmSeg := { x with maxStart := none, maxRun := 0 }
  updSeg g (fun x =>
    if !ringSeg g || !ownConsent g s then zero x
    else if st = segAwake then { x with maxStart := some (x.maxStart.getD s.now) }
    else if st = segPrepare then { x with maxStart := none, maxRun := x.maxRun + (match x.maxStart with | some t => s.now - t | none => 0) }
    else zero x) s

/-- A wisp that a CAN segment has not sent is given up. -/
def dropWisps (g : Fin 35) (s : State) : State :=
  if h : g.1 < 12 then
    { s with can := upd s.can ⟨g.1, h⟩ fun c => { c with items := c.items.filter fun x => match x.src with | .wisp _ => false | _ => true } }
  else s

/-- A segment changes state (R342, R349); outside AWAKE it has no wisp to send (R337). -/
def setSeg (g : Fin 35) (st : Nat) (s : State) : State :=
  let s := updSeg g (fun x => { x with since := s.now, changes := (x.changes + 1) % 2 ^ 32 }) s
  let s := maxSettle g (fput (F.NM_SEG_STATUS_s_STATE g.1) st (whenB (st != segAwake) (dropWisps g) s))
  s |> raise (F.NM_SEG_STATUS_s_CHANGED g.1) 0 |> ctlWrite g |> nmEvent g

/-- Own consent is formed anew and shown; the maximum-awake timer follows it (R339, R346, R352). -/
def formConsent (g : Fin 35) (s : State) : State := maxSettle g (fput (F.NM_SEG_STATUS_s_OWN_CONSENT g.1) (ownConsent g s).toNat s)

/-- The minimum-awake time of a segment starts (R339), and with it its consent falls. -/
def startMinAwake (g : Fin 35) (s : State) : State :=
  formConsent g (updSeg g (fun x => { x with minEnd := s.now + fget (F.NM_SEG_TIME2_s_MIN_AWAKE_MS g.1) s * 1000000 }) s)

/-- The parent that a segment follows (R352). -/
def parentOf (g : Fin 35) (s : State) : Option (Fin 35) :=
  if !ringSeg g && ftst (F.NM_SEG_CFG_s_FOLLOW g.1) s then some (Fin.ofNat 35 (min 12 (fget (F.NM_SEG_CFG_s_PARENT g.1) s))) else none

/-- Whether a segment follows another (R352). -/
def follows (k g : Fin 35) (s : State) : Bool := parentOf k s == some g

/-! ### Sleep actions (R334, R344, R348) -/

/-- A request of the NM block on a LIN channel goes before the others. -/
def linInternal (l : Fin 6) (r : LinReq) (s : State) : State := { s with lin := upd s.lin l fun x => { x with reqs := r :: x.reqs } }

/-- The goto-sleep command (R334). -/
def linGotoSleep : LinReq := ⟨0, 0x60, 8, 0x3C, false, [0x00, 0xFF, 0xFF, 0xFF, 0xFF, 0xFF, 0xFF, 0xFF], true, false⟩

/-- The wake pulse of the NM block (R344). -/
def linWakePulse : LinReq := ⟨0, 0x62, 0, 0, false, [], true, false⟩

/-- What the queues of P0-P5 hold has 10 ms to leave, as a port with TC10 gives it (R245, R344). -/
def frameDue (g : Fin 35) (s : State) : State :=
  forFin 6 (fun n s =>
    if (if n.1 < 2 then g.1 = 12 else g.1 = 11 + n.1) then { s with sw := { s.sw with tc10Due := upd s.sw.tc10Due ⟨n.1, by omega⟩ fun _ => s.now + 10000000 } }
    else s) s

/-- Applies a segment's sleep action. The CAN controller's mode and the pins follow `asleep` and the state (R345). -/
def sleepAction (g : Fin 35) (s : State) : State :=
  let s := frameDue g (updSeg g (fun x => { x with asleep := true }) s)
  if h : 17 ≤ g.1 ∧ g.1 ≤ 28 then sleepReq ⟨g.1 - 11, by omega⟩ s
  else if h : 29 ≤ g.1 then linInternal ⟨g.1 - 29, by omega⟩ linGotoSleep s
  else s

/-- Reverses a segment's sleep action: a sleep handshake that has not completed is cancelled (R245), a sleeping port is woken. -/
def wakeAction (g : Fin 35) (s : State) : State :=
  if !(seg g s).asleep then s
  else
    let s := updSeg g (fun x => { x with asleep := false }) s
    if h : 17 ≤ g.1 ∧ g.1 ≤ 28 then
      let p : Fin 18 := ⟨g.1 - 11, by omega⟩
      if fget (F.SW_TC10_p_STATE p.1) s = tc10SleepPend then fput (F.SW_TC10_p_STATE p.1) tc10Active s else wakeReq p s
    else if h : 29 ≤ g.1 then linInternal ⟨g.1 - 29, by omega⟩ linWakePulse s
    else s

/-- The level of CANn_STB: true is high. From a reset until the segment is enabled the peat domain holds it (R348, R352). -/
def stbPin (c : Fin 12) (s : State) : Bool :=
  let x := seg ⟨c.1, by omega⟩ s
  x.level.getD (x.asleep != ftst (F.NM_SEG_CFG_s_STB_POL c.1) s)

/-- A segment over a reset that keeps the peat domain: the levels of its pins and its latch (R348, R459). -/
def keptSeg (g : Fin 35) (s : State) : NmSeg :=
  { NmSeg.init with
    asleep := decide (g.1 ≤ 16) && (seg g s).asleep
    level := if h : g.1 < 12 then some (stbPin ⟨g.1, h⟩ s) else none
    latched := (seg g s).latched }

/-- The segments over such a reset. -/
def keptSegs (s : State) : Vector NmSeg 35 := Vector.ofFn fun g => keptSeg g s

/-- The level of ETH_INHn: P0 and P1 are the backbone segment, P2-P5 have their own. -/
def inhPin (n : Fin 6) (s : State) : Bool := !(seg (if n.1 < 2 then 12 else ⟨11 + n.1, by omega⟩) s).asleep

/-- Whether the NM block's wake pulse is still to come on a channel, runs on it, or has ended less than 100 ms ago (R344). -/
def pulseAhead (x : LinSt) : Bool :=
  x.release.isSome || (x.reqs ++ x.cur.toList).any fun r => r.internal && r.kind == 0x62

/-- The items that the Sluice holds on a segment are released (R342); those of a LIN channel wait for the wake pulse (R344). -/
def releaseHeld (g : Fin 35) (s : State) : State :=
  if h : g.1 < 12 then { s with can := upd s.can ⟨g.1, h⟩ fun c => { c with items := c.items.map fun x => { x with held := false } } }
  else if h : 29 ≤ g.1 then
    { s with lin := upd s.lin ⟨g.1 - 29, by omega⟩ fun l => if pulseAhead l then l else { l with reqs := l.reqs.map fun r => { r with held := false } } }
  else s

/-! ### Changes of state -/

/-- Enters AWAKE: the ring timer restarts, held items are released. -/
def enterAwake (g : Fin 35) (s : State) : State :=
  let s := setSeg g segAwake s
  releaseHeld g (updSeg g (fun x => { x with ring := s.now, regen := none }) s)

/-- A wake is recorded and the minimum-awake time starts (R342). -/
def recordWake (g : Fin 35) (src : Nat) (s : State) : State := startMinAwake g (fput (F.NM_SEG_STATUS_s_WAKE_SRC g.1) src s)

/-- A segment leaves PREPARE for AWAKE (R342). -/
def abortOne (g : Fin 35) (src : Nat) (s : State) : State :=
  if segState g s = segPrepare then
    enterAwake g (recordWake g src (raise F.NM_EVENT nmPrepAbort (bump R.NM_WAKE_ABORT s)))
  else s

/-- A segment and those that follow it leave PREPARE for AWAKE. -/
def abortGroup (g : Fin 35) (src : Nat) (s : State) : State :=
  forFin 35 (fun k s => if follows k g s then abortOne k wakeParent s else s) (abortOne g src s)

/-- A wake of a segment that follows a parent counts for the parent (R342): its minimum-awake time starts, and in PREPARE it has lost its own consent. -/
def wakeForParent (g : Fin 35) (s : State) : State :=
  match parentOf g s with
  | none => s
  | some p =>
    let s := startMinAwake p s
    if segState p s = segPrepare ∧ ownConsent p s = false then abortGroup p wakeConsent s else s

/-- A segment, those that follow it, and the parent it follows leave PREPARE for AWAKE. -/
def abortPrepare (g : Fin 35) (src : Nat) (s : State) : State := wakeForParent g (abortGroup g src s)

/-- A segment passes to WAKING: its sleep action is reversed (R342). -/
def wakeOne (g : Fin 35) (src : Nat) (s : State) : State :=
  setSeg g segWaking (wakeAction g (updSeg g (fun x => { x with src := src }) s))

/-- Whether Bellows keeps a segment asleep at the stage in force (R564). -/
def blwAsleep (g : Fin 35) (s : State) : Bool :=
  decide (2 ≤ fget F.BLW_STATUS_STAGE s) && (fbit (if g.1 < 32 then F.BLW_NONESS_LO else F.BLW_NONESS_HI) (g.1 % 32) s || s.blw.forced.contains g)

/-- A segment passes to WAKING unless Bellows keeps it asleep: the wake is then counted (R564). -/
def wakeTry (g : Fin 35) (src : Nat) (s : State) : State := if blwAsleep g s then bump R.NM_IGNORED_WAKE s else wakeOne g src s

/-- A segment passes to WAKING, and those that follow it leave SLEEP. -/
def wakeSeg (g : Fin 35) (src : Nat) (s : State) : State :=
  let was := segState g s
  if blwAsleep g s then bump R.NM_IGNORED_WAKE s
  else
    let s := wakeOne g src s
    if was = segSleep then forFin 35 (fun k s => if follows k g s && segState k s == segSleep then wakeTry k wakeParent s else s) s else s

/-- The segments that follow a segment, when it leaves the state `was` by being disabled or lost: from PREPARE they return to AWAKE, from SLEEP they wake (R342). -/
def followersLeave (g : Fin 35) (was : Nat) (s : State) : State :=
  forFin 35 (fun k s =>
    if follows k g s = false then s
    else if was = segPrepare then abortOne k wakeParent s
    else if was = segSleep ∧ segState k s = segSleep then wakeTry k wakeParent s
    else s) s

/-- A segment enters PREPARE: Heron's latch is armed, the Sluice closes; AWAKE segments that follow it go with it (R342). -/
def enterPrepare (g : Fin 35) (s : State) : State :=
  let s := setSeg g segPrepare s
  forFin 35 (fun k s => if follows k g s && segState k s == segAwake then setSeg k segPrepare s else s) s

/-- Own consent is formed anew, and what a change of it does follows (R339, R342, R346). -/
def showConsent (g : Fin 35) (s : State) : State :=
  let old := ftst (F.NM_SEG_STATUS_s_OWN_CONSENT g.1) s
  let new := ownConsent g s
  let s := formConsent g s
  let st := segState g s
  if new && st == segAwake && !ringSeg g && !ftst (F.NM_SEG_CFG_s_FOLLOW g.1) s then enterPrepare g s
  else if old && !new && st == segPrepare then abortPrepare g wakeConsent s
  else s

/-! ### The Sluice (R344) -/

/-- What the Sluice does with an item. -/
inductive Sluice where
  | pass
  | hold
  | refuse
  deriving DecidableEq, Repr

/-- Whether an item's key passes one of a segment's filters. -/
def sluiceHit (g : Fin 35) (key : Nat) (s : State) : Bool :=
  (List.range 8).any fun k =>
    fbit (F.NM_SEG_CFG_s_SL_EN g.1) k s
      && (BitVec.ofNat 32 key &&& rd (R.NM_SL_MASK_s_k g.1 k) s) == (rd (R.NM_SL_PATTERN_s_k g.1 k) s &&& rd (R.NM_SL_MASK_s_k g.1 k) s)

/-- Dropped items are counted. -/
def sluiceDrops (n : Nat) (s : State) : State := whenB (n != 0) (fun s => raise F.NM_EVENT nmSluiceDrop (bumpBy n R.NM_SLUICE_DROP s)) s

/-- A dropped item is counted. -/
def sluiceDrop (s : State) : State := sluiceDrops 1 s

/-- The Sluice tests an item addressed to a segment. -/
def sluice (g : Fin 35) (key : Nat) (s : State) : Sluice × State :=
  let st := segState g s
  if !ftst F.NM_CTRL_EN s || st == segDisabled || st == segAwake then (.pass, s)
  else if st = segPrepare then
    if sluiceHit g key s then (.pass, abortPrepare g wakeSluice (bump R.NM_SLUICE_PASS s)) else (.hold, s)
  else if st = segSleepEntry ∨ st = segSleep then
    if sluiceHit g key s then (.hold, wakeSeg g wakeSluice (bump R.NM_SLUICE_PASS s)) else (.refuse, sluiceDrop s)
  else if st = segWaking then (.hold, s)
  else (.refuse, sluiceDrop s)

/-- The segment of a port (R334). -/
def portSeg (p : Fin 18) : Fin 35 := if h : p.1 < 2 then 12 else ⟨p.1 + 11, by omega⟩

/-- Whether the Sluice keeps the gates of a port closed (R344). -/
def sluiceShut (p : Nat) (s : State) : Bool :=
  if h : p < 18 then
    let st := segState (portSeg ⟨p, h⟩) s
    ftst F.NM_CTRL_EN s && (st == segPrepare || st == segSleepEntry || st == segSleep || st == segWaking)
  else false

/-! ### Wakes that Heron latches (R343, R459) -/

/-- Shows whether Heron holds a wake of a segment. -/
def showLatch (g : Fin 35) (s : State) : State :=
  let on := (seg g s).latched.isSome
  let f := if g.1 < 32 then F.HERON_SEG_LATCH_LO else F.HERON_SEG_LATCH_HI
  let s := fput (F.NM_SEG_STATUS_s_LATCHED g.1) on.toNat s
  if on then raise f (g.1 % 32) s else lower f (g.1 % 32) s

/-- A wake that comes before the segment sleeps is latched (R343). -/
def latchWake (g : Fin 35) (src : Nat) (s : State) : State := showLatch g (updSeg g (fun x => { x with latched := some (x.latched.getD src) }) s)

/-- A wake of a segment arrives (R342, R343, R347). -/
def segWakeInput (g : Fin 35) (src : Nat) (s : State) : State :=
  let st := segState g s
  if src = wakeActivity ∧ ftst (F.NM_SEG_CFG_s_ANY_ACT_WAKE g.1) s = false then s
  else if st = segPrepare ∨ st = segSleepEntry then latchWake g src s
  else if st = segSleep then (if src = wakeActivity then s else wakeSeg g src s)
  else if st = segIsolated then bump R.NM_IGNORED_WAKE s
  else s

end Sys2Proof.Machine
end

