-- ==== Sys2Proof/Machine/VqiCore.lean ====
section
/-!
DEFINITION. The virtual instances as other blocks meet them (chapter 14): their items, completion records, and the steering of received frames.
-/
namespace Sys2Proof.Machine

/-- Changes the state of the VQI block. -/
def updVqi (f : VqiSt → VqiSt) (s : State) : State := { s with vqi := f s.vqi }

def vqiDisabled : Nat := 0
def vqiActive : Nat := 1
def vqiFreezing : Nat := 2
def vqiFrozen : Nat := 3

/-- The state of an instance (R507). -/
def vqiState (i : Fin 32) (s : State) : Nat := fget (F.VQI_STATE_i_STATE i.1) s

/-- Gives an instance a state, in both of its views (R512, R513). -/
def putVqiState (i : Fin 32) (st : Nat) (s : State) : State := s |> fput (F.VQI_STATE_i_STATE i.1) st |> fput (F.VQI_ISTATUS_i_STATE i.1) st

/-- An instance's generation (R503). -/
def vqiGen (i : Fin 32) (s : State) : Nat := fget (F.VQI_STATE_i_GEN i.1) s

/-- Gives an instance a generation, in both of its views. -/
def putVqiGen (i : Fin 32) (g : Nat) (s : State) : State := s |> fput (F.VQI_STATE_i_GEN i.1) g |> fput (F.VQI_ISTATUS_i_GEN i.1) g

/-- The identity of the accesses that VQI makes for an instance, through the cache of SWP (R468, R491). -/
def vqiIdent (i : Fin 32) (s : State) : Ident := ⟨17, 0x40, false, fget (F.VQI_CFG_i_INST i.1) s⟩

/-- The events of the manager page (R511). -/
def mgrSpoof : Nat := 0
def mgrOverShare : Nat := 1
def mgrFreezeDone : Nat := 2
def mgrMigDone : Nat := 3
def mgrStale : Nat := 4

/-- A 40-bit address in two registers. -/
def addrOf (lo hi : Fld) (s : State) : Nat := fget lo s + 2 ^ 32 * fget hi s

/-- The number of entries of a ring (R490); 0 where the size keeps the pair from fetching (R513). -/
def ringEntries (log2 : Nat) : Nat := if 4 ≤ log2 ∧ log2 ≤ 12 then 2 ^ log2 else 0

/-- The entries of a pair's CQ. -/
def cqEntries (i : Fin 32) (p : Fin 8) (s : State) : Nat := ringEntries (fget (F.VQI_RING_SIZE_i_p_CQ_LOG2 i.1 p.1) s)

/-- The entries of a pair's SQ. -/
def sqEntries (i : Fin 32) (p : Fin 8) (s : State) : Nat := ringEntries (fget (F.VQI_RING_SIZE_i_p_SQ_LOG2 i.1 p.1) s)

/-- The items of a pair that have not completed. -/
def pairItems (i : Fin 32) (p : Fin 8) (s : State) : List VqiItem := s.vqi.items.filter fun x => x.inst == i && x.pair == p

/-- The CQ entries of a pair that are free and not reserved; one is always kept for the reset summary (R490). -/
def cqFree (i : Fin 32) (p : Fin 8) (s : State) : Nat :=
  let n := cqEntries i p s
  let used := (fget (F.VQI_CQ_TAIL_i_p i.1 p.1) s + n - fget (F.VQI_CQ_HEAD_i_p i.1 p.1) s % max 1 n) % max 1 n
  n - used - (pairItems i p s).length - 1

/-- The bytes of a VT run in the layout of R200, words 0-2. -/
def runBytes (v : Nat) : List Byte :=
  let (sec, ns, frac) := vtParts v
  leBytes 4 ns ++ leBytes 4 sec ++ leBytes 2 (sec / 2 ^ 32) ++ leBytes 2 frac

/-- A completion-queue record (R495). -/
def cqRecord (status type len tag gen sq b12 : Nat) (tail : List Byte) : List Byte :=
  leBytes 1 status ++ leBytes 1 type ++ leBytes 2 len ++ leBytes 4 tag ++ leBytes 2 gen ++ leBytes 2 sq ++ leBytes 4 b12 ++ tail

/-- Writes a record into a pair's next CQ entry. A refused access stops the pair with FAULT (R491). -/
def cqWrite (i : Fin 32) (p : Fin 8) (rec : List Byte) (s : State) : State :=
  let n := max 1 (cqEntries i p s)
  let tail := fget (F.VQI_CQ_TAIL_i_p i.1 p.1) s % n
  let a := addrOf (F.VQI_CQ_BASE_LO_i_p i.1 p.1) (F.VQI_CQ_BASE_HI_i_p i.1 p.1) s + 32 * tail
  match dmaWrite (vqiIdent i s) a rec s with
  | (false, s) => fput (F.VQI_PAIR_STATUS_i_p_FAULT i.1 p.1) 1 s
  | (true, s) => fput (F.VQI_CQ_TAIL_i_p i.1 p.1) ((tail + 1) % n) s

/-- The byte `k` of an item's descriptor (R493). -/
def VqiItem.byte (x : VqiItem) (k : Nat) : Nat := (x.desc.getD k 0).toNat

/-- A little-endian field of an item's descriptor. -/
def VqiItem.field (x : VqiItem) (k n : Nat) : Nat := leNat ((x.desc.drop k).take n)

/-- The OP of an item (R493). -/
def VqiItem.op (x : VqiItem) : Nat := x.byte 0

/-- The admission target of an item (R500): H0, H1, SVC, CRY. -/
def VqiItem.target (x : VqiItem) (s : State) : Fin 4 :=
  if x.op = 0x01 then (if ftst (F.VQI_CFG_i_PLANE x.inst.1) s then 1 else 0)
  else if x.op = 0x30 then 3 else 2

/-- An instance's items in a target's admission buffer (R500). -/
def vqiOcc (i : Fin 32) (t : Fin 4) (s : State) : Nat :=
  (s.vqi.items.filter fun x => x.inst == i && x.place == .admitted && x.target s == t).length

/-- Shows an instance's occupancies; OVER_SHARE clears once every occupancy is below the share in force (R502, R512). -/
def showOcc (i : Fin 32) (s : State) : State :=
  let s := forFin 4 (fun t s => fput (F.VQI_OCC_i_t i.1 t.1) (vqiOcc i t s) s) s
  whenB ((List.finRange 4).all fun t => decide (vqiOcc i t s < s.vqi.share[i.1])) (fput (F.VQI_STATE_i_OVER_SHARE i.1) 0) s

/-- A target takes an item from its admission buffer (R500). -/
def vqiTake (x : VqiItem) (s : State) : State :=
  showOcc x.inst (updVqi (fun v => { v with items := v.items.map fun y => if y.id = x.id then { y with place := .taken } else y }) s)

/-- An item ends: its completion waits to be written (R495). -/
def vqiFinish (d : VqiDone) (s : State) : State := updVqi (fun v => { v with done := v.done ++ [d] }) s

/-- The last item of a freezing instance has completed (R507). -/
def freezeCheck (i : Fin 32) (s : State) : State :=
  if vqiState i s = vqiFreezing ∧ (s.vqi.items.any fun x => x.inst == i) = false then
    raise F.VQI_MGR_EVENT_EVENT mgrFreezeDone (putVqiState i vqiFrozen s)
  else s

/-- Writes an item's completion record and forgets the item (R495): a stamp only of a received frame or with STAMP, the bytes sent of a frame or CAN item that ended DONE. -/
def vqiRecord (x : VqiItem) (d : VqiDone) (s : State) : State :=
  let zero := List.replicate 16 (0 : Byte)
  let tail := match d.stamp with
    | some v => if x.op = 0x02 ∨ x.byte 1 / 8 % 2 = 1 then runBytes v ++ List.replicate 4 0 else zero
    | none => zero
  let len := if x.op = 0x02 ∨ d.status = .done then d.len else 0
  let s := cqWrite x.inst x.pair (cqRecord d.status.code 0 len (x.field 4 4) x.gen x.sq d.extra tail) s
  showOcc x.inst (updVqi (fun v => { v with items := v.items.filter fun y => y.id != x.id }) s)

/-- A completion reaches the VQI (R495, R503, R505): it writes its item's record, or is stale. -/
def vqiComplete (d : VqiDone) (s : State) : State :=
  match s.vqi.items.find? fun x => x.id == d.id && x.gen == d.gen with
  | none => raise F.VQI_MGR_EVENT_EVENT mgrStale (bump (R.VQI_STALE_CNT_i d.inst.1) s)
  | some x => freezeCheck x.inst (vqiRecord x d s)

/-- Whether one of an instance's MAC entries that are in use holds an address. -/
def vqiMacOk (i : Fin 32) (mac : Nat) (s : State) : Bool :=
  (List.range 4).any fun k =>
    ftst (F.VQI_MAC_HI_i_k_EN i.1 k) s && fget (F.VQI_MAC_LO_i_k i.1 k) s + 2 ^ 32 * fget (F.VQI_MAC_HI_i_k_MAC i.1 k) s == mac

/-- Whether one of an instance's VLAN entries that are in use holds a VID. -/
def vqiVlanOk (i : Fin 32) (vid : Nat) (s : State) : Bool :=
  (List.range 8).any fun k => ftst (F.VQI_VLAN_i_k_EN i.1 k) s && fget (F.VQI_VLAN_i_k_VID i.1 k) s == vid

/-- Whether the switch steers a frame for host port `h` to an instance (R496). -/
def vqiSteers (h : Bool) (mac vid : Nat) (i : Fin 32) (s : State) : Bool :=
  vqiState i s == vqiActive && ftst (F.VQI_CFG_i_PLANE i.1) s == h && vqiVlanOk i vid s
    && (vqiMacOk i mac s || (mac / 2 ^ 40 % 2 == 1 && ftst (F.VQI_CFG_i_RX_MCAST i.1) s))

/-- The oldest unfilled receive buffer of the lowest-numbered ETH pair of an instance that takes a class (R496). -/
def rxbufOf (i : Fin 32) (cls : Nat) (s : State) : Option VqiItem :=
  let cands := s.vqi.items.filter fun x => x.inst == i && x.place == .rxbuf
    && fget (F.VQI_PAIR_KIND_i_p_CLASSES i.1 x.pair.1) s / 2 ^ cls % 2 == 1
  (List.finRange 8).findSome? fun p => cands.find? fun x => x.pair == p

/-- A frame with its FCS, the CRC-32 of Ethernet, low byte first: what a receive buffer takes (R238, R495, assumption 16). -/
def withFcs (bytes : List Byte) : List Byte := bytes ++ leBytes 4 (crc32 bytes)

/-- Gives an instance its copy of a frame, with its FCS (R495, R496). -/
def vqiFill (i : Fin 32) (bytes : List Byte) (cls ingress stamp : Nat) (s : State) : State :=
  match rxbufOf i cls s with
  | none => bump (R.VQI_RX_NOBUF_i i.1) s
  | some x =>
    let len := bytes.length + 4
    let s := updVqi (fun v => { v with items := v.items.map fun y => if y.id = x.id then { y with place := .taken } else y }) s
    let fin (st : Status) := vqiFinish ⟨x.id, i, x.gen, st, len, ingress + 256 * cls, some stamp⟩
    if x.field 2 2 < len then fin .failedRefused s
    else match dmaWrite (vqiIdent i s) (x.field 8 5) (withFcs bytes) s with
      | (false, s) => fin .failedBus s
      | (true, s) => fin .done s

/-- Steers a frame for host port `h` to the instances that take it; the answer says whether one did (R496). -/
def vqiDeliver (h : Bool) (bytes : List Byte) (vid cls ingress stamp : Nat) (s : State) : Bool × State :=
  let mac := beNat (bytes.take 6)
  let takers := (List.finRange 32).filter fun i => vqiSteers h mac vid i s
  (!takers.isEmpty, takers.foldl (fun s i => vqiFill i bytes cls ingress stamp s) s)

/-- A migration command ends (R509, R510). -/
def migEnd (st : Status) (reason : Nat) (s : State) : State :=
  updVqi (fun v => { v with mig := none }) s |> fput F.VQI_MIG_CMD_BUSY 0 |> fput F.VQI_MIG_STAT_STATUS st.code |> fput F.VQI_MIG_STAT_REASON reason
    |> raise F.VQI_MGR_EVENT_EVENT mgrMigDone

/-- A migration command that runs is ended by a Hearth restart or a tamper alarm (R509). -/
def migAbort (st : Status) (s : State) : State := if s.vqi.mig.isSome then migEnd st 0 s else s

end Sys2Proof.Machine
end

