-- ==== Sys2Proof/Machine/SwPool.lean ====
section
/-!
DEFINITION. The switch (chapter 06), first part: ports and planes, the tables, the buffer pool, and how a submitted frame ends.
-/
namespace Sys2Proof.Machine

/-- Changes the switch. -/
def updSw (f : SwSt → SwSt) (s : State) : State := { s with sw := f s.sw }

def portH0 : Nat := 18
def portH1 : Nat := 19
def portE : Nat := 20
def portC : Nat := 21
def portT : Nat := 22

def swPlaneLost : Nat := 0
def swPoolLow : Nat := 1
def swLearnFail : Nat := 2
def swFrerLatent : Nat := 3
def swStreamBlocked : Nat := 4
def swGateChange : Nat := 5
def swGateErr : Nat := 6
def swEcplOvf : Nat := 7
def swPtpDrop : Nat := 8

/-- A port's rate in kb/s (R209). -/
def portRate (p : Nat) : Nat :=
  if p < 2 then 10000000
  else if p < 6 then 1000000
  else if p < 14 then 100000
  else if p < 18 then 10000
  else if p < 21 then 20000000
  else if p = 21 then 18000000
  else 1000000

/-- The device latencies of R55 in units of 2^-16 ns (the nearest): ingress, egress. -/
def deviceLat (p : Nat) : Nat × Nat :=
  if p < 2 then (943718, 734003)
  else if p < 6 then (2726298, 1887437)
  else if p < 14 then (24379392, 16252928)
  else if p < 18 then (125304832, 92012544)
  else (0, 0)

/-- The corrected ingress stamp of a frame that arrives now (R54). -/
def ingressStamp (p : Nat) (s : State) : Nat :=
  stamp16 s - (deviceLat p).1 - (if p < 18 then (rd (R.TIME_PHY_RX_LAT_n p) s).toNat else 0)

/-- The corrected egress stamp of a frame that leaves now (R54). -/
def egressStamp (p : Nat) (s : State) : Nat :=
  stamp16 s + (deviceLat p).2 + (if p < 18 then (rd (R.TIME_PHY_TX_LAT_n p) s).toNat else 0)

/-- The raw cycle count of the master time island (R57). -/
def rawCount (s : State) : Nat := (mIsl s).raw

/-- The plane in use for a port's queues (R212): fixed for P0, P1, H0 and H1. -/
def planeOf (p : Nat) (s : State) : Bool :=
  if p = 0 ∨ p = portH0 then false
  else if p = 1 ∨ p = portH1 then true
  else ftst (F.SW_PORT_STATUS_p_PLANE_NOW p) s

/-- Whether a plane is there (R213, R249). -/
def planeOk (b : Bool) (s : State) : Bool := ftst (if b then F.SW_STATUS_PLANE1_OK else F.SW_STATUS_PLANE0_OK) s

/-- The island of a plane (R16). -/
def planeIsl (b : Bool) : Fin 21 := if b then islSW1 else islSW0

/-! ### Tables (R254) -/

def tblAddr : Nat := 0
def tblVlan : Nat := 1
def tblMgroup : Nat := 2
def tblSfilt : Nat := 3
def tblSgate : Nat := 4
def tblSgateEntry : Nat := 5
def tblFmeter : Nat := 6
def tblFrerGen : Nat := 7
def tblFrerRec : Nat := 8
def tblGcl : Nat := 9

/-- Where an entry lies in the tables. -/
def tblKey (t i : Nat) : Nat := t * 2 ^ 18 + i

/-- The number of entries of a table. -/
def tblSize (t : Nat) : Nat := [16384, 4096, 1024, 1024, 256, 16384, 512, 128, 128, 11776].getD t 0

/-- The bits of an entry that a table has; the others are 0. -/
def tblMask (t : Nat) : BitVec 128 :=
  let w (a b c d : Nat) : BitVec 128 := BitVec.ofNat 128 (a + b * 2 ^ 32 + c * 2 ^ 64 + d * 2 ^ 96)
  match t with
  | 0 => w 0xFFFFFFFF 0x0FFFFFFF 0x1FFF 0
  | 1 => w 0x7FFFFF 0x3FFFF 0x1FFF 0
  | 2 => w 0x7FFFFF 0 0 0
  | 3 => w 0xFFFFFFFF 0xBFFFFFFF 0xFFFFFF 0x3F3FFF
  | 4 => w 0xFFFFFFFF 0xFFFFFFFF 0x803FFFFF 0xFFFFFFFF
  | 5 => w 0x1F 0xFFFFFFFF 0 0
  | 6 => w 0xFFFFFFFF 0xFFFFFFFF 0xFFFFFFFF 0x3FFFFFF
  | 7 => w 0x800003FF 0xFFFF 0 0
  | 8 => w 0x80FF03FF 0x3FF 0xFFFFFFFF 0xFFFFFFFF
  | 9 => w 0x3FF 0xFFFFFFFF 0 0
  | _ => 0

/-- A table entry as software last wrote it, or the switch keeps it. -/
def tblGet (t i : Nat) (s : State) : BitVec 128 := sget (fun _ => 0) s.sw.tbl (tblKey t i)

/-- Gives a table entry a value. -/
def tblPut (t i : Nat) (v : BitVec 128) (s : State) : State := updSw (fun w => { w with tbl := sput (fun _ => 0) (tblKey t i) v w.tbl }) s

/-- A field `[hi:lo]` of word `w` of an entry. -/
def eb (v : BitVec 128) (w hi lo : Nat) : Nat := bits v.toNat (32 * w + hi) (32 * w + lo)

/-- Replaces a field of an entry. -/
def ebSet (v : BitVec 128) (w hi lo x : Nat) : BitVec 128 :=
  let sh := 32 * w + lo
  (v &&& ~~~(BitVec.ofNat 128 ((2 ^ (hi + 1 - lo) - 1) * 2 ^ sh))) ||| BitVec.ofNat 128 (x % 2 ^ (hi + 1 - lo) * 2 ^ sh)

/-- The indices of the entries of a table that differ from 0, lowest first. -/
def tblListed (t : Nat) (s : State) : List Nat :=
  (s.sw.tbl.filter fun p => p.1 / 2 ^ 18 == t).map fun p => p.1 % 2 ^ 18

/-! ### Completion of submitted frames (R235, R238, R239) -/

/-- Raises ECPL_OVF. -/
def ecplOvf (s : State) : State := raise F.SW_EVENT swEcplOvf (bump R.SW_ECPL_OVF s)

/-- The count that a status belongs to (R249). -/
def ecplIndex : Status → Nat
  | .done => 0
  | .failedBus => 1
  | .failedEcc => 2
  | .failedTimeout => 3
  | .failedRefused => 4
  | .abortedReset => 5
  | .abortedIslandOff => 6
  | _ => 7

/-- The completion record of a frame submitted through E (R235). -/
def ecplRecord (e : Fin 24) (t : Fin 4) (count : Nat) (st : Status) (len : Nat) (s : State) : State :=
  let s := bump (R.SW_ECPL_CNT_s (ecplIndex st)) s
  let n := fget F.SW_ECPL_SIZE_N s
  if n = 0 then s
  else
    let i := fget F.SW_ECPL_HEAD_IDX s % n
    let s := mwrBytes (0x01000000 + 16 * fget F.SW_ECPL_BASE_OFS s + 16 * i)
      (leBytes 4 (st.code + 256 * e.1 + 65536 * t.1) ++ leBytes 4 count ++ leBytes 4 len ++ leBytes 4 (vtNs s % secNs)) s
    let s := whenB (decide (n ≤ s.sw.ecplCount)) ecplOvf s
    fput F.SW_ECPL_HEAD_IDX ((i + 1) % n) (updSw (fun w => { w with ecplCount := w.ecplCount + 1 }) s)

/-- The index of a host ring: transmit rings 0-7, receive rings 8-15 (R252). -/
def ringBase (h : Fin 2) (r : Nat) (s : State) : Nat := addrOf (F.SW_RING_BASE_LO_h_r h.1 r) (F.SW_RING_BASE_HI_h_r h.1 r) s

/-- The number of descriptors of a ring; other sizes than those of R252 turn it off. -/
def ringSize (h : Fin 2) (r : Nat) (s : State) : Nat :=
  let n := fget (F.SW_RING_SIZE_h_r h.1 r) s
  if [16, 32, 64, 128, 256, 512, 1024, 2048, 4096].contains n then n else 0

/-- The identity of the host ports' descriptor DMA, which chapter 06 does not name (DESIGN CHOICE, assumption 14). -/
def hostIdent : Ident := ⟨17, 0x40, false, 0⟩

/-- Moves RING_HEAD over the descriptors that are completed, up to the one fetched last (R252). -/
def moveHead (h : Fin 2) (r fetched : Nat) : Nat → State → State
  | 0, s => s
  | k + 1, s =>
    let n := max 1 (ringSize h r s)
    let i := fget (F.SW_RING_HEAD_h_r h.1 r) s
    if i = fetched then s
    else if (mrd (ringBase h r s + 32 * i + 10) s).toNat / 2 % 2 = 1 then s
    else moveHead h r fetched k (fput (F.SW_RING_HEAD_h_r h.1 r) ((i + 1) % n) s)

/-- Writes the completion of a transmit descriptor (R238). -/
def hostTxDone (h : Fin 2) (r d : Nat) (stamp : Bool) (st : Status) (at_ : Nat) (s : State) : State :=
  let a := ringBase h r s + 32 * d
  let s := mwr (a + 11) (BitVec.ofNat 8 st.code) (mwr (a + 10) (mrd (a + 10) s &&& 0xFD) s)
  let s := whenB stamp (mwrBytes (a + 16) (runBytes at_)) s
  let s := moveHead h r (s.sw.ringNext.toList.getD (8 * h.1 + r) 0) 4096 s
  pulse (88 + 8 * h.1 + r) s

/-- A segment of a camera line ends; the last one ends the line's item (R129, R136, R239). -/
def lineSegment (n : Fin 4) (line : Nat) (st : Status) (s : State) : State :=
  match s.sw.lines.find? fun x => x.cam == n && x.id == line with
  | none => s
  | some x =>
    let bad := x.bad || st != .done
    let rest := s.sw.lines.filter fun x => !(x.cam == n && x.id == line)
    if x.left ≤ 1 then
      let s := updSw (fun w => { w with lines := rest }) s
      if bad then lineFailed n x.vc x.seq line x.isEnd s else whenB (!x.isEnd) (bump (R.CAM_LINES_FWD n.1)) s
    else updSw (fun w => { w with lines := rest ++ [{ x with left := x.left - 1, bad := bad }] }) s

/-- A submitted frame ends: its submitter gets the status, the frame's length with FCS, and the egress stamp. -/
def submitEnd (sub : Submitter) (st : Status) (len at_ : Nat) (s : State) : State :=
  match sub with
  | .none => s
  | .engine e t count => ecplRecord e t count st len s
  | .host h d _ stamp => hostTxDone h (d / 4096) (d % 4096) stamp st at_ s
  | .camera n line => lineSegment n line st s
  | .vqi i item gen => vqiFinish ⟨item, i, gen, st, len - 4, 0, some at_⟩ s

/-! ### The pool (R241-R243) -/

/-- The cells of a frame of `len` bytes with FCS (R241). -/
def cellsOf (len : Nat) : Nat := (len + 255) / 256

/-- Reserved cells of a class in use in a half. -/
def halfRes (half : Bool) (c : Nat) (s : State) : Nat := ((s.sw.allocs.filter fun a => a.half == half && a.cls == c).map SwAlloc.res).sum

/-- Shared cells in use in a half. -/
def halfShared (half : Bool) (s : State) : Nat := ((s.sw.allocs.filter fun a => a.half == half).map SwAlloc.shared).sum

/-- The sum of the reservations. -/
def resSum (s : State) : Nat := ((List.range 8).map fun c => fget (F.SW_RES_c c) s).sum

/-- The shared size of the pool (R243). -/
def sharedSize (s : State) : Nat := 24576 - resSum s

/-- Free shared cells in a half, which has half of the shared size, rounded down. -/
def halfFree (half : Bool) (s : State) : Nat := sharedSize s / 2 - halfShared half s

/-- Whether the free shared cells lie below FLOOR_0. -/
def poolLow (s : State) : Bool := decide (fget F.SW_SHARED_FREE s < fget (F.SW_FLOOR_c 0) s)

/-- POOL_LOW when a change has brought the free shared cells below FLOOR_0 (R249). -/
def noteLow (before s : State) : State := whenB (poolLow s && !poolLow before) (raise F.SW_EVENT swPoolLow) s

/-- Shows the pool in USE_c and SHARED_FREE (R249). -/
def showPool (s0 : State) : State :=
  let s := s0
  let free := sharedSize s - halfShared false s - halfShared true s
  let use (c : Nat) (f : SwAlloc → Nat) : Nat := ((s.sw.allocs.filter fun a => a.cls == c).map f).sum
  let s := forN 8 (fun c s => s |> fput (F.SW_USE_c_RES c) (use c SwAlloc.res) |> fput (F.SW_USE_c_SHARED c) (use c SwAlloc.shared)) s
  noteLow s0 (fput F.SW_SHARED_FREE free s)

/-- The cells a frame of a class would take in a half: from its reservation first, the rest shared; none where R242 refuses it. -/
def poolFit (half : Bool) (c cells : Nat) (s : State) : Option (Nat × Nat) :=
  let r := min cells (fget (F.SW_RES_c c) s / 2 - halfRes half c s)
  let rest := cells - r
  if rest = 0 then some (r, 0)
  else if c ≤ 5 ∧ cells + fget (F.SW_FLOOR_c c) s / 2 ≤ halfFree half s then some (r, rest)
  else none

/-- The cells that a queue's frames occupy (R242). -/
def queueCells (p c : Nat) (s : State) : Nat :=
  (s.sw.frames.map fun f => if f.copies.any fun k => k.port == p && k.cls == c then cellsOf (f.bytes.length + 4) else 0).sum

/-- Takes cells for something, with as many references as it has copies in the half. -/
def poolTake (id : Nat) (half : Bool) (c refs : Nat) (cells : Nat × Nat) (s : State) : State :=
  showPool (updSw (fun w => { w with allocs := w.allocs ++ [⟨id, half, c, cells.1, cells.2, refs⟩] }) s)

/-- A copy has left a half: with its last one the cells are free (R241). -/
def poolDrop (id : Nat) (half : Bool) (s : State) : State :=
  showPool (updSw (fun w => { w with allocs :=
    (w.allocs.map fun a => if a.id = id ∧ a.half = half then { a with refs := a.refs - 1 } else a).filter fun a => a.refs != 0 }) s)

/-- The cells of a packet that a thread holds are freed. -/
def freePacket (p : Packet) (s : State) : State :=
  match p.alloc with
  | some (id, half) => poolDrop id half s
  | none => s

/-! ### Frames -/

/-- Changes a frame in the buffer. -/
def updFrame (id : Nat) (f : SwFrame → SwFrame) (s : State) : State :=
  updSw (fun w => { w with frames := w.frames.map fun x => if x.id = id then f x else x }) s

/-- A frame in the buffer. -/
def frameOf (id : Nat) (s : State) : Option SwFrame := s.sw.frames.find? fun f => f.id == id

/-- A frame that has no copy left leaves the switch, and its submitter is answered (R239). -/
def frameCheck (id : Nat) (s : State) : State :=
  match frameOf id s with
  | none => s
  | some f =>
    if f.copies.isEmpty && f.out == 0 then
      submitEnd f.sub (f.failed.getD .done) (f.bytes.length + 4) f.egressStamp
        (updSw (fun w => { w with frames := w.frames.filter fun x => x.id != id }) s)
    else s

/-- A copy of a frame fails while it waits: it is dropped, and the first failure is the frame's status (R239). -/
def copyFail (id : Nat) (k : SwCopy) (st : Status) (s : State) : State :=
  frameCheck id (poolDrop id k.half (updFrame id (fun f => { f with copies := f.copies.erase k, failed := some (f.failed.getD st) }) s))

/-- A copy that was taken from its queue has left (R239). `keep`: its cells stay with the item that it has become. -/
def copyOut (id : Nat) (half : Bool) (st : Status) (at_ : Nat) (keep : Bool) (s : State) : State :=
  let s := updFrame id (fun f => { f with
    out := f.out - 1
    failed := if st = .done then f.failed else some (f.failed.getD st)
    egressStamp := at_ }) s
  frameCheck id (if keep then s else poolDrop id half s)

/-- The copies that wait in a queue, oldest first, with their frames. -/
def queueOf (p c : Nat) (s : State) : List (SwFrame × SwCopy) :=
  s.sw.frames.filterMap fun f => (f.copies.find? fun k => k.port == p && k.cls == c).map fun k => (f, k)

/-- Whether any frame waits for a port. -/
def portWaits (p : Nat) (s : State) : Bool := s.sw.frames.any fun f => f.copies.any fun k => k.port == p

/-- Whether Bellows closes a port at the stage in force (R564). -/
def lidarClosed (p : Nat) (s : State) : Bool := decide (3 ≤ fget F.BLW_STATUS_STAGE s) && decide (p < 18) && fbit F.BLW_LIDAR_PORTS p s

/-- Whether a port takes no frames: it sleeps, or Bellows has closed it (R245, R564). -/
def portShut (p : Nat) (s : State) : Bool :=
  decide (p < 18) && (fget (F.SW_TC10_p_STATE p) s == 2 || (lidarClosed p s && s.blw.shut.any fun q => q.1 == p))

/-- The ns a frame of `len` bytes takes on a port, from its start-of-frame delimiter. -/
def frameTime (p len : Nat) : Nat := (len * 8 * 1000000 + portRate p - 1) / portRate p

/-- Discards every copy that waits for a port, counted in FLUSH (R213, R245). -/
def flushPort (p : Nat) (st : Status) (pick : SwFrame → SwCopy → Bool) (s : State) : State :=
  s.sw.frames.foldl (fun s f => f.copies.foldl (fun s k =>
    if k.port = p ∧ pick f k then copyFail f.id k st (bump (R.SW_FLUSH_p_c p k.cls) s) else s) s) s

/-- Whether the NM block has put a port's segment to sleep. -/
def portSlept (p : Fin 18) (s : State) : Bool :=
  let st := segState (portSeg p) s
  ftst F.NM_CTRL_EN s && (st == segSleepEntry || st == segSleep || st == segIsolated)

/-- What waits on a port is discarded. Where its segment sleeps the Sluice drops it (R344): a frame for P0 and P1 is dropped once, with the second of its copies. -/
def flushSlept (p : Fin 18) (s : State) : State :=
  let waits (q : Nat) (f : SwFrame) : Bool := f.copies.any fun k => k.port == q
  let n := (s.sw.frames.filter fun f => waits p.1 f && !(decide (p.1 < 2) && waits (1 - p.1) f)).length
  flushPort p.1 .failedRefused (fun _ _ => true) (whenB (portSlept p s) (sluiceDrops n) s)

/-! ### Mailboxes (R151) -/

/-- Puts an item into a mailbox of 16 entries; the answer says whether there was room. -/
def mboxPut (k : Fin 96) (x : MailItem) (s : State) : Bool × State :=
  if s.mbox[k.1].length < 16 then (true, { s with mbox := upd s.mbox k fun l => l ++ [x] }) else (false, s)

/-- Words 1-3 of a packet item: a stamp in the layout of R200, words 0-2 (R234). -/
def stampWords (v : Nat) : Nat × Nat × Nat :=
  let (sec, ns, frac) := vtParts v
  (ns, sec % 2 ^ 32, sec / 2 ^ 32 + 65536 * frac)

/-- PTP_DROP (R236, R237). -/
def ptpDrop (s : State) : State := raise F.SW_EVENT swPtpDrop (bump R.SW_PTP_DROP s)

/-- A gPTP packet item of port T: the frame, and the raw count at window offsets 248-255 (R236). -/
def ptpItem (kind : Nat) (bytes : List Byte) (stamp raw : Nat) : MailItem :=
  ⟨kind, bytes.length + 4, stampWords stamp, some ⟨bytes ++ List.replicate (248 - bytes.length) 0 ++ beBytes 8 raw, none, none, none⟩⟩

/-- Port T puts an item into one of its mailboxes, or drops it (R236). -/
def ptpPut (k : Fin 96) (x : MailItem) (s : State) : State :=
  match mboxPut k x s with
  | (true, s) => s
  | (false, s) => ptpDrop s

/-- Whether port T takes frames (R250). -/
def portTOn (s : State) : Bool := ftst (F.SW_PORT_CFG_p_EN portT) s

/-- A received gPTP frame goes to the gPTP threads (R236). -/
def ptpDeliver (p : Nat) (bytes : List Byte) (stamp raw : Nat) (s : State) : State :=
  if !portTOn s then s
  else if 248 < bytes.length then ptpDrop s
  else
    let s := bump (R.SW_TX_p_c portT 7) s
    let x := ptpItem (0x40 + p) bytes stamp raw
    if ftst F.TIME_STATUS_STBY_ACTIVE s then ptpPut 93 x s
    else whenB (ftst F.TIME_CTRL_GPTP_STBY s) (ptpPut 93 x) (ptpPut 92 x s)

/-- Whether a frame is a gPTP frame (R236). -/
def isPtp (bytes : List Byte) : Bool := beNat (bytes.take 6) == 0x0180C200000E && beNat ((bytes.drop 12).take 2) == 0x88F7

/-- Whether a gPTP frame is an event message (PRESUMED of IEEE 802.1AS: messageType 0-3). -/
def ptpEvent (bytes : List Byte) : Bool := (bytes.getD 14 0).toNat % 16 < 4

/-- The destination of gPTP frames, 01-80-C2-00-00-0E. -/
def ptpMac : Nat := 0x0180C200000E

/-- The copy of a sent event message (R237). -/
def ptpSent (p : Nat) (bytes : List Byte) (stamp raw : Nat) (s : State) : State :=
  if !portTOn s then s
  else if 248 < bytes.length then ptpDrop s
  else ptpPut (if ftst F.TIME_STATUS_STBY_ACTIVE s then 95 else 94) (ptpItem (0x80 + p) bytes stamp raw) (bump (R.SW_TX_p_c portT 7) s)

end Sys2Proof.Machine
end

