-- ==== Sys2Proof/Machine/SwGate.lean ====
section
/-!
DEFINITION. The switch, second part: gate control lists, stream gates, and credit-based shaping.
-/
namespace Sys2Proof.Machine

/-- An entry of a gate list: its states (a stream gate's open state and priority value), its length in units of 2^-16 ns, and its operation. -/
structure GateSeg where
  states : Nat
  len : Nat
  op : Nat
  deriving DecidableEq, Repr

/-- The entries of a cycle: cut at its end, the last one lasting until it (R224). -/
def fitCycle : List GateSeg → Nat → List GateSeg
  | [], _ => []
  | [g], left => [{ g with len := left }]
  | g :: gs, left => if left ≤ g.len then [{ g with len := left }] else g :: fitCycle gs (left - g.len)

/-- The rest of a cycle from a position in it: the entry in force first, with what is left of it. -/
def fromPos : List GateSeg → Nat → List GateSeg
  | [], _ => []
  | g :: gs, pos => if pos < g.len then { g with len := g.len - pos } :: gs else fromPos gs (pos - g.len)

/-- The position of master VT in a cycle of a base, both in units of 2^-16 ns. -/
def cyclePos (base cycle : Nat) (s : State) : Nat := (((vt16 s : Int) - base) % (max 1 cycle : Nat)).toNat

/-! ### Gate control lists (R224-R227) -/

/-- The operating base of a port's list in ns (R251). -/
def operBase (p : Nat) (s : State) : Nat :=
  (fget (F.SW_OPER_BASE_SEC_LO_p p) s + 2 ^ 32 * fget (F.SW_OPER_BASE_SEC_HI_p p) s) * secNs + fget (F.SW_OPER_BASE_NS_p p) s

/-- Whether a port's gate list runs. -/
def gateRuns (p : Nat) (s : State) : Bool :=
  ftst (F.SW_GATE_CTRL_p_EN p) s && decide (0 < s.sw.operLen.toList.getD p 0) && decide (0 < fget (F.SW_OPER_CYCLE_NS_p p) s)

/-- The entries of a cycle that take any time (R224). -/
def cycleSegs (es : List GateSeg) (cycle : Nat) : List GateSeg := (fitCycle es cycle).filter fun g => g.len != 0

/-- The entries of one of a port's banks over one cycle. -/
def bankList (p bank len cycle : Nat) (s : State) : List GateSeg :=
  cycleSegs ((List.range len).map fun k =>
    let e := tblGet tblGcl (512 * p + 256 * bank + k) s
    ⟨eb e 0 7 0, eb e 1 31 0 * 65536, eb e 0 9 8⟩) (cycle * 65536)

/-- The entries of a port's operating list over one cycle. -/
def operList (p : Nat) (s : State) : List GateSeg :=
  bankList p (fget (F.SW_GATE_CTRL_p_ACTIVE_BANK p) s) (s.sw.operLen.toList.getD p 0) (fget (F.SW_OPER_CYCLE_NS_p p) s) s

/-- What is left of the present cycle of a port's list, the entry in force first. -/
def gateRest (p : Nat) (s : State) : List GateSeg := fromPos (operList p s) (cyclePos (operBase p s * 65536) (fget (F.SW_OPER_CYCLE_NS_p p) s * 65536) s)

/-- The gate states in force at a port (R224, R251). -/
def gateStates (p : Nat) (s : State) : Nat :=
  if gateRuns p s then
    match gateRest p s with
    | g :: _ => g.states
    | [] => 0xFF
  else fget (F.SW_GATE_CTRL_p_GATES_IDLE p) s

/-- Whether a class's gate is open; the Sluice holds frames by closing every gate of the port (R344). -/
def gateUp (p c : Nat) (s : State) : Bool := gateStates p s / 2 ^ c % 2 == 1 && !sluiceShut p s

/-- Whether the entry in force holds preemptable traffic back (R233). -/
def gateHold (p : Nat) (s : State) : Bool :=
  gateRuns p s && (match gateRest p s with | g :: _ => g.op == 1 | [] => false)

/-- The time a class's gate stays open over a list of entries, in units of 2^-16 ns; none when it does not close within them. -/
def openRun (c : Nat) : List GateSeg → Option Nat
  | [] => none
  | g :: gs => if g.states / 2 ^ c % 2 = 1 then (openRun c gs).map fun n => n + g.len else some 0

/-- The change armed at a port (R226). -/
def gateArmed (p : Nat) (s : State) : Option GateArm := (s.sw.gateArm.toList.getD p none)

/-- The time until a class's gate next closes, in the list in force and then in the one that an armed change brings (R225, R226); none when it stays open. -/
def openTime (p c : Nat) (s : State) : Option Nat :=
  let now := if gateRuns p s then openRun c (gateRest p s ++ operList p s) else if gateUp p c s then none else some 0
  match gateArmed p s with
  | none => now
  | some a =>
    if !ftst (F.SW_GATE_CTRL_p_EN p) s then now
    else
      let left := a.at_ * 65536 - vt16 s
      let next := bankList p (1 - fget (F.SW_GATE_CTRL_p_ACTIVE_BANK p) s) a.len a.cycle s
      match now with
      | some t => if t < left then some t else (openRun c (next ++ next)).map fun n => left + n
      | none => (openRun c (next ++ next)).map fun n => left + n

/-- The time that a class's gate is open in the first `pos` of a cycle. -/
def openUpTo (c : Nat) : List GateSeg → Nat → Nat
  | [], _ => 0
  | g :: gs, pos => (if g.states / 2 ^ c % 2 = 1 then min g.len pos else 0) + openUpTo c gs (pos - g.len)

/-- How many of the last `dt` ns a class's gate was open, by the list in force; the Sluice's hold closes it (R344). -/
def openNs (p c dt : Nat) (s : State) : Nat :=
  if sluiceShut p s then 0
  else if !gateRuns p s then (if gateUp p c s then dt else 0)
  else
    let l := operList p s
    let cycle := max 1 (fget (F.SW_OPER_CYCLE_NS_p p) s * 65536)
    let pos := cyclePos (operBase p s * 65536) cycle s
    let rest := dt * 65536 % cycle
    let all := openUpTo c l cycle
    let part := if rest ≤ pos then openUpTo c l pos - openUpTo c l (pos - rest) else openUpTo c l pos + all - openUpTo c l (cycle - (rest - pos))
    min dt ((dt * 65536 / cycle * all + part) / 65536)

/-- Arms a change, or drops it. -/
def putArm (p : Fin 23) (a : Option GateArm) (s : State) : State :=
  fput (F.SW_GATE_CTRL_p_PENDING p.1) a.isSome.toNat (updSw (fun w => { w with gateArm := upd w.gateArm p fun _ => a }) s)

/-- The armed bank takes over: the old list is cut, the banks swap, GATE_CHANGE is raised (R226). -/
def gateSwap (p : Fin 23) (s : State) : State :=
  match gateArmed p.1 s with
  | none => s
  | some a =>
    let s := putArm p none s
    let s := updSw (fun w => { w with operLen := upd w.operLen p fun _ => a.len }) s
    s |> fput (F.SW_GATE_CTRL_p_ACTIVE_BANK p.1) (1 - fget (F.SW_GATE_CTRL_p_ACTIVE_BANK p.1) s)
      |> fput (F.SW_OPER_BASE_NS_p p.1) (a.base % secNs)
      |> fput (F.SW_OPER_BASE_SEC_LO_p p.1) (a.base / secNs)
      |> fput (F.SW_OPER_BASE_SEC_HI_p p.1) (a.base / secNs / 2 ^ 32)
      |> fput (F.SW_OPER_CYCLE_NS_p p.1) a.cycle
      |> raise F.SW_EVENT swGateChange

/-- After a step or SET, a change instant that VT has passed applies at once (R227). -/
def gatesAfterStep (s : State) : State :=
  forFin 23 (fun p s =>
    match gateArmed p.1 s with
    | some a => if a.at_ * 65536 ≤ vt16 s then gateSwap p s else s
    | none => s) s

/-- The effect of a write of GATE_CTRL.CHANGE (R226). -/
def gateArm (p : Fin 23) (s : State) : State :=
  let len := fget (F.SW_GATE_CTRL_p_ADMIN_LEN p.1) s
  let cycle := fget (F.SW_ADMIN_CYCLE_NS_p p.1) s
  let ns := fget (F.SW_ADMIN_BASE_NS_p p.1) s
  let base := (fget (F.SW_ADMIN_BASE_SEC_LO_p p.1) s + 2 ^ 32 * fget (F.SW_ADMIN_BASE_SEC_HI_p p.1) s) * secNs + ns
  if len = 0 ∨ cycle < 1000 ∨ 1000000000 < cycle ∨ secNs ≤ ns then raise F.SW_EVENT swGateErr s
  else
    let earliest := (vt16 s + 65535) / 65536 + 10000
    let at_ := if earliest ≤ base then base else base + (earliest - base + cycle - 1) / cycle * cycle
    putArm p (some ⟨at_, base, cycle, min len 256⟩) s

/-! ### Stream gates (R229) -/

/-- The next start of a stream gate's cycle, in units of 2^-16 ns of VT. -/
def sgateNext (g : Nat) (s : State) : Nat :=
  let h := tblGet tblSgate g s
  let cycle := eb h 3 31 0 * 65536
  let base := ((eb h 1 31 0 + 2 ^ 32 * eb h 2 15 0) * secNs + eb h 0 31 0) * 65536
  vt16 s + (max 1 cycle - cyclePos base cycle s)

/-- The entry of a stream gate table that is in force: a pending write counts once its instant has come (R254). -/
def sgateTbl (t i : Nat) (s : State) : BitVec 128 :=
  match s.sw.sgPend.find? fun p => p.1 == tblKey t i with
  | some (_, at_, v) => if at_ ≤ vt16 s then v else tblGet t i s
  | none => tblGet t i s

/-- The entries of a stream gate over one cycle; the states are OPEN and the priority value. -/
def sgateList (g : Nat) (s : State) : List GateSeg :=
  let h := sgateTbl tblSgate g s
  let es := (List.range (eb h 2 21 16 + 1)).map fun k =>
    let e := sgateTbl tblSgateEntry (64 * g + k) s
    (⟨eb e 0 4 0, eb e 1 31 0 * 65536, 0⟩ : GateSeg)
  cycleSegs es (eb h 3 31 0 * 65536)

/-- What is left of a stream gate's present cycle. -/
def sgateRest (g : Nat) (s : State) : List GateSeg :=
  let h := sgateTbl tblSgate g s
  let base := ((eb h 1 31 0 + 2 ^ 32 * eb h 2 15 0) * secNs + eb h 0 31 0) * 65536
  fromPos (sgateList g s) (cyclePos base (eb h 3 31 0 * 65536) s)

/-- Whether a stream gate's list runs. -/
def sgateRuns (g : Nat) (s : State) : Bool :=
  let h := sgateTbl tblSgate g s
  eb h 2 31 31 == 1 && decide (0 < eb h 3 31 0)

/-- What a stream gate does to a frame now: whether it passes, and the priority value that replaces its class (R229). -/
def sgateNow (g : Nat) (s : State) : Bool × Option Nat :=
  if sgateRuns g s then
    match sgateRest g s with
    | e :: _ => (e.states % 2 == 1, if e.states / 16 % 2 = 1 then some (e.states / 2 % 8) else none)
    | [] => (true, none)
  else (true, none)

/-- Pending stream gate writes whose instant has come are made (R254). -/
def sgateCommit (s : State) : State :=
  let due := s.sw.sgPend.filter fun p => decide (p.2.1 ≤ vt16 s)
  let s := due.foldl (fun s p => updSw (fun w => { w with tbl := sput (fun _ => 0) p.1 p.2.2 w.tbl }) s) s
  updSw (fun w => { w with sgPend := w.sgPend.filter fun p => !(decide (p.2.1 ≤ vt16 s)) }) s

/-! ### Credit-based shaping (R223) -/

/-- Whether a class of a port is shaped. -/
def cbsOn (p c : Nat) (s : State) : Bool := ftst (F.SW_CBS_c_p_EN p c) s

/-- The credit of a class as it was last brought up to date, in 10^-6 bit. -/
def creditOf (p c : Nat) (s : State) : SwCredit :=
  match s.sw.credits.find? fun x => x.1 == 8 * p + c with
  | some x => x.2
  | none => ⟨0, s.now⟩

/-- Keeps a credit. -/
def putCredit (p c : Nat) (v : SwCredit) (s : State) : State :=
  updSw (fun w => { w with credits := w.credits.filter (fun x => x.1 != 8 * p + c) ++ [(8 * p + c, v)] }) s

/-- The transmission in progress on a port. -/
def txOf (p : Nat) (s : State) : Option SwTx := s.sw.tx.toList.getD p none

/-- Brings the credit of a class up to the present (R223): 1 kb/s is 1 unit each ns; it is frozen while the gate was closed. -/
def settleCredit (p c : Nat) (s : State) : State :=
  if !cbsOn p c s then s
  else
    let k := creditOf p c s
    let dt : Int := (s.now - k.at_ : Nat)
    let up : Int := openNs p c (s.now - k.at_) s
    let idle : Int := fget (F.SW_CBS_c_p_IDLE_SLOPE p c) s
    let sending := match txOf p s with | some t => t.cls == c | none => false
    let waits := !(queueOf p c s).isEmpty
    let v := if sending then k.credit + (idle - portRate p) * dt
      else if waits then k.credit + idle * up
      else if k.credit < 0 then min 0 (k.credit + idle * up)
      else if up = 0 then k.credit
      else 0
    putCredit p c ⟨v, max k.at_ s.now⟩ s

/-- An internal port has sent a frame of `len` bytes, which is there at once: its class pays for it (R223). -/
def payCredit (p c len : Nat) (s : State) : State :=
  if !cbsOn p c s then s
  else
    let t := frameTime p len
    let idle : Int := fget (F.SW_CBS_c_p_IDLE_SLOPE p c) s
    putCredit p c ⟨(creditOf p c s).credit + (idle - portRate p) * t, s.now + t⟩ s

/-- Brings a port's credits up to the present. -/
def settlePort (p : Nat) (s : State) : State := forN 8 (settleCredit p) s

/-- A class under shaping may send while its credit is not negative (R222). -/
def creditOk (p c : Nat) (s : State) : Bool := !cbsOn p c s || decide (0 ≤ (creditOf p c s).credit)

end Sys2Proof.Machine
end

