-- ==== Sys2Proof/Machine/SwPath.lean ====
section
/-!
DEFINITION. The switch, third part: the path of a frame from its ingress port to the egress queues (R211-R221, R228-R243).
-/
namespace Sys2Proof.Machine

/-- The tag of a frame: its PCP and VID; none for an untagged one. -/
def tagOf (bytes : List Byte) : Option (Nat × Nat) :=
  if beNat ((bytes.drop 12).take 2) = 0x8100 then
    let t := beNat ((bytes.drop 14).take 2)
    some (t / 2 ^ 13, t % 4096)
  else none

/-- A frame with a tag of a VID: its own, of which PCP and DEI stay, or a new one of a PCP. -/
def withTag (bytes : List Byte) (pcp vid : Nat) : List Byte :=
  if (tagOf bytes).isSome then bytes.take 14 ++ beBytes 2 (beNat ((bytes.drop 14).take 2) / 4096 * 4096 + vid) ++ bytes.drop 16
  else bytes.take 12 ++ beBytes 2 0x8100 ++ beBytes 2 (pcp * 2 ^ 13 + vid) ++ bytes.drop 12

/-- A frame without its tag. -/
def noTag (bytes : List Byte) : List Byte := if (tagOf bytes).isSome then bytes.take 12 ++ bytes.drop 16 else bytes

/-- The class a port gives a PCP (R217, R250). -/
def pcpClass (p pcp : Nat) (s : State) : Nat := fget (F.SW_PCP_MAP_p p) s / 8 ^ pcp % 8

/-- The PCP of a frame at a port. -/
def framePcp (p : Nat) (bytes : List Byte) (s : State) : Nat :=
  match tagOf bytes with
  | some (pcp, _) => pcp
  | none => fget (F.SW_PORT_CFG_p_DEF_PCP p) s

/-- The VLAN of a frame on ingress; none where R218 discards it. -/
def frameVid (p : Nat) (bytes : List Byte) (s : State) : Option Nat :=
  let pvid := fget (F.SW_PORT_CFG_p_PVID p) s
  let v := match tagOf bytes with
    | none => if ftst (F.SW_PORT_CFG_p_ACCEPT_UNTAGGED p) s then some pvid else none
    | some (_, vid) => if !ftst (F.SW_PORT_CFG_p_ACCEPT_TAGGED p) s then none else if vid = 0 then some pvid else some vid
  match v with
  | none => none
  | some vid =>
    if vid = 4095 then none
    else if ftst (F.SW_PORT_CFG_p_INGRESS_FILT p) s ∧ eb (tblGet tblVlan vid s) 0 22 0 / 2 ^ p % 2 = 0 then none
    else some vid

/-! ### The address table (R219-R221) -/

/-- The entries of an address's set. -/
def addrSet (fid mac : Nat) : List Nat := (List.range 4).map fun w => 4 * (Config.addrHash fid mac % 4096) + w

/-- The entry that holds an address. -/
def addrFind (fid mac : Nat) (s : State) : Option Nat :=
  (addrSet fid mac).find? fun i =>
    let e := tblGet tblAddr i s
    eb e 2 0 0 == 1 && eb e 0 31 0 + 2 ^ 32 * eb e 1 15 0 == mac && eb e 1 27 16 == fid

/-- A dynamic entry is refreshed. -/
def addrRefresh (i : Nat) (s : State) : State :=
  updSw (fun w => { w with refreshed := w.refreshed.filter (fun x => x.1 != i) ++ [(i, s.now)] }) s

/-- A dynamic entry of an address at a port. -/
def addrEntry (fid mac p : Nat) : BitVec 128 :=
  BitVec.ofNat 128 (mac % 2 ^ 48 + fid % 4096 * 2 ^ 48 + (1 + p * 8) * 2 ^ 64)

/-- Learns the source address of a good frame (R220). -/
def learnAddr (p vid : Nat) (bytes : List Byte) (s : State) : State :=
  let v := tblGet tblVlan vid s
  let fid := eb v 2 11 0
  let mac := beNat ((bytes.drop 6).take 6)
  if !ftst (F.SW_PORT_CFG_p_LEARN p) s || eb v 2 12 12 == 1 then s
  else match addrFind fid mac s with
    | some i =>
      let e := tblGet tblAddr i s
      if eb e 2 1 1 = 1 then s
      else if eb e 2 12 3 = p ∧ eb e 2 2 2 = 0 then addrRefresh i s
      else addrRefresh i (tblPut tblAddr i (addrEntry fid mac p) (bump (R.SW_MOVE_p p) s))
    | none =>
      match (addrSet fid mac).find? fun i => eb (tblGet tblAddr i s) 2 0 0 == 0 with
      | some i => addrRefresh i (tblPut tblAddr i (addrEntry fid mac p) s)
      | none => raise F.SW_EVENT swLearnFail (bump R.SW_LEARN_FAIL_CNT s)

/-- Whether a bit of a port mask is set. -/
def inMask (m p : Nat) : Bool := m / 2 ^ p % 2 == 1

/-- The egress ports of a frame (R219): the entry's port, the members of its group, or a flood; without the ingress port, within the VLAN, over the enabled
ports that have an egress (R209: C is ingress only, and T takes gPTP frames alone). -/
def lookupPorts (p vid : Nat) (bytes : List Byte) (s : State) : List Nat :=
  let v := tblGet tblVlan vid s
  let members := eb v 0 22 0
  let set := match addrFind (eb v 2 11 0) (beNat (bytes.take 6)) s with
    | some i =>
      let e := tblGet tblAddr i s
      if eb e 2 2 2 = 1 then eb (tblGet tblMgroup (eb e 2 12 3) s) 0 22 0 else 2 ^ eb e 2 12 3
    | none => members
  mask 21 fun q => q != p && inMask set q && inMask members q && ftst (F.SW_PORT_CFG_p_EN q) s

/-! ### Stream filters, gates and meters (R228-R230) -/

/-- Whether a filter matches a frame (R228). -/
def filterHits (i p vid pcp : Nat) (bytes : List Byte) (s : State) : Bool :=
  let e := tblGet tblSfilt i s
  let mac := beNat (((if eb e 1 28 28 = 1 then bytes.drop 6 else bytes)).take 6)
  eb e 1 31 31 == 1 && (eb e 3 21 21 == 1 || eb e 3 20 16 == p) && eb e 0 31 0 + 2 ^ 32 * eb e 1 15 0 == mac
    && eb e 1 27 16 == vid && (eb e 1 29 29 == 0 || eb e 2 2 0 == pcp)

/-- The stream handle of a frame: the lowest filter that matches. -/
def streamOf (p vid pcp : Nat) (bytes : List Byte) (s : State) : Option Nat := (tblListed tblSfilt s).find? fun i => filterHits i p vid pcp bytes s

/-- The service data of a frame: what follows the addresses and the tag (PRESUMED of IEEE 802.1Q, assumption 15). -/
def sduLen (bytes : List Byte) : Nat := (noTag bytes).length - 12

/-- A meter's colour of a frame: 0 green, 1 yellow, 2 red (R230); 10^-6 bit are the unit of the buckets, which start full (PRESUMED, assumption 15). -/
def meterFrame (m : Nat) (len : Nat) (s : State) : Nat × State :=
  let e := tblGet tblFmeter m s
  let cbs := eb e 2 31 0 * 8000000
  let ebs := eb e 3 23 0 * 8000000
  let k := match s.sw.meters.find? fun x => x.1 == m with
    | some x => x.2
    | none => ⟨cbs, ebs, s.now, true⟩
  let dt := s.now - k.at_
  let c := k.c + eb e 0 31 0 * dt
  let surplus := if eb e 3 24 24 = 1 then c - cbs else 0
  let c := min cbs c
  let x := min ebs (k.e + eb e 1 31 0 * dt + surplus)
  let need := len * 8000000
  let put (c x : Nat) (s : State) : State := updSw (fun w => { w with meters := w.meters.filter (fun y => y.1 != m) ++ [(m, ⟨c, x, s.now, true⟩)] }) s
  if need ≤ c then (0, put (c - need) x s)
  else if need ≤ x then (1, put c (x - need) s)
  else (2, put c x s)

/-- Counts a discard by a stream's checks. -/
def dropStream (p c : Nat) (s : State) : State := bump (R.SW_DROP_STREAM_p_c p c) s

/-- The checks of a matched frame's filter, in their order (R228); the class it goes on with, or none when it is discarded. -/
def streamChecks (h p cls : Nat) (bytes : List Byte) (s : State) : Option Nat × State :=
  let e := tblGet tblSfilt h s
  let maxSdu := eb e 3 13 0
  if eb e 2 23 23 = 1 then (none, dropStream p cls s)
  else if maxSdu ≠ 0 ∧ maxSdu < sduLen bytes then
    let s := whenB (eb e 2 22 22 == 1) (fun s => raise F.SW_EVENT swStreamBlocked (tblPut tblSfilt h (ebSet e 2 23 23 1) s)) s
    (none, dropStream p cls s)
  else
    let (pass, ipv) := if eb e 2 11 11 = 1 then sgateNow (eb e 2 10 3) s else (true, none)
    if !pass then (none, dropStream p cls s)
    else
      let cls := ipv.getD cls
      if eb e 2 21 21 = 1 then
        let m := eb e 2 20 12
        let (colour, s) := meterFrame m (bytes.length + 4) s
        if colour = 2 ∨ (colour = 1 ∧ eb (tblGet tblFmeter m s) 3 25 25 = 1) then (none, dropStream p cls s) else (some cls, s)
      else (some cls, s)

/-! ### Frame replication and elimination (R231, R232) -/

/-- The sequence number of a frame's R-TAG. The tag's six bytes after the VLAN tag, the number in the last two, are PRESUMED of IEEE 802.1CB. -/
def rtagOf (bytes : List Byte) : Option Nat :=
  if beNat ((bytes.drop 16).take 2) = 0xF1C1 then some (beNat ((bytes.drop 20).take 2)) else none

/-- A frame with an R-TAG of a sequence number after its VLAN tag. -/
def withRtag (bytes : List Byte) (n : Nat) : List Byte := bytes.take 16 ++ beBytes 2 0xF1C1 ++ beBytes 2 0 ++ beBytes 2 n ++ bytes.drop 16

/-- The recovery function that a stream handle is bound to. -/
def recoveryOf (h : Nat) (s : State) : Option Nat :=
  (tblListed tblFrerRec s).find? fun f => let e := tblGet tblFrerRec f s; eb e 0 31 31 == 1 && eb e 0 9 0 == h

/-- The generation function that a stream handle is bound to. -/
def generationOf (h : Nat) (s : State) : Option Nat :=
  (tblListed tblFrerGen s).find? fun f => let e := tblGet tblFrerGen f s; eb e 0 31 31 == 1 && eb e 0 9 0 == h

/-- What a recovery function keeps. -/
def frerGet (f : Nat) (s : State) : FrerRec :=
  match s.sw.frer.find? fun x => x.1 == f with
  | some x => x.2
  | none => ⟨true, 0, 0, none, none, none⟩

/-- Keeps a recovery function's state. -/
def frerPut (f : Nat) (r : FrerRec) (s : State) : State := updSw (fun w => { w with frer := w.frer.filter (fun x => x.1 != f) ++ [(f, r)] }) s

/-- The reset timeout of a recovery function in ns: 1-1,000 ms, 20 ms where it is not set (R232). -/
def frerTimeout (f : Nat) (s : State) : Nat :=
  let ms := eb (tblGet tblFrerRec f s) 1 9 0
  (if ms = 0 then 20 else min ms 1000) * 1000000

/-- Counts in a word of a recovery entry, saturating. -/
def frerCount (f w n : Nat) (s : State) : State :=
  let e := tblGet tblFrerRec f s
  tblPut tblFrerRec f (ebSet e w 31 0 (min 0xFFFFFFFF (eb e w 31 0 + n))) s

/-- A member that has been silent for the reset timeout while the other delivers raises FRER_LATENT (R232). -/
def frerLatent (f : Nat) (other : Option Nat) (s : State) : State :=
  let late := match other with | some t => decide (t + frerTimeout f s ≤ s.now) | none => false
  whenB (late && eb (tblGet tblFrerRec f s) 0 23 23 == 1) (raise F.SW_EVENT swFrerLatent) s

/-- The verdict of the vector algorithm (PRESUMED of IEEE 802.1CB, assumption 15): whether the copy passes, the state after it, and the numbers lost. -/
def frerVector (len seq : Nat) (r : FrerRec) : Bool × FrerRec × Nat :=
  if r.takeAny then (true, { r with takeAny := false, seq := seq, history := 1 }, 0)
  else
    let d := signedOf 16 ((seq + 65536 - r.seq) % 65536)
    if (len : Int) ≤ d ∨ d ≤ -(len : Int) then (false, r, 0)
    else if d ≤ 0 then
      let k := (-d).toNat
      if r.history / 2 ^ k % 2 = 1 then (false, r, 0) else (true, { r with history := r.history + 2 ^ k }, 0)
    else
      let k := d.toNat
      let out := (mask len fun j => len ≤ j + k && r.history / 2 ^ j % 2 == 0).length
      (true, { r with seq := seq, history := (r.history * 2 ^ k + 1) % 2 ^ len }, out)

/-- The verdict of the match algorithm (PRESUMED of IEEE 802.1CB). -/
def frerMatch (seq : Nat) (r : FrerRec) : Bool × FrerRec × Nat :=
  if r.takeAny then (true, { r with takeAny := false, seq := seq }, 0)
  else if r.seq = seq then (false, r, 0)
  else (true, { r with seq := seq }, 0)

/-- A recovery function decides on a copy at the end of its reception (R232). -/
def frerDecide (f p seq : Nat) (s : State) : Bool × State :=
  let e := tblGet tblFrerRec f s
  let r := frerGet f s
  let begun := r.last0.isSome || r.last1.isSome
  let r := if begun then r else { r with last0 := some s.now, last1 := some s.now }
  let s := if p = 0 then frerLatent f r.last1 s else if p = 1 then frerLatent f r.last0 s else s
  let r := if p = 0 then { r with last0 := some s.now } else if p = 1 then { r with last1 := some s.now } else r
  let len := clampNat 2 32 (eb e 0 22 17)
  let (pass, r, lost) := if eb e 0 16 16 = 1 then frerMatch seq r else frerVector len seq r
  let s := frerCount f 3 lost (frerPut f r s)
  (pass, if pass then s else frerCount f 2 1 s)

/-! ### Admission to the egress queues (R212, R242) -/

/-- The bytes of a frame at an egress port: without its tag where the VLAN says so (R218). -/
def egressBytes (q vid : Nat) (bytes : List Byte) (s : State) : List Byte := if inMask (eb (tblGet tblVlan vid s) 1 17 0) q then noTag bytes else bytes

/-- How a copy for an egress port fares before the pool is asked: its half is lost, its port sleeps (R245), it would be longer than 1,522 bytes there (R211; no counter takes
it, assumption 15), or its queue is at its limit. -/
def copyRefusal (p q c vid cells : Nat) (bytes : List Byte) (s : State) : Option (Status × Option Nat) :=
  if !planeOk (planeOf q s) s then some (.abortedIslandOff, some (R.SW_FLUSH_p_c q c))
  else if portShut q s then some (.failedRefused, some (R.SW_FLUSH_p_c q c))
  else if 1522 < (egressBytes q vid bytes s).length + 4 then some (.failedRefused, none)
  else if fget (F.SW_QLIM_c_p q c) s < queueCells q c s + cells then some (.failedRefused, some (R.SW_QLIM_CNT_p_c p c))
  else none

/-- The Sluice's key of a tagged frame (R344). -/
def etherKey (bytes : List Byte) : Nat :=
  let t := beNat ((bytes.drop 14).take 2)
  t % 4096 + t / 2 ^ 13 * 4096 + beNat ((bytes.drop 16).take 2) * 65536

/-- What the Sluice makes of a frame on a port (R344, R345): the segment's state before, and its verdict. P0 and P1 are one segment, which tests the frame once; `bb` is its verdict
when it has. -/
def etherSluice (q key : Nat) (bb : Option (Nat × Sluice)) (s : State) : (Nat × Sluice) × State :=
  if h : q < 18 then
    match if q < 2 then bb else none with
    | some v => (v, s)
    | none => let (v, t) := sluice (portSeg ⟨q, h⟩) key s; ((segState (portSeg ⟨q, h⟩) s, v), t)
  else ((0, .pass), s)

/-- The Sluice on every egress port: the ports that are left, and the first refusal. A frame for a sleeping port is discarded, also one that starts its wake (R245, R344). -/
def sluicePorts (c key : Nat) : List Nat → Option (Nat × Sluice) → State → List Nat × Option Status × State
  | [], _, s => ([], none, s)
  | q :: qs, bb, s =>
    let (v, s) := etherSluice q key bb s
    let asleep := v.1 == segSleepEntry || v.1 == segSleep
    let gone := v.2 == .refuse || (v.2 == .hold && asleep)
    let s := whenB (gone && asleep && (v.1 == segSleep || v.2 == .hold)) (bump (R.SW_FLUSH_p_c q c)) s
    let (rest, failed, s) := sluicePorts c key qs (if q < 2 then some v else bb) s
    if gone then (rest, some .failedRefused, s) else (q :: rest, failed, s)

/-- The key of a frame that leaves its ingress port tagged, or untagged from port T (R344). -/
def sluiceKey (p : Nat) (bytes : List Byte) (s : State) : Nat :=
  etherKey (if p = portT then withTag bytes (framePcp p bytes s) (fget (F.SW_PORT_CFG_p_PVID p) s) else bytes)

/-- Admits a frame into the buffer for its egress ports (R212, R242). -/
def admitFrame (p : Nat) (bytes : List Byte) (cls vid : Nat) (sub : Submitter) (mark : Option (Nat × Bool)) (stamp raw : Nat) (ports : List Nat) (s : State) : State :=
  let cells := cellsOf (bytes.length + 4)
  let id := s.sw.nextId
  let single := ports.length == 1
  let s := updSw (fun w => { w with nextId := w.nextId + 1 }) s
  let (ports, slept, s) := sluicePorts cls (sluiceKey p bytes s) ports none s
  let refused := ports.filterMap fun q => copyRefusal p q cls vid cells bytes s
  let good := ports.filter fun q => (copyRefusal p q cls vid cells bytes s).isNone
  let s := refused.foldl (fun s r => match r.2 with | some k => bump k s | none => s) s
  let half (b : Bool) (acc : State × List SwCopy × Option Status) : State × List SwCopy × Option Status :=
    let (s, copies, failed) := acc
    let qs := good.filter fun q => planeOf q s == b
    if qs.isEmpty then acc
    else match poolFit b cls cells s with
      | some k => (poolTake id b cls qs.length k s, copies ++ qs.map (fun q => ⟨q, cls, s.now, b⟩), failed)
      | none => (bump (R.SW_NOBUF_p_c p cls) s, copies, some (failed.getD .failedRefused))
  let (s, copies, failed) := half true (half false (s, [], match slept with
    | some st => some st
    | none => refused.head?.map fun r => r.1))
  let s := updSw (fun w => { w with frames := w.frames ++ [⟨id, bytes, p, stamp, raw, cls, vid, sub, mark, copies, 0, failed, 0, single⟩] }) s
  frameCheck id s

/-- Credits of the queues that a frame may join are brought up to date first (R223). -/
def settleAll (ports : List Nat) (s : State) : State := ports.foldl (fun s q => settlePort q s) s

/-! ### The whole path -/

/-- How a frame comes in: its port, the class where its source gives one (R217), its submitter, its mark, the egress port that is forced on it (R132), and
whether its FCS is good (R215). -/
structure SwIn where
  port : Nat
  cls : Option Nat
  sub : Submitter
  mark : Option (Nat × Bool)
  forced : Option Nat
  good : Bool

/-- A frame that is refused on ingress: a submitted one ends FAILED_REFUSED (R239). -/
def refuseFrame (i : SwIn) (bytes : List Byte) (s : State) : State := submitEnd i.sub .failedRefused (bytes.length + 4) 0 s

/-- A stamp mark behind bytes that were put into the frame at an offset (R203). -/
def moveMark (ofs n : Nat) (m : Option (Nat × Bool)) : Option (Nat × Bool) := m.map fun x => (if ofs ≤ x.1 then x.1 + n else x.1, x.2)

/-- The ports a frame goes to after generation: one copy on P0 and one on P1 (R231). -/
def replicate (ports : List Nat) : List Nat := [0, 1] ++ ports.filter fun q => q != 0 && q != 1

/-- Forwards a frame whose checks are done. -/
def forwardFrame (i : SwIn) (mark : Option (Nat × Bool)) (handle : Option Nat) (bytes : List Byte) (cls vid stamp raw : Nat) (s : State) : State :=
  let gen := if i.forced.isSome then none else handle.bind fun h => generationOf h s
  let ports := match i.forced with
    | some q => if ftst (F.SW_PORT_CFG_p_EN q) s then [q] else []
    | none => lookupPorts i.port vid bytes s
  let go (ports : List Nat) (bytes : List Byte) (mark : Option (Nat × Bool)) (s : State) : State :=
    if ports.isEmpty then refuseFrame i bytes s
    else admitFrame i.port bytes cls vid i.sub mark stamp raw ports (settleAll ports s)
  match gen with
  | some f =>
    let e := tblGet tblFrerGen f s
    let n := eb e 1 15 0
    go (replicate ports) (withRtag bytes n) (moveMark 16 6 mark) (tblPut tblFrerGen f (ebSet e 1 15 0 ((n + 1) % 65536)) s)
  | none => go ports bytes mark s

/-- A frame that waits whole in the buffer is taken out of it again. -/
def withdrawFrame (id : Nat) (s : State) : State :=
  showPool (updSw (fun w => { w with frames := w.frames.filter fun f => f.id != id, allocs := w.allocs.filter fun a => a.id != id }) s)

/-- Recovery (R232): whether a copy goes on. Of two copies that complete at the same instant the one from P0 does, also where the one from P1 was taken first. -/
def recoverFrame (f p seq : Nat) (s : State) : Bool × State :=
  match (frerGet f s).tie with
  | some (t, n, id) =>
    if p = 0 ∧ t = s.now ∧ n = seq ∧ (s.sw.frames.any fun x => x.id == id && x.out == 0) = true then
      let r := frerGet f s
      (true, frerCount f 2 1 (frerPut f { r with last0 := some s.now, tie := none } (withdrawFrame id s)))
    else frerDecide f p seq s
  | none => frerDecide f p seq s

/-- What a recovery function keeps of the copy from P1 that it has let through. -/
def keepTie (f p seq id : Nat) (s : State) : State :=
  whenB (p == 1) (fun s => frerPut f { frerGet f s with tie := some (s.now, seq, id) } s) s

/-- The stream checks of a frame on ingress (R228): its class after them, or none when it is discarded. -/
def ingressChecks (p vid cls : Nat) (tagged : List Byte) (s : State) : Option Nat × Option Nat × State :=
  let handle := streamOf p vid (((tagOf tagged).map Prod.fst).getD 0) tagged s
  match handle with
  | some h => let (v, s) := streamChecks h p cls tagged s; (handle, v, s)
  | none => (handle, some cls, s)

/-- A good frame from its ingress port to the egress queues: class, VLAN, learning, stream checks, recovery, lookup, admission. -/
def ingressFrame (i : SwIn) (bytes : List Byte) (s : State) : State :=
  let stamp := ingressStamp i.port s
  let raw := rawCount s
  let pcp := framePcp i.port bytes s
  let cls := i.cls.getD (pcpClass i.port pcp s)
  if !ftst F.SW_CTRL_EN s || !ftst (F.SW_PORT_CFG_p_EN i.port) s then refuseFrame i bytes s
  else
    let s := whenB i.good (bump (R.SW_RX_p_c i.port cls)) s
    match frameVid i.port bytes s with
    | none => refuseFrame i bytes (bump (R.SW_VLAN_MISS_p i.port) s)
    | some vid =>
      let tagged := withTag bytes pcp vid
      let mark := if (tagOf bytes).isSome then i.mark else moveMark 12 4 i.mark
      let s := whenB i.good (learnAddr i.port vid tagged) s
      let (handle, verdict, s) := ingressChecks i.port vid cls tagged s
      match verdict with
      | none => refuseFrame i bytes s
      | some cls =>
        match handle.bind (fun h => recoveryOf h s), rtagOf tagged with
        | some f, some seq =>
          let (pass, s) := recoverFrame f i.port seq s
          if pass then forwardFrame i mark handle tagged cls vid stamp raw (keepTie f i.port seq s.sw.nextId s)
          else submitEnd i.sub .done (bytes.length + 4) 0 s
        | _, _ => forwardFrame i mark handle tagged cls vid stamp raw s

/-! ### Port E and port T as sources (R217, R237) -/

/-- The next submission count of an engine (R235). -/
def nextCount (e : Fin 24) (s : State) : Nat × State :=
  (s.sw.subCount[e.1], updSw (fun w => { w with subCount := upd w.subCount e fun n => (n + 1) % 2 ^ 32 }) s)

/-- A gPTP frame at its ingress port: it is counted, its source is learned, and the stream checks apply (R220, R228); it is untagged, and its VLAN is the port's (R218). The class
it goes on with, or none when it is discarded. -/
def ptpIngress (p cls : Nat) (bytes : List Byte) (s : State) : Option Nat × State :=
  let vid := fget (F.SW_PORT_CFG_p_PVID p) s
  let tagged := withTag bytes (framePcp p bytes s) vid
  (ingressChecks p vid cls tagged (learnAddr p vid bytes (bump (R.SW_RX_p_c p cls) s))).2

/-- A gPTP frame from a thread: port T sends it on the port it names, or refuses it (R237). The answer says whether it took it. -/
def portTSend (reserved : Bool) (sub : Submitter) (bytes : List Byte) (mark : Option (Nat × Bool)) (s : State) : Bool × State :=
  let pn := beNat ((bytes.drop 42).take 2)
  if !reserved || pn == 0 || decide (18 < pn) || (ptpEvent bytes && decide (15 ≤ pn)) then (false, ptpDrop s)
  else
    let q := pn - 1
    match ptpIngress portT 7 bytes s with
    | (none, s) => (true, submitEnd sub .failedRefused (bytes.length + 4) 0 s)
    | (some cls, s) => (true, admitFrame portT bytes cls 0 sub mark 0 (rawCount s) [q] (settlePort q s))

/-- A frame that a thread sends (R193, R234, R237): the answer is the status of the hand-over. -/
def portESend (e : Fin 24) (t : Fin 4) (p : Packet) (s : State) : Status × State :=
  let s := freePacket p s
  let (count, s) := nextCount e s
  let sub := Submitter.engine e t count
  let refuse (s : State) : State := submitEnd sub .failedRefused (p.bytes.length + 4) 0 s
  if beNat (p.bytes.take 6) = ptpMac then
    if !ftst F.SW_CTRL_EN s || !ftst (F.SW_PORT_CFG_p_EN portE) s || !portTOn s then (.done, refuse s)
    else match ptpIngress portE 7 p.bytes s with
    | (none, s) => (.done, refuse s)
    | (some _, s) =>
    match portTSend (thrReserved e.1 t.1 s) sub p.bytes p.mark s with
    | (true, s) => (.done, s)
    | (false, s) => (.failedRefused, refuse s)
  else (.done, ingressFrame ⟨portE, p.cls, sub, p.mark, none, true⟩ p.bytes s)

/-- Port E admits the launches whose time has come (R202). -/
def launchDue (s : State) : State :=
  let due := s.sw.launches.filter fun l => decide (l.at16 ≤ vt16 s)
  let s := updSw (fun w => { w with launches := w.launches.filter fun l => !(decide (l.at16 ≤ vt16 s)) }) s
  due.foldl (fun s l => (portESend l.e l.t l.pkt s).2) s

end Sys2Proof.Machine
end

