-- ==== Sys2Proof/Machine/Wisp.lean ====
section
/-!
DEFINITION. The wisp ring of the NM block (R335-R341): what a received wisp does, what the Z480 sends, and how its wisps reach the buses.
-/
namespace Sys2Proof.Machine

/-- Byte `k` of a wisp; byte 0 is the lowest. -/
def wispByte (w : BitVec 64) (k : Nat) : Nat := bits w.toNat (8 * k + 7) (8 * k)

/-- Own node ID on a segment. -/
def ownNode (g : Fin 35) (s : State) : Nat := fget (F.NM_SEG_CFG_s_NODE_ID g.1) s

/-- The successor of the Z480 in a segment's member table: the next higher node, wrapping (R337, R340). -/
def successor (g : Fin 35) (s : State) : Nat :=
  let me := ownNode g s
  let m := (seg g s).members
  (((List.range 64).map fun k => (me + 1 + k) % 64).find? fun n => m.testBit n).getD me

/-- The MAC address of the backbone wisps (R351). -/
def wispMac (s : State) : Nat := (rd R.NM_ETH_DA_LO s).toNat + 2 ^ 32 * fget F.NM_ETH_DA_HI s

/-- The frame that carries a wisp: on CAN the identifier CAN_ID.BASE + SRC, on the backbone the bytes followed by 38 zero bytes (R335). -/
def wispFrame (g : Fin 35) (w : Nat) (s : State) : NmFrame :=
  if g.1 < 12 then ⟨some (fget F.NM_CAN_ID_BASE s + ownNode g s), 0, 0, leBytes 8 w⟩
  else ⟨none, wispMac s, fget F.NM_ETH_TYPE s, leBytes 8 w ++ List.replicate 38 0⟩

/-- The Ethernet frame of a backbone wisp; the manual does not give its source address (assumption 17). -/
def wispEther (f : NmFrame) : List Byte := beBytes 6 f.ethDa ++ beBytes 6 (Config.wispSource % 2 ^ 48) ++ beBytes 2 f.ethType ++ f.bytes

/-- Port T sends a backbone wisp on P0 and P1 (R335). -/
def wispToBackbone (b : List Byte) (s : State) : State :=
  if !islOpen islSWP s || !ftst F.SW_CTRL_EN s || !portTOn s then s
  else match ptpIngress portT (pcpClass portT (framePcp portT b s) s) b s with
    | (none, s) => s
    | (some cls, s) => admitFrame portT b cls 0 .none none 0 (rawCount s) [0, 1] (settleAll [0, 1] s)

/-- A wisp waits for its CAN bus, in place of one that has not gone out yet. -/
def wispToCan (c : Fin 12) (w : Nat) (s : State) : State :=
  let s := dropWisps ⟨c.1, by omega⟩ s
  { s with can := upd s.can c fun x => { x with items := x.items ++ [⟨.wisp w, x.nextSeq, none, false, false, false⟩], nextSeq := x.nextSeq + 1 } }

/-- Sets or clears a node's bit of WITHHOLD (R341). -/
def withhold (g : Fin 35) (n : Nat) (on : Bool) (s : State) : State :=
  let f := if n < 32 then F.NM_WITHHOLD_LO_s g.1 else F.NM_WITHHOLD_HI_s g.1
  ctlWrite g (if on then raise f (n % 32) s else lower f (n % 32) s)

/-- What a wisp that node `n` sends says of it (R341). -/
def wispWithhold (g : Fin 35) (n runStart flags : Nat) (s : State) : State :=
  if (flags.testBit 2 = false ∧ runStart = 0xFF) ∨ flags.testBit 1 = true then withhold g n true s
  else if runStart ≠ 0xFF then withhold g n false s
  else s

/-- Sends a wisp (R335); it counts for WITHHOLD as every node's does (R341). -/
def sendWisp (g : Fin 35) (runStart flags : Nat) (s : State) : State :=
  let x := seg g s
  let w := ownNode g s + successor g s * 2 ^ 8 + runStart * 2 ^ 16 + flags * 2 ^ 24 + x.seq * 2 ^ 32
  let f := wispFrame g w s
  let s := wispWithhold g (ownNode g s) runStart flags
    (updSeg g (fun y => { y with sent := some f, seq := (x.seq + 1) % 256, lastDst := some (successor g s) }) s)
  if h : g.1 < 12 then wispToCan ⟨g.1, h⟩ w s else wispToBackbone (wispEther f) s

/-- Consensus is reached at the end of a wisp frame with AGREED (R338): a consenting segment enters PREPARE, another one sends ABORT. -/
def consensus (g : Fin 35) (s : State) : State :=
  if segState g s ≠ segAwake then s
  else if ownConsent g s then enterPrepare g s
  else sendWisp g 0xFF 2 s

/-- Sends the wisp that says AGREED. On CAN the consensus waits for the end of its frame; the backbone's is taken to be at once (assumption 17). -/
def sendAgreed (g : Fin 35) (runStart : Nat) (s : State) : State :=
  let s := sendWisp g runStart 1 s
  whenB (decide (12 ≤ g.1)) (consensus g) s

/-- The frame of a wisp of the Z480 has ended on CAN. -/
def wispSent (c : Fin 12) (w : Nat) (s : State) : State := whenB (w.testBit 24) (consensus ⟨c.1, by omega⟩) s

/-- A wisp is received (R336-R338, R340, R341). One that names the Z480 is forwarded HOP_MS later (R337), unless the segment is isolated (R347). -/
def wispAccept (g : Fin 35) (w : BitVec 64) (s : State) : State :=
  let src := wispByte w 0 % 64
  let st := segState g s
  if !ftst F.NM_CTRL_EN s || st == segDisabled || st == segLost then s
  else if ((seg g s).lastSeq.find? fun p => p.1 == src) = some (src, wispByte w 4) then s
  else
    let runStart := wispByte w 2
    let flags := wispByte w 3
    let s := updSeg g (fun x => { x with
      members := x.members ||| 2 ^ src
      lastSeq := x.lastSeq.filter (fun p => p.1 != src) ++ [(src, wispByte w 4)]
      lastDst := some (wispByte w 1 % 64)
      ring := s.now
      regen := none }) s
    let s := wispWithhold g src runStart flags s
    let s := whenB (flags.testBit 0) (consensus g) s
    let s := if flags.testBit 1 = true ∧ segState g s = segPrepare then abortPrepare g wakeAbort s else s
    if wispByte w 1 % 64 = ownNode g s ∧ segState g s ≠ segIsolated then
      updSeg g (fun x => { x with forward := some (runStart, s.now + fget (F.NM_SEG_TIME_s_HOP_MS g.1) s * 1000000) }) s
    else s

/-- Whether a CAN frame is a wisp (R335): a Classical data frame of 8 bytes with an identifier from CAN_ID.BASE on. -/
def canWisp (f : CanFrame) (s : State) : Bool :=
  let base := fget F.NM_CAN_ID_BASE s
  f.fmt == .classical && f.data.length == 8 && bits f.idw 30 29 == 0 && decide (base ≤ bits f.idw 10 0) && decide (bits f.idw 10 0 < base + 64)

/-- A received CAN frame that is a wisp reaches the NM block; the controller delivers it as any other frame. -/
def wispFromCan (c : Fin 12) (f : CanFrame) (s : State) : State :=
  whenB (canWisp f s) (wispAccept ⟨c.1, by omega⟩ (BitVec.ofNat 64 (leNat f.data))) s

/-- A frame received on P0 or P1 that is a wisp reaches the NM block through port T (R335). It goes on round the backbone as any other frame (R336, assumption 17). -/
def wispFromBackbone (p : Nat) (b : List Byte) (s : State) : State :=
  let at_ := if (tagOf b).isSome then 16 else 12
  let hit := decide (p < 2) && portTOn s && beNat (b.take 6) == wispMac s && beNat ((b.drop at_).take 2) == fget F.NM_ETH_TYPE s
  whenB hit (wispAccept 12 (BitVec.ofNat 64 (leNat ((b.drop (at_ + 2)).take 8)))) s

end Sys2Proof.Machine
end

