-- ==== Sys2Proof/Machine/Can.lean ====
section
/-!
DEFINITION. The CAN controllers (chapter 07): reception, items, attempts, fault confinement, and the time-triggered schedule.
-/
namespace Sys2Proof.Machine

/-- A controller. -/
def canSt (c : Fin 12) (s : State) : CanSt := s.can[c.1]

/-- Changes a controller. -/
def updCan (c : Fin 12) (f : CanSt → CanSt) (s : State) : State := { s with can := upd s.can c f }

def canRx : Nat := 0
def canRxqOvf : Nat := 1
def canTxDone : Nat := 2
def canCancelLate : Nat := 3
def canStateEv : Nat := 4
def canBusOff : Nat := 5
def canAlone : Nat := 6
def canTimeout : Nat := 7
def canLockExpired : Nat := 8
def canTtErr : Nat := 9
def canRefLate : Nat := 10
def canTtSkip : Nat := 11
def canWakeFrame : Nat := 12
def canOverwrite : Nat := 13

/-- Raises an event of a controller. -/
def canEvent (c : Fin 12) (n : Nat) (s : State) : State := raise (F.CAN_EVENT c.1) n s

/-- The identity of a controller's accesses to the banks: the tongs block's owner, upward through the Causeway (R463, R468). -/
def canIdent (c : Fin 12) (s : State) : Ident := blockIdent c.1 20 s

/-- The domain of a controller (R28). -/
def canDomain (c : Fin 12) : Domain := if c.1 < 6 then .a else .b

/-- The segment of a controller (R334). -/
def canSeg (c : Fin 12) : Fin 35 := ⟨c.1, by omega⟩

/-- Whether a controller is on the bus: enabled, fed, and its fabric running. -/
def canOn (c : Fin 12) (s : State) : Bool := ftst (F.CAN_CTRL_EN c.1) s && cwyOpen s && railOk (canDomain c) s

/-- The mode in force (R288, R345): wake-listen while the segment sleeps, whatever CTRL.MODE says. -/
def canMode (c : Fin 12) (s : State) : Nat :=
  let st := segState (canSeg c) s
  if ftst F.NM_CTRL_EN s ∧ (st = segSleepEntry ∨ st = segSleep ∨ st = segWaking ∨ st = segIsolated) then 5 else fget (F.CAN_CTRL_MODE c.1) s

/-- A stamp at the 12.5 ns resolution of a controller (R258): master VT as it was `ago` cycles of 80 MHz before the present, less CAN.RX_DELAY; in units of 2^-16 ns. -/
def canStamp (c : Fin 12) (ago : Nat) (s : State) : Nat :=
  let at_ : Int := (vtAgo (25 * ago) s / 2 ^ 32 / 819200 : Nat) * 819200
  (at_ - roundNearest ((fgetI (F.CAN_RX_DELAY_PS c.1) s : Rat) * 65536 / 1000)).toNat

/-! ### Error states (R284-R286) -/

/-- The error state that the counters give, outside bus-off and recovery. -/
def canErrState (c : Fin 12) (s : State) : Nat := if 128 ≤ fget (F.CAN_ERR_TEC c.1) s ∨ 128 ≤ fget (F.CAN_ERR_REC c.1) s then 1 else 0

/-- Whether a controller is in bus-off or recovering. -/
def canOff (c : Fin 12) (s : State) : Bool := decide (2 ≤ fget (F.CAN_ERR_STATE c.1) s)

/-- Gives a controller an error state; STATE is raised when it changes. -/
def putErrState (c : Fin 12) (st : Nat) (s : State) : State :=
  if fget (F.CAN_ERR_STATE c.1) s = st then s else canEvent c canStateEv (fput (F.CAN_ERR_STATE c.1) st s)

/-- The error state follows the counters. -/
def showErrState (c : Fin 12) (s : State) : State := if canOff c s then s else putErrState c (canErrState c s) s

/-- The code of an error in ERR.LEC (R295). -/
def lecCode : CanErr → Nat
  | .stuff => 1
  | .form => 2
  | .ack => 3
  | .bit1 => 4
  | .bit0 => 5
  | .crc => 6

/-- RUN returns to 0 (R284): ALONE is no longer in force; a received frame also lifts the suspension of every buffer. -/
def clearAlone (c : Fin 12) (received : Bool) (s : State) : State :=
  let s := fput (F.CAN_ALONE_RUN c.1) 0 (updCan c (fun x => { x with alone := false }) s)
  if received then forN 64 (fun b => fput (F.CAN_MB_STAT_b_SUSPENDED c.1 b) 0) s else s

/-! ### Frames as words -/

/-- The bytes of words, little-endian. -/
def wordBytes (ws : List Nat) : List Byte := ws.flatMap fun w => leBytes 4 w

/-- The word `k` of some bytes, little-endian, zero beyond their end. -/
def byteWord (b : List Byte) (k : Nat) : Nat := leNat ((b.drop (4 * k)).take 4)

/-- The kind of a receive item (R262): its format, and slot form for XL frames, more than 8 bytes, or SLOT_ALL. -/
def rxKind (c : Fin 12) (f : CanFrame) (s : State) : Nat :=
  let fmt := match f.fmt with
    | .classical => 1
    | .fd => 2
    | .xl => 3
  let slot := f.fmt = .xl ∨ 8 < f.data.length ∨ ftst (F.CAN_CTRL_SLOT_ALL c.1) s = true
  0x20 + fmt + if slot then 8 else 0

/-- The length that a CAN FD item is sent with: padded to the next data length of the format (R273). -/
def fdLen (n : Nat) : Nat := if n ≤ 8 then n else ([12, 16, 20, 24, 32, 48, 64].find? fun k => decide (n ≤ k)).getD n

/-! ### Receiving (R257-R268) -/

/-- The first enabled filter that matches (R257): its action and buffer. -/
def canFilter (c : Fin 12) (f : CanFrame) (s : State) : Option (Nat × Nat) :=
  ((List.range 128).find? fun k =>
    fget (F.CAN_FILT_ACT_f_ACTION c.1 k) s != 0 && ftst (F.CAN_FILT_ACT_f_XL c.1 k) s == (f.fmt == .xl)
      && (BitVec.ofNat 32 f.idw &&& rd (R.CAN_FILT_MASK_f c.1 k) s) == (rd (R.CAN_FILT_PATTERN_f c.1 k) s &&& rd (R.CAN_FILT_MASK_f c.1 k) s)).map
    fun k => (fget (F.CAN_FILT_ACT_f_ACTION c.1 k) s, fget (F.CAN_FILT_ACT_f_BUF c.1 k) s)

/-- The slot of a receive-queue entry (R261). -/
def rxSlot (c : Fin 12) (i : Fin 32) (s : State) : Nat :=
  0x01000000 + 16 * fget (F.CAN_RXPAY_OFS c.1) s + i.1 * if ftst (F.CAN_CTRL_XL_EN c.1) s then 2064 else 80

/-- The receive-queue entries in use. -/
def rxUsed (c : Fin 12) (s : State) : List (Fin 32) := (canSt c s).rxq ++ (canSt c s).popped.map Prod.fst ++ (canSt c s).engHeld

/-- Stores a frame in the receive queue (R259, R261, R263). -/
def rxQueue (c : Fin 12) (f : CanFrame) (stamp : Nat) (s : State) : State :=
  let used := rxUsed c s
  if !ftst (F.CAN_RXPAY_EN c.1) s then bump (R.CAN_RX_DROP c.1) s
  else match (List.finRange 32).find? fun i => !used.contains i with
    | none => canEvent c canRxqOvf (bump (R.CAN_RX_DROP c.1) s)
    | some i =>
      let (w1, w2, w3) := let p := vtParts stamp; (p.2.1, p.1 % 2 ^ 32, p.1 / 2 ^ 32 + 65536 * p.2.2)
      let slot := rxSlot c i s
      let ws := [f.idw, f.data.length + 65536 * rxKind c f s + 2 ^ 24 * f.esi.toNat, w1, w2, w3, byteWord f.data 0, byteWord f.data 1, slot]
      let s := (dmaWrite (canIdent c s) slot (wordBytes [w1, w2, w3, f.af] ++ f.data) s).2
      let s := forN 8 (fun k => wr (R.CAN_RXE_i_w c.1 i.1 k) (BitVec.ofNat 32 (ws.getD k 0))) s
      canEvent c canRx (updCan c (fun x => { x with rxq := x.rxq ++ [i] }) s)

/-- Writes a frame into a receive buffer. -/
def putBuffer (c : Fin 12) (b : Fin 64) (f : CanFrame) (stamp : Nat) (s : State) : State :=
  let (w1, w2, w3) := let p := vtParts stamp; (p.2.1, p.1 % 2 ^ 32, p.1 / 2 ^ 32 + 65536 * p.2.2)
  let s := s |> wr (R.CAN_MB_ID_b c.1 b.1) (BitVec.ofNat 32 f.idw) |> fput (F.CAN_MB_CTL_b_LEN c.1 b.1) f.data.length
    |> fput (F.CAN_MB_CTL_b_FD c.1 b.1) (f.fmt == .fd).toNat
  let s := forN 3 (fun k => wr (R.CAN_MB_STAMP_b_k c.1 b.1 k) (BitVec.ofNat 32 ([w1, w2, w3].getD k 0))) s
  let s := forN 16 (fun k => wr (R.CAN_MB_DATA_b_k c.1 b.1 k) (BitVec.ofNat 32 (byteWord f.data k))) s
  fput (F.CAN_MB_STAT_b_NEW c.1 b.1) 1 s

/-- Whether a receive buffer may not be replaced now: it is locked, or software owns it (R266, R267). -/
def bufferBusy (c : Fin 12) (b : Fin 64) (s : State) : Bool :=
  if ftst (F.CAN_CTRL_CONSIST c.1) s then ftst (F.CAN_MB_STAT_b_NEW c.1 b.1) s
  else (canSt c s).locks.any fun l => l.1 == b

/-- A frame bound for a receive buffer (R259, R266, R267). -/
def rxBuffer (c : Fin 12) (b : Fin 64) (f : CanFrame) (stamp : Nat) (s : State) : State :=
  if fget (F.CAN_MB_CTL_b_TYPE c.1 b.1) s ≠ 1 then s
  else if bufferBusy c b s then
    let s := if (canSt c s).shadow.any fun x => x.1 == b then canEvent c canOverwrite s else s
    updCan c (fun x => { x with shadow := x.shadow.filter (fun y => y.1 != b) ++ [(b, (f, stamp))] }) s
  else
    let s := if ftst (F.CAN_MB_STAT_b_NEW c.1 b.1) s then canEvent c canOverwrite s else s
    canEvent c canRx (putBuffer c b f stamp s)

/-- The shadow frame of a buffer moves into it, if there is one; RX is raised now that it is stored in the buffer (R295). -/
def applyShadow (c : Fin 12) (b : Fin 64) (s : State) : State :=
  match (canSt c s).shadow.find? fun x => x.1 == b with
  | none => s
  | some (_, f, stamp) => canEvent c canRx (putBuffer c b f stamp (updCan c (fun x => { x with shadow := x.shadow.filter fun y => y.1 != b }) s))

/-- Whether a frame matches a wake pattern (R288). -/
def wakeHit (c : Fin 12) (f : CanFrame) (s : State) : Bool :=
  (List.range 8).any fun k =>
    let w (j : Nat) := rd (R.CAN_WUF_k_w c.1 k j) s
    ftst (F.CAN_WUF_CFG_k_EN c.1 k) s && fget (F.CAN_WUF_CFG_k_LEN c.1 k) s == f.data.length
      && (BitVec.ofNat 32 f.idw &&& w 1) == (w 0 &&& w 1)
      && (BitVec.ofNat 32 (byteWord f.data 0) &&& w 4) == (w 2 &&& w 4) && (BitVec.ofNat 32 (byteWord f.data 1) &&& w 5) == (w 3 &&& w 5)

/-- A frame is compared with the wake patterns (R288). -/
def checkWake (c : Fin 12) (f : CanFrame) (s : State) : State :=
  if wakeHit c f s then segWakeInput (canSeg c) wakeFrame (canEvent c canWakeFrame s) else s

/-- Where a frame goes (R257). -/
def rxRoute (c : Fin 12) (f : CanFrame) (stamp : Nat) (s : State) : State :=
  match canFilter c f s with
  | some (2, b) => if f.fmt = .xl then rxQueue c f stamp s else rxBuffer c (Fin.ofNat 64 b) f stamp s
  | some (1, _) => rxQueue c f stamp s
  | some _ => s
  | none => if ftst (F.CAN_CTRL_NOMATCH_Q c.1) s then rxQueue c f stamp s else s

/-! ### The time-triggered schedule (R280-R283) -/

/-- The number of basic cycles of the matrix (R297). -/
def ttCycles (c : Fin 12) (s : State) : Nat := 2 ^ min 6 (fget (F.CAN_TT_CFG_CYCLES_LOG2 c.1) s)

/-- The ns that `n` nominal bit times take (R256), rounded up. -/
def canBitsNs (n : Nat) (c : Fin 12) (s : State) : Nat :=
  (n * (fget (F.CAN_NBT_BRP c.1) s + 1) * (3 + fget (F.CAN_NBT_TSEG1 c.1) s + fget (F.CAN_NBT_TSEG2 c.1) s) * 125 + 9) / 10

/-- A buffer's request is pending. -/
def bufPending (c : Fin 12) (b : Nat) (s : State) : Bool := ftst (F.CAN_MB_STAT_b_PENDING c.1 b) s

/-- The open window closes: an exclusive one whose request did not start was missed (R280). -/
def closeWindow (c : Fin 12) (s : State) : State :=
  match (canSt c s).window with
  | none => s
  | some w =>
    let s := updCan c (fun x => { x with window := none }) s
    if w.type = 1 ∧ w.started = false ∧ bufPending c w.mb s then canEvent c canTtErr (bump (R.CAN_TT_MISS c.1) s) else s

/-- A basic cycle begins at an instant with a cycle count: cell updates take effect (R277, R281). -/
def startCycle (c : Fin 12) (count at_ : Nat) (s : State) : State :=
  let s := closeWindow c s
  let s := (canSt c s).cells.foldl (fun s (y, k, v) => wr (R.CAN_TT_CELL_y_k c.1 y k) (BitVec.ofNat 32 (v % 256)) s) s
  let s := updCan c (fun x => { x with cells := [], cycleAt := some at_, lastRef := some at_, refDue := none }) s
  fput (F.CAN_TT_STATUS_CYCLE c.1) (count % ttCycles c s) s

/-- A slave recognises a reference message (R281). -/
def takeReference (c : Fin 12) (f : CanFrame) (ago : Nat) (s : State) : State :=
  if ftst (F.CAN_CTRL_TT_EN c.1) s ∧ ftst (F.CAN_TT_CFG_ROLE c.1) s = false ∧ f.idw = (rd (R.CAN_TT_REF_ID c.1) s).toNat then
    fput (F.CAN_TT_STATUS_SYNC c.1) 1 (startCycle c ((f.data.getD 0 0).toNat % 64) (s.now - (ago * 25 + 1) / 2) s)
  else s

/-- CAN_FRAME_RECEIVE (R257): a frame received without error; `ago` is how many cycles of 80 MHz ago its start-of-frame bit began. In internal loopback the controller hears
nothing of the bus (R255). -/
def execCanFrameReceive (c : Fin 12) (fmt : CanFmt) (idw : Word) (data : List Byte) (esi : Bool) (af : Word) (ago : Nat) (s : State) :
    Host.Outcome State Fault Refusal :=
  .next (
    let f : CanFrame := ⟨fmt, idw.toNat, data, esi, if fmt = .xl then af.toNat else 0⟩
    let off := (fmt = .fd ∧ ftst (F.CAN_CTRL_FD_EN c.1) s = false) ∨ (fmt = .xl ∧ ftst (F.CAN_CTRL_XL_EN c.1) s = false)
    if !canOn c s || canOff c s || decide off || canMode c s == 3 then s
    else if canMode c s = 5 then checkWake c f s
    else
      let stamp := canStamp c ago s
      let rec_ := fget (F.CAN_ERR_REC c.1) s
      let s := if 127 < rec_ then useFree (fput (F.CAN_ERR_REC c.1) (119 + freeVal s % 9) s) else fput (F.CAN_ERR_REC c.1) (rec_ - 1) s
      let s := showErrState c (clearAlone c true (bump (R.CAN_RX_OK c.1) s))
      let s := if segState (canSeg c) s = segPrepare then checkWake c f s else s
      wispFromCan c f (rxRoute c f stamp (takeReference c f ago s)))

/-- A receive-queue entry is free again. -/
def rxFree (c : Fin 12) (i : Fin 32) (s : State) : State :=
  updCan c (fun x => { x with popped := x.popped.filter (fun p => p.1 != i), engHeld := x.engHeld.filter (fun k => k != i) }) s

/-- The QID of a controller's receive queue, transmit queue and updates (R151). -/
def canRxQid (c : Fin 12) : Nat := 0x100 + 4 * c.1
def canTxQid (c : Fin 12) : Nat := 0x101 + 4 * c.1

/-- The instant a lock taken now expires (R266). -/
def lockDue (c : Fin 12) (s : State) : Nat := s.now + clampNat 1 10000 (fget (F.CAN_LOCK_TO_US c.1) s) * 1000

/-- Pops the receive queue for a host; the answer is the data of the read (R264, R265). -/
def rxqPop (w : Initiator) (c : Fin 12) (s : State) : State :=
  if qidBound (canRxQid c) s then answer .done 0xFFFFFFFF s
  else match (canSt c s).rxq with
    | [] => answer .done 0xFFFFFFFF s
    | i :: rest => answer .done i.1 (updCan c (fun x => { x with rxq := rest, popped := x.popped ++ [(i, lockDue c s)], undo := undoFor w i }) s)

/-- RXQ_POP (R265). -/
def execRxqPop (w : Initiator) (c : Fin 12) (s : State) : Host.Outcome State Fault Refusal := .next (regRead w (R.CAN_RXQ_POP c.1) (rxqPop w c) s)

/-- What a read of word 7 of an entry does (R266). -/
def rxeWord7Read (c : Fin 12) (i : Fin 32) (s : State) : State :=
  let s := answer .done (rd (R.CAN_RXE_i_w c.1 i.1 7) s).toNat s
  if !ftst (F.CAN_CTRL_CONSIST c.1) s && (canSt c s).popped.any (fun p => p.1 == i) then rxFree c i s else s

/-- RXE_WORD7_READ (R266). -/
def execRxeWord7Read (w : Initiator) (c : Fin 12) (i : Fin 32) (s : State) : Host.Outcome State Fault Refusal :=
  .next (regRead w (R.CAN_RXE_i_w c.1 i.1 7) (rxeWord7Read c i) s)

/-- What a read of MB_ID does (R266, R268). -/
def mbIdRead (c : Fin 12) (b : Fin 64) (s : State) : State :=
  let s := answer .done (rd (R.CAN_MB_ID_b c.1 b.1) s).toNat s
  if !ftst (F.CAN_CTRL_CONSIST c.1) s && fget (F.CAN_MB_CTL_b_TYPE c.1 b.1) s == 1 && !bufferBusy c b s then
    updCan c (fun x => { x with locks := x.locks ++ [(b, lockDue c s)] }) s
  else s

/-- MB_ID_READ (R266, R268). -/
def execMbIdRead (w : Initiator) (c : Fin 12) (b : Fin 64) (s : State) : Host.Outcome State Fault Refusal :=
  .next (regRead w (R.CAN_MB_ID_b c.1 b.1) (mbIdRead c b) s)

/-- A buffer's lock is released and its shadow applied (R266). -/
def unlockBuffer (c : Fin 12) (b : Fin 64) (s : State) : State :=
  applyShadow c b (updCan c (fun x => { x with locks := x.locks.filter fun l => l.1 != b }) s)

/-- What a read of MB_STAT does (R266). -/
def mbStatRead (c : Fin 12) (b : Fin 64) (s : State) : State :=
  let s := answer .done (rd (R.CAN_MB_STAT_b c.1 b.1) s).toNat s
  if !ftst (F.CAN_CTRL_CONSIST c.1) s && bufferBusy c b s then unlockBuffer c b (fput (F.CAN_MB_STAT_b_NEW c.1 b.1) 0 s) else s

/-- MB_STAT_READ (R266): the frame that was read is no longer new (DEDUCED, assumption 18). -/
def execMbStatRead (w : Initiator) (c : Fin 12) (b : Fin 64) (s : State) : Host.Outcome State Fault Refusal :=
  .next (regRead w (R.CAN_MB_STAT_b c.1 b.1) (mbStatRead c b) s)

/-- The least of a list by a key. -/
def leastBy {α : Type} (k : α → Nat) : List α → Option α
  | [] => none
  | x :: xs =>
    match leastBy k xs with
    | none => some x
    | some y => if k x ≤ k y then some x else some y

/-- LOCK_EXPIRED (R266): the buffer lock or the popped entry that is due first. -/
def execLockExpired (c : Fin 12) (s : State) : Host.Outcome State Fault Refusal :=
  .next (
    if ftst (F.CAN_CTRL_CONSIST c.1) s then s
    else
      let unlock (b : Fin 64) (due : Nat) : State := canEvent c canLockExpired (unlockBuffer c b (elapseTo due s))
      let free (i : Fin 32) (due : Nat) : State := canEvent c canLockExpired (rxFree c i (elapseTo due s))
      match leastBy Prod.snd (canSt c s).locks, leastBy Prod.snd (canSt c s).popped with
      | some (b, due), none => unlock b due
      | none, some (i, due) => free i due
      | some (b, due), some (i, due') => if due ≤ due' then unlock b due else free i due'
      | none, none => s)

/-- An acknowledgement of something that software does not hold (R267). -/
def ackErr (c : Fin 12) (s : State) : State := bad (bump (R.CAN_ACK_ERR c.1) s)

/-- The effect of a write of MB_ACK (R267). -/
def mbAck (c : Fin 12) (b : Fin 64) (s : State) : State :=
  if !ftst (F.CAN_CTRL_CONSIST c.1) s then bad s
  else if fget (F.CAN_MB_CTL_b_TYPE c.1 b.1) s ≠ 1 ∨ ftst (F.CAN_MB_STAT_b_NEW c.1 b.1) s = false then ackErr c s
  else applyShadow c b (fput (F.CAN_MB_STAT_b_NEW c.1 b.1) 0 s)

/-- MB_ACK. -/
def execMbAck (w : Initiator) (c : Fin 12) (b : Fin 64) (s : State) : Host.Outcome State Fault Refusal := .next (regCmd w (R.CAN_MB_ACK c.1) (mbAck c b) s)

/-- The effect of a write of RXQ_ACK (R264, R267). -/
def rxqAck (c : Fin 12) (i : Fin 32) (s : State) : State :=
  if qidBound (canRxQid c) s || !ftst (F.CAN_CTRL_CONSIST c.1) s then bad s
  else if (canSt c s).popped.any fun p => p.1 == i then rxFree c i s
  else ackErr c s

/-- RXQ_ACK. -/
def execRxqAck (w : Initiator) (c : Fin 12) (i : Fin 32) (s : State) : Host.Outcome State Fault Refusal := .next (regCmd w (R.CAN_RXQ_ACK c.1) (rxqAck c i) s)

/-! ### Items (R269-R277) -/

/-- The ID word of an item. -/
def canIdw (c : Fin 12) (x : CanItem) (s : State) : Nat :=
  match x.src with
  | .buffer b => (rd (R.CAN_MB_ID_b c.1 b.1) s).toNat
  | .host i => (rd (R.CAN_TXE_i_w c.1 i.1 0) s).toNat
  | .engine _ _ w1 _ _ => w1
  | .wisp w => fget F.NM_CAN_ID_BASE s + w % 64

/-- The format of an item's kind or buffer. -/
def fmtOf (k : Nat) : CanFmt := if k % 4 = 3 then .xl else if k % 4 = 2 then .fd else .classical

/-- The kind, the length, the inline words and the payload address of an item. -/
def canShape (c : Fin 12) (x : CanItem) (s : State) : Nat × Nat × List Nat × Nat :=
  match x.src with
  | .buffer b => (if ftst (F.CAN_MB_CTL_b_FD c.1 b.1) s then 0x22 else 0x21, fget (F.CAN_MB_CTL_b_LEN c.1 b.1) s,
      (List.range 16).map fun k => (rd (R.CAN_MB_DATA_b_k c.1 b.1 k) s).toNat, 0)
  | .host i =>
    let w1 := (rd (R.CAN_TXE_i_w c.1 i.1 1) s).toNat
    (bits w1 23 16, bits w1 15 0, [(rd (R.CAN_TXE_i_w c.1 i.1 3) s).toNat, (rd (R.CAN_TXE_i_w c.1 i.1 4) s).toNat], (rd (R.CAN_TXE_i_w c.1 i.1 5) s).toNat)
  | .engine _ w0 _ w2 w3 => (bits w0 15 8, bits w0 31 16, [w2, w3], w3)
  | .wisp w => (0x21, 8, [w % 2 ^ 32, w / 2 ^ 32], 0)

/-- Whether an item's kind and length are allowed (R271, R273); inline form carries at most eight bytes, a buffer up to 64. -/
def canAllowed (c : Fin 12) (x : CanItem) (s : State) : Bool :=
  let (kind, len, _, _) := canShape c x s
  let slot := kind / 8 % 2 == 1
  let buf := match x.src with | .buffer _ => true | _ => false
  [0x21, 0x22, 0x29, 0x2A, 0x2B].contains kind
    && (match fmtOf kind with
      | .classical => decide (len ≤ 8)
      | .fd => decide (len ≤ 64) && (slot || buf || decide (len ≤ 8)) && ftst (F.CAN_CTRL_FD_EN c.1) s
      | .xl => decide (1 ≤ len) && decide (len ≤ 2048) && ftst (F.CAN_CTRL_XL_EN c.1) s)

/-- The frame of an item for an attempt (R272, R273): a remote frame has no data field; a slot-form payload is read again from memory; none where that read fails. -/
def canFrameOf (c : Fin 12) (x : CanItem) (s : State) : Option CanFrame × State :=
  let (kind, len, ws, addr) := canShape c x s
  let fmt := fmtOf kind
  let len := if fmt = .classical ∧ bits (canIdw c x s) 30 30 = 1 then 0 else len
  let mk (af : Nat) (d : List Byte) : CanFrame := ⟨fmt, canIdw c x s, if fmt = .fd then d ++ List.replicate (fdLen len - len) 0 else d, false, af⟩
  if kind / 8 % 2 = 1 then
    let head := if fmt = .xl then 4 else 0
    match dmaRead (canIdent c s) addr (head + len) s with
    | (none, s) => (none, s)
    | (some d, s) => (some (mk (leNat (d.take head)) (d.drop head)), s)
  else (some (mk 0 ((wordBytes ws).take len)), s)

/-- The count of a status (R295). -/
def canCplIndex : Status → Nat
  | .done => 0
  | .failedBus => 1
  | .failedTimeout => 2
  | .failedRefused => 3
  | .abortedReset => 4
  | .abortedIslandOff => 5
  | .abortedCancel => 6
  | _ => 7

/-- Writes a completion record (R275): the status, the source, its index, the tag or the engine's count, the ID word, and the VT nanoseconds. No register says what software has
read, so that every record the ring still holds counts as unread (assumption 18). -/
def canRecord (c : Fin 12) (x : CanItem) (st : Status) (ns : Nat) (s : State) : State :=
  let (src, idx, tag) := match x.src with
    | .buffer b => (0, b.1, 0)
    | .host i => (1, i.1, (rd (R.CAN_TXE_i_w c.1 i.1 2) s).toNat)
    | .engine n _ _ _ _ => (2, 0, n)
    | .wisp _ => (0, 0, 0)
  let idw := canIdw c x s
  let s := bump (R.CAN_CPL_CNT_s c.1 (canCplIndex st)) s
  let n := fget (F.CAN_TXCPL_SIZE_N c.1) s
  if n = 0 then s
  else
    let i := fget (F.CAN_TXCPL_HEAD_IDX c.1) s % n
    let s := (dmaWrite (canIdent c s) (0x01000000 + 16 * fget (F.CAN_TXCPL_BASE_OFS c.1) s + 16 * i)
      (wordBytes [st.code + 256 * src + 65536 * idx, tag, idw, ns]) s).2
    let s := whenB (decide (n ≤ (canSt c s).cplCount)) (bump (R.CAN_TXCPL_OVF c.1)) s
    canEvent c canTxDone (fput (F.CAN_TXCPL_HEAD_IDX c.1) ((i + 1) % n) (updCan c (fun x => { x with cplCount := x.cplCount + 1 }) s))

/-- Shows a buffer's request in TXB_REQ and MB_STAT. -/
def showPending (c : Fin 12) (b : Fin 64) (on : Bool) (s : State) : State :=
  let f := F.CAN_TXB_REQ_k c.1 (b.1 / 32)
  let s := fput (F.CAN_MB_STAT_b_PENDING c.1 b.1) on.toNat s
  if on then raise f (b.1 % 32) s else lower f (b.1 % 32) s

/-- The stamp words of a buffer take a stamp. -/
def putMbStamp (c : Fin 12) (b : Fin 64) (v : Nat) (s : State) : State :=
  let p := vtParts v
  s |> wr (R.CAN_MB_STAMP_b_k c.1 b.1 0) (BitVec.ofNat 32 p.2.1) |> wr (R.CAN_MB_STAMP_b_k c.1 b.1 1) (BitVec.ofNat 32 p.1)
    |> wr (R.CAN_MB_STAMP_b_k c.1 b.1 2) (BitVec.ofNat 32 (p.1 / 2 ^ 32 + 65536 * p.2.2))

/-- Whether an item is the NM block's own (R335). -/
def ofNm (x : CanItem) : Bool := match x.src with | .wisp _ => true | _ => false

/-- An item ends with a status (R275): its record is written, and a buffer or entry is free. `at_` is the stamp of a successful frame. A wisp has no record. -/
def canFinish (c : Fin 12) (x : CanItem) (st : Status) (at_ : Option Nat) (s : State) : State :=
  let ns := match at_ with
    | some v => v / 65536 % secNs
    | none => vtNs s % secNs
  let s := updCan c (fun y => { y with items := y.items.filter fun z => z.seq != x.seq }) s
  let s := whenB (!ofNm x) (canRecord c x st ns) s
  let s := match x.src with
    | .buffer b =>
      let s := showPending c b false (fput (F.CAN_MB_STAT_b_LAST c.1 b.1) st.code (fput (F.CAN_MB_STAT_b_BUS_OFF_HELD c.1 b.1) 0 s))
      match at_ with
      | some v => putMbStamp c b v s
      | none => s
    | _ => s
  whenB (st == .failedTimeout && !ofNm x) (canEvent c canTimeout) s

/-- Accepts an item (R276); the Sluice may hold it (R344). -/
def canAccept (c : Fin 12) (src : CanSrc) (ms : Nat) (reroute held : Bool) (s : State) : State :=
  updCan c (fun x => { x with
    items := x.items ++ [⟨src, x.nextSeq, if ms = 0 then none else some (s.now + ms * 1000000), reroute, false, held⟩]
    nextSeq := x.nextSeq + 1 }) s

/-- A new item of a controller. -/
def canNew (src : CanSrc) (s : State) (c : Fin 12) : CanItem := ⟨src, (canSt c s).nextSeq, none, false, false, false⟩

/-- An item that ends as it is submitted, with its record (R275). -/
def refuseItem (c : Fin 12) (x : CanItem) (s : State) : State :=
  canFinish c x .failedRefused none (updCan c (fun y => { y with nextSeq := y.nextSeq + 1 }) s)

/-- Whether an item is a Classical one of more than 8 bytes, whose refusal on a buffer stands in MB_STAT.LAST alone (R273). -/
def longClassical (c : Fin 12) (x : CanItem) (s : State) : Bool := fmtOf (canShape c x s).1 == .classical && decide (8 < (canShape c x s).2.1)

/-- Requests transmission from a buffer (R269, R273, R275, R284). -/
def requestBuffer (c : Fin 12) (b : Fin 64) (s : State) : State :=
  let type := fget (F.CAN_MB_CTL_b_TYPE c.1 b.1) s
  let x := canNew (.buffer b) s c
  if type < 2 ∨ bufPending c b.1 s = true ∨ ftst (F.CAN_MB_STAT_b_SUSPENDED c.1 b.1) s = true then s
  else if longClassical c x s then fput (F.CAN_MB_STAT_b_LAST c.1 b.1) Status.failedRefused.code s
  else if !canAllowed c x s then refuseItem c x s
  else match sluice (canSeg c) (canIdw c x s) s with
    | (.refuse, s) => refuseItem c x s
    | (.pass, s) => canAccept c (.buffer b) 0 false false (showPending c b true s)
    | (.hold, s) => canAccept c (.buffer b) 0 false true (showPending c b true s)

/-- The effect of a write of TXB_REQ. -/
def txbReq (c : Fin 12) (k : Fin 2) (m : Word) (s : State) : State :=
  forFin 32 (fun j s => if m.getLsbD j.1 then requestBuffer c ⟨32 * k.1 + j.1, by omega⟩ s else s) s

/-- TXB_REQ (R269): `k` 0 is TXB_REQ_LO, 1 TXB_REQ_HI. -/
def execTxbReq (w : Initiator) (c : Fin 12) (k : Fin 2) (m : Word) (s : State) : Host.Outcome State Fault Refusal :=
  .next (regCmd w (R.CAN_TXB_REQ_k c.1 k.1) (txbReq c k m) s)

/-- Whether a host entry is submitted. -/
def entryBusy (c : Fin 12) (i : Fin 32) (s : State) : Bool := (canSt c s).items.any fun x => x.src == .host i

/-- The effect of a write of TXQ_SUBMIT (R264, R269, R270, R273). -/
def txqSubmit (c : Fin 12) (i : Fin 32) (s : State) : State :=
  let x := canNew (.host i) s c
  let w1 := (rd (R.CAN_TXE_i_w c.1 i.1 1) s).toNat
  if qidBound (canTxQid c) s then bad s
  else if entryBusy c i s then ackErr c s
  else if !canAllowed c x s then refuseItem c x s
  else match sluice (canSeg c) (canIdw c x s) s with
    | (.refuse, s) => refuseItem c x s
    | (.pass, s) => canAccept c (.host i) (bits w1 30 24) (bits w1 31 31 == 1) false s
    | (.hold, s) => canAccept c (.host i) (bits w1 30 24) (bits w1 31 31 == 1) true s

/-- TXQ_SUBMIT. -/
def execTxqSubmit (w : Initiator) (c : Fin 12) (i : Fin 32) (s : State) : Host.Outcome State Fault Refusal := .next (regCmd w (R.CAN_TXQ_SUBMIT c.1) (txqSubmit c i) s)

/-- Whether an item comes from the transmit queue. -/
def fromQueue (x : CanItem) : Bool := match x.src with | .host _ | .engine .. => true | .buffer _ | .wisp _ => false

/-- An engine pushes a frame (R264, R271). -/
def canPush (c : Fin 12) (w0 w1 w2 w3 : Nat) (s : State) : Status × State :=
  let src := CanSrc.engine (canSt c s).engCount w0 w1 w2 w3
  let x := canNew src s c
  let slot := bits w0 15 8 / 8 % 2 == 1
  let len := bits w0 31 16 + if bits w0 9 8 = 3 then 4 else 0
  let queued := ((canSt c s).items.filter fromQueue).length
  if 32 ≤ queued ∨ canAllowed c x s = false ∨ (slot = true ∧ (inBanks w3 len = false ∨ w3 % 4 ≠ 0)) then (.failedRefused, s)
  else match sluice (canSeg c) w1 s with
    | (.refuse, s) => (.failedRefused, s)
    | (v, s) =>
      let s := canAccept c src (bits w0 6 0) (bits w0 7 7 == 1) (v == .hold) s
      (.done, updCan c (fun y => { y with engCount := (y.engCount + 1) % 2 ^ 32 }) s)

/-- Rewrites a transmit buffer (R277); more than eight data bytes are read from the bank window at word 3. -/
def rewriteBuffer (c : Fin 12) (w0 w1 w2 w3 : Nat) (s : State) : State :=
  let b : Fin 64 := Fin.ofNat 64 w0
  let len := bits w0 31 16
  let s := s |> wr (R.CAN_MB_ID_b c.1 b.1) (BitVec.ofNat 32 w1) |> fput (F.CAN_MB_CTL_b_LEN c.1 b.1) len
  let (d, s) := if len ≤ 8 then (wordBytes [w2, w3], s)
    else match dmaRead (canIdent c s) w3 len s with
      | (some d, s) => (d, s)
      | (none, s) => ([], s)
  let s := forN ((len + 3) / 4) (fun k => wr (R.CAN_MB_DATA_b_k c.1 b.1 k) (BitVec.ofNat 32 (byteWord d k))) s
  if bits w0 6 6 = 1 then requestBuffer c b s else s

/-- Whether a buffer's frame is in transmission, the reference message's among them. -/
def bufferSending (c : Fin 12) (b : Nat) (s : State) : Bool :=
  match (canSt c s).cur with
  | some t => (match t.item with
    | some x => (match x.src with | .buffer k => k.1 == b | _ => false)
    | none => fget (F.CAN_TT_CFG_REF_MB c.1) s == b)
  | none => false

/-- An engine pushes an update (R277). -/
def canUpdate (c : Fin 12) (w0 w1 w2 w3 : Nat) (s : State) : Status × State :=
  let kind := bits w0 15 8
  if kind = 0x30 then
    let b := bits w0 5 0
    if fget (F.CAN_MB_CTL_b_TYPE c.1 b) s < 2 ∨ 64 < bits w0 31 16 ∨ 16 ≤ (canSt c s).updates.length + (canSt c s).cells.length
        ∨ (8 < bits w0 31 16 ∧ (inBanks w3 (bits w0 31 16) = false ∨ w3 % 4 ≠ 0)) then (.failedRefused, s)
    else if bufferSending c b s then (.done, updCan c (fun y => { y with updates := y.updates ++ [(w0, w1, w2, w3)] }) s)
    else (.done, rewriteBuffer c w0 w1 w2 w3 s)
  else if kind = 0x31 then
    if 16 ≤ (canSt c s).updates.length + (canSt c s).cells.length then (.failedRefused, s)
    else (.done, updCan c (fun y => { y with cells := y.cells ++ [(bits w1 5 0, bits w1 12 8, w2)] }) s)
  else (.failedRefused, s)

/-! ### Cancelling (R278) -/

/-- The attempt in progress of a source. -/
def sendingSrc (c : Fin 12) (src : CanSrc) (s : State) : Bool :=
  match (canSt c s).cur with
  | some t => (match t.item with | some x => x.src == src | none => false)
  | none => false

/-- Cancels the pending item of a source: at once, or armed on the attempt in progress (R278). -/
def cancelSrc (c : Fin 12) (src : CanSrc) (s : State) : State :=
  match (canSt c s).items.find? fun x => x.src == src with
  | none => s
  | some x =>
    if sendingSrc c src s then
      let s := updCan c (fun y => { y with cur := y.cur.map fun t => { t with cancel := true } }) s
      canEvent c canCancelLate (bump (R.CAN_CANCEL_LATE_CNT c.1) s)
    else canFinish c x .abortedCancel none s

/-- The effect of a write of TXB_CANCEL (R278). -/
def txbCancel (c : Fin 12) (k : Fin 2) (m : Word) (s : State) : State :=
  forFin 32 (fun j s => if m.getLsbD j.1 then cancelSrc c (.buffer ⟨32 * k.1 + j.1, by omega⟩) s else s) s

/-- TXB_CANCEL. -/
def execTxbCancel (w : Initiator) (c : Fin 12) (k : Fin 2) (m : Word) (s : State) : Host.Outcome State Fault Refusal :=
  .next (regCmd w (R.CAN_TXB_CANCEL_k c.1 k.1) (txbCancel c k m) s)

/-- The effect of a write of TXQ_CANCEL (R264, R278). -/
def txqCancel (c : Fin 12) (i : Fin 32) (s : State) : State := if qidBound (canTxQid c) s then bad s else cancelSrc c (.host i) s

/-- TXQ_CANCEL. -/
def execTxqCancel (w : Initiator) (c : Fin 12) (i : Fin 32) (s : State) : Host.Outcome State Fault Refusal := .next (regCmd w (R.CAN_TXQ_CANCEL c.1) (txqCancel c i) s)

/-! ### Attempts (R274, R279) -/

/-- The arbitration value of an ID word: identifier, RTR or SRR, IDE, extended identifier, RTR as the bus carries them (PRESUMED of ISO 11898-1, assumption 18). -/
def arbValue (xl : Bool) (w : Nat) : Nat :=
  if xl then bits w 10 0 * 2 ^ 21 + bits w 30 30 * 2 ^ 20
  else if bits w 29 29 = 1 then bits w 28 18 * 2 ^ 21 + 2 ^ 20 + 2 ^ 19 + bits w 17 0 * 2 + bits w 30 30
  else bits w 10 0 * 2 ^ 21 + bits w 30 30 * 2 ^ 20

/-- The order in which equal arbitration values win (R274): a lower buffer, then the queue in order. -/
def arbKey (c : Fin 12) (x : CanItem) (s : State) : Nat :=
  let v := arbValue (fmtOf (canShape c x s).1 == .xl) (canIdw c x s)
  v * 2 ^ 40 + match x.src with
    | .buffer b => b.1
    | _ => 64 + x.seq

/-- Whether an item may start in the open window of a matrix (R280): a buffer of type TT alone in the exclusive window that names it; in an arbitrating window the
buffers of type TX, the one of type TT that it names, and the queue. -/
def inWindow (c : Fin 12) (s : State) (x : CanItem) : Bool :=
  match (canSt c s).window with
  | none => false
  | some w =>
    if w.closes < s.now ∨ w.started = true then false
    else match x.src with
      | .buffer b => (fget (F.CAN_MB_CTL_b_TYPE c.1 b.1) s == 3 && b.1 == w.mb && (w.type == 1 || w.type == 2)) || (fget (F.CAN_MB_CTL_b_TYPE c.1 b.1) s == 2 && w.type == 2)
      | _ => w.type == 2

/-- The items that may start: not those the Sluice holds; under a matrix, those of the open window. -/
def canMayStart (c : Fin 12) (s : State) : List CanItem :=
  (canSt c s).items.filter fun x => !x.held && (!ftst (F.CAN_CTRL_TT_EN c.1) s || inWindow c s x)

/-- The items that compete (R274): of the queue the oldest alone unless TXQ_PRIO. -/
def canCompete (c : Fin 12) (s : State) : List CanItem :=
  let oldest := ((canSt c s).items.filter fun x => !x.held && fromQueue x).head?.map CanItem.seq
  (canMayStart c s).filter fun x => !fromQueue x || ftst (F.CAN_CTRL_TXQ_PRIO c.1) s || some x.seq == oldest

/-- The item the controller chooses (R274): one marked BUS_OFF_HELD first. -/
def canChoose (c : Fin 12) (s : State) : Option CanItem :=
  match (canMayStart c s).find? fun x => x.busOff with
  | some x => some x
  | none => leastBy (fun x => arbKey c x s) (canCompete c s)

/-- Whether a controller may start a frame: on the bus, in a mode that sends, and not without a reference as a slave (R281). -/
def canMaySend (c : Fin 12) (s : State) : Bool :=
  canOn c s && !canOff c s && (let m := canMode c s; m == 0 || m == 3 || m == 4) && (canSt c s).cur.isNone
    && !(ftst (F.CAN_CTRL_TT_EN c.1) s && !ftst (F.CAN_TT_CFG_ROLE c.1) s && !ftst (F.CAN_TT_STATUS_SYNC c.1) s)

/-- Starts an item's frame. A payload that cannot be read ends the item FAILED_BUS (R467). -/
def startItem (c : Fin 12) (x : CanItem) (exclusive : Bool) (s : State) : State :=
  match canFrameOf c x s with
  | (none, s) => canFinish c x .failedBus none s
  | (some f, s) =>
    updCan c (fun y => { y with
      cur := some ⟨some x, f, false, exclusive, canStamp c 0 s, s.now⟩
      window := y.window.map fun w => { w with started := true } }) s

/-- The reference message of a master's index `count` (R281, R282): the frame of its buffer with the cycle count in data byte 0. -/
def startReference (c : Fin 12) (count : Nat) (s : State) : State :=
  let b : Fin 64 := Fin.ofNat 64 (fget (F.CAN_TT_CFG_REF_MB c.1) s)
  match canFrameOf c (canNew (.buffer b) s c) s with
  | (none, s) => s
  | (some f, s) =>
    let d := match f.data with
      | [] => []
      | x :: xs => BitVec.ofNat 8 (x.toNat / 64 * 64 + count % ttCycles c s) :: xs
    let s := startCycle c count s.now s
    updCan c (fun y => { y with refIdx := count, cur := some ⟨none, { f with data := d }, false, false, canStamp c 0 s, s.now⟩ }) s

/-- CAN_TX_START (R274): the bus permits a transmission. A late reference message goes first (R282). -/
def execCanTxStart (c : Fin 12) (s : State) : Host.Outcome State Fault Refusal :=
  .next (
    if !canMaySend c s then s
    else match (canSt c s).refDue, canChoose c s with
      | some k, _ => startReference c k s
      | none, none => s
      | none, some x => startItem c x (match (canSt c s).window with | some w => w.type == 1 | none => false) s)

/-- Updates that waited for the end of a transmission are made (R277). -/
def applyUpdates (c : Fin 12) (s : State) : State :=
  (canSt c s).updates.foldl (fun s (w0, w1, w2, w3) => rewriteBuffer c w0 w1 w2 w3 s) (updCan c (fun y => { y with updates := [] }) s)

/-- Bus-off (R285): REROUTE items end when CTRL.BO_REROUTE is set. -/
def enterBusOff (c : Fin 12) (s : State) : State :=
  let s := canEvent c canBusOff (bump (R.CAN_BUS_OFF_CNT c.1) s)
  let s := putErrState c (if ftst (F.CAN_CTRL_BO_AUTO c.1) s then 3 else 2) s
  if !ftst (F.CAN_CTRL_BO_REROUTE c.1) s then s
  else ((canSt c s).items.filter fun x => x.reroute).foldl (fun s x => canFinish c x .failedBus none s) s

/-- Whether an item's deadline has passed. -/
def deadlinePassed (x : CanItem) (s : State) : Bool := match x.deadline with | some d => decide (d ≤ s.now) | none => false

/-- What a failed attempt does to its item (R279). -/
def attemptFailed (c : Fin 12) (x : CanItem) (t : CanTry) (ackErr off : Bool) (s : State) : State :=
  if t.cancel then canFinish c x .abortedCancel none s
  else if ackErr && (canSt c s).alone && ftst (F.CAN_CTRL_ALONE_SUSP c.1) s then
    let s := match x.src with
      | .buffer b => fput (F.CAN_MB_STAT_b_SUSPENDED c.1 b.1) 1 s
      | _ => s
    canFinish c x .failedTimeout none s
  else if t.exclusive then canFinish c x .failedTimeout none s
  else if off && x.reroute && ftst (F.CAN_CTRL_BO_REROUTE c.1) s then canFinish c x .failedBus none s
  else if deadlinePassed x s then canFinish c x .failedTimeout none s
  else if off then
    let s := updCan c (fun y => { y with items := y.items.map fun z => if z.seq = x.seq then { z with busOff := true } else z }) s
    match x.src with
    | .buffer b => fput (F.CAN_MB_STAT_b_BUS_OFF_HELD c.1 b.1) 1 s
    | _ => s
  else s

/-- The error counters after a failed attempt (R284): an error-passive node raises TEC on no ACK error; the other increments are those of ISO 11898-1 (PRESUMED). -/
def countTxError (c : Fin 12) (e : CanErr) (s : State) : State :=
  let passive := fget (F.CAN_ERR_STATE c.1) s = 1
  let s := fput (F.CAN_ERR_LEC c.1) (lecCode e) s
  let s := if e = .ack then
      let run := min 255 (fget (F.CAN_ALONE_RUN c.1) s + 1)
      let s := fput (F.CAN_ALONE_RUN c.1) run s
      let lim := fget (F.CAN_ALONE_LIMIT c.1) s
      if lim ≠ 0 ∧ run = lim then canEvent c canAlone (updCan c (fun y => { y with alone := true }) s) else s
    else s
  if passive ∧ e = .ack then s else fput (F.CAN_ERR_TEC c.1) (min 511 (fget (F.CAN_ERR_TEC c.1) s + 8)) s

/-- How an attempt ends in a loopback mode (R255; PRESUMED, assumption 18): internally nothing disturbs it, and neither mode needs an acknowledgement. -/
def loopEnd (mode : Nat) (r : CanEnd) : CanEnd :=
  match r with
  | .error .ack => if mode = 3 ∨ mode = 4 then .success else r
  | .error _ | .lostArbitration => if mode = 3 then .success else r
  | .success => r

/-- A frame sent in a loopback mode is received too (R255). -/
def loopBack (c : Fin 12) (t : CanTry) (s : State) : State :=
  if canMode c s = 3 ∨ canMode c s = 4 then rxRoute c t.frame t.stamp (bump (R.CAN_RX_OK c.1) s) else s

/-- A reference message that was not sent waits for the bus again (R282). -/
def keepReference (c : Fin 12) (s : State) : State := updCan c (fun y => { y with refDue := some y.refIdx }) s

/-- CAN_TX_ATTEMPT_END (R279); a failed attempt whose ACK slot was filled ends a run without an acknowledgement (R284). -/
def execCanTxAttemptEnd (c : Fin 12) (r : CanTxEnd) (s : State) : Host.Outcome State Fault Refusal :=
  .next (
    match (canSt c s).cur with
    | none => s
    | some t =>
      let acked := r.acked
      let r := loopEnd (canMode c s) r.how
      let s := updCan c (fun y => { y with cur := none }) s
      let item := t.item.bind fun x => (canSt c s).items.find? fun y => y.seq == x.seq
      let s := match r with
        | .success =>
          let s := s |> fput (F.CAN_ERR_TEC c.1) (fget (F.CAN_ERR_TEC c.1) s - 1) |> fput (F.CAN_ERR_LEC c.1) 0 |> bump (R.CAN_TX_OK c.1)
          let s := loopBack c t (showErrState c (clearAlone c false s))
          match item with
          | some x =>
            let s := canFinish c x .done (some t.stamp) s
            match x.src with
            | .wisp w => wispSent c w s
            | _ => s
          | none => if t.item.isNone then putMbStamp c (Fin.ofNat 64 (fget (F.CAN_TT_CFG_REF_MB c.1) s)) t.stamp s else s
        | .lostArbitration =>
          match item with
          | some x => attemptFailed c x t false false s
          | none => keepReference c s
        | .error e =>
          let s := countTxError c e (if acked && e != .ack then clearAlone c false s else s)
          let off := decide (255 < fget (F.CAN_ERR_TEC c.1) s)
          let s := match item with
            | some x => attemptFailed c x t (e == .ack) off s
            | none => keepReference c s
          if off then enterBusOff c s else showErrState c s
      applyUpdates c s)

/-- CAN_RECEIVE_ERROR (R284): ISO 11898-1 makes a receiver count 1, or 8 where `heavy` (the receiver sees a dominant bit after its own error flag, or a bit error while it sends
one; PRESUMED, assumption 18). -/
def execCanReceiveError (c : Fin 12) (e : CanRxErr) (s : State) : Host.Outcome State Fault Refusal :=
  .next (
    if !canOn c s || canOff c s || canMode c s == 5 || canMode c s == 3 then s
    else showErrState c (fput (F.CAN_ERR_LEC c.1) (lecCode e.err) (fput (F.CAN_ERR_REC c.1) (min 255 (fget (F.CAN_ERR_REC c.1) s + if e.heavy then 8 else 1)) s)))

/-- CAN_DEADLINE (R276): the pending item whose deadline comes first, if it is not in transmission. -/
def execCanDeadline (c : Fin 12) (s : State) : Host.Outcome State Fault Refusal :=
  .next (
    match leastBy (fun x => x.deadline.getD 0) ((canSt c s).items.filter fun x => x.deadline.isSome && !sendingSrc c x.src s) with
    | none => s
    | some x => canFinish c x .failedTimeout none (elapseTo (x.deadline.getD 0) s))

/-- BUS_OFF_RECOVERY (R286). -/
def execBusOffRecovery (c : Fin 12) (s : State) : Host.Outcome State Fault Refusal :=
  .next (
    if fget (F.CAN_ERR_STATE c.1) s = 3 ∧ canOn c s = true then
      putErrState c 0 (fput (F.CAN_ERR_TEC c.1) 0 (fput (F.CAN_ERR_REC c.1) 0 s))
    else s)

/-- The effect of CMD.RECOVER (R286). -/
def recover (c : Fin 12) (s : State) : State := if fget (F.CAN_ERR_STATE c.1) s = 2 then putErrState c 3 s else s

/-- RECOVER. -/
def execRecover (w : Initiator) (c : Fin 12) (s : State) : Host.Outcome State Fault Refusal := .next (regCmd w (R.CAN_CMD c.1) (recover c) s)

/-- The effect of CMD.ALONE_RESUME (R284). -/
def aloneResume (c : Fin 12) (s : State) : State := forN 64 (fun b => fput (F.CAN_MB_STAT_b_SUSPENDED c.1 b) 0) s

/-- ALONE_RESUME. -/
def execAloneResume (w : Initiator) (c : Fin 12) (s : State) : Host.Outcome State Fault Refusal := .next (regCmd w (R.CAN_CMD c.1) (aloneResume c) s)

/-! ### The matrix as commands (R280-R283) -/

/-- TT_COLUMN_MARK (R280): the window of a column opens, and an exclusive one starts its buffer if the bus is free; on a busy bus CAN_TX_START does within TXEN bit times. -/
def execTtColumnMark (c : Fin 12) (k : ColMark) (s : State) : Host.Outcome State Fault Refusal :=
  .next (
    match (canSt c s).cycleAt with
    | none => s
    | some at_ =>
      if !ftst (F.CAN_CTRL_TT_EN c.1) s || !canOn c s then s
      else
        let s := closeWindow c (elapseTo (at_ + fget (F.CAN_TT_MARK_k c.1 k.col.1) s) s)
        let y := fget (F.CAN_TT_STATUS_CYCLE c.1) s
        let type := fget (F.CAN_TT_CELL_y_k_TYPE c.1 y k.col.1) s
        let mb := fget (F.CAN_TT_CELL_y_k_MB c.1 y k.col.1) s
        let en := clampNat 1 16 (fget (F.CAN_TT_CFG_TXEN c.1) s)
        let s := updCan c (fun x => { x with window := some ⟨type, mb, s.now + canBitsNs en c s, false⟩ }) s
        if type = 1 ∧ k.busBusy = false ∧ canMaySend c s = true then
          match canChoose c s with
          | some x => startItem c x true s
          | none => s
        else s)

/-- The anchor of the reference grid in ns (R297). -/
def ttAnchor (c : Fin 12) (s : State) : Nat :=
  (fget (F.CAN_TT_ANCHOR_SEC_LO c.1) s + 2 ^ 32 * fget (F.CAN_TT_ANCHOR_SEC_HI c.1) s) * secNs + fget (F.CAN_TT_ANCHOR_NS c.1) s

/-- The basic cycle in ns. -/
def ttCycleNs (c : Fin 12) (s : State) : Nat := max 1 (fget (F.CAN_TT_CYCLE_NS c.1) s)

/-- Whether a controller is a master, and whether it is locked to VT. -/
def ttMaster (c : Fin 12) (s : State) : Bool := ftst (F.CAN_CTRL_TT_EN c.1) s && ftst (F.CAN_TT_CFG_ROLE c.1) s
def ttLocked (c : Fin 12) (s : State) : Bool := ttMaster c s && ftst (F.CAN_TT_CFG_VT_LOCK c.1) s

/-- TT_REFERENCE_DUE (R281, R282): on the VT grid, or one basic cycle after the latest reference; on a busy bus it enters arbitration when the bus next becomes idle. -/
def execTtReferenceDue (c : Fin 12) (busBusy : Bool) (s : State) : Host.Outcome State Fault Refusal :=
  .next (
    if !ttMaster c s || !canOn c s then s
    else
      let k := (canSt c s).refNext
      let s := if ttLocked c s then elapseVt ((ttAnchor c s + k * ttCycleNs c s) * nsUnit) s
        else match (canSt c s).lastRef with
          | some t => elapseTo (t + ttCycleNs c s) s
          | none => s
      let s := updCan c (fun x => { x with refNext := k + 1 }) s
      if busBusy || !canMaySend c s then
        let s := updCan c (fun x => { x with refDue := some k }) s
        if ttLocked c s then canEvent c canRefLate s else s
      else startReference c k s)

/-- TT_REFERENCE_TIMEOUT (R281). -/
def execTtReferenceTimeout (c : Fin 12) (s : State) : Host.Outcome State Fault Refusal :=
  .next (
    match (canSt c s).lastRef with
    | none => s
    | some t =>
      if ttMaster c s || !ftst (F.CAN_CTRL_TT_EN c.1) s || !ftst (F.CAN_TT_STATUS_SYNC c.1) s then s
      else
        let s := elapseTo (t + ttCycleNs c s * 3 / 2) s
        canEvent c canTtErr (fput (F.CAN_TT_STATUS_SYNC c.1) 0 (updCan c (fun x => { x with cycleAt := none, window := none }) s)))

/-- After a step or SET, a VT-locked master skips the instants that VT has passed (R283). -/
def ttAfterStep (s : State) : State :=
  forFin 12 (fun c s =>
    if !ttLocked c s || !canOn c s then s
    else
      let k := (canSt c s).refNext
      let v := vtNs s
      if v ≤ ttAnchor c s + k * ttCycleNs c s then s
      else
        let k' := (v - ttAnchor c s + ttCycleNs c s - 1) / ttCycleNs c s
        let s := updCan c (fun x => { x with refNext := k' }) s
        whenB (decide (k < k')) (fun s => canEvent c canTtSkip (bumpBy (k' - k) (R.CAN_TT_SKIP_CNT c.1) s)) s) s

/-- CTRL.EN takes a VT-locked master onto its grid: the first instant that is not in the past (R282). -/
def ttStart (c : Fin 12) (s : State) : State :=
  let v := vtNs s
  let k := if v ≤ ttAnchor c s then 0 else (v - ttAnchor c s + ttCycleNs c s - 1) / ttCycleNs c s
  updCan c (fun x => { x with refNext := if ttLocked c s then k else 0, refDue := none, cycleAt := none, lastRef := none, window := none }) s

/-- Whether a write of CTRL.EN = 1 is refused for its time-triggered configuration (R282). -/
def ttBad (c : Fin 12) (s : State) : Bool :=
  ttLocked c s && (decide (secNs ≤ fget (F.CAN_TT_ANCHOR_NS c.1) s)
    || decide (fget (F.CAN_TT_CYCLE_NS c.1) s < 50000) || decide (1000000000 < fget (F.CAN_TT_CYCLE_NS c.1) s))

/-! ### Engine receive items (R262) -/

/-- The head of the receive queue as a descriptor without its handle: kind, length, words 1-3 (R262). -/
def canHead (c : Fin 12) (s : State) : Option (Fin 32 × MailItem) :=
  (canSt c s).rxq.head?.map fun i =>
    let w (k : Nat) := (rd (R.CAN_RXE_i_w c.1 i.1 k) s).toNat
    let kind := bits (w 1) 23 16
    (i, ⟨kind, bits (w 1) 15 0, (w 0, w 5, if kind / 8 % 2 = 1 then w 7 else w 6), none⟩)

/-- An engine takes the head of the receive queue. -/
def canTake (c : Fin 12) (i : Fin 32) (s : State) : State := updCan c (fun x => { x with rxq := x.rxq.erase i, engHeld := x.engHeld ++ [i] }) s

/-! ### Resets and the loss of a domain (R287) -/

/-- Every pending and held item of a controller ends, and the controller forgets what it held. -/
def canAbort (c : Fin 12) (st : Status) (s : State) : State :=
  let s := (canSt c s).items.foldl (fun s x => canFinish c x st none s) s
  let s := endHolds (fun h => h.qid == canRxQid c) st s
  updCan c (fun x => { CanSt.init with engCount := x.engCount }) s

/-- The registers of a controller return to their reset values. -/
def canRegsReset (c : Fin 12) (s : State) : State := dropRegs (0x10000000 + 0x10000 * c.1) (0x10010000 + 0x10000 * c.1) s

/-- A reset of a controller (R287). -/
def canReset (c : Fin 12) (s : State) : State := canRegsReset c (canAbort c .abortedReset s)

/-! ### Counters -/

/-- The counters of a controller (R295). -/
def canCounters (c : Nat) : List Nat :=
  [R.CAN_TX_OK c, R.CAN_RX_OK c, R.CAN_RX_DROP c, R.CAN_BUS_OFF_CNT c, R.CAN_TXCPL_OVF c, R.CAN_CANCEL_LATE_CNT c, R.CAN_ACK_ERR c, R.CAN_TT_MISS c, R.CAN_TT_SKIP_CNT c]
    ++ (List.range 8).map (R.CAN_CPL_CNT_s c)

/-- CAN_CNT_CLR. -/
def execCanCntClr (w : Initiator) (c : Fin 12) (s : State) : Host.Outcome State Fault Refusal := .next (regCmd w (R.CAN_CNT_CLR c.1) (clearRegs (canCounters c.1)) s)

end Sys2Proof.Machine
end

