-- ==== Sys2Proof/Machine/Lin.lean ====
section
/-!
DEFINITION. The LIN commander channels (chapter 07, R289-R293).
-/
namespace Sys2Proof.Machine

/-- A channel. -/
def linSt (l : Fin 6) (s : State) : LinSt := s.lin[l.1]

/-- Changes a channel. -/
def updLin (l : Fin 6) (f : LinSt → LinSt) (s : State) : State := { s with lin := upd s.lin l f }

def linResp : Nat := 0
def linNoResp : Nat := 1
def linErr : Nat := 2
def linWakeRx : Nat := 3
def linBusStuck : Nat := 4

/-- Raises an event of a channel. -/
def linEvent (l : Fin 6) (n : Nat) (s : State) : State := raise (F.LIN_EVENT l.1) n s

def linIdle : Nat := 0
def linHeader : Nat := 1
def linResponse : Nat := 2
def linPulse : Nat := 3

/-- The state of a channel (R298). -/
def linState (l : Fin 6) (s : State) : Nat := fget (F.LIN_STATUS_STATE l.1) s

/-- Whether a channel works: on, and its fabric running. -/
def linOn (l : Fin 6) (s : State) : Bool := ftst (F.LIN_CFG_EN l.1) s && cwyOpen s

/-- Shows how many requests wait. -/
def showReqs (l : Fin 6) (s : State) : State := fput (F.LIN_STATUS_REQ_FILL l.1) (min 4 ((linSt l s).reqs.filter fun r => !r.internal).length) s

/-- The segment of a channel (R334). -/
def linSeg (l : Fin 6) : Fin 35 := ⟨29 + l.1, by omega⟩

/-- A bit time of a channel in ns. -/
def linBitNs (l : Fin 6) (s : State) : Nat := secNs / clampNat 1000 20000 (fget (F.LIN_BAUD_BPS l.1) s)

/-- A request of a thread (R290, R344): the answer is the push status. -/
def linPush (l : Fin 6) (w0 w1 w2 w3 : Nat) (s : State) : Status × State :=
  let kind := bits w0 15 8
  let len := bits w0 31 16
  let r : LinReq := ⟨bits w0 7 0, kind, len, bits w1 5 0, bits w1 8 8 == 1, (wordBytes [w2, w3]).take len, false, false⟩
  let okKind := (kind = 0x60 ∨ kind = 0x61) ∧ 1 ≤ len ∧ len ≤ 8 ∨ kind = 0x62 ∧ len = 0
  if ¬ okKind ∨ 4 ≤ ((linSt l s).reqs.filter fun r => !r.internal).length then (.failedRefused, s)
  else match sluice (linSeg l) r.ident s with
    | (.refuse, s) => (.failedRefused, s)
    | (v, s) => (.done, showReqs l (updLin l (fun x => { x with reqs := x.reqs ++ [{ r with held := v == .hold }] }) s))

/-- A protected identifier: two parity bits over the six identifier bits (R289; the polynomials are PRESUMED of ISO 17987, assumption 18). -/
def linPid (ident : Nat) : Nat :=
  let b (i : Nat) : Nat := ident / 2 ^ i % 2
  ident % 64 + (b 0 + b 1 + b 2 + b 4) % 2 * 64 + (1 + b 1 + b 3 + b 4 + b 5) % 2 * 128

/-- The checksum of a frame (R289): the inverted sum with carry of the data, of the enhanced one with the protected identifier (PRESUMED of ISO 17987). -/
def linChecksum (enhanced : Bool) (ident : Nat) (d : List Byte) : Byte :=
  let add (x y : Nat) : Nat := if 255 < x + y then x + y - 255 else x + y
  BitVec.ofNat 8 (255 - (d.map BitVec.toNat).foldl add (if enhanced then linPid ident else 0))

/-- What a channel drives for a request: the protected identifier, and of a publish the data and the checksum. -/
def linWire (r : LinReq) : List Byte :=
  if r.kind = 0x62 then []
  else BitVec.ofNat 8 (linPid r.ident) :: if r.kind = 0x60 then r.data ++ [linChecksum r.enhanced r.ident r.data] else []

/-- The response-queue entries that are free: 16, less those filled and the one reserved for the request on the bus (R290). -/
def linFree (l : Fin 6) (s : State) : Nat :=
  16 - (linSt l s).resp.length - (match (linSt l s).cur with | some r => if r.internal then 0 else 1 | none => 0)

/-- The response item of a request (R291). -/
def linItem (r : LinReq) (st : Status) (len noResp sum bit frame : Nat) (d : List Byte) : MailItem :=
  ⟨0x68, len, (r.ident + 256 * st.code + 65536 * r.tag + 2 ^ 24 * noResp + 2 ^ 25 * sum + 2 ^ 26 * bit + 2 ^ 27 * frame, byteWord d 0, byteWord d 1), none⟩

/-- A channel is idle again. -/
def linRest (l : Fin 6) (s : State) : State := showReqs l (fput (F.LIN_STATUS_STATE l.1) linIdle (updLin l (fun x => { x with cur := none }) s))

/-- The request on the bus ends with a response item (R291); an internal one has none. -/
def linFinish (l : Fin 6) (st : Status) (len noResp sum bit frame : Nat) (d : List Byte) (s : State) : State :=
  match (linSt l s).cur with
  | none => s
  | some r =>
    let s := linRest l s
    if r.internal then s
    else
      let s := linEvent l linResp (updLin l (fun x => { x with resp := x.resp ++ [linItem r st len noResp sum bit frame d] }) s)
      if st = .done then bump (R.LIN_FRAMES_OK l.1) s else linEvent l (if noResp = 1 then linNoResp else linErr) (bump (R.LIN_ERRORS l.1) s)

/-- LIN_HEADER_START (R290): the oldest request that is not held starts, when a response entry is free for it; a wake pulse starts in its place. -/
def execLinHeaderStart (l : Fin 6) (s : State) : Host.Outcome State Fault Refusal :=
  .next (
    if !linOn l s || linState l s != linIdle then s
    else match (linSt l s).reqs.find? fun r => !r.held with
      | none => s
      | some r =>
        if !r.internal && linFree l s == 0 then s
        else
          let s := updLin l (fun x => { x with reqs := x.reqs.erase r, cur := some r, wire := linWire r }) s
          let bitNs := linBitNs l s
          if r.kind = 0x62 then
            let s := updLin l (fun x => { x with pulseEnd := s.now + clampNat 250 5000 (fget (F.LIN_WAKE_US l.1) s) * 1000 }) s
            showReqs l (fput (F.LIN_STATUS_STATE l.1) linPulse s)
          else
            let headBits := 13 + fget (F.LIN_CFG_BREAK_EXT l.1) s + 1 + fget (F.LIN_CFG_DELIM l.1) s + 20
            let s := updLin l (fun x => { x with headerEnd := s.now + headBits * bitNs }) s
            showReqs l (fput (F.LIN_STATUS_STATE l.1) linHeader s))

/-- LIN_RESPONSE_END (R291): the data received after the header, and the byte behind them, the checksum, where it came; a bit error of the channel's own; a
framing error. -/
def execLinResponseEnd (l : Fin 6) (data : List Byte) (sum : Option Byte) (bitBad frameBad : Bool) (s : State) : Host.Outcome State Fault Refusal :=
  .next (
    match (linSt l s).cur with
    | none => s
    | some r =>
      if r.kind = 0x62 then s
      else
        let bytes := data ++ sum.toList
        let data := bytes.take r.len
        let checksumBad := decide (r.len < bytes.length) && bytes.getD r.len 0 != linChecksum r.enhanced r.ident data
        let s := elapseTo (linSt l s).headerEnd s
        let errs := checksumBad || bitBad || frameBad
        if r.kind = 0x60 then linFinish l (if bitBad then .failedBus else .done) r.len 0 0 bitBad.toNat 0 [] s
        else
          let st := if errs ∨ bytes.length ≤ r.len then Status.failedBus else .done
          linFinish l st data.length 0 checksumBad.toNat bitBad.toNat frameBad.toNat data s)

/-- The time a subscribe waits for its first byte, in bit times after the header (R291). -/
def linWaitBits (l : Fin 6) (r : LinReq) (s : State) : Nat := (10 + fget (F.LIN_CFG_TOL l.1) s) * (r.len + 1)

/-- LIN_RESPONSE_TIMEOUT (R291). -/
def execLinResponseTimeout (l : Fin 6) (s : State) : Host.Outcome State Fault Refusal :=
  .next (
    match (linSt l s).cur with
    | none => s
    | some r =>
      if r.kind ≠ 0x61 then s
      else linFinish l .failedTimeout 0 1 0 0 0 [] (elapseTo ((linSt l s).headerEnd + linWaitBits l r s * linBitNs l s) s))

/-- BUS_STUCK (R291). -/
def execBusStuck (l : Fin 6) (s : State) : Host.Outcome State Fault Refusal :=
  .next (if linOn l s then linFinish l .failedBus 0 0 0 0 0 [] (linEvent l linBusStuck s) else s)

/-- LIN_WAKE_PULSE_END (R292); requests that the Sluice held for the pulse start 100 ms later (R344). -/
def execLinWakePulseEnd (l : Fin 6) (s : State) : Host.Outcome State Fault Refusal :=
  .next (
    match (linSt l s).cur with
    | none => s
    | some r =>
      if r.kind ≠ 0x62 then s
      else
        let s := linFinish l .done 0 0 0 0 0 [] (elapseTo (linSt l s).pulseEnd s)
        if r.internal then updLin l (fun x => { x with release := some (s.now + 100000000) }) s else s)

/-- WAKE_RX (R292): a dominant phase of so many us, received by an idle channel. -/
def execWakeRx (l : Fin 6) (us : Nat) (s : State) : Host.Outcome State Fault Refusal :=
  .next (
    if linState l s = linIdle ∧ 150 ≤ us ∧ us ≤ 5000 then
      let s := if linOn l s then linEvent l linWakeRx s else s
      segWakeInput (linSeg l) wakeLin s
    else s)

/-- SLUICE_LIN_RELEASE (R344): held requests may start 100 ms after the NM block's pulse. -/
def execSluiceLinRelease (l : Fin 6) (s : State) : Host.Outcome State Fault Refusal :=
  .next (
    match (linSt l s).release with
    | none => s
    | some t => updLin l (fun x => { x with release := none, reqs := x.reqs.map fun r => { r with held := false } }) (elapseTo t s))

/-- A reset of a channel (R293): each unanswered request ends ABORTED_RESET and is counted, both queues are cleared. -/
def linReset (l : Fin 6) (s : State) : State :=
  let x := linSt l s
  let n := (x.reqs.filter fun r => !r.internal).length + (match x.cur with | some r => if r.internal then 0 else 1 | none => 0)
  let s := updLin l (fun _ => LinSt.init) s
  let s := endHolds (fun h => h.qid == 0x141 + 2 * l.1) .abortedReset s
  let cnt := (rd (R.LIN_ABORT_CNT l.1) s).toNat + n
  let s := dropRegs (0x10100000 + 0x1000 * l.1) (0x10101000 + 0x1000 * l.1) s
  bumpBy cnt (R.LIN_ABORT_CNT l.1) s

/-- The counters of a channel (R298). -/
def linCounters (l : Nat) : List Nat := [R.LIN_FRAMES_OK l, R.LIN_ERRORS l, R.LIN_ABORT_CNT l]

/-- LIN_CNT_CLR. -/
def execLinCntClr (w : Initiator) (l : Fin 6) (s : State) : Host.Outcome State Fault Refusal := .next (regCmd w (R.LIN_CNT_CLR l.1) (clearRegs (linCounters l.1)) s)

end Sys2Proof.Machine
end

