-- ==== Sys2Proof/Machine/Switch.lean ====
section
/-!
DEFINITION. The switch, fourth part: reception, transmission, sleep, planes, tables, host rings, and the meanings of its commands.
-/
namespace Sys2Proof.Machine

/-! ### Transmission (R222, R225, R233) -/

/-- Whether a class of a port is preemptable now (R233). -/
def preemptable (p c : Nat) (s : State) : Bool :=
  decide (p < 6) && ftst (F.SW_PORT_STATUS_p_PREEMPT_ACTIVE p) s && fget (F.SW_PREEMPT_p_MASK p) s / 2 ^ c % 2 == 1

/-- Whether a port can send: enabled, its plane there, and, where it has a wire, its link up. -/
def portCanSend (p : Nat) (s : State) : Bool :=
  ftst (F.SW_PORT_CFG_p_EN p) s && planeOk (planeOf p s) s
    && (decide (18 ≤ p) || (ftst (F.SW_PORT_STATUS_p_LINK p) s && !portShut p s))

/-- The wire form of a frame at a port (R203, R218): the tag is removed where the VLAN says so, and a marked frame carries the port's stamp. -/
def wireBytes (p : Nat) (f : SwFrame) (s : State) : List Byte :=
  let (sec, ns, frac) := vtParts (egressStamp p s)
  let stamp := beBytes 6 sec ++ beBytes 4 ns ++ beBytes 2 frac
  let b := match f.mark with
    | some (o, short) => let d := if short then stamp.take 10 else stamp; f.bytes.take o ++ d ++ f.bytes.drop (o + d.length)
    | none => f.bytes
  egressBytes p f.vid b s

/-- Whether the head frame of a class may start (R222, R225). -/
def classReady (p c : Nat) (s : State) : Bool :=
  match queueOf p c s with
  | [] => false
  | (f, _) :: _ =>
    let pre := preemptable p c s
    gateUp p c s && creditOk p c s && !(pre && gateHold p s)
      && (pre || (match openTime p c s with
        | none => true
        | some t => decide (frameTime p ((wireBytes p f s).length + 4) * 65536 ≤ t)))

/-- The highest class that may start, of those a condition allows. -/
def readyClass (p : Nat) (ok : Nat → Bool) (s : State) : Option Nat := (mask 8 fun c => ok c && classReady p c s).getLast?

/-- Takes the head frame of a class from its queue. -/
def takeHead (p c : Nat) (s : State) : Option (SwFrame × SwCopy × State) :=
  match queueOf p c s with
  | [] => none
  | (f, k) :: _ => some (f, k, updFrame f.id (fun f => { f with copies := f.copies.erase k, out := f.out + 1 }) s)

/-- Starts the head frame of a class on the wire. -/
def startTx (p : Fin 18) (c : Nat) (stomped : Bool) (s : State) : State :=
  match takeHead p.1 c s with
  | none => s
  | some (f, k, s) =>
    let b := wireBytes p.1 f s
    let t : SwTx := ⟨f.id, c, k.half, b, stomped, egressStamp p.1 s, rawCount s, s.now + frameTime p.1 (b.length + 4), k.since, s.now⟩
    updSw (fun w => { w with tx := upd w.tx p fun _ => some t }) s

/-- The last byte of the frame on the wire leaves (R216, R237, R239). -/
def finishTx (p : Fin 18) (s : State) : State :=
  match s.sw.tx[p.1] with
  | none => s
  | some t =>
    let s := settlePort p.1 (elapseTo t.ends s)
    let s := updSw (fun w => { w with tx := upd w.tx p fun _ => none, lastEnd := upd w.lastEnd p fun _ => s.now }) s
    let s := bump (if t.stomped then R.SW_FCS_STOMP_p p.1 else R.SW_TX_p_c p.1 t.cls) s
    let s := match frameOf t.id s with
      | some f => whenB (f.ingress == portT && isPtp f.bytes && ptpEvent f.bytes) (ptpSent p.1 t.bytes t.stamp t.raw) s
      | none => s
    copyOut t.id t.half .done t.stamp false s

/-- Puts a preemptable frame aside (R233). -/
def preempt (p : Fin 18) (t : SwTx) (s : State) : State :=
  updSw (fun w => { w with
    tx := upd w.tx p fun _ => none
    preempted := upd w.preempted p fun _ => some { t with ends := t.ends - s.now } }) s

/-- Starts the next frame of a free port: an express frame first, then the pre-empted one goes on, then a preemptable one. -/
def selectNext (p : Fin 18) (s : State) : State :=
  let express := readyClass p.1 (fun c => !preemptable p.1 c s) s
  match s.sw.preempted[p.1], express with
  | some _, some c => startTx p c false s
  | some t, none =>
    if gateUp p.1 t.cls s && !gateHold p.1 s then
      updSw (fun w => { w with
        tx := upd w.tx p fun _ => some { t with ends := s.now + t.ends, frag := s.now }
        preempted := upd w.preempted p fun _ => none }) s
    else s
  | none, _ =>
    match readyClass p.1 (fun _ => true) s with
    | some c => startTx p c false s
    | none => s

/-- The instant from which the frame on a wire may be cut: its fragment is as long as ADD_FRAG asks, and 64 bytes are left (R233, R251; the least last fragment is PRESUMED of
IEEE 802.3br); none when no cut is left. -/
def cutPoint (p : Fin 18) (t : SwTx) (s : State) : Option Nat :=
  let at_ := max s.now (t.frag + frameTime p.1 (64 + 64 * fget (F.SW_PREEMPT_p_ADD_FRAG p.1) s))
  if at_ + frameTime p.1 64 ≤ t.ends then some at_ else none

/-- The next transmit opportunity of a PLCA port on a quiet segment, after its own last frame (R210; its order and the beacon of 20 bit times are PRESUMED of IEEE 802.3cg): the other
nodes' opportunities pass first. None: a node that the segment does not count has no opportunity. -/
def plcaDue (p : Fin 18) (s : State) : Option Nat :=
  if decide (p.1 < 14) || !ftst (F.SW_PLCA_p_EN p.1) s then some s.now
  else
    let n := clampNat 1 32 (fget (F.SW_PLCA_p_NODE_COUNT p.1) s)
    if n ≤ fget (F.SW_PLCA_p_NODE_ID p.1) s then none
    else some (s.sw.lastEnd[p.1] + ((n - 1) * fget (F.SW_PLCA_p_TO_TIMER p.1) s + 20) * 100)

/-- Starts the next frame of a port that is free, at its transmit opportunity. -/
def selectFree (p : Fin 18) (s : State) : State :=
  match plcaDue p s with
  | none => s
  | some t => if portWaits p.1 s then selectNext p (settlePort p.1 (elapseTo t s)) else selectNext p s

/-- Transmission selection on a port with a wire. -/
def selectWire (p : Fin 18) (s : State) : State :=
  let s := settlePort p.1 s
  if !portCanSend p.1 s then s
  else match s.sw.tx[p.1] with
    | none => selectFree p s
    | some t =>
      let cut := preemptable p.1 t.cls s && s.sw.preempted[p.1].isNone
        && (!gateUp p.1 t.cls s || gateHold p.1 s || (readyClass p.1 (fun c => !preemptable p.1 c s) s).isSome)
      match if cut then cutPoint p t s else none with
      | some at_ =>
        let s := settlePort p.1 (elapseTo at_ s)
        selectNext p (preempt p t s)
      | none => selectFree p (finishTx p s)

/-! ### Internal egress ports (R234, R238) -/

/-- Gives a host's receive ring a frame (R238); the answer is the status of the copy. -/
def hostRx (h : Fin 2) (c : Nat) (f : SwFrame) (s : State) : Status × State :=
  let r := 8 + c
  let n := ringSize h r s
  let d := fget (F.SW_RING_HEAD_h_r h.1 r) s
  let a := ringBase h r s + 32 * d
  let empty (s : State) : Status × State := (.failedRefused, bump (R.SW_QLIM_CNT_p_c (18 + h.1) c) s)
  if n = 0 ∨ d = fget (F.SW_RING_TAIL_h_r h.1 r) s then empty s
  else match dmaRead hostIdent a 32 s with
    | (none, s) => empty s
    | (some desc, s) =>
      if leNat ((desc.drop 10).take 1) / 2 % 2 = 0 then empty s
      else
        let len := f.bytes.length + 4
        let (st, s) :=
          if leNat ((desc.drop 8).take 2) < len then (Status.failedRefused, s)
          else match dmaWrite hostIdent (leNat (desc.take 5)) (withFcs f.bytes) s with
            | (true, s) => (.done, s)
            | (false, s) => (.failedBus, s)
        let s := mwrBytes (a + 8) (leBytes 2 len ++ [0, BitVec.ofNat 8 st.code] ++ leBytes 4 f.ingress ++ runBytes f.stamp ++ leBytes 4 0) s
        let s := fput (F.SW_RING_HEAD_h_r h.1 r) ((d + 1) % n) s
        (st, pulse (88 + 8 * h.1 + c) s)

/-- A frame reaches a host port: instances first, then the port's own rings (R496). -/
def hostDeliver (h : Fin 2) (c : Nat) (f : SwFrame) (s : State) : Status × State :=
  match vqiDeliver (h == 1) f.bytes f.vid c f.ingress f.stamp s with
  | (true, s) => (.done, s)
  | (false, s) => hostRx h c f s

/-- A frame reaches port E: a packet item on the pop queue of its class, of 16 entries (R234). -/
def portEDeliver (c : Fin 8) (f : SwFrame) (half : Bool) (s : State) : Status × State :=
  if 16 ≤ s.sw.eQueue[c.1].length then (.failedRefused, bump (R.SW_QLIM_CNT_p_c portE c.1) s)
  else
    let x : MailItem := ⟨0x40 + f.ingress, f.bytes.length + 4, stampWords f.stamp, some ⟨f.bytes, some c.1, none, some (f.id, half)⟩⟩
    (.done, updSw (fun w => { w with eQueue := upd w.eQueue c fun l => l ++ [x] }) s)

/-- Transmission selection on an internal port: the frame is there at once. -/
def selectInternal (p : Nat) (s : State) : State :=
  let s := settlePort p s
  if !portCanSend p s then s
  else match readyClass p (fun _ => true) s with
    | none => s
    | some c =>
      match takeHead p c s with
      | none => s
      | some (f, k, s) =>
        let g := { f with bytes := wireBytes p f s }
        let (st, s) := if p = portE then portEDeliver (Fin.ofNat 8 c) g k.half s else hostDeliver (Fin.ofNat 2 (p - 18)) c g s
        let s := whenB (st == .done) (fun s => payCredit p c (g.bytes.length + 4) (bump (R.SW_TX_p_c p c) s)) s
        copyOut f.id k.half st (egressStamp p s) (p == portE && st == .done) s

/-- TRANSMISSION_SELECTION (R222). A frame on the wire ends first, unless an express frame pre-empts it. -/
def execTransmissionSelection (p : Fin 23) (s : State) : Host.Outcome State Fault Refusal :=
  .next (
    let s := launchDue s
    if h : p.1 < 18 then selectWire ⟨p.1, h⟩ s
    else if p.1 ≤ 20 then selectInternal p.1 s
    else s)

/-- FRAME_TX_COMPLETE (R239). -/
def execFrameTxComplete (p : Fin 18) (s : State) : Host.Outcome State Fault Refusal := .next (finishTx p s)

/-! ### Reception (R211, R215, R216, R236) -/

/-- Whether a frame just admitted goes cut-through (R215): its egress port and class. -/
def cutThrough (p id : Nat) (before s : State) : Option (Fin 18 × Nat) :=
  match frameOf id s with
  | some f =>
    match f.copies with
    | [k] =>
      if h : k.port < 18 then
        if f.single ∧ portRate k.port ≤ portRate p ∧ ftst (F.SW_PORT_CFG_p_CUT_THRU p) s ∧ (queueOf k.port k.cls before).isEmpty
            ∧ (txOf k.port before).isNone ∧ (s.sw.preempted[k.port].isNone ∨ preemptable k.port k.cls s = false) ∧ plcaDue ⟨k.port, h⟩ s = some s.now ∧ classReady k.port k.cls s ∧ portCanSend k.port s
            ∧ (streamOf p f.vid ((tagOf f.bytes).map Prod.fst |>.getD 0) f.bytes s).bind (fun h => recoveryOf h s) = none then some (⟨k.port, h⟩, k.cls)
        else none
      else none
    | _ => none
  | none => none

/-- FRAME_RECEIVE (R217): the bytes are those of the frame from its destination address on, without its FCS. -/
def execFrameReceive (p : Fin 18) (bytes : List Byte) (fcsOk : Bool) (s : State) : Host.Outcome State Fault Refusal :=
  .next (
    let len := bytes.length + 4
    if !ftst (F.SW_PORT_CFG_p_EN p.1) s || !ftst F.SW_CTRL_EN s || !islOpen islSWP s then s
    else if portShut p.1 s then bump (R.SW_FLUSH_p_c p.1 (pcpClass p.1 (framePcp p.1 bytes s) s)) s
    else if 1522 < len then bump (R.SW_OVERSIZE_p p.1) s
    else if len < 64 then bump (R.SW_FCS_ERR_p p.1) s
    else if isPtp bytes then
      if !fcsOk then bump (R.SW_FCS_ERR_p p.1) s
      else match ptpIngress p.1 (pcpClass p.1 (framePcp p.1 bytes s) s) bytes s with
        | (none, s) => s
        | (some _, t) => ptpDeliver p.1 bytes (ingressStamp p.1 s) (rawCount s) t
    else
      let s := whenB fcsOk (wispFromBackbone p.1 bytes) s
      let id := s.sw.nextId
      let t := ingressFrame ⟨p.1, none, .none, none, none, fcsOk⟩ bytes s
      match cutThrough p.1 id s t with
      | some (q, c) =>
        if fcsOk then startTx q c false t else bump (R.SW_FCS_ERR_p p.1) (startTx q c true t)
      | none => if fcsOk then t else bump (R.SW_FCS_ERR_p p.1) s)

/-! ### Gates and shaping (R224-R229) -/

/-- GATE_ENTRY (R224): the next entry of a running list comes into force. -/
def execGateEntry (p : Fin 23) (s : State) : Host.Outcome State Fault Refusal :=
  .next (
    if !gateRuns p.1 s then s
    else match gateRest p.1 s with
      | [] => s
      | g :: _ => settlePort p.1 (elapseVt ((vt16 s + g.len) * 2 ^ 32) (settlePort p.1 s)))

/-- GATE_CHANGE_ARM (R226). -/
def execGateChangeArm (w : Initiator) (p : Fin 23) (s : State) : Host.Outcome State Fault Refusal :=
  .next (regCmd w (R.SW_GATE_CTRL_p p.1) (gateArm p) s)

/-- GATE_CHANGE (R226). -/
def execGateChange (p : Fin 23) (s : State) : Host.Outcome State Fault Refusal :=
  .next (
    match gateArmed p.1 s with
    | none => s
    | some a => settlePort p.1 (gateSwap p (settlePort p.1 (elapseVt (a.at_ * nsUnit) s))))

/-- STREAM_GATE_ENTRY (R229, R254). -/
def execStreamGateEntry (g : Fin 256) (s : State) : Host.Outcome State Fault Refusal :=
  .next (
    if sgateRuns g.1 s then
      match sgateRest g.1 s with
      | e :: _ => sgateCommit (elapseVt ((vt16 s + e.len) * 2 ^ 32) s)
      | [] => sgateCommit s
    else sgateCommit s)

/-- FRER_RESET_TIMEOUT (R232). -/
def execFrerResetTimeout (f : Fin 128) (s : State) : Host.Outcome State Fault Refusal :=
  .next (
    let r := frerGet f.1 s
    match r.last0, r.last1 with
    | some a, some b =>
      let limit := frerTimeout f.1 s
      let s := elapseTo (max a b + limit) s
      let silent := decide (limit ≤ max a b - min a b) && eb (tblGet tblFrerRec f.1 s) 0 23 23 == 1
      let s := whenB silent (raise F.SW_EVENT swFrerLatent) s
      frerPut f.1 ⟨true, r.seq, 0, none, none, none⟩ s
    | _, _ => s)

/-! ### Pre-emption (R233) -/

/-- Pre-emption of a port after a change of PREEMPT or of the link: off, active without verification, or to be verified. -/
def preemptStart (p : Fin 6) (s : State) : State :=
  let on := ftst (F.SW_PREEMPT_p_EN p.1) s && ftst (F.SW_PREEMPT_p_VERIFY_DIS p.1) s && ftst (F.SW_PORT_STATUS_p_LINK p.1) s
  fput (F.SW_PORT_STATUS_p_PREEMPT_ACTIVE p.1) on.toNat (updSw (fun w => { w with verify := upd w.verify p fun _ => 0, verifyAt := upd w.verifyAt p fun _ => s.now }) s)

/-- Whether the verify exchange of a port still runs (R233): asked for, not answered yet, and fewer than three times without an answer. -/
def verifying (p : Fin 6) (s : State) : Bool :=
  ftst (F.SW_PREEMPT_p_EN p.1) s && !ftst (F.SW_PREEMPT_p_VERIFY_DIS p.1) s && ftst (F.SW_PORT_STATUS_p_LINK p.1) s
    && !ftst (F.SW_PORT_STATUS_p_PREEMPT_ACTIVE p.1) s && decide (s.sw.verify[p.1] < 3)

/-- PREEMPT_VERIFY (R233): one of the three exchanges, and whether it was answered within VERIFY_TIME. -/
def execPreemptVerify (p : Fin 6) (answered : Bool) (s : State) : Host.Outcome State Fault Refusal :=
  .next (
    if !verifying p s then s
    else if answered then fput (F.SW_PORT_STATUS_p_PREEMPT_ACTIVE p.1) 1 s
    else
      let s := elapseTo (s.sw.verifyAt[p.1] + fget (F.SW_PREEMPT_p_VERIFY_TIME p.1) s * 1000000) s
      updSw (fun w => { w with verify := upd w.verify p (· + 1), verifyAt := upd w.verifyAt p fun _ => s.now }) s)

/-! ### Ageing (R220, R240) -/

/-- The residence limit in ns (R248). -/
def maxRes (s : State) : Nat := clampNat 1 1000 (fget F.SW_CTRL_MAX_RES s) * 1000000

/-- FRAME_AGED (R240): the oldest frame of a queue. -/
def execFrameAged (p : Fin 23) (c : Fin 8) (s : State) : Host.Outcome State Fault Refusal :=
  .next (
    match queueOf p.1 c.1 s with
    | [] => s
    | (f, k) :: _ =>
      let s := settlePort p.1 (elapseTo (k.since + maxRes s) s)
      copyFail f.id k .failedTimeout (bump (R.SW_AGED_p_c p.1 c.1) s))

/-- ADDRESS_AGEING (R220). -/
def execAddressAgeing (i : Fin 16384) (s : State) : Host.Outcome State Fault Refusal :=
  .next (
    let e := tblGet tblAddr i.1 s
    let age := fget F.SW_CTRL_AGE_S s
    if age = 0 ∨ eb e 2 0 0 = 0 ∨ eb e 2 1 1 = 1 then s
    else match s.sw.refreshed.find? fun x => x.1 == i.1 with
      | none => s
      | some x =>
        let s := elapseTo (x.2 + age * secNs) s
        tblPut tblAddr i.1 0 (updSw (fun w => { w with refreshed := w.refreshed.filter fun x => x.1 != i.1 }) s))

/-! ### Planes (R213) -/

/-- A copy that waits in a lost half goes on from the other half when the frame is stored there too and the port's queues move; else it is discarded. -/
def moveCopy (b : Bool) (st : Status) (id : Nat) (k : SwCopy) (s : State) : State :=
  let other := s.sw.allocs.any fun a => a.id == id && a.half == !b
  let fixed := k.port < 2 || k.port == portH0 || k.port == portH1
  if other && !fixed then
    let s := updSw (fun w => { w with allocs := w.allocs.map fun a => if a.id = id ∧ a.half = !b then { a with refs := a.refs + 1 } else a }) s
    updFrame id (fun f => { f with copies := f.copies.map fun c => if c = k then { c with half := !b } else c }) s
  else copyFail id k st (bump (R.SW_FLUSH_p_c k.port k.cls) s)

/-- The copy of a transmission that is cut waits again, for `moveCopy` to settle. -/
def cutCopy (p : Fin 18) (t : SwTx) (s : State) : State :=
  updFrame t.id (fun f => { f with out := f.out - 1, copies := ⟨p.1, t.cls, t.since, t.half⟩ :: f.copies }) s

/-- A transmission from a lost half ends. -/
def cutTx (b : Bool) (p : Fin 18) (s : State) : State :=
  let s := match s.sw.tx[p.1] with
    | some t => if t.half = b then cutCopy p t (updSw (fun w => { w with tx := upd w.tx p fun _ => none }) s) else s
    | none => s
  match s.sw.preempted[p.1] with
  | some t => if t.half = b then cutCopy p t (updSw (fun w => { w with preempted := upd w.preempted p fun _ => none }) s) else s
  | none => s

/-- Packet items of port E whose bytes were in a lost half are discarded. -/
def cutItems (b : Bool) (c : Fin 8) (s : State) : State :=
  let gone (x : MailItem) : Bool := match x.pkt with | some p => (match p.alloc with | some (_, h) => h == b | none => false) | none => false
  let k := (s.sw.eQueue[c.1].filter gone).length
  bumpBy k (R.SW_FLUSH_p_c portE c.1) (updSw (fun w => { w with eQueue := upd w.eQueue c fun l => l.filter fun x => !gone x }) s)

/-- A plane is lost (R213), or reset (R239): `st` is the end of what only it held. -/
def planeLost (b : Bool) (st : Status) (s : State) : State :=
  if !planeOk b s then s
  else
    let s := moveVcs b.toNat (raise F.SW_EVENT swPlaneLost (fput (if b then F.SW_STATUS_PLANE1_OK else F.SW_STATUS_PLANE0_OK) 0 s))
    let s := forFin 18 (cutTx b) s
    let s := s.sw.frames.foldl (fun s f => f.copies.foldl (fun s k => if k.half = b then moveCopy b st f.id k s else s) s) s
    let s := forFin 8 (cutItems b) s
    let s := showPool (updSw (fun w => { w with allocs := w.allocs.filter fun a => a.half != b }) s)
    forN 23 (fun p s => if (2 ≤ p ∧ p ≤ 17 ∨ p = portE ∨ p = portT) ∧ planeOf p s = b then fput (F.SW_PORT_STATUS_p_PLANE_NOW p) (!b).toNat s else s) s

/-- A plane runs again (R213, R249). -/
def planeBack (b : Bool) (s : State) : State := fput (if b then F.SW_STATUS_PLANE1_OK else F.SW_STATUS_PLANE0_OK) 1 s

/-- PLANE_RETURN (R213): moved ports whose queues are empty return to their configured plane, once it runs. -/
def execPlaneReturn (s : State) : Host.Outcome State Fault Refusal :=
  .next (forN 23 (fun p s =>
    let cfg := ftst (F.SW_PORT_CFG_p_PLANE p) s
    if (2 ≤ p ∧ p ≤ 17 ∨ p = portE ∨ p = portT) ∧ planeOf p s ≠ cfg ∧ planeOk cfg s ∧ portWaits p s = false then
      fput (F.SW_PORT_STATUS_p_PLANE_NOW p) cfg.toNat s
    else s) s)

/-! ### Host rings (R238, R252) -/

/-- The effect of a write of RING_TAIL (R252). -/
def ringTail (h : Fin 2) (r : Nat) (v : Nat) (s : State) : State := fput (F.SW_RING_TAIL_h_r h.1 r) v s

/-- HOST_RING_TAIL. -/
def execHostRingTail (w : Initiator) (h : Fin 2) (r : Fin 16) (v : BitVec 13) (s : State) : Host.Outcome State Fault Refusal :=
  .next (regCmd w (R.SW_RING_TAIL_h_r h.1 r.1) (ringTail h r.1 v.toNat) s)

/-- HOST_TX_DESCRIPTOR (R238). -/
def execHostTxDescriptor (h : Fin 2) (r : Fin 8) (s : State) : Host.Outcome State Fault Refusal :=
  .next (
    let n := ringSize h r.1 s
    let k : Fin 16 := ⟨8 * h.1 + r.1, by omega⟩
    let d := s.sw.ringNext[k.1]
    if n = 0 ∨ d = fget (F.SW_RING_TAIL_h_r h.1 r.1) s ∨ islOpen islSWP s = false then s
    else match dmaRead hostIdent (ringBase h r.1 s + 32 * d) 32 s with
      | (none, s) => s
      | (some desc, s) =>
        let flags := leNat ((desc.drop 10).take 1)
        if flags / 2 % 2 = 0 then s
        else
          let s := updSw (fun w => { w with ringNext := upd w.ringNext k fun _ => (d + 1) % n }) s
          let len := leNat ((desc.drop 8).take 2)
          let sub := Submitter.host h (4096 * r.1 + d) false (flags % 2 == 1)
          if len < 60 ∨ 1518 < len then submitEnd sub .failedRefused (len + 4) 0 s
          else match dmaRead hostIdent (leNat (desc.take 5)) len s with
            | (none, s) => submitEnd sub .failedBus (len + 4) 0 s
            | (some b, s) => ingressFrame ⟨18 + h.1, some r.1, sub, none, none, true⟩ b s)

/-! ### Port C (R128, R129, R132) -/

/-- The port that a VC's packets go to, if any is forced on them, and whether they have moved (R132). -/
def cameraPort (n : Fin 4) (vc : Fin 16) (s : State) : Option Nat × Bool :=
  let m := fget (F.CAM_VC_CFG_v_PORT_MAP n.1 vc.1) s
  if 2 ≤ m then (none, false)
  else if ftst (F.CAM_VC_CFG_v_FAILOVER n.1 vc.1) s ∧ (s.cam[n.1].moved[vc.1] = true ∨ ringPortUp m s = false) then (some (1 - m), true)
  else (some m, false)

/-- Submits the segments of a sent line through port C, each with the mark of the thread's header. -/
def submitLine (n : Fin 4) (l : CamLine) (header : List Byte) (s : State) : State :=
  let (port, moved) := cameraPort n l.vc s
  let segs := lineFrames l header s.cam[n.1].seqNum[l.vc.1]
  let s := updCam n (fun c => { c with
    seqNum := upd c.seqNum l.vc fun k => (k + segs.length) % 256
    moved := upd c.moved l.vc fun _ => moved }) s
  let s := updSw (fun w => { w with lines := w.lines ++ [⟨n, l.id, l.vc, l.frameSeq, segs.length, false, l.isEnd⟩] }) s
  segs.foldl (fun s b => ingressFrame ⟨portC, some (framePcp portC b s), .camera n l.id, l.mark, port, true⟩ b s) s

/-- A sent line leaves staging for the switch. -/
def freeLine (n : Fin 4) (l : CamLine) (s : State) : State := submitLine n l (l.header.getD []) (unstage n l.id s)

/-- A camera port stops for good: what the packetiser has goes on, held and staged lines end (R135). -/
def camClose (n : Fin 4) (st : Status) (s : State) : State :=
  let s := endHolds (fun h => h.qid == 0x010 + n.1) st s
  camFlush n ((s.cam[n.1].staged.filter fun l => l.header.isSome).foldl (fun s l => freeLine n l s) s)

/-- LINE_STAGING_FREE: the packetiser passes the oldest sent line to the switch, and its staging is free (R128, R129). -/
def execLineStagingFree (n : Fin 4) (s : State) : Host.Outcome State Fault Refusal :=
  .next (
    match s.cam[n.1].staged.find? fun l => l.header.isSome with
    | none => s
    | some l => freeLine n l s)

/-! ### Tables (R221, R226, R248, R254) -/

/-- The age of a dynamic address entry, in s. -/
def entryAge (i : Nat) (s : State) : Nat :=
  match s.sw.refreshed.find? fun x => x.1 == i with
  | some x => (s.now - x.2) / secNs
  | none => 0

/-- An entry as TBL_DATA shows it: the latest write, and an address's age. -/
def tblShow (t i : Nat) (s : State) : BitVec 128 :=
  let v := match s.sw.sgPend.find? fun p => p.1 == tblKey t i with
    | some p => p.2.2
    | none => tblGet t i s
  if t = tblAddr then ebSet v 3 15 0 (entryAge i s) else v

/-- The effect of TBL_CMD with OP = 0. -/
def tblRead (t : Nat) (s : State) : State :=
  let i := fget F.SW_TBL_INDEX s
  let s := s |> fput F.SW_TBL_CMD_TABLE t |> fput F.SW_TBL_CMD_OP 0
  if tblSize t ≤ i then bad s
  else forN 4 (fun k s => wr (R.SW_TBL_DATA_k k) (BitVec.ofNat 32 (eb (tblShow t i s) k 31 0)) s) s

/-- Whether an entry belongs to a gate bank that is active or armed (R226). -/
def gclBusy (i : Nat) (s : State) : Bool :=
  let p := i / 512
  i / 256 % 2 == fget (F.SW_GATE_CTRL_p_ACTIVE_BANK p) s || ftst (F.SW_GATE_CTRL_p_PENDING p) s

/-- What a write makes of an entry: read-only parts stay, BLOCKED can only be cleared (R254). -/
def tblMerge (t : Nat) (old new : BitVec 128) : BitVec 128 :=
  let v := new &&& tblMask t
  if t = tblSfilt then ebSet v 2 23 23 (eb v 2 23 23 * eb old 2 23 23)
  else if t = tblFrerRec then ebSet (ebSet v 2 31 0 (eb old 2 31 0)) 3 31 0 (eb old 3 31 0)
  else v

/-- The stream gate that an entry of the two stream gate tables belongs to. -/
def sgateOf (t i : Nat) : Nat := if t = tblSgate then i else i / 64

/-- Whether a stream gate's header is refused: it enables a list whose cycle or base R226 does not allow (R229), or its base breaks R8. -/
def sgateBad (v : BitVec 128) : Bool :=
  decide (secNs ≤ eb v 0 31 0) || (eb v 2 31 31 == 1 && (decide (eb v 3 31 0 < 1000) || decide (1000000000 < eb v 3 31 0)))

/-- The effect of TBL_CMD with OP = 1. -/
def tblWrite (t : Nat) (s : State) : State :=
  let s := sgateCommit s
  let i := fget F.SW_TBL_INDEX s
  let data := ((List.range 4).map fun k => (rd (R.SW_TBL_DATA_k k) s).toNat * 2 ^ (32 * k)).sum
  let s := s |> fput F.SW_TBL_CMD_TABLE t |> fput F.SW_TBL_CMD_OP 1
  if tblSize t ≤ i ∨ (t = tblGcl ∧ gclBusy i s = true) then bad s
  else
    let v := tblMerge t (tblGet t i s) (BitVec.ofNat 128 data)
    if t = tblSgate ∧ sgateBad v = true then raise F.SW_EVENT swGateErr s
    else if (t = tblSgate ∨ t = tblSgateEntry) ∧ sgateRuns (sgateOf t i) s = true then
      updSw (fun w => { w with sgPend := w.sgPend.filter (fun p => p.1 != tblKey t i) ++ [(tblKey t i, sgateNext (sgateOf t i) s, v)] }) s
    else whenB (t == tblAddr) (addrRefresh i) (tblPut t i v s)

/-- TBL_READ. -/
def execTblRead (w : Initiator) (t : Fin 16) (s : State) : Host.Outcome State Fault Refusal := .next (regCmd w R.SW_TBL_CMD (tblRead t.1) s)

/-- TBL_WRITE. -/
def execTblWrite (w : Initiator) (t : Fin 16) (s : State) : Host.Outcome State Fault Refusal := .next (regCmd w R.SW_TBL_CMD (tblWrite t.1) s)

/-- The effect of CTRL.FLUSH_DYN: all dynamic address entries go (R248). -/
def flushDyn (s : State) : State :=
  let dyn := (tblListed tblAddr s).filter fun i => eb (tblGet tblAddr i s) 2 1 0 == 1
  dyn.foldl (fun s i => tblPut tblAddr i 0 (updSw (fun w => { w with refreshed := w.refreshed.filter fun x => x.1 != i }) s)) s

/-- FLUSH_DYN. -/
def execFlushDyn (w : Initiator) (s : State) : Host.Outcome State Fault Refusal := .next (regCmd w R.SW_CTRL flushDyn s)

/-! ### Sleep, wake and links (R244-R246) -/

/-- SLEEP_REQ. -/
def execSleepReq (w : Initiator) (p : Fin 18) (s : State) : Host.Outcome State Fault Refusal := .next (regCmd w (R.SW_TC10_p p.1) (sleepReq p) s)

/-- WAKE_REQ. -/
def execWakeReq (w : Initiator) (p : Fin 18) (s : State) : Host.Outcome State Fault Refusal := .next (regCmd w (R.SW_TC10_p p.1) (wakeReq p) s)

/-- A port that Bellows closes is closed once its queues are empty, or 10 ms have passed and what is left is discarded (R245, R564). -/
def closePort (p : Fin 18) (s : State) : State :=
  let s := if portWaits p.1 s then flushPort p.1 .failedRefused (fun _ _ => true) (elapseTo s.blw.shutDue s) else s
  { s with blw := { s.blw with shut := s.blw.shut ++ [p] } }

/-- TC10_SLEEP_COMPLETE (R245, R344): the queues are empty, or 10 ms have passed and what is left is discarded; so too for a port of P0-P5 whose segment sleeps, and for one that
Bellows closes. -/
def execTc10SleepComplete (p : Fin 18) (s : State) : Host.Outcome State Fault Refusal :=
  .next (
    let pend := fget (F.SW_TC10_p_STATE p.1) s == tc10SleepPend
    let left := portWaits p.1 s
    if pend || (left && decide (p.1 < 6) && portSlept p s) then
      whenB pend (fput (F.SW_TC10_p_STATE p.1) tc10Sleep) (if left then flushSlept p (elapseTo (s.sw.tc10Due[p.1]) s) else s)
    else if lidarClosed p.1 s && !s.blw.shut.contains p then closePort p s
    else s)

/-- A wake-up is received on a port: it cancels a pending sleep, and a sleeping port wakes (R245). -/
def tc10Wake (p : Nat) (s : State) : State :=
  let s := raise (F.SW_TC10_p_WAKE_SEEN p) 0 s
  let st := fget (F.SW_TC10_p_STATE p) s
  if st = tc10SleepPend then fput (F.SW_TC10_p_STATE p) tc10Active s
  else if st = tc10Sleep then fput (F.SW_TC10_p_STATE p) tc10Waking s
  else s

/-- WAKE_SEEN (R244, R246): P0-P5 have no handshake, and their wake input is only shown. -/
def execWakeSeen (p : Fin 18) (s : State) : Host.Outcome State Fault Refusal := .next (if hasTc10 p.1 then tc10Wake p.1 s else raise (F.SW_TC10_p_WAKE_SEEN p.1) 0 s)

/-- LINK_CHANGE (R246, R250): a waking port is active once its link is up. -/
def execLinkChange (p : Fin 18) (up : Bool) (s : State) : Host.Outcome State Fault Refusal :=
  .next (
    if ftst (F.SW_PORT_STATUS_p_LINK p.1) s = up then s
    else
      let s := whenB (!up && decide (p.1 < 2)) (moveVcs p.1) (pulse (64 + p.1) (fput (F.SW_PORT_STATUS_p_LINK p.1) up.toNat s))
      let s := if up ∧ fget (F.SW_TC10_p_STATE p.1) s = tc10Waking then fput (F.SW_TC10_p_STATE p.1) tc10Active s else s
      if h : p.1 < 6 then preemptStart ⟨p.1, h⟩ s else s)

/-! ### Counters -/

/-- Every counter of the switch (R249, R253). -/
def swCounters : List Nat :=
  (List.range 8).map R.SW_ECPL_CNT_s ++ [R.SW_ECPL_OVF, R.SW_E_ABANDON, R.SW_LEARN_FAIL_CNT, R.SW_PTP_DROP]
    ++ (List.range 23).flatMap (fun p => (List.range 8).flatMap fun c =>
      [R.SW_RX_p_c p c, R.SW_TX_p_c p c, R.SW_NOBUF_p_c p c, R.SW_QLIM_CNT_p_c p c, R.SW_DROP_STREAM_p_c p c, R.SW_AGED_p_c p c, R.SW_FLUSH_p_c p c])
    ++ (List.range 23).flatMap fun p => [R.SW_FCS_ERR_p p, R.SW_FCS_STOMP_p p, R.SW_OVERSIZE_p p, R.SW_VLAN_MISS_p p, R.SW_MOVE_p p]

/-- The counts that stand in the recovery table. -/
def clearFrerCounts (s : State) : State :=
  (tblListed tblFrerRec s).foldl (fun s f => tblPut tblFrerRec f (ebSet (ebSet (tblGet tblFrerRec f s) 2 31 0 0) 3 31 0 0) s) s

/-- The effect of CNT_CLR. -/
def swCntClr (s : State) : State := clearFrerCounts (clearRegs swCounters s)

/-- SW_CNT_CLR. -/
def execSwCntClr (w : Initiator) (s : State) : Host.Outcome State Fault Refusal := .next (regCmd w R.SW_CNT_CLR swCntClr s)

end Sys2Proof.Machine
end

