-- ==== Sys2Proof/Machine/Nm.lean ====
section
/-!
DEFINITION. The NM block's commands (chapter 09): the wisp ring, the prepare window, wakes, and the segment registers. Isolation stands with the load channels.
-/
namespace Sys2Proof.Machine

/-! ### The wisp (R335-R341) -/

/-- A ring segment. -/
def ringOf (r : Fin 13) : Fin 35 := ⟨r.1, by omega⟩

/-- WISP_RECEIVE (R336-R341). -/
def execWispReceive (r : Fin 13) (w : BitVec 64) (s : State) : Host.Outcome State Fault Refusal := .next (wispAccept (ringOf r) w s)

/-- WISP_FORWARD (R337). -/
def execWispForward (r : Fin 13) (s : State) : Host.Outcome State Fault Refusal :=
  .next (
    let g := ringOf r
    match (seg g s).forward with
    | none => s
    | some (runStart, due) =>
      let s := updSeg g (fun x => { x with forward := none }) (elapseTo due s)
      if segState g s ≠ segAwake then s
      else if !ownConsent g s then sendWisp g 0xFF 0 s
      else if runStart = 0xFF then sendWisp g (ownNode g s) 0 s
      else if runStart = ownNode g s then sendAgreed g runStart s
      else sendWisp g runStart 0 s)

/-- RING_LOST (R340): the ring timer ends and the wait of NODE_ID ms begins. -/
def execRingLost (r : Fin 13) (s : State) : Host.Outcome State Fault Refusal :=
  .next (
    let g := ringOf r
    if segState g s ≠ segAwake ∨ ftst F.NM_CTRL_EN s = false ∨ (seg g s).regen.isSome = true then s
    else
      let s := elapseTo ((seg g s).ring + clampNat 10 1000 (fget (F.NM_SEG_TIME_s_RING_MS g.1) s) * 1000000) s
      updSeg g (fun x => { x with regen := some (s.now + ownNode g s * 1000000) }) s)

/-- WISP_REGENERATE (R340). -/
def execWispRegenerate (r : Fin 13) (s : State) : Host.Outcome State Fault Refusal :=
  .next (
    let g := ringOf r
    match (seg g s).regen with
    | none => s
    | some due =>
      if segState g s ≠ segAwake then updSeg g (fun x => { x with regen := none }) s
      else
        let s := elapseTo due s
        let me := ownNode g s
        let s := updSeg g (fun x => { x with
          regen := none
          ring := s.now
          members := (match x.lastDst with
            | some d => if d = me then x.members else x.members &&& (2 ^ 64 - 1 - 2 ^ d)
            | none => x.members) }) s
        sendWisp g 0xFF 4 (raise F.NM_EVENT nmRingLost (bump R.NM_RING_REGEN s)))

/-! ### Consent (R339) -/

/-- NM_CTLBLK_READ (R339): the consent byte of every segment. -/
def execNmCtlblkRead (s : State) : Host.Outcome State Fault Refusal :=
  .next (
    if !ftst F.NM_CTRL_EN s || !ftst F.NM_CTRL_CTLBLK_EN s then s
    else forFin 35 (fun g s => showConsent g (updSeg g (fun x => { x with ctl := mrd (ctlBlock g s + 2) s == 1 }) s)) s)

/-- MIN_AWAKE_END (R339). -/
def execMinAwakeEnd (g : Fin 35) (s : State) : Host.Outcome State Fault Refusal :=
  .next (if segState g s = segDisabled then s else showConsent g (elapseTo (seg g s).minEnd s))

/-! ### The prepare window and sleep (R342-R345) -/

/-- The pending items of a segment's bus are dropped (R344): nothing is left to send. The frames that wait for an Ethernet port have the time of R245 first. -/
def endPending (g : Fin 35) (s : State) : State :=
  if h : g.1 < 12 then (canSt ⟨g.1, h⟩ s).items.foldl (fun s x => canFinish ⟨g.1, h⟩ x .failedRefused none (sluiceDrop s)) s
  else if h : g.1 ≤ 28 then s
  else
    let l : Fin 6 := ⟨g.1 - 29, by omega⟩
    (linSt l s).reqs.foldl (fun s r =>
      if r.internal then s
      else
        let s := sluiceDrop s
        let s := linEvent l linResp (updLin l (fun x => { x with reqs := x.reqs.erase r, resp := x.resp ++ [linItem r .failedRefused 0 0 0 0 0 []] }) s)
        showReqs l (bump (R.LIN_ERRORS l.1) s)) s

/-- Whether the Z480 sends on a segment's bus now. -/
def segSends (g : Fin 35) (s : State) : Bool :=
  if h : g.1 < 12 then (canSt ⟨g.1, h⟩ s).cur.isSome
  else if h : 29 ≤ g.1 then (linSt ⟨g.1 - 29, by omega⟩ s).cur.isSome
  else if g.1 = 12 then s.sw.tx[0].isSome || s.sw.tx[1].isSome
  else (txOf (g.1 - 11) s).isSome

/-- PREPARE_END (R342, R343): the window has passed and the bus is idle. A wake that is latched comes first. -/
def execPrepareEnd (g : Fin 35) (s : State) : Host.Outcome State Fault Refusal :=
  .next (
    if segState g s ≠ segPrepare ∨ segSends g s = true then s
    else
      let s := elapseTo ((seg g s).since + clampNat 20 1000 (fget (F.NM_SEG_TIME_s_PREP_MS g.1) s) * 1000000) s
      match (seg g s).latched with
      | some src => abortPrepare g src (showLatch g (updSeg g (fun x => { x with latched := none }) s))
      | none => sleepAction g (endPending g (setSeg g segSleepEntry s)))

/-- SETTLE_END (R342). -/
def execSettleEnd (g : Fin 35) (s : State) : Host.Outcome State Fault Refusal :=
  .next (
    if segState g s ≠ segSleepEntry ∨ (seg g s).latched.isSome = true then s
    else setSeg g segSleep (elapseTo ((seg g s).since + clampNat 10 1000 (fget (F.NM_SEG_TIME3_s_SETTLE_US g.1) s) * 1000) s))

/-- WAKING_END (R342). -/
def execWakingEnd (g : Fin 35) (s : State) : Host.Outcome State Fault Refusal :=
  .next (
    if segState g s ≠ segWaking then s
    else
      let s := elapseTo ((seg g s).since + clampNat 10 1000 (fget (F.NM_SEG_TIME3_s_WAKE_US g.1) s) * 1000) s
      showConsent g (enterAwake g (wakeForParent g (recordWake g (seg g s).src s))))

/-- The wake inputs of R334 and R343, as WAKE_SRC names them. -/
def wakeCode (k : Fin 5) : Nat := k.1 + 1

/-- SEGMENT_WAKE_INPUT (R343). -/
def execSegmentWakeInput (g : Fin 35) (k : Fin 5) (s : State) : Host.Outcome State Fault Refusal :=
  .next (
    let s := if 17 ≤ g.1 ∧ g.1 ≤ 28 ∧ k = 2 then tc10Wake (g.1 - 11) s else s
    segWakeInput g (wakeCode k) s)

/-- LATCHED_WAKE_ACTION (R342, R343): a latch that outlives a reset waits until its segment is managed again (R348). -/
def execLatchedWakeAction (g : Fin 35) (s : State) : Host.Outcome State Fault Refusal :=
  .next (
    match (seg g s).latched with
    | none => s
    | some src =>
      let st := segState g s
      if st = segDisabled ∨ st = segLost then s
      else
        let s := showLatch g (updSeg g (fun x => { x with latched := none }) s)
        if st = segPrepare then abortPrepare g src s
        else if st = segSleepEntry ∨ st = segSleep then wakeSeg g src s
        else if st = segIsolated then bump R.NM_IGNORED_WAKE s
        else s)

/-! ### Segment registers (R348, R352) -/

/-- The effect of SEG_CTRL.WAKE (R342, R343): before SLEEP it is a wake that Heron latches. -/
def segCtrlWake (g : Fin 35) (s : State) : State :=
  let st := segState g s
  if st = segSleep then wakeSeg g wakeCtrl s
  else if st = segPrepare ∨ st = segSleepEntry then latchWake g wakeCtrl s
  else s

/-- SEG_CTRL_WAKE. -/
def execSegCtrlWake (w : Initiator) (g : Fin 35) (s : State) : Host.Outcome State Fault Refusal := .next (regCmd w (R.NM_SEG_CTRL_s g.1) (segCtrlWake g) s)

/-- The effect of SEG_CTRL.REJOIN (R341, R342). -/
def rejoin (g : Fin 35) (s : State) : State :=
  if segState g s ≠ segIsolated then s
  else
    let s := s |> wr (R.NM_WITHHOLD_LO_s g.1) 0 |> wr (R.NM_WITHHOLD_HI_s g.1) 0 |> fput (F.NM_SEG_STATUS_s_OFFENDER g.1) 0xFF
    wakeSeg g wakeCtrl s

/-- REJOIN. -/
def execRejoin (w : Initiator) (g : Fin 35) (s : State) : Host.Outcome State Fault Refusal := .next (regCmd w (R.NM_SEG_CTRL_s g.1) (rejoin g) s)

/-- The effect of SEG_CFG.EN = 1 (R342, R348): SLEEP when the segment's pin is held at sleep level, else AWAKE. A segment that is LOST stays so until its controller is back. -/
def segEnable (g : Fin 35) (s : State) : State :=
  if ftst (F.NM_SEG_CFG_s_EN g.1) s then s
  else
    let s := fput (F.NM_SEG_CFG_s_EN g.1) 1 s
    let s := updSeg g (fun x => { x with
      members := if ringSeg g then 2 ^ ownNode g s else 0
      lastSeq := []
      lastDst := none
      forward := none
      minEnd := s.now
      asleep := (match x.level with | some l => l != ftst (F.NM_SEG_CFG_s_STB_POL g.1) s | none => x.asleep)
      level := none }) s
    if segState g s ≠ segDisabled then s
    else if (seg g s).asleep then setSeg g segSleep s else showConsent g (enterAwake g s)

/-- SEG_ENABLE. -/
def execSegEnable (w : Initiator) (g : Fin 35) (s : State) : Host.Outcome State Fault Refusal := .next (regCmd w (R.NM_SEG_CFG_s g.1) (segEnable g) s)

/-- The effect of SEG_CFG.EN = 0 (R342). -/
def segDisable (g : Fin 35) (s : State) : State :=
  let s := fput (F.NM_SEG_CFG_s_EN g.1) 0 s
  if segState g s = segDisabled then s
  else followersLeave g (segState g s) (releaseHeld g (wakeAction g (setSeg g segDisabled s)))

/-- SEG_DISABLE. -/
def execSegDisable (w : Initiator) (g : Fin 35) (s : State) : Host.Outcome State Fault Refusal := .next (regCmd w (R.NM_SEG_CFG_s g.1) (segDisable g) s)

/-- A segment's controller or port is lost with its domain (R342). -/
def segLose (g : Fin 35) (s : State) : State := if segState g s = segLost then s else followersLeave g (segState g s) (setSeg g segLost s)

/-- A lost segment's controller or port is restarted (R342): its sleep action is no longer in force. One that software does not manage is disabled again (assumption 17). -/
def segRestart (g : Fin 35) (s : State) : State :=
  if segState g s ≠ segLost then s
  else
    let s := wakeAction g s
    if ftst (F.NM_SEG_CFG_s_EN g.1) s then enterAwake g (startMinAwake g s) else setSeg g segDisabled s

/-- The counters of the NM block (R351). -/
def nmCounters : List Nat := [R.NM_WAKE_ABORT, R.NM_SLUICE_DROP, R.NM_SLUICE_PASS, R.NM_RING_REGEN, R.NM_IGNORED_WAKE, R.NM_ISOLATIONS]

/-- NM_CNT_CLR. -/
def execNmCntClr (w : Initiator) (s : State) : Host.Outcome State Fault Refusal := .next (regCmd w R.NM_CNT_CLR (clearRegs nmCounters) s)

end Sys2Proof.Machine
end

