-- ==== Sys2Proof/Machine/NmIsolate.lean ====
section
/-!
DEFINITION. Isolation of a segment that never agrees to sleep (R346, R347).
-/
namespace Sys2Proof.Machine

/-- The lowest node that withholds consent, 0xFF when none does (R347). -/
def offender (g : Fin 35) (s : State) : Nat :=
  let m := fget (F.NM_WITHHOLD_LO_s g.1) s + 2 ^ 32 * fget (F.NM_WITHHOLD_HI_s g.1) s
  ((List.range 64).find? fun n => m.testBit n).getD 0xFF

/-- The channels that feed the withholding nodes of a segment are commanded off, in the order of the feed entries (R347, R359). -/
def feedOff (g : Fin 35) (s : State) : State :=
  let m := fget (F.NM_WITHHOLD_LO_s g.1) s + 2 ^ 32 * fget (F.NM_WITHHOLD_HI_s g.1) s
  forN 32 (fun k s =>
    if ftst (F.NM_FEED_SEL_k_EN k) s && fget (F.NM_FEED_SEL_k_SEG k) s == g.1 && m.testBit (fget (F.NM_FEED_SEL_k_NODE k) s) then
      let hs := mask 32 fun n => fbit (F.NM_FEED_CH_k_HS k) n s
      let hb := (mask 6 fun n => fbit (F.NM_FEED_CH_HI_k_HB k) n s).map (· + 32)
      let gd := (mask 8 fun n => fbit (F.NM_FEED_CH_HI_k_GD k) n s).map (· + 40)
      updPd (fun p => { p with nmq := p.nmq ++ hs ++ hb ++ gd }) s
    else s) s

/-- MAX_AWAKE_EXPIRE (R346, R347). -/
def execMaxAwakeExpire (g : Fin 35) (s : State) : Host.Outcome State Fault Refusal :=
  .next (match (seg g s).maxStart with
  | none => s
  | some t =>
    let sec := fget (F.NM_SEG_TIME2_s_MAX_AWAKE_S g.1) s
    if sec = 0 ∨ segState g s ≠ segAwake then s
    else
      let s := elapseTo (t + (sec * secNs - (seg g s).maxRun)) s
      let s := s |> fput (F.NM_SEG_STATUS_s_OFFENDER g.1) (offender g s) |> raise F.NM_EVENT nmIsolated |> bump R.NM_ISOLATIONS
      let s := updSeg g (fun x => { x with forward := none, regen := none }) (setSeg g segIsolated s)
      let s := sleepAction g (endPending g (whenB (g == 12) (fun s => flushSlept 1 (flushSlept 0 s)) s))
      whenB (ftst (F.NM_SEG_CFG_s_FEED_OFF g.1) s) (feedOff g) s)

end Sys2Proof.Machine
end

