-- ==== Sys2Proof/Machine/Ic.lean ====
section
/-!
DEFINITION. The interrupt controller (chapter 12): what asserts each source, claim, priority stack and EOI, the pending bits of the engines, vector assist on the
real-time pairs, and WCALL, which a hart executes instead of an exception.
-/
namespace Sys2Proof.Machine

/-! ### The level sources (R437) -/

/-- Whether any of the bits of a mask is set in a register and in its enable register. -/
def evOn (ev en m : Nat) (s : State) : Bool := (rd ev s &&& rd en s &&& BitVec.ofNat 32 m) != 0

/-- The sources of TIME (R86). -/
def srcTime (i : Nat) (s : State) : Bool :=
  evOn R.TIME_EVENT R.TIME_EVENT_EN ([0, 0x401, 0x002, 0x804, 0x018, 0x020, 0x040, 0x380].getD i 0) s

/-- The sources of the trigger and capture slice and of the camera ports (R137). -/
def srcSlice (i : Nat) (s : State) : Bool :=
  if i < 16 then
    let on (n : Nat) : Bool := bits (rd (R.TRG_STATUS_n n) s &&& rd (R.TRG_CFG_n n) s).toNat 11 8 != 0
    on (2 * (i - 8)) || on (2 * (i - 8) + 1)
  else if i < 32 then
    let m := i - 16
    (ftst (F.TRG_CAP_STATUS_m_FILL m) s && ftst (F.TRG_CAP_CFG_m_IE_DATA m) s)
      || ((ftst (F.TRG_CAP_STATUS_m_OVF m) s || ftst (F.TRG_CAP_STATUS_m_MERGE m) s) && ftst (F.TRG_CAP_CFG_m_IE_ERR m) s)
  else
    let n := (i - 32) / 8
    evOn (R.CAM_EVENT n) (R.CAM_EVENT_EN n) ([0x001, 0x18E, 0x010, 0x020, 0x040].getD (i % 8) 0) s

/-- The sources of the switch (R246); those without a status bit are requests in `pulses`. -/
def srcSwitch (i : Nat) (s : State) : Bool :=
  if i < 82 then ftst (F.SW_TC10_p_WAKE_SEEN (i - 64)) s
  else if i < 87 then evOn R.SW_EVENT R.SW_EVENT_EN ([0x003, 0x004, 0x018, 0x060, 0x180].getD (i - 82) 0) s
  else false

/-- The sources of CAN and LIN (R294). -/
def srcBus (i : Nat) (s : State) : Bool :=
  if i < 208 then evOn (R.CAN_EVENT ((i - 160) / 4)) (R.CAN_EVENT_EN ((i - 160) / 4)) ([0x2003, 0x008C, 0x0170, 0x1E00].getD (i % 4) 0) s
  else if i < 220 then evOn (R.LIN_EVENT ((i - 208) / 2)) (R.LIN_EVENT_EN ((i - 208) / 2)) ([0x09, 0x16].getD (i % 2) 0) s
  else false

/-- The output whose events assert a source of 224-269 (R356, R395): HS from 224, GD from 256, HB from 264. -/
def srcOut (i : Nat) : Nat := if i < 256 then i - 224 else if i < 264 then i - 256 + 40 else i - 264 + 32

/-- The sources of LOADCH and FIO (R395). -/
def srcLoad (i : Nat) (s : State) : Bool :=
  if i < 270 then
    let r := (rd (R.LOADCH_CH_EVENT_n (srcOut i)) s).toNat
    (bits r 6 0 &&& bits r 22 16) != 0
  else if i < 276 then
    (List.range 8).any fun k =>
      let d := 8 * (i - 270) + k
      fbit (F.FIO_DI_CHG_k (d / 32)) (d % 32) s && ftst (F.FIO_DI_CFG_i_IE d) s
  else if i < 280 then
    (List.range 4).any fun k => fbit F.FIO_AI_EVT (4 * (i - 276) + k) s && ftst (F.FIO_AI_CFG_j_IE (4 * (i - 276) + k)) s
  else if i = 284 then
    (List.range 4).any fun q =>
      (ftst (F.LOADCH_CQ_EVENT_q_CPL q) s && ftst (F.LOADCH_CQ_EVENT_q_CPL_EN q) s)
        || (ftst (F.LOADCH_CQ_EVENT_q_CPL_OVF q) s && ftst (F.LOADCH_CQ_EVENT_q_OVF_EN q) s)
  else evOn R.LOADCH_EVENT R.LOADCH_EVENT_EN ([0x000F, 0x0070, 0x0380, 0x0C00, 0, 0x7000].getD (i - 280) 0) s

/-- The sources of an engine (R172). -/
def srcEngine (i : Nat) (s : State) : Bool :=
  let e := (i - 288) / 4
  evOn (R.ENG_EVENT e) (R.ENG_EVENT_EN e) ([0x0000F, 0x000F0, 0xF0F00, 0x01000].getD (i % 4) 0) s

/-- The sources of the key engine and of tamper (R558). -/
def srcKey (i : Nat) (s : State) : Bool :=
  if i = 384 then evOn R.KEY_EVENT R.KEY_EVENT_EN 1 s
  else if i = 385 then evOn R.KEY_EVENT R.KEY_EVENT_EN 6 s
  else i == 386 && ftst F.TAMP_STATUS_TAMPER_LATCH s

/-- Where the control block of the log chain lies (R323). -/
def logCtl (s : State) : Nat := 0x01000000 + 256 * fget F.SIG_CTLBLK_OFS s

/-- The sources of MEM, CWY, OWN and the SIG unit (R332, R433, R488). -/
def srcMem (i : Nat) (s : State) : Bool :=
  if i < 420 then evOn R.MEM_EVENT R.MEM_EVENT_EN (2 ^ (i - 416)) s
  else if i = 420 then evOn R.CWY_EVENT R.CWY_EVENT_EN 1 s
  else if i = 421 then evOn R.CWY_EVENT R.CWY_EVENT_EN 0xE s
  else if i = 422 then evOn R.MEM_EVENT R.MEM_EVENT_EN 0x10 s
  else if i = 423 then false
  else if i < 428 then evOn R.OWN_EVENT R.OWN_EVENT_EN ([0x07, 0x18, 0x60, 0x80].getD (i - 424) 0) s
  else if i < 444 then (List.range 27).any fun k => fget (F.OWN_BLK_k_STATE k) s == 1 && fget (F.OWN_BLK_k_RRQ k) s == i - 428
  else if i = 444 then decide (mrdN (logCtl s + 8) 8 s < mrdN (logCtl s) 8 s) || mrdN (logCtl s + 88) 8 s != 0
  else evOn R.SIG_EVENT R.SIG_EVENT_EN ([0x07, 0x18, 0x60].getD (i - 445) 0) s

/-- The sources of supply, thermal, resets, the settings flash and Heron (R460, R535, R588). -/
def srcSupply (i : Nat) (s : State) : Bool :=
  if i < 451 then evOn R.BLW_EVENT R.BLW_EVENT_EN ([0x43, 0x0C, 0x30].getD (i - 448) 0) s
  else if i < 455 then evOn R.SYSCTL_EVENT R.SYSCTL_EVENT_EN ([0x03, 0x04, 0x08, 0x30].getD (i - 451) 0) s
  else if i = 455 then ftst F.WDOG_WD_STAT_WARN s && ftst F.WDOG_WD_STAT_WARN_EN s
  else if i < 472 then ftst (F.WDOG_HB_STAT_c_LOST (i - 456)) s && ftst (F.WDOG_HB_STAT_c_IE (i - 456)) s
  else if i < 476 then false
  else if i < 478 then evOn R.SYSCTL_XSPI_EVENT R.SYSCTL_XSPI_EVENT_EN (2 ^ (i - 476)) s
  else evOn R.HERON_EVENT R.HERON_EVENT_EN (if i = 478 then 1 else 6) s

/-- The sources of the NM block (R350). -/
def srcNm (i : Nat) (s : State) : Bool :=
  if i < 493 then ftst (F.NM_SEG_STATUS_s_CHANGED (i - 480)) s
  else if i = 493 then (List.range 22).any fun k => ftst (F.NM_SEG_STATUS_s_CHANGED (13 + k)) s
  else if i = 494 then evOn R.NM_EVENT R.NM_EVENT_EN 1 s
  else if i = 495 then evOn R.NM_EVENT R.NM_EVENT_EN 0xE s
  else false

/-- The doorbells of the virtual instances (R497) and the manager interrupt, which has its source beside them. -/
def srcVqi (i : Nat) (s : State) : Bool :=
  let k := (i - 512) / 8
  (fget F.VQI_MGR_SRC_ID s == i && evOn R.VQI_MGR_EVENT R.VQI_MGR_EVENT_EN 0x1F s)
    || (List.range 8).any fun p =>
      ftst (F.VQI_RING_SIZE_i_p_IE k p) s && fget (F.VQI_RING_SIZE_i_p_DB k p) s == i % 8 && fget (F.VQI_CQ_TAIL_i_p k p) s != fget (F.VQI_CQ_HEAD_i_p k p) s

/-- Whether a source is requesting at the IC (R436, R437). -/
def requesting (i : Nat) (s : State) : Bool :=
  if i = 0 ∨ 1024 ≤ i then false
  else if 768 ≤ i then s.ic.edge.getLsbD (i - 768)
  else if s.pulses.contains i then true
  else if i < 8 then srcTime i s
  else if i < 64 then srcSlice i s
  else if i < 160 then srcSwitch i s
  else if i < 224 then srcBus i s
  else if i < 288 then srcLoad i s
  else if i < 384 then srcEngine i s
  else if i < 416 then srcKey i s
  else if i < 448 then srcMem i s
  else if i < 480 then srcSupply i s
  else if i < 512 then srcNm i s
  else srcVqi i s

/-! ### Pending sources and targets (R438, R439, R441) -/

/-- Changes the IC. -/
def updIc (f : IcSt → IcSt) (s : State) : State := { s with ic := f s.ic }

/-- The priority stack of a processor target. -/
def icStack (t : Fin 13) (s : State) : List (Nat × Nat) := s.ic.stack[t.1]

/-- Whether a source is active: it is in a stack. -/
def srcActive (i : Nat) (s : State) : Bool := s.ic.stack.toList.any fun l => l.any fun e => e.1 == i

/-- Whether a source is pending (R438). -/
def srcPending (i : Nat) (s : State) : Bool :=
  ftst (F.IC_SRC_CFG_i_EN i) s && ftst (F.IC_SRC_CFG_i_PRIO i) s && !srcActive i s && requesting i s

/-- The island of a target (R439). -/
def targetIsl (t : Nat) : Fin 21 :=
  if t < 4 then islCLA else if t < 8 then islCLB else if t < 12 then islL (Fin.ofNat 4 (t - 8)) else if t = 12 then islHC
  else engIsl (Fin.ofNat 24 (t - 13))

/-- The running priority of a processor target (R442). -/
def runPri (t : Fin 13) (s : State) : Nat :=
  match icStack t s with
  | [] => fget (F.IC_THRESH_t_PRI t.1) s
  | e :: _ => max e.2 (fget (F.IC_THRESH_t_PRI t.1) s)

/-- The better of two candidates: the higher priority, of equal ones the lower source (R438). -/
def better (a b : Option (Nat × Nat)) : Option (Nat × Nat) :=
  match a, b with
  | some x, some y => if x.2 < y.2 then b else a
  | none, _ => b
  | _, none => a

/-- The candidate that the IC presents to a processor target, with its priority (R441, R442). -/
def icBest (t : Fin 13) (s : State) : Option (Nat × Nat) :=
  if !islOpen (targetIsl t.1) s then none
  else
    (List.range 1024).foldl (fun b i =>
      let c := rd (R.IC_SRC_CFG_i i) s
      let pri := bits c.toNat 4 0
      if bits c.toNat 13 8 == t.1 && decide (runPri t s < pri) && srcPending i s then better b (some (i, pri)) else b) none

/-- Shows a target's running priority, depth and top in its STAT (R461). -/
def icShow (t : Fin 13) (s : State) : State :=
  let l := icStack t s
  s |> fput (F.IC_STAT_t_RUNPRI t.1) (runPri t s) |> fput (F.IC_STAT_t_DEPTH t.1) l.length
    |> fput (F.IC_STAT_t_TOP_ID t.1) (match l with | [] => 0 | e :: _ => e.1)

/-- Gives a target its stack. -/
def putStack (t : Fin 13) (l : List (Nat × Nat)) (s : State) : State := icShow t (updIc (fun c => { c with stack := c.stack.set t.1 l t.2 }) s)

/-- Clears the request of an edge source, or of a level source that has no status bit. -/
def clearReq (i : Nat) (s : State) : State :=
  if 768 ≤ i then updIc (fun c => { c with edge := c.edge &&& ~~~(BitVec.ofNat 256 (2 ^ (i - 768))) }) s
  else { s with pulses := s.pulses.filter fun x => x != i }

/-- A claim (R442, R443): the answer is the source, 0 for none; `spec` is whether the reader may discard it (R432). -/
def icClaim (spec : Bool) (t : Fin 13) (s : State) : Nat × State :=
  if 16 ≤ (icStack t s).length then (0, raise (F.IC_STAT_t_STACK_FULL t.1) 0 s)
  else match icBest t s with
    | none => (0, s)
    | some e =>
      let latched := decide (768 ≤ e.1) || s.pulses.contains e.1
      (e.1, updIc (fun c => { c with undo := c.undo.set t.1 (if spec then some (e.1, latched) else none) t.2 }) (putStack t (e :: icStack t s) (clearReq e.1 s)))

/-- The end of the source at the top of a stack (R444). -/
def icPop (t : Fin 13) (s : State) : State :=
  putStack t (icStack t s).tail (updIc (fun c => { c with undo := c.undo.set t.1 none t.2 }) s)

/-- A processor target's island is reset, stopped or lost: its stack empties (R441). -/
def icTargetLost (t : Fin 13) (s : State) : State := putStack t [] (updIc (fun c => { c with undo := c.undo.set t.1 none t.2 }) s)

/-- An engine's island is reset, stopped or lost: its pending bits clear (R451). -/
def icEngineLost (e : Fin 24) (s : State) : State := updIc (fun c => { c with bits := c.bits.set e.1 0 e.2 }) s

/-- The IC sets the pending bit of every pending source routed to an engine that runs (R451). -/
def icSettle (s : State) : State :=
  (List.range 1024).foldl (fun s i =>
    let c := (rd (R.IC_SRC_CFG_i i) s).toNat
    let t := bits c 13 8
    if h : 13 ≤ t ∧ t < 37 then
      if bits c 16 16 == 1 && islOpen (targetIsl t) s && srcPending i s then
        updIc (fun c => { c with bits := upd c.bits ⟨t - 13, by omega⟩ fun b => b ||| BitVec.ofNat 1024 (2 ^ i) }) s
      else s
    else s) s

/-! ### The commands of the IC -/

/-- Whether an initiator may write the configuration of a source: its owner, or Hearth (R437, R440). -/
def srcOwner (w : Initiator) (i : Nat) (s : State) : Bool :=
  initWorld w s || (!ftst (F.IC_SRC_OWN_i_WORLD i) s && fget (F.IC_SRC_OWN_i_INST i) s == initInst w s)

/-- The effect of a write of SGI_SET (R437). -/
def sgiSet (w : Initiator) (i : Nat) (s : State) : State :=
  if i < 768 ∨ !srcOwner w i s then bad s else updIc (fun c => { c with edge := c.edge ||| BitVec.ofNat 256 (2 ^ (i - 768)) }) s

/-- SGI_SET. -/
def execSgiSet (w : Initiator) (id : Fin 1024) (s : State) : Host.Outcome State Fault Refusal := .next (regCmd w R.IC_SGI_SET (sgiSet w id.1) s)

/-- A write of SRC_CFG (R439, R440): accepted from the source's owner with a TARGET that exists. -/
def srcCfgWrite (w : Initiator) (i : Nat) (v : Word) (s : State) : State :=
  if !srcOwner w i s then bad (violateBy w (R.IC_SRC_CFG_i i) true 4 s)
  else if 37 ≤ bits v.toNat 13 8 then bad s
  else wr (R.IC_SRC_CFG_i i) (v &&& 0x00013F1F) s

/-- What a read of CLAIM does (R442). -/
def claimRead (w : Initiator) (t : Fin 13) (s : State) : State :=
  let (i, s) := icClaim (undoFor w ()).isSome t s
  answer .done i s

/-- IC_CLAIM. -/
def execIcClaim (w : Initiator) (t : Fin 13) (s : State) : Host.Outcome State Fault Refusal := .next (regRead w (R.IC_CLAIM_t t.1) (claimRead w t) s)

/-- What a write of EOI does (R444). -/
def eoiWrite (t : Fin 13) (id : Nat) (s : State) : State :=
  match icStack t s with
  | [] => bad (bump R.IC_EOI_ERR_CNT s)
  | e :: _ => if e.1 = id then icPop t s else bad (bump R.IC_EOI_ERR_CNT s)

/-- EOI. -/
def execEoi (w : Initiator) (t : Fin 13) (id : Fin 1024) (s : State) : Host.Outcome State Fault Refusal :=
  .next (regCmd w (R.IC_EOI_t t.1) (eoiWrite t id.1) s)

/-! ### Vector assist (R446-R450) -/

/-- The target of a real-time pair. -/
def pairTarget (p : Fin 4) : Fin 13 := ⟨8 + p.1, by omega⟩

/-- Where a local address of a pair lies when `n` bytes from it lie wholly in its data TCM (R410). -/
def dtcm (p : Fin 4) (a n : Nat) : Option Nat :=
  if 0x30040000 ≤ a ∧ a + n ≤ 0x30080000 then some (tcmBase p.1 + (a - 0x30000000)) else none

/-- mstatus with its MPP, MPIE and MIE bits (machine mode of RISC-V; assumption 22). -/
def mstatusOf (mpp : Nat) (mpie mie : Bool) (v : Word) : Word :=
  (v &&& 0xFFFFE777) ||| BitVec.ofNat 32 (mpp * 2048 + (if mpie then 128 else 0) + (if mie then 8 else 0))

/-- Gives a pair its registers. -/
def putPair (p : Fin 4) (r : PairRegs) (s : State) : State := { s with pair := s.pair.set p.1 r p.2 }

/-- The number of a mode in MPP. -/
def modeNum : Mode → Nat
  | .u => 0
  | .s => 1
  | .m => 3

/-- A pair's trap into machine mode: mepc, mcause and mstatus (assumption 22). -/
def pairTrap (cause : Word) (r : PairRegs) : PairRegs :=
  { r with mepc := r.pc, mcause := cause, mstatus := mstatusOf (modeNum r.mode) (r.mstatus.getLsbD 3) false r.mstatus, mode := .m }

/-- An access fault of a pair (R447): cause 5 of a load, 7 of a store. -/
def pairFault (cause : Word) (a : Nat) (r : PairRegs) : PairRegs :=
  { pairTrap cause r with mtval := BitVec.ofNat 32 a, pc := r.mtvec &&& 0xFFFFFFFC }

/-- The words of a frame, in the order of R447. -/
def frameWords (r : PairRegs) (src prev : Nat) : List Nat :=
  r.x.toList.map (·.toNat) ++ [r.mepc.toNat, r.mstatus.toNat, r.fcsr.toNat, src, prev, 0, 0, 0]

/-- Writes words to memory. -/
def mwrWords (a : Nat) : List Nat → State → State
  | [], s => s
  | w :: ws, s => mwrWords (a + 4) ws (mwrN a 4 w s)

/-- The handler address of a source: the word of the vector table, which lies in data TCM (R446); a table elsewhere gives an open value. -/
def vectorOf (p : Fin 4) (src : Nat) (s : State) : Word :=
  match dtcm p (fget (F.IC_VA_CFG_t_VTAB (8 + p.1)) s * 4096 + 4 * src) 4 with
  | some a => BitVec.ofNat 32 (mrdN a 4 s)
  | none => BitVec.ofNat 32 (freeVal s)

/-- VECTOR_ENTRY (R446-R448): the pair, at the registers of its program, claims the best source at the vector fetch, writes the frame below sp and enters the handler. A frame
outside the data TCM is a store access fault and no claim. -/
def execVectorEntry (p : Fin 4) (r : PairRegs) (s : State) : Host.Outcome State Fault Refusal :=
  .next (
    let t := pairTarget p
    if !ftst (F.IC_VA_CFG_t_EN t.1) s || !islOpen (islL p) s || !(r.mode == .u || r.mstatus.getLsbD 3) || (icBest t s).isNone then s
    else
      let fp := (r.sp - 96).toNat
      match dtcm p fp 96 with
      | none => putPair p (pairFault 7 fp r) s
      | some a =>
        let s := advance 16 s
        let prev := runPri t s
        let (src, s) := icClaim false t s
        if src = 0 then putPair p r (advance 8 s)
        else
          let q := pairTrap 0x8000000B r
          let s := mwrWords a (frameWords q src prev) (advance 16 s)
          putPair p { q with sp := r.sp - 96, mstatus := q.mstatus ||| 8, pc := vectorOf p src s } (useFree s))

/-- The registers that a frame holds (R447). -/
def frameRegs (a : Nat) (r : PairRegs) (s : State) : PairRegs :=
  let w (k : Nat) : Word := BitVec.ofNat 32 (mrdN (a + 4 * k) 4 s)
  { r with x := Vector.ofFn fun (k : Fin 16) => w k.1, sp := r.sp + 96, mepc := w 16, mstatus := w 17, fcsr := w 18 }

/-- The return of a pair from machine mode. -/
def pairReturn (r : PairRegs) : PairRegs :=
  { r with
    pc := r.mepc
    mode := if bits r.mstatus.toNat 12 11 = 0 then .u else .m
    mstatus := mstatusOf 0 true (r.mstatus.getLsbD 7) r.mstatus }

/-- ASSISTED_MRET (R450): the EOI of the top source, then the next handler by tail-chaining, or the interrupted code. -/
def execAssistedMret (p : Fin 4) (r : PairRegs) (s : State) : Host.Outcome State Fault Refusal :=
  .next (
    let t := pairTarget p
    if (icStack t s).isEmpty || !ftst (F.IC_VA_CFG_t_EN t.1) s || !islOpen (islL p) s then s
    else
      let s := icPop t s
      match dtcm p r.sp.toNat 96 with
      | none => putPair p (pairFault 5 r.sp.toNat r) s
      | some a =>
        let (src, s) := icClaim false t s
        if src = 0 then putPair p (pairReturn (frameRegs a r s)) s
        else putPair p { r with pc := vectorOf p src s } (useFree (mwrN (a + 76) 4 src s)))

/-! ### WCALL (R406, R471-R473, R486) -/

/-- Changes a hart; HART_CFG.WORLD shows its world bit (R489). -/
def updHart (h : Fin 8) (f : Hart → Hart) (s : State) : State :=
  let s := { s with harts := upd s.harts h f }
  fput (F.OWN_HART_CFG_h_WORLD h.1) s.harts[h.1].world.toNat s

/-- A hart returns from Anvil (R472); a value in a0 when the Z480 returns it (R473, R486). -/
def anvilReturn (h : Fin 8) (code : Option Int) (s : State) : State :=
  updHart h (fun x =>
    { x with
      world := false
      mode := x.mpp
      mie := x.mpie
      pc := x.mepc + 4
      a0 := match code with
        | some c => BitVec.ofInt 64 c
        | none => x.a0 }) s

/-- What WCALL does to a hart that executes it in world 0 (R406, R471); while Hearth restarts it returns at once with -16 (R486). -/
def wcallEnter (h : Fin 8) (s : State) : State :=
  let x := s.harts[h.1]
  if x.mode = .u then updHart h (fun x => { x with exc := 2 }) s
  else if x.virt && x.mode != .m then updHart h (fun x => { x with exc := 22 }) s
  else if ftst F.OWN_HWDT_STAT_IN_RESTART s then updHart h (fun x => { x with a0 := BitVec.ofInt 64 (-16), pc := x.pc + 4 }) s
  else
    updHart h (fun x =>
      { x with
        world := true
        mepc := x.pc
        mcause := 24
        mpp := x.mode
        mpie := x.mie
        mie := false
        mode := .m
        virt := false
        anvilSince := s.now
        pc := BitVec.ofNat 64 (fget F.OWN_ANVIL_VEC_LO s + 2 ^ 32 * fget F.OWN_ANVIL_VEC_HI s) }) s

/-- WCALL: `c` is what the hart's program has brought its registers to. A hart that is parked, held by a BIST window or whose island does not run executes nothing. -/
def execWcall (h : Fin 8) (c : HartCtx) (s : State) : Host.Outcome State Fault Refusal :=
  .next (
    let x := s.harts[h.1]
    if x.parked || x.bistHeld || !islOpen (targetIsl h.1) s then s
    else
      let s := updHart h (fun x => { x with mode := c.mode, virt := c.virt, vmid := c.vmid, pc := c.pc, mepc := c.mepc, mpp := c.mpp, mpie := c.mpie, mie := c.mie, a0 := c.a0 }) s
      if x.world then anvilReturn h none s else wcallEnter h s)

end Sys2Proof.Machine
end

