-- ==== Sys2Proof/Machine/Float.lean ====
section
/-!
DEFINITION. IEEE 754 single precision, as R304 and R305 use it: exact arithmetic, rounded once to nearest, ties to even.
-/
namespace Sys2Proof.Machine

/-- A single-precision value: a NaN, an infinity, or a number with its sign (which a zero has too). -/
inductive F32 where
  | nan
  | inf (neg : Bool)
  | fin (neg : Bool) (v : Rat)
  deriving DecidableEq, Repr

/-- The value of a bit pattern. -/
def f32Of (b : Word) : F32 :=
  let neg := b.msb
  let e := bits b.toNat 30 23
  let m := bits b.toNat 22 0
  let sg (q : Rat) : Rat := if neg then -q else q
  if e = 255 then (if m = 0 then .inf neg else .nan)
  else if e = 0 then .fin neg (sg ((m : Rat) / (2 ^ 149 : Nat)))
  else if e ≥ 150 then .fin neg (sg (((2 ^ 23 + m) * 2 ^ (e - 150) : Nat) : Rat))
  else .fin neg (sg (((2 ^ 23 + m : Nat) : Rat) / (2 ^ (150 - e) : Nat)))

/-- A power of two. -/
def pow2 (e : Int) : Rat := if 0 ≤ e then ((2 ^ e.toNat : Nat) : Rat) else 1 / ((2 ^ (-e).toNat : Nat) : Rat)

/-- The exponent of the binade that a positive number lies in. -/
def binade (q : Rat) : Int :=
  let e : Int := (Nat.log2 q.num.toNat : Int) - (Nat.log2 q.den : Int)
  if q < pow2 e then e - 1 else if pow2 (e + 1) ≤ q then e + 1 else e

/-- The nearest whole number, ties to even, of a number that is not negative. -/
def roundEven (q : Rat) : Nat :=
  let f := q.floor.toNat
  let r := q - (f : Rat)
  if r < 1 / 2 then f else if 1 / 2 < r then f + 1 else if f % 2 = 0 then f else f + 1

/-- The magnitude bits of a number rounded to single precision; an overflow is an infinity. -/
def f32Mag (q : Rat) : Nat :=
  if q = 0 then 0
  else
    let u := max (binade q - 23) (-149)
    let m := roundEven (q / pow2 u)
    min 0x7F800000 ((u + 149).toNat * 2 ^ 23 + m)

/-- The nearest single-precision value of a number; `neg` is the sign of a zero. -/
def f32Round (neg : Bool) (q : Rat) : F32 :=
  let n := if q = 0 then neg else decide (q < 0)
  f32Of (BitVec.ofNat 32 (f32Mag (if q < 0 then -q else q) + if n then 2 ^ 31 else 0))

/-- The bit pattern of a value; a NaN's pattern is not stated, so it has none here. -/
def f32Bits : F32 → Option Word
  | .nan => none
  | .inf neg => some (if neg then 0xFF800000 else 0x7F800000)
  | .fin neg q => some (BitVec.ofNat 32 (f32Mag (if q < 0 then -q else q) + if neg then 2 ^ 31 else 0))

/-- The sum. -/
def f32Add : F32 → F32 → F32
  | .nan, _ => .nan
  | _, .nan => .nan
  | .inf a, .inf b => if a = b then .inf a else .nan
  | .inf a, _ => .inf a
  | _, .inf b => .inf b
  | .fin a x, .fin b y => f32Round (a && b) (x + y)

/-- The negation. -/
def f32Neg : F32 → F32
  | .nan => .nan
  | .inf a => .inf (!a)
  | .fin a x => .fin (!a) (-x)

/-- The product. -/
def f32Mul : F32 → F32 → F32
  | .nan, _ => .nan
  | _, .nan => .nan
  | .inf a, .inf b => .inf (a != b)
  | .inf a, .fin b y => if y = 0 then .nan else .inf (a != b)
  | .fin a x, .inf b => if x = 0 then .nan else .inf (a != b)
  | .fin a x, .fin b y => f32Round (a != b) (x * y)

/-- The quotient. -/
def f32Div : F32 → F32 → F32
  | .nan, _ => .nan
  | _, .nan => .nan
  | .inf _, .inf _ => .nan
  | .inf a, .fin b _ => .inf (a != b)
  | .fin a _, .inf b => .fin (a != b) 0
  | .fin a x, .fin b y => if y = 0 then (if x = 0 then .nan else .inf (a != b)) else f32Round (a != b) (x / y)

/-- Whether a value is below another; a NaN is not comparable. -/
def f32Lt : F32 → F32 → Bool
  | .nan, _ => false
  | _, .nan => false
  | .inf a, .inf b => a && !b
  | .inf a, _ => a
  | _, .inf b => !b
  | .fin _ x, .fin _ y => decide (x < y)

/-- An integer as a single-precision value, rounded once. -/
def f32OfInt (i : Int) : F32 := f32Round false (i : Rat)

/-- The nearest integer, halves away from zero, saturated to a range; an infinity lies beyond any. -/
def f32ToInt (lo hi : Int) : F32 → Int
  | .nan => 0
  | .inf neg => if neg then lo else hi
  | .fin _ q => clampInt lo hi (roundNearest q)

end Sys2Proof.Machine
end

