-- ==== Sys2Proof/Machine/SigCore.lean ====
section
/-!
DEFINITION. The signal catalogue as lookups meet it (chapter 08): definitions, bit positions, conversions, the source index, the signal cache, and records pushed to the log.
-/
namespace Sys2Proof.Machine

/-- Changes the state of the SIG unit. -/
def updSig (f : SigSt → SigSt) (s : State) : State := { s with sig := f s.sig }

/-! ### Definitions (R299-R303) -/

/-- A raw type (R300). -/
inductive RawType where
  | unsignedInt
  | signedInt
  | float32
  deriving DecidableEq, Repr

/-- A definition (R300); `raw` is none for the reserved code. -/
structure SigDef where
  source : Nat
  start : Nat
  len : Nat
  be : Bool
  raw : Option RawType
  out : Nat
  logc : Nat
  invOnes : Bool
  valid : Bool
  conv : Nat
  zero : Bool
  route : Nat
  vmask : Nat
  deriving DecidableEq, Repr

/-- The definition that 16 bytes hold. -/
def sigDef (d : List Byte) : SigDef :=
  let w (k : Nat) := leNat ((d.drop (4 * k)).take 4)
  { source := w 0, start := bits (w 1) 13 0, len := bits (w 1) 18 14 + 1, be := bits (w 1) 19 19 == 1,
    raw := (match bits (w 1) 21 20 with
      | 0 => some .unsignedInt
      | 1 => some .signedInt
      | 2 => some .float32
      | _ => none),
    out := bits (w 1) 23 22, logc := bits (w 1) 28 24, invOnes := bits (w 1) 29 29 == 1, valid := bits (w 1) 31 31 == 1, conv := bits (w 2) 10 0,
    zero := bits (w 1) 30 30 == 0 && bits (w 2) 11 11 == 0, route := bits (w 2) 31 12, vmask := w 3 }

/-- Whether a conversion entry is held as invalid (R303). -/
def convBad (i : Nat) (s : State) : Bool := i != 0 && (s.sig.conv[i - 1]? == some none)

/-- The status of a definition before its value is looked at (R198, R301, R306): 0, 1 for an empty one, 2 outside the active variant. -/
def defStatus (d : SigDef) (s : State) : Nat :=
  if !d.valid || d.raw.isNone || (d.raw == some .float32 && d.len != 32) || !d.zero || convBad d.conv s then 1
  else if !d.vmask.testBit (fget F.SIG_CTRL_VARIANT s) then 2 else 0

/-- The bit positions of a signal in its payload (R302). -/
def bitPositions (start : Nat) (be : Bool) : Nat → List Nat
  | 0 => []
  | n + 1 => start :: bitPositions (if !be then start + 1 else if start % 8 = 0 then start + 15 else start - 1) be n

/-- The positions from raw bit 0 upwards. -/
def rawPositions (d : SigDef) : List Nat := if d.be then (bitPositions d.start true d.len).reverse else bitPositions d.start false d.len

/-- How many payload bytes a signal reaches. -/
def sigReach (d : SigDef) : Nat := (rawPositions d).foldl (fun m p => max m (p / 8 + 1)) 0

/-- The raw bits of a signal in a payload. -/
def sigExtract (d : SigDef) (payload : List Byte) : Nat :=
  ((rawPositions d).zipIdx.map fun p => if (payload[p.1 / 8]?.getD 0).getLsbD (p.1 % 8) then 2 ^ p.2 else 0).foldl (· + ·) 0

/-- Deposits raw bits in a payload, and leaves every other bit (R305). -/
def sigDeposit (d : SigDef) (raw : Nat) (payload : List Byte) : List Byte :=
  (rawPositions d).zipIdx.foldl (fun l p =>
    l.modify (p.1 / 8) fun b => if raw.testBit p.2 then b ||| BitVec.ofNat 8 (2 ^ (p.1 % 8)) else b &&& ~~~(BitVec.ofNat 8 (2 ^ (p.1 % 8)))) payload

/-! ### Conversions (R303-R305) -/

/-- A raw value: a whole number, or a float. -/
inductive RawVal where
  | int (i : Int)
  | flt (b : Word)
  deriving DecidableEq, Repr

/-- Whether a raw value is below another of its type. -/
def rawLt : RawVal → RawVal → Bool
  | .int a, .int b => decide (a < b)
  | .flt a, .flt b => f32Lt (f32Of a) (f32Of b)
  | _, _ => false

/-- A 32-bit field in a raw type. -/
def rawOf (t : RawType) (w : Nat) : RawVal :=
  match t with
  | .unsignedInt => .int w
  | .signedInt => .int (signedOf 32 w)
  | .float32 => .flt (BitVec.ofNat 32 w)

/-- The 32 bits of a raw value. -/
def rawWord : RawVal → Nat
  | .int i => toField 32 i
  | .flt b => b.toNat

/-- A raw value as a float, rounded once. -/
def rawFloat : RawVal → F32
  | .int i => f32OfInt i
  | .flt b => f32Of b

/-- A conversion entry (R303): FACTOR, OFFSET and the range, none without a range check. Entry 0 is fixed. -/
structure ConvEntry where
  factor : F32
  offset : F32
  range : Option (RawVal × RawVal)

/-- The entry that a definition names. -/
def convEntry (i : Nat) (t : RawType) (s : State) : ConvEntry :=
  if i = 0 then ⟨.fin false 1, .fin false 0, none⟩
  else
    let e := ((s.sig.conv[i - 1]?.getD none).getD 0).toNat
    let w (k : Nat) := e / 2 ^ (32 * k) % 2 ^ 32
    let lo := rawOf t (w 2)
    let hi := rawOf t (w 3)
    ⟨f32Of (BitVec.ofNat 32 (w 0)), f32Of (BitVec.ofNat 32 (w 1)), if rawLt hi lo then none else some (lo, hi)⟩

/-- Whether a raw value is a NaN. -/
def rawNan : RawVal → Bool
  | .int _ => false
  | .flt b => f32Of b == .nan

/-- The range check of R304. -/
def rangeClamp (c : ConvEntry) (v : RawVal) : RawVal × Nat :=
  match c.range with
  | none => (v, 0)
  | some (lo, hi) => if rawLt v lo then (lo, 3) else if rawLt hi v then (hi, 3) else (v, 0)

/-- SIGRD's conversion of the raw bits (R304, and R198 for the status of a value that converts to a NaN): the value, none for a NaN whose pattern is not stated, and the status. -/
def sigConvert (d : SigDef) (t : RawType) (c : ConvEntry) (raw : Nat) : Option Word × Nat :=
  let v : RawVal :=
    match t with
    | .unsignedInt => .int raw
    | .signedInt => .int (signedOf d.len raw)
    | .float32 => .flt (BitVec.ofNat 32 raw)
  let (v, st) :=
    if rawNan v then (v, 3)
    else if d.invOnes && t != .float32 && raw == 2 ^ d.len - 1 then
      ((match c.range with
        | some (_, hi) => hi
        | none => v), 3)
    else rangeClamp c v
  if d.out = 3 then (some (BitVec.ofNat 32 (rawWord v)), st)
  else
    let x := f32Add (f32Mul (rawFloat v) c.factor) c.offset
    if d.out = 2 then (f32Bits x, if x = .nan then 3 else st)
    else if x = .nan then (some 0, 3)
    else if d.out = 0 then (some (BitVec.ofInt 32 (f32ToInt 0 (2 ^ 32 - 1) x)), st)
    else (some (BitVec.ofInt 32 (f32ToInt (-(2 ^ 31)) (2 ^ 31 - 1) x)), st)

/-- SIGWR's conversion of a value to its raw bits (R305): none for a NaN that an instruction makes and whose pattern is not stated. -/
def sigUnconvert (d : SigDef) (t : RawType) (c : ConvEntry) (value : Word) : Option Nat × Nat :=
  if d.out = 3 then (some (value.toNat % 2 ^ d.len), 0)
  else
    let v : F32 := match d.out with
      | 0 => f32OfInt value.toNat
      | 1 => f32OfInt value.toInt
      | _ => f32Of value
    let q := f32Div (f32Add v (f32Neg c.offset)) c.factor
    if q = .nan then (if t = .float32 then none else some 0, 3)
    else if t = .float32 then
      let b := (f32Bits q).getD 0
      let (r, st) := rangeClamp c (.flt b)
      (some (rawWord r), st)
    else
      let (r, st) := rangeClamp c (.int (f32ToInt (-(2 ^ 64)) (2 ^ 64) q))
      match r with
      | .flt b => (some b.toNat, st)
      | .int i =>
        let lo : Int := if t = .unsignedInt then 0 else -(2 ^ (d.len - 1))
        let hi : Int := if t = .unsignedInt then 2 ^ d.len - 1 else 2 ^ (d.len - 1) - 1
        let j := clampInt lo hi i
        (some (toField d.len j), if j = i then st else 3)

/-- Whether a conversion factor is 0 (R305). -/
def factorZero (c : ConvEntry) : Bool :=
  match c.factor with
  | .fin _ q => q == 0
  | _ => false

/-! ### The signal cache (R309-R313) -/

/-- The lines of definitions that an ID may name (R299). -/
def catLimit (s : State) : Nat := min (fget F.SIG_CAT_COUNT_N s) (2 ^ 23)

/-- The address of a cache line: of definitions, or of the source index (R299, R307, R309). -/
def lineAddr (idx : Bool) (j : Nat) (s : State) : Nat :=
  4096 * (if idx then fget F.SIG_SRCIDX_BASE_PAGE s else fget F.SIG_CAT_BASE_PAGE s) + 64 * j

/-- What a lookup of one line meets. -/
inductive Look where
  | hit (data : List Byte)
  | wait
  | err
  deriving DecidableEq, Repr

/-- The line that the cache holds. -/
def cached (idx : Bool) (j : Nat) (s : State) : Option SigLine := s.sig.cache.find? fun l => l.idx == idx && l.line == j

/-- Puts a line into the cache as the latest used; the least recently used line of its set that is not pinned leaves a full set (R309, R310). -/
def cachePut (l : SigLine) (s : State) : State :=
  let rest := s.sig.cache.filter fun x => !(x.idx == l.idx && x.line == l.line)
  let inSet (x : SigLine) : Bool := x.line % 960 == l.line % 960
  let rest := if (rest.filter inSet).length < 8 then rest else
    match (rest.reverse.find? fun x => inSet x && !x.pinned) with
    | some v => rest.erase v
    | none => rest
  updSig (fun g => { g with cache := l :: rest }) s

/-- Whether the memory of a line can be read (R33). -/
def lineMapped (idx : Bool) (j : Nat) (s : State) : Bool := inBanks (lineAddr idx j s) 64 || inDram (lineAddr idx j s) 64 s

/-- A lookup of a line (R308, R312): a hit answers and makes it the latest used; a miss asks for its fill and waits. The first 32 fills are
outstanding, the later ones wait in the order in which they were asked for. `first` says that the lookup is not counted yet. -/
def sigLook (idx : Bool) (j : Nat) (first : Bool) (s : State) : Look × State :=
  let s := whenB first (bump R.SIG_LOOKUPS) s
  match cached idx j s with
  | some l => (.hit l.data, cachePut l s)
  | none =>
    let s := whenB first (bump R.SIG_MISSES) s
    if s.sig.failed == some (idx, j) then (.err, s)
    else if s.sig.fills.contains (idx, j) then (.wait, s)
    else if !lineMapped idx j s then (.err, logUnmapped 0x40 (lineAddr idx j s) s)
    else (.wait, updSig (fun g => { g with fills := g.fills ++ [(idx, j)] }) s)

/-- A definition in its line. -/
def defIn (i : Nat) (line : List Byte) : List Byte := (line.drop (16 * (i % 4))).take 16

/-- Writes a definition through to memory and into the line that the cache holds (R197, R313). -/
def defWrite (i : Nat) (d : List Byte) (s : State) : State :=
  let s := mwrBytes (lineAddr false 0 s + 16 * i) d s
  match cached false (i / 4) s with
  | none => s
  | some l => updSig (fun g => { g with cache := g.cache.map fun x =>
      if x == l then { x with data := x.data.take (16 * (i % 4)) ++ d ++ x.data.drop (16 * (i % 4) + 16) } else x }) s

/-! ### Pushed records (R316-R321) -/

/-- A record that software or a thread submits (R320): the status, and the state with the record in the sink. -/
def logPush (origin : Nat) (words : List Nat) (s : State) : Status × State :=
  let w (k : Nat) := words[k]?.getD 0 % 2 ^ 32
  let kind := bits (w 1) 19 16
  let code := bits (w 2) 23 16
  let ok := kind = 2 || (kind = 4 && code ≥ 0x80) || (8 ≤ kind && kind ≤ 11)
  if !ok || !ftst F.SIG_CTRL_LOG_EN s then (.failedRefused, s)
  else if !sinkRoom s then (.failedRefused, sinkLose s)
  else
    let t := w 0 + w 1 % 65536 * 2 ^ 32
    let r := logRecord (if t = 0 then vtNs s else t) kind (epoch s) origin (w 2 + w 3 * 2 ^ 32)
    (.done, sinkPut r s)

/-- SIGWR's SIGNAL record (R317, R320): lost when the sink is full. -/
def logSignal (origin id : Nat) (sat : Bool) (value : Word) (logc : Nat) (s : State) : State :=
  if logc = 0 || !fbit F.SIG_LOG_CLASS_EN logc s || !ftst F.SIG_CTRL_LOG_EN s then s
  else if !sinkRoom s then sinkLose s
  else sinkPut (logRecord (vtNs s) 1 (epoch s) origin (id % 2 ^ 23 + (if sat then 2 ^ 24 else 0) + value.toNat * 2 ^ 32)) s

end Sys2Proof.Machine
end

