-- ==== Sys2Proof/Machine/Aes.lean ====
section
/-!
DEFINITION. AES-256 with the modes of R546: CMAC, GCM and key wrap with padding (PRESUMED from FIPS 197 and NIST SP 800-38B, 800-38D and 800-38F, assumption 23).
-/
namespace Sys2Proof.Machine

/-- Doubling in the field of AES. -/
def aesX2 (a : Byte) : Byte := (a <<< 1) ^^^ (if a.msb then 0x1B else 0)

/-- The S-box at 0 to 63. -/
def sbox0 : List Byte :=
  [0x63, 0x7C, 0x77, 0x7B, 0xF2, 0x6B, 0x6F, 0xC5, 0x30, 0x01, 0x67, 0x2B, 0xFE, 0xD7, 0xAB, 0x76,
   0xCA, 0x82, 0xC9, 0x7D, 0xFA, 0x59, 0x47, 0xF0, 0xAD, 0xD4, 0xA2, 0xAF, 0x9C, 0xA4, 0x72, 0xC0,
   0xB7, 0xFD, 0x93, 0x26, 0x36, 0x3F, 0xF7, 0xCC, 0x34, 0xA5, 0xE5, 0xF1, 0x71, 0xD8, 0x31, 0x15,
   0x04, 0xC7, 0x23, 0xC3, 0x18, 0x96, 0x05, 0x9A, 0x07, 0x12, 0x80, 0xE2, 0xEB, 0x27, 0xB2, 0x75]

/-- The S-box at 64 to 127. -/
def sbox1 : List Byte :=
  [0x09, 0x83, 0x2C, 0x1A, 0x1B, 0x6E, 0x5A, 0xA0, 0x52, 0x3B, 0xD6, 0xB3, 0x29, 0xE3, 0x2F, 0x84,
   0x53, 0xD1, 0x00, 0xED, 0x20, 0xFC, 0xB1, 0x5B, 0x6A, 0xCB, 0xBE, 0x39, 0x4A, 0x4C, 0x58, 0xCF,
   0xD0, 0xEF, 0xAA, 0xFB, 0x43, 0x4D, 0x33, 0x85, 0x45, 0xF9, 0x02, 0x7F, 0x50, 0x3C, 0x9F, 0xA8,
   0x51, 0xA3, 0x40, 0x8F, 0x92, 0x9D, 0x38, 0xF5, 0xBC, 0xB6, 0xDA, 0x21, 0x10, 0xFF, 0xF3, 0xD2]

/-- The S-box at 128 to 191. -/
def sbox2 : List Byte :=
  [0xCD, 0x0C, 0x13, 0xEC, 0x5F, 0x97, 0x44, 0x17, 0xC4, 0xA7, 0x7E, 0x3D, 0x64, 0x5D, 0x19, 0x73,
   0x60, 0x81, 0x4F, 0xDC, 0x22, 0x2A, 0x90, 0x88, 0x46, 0xEE, 0xB8, 0x14, 0xDE, 0x5E, 0x0B, 0xDB,
   0xE0, 0x32, 0x3A, 0x0A, 0x49, 0x06, 0x24, 0x5C, 0xC2, 0xD3, 0xAC, 0x62, 0x91, 0x95, 0xE4, 0x79,
   0xE7, 0xC8, 0x37, 0x6D, 0x8D, 0xD5, 0x4E, 0xA9, 0x6C, 0x56, 0xF4, 0xEA, 0x65, 0x7A, 0xAE, 0x08]

/-- The S-box at 192 to 255. -/
def sbox3 : List Byte :=
  [0xBA, 0x78, 0x25, 0x2E, 0x1C, 0xA6, 0xB4, 0xC6, 0xE8, 0xDD, 0x74, 0x1F, 0x4B, 0xBD, 0x8B, 0x8A,
   0x70, 0x3E, 0xB5, 0x66, 0x48, 0x03, 0xF6, 0x0E, 0x61, 0x35, 0x57, 0xB9, 0x86, 0xC1, 0x1D, 0x9E,
   0xE1, 0xF8, 0x98, 0x11, 0x69, 0xD9, 0x8E, 0x94, 0x9B, 0x1E, 0x87, 0xE9, 0xCE, 0x55, 0x28, 0xDF,
   0x8C, 0xA1, 0x89, 0x0D, 0xBF, 0xE6, 0x42, 0x68, 0x41, 0x99, 0x2D, 0x0F, 0xB0, 0x54, 0xBB, 0x16]

/-- The S-box. -/
def sbox : List Byte := sbox0 ++ sbox1 ++ sbox2 ++ sbox3

/-- A byte through the S-box. -/
def sub (b : Byte) : Byte := sbox[b.toNat]?.getD 0

/-- A byte back through the S-box. -/
def subInv (b : Byte) : Byte := BitVec.ofNat 8 (sbox.findIdx (· == b))

/-- The exclusive or of two byte strings. -/
def xorBytes (a b : List Byte) : List Byte := List.zipWith (· ^^^ ·) a b

/-- The words of the key schedule after the first eight; `n` more, from the eight latest (oldest first), the `i`-th word next. -/
def aesSchedule : Nat → Nat → List (List Byte) → Byte → List (List Byte)
  | 0, _, _, _ => []
  | n + 1, i, win, rc =>
    let p := win.getLastD []
    let t := if i % 8 = 0 then xorBytes ((p.drop 1 ++ p.take 1).map sub) [rc, 0, 0, 0] else if i % 8 = 4 then p.map sub else p
    let w := xorBytes (win.headD []) t
    w :: aesSchedule n (i + 1) (win.tail ++ [w]) (if i % 8 = 0 then aesX2 rc else rc)

/-- The 15 round keys of an AES-256 key. -/
def aesKeys (key : List Byte) : List (List Byte) :=
  let first := (List.range 8).map fun i => (key.drop (4 * i)).take 4
  let all := first ++ aesSchedule 52 8 first 1
  (List.range 15).map fun r => ((all.drop (4 * r)).take 4).flatten

/-- The byte of a block in row `r` and column `c`. -/
def aesAt (b : List Byte) (r c : Nat) : Byte := b[4 * (c % 4) + r]?.getD 0

/-- ShiftRows, left by `k` times the row. -/
def shiftRows (k : Nat) (b : List Byte) : List Byte := (List.range 16).map fun i => aesAt b (i % 4) (i / 4 + k * (i % 4))

/-- Multiplication in the field of AES by a number below 16. -/
def aesMul (k : Nat) (a : Byte) : Byte :=
  let b := aesX2 a
  let c := aesX2 b
  let d := aesX2 c
  (if k.testBit 0 then a else 0) ^^^ (if k.testBit 1 then b else 0) ^^^ (if k.testBit 2 then c else 0) ^^^ (if k.testBit 3 then d else 0)

/-- MixColumns with a row of coefficients. -/
def mixColumns (m : List Nat) (b : List Byte) : List Byte :=
  (List.range 16).map fun i =>
    (List.range 4).foldl (fun x k => x ^^^ aesMul (m[(k + 4 - i % 4) % 4]?.getD 0) (aesAt b k (i / 4))) 0

/-- AES-256 of one block. -/
def aesEnc (key block : List Byte) : List Byte :=
  let ks := aesKeys key
  let k (i : Nat) := ks[i]?.getD []
  let b := (List.range 13).foldl (fun b i => xorBytes (mixColumns [2, 3, 1, 1] (shiftRows 1 (b.map sub))) (k (i + 1))) (xorBytes block (k 0))
  xorBytes (shiftRows 1 (b.map sub)) (k 14)

/-- The inverse of AES-256 on one block. -/
def aesDec (key block : List Byte) : List Byte :=
  let ks := aesKeys key
  let k (i : Nat) := ks[i]?.getD []
  let b := (List.range 13).foldl (fun b i => mixColumns [14, 11, 13, 9] (xorBytes ((shiftRows 3 b).map subInv) (k (13 - i)))) (xorBytes block (k 14))
  xorBytes ((shiftRows 3 b).map subInv) (k 0)

/-- The blocks of a byte string, the last one as it is. -/
def blocks16 (m : List Byte) : List (List Byte) := (List.range ((m.length + 15) / 16)).map fun i => (m.drop (16 * i)).take 16

/-- Doubling of a block for CMAC. -/
def cmacDouble (b : List Byte) : List Byte :=
  let n := beNat b
  beBytes 16 (if n.testBit 127 then (2 * n % 2 ^ 128) ^^^ 0x87 else 2 * n)

/-- AES-CMAC. -/
def cmac (key m : List Byte) : List Byte :=
  let k1 := cmacDouble (aesEnc key (List.replicate 16 0))
  let k2 := cmacDouble k1
  let bs := if m.isEmpty then [[]] else blocks16 m
  let last := bs.getLastD []
  let last := if last.length = 16 then xorBytes last k1 else xorBytes (last ++ [0x80] ++ List.replicate (15 - last.length) 0) k2
  (bs.dropLast ++ [last]).foldl (fun x b => aesEnc key (xorBytes x b)) (List.replicate 16 0)

/-- Multiplication in the field of GCM; bit 0 is the most significant bit of a block. -/
def gmul (x y : Nat) : Nat :=
  ((List.range 128).foldl (fun (p : Nat × Nat) i =>
    let z := if x.testBit (127 - i) then p.1 ^^^ p.2 else p.1
    (z, if p.2 % 2 = 1 then (p.2 / 2) ^^^ (0xE1 * 2 ^ 120) else p.2 / 2)) (0, y)).1

/-- Pads a byte string to whole blocks. -/
def pad16 (m : List Byte) : List Byte := m ++ List.replicate ((16 - m.length % 16) % 16) 0

/-- GHASH. -/
def ghash (h : Nat) (m : List Byte) : Nat := (blocks16 m).foldl (fun x b => gmul (x ^^^ beNat b) h) 0

/-- The counter mode of GCM with a 12-byte IV: the keystream starts at counter 2. -/
def gcmCtr (key iv m : List Byte) : List Byte :=
  (List.range ((m.length + 15) / 16)).flatMap fun i => xorBytes ((m.drop (16 * i)).take 16) (aesEnc key (iv ++ beBytes 4 (i + 2)))

/-- The tag of GCM over the additional data and the ciphertext. -/
def gcmTag (key iv aad c : List Byte) : List Byte :=
  let h := beNat (aesEnc key (List.replicate 16 0))
  let x := ghash h (pad16 aad ++ pad16 c ++ beBytes 8 (8 * aad.length) ++ beBytes 8 (8 * c.length))
  xorBytes (beBytes 16 x) (aesEnc key (iv ++ beBytes 4 1))

/-- One round of key wrap over the halves, `t` counting from 1. -/
def wrapRound (key : List Byte) (a : List Byte) (rs : List (List Byte)) (j n : Nat) : List Byte × List (List Byte) :=
  rs.zipIdx.foldl (fun (p : List Byte × List (List Byte)) r =>
    let b := aesEnc key (p.1 ++ r.1)
    (beBytes 8 (beNat (b.take 8) ^^^ (n * j + r.2 + 1)), p.2 ++ [b.drop 8])) (a, [])

/-- One round of key unwrap. -/
def unwrapRound (key : List Byte) (a : List Byte) (rs : List (List Byte)) (j n : Nat) : List Byte × List (List Byte) :=
  rs.zipIdx.reverse.foldl (fun (p : List Byte × List (List Byte)) r =>
    let b := aesDec key (beBytes 8 (beNat p.1 ^^^ (n * j + r.2 + 1)) ++ r.1)
    (b.take 8, b.drop 8 :: p.2)) (a, [])

/-- The halves of a byte string. -/
def halves8 (m : List Byte) : List (List Byte) := (List.range (m.length / 8)).map fun i => (m.drop (8 * i)).take 8

/-- AES key wrap with padding. -/
def aesWrap (key m : List Byte) : List Byte :=
  let iv := beBytes 4 0xA65959A6 ++ beBytes 4 m.length
  let p := m ++ List.replicate ((8 - m.length % 8) % 8) 0
  if p.length = 8 then aesEnc key (iv ++ p)
  else
    let r := (List.range 6).foldl (fun (x : List Byte × List (List Byte)) j => wrapRound key x.1 x.2 j (p.length / 8)) (iv, halves8 p)
    r.1 ++ r.2.flatten

/-- Key unwrap with padding; none when its integrity check fails. -/
def aesUnwrap (key c : List Byte) : Option (List Byte) :=
  if c.length % 8 ≠ 0 ∨ c.length < 16 then none
  else
    let (a, p) :=
      if c.length = 16 then
        let b := aesDec key c
        (b.take 8, b.drop 8)
      else
        let n := c.length / 8 - 1
        let r := (List.range 6).foldl (fun (x : List Byte × List (List Byte)) j => unwrapRound key x.1 x.2 (5 - j) n) (c.take 8, halves8 (c.drop 8))
        (r.1, r.2.flatten)
    let len := beNat (a.drop 4)
    if beNat (a.take 4) = 0xA65959A6 ∧ len ≤ p.length ∧ p.length < len + 8 ∧ (p.drop len).all (· == 0) then some (p.take len) else none

end Sys2Proof.Machine
end

