-- ==== Sys2Proof/Machine/P521.lean ====
section
/-!
DEFINITION. ECDSA on P-521, as R327, R521 and R546 name it (PRESUMED from FIPS 186-5, assumption 23).
-/
namespace Sys2Proof.Machine

/-- The field's prime. -/
def pP : Nat := 2 ^ 521 - 1

/-- The order of the group. -/
def pN : Nat := 0x1FFFFFFFFFFFFFFFFFFFFFFFFFFFFFFFFFFFFFFFFFFFFFFFFFFFFFFFFFFFFFFFFFA51868783BF2F966B7FCC0148F709A5D03BB5C9B8899C47AEBB6FB71E91386409

/-- The coefficient b of the curve y² = x³ − 3x + b. -/
def pB : Nat := 0x51953EB9618E1C9A1F929A21A0B68540EEA2DA725B99B315F3B8B489918EF109E156193951EC7E937B1652C0BD3BB1BF073573DF883D2C34F1EF451FD46B503F00

/-- The base point. -/
def pG : Nat × Nat :=
  (0xC6858E06B70404E9CD9E3ECB662395B4429C648139053FB521F828AF606B4D3DBAA14B5E77EFE75928FE1DC127A2FFA8DE3348B3C1856A429BF97E7E31C2E5BD66,
   0x11839296A789A3BC0045C8A5FB42C7D1BD998F54449579B446817AFBD17273E662C97EE72995EF42640C550B9013FAD0761353C7086A272C24088BE94769FD16650)

/-- A power modulo `m`, by the bits of the exponent; `n` bounds their number. -/
def powMod (m : Nat) : Nat → Nat → Nat → Nat
  | 0, _, _ => 1
  | n + 1, b, e => (if e % 2 = 1 then b else 1) * powMod m n (b * b % m) (e / 2) % m

/-- The inverse modulo a prime. -/
def invMod (m a : Nat) : Nat := powMod m 522 (a % m) (m - 2)

/-- The sum of two points; none is the point at infinity. -/
def pAdd : Option (Nat × Nat) → Option (Nat × Nat) → Option (Nat × Nat)
  | none, q => q
  | p, none => p
  | some (x1, y1), some (x2, y2) =>
    if x1 = x2 ∧ (y1 + y2) % pP = 0 then none
    else
      let l := if x1 = x2 then (3 * x1 * x1 + pP - 3) * invMod pP (2 * y1) % pP else (y2 + pP - y1) * invMod pP (x2 + pP - x1) % pP
      let x := (l * l + 2 * pP - x1 - x2) % pP
      some (x, (l * (x1 + pP - x) + pP - y1) % pP)

/-- A multiple of a point; `n` bounds the bits of the factor. -/
def pMul : Nat → Nat → Option (Nat × Nat) → Option (Nat × Nat)
  | 0, _, _ => none
  | n + 1, k, p => pAdd (if k % 2 = 1 then p else none) (pMul n (k / 2) (pAdd p p))

/-- Whether a point lies on the curve. -/
def pOnCurve (x y : Nat) : Bool := decide (x < pP) && decide (y < pP) && decide (y * y % pP = (x * x % pP * x + (pP - 3) * x + pB) % pP)

/-- The 133-byte form of a public key: 0x04, X, Y (R521). -/
def pBytes : Option (Nat × Nat) → List Byte
  | none => List.replicate 133 0
  | some (x, y) => 0x04 :: (beBytes 66 x ++ beBytes 66 y)

/-- A public key from its 133-byte form. -/
def pPoint (b : List Byte) : Option (Nat × Nat) :=
  let x := beNat ((b.drop 1).take 66)
  let y := beNat ((b.drop 67).take 66)
  if b.length = 133 ∧ b.head? = some 0x04 ∧ pOnCurve x y = true then some (x, y) else none

/-- The public key of a private key. -/
def pPublic (d : Nat) : List Byte := pBytes (pMul 521 d (some pG))

/-- The signature r ‖ s of a digest with a nonce. -/
def pSign (d : Nat) (digest : List Byte) (nonce : Nat) : List Byte :=
  let k := nonce % (pN - 1) + 1
  let r := match pMul 521 k (some pG) with
    | some (x, _) => x % pN
    | none => 0
  let s := invMod pN k * ((beNat digest + r * d) % pN) % pN
  beBytes 66 r ++ beBytes 66 s

/-- Whether a signature r ‖ s of a digest verifies under a public key. -/
def pVerify (key digest sig : List Byte) : Bool :=
  match pPoint key with
  | none => false
  | some q =>
    let r := beNat (sig.take 66)
    let s := beNat ((sig.drop 66).take 66)
    if r = 0 ∨ pN ≤ r ∨ s = 0 ∨ pN ≤ s then false
    else
      let w := invMod pN s
      match pAdd (pMul 521 (beNat digest * w % pN) (some pG)) (pMul 521 (r * w % pN) (some q)) with
      | some (x, _) => decide (x % pN = r)
      | none => false

end Sys2Proof.Machine
end

