-- ==== Sys2Proof/Machine/Key.lean ====
section
/-!
DEFINITION. Keys and the crypto engine (chapter 16): roots and derivation, key slots, job descriptors and their checks, the operations, and how jobs end. Tamper's Quench is here too.
-/
namespace Sys2Proof.Machine

/-- Changes the key RAM and the crypto engine. -/
def updKey (f : KeySt → KeySt) (s : State) : State := { s with key := f s.key }

/-! ### Roots (R536) -/

/-- Whether the fuse root is in use: the life cycle is PRODUCTION. -/
def lcProduction (s : State) : Bool := s.own.lc == 2

/-- The root in use. -/
def rootKey (s : State) : List Byte :=
  if lcProduction s then leBytes 32 Config.fuseRoot else (sha512 (ascii "Z480-TEST-ROOT" ++ leBytes 8 Config.uid)).take 32

/-- Whether derivation from the root is blocked (R538). -/
def rootBlocked (s : State) : Bool := ftst F.KEY_STATUS_ROOT_BLOCKED s

/-- The KDF of R537: the first `n` bytes. -/
def kdf (kIn label ctx : List Byte) (n : Nat) : List Byte :=
  ((List.range ((n + 63) / 64)).flatMap fun i =>
    hmac512 kIn (beBytes 4 (i + 1) ++ label ++ [0] ++ ctx ++ beBytes 4 (8 * n))).take n

/-! ### Key parts (R539-R543) -/

/-- ATTR of a part. -/
def partAttr (p : Fin 128) (s : State) : Nat := (rd (R.KEY_ATTR_s_h (p.1 / 2) (p.1 % 2)) s).toNat

/-- Whether a part holds a key. -/
def partValid (p : Fin 128) (s : State) : Bool := bits (partAttr p s) 31 31 == 1

/-- The type of a part (R560): 1 AES-256, 2 HMAC, 3 P-521 private, 4 P-521 public, 5 DERIVE secret. -/
def partType (p : Fin 128) (s : State) : Nat := bits (partAttr p s) 2 0

/-- Whether a part carries a usage bit of ATTR. -/
def partUse (p : Fin 128) (b : Nat) (s : State) : Bool := bits (partAttr p s) b b == 1

/-- A part becomes empty. -/
def clearPart (p : Fin 128) (s : State) : State :=
  let (i, h) := (p.1 / 2, p.1 % 2)
  clearRegs [R.KEY_ATTR_s_h i h, R.KEY_USES_s_h i h, R.KEY_KCV_LO_s_h i h, R.KEY_KCV_HI_s_h i h]
    (updKey (fun k => { k with keys := k.keys.set p.1 [] p.2 }) s)

/-- Every part becomes empty (R543, R555). -/
def clearKeys (s : State) : State := forFin 128 clearPart s

/-- What chip-level resets, Hearth restarts and wakes from DEEP clear: shadows, and active parts with EXPIRE_RESET (R543). -/
def expireKeys (s : State) : State := forFin 128 (fun p s => if p.1 % 2 = 1 ∨ partUse p 17 s then clearPart p s else s) s

/-- The key check value (R540). -/
def keyKcv (type : Nat) (key : List Byte) : List Byte :=
  (sha512 (ascii "Z480KCV1" ++ leBytes 1 type ++ (if type = 3 then pPublic (beNat key) else key))).take 8

/-- The length of a key of a type. -/
def keyLen (type : Nat) : Nat :=
  match type with
  | 1 => 32
  | 2 => 64
  | 3 => 66
  | 4 => 133
  | 5 => 64
  | _ => 0

/-- Loads a part (R539, R560). -/
def loadPart (l : KeyLoad) (s : State) : State :=
  let (i, h) := (l.part.1 / 2, l.part.1 % 2)
  updKey (fun k => { k with keys := k.keys.set l.part.1 l.key l.part.2 }) s
    |> wr (R.KEY_ATTR_s_h i h) (BitVec.ofNat 32 (l.type + l.attr + 2 ^ 31)) |> wr (R.KEY_USES_s_h i h) (BitVec.ofNat 32 (l.uses % 2 ^ 24))
    |> wr (R.KEY_KCV_LO_s_h i h) (BitVec.ofNat 32 (leNat (l.kcv.take 4))) |> wr (R.KEY_KCV_HI_s_h i h) (BitVec.ofNat 32 (leNat (l.kcv.drop 4)))

/-! ### Job descriptors (R545-R547) -/

/-- A little-endian field of a descriptor. -/
def jf (d : List Byte) (k n : Nat) : Nat := leNat ((d.drop k).take n)

/-- PREHASHED and KEY_IN_MEM. -/
def jPre (d : List Byte) : Bool := jf d 1 1 % 2 == 1
def jMem (d : List Byte) : Bool := jf d 1 1 / 2 % 2 == 1

/-- Whether an operation uses KEY_SLOT, DST_SLOT. -/
def opKey (d : List Byte) : Bool := let op := jf d 0 1; !(op == 0x01 || op == 0x0F || op == 0x10 || (op == 0x09 && jMem d))
def opDst (op : Nat) : Bool := [0x0A, 0x0B, 0x0C, 0x0E, 0x10].contains op

/-- The least and the greatest IN_LEN of an operation. -/
def opIn (d : List Byte) : Nat × Nat :=
  let big := 2 ^ 32
  match jf d 0 1 with
  | 0x04 | 0x05 | 0x06 => (0, 65536)
  | 0x07 => (16, 65552)
  | 0x08 | 0x09 => if jPre d then (64, 64) else (0, big)
  | 0x0A | 0x0B | 0x0D => (0, 0)
  | 0x0C => (16, 144)
  | 0x0E => if jf d 3 1 = 0xFF then (64, 64) else (0, 0)
  | 0x0F => (1, 4096)
  | 0x10 => (133, 133)
  | _ => (0, big)

/-- The least and the greatest AUX_LEN of an operation. -/
def opAux (d : List Byte) : Nat × Nat :=
  match jf d 0 1 with
  | 0x03 => (64, 64)
  | 0x05 => (16, 16)
  | 0x06 | 0x07 => (12, 4096)
  | 0x09 => if jMem d then (265, 265) else (132, 132)
  | 0x0A => (3, 322)
  | 0x0E => (32, 32)
  | _ => (0, 0)

/-- Whether an operation writes an output buffer. -/
def opOut (op : Nat) : Bool := [0x01, 0x02, 0x04, 0x06, 0x07, 0x08, 0x0B, 0x0D, 0x0E, 0x0F].contains op

/-- Whether KEY_SLOT has one of the forms of R545. -/
def slotForm (root : Bool) (v : Nat) : Bool := decide (v % 128 < 64) || v == 0xFF || (root && v == 0x40)

/-- Whether a descriptor is invalid (R547). -/
def jobInvalid (d : List Byte) : Bool :=
  let op := jf d 0 1
  let out (r : Nat × Nat) (v : Nat) : Bool := decide (v < r.1) || decide (r.2 < v)
  op == 0 || decide (0x10 < op) || decide (4 ≤ jf d 1 1) || jf d 46 2 != 0 || jf d 52 12 != 0 || jf d 36 1 != 0 || decide (16 ≤ jf d 39 1)
    || !slotForm true (jf d 2 1) || !slotForm false (jf d 3 1) || (!opKey d && jf d 2 1 != 0xFF) || (!opDst op && jf d 3 1 != 0xFF)
    || out (opIn d) (jf d 4 4) || out (opAux d) (jf d 32 4)
    || (decide (0 < (opIn d).2) && op != 0x0F && jf d 8 1 % 4 != 0) || (decide (0 < (opAux d).2) && jf d 24 1 % 4 != 0)
    || (opOut op && jf d 16 1 % 4 != 0)

/-- Whether the PK unit serves an operation. -/
def opPk (op : Nat) : Bool := [0x08, 0x09, 0x0D, 0x0E].contains op

/-- The operation of a job. -/
def CryJob.op (j : CryJob) : Nat := jf j.desc 0 1

/-- The identity of a job's accesses. -/
def CryJob.ident (j : CryJob) : Ident := ⟨j.port, j.code, j.world, j.inst⟩

/-- The part that a slot field names. -/
def slotPart (v : Nat) : Option (Fin 128) := if v % 128 < 64 then some (Fin.ofNat 128 (2 * (v % 64) + v / 128)) else none

/-- The key type that an operation requires, and its usage bit (R546). -/
def opNeeds (op : Nat) : Nat × List Nat :=
  match op with
  | 0x02 | 0x03 => (2, [13])
  | 0x04 | 0x05 => (1, [13])
  | 0x06 | 0x0B => (1, [10])
  | 0x07 | 0x0C => (1, [11])
  | 0x08 => (3, [8])
  | 0x09 => (4, [9])
  | 0x0A => (5, [12])
  | 0x0D => (3, [8, 14])
  | _ => (3, [14])

/-- Whether a job may use a key part (R539, R541, R542, R546). -/
def keyAllowed (j : CryJob) (p : Fin 128) (s : State) : Bool :=
  let (ty, us) := opNeeds j.op
  (j.world || (p.1 % 2 == 0 && !partUse p 19 s && (partUse p 18 s || bits (partAttr p s) 24 20 == j.inst)))
    && partValid p s && partType p s == ty && us.any (fun b => partUse p b s)
    && !(partUse p 16 s && fget (F.KEY_USES_s_h_USES (p.1 / 2) (p.1 % 2)) s == 0)

/-- Whether a job's key field passes its start checks (R538, R541, R542). -/
def keyPasses (j : CryJob) (s : State) : Bool :=
  let v := jf j.desc 2 1
  if !opKey j.desc then true
  else if v = 0x40 then j.op == 0x0A && j.world && !rootBlocked s
  else match slotPart v with
    | none => false
    | some p => keyAllowed j p s

/-- Whether a job's destination passes its start checks (R546, R547, R550). -/
def dstPasses (j : CryJob) (s : State) : Bool :=
  let v := jf j.desc 3 1
  match j.op, slotPart v with
  | 0x0B, some p => partValid p s && partUse p 15 s
  | 0x0E, none => v == 0xFF
  | 0x0E, some p => partValid p s && (partType p s == 3 || partType p s == 4)
  | 0x0A, some p | 0x0C, some p | 0x10, some p => !partValid p s
  | op, none => !opDst op
  | _, _ => true

/-- Whether a valid job is refused at its start (R547, R555). -/
def startRefused (j : CryJob) (s : State) : Bool :=
  ([0x0A, 0x0B, 0x0C, 0x0E, 0x10].contains j.op && !j.world)
    || ([0x0A, 0x0C, 0x10].contains j.op && ftst F.TAMP_STATUS_TAMPER_LATCH s)
    || !keyPasses j s || !dstPasses j s

/-- The use of a counted key (R542). -/
def useKey (p : Fin 128) (s : State) : State :=
  if !partUse p 16 s then s
  else
    let f := F.KEY_USES_s_h_USES (p.1 / 2) (p.1 % 2)
    let s := fput f (fget f s - 1) s
    whenB (fget f s == 0) (fun s => raise F.KEY_EVENT 1 (fput (F.KEY_ATTR_s_h_DISABLED (p.1 / 2) (p.1 % 2)) 1 s)) s

/-! ### The operations -/

/-- What an operation computes: RESULT, the output, and the key it loads. -/
structure CryOut where
  result : Nat
  out : List Byte
  load : Option (Nat × List Byte)

/-- An output. -/
def cryOut (b : List Byte) : CryOut := ⟨0, b, none⟩

/-- A comparison. -/
def cryCheck (ok : Bool) : CryOut := ⟨if ok then 0 else 1, [], none⟩

/-- The digest that SIGN and VERIFY act on. -/
def jobDigest (d inp : List Byte) : List Byte := if jPre d then inp else sha512 inp

/-- A per-signature secret number; the manual does not give it. -/
def signNonce (s : State) : Nat := 1 + freeVal s % (pN - 1)

/-- The statement of R550. -/
def attestStatement (nonce subject : List Byte) (s : State) : List Byte :=
  ascii "Z480ATST" ++ leBytes 1 s.own.lc ++ leBytes 1 (if lcProduction s then 0 else 1) ++ leBytes 1 (fget F.SYSCTL_BOOT_STATUS_SLOT s)
    ++ leBytes 1 (fget F.SIG_CTRL_VARIANT s) ++ leBytes 4 s.boot.rollback ++ leBytes 4 (rd R.SYSCTL_BOOT_SEQ_LO s).toNat
    ++ leBytes 4 (rd R.SYSCTL_BOOT_SEQ_HI s).toNat ++ leBytes 6 (vtNs s) ++ leBytes 2 (epoch s) ++ nonce
    ++ ((List.range 16).flatMap fun k => leBytes 4 (rd (R.OWN_MEAS_k k) s).toNat) ++ subject

/-- The public key of a part. -/
def partPublic (p : Fin 128) (s : State) : List Byte :=
  if partType p s = 3 then pPublic (beNat s.key.keys[p.1]) else s.key.keys[p.1]

/-- The key that a DERIVE makes of its label and context (R537); none when the lengths in AUX lie outside the table. -/
def deriveKey (kIn aux : List Byte) (type : Nat) : Option (List Byte) :=
  let n := leNat (aux.take 2)
  let label := (aux.drop 2).take n
  let ctx := aux.drop (2 + n)
  if n < 1 ∨ 64 < n ∨ aux.length < 2 + n ∨ 256 < ctx.length then none
  else match type with
    | 1 => some (kdf kIn label ctx 32)
    | 2 => some (kdf kIn label ctx 64)
    | 5 => some (kdf kIn label ctx 64)
    | 3 => some (beBytes 66 (beNat (kdf kIn label ctx 74) % (pN - 1) + 1))
    | _ => none

/-- What a job computes of its key, its input, its auxiliary data and, for UNWRAP, the type in the key's record (R546); none when a DERIVE is refused. -/
def cryCompute (j : CryJob) (key inp aux : List Byte) (recType : Nat) (s : State) : Option CryOut :=
  let d := j.desc
  match j.op with
  | 0x01 => some (cryOut (sha512 inp))
  | 0x02 => some (cryOut (hmac512 key inp))
  | 0x03 => some (cryCheck (hmac512 key inp == aux))
  | 0x04 => some (cryOut (cmac key inp))
  | 0x05 => some (cryCheck (cmac key inp == aux))
  | 0x06 =>
    let c := gcmCtr key (aux.take 12) inp
    some (cryOut (c ++ gcmTag key (aux.take 12) (aux.drop 12) c))
  | 0x07 =>
    let c := inp.take (inp.length - 16)
    if gcmTag key (aux.take 12) (aux.drop 12) c == inp.drop (inp.length - 16) then some (cryOut (gcmCtr key (aux.take 12) c)) else some (cryCheck false)
  | 0x08 => some (cryOut (pSign (beNat key) (jobDigest d inp) (signNonce s)))
  | 0x09 => some (cryCheck (pVerify (if jMem d then aux.drop 132 else key) (jobDigest d inp) (aux.take 132)))
  | 0x0A =>
    let type := jf d 39 1 / 2
    (deriveKey key aux type).map fun k => ⟨0, [], some (type, k)⟩
  | 0x0B =>
    match slotPart (jf d 3 1) with
    | some p => some (cryOut (aesWrap key s.key.keys[p.1]))
    | none => none
  | 0x0C =>
    match aesUnwrap key inp with
    | some k => if recType ≠ 0 ∧ k.length = keyLen recType then some ⟨0, [], some (recType, k)⟩ else some (cryCheck false)
    | none => some (cryCheck false)
  | 0x0D => some (cryOut (pPublic (beNat key)))
  | 0x0E =>
    let subject := match slotPart (jf d 3 1) with
      | some p => sha512 (partPublic p s)
      | none => inp
    let st := attestStatement aux subject s
    some (cryOut (st ++ pSign (beNat key) (sha512 st) (signNonce s)))
  | 0x0F => some (cryOut ((List.range (jf d 4 4)).map fun i => BitVec.ofNat 8 (Config.freeNat (s.fresh + i))))
  | _ => some ⟨0, [], some (4, inp)⟩

/-! ### Jobs -/

/-- The jobs of a pick that wait or run. -/
def cryCount (f : CryJob → Bool) (s : State) : Nat :=
  (s.key.queue.filter f).length + (s.key.sym.toList.filter fun r => f r.job).length + (s.key.pk.toList.filter fun r => f r.job).length

/-- Shows QUEUE_FILL and the host's outstanding jobs. -/
def cryShow (s : State) : State :=
  s |> fput F.KEY_STATUS_QUEUE_FILL (min 255 (cryCount (fun _ => true) s))
    |> fput F.KEY_JQ_STAT_OUT (cryCount (fun j => match j.sub with | .host _ => true | _ => false) s)

/-- Counts a job that ends, by its status (R559). -/
def cryTally (st : Status) (s : State) : State :=
  let s := bump R.KEY_JOBS s
  match st with
  | .failedRefused => bump R.KEY_REFUSED s
  | .abortedTamper => bump R.KEY_TAMPER_ABORTS s
  | _ => s

/-- Reports a job's status to its submitter (R548): a thread collects it, the host reads STATUS, an instance gets its record. -/
def cryReport (j : CryJob) (st : Status) (s : State) : State :=
  match j.sub with
  | .engine e t tag => if j.drop.isSome then s else updKey (fun k => { k with coll := k.coll ++ [((e, t, tag), st)] }) s
  | .host _ => raise F.KEY_EVENT 0 (dmaWrite j.ident (j.at_ + 45) [BitVec.ofNat 8 st.code] s).2
  | .vqi i item gen => vqiFinish ⟨item, i, gen, st, 0, 0, none⟩ s

/-- A job that is no longer held by the engine ends. -/
def cryEnd (j : CryJob) (st : Status) (s : State) : State := cryShow (cryReport j st (cryTally st s))

/-- Puts a job at the end of the queue. -/
def cryEnqueue (sub : CrySub) (w : Ident) (at_ : Nat) (desc : List Byte) (s : State) : State :=
  cryShow (updKey (fun k =>
    { k with
      queue := k.queue ++ [⟨k.nextId, sub, w.port, w.code, w.world, w.inst, at_, desc, none⟩]
      nextId := k.nextId + 1 }) s)

/-- Reads a buffer of a job. -/
def cryRead (j : CryJob) (a n : Nat) (s : State) : Option (List Byte) × State := if n = 0 then (some [], s) else unitRead j.ident (a % 2 ^ 40) n s

/-- The key that a job copies into the engine's working register at its start (R544). -/
def jobKey (j : CryJob) (s : State) : List Byte :=
  if jf j.desc 2 1 = 0x40 then rootKey s
  else match slotPart (jf j.desc 2 1) with
    | some p => if opKey j.desc then s.key.keys[p.1] else []
    | none => []

/-- A run of a job that ended without output. -/
def cryFailed (j : CryJob) (st : Status) : CryRun := ⟨j, st, 0, [], none⟩

/-- The part that a job loads, when it loads one (R539, R550). -/
def jobLoad (j : CryJob) (type : Nat) (key : List Byte) : Option KeyLoad :=
  (slotPart (jf j.desc 3 1)).map fun p =>
    let a := jf j.desc 36 4 % 2 ^ 25 / 256 * 256
    let a := if j.op = 0x0A ∧ jf j.desc 2 1 = 0x40 then a else a - bits a 14 14 * 2 ^ 14
    ⟨p, key, type, a, jf j.desc 40 3, keyKcv type key⟩

/-- A job starts: its checks, the use of its key, its inputs and its computation (R542, R544, R547, R548). -/
def cryStart (j : CryJob) (s : State) : CryRun × State :=
  if startRefused j s then (cryFailed j .failedRefused, s)
  else
    let key := jobKey j s
    let s := match slotPart (jf j.desc 2 1) with
      | some p => if opKey j.desc then useKey p s else s
      | none => s
    match cryRead j (jf j.desc 8 5) (if j.op = 0x0F then 0 else jf j.desc 4 4) s with
    | (none, s) => (cryFailed j .failedBus, s)
    | (some inp, s) =>
      match cryRead j (jf j.desc 24 5) (jf j.desc 32 4) s with
      | (none, s) => (cryFailed j .failedBus, s)
      | (some aux, s) =>
        match (if j.op = 0x0C then cryRead j (jf j.desc 8 5 - 35) 1 s else (some [], s)) with
        | (none, s) => (cryFailed j .failedBus, s)
        | (some ty, s) =>
          match cryCompute j key inp aux (leNat ty) s with
          | none => (cryFailed j .failedRefused, s)
          | some o =>
            let s := { s with fresh := s.fresh + (if j.op = 0x0F then jf j.desc 4 4 else 1) }
            (⟨j, .done, o.result, o.out, match o.load with | some (t, k) => jobLoad j t k | none => none⟩, s)

/-- The next waiting job of a unit starts, when the unit is free and that job is of the operation (R546). -/
def cryNext (op : Nat) (s : State) : State :=
  let pk := opPk op
  if !islOpen islHC s || (if pk then s.key.pk else s.key.sym).isSome then s
  else match s.key.queue.find? fun j => opPk j.op == pk with
    | none => s
    | some j =>
      if j.op ≠ op then s
      else
        let s := updKey (fun k => { k with queue := k.queue.filter fun x => x.id != j.id }) s
        let (r, s) := cryStart j s
        cryShow (updKey (fun k => if pk then { k with pk := some r } else { k with sym := some r }) s)

/-- A job that completed writes its output in one burst, then RESULT and OUT_LEN in its descriptor, and loads its key (R548). -/
def cryWrite (r : CryRun) (s : State) : Status × State :=
  let j := r.job
  if r.status ≠ .done then (r.status, s)
  else match (if r.out.isEmpty then (true, s) else dmaWrite j.ident (jf j.desc 16 5) r.out s) with
    | (false, s) => (.failedBus, s)
    | (true, s) =>
      let fields := [(44, leBytes 1 r.result), (48, leBytes 4 r.out.length)]
      let s := fields.foldl (fun s f =>
        match j.sub with
        | .engine .. => mwrBytes (j.at_ + f.1) f.2 s
        | _ => (dmaWrite j.ident (j.at_ + f.1) f.2 s).2) s
      (.done, match r.load with | some l => loadPart l s | none => s)

/-- The running job of a unit ends (R168, R548, R549). -/
def cryDone (pk : Bool) (s : State) : State :=
  match if pk then s.key.pk else s.key.sym with
  | none => s
  | some r =>
    let s := updKey (fun k => if pk then { k with pk := none } else { k with sym := none }) s
    match r.job.drop with
    | some st => cryEnd r.job st s
    | none =>
      let (st, s) := cryWrite r s
      cryEnd r.job st s

/-- The submitter of the jobs of a pick is lost: jobs that wait end at once, running ones run on and end without output (R168, R549). -/
def cryDrop (f : CrySub → Bool) (st : Status) (s : State) : State :=
  let gone := s.key.queue.filter fun j => f j.sub
  let mark (r : CryRun) : CryRun := if f r.job.sub then { r with job := { r.job with drop := some st } } else r
  let s := updKey (fun k =>
    { k with
      queue := k.queue.filter fun j => !f j.sub
      sym := k.sym.map mark
      pk := k.pk.map mark
      coll := k.coll.filter fun c => !f (.engine c.1.1 c.1.2.1 c.1.2.2) }) s
  gone.foldl (fun s j => cryEnd { j with drop := some st } st s) s

/-- Whether the jobs of a thread are meant. -/
def isThread (e : Fin 24) (t : Fin 4) : CrySub → Bool
  | .engine e' t' _ => e == e' && t == t'
  | _ => false

/-- The outstanding tags of an engine (R205). -/
def engTags (e : Fin 24) (s : State) : List Nat :=
  let tag (j : CryJob) : List Nat := match j.sub with
    | .engine e' _ g => if e = e' then [g] else []
    | _ => []
  s.key.queue.flatMap tag ++ s.key.sym.toList.flatMap (fun r => tag r.job) ++ s.key.pk.toList.flatMap (fun r => tag r.job)
    ++ s.key.coll.filterMap fun c => if c.1.1 = e then some c.1.2.2 else none

/-! ### Host jobs and the operations' commands -/

/-- The effect of JQ_SUBMIT.GO (R547, R549): the latest result is in JQ_STAT.LAST. -/
def jqSubmit (w : Initiator) (s : State) : State :=
  let a := (rd R.KEY_JQ_ADDR_LO s).toNat / 64 * 64 + 2 ^ 32 * fget F.KEY_JQ_ADDR_HI s
  let put (st : Status) := fput F.KEY_JQ_STAT_LAST st.code
  if 16 ≤ cryCount (fun j => match j.sub with | .host _ => true | _ => false) s then put .failedRefused (bump R.KEY_REFUSED s)
  else match unitRead (initIdent w s) a 64 s with
    | (none, s) => put .failedRefused (bump R.KEY_REFUSED s)
    | (some d, s) =>
      if jobInvalid d then put .failedRefused (bump R.KEY_REFUSED s)
      else put .done (cryEnqueue (.host (w == .hc)) (initIdent w s) a d s)

/-- JQ_SUBMIT. -/
def execJqSubmit (w : Initiator) (s : State) : Host.Outcome State Fault Refusal := .next (regCmd w R.KEY_JQ_SUBMIT (hearthOnly w (jqSubmit w)) s)

/-- SHA512 (R546). -/
def execSha512 (s : State) : Host.Outcome State Fault Refusal := .next (cryNext 0x01 s)

/-- HMAC (R546). -/
def execHmac (s : State) : Host.Outcome State Fault Refusal := .next (cryNext 0x02 s)

/-- HMAC_VER (R546). -/
def execHmacVer (s : State) : Host.Outcome State Fault Refusal := .next (cryNext 0x03 s)

/-- CMAC (R546). -/
def execCmac (s : State) : Host.Outcome State Fault Refusal := .next (cryNext 0x04 s)

/-- CMAC_VER (R546). -/
def execCmacVer (s : State) : Host.Outcome State Fault Refusal := .next (cryNext 0x05 s)

/-- GCM_ENC (R546). -/
def execGcmEnc (s : State) : Host.Outcome State Fault Refusal := .next (cryNext 0x06 s)

/-- GCM_DEC (R546). -/
def execGcmDec (s : State) : Host.Outcome State Fault Refusal := .next (cryNext 0x07 s)

/-- SIGN (R546). -/
def execSign (s : State) : Host.Outcome State Fault Refusal := .next (cryNext 0x08 s)

/-- VERIFY (R546). -/
def execVerify (s : State) : Host.Outcome State Fault Refusal := .next (cryNext 0x09 s)

/-- DERIVE (R537, R546). -/
def execDerive (s : State) : Host.Outcome State Fault Refusal := .next (cryNext 0x0A s)

/-- WRAP (R546). -/
def execWrap (s : State) : Host.Outcome State Fault Refusal := .next (cryNext 0x0B s)

/-- UNWRAP (R546). -/
def execUnwrap (s : State) : Host.Outcome State Fault Refusal := .next (cryNext 0x0C s)

/-- PUBKEY (R546). -/
def execPubkey (s : State) : Host.Outcome State Fault Refusal := .next (cryNext 0x0D s)

/-- ATTEST (R550). -/
def execAttest (s : State) : Host.Outcome State Fault Refusal := .next (cryNext 0x0E s)

/-- RANDOM (R546): the bytes are free values. -/
def execRandom (s : State) : Host.Outcome State Fault Refusal := .next (cryNext 0x0F s)

/-- LOADPUB (R546). -/
def execLoadpub (s : State) : Host.Outcome State Fault Refusal := .next (cryNext 0x10 s)

/-- CRYPTO_JOB_DONE (R548): the running job of the SYM or of the PK unit ends. -/
def execCryptoJobDone (pk : Bool) (s : State) : Host.Outcome State Fault Refusal := .next (cryDone pk s)

/-! ### Slot commands (R544, R553, R559) -/

/-- The end of a slot command. -/
def slotDone (slot : Fin 64) (st : Status) (s : State) : State :=
  s |> fput F.KEY_SLOT_CMD_SLOT slot.1 |> fput F.KEY_SLOT_STAT_RESULT st.code |> raise F.KEY_EVENT 2

/-- The active part and the shadow of a slot. -/
def activePart (slot : Fin 64) : Fin 128 := ⟨2 * slot.1, by omega⟩
def shadowPart (slot : Fin 64) : Fin 128 := ⟨2 * slot.1 + 1, by omega⟩

/-- The effect of CLEAR: both parts become empty. -/
def slotClear (slot : Fin 64) (s : State) : State := slotDone slot .done (clearPart (shadowPart slot) (clearPart (activePart slot) s))

/-- The effect of COMMIT (R553): the shadow becomes the active part. -/
def slotCommit (slot : Fin 64) (s : State) : State :=
  let (a, h) := (activePart slot, shadowPart slot)
  if !partValid h s then slotDone slot .failedRefused s
  else
    let i := slot.1
    let s := updKey (fun k => { k with keys := k.keys.set a.1 k.keys[h.1] a.2 }) s
    let cp (f : Nat → Nat → Nat) (s : State) : State := wr (f i 0) (rd (f i 1) s) s
    slotDone slot .done (clearPart h (s |> cp R.KEY_ATTR_s_h |> cp R.KEY_USES_s_h |> cp R.KEY_KCV_LO_s_h |> cp R.KEY_KCV_HI_s_h))

/-- The effect of DISCARD. -/
def slotDiscard (slot : Fin 64) (s : State) : State := slotDone slot .done (clearPart (shadowPart slot) s)

/-- SLOT_CLEAR. -/
def execSlotClear (w : Initiator) (slot : Fin 64) (s : State) : Host.Outcome State Fault Refusal := .next (regCmd w R.KEY_SLOT_CMD (hearthOnly w (slotClear slot)) s)

/-- SLOT_COMMIT. -/
def execSlotCommit (w : Initiator) (slot : Fin 64) (s : State) : Host.Outcome State Fault Refusal := .next (regCmd w R.KEY_SLOT_CMD (hearthOnly w (slotCommit slot)) s)

/-- SLOT_DISCARD. -/
def execSlotDiscard (w : Initiator) (slot : Fin 64) (s : State) : Host.Outcome State Fault Refusal :=
  .next (regCmd w R.KEY_SLOT_CMD (hearthOnly w (slotDiscard slot)) s)

/-- The counters of KEY (R559). -/
def keyCounters : List Nat := [R.KEY_JOBS, R.KEY_REFUSED, R.KEY_TAMPER_ABORTS]

/-- KEY_CNT_CLR. -/
def execKeyCntClr (w : Initiator) (s : State) : Host.Outcome State Fault Refusal :=
  .next (regCmd w R.KEY_CNT_CLR (hearthOnly w (clearRegs keyCounters)) s)

/-! ### Tamper (R554-R557, R561) -/

/-- The RTC count, at 32.768 kHz since power-on (R462). -/
def rtcCount (s : State) : Nat := (s.now - s.heron.rtcBase) * 32768 / 1000000000

/-- Whether a tamper source is watched (R554): 0 SUPPLY, 1 CLOCK, 2 TEMP_LOW, 3 TEMP_HIGH, 4 DEBUG, 5 TAMP0, 6 TAMP1. -/
def tamperWatched (src : Fin 7) (s : State) : Bool :=
  if src = 5 then ftst F.TAMP_CFG_TAMP0_EN s
  else if src = 6 then ftst F.TAMP_CFG_TAMP1_EN s
  else if lcProduction s then true
  else src != 4 && !ftst F.TAMP_CFG_INT_MASK s

/-- Whether a job names a slot or the root. -/
def namesKey (j : CryJob) : Bool := slotForm true (jf j.desc 2 1) && jf j.desc 2 1 != 0xFF || jf j.desc 3 1 != 0xFF

/-- The signature job of a crash image is at work for 2.1 ms from its trigger (R331). -/
def crashAbort (s : State) : State :=
  let cut (c : CrashImg) : CrashImg := if s.now ≤ c.at_ + 2100000 ∧ c.status = .done then
    { c with status := .abortedTamper, head := c.head.take 128 ++ List.replicate 132 0 } else c
  { s with sig := { s.sig with images := s.sig.images.map cut } }

/-- Quench (R509, R555, R556); a running job that another abort has reached keeps that status (R584). -/
def quench (src : Fin 7) (s : State) : State :=
  let first := (rd R.TAMP_COUNT s) == 0
  let rtc := rtcCount s
  let run := s.key.sym.toList ++ s.key.pk.toList
  let gone := s.key.queue.filter namesKey
  let keyed := (List.finRange 128).any fun p => partValid p s
  let s := crashAbort (clearKeys (if keyed then s else fput F.SYSCTL_BOOT_STATUS_KEYLESS 1 s))
  let s := s |> fput F.KEY_STATUS_ROOT_BLOCKED 1 |> fput F.TAMP_STATUS_ROOT_BLOCKED 1 |> fput F.TAMP_STATUS_TAMPER_LATCH 1 |> raise F.TAMP_CAUSE src.1
    |> bump R.TAMP_COUNT
  let s := whenB first (fun s => s |> wr R.TAMP_FIRST_RTC_LO (BitVec.ofNat 32 rtc) |> wr R.TAMP_FIRST_RTC_HI (BitVec.ofNat 32 (rtc / 2 ^ 32))) s
  let s := updKey (fun k => { k with sym := none, pk := none, queue := k.queue.filter fun j => !namesKey j }) s
  let s := migAbort .abortedTamper (run.foldl (fun s r => cryEnd r.job (r.job.drop.getD .abortedTamper) s) s)
  gone.foldl (fun s j => cryEnd j .abortedTamper s) s

/-- The effect of CMD.CLEAR_LATCH (R557, R561). -/
def clearLatch (s : State) : State := if ftst F.TAMP_STATUS_ACTIVE s then bad s else fput F.TAMP_STATUS_TAMPER_LATCH 0 s

/-- CLEAR_LATCH. -/
def execClearLatch (w : Initiator) (s : State) : Host.Outcome State Fault Refusal := .next (regCmd w R.TAMP_CMD (hearthOnly w clearLatch) s)

/-- The effect of CFG.LOCK (R561). -/
def tampLock (s : State) : State := s |> fput F.TAMP_CFG_LOCK 1 |> fput F.TAMP_STATUS_LOCKED 1

/-- TAMP_CFG_LOCK. -/
def execTampCfgLock (w : Initiator) (s : State) : Host.Outcome State Fault Refusal := .next (regCmd w R.TAMP_CFG (hearthOnly w tampLock) s)

/-- TAMPER_CONDITION_CLEARED: a source returns within its limits; with none left, ACTIVE clears (R561). -/
def execTamperConditionCleared (src : Fin 7) (s : State) : Host.Outcome State Fault Refusal :=
  .next (
    let s := updKey (fun k => { k with alarms := k.alarms.filter fun x => x != src.1 }) s
    if s.key.alarms.isEmpty then fput F.TAMP_STATUS_ACTIVE 0 s else s)

end Sys2Proof.Machine
end

