-- ==== Sys2Proof/Machine/Vqi.lean ====
section
/-!
DEFINITION. The commands of the virtual instances (chapter 14): fetch and source checks, admission rounds, completions, resets, freeze, shares, migration.
-/
namespace Sys2Proof.Machine

/-! ### Fetch (R490-R494, R498) -/

/-- The effect of a write of SQ_TAIL. -/
def sqTail (i : Fin 32) (p : Fin 8) (v : BitVec 13) (s : State) : State := fput (F.VQI_SQ_TAIL_i_p i.1 p.1) v.toNat s

/-- SQ_TAIL. -/
def execSqTail (w : Initiator) (i : Fin 32) (p : Fin 8) (v : BitVec 13) (s : State) : Host.Outcome State Fault Refusal :=
  .next (regCmd w (R.VQI_SQ_TAIL_i_p i.1 p.1) (sqTail i p v) s)

/-- The OPs of a pair's kind (R492, R493). -/
def kindOps (kind : Nat) : List Nat :=
  match kind with
  | 1 => [0x01, 0x02]
  | 2 => [0x10]
  | 3 => [0x20]
  | 4 => [0x30]
  | _ => []

/-- Whether every byte of a range of a descriptor is zero. -/
def zeroAt (x : VqiItem) (k n : Nat) : Bool := x.field k n == 0

/-- Whether a descriptor's fields lie in their ranges and its unused bytes are zero (R493). -/
def fieldsOk (x : VqiItem) : Bool :=
  let len := x.field 2 2
  zeroAt x 13 3 && match x.op with
  | 0x01 => decide (x.byte 1 < 16) && decide (60 ≤ len) && decide (len ≤ 1518) && zeroAt x 16 16
  | 0x02 => decide (x.byte 1 < 16) && zeroAt x 16 16
  | 0x10 => decide (len ≤ 64) && zeroAt x 20 4 && (if len ≤ 8 then zeroAt x 8 5 else zeroAt x 24 8)
  | 0x20 => x.byte 1 == 0 && len == 0 && zeroAt x 8 5 && decide (x.field 16 4 < 2 ^ 23) && zeroAt x 24 8
  | 0x30 => x.byte 1 == 0 && len == 64 && zeroAt x 16 16
  | _ => false

/-- Whether a descriptor is taken (R493). -/
def descOk (x : VqiItem) (s : State) : Bool :=
  (kindOps (fget (F.VQI_PAIR_KIND_i_p_KIND x.inst.1 x.pair.1) s)).contains x.op && fieldsOk x
    && (decide (2 < x.op) || fget (F.VQI_PAIR_KIND_i_p_CLASSES x.inst.1 x.pair.1) s / 2 ^ (x.byte 1 % 8) % 2 == 1)

/-- The source check of a frame (R498). -/
def ethSource (i : Fin 32) (b : List Byte) (s : State) : Bool :=
  vqiMacOk i (beNat ((b.drop 6).take 6)) s && beNat (b.take 6) != 0x0180C200000E
    && match tagOf b with
      | some (_, vid) => vqiVlanOk i vid s
      | none => false

/-- The source check of a CAN ID word, of a signal ID (R498). -/
def canSource (i : Fin 32) (id : Nat) (s : State) : Bool :=
  (List.range 8).any fun k =>
    ftst (F.VQI_CAN_LO_i_k_EN i.1 k) s && decide (fget (F.VQI_CAN_LO_i_k_ID i.1 k) s ≤ id % 2 ^ 30) && decide (id % 2 ^ 30 ≤ fget (F.VQI_CAN_HI_i_k_ID i.1 k) s)
def sigSource (i : Fin 32) (id : Nat) (s : State) : Bool :=
  (List.range 8).any fun k =>
    ftst (F.VQI_SIG_LO_i_k_EN i.1 k) s && decide (fget (F.VQI_SIG_LO_i_k_ID i.1 k) s ≤ id) && decide (id ≤ fget (F.VQI_SIG_HI_i_k_ID i.1 k) s)

/-- The fetched item's end without admission. -/
def fetchEnd (x : VqiItem) (st : Status) (s : State) : State := vqiFinish ⟨x.id, x.inst, x.gen, st, 0, 0, none⟩ s

/-- Gives an item a place. -/
def putPlace (x : VqiItem) (pl : VqiPlace) (s : State) : State :=
  updVqi (fun v => { v with items := v.items.map fun y => if y.id = x.id then { y with place := pl } else y }) s

/-- A spoofed item (R498). -/
def spoof (x : VqiItem) (s : State) : State :=
  s |> putPlace x .taken |> fetchEnd x .failedRefused |> bump (R.VQI_SPOOF_CNT_i x.inst.1) |> raise F.VQI_MGR_EVENT_EVENT mgrSpoof |> fput F.VQI_MGR_LAST_INST x.inst.1

/-- The checks of a fetched item (R493, R498). -/
def fetchChecks (x : VqiItem) (s : State) : State :=
  if !descOk x s then fetchEnd x .failedRefused (putPlace x .taken s)
  else if x.op = 0x02 then putPlace x .rxbuf s
  else if x.op = 0x01 then
    match dmaRead (vqiIdent x.inst s) (x.field 8 5) (x.field 2 2) s with
    | (none, s) => fetchEnd x .failedBus (putPlace x .taken s)
    | (some b, s) => if ethSource x.inst b s then s else spoof x s
  else if x.op = 0x10 ∧ canSource x.inst (x.field 16 4) s = false then spoof x s
  else if x.op = 0x20 ∧ sigSource x.inst (x.field 16 4) s = false then spoof x s
  else s

/-- Whether a pair fetches (R490, R492, R513): the instance is ACTIVE, the pair is in use and has no fault, a descriptor is offered, a CQ entry is free, and no item of the
pair waits to be admitted (assumption 25). -/
def canFetch (i : Fin 32) (p : Fin 8) (s : State) : Bool :=
  vqiState i s == vqiActive && !(kindOps (fget (F.VQI_PAIR_KIND_i_p_KIND i.1 p.1) s)).isEmpty && ftst (F.VQI_RING_SIZE_i_p_EN i.1 p.1) s
    && decide (0 < sqEntries i p s) && decide (0 < cqFree i p s) && !ftst (F.VQI_PAIR_STATUS_i_p_FAULT i.1 p.1) s
    && fget (F.VQI_SQ_HEAD_i_p i.1 p.1) s % sqEntries i p s != fget (F.VQI_SQ_TAIL_i_p i.1 p.1) s % sqEntries i p s
    && !(pairItems i p s).any (fun x => x.place == .fetched) && islOpen islSWP s

/-- VQI_FETCH (R490, R491): the next descriptor of a pair becomes an item. -/
def execVqiFetch (i : Fin 32) (p : Fin 8) (s : State) : Host.Outcome State Fault Refusal :=
  .next (
    if !canFetch i p s then s
    else
      let h := fget (F.VQI_SQ_HEAD_i_p i.1 p.1) s % max 1 (sqEntries i p s)
      match dmaRead (vqiIdent i s) (addrOf (F.VQI_SQ_BASE_LO_i_p i.1 p.1) (F.VQI_SQ_BASE_HI_i_p i.1 p.1) s + 32 * h) 32 s with
      | (none, s) => fput (F.VQI_PAIR_STATUS_i_p_FAULT i.1 p.1) 1 s
      | (some d, s) =>
        let x : VqiItem := ⟨s.vqi.nextId, i, p, h, vqiGen i s, d, .fetched, none⟩
        let s := fput (F.VQI_SQ_HEAD_i_p i.1 p.1) ((h + 1) % max 1 (sqEntries i p s)) s
        fetchChecks x (updVqi (fun v => { v with items := v.items ++ [x], nextId := v.nextId + 1 }) s))

/-! ### Admission (R494, R500-R502) -/

/-- The local address of a staging slot in an engine's bank window (R494). -/
def stageLocal (k : Nat) (s : State) : Nat := 0x01000000 + 64 * fget F.VQI_STAGE_OFS s + 64 * k

/-- The lowest staging slot that no item holds. -/
def freeStage (s : State) : Option Nat := (List.range 1024).find? fun k => !s.vqi.items.any fun x => x.slot == some k

/-- An item is admitted to its target's buffer. -/
def admitItem (x : VqiItem) (s : State) : State :=
  showOcc x.inst (bump (R.VQI_ADMIT_i x.inst.1) (putPlace x .admitted s))

/-- A CAN or SIG item is admitted into a staging slot, which carries the data of a CAN item (R494). -/
def admitSvc (x : VqiItem) (k : Nat) (s : State) : State :=
  let s := updVqi (fun v => { v with items := v.items.map fun y => if y.id = x.id then { y with slot := some k } else y }) s
  if x.op ≠ 0x10 then admitItem x s
  else
    let len := x.field 2 2
    let (d, s) := if len ≤ 8 then (some ((x.desc.drop 24).take len), s) else dmaRead (vqiIdent x.inst s) (x.field 8 5) len s
    match d with
    | none => fetchEnd x .failedBus (putPlace x .taken s)
    | some d => admitItem x (mwrBytes (stageLocal k s) (d ++ List.replicate (64 - d.length) 0) s)

/-- The item that an instance would have admitted to a target next. -/
def nextItem (t : Fin 4) (i : Fin 32) (s : State) : Option VqiItem :=
  s.vqi.items.find? fun x => x.inst == i && x.place == .fetched && x.target s == t

/-- The slots that an instance has taken of a target in the present round. -/
def slotsTaken (t : Fin 4) (i : Fin 32) (s : State) : Nat := ((s.vqi.took.find? fun k => k.1 == (t.1, i.1)).map (·.2)).getD 0

/-- Whether an instance may be admitted to a target: an item waits and its occupancy is below its share (R501). -/
def mayAdmit (t : Fin 4) (i : Fin 32) (s : State) : Bool :=
  (nextItem t i s).isSome && decide (vqiOcc i t s < s.vqi.share[i.1]) && vqiState i s != vqiDisabled

/-- The instance that an admission slot goes to: in rotating order one with slots of its own left, else one that uses a slot that is left (R501). -/
def slotInst (t : Fin 4) (s : State) : Option (Fin 32) :=
  let order := (List.range 32).map fun k => Fin.ofNat 32 (s.vqi.turn[t.1] + 1 + k)
  match order.find? fun i => mayAdmit t i s && decide (slotsTaken t i s < s.vqi.share[i.1]) with
  | some i => some i
  | none => order.find? fun i => mayAdmit t i s

/-- A target takes its oldest admitted item (R500): the switch takes a frame, the crypto engine a job; an item of SVC waits for its thread. -/
def targetTakes (t : Fin 4) (s : State) : State :=
  match s.vqi.items.find? fun x => x.place == .admitted && x.target s == t with
  | none => s
  | some x =>
    let w := vqiIdent x.inst s
    if t.1 < 2 then
      let s := vqiTake x s
      match dmaRead w (x.field 8 5) (x.field 2 2) s with
      | (none, s) => fetchEnd x .failedBus s
      | (some b, s) => ingressFrame ⟨18 + t.1, some (x.byte 1 % 8), .vqi x.inst x.id x.gen, none, none, true⟩ b s
    else if t = 3 then
      if 48 ≤ cryCount (fun j => match j.sub with | .vqi .. => true | _ => false) s then s
      else
        let s := vqiTake x s
        match unitRead w (x.field 8 5) 64 s with
        | (none, s) => fetchEnd x .failedBus s
        | (some d, s) => if jobInvalid d then fetchEnd x .failedRefused s else cryEnqueue (.vqi x.inst x.id x.gen) w (x.field 8 5) d s
    else s

/-- One slot of a target's round is given (R501). -/
def giveSlot (t : Fin 4) (s : State) : State :=
  let s := updVqi (fun v => { v with passed := upd v.passed t (· + 1) }) s
  if 1024 ≤ (s.vqi.items.filter fun x => x.place == .admitted && x.target s == t).length then s
  else match slotInst t s with
    | none => s
    | some i =>
      let n := slotsTaken t i s
      let go (s : State) : State :=
        updVqi (fun v => { v with took := ((t.1, i.1), n + 1) :: v.took.filter fun k => k.1 != (t.1, i.1), turn := upd v.turn t fun _ => i.1 }) s
      match nextItem t i s with
      | none => s
      | some x =>
        if t ≠ 2 then admitItem x (go s)
        else match freeStage s with
          | none => s
          | some k => admitSvc x k (go s)

/-- ADMISSION_SLOT (R500, R501): `take` says that the target takes an item at this slot. A round has 1,024 slots. -/
def execAdmissionSlot (t : Fin 4) (take : Bool) (s : State) : Host.Outcome State Fault Refusal :=
  .next (
    if !islOpen islSWP s then s
    else
      let s := whenB take (targetTakes t) s
      if 1024 ≤ s.vqi.passed[t.1] then s else giveSlot t s)

/-- A new share of an instance takes effect (R502). -/
def newShare (i : Fin 32) (s : State) : State :=
  let n := fget (F.VQI_SHARE_i i.1) s
  if s.vqi.share[i.1] = n then s
  else
    let s := updVqi (fun v => { v with share := v.share.set i.1 n i.2 }) s
    if vqiState i s != vqiDisabled && (List.finRange 4).any fun t => decide (n ≤ vqiOcc i t s) && decide (0 < vqiOcc i t s) then
      s |> fput (F.VQI_STATE_i_OVER_SHARE i.1) 1 |> raise F.VQI_MGR_EVENT_EVENT mgrOverShare |> fput F.VQI_MGR_LAST_INST i.1 |> bump (R.VQI_OVER_SHARE_CNT_i i.1)
    else showOcc i s

/-- SHARE_ROUND_BOUNDARY (R501, R502). -/
def execShareRoundBoundary (s : State) : Host.Outcome State Fault Refusal :=
  .next (forFin 32 newShare (updVqi (fun v => { v with passed := Vector.replicate 4 0, took := [] }) s))

/-- VQI_COMPLETION (R495, R505): the oldest end that waits reaches the VQI. -/
def execVqiCompletion (s : State) : Host.Outcome State Fault Refusal :=
  .next (
    match s.vqi.done with
    | [] => s
    | d :: rest => vqiComplete d (updVqi (fun v => { v with done := rest }) s))

/-! ### Resets (R503-R506) -/

/-- Ends every item of an instance that has not completed, ABORTED_RESET (R504 step 2). -/
def abortItems (i : Fin 32) (pick : VqiItem → Bool) (s : State) : State :=
  let l := s.vqi.items.filter fun x => x.inst == i && pick x
  let s := l.foldl (fun s x => vqiRecord x ⟨x.id, i, x.gen, .abortedReset, 0, 0, none⟩ s) s
  endHolds (fun h => decide (0x400 ≤ h.qid) && decide (h.qid < 0x600) && l.any fun x => x.id == h.ref) .abortedReset s

/-- The reset summary of a pair in use; its offered descriptors are discarded (R495, R504 step 4). -/
def resetPair (i : Fin 32) (n : Nat → Nat) (p : Fin 8) (s : State) : State :=
  let size := max 1 (sqEntries i p s)
  let tail := fget (F.VQI_SQ_TAIL_i_p i.1 p.1) s
  let left := (tail + size - fget (F.VQI_SQ_HEAD_i_p i.1 p.1) s % size) % size
  let use := ftst (F.VQI_RING_SIZE_i_p_EN i.1 p.1) s && decide (0 < cqEntries i p s)
  let s := whenB use (cqWrite i p (cqRecord Status.abortedReset.code 2 0 (n p.1) (vqiGen i s) 0 left (List.replicate 16 0))) s
  s |> fput (F.VQI_SQ_HEAD_i_p i.1 p.1) tail |> fput (F.VQI_PAIR_STATUS_i_p_FAULT i.1 p.1) 0

/-- An instance reset (R504). -/
def vqiReset (i : Fin 32) (st : Nat) (s : State) : State :=
  let count (p : Nat) : Nat := (s.vqi.items.filter fun x => x.inst == i && x.pair.1 == p).length
  let s := abortItems i (fun _ => true) s
  let s := putVqiGen i (vqiGen i s + 1) s
  let s := forFin 8 (resetPair i count) s
  showOcc i (fput (F.VQI_STATE_i_OVER_SHARE i.1) 0 (fput F.SYSCTL_RESET_CAUSE_INSTANCE 1 (putVqiState i st s)))

/-- The effect of CMD.RESET in the instance page (R504, R506). -/
def instanceReset (i : Fin 32) (s : State) : State :=
  let st := vqiState i s
  if st = vqiActive then vqiReset i vqiActive s
  else if st = vqiDisabled then s else bad s

/-- INSTANCE_RESET. -/
def execInstanceReset (w : Initiator) (i : Fin 32) (s : State) : Host.Outcome State Fault Refusal := .next (regCmd w (R.VQI_ICMD_i i.1) (instanceReset i) s)

/-- The effect of the manager's CMD.RESET (R504, R507). -/
def managerReset (i : Fin 32) (s : State) : State := if vqiState i s = vqiDisabled then s else vqiReset i vqiActive s

/-- MANAGER_RESET. -/
def execManagerReset (w : Initiator) (i : Fin 32) (s : State) : Host.Outcome State Fault Refusal := .next (regCmd w (R.VQI_CMD_i i.1) (managerReset i) s)

/-! ### Freeze (R507) -/

/-- The effect of CMD.FREEZE. -/
def vqiFreeze (i : Fin 32) (s : State) : State :=
  if vqiState i s ≠ vqiActive then bad s
  else
    let s := abortItems i (fun x => x.place == .rxbuf) (putVqiState i vqiFreezing s)
    freezeCheck i (updVqi (fun v => { v with freezeDue := v.freezeDue.set i.1 (s.now + 2000000) i.2 }) s)

/-- FREEZE. -/
def execFreeze (w : Initiator) (i : Fin 32) (s : State) : Host.Outcome State Fault Refusal := .next (regCmd w (R.VQI_CMD_i i.1) (vqiFreeze i) s)

/-- The effect of CMD.THAW. -/
def vqiThaw (i : Fin 32) (s : State) : State := if vqiState i s = vqiFrozen then putVqiState i vqiActive s else bad s

/-- THAW. -/
def execThaw (w : Initiator) (i : Fin 32) (s : State) : Host.Outcome State Fault Refusal := .next (regCmd w (R.VQI_CMD_i i.1) (vqiThaw i) s)

/-- FREEZE_TIMEOUT: the remaining items end ABORTED_RESET, and the generation advances. -/
def execFreezeTimeout (i : Fin 32) (s : State) : Host.Outcome State Fault Refusal :=
  .next (
    if vqiState i s ≠ vqiFreezing then s
    else
      let s := abortItems i (fun _ => true) (elapseTo s.vqi.freezeDue[i.1] s)
      raise F.VQI_MGR_EVENT_EVENT mgrFreezeDone (putVqiState i vqiFrozen (putVqiGen i (vqiGen i s + 1) s)))

/-! ### Enabling and shares (R501, R507) -/

/-- The sum of the shares of enabled instances. -/
def shareSum (s : State) : Nat := ((List.finRange 32).map fun i => if ftst (F.VQI_CFG_i_EN i.1) s then fget (F.VQI_SHARE_i i.1) s else 0).sum

/-- Shows SHARE_SUM. -/
def showShare (s : State) : State := fput F.VQI_SHARE_SUM (shareSum s) s

/-- The effect of CFG.EN written 1. -/
def vqiEnable (i : Fin 32) (s : State) : State :=
  if ftst (F.VQI_CFG_i_EN i.1) s then s
  else if 1024 < shareSum s + fget (F.VQI_SHARE_i i.1) s then bad s
  else showShare (putVqiState i vqiActive (fput (F.VQI_CFG_i_EN i.1) 1 s))

/-- VQI_ENABLE. -/
def execVqiEnable (w : Initiator) (i : Fin 32) (s : State) : Host.Outcome State Fault Refusal := .next (regCmd w (R.VQI_CFG_i i.1) (vqiEnable i) s)

/-- The effect of CFG.EN written 0. -/
def vqiDisable (i : Fin 32) (s : State) : State :=
  if vqiState i s = vqiDisabled then s else showShare (fput (F.VQI_CFG_i_EN i.1) 0 (vqiReset i vqiDisabled s))

/-- VQI_DISABLE. -/
def execVqiDisable (w : Initiator) (i : Fin 32) (s : State) : Host.Outcome State Fault Refusal := .next (regCmd w (R.VQI_CFG_i i.1) (vqiDisable i) s)

/-- The effect of a write of SHARE. -/
def shareWrite (i : Fin 32) (v : Nat) (s : State) : State :=
  let old := if ftst (F.VQI_CFG_i_EN i.1) s then fget (F.VQI_SHARE_i i.1) s else 0
  if 1024 < v ∨ (ftst (F.VQI_CFG_i_EN i.1) s = true ∧ 1024 < shareSum s - old + v) then bad s
  else showShare (fput (F.VQI_SHARE_i i.1) v s)

/-- SHARE_WRITE. -/
def execShareWrite (w : Initiator) (i : Fin 32) (v : BitVec 11) (s : State) : Host.Outcome State Fault Refusal :=
  .next (regCmd w (R.VQI_SHARE_i i.1) (shareWrite i v.toNat) s)

/-! ### Migration (R508-R510) -/

/-- A MAC entry in the record: most significant byte first, all ones when disabled. -/
def macField (i : Fin 32) (k : Nat) (s : State) : List Byte :=
  if ftst (F.VQI_MAC_HI_i_k_EN i.1 k) s then beBytes 6 (fget (F.VQI_MAC_LO_i_k i.1 k) s + 2 ^ 32 * fget (F.VQI_MAC_HI_i_k_MAC i.1 k) s)
  else List.replicate 6 0xFF

/-- A register as four bytes. -/
def regBytes (a : Nat) (s : State) : List Byte := leBytes 4 (rd a s).toNat

/-- A pair in the record. -/
def pairField (i : Fin 32) (p : Nat) (s : State) : List Byte :=
  regBytes (R.VQI_PAIR_KIND_i_p i.1 p) s
    ++ leBytes 5 (addrOf (F.VQI_SQ_BASE_LO_i_p i.1 p) (F.VQI_SQ_BASE_HI_i_p i.1 p) s) ++ leBytes 5 (addrOf (F.VQI_CQ_BASE_LO_i_p i.1 p) (F.VQI_CQ_BASE_HI_i_p i.1 p) s)
    ++ leBytes 2 (fget (F.VQI_SQ_HEAD_i_p i.1 p) s) ++ leBytes 2 (fget (F.VQI_SQ_TAIL_i_p i.1 p) s) ++ leBytes 2 (fget (F.VQI_CQ_TAIL_i_p i.1 p) s)
    ++ leBytes 2 (fget (F.VQI_CQ_HEAD_i_p i.1 p) s) ++ leBytes 2 (rd (R.VQI_RING_SIZE_i_p i.1 p) s).toNat

/-- Bytes 0-447 of the export record (R508). -/
def migRecord (i : Fin 32) (s : State) : List Byte :=
  ascii "Z480VQI1" ++ leBytes 8 (rd R.VQI_MIG_SEQ s).toNat ++ runBytes (vt16 s) ++ leBytes 2 (vqiGen i s) ++ leBytes 2 (fget (F.VQI_SHARE_i i.1) s)
    ++ leBytes 1 (fget (F.VQI_CFG_i_RX_MCAST i.1) s) ++ List.replicate 3 0
    ++ (List.range 4).flatMap (fun k => macField i k s)
    ++ (List.range 8).flatMap (fun k => leBytes 2 (fget (F.VQI_VLAN_i_k_VID i.1 k) s + (if ftst (F.VQI_VLAN_i_k_EN i.1 k) s then 2 ^ 15 else 0)))
    ++ (List.range 8).flatMap (fun k => regBytes (R.VQI_CAN_LO_i_k i.1 k) s ++ regBytes (R.VQI_CAN_HI_i_k i.1 k) s)
    ++ (List.range 8).flatMap (fun k => regBytes (R.VQI_SIG_LO_i_k i.1 k) s ++ regBytes (R.VQI_SIG_HI_i_k i.1 k) s)
    ++ (List.range 8).flatMap (fun p => pairField i p s) ++ List.replicate 52 0

/-- The migration key (R509): none when the slot cannot serve the MAC job. -/
def migKey (s : State) : Option (Fin 128) :=
  let p : Fin 128 := Fin.ofNat 128 (2 * fget F.VQI_MIG_CFG_KEY_SLOT s)
  if partValid p s && partType p s == 2 && partUse p 13 s && !(partUse p 16 s && fget (F.KEY_USES_s_h_USES (p.1 / 2) 0) s == 0) then some p else none

/-- Where MIG_BUF lies. -/
def migBuf (s : State) : Nat := addrOf F.VQI_MIG_BUF_LO F.VQI_MIG_BUF_HI s / 64 * 64

/-- The end of an EXPORT (R509). -/
def migExport (i : Fin 32) (w : Ident) (s : State) : State :=
  match migKey s with
  | none => migEnd .failedRefused 0 s
  | some p =>
    let r := migRecord i s
    let tag := hmac512 s.key.keys[p.1] r
    match dmaWrite w (migBuf s) (r ++ tag) (useKey p s) with
    | (false, s) => migEnd .failedBus 0 s
    | (true, s) => migEnd .done 0 s

/-- A field of a record. -/
def mf (r : List Byte) (k n : Nat) : Nat := leNat ((r.drop k).take n)

/-- Whether every field of a record lies in its range and every reserved byte is 0 (R510 case 3). -/
def migFieldsOk (r : List Byte) : Bool :=
  decide (mf r 30 2 ≤ 1024) && decide (mf r 32 4 ≤ 1) && mf r 396 52 == 0
    && (List.range 8).all fun k =>
      bits (mf r (60 + 2 * k) 2) 14 12 == 0 && bits (mf r (76 + 8 * k) 4) 30 30 == 0 && bits (mf r (80 + 8 * k) 4) 31 30 == 0
        && bits (mf r (140 + 8 * k) 4) 30 23 == 0 && bits (mf r (144 + 8 * k) 4) 31 23 == 0
        && (let b := 204 + 24 * k
          bits (mf r b 4) 7 3 == 0 && bits (mf r b 4) 31 16 == 0
            && (List.range 4).all (fun j => decide (mf r (b + 14 + 2 * j) 2 < 8192)) && bits (mf r (b + 22) 2) 7 4 == 0)

/-- Applies an accepted record (R507, R510). -/
def migApply (i : Fin 32) (r : List Byte) (s : State) : State :=
  let put (a v : Nat) (s : State) : State := wr a (BitVec.ofNat 32 v) s
  let s := s |> fput (F.VQI_SHARE_i i.1) (mf r 30 2) |> fput (F.VQI_CFG_i_RX_MCAST i.1) (mf r 32 1) |> fput (F.VQI_CFG_i_EN i.1) 1
  let s := forN 4 (fun k s =>
    let b := (r.drop (36 + 6 * k)).take 6
    let m := beNat b
    if m = 2 ^ 48 - 1 then put (R.VQI_MAC_HI_i_k i.1 k) 0 (put (R.VQI_MAC_LO_i_k i.1 k) 0 s)
    else put (R.VQI_MAC_HI_i_k i.1 k) (m / 2 ^ 32 + 2 ^ 31) (put (R.VQI_MAC_LO_i_k i.1 k) (m % 2 ^ 32) s)) s
  let s := forN 8 (fun k s =>
    let v := mf r (60 + 2 * k) 2
    s |> put (R.VQI_VLAN_i_k i.1 k) (v % 2 ^ 12 + v / 2 ^ 15 * 2 ^ 31)
      |> put (R.VQI_CAN_LO_i_k i.1 k) (mf r (76 + 8 * k) 4) |> put (R.VQI_CAN_HI_i_k i.1 k) (mf r (80 + 8 * k) 4)
      |> put (R.VQI_SIG_LO_i_k i.1 k) (mf r (140 + 8 * k) 4) |> put (R.VQI_SIG_HI_i_k i.1 k) (mf r (144 + 8 * k) 4)) s
  let s := forN 8 (fun p s =>
    let b := 204 + 24 * p
    s |> put (R.VQI_PAIR_KIND_i_p i.1 p) (mf r b 4)
      |> put (R.VQI_SQ_BASE_LO_i_p i.1 p) (mf r (b + 4) 4) |> put (R.VQI_SQ_BASE_HI_i_p i.1 p) (mf r (b + 8) 1)
      |> put (R.VQI_CQ_BASE_LO_i_p i.1 p) (mf r (b + 9) 4) |> put (R.VQI_CQ_BASE_HI_i_p i.1 p) (mf r (b + 13) 1)
      |> fput (F.VQI_SQ_HEAD_i_p i.1 p) (mf r (b + 14) 2) |> fput (F.VQI_SQ_TAIL_i_p i.1 p) (mf r (b + 16) 2)
      |> fput (F.VQI_CQ_TAIL_i_p i.1 p) (mf r (b + 18) 2) |> fput (F.VQI_CQ_HEAD_i_p i.1 p) (mf r (b + 20) 2)
      |> put (R.VQI_RING_SIZE_i_p i.1 p) (mf r (b + 22) 2)) s
  showShare (putVqiState i vqiFrozen (putVqiGen i (mf r 28 2 + 1) s))

/-- The end of a RESTORE (R510): the first case that holds refuses the record. -/
def migRestore (i : Fin 32) (w : Ident) (s : State) : State :=
  match dmaRead w (migBuf s) 512 s, migKey s with
  | (none, s), _ => migEnd .failedBus 0 s
  | (some _, s), none => migEnd .failedRefused 0 s
  | (some r, s), some p =>
    let s := useKey p s
    if hmac512 s.key.keys[p.1] (r.take 448) != r.drop 448 then migEnd .failedRefused 1 s
    else if r.take 8 != ascii "Z480VQI1" then migEnd .failedRefused 2 s
    else if !migFieldsOk r then migEnd .failedRefused 3 s
    else if vqiState i s != vqiDisabled then migEnd .failedRefused 4 s
    else if 1024 < shareSum s + mf r 30 2 then migEnd .failedRefused 5 s
    else migEnd .done 0 (migApply i r s)

/-- A write of MIG_CMD. -/
def migCmd (w : Initiator) (op : Nat) (i : Fin 32) (s : State) : State :=
  if s.vqi.mig.isSome then bad s
  else if op = 1 ∧ vqiState i s ≠ vqiFrozen then bad s
  else
    let s := s |> fput F.VQI_MIG_CMD_INST i.1 |> fput F.VQI_MIG_CMD_BUSY 1
    let s := whenB (op == 1) (fun s => wr R.VQI_MIG_SEQ (rd R.VQI_MIG_SEQ s + 1) s) s
    updVqi (fun v => { v with mig := some (op, i, initWorld w s, initInst w s) }) s

/-- MIG_EXPORT. -/
def execMigExport (w : Initiator) (i : Fin 32) (s : State) : Host.Outcome State Fault Refusal := .next (regCmd w R.VQI_MIG_CMD (migCmd w 1 i) s)

/-- MIG_RESTORE. -/
def execMigRestore (w : Initiator) (i : Fin 32) (s : State) : Host.Outcome State Fault Refusal := .next (regCmd w R.VQI_MIG_CMD (migCmd w 2 i) s)

/-- MIG_DONE: the command that runs ends. -/
def execMigDone (s : State) : Host.Outcome State Fault Refusal :=
  .next (
    match s.vqi.mig with
    | none => s
    | some (op, i, world, inst) =>
      let w : Ident := ⟨17, 0x40, world, inst⟩
      if op = 1 then migExport i w s else migRestore i w s)

/-- The counters of an instance (R512). -/
def vqiCounters (i : Nat) : List Nat :=
  [R.VQI_ADMIT_i i, R.VQI_SPOOF_CNT_i i, R.VQI_STALE_CNT_i i, R.VQI_RX_NOBUF_i i, R.VQI_DELIV_DROP_i i, R.VQI_OVER_SHARE_CNT_i i]

/-- VQI_CNT_CLR (R512). -/
def execVqiCntClr (w : Initiator) (i : Fin 32) (s : State) : Host.Outcome State Fault Refusal :=
  .next (regCmd w (R.VQI_CNT_CLR_i i.1) (clearRegs (vqiCounters i.1)) s)

end Sys2Proof.Machine
end

