-- ==== Sys2Proof/Machine/Items.lean ====
section
/-!
DEFINITION. The hardware queues as engine threads meet them (R150-R158): what a queue's head is, taking it, pushing to a queue, and ending a held item at its home block.
-/
namespace Sys2Proof.Machine

/-- The head of a pop queue: what its home block knows it by, with its generation, and its descriptor. -/
structure QHead where
  ref : Nat
  gen : Nat
  item : MailItem

/-- An address of a queue's home block (R151); none for a reserved QID. -/
def qHome (qid : Nat) : Option Nat :=
  if qid = 0x000 then some R.TIME_CTRL
  else if 0x010 ≤ qid ∧ qid < 0x014 then some (R.CAM_CTRL (qid - 0x010))
  else if 0x100 ≤ qid ∧ qid < 0x130 ∧ qid % 4 < 3 then some (R.CAN_CTRL ((qid - 0x100) / 4))
  else if 0x140 ≤ qid ∧ qid < 0x14C then some (R.LIN_CFG ((qid - 0x140) / 2))
  else if 0x200 ≤ qid ∧ qid ≤ 0x208 then some R.SW_CTRL
  else if qid = 0x300 then some R.SIG_CTRL
  else if qid = 0x310 then some R.NM_CTRL
  else if 0x400 ≤ qid ∧ qid < 0x600 then some R.VQI_STAGE_OFS
  else if 0x600 ≤ qid ∧ qid < 0x660 then some 0x01000000
  else none

/-- Whether a queue gives items: its home block takes new transactions, or is a camera island that drains (R135). -/
def qGives (qid : Nat) (s : State) : Bool :=
  if 0x010 ≤ qid ∧ qid < 0x014 then
    let i := camIsl (Fin.ofNat 4 (qid - 0x010))
    islOpen i s || islSt i s == .draining
  else match qHome qid with
    | some a => homeOpen a s
    | none => false

/-- Whether a queue's home block takes new transactions. -/
def qOpen (qid : Nat) (s : State) : Bool :=
  match qHome qid with
  | some a => homeOpen a s
  | none => false

/-- The instance and the pair of a VQI queue. -/
def qInst (qid : Nat) : Fin 32 := Fin.ofNat 32 ((qid - 0x400) / 16)
def qPair (qid : Nat) : Fin 8 := Fin.ofNat 8 ((qid - 0x400) % 16 / 2)

/-- The descriptor of a CAN or SIG item of an instance (R494). -/
def vqiDescr (x : VqiItem) (s : State) : MailItem :=
  ⟨x.op, x.field 2 2, if x.op = 0x10 then (x.field 16 4, x.byte 1, stageLocal (x.slot.getD 0) s) else (x.field 16 4, x.field 20 4, 0), none⟩

/-- The head of a queue (R151, R152); none when it is empty or no pop queue. -/
def qHead (qid : Nat) (s : State) : Option QHead :=
  if !qGives qid s then none
  else if 0x010 ≤ qid ∧ qid < 0x014 then
    let n : Fin 4 := Fin.ofNat 4 (qid - 0x010)
    s.cam[n.1].queue.head?.bind fun id => (s.cam[n.1].staged.find? fun l => l.id == id).map fun l =>
      ⟨id, 0, ⟨Config.lineWord 0 % 256, Config.lineWord 4 % 65536, (Config.lineWord 1 % 2 ^ 32, Config.lineWord 2 % 2 ^ 32, Config.lineWord 3 % 2 ^ 32),
        some ⟨lineWindow n l, none, none, none⟩⟩⟩
  else if 0x100 ≤ qid ∧ qid < 0x130 ∧ qid % 4 = 0 then (canHead (Fin.ofNat 12 ((qid - 0x100) / 4)) s).map fun p => ⟨p.1.1, 0, p.2⟩
  else if 0x140 ≤ qid ∧ qid < 0x14C ∧ qid % 2 = 1 then (linSt (Fin.ofNat 6 ((qid - 0x140) / 2)) s).resp.head?.map fun x => ⟨0, 0, x⟩
  else if 0x200 ≤ qid ∧ qid < 0x208 then s.sw.eQueue[(Fin.ofNat 8 qid).1].head?.map fun x => ⟨0, 0, x⟩
  else if qid = 0x310 then s.nm.queue.head?.map fun x => ⟨0, 0, x⟩
  else if 0x400 ≤ qid ∧ qid < 0x600 ∧ qid % 2 = 0 then
    (s.vqi.items.find? fun x => x.inst == qInst qid && x.pair == qPair qid && x.place == .admitted).map fun x => ⟨x.id, x.gen, vqiDescr x s⟩
  else if 0x600 ≤ qid then s.mbox[(Fin.ofNat 96 (qid - 0x600)).1].head?.map fun x => ⟨0, 0, x⟩
  else none

/-- Takes the head of a queue. -/
def qTake (qid : Nat) (h : QHead) (s : State) : State :=
  if 0x010 ≤ qid ∧ qid < 0x014 then updCam (Fin.ofNat 4 (qid - 0x010)) (fun c => { c with queue := c.queue.drop 1 }) s
  else if 0x100 ≤ qid ∧ qid < 0x130 then canTake (Fin.ofNat 12 ((qid - 0x100) / 4)) (Fin.ofNat 32 h.ref) s
  else if 0x140 ≤ qid ∧ qid < 0x14C then updLin (Fin.ofNat 6 ((qid - 0x140) / 2)) (fun l => { l with resp := l.resp.drop 1 }) s
  else if 0x200 ≤ qid ∧ qid < 0x208 then updSw (fun w => { w with eQueue := upd w.eQueue (Fin.ofNat 8 qid) (List.drop 1) }) s
  else if qid = 0x310 then { s with nm := { s.nm with queue := s.nm.queue.drop 1 } }
  else if 0x400 ≤ qid ∧ qid < 0x600 then
    match s.vqi.items.find? fun x => x.id == h.ref with
    | some x => vqiTake x s
    | none => s
  else if 0x600 ≤ qid then { s with mbox := upd s.mbox (Fin.ofNat 96 (qid - 0x600)) (List.drop 1) }
  else s

/-! ### Pushes (R156) -/

/-- A delivery item pushed to an instance (R492, R495). -/
def vqiPush (i : Fin 32) (p : Fin 8) (w0 w1 w2 w3 : Nat) (s : State) : Status × State :=
  let kind := fget (F.VQI_PAIR_KIND_i_p_KIND i.1 p.1) s
  if kind ≠ 2 ∧ kind ≠ 3 then (.failedRefused, s)
  else if vqiState i s ≠ vqiActive ∨ cqFree i p s = 0 ∨ ftst (F.VQI_PAIR_STATUS_i_p_FAULT i.1 p.1) s = true then
    (.failedRefused, bump (R.VQI_DELIV_DROP_i i.1) s)
  else
    let tail := leBytes 4 w1 ++ leBytes 4 w2 ++ leBytes 4 w3 ++ leBytes 4 (vtNs s % secNs)
    let s := cqWrite i p (cqRecord Status.done.code 1 (bits w0 31 16) (bits w0 15 8) (vqiGen i s) 0 0 tail) s
    (if ftst (F.VQI_PAIR_STATUS_i_p_FAULT i.1 p.1) s then .failedRefused else .done, s)

/-- A thread pushes an item (R156): the status of the push. -/
def qPush (e : Fin 24) (t : Fin 4) (qid w0 w1 w2 w3 : Nat) (s : State) : Status × State :=
  let w := Initiator.thread e t
  if !qOpen qid s then (.failedRefused, s)
  else if qid = 0x000 then
    match (if w1 % 16 = 0 ∧ inBanks w1 48 = true then dmaRead (initIdent w s) w1 48 s else (none, s)) with
    | (none, s) => pushSample w w0 w1 none s
    | (some d, s) => pushSample w w0 w1 (some (leNat d)) s
  else if 0x100 ≤ qid ∧ qid < 0x130 then
    let c : Fin 12 := Fin.ofNat 12 ((qid - 0x100) / 4)
    if qid % 4 = 1 then canPush c w0 w1 w2 w3 s else if qid % 4 = 2 then canUpdate c w0 w1 w2 w3 s else (.failedRefused, s)
  else if 0x140 ≤ qid ∧ qid < 0x14C ∧ qid % 2 = 0 then linPush (Fin.ofNat 6 ((qid - 0x140) / 2)) w0 w1 w2 w3 s
  else if qid = 0x300 then logPush (initCode w) [w0, w1, w2, w3] s
  else if 0x400 ≤ qid ∧ qid < 0x600 ∧ qid % 2 = 1 then vqiPush (qInst qid) (qPair qid) w0 w1 w2 w3 s
  else if 0x600 ≤ qid then
    match mboxPut (Fin.ofNat 96 (qid - 0x600)) ⟨bits w0 15 8, bits w0 31 16, (w1, w2, w3), none⟩ s with
    | (true, s) => (.done, s)
    | (false, s) => (.failedRefused, s)
  else (.failedRefused, s)

/-- Whether a push queue is full (R151, R159). -/
def qFull (qid : Nat) (s : State) : Bool :=
  if !qOpen qid s then true
  else if qid = 0x000 then decide (16 ≤ s.time.queue.length)
  else if 0x100 ≤ qid ∧ qid < 0x130 then
    let x := canSt (Fin.ofNat 12 ((qid - 0x100) / 4)) s
    if qid % 4 = 1 then decide (32 ≤ (x.items.filter fromQueue).length) else decide (16 ≤ x.updates.length + x.cells.length)
  else if 0x140 ≤ qid ∧ qid < 0x14C then decide (4 ≤ ((linSt (Fin.ofNat 6 ((qid - 0x140) / 2)) s).reqs.filter fun r => !r.internal).length)
  else if qid = 0x208 then !(ftst F.SW_CTRL_EN s && ftst (F.SW_PORT_CFG_p_EN portE) s)
  else if qid = 0x300 then !sinkRoom s
  else if 0x400 ≤ qid ∧ qid < 0x600 then cqFree (qInst qid) (qPair qid) s == 0
  else if 0x600 ≤ qid then decide (16 ≤ s.mbox[(Fin.ofNat 96 (qid - 0x600)).1].length)
  else false

/-! ### The end of a held item (R153-R155) -/

/-- The length that the record of an instance's CAN or SIG item reports: a CAN item's padded to the next data length (R273). -/
def vqiRecLen (x : VqiItem) : Nat := if x.op = 0x10 then fdLen (x.field 2 2) else x.field 2 2

/-- The home block ends an item that a thread held. -/
def homeEnd (h : Hold) (st : Status) (s : State) : State :=
  let s := match h.pkt with
    | some p => freePacket p s
    | none => s
  if 0x010 ≤ h.qid ∧ h.qid < 0x014 then whenB (st != .done) (lineLost (Fin.ofNat 4 (h.qid - 0x010)) h.ref) s
  else if 0x100 ≤ h.qid ∧ h.qid < 0x130 then rxFree (Fin.ofNat 12 ((h.qid - 0x100) / 4)) (Fin.ofNat 32 h.ref) s
  else if 0x400 ≤ h.qid ∧ h.qid < 0x600 then
    match s.vqi.items.find? fun x => x.id == h.ref && x.gen == h.gen with
    | some x => vqiFinish ⟨h.ref, x.inst, h.gen, st, vqiRecLen x, 0, none⟩ s
    | none => s
  else s

/-- An item ends with a status, unless its home block has ended it already; the final status (R155). -/
def endItem (h : Hold) (st : Status) (s : State) : Status × State :=
  match h.ended with
  | some st' => (st', match h.pkt with | some p => freePacket p s | none => s)
  | none => (st, homeEnd h st s)

end Sys2Proof.Machine
end

