-- ==== Sys2Proof/Machine/NyCode.lean ====
section
/-!
DEFINITION. The instruction words of the engines (chapter 05): their formats, their fields, the legal encodings, an encoder and a decoder.
-/
namespace Sys2Proof.Machine

/-- An instruction of an engine by its opcode-map row (R180); the number `k` is its place in the row. -/
inductive NyInsn where
  /-- op 0x00: ADD SUB AND OR XOR SHL SHR SAR MUL MULH MIN MAX CLZ POPC SLT SLTU -/
  | alu (k : Fin 16) (nd na nb : Fin 32)
  /-- op 0x01-0x0A: ADDI ANDI ORI XORI SHLI SHRI SARI LUI SLTI SLTUI -/
  | aluI (k : Fin 10) (nd na : Fin 32) (imm : BitVec 16)
  /-- op 0x10-0x13: LDB LDH LDW LDQ -/
  | load (k : Fin 4) (nd na : Fin 32) (imm : BitVec 16)
  /-- op 0x14-0x17: STB STH STW STQ -/
  | store (k : Fin 4) (nd na : Fin 32) (imm : BitVec 16)
  /-- op 0x18-0x1D: BEQ BNE BLT BGE BLTU BGEU -/
  | branch (k : Fin 6) (na nb : Fin 32) (off : BitVec 16)
  /-- op 0x1E -/
  | jal (off : BitVec 26)
  /-- op 0x1F -/
  | jalr (nd na : Fin 32) (imm : BitVec 16)
  /-- op 0x20: EXT INS DEP; `w` is width - 1 -/
  | field (k : Fin 3) (nd na w pos : Fin 32) (s : Bool)
  /-- op 0x21: PKHOLD PKSEND PKDROP PKCOPY, with the class or the direction -/
  | packet (k : Fin 4) (nd na nb : Fin 32) (m : Fin 8)
  /-- op 0x22: QPOP QPUSH; 0x300: QPEEK (k = 2) -/
  | slot (k : Fin 3) (nd q : Fin 32)
  /-- op 0x22, fn 0x200 -/
  | qack (nd na nb : Fin 32)
  /-- op 0x23: LKP LKPW LKPS -/
  | table (k : Fin 3) (nd na nb : Fin 32)
  /-- op 0x24: TNOW TAT TSEND TSTAMP, with the form -/
  | time (k : Fin 4) (nd na nb : Fin 32) (form : Bool)
  /-- op 0x25: AADD ASWP -/
  | bank (k : Fin 2) (nd na nb : Fin 32)
  /-- op 0x26: WEV PSCAN PCLR -/
  | event (k : Fin 3) (nd na nb : Fin 32)
  /-- op 0x27: CQ CQWAIT -/
  | crypto (k : Fin 2) (nd na : Fin 32)
  /-- op 0x28: YIELD HALT TRAP BUDGET FENCE -/
  | sys (k : Fin 5) (nd na : Fin 32)
  /-- op 0x29: SIGRD SIGWR -/
  | signal (k : Fin 2) (nd na nb : Fin 32)
  deriving DecidableEq, Repr

/-- Whether an instruction is a legal encoding (R178, R179, R187, R191, R208): unused fields are 0, a run of registers ends at n31, a bit field ends at bit 31. -/
def NyInsn.legal : NyInsn → Bool
  | .alu k _ _ nb => !(k == 12 || k == 13) || nb == 0
  | .aluI k _ na imm => if k = 7 then na == 0 else !(k == 4 || k == 5 || k == 6) || decide (imm.toNat < 32)
  | .load k nd _ _ => k != 3 || decide (nd.1 ≤ 28)
  | .store k nd _ _ => k != 3 || decide (nd.1 ≤ 28)
  | .field k _ _ w pos s => decide (pos.1 + w.1 + 1 ≤ 32) && (!s || k == 0)
  | .packet k _ _ nb m => if k = 0 then true else if k = 1 then m == 0 else if k = 2 then m == 0 && nb == 0 else decide (m.1 < 2)
  | .slot _ nd q => decide (nd.1 ≤ 28) && decide (q.1 < 24)
  | .table k nd _ nb => if k = 2 then decide (nd.1 ≤ 30) else decide (nd.1 ≤ 28) && nb == 0
  | .time k nd na nb form =>
    if k = 0 then decide (nd.1 ≤ 28) && na == 0 && nb == 0 && !form
    else if k = 1 then decide (na.1 ≤ 29) && nb == 0 && !form
    else if k = 2 then decide (nb.1 ≤ 29) && !form
    else nd == 0 && nb == 0
  | .event k _ _ nb => k == 2 || nb == 0
  | .sys k nd na => if k = 2 then nd == 0 else if k = 3 then na == 0 else nd == 0 && na == 0
  | .signal k nd _ _ => k != 0 || decide (nd.1 ≤ 30)
  | _ => true

/-- A word of the RR format (R177). -/
def encRR (op nd na nb fn : Nat) : Nat := op * 67108864 + nd * 2097152 + na * 65536 + nb * 2048 + fn

/-- A word of the RI or BR format (R177). -/
def encRI (op a b imm : Nat) : Nat := op * 67108864 + a * 2097152 + b * 65536 + imm

/-- The word of an instruction (R177-R208). -/
def nyEncode : NyInsn → Nat
  | .alu k nd na nb => encRR 0x00 nd na nb k
  | .aluI k nd na imm => encRI (0x01 + k) nd na imm.toNat
  | .load k nd na imm => encRI (0x10 + k) nd na imm.toNat
  | .store k nd na imm => encRI (0x14 + k) nd na imm.toNat
  | .branch k na nb off => encRI (0x18 + k) na nb off.toNat
  | .jal off => 0x1E * 67108864 + off.toNat
  | .jalr nd na imm => encRI 0x1F nd na imm.toNat
  | .field k nd na w pos s => encRR 0x20 nd na w (k * 256 + s.toNat * 128 + pos)
  | .packet k nd na nb m => encRR 0x21 nd na nb (k * 256 + m)
  | .slot k nd q => encRR 0x22 nd 0 0 ((if k = 2 then 0x300 else k.1 * 256) + q)
  | .qack nd na nb => encRR 0x22 nd na nb 0x200
  | .table k nd na nb => encRR 0x23 nd na nb (k * 256)
  | .time k nd na nb form => encRR 0x24 nd na nb (k * 256 + form.toNat)
  | .bank k nd na nb => encRR 0x25 nd na nb (k * 256)
  | .event k nd na nb => encRR 0x26 nd na nb (k * 256)
  | .crypto k nd na => encRR 0x27 nd na 0 (k * 256)
  | .sys k nd na => encRR 0x28 nd na 0 (k * 256)
  | .signal k nd na nb => encRR 0x29 nd na nb (k * 256)

/-- An instruction when it is legal. -/
def NyInsn.checked (i : NyInsn) : Option NyInsn := if i.legal then some i else none

/-- An instruction when the word has no other bits than the instruction's, and it is legal. -/
def NyInsn.exact (w : Nat) (i : NyInsn) : Option NyInsn := if nyEncode i = w then i.checked else none

/-- The instruction that a word of 32 bits encodes; none for an illegal encoding (R180, R208). -/
def nyDecode (w : Nat) : Option NyInsn :=
  let op := w / 67108864
  let a : Fin 32 := Fin.ofNat 32 (w / 2097152)
  let b : Fin 32 := Fin.ofNat 32 (w / 65536)
  let c : Fin 32 := Fin.ofNat 32 (w / 2048)
  let imm := BitVec.ofNat 16 w
  let fn := w % 2048
  let k := fn / 256
  if op = 0x00 then NyInsn.exact w (.alu (Fin.ofNat 16 fn) a b c)
  else if op ≤ 0x0A then NyInsn.exact w (.aluI (Fin.ofNat 10 (op - 0x01)) a b imm)
  else if op < 0x10 then none
  else if op ≤ 0x13 then NyInsn.exact w (.load (Fin.ofNat 4 (op - 0x10)) a b imm)
  else if op ≤ 0x17 then NyInsn.exact w (.store (Fin.ofNat 4 (op - 0x14)) a b imm)
  else if op ≤ 0x1D then NyInsn.exact w (.branch (Fin.ofNat 6 (op - 0x18)) a b imm)
  else if op = 0x1E then NyInsn.exact w (.jal (BitVec.ofNat 26 w))
  else if op = 0x1F then NyInsn.exact w (.jalr a b imm)
  else if op = 0x20 then NyInsn.exact w (.field (Fin.ofNat 3 k) a b c (Fin.ofNat 32 fn) (fn / 128 % 2 == 1))
  else if op = 0x21 then NyInsn.exact w (.packet (Fin.ofNat 4 k) a b c (Fin.ofNat 8 fn))
  else if op = 0x22 then
    if k = 2 then NyInsn.exact w (.qack a b c) else NyInsn.exact w (.slot (if k = 3 then 2 else Fin.ofNat 3 k) a (Fin.ofNat 32 fn))
  else if op = 0x23 then NyInsn.exact w (.table (Fin.ofNat 3 k) a b c)
  else if op = 0x24 then NyInsn.exact w (.time (Fin.ofNat 4 k) a b c (fn % 2 == 1))
  else if op = 0x25 then NyInsn.exact w (.bank (Fin.ofNat 2 k) a b c)
  else if op = 0x26 then NyInsn.exact w (.event (Fin.ofNat 3 k) a b c)
  else if op = 0x27 then NyInsn.exact w (.crypto (Fin.ofNat 2 k) a b)
  else if op = 0x28 then NyInsn.exact w (.sys (Fin.ofNat 5 k) a b)
  else if op = 0x29 then NyInsn.exact w (.signal (Fin.ofNat 2 k) a b c)
  else none

end Sys2Proof.Machine
end

