-- ==== Sys2Proof/Machine/EngCore.lean ====
section
/-!
DEFINITION. The engine threads (chapter 04): their states, registers and windows, the issue of an instruction with its budget, traps, START and STOP, events.
-/
namespace Sys2Proof.Machine

/-! ### States and registers (R139, R142) -/

def thIdle : Nat := 0
def thReady : Nat := 1
def thWait : Nat := 2
def thThrottled : Nat := 3
def thHalted : Nat := 4
def thTrapped : Nat := 5

/-- ENG.STATUS.STATE_t (R171). -/
def thrFld (e : Fin 24) (t : Fin 4) : Fld := ⟨R.ENG_STATUS e.1, 3 * t.1 + 2, 3 * t.1⟩

/-- The state of a thread. -/
def thrState (e : Fin 24) (t : Fin 4) (s : State) : Nat := fget (thrFld e t) s

/-- Gives a thread a state. -/
def putThr (e : Fin 24) (t : Fin 4) (st : Nat) (s : State) : State := fput (thrFld e t) st s

/-- Reads a register; n0 reads 0 (R139). -/
def getN (e : Fin 24) (t : Fin 4) (k : Fin 32) (s : State) : Word := if k = 0 then 0 else (thr e t s).n[k.1]

/-- Writes a register; a write to n0 is discarded (R139). -/
def setN (e : Fin 24) (t : Fin 4) (k : Fin 32) (v : Word) (s : State) : State :=
  if k = 0 then s else updThr e t (fun x => { x with n := x.n.set k.1 v k.2 }) s

/-- The register that follows another in a run (R179). -/
def runReg (k : Fin 32) (i : Nat) : Fin 32 := Fin.ofNat 32 (k.1 + i)

/-- Writes a run of registers. -/
def setRun (e : Fin 24) (t : Fin 4) (k : Fin 32) (l : List Nat) (s : State) : State :=
  l.zipIdx.foldl (fun s p => setN e t (runReg k p.2) (BitVec.ofNat 32 p.1) s) s

/-- Reads a run of registers. -/
def getRun (e : Fin 24) (t : Fin 4) (k : Fin 32) (n : Nat) (s : State) : List Nat := (List.range n).map fun i => (getN e t (runReg k i) s).toNat

/-- The index of a thread's next instruction. -/
def thrPc (e : Fin 24) (t : Fin 4) (s : State) : Nat := fget (F.ENG_THR_PC_t_PC e.1 t.1) s

/-- Gives a thread its next instruction, modulo 2^14. -/
def putPc (e : Fin 24) (t : Fin 4) (v : Nat) (s : State) : State := fput (F.ENG_THR_PC_t_PC e.1 t.1) (v % 16384) s

/-- Goes on to the next instruction. -/
def retire (e : Fin 24) (t : Fin 4) (s : State) : State := putPc e t (thrPc e t s + 1) s

/-- The instruction waits: the thread's next instruction is the one after it. -/
def waitOn (e : Fin 24) (t : Fin 4) (w : EngWait) (s : State) : State :=
  putThr e t thWait (updThr e t (fun x => { x with wait := some w }) (retire e t s))

/-- The instruction has had its effect, and its thread is in WAIT until the result has come (R143, R182: the entries marked W). -/
def retireWait (e : Fin 24) (t : Fin 4) (s : State) : State := waitOn e t .result s

/-! ### Held items and jobs (R153-R155, R166, R168) -/

/-- The held item of a handle. -/
def heldItem (e : Fin 24) (t : Fin 4) (h : Nat) (s : State) : Option Hold := (thr e t s).holds.find? fun x => x.handle == h

/-- The lowest free handle of 1-8 (R192). -/
def freeHandle (e : Fin 24) (t : Fin 4) (s : State) : Option Nat := ((List.range 8).map (· + 1)).find? fun h => (heldItem e t h s).isNone

/-- How many held items are packets (R157). -/
def heldPackets (e : Fin 24) (t : Fin 4) (s : State) : Nat := ((thr e t s).holds.filter fun h => h.pkt.isSome).length

/-- A handle is freed; a packet that is selected no longer is. -/
def dropHold (e : Fin 24) (t : Fin 4) (h : Nat) (s : State) : State :=
  updThr e t (fun x => { x with holds := x.holds.filter fun y => y.handle != h, selected := if x.selected = some h then none else x.selected }) s

/-- Ends every held item of a thread in handle order; `trap` counts the switch's frames in E_ABANDON (R166, R235). -/
def endAllHeld (e : Fin 24) (t : Fin 4) (st : Status) (trap : Bool) (s : State) : State :=
  (List.range 8).foldl (fun s k =>
    match heldItem e t (k + 1) s with
    | none => s
    | some h =>
      let s := whenB (trap && h.ended.isNone && h.pkt.isSome && decide (0x200 ≤ h.qid) && decide (h.qid ≤ 0x208)) (bump R.SW_E_ABANDON) s
      dropHold e t (k + 1) (endItem h st s).2) s

/-- The crypto jobs that an engine has outstanding (R173): not ended, or not collected. -/
def engJobs (e : Fin 24) (s : State) : List Nat := engTags e s

/-! ### Traps (R166, R167, R174) -/

def trIllegal : Nat := 0x01
def trMisalign : Nat := 0x02
def trWindow : Nat := 0x03
def trOwnership : Nat := 0x04
def trBus : Nat := 0x05
def trEcc : Nat := 0x06
def trQueue : Nat := 0x07
def trHoldFull : Nat := 0x08
def trCrypto : Nat := 0x09
def trTrap : Nat := 0x0A
def trHaltHeld : Nat := 0x0B

/-- The status that held items end with (R167). -/
def trapStatus (cause : Nat) : Status := if cause = 0x04 ∨ cause = 0x05 then .failedBus else if cause = 0x06 then .failedEcc else .failedRefused

/-- Writes the trap record (R174). -/
def trapRecord (e : Fin 24) (t : Fin 4) (cause addr pc word : Nat) (s : State) : State :=
  let used := fget (F.ENG_THR_USED_t_COUNT e.1 t.1) s
  let ended := ((thr e t s).holds.filter fun h => h.ended.isNone).length
  let v := vtWords (vt16 s)
  s |> wr (R.ENG_TRAP_0_t e.1 t.1) (BitVec.ofNat 32 (cause + 256 + pc * 65536)) |> wr (R.ENG_TRAP_1_t e.1 t.1) (BitVec.ofNat 32 addr)
    |> wr (R.ENG_TRAP_2_t e.1 t.1) (BitVec.ofNat 32 word)
    |> wr (R.ENG_TRAP_3_t e.1 t.1) (BitVec.ofNat 32 (ended + (trapStatus cause).code * 256 + used / 65536 * 65536))
    |> wr (R.ENG_TRAP_4_t e.1 t.1) (BitVec.ofNat 32 (v.getD 0 0)) |> wr (R.ENG_TRAP_5_t e.1 t.1) (BitVec.ofNat 32 (v.getD 1 0))
    |> wr (R.ENG_TRAP_6_t e.1 t.1) (BitVec.ofNat 32 (v.getD 2 0)) |> wr (R.ENG_TRAP_7_t e.1 t.1) (BitVec.ofNat 32 (epoch s % 65536 + used % 65536 * 65536))

/-- A trap (R166): the record, the held items in handle order, the crypto jobs, the state. `pc` is the index it names. -/
def trapAt (e : Fin 24) (t : Fin 4) (cause addr pc word : Nat) (s : State) : State :=
  let s := trapRecord e t cause addr pc word s
  let s := endAllHeld e t (trapStatus cause) true s
  let s := cryDrop (isThread e t) (trapStatus cause) s
  let s := putThr e t thTrapped (updThr e t (fun x => { x with wait := none }) s)
  logFault 0x30 (288 + 4 * e.1) 0x02 0 (rd (R.ENG_TRAP_0_t e.1 t.1) s).toNat (raise (F.ENG_EVENT_TRAP e.1) t.1 s)

/-- A trap of the instruction that issues. -/
def trap (e : Fin 24) (t : Fin 4) (word cause addr : Nat) (s : State) : State := trapAt e t cause addr (thrPc e t s) word s

/-! ### Budgets (R163, R164) -/

/-- The class of a thread (R175). -/
def thrClass (e : Fin 24) (t : Fin 4) (s : State) : Nat := fget (F.ENG_THR_CFG_t_CLASS e.1 t.1) s

/-- The issue is counted; a C0 thread that passes its budget is reported once a frame. -/
def countIssue (e : Fin 24) (t : Fin 4) (s : State) : State :=
  let f := F.ENG_THR_USED_t_COUNT e.1 t.1
  let s := fput f (min 0xFFFFF (fget f s + 1)) s
  if thrClass e t s = 0 ∧ fget (F.ENG_THR_BUDGET_t_CYCLES e.1 t.1) s < fget f s ∧ (thr e t s).overFrame = false then
    updThr e t (fun x => { x with overFrame := true }) (bump (R.ENG_THR_OVER_CNT_t e.1 t.1) (raise (F.ENG_EVENT_BUDGET_C0 e.1) t.1 s))
  else s

/-- A C1-C3 thread whose usage has reached its budget is throttled; THR_OVER_CNT counts the frame once (R173). -/
def throttle (e : Fin 24) (t : Fin 4) (s : State) : State :=
  if thrClass e t s ≠ 0 ∧ fget (F.ENG_THR_BUDGET_t_CYCLES e.1 t.1) s ≤ fget (F.ENG_THR_USED_t_COUNT e.1 t.1) s
      ∧ (thrState e t s = thReady ∨ thrState e t s = thWait) then
    let s := raise (F.ENG_EVENT_THROTTLE e.1) t.1 s
    putThr e t thThrottled (if (thr e t s).overFrame then s else updThr e t (fun x => { x with overFrame := true }) (bump (R.ENG_THR_OVER_CNT_t e.1 t.1) s))
  else s

/-! ### Issue (R141, R147, R181, R185) -/

/-- Whether a thread waits for the others after its YIELD: one of those it lets go first has not issued and is READY (R207). -/
def yields (e : Fin 24) (t : Fin 4) (s : State) : Bool := (thr e t s).passed.any fun k => thrState e (Fin.ofNat 4 k) s == thReady

/-- Whether the selection of R141 must take a thread when it comes to it: READY, not yielding, and with no result or branch of its own that it may be passed over for (R182). -/
def mustIssue (e : Fin 24) (t : Fin 4) (s : State) : Bool := thrState e t s == thReady && !yields e t s && (thr e t s).slack == 0

/-- The threads that the search of R141 meets before a thread: those after the thread that issued last. -/
def searchedBefore (e : Fin 24) (t : Fin 4) (s : State) : List (Fin 4) :=
  let l := s.issuer[e.1]
  ([1, 2, 3, 4].map fun k : Nat => Fin.ofNat 4 (l.1 + k)).takeWhile fun k => k != t

/-- Whether a thread may issue: READY, its island running, and every thread that the search of R141 meets before it is passed over. -/
def mayIssue (e : Fin 24) (t : Fin 4) (s : State) : Bool :=
  thrState e t s == thReady && islOpen (engIsl e) s && !yields e t s && (searchedBefore e t s).all fun k => !mustIssue e k s

/-- Whether the next instruction lies in THR_CODE. -/
def pcInCode (e : Fin 24) (t : Fin 4) (pc : Nat) (s : State) : Bool :=
  decide (fget (F.ENG_THR_CODE_t_LO e.1 t.1) s ≤ pc) && decide (pc ≤ fget (F.ENG_THR_CODE_t_HI e.1 t.1) s)

/-- A thread is the one that issued last (R141); the others that wait for it to issue no longer do, and have been passed over once. -/
def notePassed (e : Fin 24) (t : Fin 4) (s : State) : State :=
  forFin 4 (fun u s => updThr e u (fun x => { x with passed := x.passed.filter (fun k => k != t.1), slack := x.slack - 1 }) s)
    { s with issuer := upd s.issuer e fun _ => t }

/-- The issues of other threads for which an instruction's thread may be passed over (R182, R183): the cycles of its result less one. -/
def nySlack (taken : Bool) : NyInsn → Nat
  | .alu k _ _ _ => if k.1 = 8 ∨ k.1 = 9 then 2 else 0
  | .load _ _ _ _ => 1
  | .time 0 _ _ _ _ => 1
  | .event 1 _ _ _ | .event 2 _ _ _ => 1
  | .jal _ | .jalr _ _ _ => 2
  | _ => if taken then 2 else 0

/-- What is left of an instruction whose thread goes on: how long its thread may be passed over. -/
def noteSlack (e : Fin 24) (t : Fin 4) (pc : Nat) (i : NyInsn) (s : State) : State :=
  updThr e t (fun x => { x with slack := nySlack (thrPc e t s != (pc + 1) % 16384) i }) s

/-- A thread issues an instruction, whose effect is `f` when its encoding is legal. A thread that may not issue does not. -/
def issueWord (e : Fin 24) (t : Fin 4) (word : Nat) (legal : Bool) (f : State → State) (s : State) : State :=
  if !mayIssue e t s then s
  else if !pcInCode e t (thrPc e t s) s then trap e t word trWindow 0 s
  else
    let s := notePassed e t (countIssue e t (updThr e t (fun x => { x with passed := [] }) s))
    if legal then throttle e t (f s) else trap e t word trIllegal 0 s

/-- Issues an instruction. -/
def issue (e : Fin 24) (t : Fin 4) (i : NyInsn) (f : Nat → State → State) (s : State) : State :=
  issueWord e t (nyEncode i) i.legal (fun u => noteSlack e t (thrPc e t s) i (f (nyEncode i) u)) s

/-! ### Windows (R144-R146) -/

/-- A window of the local address space, with the offset or the physical address that an access reaches. -/
inductive Win where
  | data (off : Nat)
  | packet (off : Nat)
  | raise
  | bank (phys : Nat)
  | dram (phys : Nat)

/-- The window of an access of `size` bytes; none traps WINDOW. -/
def windowOf (e : Fin 24) (t : Fin 4) (addr size : Nat) (store : Bool) (s : State) : Option Win :=
  if addr + size ≤ 0x10000 then some (.data addr)
  else if 0x10000 ≤ addr ∧ addr + size ≤ 0x10100 then (if (thr e t s).selected.isSome then some (.packet (addr - 0x10000)) else none)
  else if 0x11000 ≤ addr ∧ addr + size ≤ 0x11004 then some .raise
  else if 0x01000000 ≤ addr ∧ addr + size ≤ 0x01400000 then some (.bank addr)
  else if 0x40000000 ≤ addr ∧ addr < 0x80000000 then
    let g := (addr - 0x40000000) / 0x10000000
    let x := addr % 0x10000000
    if !ftst (F.ENG_SEG_CFG_s_t_EN e.1 t.1 g) s || decide (fget (F.ENG_SEG_CFG_s_t_SIZE e.1 t.1 g) s * 4096 ≤ x)
        || (store && ftst (F.ENG_SEG_CFG_s_t_RO e.1 t.1 g) s) then none
    else some (.dram (fget (F.ENG_SEG_BASE_s_t_PAGE e.1 t.1 g) s * 4096 + x))
  else none

/-- Where a byte of an engine's data RAM lies (R32). -/
def dataRam (e : Fin 24) (off : Nat) : Nat := 0x02010000 + 0x80000 * e.1 + off

/-- Where a word of an engine's instruction RAM lies. -/
def instrRam (e : Fin 24) (k : Nat) : Nat := 0x02000000 + 0x80000 * e.1 + 4 * k

/-- Why an access outside the engine fails (R146, R167, R185); none when it succeeds. Ownership is checked before the memory answers. -/
def outerCheck (e : Fin 24) (t : Fin 4) (write : Bool) (a n : Nat) (s : State) : Option Nat × State :=
  if !islOpen islMEM s then (some trBus, s)
  else
    let w := initIdent (.thread e t) s
    if (ownEntryAddr a s).isNone then (some trBus, logUnmapped w.code a s)
    else match rangeCheck w write a ((a + n - 1) / 4096 + 1 - a / 4096) s with
      | (false, s) => (some trOwnership, s)
      | (true, s) => if inBanks a n || inDram a n s then (none, s) else (some trBus, logUnmapped w.code a s)

/-- The trap that the end of an access at its memory gives (R167, R421). -/
def endTrap (e : Fin 24) (a : Nat) (r : BusEnd) (s : State) : Option Nat × State :=
  match r with
  | .ok => (none, s)
  | .busError => (some trBus, s)
  | .eccError => (some trEcc, eccLog a e.1 true false s)

/-- The bytes that a window holds. -/
def winBytes (e : Fin 24) (t : Fin 4) (w : Win) (n : Nat) (s : State) : List Byte :=
  match w with
  | .data off => mrdBytes (dataRam e off) n s
  | .packet off => ((thr e t s).window.toList.drop off).take n
  | .raise => List.replicate n 0
  | .bank a | .dram a => mrdBytes a n s

/-- Writes bytes of a window. A store to RAISE asserts the engine's source (R144, R188). -/
def putWinBytes (e : Fin 24) (t : Fin 4) (w : Win) (d : List Byte) (s : State) : State :=
  match w with
  | .data off => mwrBytes (dataRam e off) d s
  | .packet off => updThr e t (fun x => { x with window := Vector.ofFn fun k => if off ≤ k.1 ∧ k.1 < off + d.length then d.getD (k.1 - off) 0 else x.window[k.1] }) s
  | .raise => raise (F.ENG_EVENT_RAISE e.1) 0 s
  | .bank a | .dram a => mwrBytes a d s

/-- The words that bytes of a window make, in the window's byte order (R186). -/
def winWords (w : Win) (size : Nat) (d : List Byte) : List Nat :=
  let word (b : List Byte) : Nat := match w with
    | .packet _ => beNat b
    | _ => leNat b
  if size = 16 then (List.range 4).map fun i => word ((d.drop (4 * i)).take 4) else [word d]

/-- The bytes of words in a window's byte order (R186). -/
def wordsWin (w : Win) (size : Nat) (l : List Nat) : List Byte :=
  let n := if size = 16 then 4 else size
  l.flatMap fun v => match w with
    | .packet _ => beBytes n v
    | _ => leBytes n v

/-! ### Events (R159-R161) -/

/-- Whether a queue slot is bound to a thread in a direction and enabled, and its queue (R150). -/
def slotQid (e : Fin 24) (t : Fin 4) (q : Nat) (push : Bool) (s : State) : Option Nat :=
  if ftst (F.ENG_QSLOT_q_EN e.1 q) s && fget (F.ENG_QSLOT_q_THREAD e.1 q) s == t.1 && ftst (F.ENG_QSLOT_q_DIR e.1 q) s == push then
    some (fget (F.ENG_QSLOT_q_QID e.1 q) s)
  else none

/-- Whether a slot is ready (R159); one whose home block is gone is not (R158). -/
def slotReady (e : Fin 24) (t : Fin 4) (q : Nat) (s : State) : Bool :=
  !ftst (F.ENG_QSLOT_q_GONE e.1 q) s
    && (match slotQid e t q false s, slotQid e t q true s with
      | some d, _ => (qHead d s).isSome
      | none, some d => !qFull d s
      | none, none => false)

/-- The event vector of a thread (R159). -/
def thrEvents (e : Fin 24) (t : Fin 4) (s : State) : Nat :=
  let x := thr e t s
  let b (k : Nat) (c : Bool) : Nat := if c then 2 ^ k else 0
  ((List.range 24).map fun q => b q (slotReady e t q s)).sum + b 24 (s.ic.bits[e.1] != 0) + b 25 (s.key.coll.any fun c => c.1.1 == e && c.1.2.1 == t)
    + b 26 x.evAlarm + b 27 x.evFrame + b 28 x.evBell

/-- WEV reports the events of a mask, and clears the latched ones that it reports (R160). -/
def reportEvents (e : Fin 24) (t : Fin 4) (nd : Fin 32) (m : Word) (s : State) : State :=
  let v := thrEvents e t s &&& m.toNat
  setN e t nd (BitVec.ofNat 32 v)
    (updThr e t (fun x =>
      { x with
        evAlarm := x.evAlarm && !v.testBit 26
        evFrame := x.evFrame && !v.testBit 27
        evBell := x.evBell && !v.testBit 28 }) s)

/-- Fires a thread's time alarm when master VT has reached it (R161). -/
def alarmCheck (k : Fin 96) (s : State) : State :=
  { s with eng := upd s.eng k fun x => match x.alarm with
    | some v => if v ≤ vt16 s then { x with alarm := none, evAlarm := true } else x
    | none => x }

/-- Fires every time alarm that is due. -/
def alarmsDue (s : State) : State := forFin 96 alarmCheck s

/-! ### Frames, alarms and responses -/

/-- A thread at a frame start (R142, R159, R163). -/
def thrFrame (e : Fin 24) (t : Fin 4) (s : State) : State :=
  let s := fput (F.ENG_THR_USED_t_COUNT e.1 t.1) 0 (updThr e t (fun x => { x with overFrame := false, evFrame := true }) s)
  if thrState e t s = thThrottled then putThr e t (if (thr e t s).wait.isSome then thWait else thReady) s else s

/-- BUDGET_FRAME_START (R163): the raw count of the master time island reaches the next millionth cycle. -/
def execBudgetFrameStart (s : State) : Host.Outcome State Fault Refusal :=
  .next (forFin 24 (fun e s => forFin 4 (fun t s => thrFrame e t s) s) (advance (1000000 - (mIsl s).raw % 1000000) s))

/-- TIME_ALARM (R161). -/
def execTimeAlarm (e : Fin 24) (t : Fin 4) (s : State) : Host.Outcome State Fault Refusal :=
  .next (
    match (thr e t s).alarm with
    | some v => alarmCheck (thrIdx e t) (elapseVt (v * 2 ^ 32) s)
    | none => s)

/-- POSTED_STORE_ERROR (R189): the response of the `k`-th outstanding store is an error. -/
def execPostedStoreError (e : Fin 24) (t : Fin 4) (k : Fin 8) (s : State) : Host.Outcome State Fault Refusal :=
  .next (
    match (thr e t s).posted[k.1]? with
    | none => s
    | some (a, word) =>
      let s := updThr e t (fun x => { x with posted := x.posted.eraseIdx k.1 }) s
      let st := thrState e t s
      if st = thReady ∨ st = thWait ∨ st = thThrottled then trapAt e t trBus a (thrPc e t s) word s else s)

/-- Whether a thread has a transaction open to the memory island: a posted store, or a load, an atomic or a lookup that waits (R633). -/
def thrOpen (x : EngThr) : Bool :=
  !x.posted.isEmpty || (match x.wait with
    | some (.load ..) | some (.atomic ..) | some (.lookup ..) => true
    | _ => false)

/-- The transactions that a thread has open into the memory island end ABORTED_ISLAND_OFF: it traps BUS (R23, R167, R189). -/
def memLost (e : Fin 24) (t : Fin 4) (s : State) : State :=
  let x := thr e t s
  let st := thrState e t s
  let go (a pc word : Nat) : State := trapAt e t trBus a pc word (updThr e t (fun x => { x with posted := [] }) s)
  if st ≠ thReady ∧ st ≠ thWait ∧ st ≠ thThrottled then s
  else match x.wait, x.posted with
    | some (.load _ _ a pc word), _ => go a pc word
    | some (.atomic _ _ a _ pc word), _ => go a pc word
    | some (.lookup _ _ pc word), _ => go 0 pc word
    | _, (a, word) :: _ => go a (thrPc e t s) word
    | _, [] => s

/-- ILLEGAL_ENCODING (R185, R208): the fetched word is no instruction, or has an uncorrectable error, which traps ECC before it is decoded. -/
def execIllegalEncoding (e : Fin 24) (t : Fin 4) (word : Word) (ecc : Bool) (s : State) : Host.Outcome State Fault Refusal :=
  .next (
    if ecc then issueWord e t word.toNat true (trap e t word.toNat trEcc 0) s
    else if (nyDecode word.toNat).isSome then s
    else issueWord e t word.toNat false id s)

/-- An atomic that a thread has open runs to its end in the bank (R633). -/
def atomicRuns (e : Fin 24) (t : Fin 4) (s : State) : State :=
  match (thr e t s).wait with
  | some (.atomic _ add a v _ _) => mwrN a 4 (if add then mrdN a 4 s + v.toNat else v.toNat) s
  | _ => s

/-- The threads of a group stop being threads: its island stops, is reset or is lost. What they have open runs to its end (R633), home blocks end what they held (R142, R153). -/
def threadsLost (e : Fin 24) (st : Status) (s : State) : State :=
  forFin 4 (fun t s =>
    let s := atomicRuns e t s
    let s := cryDrop (isThread e t) st (endAllHeld e t st false s)
    putThr e t thIdle (updThr e t (fun x => { x with wait := none, passed := [], posted := [], evFrame := false, evBell := false, evAlarm := false, alarm := none }) s)) s

end Sys2Proof.Machine
end

