-- ==== Sys2Proof/Machine/Flash.lean ====
section
/-!
DEFINITION. The settings-flash commands (R517-R520, R535): erase, program, their end, suspension for window reads, and the time limit.
-/
namespace Sys2Proof.Machine

/-- Changes the boot and flash state. -/
def updBoot (f : BootSt → BootSt) (s : State) : State := { s with boot := f s.boot }

/-- The bytes of a range become free values: what a command leaves that does not complete (assumption 24). -/
def flashOpen (a n : Nat) (s : State) : State :=
  let b := (List.range n).map fun i => BitVec.ofNat 8 (Config.freeNat (s.fresh + i))
  { fprogBytes a b (ferase a n s) with fresh := s.fresh + n }

/-- The flash command ends with a status (R518); a crash sequence that waits takes the interface (R520). -/
def xspiEnd (st : Status) (verify : Bool) (s : State) : State :=
  updBoot (fun b => { b with cmd := none }) s
    |> fput F.SYSCTL_XSPI_CMD_BUSY 0 |> fput F.SYSCTL_XSPI_STAT_LAST st.code |> fput F.SYSCTL_XSPI_STAT_VERIFY verify.toNat
    |> fput F.SYSCTL_XSPI_STAT_SUSPENDED 0 |> raise F.SYSCTL_XSPI_EVENT_EVENT 0 |> whenB (st != .done) (raise F.SYSCTL_XSPI_EVENT_EVENT 1)
    |> whenB (!s.sig.images.isEmpty) (fput F.SYSCTL_XSPI_STAT_CRASH_ACTIVE 1)

/-- Whether a range lies in a slot in part, and whether it lies in it wholly. -/
def inSlot (k a n : Nat) (s : State) : Bool × Bool :=
  let b := slotBase k s
  let e := b + slotSize s
  (decide (a < e) && decide (b < a + n), decide (b ≤ a) && decide (a + n ≤ e))

/-- Whether a command's range is refused (R518). -/
def xspiRefused (op a n : Nat) (s : State) : Bool :=
  let booted := fget F.SYSCTL_BOOT_STATUS_SLOT s
  let slot (k : Nat) : Bool :=
    let (part, whole) := inSlot k a n s
    part && (!whole || booted == k)
  decide (flashSize s < a + n) || slot 0 || slot 1 || (decide (a < 0x1000000) && decide (0x500000 < a + n))
    || (if op = 3 then n == 0 || decide (4096 < n) || decide (a / 4096 ≠ (a + n - 1) / 4096) else a % n != 0)

/-- The bytes that a command's source gives, or the status its reading ends with (R518). -/
def xspiSource (w : Initiator) (op n : Nat) (e : BusEnd) (s : State) : Status × List Byte × State :=
  if op ≠ 3 then (.done, [], s)
  else match e with
    | .busError => (.failedBus, [], s)
    | .eccError => (.failedEcc, [], s)
    | .ok =>
      match unitRead (initIdent w s) ((rd R.SYSCTL_XSPI_SRC_LO s).toNat + 2 ^ 32 * fget F.SYSCTL_XSPI_SRC_HI s) n s with
      | (none, s) => (.failedBus, [], s)
      | (some d, s) => (.done, d, s)

/-- A write of CMD (R518, R520): the command starts, waits for the crash sequence, or ends at once. -/
def xspiCmd (w : Initiator) (op : Nat) (e : BusEnd) (s : State) : State :=
  if ftst F.SYSCTL_XSPI_CMD_BUSY s then bad s
  else
    let a := fget F.SYSCTL_XSPI_ADDR s
    let n := if op = 1 then 4096 else if op = 2 then 65536 else fget F.SYSCTL_XSPI_LEN s
    if xspiRefused op a n s then xspiEnd .failedRefused false s
    else match xspiSource w op n e s with
      | (.done, d, s) =>
        fput F.SYSCTL_XSPI_CMD_BUSY 1
          (updBoot (fun b => { b with cmd := some ⟨op, a, n, d, ftst F.SYSCTL_XSPI_STAT_CRASH_ACTIVE s, s.now + 2000000000, s.now, none⟩ }) s)
      | (st, _, s) => xspiEnd st false s

/-- ERASE_4K (R518). -/
def execErase4k (w : Initiator) (s : State) : Host.Outcome State Fault Refusal := .next (regCmd w R.SYSCTL_XSPI_CMD (hearthOnly w (xspiCmd w 1 .ok)) s)

/-- ERASE_64K (R518). -/
def execErase64k (w : Initiator) (s : State) : Host.Outcome State Fault Refusal := .next (regCmd w R.SYSCTL_XSPI_CMD (hearthOnly w (xspiCmd w 2 .ok)) s)

/-- PROGRAM (R518): `e` is how the read of its source ends beside the checks of the address. -/
def execProgram (w : Initiator) (e : BusEnd) (s : State) : Host.Outcome State Fault Refusal :=
  .next (regCmd w R.SYSCTL_XSPI_CMD (hearthOnly w (xspiCmd w 3 e)) s)

/-- The command that runs now: neither waiting nor suspended. -/
def xspiRunning (s : State) : Option XspiCmd := s.boot.cmd.filter fun c => !c.waiting && c.susp.isNone

/-- CMD_DONE (R518): the operation completes; `differs` says that the read-back of a program differs from what it wrote. -/
def execCmdDone (differs : Bool) (s : State) : Host.Outcome State Fault Refusal :=
  .next (
    match xspiRunning s with
    | none => s
    | some c =>
      if c.op ≠ 3 then xspiEnd .done false (ferase c.addr c.len s)
      else if differs then xspiEnd .failedBus true (flashOpen c.addr c.len s)
      else
        let s := fprogBytes c.addr c.data s
        if frdBytes c.addr c.len s == c.data then xspiEnd .done false s else xspiEnd .failedBus true s)

/-- XSPI_BUSY_TIMEOUT (R518): 2 s of running time have passed. -/
def execXspiBusyTimeout (s : State) : Host.Outcome State Fault Refusal :=
  .next (
    match xspiRunning s with
    | none => s
    | some c => xspiEnd .failedTimeout false (flashOpen c.addr c.len (elapseTo c.due s)))

/-- XSPI_SUSPEND (R519): a window read suspends the operation at the next grant. -/
def execXspiSuspend (s : State) : Host.Outcome State Fault Refusal :=
  .next (
    match xspiRunning s with
    | none => s
    | some c =>
      let s := elapseTo c.grant s
      fput F.SYSCTL_XSPI_STAT_SUSPENDED 1 (updBoot (fun b => { b with cmd := some { c with susp := some s.now } }) s))

/-- XSPI_RESUME (R519): the window has been idle for 20 us; the suspended time does not count. -/
def execXspiResume (s : State) : Host.Outcome State Fault Refusal :=
  .next (
    match s.boot.cmd with
    | none => s
    | some c =>
      match c.susp with
      | none => s
      | some t =>
        let s := elapseTo (t + 20000) s
        fput F.SYSCTL_XSPI_STAT_SUSPENDED 0
          (updBoot (fun b => { b with cmd := some { c with susp := none, due := c.due + (s.now - t), grant := s.now + 200000 } }) s))

/-- The crash sequence releases the interface: a command that waited starts (R520). -/
def xspiRelease (s : State) : State :=
  fput F.SYSCTL_XSPI_STAT_CRASH_ACTIVE 0
    (updBoot (fun b => { b with cmd := b.cmd.map fun c => if c.waiting then { c with waiting := false, due := s.now + 2000000000, grant := s.now } else c }) s)

end Sys2Proof.Machine
end

