-- ==== Sys2Proof/Machine/Seal.lean ====
section
/-!
DEFINITION. The sealed log (chapter 08): blocks, the control block shared with the sealing program, seals, the crash ring and crash images, and records that software pushes.
-/
namespace Sys2Proof.Machine

/-! ### The control block (R323) -/

/-- PROD, CONS and SEAL_DUE_N in the control block. -/
def ctlProd (s : State) : Nat := logCtl s
def ctlCons (s : State) : Nat := mrdN (logCtl s + 8) 8 s
def ctlDue (s : State) : Nat := mrdN (logCtl s + 88) 8 s

/-- The SIG unit's writes to the block ring; an address that no range maps is logged and not written (R33). -/
def ringWrite (a : Nat) (d : List Byte) (s : State) : State :=
  if inBanks a d.length || inDram a d.length s then mwrBytes a d s else logUnmapped 0x40 a s

/-- Where block `n` lies (R322). -/
def blockAddr (n : Nat) (s : State) : Nat := 4096 * fget F.SIG_RING_BASE_PAGE s + (n - 1) % 2 ^ fget F.SIG_RING_LOG2 s * 4096

/-- Whether no block is free (R323). -/
def ringFull (s : State) : Bool := (s.sig.prod + 2 ^ 64 - ctlCons s) % 2 ^ 64 == 2 ^ fget F.SIG_RING_LOG2 s

/-- The open block closes. -/
def closeBlock (s : State) : State :=
  let s := updSig (fun g => { g with prod := g.prod + 1, blk := 0 }) s
  mwrN (ctlProd s) 8 s.sig.prod s

/-- Puts an accepted record into the open block and, unless it is frozen, into the crash ring (R322, R329). -/
def packRecord (r : BitVec 128) (s : State) : State :=
  let s := ringWrite (blockAddr (s.sig.prod + 1) s + 16 * s.sig.blk) (leBytes 16 r.toNat) s
  let frozen := ftst F.SIG_STATUS_CRASH_FROZEN s
  let s := updSig (fun g =>
    { g with
      blk := g.blk + 1
      records := g.records + 1
      crash := if frozen then g.crash else (r :: g.crash).take 32768
      newest := if frozen then g.newest else g.prod + 1 }) (bump R.SIG_LOG_ACCEPT s)
  if s.sig.blk = 256 then closeBlock s else s

/-- The records that a LOSS record reports; 0 for any other record. -/
def lossOf (r : BitVec 128) : Nat := if r.toNat / 2 ^ 48 % 16 = 5 then r.toNat / 2 ^ 64 % 2 ^ 32 else 0

/-- A record meets a ring without a free block (R323): it is lost; of a LOSS record, what it reports stays to be reported. -/
def ringLose (r : BitVec 128) (s : State) : State :=
  let n := lossOf r
  raise F.SIG_EVENT 1 (if n ≠ 0 then updSig (fun g => { g with ringLoss := g.ringLoss + n }) s else countLost (updSig (fun g => { g with ringLoss := g.ringLoss + 1 }) s))

/-- Packs one record, or loses it where the ring is full. -/
def packOrLose (r : BitVec 128) (s : State) : State := if ringFull s then ringLose r s else packRecord r s

/-- The SIG unit takes the oldest record from the sink (R321–R323): the first one packed after a loss has one LOSS record before it. -/
def acceptRecord (s : State) : State :=
  match s.log.sink with
  | [] => s
  | r :: rest =>
    let s := { s with log := { s.log with sink := rest } }
    if ringFull s then ringLose r s
    else if s.sig.ringLoss = 0 then packRecord r s
    else
      let due := lossRecord (s.sig.ringLoss + lossOf r) s
      let s := packRecord due (updSig (fun g => { g with ringLoss := 0 }) s)
      if lossOf r = 0 then packOrLose r s else s

/-- Takes every record that waits in the sink. -/
def drainSink : Nat → State → State
  | 0, s => s
  | n + 1, s => drainSink n (acceptRecord s)

/-! ### Seals (R326, R327) -/

/-- Bytes 0–63 of a seal. -/
def sealHead (magic : String) (k block : Nat) (q : SealReq) (records : Nat) (s : State) : List Byte :=
  ascii magic ++ leBytes 4 (rd R.SIG_CHAIN_ID_LO s).toNat ++ leBytes 4 (rd R.SIG_CHAIN_ID_HI s).toNat ++ leBytes 8 k ++ leBytes 8 block ++ leBytes 8 q.time
    ++ leBytes 2 q.epoch ++ leBytes 1 q.reason ++ leBytes 1 (fget F.SIG_LOG_CFG_KEY_SLOT s) ++ leBytes 4 s.sig.lost ++ leBytes 8 records ++ List.replicate 8 0

/-- The open block, when it holds records, is filled with PAD and closed. -/
def padBlock (s : State) : State :=
  if s.sig.blk = 0 then s
  else closeBlock (ringWrite (blockAddr (s.sig.prod + 1) s + 16 * s.sig.blk) (List.replicate (16 * (256 - s.sig.blk)) 0) s)

/-- Posts a seal. -/
def postSeal (q : SealReq) (s : State) : State :=
  let s := padBlock s
  let s := updSig (fun g => { g with k := g.k + 1, sealAt := some s.now, sealLate := false, merged := none }) (bump R.SIG_SEALS s)
  s |> mwrN (logCtl s + 88) 8 s.sig.prod |> mwrBytes (logCtl s + 192) (sealHead "Z480SEAL" s.sig.k s.sig.prod q s.sig.records s)

/-- A seal is triggered: posted, or merged into one that follows the pending one. -/
def sealTrigger (reason : Nat) (s : State) : State :=
  if !ftst F.SIG_STATUS_CHAIN_OPEN s then s
  else if s.sig.sealAt.isNone then postSeal ⟨reason, vtNs s, epoch s⟩ s
  else updSig (fun g => { g with merged := some ⟨reason ||| (g.merged.map (·.reason)).getD 0, vtNs s, epoch s⟩ }) s

/-- SEAL_DUE_N has returned to 0: the merged seal is posted; with none, a chain whose LOG_EN is 0 is closed (R326, R333). -/
def sealSettle (s : State) : State :=
  if s.sig.sealAt.isNone || ctlDue s != 0 then s
  else match s.sig.merged with
    | some q => postSeal q s
    | none =>
      let s := updSig (fun g => { g with sealAt := none }) s
      if ftst F.SIG_CTRL_LOG_EN s then s else fput F.SIG_STATUS_CHAIN_OPEN 0 s

/-- SEAL (R326). -/
def execSeal (w : Initiator) (s : State) : Host.Outcome State Fault Refusal := .next (regCmd w R.SIG_CMD (sealTrigger 2) s)

/-- SEAL_PERIODIC (R326): the raw count of the master time island reaches the next period. -/
def execSealPeriodic (s : State) : Host.Outcome State Fault Refusal :=
  .next (
    if !ftst F.SIG_CTRL_LOG_EN s then s
    else
      let s := sealTrigger 1 (advance (s.sig.sealNext - s.time.mraw) s)
      updSig (fun g => { g with sealNext := g.sealNext + fget F.SIG_SEAL_MS s * 1000000 }) s)

/-- SEAL_LATE (R319, R326): SEAL_DUE_N has stayed non-zero for 50 ms. -/
def execSealLate (s : State) : Host.Outcome State Fault Refusal :=
  .next (
    match s.sig.sealAt with
    | none => s
    | some t =>
      if s.sig.sealLate || ctlDue s == 0 then s
      else
        let s := elapseTo (t + 50000000) s
        updSig (fun g => { g with sealLate := true }) (logFault 0x30 0 0x05 0 0 (raise F.SIG_EVENT 2 s)))

/-- LOG_RECORD_ACCEPT (R322). -/
def execLogRecordAccept (s : State) : Host.Outcome State Fault Refusal := .next (if islOpen islMEM s then acceptRecord s else s)

/-! ### The crash ring and crash images (R329-R331) -/

/-- The offset of a slot of the log partition. -/
def crashSlot (k : Nat) : Nat := logPartition + k * 576 * 1024

/-- The first slot whose seal area is erased and that no image already begun is to take. -/
def erasedSlot (s : State) : Option Nat :=
  if flashSize s = 0 then none
  else (List.range 7).find? fun k => (frdBytes (crashSlot k) 260 s).all (· == 0xFF) && s.sig.images.all fun c => c.slot != k

/-- The image of a ring: its records, oldest first, then PAD. -/
def crashBytes (ring : List (BitVec 128)) : List Byte :=
  (ring.flatMap fun r => leBytes 16 r.toNat) ++ List.replicate (16 * (32768 - ring.length)) 0

/-- The signature of a crash image's seal, with the status of its job: the sealing key must be a valid P-521 private key that may sign (R541, R542, R546). -/
def crashSign (head : List Byte) (s : State) : Status × List Byte × State :=
  let p : Fin 128 := ⟨2 * fget F.SIG_LOG_CFG_KEY_SLOT s % 128, Nat.mod_lt _ (by decide)⟩
  let zero := List.replicate 132 (0 : Byte)
  if partValid p s && partType p s == 3 && partUse p 8 s && !(partUse p 16 s && fget (F.KEY_USES_s_h_USES (p.1 / 2) 0) s == 0) then
    let sig := pSign (beNat s.key.keys[p.1]) (sha512 head) (signNonce s)
    (.done, sig, useFree (useKey p s))
  else (.failedRefused, zero, s)

/-- A crash trigger is counted as skipped (R331). -/
def crashSkip (s : State) : State := raise F.SIG_EVENT 4 (bump R.SIG_CRASH_SKIP s)

/-- A crash image of the ring is begun in an erased slot; without one it is skipped (R330, R331). One begun while another is being written follows it (assumption 20). -/
def crashImage (reason : Nat) (s : State) : State :=
  match erasedSlot s with
  | none => crashSkip s
  | some k =>
    let ring := s.sig.crash.reverse
    let s := updSig (fun g => { g with imageCount := g.imageCount + 1 }) s
    let head := sealHead "Z480CRSH" s.sig.imageCount s.sig.newest ⟨reason, vtNs s, epoch s⟩ ring.length s ++ sha512 (crashBytes ring)
    let (st, sig, s) := crashSign head s
    let s := updSig (fun g => { g with images := g.images ++ [⟨k, ring, head ++ sig, st, s.now⟩] }) s
    whenB (!ftst F.SYSCTL_XSPI_CMD_BUSY s) (fput F.SYSCTL_XSPI_STAT_CRASH_ACTIVE 1) s

/-- A crash trigger (R326, R330, R331): it freezes the ring, whether or not a slot can take its image. -/
def crashTrigger (reason : Nat) (s : State) : State :=
  sealTrigger reason (if ftst F.SIG_STATUS_CRASH_FROZEN s then crashSkip s else crashImage reason (fput F.SIG_STATUS_CRASH_FROZEN 1 s))

/-- CRASH (R330). -/
def execCrash (w : Initiator) (s : State) : Host.Outcome State Fault Refusal := .next (regCmd w R.SIG_CMD (crashTrigger 4) s)

/-- The effect of CMD.CRASH_REARM (R331). -/
def crashRearm (s : State) : State := fput F.SIG_STATUS_CRASH_FROZEN 0 s

/-- CRASH_REARM. -/
def execCrashRearm (w : Initiator) (s : State) : Host.Outcome State Fault Refusal := .next (regCmd w R.SIG_CMD crashRearm s)

/-- CRASH_DONE (R319, R330, R331): the image and, last, its seal are programmed. -/
def execCrashDone (s : State) : Host.Outcome State Fault Refusal :=
  .next (
    match s.sig.images with
    | [] => s
    | c :: rest =>
      if !ftst F.SYSCTL_XSPI_STAT_CRASH_ACTIVE s then s
      else
        let s := fprogBytes (crashSlot c.slot) c.head (fprogBytes (crashSlot c.slot + 4096) (crashBytes c.ring) s)
        let s := cryTally c.status (updSig (fun g => { g with images := rest }) s)
        s |> logFault 0x30 0 0x04 0 (c.slot + c.status.code * 256) |> raise F.SIG_EVENT 3 |> fput F.SIG_STATUS_CRASH_RESULT c.status.code |> whenB rest.isEmpty xspiRelease)

/-! ### The chain (R324) -/

/-- The genesis of a chain. -/
def genesis (s : State) : List Byte :=
  ascii "Z480GEN1" ++ leBytes 4 (rd R.SIG_CHAIN_ID_LO s).toNat ++ leBytes 4 (rd R.SIG_CHAIN_ID_HI s).toNat
    ++ (vtWords (vt16 s)).flatMap (leBytes 4)
    ++ leBytes 1 (fget F.SIG_CTRL_VARIANT s) ++ List.replicate 3 0 ++ leBytes 4 (rd R.SYSCTL_RESET_CAUSE s).toNat ++ List.replicate 28 0

/-- LOG_EN changes from 0 to 1 (R324, R329). -/
def logOpen (s : State) : State :=
  let s := fput F.SIG_STATUS_CHAIN_OPEN 1 (fput F.SIG_CTRL_LOG_EN 1 s)
  let s := updSig (fun g =>
    { g with
      prod := 0
      blk := 0
      k := 0
      records := 0
      lost := 0
      ringLoss := 0
      sealAt := none
      sealLate := false
      merged := none
      sealNext := s.time.mraw + fget F.SIG_SEAL_MS s * 1000000 }) { s with log := ⟨[], 0⟩ }
  let s := s |> mwrN (ctlProd s) 8 0 |> mwrN (logCtl s + 88) 8 0 |> mwrBytes (logCtl s + 128) (genesis s)
  let s := if s.sig.kept && ftst F.SIG_CTRL_WARM_PERSIST s then crashImage 0x10 s else s
  let s := updSig (fun g => { g with kept := false }) s
  acceptRecord (logFault 0x30 0 0x01 0 (rd R.SYSCTL_RESET_CAUSE s).toNat s)

/-- LOG_EN changes from 1 to 0 (R326). -/
def logClose (s : State) : State :=
  let s := drainSink s.log.sink.length s
  sealTrigger 0x20 (fput F.SIG_CTRL_LOG_EN 0 s)

/-- A write of LOG_EN (R333). -/
def logEnWrite (en : Bool) (s : State) : State :=
  if en == ftst F.SIG_CTRL_LOG_EN s then s else if en then logOpen s else logClose s

/-- Whether RING_LOG2 lets a chain open (R333). -/
def ringLogOk (s : State) : Bool := let n := fget F.SIG_RING_LOG2 s; decide (4 ≤ n) && decide (n ≤ 16)

/-- LOG_ENABLE (R324). -/
def execLogEnable (w : Initiator) (s : State) : Host.Outcome State Fault Refusal :=
  .next (regCmd w R.SIG_CTRL (fun s => if ringLogOk s then logEnWrite true s else bad s) s)

/-- LOG_DISABLE (R326). -/
def execLogDisable (w : Initiator) (s : State) : Host.Outcome State Fault Refusal := .next (regCmd w R.SIG_CTRL (logEnWrite false) s)

/-! ### Records from software (R320) and counters -/

/-- A write of LOG_PUSH_3. -/
def hostPush (w : Initiator) (w3 : Word) (s : State) : State :=
  let (st, s) := logPush (initCode w) ((List.range 3).map (fun k => (rd (R.SIG_LOG_PUSH_k k) s).toNat) ++ [w3.toNat]) s
  fput F.SIG_LOG_PUSH_STAT st.code s

/-- LOG_PUSH (R320): the write of word 3 submits the record. -/
def execLogPush (w : Initiator) (w3 : Word) (s : State) : Host.Outcome State Fault Refusal := .next (regCmd w (R.SIG_LOG_PUSH_k 3) (hostPush w w3) s)

/-- The counters of the SIG unit. -/
def sigCounters : List Nat := [R.SIG_LOOKUPS, R.SIG_MISSES, R.SIG_UPDATES, R.SIG_LOG_ACCEPT, R.SIG_LOG_LOST, R.SIG_PIN_OVF, R.SIG_SEALS, R.SIG_CRASH_SKIP]

/-- SIG_CNT_CLR (R333). -/
def execSigCntClr (w : Initiator) (s : State) : Host.Outcome State Fault Refusal := .next (regCmd w R.SIG_CNT_CLR (clearRegs sigCounters) s)

end Sys2Proof.Machine
end

