-- ==== Sys2Proof/Machine/NyMem.lean ====
section
/-!
DEFINITION. The engine instructions that reach memory, time, events and the crypto queue (chapter 05): loads, stores, bank atomics, FENCE, WEV, PSCAN, PCLR, TNOW, TAT, CQ, CQWAIT,
YIELD, HALT, TRAP, BUDGET.
-/
namespace Sys2Proof.Machine

/-! ### Loads and stores (R186, R188, R189) -/

/-- The size of a load or a store by its number in the opcode map. -/
def accSize (k : Fin 4) : Nat := if k = 3 then 16 else 2 ^ k.1

/-- The local address of a load or a store. -/
def localAddr (e : Fin 24) (t : Fin 4) (na : Fin 32) (imm : BitVec 16) (s : State) : Nat := (getN e t na s + imm.signExtend 32).toNat

/-- The data of a load arrive in its registers. -/
def loadData (e : Fin 24) (t : Fin 4) (nd : Fin 32) (size : Nat) (w : Win) (s : State) : State := setRun e t nd (winWords w size (winBytes e t w size s)) s

/-- Counts what comes of an access to a bank word that the bank's other port accesses too (R415). -/
def bankClash (a : Nat) (c : Clash) (s : State) : State :=
  if inBanks a 1 then
    let b := (a - 0x01000000) / 0x40000
    match c with
    | .clear => s
    | .silent => bump (R.MEM_COLL_SILENT_b b) s
    | .retried => bump (R.MEM_COLL_RETRY_b b) s
  else s

/-- The data of a load from a bank or DRAM arrive. Those of a read that loses to a later write of the same bank word are undefined: a free value (R415, assumption 32). -/
def outerData (e : Fin 24) (t : Fin 4) (nd : Fin 32) (size a : Nat) (c : Clash) (s : State) : State :=
  let s := bankClash a c s
  if inBanks a 1 && c == .silent then useFree (setRun e t nd (winWords (.bank a) size (leBytes size (freeVal s))) s)
  else loadData e t nd size (.dram a) s

/-- A load; `r` is the answer of the memory outside the engine, none when it has not come yet, and the answer of the data RAM; `c` is what comes of an access by the bank's other
port. -/
def load (k : Fin 4) (e : Fin 24) (t : Fin 4) (nd na : Fin 32) (imm : BitVec 16) (r : Option BusEnd) (c : Clash) (s : State) : State :=
  issue e t (.load k nd na imm) (fun word s =>
    let a := localAddr e t na imm s
    let size := accSize k
    if a % size ≠ 0 then trap e t word trMisalign a s
    else match windowOf e t a size false s with
      | none => trap e t word trWindow a s
      | some (.bank p) | some (.dram p) =>
        match outerCheck e t false p size s with
        | (some c, s) => trap e t word c a s
        | (none, s) =>
          match r with
          | none => waitOn e t (.load nd size a (thrPc e t s) word) s
          | some r =>
            match endTrap e p r s with
            | (some c, s) => trap e t word c a s
            | (none, s) => retire e t (outerData e t nd size p c s)
      | some w =>
        match w, r with
        | .data _, some .eccError | .packet _, some .eccError => trap e t word trEcc a s
        | _, _ => retire e t (loadData e t nd size w s)) s

/-- A store takes effect: in the banks and DRAM it is checked and becomes an outstanding posted store (R189). The answer is why it fails. -/
def storeEffect (e : Fin 24) (t : Fin 4) (w : Win) (a : Nat) (d : List Byte) (word : Nat) (c : Clash) (s : State) : Option Nat × State :=
  match w with
  | .bank p | .dram p =>
    match outerCheck e t true p d.length s with
    | (some c, s) => (some c, s)
    | (none, s) => (none, sealSettle (updThr e t (fun x => { x with posted := x.posted ++ [(a, word)] }) (putWinBytes e t w d (bankClash p c s))))
  | _ => (none, putWinBytes e t w d s)

/-- The trap of a store that fails; an error response comes after the store has issued, and the record names the next instruction (R189). -/
def storeTrap (e : Fin 24) (t : Fin 4) (c a pc word : Nat) (s : State) : State := trapAt e t c a (if c = trBus then (pc + 1) % 16384 else pc) word s

/-- The responses of the `n` oldest posted stores have come. -/
def postedDone (e : Fin 24) (t : Fin 4) (n : Nat) (s : State) : State := updThr e t (fun x => { x with posted := x.posted.drop n }) s

/-- Whether a window is outside the engine. -/
def Win.outside : Win → Bool
  | .bank _ | .dram _ => true
  | _ => false

/-- A store. -/
def store (k : Fin 4) (e : Fin 24) (t : Fin 4) (nd na : Fin 32) (imm : BitVec 16) (n : Nat) (c : Clash) (s : State) : State :=
  issue e t (.store k nd na imm) (fun word s =>
    let s := postedDone e t n s
    let a := localAddr e t na imm s
    let size := accSize k
    let pc := thrPc e t s
    if a % size ≠ 0 then trap e t word trMisalign a s
    else match windowOf e t a size true s with
      | none => trap e t word trWindow a s
      | some w =>
        let d := wordsWin w size (getRun e t nd (if size = 16 then 4 else 1) s)
        if w.outside && decide (8 ≤ (thr e t s).posted.length) then waitOn e t (.store size a (leNat d) pc word) s
        else match storeEffect e t w a d word c s with
          | (none, s) => retire e t s
          | (some c, s) => storeTrap e t c a pc word (if c = trBus then retire e t s else s)) s

/-- LDB (R188). -/
def execLdb (e : Fin 24) (t : Fin 4) (nd na : Fin 32) (imm : BitVec 16) (r : Option BusEnd) (c : Clash) (s : State) : Host.Outcome State Fault Refusal :=
  .next (load 0 e t nd na imm r c s)

/-- LDH (R188). -/
def execLdh (e : Fin 24) (t : Fin 4) (nd na : Fin 32) (imm : BitVec 16) (r : Option BusEnd) (c : Clash) (s : State) : Host.Outcome State Fault Refusal :=
  .next (load 1 e t nd na imm r c s)

/-- LDW (R188, R415). -/
def execLdw (e : Fin 24) (t : Fin 4) (nd na : Fin 32) (imm : BitVec 16) (r : Option BusEnd) (c : Clash) (s : State) : Host.Outcome State Fault Refusal :=
  .next (load 2 e t nd na imm r c s)

/-- LDQ (R186, R188). -/
def execLdq (e : Fin 24) (t : Fin 4) (nd na : Fin 32) (imm : BitVec 16) (r : Option BusEnd) (c : Clash) (s : State) : Host.Outcome State Fault Refusal :=
  .next (load 3 e t nd na imm r c s)

/-- STB (R188). -/
def execStb (e : Fin 24) (t : Fin 4) (nd na : Fin 32) (imm : BitVec 16) (n : Fin 9) (c : Clash) (s : State) : Host.Outcome State Fault Refusal :=
  .next (store 0 e t nd na imm n.1 c s)

/-- STH (R188). -/
def execSth (e : Fin 24) (t : Fin 4) (nd na : Fin 32) (imm : BitVec 16) (n : Fin 9) (c : Clash) (s : State) : Host.Outcome State Fault Refusal :=
  .next (store 1 e t nd na imm n.1 c s)

/-- STW (R188, R415). -/
def execStw (e : Fin 24) (t : Fin 4) (nd na : Fin 32) (imm : BitVec 16) (n : Fin 9) (c : Clash) (s : State) : Host.Outcome State Fault Refusal :=
  .next (store 2 e t nd na imm n.1 c s)

/-- STQ (R186, R188). -/
def execStq (e : Fin 24) (t : Fin 4) (nd na : Fin 32) (imm : BitVec 16) (n : Fin 9) (c : Clash) (s : State) : Host.Outcome State Fault Refusal :=
  .next (store 3 e t nd na imm n.1 c s)

/-! ### Bank atomics (R204) -/

/-- The read-modify-write in the bank: the old value goes to nd. -/
def bankRmw (e : Fin 24) (t : Fin 4) (nd : Fin 32) (add : Bool) (a : Nat) (v : Word) (s : State) : State :=
  let old := BitVec.ofNat 32 (mrdN a 4 s)
  let new := if add then old + v else v
  sealSettle (setN e t nd old (mwrN a 4 new.toNat s))

/-- AADD and ASWP. -/
def bankAtomic (add : Bool) (e : Fin 24) (t : Fin 4) (nd na nb : Fin 32) (r : Option BusEnd) (s : State) : State :=
  issue e t (.bank (if add then 0 else 1) nd na nb) (fun word s =>
    let a := (getN e t na s).toNat
    let v := getN e t nb s
    if a % 4 ≠ 0 then trap e t word trMisalign a s
    else if !inBanks a 4 then trap e t word trWindow a s
    else match outerCheck e t true a 4 s with
      | (some c, s) => trap e t word c a s
      | (none, s) =>
        match r with
        | none => waitOn e t (.atomic nd add a v (thrPc e t s) word) s
        | some r =>
          match endTrap e a r s with
          | (some c, s) => trap e t word c a s
          | (none, s) => retire e t (bankRmw e t nd add a v s)) s

/-- AADD (R204). -/
def execAadd (e : Fin 24) (t : Fin 4) (nd na nb : Fin 32) (r : Option BusEnd) (s : State) : Host.Outcome State Fault Refusal :=
  .next (bankAtomic true e t nd na nb r s)

/-- ASWP (R204). -/
def execAswp (e : Fin 24) (t : Fin 4) (nd na nb : Fin 32) (r : Option BusEnd) (s : State) : Host.Outcome State Fault Refusal :=
  .next (bankAtomic false e t nd na nb r s)

/-! ### Events (R160-R162) -/

/-- WEV: reports at once when an event of the mask is true, or the mask is 0; else the thread waits. -/
def wev (e : Fin 24) (t : Fin 4) (nd na : Fin 32) (s : State) : State :=
  issue e t (.event 0 nd na 0) (fun _ s =>
    let s := icSettle s
    let m := getN e t na s
    if m = 0 ∨ thrEvents e t s &&& m.toNat ≠ 0 then retire e t (reportEvents e t nd m s) else waitOn e t (.event nd m) s) s

/-- WEV (R160). -/
def execWev (e : Fin 24) (t : Fin 4) (nd na : Fin 32) (s : State) : Host.Outcome State Fault Refusal := .next (wev e t nd na s)

/-- Word `k` of an engine's pending bits (R162). -/
def pendWord (e : Fin 24) (k : Nat) (s : State) : Nat := bits s.ic.bits[e.1].toNat (32 * k + 31) (32 * k)

/-- PSCAN (R162). -/
def execPscan (e : Fin 24) (t : Fin 4) (nd na : Fin 32) (s : State) : Host.Outcome State Fault Refusal :=
  .next (issue e t (.event 1 nd na 0) (fun _ s =>
    let s := icSettle s
    retire e t (setN e t nd (BitVec.ofNat 32 (pendWord e ((getN e t na s).toNat % 32) s)) s)) s)

/-- PCLR (R162): one action clears the bits, with the requests of the edge sources among them, and returns those that were set. -/
def execPclr (e : Fin 24) (t : Fin 4) (nd na nb : Fin 32) (s : State) : Host.Outcome State Fault Refusal :=
  .next (issue e t (.event 2 nd na nb) (fun _ s =>
    let s := icSettle s
    let k := (getN e t na s).toNat % 32
    let m := (getN e t nb s).toNat
    let old := pendWord e k s &&& m
    let s := updIc (fun c => { c with bits := upd c.bits e fun b => b &&& ~~~(BitVec.ofNat 1024 (m * 2 ^ (32 * k))) }) s
    let s := (mask 32 fun j => old / 2 ^ j % 2 == 1).foldl (fun s j => clearReq (32 * k + j) s) s
    retire e t (setN e t nd (BitVec.ofNat 32 old) s)) s)

/-! ### Time (R200, R201) -/

/-- TNOW (R200). -/
def execTnow (e : Fin 24) (t : Fin 4) (nd : Fin 32) (s : State) : Host.Outcome State Fault Refusal :=
  .next (issue e t (.time 0 nd 0 0 false) (fun _ s => retire e t (setRun e t nd (vtWords (vt16 s) ++ [epoch s % 65536]) s)) s)

/-- A VT value of a run of three registers in units of 2^-16 ns (R200); none when it breaks R8. -/
def runVt (e : Fin 24) (t : Fin 4) (k : Fin 32) (s : State) : Option Nat :=
  match getRun e t k 3 s with
  | [ns, lo, hi] => if ns < secNs then some (((lo + hi % 65536 * 2 ^ 32) * secNs + ns) * 65536 + hi / 65536) else none
  | _ => none

/-- TAT (R201). A value that VT has reached fires at once (R161). -/
def execTat (e : Fin 24) (t : Fin 4) (nd na : Fin 32) (s : State) : Host.Outcome State Fault Refusal :=
  .next (issue e t (.time 1 nd na 0 false) (fun _ s =>
    match runVt e t na s with
    | none => retire e t (setN e t nd (BitVec.ofNat 32 Status.failedRefused.code) s)
    | some v =>
      let s := updThr e t (fun x => { x with alarm := some v, evAlarm := false }) s
      retire e t (setN e t nd (BitVec.ofNat 32 Status.done.code) (alarmCheck (thrIdx e t) s))) s)

/-! ### The crypto queue (R205, R206) -/

/-- CQ: the job tag, or 0 when eight jobs are outstanding; an uncorrectable error of the descriptor traps (R167). -/
def cq (e : Fin 24) (t : Fin 4) (nd : Fin 32) (na : DescPtr) (s : State) : State :=
  issue e t (.crypto 0 nd na.reg) (fun word s =>
    let a := (getN e t na.reg s).toNat
    if a % 64 ≠ 0 then trap e t word trMisalign a s
    else if 0x10000 < a + 64 then trap e t word trWindow a s
    else
      let d := mrdBytes (dataRam e a) 64 s
      if na.read = .eccError then trap e t word trEcc a s
      else if jobInvalid d then trap e t word trCrypto a s
      else if !islOpen islHC s then trap e t word trBus a s
      else match ((List.range 8).map (· + 1)).find? fun g => !(engTags e s).contains g with
        | none => retireWait e t (setN e t nd 0 s)
        | some g => retireWait e t (setN e t nd (BitVec.ofNat 32 g) (cryEnqueue (.engine e t g) (initIdent (.thread e t) s) (dataRam e a) d s))) s

/-- CQ (R205). -/
def execCq (e : Fin 24) (t : Fin 4) (nd : Fin 32) (na : DescPtr) (s : State) : Host.Outcome State Fault Refusal := .next (cq e t nd na s)

/-- Whether a job of a thread is outstanding and not completed. -/
def jobRuns (e : Fin 24) (t : Fin 4) (g : Nat) (s : State) : Bool :=
  let mine (j : CryJob) : Bool := j.sub == .engine e t g && j.drop.isNone
  s.key.queue.any mine || s.key.sym.any (fun r => mine r.job) || s.key.pk.any fun r => mine r.job

/-- A completed job of a thread that is not collected. -/
def jobDone (e : Fin 24) (t : Fin 4) (g : Nat) (s : State) : Option Status := (s.key.coll.find? fun c => c.1 == (e, t, g)).map (·.2)

/-- The status of a completed job goes to nd, and its tag is free. -/
def jobCollect (e : Fin 24) (t : Fin 4) (nd : Fin 32) (g : Nat) (st : Status) (s : State) : State :=
  setN e t nd (BitVec.ofNat 32 st.code) (updKey (fun k => { k with coll := k.coll.filter fun c => !(c.1 == (e, t, g)) }) s)

/-- CQWAIT (R206). -/
def execCqwait (e : Fin 24) (t : Fin 4) (nd na : Fin 32) (s : State) : Host.Outcome State Fault Refusal :=
  .next (issue e t (.crypto 1 nd na) (fun word s =>
    let g := (getN e t na s).toNat
    match jobDone e t g s with
    | some st => retire e t (jobCollect e t nd g st s)
    | none => if jobRuns e t g s then waitOn e t (.crypto nd g) s else trap e t word trCrypto g s) s)

/-! ### System (R148, R164, R207) -/

/-- YIELD: the other READY threads of the engine go first. -/
def execYield (e : Fin 24) (t : Fin 4) (s : State) : Host.Outcome State Fault Refusal :=
  .next (issue e t (.sys 0 0 0) (fun _ s =>
    let others := (List.range 4).filter fun k => k != t.1 && thrState e (Fin.ofNat 4 k) s == thReady
    retire e t (updThr e t (fun x => { x with passed := others }) s)) s)

/-- Whether a thread has crypto jobs outstanding: running, waiting or not collected. -/
def hasJobs (e : Fin 24) (t : Fin 4) (s : State) : Bool := (List.range 9).any fun g => jobRuns e t g s || (jobDone e t g s).isSome

/-- HALT (R142). -/
def execHalt (e : Fin 24) (t : Fin 4) (s : State) : Host.Outcome State Fault Refusal :=
  .next (issue e t (.sys 1 0 0) (fun word s =>
    if !(thr e t s).holds.isEmpty || hasJobs e t s then trap e t word trHaltHeld 0 s else putThr e t thHalted (retire e t s)) s)

/-- TRAP (R167). -/
def execTrap (e : Fin 24) (t : Fin 4) (na : Fin 32) (s : State) : Host.Outcome State Fault Refusal :=
  .next (issue e t (.sys 2 0 na) (fun word s => trap e t word trTrap (getN e t na s).toNat s) s)

/-- BUDGET: what is left of the budget after this issue. -/
def execBudget (e : Fin 24) (t : Fin 4) (nd : Fin 32) (s : State) : Host.Outcome State Fault Refusal :=
  .next (issue e t (.sys 3 nd 0) (fun _ s =>
    retire e t (setN e t nd (BitVec.ofNat 32 (fget (F.ENG_THR_BUDGET_t_CYCLES e.1 t.1) s - fget (F.ENG_THR_USED_t_COUNT e.1 t.1) s)) s)) s)

/-- FENCE (R148, R207): only posted stores can be outstanding when it issues. -/
def execFence (e : Fin 24) (t : Fin 4) (n : Fin 9) (s : State) : Host.Outcome State Fault Refusal :=
  .next (issue e t (.sys 4 0 0) (fun _ s =>
    let s := postedDone e t n.1 s
    if (thr e t s).posted.isEmpty then retire e t s else waitOn e t .fence s) s)

end Sys2Proof.Machine
end

