-- ==== Sys2Proof/Machine/NyTable.lean ====
section
/-!
DEFINITION. The engine instructions of the table unit and of signals (chapters 05 and 08): LKP, LKPW, LKPS, SIGRD, SIGWR. A lookup that misses, or meets a table unit that is not READY,
leaves its thread waiting (R143, R311, R312); the thread goes on with it in the row WAIT_COMPLETE.
-/
namespace Sys2Proof.Machine

/-- What a step of a lookup gives: a result with the count of the lines looked up so far, a wait with the count of the lines that are counted, a trap with its address. -/
inductive Tab (α : Type) where
  | got (x : α) (n : Nat)
  | wait (n : Nat)
  | trap (cause addr : Nat)

/-- One line through the table unit for a thread, whose identity is checked for its page (R146, R197). `n` lookups went before it, `counted` are counted. -/
def tabLine (e : Fin 24) (t : Fin 4) (idx : Bool) (j counted n : Nat) (s : State) : Tab (List Byte) × State :=
  let a := lineAddr idx j s
  let w := initIdent (.thread e t) s
  if (ownEntryAddr a s).isNone then (.trap trBus 0, logUnmapped w.code a s)
  else match rangeCheck w false a 1 s with
    | (false, s) => (.trap trOwnership 0, s)
    | (true, s) =>
      match sigLook idx j (decide (counted ≤ n)) s with
      | (.hit d, s) => (.got d (n + 1), s)
      | (.wait, s) => (.wait (max counted (n + 1)), s)
      | (.err, s) => (.trap trBus 0, s)

/-- A definition: none for an ID that has none, or while EN = 0 (R299, R311). -/
def tabDef (e : Fin 24) (t : Fin 4) (id counted : Nat) (s : State) : Tab (Option (List Byte)) × State :=
  if !islOpen islMEM s then (.trap trBus 0, s)
  else if !ftst F.SIG_CTRL_EN s || decide (catLimit s ≤ id) then (.got none 0, s)
  else if !ftst F.SIG_STATUS_READY s then (.wait counted, s)
  else match tabLine e t false (id / 4) counted 0 s with
    | (.got d n, s) => (.got (some (defIn id d)) n, s)
    | (.wait n, s) => (.wait n, s)
    | (.trap c a, s) => (.trap c a, s)

/-! ### LKPS (R307, R308) -/

/-- The first index entry that a search looks at. -/
def idxStart (key k : Nat) : Nat := key * 0x9E3779B1 % 2 ^ 32 / 2 ^ (32 - k)

/-- The search of the source index from entry `i`: the first definition of the key and their count. `cur` is the line read last; the first argument bounds the entries. -/
def idxFind (e : Fin 24) (t : Fin 4) (key k counted : Nat) : Nat → Nat → Option (Nat × List Byte) → Nat → State → Tab (Option (Nat × Nat)) × State
  | 0, _, _, n, s => (.got none n, s)
  | f + 1, i, cur, n, s =>
    let r := match cur with
      | some (m, d) => if m = i / 4 then (Tab.got d n, s) else tabLine e t true (i / 4) counted n s
      | none => tabLine e t true (i / 4) counted n s
    match r with
    | (.wait n, s) => (.wait n, s)
    | (.trap c a, s) => (.trap c a, s)
    | (.got d n, s) =>
      let x := (d.drop (16 * (i % 4))).take 16
      let w (o b : Nat) := leNat ((x.drop o).take b)
      if w 0 4 = 0 then (.got none n, s)
      else if w 0 4 = key then (.got (some (w 4 4, w 8 2)) n, s)
      else idxFind e t key k counted f ((i + 1) % 2 ^ k) (some (i / 4, d)) n s

/-- The definitions of a group that are present in the active variant, from ID `id` on. -/
def groupFind (e : Fin 24) (t : Fin 4) (counted : Nat) : Nat → Nat → Option (Nat × List Byte) → Nat → List Nat → State → Tab (List Nat) × State
  | 0, _, _, n, acc, s => (.got acc n, s)
  | f + 1, id, cur, n, acc, s =>
    if catLimit s ≤ id then (.got acc n, s)
    else
      let r := match cur with
        | some (m, d) => if m = id / 4 then (Tab.got d n, s) else tabLine e t false (id / 4) counted n s
        | none => tabLine e t false (id / 4) counted n s
      match r with
      | (.wait n, s) => (.wait n, s)
      | (.trap c a, s) => (.trap c a, s)
      | (.got d n, s) =>
        let present := (leNat (((defIn id d).drop 12).take 4)).testBit (fget F.SIG_CTRL_VARIANT s)
        groupFind e t counted f (id + 1) (some (id / 4, d)) n (if present then acc ++ [id] else acc) s

/-- The answer of LKPS: the ID and the count. -/
def tabSource (e : Fin 24) (t : Fin 4) (key nth counted : Nat) (s : State) : Tab (Nat × Nat) × State :=
  if !islOpen islMEM s then (.trap trBus 0, s)
  else if !ftst F.SIG_CTRL_EN s then (.got (0xFFFFFFFF, 0) 0, s)
  else if !ftst F.SIG_STATUS_READY s then (.wait counted, s)
  else
    let k := fget F.SIG_SRCIDX_LOG2_K s
    match idxFind e t key k counted (2 ^ k) (idxStart key k) none 0 s with
    | (.wait n, s) => (.wait n, s)
    | (.trap c a, s) => (.trap c a, s)
    | (.got none n, s) => (.got (0xFFFFFFFF, 0) n, s)
    | (.got (some (first, count)) n, s) =>
      match groupFind e t counted count first none n [] s with
      | (.wait n, s) => (.wait n, s)
      | (.trap c a, s) => (.trap c a, s)
      | (.got l n, s) => (.got (l.getD nth 0xFFFFFFFF, l.length) n, s)

/-! ### Payloads (R198, R199) -/

/-- The payload of `n` bytes at a local address, with the window that it lies in; `r` is the answer of its memory. Another range traps WINDOW. -/
def payload (e : Fin 24) (t : Fin 4) (a n : Nat) (write : Bool) (r : BusEnd) (s : State) : Tab (Win × List Byte) × State :=
  if a + n ≤ 0x10000 then
    if r = .eccError then (.trap trEcc a, s) else (.got (.data a, winBytes e t (.data a) n s) 0, s)
  else if inBanks a n then
    match outerCheck e t write a n s with
    | (some c, s) => (.trap c a, s)
    | (none, s) =>
      match endTrap e a r s with
      | (some c, s) => (.trap c a, s)
      | (none, s) => (.got (.bank a, winBytes e t (.bank a) n s) 0, s)
  else (.trap trWindow a, s)

/-- A NaN whose pattern the manual does not state (assumption 20). -/
def freeNan (s : State) : Nat := 0x7F800001 + freeVal s % (2 ^ 23 - 1) + (if freeVal s / 2 ^ 23 % 2 = 1 then 2 ^ 31 else 0)

/-- SIGRD with its definition: the value and the status (R198, R304). -/
def sigRead (e : Fin 24) (t : Fin 4) (a : Nat) (r : BusEnd) (d : Option (List Byte)) (s : State) : Tab (Nat × Nat) × State :=
  match d.map sigDef with
  | none => (.got (0, 1) 0, s)
  | some g =>
    match defStatus g s, g.raw with
    | 0, some ty =>
      match payload e t a (sigReach g) false r s with
      | (.got (_, b) _, s) =>
        match sigConvert g ty (convEntry g.conv ty s) (sigExtract g b) with
        | (some v, st) => (.got (v.toNat, st) 0, s)
        | (none, st) => (.got (freeNan s, st) 0, useFree s)
      | (.wait n, s) => (.wait n, s)
      | (.trap c a, s) => (.trap c a, s)
    | 0, none => (.got (0, 1) 0, s)
    | st, _ => (.got (0, st) 0, s)

/-- SIGWR with its definition: the status (R199, R305). -/
def sigWrite (e : Fin 24) (t : Fin 4) (id a : Nat) (value : Word) (r : BusEnd) (d : Option (List Byte)) (s : State) : Tab Nat × State :=
  let upd := bump R.SIG_UPDATES
  match d.map sigDef with
  | none => (.got 1 0, upd s)
  | some g =>
    match defStatus g s, g.raw with
    | 0, some ty =>
      let c := convEntry g.conv ty s
      if factorZero c then (.got 1 0, upd s)
      else match payload e t a (sigReach g) true r s with
        | (.got (w, b) _, s) =>
          let (raw, st) := sigUnconvert g ty c value
          let (raw, s) := match raw with
            | some v => (v, s)
            | none => (freeNan s, useFree s)
          let s := putWinBytes e t w (sigDeposit g raw b) s
          (.got st 0, upd (logSignal (initCode (.thread e t)) id (st == 3) value g.logc s))
        | (.wait n, s) => (.wait n, s)
        | (.trap c a, s) => (.trap c a, s)
    | 0, none => (.got 1 0, upd s)
    | st, _ => (.got st 0, upd s)

/-! ### Lookups of threads -/

/-- LKPW (R197): the write goes through to memory when it is allowed. -/
def tabWrite (e : Fin 24) (t : Fin 4) (id : Nat) (d : List Byte) (counted : Nat) (s : State) : Tab Status × State :=
  if !islOpen islMEM s then (.trap trBus 0, s)
  else if !ftst F.SIG_CTRL_EN s || decide (catLimit s ≤ id) then (.got .failedRefused 0, s)
  else if !ftst F.SIG_STATUS_READY s then (.wait counted, s)
  else
    match outerCheck e t true (lineAddr false 0 s + 16 * id) 16 s with
    | (some c, s) => (.trap c 0, s)
    | (none, s) => (.got .done 0, defWrite id d (bump R.SIG_LOOKUPS s))

/-- What a lookup does when it ends. `r` is the answer of a signal's payload. -/
def lookStep (e : Fin 24) (t : Fin 4) (r : BusEnd) (counted : Nat) (op : LookOp) (s : State) : Tab Unit × State :=
  match op with
  | .lkp nd id =>
    match tabDef e t id counted s with
    | (.got d _, s) => (.got () 0, setRun e t nd ((List.range 4).map fun i => leNat (((d.getD []).drop (4 * i)).take 4)) s)
    | (.wait n, s) => (.wait n, s)
    | (.trap c a, s) => (.trap c a, s)
  | .lkpw nd id d =>
    match tabWrite e t id d counted s with
    | (.got st _, s) => (.got () 0, setN e t nd (BitVec.ofNat 32 st.code) s)
    | (.wait n, s) => (.wait n, s)
    | (.trap c a, s) => (.trap c a, s)
  | .lkps nd key k =>
    match tabSource e t key k counted s with
    | (.got (id, n) _, s) => (.got () 0, setRun e t nd [id, n] s)
    | (.wait n, s) => (.wait n, s)
    | (.trap c a, s) => (.trap c a, s)
  | .sigrd nd id addr =>
    match tabDef e t id counted s with
    | (.got d _, s) =>
      match sigRead e t addr r d s with
      | (.got (v, st) _, s) => (.got () 0, setRun e t nd [v, st] s)
      | (.wait n, s) => (.wait n, s)
      | (.trap c a, s) => (.trap c a, s)
    | (.wait n, s) => (.wait n, s)
    | (.trap c a, s) => (.trap c a, s)
  | .sigwr nd id addr value =>
    match tabDef e t id counted s with
    | (.got d _, s) =>
      match sigWrite e t id addr value r d s with
      | (.got st _, s) => (.got () 0, setN e t nd (BitVec.ofNat 32 st) s)
      | (.wait n, s) => (.wait n, s)
      | (.trap c a, s) => (.trap c a, s)
    | (.wait n, s) => (.wait n, s)
    | (.trap c a, s) => (.trap c a, s)

/-- An instruction of the table unit issues. -/
def lookIssue (e : Fin 24) (t : Fin 4) (i : NyInsn) (r : BusEnd) (op : State → LookOp) (s : State) : State :=
  issue e t i (fun word s =>
    let o := op s
    match lookStep e t r 0 o s with
    | (.got _ _, s) => retireWait e t s
    | (.wait n, s) => waitOn e t (.lookup o n (thrPc e t s) word) s
    | (.trap c a, s) => trap e t word c a s) s

/-- LKP (R197, R299). -/
def execLkp (e : Fin 24) (t : Fin 4) (nd na : Fin 32) (s : State) : Host.Outcome State Fault Refusal :=
  .next (lookIssue e t (.table 0 nd na 0) .ok (fun s => .lkp nd (getN e t na s).toNat) s)

/-- LKPW (R197, R311). -/
def execLkpw (e : Fin 24) (t : Fin 4) (nd na : Fin 32) (s : State) : Host.Outcome State Fault Refusal :=
  .next (lookIssue e t (.table 1 nd na 0) .ok (fun s => .lkpw nd (getN e t na s).toNat ((getRun e t nd 4 s).flatMap (leBytes 4))) s)

/-- LKPS (R307, R308). -/
def execLkps (e : Fin 24) (t : Fin 4) (nd na nb : Fin 32) (s : State) : Host.Outcome State Fault Refusal :=
  .next (lookIssue e t (.table 2 nd na nb) .ok (fun s => .lkps nd (getN e t na s).toNat (getN e t nb s).toNat) s)

/-- SIGRD (R198). -/
def execSigrd (e : Fin 24) (t : Fin 4) (nd na nb : Fin 32) (r : BusEnd) (s : State) : Host.Outcome State Fault Refusal :=
  .next (lookIssue e t (.signal 0 nd na nb) r (fun s => .sigrd nd (getN e t na s).toNat (getN e t nb s).toNat) s)

/-- SIGWR (R199). -/
def execSigwr (e : Fin 24) (t : Fin 4) (nd na nb : Fin 32) (r : BusEnd) (s : State) : Host.Outcome State Fault Refusal :=
  .next (lookIssue e t (.signal 1 nd na nb) r (fun s => .sigwr nd (getN e t na s).toNat (getN e t nb s).toNat (getN e t nd s)) s)

/-! ### The end of a wait (R143) -/

/-- The awaited condition is met: the thread is READY again, or THROTTLED as before. -/
def wakeThr (e : Fin 24) (t : Fin 4) (s : State) : State :=
  let s := updThr e t (fun x => { x with wait := none, slack := 0 }) s
  if thrState e t s = thWait then putThr e t thReady s else s

/-- What a thread waits for comes, when it has come; `r` is the answer of the memory that a load, an atomic or a signal waits for, `c` what
comes of an access by the bank's other port. -/
def waitEnd (e : Fin 24) (t : Fin 4) (r : BusEnd) (c : Clash) (w : EngWait) (s : State) : State :=
  match w with
  | .result => wakeThr e t s
  | .event nd m => if thrEvents e t s &&& m.toNat = 0 then s else wakeThr e t (reportEvents e t nd m s)
  | .crypto nd g =>
    match jobDone e t g s with
    | some st => wakeThr e t (jobCollect e t nd g st s)
    | none => s
  | .fence => wakeThr e t (postedDone e t 8 s)
  | .load nd size a pc word =>
    match windowOf e t a size false s with
    | some (.bank p) | some (.dram p) =>
      if !islOpen islMEM s then trapAt e t trBus a pc word s
      else match endTrap e p r s with
        | (some c, s) => trapAt e t c a pc word s
        | (none, s) => wakeThr e t (outerData e t nd size p c s)
    | _ => s
  | .atomic nd add a v pc word =>
    if !islOpen islMEM s then trapAt e t trBus a pc word s
    else match endTrap e a r s with
      | (some c, s) => trapAt e t c a pc word s
      | (none, s) => wakeThr e t (bankRmw e t nd add a v s)
  | .store size a data pc word =>
    match windowOf e t a size true s with
    | some win =>
      match storeEffect e t win a (leBytes size data) word c (postedDone e t 1 s) with
      | (none, s) => wakeThr e t s
      | (some c, s) => storeTrap e t c a pc word s
    | none => s
  | .lookup op n pc word =>
    match lookStep e t r n op s with
    | (.got _ _, s) => wakeThr e t s
    | (.wait n, s) => updThr e t (fun x => { x with wait := some (.lookup op n pc word) }) s
    | (.trap c a, s) => trapAt e t c a pc word s

/-- WAIT_COMPLETE (R142, R143). -/
def execWaitComplete (e : Fin 24) (t : Fin 4) (r : BusEnd) (c : Clash) (s : State) : Host.Outcome State Fault Refusal :=
  .next (
    let s := icSettle s
    match (thr e t s).wait with
    | some w => waitEnd e t r c w s
    | none => s)

end Sys2Proof.Machine
end

