-- ==== Sys2Proof/Machine/NyStop.lean ====
section
/-!
DEFINITION. The commands of a thread (chapter 04): START, STOP and DOORBELL, and the threads that Bellows stops.
-/
namespace Sys2Proof.Machine

/-- The engine that source 444 is routed to (R564). -/
def sealEngine (s : State) : Option Nat :=
  let t := fget (F.IC_SRC_CFG_i_TARGET 444) s
  if 13 ≤ t ∧ t < 37 then some (t - 13) else none

/-- Whether Bellows keeps a thread stopped at the stage in force (R564). -/
def blwStops (e : Fin 24) (t : Fin 4) (s : State) : Bool :=
  decide (4 ≤ fget F.BLW_STATUS_STAGE s) && thrClass e t s != 0 && !(s.blw.logStop.isSome && sealEngine s == some e.1)

/-- The reads that a thread has outstanding return: a load, a lookup, an atomic with its effect in the bank (R142). -/
def readsReturn (e : Fin 24) (t : Fin 4) (s : State) : State :=
  match (thr e t s).wait with
  | some (.load nd size addr _ _) =>
    match windowOf e t addr size false s with
    | some w => setRun e t nd (winWords w size (winBytes e t w size s)) s
    | none => s
  | some (.atomic nd add a v _ _) => bankRmw e t nd add a v s
  | some (.lookup op n _ _) => (lookStep e t .ok n op s).2
  | _ => s

/-- A thread that runs or waits is halted: its outstanding reads return first, then its items and jobs end ABORTED_CANCEL. -/
def thrStop (e : Fin 24) (t : Fin 4) (s : State) : State :=
  let st := thrState e t s
  if st ≠ thReady ∧ st ≠ thWait ∧ st ≠ thThrottled then s
  else
    let s := cryDrop (isThread e t) .abortedCancel (endAllHeld e t .abortedCancel false (readsReturn e t s))
    putThr e t thHalted (updThr e t (fun x => { x with wait := none, passed := [] }) s)

/-- A thread that Bellows stops is remembered, to be started again (R564, R565). -/
def blwStopThr (e : Fin 24) (t : Fin 4) (s : State) : State :=
  let st := thrState e t s
  if st = thReady ∨ st = thWait ∨ st = thThrottled then
    let s := thrStop e t s
    { s with blw := { s.blw with stopped := s.blw.stopped.filter (fun k => k != thrIdx e t) ++ [thrIdx e t] } }
  else s

/-- START (R142): from its entry, with cleared registers; refused for a budget of 0 or an entry outside THR_CODE. -/
def thrStart (e : Fin 24) (t : Fin 4) (s : State) : State :=
  let st := thrState e t s
  if st ≠ thIdle ∧ st ≠ thHalted ∧ st ≠ thTrapped then s
  else
    let entry := fget (F.ENG_THR_ENTRY_t_PC e.1 t.1) s
    if fget (F.ENG_THR_BUDGET_t_CYCLES e.1 t.1) s = 0 ∨ pcInCode e t entry s = false then raise (F.ENG_EVENT_REFUSED e.1) t.1 s
    else
      let s := updThr e t (fun x =>
        { x with
          n := Vector.replicate 32 0
          holds := []
          selected := none
          alarm := none
          evAlarm := false
          wait := none
          passed := []
          slack := 0 }) s
      let s := putThr e t thReady (putPc e t entry (fput (F.ENG_TRAP_0_t_VALID e.1 t.1) 0 s))
      if blwStops e t s then blwStopThr e t s else s

/-- DOORBELL latches EV bit 28 (R159). -/
def doorbell (e : Fin 24) (t : Fin 4) (s : State) : State := updThr e t (fun x => { x with evBell := true }) s

/-- A write of THR_CMD (R173): STOP before START. A thread of Hearth takes it from Hearth alone. -/
def thrCmd (w : Initiator) (e : Fin 24) (t : Fin 4) (v : Nat) (s : State) : State :=
  if ftst (F.ENG_THR_CFG_t_WORLD e.1 t.1) s && !initWorld w s then bad s
  else s |> whenB (v / 2 % 2 == 1) (thrStop e t) |> whenB (v % 2 == 1) (thrStart e t) |> whenB (v / 4 % 2 == 1) (doorbell e t)

/-- THR_START (R142). -/
def execThrStart (w : Initiator) (e : Fin 24) (t : Fin 4) (s : State) : Host.Outcome State Fault Refusal :=
  .next (regCmd w (R.ENG_THR_CMD_t e.1 t.1) (thrCmd w e t 1) s)

/-- THR_STOP (R142). -/
def execThrStop (w : Initiator) (e : Fin 24) (t : Fin 4) (s : State) : Host.Outcome State Fault Refusal :=
  .next (regCmd w (R.ENG_THR_CMD_t e.1 t.1) (thrCmd w e t 2) s)

/-- DOORBELL (R159). -/
def execDoorbell (w : Initiator) (e : Fin 24) (t : Fin 4) (s : State) : Host.Outcome State Fault Refusal :=
  .next (regCmd w (R.ENG_THR_CMD_t e.1 t.1) (thrCmd w e t 4) s)

end Sys2Proof.Machine
end

