-- ==== Sys2Proof/Machine/TimeCmd.lean ====
section
/-!
DEFINITION. The meanings of the vehicle-time commands (chapter 02): reads of NOW, the comparator, servo samples, steps and SETs, roles,
holdover, temperature, the twin-path watch and PPS_IN.
-/
namespace Sys2Proof.Machine

/-- What a read of NOW_NS does (R40): it latches seconds and fraction into the reader's shadow; the debug port has none. -/
def nowRead (w : Initiator) (s : State) : State :=
  let (sec, ns, frac) := vtParts (vt16 s)
  let s := if w = .debug then s
    else updTime (fun t => { t with shadows := sput (fun _ => (0, 0)) (initIdx w) (sec, frac) t.shadows }) s
  answer .done ns s

/-- NOW_NS_READ: master VT; seconds and fraction go to the reader's shadow (R40). The debug port has no shadow. -/
def execNowNsRead (w : Initiator) (s : State) : Host.Outcome State Fault Refusal := .next (regRead w R.TIME_NOW_NS (nowRead w) s)

/-- SPLIT_COMPARE: `driftA` and `driftB` ps are what each island's count has departed from its clock since the last compare. -/
def execSplitCompare (driftA driftB : Int) (s : State) : Host.Outcome State Fault Refusal :=
  .next (withMasterMove (compareIslands driftA driftB) s)

/-- The effect of CTRL.RESYNC (R44, R88): it ends a hold; the run of splits goes on (assumption 12). -/
def resync (s : State) : State :=
  if ftst F.TIME_STATUS_TA_OK s && ftst F.TIME_STATUS_TB_OK s then s
  else updTime (fun t => { t with resyncReq := true, splitHold := false }) s

/-- RESYNC. -/
def execResync (w : Initiator) (s : State) : Host.Outcome State Fault Refusal := .next (regCmd w R.TIME_CTRL resync s)

/-- SERVO_SAMPLE: the servo takes the oldest record of its queue (R58, R63). -/
def execServoSample (s : State) : Host.Outcome State Fault Refusal :=
  .next (
    match s.time.queue with
    | [] => s
    | p :: rest => takeSample p (updTime (fun t => { t with queue := rest }) s))

/-- HOLDOVER_TIMEOUT: HOLD_CFG.TIMEOUT has passed since the last fed sample (R63). -/
def execHoldoverTimeout (s : State) : Host.Outcome State Fault Refusal :=
  .next (
    if timeState s = stLocking ∨ timeState s = stLocked then enterHoldover (elapseTo (s.time.lastFed + holdTimeout s) s) else s)

/-- HOLD_LIMIT: holdover has lasted HOLD_CFG.LIMIT (R80). -/
def execHoldLimit (s : State) : Host.Outcome State Fault Refusal :=
  .next (
    match s.time.holdSince with
    | some h =>
      if s.time.holdDone then s
      else
        let s := elapseTo (h + clampNat 1 3600 (fget F.TIME_HOLD_CFG_LIMIT s) * secNs) s
        s |> updTime (fun t => { t with beyond := true, holdDone := true }) |> showQuality |> raise F.TIME_EVENT 4 |> logTime 4 (((s.now - h) / 1000000 : Nat) : Int)
    | none => s)

/-- The effect of a write of STEP_ACCEPT.ACCEPT (R65): it accepts STEP_PEND in REFUSING with no step pending. -/
def stepAccept (s : State) : State :=
  if timeState s = stRefusing ∧ s.time.stepAt.isNone = true then
    acceptStep (signedOf 64 ((rd R.TIME_STEP_PEND_LO s).toNat + (rd R.TIME_STEP_PEND_HI s).toNat * 2 ^ 32)) s
  else s

/-- STEP_ACCEPT. -/
def execStepAccept (w : Initiator) (s : State) : Host.Outcome State Fault Refusal := .next (regCmd w R.TIME_STEP_ACCEPT stepAccept s)

/-- The effect of a write of CTRL.ROLE (R49, R63, R88): 3 is ignored. -/
def roleWrite (role : Nat) (s : State) : State :=
  if role = 3 ∨ role = fget F.TIME_CTRL_ROLE s then s
  else
    let s := fput F.TIME_CTRL_ROLE role s
    let s := updTime (fun t => { t with ppsLast := none, ppsSince := t.mraw, ppsLost := false }) s
    if role = 2 then
      if timeState s = stFree then s
      else
        s |> dropStep |> putStepPend 0 |> updTime (fun t => { t with persistFirst := none, persistCnt := 0, fromUnsync := false })
          |> enterState stFree
    else if timeState s = stFree then enterHoldover (updTime (fun t => { t with srcChanged := true }) s)
    else s

/-- ROLE_WRITE. -/
def execRoleWrite (w : Initiator) (role : Fin 4) (s : State) : Host.Outcome State Fault Refusal :=
  .next (regCmd w R.TIME_CTRL (roleWrite role.1) s)

/-- The effect of a write of CTRL.TWIN_EN (R637). -/
def twinEnWrite (en : Bool) (s : State) : State :=
  if ftst F.TIME_CTRL_TWIN_EN s = en then s else twinReset (fput F.TIME_CTRL_TWIN_EN en.toNat s)

/-- TWIN_EN_CHANGE. -/
def execTwinEnChange (w : Initiator) (en : Bool) (s : State) : Host.Outcome State Fault Refusal :=
  .next (regCmd w R.TIME_CTRL (twinEnWrite en) s)

/-- The effect of SET_CMD.GO (R69, R92). -/
def setGo (s : State) : State :=
  let ns := fget F.TIME_SET_NS_NS s
  if (timeState s = stUnsync ∨ timeState s = stFree) ∧ ns ≤ 999999999 then
    let sec := fget F.TIME_SET_SEC_LO_SEC s + fget F.TIME_SET_SEC_HI_SEC s * 2 ^ 32
    updTime (fun t => { t with setPend := some (sec * secNs + ns) }) s
  else bad (raise F.TIME_EVENT 8 s)

/-- SET_GO. -/
def execSetGo (w : Initiator) (s : State) : Host.Outcome State Fault Refusal := .next (regCmd w R.TIME_SET_CMD setGo s)

/-- HOLDOVER_FREQ_RECOMPUTE (R78): every 1 ms outside LOCKING and LOCKED. -/
def execHoldoverFreqRecompute (s : State) : Host.Outcome State Fault Refusal :=
  .next (if freeRunning (timeState s) then setFreq (roundNearest (holdoverFreq s)) s else s)

/-- TEMP_SENSOR_READ: the two islands' sensors, in °C (R76). -/
def execTempSensorRead (degA degB : Int) (s : State) : Host.Outcome State Fault Refusal :=
  .next (
    let s := updTime (fun t => { t with tempA := degA, tempB := degB }) s
    s |> fputI F.TIME_TEMP_DEG (presentTemp s) |> fput F.TIME_TEMP_BIN (tempBin (presentTemp s)))

/-- TWIN_ABSENT: a direction has supplied no sample for HOLD_CFG.TIMEOUT (R75). -/
def execTwinAbsent (dir : Bool) (s : State) : Host.Outcome State Fault Refusal :=
  .next (
    if ftst F.TIME_CTRL_TWIN_EN s && twinState dir s != twAbsent then
      let since := match (twin dir s).lastSample with | some t => t | none => s.now
      makeAbsent dir (elapseTo (since + holdTimeout s) s)
    else s)

/-- The effect of TWIN_CMD.RESUME (R73). -/
def twinResume (dir : Bool) (s : State) : State :=
  let clear (t : TwinDir) : TwinDir := { t with inPair := false }
  let s := updTime (fun t => { t with joint := false, twin0 := clear t.twin0, twin1 := clear t.twin1 }) s
  s |> relearn dir |> putAgree 0 |> raise F.TIME_EVENT 11 |> chooseSteer

/-- TWIN_RESUME. -/
def execTwinResume (w : Initiator) (dir : Bool) (s : State) : Host.Outcome State Fault Refusal :=
  .next (regCmd w R.TIME_TWIN_CMD (twinResume dir) s)

/-- 1.1 s on the raw count (R82). -/
def ppsLimit : Nat := 1100000000

/-- Whether a PPS edge is accepted (R82). -/
def ppsAccepted (raw : Nat) (s : State) : Bool :=
  match s.time.ppsLast with
  | none => true
  | some l => decide (l + ppsLimit < raw) || (decide (l + secNs ≤ raw + 100000) && decide (raw ≤ l + secNs + 100000))

/-- The sample an accepted PPS edge forms (R81). -/
def ppsSample (sub : Nat) (s : State) : State :=
  let st := vt16 s / 0x2000 * 0x2000 + sub * 0x2000
  let corrected : Rat := (st : Rat) / 65536 - (fgetI F.TIME_PPS_DELAY_PS s : Rat) / 1000
  let sec := fget F.TIME_PPS_SEC_LO_SEC s + fget F.TIME_PPS_SEC_HI_SEC s * 2 ^ 32
  let valid := ftst F.TIME_PPS_SEC_HI_VALID s
  let t : Rat := if valid then ((sec * secNs : Nat) : Rat) else ((roundNearest (corrected / secNs) * secNs : Int) : Rat)
  let s := if valid then s |> fput F.TIME_PPS_SEC_LO_SEC (sec + 1) |> fput F.TIME_PPS_SEC_HI_SEC ((sec + 1) / 2 ^ 32) else s
  if s.time.stepAt.isSome then bump R.TIME_DISCARD_CNT s else judge (corrected - t) .pps st s

/-- PPS_EDGE: an edge on PPS_IN, `sub` 125-ps units after the present cycle (R81, R82). -/
def execPpsEdge (rise : Bool) (sub : Fin 8) (s : State) : Host.Outcome State Fault Refusal :=
  .next (
    if fget F.TIME_CTRL_ROLE s = 1 ∧ ftst F.TIME_PPS_CFG_EDGE s = !rise then
      let raw := s.time.mraw
      if ppsAccepted raw s then ppsSample sub.1 (updTime (fun t => { t with ppsLast := some raw, ppsSince := raw, ppsLost := false }) s)
      else bump R.TIME_PPS_SPUR_CNT s
    else s)

/-- PPS_LOST: 1.1 s on the raw count without an accepted edge, or since the role became GM_PPS when none has come; the state is HOLDOVER at once (R82, R100). -/
def execPpsLost (s : State) : Host.Outcome State Fault Refusal :=
  .next (
    if s.time.ppsLost || fget F.TIME_CTRL_ROLE s != 1 then s
    else
      let s := advance (s.time.ppsSince + ppsLimit - s.time.mraw) s
      let s := s |> updTime (fun t => { t with ppsLost := true }) |> raise F.TIME_EVENT 6 |> fput F.TIME_PPS_SEC_HI_VALID 0
      if timeState s = stHoldover then s else enterHoldover (dropStep s))

/-- The four TIME counters (R102). -/
def timeCounters : List Nat := [R.TIME_SPLIT_CNT, R.TIME_REFUSED_CNT, R.TIME_DISCARD_CNT, R.TIME_PPS_SPUR_CNT]

/-- TIME_CNT_CLR. -/
def execTimeCntClr (w : Initiator) (s : State) : Host.Outcome State Fault Refusal :=
  .next (regCmd w R.TIME_CNT_CLR (clearRegs timeCounters) s)

end Sys2Proof.Machine
end

