-- ==== Sys2Proof/Machine/Islands.lean ====
section
/-!
DEFINITION. The islands (R16-R35, R575-R579): what each does when it stops, is reset, is lost and runs again, their requests, and the loss and return of a supply domain.
-/
namespace Sys2Proof.Machine

/-- The domain that feeds an island alone (R28). -/
def islDomain (i : Fin 21) : Option Domain :=
  if (domainIslands .a).contains i then some .a else if (domainIslands .b).contains i then some .b else none

/-- The harts of a cluster. -/
def clusterHarts (i : Fin 21) : List (Fin 8) := (List.finRange 8).filter fun h => h.1 / 4 + 4 == i.1

/-- The island of a hart. -/
def hartIsl (h : Fin 8) : Fin 21 := if h.1 < 4 then islCLA else islCLB

/-- The engines of a group. -/
def groupEngines (i : Fin 21) : List (Fin 24) := (List.finRange 24).filter fun e => engIsl e == i

/-- The cameras of an island. -/
def islCams (i : Fin 21) : List (Fin 4) := (List.finRange 4).filter fun n => camIsl n == i

/-! ### What an island holds ends (R23, R153, R583) -/

/-- Frames, packet items and instance items of the switch port shell end. -/
def shellDown (st : Status) (s : State) : State :=
  let s := s.sw.launches.foldl (fun s l =>
    let (n, s) := nextCount l.e s
    submitEnd (.engine l.e l.t n) st (l.pkt.bytes.length + 4) 0 s) s
  let s := s.sw.frames.foldl (fun s f => submitEnd f.sub st (f.bytes.length + 4) 0 s) s
  let s := endHolds (fun h => decide (0x200 ≤ h.qid) && decide (h.qid ≤ 0x208)) st s
  let s := migAbort st s
  let done := s.vqi.done
  let s := done.foldl (fun s d => vqiComplete d s) (updVqi (fun v => { v with done := [] }) s)
  let s := s.vqi.items.foldl (fun s x => vqiComplete ⟨x.id, x.inst, x.gen, st, 0, 0, none⟩ s) s
  let s := endHolds (fun h => decide (0x400 ≤ h.qid) && decide (h.qid < 0x600)) st s
  showPool (updSw (fun w =>
    { w with
      frames := []
      allocs := []
      tx := Vector.replicate 18 none
      preempted := Vector.replicate 18 none
      eQueue := Vector.replicate 8 []
      launches := []
      lines := [] }) s)

/-- A TCM copy into a target that leaves service ends with it (R23, R30). -/
def copyLost (pick : Nat → Bool) (s : State) : State := whenB (s.cwy.copy.any fun c => pick c.target) (copyEnd .abortedIslandOff) s

/-- The requests of a LIN channel end with their count (R293). -/
def linDown (l : Fin 6) (s : State) : State :=
  let x := linSt l s
  let n := (x.reqs.filter fun r => !r.internal).length + (match x.cur with | some r => (if r.internal then 0 else 1) | none => 0)
  linRest l (updLin l (fun x => { x with reqs := [], release := none }) (bumpBy n (R.LIN_ABORT_CNT l.1) s))

/-- An island leaves service: STOPPED, RESET or OFF. Items homed in it and the work of its initiators end with `st`. -/
def islandDown (i : Fin 21) (st : Status) (s : State) : State :=
  match i.1 with
  | 2 => forFin 6 linDown (forFin 12 (fun c s => canAbort c st s) s)
  | 1 => forFin 24 (fun e s => forFin 4 (fun t s => memLost e t s) s) (copyLost (fun _ => true) s)
  | 3 => copyLost (fun t => t == 4) (cryDrop (fun _ => true) st s)
  | 4 | 5 => (clusterHarts i).foldl (fun s h => setResv h none (icTargetLost ⟨h.1, by omega⟩ s)) s
  | 6 | 7 | 8 | 9 => copyLost (fun t => t + 6 == i.1) (icTargetLost (Fin.ofNat 13 (i.1 + 2)) s)
  | 10 | 11 | 12 | 13 => (groupEngines i).foldl (fun s e => icEngineLost e (threadsLost e st s)) s
  | 14 => planeLost false st s
  | 15 => planeLost true st s
  | 16 | 17 => (islCams i).foldl (fun s n => camClose n st s) s
  | 20 => shellDown st s
  | _ => s

/-! ### Reset (R575) -/

/-- The planes that do not run are shown lost (R249). -/
def showPlanes (s : State) : State :=
  s |> whenB (!islOpen islSW0 s) (fput F.SW_STATUS_PLANE0_OK 0) |> whenB (!islOpen islSW1 s) (fput F.SW_STATUS_PLANE1_OK 0)

/-- The count, FREQ and integrator of a time island that is reset are open until it is copied (R635): free values, FREQ within its clamp. -/
def timeWipe (b : Bool) (s : State) : State :=
  let v := freeVal s
  let f : Int := (freeVal (useFree s) % 858995 : Nat) - 429497
  updTimeIsl b (fun t => { t with vt := v, freq := f, integ := f }) (useFree (useFree s))

/-- An island's logic and registers are reset and its SRAMs zeroed; a hart that failed its self-test stays held (R587). -/
def islandWipe (i : Fin 21) (s : State) : State :=
  match i.1 with
  | 4 | 5 => (clusterHarts i).foldl (fun s h => updHart h (fun x => { Hart.init with bistHeld := x.bistHeld, bistFailed := x.bistFailed }) s) s
  | 6 | 7 | 8 | 9 =>
    let p : Fin 4 := Fin.ofNat 4 (i.1 - 6)
    { dropMem (tcmBase p.1) (tcmBase (p.1 + 1)) s with pair := s.pair.set p.1 PairRegs.init p.2 }
  | 10 | 11 | 12 | 13 =>
    (groupEngines i).foldl (fun s e =>
      let a := 0x02000000 + 0x80000 * e.1
      let s := forFin 4 (fun t s => updThr e t (fun _ => EngThr.init) s) s
      dropRegs a (a + 0x80000) (dropMem a (a + 0x80000) s)) s
  | 16 | 17 => (islCams i).foldl (fun s n => updCam n (fun _ => CamSt.init) (dropRegs (0x04030000 + 0x4000 * n.1) (0x04034000 + 0x4000 * n.1) s)) s
  | 18 => timeWipe false s
  | 19 => timeWipe true s
  | 20 =>
    let s := dropRegs 0x04500000 0x04600000 (dropRegs 0x04100000 0x04200000 s)
    showPool (showPlanes { s with sw := SwSt.init, vqi := VqiSt.init })
  | _ => s

/-- An island is taken into state RESET (R573, R591). -/
def enterReset (i : Fin 21) (st : Status) (s : State) : State :=
  let s := islandWipe i (islandDown i st s)
  let s := updIsl i (fun x => { x with st := .reset, resetRec := true, held := false, div := 0 }) s
  s |> raise F.SYSCTL_EVENT 0 |> bump R.SYSCTL_ISL_RST_CNT |> fput F.SYSCTL_RESET_CAUSE_ISLAND 1 |> fput F.SYSCTL_RESET_CAUSE_LAST_ISLAND i.1

/-! ### Bellows' hold on islands and harts (R564, R565) -/

/-- Whether the stage in force keeps an island stopped (R564). -/
def blwStopsIsl (i : Fin 21) (s : State) : Bool :=
  let st := fget F.BLW_STATUS_STAGE s
  (decide (3 ≤ st) && (i == islCAM0 || i == islCAM1)) || (decide (4 ≤ st) && (i == islSW0 || i == islSW1 || i == islSWP))

/-- Whether a stage keeps a hart parked (R564). -/
def parksHart (stage : Nat) (h : Fin 8) : Bool :=
  (decide (2 ≤ stage) && decide (4 ≤ h.1)) || (decide (3 ≤ stage) && decide (1 ≤ h.1) && decide (h.1 < 4)) || (decide (4 ≤ stage) && h == 0)

/-- The islands that the thermal limit clocks down (R570). -/
def thermalIsls : List (Fin 21) := [islCLA, islCLB, islG 0, islG 1, islG 2, islG 3]

/-! ### Drains and starts (R21, R22) -/

/-- Where the drain timer of an island that drains now expires. -/
def drainEnd (s : State) : Nat := s.now + clampNat 1 1000 (fget F.SYSCTL_DRAIN_US s) * 1000

/-- An island starts to drain for a stop: cameras close their frames first (R135). -/
def stopIsland (i : Fin 21) (s : State) : State :=
  let s := (islCams i).foldl (fun s n => camAbortFrames n s) s
  updIsl i (fun x => { x with st := .draining, resetRec := false, holdRec := false, held := false, drainDue := drainEnd s }) s

/-- Mastership leaves a time island that is reset, and the island is faulty (R635, R636). -/
def leaveMaster (b : Bool) (s : State) : State := freshFault <| markFaulty b (withMasterMove (fun s => if masterB s = b then setMaster (!b) s else s) s)

/-- An island starts to drain for a reset. -/
def resetIsland (i : Fin 21) (hold : Bool) (s : State) : State :=
  let s := if i = islTA then leaveMaster false s else if i = islTB then leaveMaster true s else s
  updIsl i (fun x => { x with st := .draining, resetRec := true, holdRec := hold, held := false, drainDue := drainEnd s }) s

/-- Whether an island has transactions open in either direction (R633): those of its engines' threads, those that threads and the TCM copy engine have open into the memory
island, a TCM copy, and the lines that a camera island still forwards (R135). -/
def openTrans (i : Fin 21) (s : State) : Bool :=
  let engines := if i = islMEM then List.finRange 24 else groupEngines i
  engines.any (fun e => (List.finRange 4).any fun t => thrOpen (thr e t s)) || (islCams i).any (fun n => !s.cam[n.1].staged.isEmpty) || s.cwy.copy.any fun c => i == islMEM || (i == islHC && c.target == 4)

/-- The end of a drain (R21). -/
def drainOver (i : Fin 21) (s : State) : State :=
  let x := s.isl[i.1]
  if x.st ≠ .draining then s
  else if x.resetRec then enterReset i .abortedReset s
  else updIsl i (fun x => { x with st := .stopped, div := 0 }) (islandDown i .abortedIslandOff s)

/-- An island's clock is started. -/
def startIsland (i : Fin 21) (s : State) : State := updIsl i (fun x => { x with st := .starting, resetRec := false, holdRec := false, held := false, blw := false }) s

/-- An island that has just been started takes the state that Bellows requires (R565, R570). -/
def blwTakes (i : Fin 21) (s : State) : State :=
  let s := (clusterHarts i).foldl (fun s h => if parksHart (fget F.BLW_STATUS_STAGE s) h then updHart h (fun x => { x with parked := true }) s else s) s
  let s := (groupEngines i).foldl (fun s e => forFin 4 (fun t s => if blwStops e t s then blwStopThr e t s else s) s) s
  if blwStopsIsl i s then updIsl i (fun x => { x with blw := true }) (stopIsland i s)
  else if s.blw.thermOn && thermalIsls.contains i then
    { updIsl i (fun x => { x with st := .slow, div := 0, blw := true }) s with blw := { s.blw with thermal := s.blw.thermal ++ [i] } }
  else s

/-- An island runs again. -/
def islandUp (i : Fin 21) (s : State) : State :=
  let s := updIsl i (fun x => { x with st := .run, div := 0 }) s
  blwTakes i (if i = islSW0 then planeBack false s else if i = islSW1 then planeBack true s else s)

/-! ### Requests (R21, R27, R31, R481, R565, R576, R636) -/

/-- Whether an island holds a block of Hearth, or is HC (R481). -/
def hearthIsland (i : Fin 21) (s : State) : Bool :=
  let world (k : Nat) : Bool := ftst (F.OWN_BLK_k_WORLD k) s
  if i = islHC then true
  else if i = islPEAT then world 26
  else if i = islCWY then (List.range 20).any world || world 25
  else if i = islCAM0 then world 20 || world 21
  else if i = islCAM1 then world 22 || world 23
  else false

/-- A request of the normal world for an island of Hearth's is logged (R481). -/
def worldGate (w : Initiator) (a : Nat) (s : State) : State :=
  bad (raise F.OWN_EVENT 3 (bump R.OWN_WORLD_GATE_CNT (violateBy w a true 2 s)))

/-- A command to an island. -/
inductive IslOp where
  | clockDown (div : Fin 4)
  | restore
  | stop
  | start
  | reset
  | resetHold
  | release
  deriving DecidableEq, Repr

/-- Whether a command would clock down, stop or reset its island. -/
def IslOp.takesDown : IslOp → Bool
  | .clockDown _ | .stop | .reset | .resetHold => true
  | _ => false

/-- Whether a request is refused with an error response. -/
def islRefused (i : Fin 21) (op : IslOp) (s : State) : Bool :=
  let x := s.isl[i.1]
  let off := x.st == .off
  let railed := match islDomain i with
    | some d => railOk d s
    | none => true
  match op with
  | .stop => i == islPEAT || [islMEM, islCWY, islHC, islTA, islTB].contains i || off
  | .reset | .resetHold =>
    let other := i == islTB
    i.1 < 4 || off || x.blw
      || ((i == islTA || i == islTB) && !(ftst (okFld (!other)) s && islOpen (timeIslId (!other)) s))
  | .start => i == islPEAT || (off && !railed) || x.blw
  | .release => i == islPEAT || off || x.blw
  | .restore => i == islPEAT || off || x.blw
  | .clockDown _ => i == islPEAT || off

/-- What a request does in the state its island is in; one without a row is ignored (R21). The island reset that a START of an OFF island runs is not counted or shown as a
reset (R31, assumption 27). -/
def islDo (i : Fin 21) (op : IslOp) (s : State) : State :=
  let x := s.isl[i.1]
  match op, x.st with
  | .clockDown d, .run => updIsl i (fun x => { x with st := .slow, div := d.1 }) s
  | .restore, .slow => updIsl i (fun x => { x with st := .run, div := 0 }) s
  | .stop, .run | .stop, .slow => if fbit F.OWN_KEEPALIVE i.1 s then updIsl i (fun x => { x with held := true }) s else stopIsland i s
  | .start, .draining => if x.resetRec then s else islandUp i s
  | .start, .stopped => startIsland i s
  | .start, .off => startIsland i (islandWipe i s)
  | .reset, .run | .reset, .slow => resetIsland i false s
  | .reset, .stopped => updIsl i (fun x => { x with holdRec := false }) (enterReset i .abortedReset s)
  | .resetHold, .run | .resetHold, .slow => resetIsland i true s
  | .resetHold, .stopped => updIsl i (fun x => { x with holdRec := true }) (enterReset i .abortedReset s)
  | .release, .reset => if x.holdRec then startIsland i s else s
  | _, _ => s

/-- A write of ISL_CMD. -/
def islCmd (w : Initiator) (i : Fin 21) (op : IslOp) (s : State) : State :=
  if op.takesDown && !initWorld w s && hearthIsland i s then worldGate w (R.SYSCTL_ISL_CMD_i i.1) s
  else if islRefused i op s then bad s
  else islDo i op s

/-- CLOCK_DOWN. -/
def execClockDown (w : Initiator) (i : Fin 21) (div : Fin 4) (s : State) : Host.Outcome State Fault Refusal :=
  .next (regCmd w (R.SYSCTL_ISL_CMD_i i.1) (islCmd w i (.clockDown div)) s)

/-- RESTORE. -/
def execRestore (w : Initiator) (i : Fin 21) (s : State) : Host.Outcome State Fault Refusal := .next (regCmd w (R.SYSCTL_ISL_CMD_i i.1) (islCmd w i .restore) s)

/-- STOP. -/
def execStop (w : Initiator) (i : Fin 21) (s : State) : Host.Outcome State Fault Refusal := .next (regCmd w (R.SYSCTL_ISL_CMD_i i.1) (islCmd w i .stop) s)

/-- START. -/
def execStart (w : Initiator) (i : Fin 21) (s : State) : Host.Outcome State Fault Refusal := .next (regCmd w (R.SYSCTL_ISL_CMD_i i.1) (islCmd w i .start) s)

/-- RESET. -/
def execReset (w : Initiator) (i : Fin 21) (s : State) : Host.Outcome State Fault Refusal := .next (regCmd w (R.SYSCTL_ISL_CMD_i i.1) (islCmd w i .reset) s)

/-- RESET_HOLD. -/
def execResetHold (w : Initiator) (i : Fin 21) (s : State) : Host.Outcome State Fault Refusal := .next (regCmd w (R.SYSCTL_ISL_CMD_i i.1) (islCmd w i .resetHold) s)

/-- RELEASE. -/
def execRelease (w : Initiator) (i : Fin 21) (s : State) : Host.Outcome State Fault Refusal := .next (regCmd w (R.SYSCTL_ISL_CMD_i i.1) (islCmd w i .release) s)

/-- DRAIN_COMPLETE: every open transaction has completed (R633). -/
def execDrainComplete (i : Fin 21) (s : State) : Host.Outcome State Fault Refusal := .next (if openTrans i s then s else drainOver i s)

/-- DRAIN_TIMER_EXPIRE (R22). -/
def execDrainTimerExpire (i : Fin 21) (s : State) : Host.Outcome State Fault Refusal :=
  .next (if islSt i s = .draining then drainOver i (elapseTo s.isl[i.1].drainDue s) else s)

/-- RESET_COMPLETE (R634): after a reset request; a held reset waits for RELEASE. -/
def execResetComplete (i : Fin 21) (s : State) : Host.Outcome State Fault Refusal :=
  .next (if islSt i s = .reset ∧ s.isl[i.1].holdRec = false then startIsland i s else s)

/-- CLOCK_STABLE (R21). -/
def execClockStable (i : Fin 21) (s : State) : Host.Outcome State Fault Refusal := .next (if islSt i s = .starting then islandUp i s else s)

/-- RESPONSE_DISCARD (R26). -/
def execResponseDiscard (i : Fin 21) (s : State) : Host.Outcome State Fault Refusal :=
  .next (match islSt i s with
    | .stopped | .reset | .off => raise F.SYSCTL_EVENT 1 (bump R.SYSCTL_DISCARD_CNT s)
    | _ => s)

/-! ### Domains (R28-R31) -/

/-- The CAN controllers that a domain feeds. -/
def domainCans (d : Domain) : List (Fin 12) := (List.finRange 12).filter fun c => canDomain c == d

/-- Gives a domain's rail a state. -/
def setRail (d : Domain) (v : Bool) (s : State) : State :=
  match d with
  | .a => { s with railA := v }
  | .b => { s with railB := v }

/-- The bit of a domain in BLW.RAIL. -/
def railBit (d : Domain) : Nat := match d with | .a => 0 | .b => 1

/-- A time island that was faulty and not copied becomes master: the registers of TIME are those it last took (R87), FREQ is the one it last held (R93), and it is readmitted
at once (R46). -/
def readmitMaster (b : Bool) (s : State) : State :=
  let s := if (timeIsl b s).copied then s else takeHeld b s
  let s := fput (okFld b) 1 (updTimeIsl b (fun t => { t with copied := true, held := [] }) s)
  fputI F.TIME_FREQ_ADJ (timeIsl b s).freq s

/-- The time islands at the loss of a domain (R46, R635): the other one becomes master, and is readmitted at once, also when it is itself OFF (assumption 12). -/
def loseTime (b : Bool) (s : State) : State :=
  let s := freshFault (markFaulty b s)
  if masterB s = b then raise F.TIME_EVENT 10 (readmitMaster (!b) (withMasterMove (setMaster (!b)) s)) else s

/-- A controller loses its supply (R287). -/
def loseCan (c : Fin 12) (s : State) : State := segLose (canSeg c) (canRegsReset c (canAbort c .abortedIslandOff s))

/-- The loss of a domain (R30). The row does not say whether the rail or the clock failed, and either is shown in BLW.RAIL and raises DOMAIN_LOST (R570, assumption 27). -/
def domainLost (d : Domain) (s : State) : State :=
  if !railOk d s then s
  else
    let b := d == .b
    let s := setRail d false s
    let s := s |> lower F.BLW_RAIL (railBit d) |> raise F.BLW_EVENT (2 + railBit d)
    let s := loseTime b s
    let s := (domainIslands d).foldl (fun s i =>
      if islSt i s = .off then s
      else updIsl i (fun x => { x with st := .off, div := 0, resetRec := false, holdRec := false, held := false, blw := false }) (islandDown i .abortedIslandOff s)) s
    let s := (domainCans d).foldl (fun s c => loseCan c s) (forFin 4 queueLost s)
    whenB (ftst F.TIME_CTRL_TWIN_EN s && twinState b s != twAbsent) (makeAbsent b) s

/-- DOMAIN_LOST. -/
def execDomainLost (d : Domain) (s : State) : Host.Outcome State Fault Refusal := .next (domainLost d s)

/-- DOMAIN_RAIL_VALID (R31). -/
def execDomainRailValid (d : Domain) (s : State) : Host.Outcome State Fault Refusal := .next (raise F.BLW_RAIL (railBit d) (setRail d true s))

/-! ### Lockstep (R579) -/

/-- LOCKSTEP: the pair's island is placed in RESET, and held there. -/
def execLockstep (p : Fin 4) (s : State) : Host.Outcome State Fault Refusal :=
  .next (
    let i := islL p
    match islSt i s with
    | .off | .reset => s
    | _ =>
      let s := updIsl i (fun x => { x with holdRec := true }) (enterReset i .abortedIslandOff s)
      s |> raise F.SYSCTL_LS_STAT p.1 |> raise F.SYSCTL_EVENT 2)

/-! ### Keep-alive votes (R482) -/

/-- A write of OWN.KEEPALIVE. -/
def keepAlive (v : Word) (s : State) : State :=
  let old := rd R.OWN_KEEPALIVE s
  let s := wr R.OWN_KEEPALIVE (v &&& 0x1FFFFF) s
  forFin 21 (fun i s =>
    let x := s.isl[i.1]
    let was := old.getLsbD i.1
    let is := v.getLsbD i.1
    if is && !was then
      match x.st with
      | .draining => if x.resetRec || x.blw then s else islandUp i s
      | .stopped => if x.blw then s else startIsland i s
      | _ => s
    else if was && !is && x.held then (match x.st with
      | .run | .slow => stopIsland i s
      | _ => s)
    else s) s

/-- KEEPALIVE. -/
def execKeepalive (w : Initiator) (v : Word) (s : State) : Host.Outcome State Fault Refusal := .next (regCmd w R.OWN_KEEPALIVE (hearthOnly w (keepAlive v)) s)

end Sys2Proof.Machine
end

