-- ==== Sys2Proof/Machine/LoadCh.lean ====
section
/-!
DEFINITION. The load channels (chapter 10): command queues, the outcome of each command, protection, diagnostics, thermal groups, the power budget, control, and the OTP records.
-/
namespace Sys2Proof.Machine

/-! ### Commands (R357-R361) -/

/-- The effect of a write of CQ_W3 (R357). -/
def cqSubmit (q : Fin 4) (w3 : Word) (s : State) : State :=
  if s.pd.cq[q.1].length ≥ 32 then fput (F.LOADCH_CQ_STAT_q_LAST q.1) Status.failedRefused.code s
  else
    let word (k : Nat) := (rd (R.LOADCH_CQ_W_q_k q.1 k) s).toNat
    s |> updPd (fun p => { p with cq := upd p.cq q fun l => l ++ [⟨word 0, word 1, word 2, w3.toNat, s.now⟩] }) |> showFill q
      |> fput (F.LOADCH_CQ_STAT_q_LAST q.1) Status.done.code

/-- A write of CQ_W3 submits a command, or refuses it when the queue is full (R357). -/
def execCqSubmit (w : Initiator) (q : Fin 4) (w3 : Word) (s : State) : Host.Outcome State Fault Refusal :=
  .next (regCmd w (R.LOADCH_CQ_W_q_k q.1 3) (cqSubmit q w3) s)

/-- The operation code of a command (R358). -/
def opOf (c : PdCmd) : Nat := bits c.w0 11 8

def opOff : Nat := 0
def opOn : Nat := 1
def opPwm : Nat := 2
def opClear : Nat := 3
def opTest : Nat := 4
def opHbSet : Nat := 5
def opBridge : Nat := 6

/-- The command at the front of a queue; source 4 is the NM block's switch-off commands (R359). -/
def pdHead (src : Fin 5) (s : State) : Option PdCmd :=
  if h : src.1 < 4 then s.pd.cq[src.1].head? else s.pd.nmq.head?.map fun ch => ⟨ch % 64, 0, 0, 0, s.now⟩

/-- Takes the front command off its queue. -/
def pdPop (src : Fin 5) (s : State) : State :=
  if h : src.1 < 4 then showFill ⟨src.1, h⟩ (updPd (fun p => { p with cq := upd p.cq ⟨src.1, h⟩ List.tail }) s)
  else updPd (fun p => { p with nmq := p.nmq.tail }) s

/-- Whether the bits that R358 does not name are 0, and the channel exists. -/
def pdFormOk (c : PdCmd) : Bool :=
  decide (bits c.w0 7 6 = 0) && decide (c.w0 / 2 ^ 12 = 0) && decide (bits c.w2 15 11 = 0) && decide (c.w3 / 8 = 0) && chExists (bits c.w0 5 0)

/-- Whether CQ_MASK lets a queue name a channel (R359, R399). -/
def cqAllowed (q ch : Nat) (s : State) : Bool :=
  if ch < 32 then (rd (R.LOADCH_CQ_MASK_LO_q q) s).getLsbD ch else (rd (R.LOADCH_CQ_MASK_HI_q q) s).getLsbD (ch - 32)

/-- Whether a command is valid for its family (R361, row INVALID; R365). FREQ is judged where the output modulates (assumption 19). -/
def pdValid (n : Fin 48) (c : PdCmd) (s : State) : Bool :=
  let duty := bits c.w2 10 0
  let freq := bits c.w2 31 16
  let mode := bits c.w3 2 0
  let (lo, hi) := pwmRange n.1
  let freqOk := duty = 0 || duty ≥ 1024 || (lo ≤ freq && freq ≤ hi)
  match opOf c with
  | 0 | 1 | 3 | 4 => true
  | 2 => decide (duty ≤ 1024) && freqOk && (!ftst (F.LOADCH_CH_CFG_n_VT_ALIGN n.1) s || duty = 0 || duty ≥ 1024 || 1000000 % max 1 freq == 0)
  | 5 => isHb n.1 && decide (mode ≤ 2)
  | 6 => isHb n.1 && n.1 % 2 == 0 && decide (mode ≤ 4) && decide (duty ≤ 1024) && (freqOk || (mode ≠ 1 && mode ≠ 2))
  | _ => false

/-- Whether a command would be refused as SHED (R361). -/
def chBarred (n : Fin 48) (s : State) : Bool :=
  chShed n s || stageSheds n s || (decide (chClass n s < 4) && ftst (F.LOADCH_TG_STAT_g_LIMIT (tgOf n.1).1) s)

/-- Gives an output its commanded state; an OFF also ends its shed (R361, R384). LIMPED clears (R386). -/
def setDrive (n : Fin 48) (d : PdDrive) (endShed : Bool) (s : State) : State :=
  chChange n (fun s =>
    let s := if endShed then updCh n (fun c => { c with wait := false }) (fput (F.LOADCH_CH_STAT_n_SHED_SRC n.1) 0 s) else s
    s |> updCh n (fun c => { c with cmd := d, mode := .cmd }) |> fput (F.LOADCH_CH_STAT_n_LIMPED n.1) 0) s

/-- The drives that a command asks of its outputs (R358, R389). The driven half of a bridge with DUTY 0 is LOW for the whole period. -/
def askedDrives (n : Fin 48) (c : PdCmd) : List (Fin 48 × PdDrive) :=
  let duty := bits c.w2 10 0
  let freq := bits c.w2 31 16
  let mode := bits c.w3 2 0
  let odd := hbPartner n
  let half : PdDrive := if duty = 0 then .low else pwmDrive duty freq
  match opOf c with
  | 0 => [(n, .off)]
  | 1 => [(n, .high)]
  | 2 => [(n, pwmDrive duty freq)]
  | 5 => [(n, if mode = 0 then .off else if mode = 1 then .high else .low)]
  | _ =>
    match mode with
    | 0 => [(n, .off), (odd, .off)]
    | 1 => [(n, half), (odd, .low)]
    | 2 => [(n, .low), (odd, half)]
    | 3 => [(n, .low), (odd, .low)]
    | _ => [(n, .high), (odd, .high)]

/-- Starts the pulse of every waiting TEST of an output whose inrush window is closed (R374). -/
def startPulses (n : Fin 48) (s : State) : State :=
  match if chWanted n s then controlDrive n s else .off with
  | .high | .low =>
    let t := s.now + clampNat 20 200 (fget (F.LOADCH_OFFTEST_n_OFFTEST_US n.1) s) * 1000
    chChange n (updPd fun p => { p with tests := p.tests.map fun x => if x.ch == n && x.pulse.isNone then { x with pulse := some t } else x }) s
  | _ => s

/-- The outcome of a command at the power die (R361): the first row that applies. -/
def pdOutcome (src : Fin 5) (c : PdCmd) (s : State) : State :=
  let ch := bits c.w0 5 0
  let n : Fin 48 := Fin.ofNat 48 ch
  let fin (st : Status) (reason : Nat) (s : State) := pdRecord src c.w1 ch st reason 0 s
  let drives := askedDrives n c
  if cstate s ≠ csControlled then fin .failedRefused rsnUnclaimed s
  else if !pdFormOk c then fin .failedRefused rsnInvalid s
  else if src.1 < 4 && !cqAllowed src.1 ch s then fin .failedRefused rsnMask s
  else if !pdValid n c s then fin .failedRefused rsnInvalid s
  else if opOf c = opClear then
    let pair := if isHb n.1 then [n, hbPartner n] else [n]
    let real := (pair.find? fun x => fget (F.LOADCH_CH_STAT_n_CAUSE x.1) s ≠ 0 && fget (F.LOADCH_CH_STAT_n_CAUSE x.1) s ≠ causePartner).getD n
    let cause := fget (F.LOADCH_CH_STAT_n_CAUSE real.1) s
    if !chLatched n s then fin .done 0 s
    else if (cause = causeI2t && decide (fget (F.LOADCH_I2T_B_n_W_CLR real.1) s ≤ (pdCh real s).w * 256)) ||
        (cause = causeOvertemp && ftst (F.LOADCH_TG_STAT_g_LIMIT (tgOf real.1).1) s) then
      fin .failedRefused rsnCooling s
    else fin .done 0 (pair.foldl (fun s x => setDrive x .off false (fput (F.LOADCH_CH_STAT_n_CAUSE x.1) 0 s)) s)
  else if opOf c = opTest then
    let cls := chClass n s
    if cls ≥ 4 || !fbit F.LOADCH_CTRL_TEST_CLASS cls s then fin .failedRefused rsnClass s
    else if !chWanted n s then fin .failedRefused rsnState s
    else
      let s := updPd (fun p => { p with tests := p.tests ++ [⟨src.1, c.w1, n, s.now, none⟩] }) s
      if s.now < (pdCh n s).inrushEnd then s else startPulses n s
  else if drives.all (fun d => d.2 == .off) then fin .done 0 (drives.foldl (fun s d => setDrive d.1 .off true s) s)
  else if drives.any (fun d => chLatched d.1 s) then fin .failedRefused rsnLatched s
  else if drives.any (fun d => chBarred d.1 s) then fin .failedRefused rsnShed s
  else fin .done 0 (drives.foldl (fun s d => setDrive d.1 d.2 false s) s)

/-- The power die applies the front command of a queue when it is of this operation: one at a time, at most one per microsecond (R360). A command with an
operation code that the table does not have ends at whichever application its queue is given (assumption 19). -/
def pdApply (src : Fin 5) (op : Nat) (s : State) : State :=
  match pdHead src s with
  | none => s
  | some c =>
    if (opOf c ≠ op ∧ opOf c ≤ opBridge) ∨ !laneAlive s then s
    else
      let s := elapseTo (s.pd.lastApply + 1000) s
      pdOutcome src c (updPd (fun p => { p with lastApply := s.now }) (pdPop src s))

def execOff (src : Fin 5) (s : State) : Host.Outcome State Fault Refusal := .next (pdApply src opOff s)

def execOn (src : Fin 5) (s : State) : Host.Outcome State Fault Refusal := .next (pdApply src opOn s)

def execPwm (src : Fin 5) (s : State) : Host.Outcome State Fault Refusal := .next (pdApply src opPwm s)

def execClear (src : Fin 5) (s : State) : Host.Outcome State Fault Refusal := .next (pdApply src opClear s)

def execTest (src : Fin 5) (s : State) : Host.Outcome State Fault Refusal := .next (pdApply src opTest s)

def execHbSet (src : Fin 5) (s : State) : Host.Outcome State Fault Refusal := .next (pdApply src opHbSet s)

def execBridge (src : Fin 5) (s : State) : Host.Outcome State Fault Refusal := .next (pdApply src opBridge s)

/-- No confirmation of the front command within 1 ms (R361). -/
def execCmdLinkTimeout (src : Fin 5) (s : State) : Host.Outcome State Fault Refusal :=
  .next (match pdHead src s with
  | none => s
  | some c => pdRecord src c.w1 (bits c.w0 5 0) .failedTimeout rsnLink 0 (pdPop src (elapseTo (c.at_ + 1000000) s)))

/-! ### Protection (R366-R371) -/

/-- An output passes 2.5 × I_R: off and latched SHORT (R366), also while a test has its switch off. -/
def execHardShort (n : Fin 48) (ma : Nat) (s : State) : Host.Outcome State Fault Refusal :=
  .next (if chExists n.1 && chWanted n s && decide (5 * iR n.1 s < 2 * ma) then latch n causeShort s else s)

/-- The over-current threshold in force, in mA: I_INRUSH while the inrush window is open (R366). -/
def tripThreshold (n : Fin 48) (s : State) : Nat :=
  curUnit n.1 * (if s.now < (pdCh n s).inrushEnd then fget (F.LOADCH_INRUSH_n_I_INRUSH n.1) s else fget (F.LOADCH_TRIP_n_I_TRIP n.1) s)

/-- The trip filter (R366): a current that has stood above the threshold in force for so many us, which latches from T_TRIP on. -/
def execTrip (n : Fin 48) (i : OverCurrent) (s : State) : Host.Outcome State Fault Refusal :=
  .next (if chExists n.1 && chOn n s && decide (tripThreshold n s < i.ma) && decide (clampNat 16 16000 (fget (F.LOADCH_TRIP_n_T_TRIP n.1) s) ≤ i.us) then latch n causeTrip s else s)

/-- The instant of the turn-on that an output that conducts had last: of a PWM output the start of the on-phase it is in; none in an off-phase. -/
def turnedOn (n : Fin 48) (s : State) : Option Nat :=
  match chDrive n s with
  | .off => none
  | .pwm d f => match phasePos 0 n s with
    | some p => if p < pwmOnNs d f then some (s.now - p) else none
    | none => none
  | _ => some (pdCh n s).phase

/-- A predriver's VDS stands above VDS_TH once its blanking from the turn-on has passed (R366, R391). -/
def execVdsFault (n : Fin 48) (mv : Nat) (s : State) : Host.Outcome State Fault Refusal :=
  .next (match turnedOn n s with
  | some t =>
    if isGd n.1 && decide (fget (F.LOADCH_GD_VDS_n_VDS_TH n.1) s < mv) then
      latch n causeVds (elapseTo (t + fget (F.LOADCH_GD_VDS_n_VDS_BLANK n.1) s * 1000) s)
    else s
  | none => s)

/-- Gives an output's wire-heating value, and shows it in 1/256 units. -/
def setW (n : Fin 48) (w : Rat) (s : State) : State :=
  s |> updCh n (fun c => { c with w := w }) |> fput (F.LOADCH_CH_I2T_n_W n.1) (min 0xFFFF (w * 256).floor.toNat)

/-- The wire-heating value after a millisecond with a mean square current in mA² (R370); for I_W = 0 the manual states none (a free value). -/
def heatStep (n : Fin 48) (isq : Nat) (s : State) : Rat :=
  let iw := fget (F.LOADCH_I2T_A_n_I_W n.1) s * curUnit n.1
  let tau : Rat := (clampNat 1 6000 (fget (F.LOADCH_I2T_A_n_TAU n.1) s) : Rat) / 10
  let w := (pdCh n s).w
  if iw = 0 then (freeVal s % 65536 : Nat) / 256 else w + ((isq : Rat) / ((iw * iw : Nat) : Rat) - w) * (1 / 1000 / tau)

/-- Every 1 ms: the wire-heating value, which latches I2T at W_TH (R370). -/
def execI2tUpdate (n : Fin 48) (isq : Nat) (s : State) : Host.Outcome State Fault Refusal :=
  .next (if !chExists n.1 then s
  else
    let w := heatStep n isq s
    let s := whenB (fget (F.LOADCH_I2T_A_n_I_W n.1) s == 0) useFree (setW n w (updCh n (fun c => { c with isq := isq }) s))
    if (clampNat 256 1024 (fget (F.LOADCH_I2T_B_n_W_TH n.1) s) : Rat) / 256 ≤ w then latch n causeI2t s else s)

/-- An inrush window closes (R369): I_TRIP applies, and a test that waited for it starts (R374). -/
def execInrushWindowEnd (n : Fin 48) (s : State) : Host.Outcome State Fault Refusal :=
  .next (if !ftst (F.LOADCH_CH_STAT_n_INRUSH n.1) s then s
  else startPulses n (fput (F.LOADCH_CH_STAT_n_INRUSH n.1) 0 (elapseTo (pdCh n s).inrushEnd s)))

/-! ### Diagnostics (R372-R375) -/

/-- Sets or clears a diagnostic flag of CH_STAT; a flag that comes up raises its event (R400). -/
def setDiag (f : Nat → Fld) (ev : Nat) (n : Fin 48) (v : Bool) (s : State) : State :=
  let was := ftst (f n.1) s
  let s := fput (f n.1) (if v then 1 else 0) s
  if v && !was then chEvent n ev s else s

/-- Whether an output is on in on-phases of at least 200 µs (R372). -/
def longPhase (n : Fin 48) (s : State) : Bool :=
  match chDrive n s with
  | .off => false
  | .pwm d f => decide (200000 ≤ secNs / max 1 f * d / 1024)
  | _ => true

/-- OL_ON in uA (R372, R398): its unit is 0.25 mA on a light channel with FINE_EN, 10 mA on a predriver, and 1 mA elsewhere. -/
def olOnUa (n : Fin 48) (s : State) : Nat :=
  fget (F.LOADCH_OL_n_OL_ON n.1) s * if isLight n.1 && ftst (F.LOADCH_CH_CFG_n_FINE_EN n.1) s then 250 else 1000 * curUnit n.1

/-- The greatest current, in uA, that an output has had for 2 ms stands below OL_ON, or its least current does not (R372). -/
def execOpenOn (n : Fin 48) (ua : Nat) (s : State) : Host.Outcome State Fault Refusal :=
  .next (if chExists n.1 && longPhase n s then setDiag F.LOADCH_CH_STAT_n_OPEN_ON 1 n (decide (ua < olOnUa n s)) s else s)

/-- An off-state test ends, with the voltages it found in mV (R373). -/
def execOffStateTest (n : Fin 48) (out vbat loaded : Nat) (s : State) : Host.Outcome State Fault Refusal :=
  .next (if chExists n.1 && !chOn n s && ftst (F.LOADCH_CH_CFG_n_OL_OFF_EN n.1) s && !chLatched n s then
    s |> setDiag F.LOADCH_CH_STAT_n_SHORT_BAT 3 n (decide (vbat < out + 1000)) |> setDiag F.LOADCH_CH_STAT_n_OPEN_OFF 2 n (decide (2500 < loaded))
  else s)

/-- Ends a test with its record (R374): a failing one sets STUCK_ON, a passing one clears it. The end of its pulse is a turn-on. -/
def judgeTest (t : PdTest) (fell : Bool) (s : State) : State :=
  let src : Fin 5 := Fin.ofNat 5 t.src
  let s := chChange t.ch (updPd fun p => { p with tests := p.tests.erase t }) s
  let s := whenB t.pulse.isSome (updCh t.ch fun c => { c with phase := s.now }) s
  if !chWanted t.ch s then pdRecord src t.tag t.ch.1 .failedRefused rsnState 0 s
  else pdRecord src t.tag t.ch.1 .done 0 (if fell then 0 else 1) (setDiag F.LOADCH_CH_STAT_n_STUCK_ON 4 t.ch (!fell) s)

/-- A switch test of an output ends: at the end of its pulse, or at the next natural off-phase of a PWM output; the output fell when it is below 30 % of VBAT (R374). -/
def execTestPulseEnd (n : Fin 48) (out vbat : Nat) (s : State) : Host.Outcome State Fault Refusal :=
  .next (match s.pd.tests.find? fun t => t.ch == n with
  | none => s
  | some t =>
    match t.pulse with
    | some e => judgeTest t (decide (10 * out < 3 * vbat)) (elapseTo e s)
    | none => if s.now < (pdCh n s).inrushEnd && chOn n s then s else judgeTest t (decide (10 * out < 3 * vbat)) (elapseTo (nextOffPhase n s) s))

/-- A test has waited 100 ms for an inrush window (R374). -/
def execTestDeferTimeout (n : Fin 48) (s : State) : Host.Outcome State Fault Refusal :=
  .next (match s.pd.tests.find? fun t => t.ch == n && t.pulse.isNone with
  | none => s
  | some t =>
    if (pdCh n s).inrushEnd < t.since + 100000000 then s
    else
      let s := elapseTo (t.since + 100000000) s
      pdRecord (Fin.ofNat 5 t.src) t.tag n.1 .deferred 0 0 (updPd (fun p => { p with tests := p.tests.erase t }) s))

/-- The resolution of CUR, in its own units (R375). -/
def curStep (n : Nat) : Nat := if n < 8 then 10 else if n < 24 then 5 else if n < 32 then 2 else if n < 38 then 5 else 1

/-- Every 100 µs: an output's mean current, in µA (R375). -/
def execCurrentUpdate (n : Fin 48) (ua : Nat) (s : State) : Host.Outcome State Fault Refusal :=
  .next (if !chExists n.1 then s
  else
    let unit := curStep n.1
    let cur := (roundNearest ((ua : Rat) / (1000 * curUnit n.1 * unit : Nat))).toNat * unit
    let fine := if isLight n.1 && ftst (F.LOADCH_CH_CFG_n_FINE_EN n.1) s then min 255 (roundNearest ((ua : Rat) / 250)).toNat else 0
    s |> fput (F.LOADCH_CH_CUR_n_CUR n.1) (min 0xFFFF cur) |> fput (F.LOADCH_CH_CUR_n_CUR_FINE n.1) fine)

/-- What a sense output drives (R376). -/
inductive SnsLevel where
  | volts (mv : Nat)
  | fault
  deriving DecidableEq, Repr

/-- Whether an output has a condition that takes its sense output to the fault level (R376). -/
def snsFault (n : Fin 48) (s : State) : Bool :=
  chLatched n s || ftst (F.LOADCH_CH_STAT_n_OPEN_ON n.1) s || ftst (F.LOADCH_CH_STAT_n_OPEN_OFF n.1) s || ftst (F.LOADCH_CH_STAT_n_SHORT_BAT n.1) s ||
    ftst (F.LOADCH_CH_STAT_n_STUCK_ON n.1) s

/-- The pin ISNSk for a present current in mA of the output it selects (R376). -/
def snsOut (k : Fin 4) (ma : Nat) (s : State) : SnsLevel :=
  let sel := fget (F.LOADCH_SNS_CFG_k_SEL k.1) s
  if !chExists sel then .volts 0
  else
    let n : Fin 48 := Fin.ofNat 48 sel
    if snsFault n s || (ftst (F.LOADCH_SNS_CFG_k_OR_GROUP k.1) s && allCh.any fun m => tgOf m.1 == tgOf n.1 && snsFault m s) then .fault
    else .volts (min 3300 (ma * 3300 / max 1 (2 * iR n.1 s)))

/-! ### Thermal groups and the power budget (R377-R380, R384) -/

/-- Sheds the next output of a group (R378). -/
def groupShed (g : Fin 6) (s : State) : State :=
  let s := updPd (fun p => { p with tgDue := p.tgDue.set g.1 (some (s.now + 100000000)) g.2, tgHeld := p.tgHeld.set g.1 true g.2 }) s
  match shedPick (fun n => tgOf n.1 == g) s with
  | some n => shed n shedGroup s
  | none => s

/-- The temperature limits of a group (R377). -/
def tgWarnAt (g : Fin 6) (s : State) : Int := clampNat 100 155 (fget (F.LOADCH_TG_CFG_g_WARN g.1) s)

def tgLimitAt (g : Fin 6) (s : State) : Int := clampNat 100 155 (fget (F.LOADCH_TG_CFG_g_LIM g.1) s)

/-- Every 1 ms: a group's junction sensor (R377, R378); at 170 °C every output of the group latches (R366). -/
def execTgTempRead (g : Fin 6) (deg : Int) (s : State) : Host.Outcome State Fault Refusal :=
  .next (
    let edge (f : Fld) (now : Bool) (ev : Nat) (s : State) : State :=
      let was := ftst f s
      whenB (now && !was) (pdEvent ev) (fput f (if now then 1 else 0) s)
    let was := ftst (F.LOADCH_TG_STAT_g_LIMIT g.1) s
    let lim := tgLimitAt g s
    let s := s |> fputSat (F.LOADCH_TG_STAT_g_TEMP g.1) deg |> edge (F.LOADCH_TG_STAT_g_WARN g.1) (decide (tgWarnAt g s ≤ deg)) pdTgWarn
      |> edge (F.LOADCH_TG_STAT_g_LIMIT g.1) (decide (lim ≤ deg)) pdTgLimit |> edge (F.LOADCH_TG_STAT_g_OT g.1) (decide (170 ≤ deg)) pdTgOt
    let s := if lim ≤ deg then (if was then s else groupShed g s) else updPd (fun p => { p with tgDue := p.tgDue.set g.1 none g.2 }) s
    let s := if deg < lim - 10 && s.pd.tgHeld[g.1] then
        forCh (fun n s => if tgOf n.1 == g then release n shedGroup s else s) (updPd (fun p => { p with tgHeld := p.tgHeld.set g.1 false g.2 }) s)
      else s
    if 170 ≤ deg then forCh (fun n s => if tgOf n.1 == g then latchOne n causeOvertemp s else s) s else s)

/-- A group that stays at or above LIM sheds one more output every 100 ms (R378). -/
def execTgShedStep (g : Fin 6) (s : State) : Host.Outcome State Fault Refusal :=
  .next (match s.pd.tgDue[g.1] with
  | none => s
  | some t => groupShed g (elapseTo t s))

/-- The conduction loss of an output in mW (R379). -/
def chLoss (n : Fin 48) (s : State) : Rat :=
  if !chOn n s then 0
  else ((pdCh n s).isq : Rat) * rOn25 n.1 / 1000000 * (1 + 4 / 1000 * ((fgetI (F.LOADCH_TG_STAT_g_TEMP (tgOf n.1).1) s : Rat) - 25))

/-- P_BUDGET in mW (R379). -/
def pBudget (s : State) : Rat := (clampNat 40 120 (fget F.LOADCH_BUDGET_P_BUDGET s) * 100 : Nat)

/-- P_WARN in mW; above P_BUDGET it acts as P_BUDGET (R379). -/
def pWarn (s : State) : Rat := min (pBudget s) ((fget F.LOADCH_BUDGET_P_WARN s * 100 : Nat) : Rat)

/-- The present conduction loss of the die (R379). -/
def pNow (s : State) : Rat := allCh.foldl (fun t n => t + (pdCh n s).loss) 0

/-- The mean loss over the last 1,000 ms (R379). -/
def pAvg (s : State) : Rat := s.pd.win.foldl (· + ·) 0 / 1000

/-- Sheds one output for the budget, or reports that only class 4 remains (R380). -/
def budgetShed (s : State) : State :=
  match shedPick (fun _ => true) s with
  | some n => shed n shedBudget (updCh n (fun c => { c with shedLoss := c.loss }) s)
  | none => if pBudget s < pNow s then whenB (!s.pd.c4) (pdEvent pdBudgetC4) (updPd (fun p => { p with c4 := true, budgetOn := false }) s) else s

/-- Releases the outputs that the budget can take back, in the order of R384, each counted with those before it (R380, assumption 19). -/
def budgetRelease (s : State) : State :=
  let order := [4, 3, 2, 1, 0].flatMap fun c => allCh.filter fun n => chClass n s == c
  (order.foldl (fun (p : Rat × State) n =>
    if fbit (F.LOADCH_CH_STAT_n_SHED_SRC n.1) shedBudget p.2 && decide (p.1 + (pdCh n p.2).shedLoss ≤ pBudget p.2 - 500) then
      (p.1 + (pdCh n p.2).shedLoss, release n shedBudget p.2)
    else p) (pNow s, s)).2

/-- Every 1 ms: P_NOW and P_AVG, and what the budget makes of them (R379, R380). -/
def execPowerBudgetUpdate (s : State) : Host.Outcome State Fault Refusal :=
  .next (
    let s := forCh (fun n s => updCh n (fun c => { c with loss := chLoss n s }) s) s
    let s := updPd (fun p => { p with win := (pNow s :: p.win).take 1000 }) s
    let avg := pAvg s
    let s := s |> fput F.LOADCH_POWER_P_NOW (min 0xFFFF (roundNearest (pNow s)).toNat) |> fput F.LOADCH_POWER_P_AVG (min 0xFFFF (roundNearest avg).toNat)
    let warn := decide (pWarn s < avg)
    let above := decide (pBudget s < avg)
    let s := whenB (warn && !s.pd.warnOn) (pdEvent pdBudgetWarn) s
    let first := above && !s.pd.overOn
    let s := updPd (fun p => { p with warnOn := warn, overOn := above }) s
    let s := if first then
        budgetShed (pdEvent pdBudgetOver (updPd (fun p => { p with budgetOn := true, c4 := false, budgetDue := s.now + 10000000 }) s))
      else s
    if avg < pBudget s - 1000 then budgetRelease s else s)

/-- Every 10 ms for as long as P_NOW is above P_BUDGET, one more output is shed (R380). -/
def execBudgetShedStep (s : State) : Host.Outcome State Fault Refusal :=
  .next (if !s.pd.budgetOn then s
  else
    let s := elapseTo s.pd.budgetDue s
    let s := updPd (fun p => { p with budgetDue := s.now + 10000000 }) s
    if pBudget s < pNow s then budgetShed s else updPd (fun p => { p with budgetOn := false }) s)

/-- One released output is restored: class 3 first, then the lowest index (R384). -/
def execShedRestoreStep (s : State) : Host.Outcome State Fault Refusal :=
  .next (
    let order := [4, 3, 2, 1, 0].flatMap fun c => allCh.filter fun n => chClass n s == c
    match order.find? fun n => (pdCh n s).wait with
    | none => s
    | some n =>
      let s := elapseTo s.pd.nextRestore s
      s |> chChange n (updCh n fun c => { c with wait := false }) |> pdEvent pdShedRestored
        |> updPd (fun p => { p with nextRestore := s.now + clampNat 1 100 (fget F.LOADCH_CTRL_RESTORE_MS s) * 1000000 }))

/-! ### Control (R386, R387) -/

/-- What CLAIM makes of an output that control had taken: it keeps its present state, and a limp state until a command changes it (R386). -/
def claimOne (n : Fin 48) (s : State) : State :=
  chChange n (updCh n fun c =>
    { c with
      holdDue := none
      cmd := if c.mode = .off then .off else if c.mode = .limp then limpDrive n s else c.cmd
      mode := if c.mode = .limp ∨ c.mode = .kept then .kept else .cmd }) s

/-- The effect of CTRL.CLAIM (R386). -/
def loadchClaim (s : State) : State :=
  if cstate s == csControlled || !laneAlive s then s else s |> forCh claimOne |> setCstate csControlled |> pdEvent pdClaimed

/-- A write of CTRL.CLAIM (R386). -/
def execLoadchClaim (w : Initiator) (s : State) : Host.Outcome State Fault Refusal :=
  .next (regCmd w R.LOADCH_CTRL loadchClaim s)

/-- A write of CTRL.PARK (R387). -/
def loadchPark (s : State) : State := if cstate s == csControlled then setCstate csParked s else s

/-- PARK. -/
def execPark (w : Initiator) (s : State) : Host.Outcome State Fault Refusal := .next (regCmd w R.LOADCH_CTRL loadchPark s)

/-- Control is lost by a reset notice, or by both lanes silent for 1 ms (R386). -/
def execControlLost (notice : Bool) (s : State) : Host.Outcome State Fault Refusal :=
  .next (if notice then resetNotice s
  else if cstate s == csControlled && !laneAlive s then loseControl (elapseTo (s.pd.silent + 1000000) s) else s)

/-- A hold timer expires: the output takes its limp state (R386). -/
def execTHoldExpire (n : Fin 48) (s : State) : Host.Outcome State Fault Refusal :=
  .next (match (pdCh n s).holdDue with
  | none => s
  | some t =>
    let s := elapseTo t s
    let s := s |> chChange n (fun s => s |> updCh n (fun c => { c with mode := .limp, holdDue := none }) |> fput (F.LOADCH_CH_STAT_n_LIMPED n.1) 1) |> chEvent n 6
    if cstate s == csHolding && allCh.all (fun m => (pdCh m s).holdDue.isNone) then s |> setCstate csLimp |> pdEvent pdLimpEntered else s)

/-- The OTP record of an output replaces its fields (R388); a half-bridge takes LIMP 0b01 and 0b10 as 0b00 (R385), and FINE_EN is of light channels only (R398). Reserved bits stay 0. -/
def applyOtp (n : Fin 48) (s : State) : State :=
  match s.pd.otp[n.1] with
  | none => s
  | some (a, b, c, d) =>
    s |> wr (R.LOADCH_CH_CFG_n n.1) (a &&& 0xF7FFF7) |> wr (R.LOADCH_TRIP_n n.1) b |> wr (R.LOADCH_INRUSH_n n.1) (c &&& 0x0FFFFFFF) |> wr (R.LOADCH_LIMP_PWM_n n.1) (d &&& 0xFFFF07FF)
      |> fun s => whenB (isHb n.1 && fget (F.LOADCH_CH_CFG_n_LIMP n.1) s != 3) (fput (F.LOADCH_CH_CFG_n_LIMP n.1) 0)
        (whenB (!isLight n.1) (fput (F.LOADCH_CH_CFG_n_FINE_EN n.1) 0) s)

/-- What a power-die restart makes of an output (R386): HOLD outputs are off. -/
def restartOne (n : Fin 48) (s : State) : State :=
  let limp := fget (F.LOADCH_CH_CFG_n_RESET_MODE n.1) s == 2
  s |> updCh n (fun _ => { PdCh.init with mode := if limp then .limp else .off })
    |> wr (R.LOADCH_CH_STAT_n n.1) 0 |> wr (R.LOADCH_CH_I2T_n n.1) 128 |> wr (R.LOADCH_CH_CUR_n n.1) 0
    |> fput (F.LOADCH_CH_STAT_n_LIMPED n.1) (if limp then 1 else 0)
    |> fun s => chShow n (if chWanted n s then openInrush n (startPhase n s) else s)

/-- The power die restarts (R386, R388): its configuration takes its reset values and the OTP records, latches are removed, W is 0.5, hold timers start. A test that
was running gets no confirmation (R361). -/
def pdRestart (s : State) : State :=
  let ts := s.pd.tests
  let s := updPd (fun p =>
    { PdSt.init with cq := p.cq, nmq := p.nmq, otp := p.otp, unread := p.unread, silent := p.silent, lastApply := p.lastApply }) s
  let s := s |> dropRegs R.LOADCH_CTRL (R.LOADCH_CTRL + 4) |> dropRegs (R.LOADCH_TG_CFG_g 0) (R.LOADCH_BUDGET + 8) |> dropRegs 0x10220000 0x10230000
    |> dropRegs 0x10240000 0x10250000 |> fput F.LOADCH_STATUS_CSTATE csHolding |> fput F.LOADCH_STATUS_STAGE 0
  let s := s |> forCh applyOtp |> forCh restartOne |> startHolds |> pdEvent pdRestarted
  ts.foldl (fun s t => pdRecord (Fin.ofNat 5 t.src) t.tag t.ch.1 .failedTimeout rsnLink 0 s) s

/-- PD_RESTART. -/
def execPdRestart (s : State) : Host.Outcome State Fault Refusal := .next (pdRestart s)

/-- One lane of the interface is lost: no channel changes (R15). -/
def execLaneLoss (b : Bool) (s : State) : Host.Outcome State Fault Refusal :=
  .next (
    let f := if b then F.LOADCH_STATUS_LANE_B else F.LOADCH_STATUS_LANE_A
    if !ftst f s then s
    else
      let s := pdEvent pdLaneLoss (fput f 0 s)
      if laneAlive s then s else updPd (fun p => { p with silent := s.now }) s)

/-- A silent lane becomes alive again (R386). -/
def execLaneRestored (b : Bool) (s : State) : Host.Outcome State Fault Refusal :=
  .next (fput (if b then F.LOADCH_STATUS_LANE_B else F.LOADCH_STATUS_LANE_A) 1 s)

/-- One sample of VBAT, in mV, towards the stages: a stage is entered below its threshold and left 300 mV above it, each by every sample of 10 ms, which is 101 samples (R382). -/
def stageSample (mv : Nat) (k : Fin 4) (p : PdSt) : PdSt :=
  let inn := p.stageIn[k.1]
  let toward := if inn then decide (p.th[k.1] + 300 ≤ mv) else decide (mv < p.th[k.1])
  let n := if toward then p.stageCnt[k.1] + 1 else 0
  if 100 < n then { p with stageIn := p.stageIn.set k.1 (!inn) k.2, stageCnt := p.stageCnt.set k.1 0 k.2 }
  else { p with stageCnt := p.stageCnt.set k.1 n k.2 }

/-- The power die measures VBAT itself while it is not CONTROLLED (R382). -/
def execPdVbatSample (mv : Nat) (s : State) : Host.Outcome State Fault Refusal :=
  .next (if cstate s == csControlled then s
  else
    let s := updPd (fun p => (List.finRange 4).foldl (fun p k => stageSample mv k p) p) s
    applyStage (ownStage s) s)

/-! ### OTP records and counters (R396, R402) -/

/-- Shows whether the record that OTP_IDX names is programmed. -/
def showOtp (s : State) : State :=
  let i := fget F.LOADCH_OTP_IDX s
  fput F.LOADCH_OTP_STATUS_PROGRAMMED (if chExists i && (s.pd.otp[i]?.getD none).isSome then 1 else 0) s

/-- The effect of OTP_CMD.PROG (R402). -/
def otpProg (w : Initiator) (s : State) : State :=
  let i := fget F.LOADCH_OTP_IDX s
  let v := fget F.BLW_VBAT_MV s
  if !chExists i || (s.pd.otp[i]?.getD none).isSome || decide (v < 12000) || decide (16000 < v) || !initWorld w s then
    showOtp (fput F.LOADCH_OTP_STATUS_RESULT Status.failedRefused.code s)
  else
    let d (k : Nat) := rd (R.LOADCH_OTP_DATA_k k) s
    showOtp (fput F.LOADCH_OTP_STATUS_RESULT Status.done.code
      (updPd (fun p => { p with otp := upd p.otp (Fin.ofNat 48 i) fun _ => some (d 0, d 1, d 2, d 3) }) s))

/-- A write of OTP_CMD.PROG (R402); VBAT is the measure of BLW.VBAT. The command ends at once (assumption 19). -/
def execOtpProg (w : Initiator) (s : State) : Host.Outcome State Fault Refusal :=
  .next (regCmd w R.LOADCH_OTP_CMD (otpProg w) s)

/-- The effect of OTP_CMD.READ (R402). -/
def otpRead (s : State) : State :=
  let i := fget F.LOADCH_OTP_IDX s
  if !chExists i then showOtp (fput F.LOADCH_OTP_STATUS_RESULT Status.failedRefused.code s)
  else
    let s := match s.pd.otp[i]?.getD none with
      | some (a, b, c, d) =>
        s |> wr (R.LOADCH_OTP_DATA_k 0) a |> wr (R.LOADCH_OTP_DATA_k 1) b |> wr (R.LOADCH_OTP_DATA_k 2) c |> wr (R.LOADCH_OTP_DATA_k 3) d
      | none => forN 4 (fun k s => useFree (wr (R.LOADCH_OTP_DATA_k k) (BitVec.ofNat 32 (freeVal s)) s)) s
    showOtp (fput F.LOADCH_OTP_STATUS_RESULT Status.done.code s)

/-- A write of OTP_CMD.READ (R402). What an unprogrammed record reads as is not stated (free values). -/
def execOtpRead (w : Initiator) (s : State) : Host.Outcome State Fault Refusal :=
  .next (regCmd w R.LOADCH_OTP_CMD otpRead s)

/-- The counters of LOADCH (R396). -/
def loadchCounters : List Nat := [R.LOADCH_LATCH_CNT, R.LOADCH_SHED_CNT, R.LOADCH_CONTROL_LOST_CNT, R.LOADCH_REFUSED_CNT]

/-- A write of CNT_CLR clears the four counters (R396). -/
def execLoadchCntClr (w : Initiator) (s : State) : Host.Outcome State Fault Refusal :=
  .next (regCmd w R.LOADCH_CNT_CLR (clearRegs loadchCounters) s)

end Sys2Proof.Machine
end

