-- ==== Sys2Proof/Machine/ChipReset.lean ====
section
/-!
DEFINITION. The chip-level resets (R571-R574, R585): what each kind reaches, what it keeps, and what each block's chapter says of it.
-/
namespace Sys2Proof.Machine

def kindPowerOn : Nat := 1
def kindBrownOut : Nat := 2
def kindPin : Nat := 3
def kindWdog : Nat := 4
def kindHearth : Nat := 5
def kindSoftware : Nat := 6
def kindDeepWake : Nat := 7

/-- The warm chip-level resets (R571). -/
def warmKind (k : Nat) : Bool := decide (kindPin ≤ k) && decide (k ≤ kindSoftware)

/-! ### What a running flash access leaves (R330, R518) -/

/-- A settings-flash command and a crash image that are under way end: what they were writing is left open. The seal of an image is programmed last, so its area is still erased (R331). -/
def flashCut (s : State) : State :=
  let s := match s.boot.cmd with
    | some c => if c.waiting then s else flashOpen c.addr c.len s
    | none => s
  match s.sig.images with
  | c :: _ => if ftst F.SYSCTL_XSPI_STAT_CRASH_ACTIVE s then flashOpen (crashSlot c.slot + 4096) 0x80000 s else s
  | [] => s

/-! ### Vehicle time (R83, R84, R458) -/

/-- Master and health of the time islands are shown as they stand: TA is master while it is in service (R41). -/
def showTime (okA okB : Bool) (s : State) : State :=
  s |> fput F.TIME_STATUS_TA_OK okA.toNat |> fput F.TIME_STATUS_TB_OK okB.toNat |> fput F.TIME_STATUS_MASTER (if okA || !okB then 0 else 1)

/-- The RTC count at an instant (R462). -/
def rtcAt (t : Nat) (s : State) : Nat := (t - s.heron.rtcBase) * 32768 / 1000000000

/-- VT while the time islands sleep: the VT recorded at sleep entry plus the RTC time since, in units of 2^-48 ns (R458). -/
def sleptVt (s : State) : Option Nat := s.heron.rec_.map fun r => r.1 + (rtcAt s.now s - rtcAt r.2 s) * 1000000000 * nsUnit / 32768

/-- The time block over a reset that keeps VT: the two counts and their frequency, the learned tables, the sensors, the current source and the
latest accepted sample stand (R43, R83, R84, assumption 12). -/
def keptTime (unsync : Bool) (s : State) : TimeSt :=
  { TimeSt.init with
    ta := { s.time.ta with vt := (sleptVt s).getD s.time.ta.vt, held := [] }
    tb := { s.time.tb with vt := (sleptVt s).getD s.time.tb.vt, held := [] }
    mraw := s.time.mraw
    accepted := s.time.accepted
    peatF := s.time.peatF
    peatC := s.time.peatC
    tempA := s.time.tempA
    tempB := s.time.tempB
    src := s.time.src
    holdInteg := if freeRunning (timeState s) then s.time.holdInteg else (mIsl s).integ
    lastFed := s.now
    holdSince := if unsync then none else some s.now }

/-- The time state after a warm reset (R83). -/
def warmState (unsync : Bool) (s : State) : State :=
  let s := s |> fput F.TIME_STATUS_STATE (if unsync then stUnsync else stHoldover) |> fput F.TIME_STATUS_WARM 1 |> showQuality
  if unsync then s else raise F.TIME_EVENT 3 s

/-- A time island that starts from a count with the learned table of the peat domain (R76). -/
def freshIsl (count : Nat) (s : State) : TimeIsl := { TimeIsl.init with vt := count, learnF := s.time.peatF, learnC := s.time.peatC }

/-- The time block after a brown-out or a wake from DEEP: VT starts from a count, the learned table comes from the peat mirror (R83, R458). -/
def restartTime (count : Nat) (s : State) : TimeSt :=
  { TimeSt.init with ta := freshIsl count s, tb := freshIsl count s, peatF := s.time.peatF, peatC := s.time.peatC, tempA := s.time.tempA, tempB := s.time.tempB }

/-! ### What a reset keeps -/

/-- A trigger over a warm reset: an active pulse completes, its ball at the active level (R113). -/
def keptTrigger (n : Fin 16) (s : State) : Trigger :=
  { Trigger.init with pulseEnd := s.trg[n.1].pulseEnd, carry := if pulseActive n s then trgBall n s else none }

/-- The power die over a reset of the core die: commands that it has not applied are gone, what it has applied stands, a test that runs too (R585). -/
def keptPd (p : PdSt) : PdSt := { p with cq := PdSt.init.cq, nmq := [], unread := PdSt.init.unread }

/-- Bellows over a reset that keeps the peat domain; it has stopped nothing of the new core die. -/
def keptBlw (b : BlwSt) : BlwSt := { BlwSt.init with low := b.low, high := b.high, entered := b.entered, thermOn := b.thermOn, wdOn := false }

/-- An island of the core die while the die is held in reset. -/
def heldIsland (off : Bool) : Island := { Island.init with st := if off then .off else .reset, holdRec := true }

/-- The islands of a core die that is held in reset; the time islands count on through a warm reset. -/
def heldIslands (warm : Bool) (s : State) : Vector Island 21 :=
  Vector.ofFn fun i =>
    if i = islPEAT || (warm && (i == islTA || i == islTB)) then s.isl[i.1]
    else heldIsland (match islDomain i with | some d => !railOk d s | none => false)

/-- Whether a register outlives a reset of the core die: those of the peat domain, of the power die and of the key slots, and RESET_CAUSE; XSPI_STAT, FREQ and EPOCH
as the kind of the reset says. -/
def keptReg (kind a : Nat) : Bool :=
  (decide (0x10500000 ≤ a) && decide (a < 0x10800000)) || (decide (0x04700000 ≤ a) && decide (a < 0x04710000))
    || (decide (0x04600100 ≤ a) && decide (a < 0x04600900)) || (decide (0x10200000 ≤ a) && decide (a < 0x10300000)) || a == R.SYSCTL_RESET_CAUSE
    || (kind != kindBrownOut && (a == R.SYSCTL_XSPI_STAT || a == R.TIME_EPOCH)) || (warmKind kind && a == R.TIME_FREQ)

/-- The core die is reset; `t` is the time block after it. -/
def coreWipe (kind : Nat) (t : TimeSt) (s : State) : State :=
  let cold := kind == kindBrownOut
  forFin 35 showLatch { State.reset with
    pending := s.pending
    now := s.now
    resp := s.resp
    fresh := s.fresh
    regs := s.regs.filter fun c => keptReg kind c.1
    dram := s.dram + 1
    flash := s.flash
    isl := heldIslands (warmKind kind) s
    railA := s.railA
    railB := s.railB
    time := t
    sig := if cold || (kind == kindDeepWake && !Config.deepKeepsCrash) then SigSt.init
      else { SigSt.init with crash := s.sig.crash, newest := s.sig.newest, kept := true, imageCount := s.sig.imageCount }
    own := { OwnSt.init with lc := s.own.lc, lcPending := s.own.lcPending }
    trg := if warmKind kind then Vector.ofFn fun n => keptTrigger n s else State.reset.trg
    nm := if cold then NmSt.init else { NmSt.init with segs := keptSegs s }
    pd := keptPd s.pd
    heron := { HeronSt.init with rtcBase := s.heron.rtcBase }
    key := { KeySt.init with keys := s.key.keys, alarms := s.key.alarms }
    boot := { BootSt.init with rollback := s.boot.rollback, exclude := s.boot.exclude, inReset := some (s.now + if warmKind kind then 50000 else 0) }
    blw := keptBlw s.blw }

/-- RESET_CAUSE after a reset (R573). -/
def recordCause (kind detail : Nat) (s : State) : State :=
  s |> fput F.SYSCTL_RESET_CAUSE_KIND kind |> fput F.SYSCTL_RESET_CAUSE_DETAIL detail
    |> fput F.SYSCTL_RESET_CAUSE_COUNT (min 255 (fget F.SYSCTL_RESET_CAUSE_COUNT s + 1))

/-- STAT.LAST of the settings flash after a reset: kept, or the end of the command that ran (R518). -/
def keptLast (kind : Nat) (s : State) : Nat :=
  if kind = kindBrownOut then 0 else if s.boot.cmd.isSome then Status.abortedReset.code else fget F.SYSCTL_XSPI_STAT_LAST s

/-- The outputs and the lanes of the power die at the reset event: the reset notice leaves on both lanes; at a brown-out they fall silent instead, and a start from DEEP
sends none (R386, R531, R568). -/
def resetLanes (kind : Nat) (s : State) : State :=
  if warmKind kind then resetNotice s
  else if kind = kindBrownOut then
    updPd (fun p => { p with silent := s.now }) (s |> fput F.LOADCH_STATUS_LANE_A 0 |> fput F.LOADCH_STATUS_LANE_B 0)
  else s

/-- The key RAM over a reset (R543). -/
def resetKeys (kind : Nat) (s : State) : State :=
  fput F.KEY_STATUS_ROOT_BLOCKED (fget F.TAMP_STATUS_ROOT_BLOCKED s) (if kind = kindBrownOut then clearKeys s else expireKeys s)

/-- What stands in the registers after the core die's own have gone: the watchdog's and LOADCH's take their reset values (R388, R577), Heron is awake. -/
def wipeRegs (last : Nat) (s : State) : State :=
  s |> dropRegs R.WDOG_WD_CFG (R.WDOG_WD_STAT + 4) |> wr R.SYSCTL_XSPI_STAT (BitVec.ofNat 32 last) |> loadchRegsReset |> forCh chShow |> fput F.HERON_STATUS_STATE 0
    |> showPlanes

/-- The core rails and the clock are valid (R457). -/
def railsUp (s : State) : State :=
  let s := { s with railA := true, railB := true }
  s |> raise F.BLW_RAIL 0 |> raise F.BLW_RAIL 1 |> raise F.BLW_RAIL 3

/-- A chip-level reset that is no power-on (R571-R573): the core die goes into reset at once. One that comes in DEEP raises the regulators (assumption 28). -/
def chipReset (kind detail : Nat) (s : State) : State :=
  let s := if s.heron.deep && decide (2 ≤ fget F.HERON_STATUS_STATE s) then railsUp s else s
  let last := keptLast kind s
  let okA := ftst F.TIME_STATUS_TA_OK s
  let okB := ftst F.TIME_STATUS_TB_OK s
  let unsync := timeState s == stUnsync || (timeState s == stRefusing && s.time.fromUnsync)
  let s := resetLanes kind (flashCut s)
  let t := if warmKind kind then keptTime unsync s else if kind = kindBrownOut then restartTime 0 s else s.time
  let s := recordCause kind detail (resetKeys kind (wipeRegs last (coreWipe kind t s)))
  if warmKind kind then warmState unsync (showTime okA okB s) else s

/-- A power-on (R529, R571): the peat domain too. `aon` says that VDD_AON failed while VBAT stood: the power die then gets a reset notice; else it restarts (R386). -/
def powerOn (aon : Bool) (s : State) : State :=
  let s := flashCut s
  let s := if aon then resetNotice s else s
  let r : State :=
    { State.reset with
      pending := s.pending
      now := s.now
      resp := s.resp
      fresh := s.fresh
      dram := s.dram + 1
      flash := s.flash
      isl := heldIslands false { s with railA := true, railB := true }
      regs := if aon then s.regs.filter fun c => decide (0x10200000 ≤ c.1) && decide (c.1 < 0x10300000) else []
      own := { OwnSt.init with lc := s.own.lcPending, lcPending := s.own.lcPending }
      pd := if aon then keptPd s.pd else { PdSt.init with otp := s.pd.otp }
      heron := { HeronSt.init with rtcBase := s.now }
      boot := { BootSt.init with rollback := s.boot.rollback, inReset := some s.now }
      blw := { BlwSt.init with wdOn := false } }
  if aon then forCh chShow (loadchRegsReset r) else pdRestart r

/-! ### The reset commands -/

/-- POWER_ON. -/
def execPowerOn (aon : Bool) (s : State) : Host.Outcome State Fault Refusal := .next (powerOn aon s)

/-- PIN_RESET: RSTn has been low for 1 us (R571). -/
def execPinReset (s : State) : Host.Outcome State Fault Refusal := .next (chipReset kindPin 0 s)

/-- A write of CHIP_RST (R574). -/
def chipRst (go : Bool) (key : BitVec 16) (s : State) : State := if go && key == 0x5253 then chipReset kindSoftware 1 s else bad s

/-- CHIP_RST. -/
def execChipRst (w : Initiator) (go : Bool) (key : BitVec 16) (s : State) : Host.Outcome State Fault Refusal :=
  .next (regCmd w R.SYSCTL_CHIP_RST (hearthOnly w (chipRst go key)) s)

/-- BROWN_OUT: both core rails have been below 0.68 V for 1 us (R568). -/
def execBrownOut (s : State) : Host.Outcome State Fault Refusal := .next (chipReset kindBrownOut 0 s)

end Sys2Proof.Machine
end

