-- ==== Sys2Proof/Machine/Boot.lean ====
section
/-!
DEFINITION. Boot (chapter 15): the slot header and its checks, the journal, the choice of a slot, the start of Hearth, and the boot commands.
-/
namespace Sys2Proof.Machine

/-! ### The slot header (R521-R524) -/

/-- A little-endian field of a slot's header. -/
def hdr (k o n : Nat) (s : State) : Nat := leNat (frdBytes (slotBase k s + o) n s)

/-- Whether a range of a slot's header is zero. -/
def hdrZero (k o n : Nat) (s : State) : Bool := (frdBytes (slotBase k s + o) n s).all (· == 0)

/-- Where a section entry lies in the header. -/
def entryAt (i : Nat) : Nat := 256 + 96 * i

/-- OFFSET and LENGTH of a section. -/
def sectionSpan (k i : Nat) (s : State) : Nat × Nat := (hdr k (entryAt i + 4) 4 s, hdr k (entryAt i + 8) 4 s)

/-- Whether TYPE and INDEX name a section, and LENGTH is within the type's limit (R522). -/
def sectionKind (ty idx len : Nat) : Bool :=
  match ty with
  | 1 => idx == 0 && decide (len ≤ 262144)
  | 2 => decide (idx < 4) && decide (len ≤ 458752)
  | 10 => decide (idx < 2)
  | 11 => true
  | _ => decide (3 ≤ ty) && decide (ty ≤ 9) && idx == 0

/-- Whether an entry in use is well formed (R522). -/
def entryOk (k i : Nat) (s : State) : Bool :=
  let o := entryAt i
  let (a, n) := sectionSpan k i s
  sectionKind (hdr k o 1 s) (hdr k (o + 1) 1 s) n && hdrZero k (o + 2) 2 s && hdrZero k (o + 12) 20 s && a % 4096 == 0 && a != 0 && n != 0
    && decide (a + n ≤ slotSize s)

/-- The entries that name HEARTH. -/
def hearthEntries (k : Nat) (s : State) : List Nat := (List.range (min 32 (hdr k 10 2 s))).filter fun i => hdr k (entryAt i) 1 s == 1

/-- Whether the section table meets R522. -/
def tableOk (k : Nat) (s : State) : Bool :=
  let n := min 32 (hdr k 10 2 s)
  ((List.range n).all fun i => entryOk k i s)
    && ((List.range n).all fun i => (List.range i).all fun j =>
      let (a, l) := sectionSpan k i s
      let (b, m) := sectionSpan k j s
      decide (a + l ≤ b) || decide (b + m ≤ a))
    && hdrZero k (entryAt n) (96 * (32 - n)) s && (hearthEntries k s).length == 1

/-- Whether FORMAT, SECTIONS, SEQ, the zero fields and the section table are as R521 and R522 give. -/
def headerForm (k : Nat) (s : State) : Bool :=
  hdr k 8 2 s == 1 && decide (1 ≤ hdr k 10 2 s) && decide (hdr k 10 2 s ≤ 32) && hdr k 16 8 s != 0 && hdrZero k 36 28 s && hdrZero k 197 59 s && tableOk k s

/-- Whether the signer is accepted (R523). -/
def signerOk (k : Nat) (s : State) : Bool :=
  let key := frdBytes (slotBase k s + 64) 133 s
  if s.own.lc = 1 ∨ s.own.lc = 2 then sha512 key == leBytes 64 Config.imageKeyHash else key == leBytes 133 Config.worvalKey

/-- Whether a slot's signature verifies (R521). -/
def signatureOk (k : Nat) (s : State) : Bool :=
  let b := slotBase k s
  pVerify (frdBytes (b + 64) 133 s) (sha512 (frdBytes b 3328 s)) (frdBytes (b + 3328) 132 s)

/-- The Hearth image of a slot. -/
def hearthImage (k : Nat) (s : State) : List Byte :=
  match hearthEntries k s with
  | [] => []
  | i :: _ =>
    let (a, n) := sectionSpan k i s
    frdBytes (slotBase k s + a) n s

/-- Whether the hash of a slot's Hearth image is the one its entry holds. -/
def hearthHashOk (k : Nat) (s : State) : Bool :=
  match hearthEntries k s with
  | [] => false
  | i :: _ => sha512 (hearthImage k s) == frdBytes (slotBase k s + entryAt i + 32) 64 s

/-! ### The journal (R526, R527) -/

/-- A journal record: its number, STATE, TARGET and NEW_SEQ. -/
structure Journal where
  jseq : Nat
  state : Nat
  target : Nat
  newSeq : Nat

/-- The record of a cell, when it counts. -/
def journalCell (c : Nat) (s : State) : Option Journal :=
  let b := frdBytes (64 * c) 64 s
  let f (o n : Nat) : Nat := leNat ((b.drop o).take n)
  if b.take 4 == ascii "IJRN" && crc32 (b.take 60) == f 60 4 then some ⟨f 8 8, f 16 1, f 17 1, f 24 8⟩ else none

/-- The current record: the highest JSEQ of both copies. -/
def journal (s : State) : Option Journal :=
  (List.range 2048).foldl (fun best c =>
    match best, journalCell c s with
    | some x, some y => if x.jseq < y.jseq then some y else some x
    | none, y => y
    | x, none => x) none

/-! ### The choice of a slot (R524-R528) -/

/-- Why the header of a slot, or what excludes it, makes it invalid: A_REASON and B_REASON of R535; none: the signature decides. -/
def headerReason (k : Nat) (s : State) : Option Nat :=
  let barred := match journal s with
    | some j => j.target == k && (j.state == 1 || j.state == 3)
    | none => false
  if s.boot.exclude == some k then some 8
  else if barred then some 7
  else if frdBytes (slotBase k s) 8 s != ascii "Z480IMRN" then some 1
  else if !headerForm k s then some 2
  else if hdr k 24 8 s != Config.platformId % 2 ^ 64 then some 3
  else if hdr k 12 4 s < s.boot.rollback then some 4
  else if !signerOk k s then some 5 else none

/-- What the boot ROM finds in a slot whose header is in order: 0, 6 or 9. -/
def imageReason (k : Nat) (s : State) : Nat := if !signatureOk k s then 6 else if !hearthHashOk k s then 9 else 0

/-- The choice: the slot booted, with the reasons of A and of B. -/
def chooseSlot (s : State) : Option Nat × Nat × Nat :=
  if flashSize s = 0 then (none, 15, 15)
  else match headerReason 0 s, headerReason 1 s with
    | some a, some b => (none, a, b)
    | none, some b => let a := imageReason 0 s; (if a = 0 then some 0 else none, a, b)
    | some a, none => let b := imageReason 1 s; (if b = 0 then some 1 else none, a, b)
    | none, none =>
      if hdr 0 16 8 s < hdr 1 16 8 s then
        let b := imageReason 1 s
        if b = 0 then (some 1, 15, 0) else let a := imageReason 0 s; (if a = 0 then some 0 else none, a, b)
      else
        let a := imageReason 0 s
        if a = 0 then (some 0, 0, 15) else let b := imageReason 1 s; (if b = 0 then some 1 else none, a, b)

/-- UPDATE (R527): a slot that has not been examined counts as valid. -/
def updateCode (a b : Nat) (s : State) : Nat :=
  match journal s with
  | none => 0xFF
  | some j =>
    let r := if j.target = 0 then a else b
    match j.state with
    | 1 => Status.abortedReset.code
    | 3 => Status.abortedCancel.code
    | 2 => if (r = 0 ∨ r = 15) ∧ flashSize s ≠ 0 ∧ hdr j.target 16 8 s = j.newSeq then Status.done.code else Status.failedRefused.code
    | _ => 0xFF

/-- The Hearth image is loaded and measured, and Hearth starts (R529). -/
def startHearth (k : Nat) (s : State) : State :=
  let img := hearthImage k s
  let h := sha512 img
  let s := forN 16 (fun i s => wr (R.OWN_MEAS_k i) (BitVec.ofNat 32 (leNat ((h.drop (4 * i)).take 4))) s) s
  updCwy (fun c => { c with hcBoot := false }) (mwrBytes (tcmBase 4) img s)

/-- The boot ROM chooses a slot and starts Hearth, or waits 2 s for the next attempt (R525, R528, R532). -/
def selectSlot (s : State) : State :=
  let (k, a, b) := chooseSlot s
  let alt := s.boot.exclude.isSome
  let s := s |> fput F.SYSCTL_BOOT_STATUS_A_REASON a |> fput F.SYSCTL_BOOT_STATUS_B_REASON b |> fput F.SYSCTL_BOOT_STATUS_UPDATE (updateCode a b s)
    |> fput F.SYSCTL_BOOT_STATUS_UPD_SLOT (match journal s with | some j => j.target | none => 0)
  let s := updBoot (fun x => { x with exclude := none }) s
  match k with
  | none => s |> fput F.SYSCTL_BOOT_STATUS_SLOT 3 |> fput F.SYSCTL_BOOT_STATUS_RESULT 2 |> updBoot (fun x => { x with retryAt := s.now + 2000000000 })
  | some k =>
    let q := hdr k 16 8 s
    s |> fput F.SYSCTL_BOOT_STATUS_SLOT k |> fput F.SYSCTL_BOOT_STATUS_RESULT (if alt then 1 else 0) |> wr R.SYSCTL_BOOT_SEQ_LO (BitVec.ofNat 32 q)
      |> wr R.SYSCTL_BOOT_SEQ_HI (BitVec.ofNat 32 (q / 2 ^ 32)) |> updBoot (fun x => { x with retryAt := 0 }) |> startHearth k

/-- An island of a core die that leaves reset runs, unless its domain is lost (R31, R529), in the state that Bellows requires (R565). -/
def releaseIsl (i : Fin 21) (s : State) : State :=
  let railed := match islDomain i with
    | some d => railOk d s
    | none => true
  let s := { s with isl := s.isl.set i.1 { Island.init with st := if railed then .run else .off } i.2 }
  if railed then blwTakes i s else s

/-- The core die leaves reset (R529, R572, R577): the islands run, the chip watchdog's period starts. -/
def releaseCore (s : State) : State :=
  let s := forFin 21 (fun i s => if i = islPEAT then s else releaseIsl i s) s
  let s := showTime (ftst F.TIME_STATUS_TA_OK s && islOpen islTA s) (ftst F.TIME_STATUS_TB_OK s && islOpen islTB s) (showPlanes s)
  let s := updBoot (fun b => { b with inReset := none }) s
  { s with blw := { s.blw with wdStart := s.now, wdOn := true, wdFirst := none } }

/-- CORE_RESET_RELEASE (R529): `cap` is the flash size that discovery finds (R515), `dram` the size and rate that the training of DRAM ends with (R420, R606), `full` whether it was a full
training (R530). -/
def execCoreResetRelease (cap : Option (Fin 3)) (dram : Option (Fin 4 × Fin 4)) (full : Bool) (s : State) : Host.Outcome State Fault Refusal :=
  .next (
    match s.boot.inReset with
    | none => s
    | some t =>
      let s := releaseCore (elapseTo t s)
      let s := match cap with
        | some z => s |> fput F.SYSCTL_XSPI_CAP_SIZE z.1 |> fput F.SYSCTL_XSPI_CAP_OK 1
        | none => s
      let s := match dram with
        | some (z, r) => s |> fput F.MEM_DRAM_CFG_SIZE z.1 |> fput F.MEM_DRAM_CFG_RATE (r.1 + 1) |> fput F.MEM_DRAM_CFG_TRAINED 1
        | none => s
      s |> fput F.SYSCTL_BOOT_STATUS_TRAIN_FULL full.toNat |> fput F.SYSCTL_BOOT_STATUS_KEYLESS (fget F.TAMP_STATUS_TAMPER_LATCH s) |> selectSlot)

/-- BOOT_RETRY (R528): 2 s after the latest attempt. -/
def execBootRetry (s : State) : Host.Outcome State Fault Refusal :=
  .next (if s.boot.retryAt = 0 then s else selectSlot (bump R.SYSCTL_BOOT_RETRIES (elapseTo s.boot.retryAt s)))

/-- The effect of BOOT_CMD.ALT (R532). -/
def bootAlt (s : State) : State :=
  let slot := fget F.SYSCTL_BOOT_STATUS_SLOT s
  chipReset kindSoftware 2 (updBoot (fun b => { b with exclude := if slot < 2 then some slot else none }) s)

/-- ALT. -/
def execAlt (w : Initiator) (s : State) : Host.Outcome State Fault Refusal := .next (regCmd w R.SYSCTL_BOOT_CMD (hearthOnly w bootAlt) s)

/-- Whether VBAT lies where fuses may be blown (R483, R535). -/
def fuseSupply (s : State) : Bool := decide (12000 ≤ fget F.BLW_VBAT_MV s) && decide (fget F.BLW_VBAT_MV s ≤ 16000)

/-- The effect of BOOT_CMD.ROLLBACK_ADV (R535); with all 64 fuses blown there is no next one. -/
def rollbackAdv (s : State) : State :=
  if fuseSupply s && decide (s.boot.rollback < 64) then
    fput F.SYSCTL_ROLLBACK_RESULT Status.done.code (updBoot (fun b => { b with rollback := b.rollback + 1 }) s)
  else fput F.SYSCTL_ROLLBACK_RESULT Status.failedRefused.code s

/-- ROLLBACK_ADV. -/
def execRollbackAdv (w : Initiator) (s : State) : Host.Outcome State Fault Refusal := .next (regCmd w R.SYSCTL_BOOT_CMD (hearthOnly w rollbackAdv) s)

end Sys2Proof.Machine
end

