-- ==== Sys2Proof/Machine/Hearth.lean ====
section
/-!
DEFINITION. Hearth (chapter 13): invalidation of the ownership caches, Anvil's time limit, the tongs hand-over with the block resets, the life cycle, the Hearth watchdog and
restart, and the violation FIFO.
-/
namespace Sys2Proof.Machine

/-- Changes the ownership unit. -/
def updOwn (f : OwnSt → OwnSt) (s : State) : State := { s with own := f s.own }

/-! ### Invalidation (R470) -/

/-- The effect of INVAL_CMD: the named page, or every page. -/
def invalCmd (page : Option Nat) (s : State) : State :=
  if ftst F.OWN_INVAL_CMD_BUSY s then bad s else fput F.OWN_INVAL_CMD_BUSY 1 (updOwn (fun o => { o with inval := some page }) s)

/-- The effect of INVAL_CMD.PAGE: the page that INVAL_ADDR names. -/
def invalPage (s : State) : State := invalCmd (some (fget F.OWN_INVAL_ADDR_PAGE s)) s

/-- INVAL_PAGE. -/
def execInvalPage (w : Initiator) (s : State) : Host.Outcome State Fault Refusal := .next (regCmd w R.OWN_INVAL_CMD (hearthOnly w invalPage) s)

/-- INVAL_ALL. -/
def execInvalAll (w : Initiator) (s : State) : Host.Outcome State Fault Refusal := .next (regCmd w R.OWN_INVAL_CMD (hearthOnly w (invalCmd none)) s)

/-- INVAL_DONE. -/
def execInvalDone (s : State) : Host.Outcome State Fault Refusal :=
  .next (
    match s.own.inval with
    | none => s
    | some p =>
      let keep (c : OwnEntry) : Bool := match p with
        | some n => c.page != n
        | none => false
      fput F.OWN_INVAL_CMD_BUSY 0 (updOwn (fun o => { o with cache := o.cache.filter keep, inval := none }) s))

/-! ### Anvil (R473) and the L2 reservation (R475) -/

/-- ANVIL_TIMEOUT. -/
def execAnvilTimeout (h : Fin 8) (s : State) : Host.Outcome State Fault Refusal :=
  .next (
    if !s.harts[h.1].world then s
    else
      let s := elapseTo (s.harts[h.1].anvilSince + clampNat 10 10000 (fget F.OWN_ANVIL_MAX_US s) * 1000) s
      raise F.OWN_EVENT 4 (anvilReturn h (some (-17)) s))

/-- The effect of a write of L2_RES_A (`b` false) or L2_RES_B. What the caches hold is not observable, and is not part of the state (assumption 29). -/
def l2ResChange (b en : Bool) (s : State) : State := fput (if b then F.OWN_CTRL_L2_RES_B else F.OWN_CTRL_L2_RES_A) en.toNat s

/-- L2_RES_CHANGE. -/
def execL2ResChange (w : Initiator) (b en : Bool) (s : State) : Host.Outcome State Fault Refusal :=
  .next (regCmd w R.OWN_CTRL (hearthOnly w (l2ResChange b en)) s)

/-! ### Block resets (R478) -/

/-- The tongs block that is home to a queue. -/
def qBlock (qid : Nat) : Option Nat := (qHome qid).bind tongsBlockAt

/-- The reset of a camera port. -/
def camReset (n : Fin 4) (s : State) : State :=
  let s := camClose n .abortedReset s
  updCam n (fun _ => CamSt.init) (dropRegs (0x04030000 + 0x4000 * n.1) (0x04034000 + 0x4000 * n.1) s)

/-- The reset of the trigger and capture slice; an active pulse completes (assumption 29). -/
def trgReset (s : State) : State :=
  dropRegs 0x04020000 0x04030000 { s with trg := Vector.ofFn fun n => keptTrigger n s, cap := State.reset.cap, trgShadows := [] }

/-- The reset of the NM block: the peat domain holds the pins of the segments (R348), the Sluice releases what it held. -/
def nmReset (s : State) : State :=
  let s := forFin 35 releaseHeld (endHolds (fun h => h.qid == 0x310) .abortedReset s)
  forFin 35 showLatch (dropRegs 0x10400000 0x10500000 { s with nm := { NmSt.init with segs := keptSegs s } })

/-- The reset of a tongs block. -/
def blockReset (k : Nat) (s : State) : State :=
  if h : k < 12 then canReset ⟨k, h⟩ s
  else if h : k < 18 then linReset ⟨k - 12, by omega⟩ s
  else if k = 18 then loadchReset s
  else if k = 19 then dropRegs 0x10300000 0x10400000 { s with fio := FioSt.init }
  else if h : k < 24 then camReset (Fin.ofNat 4 (k - 20)) s
  else if k = 24 then trgReset s
  else if k = 25 then nmReset s
  else dropRegs 0x10500000 0x10600000 { s with heron := { HeronSt.init with rtcBase := s.heron.rtcBase } }

/-! ### Tongs (R476-R480) -/

def tgOwned : Nat := 0
def tgReleasing : Nat := 1
def tgReset : Nat := 2
def tgGrantable : Nat := 3

/-- The hand-over state of a block. -/
def tgState (k : Nat) (s : State) : Nat := fget (F.OWN_BLK_k_STATE k) s

/-- Gives GONE of every slot that is bound to a block's queue a value that may depend on the slot's thread (R158). -/
def markGone (k : Nat) (f : Fin 24 → Nat → State → Nat) (s : State) : State :=
  forFin 24 (fun e s => forN 24 (fun q s =>
    if ftst (F.ENG_QSLOT_q_EN e.1 q) s && qBlock (fget (F.ENG_QSLOT_q_QID e.1 q) s) == some k then fput (F.ENG_QSLOT_q_GONE e.1 q) (f e q s) s else s) s) s

/-- The block reset is complete (R477). -/
def tongsDone (k : Nat) (s : State) : State :=
  s |> fput (F.OWN_BLK_k_STATE k) tgGrantable |> markGone k (fun _ _ _ => 1) |> raise F.OWN_EVENT 5

/-- Whether a block is without supply: a controller or camera of a lost domain. -/
def blockDark (k : Nat) (s : State) : Bool :=
  if k < 6 then !s.railA else if k < 12 then !s.railB else if k = 20 ∨ k = 21 then !s.railA else if k = 22 ∨ k = 23 then !s.railB else false

/-- A block passes to RESET (R477, R478), which RESET_CAUSE shows (R573): at once to GRANTABLE when it has no supply. -/
def tongsReset (k : Nat) (forced : Bool) (s : State) : State :=
  let s := blockReset k (s |> fput (F.OWN_BLK_k_STATE k) tgReset |> fput (F.OWN_BLK_k_FORCED k) forced.toNat |> fput F.SYSCTL_RESET_CAUSE_BLOCK 1)
  if blockDark k s then tongsDone k s else s

/-- A write of TONGS_CMD: in a state with a row for it, with its fields. -/
def tongsCmd (k : Fin 32) (nw : Bool) (ni : Fin 32) (inState : Nat → Bool) (f : State → State) (s : State) : State :=
  if 27 ≤ k.1 ∨ ftst F.OWN_TONGS_CMD_BUSY s = true then bad s
  else if inState (tgState k.1 s) then
    f (s |> fput F.OWN_TONGS_CMD_BLOCK k.1 |> fput F.OWN_TONGS_CMD_NEW_WORLD nw.toNat |> fput F.OWN_TONGS_CMD_NEW_INST ni.1)
  else bad s

/-- The effect of REQUEST: the timer starts; REL_PEND and the RRQ source follow the state. -/
def tongsRequest (k : Fin 32) (s : State) : State :=
  let due := s.now + clampNat 1 10000 (fget F.OWN_TONGS_CFG_TO_MS s) * 1000000
  fput (F.OWN_BLK_k_STATE k.1) tgReleasing (updOwn (fun o => { o with tongsDue := upd o.tongsDue (Fin.ofNat 27 k.1) fun _ => due }) s)

/-- TONGS_REQUEST. -/
def execTongsRequest (w : Initiator) (k : Fin 32) (nw : Bool) (ni : Fin 32) (s : State) : Host.Outcome State Fault Refusal :=
  .next (regCmd w R.OWN_TONGS_CMD (hearthOnly w (tongsCmd k nw ni (· == tgOwned) (tongsRequest k))) s)

/-- TONGS_FORCE. -/
def execTongsForce (w : Initiator) (k : Fin 32) (nw : Bool) (ni : Fin 32) (s : State) : Host.Outcome State Fault Refusal :=
  .next (regCmd w R.OWN_TONGS_CMD (hearthOnly w (tongsCmd k nw ni (fun x => x == tgOwned || x == tgReleasing) (tongsReset k.1 true))) s)

/-- The effect of GRANT (R477, R479): the caches drop the block's pages, the block has its new owner, and slots of a thread of that world work again (R158). -/
def tongsGrant (k : Nat) (nw : Bool) (ni : Nat) (s : State) : State :=
  let s := updOwn (fun o => { o with cache := o.cache.filter fun c => tongsBlockAt (4096 * c.page) != some k }) s
  let s := s |> fput (F.OWN_BLK_k_STATE k) tgOwned |> fput (F.OWN_BLK_k_WORLD k) nw.toNat |> fput (F.OWN_BLK_k_INST k) ni
  markGone k (fun e q s => if ftst (F.ENG_THR_CFG_t_WORLD e.1 (fget (F.ENG_QSLOT_q_THREAD e.1 q) s)) s == nw then 0 else 1) s

/-- TONGS_GRANT. -/
def execTongsGrant (w : Initiator) (k : Fin 32) (nw : Bool) (ni : Fin 32) (s : State) : Host.Outcome State Fault Refusal :=
  .next (regCmd w R.OWN_TONGS_CMD (hearthOnly w (tongsCmd k nw ni (· == tgGrantable) (tongsGrant k.1 nw ni.1))) s)

/-- Whether an initiator is the owner of a block. -/
def blockOwner (w : Initiator) (k : Nat) (s : State) : Bool :=
  initWorld w s == ftst (F.OWN_BLK_k_WORLD k) s && initInst w s == fget (F.OWN_BLK_k_INST k) s

/-- The effect of TONGS_REL (R480). -/
def tongsRel (w : Initiator) (k : Nat) (s : State) : State :=
  if k < 27 && blockOwner w k s && decide (tgState k s ≤ tgReleasing) then tongsReset k false s else bad (violateBy w R.OWN_TONGS_REL true 3 s)

/-- TONGS_REL. -/
def execTongsRel (w : Initiator) (k : Fin 32) (s : State) : Host.Outcome State Fault Refusal := .next (regCmd w R.OWN_TONGS_REL (tongsRel w k.1) s)

/-- TONGS_TIMEOUT. -/
def execTongsTimeout (k : Fin 27) (s : State) : Host.Outcome State Fault Refusal :=
  .next (
    if tgState k.1 s ≠ tgReleasing ∨ s.own.tongsDue[k.1] = 0 then s
    else
      let s := elapseTo s.own.tongsDue[k.1] s
      let s := raise F.OWN_EVENT 6 (updOwn (fun o => { o with tongsDue := upd o.tongsDue k fun _ => 0 }) s)
      whenB (ftst F.OWN_TONGS_CFG_AUTO_FORCE s) (tongsReset k.1 true) s)

/-- TONGS_DONE. -/
def execTongsDone (k : Fin 27) (s : State) : Host.Outcome State Fault Refusal := .next (if tgState k.1 s = tgReset then tongsDone k.1 s else s)

/-! ### The life cycle (R483) -/

/-- The changes that R483 allows: 0 BLANK, 1 DEVELOP, 2 PRODUCTION, 3 RETURNED. -/
def lcAllowed (old new : Nat) : Bool := (old == 0 && (new == 1 || new == 2)) || (old == 2 && new == 3)

/-- The effect of LC_CMD: the fuses are blown at once, and act at the next power-on. -/
def lcCmd (target : Nat) (code : BitVec 16) (s : State) : State :=
  if code == 0x4C43 && lcAllowed s.own.lcPending target && fuseSupply s then
    fput F.OWN_LC_STAT_RESULT Status.done.code (updOwn (fun o => { o with lcPending := target }) s)
  else fput F.OWN_LC_STAT_RESULT Status.failedRefused.code s

/-- LC_CMD. -/
def execLcCmd (w : Initiator) (target : Fin 4) (code : BitVec 16) (s : State) : Host.Outcome State Fault Refusal :=
  .next (regCmd w R.OWN_LC_CMD (hearthOnly w (lcCmd target.1 code)) s)

/-! ### The Hearth watchdog (R485-R487, R580) -/

/-- Whether a job is one of HC's. -/
def isHcJob : CrySub → Bool
  | .host hc => hc
  | _ => false

/-- Hearth restarts alone (R486, R509). -/
def hearthRestart (s : State) : State :=
  let s := s |> fput F.OWN_HWDT_STAT_IN_RESTART 1 |> fput F.OWN_HWDT_STAT_SERVICE_UP 0 |> raise F.OWN_EVENT 7 |> fput F.SYSCTL_RESET_CAUSE_HEARTH 1
    |> fput F.OWN_HWDT_STAT_RESTARTS (min 255 (fget F.OWN_HWDT_STAT_RESTARTS s + 1))
  let s := updOwn (fun o => { o with firstExpiry := some s.now, kickDue := s.now + 100000000 }) s
  let s := forFin 8 (fun h s => if s.harts[h.1].world then anvilReturn h (some (-16)) s else s) s
  expireKeys (migAbort .abortedReset <| cryDrop isHcJob .abortedReset (icTargetLost 12 (updCwy (fun c => { c with hcBoot := true }) s)))

/-- An expiry of the Hearth watchdog, or what counts as one: a second within 10 s resets the chip (R487, R580). -/
def hearthExpiry (detail : Nat) (s : State) : State :=
  match s.own.firstExpiry with
  | some t => if s.now ≤ t + 10000000000 then chipReset kindHearth detail s else hearthRestart s
  | none => hearthRestart s

/-- The effect of HWDT_KICK (R485); during a restart the watchdog times the restart. -/
def hwdtKick (w : Initiator) (v : Word) (s : State) : State :=
  if w == .hc && v == 0xC35A then
    if ftst F.OWN_HWDT_STAT_IN_RESTART s then s
    else updOwn (fun o => { o with kickDue := s.now + clampNat 10 1000 (fget F.OWN_HWDT_CFG_PERIOD_MS s) * 1000000 }) s
  else hearthExpiry 1 s

/-- HWDT_KICK. -/
def execHwdtKick (w : Initiator) (v : Word) (s : State) : Host.Outcome State Fault Refusal := .next (regCmd w R.OWN_HWDT_KICK (hwdtKick w v) s)

/-- HEARTH_RESTART: the watchdog's time has passed. -/
def execHearthRestart (s : State) : Host.Outcome State Fault Refusal :=
  .next (if s.own.kickDue = 0 then s else hearthExpiry 1 (elapseTo s.own.kickDue s))

/-- HC_LOCKSTEP (R580). -/
def execHcLockstep (s : State) : Host.Outcome State Fault Refusal := .next (hearthExpiry 4 s)

/-- MEAS as 64 bytes. -/
def measBytes (s : State) : List Byte := (List.range 16).flatMap fun k => leBytes 4 (rd (R.OWN_MEAS_k k) s).toNat

/-- Hearth's restart reaches the boot ROM's path 0.1 ms after its expiry (R486). -/
def hearthPath (s : State) : State :=
  match s.own.firstExpiry with
  | some t => elapseTo (t + 100000) s
  | none => s

/-- HEARTH_IMAGE_VERIFY (R486, R487): the image of the slot booted, on the way of a restart. -/
def execHearthImageVerify (s : State) : Host.Outcome State Fault Refusal :=
  .next (
    if !ftst F.OWN_HWDT_STAT_IN_RESTART s || !s.cwy.hcBoot then s
    else
      let s := hearthPath s
      let k := fget F.SYSCTL_BOOT_STATUS_SLOT s
      let img := hearthImage k s
      if !signatureOk k s then chipReset kindHearth 2 s
      else if sha512 img != measBytes s then chipReset kindHearth 3 s
      else updCwy (fun c => { c with hcBoot := false }) (mwrBytes (tcmBase 4) img s))

/-- The effect of SERVICE_UP (R486). -/
def serviceUp (s : State) : State :=
  let s := whenB (ftst F.OWN_HWDT_STAT_IN_RESTART s)
    (fun s => updOwn (fun o => { o with kickDue := s.now + clampNat 10 1000 (fget F.OWN_HWDT_CFG_PERIOD_MS s) * 1000000 }) s) s
  s |> fput F.OWN_HWDT_STAT_IN_RESTART 0 |> fput F.OWN_HWDT_STAT_SERVICE_UP 1

/-- SERVICE_UP. -/
def execServiceUp (w : Initiator) (s : State) : Host.Outcome State Fault Refusal := .next (regCmd w R.OWN_HWDT_STAT (hearthOnly w serviceUp) s)

/-! ### Violations and counters (R467, R489) -/

/-- VIOL_INFO of a record. -/
def violInfo (v : Violation) : Nat :=
  v.addr / 2 ^ 32 % 256 + v.init % 256 * 2 ^ 8 + v.world.toNat * 2 ^ 16 + v.inst % 32 * 2 ^ 17 + v.write.toNat * 2 ^ 22 + v.cause % 8 * 2 ^ 24

/-- What a read of VIOL_POP does (R467). -/
def violPop (w : Initiator) (s : State) : State :=
  match s.own.viol with
  | [] => answer .done 0xFFFFFFFF s
  | v :: rest =>
    answer .done v.addr (updOwn (fun o =>
      { o with
        viol := rest
        undo := undoFor w v
        violShadow := sput (fun _ => 0) (initIdx w) (violInfo v) o.violShadow }) s)

/-- VIOL_POP. -/
def execViolPop (w : Initiator) (s : State) : Host.Outcome State Fault Refusal :=
  .next (regRead w R.OWN_VIOL_POP (violPop w) s)

/-- The counters of OWN (R489). -/
def ownCounters : List Nat := [R.OWN_VIOL_CNT, R.OWN_WORLD_GATE_CNT, R.OWN_TONGS_BLOCKED_CNT, R.OWN_CACHE_MISS_CNT]

/-- OWN_CNT_CLR. -/
def execOwnCntClr (w : Initiator) (s : State) : Host.Outcome State Fault Refusal :=
  .next (regCmd w R.OWN_CNT_CLR (hearthOnly w (clearRegs ownCounters)) s)

end Sys2Proof.Machine
end

