-- ==== Sys2Proof/Machine/Supply.lean ====
section
/-!
DEFINITION. Supply and time limits (chapter 17): Bellows with its stages, the core junction, the chip watchdog, the heartbeat channels and the self-test windows.
-/
namespace Sys2Proof.Machine

/-- Changes Bellows, the watchdogs and the self-test windows. -/
def updBlw (f : BlwSt → BlwSt) (s : State) : State := { s with blw := f s.blw }

/-- Sets a bit of BLW.EVENT: 0 STAGE_CHANGE, 1 PARK_PEND, 4 THERM_WARN, 5 THERM_LIMIT, 6 CRASH_MISSED. -/
def blwEvent (n : Nat) (s : State) : State := raise F.BLW_EVENT n s

/-! ### The actions of the stages (R564-R566) -/

/-- The harts that a stage parks. -/
def stageHarts (k : Nat) : List (Fin 8) := (List.finRange 8).filter fun h => parksHart k h && !parksHart (k - 1) h

/-- PARK_PEND is raised for harts; a hart is parked PARK_MS later. -/
def parkHarts (l : List (Fin 8)) (s : State) : State :=
  let due := s.now + clampNat 0 20 (fget F.BLW_PARK_MS s) * 1000000
  blwEvent 1 (l.foldl (fun s h => updHart h (fun x => { x with parkDue := if x.parked then none else some due }) s) s)

/-- Harts go on at their next instruction. -/
def unparkHarts (l : List (Fin 8)) (s : State) : State := l.foldl (fun s h => updHart h (fun x => { x with parkDue := none, parked := false }) s) s

/-- Segments marked in NONESS that are awake pass to SLEEP_ENTRY at once; their pending items end (R344). -/
def forceSegments (s : State) : State :=
  forFin 35 (fun g s =>
    let st := segState g s
    if blwAsleep g s && (st == segAwake || st == segPrepare || st == segWaking) then
      updBlw (fun b => { b with forced := b.forced ++ [g] }) (sleepAction g (endPending g (setSeg g segSleepEntry s)))
    else s) s

/-- Forced segments pass to WAKING. -/
def freeSegments (s : State) : State :=
  let l := s.blw.forced
  l.foldl (fun s g => if segState g s = segSleepEntry ∨ segState g s = segSleep then wakeOne g wakeCtrl s else s) (updBlw (fun b => { b with forced := [] }) s)

/-- Bellows stops islands that run; a vote does not hold it (R566). -/
def blwStop (l : List (Fin 21)) (s : State) : State :=
  l.foldl (fun s i => if islOpen i s then updIsl i (fun x => { x with blw := true }) (stopIsland i s) else s) s

/-- Bellows starts the islands that it stopped. -/
def blwStart (l : List (Fin 21)) (s : State) : State :=
  l.foldl (fun s i =>
    let x := s.isl[i.1]
    if !x.blw then s
    else match x.st with
      | .stopped => startIsland i s
      | .draining => if x.resetRec then s else updIsl i (fun x => { x with blw := false }) (islandUp i s)
      | _ => updIsl i (fun x => { x with blw := false }) s) s

/-- The threads of an engine that stage 4 stops. -/
def stopEngine (e : Fin 24) (s : State) : State := forFin 4 (fun t s => if blwStops e t s then blwStopThr e t s else s) s

/-- Stage 4 stops the threads of C1-C3; those of the engine that serves source 444 when the stage's seal has been produced, or after 50 ms (R564). -/
def stopThreads (s : State) : State :=
  let s := updBlw (fun b => { b with logStop := if (sealEngine s).isSome then some (s.now + 50000000) else none }) s
  forFin 24 stopEngine s

/-- Threads that Bellows stopped start at their entries, in index order (R565). -/
def startThreads (s : State) : State :=
  let l := s.blw.stopped
  let s := updBlw (fun b => { b with stopped := [], logStop := none }) s
  forFin 96 (fun k s => if l.contains k then thrStart (Fin.ofNat 24 (k.1 / 4)) (Fin.ofNat 4 k.1) s else s) s

/-- The core-die actions of a stage, in the order of R564. -/
def enterStage (k : Nat) (s : State) : State :=
  match k with
  | 2 => parkHarts (stageHarts 2) (forceSegments s)
  | 3 => parkHarts (stageHarts 3) (updBlw (fun b => { b with shut := [], shutDue := s.now + 10000000 }) (blwStop [islCAM0, islCAM1] s))
  | 4 => blwStop [islSW0, islSW1, islSWP] (stopThreads (crashTrigger 12 (parkHarts (stageHarts 4) s)))
  | _ => s

/-- The actions of a stage are reversed, in reverse order (R565). -/
def leaveStage (k : Nat) (s : State) : State :=
  match k with
  | 2 => freeSegments (unparkHarts (stageHarts 2) s)
  | 3 => blwStart [islCAM1, islCAM0] (updBlw (fun b => { b with shut := [] }) (unparkHarts (stageHarts 3) s))
  | 4 => unparkHarts (stageHarts 4) (startThreads (blwStart [islSWP, islSW1, islSW0] s))
  | _ => s

/-- Whether the Z480 is in STANDBY or DEEP. -/
def asleep (s : State) : Bool := fget F.HERON_STATUS_STATE s == 2 || fget F.HERON_STATUS_STATE s == 3

/-- The actions on the entry to a stage; in STANDBY and DEEP islands take them as they start, and no crash image is made (R569). -/
def stageUp (k : Nat) (s : State) : State :=
  if asleep s then (if k = 4 then blwEvent 6 (bump R.BLW_CRASH_MISSED s) else s) else enterStage k s

/-- Islands that Bellows stopped are its no longer. -/
def blwForget (l : List (Fin 21)) (s : State) : State := l.foldl (fun s i => updIsl i (fun x => { x with blw := false }) s) s

/-- The actions on the release of a stage; in STANDBY and DEEP what they would start waits for the wake (R456, R569). -/
def stageDown (k : Nat) (s : State) : State :=
  if !asleep s then leaveStage k s
  else
    let s := unparkHarts (stageHarts k) s
    match k with
    | 3 => blwForget [islCAM1, islCAM0] (updBlw (fun b => { b with shut := [] }) s)
    | 4 => blwForget [islSWP, islSW1, islSW0] s
    | _ => s

/-- What a release during sleep has left to do at the wake. -/
def stageResume (s : State) : State :=
  let st := fget F.BLW_STATUS_STAGE s
  let s := if st < 4 && !s.blw.stopped.isEmpty then startThreads s else s
  if st < 2 then freeSegments s else s

/-- The applied stage changes (R562, R565): entries in stage order, releases in reverse; the power die follows while it is CONTROLLED (R382). -/
def changeStage (new : Nat) (s : State) : State :=
  let old := fget F.BLW_STATUS_STAGE s
  if new = old then s
  else
    let s := logFault 0x32 0 0x03 0 new (fput F.BLW_STATUS_STAGE new s)
    let s := if old < new then forN (new - old) (fun i s => stageUp (old + 1 + i) s) s else forN (old - new) (fun i s => stageDown (old - i) s) s
    blwEvent 0 (if cstate s == csControlled then applyStage new s else s)

/-- One sample towards the entry to a stage and towards its release: every sample of 10 ms, which is 101 of them. -/
def blwCount (mv : Nat) (k : Fin 4) (s : State) : State :=
  let th := fget (F.BLW_TH_k k.1) s
  let low := if mv < th then min 101 (s.blw.low[k.1] + 1) else 0
  let high := if th + 300 ≤ mv then min 101 (s.blw.high[k.1] + 1) else 0
  let was := s.blw.entered[k.1]
  let is := if low = 101 then true else if high = 101 then false else was
  let s := updBlw (fun b =>
    { b with
      low := b.low.set k.1 low k.2
      high := b.high.set k.1 high k.2
      entered := b.entered.set k.1 is k.2 }) s
  if is && !was then bump (R.BLW_STAGE_CNT_k k.1) s else s

/-- The highest stage that is entered. -/
def blwStage (s : State) : Nat := (List.range 4).foldl (fun m k => if s.blw.entered[k]?.getD false then k + 1 else m) 0

/-! ### Heartbeat channels (R578) -/

/-- The island that a channel names. -/
def hbIsland (c : Fin 16) (s : State) : Option (Fin 21) :=
  let p := fget (F.WDOG_HB_CFG_c_PRIMARY c.1) s
  if h : p < 21 then some ⟨p, h⟩ else none

/-- Whether a Bellows action stops or parks a part of an island. -/
def blwHolds (i : Fin 21) (s : State) : Bool :=
  (s.isl[i.1].blw && !s.blw.thermal.contains i) || (clusterHarts i).any (fun h => s.harts[h.1].parked)
    || s.blw.stopped.any fun k => engIsl (Fin.ofNat 24 (k.1 / 4)) == i

/-- Whether a channel is suspended. -/
def hbSuspended (c : Fin 16) (s : State) : Bool :=
  ftst (F.WDOG_HB_CFG_c_EN c.1) s && (match hbIsland c s with | some i => blwHolds i s | none => false)

/-- A channel's timer starts. -/
def hbStart (c : Fin 16) (s : State) : State := updBlw (fun b => { b with hbKick := upd b.hbKick c fun _ => s.now }) s

/-- An effect that may release an action of Bellows: the timers of the channels that were suspended start again. -/
def withHeartbeats (f : State → State) (s : State) : State :=
  let s' := f s
  forFin 16 (fun c t => if hbSuspended c s && !hbSuspended c s' then hbStart c t else t) s'

/-- A kick; a disabled channel takes none. -/
def hbKick (c : Fin 16) (s : State) : State :=
  if !ftst (F.WDOG_HB_CFG_c_EN c.1) s then s else fput (F.WDOG_HB_STAT_c_STATE c.1) 1 (hbStart c s)

/-- HB_KICK. -/
def execHbKick (w : Initiator) (c : Fin 16) (s : State) : Host.Outcome State Fault Refusal := .next (regCmd w (R.WDOG_HB_KICK_c c.1) (hbKick c) s)

/-- A channel passes to LOST. -/
def hbLose (c : Fin 16) (s : State) : State :=
  s |> fput (F.WDOG_HB_STAT_c_STATE c.1) 2 |> fput (F.WDOG_HB_STAT_c_LOST c.1) 1 |> bump (R.WDOG_HB_LOST_CNT_c c.1)

/-- HEARTBEAT_LOST: its primary island has left service, or TIMEOUT_US has passed. -/
def execHeartbeatLost (c : Fin 16) (s : State) : Host.Outcome State Fault Refusal :=
  .next (
    if !ftst (F.WDOG_HB_CFG_c_EN c.1) s || hbSuspended c s || fget (F.WDOG_HB_STAT_c_STATE c.1) s != 1 then s
    else
      let gone := match hbIsland c s with
        | some i => (match islSt i s with
          | .reset | .draining | .stopped | .off => true
          | _ => false)
        | none => false
      let due := s.blw.hbKick[c.1] + clampNat 50 10000 (fget (F.WDOG_HB_CFG_c_TIMEOUT_US c.1) s) * 1000
      hbLose c (if gone then s else elapseTo due s))

/-! ### Bellows' events -/

/-- VBAT_SAMPLE (R562). -/
def execVbatSample (mv : Nat) (s : State) : Host.Outcome State Fault Refusal :=
  .next (withHeartbeats (fun s =>
    let s := forFin 4 (blwCount mv) (fput F.BLW_VBAT_MV (min 0xFFFF mv) s)
    changeStage (blwStage s) s) s)

/-- HART_PARK (R566): a hart in world 1, or in a self-test window, is parked when it leaves that state. -/
def execHartPark (h : Fin 8) (s : State) : Host.Outcome State Fault Refusal :=
  .next (
    match s.harts[h.1].parkDue with
    | none => s
    | some t =>
      if s.harts[h.1].world || (ftst F.SYSCTL_BIST_STAT_BUSY s && fget F.SYSCTL_BIST_STAT_HART s == h.1) then s
      else updHart h (fun x => { x with parkDue := none, parked := true }) (elapseTo t s))

/-- STAGE4_SEAL_STOP (R564): the stage-4 seal has been produced, or 50 ms have passed. -/
def execStage4SealStop (s : State) : Host.Outcome State Fault Refusal :=
  .next (
    match s.blw.logStop with
    | none => s
    | some t =>
      let s := if ctlDue s = 0 then s else elapseTo t s
      match sealEngine s with
      | some e => stopEngine (Fin.ofNat 24 e) (updBlw (fun b => { b with logStop := none }) s)
      | none => updBlw (fun b => { b with logStop := none }) s)

/-- A tamper source alarms (R554-R556): Quench, and a wake of a Z480 that sleeps is the row HERON_WAKE. -/
def tamperAlarm (src : Fin 7) (s : State) : State :=
  if !tamperWatched src s || s.key.alarms.contains src.1 then s
  else quench src (fput F.TAMP_STATUS_ACTIVE 1 (updKey (fun k => { k with alarms := k.alarms ++ [src.1] }) s))

/-- The thermal limit is in force: the islands of R570 that run are clocked down. -/
def thermalOn (s : State) : State :=
  let s := blwEvent 5 (updBlw (fun b => { b with thermOn := true }) s)
  thermalIsls.foldl (fun s i =>
    if islSt i s = .run then updBlw (fun b => { b with thermal := b.thermal ++ [i] }) (updIsl i (fun x => { x with st := .slow, div := 0, blw := true }) s) else s) s

/-- The thermal limit ends. -/
def thermalOff (s : State) : State :=
  let l := s.blw.thermal
  l.foldl (fun s i => if islSt i s = .slow then updIsl i (fun x => { x with st := .run, div := 0, blw := false }) s else updIsl i (fun x => { x with blw := false }) s)
    (updBlw (fun b => { b with thermOn := false, thermal := [] }) s)

/-- CORE_TJ_READ (R570). -/
def execCoreTjRead (deg : Int) (s : State) : Host.Outcome State Fault Refusal :=
  .next (
    let s := fputSat F.BLW_TJ_DEG deg s
    let s := whenB (decide ((clampNat 100 150 (fget F.BLW_TJ_TJ_WARN s) : Int) ≤ deg)) (blwEvent 4) s
    let s := if !s.blw.thermOn && decide (150 ≤ deg) then thermalOn s else if s.blw.thermOn && decide (deg < 145) then thermalOff s else s
    whenB (decide (165 < deg)) (tamperAlarm 3) s)

/-- The counters of BLW (R589). -/
def blwCounters : List Nat := [R.BLW_STAGE_CNT_k 0, R.BLW_STAGE_CNT_k 1, R.BLW_STAGE_CNT_k 2, R.BLW_STAGE_CNT_k 3, R.BLW_CRASH_MISSED]

/-- BLW_CNT_CLR. -/
def execBlwCntClr (w : Initiator) (s : State) : Host.Outcome State Fault Refusal :=
  .next (regCmd w R.BLW_CNT_CLR (clearRegs blwCounters) s)

/-! ### The chip watchdog (R577) -/

/-- Whether the watchdog runs. -/
def wdRunning (s : State) : Bool := s.blw.wdOn && !ftst F.WDOG_WD_CFG_DIS s

/-- The period, in ns. -/
def wdPeriod (s : State) : Nat := clampNat 10 10000 (fget F.WDOG_WD_CFG_PERIOD_MS s) * 1000000

/-- The expiry. -/
def wdExpire (s : State) : State := chipReset kindWdog 0 s

/-- A write of WD_KICK; a first word that is repeated begins the kick anew. -/
def wdKick (v : Word) (s : State) : State :=
  if !wdRunning s then s
  else if v = 0x7A3E then updBlw (fun b => { b with wdFirst := some s.now }) s
  else match s.blw.wdFirst with
    | none => wdExpire s
    | some t =>
      if v ≠ 0x85C1 ∨ t + 100000 < s.now ∨ (s.now - s.blw.wdStart) * 4 < fget F.WDOG_WD_CFG_WINDOW s * wdPeriod s then wdExpire s
      else updBlw (fun b => { b with wdFirst := none, wdStart := s.now }) s

/-- WD_KICK. -/
def execWdKick (w : Initiator) (v : Word) (s : State) : Host.Outcome State Fault Refusal := .next (regCmd w R.WDOG_WD_KICK (wdKick v) s)

/-- WD_WARN. -/
def execWdWarn (s : State) : Host.Outcome State Fault Refusal :=
  .next (if wdRunning s then fput F.WDOG_WD_STAT_WARN 1 (elapseTo (s.blw.wdStart + wdPeriod s * 3 / 4) s) else s)

/-- CHIP_WDOG. -/
def execChipWdog (s : State) : Host.Outcome State Fault Refusal :=
  .next (if wdRunning s then wdExpire (elapseTo (s.blw.wdStart + wdPeriod s) s) else s)

/-- WD_CFG_LOCK. -/
def execWdCfgLock (w : Initiator) (s : State) : Host.Outcome State Fault Refusal := .next (regCmd w R.WDOG_WD_CFG (fput F.WDOG_WD_CFG_LOCK 1) s)

/-! ### Self-test windows (R586, R587) -/

/-- A write of BIST_REQ. -/
def bistReq (h : Fin 8) (go : Bool) (s : State) : State :=
  let s := fput F.SYSCTL_BIST_REQ_HART h.1 s
  if !go then s
  else if ftst F.SYSCTL_BIST_STAT_PENDING s || ftst F.SYSCTL_BIST_STAT_BUSY s then fput F.SYSCTL_BIST_STAT_STATUS Status.failedRefused.code s
  else
    s |> fput F.SYSCTL_BIST_STAT_PENDING 1 |> fput F.SYSCTL_BIST_STAT_HART h.1 |> raise F.SYSCTL_EVENT 3 |> updBlw (fun b => { b with bistAsk := s.now })

/-- BIST_REQ. -/
def execBistReq (w : Initiator) (h : Fin 8) (go : Bool) (s : State) : Host.Outcome State Fault Refusal := .next (regCmd w R.SYSCTL_BIST_REQ (bistReq h go) s)

/-- Whether the pending request is for a hart. -/
def bistPending (h : Fin 8) (s : State) : Bool := ftst F.SYSCTL_BIST_STAT_PENDING s && fget F.SYSCTL_BIST_STAT_HART s == h.1

/-- The effect of GRANT: the hart's caches are written back and the test holds it; a hart that is parked or in world 1 is not granted. -/
def bistGrant (h : Fin 8) (s : State) : State :=
  let s := fput F.SYSCTL_BIST_GRANT_HART h.1 s
  let x := s.harts[h.1]
  if x.parked || x.world then s
  else
    let s := setResv h none (updHart h (fun x => { Hart.init with bistHeld := true, parkDue := x.parkDue }) s)
    s |> fput F.SYSCTL_BIST_STAT_PENDING 0 |> fput F.SYSCTL_BIST_STAT_BUSY 1 |> updBlw (fun b => { b with bistEnd := s.now + 2000000 })

/-- A write of BIST_GRANT.GRANT. -/
def grantBist (h : Fin 8) (s : State) : State := if bistPending h s then bistGrant h s else bad s

/-- BIST_GRANT. -/
def execBistGrant (w : Initiator) (h : Fin 8) (s : State) : Host.Outcome State Fault Refusal :=
  .next (regCmd w R.SYSCTL_BIST_GRANT (grantBist h) s)

/-- A request ends DEFERRED. -/
def bistDefer (s : State) : State := s |> fput F.SYSCTL_BIST_STAT_PENDING 0 |> fput F.SYSCTL_BIST_STAT_STATUS Status.deferred.code

/-- A write of BIST_GRANT.DENY. -/
def denyBist (h : Fin 8) (s : State) : State := if bistPending h s then bistDefer (fput F.SYSCTL_BIST_GRANT_HART h.1 s) else bad s

/-- BIST_DENY. -/
def execBistDeny (w : Initiator) (h : Fin 8) (s : State) : Host.Outcome State Fault Refusal := .next (regCmd w R.SYSCTL_BIST_GRANT (denyBist h) s)

/-- BIST_GRANT_TIMEOUT: 100 ms after GO. -/
def execBistGrantTimeout (s : State) : Host.Outcome State Fault Refusal :=
  .next (if ftst F.SYSCTL_BIST_STAT_PENDING s then bistDefer (elapseTo (s.blw.bistAsk + 100000000) s) else s)

/-- BIST_WINDOW_END: 2 ms after the grant. The hypervisor's start of a hart that passed is the hart's own next command (assumption 31). -/
def execBistWindowEnd (pass : Bool) (s : State) : Host.Outcome State Fault Refusal :=
  .next (
    if !ftst F.SYSCTL_BIST_STAT_BUSY s then s
    else
      let h : Fin 8 := Fin.ofNat 8 (fget F.SYSCTL_BIST_STAT_HART s)
      let s := updHart h (fun x => { x with bistHeld := !pass, bistFailed := !pass }) (elapseTo s.blw.bistEnd s)
      s |> fput F.SYSCTL_BIST_STAT_BUSY 0 |> fput F.SYSCTL_BIST_STAT_STATUS Status.done.code |> fput F.SYSCTL_BIST_STAT_PASS pass.toNat |> raise F.SYSCTL_EVENT 4
        |> whenB (!pass) (raise F.SYSCTL_EVENT 5))

/-- The counters of SYSCTL (R591). -/
def sysctlCounters : List Nat := [R.SYSCTL_DISCARD_CNT, R.SYSCTL_ISL_RST_CNT]

/-- SYSCTL_CNT_CLR. -/
def execSysctlCntClr (w : Initiator) (s : State) : Host.Outcome State Fault Refusal :=
  .next (regCmd w R.SYSCTL_CNT_CLR (clearRegs sysctlCounters) s)

end Sys2Proof.Machine
end

