-- ==== Sys2Proof/Machine/TimeStep.lean ====
section
/-!
DEFINITION. The instants at which VT moves: steps and SETs (R67, R69), with what every schedule in VT does then.
-/
namespace Sys2Proof.Machine

/-- What the schedules in VT do when VT has moved by `d` ns: triggers (R111), gate lists (R227), time-triggered CAN sets, launch instants (R202), time alarms (R161), aligned PWM (R365). -/
def vtMoved (d : Int) (s : State) : State := s |> skipTriggers |> gatesAfterStep |> ttAfterStep |> launchDue |> alarmsDue |> realignPwm d

/-- STEP_INSTANT: VT becomes VT − θ on both islands; the epoch, the state, STEP_LAST, the record, the triggers (R63, R67, R68, R111). -/
def execStepInstant (s : State) : Host.Outcome State Fault Refusal :=
  .next (
    match s.time.stepAt with
    | none => s
    | some v =>
      let s := elapseVt (v * nsUnit) s
      let theta := s.time.stepVal
      let s := moveVt ((vt s : Int) - theta * nsUnit).toNat s
      let s := dropStep s
      let s := fputSat F.TIME_STEP_LAST_NS (-theta) s
      let s := updTime (fun t => { t with
          src := t.stepSrc
          fromUnsync := false
          persistFirst := none
          persistCnt := 0
          lockFirst := true }) s
      vtMoved (-theta) (logTime 1 (-theta) (enterState stLocking s)))

/-- SET_APPLY: at the next compare boundary VT takes the latched value (R69, R111). -/
def execSetApply (s : State) : Host.Outcome State Fault Refusal :=
  .next (
    match s.time.setPend with
    | none => s
    | some v =>
      let s := elapseTo ((s.now / 1000 + 1) * 1000) s
      let old := vtNs s
      let s := moveVt (v * nsUnit) (updTime (fun t => { t with setPend := none }) s)
      vtMoved ((v : Int) - old) (logTime 2 ((v : Int) - old) s))

end Sys2Proof.Machine
end

