-- ==== Sys2Proof/Machine/Heron.lean ====
section
/-!
DEFINITION. Heron (R452-R460): sleep entry, wakes and the wake order; the wake polls of the power die (R393); tamper alarms (R555).
-/
namespace Sys2Proof.Machine

/-- Changes Heron. -/
def updHeron (f : HeronSt → HeronSt) (s : State) : State := { s with heron := f s.heron }

def hAwake : Nat := 0
def hEntering : Nat := 1
def hStandby : Nat := 2
def hDeep : Nat := 3
def hWaking : Nat := 4

/-- HERON.STATUS.STATE. -/
def heronState (s : State) : Nat := fget F.HERON_STATUS_STATE s

/-- Gives Heron a state. -/
def setHeron (st : Nat) (s : State) : State := fput F.HERON_STATUS_STATE st s

/-! ### The request (R454) -/

/-- The source that a watch entry watches. -/
def watched (k : Nat) (s : State) : Option Nat := if ftst (F.HERON_WATCH_k_EN k) s then some (fget (F.HERON_WATCH_k_SRC k) s) else none

/-- Whether a latch of Heron's is set. -/
def anyLatched (s : State) : Bool :=
  ((List.range 3).any fun k => rd (R.HERON_WAKE_LATCH_k k) s != 0) || (List.range 2).any fun k => rd (R.HERON_WATCH_LATCH_k k) s != 0

/-- Whether Heron refuses to sleep. -/
def sleepRefused (s : State) : Bool :=
  heronState s != hAwake || anyLatched s || rd R.OWN_KEEPALIVE s != 0
    || ((List.finRange 35).any fun g => let st := segState g s; st != segDisabled && st != segSleep && st != segIsolated)
    || (List.range 64).any fun k => (watched k s).any fun i => requesting i s

/-- The islands that each step of the entry stops (R455): the groups, cameras, clusters, pairs and the switch; the time islands; HC; CWY; MEM. -/
def sleepGroup (step : Nat) : List (Fin 21) :=
  match step with
  | 1 => [islG 0, islG 1, islG 2, islG 3, islCAM0, islCAM1, islCLA, islCLB, islL 0, islL 1, islL 2, islL 3, islSW0, islSW1, islSWP]
  | 2 => [islTA, islTB]
  | 3 => [islHC]
  | 4 => [islCWY]
  | 5 => [islMEM]
  | _ => []

/-- The entry stops an island that runs. -/
def sleepStop (i : Fin 21) (s : State) : State :=
  if islOpen i s then updHeron (fun h => { h with stopped := h.stopped.filter (fun j => j != i) ++ [i] }) (stopIsland i s) else s

/-- A step of the entry begins; step 2 records VT and the RTC count. -/
def sleepBegin (step : Nat) (s : State) : State :=
  let s := updHeron (fun h => { h with step := step, rec_ := if step = 2 then some (vt s, s.now) else h.rec_ }) s
  (sleepGroup step).foldl (fun s i => sleepStop i s) s

/-- A write of SLEEP_CMD (R454, R462). -/
def sleepCmd (level : Nat) (s : State) : State :=
  if level ≠ 1 ∧ level ≠ 2 then s
  else if sleepRefused s then bad (raise F.HERON_EVENT 1 s)
  else
    let s := s |> setHeron hEntering |> fput F.HERON_WAKE_SRC_INPUT 0xFF |> fput F.HERON_WAKE_SRC_WATCH 0xFF |> fput F.HERON_WAKE_SRC_TAMPER 0
    sleepBegin 1 (updHeron (fun h => { HeronSt.init with deep := level == 2, rtcBase := h.rtcBase }) s)

/-- SLEEP_STANDBY. -/
def execSleepStandby (w : Initiator) (s : State) : Host.Outcome State Fault Refusal := .next (regCmd w R.HERON_SLEEP_CMD (sleepCmd 1) s)

/-- SLEEP_DEEP. -/
def execSleepDeep (w : Initiator) (s : State) : Host.Outcome State Fault Refusal := .next (regCmd w R.HERON_SLEEP_CMD (sleepCmd 2) s)

/-! ### The entry (R455) -/

/-- Whether an island is still on its way to a stop. -/
def stopping (i : Fin 21) (s : State) : Bool :=
  match islSt i s with
  | .draining | .starting => true
  | .reset => !s.isl[i.1].holdRec
  | _ => false

/-- The lanes to the power die fall silent (R387). -/
def lanesSilent (s : State) : State :=
  updPd (fun p => { p with silent := s.now }) (s |> fput F.LOADCH_STATUS_LANE_A 0 |> fput F.LOADCH_STATUS_LANE_B 0)

/-- The regulators are off (R454): the core die is unpowered, and the wake inputs are polled from the states that they have now (R393). -/
def enterDeep (s : State) : State :=
  let s := s |> lower F.BLW_RAIL 0 |> lower F.BLW_RAIL 1 |> lower F.BLW_RAIL 3
  let s := { s with railA := false, railB := false, time := restartTime 0 s }
  let s := forFin 21 (fun i s => if i = islPEAT then s else updIsl i (fun _ => { Island.init with st := .off }) s) s
  let di := BitVec.ofNat 48 ((rd (R.FIO_DI_STATE_k 0) s).toNat + 2 ^ 32 * (rd (R.FIO_DI_STATE_k 1) s).toNat)
  setHeron hDeep (updFio (fun x => { x with pollBase := di, pollLast := di }) s)

/-- MEM has stopped: the Z480 sleeps, and the chip watchdog stops (R577). -/
def fallAsleep (s : State) : State :=
  let s := updBlw (fun b => { b with wdOn := false, wdFirst := none }) (setHeron hStandby s)
  if s.heron.deep then enterDeep s else s

/-- SLEEP_ENTRY_STEP: the islands of the step under way have stopped. An island that has come to run again is stopped first. -/
def execSleepEntryStep (s : State) : Host.Outcome State Fault Refusal :=
  .next (
    let k := s.heron.step
    if heronState s ≠ hEntering ∨ (sleepGroup k).any (fun i => stopping i s) = true then s
    else if (sleepGroup k).any fun i => islOpen i s then (sleepGroup k).foldl (fun s i => sleepStop i s) s
    else
      let s := if k = 4 then lanesSilent s else s
      if k = 5 then fallAsleep s else sleepBegin (k + 1) s)

/-! ### Wakes (R452-R458) -/

/-- The time islands start from the recorded VT plus the RTC time since (R458). -/
def wakeTime (s : State) : State :=
  match sleptVt s with
  | none => s
  | some v =>
    let d : Int := (v / nsUnit : Nat) - (vtNs s : Int)
    let up (t : TimeIsl) : TimeIsl := { t with vt := v, learnF := s.time.peatF, learnC := s.time.peatC }
    let s := updTime (fun t => { t with ta := up t.ta, tb := up t.tb, persistFirst := none, persistCnt := 0, fromUnsync := false, setPend := none, skipCompare := true }) s
    vtMoved d (fput F.TIME_EPOCH_COUNT (epoch s + 1) (enterState stUnsync (putStepPend 0 (dropStep s))))

/-- An island is started again: one that drains returns to RUN. -/
def wakeIsl (i : Fin 21) (s : State) : State :=
  match islSt i s with
  | .stopped => startIsland i s
  | .draining => islandUp i s
  | _ => s

/-- The islands that Heron itself starts, in order (R456). -/
def wakeFirst : List (Fin 21) := [islMEM, islCWY, islHC, islTA, islTB]

/-- The island that an entry of the wake order starts, when it is in use. -/
def orderIsl (k : Nat) (s : State) : Option (Fin 21) :=
  let i := fget (F.HERON_ORDER_k_ISLAND k) s
  if h : 4 ≤ i ∧ i < 21 ∧ i ≠ 18 ∧ i ≠ 19 then if ftst (F.HERON_ORDER_k_EN k) s then some ⟨i, h.2.1⟩ else none else none

/-- The entries in use from an index on. -/
def orderFrom (n : Nat) (s : State) : List (Nat × Fin 21) :=
  (List.range 16).filterMap fun k => if k < n then none else (orderIsl k s).map fun i => (k, i)

/-- A wake of a Z480 that enters sleep: the islands that the entry has stopped start in the wake order. -/
def abortEntry (s : State) : State :=
  let l := s.heron.stopped
  let timed := [islTA, islTB].any fun i => l.contains i && islSt i s == .stopped
  let s := if timed then wakeTime s else s
  let order := wakeFirst ++ (orderFrom 0 s).map (·.2) ++ sleepGroup 1
  let s := order.foldl (fun s i => if l.contains i then wakeIsl i s else s) s
  s |> raise F.HERON_EVENT 2 |> setHeron hAwake |> updHeron fun h => { HeronSt.init with rtcBase := h.rtcBase }

/-- The next entry of the wake order starts its island; after the last the Z480 is awake. -/
def orderStep (s : State) : State :=
  match orderFrom s.heron.order s with
  | [] => setHeron hAwake s
  | (k, i) :: rest =>
    let s := if s.isl[i.1].blw then s else wakeIsl i s
    if rest.isEmpty then setHeron hAwake s
    else updHeron (fun h => { h with order := k + 1, due := s.now + fget (F.HERON_ORDER_k_DELAY_US k) s * 1000 }) s

/-- A wake from STANDBY (R456): MEM, CWY, HC, TA and TB start, then the order list; the chip watchdog's period starts (R577). -/
def wakeStandby (s : State) : State :=
  let s := wakeFirst.foldl (fun s i => wakeIsl i s) (wakeTime (setHeron hWaking s))
  let s := updBlw (fun b => { b with wdStart := s.now, wdOn := true, wdFirst := none }) s
  orderStep (stageResume (updHeron (fun h => { HeronSt.init with rtcBase := h.rtcBase }) s))

/-- A wake from DEEP (R457): the regulators are raised. -/
def wakeDeep (s : State) : State :=
  updHeron (fun h => { h with due := s.now + clampNat 1 100 (fget F.HERON_VREG_DELAY_MS s) * 1000000 }) (setHeron hWaking s)

/-- A wake acts by Heron's state; while it is waking nothing more happens. -/
def wakeUp (s : State) : State :=
  let st := heronState s
  if st = hEntering then abortEntry s
  else if st = hStandby then wakeStandby (raise F.HERON_EVENT 0 s)
  else if st = hDeep then wakeDeep (raise F.HERON_EVENT 0 s) else s

/-- Whether WAKE_SRC is still empty. -/
def firstWake (s : State) : Bool := fget F.HERON_WAKE_SRC_INPUT s == 0xFF && fget F.HERON_WAKE_SRC_WATCH s == 0xFF && !ftst F.HERON_WAKE_SRC_TAMPER s

/-- A wake, with the field of WAKE_SRC that the first one sets. -/
def wakeBy (f : Fld) (v : Nat) (s : State) : State := wakeUp (whenB (firstWake s) (fput f v) s)

/-- Sets bit `n` of a family of 32-bit latches. -/
def latchBit (f : Nat → Nat) (n : Nat) (s : State) : State := wr (f (n / 32)) (rd (f (n / 32)) s ||| BitVec.ofNat 32 (2 ^ (n % 32))) s

/-- A wake input acts while the Z480 is not awake and its WAKE_EN bit is set (R452). -/
def wakeInput (n : Nat) (s : State) : State :=
  if heronState s = hAwake ∨ (rd (R.HERON_WAKE_EN_k (n / 32)) s).getLsbD (n % 32) = false then s
  else wakeBy F.HERON_WAKE_SRC_INPUT n (latchBit R.HERON_WAKE_LATCH_k n s)

/-- The instant at which the RTC reaches its alarm (R462). -/
def alarmAt (s : State) : Nat :=
  s.heron.rtcBase + (((rd R.HERON_RTC_ALARM_LO s).toNat + 2 ^ 32 * (rd R.HERON_RTC_ALARM_HI s).toNat) * 1000000000 + 32767) / 32768

/-- HERON_WAKE: a wake input, or a tamper alarm, which needs no enable (R452). -/
def execHeronWake (by_ : WakeBy) (s : State) : Host.Outcome State Fault Refusal :=
  .next (
    match by_ with
    | .input n =>
      let en := (rd (R.HERON_WAKE_EN_k (n.1 / 32)) s).getLsbD (n.1 % 32)
      wakeInput n.1 (if n.1 = 84 ∧ en = true ∧ heronState s ≠ hAwake then elapseTo (alarmAt s) s else s)
    | .tamper => if heronState s = hAwake ∨ ftst F.TAMP_STATUS_TAMPER_LATCH s = false then s else wakeBy F.HERON_WAKE_SRC_TAMPER 1 s)

/-- Whether a source's block is powered in DEEP: the power die's summaries, tamper, and the peat-domain sources of R588 (R453). -/
def deepSource (i : Nat) : Bool :=
  (decide (280 ≤ i) && decide (i ≤ 285)) || i == 386 || (decide (448 ≤ i) && decide (i ≤ 450)) || (decide (455 ≤ i) && decide (i ≤ 471))

/-- WATCHED_SOURCE_WAKE (R453). -/
def execWatchedSourceWake (k : Fin 64) (s : State) : Host.Outcome State Fault Refusal :=
  .next (
    match watched k.1 s with
    | none => s
    | some i =>
      if heronState s = hAwake ∨ requesting i s = false ∨ (s.heron.deep = true ∧ hDeep ≤ heronState s ∧ deepSource i = false) then s
      else wakeBy F.HERON_WAKE_SRC_WATCH k.1 (latchBit R.HERON_WATCH_LATCH_k k.1 s))

/-- WAKE_ORDER_STEP (R456). -/
def execWakeOrderStep (s : State) : Host.Outcome State Fault Refusal :=
  .next (if heronState s = hWaking ∧ s.heron.deep = false then orderStep (elapseTo s.heron.due s) else s)

/-- VREG_DELAY_END (R457, R458): the core die starts by the power-on sequence; VT restarts, and EPOCH is incremented. -/
def execVregDelayEnd (s : State) : Host.Outcome State Fault Refusal :=
  .next (
    if heronState s = hWaking ∧ s.heron.deep = true then
      let s := elapseTo s.heron.due s
      let s := { s with time := restartTime ((sleptVt s).getD 0) s }
      chipReset kindDeepWake 0 (fput F.TIME_EPOCH_COUNT (epoch s + 1) s)
    else s)

/-! ### Wake polls (R393) and tamper -/

/-- One poll of a wake input: a change that two polls in a row show is confirmed, and one in the direction of WAKE_EDGE is a wake. -/
def diPollOne (levels : BitVec 48) (i : Fin 48) (s : State) : State :=
  if !ftst (F.FIO_DI_CFG_i_WAKE_EN i.1) s then s
  else
    let v := (levels.getLsbD i.1) != ftst (F.FIO_DI_CFG_i_INV i.1) s
    let bit := BitVec.ofNat 48 (2 ^ i.1)
    let put (x : BitVec 48) : BitVec 48 := if v then x ||| bit else x &&& ~~~bit
    let confirmed := s.fio.pollLast.getLsbD i.1 == v && s.fio.pollBase.getLsbD i.1 != v
    let s := updFio (fun x => { x with pollLast := put x.pollLast, pollBase := if confirmed then put x.pollBase else x.pollBase }) s
    let edge := fget (F.FIO_DI_CFG_i_WAKE_EDGE i.1) s
    if confirmed && (edge == 0 || edge.testBit (if v then 0 else 1)) then wakeInput i.1 s else s

/-- DI_POLL: in deep sleep, every POLL_MS, at the voltages of the inputs in mV (R393, R601). -/
def execDiPoll (mv : Vector Nat 48) (s : State) : Host.Outcome State Fault Refusal :=
  .next (if heronState s = hDeep then (let s := diCompare mv s; forFin 48 (diPollOne s.fio.closed) s) else s)

/-- TAMPER_ALARM (R555). -/
def execTamperAlarm (src : Fin 7) (s : State) : Host.Outcome State Fault Refusal := .next (tamperAlarm src s)

end Sys2Proof.Machine
end

