-- ==== Sys2Proof/Machine/SigCmd.lean ====
section
/-!
DEFINITION. The SIG unit's commands (chapter 08): the catalogue in and out of service, cache fills and definition commands; and the standby gPTP thread (R50).
-/
namespace Sys2Proof.Machine

/-! ### The catalogue in service (R303, R310, R311) -/

/-- EN changes to 1: the conversion table and the pins are to be loaded. -/
def sigEnable (s : State) : State :=
  fput F.SIG_STATUS_READY 0 (fput F.SIG_CTRL_EN 1 (updSig (fun g => { g with conv := [], cache := [], fills := [] }) s))

/-- EN changes to 0: the conversion table is dropped. -/
def sigDisable (s : State) : State :=
  s |> fput F.SIG_CTRL_EN 0 |> fput F.SIG_STATUS_READY 0 |> fput F.SIG_STATUS_CONV_ERR 0 |> updSig fun g => { g with conv := [], cache := [], fills := [] }

/-- A write of EN. -/
def sigEnWrite (en : Bool) (s : State) : State := if en == ftst F.SIG_CTRL_EN s then s else if en then sigEnable s else sigDisable s

/-- SIG_ENABLE. -/
def execSigEnable (w : Initiator) (s : State) : Host.Outcome State Fault Refusal := .next (regCmd w R.SIG_CTRL (sigEnWrite true) s)

/-- SIG_DISABLE. -/
def execSigDisable (w : Initiator) (s : State) : Host.Outcome State Fault Refusal := .next (regCmd w R.SIG_CTRL (sigEnWrite false) s)

/-- A read of the SIG unit's own: none, logged, when its address is unmapped (R33) or its data are uncorrectable (R421). -/
def sigFetch (a n : Nat) (bad : Bool) (s : State) : Option (List Byte) × State :=
  if !(inBanks a n || inDram a n s) then (none, logUnmapped 0x40 a s)
  else if bad then (none, eccLog a 0x40 true false s) else (some (mrdBytes a n s), s)

/-- One entry of the conversion table is loaded (R303). -/
def loadConv (badConv : List Nat) (i : Nat) (s : State) : State :=
  match sigFetch (4096 * fget F.SIG_CONV_BASE_PAGE s + 16 * i) 16 (badConv.contains i) s with
  | (some d, s) => updSig (fun g => { g with conv := g.conv ++ [some (BitVec.ofNat 128 (leNat d))] }) s
  | (none, s) => fput F.SIG_STATUS_CONV_ERR 1 (updSig (fun g => { g with conv := g.conv ++ [none] }) s)

/-- The pinned lines of a set. -/
def pinnedIn (j : Nat) (s : State) : Nat := (s.sig.cache.filter fun l => l.pinned && l.line % 960 == j % 960).length

/-- The line of one entry of the pin list is loaded and pinned; a third one of its set stays unpinned and is counted (R310). -/
def loadPin (badPins : List Nat) (k : Nat) (s : State) : State :=
  match sigFetch (4096 * fget F.SIG_PIN_BASE_PAGE s + 4 * k) 4 false s with
  | (none, s) => s
  | (some d, s) =>
    let j := leNat d / 4
    if (cached false j s).any (·.pinned) then s
    else match sigFetch (lineAddr false j s) 64 (badPins.contains k) s with
      | (none, s) => s
      | (some d, s) =>
        if pinnedIn j s < 2 then cachePut ⟨false, j, d, true⟩ s
        else raise F.SIG_EVENT 5 (bump R.SIG_PIN_OVF (cachePut ⟨false, j, d, false⟩ s))

/-- READY (R310): `badConv` and `badPins` are the conversion entries and the entries of the pin list whose read ends FAILED_BUS or FAILED_ECC. -/
def execReady (badConv badPins : List Nat) (s : State) : Host.Outcome State Fault Refusal :=
  .next (
    if !ftst F.SIG_CTRL_EN s || ftst F.SIG_STATUS_READY s || !islOpen islMEM s then s
    else
      let s := forN 2047 (fun i s => loadConv badConv (i + 1) s) (updSig (fun g => { g with conv := [] }) s)
      let s := forN (fget F.SIG_PIN_COUNT_N s) (loadPin badPins) s
      raise F.SIG_EVENT 6 (fput F.SIG_STATUS_READY 1 s))

/-- The effect of CMD.INVALIDATE (R313). -/
def sigInvalidate (s : State) : State := updSig (fun g => { g with cache := g.cache.filter (·.pinned) }) s

/-- INVALIDATE. -/
def execInvalidate (w : Initiator) (s : State) : Host.Outcome State Fault Refusal := .next (regCmd w R.SIG_CMD sigInvalidate s)

/-! ### Definition commands (R639) -/

/-- A write of DEF_CMD. -/
def defStart (rd_ wr_ : Bool) (s : State) : State :=
  if s.sig.defCmd.isSome || (rd_ && wr_) then bad s
  else if !rd_ && !wr_ then s
  else
    let i := (rd R.SIG_DEF_IDX s).toNat
    let no := !ftst F.SIG_CTRL_EN s || decide (catLimit s ≤ i)
    let d := (List.range 4).flatMap fun k => leBytes 4 (rd (R.SIG_DEF_DATA_k k) s).toNat
    fput F.SIG_DEF_CMD_BUSY 1 (updSig (fun g => { g with defCmd := some ⟨wr_, no, i, d, false⟩ }) s)

/-- DEF_READ. -/
def execDefRead (w : Initiator) (s : State) : Host.Outcome State Fault Refusal := .next (regCmd w R.SIG_DEF_CMD (defStart true false) s)

/-- DEF_WRITE. -/
def execDefWrite (w : Initiator) (s : State) : Host.Outcome State Fault Refusal := .next (regCmd w R.SIG_DEF_CMD (defStart false true) s)

/-- The end of a definition command. -/
def defEnd (st : Status) (s : State) : State :=
  s |> fput F.SIG_DEF_CMD_STATUS st.code |> fput F.SIG_DEF_CMD_BUSY 0 |> updSig fun g => { g with defCmd := none }

/-- Gives DEF_DATA the bytes of a definition. -/
def putDefData (d : List Byte) (s : State) : State := forN 4 (fun k s => wr (R.SIG_DEF_DATA_k k) (BitVec.ofNat 32 (leNat ((d.drop (4 * k)).take 4))) s) s

/-- The data of a definition that cannot be read: zeros where no range maps it (R33), an open value where its fill has failed (assumption 20). -/
def defLost (j : Nat) (s : State) : State :=
  if !lineMapped false j s then putDefData [] s
  else forN 4 (fun k s => useFree (wr (R.SIG_DEF_DATA_k k) (BitVec.ofNat 32 (freeVal s)) s)) s

/-- A definition command goes on: it ends, or waits for READY or for its line. -/
def defGo (c : DefCmd) (s : State) : State :=
  if c.refused || !ftst F.SIG_CTRL_EN s then defEnd .failedRefused s
  else if !ftst F.SIG_STATUS_READY s then s
  else if c.write && !lineMapped false (c.idx / 4) s then
    let s := bump R.SIG_LOOKUPS s
    defEnd .done (logUnmapped 0x40 (lineAddr false (c.idx / 4) s) s)
  else if c.write then defEnd .done (defWrite c.idx c.data (bump R.SIG_LOOKUPS s))
  else match sigLook false (c.idx / 4) (!c.counted) s with
    | (.hit d, s) => defEnd .done (putDefData (defIn c.idx d) s)
    | (.wait, s) => updSig (fun g => { g with defCmd := some { c with counted := true } }) s
    | (.err, s) => defEnd .done (defLost (c.idx / 4) s)

/-- DEF_CMD_DONE. -/
def execDefCmdDone (s : State) : Host.Outcome State Fault Refusal :=
  .next (
    match s.sig.defCmd with
    | none => s
    | some c => if islOpen islMEM s then defGo c s else s)

/-! ### Cache fills (R312) -/

/-- A thread whose lookup waits for the line that has failed traps (R167). -/
def failWaiter (e : Fin 24) (t : Fin 4) (s : State) : State :=
  match (thr e t s).wait with
  | some (.lookup op n pc word) =>
    match lookStep e t .ok n op s with
    | (.trap c a, s') => trapAt e t c a pc word s'
    | _ => s
  | _ => s

/-- The waiting lookups of a line that has failed end. -/
def failLine (l : Bool × Nat) (s : State) : State :=
  let s := updSig (fun g => { g with failed := some l }) s
  let s := forFin 24 (fun e s => forFin 4 (fun t s => failWaiter e t s) s) s
  let s := match s.sig.defCmd with
    | some c => if !c.write && !c.refused && l == (false, c.idx / 4) && c.counted then defGo c s else s
    | none => s
  updSig (fun g => { g with failed := none }) s

/-- CACHE_FILL: the oldest fill ends; its waiting lookups go on in their own rows, or trap when its read has failed. -/
def execCacheFill (e : BusEnd) (s : State) : Host.Outcome State Fault Refusal :=
  .next (
    match s.sig.fills with
    | [] => s
    | (idx, j) :: rest =>
      if !islOpen islMEM s then s
      else
        let s := updSig (fun g => { g with fills := rest }) s
        let a := lineAddr idx j s
        match e with
        | .ok => cachePut ⟨idx, j, mrdBytes a 64 s, false⟩ s
        | .busError => failLine (idx, j) s
        | .eccError => failLine (idx, j) (eccLog a 0x40 true false s))

/-! ### The standby gPTP thread (R50) -/

/-- GPTP_STANDBY_TAKEOVER: NE0 t0 has trapped, or domain A is lost. -/
def execGptpStandbyTakeover (s : State) : Host.Outcome State Fault Refusal :=
  .next (if ftst F.TIME_CTRL_GPTP_STBY s && (thrState 0 0 s == thTrapped || !s.railA) then fput F.TIME_STATUS_STBY_ACTIVE 1 s else s)

end Sys2Proof.Machine
end

