-- ==== Sys2Proof/Machine/RegRead.lean ====
section
/-!
DEFINITION. What a read of a register returns (R6, R632): the stored value, the registers that show a unit's state, the private shadows of R40, and the reads that have
an effect of their own.
-/
namespace Sys2Proof.Machine

/-- The index of a register in a family that begins at `base` with stride `st`. -/
def ix (o base st : Nat) : Nat := (o - base) / st

/-- The code of an island state (R591). -/
def IslState.code : IslState → Nat
  | .run => 0
  | .slow => 1
  | .draining => 2
  | .stopped => 3
  | .starting => 4
  | .off => 5
  | .reset => 6

/-- SYSCTL: ISL_STAT_i and ROLLBACK.COUNT (R535, R591). -/
def viewSysctl (o v : Nat) (s : State) : Nat :=
  if 0x100 ≤ o ∧ o < 0x1A8 ∧ o % 8 = 4 then
    let i := Fin.ofNat 21 (ix o 0x104 8)
    (islSt i s).code + 8 * s.isl[i.1].held.toNat + 16 * s.isl[i.1].blw.toNat
  else if o = 0x8014 then v + s.boot.rollback % 128
  else v

/-- The bin that LEARN_IDX addresses in the master island; none from 96 on (R99). -/
def learnBin (s : State) : Option (Fin 96) :=
  let k := fget F.TIME_LEARN_IDX_BIN s
  if h : k < 96 then some ⟨k, h⟩ else none

/-- The master time island's registers (R41). -/
def masterTime (s : State) : TimeIsl := if ftst F.TIME_STATUS_MASTER s then s.time.tb else s.time.ta

/-- TIME: the shadow of NOW (R40) and the addressed bin of the learned table (R99). -/
def viewTime (w : Initiator) (o v : Nat) (s : State) : Nat :=
  let sh := sget (fun _ => (0, 0)) s.time.shadows (initIdx w)
  match o with
  | 0x14 => sh.1 % 2 ^ 32
  | 0x18 => sh.1 / 2 ^ 32 % 2 ^ 16
  | 0x1C => sh.2 % 2 ^ 16
  | 0xC8 => match learnBin s with
    | some k => toField 32 (masterTime s).learnF[k.1]
    | none => 0
  | 0xCC => match learnBin s with
    | some k => (masterTime s).learnC[k.1]
    | none => 0
  | _ => v

/-- The seconds and fraction of a VT value as LAST_HI and STAMP_HI show them. -/
def hiWord (t : Nat) : Nat := (vtParts t).1 / 2 ^ 32 % 2 ^ 16 + 2 ^ 16 * ((vtParts t).2.2 % 2 ^ 16)

/-- TRG: the shadows of LAST and of STAMP (R115, R120, R122). -/
def viewTrg (w : Initiator) (o v : Nat) (s : State) : Nat :=
  if o < 0x400 then
    let l := sget (fun _ => 0) s.trgShadows (ix o 0 64 * 256 + initIdx w)
    match o % 64 with
    | 0x34 => (vtParts l).1 % 2 ^ 32
    | 0x38 => hiWord l
    | _ => v
  else if 0x1000 ≤ o ∧ o < 0x1200 then
    let e := sget (fun _ => ⟨0, false, 0, false⟩) s.cap[(Fin.ofNat 16 (ix o 0x1000 32)).1].shadows (initIdx w)
    match o % 32 with
    | 0xC => (vtParts e.stamp).1 % 2 ^ 32
    | 0x10 => hiWord e.stamp
    | 0x14 => e.rise.toNat + 2 * (e.epoch % 16) + 256 * e.gap.toNat
    | _ => v
  else v

/-- ENG: STATUS.SLOW, THR_HELD and THR_CFG.RESERVED (R171, R173, R175). -/
def viewEng (e : Fin 24) (o v : Nat) (s : State) : Nat :=
  if o = 0x20000 then v + 2 ^ 12 * (if islSt (engIsl e) s = .slow then 1 else 0)
  else if 0x20100 ≤ o ∧ o < 0x20200 ∧ o % 64 = 0x10 then
    let t := Fin.ofNat 4 (ix o 0x20110 64)
    (thr e t s).holds.length % 16 + 16 * (heldPackets e t s % 8) + 256 * ((engJobs e s).length % 16)
  else if 0x21000 ≤ o ∧ o < 0x21100 ∧ o % 64 = 0 then v + 2 ^ 9 * (thrReserved e.1 (ix o 0x21000 64) s).toNat
  else v

/-- CAM: STATUS.LINK while a burst was seen within LINK_TO (R136). -/
def viewCam (n : Fin 4) (o v : Nat) (s : State) : Nat := if o = 0x14 ∧ linkDue n s ≤ s.now then v / 2 * 2 else v

/-- CAN: TXB_REQ shows the pending requests of its 32 buffers (R295). -/
def viewCan (c : Fin 12) (o v : Nat) (s : State) : Nat :=
  if o = 0x60 ∨ o = 0x64 then
    ((List.range 32).map fun j => if ftst (F.CAN_MB_STAT_b_PENDING c.1 (8 * (o - 0x60) + j)) s then 2 ^ j else 0).sum
  else if o = 0x68 ∨ o = 0x6C then 0
  else v

/-- LIN: STATUS.STATE passes from header to response when the header has ended (R298). -/
def viewLin (l : Fin 6) (o v : Nat) (s : State) : Nat := if o = 0xC ∧ v % 4 = linHeader ∧ (linSt l s).headerEnd ≤ s.now then v / 4 * 4 + linResponse else v

/-- MEM: the reader's own atomic window (R419, R434). -/
def viewMem (w : Initiator) (o v : Nat) (s : State) : Nat :=
  let (addr, old, st) := sget (fun _ => (0, 0, 0)) s.cwy.atom (initIdx w)
  match o with
  | 0x10000 => addr
  | 0x1000C => old % 2 ^ 32
  | 0x10010 => st
  | _ => v

/-- CWY: the shadow of the error log (R435). -/
def viewCwy (w : Initiator) (o v : Nat) (s : State) : Nat :=
  let e := sget (fun _ => ⟨0, 0, 0, 0, 0, 0⟩) s.cwy.shadows (initIdx w)
  match o with
  | 0x1004 => e.status % 256 + 2 ^ 8 * (e.init % 256) + 2 ^ 16 * (e.part % 8) + 2 ^ 20 * (e.be % 16)
  | 0x1008 => e.ns % 2 ^ 32
  | _ => v

/-- IC: PEND and ACTIVE of SRC_CFG (R461). -/
def viewIc (o v : Nat) (s : State) : Nat :=
  if o < 0x1000 then v + 2 ^ 24 * (srcPending (o / 4) s).toNat + 2 ^ 25 * (srcActive (o / 4) s).toNat else v

/-- HERON: the RTC count (R462). -/
def viewHeron (o v : Nat) (s : State) : Nat :=
  match o with
  | 0x60 => rtcAt s.now s % 2 ^ 32
  | 0x64 => rtcAt s.now s / 2 ^ 32 % 2 ^ 32
  | _ => v

/-- OWN: the life cycle, the shadow of the violation FIFO and its fill, and the releases asked of the reader (R467, R480, R489). -/
def viewOwn (w : Initiator) (o v : Nat) (s : State) : Nat :=
  match o with
  | 0x4 => s.own.lc % 4 + 4 * (!lcProduction s).toNat
  | 0x1004 => sget (fun _ => 0) s.own.violShadow (initIdx w)
  | 0x1008 => s.own.viol.length
  | 0x10004 => ((List.range 27).map fun k => if tgState k s = tgReleasing ∧ blockOwner w k s then 2 ^ k else 0).sum
  | _ => v

/-- KEY: the root selected and the unique ID (R536, R559). -/
def viewKey (o v : Nat) (s : State) : Nat :=
  match o with
  | 0x0 => v + (!lcProduction s).toNat
  | 0x30 => Config.uid % 2 ^ 32
  | 0x34 => Config.uid / 2 ^ 32 % 2 ^ 32
  | _ => v

/-- WDOG: REMAIN_MS, and STATE of a heartbeat channel that is suspended (R578, R590). -/
def viewWdog (o v : Nat) (s : State) : Nat :=
  if o = 0x8 then
    let left := if wdRunning s then wdPeriod s - (s.now - s.blw.wdStart) else wdPeriod s
    v / 2 ^ 14 * 2 ^ 14 + left / 1000000 % 2 ^ 14
  else if 0x100 ≤ o ∧ o < 0x200 ∧ o % 16 = 4 ∧ hbSuspended (Fin.ofNat 16 (ix o 0x104 16)) s then v / 4 * 4 + 3
  else v

/-- What a register that lies at an address shows to a reader. -/
def regView (w : Initiator) (a : Nat) (s : State) : Nat :=
  let wo := match rowAt a with
    | some r => r.wo
    | none => 0
  let v := (rd a s &&& ~~~(BitVec.ofNat 32 wo)).toNat
  if 0x02000000 ≤ a ∧ a < 0x02C00000 then viewEng (Fin.ofNat 24 ((a - 0x02000000) / 0x80000)) ((a - 0x02000000) % 0x80000) v s
  else if a < 0x04010000 then viewSysctl (a - 0x04000000) v s
  else if a < 0x04020000 then viewTime w (a - 0x04010000) v s
  else if a < 0x04030000 then viewTrg w (a - 0x04020000) v s
  else if 0x04030000 ≤ a ∧ a < 0x04040000 then viewCam (Fin.ofNat 4 ((a - 0x04030000) / 0x4000)) ((a - 0x04030000) % 0x4000) v s
  else if 0x04300000 ≤ a ∧ a < 0x04400000 then viewIc (a - 0x04300000) v s
  else if 0x04400000 ≤ a ∧ a < 0x04500000 then viewOwn w (a - 0x04400000) v s
  else if 0x04600000 ≤ a ∧ a < 0x04700000 then viewKey (a - 0x04600000) v s
  else if 0x04800000 ≤ a ∧ a < 0x04900000 then viewMem w (a - 0x04800000) v s
  else if 0x04900000 ≤ a ∧ a < 0x04A00000 then viewCwy w (a - 0x04900000) v s
  else if 0x10000000 ≤ a ∧ a < 0x100C0000 then viewCan (Fin.ofNat 12 ((a - 0x10000000) / 0x10000)) ((a - 0x10000000) % 0x10000) v s
  else if 0x10100000 ≤ a ∧ a < 0x10106000 then viewLin (Fin.ofNat 6 ((a - 0x10100000) / 0x1000)) ((a - 0x10100000) % 0x1000) v s
  else if 0x10500000 ≤ a ∧ a < 0x10600000 then viewHeron (a - 0x10500000) v s
  else if 0x10700000 ≤ a ∧ a < 0x10800000 then viewWdog (a - 0x10700000) v s
  else v

/-- The reads of TRG that have an effect (R115, R120). -/
def readTrg (w : Initiator) (o : Nat) : Option (State → State) :=
  if o < 0x400 ∧ o % 64 = 0x30 then some (trgLastRead w (Fin.ofNat 16 (o / 64)))
  else if 0x1000 ≤ o ∧ o < 0x1200 ∧ o % 32 = 8 then some (capPop w (Fin.ofNat 16 (ix o 0x1000 32)))
  else none

/-- The reads of a CAN controller that have an effect (R265, R266). -/
def readCan (w : Initiator) (c : Fin 12) (o : Nat) : Option (State → State) :=
  if o = 0x5000 then some (rxqPop w c)
  else if 0x2000 ≤ o ∧ o < 0x4000 ∧ o % 128 = 0 then some (mbIdRead c (Fin.ofNat 64 (ix o 0x2000 128)))
  else if 0x2000 ≤ o ∧ o < 0x4000 ∧ o % 128 = 0x7C then some (mbStatRead c (Fin.ofNat 64 (ix o 0x2000 128)))
  else if 0x4000 ≤ o ∧ o < 0x4400 ∧ o % 32 = 28 then some (rxeWord7Read c (Fin.ofNat 32 (ix o 0x4000 32)))
  else none

/-- The reads of the IC that have an effect (R442). -/
def readIc (w : Initiator) (o : Nat) : Option (State → State) :=
  if 0x10000 ≤ o ∧ o < 0x1D000 ∧ o % 0x1000 = 0 then some (claimRead w (Fin.ofNat 13 (ix o 0x10000 0x1000))) else none

/-- The effect of a read that has one: access code RP, and the reads that latch a shadow or a lock (R6). -/
def readEffect (w : Initiator) (a : Nat) : Option (State → State) :=
  if a = R.TIME_NOW_NS then some (nowRead w)
  else if 0x04020000 ≤ a ∧ a < 0x04030000 then readTrg w (a - 0x04020000)
  else if 0x04300000 ≤ a ∧ a < 0x04400000 then readIc w (a - 0x04300000)
  else if a = R.OWN_VIOL_POP then some (violPop w)
  else if a = R.CWY_ERRLOG_POP then some (errlogPop w)
  else if 0x10000000 ≤ a ∧ a < 0x100C0000 then readCan w (Fin.ofNat 12 ((a - 0x10000000) / 0x10000)) ((a - 0x10000000) % 0x10000)
  else none

/-- A full read of the register at an address. -/
def readReg (w : Initiator) (a : Nat) (s : State) : State :=
  match readEffect w a with
  | some f => f s
  | none => answer .done (regView w a s) s

end Sys2Proof.Machine
end

