-- ==== Sys2Proof/Machine/RegWrite.lean ====
section
/-!
DEFINITION. What a write of a register does (R6, R632), first half: the plain effect of the access codes, and the registers of the system blocks that have more to
them: SYSCTL, TIME, TRG, CAM, ENG and SW. A value outside a range that the manual clamps to is stored clamped.
-/
namespace Sys2Proof.Machine

/-- A write as it reaches a register: the initiator, the register's address, its offset in its block or unit, its row, and the value merged under R632. -/
structure RegWr where
  w : Initiator
  a : Nat
  o : Nat
  row : RegRow
  v : Nat

/-- Whether a bit of the value is set. -/
def RegWr.on (x : RegWr) (n : Nat) : Bool := x.v.testBit n

/-- The effect of the access codes RW, W1C and W1S, on the bits of a mask (R6). -/
def plainMask (m : Nat) (x : RegWr) (s : State) : State :=
  let v := BitVec.ofNat 32 x.v
  let k (n : Nat) : Word := BitVec.ofNat 32 n &&& BitVec.ofNat 32 m
  let rw := k x.row.rw
  wr x.a ((((rd x.a s &&& ~~~rw) ||| (v &&& rw)) &&& ~~~(v &&& k x.row.w1c)) ||| (v &&& k x.row.w1s)) s

/-- The effect of the access codes. -/
def plain (x : RegWr) (s : State) : State := plainMask 0xFFFFFFFF x s

/-- Clamps a field that has been written. -/
def clampF (x : RegWr) (hi lo mn mx : Nat) (s : State) : State := fput ⟨x.a, hi, lo⟩ (clampNat mn mx (fget ⟨x.a, hi, lo⟩ s)) s

/-- A write that is accepted only under a condition; else it is ignored and answered with an error response. -/
def plainIf (c : Bool) (x : RegWr) (s : State) : State := if c then plain x s else bad s

/-- A write of a CNT_CLR register. -/
def cntClr (x : RegWr) (f : State → State) (s : State) : State := whenB (x.on 0) f s

/-! ### SYSCTL (R535, R591) -/

/-- A write of ISL_CMD; OP 0 is no request, and every write for PEAT is answered with an error response (R27). -/
def wrIslCmd (x : RegWr) (i : Fin 21) (s : State) : State :=
  match x.v % 8 with
  | 1 => islCmd x.w i (.clockDown (Fin.ofNat 4 (x.v / 16))) s
  | 2 => islCmd x.w i .restore s
  | 3 => islCmd x.w i .stop s
  | 4 => islCmd x.w i .start s
  | 5 => islCmd x.w i .reset s
  | 6 => islCmd x.w i .resetHold s
  | 7 => islCmd x.w i .release s
  | _ => if i = islPEAT then bad s else s

/-- The boot registers of SYSCTL. -/
def wrBoot (x : RegWr) (s : State) : State :=
  match x.o with
  | 0x8010 => whenB (x.on 0) bootAlt (whenB (x.on 1) rollbackAdv s)
  | 0x8108 => if 1 ≤ x.v % 8 ∧ x.v % 8 ≤ 3 then xspiCmd x.w (x.v % 8) .ok s else bad s
  | _ => plain x s

/-- SYSCTL. -/
def wrSysctl (x : RegWr) (s : State) : State :=
  match x.o with
  | 0x0 => hearthOnly x.w (plain x) s
  | 0x4 => hearthOnly x.w (chipRst (x.on 0) (BitVec.ofNat 16 (x.v / 2 ^ 16))) s
  | 0x18 => cntClr x (clearRegs sysctlCounters) s
  | 0x20 => clampF x 9 0 1 1000 (plain x s)
  | 0x300 => bistReq (Fin.ofNat 8 x.v) (x.on 8) s
  | 0x304 =>
    if x.on 8 then grantBist (Fin.ofNat 8 x.v) s
    else if x.on 9 then denyBist (Fin.ofNat 8 x.v) s
    else plain x s
  | _ =>
    if 0x8000 ≤ x.o then hearthOnly x.w (wrBoot x) s
    else if 0x100 ≤ x.o ∧ x.o < 0x1A8 ∧ x.o % 8 = 0 then wrIslCmd x (Fin.ofNat 21 (ix x.o 0x100 8)) s
    else plain x s

/-! ### TIME (R64, R87-R102) -/

/-- A write of the addressed bin of the learned table: in both time islands, or in the survivor alone, and in the peat's copy (R87, R99). -/
def putLearn (f : TimeIsl → Fin 96 → TimeIsl) (g : TimeSt → Fin 96 → TimeSt) (s : State) : State :=
  match learnBin s with
  | none => s
  | some k =>
    let live (b : Bool) : Bool := ftst (okFld b) s && islOpen (timeIslId b) s
    updTime (fun t => g { t with
      ta := if live false then f t.ta k else t.ta
      tb := if live true then f t.tb k else t.tb } k) s

/-- A write of CTRL. -/
def wrTimeCtrl (x : RegWr) (s : State) : State :=
  whenB (x.on 11) resync (roleWrite (x.v % 4) (twinEnWrite (x.on 4) (plainMask 0x5EC x s)))

/-- TIME. -/
def wrTime (x : RegWr) (s : State) : State :=
  match x.o with
  | 0x0 => wrTimeCtrl x s
  | 0x2C => whenB (x.on 0) setGo s
  | 0x38 => clampF x 19 0 50 1000000 (plain x s)
  | 0x40 => whenB (x.on 0) stepAccept s
  | 0x60 => clampF x 25 14 1 3600 (clampF x 13 0 10 10000 (plain x s))
  | 0x90 => clampF x 31 18 10 10000 (clampF x 17 8 4 1000 (plain x s))
  | 0x9C => whenB (x.on 0) (twinResume (x.on 1)) s
  | 0xC8 =>
    let v := signedOf 32 x.v
    putLearn (fun i k => { i with learnF := upd i.learnF k fun _ => v }) (fun t k => { t with peatF := upd t.peatF k fun _ => v }) s
  | 0xCC =>
    let v := x.v % 256
    putLearn (fun i k => { i with learnC := upd i.learnC k fun _ => v }) (fun t k => { t with peatC := upd t.peatC k fun _ => v }) s
  | 0x310 => cntClr x (clearRegs timeCounters) s
  | _ => plain x s

/-! ### TRG (R110, R115, R116, R122) -/

/-- TRG: the schedule of a trigger that is not IDLE is refused, and of its CFG only the interrupt enables change (R110). -/
def wrTrg (x : RegWr) (s : State) : State :=
  if 0x400 ≤ x.o then plain x s
  else
    let n := Fin.ofNat 16 (x.o / 64)
    let k := x.o % 64
    let idle := trgState n s == trgIdle
    if k = 0x24 then whenB (x.on 0) (trgStart n) (whenB (x.on 1) (trgStop n) s)
    else if idle || decide (0x20 < k) then plain x s
    else if k = 0 then plainMask 0xF00 x s
    else bad (raise (F.TRG_STATUS_n_REFUSED n.1) 0 s)

/-! ### CAM (R136) -/

/-- The other port of a camera island. -/
def camPair (n : Fin 4) : Fin 4 := Fin.ofNat 4 (n.1 / 2 * 2 + (1 - n.1 % 2))

/-- CAM. -/
def wrCam (n : Fin 4) (x : RegWr) (s : State) : State :=
  match x.o with
  | 0x0 => whenB (x.on 0 && !ftst (F.CAM_CTRL_EN n.1) s) (fput (F.CAM_STATUS_DESKEWED n.1) 0) (plain x s)
  | 0x4 => clampF x 11 0 160 2500 (plain x s)
  | 0xC => clampF x 16 0 10 100000 (plain x s)
  | 0x10 =>
    let m := camPair n
    plainIf (!ftst (F.CAM_CTRL_EN n.1) s && !ftst (F.CAM_CTRL_EN m.1) s && decide (x.v % 64 + fget (F.CAM_STAGE_CFG_SIZE m.1) s ≤ 32)) x s
  | 0x54 => cntClr x (clearRegs (camCounters n.1)) s
  | _ => if 0x100 ≤ x.o ∧ x.o % 16 = 4 then clampF x 15 0 1 1000 (plain x s) else plain x s

/-! ### ENG (R169, R172, R173, R175, R176) -/

/-- Whether a thread is in a state in which Hearth may configure it. -/
def thrQuiet (e : Fin 24) (t : Fin 4) (s : State) : Bool := [thIdle, thHalted, thTrapped].contains (thrState e t s)

/-- A write of the engine configuration page: Hearth's, while the thread is IDLE, HALTED or TRAPPED; one of another initiator is logged (R169). -/
def wrEngCfg (e : Fin 24) (x : RegWr) (s : State) : State :=
  if !initWorld x.w s then bad (violateBy x.w x.a true 4 s)
  else if x.o < 0x21200 then plainIf (thrQuiet e (Fin.ofNat 4 (ix x.o 0x21000 64)) s) x s
  else
    let q := ix x.o 0x21200 4
    let bound := fget (F.ENG_QSLOT_q_THREAD e.1 q) s
    if thrQuiet e (Fin.ofNat 4 (x.v / 2 ^ 13)) s && (!ftst (F.ENG_QSLOT_q_EN e.1 q) s || thrQuiet e (Fin.ofNat 4 bound) s) then
      fput (F.ENG_QSLOT_q_GONE e.1 q) 0 (plain x s)
    else bad s

/-- ENG. -/
def wrEng (e : Fin 24) (x : RegWr) (s : State) : State :=
  if 0x21000 ≤ x.o then wrEngCfg e x s
  else if 0x20100 ≤ x.o ∧ x.o < 0x20200 ∧ x.o % 64 = 0 then thrCmd x.w e (Fin.ofNat 4 (ix x.o 0x20100 64)) (x.v % 8) s
  else plain x s

/-! ### SW (R223, R243, R248-R254) -/

/-- Whether the shared floors fall with the class (R243). -/
def floorsOk (s : State) : Bool := (List.range 5).all fun c => decide (fget (F.SW_FLOOR_c (c + 1)) s ≤ fget (F.SW_FLOOR_c c) s)

/-- A write of RES or FLOOR: while CTRL.EN = 0, and leaving figures that R243 allows. -/
def wrPool (x : RegWr) (s : State) : State :=
  let t := plain x s
  if ftst F.SW_CTRL_EN s || decide (24576 < resSum t) || !floorsOk t then bad s else showPool (noteLow s t)

/-- The configured plane of a port takes effect while that plane runs. -/
def showPlane (p : Nat) (s : State) : State :=
  let b := ftst (F.SW_PORT_CFG_p_PLANE p) s
  whenB (planeOk b s) (fput (F.SW_PORT_STATUS_p_PLANE_NOW p) b.toNat) s

/-- The registers of a port (R250-R252). -/
def wrPort (p : Fin 23) (k : Nat) (x : RegWr) (s : State) : State :=
  if k = 0x000 then
    if p.1 < 2 ∨ p.1 = portH0 ∨ p.1 = portH1 then plainMask 0xFFFFFFDF x s else showPlane p.1 (plain x s)
  else if 0x040 ≤ k ∧ k < 0x060 then
    let others := ((List.range 8).filter fun c => c != ix k 0x040 4 && ftst (F.SW_CBS_c_p_EN p.1 c) s).length
    plainIf (!(x.on 31 && decide (4 ≤ others))) x (settlePort p.1 s)
  else if k = 0x100 then whenB (x.on 1) (gateArm p) (plain x s)
  else if k = 0x180 then if h : p.1 < 6 then preemptStart ⟨p.1, h⟩ (plain x s) else plain x s
  else if k = 0x1C0 then whenB (decide (14 ≤ p.1) && decide (p.1 < 18)) (plain x) s
  else if k = 0x1E0 then
    if h : p.1 < 18 then whenB (x.on 1) (wakeReq ⟨p.1, h⟩) (whenB (x.on 0) (sleepReq ⟨p.1, h⟩) (plain x s)) else plain x s
  else if 0x400 ≤ k ∧ k < 0x600 ∧ k % 0x20 = 0x10 then ringTail (Fin.ofNat 2 (p.1 - portH0)) (ix k 0x400 0x20) (x.v % 8192) s
  else plain x s

/-- SW. -/
def wrSw (x : RegWr) (s : State) : State :=
  if x.o = 0x0 then whenB (x.on 1) flushDyn (clampF x 27 18 1 1000 (plain x s))
  else if 0x20 ≤ x.o ∧ x.o < 0x60 then wrPool x s
  else if x.o = 0xD0 then cntClr x swCntClr s
  else if x.o = 0x80000 then if x.on 4 then tblWrite (x.v % 16) s else tblRead (x.v % 16) s
  else if 0x10000 ≤ x.o ∧ x.o < 0x27000 then wrPort (Fin.ofNat 23 (ix x.o 0x10000 0x1000)) (x.o % 0x1000) x s
  else plain x s

end Sys2Proof.Machine
end

