-- ==== Sys2Proof/Machine/RegWriteB.lean ====
section
/-!
DEFINITION. What a write of a register does, second half: the registers of CAN, LIN, SIG, NM, LOADCH, FIO, MEM, CWY, IC, HERON, OWN, VQI, KEY, TAMP, BLW and WDOG that
have more to them than their access codes.
-/
namespace Sys2Proof.Machine

/-! ### CAN (R256, R264, R282, R295-R297) -/

/-- A write of CTRL: EN at any time, the other fields only while EN = 0 (R256); EN takes a time-triggered master onto its grid unless R282 refuses it, and a lost
segment starts again with its controller (R342). -/
def wrCanCtrl (c : Fin 12) (x : RegWr) (s : State) : State :=
  let was := ftst (F.CAN_CTRL_EN c.1) s
  let old := (rd x.a s).toNat
  if was then
    let s := fput (F.CAN_CTRL_EN c.1) (x.v % 2) s
    if x.v % 0x4000 / 2 == old % 0x4000 / 2 then s else bad s
  else if !x.on 0 then plain x s
  else
    let s := plainMask 0x3FFE x s
    if ttBad c s then bad (canEvent c 9 s)
    else
      let s := ttStart c (fput (F.CAN_CTRL_EN c.1) 1 s)
      whenB (canOn c s) (segRestart (canSeg c)) s

/-- CAN. -/
def wrCan (c : Fin 12) (x : RegWr) (s : State) : State :=
  let off := !ftst (F.CAN_CTRL_EN c.1) s
  let tt := ftst (F.CAN_CTRL_TT_EN c.1) s
  match x.o with
  | 0x0 => wrCanCtrl c x s
  | 0x4 | 0x8 | 0xC | 0x14 => plainIf off x s
  | 0x1C => whenB (x.on 1) (aloneResume c) (whenB (x.on 0) (recover c) s)
  | 0x28 => clampF x 13 0 1 10000 (plain x s)
  | 0x60 => txbReq c 0 (BitVec.ofNat 32 x.v) s
  | 0x64 => txbReq c 1 (BitVec.ofNat 32 x.v) s
  | 0x68 => txbCancel c 0 (BitVec.ofNat 32 x.v) s
  | 0x6C => txbCancel c 1 (BitVec.ofNat 32 x.v) s
  | 0x70 => mbAck c (Fin.ofNat 64 x.v) s
  | 0xC0 => cntClr x (clearRegs (canCounters c.1)) s
  | 0x5004 => rxqAck c (Fin.ofNat 32 x.v) s
  | 0x7000 => txqSubmit c (Fin.ofNat 32 x.v) s
  | 0x7004 => txqCancel c (Fin.ofNat 32 x.v) s
  | _ =>
    if 0x6000 ≤ x.o ∧ x.o < 0x6400 then plainIf (!entryBusy c (Fin.ofNat 32 (ix x.o 0x6000 32)) s) x s
    else if 0x8000 ≤ x.o ∧ x.o < 0xA000 then plainIf (!tt) x s
    else if 0xA000 ≤ x.o ∧ x.o < 0xB000 then plainIf (off && !tt) x s
    else plain x s

/-! ### LIN (R298) -/

/-- LIN. -/
def wrLin (l : Fin 6) (x : RegWr) (s : State) : State :=
  match x.o with
  | 0x4 => clampF x 14 0 1000 20000 (plain x s)
  | 0x8 => clampF x 12 0 250 5000 (plain x s)
  | 0x2C => cntClr x (clearRegs (linCounters l.1)) s
  | _ => plain x s

/-! ### SIG (R306, R333, R639) -/

/-- A write of CTRL: VARIANT changes only when EN was 0 (R306); LOG_EN = 1 with RING_LOG2 out of range is ignored as a whole. -/
def wrSigCtrl (x : RegWr) (s : State) : State :=
  if x.on 1 && !ringLogOk s then bad s
  else
    let was := ftst F.SIG_CTRL_EN s
    let var := x.v / 4 % 32
    let clash := was && var != fget F.SIG_CTRL_VARIANT s
    let s := fput F.SIG_CTRL_WARM_PERSIST (x.v / 2 ^ 7) (if was then s else fput F.SIG_CTRL_VARIANT var s)
    whenB clash bad (logEnWrite (x.on 1) (sigEnWrite (x.on 0) s))

/-- A write of CMD. -/
def wrSigCmd (x : RegWr) (s : State) : State :=
  s |> whenB (x.on 0) (sealTrigger 2) |> whenB (x.on 1) (crashTrigger 4) |> whenB (x.on 2) crashRearm |> whenB (x.on 3) sigInvalidate

/-- SIG. -/
def wrSig (x : RegWr) (s : State) : State :=
  let free := !ftst F.SIG_CTRL_EN s
  let closed := !ftst F.SIG_CTRL_LOG_EN s
  match x.o with
  | 0x0 => wrSigCtrl x s
  | 0x8 => wrSigCmd x s
  | 0x24 => if free then clampF x 23 0 0 8388608 (plain x s) else bad s
  | 0x30 => if free then clampF x 4 0 10 22 (plain x s) else bad s
  | 0x38 => if free then clampF x 12 0 0 7680 (plain x s) else bad s
  | 0x20 | 0x28 | 0x2C | 0x34 => plainIf free x s
  | 0x64 => if closed then clampF x 13 0 10 10000 (plain x s) else bad s
  | 0x68 | 0x6C | 0x70 | 0x74 | 0x78 | 0x7C => plainIf closed x s
  | 0x80 | 0x84 | 0x88 => wr x.a (BitVec.ofNat 32 x.v) s
  | 0x8C => hostPush x.w (BitVec.ofNat 32 x.v) s
  | 0xB4 => defStart (x.on 0) (x.on 1) s
  | 0x120 => cntClr x (clearRegs sigCounters) s
  | _ => plain x s

/-! ### NM (R339, R351-R354) -/

/-- A write of SEG_CFG: EN at any time, the other fields only while EN = 0. -/
def wrSegCfg (g : Fin 35) (x : RegWr) (s : State) : State :=
  let was := ftst (F.NM_SEG_CFG_s_EN g.1) s
  let clash := was && x.v % 2 ^ 25 / 2 != (rd x.a s).toNat % 2 ^ 25 / 2
  let s := if was then s else plainMask 0x1FFFFFE x s
  whenB clash bad (if x.on 0 then segEnable g s else segDisable g s)

/-- A write of SEG_CTRL. -/
def wrSegCtrl (g : Fin 35) (x : RegWr) (s : State) : State :=
  whenB (x.on 2) (rejoin g) (whenB (x.on 1) (segCtrlWake g) (showConsent g (plain x s)))

/-- The registers of a segment. -/
def wrSeg (g : Fin 35) (k : Nat) (x : RegWr) (s : State) : State :=
  let off := !ftst (F.NM_SEG_CFG_s_EN g.1) s
  match k with
  | 0x0 => wrSegCfg g x s
  | 0x4 => if off then clampF x 27 18 10 1000 (clampF x 9 0 20 1000 (plain x s)) else bad s
  | 0x8 => plainIf off x s
  | 0xC => if off then clampF x 25 16 10 1000 (clampF x 9 0 10 1000 (plain x s)) else bad s
  | 0x10 => wrSegCtrl g x s
  | _ => plain x s

/-- NM. -/
def wrNm (x : RegWr) (s : State) : State :=
  if x.o = 0x0 then forFin 35 showConsent (plain x s)
  else if x.o = 0x58 then cntClr x (clearRegs nmCounters) s
  else if 0x100 ≤ x.o ∧ x.o < 0x560 then wrSeg (Fin.ofNat 35 (ix x.o 0x100 32)) ((x.o - 0x100) % 32) x s
  else if 0x1000 ≤ x.o ∧ x.o < 0x2000 then plainIf (!ftst (F.NM_SEG_CFG_s_EN (ix x.o 0x1000 64)) s) x s
  else plain x s

/-! ### LOADCH (R366, R381, R385, R396-R402) -/

/-- A write of CH_CFG: CLASS 5-7 is refused; a half-bridge takes LIMP 0b01 and 0b10 as 0b00; FINE_EN exists on light channels only. -/
def wrChCfg (n : Fin 48) (x : RegWr) (s : State) : State :=
  if 4 < x.v % 8 then bad s
  else
    let limp := x.v / 2 ^ 6 % 4
    let hb := isHb n.1 && decide (limp ≠ 3)
    settleStage n (chChange n (withPhases 0 fun s =>
      s |> plain x |> clampF x 18 8 10 2000 |> whenB hb (fput (F.LOADCH_CH_CFG_n_LIMP n.1) 0)
        |> whenB (!isLight n.1) (fput (F.LOADCH_CH_CFG_n_FINE_EN n.1) 0)) s)

/-- The configuration registers of an output. Ranges of currents are in the register's own unit (R366, R398). -/
def wrCh (n : Fin 48) (k : Nat) (x : RegWr) (s : State) : State :=
  let u := curUnit n.1
  let i := iR n.1 s
  match k with
  | 0x0 => wrChCfg n x s
  | 0x4 => clampF x 31 16 16 16000 (clampF x 15 0 ((i + 4 * u - 1) / (4 * u)) (2 * i / u) (plain x s))
  | 0x8 => clampF x 15 0 (fget (F.LOADCH_TRIP_n_I_TRIP n.1) s) (24 * i / (10 * u)) (plain x s)
  | 0xC => clampF x 28 16 1 6000 (plain x s)
  | 0x10 => let s := clampF x 15 0 256 1024 (plain x s); clampF x 31 16 0 (fget (F.LOADCH_I2T_B_n_W_TH n.1) s) s
  | 0x14 => clampF x 27 16 10 4000 (plain x s)
  | 0x18 => chChange n (plain x) s
  | 0x1C => withPhases 0 (plain x) s
  | 0x20 => clampF x 7 0 20 200 (plain x s)
  | 0x2C => whenB (isHb n.1) (fun s => clampF x 10 0 200 2000 (plain x s)) s
  | _ => plain x s

/-- The registers of a queue page. -/
def wrCq (q : Fin 4) (k : Nat) (x : RegWr) (s : State) : State :=
  match k with
  | 0x0 | 0x4 | 0x8 => wr x.a (BitVec.ofNat 32 x.v) s
  | 0xC => cqSubmit q (BitVec.ofNat 32 x.v) s
  | 0x20 => whenB (x.on 0) (updPd fun p => { p with unread := upd p.unread q fun _ => 0 }) (plain x s)
  | _ => plain x s

/-- LOADCH. -/
def wrLoadch (x : RegWr) (s : State) : State :=
  if x.o = 0x0 then whenB (x.on 1) loadchPark (whenB (x.on 0) loadchClaim (clampF x 23 16 1 100 (plainMask 0xFF0F00 x s)))
  else if 0x40 ≤ x.o ∧ x.o < 0x70 ∧ x.o % 8 = 0 then clampF x 15 8 100 155 (clampF x 7 0 100 155 (plain x s))
  else if x.o = 0x80 then clampF x 7 0 40 120 (plain x s)
  else if x.o = 0xD0 then cntClr x (clearRegs loadchCounters) s
  else if 0x10000 ≤ x.o ∧ x.o < 0x14000 then wrCq (Fin.ofNat 4 (ix x.o 0x10000 0x1000)) (x.o % 0x1000) x s
  else if 0x20000 ≤ x.o ∧ x.o < 0x20C00 then wrCh (Fin.ofNat 48 (ix x.o 0x20000 64)) (x.o % 64) x s
  else if x.o = 0x50000 then showOtp (plain x s)
  else if x.o = 0x50014 then whenB (x.on 1) otpRead (whenB (x.on 0) (otpProg x.w) s)
  else plain x s

/-! ### FIO (R403) -/

/-- FIO. -/
def wrFio (x : RegWr) (s : State) : State := if x.o = 0x110 then clampF x 15 10 10 50 (clampF x 9 0 10 1000 (plain x s)) else plain x s

/-! ### MEM and CWY (R412, R419, R434, R435) -/

/-- MEM: Hearth's, but for the atomic window. -/
def wrMem (x : RegWr) (s : State) : State :=
  let hearth (f : State → State) : State := hearthOnly x.w f s
  match x.o with
  | 0x10000 =>
    updCwy (fun c =>
      let (_, o, t) := sget (fun _ => (0, 0, 0)) c.atom (initIdx x.w)
      { c with atom := sput (fun _ => (0, 0, 0)) (initIdx x.w) (x.v % 0x400000 / 4 * 4, o, t) c.atom }) s
  | 0x10004 => atomic x.w (fun o => o + x.v) s
  | 0x10008 => atomic x.w (fun _ => x.v) s
  | 0x10 => hearth (fun s => plainIf (!ftst F.MEM_DRAM_CFG_TRAINED s) x s)
  | 0x28 => hearth (fun s => clampF x 7 0 1 168 (plain x s))
  | 0x40C => hearth (fun s => if x.on 31 then tcmcpyGo (x.v % 2 ^ 19) s else plain x s)
  | 0x500 => hearth (cntClr x (clearRegs memCounters))
  | _ => if 0x10000 ≤ x.o then plain x s else hearth (plain x)

/-- CWY. -/
def wrCwy (x : RegWr) (s : State) : State :=
  hearthOnly x.w (fun s =>
    match x.o with
    | 0x0 => clampF x 15 0 256 65535 (plain x s)
    | 0x214 => cntClr x (clearRegs cwyCounters) s
    | _ => plain x s) s

/-! ### IC and HERON (R440, R461, R462) -/

/-- IC. -/
def wrIc (x : RegWr) (s : State) : State :=
  if x.o < 0x1000 then srcCfgWrite x.w (x.o / 4) (BitVec.ofNat 32 x.v) s
  else if x.o < 0x2000 then if initWorld x.w s then plain x s else bad (violateBy x.w x.a true 4 s)
  else if x.o = 0x2000 then sgiSet x.w (x.v % 1024) s
  else if 0x10000 ≤ x.o ∧ x.o < 0x1D000 then
    let t := Fin.ofNat 13 (ix x.o 0x10000 0x1000)
    match x.o % 0x1000 with
    | 0x4 => eoiWrite t (x.v % 1024) s
    | 0x8 => icShow t (plain x s)
    | 0x20 => plainIf (islSt (targetIsl t.1) s == .reset) x s
    | _ => plain x s
  else plain x s

/-- HERON: outside AWAKE only EVENT and the latches take a write; a sleep request is refused as R454 gives. -/
def wrHeron (x : RegWr) (s : State) : State :=
  let request := x.o == 0 && (x.v % 4 == 1 || x.v % 4 == 2)
  if heronState s != hAwake && !request && !([0x10, 0x30, 0x34, 0x38, 0x40, 0x44].contains x.o) then bad s
  else match x.o with
    | 0x0 => sleepCmd (x.v % 4) s
    | 0xC => clampF x 7 0 1 100 (plain x s)
    | _ => plain x s

/-! ### OWN (R489) -/

/-- A write of TONGS_CMD. -/
def wrTongs (x : RegWr) (s : State) : State :=
  let k := Fin.ofNat 32 x.v
  let nw := x.on 10
  let ni := Fin.ofNat 32 (x.v / 2 ^ 11)
  match x.v / 2 ^ 8 % 4 with
  | 1 => tongsCmd k nw ni (· == tgOwned) (tongsRequest k) s
  | 2 => tongsCmd k nw ni (fun y => y == tgOwned || y == tgReleasing) (tongsReset k.1 true) s
  | 3 => tongsCmd k nw ni (· == tgGrantable) (tongsGrant k.1 nw ni.1) s
  | _ => plain x s

/-- The registers of OWN that Hearth writes. -/
def wrOwnHearth (x : RegWr) (s : State) : State :=
  let off := !ftst F.OWN_CTRL_EN s
  match x.o with
  | 0x0 => whenB (!off) (fput F.OWN_CTRL_EN 1) (plain x s)
  | 0x10 | 0x14 => plainIf off x s
  | 0x1C => if x.on 1 then invalCmd none s else whenB (x.on 0) invalPage s
  | 0x28 => clampF x 13 0 10 10000 (plain x s)
  | 0x30 => keepAlive (BitVec.ofNat 32 x.v) s
  | 0x40 => clampF x 9 0 10 1000 (plain x s)
  | 0x48 => whenB (x.on 9) serviceUp s
  | 0xA0 => lcCmd (x.v % 4) (BitVec.ofNat 16 (x.v / 2 ^ 16)) s
  | 0xB0 => whenB (s.own.lc == 1 || s.own.lc == 3) (plain x) s
  | 0x500 => wrTongs x s
  | 0x504 => clampF x 15 0 1 10000 (plain x s)
  | 0x520 => cntClr x (clearRegs ownCounters) s
  | _ => plain x s

/-- OWN: Hearth's, but for the release page; a kick of another initiator is judged as one (R485). -/
def wrOwn (x : RegWr) (s : State) : State :=
  match x.o with
  | 0x10000 => tongsRel x.w (x.v % 32) s
  | 0x44 => hwdtKick x.w (BitVec.ofNat 32 x.v) s
  | _ => if 0x10000 < x.o then plain x s else hearthOnly x.w (wrOwnHearth x) s

/-! ### VQI (R501, R507, R511-R513) -/

/-- A write of an instance's CFG: INST and PLANE only while DISABLED. -/
def wrVqiCfg (i : Fin 32) (x : RegWr) (s : State) : State :=
  let off := vqiState i s == vqiDisabled
  let clash := !off && x.v / 2 % 64 != (rd x.a s).toNat / 2 % 64
  let s := plainMask (if off then 0xFE else 0x80) x s
  whenB clash bad (if x.on 0 then vqiEnable i s else vqiDisable i s)

/-- The manager's block of an instance. -/
def wrVqiBlock (i : Fin 32) (k : Nat) (x : RegWr) (s : State) : State :=
  match k with
  | 0x0 => wrVqiCfg i x s
  | 0x4 => s |> whenB (x.on 0) (managerReset i) |> whenB (x.on 1) (vqiFreeze i) |> whenB (x.on 2) (vqiThaw i)
  | 0xC => shareWrite i (x.v % 2048) s
  | 0x118 => cntClr x (clearRegs (vqiCounters i.1)) s
  | _ => if 0x10 ≤ k ∧ k < 0x30 then plainIf (vqiState i s == vqiDisabled) x s else plain x s

/-- The instance page: bases and RING_SIZE only while the pair is off or the instance FROZEN; EN = 0 at any time at which the pair has no items (R513, assumption 25). -/
def wrVqiPage (i : Fin 32) (k : Nat) (x : RegWr) (s : State) : State :=
  if k = 0x800 then whenB (x.on 0) (instanceReset i) s
  else if 0x200 ≤ k then plain x s
  else
    let p := Fin.ofNat 8 (k / 64)
    let on := ftst (F.VQI_RING_SIZE_i_p_EN i.1 p.1) s
    let busy := s.vqi.items.any (fun y => y.inst == i && y.pair == p)
    match k % 64 with
    | 0x14 => sqTail i p (BitVec.ofNat 13 x.v) s
    | 0x10 => plainIf (!on || (if x.on 12 then vqiState i s == vqiFrozen else !busy)) x s
    | 0x0 | 0x4 | 0x8 | 0xC => plainIf (!on || vqiState i s == vqiFrozen) x s
    | _ => plain x s

/-- VQI. -/
def wrVqi (x : RegWr) (s : State) : State :=
  if x.o = 0x8 then clampF x 9 0 512 767 (plain x s)
  else if x.o = 0x10 then plainIf ((List.finRange 32).all fun i => vqiState i s == vqiDisabled) x s
  else if x.o = 0x28 then
    match x.v / 2 ^ 8 % 4 with
    | 1 => migCmd x.w 1 (Fin.ofNat 32 x.v) s
    | 2 => migCmd x.w 2 (Fin.ofNat 32 x.v) s
    | _ => plain x s
  else if x.o = 0x1000 then hearthOnly x.w (plain x) s
  else if 0x20000 ≤ x.o ∧ x.o < 0x28000 then wrVqiBlock (Fin.ofNat 32 (ix x.o 0x20000 0x400)) (x.o % 0x400) x s
  else if 0x80000 ≤ x.o ∧ x.o < 0xA0000 then wrVqiPage (Fin.ofNat 32 (ix x.o 0x80000 0x1000)) (x.o % 0x1000) x s
  else plain x s

/-! ### KEY and TAMP (R559, R561) -/

/-- KEY. -/
def wrKey (x : RegWr) (s : State) : State :=
  hearthOnly x.w (fun s =>
    match x.o with
    | 0x18 => whenB (x.on 0) (jqSubmit x.w) s
    | 0x20 =>
      let k := Fin.ofNat 64 x.v
      match x.v / 2 ^ 8 % 4 with
      | 1 => slotClear k s
      | 2 => slotCommit k s
      | 3 => slotDiscard k s
      | _ => plain x s
    | 0x50 => cntClr x (clearRegs keyCounters) s
    | _ => plain x s) s

/-- TAMP: a locked CFG is read-only; INT_MASK is read-only in PRODUCTION. -/
def wrTamp (x : RegWr) (s : State) : State :=
  hearthOnly x.w (fun s =>
    match x.o with
    | 0x8 => whenB (x.on 0) clearLatch s
    | 0xC =>
      if ftst F.TAMP_STATUS_LOCKED s then s
      else whenB (x.on 31) tampLock (plainMask (if lcProduction s then 0x1F1F else 0x11F1F) x s)
    | _ => plain x s) s

/-! ### BLW and WDOG (R563, R577, R578, R589, R590) -/

/-- The range of TH_k, in mV (R563). -/
def thRange (k : Nat) : Nat × Nat := [(8000, 10500), (6500, 9000), (6000, 8000), (5000, 7000)].getD k (0, 0)

/-- A write of TH_k: in its range, and with every threshold at least 500 mV above the next (R563). Bellows sends it over the lanes (R382). -/
def wrTh (k : Nat) (x : RegWr) (s : State) : State :=
  let t := plain x s
  let th (j : Nat) : Nat := fget (F.BLW_TH_k j) t
  if (thRange k).1 ≤ th k ∧ th k ≤ (thRange k).2 ∧ (List.range 3).all (fun j => decide (th (j + 1) + 500 ≤ th j)) then
    whenB (laneAlive t) (updPd fun p => { p with th := #v[th 0, th 1, th 2, th 3] }) t
  else bad s

/-- BLW. -/
def wrBlw (x : RegWr) (s : State) : State :=
  match x.o with
  | 0x10 => wrTh 0 x s
  | 0x14 => wrTh 1 x s
  | 0x18 => wrTh 2 x s
  | 0x1C => wrTh 3 x s
  | 0x20 => clampF x 4 0 0 20 (plain x s)
  | 0x34 => clampF x 23 16 100 150 (plain x s)
  | 0x54 => cntClr x (clearRegs blwCounters) s
  | _ => plain x s

/-- A write of WD_CFG: ignored once LOCK is set; DIS is read-only in PRODUCTION, and clearing it starts a period (R577). -/
def wrWdCfg (x : RegWr) (s : State) : State :=
  if ftst F.WDOG_WD_CFG_LOCK s then s
  else
    let was := ftst F.WDOG_WD_CFG_DIS s
    let s := clampF x 13 0 10 10000 (plainMask (if lcProduction s then 0x8000FFFF else 0x8001FFFF) x s)
    whenB (was && !ftst F.WDOG_WD_CFG_DIS s) (updBlw fun b => { b with wdStart := s.now, wdFirst := none }) s

/-- A write of HB_CFG: a channel that is enabled starts ALIVE, one that is disabled is IDLE (R578). -/
def wrHb (c : Fin 16) (x : RegWr) (s : State) : State :=
  let was := ftst (F.WDOG_HB_CFG_c_EN c.1) s
  let s := clampF x 29 16 50 10000 (plain x s)
  if x.on 0 && !was then fput (F.WDOG_HB_STAT_c_STATE c.1) 1 (hbStart c s)
  else whenB (was && !x.on 0) (fput (F.WDOG_HB_STAT_c_STATE c.1) 0) s

/-- WDOG. -/
def wrWdog (x : RegWr) (s : State) : State :=
  if x.o = 0x0 then wrWdCfg x s
  else if x.o = 0x4 then wdKick (BitVec.ofNat 32 x.v) s
  else if 0x100 ≤ x.o ∧ x.o < 0x200 ∧ x.o % 16 = 0 then wrHb (Fin.ofNat 16 (ix x.o 0x100 16)) x s
  else if 0x1000 ≤ x.o then hbKick (Fin.ofNat 16 (ix x.o 0x1000 0x1000)) s
  else plain x s

end Sys2Proof.Machine
end

