-- ==== Sys2Proof/Machine/Bus.lean ====
section
/-!
DEFINITION. Reads and writes as an initiator's bus carries them (R6, R25, R32-R35, R421, R424-R428, R432, R467, R632, R641): what lies at an address, the order of the checks, narrow
accesses, posted writes, locked sequences, the debug port, and the pops that a hart discards.
-/
namespace Sys2Proof.Machine

/-- The bytes of an access. -/
def accBytes : AccSize → Nat
  | .byte => 1
  | .half => 2
  | .word => 4

/-- What lies at an address (R32-R35): the boot ROM, the shared banks or the usable DRAM, the settings-flash window, the RAMs of an engine, a register; nothing in the reserved parts. -/
inductive Land where
  | rom
  | ram
  | flash
  | engData (e : Fin 24)
  | engInstr (e : Fin 24)
  | reg (row : RegRow)
  | nothing

/-- Whether a register row is of an output that the power die does not have: the outputs 38 and 39 of LOADCH are reserved. -/
def reservedOut (a : Nat) : Bool :=
  (decide (0x10220980 ≤ a) && decide (a < 0x10220A00)) || (decide (0x10230260 ≤ a) && decide (a < 0x10230280))

/-- What an aligned access of `n` bytes meets. -/
def landAt (a n : Nat) (s : State) : Land :=
  if a + n ≤ 0x20000 then .rom
  else if inBanks a n || inDram a n s then .ram
  else if 0x20000000 ≤ a ∧ a < 0x28000000 then .flash
  else if 0x02000000 ≤ a ∧ a < 0x02C00000 ∧ a % 0x80000 < 0x10000 then .engInstr (Fin.ofNat 24 ((a - 0x02000000) / 0x80000))
  else if 0x02000000 ≤ a ∧ a < 0x02C00000 ∧ a % 0x80000 < 0x20000 then .engData (Fin.ofNat 24 ((a - 0x02000000) / 0x80000))
  else if reservedOut a then .nothing
  else match rowAt (a / 4 * 4) with
    | some row => .reg row
    | none => .nothing

/-! ### Registers (R6, R632) -/

/-- A full write of a register. -/
def writeReg (x : RegWr) (s : State) : State :=
  let a := x.a
  let at_ (base : Nat) : RegWr := { x with o := a - base }
  let unit (base stride : Nat) : RegWr := { x with o := (a - base) % stride }
  if 0x02000000 ≤ a ∧ a < 0x02C00000 then wrEng (Fin.ofNat 24 ((a - 0x02000000) / 0x80000)) (unit 0x02000000 0x80000) s
  else if a < 0x04010000 then wrSysctl (at_ 0x04000000) s
  else if a < 0x04020000 then wrTime (at_ 0x04010000) s
  else if a < 0x04030000 then wrTrg (at_ 0x04020000) s
  else if a < 0x04040000 then wrCam (Fin.ofNat 4 ((a - 0x04030000) / 0x4000)) (unit 0x04030000 0x4000) s
  else if a < 0x04200000 then wrSw (at_ 0x04100000) s
  else if a < 0x04300000 then wrSig (at_ 0x04200000) s
  else if a < 0x04400000 then wrIc (at_ 0x04300000) s
  else if a < 0x04500000 then wrOwn (at_ 0x04400000) s
  else if a < 0x04600000 then wrVqi (at_ 0x04500000) s
  else if a < 0x04700000 then wrKey (at_ 0x04600000) s
  else if a < 0x04800000 then wrTamp (at_ 0x04700000) s
  else if a < 0x04900000 then wrMem (at_ 0x04800000) s
  else if a < 0x04A00000 then wrCwy (at_ 0x04900000) s
  else if a < 0x100C0000 then wrCan (Fin.ofNat 12 ((a - 0x10000000) / 0x10000)) (unit 0x10000000 0x10000) s
  else if a < 0x10200000 then wrLin (Fin.ofNat 6 ((a - 0x10100000) / 0x1000)) (unit 0x10100000 0x1000) s
  else if a < 0x10300000 then wrLoadch (at_ 0x10200000) s
  else if a < 0x10400000 then wrFio (at_ 0x10300000) s
  else if a < 0x10500000 then wrNm (at_ 0x10400000) s
  else if a < 0x10600000 then wrHeron (at_ 0x10500000) s
  else if a < 0x10700000 then wrBlw (at_ 0x10600000) s
  else wrWdog (at_ 0x10700000) s

/-- The value that a narrow write writes: the addressed bytes take the data, each other byte of an RW field its present value, and of a W1C, W1S or WO field 0 (R632). -/
def mergedValue (a n data old rw : Nat) : Nat :=
  let sh := 8 * (a % 4)
  let m := (2 ^ (8 * n) - 1) * 2 ^ sh
  (data * 2 ^ sh &&& m) ||| (old &&& rw &&& (0xFFFFFFFF - m))

/-- A write of a register by an 8-, 16- or 32-bit access. -/
def narrowWrite (w : Initiator) (row : RegRow) (a n data : Nat) (s : State) : State :=
  let r := a / 4 * 4
  writeReg ⟨w, r, 0, row, mergedValue a n data (regView w r s) row.rw⟩ s

/-- The addressed bytes of a register that has been read in full. -/
def narrowData (a n : Nat) (s : State) : State :=
  if s.resp.status = .done then answer .done (s.resp.data.toNat / 2 ^ (8 * (a % 4)) % 2 ^ (8 * n)) s else s

/-! ### The bus (R25, R33, R425, R467) -/

/-- Whether a write to an instruction-RAM word is accepted: from Hearth, with every thread that may run the word IDLE, HALTED or TRAPPED (R169). -/
def instrWritable (w : Initiator) (e : Fin 24) (a : Nat) (s : State) : Bool :=
  let k := a % 0x80000 / 4
  initWorld w s && (List.finRange 4).all fun t =>
    thrQuiet e t s || decide (k < fget (F.ENG_THR_CODE_t_LO e.1 t.1) s) || decide (fget (F.ENG_THR_CODE_t_HI e.1 t.1) s < k)

/-- An access that nothing answers, or that what lies there refuses with an error. -/
def busError (s : State) : State := answer .failedBus 0 s

/-- What a write does where it arrives. -/
def landWrite (w : Initiator) (a n data : Nat) (s : State) : State :=
  match landAt a n s with
  | .rom | .flash => busError s
  | .ram => sealSettle (mwrN a n data s)
  | .engData _ => mwrN a n data s
  | .engInstr e => if instrWritable w e a s then mwrN a n data s else bad (violateBy w a true 4 s)
  | .reg row => narrowWrite w row a n data s
  | .nothing => busError (logUnmapped (initCode w) a s)

/-- What a read does where it arrives. -/
def landRead (w : Initiator) (a n : Nat) (s : State) : State :=
  match landAt a n s with
  | .rom | .flash => match physBytes a n s with
    | some d => answer .done (leNat d) s
    | none => busError (logUnmapped (initCode w) a s)
  | .ram | .engData _ | .engInstr _ => answer .done (mrdN a n s) s
  | .reg _ => narrowData a n (readReg w (a / 4 * 4) s)
  | .nothing => busError (logUnmapped (initCode w) a s)

/-- An access that is aligned and mapped to a page, checked for ownership, and let into the home island, as every register command is (R25, R33, R425, R467, R632). -/
def busAccess (w : Initiator) (a n : Nat) (write : Bool) (f : State → State) (s : State) : State :=
  if a % n ≠ 0 then busError s
  else if (ownEntryAddr a s).isNone then busError (logUnmapped (initCode w) a s)
  else regAccess w a write f s

/-- The byte enables of an access in its 32-bit part. -/
def byteEnables (a n : Nat) : Nat := (2 ^ n - 1) * 2 ^ (a % 4)

/-- A posted write's error goes into the error log, and the initiator has its normal response (R424, R426). -/
def postedEnd (w : Initiator) (a n : Nat) (s : State) : State :=
  if s.resp.status = .done then s
  else ok (cwyError (cwyEntry w a s.resp.status 0 (BitVec.ofNat 4 (byteEnables a n)) s) s)

/-- A write at its far side: a posted one's error does not come back to the initiator. -/
def farWrite (w : Initiator) (a n data : Nat) (s : State) : State :=
  if 0x10000000 ≤ a && a < 0x20000000 && cwyPosted a s then postedEnd w a n (landWrite w a n data s) else landWrite w a n data s

/-- A write of an initiator. -/
def busWrite (w : Initiator) (a n data : Nat) (s : State) : State := busAccess w a n true (farWrite w a n data) s

/-- A read of an initiator. -/
def busRead (w : Initiator) (a n : Nat) (s : State) : State := busAccess w a n false (landRead w a n) s

/-- REGISTER_WRITE (R6, R632): a write of a register. -/
def execRegisterWrite (w : Initiator) (addr : BitVec 40) (size : AccSize) (data : Word) (s : State) : Host.Outcome State Fault Refusal :=
  .next (busWrite w addr.toNat (accBytes size) data.toNat s)

/-- Whether the debug port is connected: in DEVELOP and RETURNED, in BLANK as fused at wafer test (R484, and chapter 00 on the life-cycle states). -/
def debugPort (s : State) : Bool := s.own.lc == 1 || s.own.lc == 3 || (s.own.lc == 0 && Config.blankDebug)

/-- DEBUG_ACCESS (R484, R641): a port that is not connected does nothing; while MEM is stopped or off it answers itself, with an error. -/
def execDebugAccess (write : Bool) (addr : BitVec 40) (size : AccSize) (data : Word) (s : State) : Host.Outcome State Fault Refusal :=
  .next (if !debugPort s then s
  else if !islOpen islMEM s then busError s
  else if write then busWrite .debug addr.toNat (accBytes size) data.toNat s
  else busRead .debug addr.toNat (accBytes size) s)

/-! ### Locked sequences (R427, R428) -/

/-- Gives the lock of the peripheral fabric. -/
def setLock (l : Option (Fin 8 × Nat × Nat)) (s : State) : State := updCwy (fun c => { c with lock := l }) s

/-- An upward transfer that the downward one met was answered RETRY so many times; at eight the Causeway admits no new downward transfer until it completes (R428). -/
def retried (n : Nat) (s : State) : State :=
  whenB (decide (8 ≤ n)) (fun s => raise F.CWY_EVENT 2 (bump R.CWY_RETRY_HOLD_CNT s)) (bumpBy n R.CWY_RETRY_CNT s)

/-- The AMO, LR or SC of a hart on a word of the peripheral fabric (R427). -/
def lockedWord (h : Fin 8) (op : AmoOp) (a v : Nat) (s : State) : State :=
  match op with
  | .lr =>
    let s := busRead (.hart h) a 4 s
    if s.resp.status = .done then setLock (some (h, a, s.now)) s else s
  | .sc =>
    if s.cwy.lock.any fun l => l.1 == h && l.2.1 == a && decide (s.now < l.2.2 + 256) then busWrite (.hart h) a 4 v (setLock none s) else answer .done 1 s
  | _ =>
    let s := busRead (.hart h) a 4 s
    if s.resp.status = .done then
      let old := s.resp.data.toNat
      let s := busWrite (.hart h) a 4 (amoValue 32 op old v) s
      if s.resp.status = .done then answer .done old s else s
    else s

/-- CWY_LOCKED_SEQUENCE (R427): a doubleword one completes FAILED_BUS, a misaligned one is an exception of the hart (R418). -/
def execCwyLockedSequence (h : Fin 8) (op : AmoOp) (dbl : Bool) (addr : BitVec 40) (v : Word) (retries : Fin 9) (s : State) :
    Host.Outcome State Fault Refusal :=
  .next (
    let a := addr.toNat
    if a < 0x10000000 ∨ 0x20000000 ≤ a then s
    else if a % (if dbl then 8 else 4) ≠ 0 then busError (hartExc h (amoMisaligned op) s)
    else if dbl then busError s
    else retried retries.1 (lockedWord h op a v.toNat s))

/-! ### Pops that are discarded (R432) -/

/-- Counts a pop that has been restored. -/
def popRestored (s : State) : State := bump R.MEM_SPEC_POP s

/-- Restores a capture entry. -/
def undoCap (m : Fin 16) (s : State) : State :=
  match s.cap[m.1].undo with
  | none => s
  | some e => popRestored (showCap m (updCap m (fun c => { c with fifo := e :: c.fifo, undo := none }) s))

/-- Restores a received CAN entry; one that is no longer locked for the host has gone back already. -/
def undoCanRx (c : Fin 12) (s : State) : State :=
  match (canSt c s).undo with
  | none => s
  | some i =>
    let s := updCan c (fun x => { x with undo := none }) s
    if (canSt c s).popped.any fun p => p.1 == i then
      popRestored (updCan c (fun x => { x with rxq := i :: x.rxq, popped := x.popped.filter fun p => p.1 != i }) s)
    else s

/-- Restores an error entry of the Causeway. -/
def undoErrlog (s : State) : State :=
  match s.cwy.undo with
  | none => s
  | some e => popRestored (showErrlog (updCwy (fun c => { c with log := e :: c.log, undo := none }) s))

/-- Restores a violation record. -/
def undoViol (s : State) : State :=
  match s.own.undo with
  | none => s
  | some v => popRestored (updOwn (fun o => { o with viol := v :: o.viol, undo := none }) s)

/-- Makes an edge source, or a level source that has no status bit, request again. -/
def reRequest (i : Nat) (s : State) : State :=
  if 768 ≤ i then updIc (fun c => { c with edge := c.edge ||| BitVec.ofNat 256 (2 ^ (i - 768)) }) s else pulse i s

/-- Takes a claim back: its source leaves the stack, and requests again if the claim took its request. -/
def undoClaim (t : Fin 13) (s : State) : State :=
  match s.ic.undo[t.1] with
  | none => s
  | some (i, latched) => popRestored (whenB latched (reRequest i) (icPop t s))

/-- POP_UNDO (R432). -/
def execPopUndo (r : PopReg) (s : State) : Host.Outcome State Fault Refusal :=
  .next (match r with
  | .capture m => undoCap m s
  | .canRx c => undoCanRx c s
  | .errlog => undoErrlog s
  | .violation => undoViol s
  | .claim t => undoClaim t s)

end Sys2Proof.Machine
end

