-- ==== Sys2Proof/Machine/NyAlu.lean ====
section
/-!
DEFINITION. The engine instructions that act on registers alone (chapter 05): arithmetic, branches and jumps, bit fields.
-/
namespace Sys2Proof.Machine

/-! ### Arithmetic (R180, R187) -/

/-- An instruction of the register form: nd receives a function of na and nb (R180). -/
def aluRR (k : Fin 16) (f : Word → Word → Word) (e : Fin 24) (t : Fin 4) (nd na nb : Fin 32) (s : State) : State :=
  issue e t (.alu k nd na nb) (fun _ s => retire e t (setN e t nd (f (getN e t na s) (getN e t nb s)) s)) s

/-- An instruction of the immediate form: nd receives a function of na and the immediate (R180). -/
def aluRI (k : Fin 10) (f : Word → BitVec 16 → Word) (e : Fin 24) (t : Fin 4) (nd na : Fin 32) (imm : BitVec 16) (s : State) : State :=
  issue e t (.aluI k nd na imm) (fun _ s => retire e t (setN e t nd (f (getN e t na s) imm) s)) s

/-- Leading zeros of a word, 32 for 0. -/
def leadingZeros (a : Word) : Nat := ((List.range 32).reverse.takeWhile fun i => !a.getLsbD i).length

/-- The 1 bits of a word. -/
def onesOf (a : Word) : Nat := ((List.range 32).filter fun i => a.getLsbD i).length

/-- 1 when a condition holds, else 0. -/
def flagWord (c : Bool) : Word := if c then 1 else 0

/-- The high 32 bits of the signed product. -/
def mulHigh (a b : Word) : Word := BitVec.ofInt 32 (a.toInt * b.toInt / 2 ^ 32)

/-- ADD (R180). -/
def execAdd (e : Fin 24) (t : Fin 4) (nd na nb : Fin 32) (s : State) : Host.Outcome State Fault Refusal :=
  .next (aluRR 0 (fun a b => a + b) e t nd na nb s)

/-- SUB (R180). -/
def execSub (e : Fin 24) (t : Fin 4) (nd na nb : Fin 32) (s : State) : Host.Outcome State Fault Refusal :=
  .next (aluRR 1 (fun a b => a - b) e t nd na nb s)

/-- AND (R180). -/
def execAnd (e : Fin 24) (t : Fin 4) (nd na nb : Fin 32) (s : State) : Host.Outcome State Fault Refusal :=
  .next (aluRR 2 (fun a b => a &&& b) e t nd na nb s)

/-- OR (R180). -/
def execOr (e : Fin 24) (t : Fin 4) (nd na nb : Fin 32) (s : State) : Host.Outcome State Fault Refusal :=
  .next (aluRR 3 (fun a b => a ||| b) e t nd na nb s)

/-- XOR (R180). -/
def execXor (e : Fin 24) (t : Fin 4) (nd na nb : Fin 32) (s : State) : Host.Outcome State Fault Refusal :=
  .next (aluRR 4 (fun a b => a ^^^ b) e t nd na nb s)

/-- SHL (R180). -/
def execShl (e : Fin 24) (t : Fin 4) (nd na nb : Fin 32) (s : State) : Host.Outcome State Fault Refusal :=
  .next (aluRR 5 (fun a b => a <<< (b.toNat % 32)) e t nd na nb s)

/-- SHR (R180). -/
def execShr (e : Fin 24) (t : Fin 4) (nd na nb : Fin 32) (s : State) : Host.Outcome State Fault Refusal :=
  .next (aluRR 6 (fun a b => a >>> (b.toNat % 32)) e t nd na nb s)

/-- SAR (R180). -/
def execSar (e : Fin 24) (t : Fin 4) (nd na nb : Fin 32) (s : State) : Host.Outcome State Fault Refusal :=
  .next (aluRR 7 (fun a b => a.sshiftRight (b.toNat % 32)) e t nd na nb s)

/-- MUL (R180). -/
def execMul (e : Fin 24) (t : Fin 4) (nd na nb : Fin 32) (s : State) : Host.Outcome State Fault Refusal :=
  .next (aluRR 8 (fun a b => a * b) e t nd na nb s)

/-- MULH (R180). -/
def execMulh (e : Fin 24) (t : Fin 4) (nd na nb : Fin 32) (s : State) : Host.Outcome State Fault Refusal :=
  .next (aluRR 9 (fun a b => mulHigh a b) e t nd na nb s)

/-- MIN (R180). -/
def execMin (e : Fin 24) (t : Fin 4) (nd na nb : Fin 32) (s : State) : Host.Outcome State Fault Refusal :=
  .next (aluRR 10 (fun a b => if a.slt b then a else b) e t nd na nb s)

/-- MAX (R180). -/
def execMax (e : Fin 24) (t : Fin 4) (nd na nb : Fin 32) (s : State) : Host.Outcome State Fault Refusal :=
  .next (aluRR 11 (fun a b => if a.slt b then b else a) e t nd na nb s)

/-- SLT (R180). -/
def execSlt (e : Fin 24) (t : Fin 4) (nd na nb : Fin 32) (s : State) : Host.Outcome State Fault Refusal :=
  .next (aluRR 14 (fun a b => flagWord (a.slt b)) e t nd na nb s)

/-- SLTU (R180). -/
def execSltu (e : Fin 24) (t : Fin 4) (nd na nb : Fin 32) (s : State) : Host.Outcome State Fault Refusal :=
  .next (aluRR 15 (fun a b => flagWord (a.ult b)) e t nd na nb s)

/-- CLZ (R180). -/
def execClz (e : Fin 24) (t : Fin 4) (nd na : Fin 32) (s : State) : Host.Outcome State Fault Refusal :=
  .next (aluRR 12 (fun a _ => BitVec.ofNat 32 (leadingZeros a)) e t nd na 0 s)

/-- POPC (R180). -/
def execPopc (e : Fin 24) (t : Fin 4) (nd na : Fin 32) (s : State) : Host.Outcome State Fault Refusal :=
  .next (aluRR 13 (fun a _ => BitVec.ofNat 32 (onesOf a)) e t nd na 0 s)

/-- ADDI (R180). -/
def execAddi (e : Fin 24) (t : Fin 4) (nd na : Fin 32) (imm : BitVec 16) (s : State) : Host.Outcome State Fault Refusal :=
  .next (aluRI 0 (fun a i => a + i.signExtend 32) e t nd na imm s)

/-- ANDI (R180). -/
def execAndi (e : Fin 24) (t : Fin 4) (nd na : Fin 32) (imm : BitVec 16) (s : State) : Host.Outcome State Fault Refusal :=
  .next (aluRI 1 (fun a i => a &&& i.setWidth 32) e t nd na imm s)

/-- ORI (R180). -/
def execOri (e : Fin 24) (t : Fin 4) (nd na : Fin 32) (imm : BitVec 16) (s : State) : Host.Outcome State Fault Refusal :=
  .next (aluRI 2 (fun a i => a ||| i.setWidth 32) e t nd na imm s)

/-- XORI (R180). -/
def execXori (e : Fin 24) (t : Fin 4) (nd na : Fin 32) (imm : BitVec 16) (s : State) : Host.Outcome State Fault Refusal :=
  .next (aluRI 3 (fun a i => a ^^^ i.setWidth 32) e t nd na imm s)

/-- SHLI (R180). -/
def execShli (e : Fin 24) (t : Fin 4) (nd na : Fin 32) (imm : BitVec 16) (s : State) : Host.Outcome State Fault Refusal :=
  .next (aluRI 4 (fun a i => a <<< (i.toNat % 32)) e t nd na imm s)

/-- SHRI (R180). -/
def execShri (e : Fin 24) (t : Fin 4) (nd na : Fin 32) (imm : BitVec 16) (s : State) : Host.Outcome State Fault Refusal :=
  .next (aluRI 5 (fun a i => a >>> (i.toNat % 32)) e t nd na imm s)

/-- SARI (R180). -/
def execSari (e : Fin 24) (t : Fin 4) (nd na : Fin 32) (imm : BitVec 16) (s : State) : Host.Outcome State Fault Refusal :=
  .next (aluRI 6 (fun a i => a.sshiftRight (i.toNat % 32)) e t nd na imm s)

/-- SLTI (R180). -/
def execSlti (e : Fin 24) (t : Fin 4) (nd na : Fin 32) (imm : BitVec 16) (s : State) : Host.Outcome State Fault Refusal :=
  .next (aluRI 8 (fun a i => flagWord (a.slt (i.signExtend 32))) e t nd na imm s)

/-- SLTUI (R180). -/
def execSltui (e : Fin 24) (t : Fin 4) (nd na : Fin 32) (imm : BitVec 16) (s : State) : Host.Outcome State Fault Refusal :=
  .next (aluRI 9 (fun a i => flagWord (a.ult (i.signExtend 32))) e t nd na imm s)

/-- LUI (R180). -/
def execLui (e : Fin 24) (t : Fin 4) (nd : Fin 32) (imm : BitVec 16) (s : State) : Host.Outcome State Fault Refusal :=
  .next (aluRI 7 (fun _ i => i.setWidth 32 <<< 16) e t nd 0 imm s)

/-! ### Branches and jumps (R183, R190) -/

/-- A word index moved by a signed number of words, modulo 2^14. -/
def pcOffset (pc : Nat) (off : Int) : Nat := (((pc : Int) + off) % 16384).toNat

/-- A conditional branch (R183). -/
def branchIf (k : Fin 6) (c : Word → Word → Bool) (e : Fin 24) (t : Fin 4) (na nb : Fin 32) (off : BitVec 16) (s : State) : State :=
  issue e t (.branch k na nb off) (fun _ s =>
    if c (getN e t na s) (getN e t nb s) then putPc e t (pcOffset (thrPc e t s) off.toInt) s else retire e t s) s

/-- BEQ (R183). -/
def execBeq (e : Fin 24) (t : Fin 4) (na nb : Fin 32) (off : BitVec 16) (s : State) : Host.Outcome State Fault Refusal :=
  .next (branchIf 0 (fun a b => a == b) e t na nb off s)

/-- BNE (R183). -/
def execBne (e : Fin 24) (t : Fin 4) (na nb : Fin 32) (off : BitVec 16) (s : State) : Host.Outcome State Fault Refusal :=
  .next (branchIf 1 (fun a b => a != b) e t na nb off s)

/-- BLT (R183). -/
def execBlt (e : Fin 24) (t : Fin 4) (na nb : Fin 32) (off : BitVec 16) (s : State) : Host.Outcome State Fault Refusal :=
  .next (branchIf 2 (fun a b => a.slt b) e t na nb off s)

/-- BGE (R183). -/
def execBge (e : Fin 24) (t : Fin 4) (na nb : Fin 32) (off : BitVec 16) (s : State) : Host.Outcome State Fault Refusal :=
  .next (branchIf 3 (fun a b => !a.slt b) e t na nb off s)

/-- BLTU (R183). -/
def execBltu (e : Fin 24) (t : Fin 4) (na nb : Fin 32) (off : BitVec 16) (s : State) : Host.Outcome State Fault Refusal :=
  .next (branchIf 4 (fun a b => a.ult b) e t na nb off s)

/-- BGEU (R183). -/
def execBgeu (e : Fin 24) (t : Fin 4) (na nb : Fin 32) (off : BitVec 16) (s : State) : Host.Outcome State Fault Refusal :=
  .next (branchIf 5 (fun a b => !a.ult b) e t na nb off s)

/-- JAL (R190): the link goes to n31. -/
def execJal (e : Fin 24) (t : Fin 4) (off : BitVec 26) (s : State) : Host.Outcome State Fault Refusal :=
  .next (issue e t (.jal off) (fun _ s =>
    let pc := thrPc e t s
    putPc e t (pcOffset pc off.toInt) (setN e t 31 (BitVec.ofNat 32 (pc + 1)) s)) s)

/-- JALR (R190): the target is computed before the link is written. -/
def execJalr (e : Fin 24) (t : Fin 4) (nd na : Fin 32) (imm : BitVec 16) (s : State) : Host.Outcome State Fault Refusal :=
  .next (issue e t (.jalr nd na imm) (fun _ s =>
    let target := (getN e t na s + imm.signExtend 32).toNat % 16384
    putPc e t target (setN e t nd (BitVec.ofNat 32 (thrPc e t s + 1)) s)) s)

/-! ### Bit fields (R191) -/

/-- The mask of a width given as width - 1. -/
def widthMask (w : Fin 32) : Word := BitVec.ofNat 32 (2 ^ (w.1 + 1) - 1)

/-- A field of a word, sign-extended when asked. -/
def extractField (w pos : Fin 32) (sx : Bool) (a : Word) : Word :=
  let v := (a >>> pos.1) &&& widthMask w
  if sx && v.getLsbD w.1 then v ||| ~~~widthMask w else v

/-- EXT (R191). -/
def execExt (e : Fin 24) (t : Fin 4) (nd na width pos : Fin 32) (sx : Bool) (s : State) : Host.Outcome State Fault Refusal :=
  .next (issue e t (.field 0 nd na width pos sx) (fun _ s => retire e t (setN e t nd (extractField width pos sx (getN e t na s)) s)) s)

/-- INS (R191). -/
def execIns (e : Fin 24) (t : Fin 4) (nd na width pos : Fin 32) (s : State) : Host.Outcome State Fault Refusal :=
  .next (issue e t (.field 1 nd na width pos false) (fun _ s =>
    retire e t (setN e t nd ((getN e t nd s &&& ~~~(widthMask width <<< pos.1)) ||| ((getN e t na s &&& widthMask width) <<< pos.1)) s)) s)

/-- DEP (R191). -/
def execDep (e : Fin 24) (t : Fin 4) (nd na width pos : Fin 32) (s : State) : Host.Outcome State Fault Refusal :=
  .next (issue e t (.field 2 nd na width pos false) (fun _ s => retire e t (setN e t nd ((getN e t na s &&& widthMask width) <<< pos.1) s)) s)

end Sys2Proof.Machine
end

