-- ==== Sys2Proof/Machine/NyQueue.lean ====
section
/-!
DEFINITION. The engine instructions of the packet window and of the hardware queues (chapters 04 and 05): PKHOLD, PKSEND, PKDROP, PKCOPY, TSEND, TSTAMP, QPOP, QPUSH, QACK, QPEEK.
-/
namespace Sys2Proof.Machine

/-- A status goes to nd. -/
def setStatus (e : Fin 24) (t : Fin 4) (nd : Fin 32) (st : Status) (s : State) : State := setN e t nd (BitVec.ofNat 32 st.code) s

/-- Changes a held item. -/
def updHold (e : Fin 24) (t : Fin 4) (h : Nat) (f : Hold → Hold) (s : State) : State :=
  updThr e t (fun x => { x with holds := x.holds.map fun y => if y.handle = h then f y else y }) s

/-- Puts an item into the hold table in handle order. -/
def addHold (e : Fin 24) (t : Fin 4) (x : Hold) (s : State) : State :=
  updThr e t (fun y => { y with holds := y.holds.filter (fun z => decide (z.handle < x.handle)) ++ [x] ++ y.holds.filter fun z => decide (x.handle < z.handle) }) s

/-! ### The packet window (R157) -/

/-- The window copy is written back to the selected packet. -/
def windowBack (e : Fin 24) (t : Fin 4) (s : State) : State :=
  match (thr e t s).selected with
  | none => s
  | some h =>
    let w := (thr e t s).window.toList
    updHold e t h (fun x => { x with pkt := x.pkt.map fun p => { p with bytes := w ++ p.bytes.drop 256 } }) s

/-- A held packet is selected into the window, after the copy of the packet selected before is written back. -/
def windowSelect (e : Fin 24) (t : Fin 4) (h : Nat) (s : State) : State :=
  if (thr e t s).selected = some h then s
  else
    let s := windowBack e t s
    match (heldItem e t h s).bind Hold.pkt with
    | none => s
    | some p => updThr e t (fun x => { x with window := Vector.ofFn fun k => p.bytes.getD k.1 0, selected := some h }) s

/-- A packet of `len` bytes: those that nothing has written are 0 (R193). -/
def packetOf (p : Packet) (len : Nat) : Packet := { p with bytes := (p.bytes ++ List.replicate (len - p.bytes.length) 0).take len }

/-- A held packet by its handle operand; none traps QUEUE. -/
def heldPacket (e : Fin 24) (t : Fin 4) (na : Fin 32) (s : State) : Option (Hold × Packet) :=
  (heldItem e t ((getN e t na s).toNat % 256) s).bind fun x => x.pkt.map fun p => (x, p)

/-- Whether a held item is a camera line. -/
def Hold.isLine (x : Hold) : Bool := decide (0x010 ≤ x.qid) && decide (x.qid < 0x014)

/-- Allocates a packet for port E (R192): none without buffer space. -/
def allocPacket (c len : Nat) (s : State) : Option (Packet × State) :=
  let half := planeOf portE s
  if len < 60 ∨ 1518 < len ∨ homeOpen R.SW_CTRL s = false ∨ planeOk half s = false then none
  else match poolFit half c (cellsOf (len + 4)) s with
    | none => none
    | some cells =>
      let id := s.sw.nextId
      some (⟨List.replicate len 0, some c, none, some (id, half)⟩, poolTake id half c 1 cells (updSw (fun w => { w with nextId := w.nextId + 1 }) s))

/-- PKHOLD (R192). -/
def pkHold (e : Fin 24) (t : Fin 4) (nd na nb : Fin 32) (c : Fin 8) (s : State) : State :=
  issue e t (.packet 0 nd na nb c) (fun word s =>
    if getN e t na s ≠ 0 then
      match heldPacket e t na s with
      | none => trap e t word trQueue 0 s
      | some (x, _) =>
        let r := setN e t nd (BitVec.ofNat 32 x.handle) (windowSelect e t x.handle s)
        if (thr e t s).selected = some x.handle then retire e t r else retireWait e t r
    else match freeHandle e t s with
      | none => trap e t word trHoldFull 0 s
      | some h =>
        if 4 ≤ heldPackets e t s then trap e t word trHoldFull 0 s
        else
          let len := (getN e t nb s).toNat
          match allocPacket c.1 len s with
          | none => retireWait e t (setN e t nd 0 s)
          | some (p, s) =>
            let s := windowSelect e t h (addHold e t ⟨h, 0x208, 0, 0, some p, len, none⟩ s)
            retireWait e t (setN e t nd (BitVec.ofNat 32 h) s)) s

/-- PKHOLD. -/
def execPkhold (e : Fin 24) (t : Fin 4) (nd na nb : Fin 32) (c : Fin 8) (s : State) : Host.Outcome State Fault Refusal := .next (pkHold e t nd na nb c s)

/-- The size of a stamp insertion by its form (R203). -/
def markSize (form : Bool) : Nat := if form then 10 else 12

/-- Whether a packet of a length has room for its stamp mark. -/
def markFits (p : Packet) (len : Nat) : Bool :=
  match p.mark with
  | some (o, form) => decide (o + markSize form ≤ len)
  | none => true

/-- A handle is freed, and no packet is selected: the copy of another packet that was selected is written back (assumption 26). -/
def sentHold (e : Fin 24) (t : Fin 4) (h : Nat) (s : State) : State := updThr e t (fun x => { x with selected := none }) (dropHold e t h (windowBack e t s))

/-- PKSEND and TSEND hand a held packet on: `go` is what its home block does with the packet of its length, unless it has ended it; none ends it FAILED_REFUSED. -/
def sendPacket (e : Fin 24) (t : Fin 4) (word : Nat) (nd na : Fin 32) (go : Hold → Packet → State → Option (Status × State)) (s : State) : State :=
  let s := if (thr e t s).selected = some ((getN e t na s).toNat % 256) then windowBack e t s else s
  match heldPacket e t na s with
  | none => trap e t word trQueue 0 s
  | some (x, p) =>
    let (st, s) := match x.ended with
      | some _ => endItem x .done s
      | none =>
        match go x p s with
        | some r => r
        | none => endItem x .failedRefused s
    retireWait e t (setStatus e t nd st (sentHold e t x.handle s))

/-- PKSEND (R193, R203): a line goes to the packetiser, any other packet to port E. -/
def pkSend (e : Fin 24) (t : Fin 4) (nd na nb : Fin 32) (s : State) : State :=
  issue e t (.packet 1 nd na nb 0) (fun word s =>
    let new := (getN e t nb s).toNat % 16384
    sendPacket e t word nd na (fun x p s =>
      if x.isLine then
        let n : Fin 4 := Fin.ofNat 4 (x.qid - 0x010)
        let len := match s.cam[n.1].staged.find? fun l => l.id == x.ref with | some l => min (max 1 Config.segMax) l.payload.length | none => 0
        if markFits p (98 + len) = false then none else some (.done, lineSent n x.ref (p.bytes.take 98) p.mark s)
      else
        let len := if new = 0 then x.len else new
        if new ≠ 0 ∧ (new < 60 ∨ max 1518 x.len < new) ∨ markFits p len = false then none
        else some (portESend e t (packetOf p len) s)) s) s

/-- PKSEND. -/
def execPksend (e : Fin 24) (t : Fin 4) (nd na nb : Fin 32) (s : State) : Host.Outcome State Fault Refusal := .next (pkSend e t nd na nb s)

/-- TSEND (R202): port E admits the packet at its launch time. -/
def tSend (e : Fin 24) (t : Fin 4) (nd na nb : Fin 32) (s : State) : State :=
  issue e t (.time 2 nd na nb false) (fun word s =>
    let at_ := runVt e t nb s
    sendPacket e t word nd na (fun x p s =>
      match at_ with
      | none => none
      | some v =>
        if x.isLine ∨ vt16 s + secNs * 65536 < v ∨ markFits p x.len = false then none
        else
          let p := packetOf p x.len
          if v ≤ vt16 s then some (portESend e t p s)
          else some (.done, updSw (fun w => { w with launches := w.launches ++ [⟨v, e, t, p⟩] }) s)) s) s

/-- TSEND. -/
def execTsend (e : Fin 24) (t : Fin 4) (nd na nb : Fin 32) (s : State) : Host.Outcome State Fault Refusal := .next (tSend e t nd na nb s)

/-- A packet of port E that is dropped is counted with the frames that end FAILED_REFUSED; the manual names no counter of its own (R154, assumption 26). -/
def countDrop (x : Hold) (s : State) : State :=
  whenB (x.ended.isNone && decide (0x200 ≤ x.qid) && decide (x.qid ≤ 0x208)) (bump (R.SW_ECPL_CNT_s (ecplIndex .failedRefused))) s

/-- PKDROP (R194). -/
def execPkdrop (e : Fin 24) (t : Fin 4) (nd na : Fin 32) (s : State) : Host.Outcome State Fault Refusal :=
  .next (issue e t (.packet 2 nd na 0 0) (fun word s =>
    match heldPacket e t na s with
    | none => trap e t word trQueue 0 s
    | some (x, _) =>
      let (st, s) := endItem x .failedRefused (countDrop x s)
      retireWait e t (setStatus e t nd st (dropHold e t x.handle s))) s)

/-- TSTAMP (R203). -/
def execTstamp (e : Fin 24) (t : Fin 4) (na : Fin 32) (form : Bool) (s : State) : Host.Outcome State Fault Refusal :=
  .next (issue e t (.time 3 0 na 0 form) (fun word s =>
    let o := (getN e t na s).toNat
    match (thr e t s).selected with
    | none => trap e t word trWindow o s
    | some h =>
      if o < 14 ∨ 256 < o + markSize form then trap e t word trWindow o s
      else retire e t (updHold e t h (fun x => { x with pkt := x.pkt.map fun p => { p with mark := some (o, form) } }) s)) s)

/-- The window of a PKCOPY's local range of `n` bytes: data RAM or the banks (R195). -/
def copyWindow (a n : Nat) : Option Win := if a + n ≤ 0x10000 then some (.data a) else if inBanks a n then some (.bank a) else none

/-- The bytes of a packet are moved: to memory, or from memory into the window copy and the buffer (R195). -/
def pkMove (e : Fin 24) (t : Fin 4) (toPacket : Bool) (h off n : Nat) (w : Win) (s : State) : State :=
  let s := windowBack e t s
  match (heldItem e t h s).bind Hold.pkt with
  | none => s
  | some p =>
    let b := p.bytes ++ List.replicate (off + n - p.bytes.length) 0
    if toPacket then
      let b := b.take off ++ winBytes e t w n s ++ b.drop (off + n)
      let s := updHold e t h (fun x => { x with pkt := some { p with bytes := b } }) s
      updThr e t (fun x => { x with window := Vector.ofFn fun k => b.getD k.1 0 }) s
    else putWinBytes e t w ((b.drop off).take n) s

/-- PKCOPY (R195); `r` is the answer of the memory. -/
def pkCopy (e : Fin 24) (t : Fin 4) (nd na nb : Fin 32) (toPacket : Bool) (r : BusEnd) (s : State) : State :=
  issue e t (.packet 3 nd na nb (if toPacket then 1 else 0)) (fun word s =>
    let a := (getN e t na s).toNat
    let v := (getN e t nb s).toNat
    let off := v % 65536
    let n := v / 65536
    match copyWindow a (clampNat 1 2048 n), (thr e t s).selected.bind fun h => heldItem e t h s with
    | some w, some x =>
      if n = 0 ∨ 2048 < n ∨ x.len < off + n then retireWait e t (setStatus e t nd .failedRefused s)
      else
        let check := match w with
          | .bank p => (match outerCheck e t (!toPacket) p n s with
            | (some c, s) => (some c, s)
            | (none, s) => endTrap e p r s)
          | _ => (if toPacket && r == .eccError then some trEcc else none, s)
        match check with
        | (some c, s) => trap e t word c a s
        | (none, s) => retireWait e t (setStatus e t nd .done (sealSettle (pkMove e t toPacket x.handle off n w s)))
    | _, _ => trap e t word trWindow a s) s

/-- PKCOPY. -/
def execPkcopy (e : Fin 24) (t : Fin 4) (nd na nb : Fin 32) (dir : Bool) (r : BusEnd) (s : State) : Host.Outcome State Fault Refusal :=
  .next (pkCopy e t nd na nb dir r s)

/-! ### Queues (R150-R158, R196) -/

/-- Word 0 of a descriptor (R152). -/
def descWord (h : Nat) (x : MailItem) : Nat := h % 256 + x.kind % 256 * 256 + x.len % 65536 * 65536

/-- The head of a bound queue for a thread; none while the home block is gone (R158). -/
def slotHead (e : Fin 24) (q qid : Nat) (s : State) : Option QHead := if ftst (F.ENG_QSLOT_q_GONE e.1 q) s then none else qHead qid s

/-- An empty queue gives word 0 = 0; the manual does not state the other words (assumption 26). -/
def emptyDesc (e : Fin 24) (t : Fin 4) (nd : Fin 32) (s : State) : State :=
  let a := freeVal s
  let s := useFree s
  let b := freeVal s
  let s := useFree s
  setRun e t nd [0, a, b, freeVal s] (useFree s)

/-- A descriptor goes to nd and the three registers after it. -/
def setDesc (e : Fin 24) (t : Fin 4) (nd : Fin 32) (h : Nat) (x : MailItem) (s : State) : State :=
  setRun e t nd [descWord h x, x.words.1, x.words.2.1, x.words.2.2] s

/-- The length of a packet item: its descriptor counts the FCS, but for a camera line (R157, R234). -/
def itemLen (qid : Nat) (x : MailItem) (p : Packet) : Nat := if 0x010 ≤ qid ∧ qid < 0x014 then p.bytes.length else x.len - 4

/-- QPOP (R152, R157). -/
def qPop (e : Fin 24) (t : Fin 4) (nd q : Fin 32) (s : State) : State :=
  issue e t (.slot 0 nd q) (fun word s =>
    match slotQid e t q.1 false s with
    | none => trap e t word trQueue q.1 s
    | some qid =>
      match freeHandle e t s with
      | none => trap e t word trHoldFull q.1 s
      | some h =>
        match slotHead e q.1 qid s with
        | none => retireWait e t (emptyDesc e t nd s)
        | some x =>
          if x.item.pkt.isSome && decide (4 ≤ heldPackets e t s) then trap e t word trHoldFull q.1 s
          else
            let len := match x.item.pkt with
              | some p => itemLen qid x.item p
              | none => x.item.len
            let s := addHold e t ⟨h, qid, x.ref, x.gen, x.item.pkt, len, none⟩ (qTake qid x s)
            let s := if x.item.pkt.isSome then windowSelect e t h s else s
            retireWait e t (setDesc e t nd h x.item s)) s

/-- QPOP. -/
def execQpop (e : Fin 24) (t : Fin 4) (nd q : Fin 32) (s : State) : Host.Outcome State Fault Refusal := .next (qPop e t nd q s)

/-- QPEEK (R156). -/
def execQpeek (e : Fin 24) (t : Fin 4) (nd q : Fin 32) (s : State) : Host.Outcome State Fault Refusal :=
  .next (issue e t (.slot 2 nd q) (fun word s =>
    match slotQid e t q.1 false s with
    | none => trap e t word trQueue q.1 s
    | some qid =>
      match slotHead e q.1 qid s with
      | none => retireWait e t (emptyDesc e t nd s)
      | some x => retireWait e t (setDesc e t nd 0 x.item s)) s)

/-- QPUSH (R156, R158); `r` is the answer of the memory that holds a servo sample. -/
def qPushInsn (e : Fin 24) (t : Fin 4) (nd q : Fin 32) (r : BusEnd) (s : State) : State :=
  issue e t (.slot 1 nd q) (fun word s =>
    match slotQid e t q.1 true s with
    | none => trap e t word trQueue q.1 s
    | some qid =>
      let w (i : Nat) := (getN e t (runReg nd i) s).toNat
      let (st, s) :=
        if ftst (F.ENG_QSLOT_q_GONE e.1 q.1) s then (.failedRefused, s)
        else if qid = 0 ∧ r ≠ .ok then (if qOpen qid s then pushSample (.thread e t) (w 0) (w 1) none s else (.failedRefused, s))
        else qPush e t qid (w 0) (w 1) (w 2) (w 3) s
      retireWait e t (setStatus e t nd st s)) s

/-- QPUSH. -/
def execQpush (e : Fin 24) (t : Fin 4) (nd q : Fin 32) (r : BusEnd) (s : State) : Host.Outcome State Fault Refusal := .next (qPushInsn e t nd q r s)

/-- The status that QACK ends an item with (R154). -/
def ackStatus (v : Nat) : Status := if v = 0x00 then .done else if v = 0x12 then .failedTimeout else .failedRefused

/-- QACK (R154, R155). -/
def execQack (e : Fin 24) (t : Fin 4) (nd na nb : Fin 32) (s : State) : Host.Outcome State Fault Refusal :=
  .next (issue e t (.qack nd na nb) (fun word s =>
    match heldItem e t ((getN e t na s).toNat % 256) s with
    | none => trap e t word trQueue 0 s
    | some x =>
      if x.pkt.isSome then trap e t word trQueue 0 s
      else
        let (st, s) := endItem x (ackStatus (getN e t nb s).toNat) s
        retireWait e t (setStatus e t nd st (dropHold e t x.handle s))) s)

end Sys2Proof.Machine
end

