-- ==== Sys2Proof/Machine/Dispatch.lean ====
section
/-!
DEFINITION. The dispatch: one arm for each command, each one direct call of its meaning.
-/
namespace Sys2Proof.Machine

/-- The effect of a command on everything but the queue. -/
def exec (i : Instr) (s : State) : Host.Outcome State Fault Refusal :=
  match i with
  | .registerWrite w addr size data => Sys2Proof.Machine.execRegisterWrite w addr size data s
  | .clockDown w i_ div => Sys2Proof.Machine.execClockDown w i_ div s
  | .restore w i_ => Sys2Proof.Machine.execRestore w i_ s
  | .stop w i_ => Sys2Proof.Machine.execStop w i_ s
  | .start w i_ => Sys2Proof.Machine.execStart w i_ s
  | .reset w i_ => Sys2Proof.Machine.execReset w i_ s
  | .resetHold w i_ => Sys2Proof.Machine.execResetHold w i_ s
  | .release w i_ => Sys2Proof.Machine.execRelease w i_ s
  | .drainComplete i_ => Sys2Proof.Machine.execDrainComplete i_ s
  | .drainTimerExpire i_ => Sys2Proof.Machine.execDrainTimerExpire i_ s
  | .resetComplete i_ => Sys2Proof.Machine.execResetComplete i_ s
  | .clockStable i_ => Sys2Proof.Machine.execClockStable i_ s
  | .domainLost d => Sys2Proof.Machine.execDomainLost d s
  | .responseDiscard i_ => Sys2Proof.Machine.execResponseDiscard i_ s
  | .nowNsRead w => Sys2Proof.Machine.execNowNsRead w s
  | .splitCompare driftA driftB => Sys2Proof.Machine.execSplitCompare driftA driftB s
  | .resync w => Sys2Proof.Machine.execResync w s
  | .gptpStandbyTakeover => Sys2Proof.Machine.execGptpStandbyTakeover s
  | .servoSample => Sys2Proof.Machine.execServoSample s
  | .holdoverTimeout => Sys2Proof.Machine.execHoldoverTimeout s
  | .holdLimit => Sys2Proof.Machine.execHoldLimit s
  | .stepAccept w => Sys2Proof.Machine.execStepAccept w s
  | .stepInstant => Sys2Proof.Machine.execStepInstant s
  | .roleWrite w role => Sys2Proof.Machine.execRoleWrite w role s
  | .twinEnChange w en => Sys2Proof.Machine.execTwinEnChange w en s
  | .setGo w => Sys2Proof.Machine.execSetGo w s
  | .setApply => Sys2Proof.Machine.execSetApply s
  | .holdoverFreqRecompute => Sys2Proof.Machine.execHoldoverFreqRecompute s
  | .tempSensorRead degA degB => Sys2Proof.Machine.execTempSensorRead degA degB s
  | .twinAbsent dir => Sys2Proof.Machine.execTwinAbsent dir s
  | .twinResume w dir => Sys2Proof.Machine.execTwinResume w dir s
  | .ppsEdge rise sub => Sys2Proof.Machine.execPpsEdge rise sub s
  | .ppsLost => Sys2Proof.Machine.execPpsLost s
  | .timeCntClr w => Sys2Proof.Machine.execTimeCntClr w s
  | .trgStart w n => Sys2Proof.Machine.execTrgStart w n s
  | .trgStop w n => Sys2Proof.Machine.execTrgStop w n s
  | .triggerInstant n => Sys2Proof.Machine.execTriggerInstant n s
  | .trailingEdge n => Sys2Proof.Machine.execTrailingEdge n s
  | .trgLastRead w n => Sys2Proof.Machine.execTrgLastRead w n s
  | .captureEdge m rise after hold => Sys2Proof.Machine.execCaptureEdge m rise after hold s
  | .capStampPop w m => Sys2Proof.Machine.execCapStampPop w m s
  | .csiFrameStart n vc num ecc => Sys2Proof.Machine.execCsiFrameStart n vc num ecc s
  | .csiFrameEnd n vc ecc => Sys2Proof.Machine.execCsiFrameEnd n vc ecc s
  | .csiLineStart n vc num ecc => Sys2Proof.Machine.execCsiLineStart n vc num ecc s
  | .csiLongPacket n vc dt payload crcOk ecc => Sys2Proof.Machine.execCsiLongPacket n vc dt payload crcOk ecc s
  | .csiGenericShortPacket n => Sys2Proof.Machine.execCsiGenericShortPacket n s
  | .csiLinkTimeout n => Sys2Proof.Machine.execCsiLinkTimeout n s
  | .lineItemPush n => Sys2Proof.Machine.execLineItemPush n s
  | .lineStagingFree n => Sys2Proof.Machine.execLineStagingFree n s
  | .camCntClr w n => Sys2Proof.Machine.execCamCntClr w n s
  | .thrStart w e t => Sys2Proof.Machine.execThrStart w e t s
  | .thrStop w e t => Sys2Proof.Machine.execThrStop w e t s
  | .doorbell w e t => Sys2Proof.Machine.execDoorbell w e t s
  | .budgetFrameStart => Sys2Proof.Machine.execBudgetFrameStart s
  | .waitComplete e t r c => Sys2Proof.Machine.execWaitComplete e t r c s
  | .postedStoreError e t k => Sys2Proof.Machine.execPostedStoreError e t k s
  | .timeAlarm e t => Sys2Proof.Machine.execTimeAlarm e t s
  | .illegalEncoding e t word ecc => Sys2Proof.Machine.execIllegalEncoding e t word ecc s
  | .add e t nd na nb => Sys2Proof.Machine.execAdd e t nd na nb s
  | .sub e t nd na nb => Sys2Proof.Machine.execSub e t nd na nb s
  | .and e t nd na nb => Sys2Proof.Machine.execAnd e t nd na nb s
  | .or e t nd na nb => Sys2Proof.Machine.execOr e t nd na nb s
  | .xor e t nd na nb => Sys2Proof.Machine.execXor e t nd na nb s
  | .shl e t nd na nb => Sys2Proof.Machine.execShl e t nd na nb s
  | .shr e t nd na nb => Sys2Proof.Machine.execShr e t nd na nb s
  | .sar e t nd na nb => Sys2Proof.Machine.execSar e t nd na nb s
  | .mul e t nd na nb => Sys2Proof.Machine.execMul e t nd na nb s
  | .mulh e t nd na nb => Sys2Proof.Machine.execMulh e t nd na nb s
  | .min e t nd na nb => Sys2Proof.Machine.execMin e t nd na nb s
  | .max e t nd na nb => Sys2Proof.Machine.execMax e t nd na nb s
  | .clz e t nd na => Sys2Proof.Machine.execClz e t nd na s
  | .popc e t nd na => Sys2Proof.Machine.execPopc e t nd na s
  | .slt e t nd na nb => Sys2Proof.Machine.execSlt e t nd na nb s
  | .sltu e t nd na nb => Sys2Proof.Machine.execSltu e t nd na nb s
  | .addi e t nd na imm => Sys2Proof.Machine.execAddi e t nd na imm s
  | .andi e t nd na imm => Sys2Proof.Machine.execAndi e t nd na imm s
  | .ori e t nd na imm => Sys2Proof.Machine.execOri e t nd na imm s
  | .xori e t nd na imm => Sys2Proof.Machine.execXori e t nd na imm s
  | .shli e t nd na imm => Sys2Proof.Machine.execShli e t nd na imm s
  | .shri e t nd na imm => Sys2Proof.Machine.execShri e t nd na imm s
  | .sari e t nd na imm => Sys2Proof.Machine.execSari e t nd na imm s
  | .lui e t nd imm => Sys2Proof.Machine.execLui e t nd imm s
  | .slti e t nd na imm => Sys2Proof.Machine.execSlti e t nd na imm s
  | .sltui e t nd na imm => Sys2Proof.Machine.execSltui e t nd na imm s
  | .ldb e t nd na imm r c => Sys2Proof.Machine.execLdb e t nd na imm r c s
  | .ldh e t nd na imm r c => Sys2Proof.Machine.execLdh e t nd na imm r c s
  | .ldw e t nd na imm r c => Sys2Proof.Machine.execLdw e t nd na imm r c s
  | .ldq e t nd na imm r c => Sys2Proof.Machine.execLdq e t nd na imm r c s
  | .stb e t nd na imm done c => Sys2Proof.Machine.execStb e t nd na imm done c s
  | .sth e t nd na imm done c => Sys2Proof.Machine.execSth e t nd na imm done c s
  | .stw e t nd na imm done c => Sys2Proof.Machine.execStw e t nd na imm done c s
  | .stq e t nd na imm done c => Sys2Proof.Machine.execStq e t nd na imm done c s
  | .beq e t na nb off => Sys2Proof.Machine.execBeq e t na nb off s
  | .bne e t na nb off => Sys2Proof.Machine.execBne e t na nb off s
  | .blt e t na nb off => Sys2Proof.Machine.execBlt e t na nb off s
  | .bge e t na nb off => Sys2Proof.Machine.execBge e t na nb off s
  | .bltu e t na nb off => Sys2Proof.Machine.execBltu e t na nb off s
  | .bgeu e t na nb off => Sys2Proof.Machine.execBgeu e t na nb off s
  | .jal e t off => Sys2Proof.Machine.execJal e t off s
  | .jalr e t nd na imm => Sys2Proof.Machine.execJalr e t nd na imm s
  | .ext e t nd na width pos sx => Sys2Proof.Machine.execExt e t nd na width pos sx s
  | .ins e t nd na width pos => Sys2Proof.Machine.execIns e t nd na width pos s
  | .dep e t nd na width pos => Sys2Proof.Machine.execDep e t nd na width pos s
  | .pkhold e t nd na nb cls => Sys2Proof.Machine.execPkhold e t nd na nb cls s
  | .pksend e t nd na nb => Sys2Proof.Machine.execPksend e t nd na nb s
  | .pkdrop e t nd na => Sys2Proof.Machine.execPkdrop e t nd na s
  | .pkcopy e t nd na nb dir r => Sys2Proof.Machine.execPkcopy e t nd na nb dir r s
  | .qpop e t nd q => Sys2Proof.Machine.execQpop e t nd q s
  | .qpush e t nd q r => Sys2Proof.Machine.execQpush e t nd q r s
  | .qack e t nd na nb => Sys2Proof.Machine.execQack e t nd na nb s
  | .qpeek e t nd q => Sys2Proof.Machine.execQpeek e t nd q s
  | .lkp e t nd na => Sys2Proof.Machine.execLkp e t nd na s
  | .lkpw e t nd na => Sys2Proof.Machine.execLkpw e t nd na s
  | .lkps e t nd na nb => Sys2Proof.Machine.execLkps e t nd na nb s
  | .tnow e t nd => Sys2Proof.Machine.execTnow e t nd s
  | .tat e t nd na => Sys2Proof.Machine.execTat e t nd na s
  | .tsend e t nd na nb => Sys2Proof.Machine.execTsend e t nd na nb s
  | .tstamp e t na form => Sys2Proof.Machine.execTstamp e t na form s
  | .aadd e t nd na nb r => Sys2Proof.Machine.execAadd e t nd na nb r s
  | .aswp e t nd na nb r => Sys2Proof.Machine.execAswp e t nd na nb r s
  | .wev e t nd na => Sys2Proof.Machine.execWev e t nd na s
  | .pscan e t nd na => Sys2Proof.Machine.execPscan e t nd na s
  | .pclr e t nd na nb => Sys2Proof.Machine.execPclr e t nd na nb s
  | .cq e t nd na => Sys2Proof.Machine.execCq e t nd na s
  | .cqwait e t nd na => Sys2Proof.Machine.execCqwait e t nd na s
  | .yield e t => Sys2Proof.Machine.execYield e t s
  | .halt e t => Sys2Proof.Machine.execHalt e t s
  | .trap e t na => Sys2Proof.Machine.execTrap e t na s
  | .budget e t nd => Sys2Proof.Machine.execBudget e t nd s
  | .fence e t done => Sys2Proof.Machine.execFence e t done s
  | .sigrd e t nd na nb r => Sys2Proof.Machine.execSigrd e t nd na nb r s
  | .sigwr e t nd na nb r => Sys2Proof.Machine.execSigwr e t nd na nb r s
  | .frameReceive p bytes fcsOk => Sys2Proof.Machine.execFrameReceive p bytes fcsOk s
  | .transmissionSelection p => Sys2Proof.Machine.execTransmissionSelection p s
  | .frameTxComplete p => Sys2Proof.Machine.execFrameTxComplete p s
  | .gateEntry p => Sys2Proof.Machine.execGateEntry p s
  | .gateChangeArm w p => Sys2Proof.Machine.execGateChangeArm w p s
  | .gateChange p => Sys2Proof.Machine.execGateChange p s
  | .streamGateEntry g => Sys2Proof.Machine.execStreamGateEntry g s
  | .frerResetTimeout f => Sys2Proof.Machine.execFrerResetTimeout f s
  | .preemptVerify p answered => Sys2Proof.Machine.execPreemptVerify p answered s
  | .frameAged p c => Sys2Proof.Machine.execFrameAged p c s
  | .addressAgeing i_ => Sys2Proof.Machine.execAddressAgeing i_ s
  | .planeReturn => Sys2Proof.Machine.execPlaneReturn s
  | .hostRingTail w h r v => Sys2Proof.Machine.execHostRingTail w h r v s
  | .hostTxDescriptor h r => Sys2Proof.Machine.execHostTxDescriptor h r s
  | .flushDyn w => Sys2Proof.Machine.execFlushDyn w s
  | .tblRead w t => Sys2Proof.Machine.execTblRead w t s
  | .tblWrite w t => Sys2Proof.Machine.execTblWrite w t s
  | .sleepReq w p => Sys2Proof.Machine.execSleepReq w p s
  | .wakeReq w p => Sys2Proof.Machine.execWakeReq w p s
  | .tc10SleepComplete p => Sys2Proof.Machine.execTc10SleepComplete p s
  | .wakeSeen p => Sys2Proof.Machine.execWakeSeen p s
  | .linkChange p up => Sys2Proof.Machine.execLinkChange p up s
  | .swCntClr w => Sys2Proof.Machine.execSwCntClr w s
  | .canFrameReceive c fmt idw data esi af ago => Sys2Proof.Machine.execCanFrameReceive c fmt idw data esi af ago s
  | .rxqPop w c => Sys2Proof.Machine.execRxqPop w c s
  | .rxeWord7Read w c i_ => Sys2Proof.Machine.execRxeWord7Read w c i_ s
  | .mbIdRead w c b => Sys2Proof.Machine.execMbIdRead w c b s
  | .mbStatRead w c b => Sys2Proof.Machine.execMbStatRead w c b s
  | .lockExpired c => Sys2Proof.Machine.execLockExpired c s
  | .mbAck w c b => Sys2Proof.Machine.execMbAck w c b s
  | .rxqAck w c i_ => Sys2Proof.Machine.execRxqAck w c i_ s
  | .txbReq w c k m => Sys2Proof.Machine.execTxbReq w c k m s
  | .txqSubmit w c i_ => Sys2Proof.Machine.execTxqSubmit w c i_ s
  | .txbCancel w c k m => Sys2Proof.Machine.execTxbCancel w c k m s
  | .txqCancel w c i_ => Sys2Proof.Machine.execTxqCancel w c i_ s
  | .canTxStart c => Sys2Proof.Machine.execCanTxStart c s
  | .canTxAttemptEnd c r => Sys2Proof.Machine.execCanTxAttemptEnd c r s
  | .canDeadline c => Sys2Proof.Machine.execCanDeadline c s
  | .busOffRecovery c => Sys2Proof.Machine.execBusOffRecovery c s
  | .recover w c => Sys2Proof.Machine.execRecover w c s
  | .aloneResume w c => Sys2Proof.Machine.execAloneResume w c s
  | .ttColumnMark c k => Sys2Proof.Machine.execTtColumnMark c k s
  | .ttReferenceDue c busBusy => Sys2Proof.Machine.execTtReferenceDue c busBusy s
  | .ttReferenceTimeout c => Sys2Proof.Machine.execTtReferenceTimeout c s
  | .canCntClr w c => Sys2Proof.Machine.execCanCntClr w c s
  | .linHeaderStart l => Sys2Proof.Machine.execLinHeaderStart l s
  | .linResponseEnd l data sum bitBad frameBad => Sys2Proof.Machine.execLinResponseEnd l data sum bitBad frameBad s
  | .linResponseTimeout l => Sys2Proof.Machine.execLinResponseTimeout l s
  | .busStuck l => Sys2Proof.Machine.execBusStuck l s
  | .linWakePulseEnd l => Sys2Proof.Machine.execLinWakePulseEnd l s
  | .wakeRx l us => Sys2Proof.Machine.execWakeRx l us s
  | .linCntClr w l => Sys2Proof.Machine.execLinCntClr w l s
  | .sigEnable w => Sys2Proof.Machine.execSigEnable w s
  | .sigDisable w => Sys2Proof.Machine.execSigDisable w s
  | .ready badConv badPins => Sys2Proof.Machine.execReady badConv badPins s
  | .logEnable w => Sys2Proof.Machine.execLogEnable w s
  | .logDisable w => Sys2Proof.Machine.execLogDisable w s
  | .seal w => Sys2Proof.Machine.execSeal w s
  | .crash w => Sys2Proof.Machine.execCrash w s
  | .crashRearm w => Sys2Proof.Machine.execCrashRearm w s
  | .invalidate w => Sys2Proof.Machine.execInvalidate w s
  | .defRead w => Sys2Proof.Machine.execDefRead w s
  | .defWrite w => Sys2Proof.Machine.execDefWrite w s
  | .defCmdDone => Sys2Proof.Machine.execDefCmdDone s
  | .logPush w w3 => Sys2Proof.Machine.execLogPush w w3 s
  | .logRecordAccept => Sys2Proof.Machine.execLogRecordAccept s
  | .sealPeriodic => Sys2Proof.Machine.execSealPeriodic s
  | .sealLate => Sys2Proof.Machine.execSealLate s
  | .cacheFill e => Sys2Proof.Machine.execCacheFill e s
  | .crashDone => Sys2Proof.Machine.execCrashDone s
  | .sigCntClr w => Sys2Proof.Machine.execSigCntClr w s
  | .wispReceive r w => Sys2Proof.Machine.execWispReceive r w s
  | .wispForward r => Sys2Proof.Machine.execWispForward r s
  | .ringLost r => Sys2Proof.Machine.execRingLost r s
  | .wispRegenerate r => Sys2Proof.Machine.execWispRegenerate r s
  | .nmCtlblkRead => Sys2Proof.Machine.execNmCtlblkRead s
  | .minAwakeEnd g => Sys2Proof.Machine.execMinAwakeEnd g s
  | .prepareEnd g => Sys2Proof.Machine.execPrepareEnd g s
  | .settleEnd g => Sys2Proof.Machine.execSettleEnd g s
  | .wakingEnd g => Sys2Proof.Machine.execWakingEnd g s
  | .segmentWakeInput g k => Sys2Proof.Machine.execSegmentWakeInput g k s
  | .latchedWakeAction g => Sys2Proof.Machine.execLatchedWakeAction g s
  | .maxAwakeExpire g => Sys2Proof.Machine.execMaxAwakeExpire g s
  | .segCtrlWake w g => Sys2Proof.Machine.execSegCtrlWake w g s
  | .rejoin w g => Sys2Proof.Machine.execRejoin w g s
  | .segEnable w g => Sys2Proof.Machine.execSegEnable w g s
  | .segDisable w g => Sys2Proof.Machine.execSegDisable w g s
  | .sluiceLinRelease l => Sys2Proof.Machine.execSluiceLinRelease l s
  | .nmCntClr w => Sys2Proof.Machine.execNmCntClr w s
  | .cqSubmit w q w3 => Sys2Proof.Machine.execCqSubmit w q w3 s
  | .off src => Sys2Proof.Machine.execOff src s
  | .on src => Sys2Proof.Machine.execOn src s
  | .pwm src => Sys2Proof.Machine.execPwm src s
  | .clear src => Sys2Proof.Machine.execClear src s
  | .test src => Sys2Proof.Machine.execTest src s
  | .hbSet src => Sys2Proof.Machine.execHbSet src s
  | .bridge src => Sys2Proof.Machine.execBridge src s
  | .cmdLinkTimeout src => Sys2Proof.Machine.execCmdLinkTimeout src s
  | .hardShort n ma => Sys2Proof.Machine.execHardShort n ma s
  | .trip n i_ => Sys2Proof.Machine.execTrip n i_ s
  | .vdsFault n mv => Sys2Proof.Machine.execVdsFault n mv s
  | .i2tUpdate n isq => Sys2Proof.Machine.execI2tUpdate n isq s
  | .inrushWindowEnd n => Sys2Proof.Machine.execInrushWindowEnd n s
  | .tgTempRead g deg => Sys2Proof.Machine.execTgTempRead g deg s
  | .tgShedStep g => Sys2Proof.Machine.execTgShedStep g s
  | .openOn n ua => Sys2Proof.Machine.execOpenOn n ua s
  | .offStateTest n out vbat loaded => Sys2Proof.Machine.execOffStateTest n out vbat loaded s
  | .testPulseEnd n out vbat => Sys2Proof.Machine.execTestPulseEnd n out vbat s
  | .testDeferTimeout n => Sys2Proof.Machine.execTestDeferTimeout n s
  | .currentUpdate n ua => Sys2Proof.Machine.execCurrentUpdate n ua s
  | .powerBudgetUpdate => Sys2Proof.Machine.execPowerBudgetUpdate s
  | .budgetShedStep => Sys2Proof.Machine.execBudgetShedStep s
  | .shedRestoreStep => Sys2Proof.Machine.execShedRestoreStep s
  | .loadchClaim w => Sys2Proof.Machine.execLoadchClaim w s
  | .park w => Sys2Proof.Machine.execPark w s
  | .controlLost notice => Sys2Proof.Machine.execControlLost notice s
  | .tHoldExpire n => Sys2Proof.Machine.execTHoldExpire n s
  | .pdRestart => Sys2Proof.Machine.execPdRestart s
  | .laneLoss b => Sys2Proof.Machine.execLaneLoss b s
  | .pdVbatSample mv => Sys2Proof.Machine.execPdVbatSample mv s
  | .otpProg w => Sys2Proof.Machine.execOtpProg w s
  | .otpRead w => Sys2Proof.Machine.execOtpRead w s
  | .diSample mv => Sys2Proof.Machine.execDiSample mv s
  | .diPoll mv => Sys2Proof.Machine.execDiPoll mv s
  | .aiConvert j v cal => Sys2Proof.Machine.execAiConvert j v cal s
  | .loadchCntClr w => Sys2Proof.Machine.execLoadchCntClr w s
  | .tcmcpyGo w len => Sys2Proof.Machine.execTcmcpyGo w len s
  | .tcmcpyDone e => Sys2Proof.Machine.execTcmcpyDone e s
  | .atomAadd w v => Sys2Proof.Machine.execAtomAadd w v s
  | .atomAswp w v => Sys2Proof.Machine.execAtomAswp w v s
  | .hartBankAmo h op dbl addr v => Sys2Proof.Machine.execHartBankAmo h op dbl addr v s
  | .lrReservationExpire h => Sys2Proof.Machine.execLrReservationExpire h s
  | .cwyLockedSequence h op dbl addr v retries => Sys2Proof.Machine.execCwyLockedSequence h op dbl addr v retries s
  | .lockBroken => Sys2Proof.Machine.execLockBroken s
  | .cwyTimeout w addr write part be => Sys2Proof.Machine.execCwyTimeout w addr write part be s
  | .cwyPostedError w addr e part be => Sys2Proof.Machine.execCwyPostedError w addr e part be s
  | .lateResp => Sys2Proof.Machine.execLateResp s
  | .popUndo r => Sys2Proof.Machine.execPopUndo r s
  | .errlogPop w => Sys2Proof.Machine.execErrlogPop w s
  | .dramScrub addr found => Sys2Proof.Machine.execDramScrub addr found s
  | .memCntClr w => Sys2Proof.Machine.execMemCntClr w s
  | .cwyCntClr w => Sys2Proof.Machine.execCwyCntClr w s
  | .sgiSet w id => Sys2Proof.Machine.execSgiSet w id s
  | .icClaim w t => Sys2Proof.Machine.execIcClaim w t s
  | .eoi w t id => Sys2Proof.Machine.execEoi w t id s
  | .vectorEntry p r => Sys2Proof.Machine.execVectorEntry p r s
  | .assistedMret p r => Sys2Proof.Machine.execAssistedMret p r s
  | .wcall h c => Sys2Proof.Machine.execWcall h c s
  | .sleepStandby w => Sys2Proof.Machine.execSleepStandby w s
  | .sleepDeep w => Sys2Proof.Machine.execSleepDeep w s
  | .sleepEntryStep => Sys2Proof.Machine.execSleepEntryStep s
  | .heronWake by_ => Sys2Proof.Machine.execHeronWake by_ s
  | .watchedSourceWake k => Sys2Proof.Machine.execWatchedSourceWake k s
  | .wakeOrderStep => Sys2Proof.Machine.execWakeOrderStep s
  | .vregDelayEnd => Sys2Proof.Machine.execVregDelayEnd s
  | .invalPage w => Sys2Proof.Machine.execInvalPage w s
  | .invalAll w => Sys2Proof.Machine.execInvalAll w s
  | .invalDone => Sys2Proof.Machine.execInvalDone s
  | .anvilTimeout h => Sys2Proof.Machine.execAnvilTimeout h s
  | .l2ResChange w b en => Sys2Proof.Machine.execL2ResChange w b en s
  | .tongsRequest w k nw ni => Sys2Proof.Machine.execTongsRequest w k nw ni s
  | .tongsForce w k nw ni => Sys2Proof.Machine.execTongsForce w k nw ni s
  | .tongsGrant w k nw ni => Sys2Proof.Machine.execTongsGrant w k nw ni s
  | .tongsRel w k => Sys2Proof.Machine.execTongsRel w k s
  | .tongsTimeout k => Sys2Proof.Machine.execTongsTimeout k s
  | .tongsDone k => Sys2Proof.Machine.execTongsDone k s
  | .keepalive w v => Sys2Proof.Machine.execKeepalive w v s
  | .lcCmd w target code => Sys2Proof.Machine.execLcCmd w target code s
  | .hwdtKick w v => Sys2Proof.Machine.execHwdtKick w v s
  | .hearthRestart => Sys2Proof.Machine.execHearthRestart s
  | .hearthImageVerify => Sys2Proof.Machine.execHearthImageVerify s
  | .serviceUp w => Sys2Proof.Machine.execServiceUp w s
  | .debugAccess write addr size data => Sys2Proof.Machine.execDebugAccess write addr size data s
  | .ownCntClr w => Sys2Proof.Machine.execOwnCntClr w s
  | .violPop w => Sys2Proof.Machine.execViolPop w s
  | .sqTail w i_ p v => Sys2Proof.Machine.execSqTail w i_ p v s
  | .vqiFetch i_ p => Sys2Proof.Machine.execVqiFetch i_ p s
  | .admissionSlot t take => Sys2Proof.Machine.execAdmissionSlot t take s
  | .shareRoundBoundary => Sys2Proof.Machine.execShareRoundBoundary s
  | .vqiCompletion => Sys2Proof.Machine.execVqiCompletion s
  | .instanceReset w i_ => Sys2Proof.Machine.execInstanceReset w i_ s
  | .managerReset w i_ => Sys2Proof.Machine.execManagerReset w i_ s
  | .freeze w i_ => Sys2Proof.Machine.execFreeze w i_ s
  | .thaw w i_ => Sys2Proof.Machine.execThaw w i_ s
  | .vqiEnable w i_ => Sys2Proof.Machine.execVqiEnable w i_ s
  | .vqiDisable w i_ => Sys2Proof.Machine.execVqiDisable w i_ s
  | .freezeTimeout i_ => Sys2Proof.Machine.execFreezeTimeout i_ s
  | .shareWrite w i_ v => Sys2Proof.Machine.execShareWrite w i_ v s
  | .migExport w i_ => Sys2Proof.Machine.execMigExport w i_ s
  | .migRestore w i_ => Sys2Proof.Machine.execMigRestore w i_ s
  | .migDone => Sys2Proof.Machine.execMigDone s
  | .vqiCntClr w i_ => Sys2Proof.Machine.execVqiCntClr w i_ s
  | .erase4k w => Sys2Proof.Machine.execErase4k w s
  | .erase64k w => Sys2Proof.Machine.execErase64k w s
  | .program w e => Sys2Proof.Machine.execProgram w e s
  | .cmdDone differs => Sys2Proof.Machine.execCmdDone differs s
  | .xspiBusyTimeout => Sys2Proof.Machine.execXspiBusyTimeout s
  | .xspiSuspend => Sys2Proof.Machine.execXspiSuspend s
  | .xspiResume => Sys2Proof.Machine.execXspiResume s
  | .alt w => Sys2Proof.Machine.execAlt w s
  | .rollbackAdv w => Sys2Proof.Machine.execRollbackAdv w s
  | .powerOn aon => Sys2Proof.Machine.execPowerOn aon s
  | .coreResetRelease cap dram full => Sys2Proof.Machine.execCoreResetRelease cap dram full s
  | .bootRetry => Sys2Proof.Machine.execBootRetry s
  | .jqSubmit w => Sys2Proof.Machine.execJqSubmit w s
  | .sha512 => Sys2Proof.Machine.execSha512 s
  | .hmac => Sys2Proof.Machine.execHmac s
  | .hmacVer => Sys2Proof.Machine.execHmacVer s
  | .cmac => Sys2Proof.Machine.execCmac s
  | .cmacVer => Sys2Proof.Machine.execCmacVer s
  | .gcmEnc => Sys2Proof.Machine.execGcmEnc s
  | .gcmDec => Sys2Proof.Machine.execGcmDec s
  | .sign => Sys2Proof.Machine.execSign s
  | .verify => Sys2Proof.Machine.execVerify s
  | .derive => Sys2Proof.Machine.execDerive s
  | .wrap => Sys2Proof.Machine.execWrap s
  | .unwrap => Sys2Proof.Machine.execUnwrap s
  | .pubkey => Sys2Proof.Machine.execPubkey s
  | .attest => Sys2Proof.Machine.execAttest s
  | .random => Sys2Proof.Machine.execRandom s
  | .loadpub => Sys2Proof.Machine.execLoadpub s
  | .cryptoJobDone pk => Sys2Proof.Machine.execCryptoJobDone pk s
  | .slotClear w slot => Sys2Proof.Machine.execSlotClear w slot s
  | .slotCommit w slot => Sys2Proof.Machine.execSlotCommit w slot s
  | .slotDiscard w slot => Sys2Proof.Machine.execSlotDiscard w slot s
  | .keyCntClr w => Sys2Proof.Machine.execKeyCntClr w s
  | .tamperAlarm src => Sys2Proof.Machine.execTamperAlarm src s
  | .clearLatch w => Sys2Proof.Machine.execClearLatch w s
  | .tampCfgLock w => Sys2Proof.Machine.execTampCfgLock w s
  | .vbatSample mv => Sys2Proof.Machine.execVbatSample mv s
  | .hartPark h => Sys2Proof.Machine.execHartPark h s
  | .stage4SealStop => Sys2Proof.Machine.execStage4SealStop s
  | .brownOut => Sys2Proof.Machine.execBrownOut s
  | .coreTjRead deg => Sys2Proof.Machine.execCoreTjRead deg s
  | .pinReset => Sys2Proof.Machine.execPinReset s
  | .chipRst w go key => Sys2Proof.Machine.execChipRst w go key s
  | .wdKick w v => Sys2Proof.Machine.execWdKick w v s
  | .wdWarn => Sys2Proof.Machine.execWdWarn s
  | .chipWdog => Sys2Proof.Machine.execChipWdog s
  | .wdCfgLock w => Sys2Proof.Machine.execWdCfgLock w s
  | .hbKick w c => Sys2Proof.Machine.execHbKick w c s
  | .heartbeatLost c => Sys2Proof.Machine.execHeartbeatLost c s
  | .lockstep p => Sys2Proof.Machine.execLockstep p s
  | .hcLockstep => Sys2Proof.Machine.execHcLockstep s
  | .bistReq w h go => Sys2Proof.Machine.execBistReq w h go s
  | .bistGrant w h => Sys2Proof.Machine.execBistGrant w h s
  | .bistDeny w h => Sys2Proof.Machine.execBistDeny w h s
  | .bistGrantTimeout => Sys2Proof.Machine.execBistGrantTimeout s
  | .bistWindowEnd pass => Sys2Proof.Machine.execBistWindowEnd pass s
  | .blwCntClr w => Sys2Proof.Machine.execBlwCntClr w s
  | .sysctlCntClr w => Sys2Proof.Machine.execSysctlCntClr w s
  | .domainRailValid d => Sys2Proof.Machine.execDomainRailValid d s
  | .laneRestored b => Sys2Proof.Machine.execLaneRestored b s
  | .csiSkewCalibration n => Sys2Proof.Machine.execCsiSkewCalibration n s
  | .tamperConditionCleared src => Sys2Proof.Machine.execTamperConditionCleared src s
  | .canReceiveError c e => Sys2Proof.Machine.execCanReceiveError c e s

end Sys2Proof.Machine
end

