-- ==== Sys2Proof/Machine/Idle.lean ====
section
/-!
DEFINITION. What happens while no command waits.
-/
namespace Sys2Proof.Machine

/-- One cycle of 1 GHz with no command (assumption 1): time passes, port E admits the launches that are due (R202), the IC sets the pending bits of the engines (R451), and a seal
that firmware has answered settles (R326). -/
def idle (s : State) : State := sealSettle (icSettle (launchDue (advance 1 s)))

end Sys2Proof.Machine
end

