-- ==== Sys2Proof/Machine/Step.lean ====
section
/-!
DEFINITION. One step: the front command of the queue has its effect on the state with the queue's rest; on an empty queue the block idles.
-/
namespace Sys2Proof.Machine

/-- One step (assumption 1). -/
def step (s : State) : Host.Outcome State Fault Refusal :=
  match s.pending with
  | [] => .next (idle s)
  | c :: rest => exec c { s with pending := rest }

/-- The state with the command that a word spells at the front of its queue; no row of the table has bits, so the state is unchanged. -/
def State.withFetchWord (s : State) (nbits w : Nat) : State :=
  match decodeTableWord nbits w with
  | some c => { s with pending := c :: s.pending }
  | none => s

end Sys2Proof.Machine
end

