-- ==== Sys2Proof/Safety.lean ====
section
/-!
DEFINITION. What counts as a sound state, and the forms in which the statements speak of a command: that it completes, that its register access is let in, that its instruction is issued.
-/
namespace Sys2Proof.Machine

/-- The registers are in their canonical form: addresses rising, and none listed at its reset value. -/
def regsWf (s : State) : Bool := swf resetVal s.regs

/-- The registers, the memory and the settings flash are in their canonical form. -/
def Sound (s : State) : Prop := regsWf s = true ∧ Memory.wf s.dram s.mem = true ∧ swf flashDflt s.flash = true

/-- A command completes in a next state of which `P` holds. -/
def Does (c : Instr) (s : State) (P : State → Prop) : Prop := ∃ t, exec c s = .next t ∧ P t

/-- The ownership entry that decides an access: the one that the initiator's cache holds for the page, else the table's; none where the table's word has an uncorrectable
error (R464, R468, R469). -/
def pageEntry (w : Initiator) (a : Nat) (s : State) : Option Nat :=
  match s.own.cache.find? fun c => c.port == initPort w && c.page == a / 4096 with
  | some c => some c.entry
  | none => if (ownEntryAddr a s).any fun p => wordBad p s then none else some ((ownEntryAddr a s).elim 0 fun p => mrdN p 2 s)

/-- What the spec asks of an access that the ownership check allows (R465, R466, R469, R479): it is of Hearth; or it touches no block without an owner, and either the check
is off or the address lies outside the table and its entry allows the access. -/
def Allowed (w : Initiator) (a : Nat) (write : Bool) (s : State) : Prop :=
  initWorld w s = true ∨ (inUnowned a s = false ∧ (ftst F.OWN_CTRL_EN s = false ∨
    (inOwnTable a s = false ∧ ∃ e, pageEntry w a s = some e ∧ entryAllows e (initInst w s) write = true)))

/-- An access of an initiator to a register is let in: the ownership check allows it, and the register's home island takes transactions (R25, R34, R467). Both are conditions
on the state and the operands before the command. -/
def Lets (w : Initiator) (a : Nat) (write : Bool) (s : State) : Prop := Allowed w a write s ∧ homeOpen a s = true

/-- The state in which an access that is let in has its effect. It is `s`, but that a check in the normal world has read the page's entry into the cache, and that a lock of
the peripheral fabric has been waited for (R427, R468). -/
def entered (w : Initiator) (a : Nat) (s : State) : State :=
  fabricWait a (if ftst F.OWN_CTRL_EN s = true ∧ initWorld w s = false then (ownLookup (initPort w) a s).2 else s)

/-- A thread issues its next instruction: it may issue, and its PC lies in THR_CODE (R141, R147). -/
abbrev Issues (e : Fin 24) (t : Fin 4) (s : State) : Prop := mayIssue e t s = true ∧ pcInCode e t (thrPc e t s) s = true

/-- The state in which an issued instruction has its effect: the issue is counted, and threads that waited for this one wait no longer (R148, R163). -/
def issued (e : Fin 24) (t : Fin 4) (s : State) : State := notePassed e t (countIssue e t (updThr e t (fun x => { x with passed := [] }) s))

/-- An instruction that a thread has issued in the state `s` has had its effect, which left `v`: how long the thread may be passed over is noted (R182), and the thread is
throttled when its budget of the frame is used up (R163). -/
def ends (e : Fin 24) (t : Fin 4) (i : NyInsn) (s v : State) : Host.Outcome State Fault Refusal := .next (throttle e t (noteSlack e t (thrPc e t s) i v))

/-- A thread's instruction has retired with one result: `nd` holds `v` (n0 stays 0), the PC is `pc`, and every other register of the thread, the registers of every other
thread, every byte of memory and every register outside the engine's window are as they were. -/
def Retired (e : Fin 24) (t : Fin 4) (nd : Fin 32) (v : Word) (pc : Nat) (s u : State) : Prop :=
  (∀ k, getN e t k u = if k = nd ∧ nd ≠ 0 then v else getN e t k s) ∧ thrPc e t u = pc % 16384 ∧ (∀ a, mrd a u = mrd a s) ∧
    (∀ j : Fin 96, j ≠ thrIdx e t → u.eng[j.1].n = s.eng[j.1].n) ∧
    (∀ a, a < 0x02000000 + 0x80000 * e.1 ∨ 0x02080000 + 0x80000 * e.1 ≤ a → rd a u = rd a s)

/-- Every byte of memory reads the same in two states. -/
def SameMem (s t : State) : Prop := ∀ a, mrd a t = mrd a s

/-- Every register but those of a list reads the same in two states. -/
def SameRegsBut (as : List Nat) (s t : State) : Prop := ∀ a, a ∉ as → rd a t = rd a s

end Sys2Proof.Machine
end

