-- ==== Sys2Proof/WellFormed.lean ====
section
/-!
DEFINITION. Which commands can occur: an instruction of an engine is a legal encoding, and what the wires bring has a length that the wires can carry. The meanings
are total and do not assume it; a statement that needs it says so.
-/
namespace Sys2Proof

open Machine (NyInsn)

/-- The thread and the instruction of chapter 05 of a command that executes one; none for the other commands. -/
def Instr.insn : Instr → Option ((Fin 24 × Fin 4) × NyInsn)
  | .add e t nd na nb => some ((e, t), (.alu 0 nd na nb))
  | .sub e t nd na nb => some ((e, t), (.alu 1 nd na nb))
  | .and e t nd na nb => some ((e, t), (.alu 2 nd na nb))
  | .or e t nd na nb => some ((e, t), (.alu 3 nd na nb))
  | .xor e t nd na nb => some ((e, t), (.alu 4 nd na nb))
  | .shl e t nd na nb => some ((e, t), (.alu 5 nd na nb))
  | .shr e t nd na nb => some ((e, t), (.alu 6 nd na nb))
  | .sar e t nd na nb => some ((e, t), (.alu 7 nd na nb))
  | .mul e t nd na nb => some ((e, t), (.alu 8 nd na nb))
  | .mulh e t nd na nb => some ((e, t), (.alu 9 nd na nb))
  | .min e t nd na nb => some ((e, t), (.alu 10 nd na nb))
  | .max e t nd na nb => some ((e, t), (.alu 11 nd na nb))
  | .clz e t nd na => some ((e, t), (.alu 12 nd na 0))
  | .popc e t nd na => some ((e, t), (.alu 13 nd na 0))
  | .slt e t nd na nb => some ((e, t), (.alu 14 nd na nb))
  | .sltu e t nd na nb => some ((e, t), (.alu 15 nd na nb))
  | .addi e t nd na imm => some ((e, t), (.aluI 0 nd na imm))
  | .andi e t nd na imm => some ((e, t), (.aluI 1 nd na imm))
  | .ori e t nd na imm => some ((e, t), (.aluI 2 nd na imm))
  | .xori e t nd na imm => some ((e, t), (.aluI 3 nd na imm))
  | .shli e t nd na imm => some ((e, t), (.aluI 4 nd na imm))
  | .shri e t nd na imm => some ((e, t), (.aluI 5 nd na imm))
  | .sari e t nd na imm => some ((e, t), (.aluI 6 nd na imm))
  | .lui e t nd imm => some ((e, t), (.aluI 7 nd 0 imm))
  | .slti e t nd na imm => some ((e, t), (.aluI 8 nd na imm))
  | .sltui e t nd na imm => some ((e, t), (.aluI 9 nd na imm))
  | .ldb e t nd na imm _ _ => some ((e, t), (.load 0 nd na imm))
  | .ldh e t nd na imm _ _ => some ((e, t), (.load 1 nd na imm))
  | .ldw e t nd na imm _ _ => some ((e, t), (.load 2 nd na imm))
  | .ldq e t nd na imm _ _ => some ((e, t), (.load 3 nd na imm))
  | .stb e t nd na imm _ _ => some ((e, t), (.store 0 nd na imm))
  | .sth e t nd na imm _ _ => some ((e, t), (.store 1 nd na imm))
  | .stw e t nd na imm _ _ => some ((e, t), (.store 2 nd na imm))
  | .stq e t nd na imm _ _ => some ((e, t), (.store 3 nd na imm))
  | .beq e t na nb o => some ((e, t), (.branch 0 na nb o))
  | .bne e t na nb o => some ((e, t), (.branch 1 na nb o))
  | .blt e t na nb o => some ((e, t), (.branch 2 na nb o))
  | .bge e t na nb o => some ((e, t), (.branch 3 na nb o))
  | .bltu e t na nb o => some ((e, t), (.branch 4 na nb o))
  | .bgeu e t na nb o => some ((e, t), (.branch 5 na nb o))
  | .jal e t o => some ((e, t), (.jal o))
  | .jalr e t nd na imm => some ((e, t), (.jalr nd na imm))
  | .ext e t nd na width pos sx => some ((e, t), (.field 0 nd na width pos sx))
  | .ins e t nd na width pos => some ((e, t), (.field 1 nd na width pos false))
  | .dep e t nd na width pos => some ((e, t), (.field 2 nd na width pos false))
  | .pkhold e t nd na nb cls => some ((e, t), (.packet 0 nd na nb cls))
  | .pksend e t nd na nb => some ((e, t), (.packet 1 nd na nb 0))
  | .pkdrop e t nd na => some ((e, t), (.packet 2 nd na 0 0))
  | .pkcopy e t nd na nb dir _ => some ((e, t), (.packet 3 nd na nb (if dir then 1 else 0)))
  | .qpop e t nd q => some ((e, t), (.slot 0 nd q))
  | .qpush e t nd q _ => some ((e, t), (.slot 1 nd q))
  | .qpeek e t nd q => some ((e, t), (.slot 2 nd q))
  | .qack e t nd na nb => some ((e, t), (.qack nd na nb))
  | .lkp e t nd na => some ((e, t), (.table 0 nd na 0))
  | .lkpw e t nd na => some ((e, t), (.table 1 nd na 0))
  | .lkps e t nd na nb => some ((e, t), (.table 2 nd na nb))
  | .tnow e t nd => some ((e, t), (.time 0 nd 0 0 false))
  | .tat e t nd na => some ((e, t), (.time 1 nd na 0 false))
  | .tsend e t nd na nb => some ((e, t), (.time 2 nd na nb false))
  | .tstamp e t na form => some ((e, t), (.time 3 0 na 0 form))
  | .aadd e t nd na nb _ => some ((e, t), (.bank 0 nd na nb))
  | .aswp e t nd na nb _ => some ((e, t), (.bank 1 nd na nb))
  | .wev e t nd na => some ((e, t), (.event 0 nd na 0))
  | .pscan e t nd na => some ((e, t), (.event 1 nd na 0))
  | .pclr e t nd na nb => some ((e, t), (.event 2 nd na nb))
  | .cq e t nd na => some ((e, t), (.crypto 0 nd na.reg))
  | .cqwait e t nd na => some ((e, t), (.crypto 1 nd na))
  | .yield e t => some ((e, t), (.sys 0 0 0))
  | .halt e t => some ((e, t), (.sys 1 0 0))
  | .trap e t na => some ((e, t), (.sys 2 0 na))
  | .budget e t nd => some ((e, t), (.sys 3 nd 0))
  | .fence e t _ => some ((e, t), (.sys 4 0 0))
  | .sigrd e t nd na nb _ => some ((e, t), (.signal 0 nd na nb))
  | .sigwr e t nd na nb _ => some ((e, t), (.signal 1 nd na nb))
  | _ => none

/-- The most data bytes of a CAN frame (R255). -/
def CanFmt.maxData : CanFmt → Nat
  | .classical => 8
  | .fd => 64
  | .xl => 2048

/-- What the wires can bring: a frame of its format's length, a LIN response of at most 8 bytes and its checksum, a long packet with a 16-bit length (R123). -/
def Instr.fits : Instr → Bool
  | .canFrameReceive _ fmt _ data _ _ _ => decide (data.length ≤ fmt.maxData)
  | .linResponseEnd _ data _ _ _ => decide (data.length ≤ 8)
  | .csiLongPacket _ _ _ payload _ _ => decide (payload.length < 2 ^ 16)
  | .frameReceive _ bytes _ => decide (bytes ≠ [])
  | _ => true

/-- A number that names one of the 27 tongs blocks (R476). -/
def Instr.named : Instr → Bool
  | .tongsRequest _ k _ _ | .tongsForce _ k _ _ | .tongsGrant _ k _ _ | .tongsRel _ k => decide (k.1 < 27)
  | _ => true

/-- A command that can occur. -/
def Instr.wf (c : Instr) : Bool := c.insn.all (fun i => i.2.legal) && c.fits && c.named

end Sys2Proof
end

