-- ==== Sys2Proof/Certificates/Slice0/Obligations.lean ====
section
/-!
DEFINITION. The statements for the provers. `Lets`, `Does`, `Issues`, `issued`, `ends`, `Retired`, `SameMem`, `SameRegsBut` and `Sound` are in Safety.lean. A statement about a register command speaks of
every state `s` in which the access is let in and leaves the state `u`; one about an event that the model times asks that its instant has come.
-/
open Sys2Proof Sys2Proof.Machine

/-! ### The whole machine -/

/-- One step takes the command at the front of the queue and runs it on the state with the queue's rest; on an empty queue time passes (log entry 1). -/
def Obligations.StepRunsTheFrontCommand : Prop :=
  (∀ (c : Instr) (rest : List Instr) (s : State), step { s with pending := c :: rest } = exec c { s with pending := rest }) ∧
  (∀ s : State, s.pending = [] → step s = .next (sealSettle (icSettle (launchDue (advance 1 s)))) ∧ (advance 1 s).now = s.now + 1) ∧
  (∀ (nbits w : Nat) (s : State), decodeTableWord nbits w = none ∧ s.withFetchWord nbits w = s)

/-- R4, R21, R39, R41: the state after reset is sound; every register holds its reset value, every island runs, VT is 0 with TA as master, nothing waits. What memory reads after reset, and that the islands
run, are the model's (log entries 6 and 28). -/
def Obligations.ResetIsSound : Prop :=
  Sound State.reset ∧ State.reset.pending = [] ∧ (∀ a, rd a State.reset = resetVal a) ∧ (∀ a, mrd a State.reset = memDflt 0 a) ∧ (∀ i : Fin 21, islSt i State.reset = .run) ∧ vt State.reset = 0 ∧
  timeState State.reset = stUnsync ∧ ftst F.TIME_STATUS_MASTER State.reset = false ∧ (∀ h : Fin 8, (State.reset.harts[h.1]).world = false) ∧ (∀ (e : Fin 24) (t : Fin 4) (k : Fin 32), getN e t k State.reset = 0)

/-- Every command completes: from a sound state a step answers a next state that is sound and whose queue is the rest. -/
def Obligations.EveryStepKeepsTheStateSound : Prop :=
  (∀ (c : Instr) (rest : List Instr) (s : State), s.pending = c :: rest → Sound s → ∃ t, step s = .next t ∧ Sound t ∧ t.pending = rest) ∧
  (∀ s : State, s.pending = [] → Sound s → ∃ t, step s = .next t ∧ Sound t ∧ t.pending = [])

/-! ### Threads of the engines (chapters 04 and 05) -/

/-- R177, R178, R179, R180, R187, R191, R208: every legal instruction of an engine is decoded from its word, with every operand; a word that decodes is the word of the instruction decoded, and legal. -/
def Obligations.EngineInstructionsDecodeFromTheirWords : Prop :=
  (∀ i : NyInsn, i.legal = true → nyDecode (nyEncode i) = some i) ∧ (∀ i : NyInsn, nyEncode i < 2 ^ 32) ∧ (∀ (w : Nat) (i : NyInsn), nyDecode w = some i → nyEncode i = w ∧ i.legal = true) ∧
  (∀ (c : Instr) (et : Fin 24 × Fin 4) (i : NyInsn), c.wf = true → c.insn = some (et, i) → nyDecode (nyEncode i) = some i)

/-! ### Islands and domains (chapters 01 and 17) -/

/-- R21, R482, R575: what a request to an island does, by the state of the island; `u` is the state after the ownership check, and the request is one that the initiator may make and
the island accepts; one that it refuses answers an error. Nothing else changes, but for the open frames of a camera island that stops and the mastership of a time island that is reset. -/
def Obligations.IslandRequestsMoveTheIsland : Prop :=
  ∀ (w : Initiator) (i : Fin 21) (d : Fin 4) (s : State), Lets w (R.SYSCTL_ISL_CMD_i i.1) true s → let u := entered w (R.SYSCTL_ISL_CMD_i i.1) s; (initWorld w u = true ∨ hearthIsland i (ok u) = false) →
    (∀ (op : IslOp) (c : Instr), (op, c) ∈ [(.clockDown d, .clockDown w i d), (.restore, .restore w i), (.stop, .stop w i), (.start, .start w i), (.reset, .reset w i), (.resetHold, .resetHold w i),
      (.release, .release w i)] → islRefused i op (ok u) = true → exec c s = .next (bad (ok u))) ∧
    let started (x : Island) : Island := { x with st := .starting, resetRec := false, holdRec := false, held := false, blw := false }
    (islRefused i (.clockDown d) (ok u) = false → islSt i u = .run →
      exec (.clockDown w i d) s = .next (updIsl i (fun x => { x with st := .slow, div := d.1 }) (ok u))) ∧
    (islRefused i .restore (ok u) = false → islSt i u = .slow →
      exec (.restore w i) s = .next (updIsl i (fun x => { x with st := .run, div := 0 }) (ok u))) ∧
    (islRefused i .stop (ok u) = false → islSt i u = .run ∨ islSt i u = .slow → fbit F.OWN_KEEPALIVE i.1 u = false →
      Does (.stop w i) s fun t => islSt i t = .draining ∧ t.isl[i.1].resetRec = false ∧ t.isl[i.1].held = false ∧ (islCams i = [] →
        t = updIsl i (fun x => { x with st := .draining, resetRec := false, holdRec := false, held := false, drainDue := drainEnd u }) (ok u))) ∧
    (islRefused i .stop (ok u) = false → islSt i u = .run ∨ islSt i u = .slow → fbit F.OWN_KEEPALIVE i.1 u = true →
      exec (.stop w i) s = .next (updIsl i (fun x => { x with held := true }) (ok u))) ∧
    (islRefused i .start (ok u) = false → islSt i u = .stopped → exec (.start w i) s = .next (updIsl i started (ok u))) ∧
    (∀ hold : Bool, islRefused i .reset (ok u) = false → islSt i u = .run ∨ islSt i u = .slow →
      Does (if hold then .resetHold w i else .reset w i) s fun t =>
        islSt i t = .draining ∧ t.isl[i.1].resetRec = true ∧ t.isl[i.1].holdRec = hold ∧ (i ≠ islTA ∧ i ≠ islTB →
          t = updIsl i (fun x => { x with st := .draining, resetRec := true, holdRec := hold, held := false, drainDue := drainEnd u }) (ok u))) ∧
    (islRefused i .release (ok u) = false → islSt i u = .reset → u.isl[i.1].holdRec = true → exec (.release w i) s = .next (updIsl i started (ok u)))

/-- R21, R22, R26, R30, R31, R575, R579, R633, R634: how a drain, a reset and a start end, a response that a stopped island no longer takes, a domain that is lost or
whose rail is good again, and a pair that disagrees. -/
def Obligations.IslandAndDomainEvents : Prop :=
  ((∀ (i : Fin 21) (s : State), islSt i s = .draining →
       (openTrans i s = false → exec (.drainComplete i) s = .next (drainOver i s)) ∧ (openTrans i s = true → exec (.drainComplete i) s = .next s) ∧
       (s.isl[i.1].drainDue ≤ s.now → exec (.drainTimerExpire i) s = .next (drainOver i s)) ∧
       (s.isl[i.1].resetRec = false → islSt i (drainOver i s) = .stopped) ∧
       (s.isl[i.1].resetRec = true → islSt i (drainOver i s) = .reset ∧ fget F.SYSCTL_RESET_CAUSE_LAST_ISLAND (drainOver i s) = i.1 ∧ fbit F.SYSCTL_EVENT 0 (drainOver i s) = true)) ∧
     (∀ (i : Fin 21) (s : State), islSt i s = .reset → s.isl[i.1].holdRec = false →
       exec (.resetComplete i) s = .next (updIsl i (fun x => { x with st := .starting, resetRec := false, holdRec := false, held := false, blw := false }) s)) ∧
     (∀ (i : Fin 21) (s : State), islSt i s = .reset → s.isl[i.1].holdRec = true → exec (.resetComplete i) s = .next s) ∧
     (∀ (i : Fin 21) (s : State), islSt i s = .starting → exec (.clockStable i) s = .next (islandUp i s)) ∧
     (∀ (i : Fin 21) (s : State), islSt i s = .starting → i ≠ islSW0 → i ≠ islSW1 → clusterHarts i = [] → groupEngines i = [] → blwStopsIsl i s = false → s.blw.thermOn = false →
       exec (.clockStable i) s = .next (updIsl i (fun x => { x with st := .run, div := 0 }) s)) ∧
     (∀ (i : Fin 21) (s : State), islSt i s = .stopped ∨ islSt i s = .reset ∨ islSt i s = .off →
       exec (.responseDiscard i) s = .next (raise F.SYSCTL_EVENT 1 (bump R.SYSCTL_DISCARD_CNT s)))) ∧
  ((∀ (d : Domain) (s : State), railOk d s = true →
       let b := d == .b
       let s1 := loseTime b (raise F.BLW_EVENT (2 + railBit d) (lower F.BLW_RAIL (railBit d) (setRail d false s)))
       let s2 := (domainIslands d).foldl (fun s i => if islSt i s = .off then s
         else updIsl i (fun x => { x with st := .off, div := 0, resetRec := false, holdRec := false, held := false, blw := false }) (islandDown i .abortedIslandOff s)) s1
       let s3 := (domainCans d).foldl (fun s c => loseCan c s) (forFin 4 queueLost s2)
       exec (.domainLost d) s = .next (if ftst F.TIME_CTRL_TWIN_EN s3 = true ∧ twinState b s3 ≠ twAbsent then makeAbsent b s3 else s3)) ∧
     (∀ (d : Domain) (s : State), railOk d s = false → exec (.domainLost d) s = .next s) ∧
     (∀ (d : Domain) (s : State), exec (.domainRailValid d) s = .next (raise F.BLW_RAIL (railBit d) (setRail d true s))) ∧
     (∀ (p : Fin 4) (s : State), islOpen (islL p) s = true →
       Does (.lockstep p) s fun t => islSt (islL p) t = .reset ∧ t.isl[(islL p).1].holdRec = true ∧ fbit F.SYSCTL_LS_STAT p.1 t = true ∧ fbit F.SYSCTL_EVENT 2 t = true))

/-! ### Vehicle time (chapter 02) -/

/-- R40, R65, R67, R69, R73, R88, R637: what the reads and writes of the TIME block do. -/
def Obligations.TimeRegisterCommands : Prop :=
  (∀ (w : Initiator) (s : State), Lets w R.TIME_NOW_NS false s → let u := entered w R.TIME_NOW_NS s;
    Does (.nowNsRead w) s fun t => t.resp = ⟨.done, BitVec.ofNat 32 (vtParts (vt16 u)).2.1⟩ ∧ t.regs = u.regs ∧ t.mem = u.mem ∧
      (w ≠ .debug → sget (fun _ => (0, 0)) t.time.shadows (initIdx w) = ((vtParts (vt16 u)).1, (vtParts (vt16 u)).2.2))) ∧
  (∀ (w : Initiator) (s : State), Lets w R.TIME_CTRL true s → let u := entered w R.TIME_CTRL s; ftst F.TIME_STATUS_TA_OK u = false ∨ ftst F.TIME_STATUS_TB_OK u = false →
    exec (.resync w) s = .next (updTime (fun t => { t with resyncReq := true, splitHold := false }) (ok u))) ∧
  (∀ (w : Initiator) (s : State), Lets w R.TIME_STEP_ACCEPT true s → let u := entered w R.TIME_STEP_ACCEPT s; timeState u = stRefusing → u.time.stepAt = none →
    Does (.stepAccept w) s fun t => t.time.stepAt.isSome = true ∧ (∀ at_, t.time.stepAt = some at_ → at_ % 1000000 = 0 ∧ vtNs u + 100000 ≤ at_) ∧
      t.time.stepVal = signedOf 64 ((rd R.TIME_STEP_PEND_LO u).toNat + (rd R.TIME_STEP_PEND_HI u).toNat * 2 ^ 32) ∧ fget F.TIME_STATUS_STEP_PENDING t = 1) ∧
  (∀ (w : Initiator) (s : State), Lets w R.TIME_SET_CMD true s → let u := entered w R.TIME_SET_CMD s; timeState u = stUnsync ∨ timeState u = stFree → fget F.TIME_SET_NS_NS u ≤ 999999999 →
    exec (.setGo w) s = .next (updTime (fun t => { t with
      setPend := some ((fget F.TIME_SET_SEC_LO_SEC u + fget F.TIME_SET_SEC_HI_SEC u * 2 ^ 32) * secNs + fget F.TIME_SET_NS_NS u) }) (ok u))) ∧
  (∀ (w : Initiator) (s : State), Lets w R.TIME_SET_CMD true s → let u := entered w R.TIME_SET_CMD s; timeState u ≠ stUnsync → timeState u ≠ stFree →
    exec (.setGo w) s = .next (bad (raise F.TIME_EVENT 8 (ok u)))) ∧
  (∀ (w : Initiator) (s : State), Lets w R.TIME_CTRL true s → let u := entered w R.TIME_CTRL s; fget F.TIME_CTRL_ROLE u ≠ 2 → timeState u = stFree →
    exec (.roleWrite w 2) s = .next (updTime (fun t => { t with ppsLast := none, ppsSince := t.mraw, ppsLost := false }) (fput F.TIME_CTRL_ROLE 2 (ok u)))) ∧
  (∀ (w : Initiator) (s : State), Lets w R.TIME_CTRL true s → let u := entered w R.TIME_CTRL s; fget F.TIME_CTRL_ROLE u ≠ 1 → timeState u ≠ stFree →
    exec (.roleWrite w 1) s = .next (updTime (fun t => { t with ppsLast := none, ppsSince := t.mraw, ppsLost := false }) (fput F.TIME_CTRL_ROLE 1 (ok u)))) ∧
  (∀ (w : Initiator) (en : Bool) (s : State), Lets w R.TIME_CTRL true s → let u := entered w R.TIME_CTRL s; ftst F.TIME_CTRL_TWIN_EN u ≠ en →
    Does (.twinEnChange w en) s fun t => t.time.twin0 = TwinDir.init ∧ t.time.twin1 = TwinDir.init ∧ t.time.joint = false ∧
      rd R.TIME_TWIN_STATUS t = resetVal R.TIME_TWIN_STATUS ∧ ftst F.TIME_CTRL_TWIN_EN t = en) ∧
  (∀ (w : Initiator) (dir : Bool) (s : State), Lets w R.TIME_TWIN_CMD true s → let u := entered w R.TIME_TWIN_CMD s;
    exec (.twinResume w dir) s = .next (chooseSteer (raise F.TIME_EVENT 11 (putAgree 0 (relearn dir (updTime (fun t => { t with
      joint := false, twin0 := { t.twin0 with inPair := false }, twin1 := { t.twin1 with inPair := false } }) (ok u))))))) ∧
  (∀ (w : Initiator) (s : State), Lets w R.TIME_CNT_CLR true s → let u := entered w R.TIME_CNT_CLR s; exec (.timeCntClr w) s = .next (clearRegs timeCounters (ok u)))

/-- R50, R63, R67, R69, R75, R76, R78, R80, R82: what the events of vehicle time do. -/
def Obligations.TimeEvents : Prop :=
  (∀ (dA dB : Int) (s : State), masterB (compareIslands dA dB s) = masterB s → exec (.splitCompare dA dB) s = .next (compareIslands dA dB s)) ∧
  (∀ (dA dB : Int) (s : State), masterB (compareIslands dA dB s) ≠ masterB s → exec (.splitCompare dA dB) s = .next (lateTriggers (compareIslands dA dB s))) ∧
  (∀ (s : State), ftst F.TIME_CTRL_GPTP_STBY s = true → thrState 0 0 s = thTrapped ∨ s.railA = false →
    exec .gptpStandbyTakeover s = .next (fput F.TIME_STATUS_STBY_ACTIVE 1 s)) ∧
  (∀ (p : Sample) (rest : List Sample) (s : State), s.time.queue = p :: rest →
    exec .servoSample s = .next (takeSample p (updTime (fun t => { t with queue := rest }) s))) ∧
  (∀ (s : State), timeState s = stLocking ∨ timeState s = stLocked → s.time.lastFed + holdTimeout s ≤ s.now →
    exec .holdoverTimeout s = .next (logTime 3 0 (raise F.TIME_EVENT 3 (enterState stHoldover (updTime (fun t => { t with fromUnsync := false }) s))))) ∧
  (∀ (h : Nat) (s : State), s.time.holdSince = some h → s.time.holdDone = false → h + clampNat 1 3600 (fget F.TIME_HOLD_CFG_LIMIT s) * secNs ≤ s.now →
    Does .holdLimit s fun t => t.time.beyond = true ∧ t.time.holdDone = true ∧ fbit F.TIME_EVENT 4 t = true ∧ t.mem = s.mem) ∧
  (∀ (v : Nat) (s : State), s.time.stepAt = some v → Does .stepInstant s fun t => ∃ x, t = vtMoved (-s.time.stepVal) x ∧ x.time.stepAt = none ∧ timeState x = stLocking) ∧
  (∀ (v : Nat) (s : State), s.time.setPend = some v → let x := elapseTo ((s.now / 1000 + 1) * 1000) s; let d : Int := (v : Int) - vtNs x
    exec .setApply s = .next (vtMoved d (logTime 2 d (moveVt (v * nsUnit) (updTime (fun t => { t with setPend := none }) x))))) ∧
  (∀ (s : State), freeRunning (timeState s) = true → exec .holdoverFreqRecompute s = .next (setFreq (roundNearest (holdoverFreq s)) s)) ∧
  (∀ (s : State), freeRunning (timeState s) = false → exec .holdoverFreqRecompute s = .next s) ∧
  (∀ (dA dB : Int) (s : State), Does (.tempSensorRead dA dB) s fun t => t.time.tempA = dA ∧ t.time.tempB = dB ∧
    fget F.TIME_TEMP_BIN t = tempBin (if masterB s then dB else dA) % 2 ^ 7) ∧
  (∀ (dir : Bool) (l : Nat) (s : State), ftst F.TIME_CTRL_TWIN_EN s = true → twinState dir s ≠ twAbsent → (twin dir s).lastSample = some l → l + holdTimeout s ≤ s.now →
    exec (.twinAbsent dir) s = .next (makeAbsent dir s)) ∧
  (∀ (rise : Bool) (sub : Fin 8) (s : State), fget F.TIME_CTRL_ROLE s = 1 → ftst F.TIME_PPS_CFG_EDGE s = !rise → ppsAccepted s.time.mraw s = true →
    exec (.ppsEdge rise sub) s = .next (ppsSample sub.1 (updTime (fun t => { t with ppsLast := some s.time.mraw, ppsSince := s.time.mraw, ppsLost := false }) s))) ∧
  (∀ (rise : Bool) (sub : Fin 8) (s : State), fget F.TIME_CTRL_ROLE s = 1 → ftst F.TIME_PPS_CFG_EDGE s = !rise → ppsAccepted s.time.mraw s = false →
    exec (.ppsEdge rise sub) s = .next (bump R.TIME_PPS_SPUR_CNT s)) ∧
  (∀ s : State, s.time.ppsLost = false → fget F.TIME_CTRL_ROLE s = 1 → s.time.ppsSince + ppsLimit ≤ s.time.mraw →
    Does .ppsLost s fun t => t.time.ppsLost = true ∧ timeState t = stHoldover ∧ fget F.TIME_PPS_SEC_HI_VALID t = 0 ∧ fbit F.TIME_EVENT 6 t = true)

/-! ### Triggers, captures and cameras (chapter 03) -/

/-- R104, R105, R107, R108, R109, R115, R638: a trigger is started and stopped, reaches its instants, drives its leading edge and ends its pulses. -/
def Obligations.TriggerCommands : Prop :=
  ((∀ (w : Initiator) (n : Fin 16) (s : State), Lets w (R.TRG_CMD_n n.1) true s → let u := entered w (R.TRG_CMD_n n.1) s; trgState n u = trgIdle → trgValid n u = true →
       Does (.trgStart w n) s fun t => trgState n t = trgArmed ∧ fget (F.TRG_EDGE_IDX_n_COUNT n.1) t = 0 ∧ rd (R.TRG_SKIP_CNT_n n.1) t = 0 ∧
         t.trg[n.1].next = firstIndex n (vt16 u + 2000 * 65536 + (if vt u % 2 ^ 32 = 0 then 0 else 1)) u ∧ t.mem = u.mem) ∧
     (∀ (w : Initiator) (n : Fin 16) (s : State), Lets w (R.TRG_CMD_n n.1) true s → let u := entered w (R.TRG_CMD_n n.1) s; trgState n u ≠ trgIdle ∨ trgValid n u = false →
       exec (.trgStart w n) s = .next (raise (F.TRG_STATUS_n_REFUSED n.1) 0 (ok u))) ∧
     (∀ (w : Initiator) (n : Fin 16) (s : State), Lets w (R.TRG_CMD_n n.1) true s → let u := entered w (R.TRG_CMD_n n.1) s; trgState n u = trgArmed →
       exec (.trgStop w n) s = .next (putTrgState n trgIdle (ok u))) ∧
     (∀ (w : Initiator) (n : Fin 16) (s : State), Lets w (R.TRG_CMD_n n.1) true s → let u := entered w (R.TRG_CMD_n n.1) s; trgState n u = trgRunning →
       exec (.trgStop w n) s = .next (putTrgState n (if pulseActive n u then trgStopping else trgIdle) (ok u))) ∧
     (∀ (n : Fin 16) (s : State), trgWaiting n s = true → placed (trgInstant n s.trg[n.1].next s) * 2 ^ 32 ≤ vt s → gateOpen n s = true → pulseActive n s = false →
       exec (.triggerInstant n) s = .next (leadingEdge n (placed (trgInstant n s.trg[n.1].next s)) (updTrg n (fun t => { t with next := t.next + 1 }) s))) ∧
     (∀ (n : Fin 16) (s : State), trgWaiting n s = true → placed (trgInstant n s.trg[n.1].next s) * 2 ^ 32 ≤ vt s → gateOpen n s = false ∨ pulseActive n s = true →
       exec (.triggerInstant n) s = .next (skipInstant n (updTrg n (fun t => { t with next := t.next + 1 }) s))) ∧
     (∀ (n : Fin 16) (e : Nat) (s : State), s.trg[n.1].pulseEnd = some e → (e + 7) / 8 ≤ s.time.mraw →
       Does (.trailingEdge n) s fun t => t.trg[n.1].pulseEnd = none ∧ fget (F.TRG_STATUS_n_LEVEL n.1) t = 0 ∧
         trgState n t = (if trgState n s = trgStopping then trgIdle else trgState n s) ∧ t.mem = s.mem) ∧
     (∀ (w : Initiator) (n : Fin 16) (s : State), Lets w (R.TRG_LAST_NS_n n.1) false s → let u := entered w (R.TRG_LAST_NS_n n.1) s;
       Does (.trgLastRead w n) s fun t => t.resp = ⟨.done, BitVec.ofNat 32 (vtParts u.trg[n.1].last).2.1⟩ ∧ t.regs = u.regs ∧ t.mem = u.mem ∧
         sget (fun _ => 0) t.trgShadows (n.1 * 256 + initIdx w) = u.trg[n.1].last)) ∧
  (∀ (n : Fin 16) (at_ : Nat) (s : State),
       (leadingEdge n at_ s).trg[n.1].pulseEnd = some (s.time.mraw * 8 + trgWidth n s) ∧ (leadingEdge n at_ s).trg[n.1].last = at_ ∧
       fget (F.TRG_EDGE_IDX_n_COUNT n.1) (leadingEdge n at_ s) = (fget (F.TRG_EDGE_IDX_n_COUNT n.1) s + 1) % 2 ^ 32 ∧
       fget (F.TRG_LAST_NS_n_NS n.1) (leadingEdge n at_ s) = (vtParts at_).2.1 % 2 ^ 32 ∧ (leadingEdge n at_ s).mem = s.mem)

/-- R117, R118, R119, R120: a selected edge that passes the filter is merged, dropped or stamped, and a read of the stamp takes the head. -/
def Obligations.CaptureCommands : Prop :=
  (∀ (m : Fin 16) (rise : Bool) (after hold : Nat) (s : State), after < 8 → capSelected m rise s = true → fget (F.TRG_CAP_CFG_m_FILT m.1) s * 8 ≤ hold →
    Does (.captureEdge m rise after hold) s fun t =>
      (∀ l, s.cap[m.1].lastEdge = some l → s.time.mraw * 8 + after < l + 32 → t.cap[m.1].fifo = s.cap[m.1].fifo ∧ t.cap[m.1].gap = true ∧
        t.cap[m.1].lastEdge = some l ∧ ftst (F.TRG_CAP_STATUS_m_MERGE m.1) t = true) ∧
      ((∀ l, s.cap[m.1].lastEdge = some l → l + 32 ≤ s.time.mraw * 8 + after) → 16 ≤ s.cap[m.1].fifo.length →
        t.cap[m.1].fifo = s.cap[m.1].fifo ∧ t.cap[m.1].gap = true ∧ ftst (F.TRG_CAP_STATUS_m_OVF m.1) t = true) ∧
      ((∀ l, s.cap[m.1].lastEdge = some l → l + 32 ≤ s.time.mraw * 8 + after) → s.cap[m.1].fifo.length < 16 →
        ∃ e : CapEntry, t.cap[m.1].fifo = s.cap[m.1].fifo ++ [e] ∧ e.rise = rise ∧ e.gap = s.cap[m.1].gap ∧ e.epoch = epoch s % 16 ∧ t.cap[m.1].gap = false ∧
          (fgetI (F.TRG_CAP_DELAY_m_PS m.1) s = 0 → e.stamp = vt16 s / 0x2000 * 0x2000 + after * 0x2000) ∧
          fget (F.TRG_CAP_STATUS_m_FILL m.1) t = (s.cap[m.1].fifo.length + 1) % 2 ^ 5)) ∧
  (∀ (w : Initiator) (m : Fin 16) (s : State) (e : CapEntry) (rest : List CapEntry), Lets w (R.TRG_CAP_STAMP_NS_m m.1) false s → let u := entered w (R.TRG_CAP_STAMP_NS_m m.1) s; u.cap[m.1].fifo = e :: rest →
    Does (.capStampPop w m) s fun t => t.cap[m.1].fifo = rest ∧ t.resp = ⟨.done, BitVec.ofNat 32 (vtParts e.stamp).2.1⟩ ∧
      sget (fun _ => ⟨0, false, 0, false⟩) t.cap[m.1].shadows (initIdx w) = e ∧ t.mem = u.mem) ∧
  (∀ (w : Initiator) (m : Fin 16) (s : State), Lets w (R.TRG_CAP_STAMP_NS_m m.1) false s → let u := entered w (R.TRG_CAP_STAMP_NS_m m.1) s; u.cap[m.1].fifo = [] →
    exec (.capStampPop w m) s = .next (answer .done 0xFFFFFFFF (ok u)))

/-- R123, R124, R127, R128, R129, R133, R134, R136: what a camera port makes of the packets of an enabled virtual channel. -/
def Obligations.CameraCommands : Prop :=
  (∀ (n : Fin 4) (vc : Fin 16) (num : BitVec 16) (ecc : HdrEcc) (s : State), camTakes n s = true → ecc ≠ .bad → ftst (F.CAM_VC_CFG_v_EN n.1 vc.1) (camBurst n s) = true →
    let b := camBurst n s
    exec (.csiFrameStart n vc num ecc) s = .next (openFrame n vc num.toNat (abortFrame n vc (camStamp n b) (placeVc n vc b))) ∧
    (∀ f, camFrame n vc b = some f → exec (.csiFrameEnd n vc ecc) s = .next (endFrame n vc (camStamp n b) (if ecc = .corrected then 2 else 0) b) ∧
      exec (.csiLineStart n vc num ecc) s = .next (putFrame n vc (some { f with lineStart := some ⟨camStamp n b, num.toNat, epoch b, ecc == .corrected⟩ }) b))) ∧
  (∀ (n : Fin 4) (vc : Fin 16) (dt : BitVec 6) (p : List Byte) (crcOk : Bool) (ecc : HdrEcc) (f : CamFrame) (s : State), camTakes n s = true → ecc ≠ .bad →
    dtSupported dt.toNat = true → ftst (F.CAM_VC_CFG_v_EN n.1 vc.1) (camBurst n s) = true → (dt = 0x12 → ftst (F.CAM_VC_CFG_v_EMB_EN n.1 vc.1) (camBurst n s) = true) →
    p ≠ [] → camFrame n vc (camBurst n s) = some f →
    exec (.csiLongPacket n vc dt p crcOk ecc) s = .next (takeLine n vc f dt.toNat p crcOk (ecc == .corrected) (camBurst n s))) ∧
  (∀ (n : Fin 4) (vc : Fin 16) (num : BitVec 16) (s : State), camTakes n s = true → exec (.csiFrameStart n vc num .bad) s = .next (camBadHeader n (camBurst n s))) ∧
  (∀ (n : Fin 4) (s : State), camTakes n s = true → exec (.csiGenericShortPacket n) s = .next (camDiscard n (camBurst n s)) ∧
    exec (.csiSkewCalibration n) s = .next (fput (F.CAM_STATUS_DESKEWED n.1) 1 (camBurst n s))) ∧
  (∀ (n : Fin 4) (s : State), ftst (F.CAM_STATUS_OPEN n.1) s = true → Does (.csiLinkTimeout n) s fun t => fbit (F.CAM_EVENT n.1) 0 t = true ∧ ∀ vc : Fin 16, camFrame n vc t = none) ∧
  (∀ (n : Fin 4) (s : State), ftst (F.CAM_STATUS_OPEN n.1) s = false → exec (.csiLinkTimeout n) s = .next (fput (F.CAM_STATUS_LINK n.1) 0 (elapseTo (linkDue n s) s))) ∧
  (∀ (n : Fin 4) (l : CamLine) (s : State), s.cam[n.1].staged.find? (fun l => !l.queued) = some l → s.cam[n.1].queue.length < 32 →
    exec (.lineItemPush n) s = .next (queueLost n (updCam n (fun c => { c with queue := c.queue ++ [l.id], staged := c.staged.map fun m => if m.id = l.id then { m with queued := true } else m }) s))) ∧
  (∀ (n : Fin 4) (s : State), headerThreadGone n s = false → queueLost n s = s) ∧
  (∀ (n : Fin 4) (l : CamLine) (h : List Byte) (s : State), s.cam[n.1].staged.find? (fun l => l.header.isSome) = some l → l.header = some h →
    exec (.lineStagingFree n) s = .next (submitLine n l h (unstage n l.id s))) ∧
  (∀ (w : Initiator) (n : Fin 4) (s : State), Lets w (R.CAM_CNT_CLR n.1) true s → let u := entered w (R.CAM_CNT_CLR n.1) s; exec (.camCntClr w n) s = .next (clearRegs (camCounters n.1) (ok u)))

/-! ### Threads of the engines (chapters 04 and 05) -/

/-- R142, R143, R159, R161, R163, R166, R167, R173, R174, R189, R208: what THR_CMD does to a thread, for Hearth or a thread of the normal world, and what the events of a thread
do; a trap writes the record, ends what the thread holds and stops it. -/
def Obligations.ThreadCommandsAndEvents : Prop :=
  (∀ (w : Initiator) (e : Fin 24) (t : Fin 4) (s : State), Lets w (R.ENG_THR_CMD_t e.1 t.1) true s → let u := entered w (R.ENG_THR_CMD_t e.1 t.1) s;
       (ftst (F.ENG_THR_CFG_t_WORLD e.1 t.1) (ok u) = false ∨ initWorld w u = true) →
       (thrState e t u = thIdle ∨ thrState e t u = thHalted ∨ thrState e t u = thTrapped → fget (F.ENG_THR_BUDGET_t_CYCLES e.1 t.1) u ≠ 0 →
         pcInCode e t (fget (F.ENG_THR_ENTRY_t_PC e.1 t.1) u) u = true → blwStops e t u = false →
         Does (.thrStart w e t) s fun v => thrState e t v = thReady ∧ thrPc e t v = fget (F.ENG_THR_ENTRY_t_PC e.1 t.1) u % 16384 ∧ (thr e t v).n = Vector.replicate 32 0 ∧
           (thr e t v).holds = [] ∧ (thr e t v).alarm = none ∧ v.mem = u.mem ∧ ∀ j : Fin 96, j ≠ thrIdx e t → v.eng[j.1] = u.eng[j.1]) ∧
       (thrState e t u = thIdle ∨ thrState e t u = thHalted ∨ thrState e t u = thTrapped →
         fget (F.ENG_THR_BUDGET_t_CYCLES e.1 t.1) u = 0 ∨ pcInCode e t (fget (F.ENG_THR_ENTRY_t_PC e.1 t.1) u) u = false →
         exec (.thrStart w e t) s = .next (raise (F.ENG_EVENT_REFUSED e.1) t.1 (ok u))) ∧
       (thrState e t u = thReady ∨ thrState e t u = thWait ∨ thrState e t u = thThrottled →
         Does (.thrStop w e t) s fun v => thrState e t v = thHalted ∧ (thr e t v).wait = none) ∧
       exec (.doorbell w e t) s = .next (updThr e t (fun x => { x with evBell := true }) (ok u))) ∧
  ((∀ (s : State), exec .budgetFrameStart s = .next (forFin 24 (fun e s => forFin 4 (fun t s => thrFrame e t s) s) (advance (1000000 - (mIsl s).raw % 1000000) s))) ∧
     (∀ (e : Fin 24) (t : Fin 4) (s : State), fget (F.ENG_THR_USED_t_COUNT e.1 t.1) (thrFrame e t s) = 0 ∧ (thr e t (thrFrame e t s)).evFrame = true ∧
       (thrState e t s = thThrottled → (thr e t s).wait = none → thrState e t (thrFrame e t s) = thReady)) ∧
     (∀ (e : Fin 24) (t : Fin 4) (r : BusEnd) (c : Clash) (w : EngWait) (s : State), (thr e t (icSettle s)).wait = some w → exec (.waitComplete e t r c) s = .next (waitEnd e t r c w (icSettle s))) ∧
     (∀ (e : Fin 24) (t : Fin 4) (v : Nat) (s : State), (thr e t s).alarm = some v → v * 2 ^ 32 ≤ vt s →
       Does (.timeAlarm e t) s fun u => (thr e t u).alarm = none ∧ (thr e t u).evAlarm = true ∧ u.regs = s.regs ∧ u.mem = s.mem) ∧
     (∀ (e : Fin 24) (t : Fin 4) (k : Fin 8) (a word : Nat) (s : State), (thr e t s).posted[k.1]? = some (a, word) →
       let s1 := updThr e t (fun x => { x with posted := x.posted.eraseIdx k.1 }) s
       exec (.postedStoreError e t k) s = .next (if thrState e t s = thReady ∨ thrState e t s = thWait ∨ thrState e t s = thThrottled
         then trapAt e t trBus a (thrPc e t s) word s1 else s1)) ∧
     (∀ (e : Fin 24) (t : Fin 4) (word : Word) (s : State), nyDecode word.toNat = none → Issues e t s →
       exec (.illegalEncoding e t word false) s = .next (trap e t word.toNat trIllegal 0 (issued e t s))) ∧
     (∀ (e : Fin 24) (t : Fin 4) (word : Word) (s : State), Issues e t s →
       exec (.illegalEncoding e t word true) s = .next (throttle e t (trap e t word.toNat trEcc 0 (issued e t s)))) ∧
     (∀ (e : Fin 24) (t : Fin 4) (cause addr pc word : Nat) (s : State), (thr e t (trapAt e t cause addr pc word s)).wait = none))

/-- R147, and R141, R190, R208: a command of chapter 05 of a thread that may not issue does nothing; one whose PC lies outside THR_CODE traps WINDOW before it issues; one
that is no legal encoding traps ILLEGAL after it has issued. A branch goes to its own word plus the offset when its condition holds, else to the next word; JAL and JALR link the
word after them (that the link does not wrap at the end of the instruction RAM is the model's, log entry 26). -/
def Obligations.IssueAndBranches : Prop :=
  (∀ (c : Instr) (e : Fin 24) (t : Fin 4) (i : NyInsn) (s : State), c.insn = some ((e, t), i) →
       (mayIssue e t s = false → exec c s = .next s) ∧
       (mayIssue e t s = true → pcInCode e t (thrPc e t s) s = false → exec c s = .next (trap e t (nyEncode i) trWindow 0 s)) ∧
       (Issues e t s → i.legal = false → exec c s = .next (trap e t (nyEncode i) trIllegal 0 (issued e t s)))) ∧
  (∀ (e : Fin 24) (t : Fin 4) (nd na nb : Fin 32) (off : BitVec 16) (s : State), Issues e t s →
       let a := getN e t na s
       let b := getN e t nb s
       let pc := thrPc e t s
       let dest (c : Bool) : Nat := if c then (((pc : Int) + off.toInt) % 16384).toNat else pc + 1
       Does (.beq e t na nb off) s (Retired e t 0 0 (dest (a == b)) s) ∧ Does (.bne e t na nb off) s (Retired e t 0 0 (dest (a != b)) s) ∧
       Does (.blt e t na nb off) s (Retired e t 0 0 (dest (a.slt b)) s) ∧ Does (.bge e t na nb off) s (Retired e t 0 0 (dest (!a.slt b)) s) ∧
       Does (.bltu e t na nb off) s (Retired e t 0 0 (dest (a.ult b)) s) ∧ Does (.bgeu e t na nb off) s (Retired e t 0 0 (dest (!a.ult b)) s) ∧
       (∀ o : BitVec 26, Does (.jal e t o) s (Retired e t 31 (BitVec.ofNat 32 (pc + 1)) (((pc : Int) + o.toInt) % 16384).toNat s)) ∧
       Does (.jalr e t nd na off) s (Retired e t nd (BitVec.ofNat 32 (pc + 1)) (a + off.signExtend 32).toNat s))

/-- R180: the instructions of the register form write their result to nd and go on to the next word; nothing else of the thread, of another thread or of memory changes. -/
def Obligations.RegisterFormInstructionsWriteTheirResult : Prop :=
  ∀ (e : Fin 24) (t : Fin 4) (nd na nb : Fin 32) (s : State), Issues e t s →
    let a := getN e t na s
    let b := getN e t nb s
    let pc := thrPc e t s + 1
    Does (.add e t nd na nb) s (Retired e t nd (a + b) pc s) ∧ Does (.sub e t nd na nb) s (Retired e t nd (a - b) pc s) ∧
    Does (.and e t nd na nb) s (Retired e t nd (a &&& b) pc s) ∧ Does (.or e t nd na nb) s (Retired e t nd (a ||| b) pc s) ∧
    Does (.xor e t nd na nb) s (Retired e t nd (a ^^^ b) pc s) ∧ Does (.shl e t nd na nb) s (Retired e t nd (a <<< (b.toNat % 32)) pc s) ∧
    Does (.shr e t nd na nb) s (Retired e t nd (a >>> (b.toNat % 32)) pc s) ∧ Does (.sar e t nd na nb) s (Retired e t nd (a.sshiftRight (b.toNat % 32)) pc s) ∧
    Does (.mul e t nd na nb) s (Retired e t nd (a * b) pc s) ∧
    Does (.mulh e t nd na nb) s (Retired e t nd (BitVec.ofInt 32 (a.toInt * b.toInt / 2 ^ 32)) pc s) ∧
    Does (.min e t nd na nb) s (Retired e t nd (if a.slt b then a else b) pc s) ∧ Does (.max e t nd na nb) s (Retired e t nd (if a.slt b then b else a) pc s) ∧
    Does (.slt e t nd na nb) s (Retired e t nd (if a.slt b then 1 else 0) pc s) ∧ Does (.sltu e t nd na nb) s (Retired e t nd (if a.ult b then 1 else 0) pc s) ∧
    (∀ z : Fin 33, (∀ i : Fin 32, 32 - z.1 ≤ i.1 → a.getLsbD i.1 = false) → (z.1 < 32 → a.getLsbD (31 - z.1) = true) →
      Does (.clz e t nd na) s (Retired e t nd (BitVec.ofNat 32 z.1) pc s)) ∧
    Does (.popc e t nd na) s (Retired e t nd (BitVec.ofNat 32 ((List.range 32).filter fun i => a.getLsbD i).length) pc s)

/-- R180, R187, R191: the same of the immediate form, whose shift amounts are at most 31, and of the bit fields, which end at bit 31. -/
def Obligations.ImmediateAndFieldInstructionsWriteTheirResult : Prop :=
  ∀ (e : Fin 24) (t : Fin 4) (nd na : Fin 32) (imm : BitVec 16) (s : State), Issues e t s →
    let a := getN e t na s
    let pc := thrPc e t s + 1
    Does (.addi e t nd na imm) s (Retired e t nd (a + imm.signExtend 32) pc s) ∧ Does (.andi e t nd na imm) s (Retired e t nd (a &&& imm.setWidth 32) pc s) ∧
    Does (.ori e t nd na imm) s (Retired e t nd (a ||| imm.setWidth 32) pc s) ∧ Does (.xori e t nd na imm) s (Retired e t nd (a ^^^ imm.setWidth 32) pc s) ∧
    (imm.toNat < 32 → Does (.shli e t nd na imm) s (Retired e t nd (a <<< imm.toNat) pc s) ∧ Does (.shri e t nd na imm) s (Retired e t nd (a >>> imm.toNat) pc s) ∧
      Does (.sari e t nd na imm) s (Retired e t nd (a.sshiftRight imm.toNat) pc s)) ∧
    Does (.lui e t nd imm) s (Retired e t nd (imm ++ (0 : BitVec 16)) pc s) ∧
    Does (.slti e t nd na imm) s (Retired e t nd (if a.slt (imm.signExtend 32) then 1 else 0) pc s) ∧
    Does (.sltui e t nd na imm) s (Retired e t nd (if a.ult (imm.signExtend 32) then 1 else 0) pc s) ∧
    (∀ (w pos : Fin 32), pos.1 + w.1 + 1 ≤ 32 →
      Does (.ext e t nd na w pos false) s (Retired e t nd (BitVec.ofNat 32 (a.toNat / 2 ^ pos.1 % 2 ^ (w.1 + 1))) pc s) ∧
      Does (.ext e t nd na w pos true) s (Retired e t nd (BitVec.ofInt 32 (signedOf (w.1 + 1) (a.toNat / 2 ^ pos.1 % 2 ^ (w.1 + 1)))) pc s) ∧
      Does (.dep e t nd na w pos) s (Retired e t nd (BitVec.ofNat 32 (a.toNat % 2 ^ (w.1 + 1) * 2 ^ pos.1)) pc s) ∧
      Does (.ins e t nd na w pos) s (Retired e t nd (insertBits (getN e t nd s) (pos.1 + w.1) pos.1 a.toNat) pc s))

/-- R144, R145, R186, R188, R415: a load reads the bytes of its window, zero extended; LDQ reads four registers; an access by the bank's other port leaves the data undefined or retries the load, and is counted. -/
def Obligations.LoadsReadTheirWindow : Prop :=
  ∀ (k e : _) (t : Fin 4) (nd na : Fin 32) (imm : BitVec 16) (r : Option BusEnd) (cl : Clash) (s : State), Issues e t s → (k = 3 → nd.1 ≤ 28) →
    let c : Instr := match k with
      | (0 : Fin 4) => .ldb e t nd na imm r cl
      | 1 => .ldh e t nd na imm r cl
      | 2 => .ldw e t nd na imm r cl
      | 3 => .ldq e t nd na imm r cl
    let u := issued e t s
    let a := (getN e t na u + imm.signExtend 32).toNat
    let size := accSize k
    let i : NyInsn := .load k nd na imm
    let word := nyEncode i
    (a % size ≠ 0 → exec c s = ends e t i s (trap e t word trMisalign a u)) ∧
    (a % size = 0 → windowOf e t a size false u = none → exec c s = ends e t i s (trap e t word trWindow a u)) ∧
    (a % size = 0 → a + size ≤ 0x10000 → r ≠ some .eccError → k ≠ 3 →
      Does c s (Retired e t nd (BitVec.ofNat 32 (leNat (mrdBytes (dataRam e a) size s))) (thrPc e t s + 1) s)) ∧
    (a % size = 0 → ∀ w, windowOf e t a size false u = some w → w.outside = false → r ≠ some .eccError →
      exec c s = ends e t i s (retire e t (setRun e t nd (winWords w size (winBytes e t w size u)) u))) ∧
    (a % size = 0 → ∀ w p, windowOf e t a size false u = some w → w = .bank p ∨ w = .dram p → (outerCheck e t false p size u).1 = none →
      let x := (outerCheck e t false p size u).2
      let b := (p - 0x01000000) / 0x40000
      let y := bump (R.MEM_COLL_SILENT_b b) x
      (r = some .ok → cl = .clear ∨ inBanks p 1 = false → exec c s = ends e t i s (retire e t (setRun e t nd (winWords (.dram p) size (mrdBytes p size x)) x))) ∧
      (r = some .ok → cl = .silent → inBanks p 1 = true →
        exec c s = ends e t i s (retire e t (useFree (setRun e t nd (winWords (.bank p) size (leBytes size (freeVal y))) y)))) ∧
      (r = some .ok → cl = .retried → inBanks p 1 = true →
        exec c s = ends e t i s (retire e t (setRun e t nd (winWords (.dram p) size (mrdBytes p size x)) (bump (R.MEM_COLL_RETRY_b b) x)))) ∧
      (r = none → exec c s = ends e t i s (waitOn e t (.load nd size a (thrPc e t x) word) x)))

/-- R144, R145, R186, R188, R189, R204, R415: a store writes the bytes of its window; one outside the engine becomes a posted store, of which eight may be outstanding, and
an access by the bank's other port is counted; a bank atomic returns the old word and stores the sum or the new value. -/
def Obligations.StoresAndBankAtomics : Prop :=
  (∀ (k e : _) (t : Fin 4) (nd na : Fin 32) (imm : BitVec 16) (n : Fin 9) (cl : Clash) (s : State), Issues e t s → (k = 3 → nd.1 ≤ 28) →
       let c : Instr := match k with
         | (0 : Fin 4) => .stb e t nd na imm n cl
         | 1 => .sth e t nd na imm n cl
         | 2 => .stw e t nd na imm n cl
         | 3 => .stq e t nd na imm n cl
       let u := postedDone e t n.1 (issued e t s)
       let a := (getN e t na u + imm.signExtend 32).toNat
       let size := accSize k
       let d (w : Win) := wordsWin w size (getRun e t nd (if size = 16 then 4 else 1) u)
       let i : NyInsn := .store k nd na imm
       let word := nyEncode i
       (a % size ≠ 0 → exec c s = ends e t i s (trap e t word trMisalign a u)) ∧
       (a % size = 0 → a + size ≤ 0x10000 → k ≠ 3 → Does c s fun v =>
         (∀ b, mrd b v = if dataRam e a ≤ b ∧ b < dataRam e a + size then (leBytes size (getN e t nd s).toNat).getD (b - dataRam e a) 0 else mrd b s) ∧
         (∀ j : Fin 96, v.eng[j.1].n = s.eng[j.1].n) ∧ thrPc e t v = (thrPc e t s + 1) % 16384 ∧
         (∀ b, b < 0x02000000 + 0x80000 * e.1 ∨ 0x02080000 + 0x80000 * e.1 ≤ b → rd b v = rd b s)) ∧
       (a % size = 0 → ∀ w, windowOf e t a size true u = some w → w.outside = false → exec c s = ends e t i s (retire e t (putWinBytes e t w (d w) u))) ∧
       (a % size = 0 → ∀ w p, windowOf e t a size true u = some w → w = .bank p ∨ w = .dram p →
         (8 ≤ (thr e t u).posted.length → exec c s = ends e t i s (waitOn e t (.store size a (leNat (d w)) (thrPc e t u) word) u)) ∧
         ((thr e t u).posted.length < 8 → (outerCheck e t true p (d w).length u).1 = none →
           let x := (outerCheck e t true p (d w).length u).2
           let b := (p - 0x01000000) / 0x40000
           let clash := if inBanks p 1 = false ∨ cl = .clear then x else bump (if cl = .silent then R.MEM_COLL_SILENT_b b else R.MEM_COLL_RETRY_b b) x
           exec c s = ends e t i s (retire e t (sealSettle (updThr e t (fun y => { y with posted := y.posted ++ [(a, word)] }) (mwrBytes p (d w) clash))))))) ∧
  (∀ (add : Bool) (e : Fin 24) (t : Fin 4) (nd na nb : Fin 32) (s : State), Issues e t s →
       let c (r : Option BusEnd) : Instr := if add then .aadd e t nd na nb r else .aswp e t nd na nb r
       let u := issued e t s
       let a := (getN e t na u).toNat
       let v := getN e t nb u
       let i : NyInsn := .bank (if add then 0 else 1) nd na nb
       let word := nyEncode i
       let x := (outerCheck e t true a 4 u).2
       let old := BitVec.ofNat 32 (mrdN a 4 x)
       (a % 4 = 0 → inBanks a 4 = true → (outerCheck e t true a 4 u).1 = none →
         exec (c (some .ok)) s = ends e t i s (retire e t (sealSettle (setN e t nd old (mwrN a 4 (if add then old + v else v).toNat x)))) ∧
         exec (c none) s = ends e t i s (waitOn e t (.atomic nd add a v (thrPc e t x) word) x)) ∧
       (∀ r, a % 4 ≠ 0 → exec (c r) s = ends e t i s (trap e t word trMisalign a u)) ∧
       (∀ r, a % 4 = 0 → inBanks a 4 = false → exec (c r) s = ends e t i s (trap e t word trWindow a u)))

/-- R148, R160, R162, R164, R200, R201, R205, R206, R207: WEV, PSCAN, PCLR, FENCE, TNOW, TAT, CQ, CQWAIT, YIELD, HALT, TRAP and BUDGET. -/
def Obligations.EventTimeCryptoAndSystemInstructions : Prop :=
  (∀ (e : Fin 24) (t : Fin 4) (nd na nb : Fin 32) (s : State), Issues e t s →
       let u := icSettle (issued e t s)
       let m := getN e t na u
       let k := (getN e t na u).toNat % 32
       let mb := (getN e t nb u).toNat
       (m = 0 ∨ thrEvents e t u &&& m.toNat ≠ 0 → exec (.wev e t nd na) s = ends e t (.event 0 nd na 0) s (retire e t (reportEvents e t nd m u))) ∧
       (m ≠ 0 → thrEvents e t u &&& m.toNat = 0 → exec (.wev e t nd na) s = ends e t (.event 0 nd na 0) s (waitOn e t (.event nd m) u)) ∧
       exec (.pscan e t nd na) s = ends e t (.event 1 nd na 0) s (retire e t (setN e t nd (BitVec.ofNat 32 (u.ic.bits[e.1].toNat / 2 ^ (32 * k) % 2 ^ 32)) u)) ∧
       (let old := u.ic.bits[e.1].toNat / 2 ^ (32 * k) % 2 ^ 32 &&& mb
       exec (.pclr e t nd na nb) s = ends e t (.event 2 nd na nb) s (retire e t (setN e t nd (BitVec.ofNat 32 old) (((List.range 32).filter fun j => old / 2 ^ j % 2 == 1).foldl
         (fun s j => clearReq (32 * k + j) s) (updIc (fun c => { c with bits := upd c.bits e fun b => b &&& ~~~(BitVec.ofNat 1024 (mb * 2 ^ (32 * k))) }) u))))) ∧
       (∀ n : Fin 9, (thr e t (issued e t s)).posted.length ≤ n.1 → exec (.fence e t n) s = ends e t (.sys 4 0 0) s (retire e t (postedDone e t n.1 (issued e t s)))) ∧
       (∀ n : Fin 9, n.1 < (thr e t (issued e t s)).posted.length → exec (.fence e t n) s = ends e t (.sys 4 0 0) s (waitOn e t .fence (postedDone e t n.1 (issued e t s))))) ∧
  (∀ (e : Fin 24) (t : Fin 4) (nd na : Fin 32) (s : State), Issues e t s →
       let u := issued e t s
       let a := (getN e t na u).toNat
       let d := mrdBytes (dataRam e a) 64 u
       let p := vtParts (vt16 u)
       (nd.1 ≤ 28 → exec (.tnow e t nd) s = ends e t (.time 0 nd 0 0 false) s (retire e t (setRun e t nd [p.2.1, p.1 % 2 ^ 32, p.1 / 2 ^ 32 + p.2.2 * 65536, epoch u % 65536] u))) ∧
       (na.1 ≤ 29 → runVt e t na u = none → Does (.tat e t nd na) s (Retired e t nd (BitVec.ofNat 32 Status.failedRefused.code) (thrPc e t s + 1) s)) ∧
       (na.1 ≤ 29 → ∀ v, runVt e t na u = some v →
         exec (.tat e t nd na) s = ends e t (.time 1 nd na 0 false) s (retire e t (setN e t nd 0 (alarmCheck (thrIdx e t) (updThr e t (fun x => { x with alarm := some v, evAlarm := false }) u))))) ∧
       (a % 64 = 0 → a + 64 ≤ 0x10000 → jobInvalid d = false → islOpen islHC u = true → ∀ g : Nat, 1 ≤ g → g ≤ 8 → g ∉ engTags e u → (∀ h, 1 ≤ h → h < g → h ∈ engTags e u) →
         exec (.cq e t nd ⟨na, .ok⟩) s = ends e t (.crypto 0 nd na) s (retireWait e t (setN e t nd (BitVec.ofNat 32 g) (cryEnqueue (.engine e t g) (initIdent (.thread e t) u) (dataRam e a) d u)))) ∧
       (a % 64 = 0 → a + 64 ≤ 0x10000 → jobInvalid d = false → islOpen islHC u = true → (∀ g, 1 ≤ g → g ≤ 8 → g ∈ engTags e u) →
         Does (.cq e t nd ⟨na, .ok⟩) s (Retired e t nd 0 (thrPc e t s + 1) s)) ∧
       (∀ st, jobDone e t a u = some st → exec (.cqwait e t nd na) s = ends e t (.crypto 1 nd na) s (retire e t (setN e t nd (BitVec.ofNat 32 st.code)
         (updKey (fun k => { k with coll := k.coll.filter fun c => !(c.1 == (e, t, a)) }) u)))) ∧
       (jobDone e t a u = none → jobRuns e t a u = true → exec (.cqwait e t nd na) s = ends e t (.crypto 1 nd na) s (waitOn e t (.crypto nd a) u)) ∧
       exec (.yield e t) s = ends e t (.sys 0 0 0) s (retire e t (updThr e t (fun x => { x with passed := (List.range 4).filter fun k => k != t.1 && thrState e (Fin.ofNat 4 k) u == thReady }) u)) ∧
       ((thr e t u).holds = [] → hasJobs e t u = false → Does (.halt e t) s fun v => thrState e t v = thHalted ∧ thrPc e t v = (thrPc e t s + 1) % 16384 ∧
         (∀ j : Fin 96, v.eng[j.1].n = s.eng[j.1].n) ∧ SameMem s v) ∧
       ((thr e t u).holds ≠ [] ∨ hasJobs e t u = true → exec (.halt e t) s = ends e t (.sys 1 0 0) s (trap e t (nyEncode (.sys 1 0 0)) trHaltHeld 0 u)) ∧
       exec (.trap e t na) s = ends e t (.sys 2 0 na) s (trap e t (nyEncode (.sys 2 0 na)) trTrap a u) ∧
       Does (.budget e t nd) s (Retired e t nd (BitVec.ofNat 32 (fget (F.ENG_THR_BUDGET_t_CYCLES e.1 t.1) s - min 0xFFFFF (fget (F.ENG_THR_USED_t_COUNT e.1 t.1) s + 1)))
         (thrPc e t s + 1) s))

/-- R157, R192, R193, R194, R202, R203: the packet instructions. `y` is the state in which PKSEND and TSEND hand a packet on, `fin` what they leave: the status in nd, the handle free. -/
def Obligations.PacketInstructions : Prop :=
  ∀ (e : Fin 24) (t : Fin 4) (nd na nb : Fin 32) (s : State), Issues e t s →
    let u := issued e t s
    let h := (getN e t na u).toNat % 256
    let y := if (thr e t u).selected = some h then windowBack e t u else u
    let new := (getN e t nb u).toNat % 16384
    let fin (i : NyInsn) (x : Hold) (r : Status × State) := ends e t i s (retireWait e t (setN e t nd (BitVec.ofNat 32 r.1.code) (sentHold e t x.handle r.2)))
    (∀ (c : Fin 8) x p, getN e t na u ≠ 0 → heldPacket e t na u = some (x, p) →
      let r := setN e t nd (BitVec.ofNat 32 x.handle) (windowSelect e t x.handle u)
      exec (.pkhold e t nd na nb c) s = ends e t (.packet 0 nd na nb c) s (if (thr e t u).selected = some x.handle then retire e t r else retireWait e t r)) ∧
    (∀ (c : Fin 8) k p x, getN e t na u = 0 → freeHandle e t u = some k → heldPackets e t u < 4 → allocPacket c.1 (getN e t nb u).toNat u = some (p, x) →
      exec (.pkhold e t nd na nb c) s = ends e t (.packet 0 nd na nb c) s (retireWait e t (setN e t nd (BitVec.ofNat 32 k)
        (windowSelect e t k (addHold e t ⟨k, 0x208, 0, 0, some p, (getN e t nb u).toNat, none⟩ x))))) ∧
    (∀ (c : Fin 8) k, getN e t na u = 0 → freeHandle e t u = some k → heldPackets e t u < 4 → allocPacket c.1 (getN e t nb u).toNat u = none →
      Does (.pkhold e t nd na nb c) s (Retired e t nd 0 (thrPc e t s + 1) s)) ∧
    (∀ (c : Fin 8), getN e t na u = 0 → freeHandle e t u = none ∨ 4 ≤ heldPackets e t u →
      exec (.pkhold e t nd na nb c) s = ends e t (.packet 0 nd na nb c) s (trap e t (nyEncode (.packet 0 nd na nb c)) trHoldFull 0 u)) ∧
    (∀ x p, heldPacket e t na y = some (x, p) → x.ended = none → x.isLine = true →
      let n : Fin 4 := Fin.ofNat 4 (x.qid - 0x010)
      let len := ((y.cam[n.1].staged.find? fun l => l.id == x.ref).map fun l => min (max 1 Config.segMax) l.payload.length).getD 0
      exec (.pksend e t nd na nb) s = fin (.packet 1 nd na nb 0) x (if markFits p (98 + len) = true then (.done, lineSent n x.ref (p.bytes.take 98) p.mark y) else endItem x .failedRefused y)) ∧
    (∀ x p, heldPacket e t na y = some (x, p) → x.ended = none → x.isLine = false → new = 0 ∨ (60 ≤ new ∧ new ≤ max 1518 x.len) →
      markFits p (if new = 0 then x.len else new) = true → exec (.pksend e t nd na nb) s = fin (.packet 1 nd na nb 0) x (portESend e t (packetOf p (if new = 0 then x.len else new)) y)) ∧
    (∀ x p, heldPacket e t na y = some (x, p) → x.ended = none → x.isLine = false → new ≠ 0 → new < 60 ∨ max 1518 x.len < new →
      exec (.pksend e t nd na nb) s = fin (.packet 1 nd na nb 0) x (endItem x .failedRefused y)) ∧
    (∀ x p v, nb.1 ≤ 29 → heldPacket e t na y = some (x, p) → x.ended = none → x.isLine = false → markFits p x.len = true → runVt e t nb u = some v →
      (v ≤ vt16 y → exec (.tsend e t nd na nb) s = fin (.time 2 nd na nb false) x (portESend e t (packetOf p x.len) y)) ∧
      (vt16 y < v → v ≤ vt16 y + secNs * 65536 →
        exec (.tsend e t nd na nb) s = fin (.time 2 nd na nb false) x (.done, updSw (fun w => { w with launches := w.launches ++ [⟨v, e, t, packetOf p x.len⟩] }) y)) ∧
      (vt16 y + secNs * 65536 < v → exec (.tsend e t nd na nb) s = fin (.time 2 nd na nb false) x (endItem x .failedRefused y))) ∧
    (heldPacket e t na y = none → exec (.pksend e t nd na nb) s = ends e t (.packet 1 nd na nb 0) s (trap e t (nyEncode (.packet 1 nd na nb 0)) trQueue 0 y)) ∧
    (∀ x p, heldPacket e t na u = some (x, p) → exec (.pkdrop e t nd na) s = ends e t (.packet 2 nd na 0 0) s (retireWait e t
      (setN e t nd (BitVec.ofNat 32 (endItem x .failedRefused (countDrop x u)).1.code) (dropHold e t x.handle (endItem x .failedRefused (countDrop x u)).2)))) ∧
    (∀ (form : Bool) k, (thr e t u).selected = some k → 14 ≤ (getN e t na u).toNat → (getN e t na u).toNat + (if form then 10 else 12) ≤ 256 →
      exec (.tstamp e t na form) s = ends e t (.time 3 0 na 0 form) s (retire e t (updHold e t k (fun x => { x with pkt := x.pkt.map fun p => { p with mark := some ((getN e t na u).toNat, form) } }) u))) ∧
    (∀ (form : Bool) k, (thr e t u).selected = some k → (getN e t na u).toNat < 14 →
      exec (.tstamp e t na form) s = ends e t (.time 3 0 na 0 form) s (trap e t (nyEncode (.time 3 0 na 0 form)) trWindow (getN e t na u).toNat u))

/-- R195: PKCOPY moves bytes between the selected packet and a local range, of data RAM or of the banks. -/
def Obligations.PacketCopies : Prop :=
  ∀ (e : Fin 24) (t : Fin 4) (nd na nb : Fin 32) (dir : Bool) (w : Win) (x : Hold) (s : State), Issues e t s →
    let u := issued e t s
    let a := (getN e t na u).toNat
    let n := (getN e t nb u).toNat / 65536
    let off := (getN e t nb u).toNat % 65536
    let i : NyInsn := .packet 3 nd na nb (if dir then 1 else 0)
    let word := nyEncode i
    ((thr e t u).selected.bind fun h => heldItem e t h u) = some x → copyWindow a (max 1 (min 2048 n)) = some w →
    (0 < n → n ≤ 2048 → off + n ≤ x.len → (∀ o, w = .data o → exec (.pkcopy e t nd na nb dir .ok) s =
      ends e t i s (retireWait e t (setN e t nd 0 (sealSettle (pkMove e t dir x.handle off n w u)))))) ∧
    (0 < n → n ≤ 2048 → off + n ≤ x.len → ∀ p, w = .bank p → (outerCheck e t (!dir) p n u).1 = none → exec (.pkcopy e t nd na nb dir .ok) s =
      ends e t i s (retireWait e t (setN e t nd 0 (sealSettle (pkMove e t dir x.handle off n w (outerCheck e t (!dir) p n u).2))))) ∧
    (∀ r, n = 0 ∨ 2048 < n ∨ x.len < off + n →
      Does (.pkcopy e t nd na nb dir r) s (Retired e t nd (BitVec.ofNat 32 Status.failedRefused.code) (thrPc e t s + 1) s)) ∧
    (∀ c p, 0 < n → n ≤ 2048 → off + n ≤ x.len → w = .bank p → (outerCheck e t (!dir) p n u).1 = some c → ∀ r,
      exec (.pkcopy e t nd na nb dir r) s = ends e t i s (trap e t word c a (outerCheck e t (!dir) p n u).2))

/-- R152, R154, R155, R156, R158, R159, R196: the queue instructions. -/
def Obligations.QueueInstructions : Prop :=
  ∀ (e : Fin 24) (t : Fin 4) (nd q na nb : Fin 32) (s : State), Issues e t s →
    let u := issued e t s
    let w (i : Nat) := (getN e t (runReg nd i) u).toNat
    nd.1 ≤ 28 → q.1 < 24 →
    (∀ qid h x, slotQid e t q.1 false u = some qid → freeHandle e t u = some h → slotHead e q.1 qid u = some x → x.item.pkt = none →
      exec (.qpop e t nd q) s = ends e t (.slot 0 nd q) s (retireWait e t (setDesc e t nd h x.item (addHold e t ⟨h, qid, x.ref, x.gen, none, x.item.len, none⟩ (qTake qid x u))))) ∧
    (∀ qid h x p, slotQid e t q.1 false u = some qid → freeHandle e t u = some h → slotHead e q.1 qid u = some x → x.item.pkt = some p → heldPackets e t u < 4 →
      exec (.qpop e t nd q) s = ends e t (.slot 0 nd q) s (retireWait e t (setDesc e t nd h x.item
        (windowSelect e t h (addHold e t ⟨h, qid, x.ref, x.gen, some p, itemLen qid x.item p, none⟩ (qTake qid x u)))))) ∧
    (∀ qid h, slotQid e t q.1 false u = some qid → freeHandle e t u = some h → slotHead e q.1 qid u = none →
      Does (.qpop e t nd q) s fun v => getN e t nd v = 0 ∧ thrPc e t v = (thrPc e t s + 1) % 16384 ∧ SameMem s v ∧ (thr e t v).holds = (thr e t u).holds) ∧
    (∀ qid, slotQid e t q.1 false u = some qid → freeHandle e t u = none → exec (.qpop e t nd q) s = ends e t (.slot 0 nd q) s (trap e t (nyEncode (.slot 0 nd q)) trHoldFull q.1 u)) ∧
    (slotQid e t q.1 false u = none → exec (.qpop e t nd q) s = ends e t (.slot 0 nd q) s (trap e t (nyEncode (.slot 0 nd q)) trQueue q.1 u) ∧
      exec (.qpeek e t nd q) s = ends e t (.slot 2 nd q) s (trap e t (nyEncode (.slot 2 nd q)) trQueue q.1 u)) ∧
    (∀ qid x, slotQid e t q.1 false u = some qid → slotHead e q.1 qid u = some x → exec (.qpeek e t nd q) s = ends e t (.slot 2 nd q) s (retireWait e t (setDesc e t nd 0 x.item u))) ∧
    (∀ qid, slotQid e t q.1 true u = some qid → ftst (F.ENG_QSLOT_q_GONE e.1 q.1) u = false →
      exec (.qpush e t nd q .ok) s = ends e t (.slot 1 nd q) s (retireWait e t (setN e t nd (BitVec.ofNat 32 (qPush e t qid (w 0) (w 1) (w 2) (w 3) u).1.code) (qPush e t qid (w 0) (w 1) (w 2) (w 3) u).2))) ∧
    (∀ qid r, slotQid e t q.1 true u = some qid → ftst (F.ENG_QSLOT_q_GONE e.1 q.1) u = true →
      Does (.qpush e t nd q r) s (Retired e t nd (BitVec.ofNat 32 Status.failedRefused.code) (thrPc e t s + 1) s)) ∧
    (∀ x, heldItem e t ((getN e t na u).toNat % 256) u = some x → x.pkt = none →
      let r := endItem x (ackStatus (getN e t nb u).toNat) u
      exec (.qack e t nd na nb) s = ends e t (.qack nd na nb) s (retireWait e t (setN e t nd (BitVec.ofNat 32 r.1.code) (dropHold e t x.handle r.2)))) ∧
    (heldItem e t ((getN e t na u).toNat % 256) u = none → exec (.qack e t nd na nb) s = ends e t (.qack nd na nb) s (trap e t (nyEncode (.qack nd na nb)) trQueue 0 u))

/-- R143, R146, R197, R198, R199, R299, R307, R311: an instruction of the table unit ends with its results, waits for the table, or traps, as the lookup that it starts; what the
lookups give. -/
def Obligations.TableInstructionsAndLookups : Prop :=
  (∀ (e : Fin 24) (t : Fin 4) (nd na nb : Fin 32) (r : BusEnd) (s : State), Issues e t s → nd.1 ≤ 28 →
       let u := issued e t s
       let id := (getN e t na u).toNat
       let b := (getN e t nb u).toNat
       let runs (c : Instr) (i : NyInsn) (r : BusEnd) (op : LookOp) : Prop :=
         let x := (lookStep e t r 0 op u).2
         match (lookStep e t r 0 op u).1 with
         | .got () _ => exec c s = ends e t i s (retireWait e t x)
         | .wait n => exec c s = ends e t i s (waitOn e t (.lookup op n (thrPc e t x) (nyEncode i)) x)
         | .trap k a => exec c s = ends e t i s (trap e t (nyEncode i) k a x)
       runs (.lkp e t nd na) (.table 0 nd na 0) .ok (.lkp nd id) ∧
       runs (.lkpw e t nd na) (.table 1 nd na 0) .ok (.lkpw nd id ((getRun e t nd 4 u).flatMap (leBytes 4))) ∧
       runs (.lkps e t nd na nb) (.table 2 nd na nb) .ok (.lkps nd id b) ∧
       runs (.sigrd e t nd na nb r) (.signal 0 nd na nb) r (.sigrd nd id b) ∧
       runs (.sigwr e t nd na nb r) (.signal 1 nd na nb) r (.sigwr nd id b (getN e t nd u))) ∧
  (∀ (e : Fin 24) (t : Fin 4) (nd : Fin 32) (id b n : Nat) (v : Word) (r : BusEnd) (s : State), islOpen islMEM s = true →
       (ftst F.SIG_CTRL_EN s = false →
         lookStep e t r n (.lkp nd id) s = (.got () 0, setRun e t nd [0, 0, 0, 0] s) ∧
         lookStep e t r n (.lkps nd id b) s = (.got () 0, setRun e t nd [0xFFFFFFFF, 0] s) ∧
         lookStep e t r n (.sigrd nd id b) s = (.got () 0, setRun e t nd [0, 1] s) ∧
         lookStep e t r n (.sigwr nd id b v) s = (.got () 0, setN e t nd 1 (bump R.SIG_UPDATES s)) ∧
         ∀ d, lookStep e t r n (.lkpw nd id d) s = (.got () 0, setN e t nd (BitVec.ofNat 32 Status.failedRefused.code) s)) ∧
       (ftst F.SIG_CTRL_EN s = true → ftst F.SIG_STATUS_READY s = false → id < catLimit s →
         lookStep e t r n (.lkp nd id) s = (.wait n, s) ∧ lookStep e t r n (.lkps nd id b) s = (.wait n, s) ∧ lookStep e t r n (.sigrd nd id b) s = (.wait n, s)) ∧
       (ftst F.SIG_CTRL_EN s = true → ftst F.SIG_STATUS_READY s = true → id < catLimit s →
         (∀ d k, (tabLine e t false (id / 4) n 0 s).1 = .got d k → lookStep e t r n (.lkp nd id) s = (.got () 0,
           setRun e t nd ((List.range 4).map fun i => leNat ((d.drop (16 * (id % 4) + 4 * i)).take 4)) (tabLine e t false (id / 4) n 0 s).2)) ∧
         (∀ d, let o := outerCheck e t true (lineAddr false 0 s + 16 * id) 16 s
           o.1 = none → lookStep e t r n (.lkpw nd id d) s = (.got () 0, setN e t nd 0 (defWrite id d (bump R.SIG_LOOKUPS o.2))))))

/-! ### The switch (chapter 06) -/

/-- R226, R244, R245, R252, R254: the register commands of the switch. -/
def Obligations.SwitchRegisterCommands : Prop :=
  (∀ (w : Initiator) (p : Fin 23) (s : State), Lets w (R.SW_GATE_CTRL_p p.1) true s → let u := entered w (R.SW_GATE_CTRL_p p.1) s;
    let len := fget (F.SW_GATE_CTRL_p_ADMIN_LEN p.1) u
    let cycle := fget (F.SW_ADMIN_CYCLE_NS_p p.1) u
    let ns := fget (F.SW_ADMIN_BASE_NS_p p.1) u
    let base := (fget (F.SW_ADMIN_BASE_SEC_LO_p p.1) u + 2 ^ 32 * fget (F.SW_ADMIN_BASE_SEC_HI_p p.1) u) * 1000000000 + ns
    (len = 0 ∨ cycle < 1000 ∨ 1000000000 < cycle ∨ 1000000000 ≤ ns → exec (.gateChangeArm w p) s = .next (raise F.SW_EVENT 6 (ok u))) ∧
    (0 < len → 1000 ≤ cycle → cycle ≤ 1000000000 → ns < 1000000000 → Does (.gateChangeArm w p) s fun t => fget (F.SW_GATE_CTRL_p_PENDING p.1) t = 1 ∧
      (∀ q : Fin 23, q ≠ p → t.sw.gateArm[q.1] = u.sw.gateArm[q.1]) ∧ SameMem u t ∧
      ∃ a, t.sw.gateArm[p.1] = some a ∧ a.base = base ∧ a.cycle = cycle ∧ a.len = min len 256 ∧ (∃ k, a.at_ = base + k * cycle) ∧ vt16 u + 10000 * 65536 ≤ a.at_ * 65536 ∧
        ∀ k, base + k * cycle < a.at_ → (base + k * cycle) * 65536 < vt16 u + 10000 * 65536)) ∧
  (∀ (w : Initiator) (h : Fin 2) (r : Fin 16) (v : BitVec 13) (s : State), Lets w (R.SW_RING_TAIL_h_r h.1 r.1) true s → let u := entered w (R.SW_RING_TAIL_h_r h.1 r.1) s;
    exec (.hostRingTail w h r v) s = .next (fput (F.SW_RING_TAIL_h_r h.1 r.1) v.toNat (ok u))) ∧
  (∀ (w : Initiator) (t : Fin 16) (s : State), Lets w R.SW_TBL_CMD true s → let u := entered w R.SW_TBL_CMD s; fget F.SW_TBL_INDEX u < tblSize t.1 →
    Does (.tblRead w t) s fun v => (∀ k : Fin 4, rd (R.SW_TBL_DATA_k k.1) v = BitVec.ofNat 32 ((tblShow t.1 (fget F.SW_TBL_INDEX u) u).toNat / 2 ^ (32 * k.1))) ∧
      v.sw = u.sw ∧ v.mem = u.mem) ∧
  (∀ (w : Initiator) (t : Fin 16) (s : State), Lets w R.SW_TBL_CMD true s → let u := entered w R.SW_TBL_CMD s; tblSize t.1 ≤ fget F.SW_TBL_INDEX u →
    (Does (.tblRead w t) s fun v => v.resp = ⟨.failedRefused, 0⟩ ∧ v.sw = u.sw) ∧ Does (.tblWrite w t) s fun v => v.resp = ⟨.failedRefused, 0⟩ ∧ v.sw = (sgateCommit u).sw) ∧
  (∀ (w : Initiator) (t : Fin 16) (s : State), Lets w R.SW_TBL_CMD true s → let u := entered w R.SW_TBL_CMD s;
    let i := fget F.SW_TBL_INDEX u
    let d := BitVec.ofNat 128 (((List.range 4).map fun k => (rd (R.SW_TBL_DATA_k k) u).toNat * 2 ^ (32 * k)).sum)
    let x := fput F.SW_TBL_CMD_OP 1 (fput F.SW_TBL_CMD_TABLE t.1 (sgateCommit (ok u)))
    let v := tblMerge t.1 (tblGet t.1 i x) d
    (i < tblSize t.1 → t.1 ≠ tblSgate → t.1 ≠ tblSgateEntry → ¬(t.1 = tblGcl ∧ gclBusy i u = true) →
      exec (.tblWrite w t) s = .next (whenB (t.1 == tblAddr) (addrRefresh i) (tblPut t.1 i v x))) ∧
    (i < tblSize t.1 → t.1 = tblSgate → 1000000000 ≤ eb v 0 31 0 ∨ eb v 2 31 31 = 1 ∧ (eb v 3 31 0 < 1000 ∨ 1000000000 < eb v 3 31 0) →
      exec (.tblWrite w t) s = .next (raise F.SW_EVENT 6 x)) ∧
    (i < tblSize t.1 → (t.1 = tblSgate ∧ eb v 0 31 0 < 1000000000 ∧ 1000 ≤ eb v 3 31 0 ∧ eb v 3 31 0 ≤ 1000000000) ∨ t.1 = tblSgateEntry →
      (sgateRuns (sgateOf t.1 i) x = false → exec (.tblWrite w t) s = .next (tblPut t.1 i v x)) ∧
      (sgateRuns (sgateOf t.1 i) x = true → exec (.tblWrite w t) s = .next (updSw (fun y => { y with
        sgPend := y.sgPend.filter (fun p => p.1 != tblKey t.1 i) ++ [(tblKey t.1 i, sgateNext (sgateOf t.1 i) x, v)] }) x)))) ∧
  (∀ (w : Initiator) (s : State), Lets w R.SW_TBL_CMD true s → let u := entered w R.SW_TBL_CMD s; fget F.SW_TBL_INDEX u < tblSize tblGcl → gclBusy (fget F.SW_TBL_INDEX u) u = true →
    Does (.tblWrite w 9) s fun v => v.resp = ⟨.failedRefused, 0⟩ ∧ v.sw = (sgateCommit u).sw) ∧
  (∀ (w : Initiator) (s : State), Lets w R.SW_CTRL true s → let u := entered w R.SW_CTRL s; exec (.flushDyn w) s = .next (flushDyn (ok u))) ∧
  (∀ (w : Initiator) (p : Fin 18) (s : State), Lets w (R.SW_TC10_p p.1) true s → let u := entered w (R.SW_TC10_p p.1) s; 6 ≤ p.1 →
    (fget (F.SW_TC10_p_STATE p.1) u = 0 →
      exec (.sleepReq w p) s = .next (fput (F.SW_TC10_p_STATE p.1) 1 (updSw (fun x => { x with tc10Due := upd x.tc10Due p fun _ => u.now + 10000000 }) (ok u)))) ∧
    (fget (F.SW_TC10_p_STATE p.1) u = 2 → exec (.wakeReq w p) s = .next (fput (F.SW_TC10_p_STATE p.1) 3 (ok u))) ∧
    (fget (F.SW_TC10_p_STATE p.1) u ≠ 0 → exec (.sleepReq w p) s = .next (ok u)) ∧ (fget (F.SW_TC10_p_STATE p.1) u ≠ 2 → exec (.wakeReq w p) s = .next (ok u))) ∧
  (∀ (w : Initiator) (s : State), Lets w R.SW_CNT_CLR true s → let u := entered w R.SW_CNT_CLR s; Does (.swCntClr w) s fun t => t.resp = ⟨.done, 0⟩ ∧ (∀ a ∈ swCounters, rd a t = 0) ∧ SameRegsBut swCounters u t)

/-- R210, R211, R215, R216, R217, R222, R236, R238, R239, R240, R251: frames that come in, that leave and that wait too long. -/
def Obligations.SwitchFrames : Prop :=
  (∀ (p : Fin 18) (b : List Byte) (good : Bool) (s : State), ftst (F.SW_PORT_CFG_p_EN p.1) s = true → ftst F.SW_CTRL_EN s = true → islOpen islSWP s = true → portShut p.1 s = false →
    (1522 < b.length + 4 → exec (.frameReceive p b good) s = .next (bump (R.SW_OVERSIZE_p p.1) s)) ∧
    (b.length + 4 < 64 → exec (.frameReceive p b good) s = .next (bump (R.SW_FCS_ERR_p p.1) s)) ∧
    (64 ≤ b.length + 4 → b.length + 4 ≤ 1522 → beNat (b.take 6) = 0x0180C200000E → beNat ((b.drop 12).take 2) = 0x88F7 →
      let r := ptpIngress p.1 (pcpClass p.1 (framePcp p.1 b s) s) b s
      exec (.frameReceive p b false) s = .next (bump (R.SW_FCS_ERR_p p.1) s) ∧
      (r.1 = none → exec (.frameReceive p b true) s = .next r.2) ∧
      (r.1 ≠ none → exec (.frameReceive p b true) s = .next (ptpDeliver p.1 b (ingressStamp p.1 s) (rawCount s) r.2))) ∧
    (64 ≤ b.length + 4 → b.length + 4 ≤ 1522 → beNat (b.take 6) ≠ 0x0180C200000E ∨ beNat ((b.drop 12).take 2) ≠ 0x88F7 →
      let v := wispFromBackbone p.1 b s
      let t := ingressFrame ⟨p.1, none, .none, none, none, true⟩ b v
      (cutThrough p.1 v.sw.nextId v t = none → exec (.frameReceive p b true) s = .next t) ∧
      ∀ q c, cutThrough p.1 v.sw.nextId v t = some (q, c) → exec (.frameReceive p b true) s = .next (startTx q c false t)) ∧
    (64 ≤ b.length + 4 → b.length + 4 ≤ 1522 → beNat (b.take 6) ≠ 0x0180C200000E ∨ beNat ((b.drop 12).take 2) ≠ 0x88F7 →
      let t := ingressFrame ⟨p.1, none, .none, none, none, false⟩ b s
      (cutThrough p.1 s.sw.nextId s t = none → exec (.frameReceive p b false) s = .next (bump (R.SW_FCS_ERR_p p.1) s)) ∧
      ∀ q c, cutThrough p.1 s.sw.nextId s t = some (q, c) → exec (.frameReceive p b false) s = .next (bump (R.SW_FCS_ERR_p p.1) (startTx q c true t)))) ∧
  (∀ (p : Fin 18) (t : SwTx) (s : State), s.sw.tx[p.1] = some t → t.ends ≤ s.now →
    let v := bump (if t.stomped then R.SW_FCS_STOMP_p p.1 else R.SW_TX_p_c p.1 t.cls)
      (updSw (fun w => { w with tx := upd w.tx p fun _ => none, lastEnd := upd w.lastEnd p fun _ => (settlePort p.1 s).now }) (settlePort p.1 s))
    let x := match frameOf t.id v with
      | some f => if f.ingress = portT ∧ isPtp f.bytes = true ∧ ptpEvent f.bytes = true then ptpSent p.1 t.bytes t.stamp t.raw v else v
      | none => v
    exec (.frameTxComplete p) s = .next (copyOut t.id t.half .done t.stamp false x)) ∧
  (∀ (p : Fin 23) (q : Fin 18) (s : State), p.1 = q.1 →
    let v := settlePort p.1 (launchDue s)
    (portCanSend p.1 v = false → exec (.transmissionSelection p) s = .next v) ∧
    (portCanSend p.1 v = true → v.sw.tx[q.1] = none → exec (.transmissionSelection p) s = .next (selectFree q v)) ∧
    ∀ t, portCanSend p.1 v = true → v.sw.tx[q.1] = some t →
      let wanted := preemptable p.1 t.cls v = true ∧ v.sw.preempted[q.1] = none ∧
        (gateUp p.1 t.cls v = false ∨ gateHold p.1 v = true ∨ readyClass p.1 (fun c => !preemptable p.1 c v) v ≠ none)
      (¬wanted ∨ cutPoint q t v = none → exec (.transmissionSelection p) s = .next (selectFree q (finishTx q v))) ∧
      ∀ n, wanted → cutPoint q t v = some n →
        exec (.transmissionSelection p) s = .next (selectNext q (preempt q t (settlePort p.1 (elapseTo n v))))) ∧
  (∀ (q : Fin 18) (t : SwTx) (n : Nat) (s : State), cutPoint q t s = some n →
    s.now ≤ n ∧ t.frag + frameTime q.1 (64 + 64 * fget (F.SW_PREEMPT_p_ADD_FRAG q.1) s) ≤ n ∧ n + frameTime q.1 64 ≤ t.ends) ∧
  (∀ (q : Fin 18) (s : State),
    (q.1 < 14 ∨ ftst (F.SW_PLCA_p_EN q.1) s = false → plcaDue q s = some s.now) ∧
    (14 ≤ q.1 → ftst (F.SW_PLCA_p_EN q.1) s = true → 32 ≤ fget (F.SW_PLCA_p_NODE_ID q.1) s → selectFree q s = s) ∧
    ∀ n, plcaDue q s = some n → selectFree q s = if portWaits q.1 s = true then selectNext q (settlePort q.1 (elapseTo n s)) else selectNext q s) ∧
  (∀ (p : Fin 23) (s : State), 18 ≤ p.1 → p.1 ≤ 20 →
    let v := settlePort p.1 (launchDue s)
    (portCanSend p.1 v = false ∨ readyClass p.1 (fun _ => true) v = none → exec (.transmissionSelection p) s = .next v) ∧
    ∀ c f k rest, portCanSend p.1 v = true → readyClass p.1 (fun _ => true) v = some c → queueOf p.1 c v = (f, k) :: rest →
      let x := updFrame f.id (fun f => { f with copies := f.copies.erase k, out := f.out + 1 }) v
      let g := { f with bytes := wireBytes p.1 f x }
      let r := if p.1 = 20 then portEDeliver (Fin.ofNat 8 c) g k.half x else hostDeliver (Fin.ofNat 2 (p.1 - 18)) c g x
      let y := whenB (r.1 == .done) (fun z => payCredit p.1 c (g.bytes.length + 4) (bump (R.SW_TX_p_c p.1 c) z)) r.2
      exec (.transmissionSelection p) s = .next (copyOut f.id k.half r.1 (egressStamp p.1 y) (p.1 == 20 && r.1 == .done) y)) ∧
  (∀ (p : Fin 23) (s : State), 20 < p.1 → exec (.transmissionSelection p) s = .next (launchDue s)) ∧
  (∀ (p : Fin 18) (c : Nat) (s : State), s.sw.preempted[p.1] = none → readyClass p.1 (fun _ => true) s = some c → selectNext p s = startTx p c false s) ∧
  (∀ (p : Nat) (f : Nat → Bool) (c : Nat) (s : State), readyClass p f s = some c → c < 8 ∧ f c = true ∧ classReady p c s = true ∧ ∀ d, c < d → d < 8 → f d = true → classReady p d s = false) ∧
  (∀ (p : Fin 23) (c : Fin 8) (f : SwFrame) (k : SwCopy) (rest : List (SwFrame × SwCopy)) (s : State), queueOf p.1 c.1 s = (f, k) :: rest → k.since + maxRes s ≤ s.now →
    exec (.frameAged p c) s = .next (copyFail f.id k .failedTimeout (bump (R.SW_AGED_p_c p.1 c.1) (settlePort p.1 s)))) ∧
  (∀ (h : Fin 2) (r : Fin 8) (s : State), let n := ringSize h r.1 s
    let d := s.sw.ringNext.toList.getD (8 * h.1 + r.1) 0
    (n = 0 ∨ d = fget (F.SW_RING_TAIL_h_r h.1 r.1) s ∨ islOpen islSWP s = false → exec (.hostTxDescriptor h r) s = .next s) ∧
    (n ≠ 0 → d ≠ fget (F.SW_RING_TAIL_h_r h.1 r.1) s → islOpen islSWP s = true →
      let fetch := dmaRead hostIdent (ringBase h r.1 s + 32 * d) 32 s
      ∀ desc, fetch.1 = some desc → leNat ((desc.drop 10).take 1) / 2 % 2 = 1 →
        let len := leNat ((desc.drop 8).take 2)
        let k : Fin 16 := Fin.ofNat 16 (8 * h.1 + r.1)
        let sub := Submitter.host h (4096 * r.1 + d) false (leNat ((desc.drop 10).take 1) % 2 == 1)
        let u := updSw (fun w => { w with ringNext := upd w.ringNext k fun _ => (d + 1) % n }) fetch.2
        let data := dmaRead hostIdent (leNat (desc.take 5)) len u
        (len < 60 ∨ 1518 < len → exec (.hostTxDescriptor h r) s = .next (submitEnd sub .failedRefused (len + 4) 0 u)) ∧
        (60 ≤ len → len ≤ 1518 → data.1 = none → exec (.hostTxDescriptor h r) s = .next (submitEnd sub .failedBus (len + 4) 0 data.2)) ∧
        ∀ b, 60 ≤ len → len ≤ 1518 → data.1 = some b → exec (.hostTxDescriptor h r) s = .next (ingressFrame ⟨18 + h.1, some r.1, sub, none, none, true⟩ b data.2)))

/-- R213, R220, R224, R226, R229, R232, R233, R244, R245, R246: the events of gates, streams, pre-emption, addresses, planes and links. -/
def Obligations.SwitchEvents : Prop :=
  (∀ (p : Fin 23) (g : GateSeg) (gs : List GateSeg) (s : State), gateRuns p.1 s = true → gateRest p.1 s = g :: gs →
    exec (.gateEntry p) s = .next (settlePort p.1 (elapseVt ((vt16 s + g.len) * 2 ^ 32) (settlePort p.1 s)))) ∧
  (∀ (p : Fin 23) (a : GateArm) (s : State), s.sw.gateArm[p.1] = some a → a.at_ * 2 ^ 48 ≤ vt s →
    Does (.gateChange p) s fun t => t.sw.gateArm[p.1] = none ∧ t.sw.operLen[p.1] = a.len ∧ fget (F.SW_GATE_CTRL_p_PENDING p.1) t = 0 ∧
      fget (F.SW_GATE_CTRL_p_ACTIVE_BANK p.1) t = 1 - fget (F.SW_GATE_CTRL_p_ACTIVE_BANK p.1) s ∧ fget (F.SW_OPER_BASE_NS_p p.1) t = a.base % 1000000000 ∧
      fget (F.SW_OPER_CYCLE_NS_p p.1) t = a.cycle % 2 ^ 32 ∧ fbit F.SW_EVENT 5 t = true ∧ t.mem = s.mem) ∧
  (∀ (g : Fin 256) (s : State), sgateRuns g.1 s = false → exec (.streamGateEntry g) s = .next (sgateCommit s)) ∧
  (∀ (g : Fin 256) (e : GateSeg) (es : List GateSeg) (s : State), sgateRuns g.1 s = true → sgateRest g.1 s = e :: es →
    exec (.streamGateEntry g) s = .next (sgateCommit (elapseVt ((vt16 s + e.len) * 2 ^ 32) s))) ∧
  (∀ (f : Fin 128) (a b : Nat) (s : State), (frerGet f.1 s).last0 = some a → (frerGet f.1 s).last1 = some b → max a b + frerTimeout f.1 s ≤ s.now →
    let late := decide (frerTimeout f.1 s ≤ max a b - min a b) && eb (tblGet tblFrerRec f.1 s) 0 23 23 == 1
    exec (.frerResetTimeout f) s = .next (frerPut f.1 ⟨true, (frerGet f.1 s).seq, 0, none, none, none⟩ (whenB late (raise F.SW_EVENT 3) s))) ∧
  (∀ (p : Fin 6) (s : State), ftst (F.SW_PREEMPT_p_EN p.1) s = true → ftst (F.SW_PREEMPT_p_VERIFY_DIS p.1) s = false → ftst (F.SW_PORT_STATUS_p_LINK p.1) s = true →
    fget (F.SW_PORT_STATUS_p_PREEMPT_ACTIVE p.1) s = 0 →
    (3 ≤ s.sw.verify[p.1] → ∀ a, exec (.preemptVerify p a) s = .next s) ∧
    (s.sw.verify[p.1] < 3 → exec (.preemptVerify p true) s = .next (fput (F.SW_PORT_STATUS_p_PREEMPT_ACTIVE p.1) 1 s) ∧
      Does (.preemptVerify p false) s fun t => fget (F.SW_PORT_STATUS_p_PREEMPT_ACTIVE p.1) t = 0 ∧ t.sw.verify[p.1] = s.sw.verify[p.1] + 1 ∧
        s.sw.verifyAt[p.1] + fget (F.SW_PREEMPT_p_VERIFY_TIME p.1) s * 1000000 ≤ t.now ∧ t.sw.verifyAt[p.1] = t.now)) ∧
  (∀ (i : Fin 16384) (x : Nat × Nat) (s : State), fget F.SW_CTRL_AGE_S s ≠ 0 → eb (tblGet tblAddr i.1 s) 2 0 0 = 1 → eb (tblGet tblAddr i.1 s) 2 1 1 = 0 →
    s.sw.refreshed.find? (fun x => x.1 == i.1) = some x → x.2 + fget F.SW_CTRL_AGE_S s * 1000000000 ≤ s.now →
    Does (.addressAgeing i) s fun t => tblGet tblAddr i.1 t = 0 ∧ t.regs = s.regs ∧ t.mem = s.mem ∧ ∀ n, n ≠ tblKey tblAddr i.1 → sget (fun _ => 0) t.sw.tbl n = sget (fun _ => 0) s.sw.tbl n) ∧
  (∀ s : State, Does .planeReturn s fun t => t.sw = s.sw ∧ t.mem = s.mem ∧ ∀ p, 2 ≤ p → p ≤ 17 → portWaits p s = false →
    planeOk (ftst (F.SW_PORT_CFG_p_PLANE p) s) s = true → planeOf p t = ftst (F.SW_PORT_CFG_p_PLANE p) s) ∧
  (∀ (p : Fin 18) (s : State), fget (F.SW_TC10_p_STATE p.1) s = 1 →
    (portWaits p.1 s = false → exec (.tc10SleepComplete p) s = .next (fput (F.SW_TC10_p_STATE p.1) 2 s)) ∧
    (portWaits p.1 s = true → s.sw.tc10Due[p.1] ≤ s.now →
      exec (.tc10SleepComplete p) s = .next (fput (F.SW_TC10_p_STATE p.1) 2 (flushSlept p s)))) ∧
  (∀ (p : Fin 18) (s : State), fget (F.SW_TC10_p_STATE p.1) s ≠ 1 → p.1 < 6 → portSlept p s = true → portWaits p.1 s = true → s.sw.tc10Due[p.1] ≤ s.now →
    exec (.tc10SleepComplete p) s = .next (flushSlept p s)) ∧
  (∀ (p : Fin 18) (s : State), p.1 < 6 → exec (.wakeSeen p) s = .next (raise (F.SW_TC10_p_WAKE_SEEN p.1) 0 s)) ∧
  (∀ (p : Fin 18) (s : State), 6 ≤ p.1 → Does (.wakeSeen p) s fun t => fget (F.SW_TC10_p_WAKE_SEEN p.1) t = 1 ∧ t.sw = s.sw ∧
    fget (F.SW_TC10_p_STATE p.1) t = (if fget (F.SW_TC10_p_STATE p.1) s = 1 then 0 else if fget (F.SW_TC10_p_STATE p.1) s = 2 then 3 else fget (F.SW_TC10_p_STATE p.1) s)) ∧
  (∀ (p : Fin 18) (up : Bool) (s : State), ftst (F.SW_PORT_STATUS_p_LINK p.1) s ≠ up → Does (.linkChange p up) s fun t => ftst (F.SW_PORT_STATUS_p_LINK p.1) t = up ∧
    64 + p.1 ∈ t.pulses ∧ t.mem = s.mem ∧ (up = true → fget (F.SW_TC10_p_STATE p.1) s = 3 → fget (F.SW_TC10_p_STATE p.1) t = 0))

/-! ### CAN and LIN (chapter 07) -/

/-- R255, R257, R259, R261, R264, R265, R266, R267, R268, R284, R288: a received frame, and the reads and acknowledgements of what was received. -/
def Obligations.CanReceive : Prop :=
  (∀ (c : Fin 12) (fmt : CanFmt) (id af : Word) (d : List Byte) (esi : Bool) (ago : Nat) (s : State), canOn c s = true → canOff c s = false →
    (fmt = .fd → ftst (F.CAN_CTRL_FD_EN c.1) s = true) → (fmt = .xl → ftst (F.CAN_CTRL_XL_EN c.1) s = true) →
    let f : CanFrame := ⟨fmt, id.toNat, d, esi, if fmt = .xl then af.toNat else 0⟩
    let v := showErrState c (clearAlone c true (bump (R.CAN_RX_OK c.1) (fput (F.CAN_ERR_REC c.1) (fget (F.CAN_ERR_REC c.1) s - 1) s)))
    (canMode c s = 5 → exec (.canFrameReceive c fmt id d esi af ago) s = .next (checkWake c f s)) ∧
    (canMode c s = 3 → exec (.canFrameReceive c fmt id d esi af ago) s = .next s) ∧
    (canMode c s ≠ 5 → canMode c s ≠ 3 → fget (F.CAN_ERR_REC c.1) s ≤ 127 →
      exec (.canFrameReceive c fmt id d esi af ago) s =
        .next (wispFromCan c f (rxRoute c f (canStamp c ago s) (takeReference c f ago (if segState (canSeg c) v = 2 then checkWake c f v else v)))))) ∧
  (∀ (c : Fin 12) (f : CanFrame) (stamp : Nat) (s : State),
    (∀ b, canFilter c f s = some (2, b) → f.fmt ≠ .xl → rxRoute c f stamp s = rxBuffer c (Fin.ofNat 64 b) f stamp s) ∧
    (∀ b, canFilter c f s = some (1, b) → rxRoute c f stamp s = rxQueue c f stamp s) ∧
    (canFilter c f s = none → rxRoute c f stamp s = if ftst (F.CAN_CTRL_NOMATCH_Q c.1) s = true then rxQueue c f stamp s else s) ∧
    (ftst (F.CAN_RXPAY_EN c.1) s = false → rxQueue c f stamp s = bump (R.CAN_RX_DROP c.1) s) ∧
    ((∀ i, i ∈ rxUsed c s) → ftst (F.CAN_RXPAY_EN c.1) s = true → rxQueue c f stamp s = raise (F.CAN_EVENT c.1) 1 (bump (R.CAN_RX_DROP c.1) s))) ∧
  (∀ (w : Initiator) (c : Fin 12) (s : State), Lets w (R.CAN_RXQ_POP c.1) false s → let u := entered w (R.CAN_RXQ_POP c.1) s; qidBound (canRxQid c) u = false →
    (∀ i rest, (canSt c u).rxq = i :: rest → exec (.rxqPop w c) s = .next (answer .done i.1 (updCan c (fun x => { x with
      rxq := rest, popped := x.popped ++ [(i, u.now + clampNat 1 10000 (fget (F.CAN_LOCK_TO_US c.1) u) * 1000)], undo := undoFor w i }) u))) ∧
    ((canSt c u).rxq = [] → exec (.rxqPop w c) s = .next (answer .done 0xFFFFFFFF u))) ∧
  (∀ (w : Initiator) (c : Fin 12) (i : Fin 32) (s : State), Lets w (R.CAN_RXE_i_w c.1 i.1 7) false s → let u := entered w (R.CAN_RXE_i_w c.1 i.1 7) s;
    Does (.rxeWord7Read w c i) s fun t => t.resp = ⟨.done, rd (R.CAN_RXE_i_w c.1 i.1 7) u⟩ ∧ t.regs = u.regs ∧ t.mem = u.mem ∧
      (ftst (F.CAN_CTRL_CONSIST c.1) u = false → ∀ d, (i, d) ∉ (canSt c t).popped) ∧ (ftst (F.CAN_CTRL_CONSIST c.1) u = true → (canSt c t).popped = (canSt c u).popped)) ∧
  (∀ (w : Initiator) (c : Fin 12) (b : Fin 64) (s : State), Lets w (R.CAN_MB_ID_b c.1 b.1) false s → let u := entered w (R.CAN_MB_ID_b c.1 b.1) s;
    Does (.mbIdRead w c b) s fun t => t.resp = ⟨.done, rd (R.CAN_MB_ID_b c.1 b.1) u⟩ ∧ t.regs = u.regs ∧ t.mem = u.mem ∧
      (ftst (F.CAN_CTRL_CONSIST c.1) u = false → fget (F.CAN_MB_CTL_b_TYPE c.1 b.1) u = 1 → (∃ d, (b, d) ∈ (canSt c t).locks)) ∧
      (ftst (F.CAN_CTRL_CONSIST c.1) u = true → (canSt c t).locks = (canSt c u).locks)) ∧
  (∀ (w : Initiator) (c : Fin 12) (b : Fin 64) (s : State), Lets w (R.CAN_MB_STAT_b c.1 b.1) false s → let u := entered w (R.CAN_MB_STAT_b c.1 b.1) s;
    let v := answer .done (rd (R.CAN_MB_STAT_b c.1 b.1) u).toNat u
    (ftst (F.CAN_CTRL_CONSIST c.1) u = true ∨ bufferBusy c b u = false → exec (.mbStatRead w c b) s = .next v) ∧
    (ftst (F.CAN_CTRL_CONSIST c.1) u = false → bufferBusy c b u = true → exec (.mbStatRead w c b) s = .next (unlockBuffer c b (fput (F.CAN_MB_STAT_b_NEW c.1 b.1) 0 v)))) ∧
  (∀ (c : Fin 12) (b : Fin 64) (d : Nat) (s : State), ftst (F.CAN_CTRL_CONSIST c.1) s = false → (b, d) ∈ (canSt c s).locks →
    (∀ x ∈ (canSt c s).locks, x ≠ (b, d) → d < x.2) → (∀ x ∈ (canSt c s).popped, d ≤ x.2) → d ≤ s.now → exec (.lockExpired c) s = .next (raise (F.CAN_EVENT c.1) 8 (unlockBuffer c b s))) ∧
  (∀ (c : Fin 12) (i : Fin 32) (d : Nat) (s : State), ftst (F.CAN_CTRL_CONSIST c.1) s = false → (i, d) ∈ (canSt c s).popped →
    (∀ x ∈ (canSt c s).popped, x ≠ (i, d) → d < x.2) → (∀ x ∈ (canSt c s).locks, d < x.2) → d ≤ s.now → exec (.lockExpired c) s = .next (raise (F.CAN_EVENT c.1) 8 (rxFree c i s))) ∧
  (∀ (w : Initiator) (c : Fin 12) (b : Fin 64) (s : State), Lets w (R.CAN_MB_ACK c.1) true s → let u := entered w (R.CAN_MB_ACK c.1) s; ftst (F.CAN_CTRL_CONSIST c.1) u = true →
    (fget (F.CAN_MB_CTL_b_TYPE c.1 b.1) u = 1 → ftst (F.CAN_MB_STAT_b_NEW c.1 b.1) u = true →
      exec (.mbAck w c b) s = .next (applyShadow c b (fput (F.CAN_MB_STAT_b_NEW c.1 b.1) 0 (ok u)))) ∧
    (ftst (F.CAN_MB_STAT_b_NEW c.1 b.1) u = false → exec (.mbAck w c b) s = .next (bad (bump (R.CAN_ACK_ERR c.1) (ok u))))) ∧
  (∀ (w : Initiator) (c : Fin 12) (i : Fin 32) (s : State), Lets w (R.CAN_RXQ_ACK c.1) true s → let u := entered w (R.CAN_RXQ_ACK c.1) s; ftst (F.CAN_CTRL_CONSIST c.1) u = true → qidBound (canRxQid c) u = false →
    ((∃ d, (i, d) ∈ (canSt c u).popped) → exec (.rxqAck w c i) s = .next (rxFree c i (ok u))) ∧
    ((∀ d, (i, d) ∉ (canSt c u).popped) → exec (.rxqAck w c i) s = .next (bad (bump (R.CAN_ACK_ERR c.1) (ok u)))))

/-- R269, R270, R274, R276, R278, R279: items are accepted, cancelled, sent and timed out. -/
def Obligations.CanTransmit : Prop :=
  (∀ (w : Initiator) (c : Fin 12) (k : Fin 2) (m : Word) (s : State), Lets w (R.CAN_TXB_REQ_k c.1 k.1) true s → let u := entered w (R.CAN_TXB_REQ_k c.1 k.1) s;
    exec (.txbReq w c k m) s = .next (forFin 32 (fun j s => if m.getLsbD j.1 then requestBuffer c (Fin.ofNat 64 (32 * k.1 + j.1)) s else s) (ok u))) ∧
  (∀ (c : Fin 12) (b : Fin 64) (s : State), 2 ≤ fget (F.CAN_MB_CTL_b_TYPE c.1 b.1) s → bufPending c b.1 s = false → ftst (F.CAN_MB_STAT_b_SUSPENDED c.1 b.1) s = false →
    let i := canNew (.buffer b) s c
    let v := sluice (canSeg c) (canIdw c i s) s
    (ftst (F.CAN_MB_CTL_b_FD c.1 b.1) s = false → 8 < fget (F.CAN_MB_CTL_b_LEN c.1 b.1) s →
      requestBuffer c b s = fput (F.CAN_MB_STAT_b_LAST c.1 b.1) Status.failedRefused.code s) ∧
    (canAllowed c i s = false → ftst (F.CAN_MB_CTL_b_FD c.1 b.1) s = true ∨ fget (F.CAN_MB_CTL_b_LEN c.1 b.1) s ≤ 8 → requestBuffer c b s = refuseItem c i s) ∧
    (canAllowed c i s = true → v.1 = .refuse → requestBuffer c b s = refuseItem c i v.2) ∧
    (canAllowed c i s = true → v.1 ≠ .refuse → requestBuffer c b s = canAccept c (.buffer b) 0 false (v.1 == .hold) (showPending c b true v.2))) ∧
  (∀ (w : Initiator) (c : Fin 12) (i : Fin 32) (s : State), Lets w (R.CAN_TXQ_SUBMIT c.1) true s → let u := entered w (R.CAN_TXQ_SUBMIT c.1) s; qidBound (canTxQid c) u = false →
    let x := canNew (.host i) (ok u) c
    let w1 := (rd (R.CAN_TXE_i_w c.1 i.1 1) u).toNat
    (entryBusy c i u = true → exec (.txqSubmit w c i) s = .next (bad (bump (R.CAN_ACK_ERR c.1) (ok u)))) ∧
    let v := sluice (canSeg c) (canIdw c x (ok u)) (ok u)
    (entryBusy c i u = false → canAllowed c x (ok u) = true → v.1 ≠ .refuse →
      exec (.txqSubmit w c i) s = .next (canAccept c (.host i) (bits w1 30 24) (bits w1 31 31 == 1) (v.1 == .hold) v.2)) ∧
    (entryBusy c i u = false → canAllowed c x (ok u) = true → v.1 = .refuse → exec (.txqSubmit w c i) s = .next (refuseItem c x v.2)) ∧
    (entryBusy c i u = false → canAllowed c x (ok u) = false → exec (.txqSubmit w c i) s = .next (refuseItem c x (ok u)))) ∧
  (∀ (c : Fin 12) (x : CanItem) (s : State), refuseItem c x s = canFinish c x .failedRefused none (updCan c (fun y => { y with nextSeq := y.nextSeq + 1 }) s)) ∧
  (∀ (w : Initiator) (c : Fin 12) (k : Fin 2) (m : Word) (s : State), Lets w (R.CAN_TXB_CANCEL_k c.1 k.1) true s → let u := entered w (R.CAN_TXB_CANCEL_k c.1 k.1) s;
    exec (.txbCancel w c k m) s = .next (forFin 32 (fun j s => if m.getLsbD j.1 then cancelSrc c (.buffer (Fin.ofNat 64 (32 * k.1 + j.1))) s else s) (ok u))) ∧
  (∀ (w : Initiator) (c : Fin 12) (i : Fin 32) (s : State), Lets w (R.CAN_TXQ_CANCEL c.1) true s → let u := entered w (R.CAN_TXQ_CANCEL c.1) s; qidBound (canTxQid c) u = false →
    exec (.txqCancel w c i) s = .next (cancelSrc c (.host i) (ok u))) ∧
  (∀ (c : Fin 12) (src : CanSrc) (x : CanItem) (s : State), (canSt c s).items.find? (fun x => x.src == src) = some x →
    (sendingSrc c src s = false → cancelSrc c src s = canFinish c x .abortedCancel none s) ∧
    (sendingSrc c src s = true → cancelSrc c src s = raise (F.CAN_EVENT c.1) 3 (bump (R.CAN_CANCEL_LATE_CNT c.1)
      (updCan c (fun y => { y with cur := y.cur.map fun t => { t with cancel := true } }) s)))) ∧
  (∀ (c : Fin 12) (k : Nat) (s : State), canMaySend c s = true → (canSt c s).refDue = some k → exec (.canTxStart c) s = .next (startReference c k s)) ∧
  (∀ (c : Fin 12) (x : CanItem) (s : State), canMaySend c s = true → (canSt c s).refDue = none → canChoose c s = some x →
    exec (.canTxStart c) s = .next (startItem c x (match (canSt c s).window with | some w => w.type == 1 | none => false) s)) ∧
  (∀ (c : Fin 12) (s : State), canMaySend c s = false ∨ ((canSt c s).items = [] ∧ (canSt c s).refDue = none) → exec (.canTxStart c) s = .next s) ∧
  (∀ (c : Fin 12) (x : CanItem) (f : CanFrame) (ex : Bool) (s : State), (canFrameOf c x s).1 = some f →
    let v := (canFrameOf c x s).2
    (canSt c (startItem c x ex s)).cur = some ⟨some x, f, false, ex, canStamp c 0 v, v.now⟩ ∧ (canSt c (startItem c x ex s)).items = (canSt c v).items) ∧
  (∀ (c : Fin 12) (t : CanTry) (x y : CanItem) (s : State), (canSt c s).cur = some t → t.item = some x → (canSt c s).items.find? (fun y => y.seq == x.seq) = some y → ofNm y = false →
    let v := updCan c (fun y => { y with cur := none }) s
    let won := showErrState c (clearAlone c false (bump (R.CAN_TX_OK c.1) (fput (F.CAN_ERR_LEC c.1) 0 (fput (F.CAN_ERR_TEC c.1) (fget (F.CAN_ERR_TEC c.1) v - 1) v))))
    (canMode c s ≠ 3 → canMode c s ≠ 4 → ∀ acked,
      exec (.canTxAttemptEnd c ⟨.success, acked⟩) s = .next (applyUpdates c (canFinish c y .done (some t.stamp) won)) ∧
      exec (.canTxAttemptEnd c ⟨.lostArbitration, acked⟩) s = .next (applyUpdates c (attemptFailed c y t false false v)) ∧
      ∀ e, let x := countTxError c e (if (acked && e != .ack) = true then clearAlone c false v else v)
        (fget (F.CAN_ERR_TEC c.1) x ≤ 255 →
          exec (.canTxAttemptEnd c ⟨.error e, acked⟩) s = .next (applyUpdates c (showErrState c (attemptFailed c y t (e == .ack) false x)))) ∧
        (255 < fget (F.CAN_ERR_TEC c.1) x →
          exec (.canTxAttemptEnd c ⟨.error e, acked⟩) s = .next (applyUpdates c (enterBusOff c (attemptFailed c y t (e == .ack) true x))))) ∧
    (canMode c s = 3 ∨ canMode c s = 4 → ∀ acked,
      exec (.canTxAttemptEnd c ⟨.success, acked⟩) s = .next (applyUpdates c (canFinish c y .done (some t.stamp) (rxRoute c t.frame t.stamp (bump (R.CAN_RX_OK c.1) won)))))) ∧
  (∀ (c : Fin 12) (t : CanTry) (x y : CanItem) (n : Nat) (acked : Bool) (s : State), (canSt c s).cur = some t → t.item = some x →
    (canSt c s).items.find? (fun y => y.seq == x.seq) = some y → y.src = .wisp n → canMode c s ≠ 3 → canMode c s ≠ 4 →
    let v := updCan c (fun y => { y with cur := none }) s
    let won := showErrState c (clearAlone c false (bump (R.CAN_TX_OK c.1) (fput (F.CAN_ERR_LEC c.1) 0 (fput (F.CAN_ERR_TEC c.1) (fget (F.CAN_ERR_TEC c.1) v - 1) v))))
    exec (.canTxAttemptEnd c ⟨.success, acked⟩) s = .next (applyUpdates c (wispSent c n (canFinish c y .done (some t.stamp) won)))) ∧
  (∀ (c : Fin 12) (r : CanTxEnd) (s : State), (canSt c s).cur = none → exec (.canTxAttemptEnd c r) s = .next s) ∧
  (∀ (c : Fin 12) (x : CanItem) (d : Nat) (s : State), (canSt c s).items = [x] → x.deadline = some d → sendingSrc c x.src s = false → d ≤ s.now →
    exec (.canDeadline c) s = .next (canFinish c x .failedTimeout none s))

/-- R280, R281, R282, R284, R285, R286: errors of the bus, recovery, and the time-triggered schedule. -/
def Obligations.CanErrorsAndSchedule : Prop :=
  (∀ (c : Fin 12) (e : CanErr) (heavy : Bool) (s : State), canOn c s = true → canOff c s = false → canMode c s ≠ 5 → canMode c s ≠ 3 →
    Does (.canReceiveError c ⟨e, heavy⟩) s fun t => fget (F.CAN_ERR_REC c.1) t = min 255 (fget (F.CAN_ERR_REC c.1) s + if heavy then 8 else 1) ∧ fget (F.CAN_ERR_LEC c.1) t = lecCode e ∧
      fget (F.CAN_ERR_TEC c.1) t = fget (F.CAN_ERR_TEC c.1) s ∧ t.can = s.can ∧ t.mem = s.mem) ∧
  (∀ (c : Fin 12) (s : State), fget (F.CAN_ERR_STATE c.1) s = 3 → canOn c s = true →
    Does (.busOffRecovery c) s fun t => fget (F.CAN_ERR_TEC c.1) t = 0 ∧ fget (F.CAN_ERR_REC c.1) t = 0 ∧ fget (F.CAN_ERR_STATE c.1) t = 0 ∧ fbit (F.CAN_EVENT c.1) 4 t = true ∧
      t.can = s.can ∧ t.mem = s.mem) ∧
  (∀ (w : Initiator) (c : Fin 12) (s : State), Lets w (R.CAN_CMD c.1) true s → let u := entered w (R.CAN_CMD c.1) s;
    (fget (F.CAN_ERR_STATE c.1) u = 2 → exec (.recover w c) s = .next (raise (F.CAN_EVENT c.1) 4 (fput (F.CAN_ERR_STATE c.1) 3 (ok u)))) ∧
    (fget (F.CAN_ERR_STATE c.1) u ≠ 2 → exec (.recover w c) s = .next (ok u)) ∧
    Does (.aloneResume w c) s fun t => (∀ b : Fin 64, fget (F.CAN_MB_STAT_b_SUSPENDED c.1 b.1) t = 0) ∧ t.can = u.can ∧ t.mem = u.mem) ∧
  (∀ (c : Fin 12) (k : Fin 32) (at_ : Nat) (s : State), (canSt c s).cycleAt = some at_ → ftst (F.CAN_CTRL_TT_EN c.1) s = true → canOn c s = true →
    at_ + fget (F.CAN_TT_MARK_k c.1 k.1) s ≤ s.now →
    let v := closeWindow c s
    let y := fget (F.CAN_TT_STATUS_CYCLE c.1) v
    let type := fget (F.CAN_TT_CELL_y_k_TYPE c.1 y k.1) v
    let win : TtWindow := ⟨type, fget (F.CAN_TT_CELL_y_k_MB c.1 y k.1) v, v.now + canBitsNs (clampNat 1 16 (fget (F.CAN_TT_CFG_TXEN c.1) v)) c v, false⟩
    let x := updCan c (fun x => { x with window := some win }) v
    ∀ busy, (type ≠ 1 ∨ busy = true ∨ canMaySend c x = false ∨ canChoose c x = none → exec (.ttColumnMark c ⟨k, busy⟩) s = .next x) ∧
    (∀ i, type = 1 → busy = false → canMaySend c x = true → canChoose c x = some i → exec (.ttColumnMark c ⟨k, busy⟩) s = .next (startItem c i true x))) ∧
  (∀ (c : Fin 12) (busy : Bool) (s : State), ttMaster c s = true → canOn c s = true → ttLocked c s = false → (canSt c s).lastRef = none →
    let k := (canSt c s).refNext
    let v := updCan c (fun x => { x with refNext := k + 1 }) s
    (busy = true ∨ canMaySend c v = false → exec (.ttReferenceDue c busy) s = .next (updCan c (fun x => { x with refDue := some k }) v)) ∧
    (busy = false → canMaySend c v = true → exec (.ttReferenceDue c busy) s = .next (startReference c k v))) ∧
  (∀ (c : Fin 12) (busy : Bool) (s : State), ttMaster c s = true → canOn c s = true → ttLocked c s = true →
    let k := (canSt c s).refNext
    let v := updCan c (fun x => { x with refNext := k + 1 }) (elapseVt ((ttAnchor c s + k * ttCycleNs c s) * nsUnit) s)
    (busy = true ∨ canMaySend c v = false → Does (.ttReferenceDue c busy) s fun t => (canSt c t).refDue = some k ∧ fbit (F.CAN_EVENT c.1) 10 t = true) ∧
    (busy = false → canMaySend c v = true → exec (.ttReferenceDue c busy) s = .next (startReference c k v))) ∧
  (∀ (c : Fin 12) (t : Nat) (s : State), (canSt c s).lastRef = some t → ftst (F.CAN_CTRL_TT_EN c.1) s = true → ftst (F.CAN_TT_CFG_ROLE c.1) s = false →
    ftst (F.CAN_TT_STATUS_SYNC c.1) s = true → t + ttCycleNs c s * 3 / 2 ≤ s.now →
    Does (.ttReferenceTimeout c) s fun v => fget (F.CAN_TT_STATUS_SYNC c.1) v = 0 ∧ (canSt c v).cycleAt = none ∧ (canSt c v).window = none ∧ fbit (F.CAN_EVENT c.1) 9 v = true) ∧
  (∀ (w : Initiator) (c : Fin 12) (s : State), Lets w (R.CAN_CNT_CLR c.1) true s → let u := entered w (R.CAN_CNT_CLR c.1) s; exec (.canCntClr w c) s = .next (clearRegs (canCounters c.1) (ok u)))

/-- R290, R291, R292, R344: the LIN channels: a request starts, is answered, times out, fails; wake pulses are sent and seen. -/
def Obligations.LinChannels : Prop :=
  (∀ (l : Fin 6) (r : LinReq) (s : State), linOn l s = true → linState l s = 0 → (linSt l s).reqs.find? (fun r => !r.held) = some r → r.internal = true ∨ linFree l s ≠ 0 →
    Does (.linHeaderStart l) s fun t => (linSt l t).cur = some r ∧ (linSt l t).reqs = (linSt l s).reqs.erase r ∧ (linSt l t).resp = (linSt l s).resp ∧ (linSt l t).wire = linWire r ∧ t.mem = s.mem ∧
      linState l t = (if r.kind = 0x62 then 3 else 1) ∧
      (r.kind = 0x62 → (linSt l t).pulseEnd = s.now + clampNat 250 5000 (fget (F.LIN_WAKE_US l.1) s) * 1000) ∧
      (r.kind ≠ 0x62 → (linSt l t).headerEnd = s.now + (13 + fget (F.LIN_CFG_BREAK_EXT l.1) s + 1 + fget (F.LIN_CFG_DELIM l.1) s + 20) * linBitNs l s) ∧
      ∀ k : Fin 6, k ≠ l → t.lin[k.1] = s.lin[k.1]) ∧
  (∀ (l : Fin 6) (r : LinReq) (data : List Byte) (ck : Option Byte) (bit frame : Bool) (s : State), (linSt l s).cur = some r → (linSt l s).headerEnd ≤ s.now →
    let b := data ++ ck.toList
    let d := b.take r.len
    let sum := decide (r.len < b.length) && b.getD r.len 0 != linChecksum r.enhanced r.ident d
    (r.kind = 0x60 → exec (.linResponseEnd l data ck bit frame) s = .next (linFinish l (if bit then .failedBus else .done) r.len 0 0 bit.toNat 0 [] s)) ∧
    (r.kind = 0x61 → exec (.linResponseEnd l data ck bit frame) s = .next (linFinish l (if (sum || bit || frame) = true ∨ b.length ≤ r.len then .failedBus else .done)
      d.length 0 sum.toNat bit.toNat frame.toNat d s))) ∧
  (∀ (l : Fin 6) (r : LinReq) (st : Status) (n a b c d : Nat) (p : List Byte) (s : State), (linSt l s).cur = some r → r.internal = false →
    (linSt l (linFinish l st n a b c d p s)).cur = none ∧ (linSt l (linFinish l st n a b c d p s)).resp = (linSt l s).resp ++ [linItem r st n a b c d p] ∧
    linState l (linFinish l st n a b c d p s) = 0 ∧ fbit (F.LIN_EVENT l.1) 0 (linFinish l st n a b c d p s) = true) ∧
  (∀ (l : Fin 6) (r : LinReq) (s : State), (linSt l s).cur = some r → r.kind = 0x61 →
    (linSt l s).headerEnd + (10 + fget (F.LIN_CFG_TOL l.1) s) * (r.len + 1) * linBitNs l s ≤ s.now →
    exec (.linResponseTimeout l) s = .next (linFinish l .failedTimeout 0 1 0 0 0 [] s)) ∧
  (∀ (l : Fin 6) (s : State), linOn l s = true → exec (.busStuck l) s = .next (linFinish l .failedBus 0 0 0 0 0 [] (raise (F.LIN_EVENT l.1) 4 s))) ∧
  (∀ (l : Fin 6) (r : LinReq) (s : State), (linSt l s).cur = some r → r.kind = 0x62 → (linSt l s).pulseEnd ≤ s.now →
    (r.internal = false → exec (.linWakePulseEnd l) s = .next (linFinish l .done 0 0 0 0 0 [] s)) ∧
    (r.internal = true → exec (.linWakePulseEnd l) s = .next (updLin l (fun x => { x with release := some (s.now + 100000000) }) (linRest l s)))) ∧
  (∀ (l : Fin 6) (us : Nat) (s : State), linState l s = 0 → 150 ≤ us → us ≤ 5000 → linOn l s = true →
    exec (.wakeRx l us) s = .next (segWakeInput (linSeg l) wakeLin (raise (F.LIN_EVENT l.1) 3 s))) ∧
  (∀ (l : Fin 6) (us : Nat) (s : State), us < 150 → exec (.wakeRx l us) s = .next s) ∧
  (∀ (l : Fin 6) (at_ : Nat) (s : State), (linSt l s).release = some at_ → at_ ≤ s.now →
    exec (.sluiceLinRelease l) s = .next (updLin l (fun x => { x with release := none, reqs := x.reqs.map fun r => { r with held := false } }) s)) ∧
  (∀ (w : Initiator) (l : Fin 6) (s : State), Lets w (R.LIN_CNT_CLR l.1) true s → let u := entered w (R.LIN_CNT_CLR l.1) s; exec (.linCntClr w l) s = .next (clearRegs (linCounters l.1) (ok u)))

/-! ### Signals and the sealed log (chapter 08) -/

/-- R299, R303, R310, R311, R312, R313, R639: the catalogue comes into service and goes out of it, its cache is filled and emptied, and definitions are read and written by command. -/
def Obligations.CatalogueCommands : Prop :=
  (∀ (w : Initiator) (s : State), Lets w R.SIG_CTRL true s → let u := entered w R.SIG_CTRL s;
    (ftst F.SIG_CTRL_EN u = false → exec (.sigEnable w) s = .next (fput F.SIG_STATUS_READY 0 (fput F.SIG_CTRL_EN 1
      (updSig (fun g => { g with conv := [], cache := [], fills := [] }) (ok u))))) ∧
    (ftst F.SIG_CTRL_EN u = true → exec (.sigDisable w) s = .next (updSig (fun g => { g with conv := [], cache := [], fills := [] })
      (fput F.SIG_STATUS_CONV_ERR 0 (fput F.SIG_STATUS_READY 0 (fput F.SIG_CTRL_EN 0 (ok u)))))) ∧
    (ftst F.SIG_CTRL_EN u = true → exec (.sigEnable w) s = .next (ok u)) ∧ (ftst F.SIG_CTRL_EN u = false → exec (.sigDisable w) s = .next (ok u))) ∧
  (∀ (bc bp : List Nat) (s : State), ftst F.SIG_CTRL_EN s = true → ftst F.SIG_STATUS_READY s = false → islOpen islMEM s = true →
    let v := forN 2047 (fun i s => loadConv bc (i + 1) s) (updSig (fun g => { g with conv := [] }) s)
    exec (.ready bc bp) s = .next (raise F.SIG_EVENT 6 (fput F.SIG_STATUS_READY 1 (forN (fget F.SIG_PIN_COUNT_N v) (loadPin bp) v)))) ∧
  (∀ (bc : List Nat) (i : Nat) (s : State), i ∉ bc → let a := 4096 * fget F.SIG_CONV_BASE_PAGE s + 16 * i
    inBanks a 16 = true ∨ inDram a 16 s = true → loadConv bc i s = updSig (fun g => { g with conv := g.conv ++ [some (BitVec.ofNat 128 (leNat (mrdBytes a 16 s)))] }) s) ∧
  (∀ (w : Initiator) (s : State), Lets w R.SIG_CMD true s → let u := entered w R.SIG_CMD s; exec (.invalidate w) s = .next (updSig (fun g => { g with cache := g.cache.filter (·.pinned) }) (ok u))) ∧
  (∀ (w : Initiator) (wr_ : Bool) (s : State), Lets w R.SIG_DEF_CMD true s → let u := entered w R.SIG_DEF_CMD s;
    let c : Instr := if wr_ then .defWrite w else .defRead w
    let i := (rd R.SIG_DEF_IDX u).toNat
    let d := (List.range 4).flatMap fun k => leBytes 4 (rd (R.SIG_DEF_DATA_k k) u).toNat
    (u.sig.defCmd = none → exec c s = .next (fput F.SIG_DEF_CMD_BUSY 1 (updSig (fun g => { g with
      defCmd := some ⟨wr_, !ftst F.SIG_CTRL_EN u || decide (catLimit u ≤ i), i, d, false⟩ }) (ok u)))) ∧
    (u.sig.defCmd ≠ none → exec c s = .next (bad (ok u)))) ∧
  (∀ (c : DefCmd) (s : State), s.sig.defCmd = some c → islOpen islMEM s = true →
    (c.refused = true ∨ ftst F.SIG_CTRL_EN s = false → exec .defCmdDone s = .next (defEnd .failedRefused s)) ∧
    (c.refused = false → ftst F.SIG_CTRL_EN s = true → ftst F.SIG_STATUS_READY s = true →
      (c.write = true → lineMapped false (c.idx / 4) s = true → exec .defCmdDone s = .next (defEnd .done (defWrite c.idx c.data (bump R.SIG_LOOKUPS s)))) ∧
      (c.write = true → lineMapped false (c.idx / 4) s = false → exec .defCmdDone s =
        .next (defEnd .done (logUnmapped 0x40 (lineAddr false (c.idx / 4) (bump R.SIG_LOOKUPS s)) (bump R.SIG_LOOKUPS s)))) ∧
      let r := sigLook false (c.idx / 4) (!c.counted) s
      (∀ d, c.write = false → r.1 = .hit d → exec .defCmdDone s = .next (defEnd .done (putDefData (defIn c.idx d) r.2))) ∧
      (c.write = false → r.1 = .wait → exec .defCmdDone s = .next (updSig (fun g => { g with defCmd := some { c with counted := true } }) r.2)))) ∧
  (∀ (idx : Bool) (j : Nat) (first : Bool) (s : State), cached idx j s = none → s.sig.failed ≠ some (idx, j) → lineMapped idx j s = true → (idx, j) ∉ s.sig.fills →
    (sigLook idx j first s).1 = .wait ∧ (sigLook idx j first s).2.sig.fills = s.sig.fills ++ [(idx, j)]) ∧
  (∀ (idx : Bool) (j : Nat) (first : Bool) (s : State), cached idx j s = none → s.sig.failed ≠ some (idx, j) → (idx, j) ∈ s.sig.fills →
    (sigLook idx j first s).1 = .wait ∧ (sigLook idx j first s).2.sig.fills = s.sig.fills) ∧
  (∀ (idx : Bool) (j : Nat) (rest : List (Bool × Nat)) (s : State), s.sig.fills = (idx, j) :: rest → islOpen islMEM s = true →
    let v := updSig (fun g => { g with fills := rest }) s
    exec (.cacheFill .ok) s = .next (cachePut ⟨idx, j, mrdBytes (lineAddr idx j s) 64 s, false⟩ v) ∧
    exec (.cacheFill .busError) s = .next (failLine (idx, j) v) ∧ exec (.cacheFill .eccError) s = .next (failLine (idx, j) (eccLog (lineAddr idx j s) 0x40 true false v))) ∧
  (∀ (w : Initiator) (s : State), Lets w R.SIG_CNT_CLR true s → let u := entered w R.SIG_CNT_CLR s; exec (.sigCntClr w) s = .next (clearRegs sigCounters (ok u)))

/-- R320, R321, R322, R323, R324, R326: the chain is opened and closed, records are pushed and accepted, seals are triggered and run late. -/
def Obligations.LogCommands : Prop :=
  (∀ (w : Initiator) (s : State), Lets w R.SIG_CMD true s → let u := entered w R.SIG_CMD s; ftst F.SIG_STATUS_CHAIN_OPEN u = true →
    (u.sig.sealAt = none → exec (.seal w) s = .next (postSeal ⟨2, vtNs u, epoch u⟩ (ok u))) ∧
    (u.sig.sealAt ≠ none → exec (.seal w) s = .next (updSig (fun g => { g with merged := some ⟨2 ||| (g.merged.map (·.reason)).getD 0, vtNs u, epoch u⟩ }) (ok u)))) ∧
  (∀ (q : SealReq) (s : State), s.sig.blk = 0 → (postSeal q s).sig.k = s.sig.k + 1 ∧ (postSeal q s).sig.sealAt = some s.now ∧ (postSeal q s).sig.prod = s.sig.prod ∧
    rd R.SIG_SEALS (postSeal q s) = rd R.SIG_SEALS (bump R.SIG_SEALS s)) ∧
  (∀ (s : State), ftst F.SIG_CTRL_LOG_EN s = true → s.sig.sealNext ≤ s.time.mraw →
    exec .sealPeriodic s = .next (updSig (fun g => { g with sealNext := g.sealNext + fget F.SIG_SEAL_MS (sealTrigger 1 s) * 1000000 }) (sealTrigger 1 s))) ∧
  (∀ (t : Nat) (s : State), s.sig.sealAt = some t → s.sig.sealLate = false → ctlDue s ≠ 0 → t + 50000000 ≤ s.now →
    exec .sealLate s = .next (updSig (fun g => { g with sealLate := true }) (logFault 0x30 0 0x05 0 0 (raise F.SIG_EVENT 2 s)))) ∧
  (∀ (r : BitVec 128) (rest : List (BitVec 128)) (s : State), s.log.sink = r :: rest → islOpen islMEM s = true →
    let v := { s with log := { s.log with sink := rest } }
    let due := packRecord (lossRecord (s.sig.ringLoss + lossOf r) v) (updSig (fun g => { g with ringLoss := 0 }) v)
    (ringFull v = false → s.sig.ringLoss = 0 → exec .logRecordAccept s = .next (packRecord r v)) ∧
    (ringFull v = false → s.sig.ringLoss ≠ 0 → lossOf r ≠ 0 → exec .logRecordAccept s = .next due) ∧
    (ringFull v = false → s.sig.ringLoss ≠ 0 → lossOf r = 0 → exec .logRecordAccept s = .next (if ringFull due = true then ringLose r due else packRecord r due)) ∧
    (ringFull v = true → exec .logRecordAccept s = .next (ringLose r v))) ∧
  (∀ (r : BitVec 128) (s : State), (ringLose r s).sig.ringLoss = s.sig.ringLoss + (if lossOf r = 0 then 1 else lossOf r) ∧ fbit F.SIG_EVENT 1 (ringLose r s) = true ∧
    (lossOf r = 0 → (ringLose r s).sig.lost = min 0xFFFFFFFF (s.sig.lost + 1))) ∧
  (∀ (w : Initiator) (s : State), Lets w R.SIG_CTRL true s → let u := entered w R.SIG_CTRL s;
    (4 ≤ fget F.SIG_RING_LOG2 u → fget F.SIG_RING_LOG2 u ≤ 16 → ftst F.SIG_CTRL_LOG_EN u = false → exec (.logEnable w) s = .next (logOpen (ok u))) ∧
    (fget F.SIG_RING_LOG2 u < 4 ∨ 16 < fget F.SIG_RING_LOG2 u → exec (.logEnable w) s = .next (bad (ok u))) ∧
    (ftst F.SIG_CTRL_LOG_EN u = true → exec (.logDisable w) s = .next (sealTrigger 0x20 (fput F.SIG_CTRL_LOG_EN 0 (drainSink u.log.sink.length (ok u)))))) ∧
  (∀ s : State, s.sig.kept = false → ∃ v : State, logOpen s = acceptRecord (logFault 0x30 0 0x01 0 (rd R.SYSCTL_RESET_CAUSE v).toNat v) ∧
    ftst F.SIG_CTRL_LOG_EN v = true ∧ ftst F.SIG_STATUS_CHAIN_OPEN v = true ∧ v.log = ⟨[], 0⟩ ∧ v.sig.prod = 0 ∧ v.sig.k = 0 ∧ v.sig.records = 0 ∧ v.sig.lost = 0 ∧ v.sig.sealAt = none) ∧
  (∀ (w : Initiator) (w3 : Word) (s : State), Lets w (R.SIG_LOG_PUSH_k 3) true s → let u := entered w (R.SIG_LOG_PUSH_k 3) s;
    let r := logPush (initCode w) [(rd (R.SIG_LOG_PUSH_k 0) u).toNat, (rd (R.SIG_LOG_PUSH_k 1) u).toNat, (rd (R.SIG_LOG_PUSH_k 2) u).toNat, w3.toNat] (ok u)
    exec (.logPush w w3) s = .next (fput F.SIG_LOG_PUSH_STAT r.1.code r.2)) ∧
  (∀ (o a b c d : Nat) (s : State),
    (ftst F.SIG_CTRL_LOG_EN s = false → logPush o [a, b, c, d] s = (.failedRefused, s)) ∧
    (b / 65536 % 16 = 2 → ftst F.SIG_CTRL_LOG_EN s = true → sinkRoom s = false → logPush o [a, b, c, d] s = (.failedRefused, sinkLose s)) ∧
    (b < 2 ^ 32 → a < 2 ^ 32 → b / 65536 % 16 = 2 → ftst F.SIG_CTRL_LOG_EN s = true → sinkRoom s = true → (logPush o [a, b, c, d] s).1 = .done ∧
      ∃ body, (logPush o [a, b, c, d] s).2 = sinkPut (logRecord (if a + b % 65536 * 2 ^ 32 = 0 then vtNs s else a + b % 65536 * 2 ^ 32) 2 (epoch s) o body) s))

/-- R326, R329, R330, R331: crash images are begun, skipped, finished and re-armed. -/
def Obligations.CrashCommands : Prop :=
  (∀ (w : Initiator) (s : State), Lets w R.SIG_CMD true s → let u := entered w R.SIG_CMD s;
    (ftst F.SIG_STATUS_CRASH_FROZEN u = true → exec (.crash w) s = .next (sealTrigger 4 (raise F.SIG_EVENT 4 (bump R.SIG_CRASH_SKIP (ok u))))) ∧
    (ftst F.SIG_STATUS_CRASH_FROZEN u = false → exec (.crash w) s = .next (sealTrigger 4 (crashImage 4 (fput F.SIG_STATUS_CRASH_FROZEN 1 (ok u))))) ∧
    exec (.crashRearm w) s = .next (fput F.SIG_STATUS_CRASH_FROZEN 0 (ok u))) ∧
  (∀ (r : Nat) (s : State), erasedSlot s = none → crashImage r s = raise F.SIG_EVENT 4 (bump R.SIG_CRASH_SKIP s)) ∧
  (∀ (r k : Nat) (s : State), erasedSlot s = some k → ∃ i, (crashImage r s).sig.images = s.sig.images ++ [i] ∧ i.slot = k ∧ i.ring = s.sig.crash.reverse ∧
    (crashImage r s).sig.imageCount = s.sig.imageCount + 1 ∧ (crashImage r s).sig.crash = s.sig.crash ∧ (crashImage r s).mem = s.mem ∧ (crashImage r s).flash = s.flash) ∧
  (∀ (k : Nat) (s : State), erasedSlot s = some k → k < 7 ∧ (∀ c ∈ s.sig.images, c.slot ≠ k) ∧ ∀ b ∈ frdBytes (crashSlot k) 260 s, b = 0xFF) ∧
  (∀ (c : CrashImg) (rest : List CrashImg) (s : State), s.sig.images = c :: rest → ftst F.SYSCTL_XSPI_STAT_CRASH_ACTIVE s = true →
    let v := cryTally c.status (updSig (fun g => { g with images := rest }) (fprogBytes (crashSlot c.slot) c.head (fprogBytes (crashSlot c.slot + 4096) (crashBytes c.ring) s)))
    exec .crashDone s = .next (whenB rest.isEmpty xspiRelease (fput F.SIG_STATUS_CRASH_RESULT c.status.code (raise F.SIG_EVENT 3 (logFault 0x30 0 0x04 0 (c.slot + c.status.code * 256) v)))))

/-! ### Sleep and wake (chapter 09) -/

/-- R335, R336, R337, R338, R340, R341: the wisp ring: a wisp is taken, sent on, lost and made anew. -/
def Obligations.WispRing : Prop :=
  (∀ (r : Fin 13) (g : Fin 35) (w : BitVec 64) (s : State), g.1 = r.1 → ftst F.NM_CTRL_EN s = true → segState g s ≠ 0 → segState g s ≠ 7 →
    let src := w.toNat % 64
    let dst := w.toNat / 2 ^ 8 % 64
    let run := w.toNat / 2 ^ 16 % 256
    let agreed := w.getLsbD 24
    let abort := w.getLsbD 25
    let regen := w.getLsbD 26
    let n := w.toNat / 2 ^ 32 % 256
    (seg g s).lastSeq.find? (fun p => p.1 == src) ≠ some (src, n) →
    let x := updSeg g (fun x => { x with
      members := x.members ||| 2 ^ src, lastSeq := x.lastSeq.filter (fun p => p.1 != src) ++ [(src, n)], lastDst := some dst, ring := s.now, regen := none }) s
    let v := if (regen = false ∧ run = 0xFF) ∨ abort = true then withhold g src true x else if run ≠ 0xFF then withhold g src false x else x
    let y := if agreed = true then consensus g v else v
    let z := if abort = true ∧ segState g y = 2 then abortPrepare g wakeAbort y else y
    (dst = ownNode g z → segState g z ≠ 6 →
      exec (.wispReceive r w) s = .next (updSeg g (fun x => { x with forward := some (run, z.now + fget (F.NM_SEG_TIME_s_HOP_MS g.1) z * 1000000) }) z)) ∧
    (dst ≠ ownNode g z ∨ segState g z = 6 → exec (.wispReceive r w) s = .next z)) ∧
  (∀ (r : Fin 13) (g : Fin 35) (w : BitVec 64) (s : State), g.1 = r.1 → ftst F.NM_CTRL_EN s = false ∨ segState g s = 0 ∨ segState g s = 7 ∨
      (seg g s).lastSeq.find? (fun p => p.1 == w.toNat % 64) = some (w.toNat % 64, w.toNat / 2 ^ 32 % 256) → exec (.wispReceive r w) s = .next s) ∧
  (∀ (g : Fin 35) (s : State), (segState g s ≠ 1 → consensus g s = s) ∧ (segState g s = 1 →
    (ownConsent g s = true → consensus g s = enterPrepare g s) ∧ (ownConsent g s = false → consensus g s = sendWisp g 0xFF 2 s))) ∧
  (∀ (r : Fin 13) (g : Fin 35) (run due : Nat) (s : State), g.1 = r.1 → (seg g s).forward = some (run, due) → due ≤ s.now →
    let x := updSeg g (fun x => { x with forward := none }) s
    (segState g s ≠ 1 → exec (.wispForward r) s = .next x) ∧ (segState g s = 1 →
    (ownConsent g x = false → exec (.wispForward r) s = .next (sendWisp g 0xFF 0 x)) ∧
    (ownConsent g x = true → run = 0xFF → exec (.wispForward r) s = .next (sendWisp g (ownNode g s) 0 x)) ∧
    (ownConsent g x = true → run ≠ 0xFF → run = ownNode g s →
      exec (.wispForward r) s = .next (if g.1 = 12 then consensus g (sendWisp g run 1 x) else sendWisp g run 1 x)) ∧
    (ownConsent g x = true → run ≠ 0xFF → run ≠ ownNode g s → exec (.wispForward r) s = .next (sendWisp g run 0 x)))) ∧
  (∀ (g : Fin 35) (run flags : Nat) (s : State), g.1 < 12 ∨ g.1 = 12 ∧ segState g s = 1 → let x := seg g s
    let w := ownNode g s + successor g s * 2 ^ 8 + run * 2 ^ 16 + flags * 2 ^ 24 + x.seq * 2 ^ 32
    seg g (sendWisp g run flags s) = { x with
      sent := some (wispFrame g w s)
      seq := (x.seq + 1) % 256
      lastDst := some (successor g s) } ∧
    ∀ c : Fin 12, c.1 = g.1 → ∃ y ∈ (canSt c (sendWisp g run flags s)).items, y.src = .wisp w ∧ y.held = false) ∧
  (∀ (c : Fin 12) (g : Fin 35) (w : Nat) (s : State), c.1 = g.1 → wispSent c w s = if w.testBit 24 = true then consensus g s else s) ∧
  (∀ (r : Fin 13) (g : Fin 35) (s : State), g.1 = r.1 → segState g s = 1 → ftst F.NM_CTRL_EN s = true → (seg g s).regen = none →
    (seg g s).ring + clampNat 10 1000 (fget (F.NM_SEG_TIME_s_RING_MS g.1) s) * 1000000 ≤ s.now →
    exec (.ringLost r) s = .next (updSeg g (fun x => { x with regen := some (s.now + ownNode g s * 1000000) }) s)) ∧
  (∀ (r : Fin 13) (g : Fin 35) (due d : Nat) (s : State), g.1 = r.1 → segState g s = 1 → (seg g s).regen = some due → due ≤ s.now → (seg g s).lastDst = some d → d ≠ ownNode g s →
    exec (.wispRegenerate r) s = .next (sendWisp g 0xFF 4 (raise F.NM_EVENT 2 (bump R.NM_RING_REGEN
      (updSeg g (fun x => { x with regen := none, ring := s.now, members := x.members &&& (2 ^ 64 - 1 - 2 ^ d) }) s)))))

/-- R339, R342, R343, R344, R345, R346, R347: consent, the prepare window, sleep, wakes and isolation of a segment. -/
def Obligations.SegmentSleepAndWake : Prop :=
  (∀ (g : Fin 35) (st : Fin 8) (s : State), segState g (setSeg g st.1 s) = st.1 ∧ (seg g (setSeg g st.1 s)).since = s.now ∧
    (seg g (setSeg g st.1 s)).changes = ((seg g s).changes + 1) % 2 ^ 32 ∧ fbit (F.NM_SEG_STATUS_s_CHANGED g.1) 0 (setSeg g st.1 s) = true ∧
    ∀ k : Fin 35, k ≠ g → (setSeg g st.1 s).nm.segs[k.1] = s.nm.segs[k.1]) ∧
  (∀ s : State, ftst F.NM_CTRL_EN s = true → ftst F.NM_CTRL_CTLBLK_EN s = true →
    exec .nmCtlblkRead s = .next (forFin 35 (fun g s => showConsent g (updSeg g (fun x => { x with ctl := mrd (ctlBlock g s + 2) s == 1 }) s)) s)) ∧
  (∀ (g : Fin 35) (s : State), segState g s ≠ 0 → (seg g s).minEnd ≤ s.now → exec (.minAwakeEnd g) s = .next (showConsent g s)) ∧
  (∀ (g : Fin 35) (s : State), segState g s = 2 → segSends g s = false →
    (seg g s).since + clampNat 20 1000 (fget (F.NM_SEG_TIME_s_PREP_MS g.1) s) * 1000000 ≤ s.now →
    ((seg g s).latched = none → exec (.prepareEnd g) s = .next (sleepAction g (endPending g (setSeg g 3 s)))) ∧
    (∀ src, (seg g s).latched = some src → exec (.prepareEnd g) s = .next (abortPrepare g src (showLatch g (updSeg g (fun x => { x with latched := none }) s))))) ∧
  (∀ (g : Fin 35) (s : State), segState g s ≠ 2 ∨ segSends g s = true → exec (.prepareEnd g) s = .next s) ∧
  (∀ (g : Fin 35) (s : State), segState g s = 3 → (seg g s).latched = none → (seg g s).since + clampNat 10 1000 (fget (F.NM_SEG_TIME3_s_SETTLE_US g.1) s) * 1000 ≤ s.now →
    exec (.settleEnd g) s = .next (setSeg g 4 s)) ∧
  (∀ (g : Fin 35) (s : State), segState g s = 5 → (seg g s).since + clampNat 10 1000 (fget (F.NM_SEG_TIME3_s_WAKE_US g.1) s) * 1000 ≤ s.now →
    exec (.wakingEnd g) s = .next (showConsent g (enterAwake g (wakeForParent g (recordWake g (seg g s).src s))))) ∧
  (∀ (g : Fin 35) (s : State), parentOf g s = none → wakeForParent g s = s) ∧
  (∀ (g p : Fin 35) (s : State), parentOf g s = some p → let v := startMinAwake p s
    wakeForParent g s = if segState p v = 2 ∧ ownConsent p v = false then abortGroup p wakeConsent v else v) ∧
  (∀ (g : Fin 35) (k : Fin 5) (s : State), k ≠ 2 ∨ g.1 < 17 ∨ 28 < g.1 → exec (.segmentWakeInput g k) s = .next (segWakeInput g (k.1 + 1) s)) ∧
  (∀ (g : Fin 35) (s : State) (h : 17 ≤ g.1 ∧ g.1 ≤ 28), exec (.segmentWakeInput g 2) s = .next (segWakeInput g 3 (tc10Wake (g.1 - 11) s))) ∧
  (∀ (g : Fin 35) (k : Nat) (s : State), k ≠ 5 →
    (segState g s = 4 → segWakeInput g k s = wakeSeg g k s) ∧ (segState g s = 6 → segWakeInput g k s = bump R.NM_IGNORED_WAKE s) ∧
    (segState g s = 2 ∨ segState g s = 3 → segWakeInput g k s = showLatch g (updSeg g (fun x => { x with latched := some (x.latched.getD k) }) s)) ∧
    (segState g s = 1 → segWakeInput g k s = s)) ∧
  (∀ (g : Fin 35) (k : Nat) (s : State), blwAsleep g s = true → wakeSeg g k s = bump R.NM_IGNORED_WAKE s) ∧
  (∀ (g : Fin 35) (src : Nat) (s : State), (seg g s).latched = some src →
    let v := showLatch g (updSeg g (fun x => { x with latched := none }) s)
    (segState g s = 0 ∨ segState g s = 7 → exec (.latchedWakeAction g) s = .next s) ∧ (segState g s = 6 → exec (.latchedWakeAction g) s = .next (bump R.NM_IGNORED_WAKE v)) ∧
    (segState g s = 2 → exec (.latchedWakeAction g) s = .next (abortPrepare g src v)) ∧ (segState g s = 3 ∨ segState g s = 4 → exec (.latchedWakeAction g) s = .next (wakeSeg g src v))) ∧
  (∀ (g : Fin 35) (t : Nat) (s : State), (seg g s).maxStart = some t → fget (F.NM_SEG_TIME2_s_MAX_AWAKE_S g.1) s ≠ 0 → segState g s = 1 →
    t + (fget (F.NM_SEG_TIME2_s_MAX_AWAKE_S g.1) s * 1000000000 - (seg g s).maxRun) ≤ s.now →
    let v := updSeg g (fun x => { x with forward := none, regen := none })
      (setSeg g 6 (bump R.NM_ISOLATIONS (raise F.NM_EVENT 0 (fput (F.NM_SEG_STATUS_s_OFFENDER g.1) (offender g s) s))))
    let x := sleepAction g (endPending g (if g = 12 then flushSlept 1 (flushSlept 0 v) else v))
    exec (.maxAwakeExpire g) s = .next (if ftst (F.NM_SEG_CFG_s_FEED_OFF g.1) x = true then feedOff g x else x))

/-- R341, R342, R348: the writes of a segment's registers that act. -/
def Obligations.SegmentCommands : Prop :=
  (∀ (w : Initiator) (g : Fin 35) (s : State), Lets w (R.NM_SEG_CTRL_s g.1) true s → let u := entered w (R.NM_SEG_CTRL_s g.1) s;
    (segState g u = 4 → exec (.segCtrlWake w g) s = .next (wakeSeg g 7 (ok u))) ∧ (segState g u = 2 ∨ segState g u = 3 → exec (.segCtrlWake w g) s = .next (latchWake g 7 (ok u))) ∧
    (segState g u < 2 ∨ 4 < segState g u → exec (.segCtrlWake w g) s = .next (ok u)) ∧
    (segState g u = 6 → exec (.rejoin w g) s = .next (wakeSeg g 7 (fput (F.NM_SEG_STATUS_s_OFFENDER g.1) 0xFF
      (wr (R.NM_WITHHOLD_HI_s g.1) 0 (wr (R.NM_WITHHOLD_LO_s g.1) 0 (ok u)))))) ∧ (segState g u ≠ 6 → exec (.rejoin w g) s = .next (ok u))) ∧
  (∀ (w : Initiator) (g : Fin 35) (s : State), Lets w (R.NM_SEG_CFG_s g.1) true s → let u := entered w (R.NM_SEG_CFG_s g.1) s;
    (ftst (F.NM_SEG_CFG_s_EN g.1) u = false →
      let asleep := match (seg g u).level with | some l => l != ftst (F.NM_SEG_CFG_s_STB_POL g.1) u | none => (seg g u).asleep
      let v := updSeg g (fun x => { x with
        members := if ringSeg g then 2 ^ ownNode g u else 0, lastSeq := [], lastDst := none, forward := none, minEnd := u.now, asleep := asleep, level := none })
        (fput (F.NM_SEG_CFG_s_EN g.1) 1 (ok u))
      (segState g u ≠ 0 → exec (.segEnable w g) s = .next v) ∧
      (segState g u = 0 → asleep = true → exec (.segEnable w g) s = .next (setSeg g 4 v)) ∧
      (segState g u = 0 → asleep = false → exec (.segEnable w g) s = .next (showConsent g (enterAwake g v)))) ∧
    (ftst (F.NM_SEG_CFG_s_EN g.1) u = true → exec (.segEnable w g) s = .next (ok u)) ∧
    (segState g u = 0 → exec (.segDisable w g) s = .next (fput (F.NM_SEG_CFG_s_EN g.1) 0 (ok u))) ∧
    (segState g u ≠ 0 → exec (.segDisable w g) s = .next (followersLeave g (segState g u) (releaseHeld g (wakeAction g (setSeg g 0 (fput (F.NM_SEG_CFG_s_EN g.1) 0 (ok u)))))))) ∧
  (∀ (g : Fin 35) (k : Nat) (s : State), blwAsleep g s = false → segState g s ≠ 4 → wakeSeg g k s = setSeg g 5 (wakeAction g (updSeg g (fun x => { x with src := k }) s))) ∧
  (∀ (w : Initiator) (s : State), Lets w R.NM_CNT_CLR true s → let u := entered w R.NM_CNT_CLR s; exec (.nmCntClr w) s = .next (clearRegs nmCounters (ok u)))

/-! ### Load channels and field inputs (chapter 10) -/

/-- R357, R358, R359, R360, R361, R392, R394, R403, R601, R602: a command is submitted, reaches the power die at the front of its queue, or is never confirmed; a digital input follows its
pin after DEB equal samples; an analogue input shows its mean and its window. -/
def Obligations.LoadChannelCommandsAndFieldInputs : Prop :=
  ((∀ (w : Initiator) (q : Fin 4) (w3 : Word) (s : State), Lets w (R.LOADCH_CQ_W_q_k q.1 3) true s → let u := entered w (R.LOADCH_CQ_W_q_k q.1 3) s;
       (32 ≤ u.pd.cq[q.1].length → exec (.cqSubmit w q w3) s = .next (fput (F.LOADCH_CQ_STAT_q_LAST q.1) Status.failedRefused.code (ok u))) ∧
       (u.pd.cq[q.1].length < 32 →
         let c : PdCmd := ⟨(rd (R.LOADCH_CQ_W_q_k q.1 0) u).toNat, (rd (R.LOADCH_CQ_W_q_k q.1 1) u).toNat, (rd (R.LOADCH_CQ_W_q_k q.1 2) u).toNat, w3.toNat, u.now⟩
         exec (.cqSubmit w q w3) s = .next (fput (F.LOADCH_CQ_STAT_q_LAST q.1) 0 (showFill q (updPd (fun p => { p with cq := upd p.cq q fun l => l ++ [c] }) (ok u)))))) ∧
     (∀ (op : Fin 7) (src : Fin 5) (c : PdCmd) (s : State), pdHead src s = some c → laneAlive s = true → s.pd.lastApply + 1000 ≤ s.now →
       let cmd : Instr := match op with
         | 0 => .off src
         | 1 => .on src
         | 2 => .pwm src
         | 3 => .clear src
         | 4 => .test src
         | 5 => .hbSet src
         | 6 => .bridge src
       let v := updPd (fun p => { p with lastApply := s.now }) (pdPop src s)
       (bits c.w0 11 8 = op.1 ∨ 6 < bits c.w0 11 8 → exec cmd s = .next (pdOutcome src c v)) ∧ (bits c.w0 11 8 ≠ op.1 → bits c.w0 11 8 ≤ 6 → exec cmd s = .next s)) ∧
     (∀ (src : Fin 5) (c : PdCmd) (s : State), pdHead src s = some c → c.at_ + 1000000 ≤ s.now →
       exec (.cmdLinkTimeout src) s = .next (pdRecord src c.w1 (bits c.w0 5 0) .failedTimeout 8 0 (pdPop src s)))) ∧
  ((∀ (mv : Vector Nat 48) (s : State), fget F.HERON_STATUS_STATE s ≠ 3 → exec (.diSample mv) s = .next (forFin 48 (diSampleOne (diCompare mv s).fio.closed) (diCompare mv s))) ∧
     (∀ (mv : Vector Nat 48) (i : Fin 48) (s : State), (diCompare mv s).regs = s.regs ∧
       (diCompare mv s).fio.closed.getLsbD i.1 = if mv[i.1] ≤ 2000 then true else if 4500 ≤ mv[i.1] then false else s.fio.closed.getLsbD i.1) ∧
     (∀ (uv : Nat) (err : Fin 13), (5000000 < uv → aiCode uv err = 0xFFF) ∧ (uv ≤ 5000000 → aiCode uv err ≤ 0xFFF ∧
       aiCode uv err ≤ uv * 4096 / 5000000 + 6 ∧ uv * 4096 / 5000000 ≤ aiCode uv err + 6)) ∧
     (∀ (l : BitVec 48) (i : Fin 48) (s : State), (ftst (F.FIO_DI_CFG_i_EN i.1) s = false → diSampleOne l i s = s) ∧
       (ftst (F.FIO_DI_CFG_i_EN i.1) s = true →
         let v := (l.getLsbD i.1) != ftst (F.FIO_DI_CFG_i_INV i.1) s
         let n := if s.fio.last.getLsbD i.1 == v then s.fio.count[i.1] + 1 else 1
         (max 1 (fget (F.FIO_DI_CFG_i_DEB i.1) s) ≤ n → fbit (F.FIO_DI_STATE_k (i.1 / 32)) (i.1 % 32) (diSampleOne l i s) = v) ∧
         (n < max 1 (fget (F.FIO_DI_CFG_i_DEB i.1) s) → (diSampleOne l i s).regs = s.regs) ∧ (diSampleOne l i s).fio.count[i.1] = min n 16)) ∧
     (∀ (j : Fin 16) (uv : Nat) (err : Fin 13) (s : State), fget F.HERON_STATUS_STATE s ≠ 3 → ftst (F.FIO_AI_CFG_j_EN j.1) s = true → fget (F.FIO_AI_CFG_j_AVG j.1) s = 0 → let code := aiCode uv err
       Does (.aiConvert j ⟨uv, err⟩ false) s fun t =>
       fget (F.FIO_AI_VAL_j_VALUE j.1) t = code ∧ t.fio.hist[j.1] = (code :: s.fio.hist[j.1]).take 16 ∧
       (code < fget (F.FIO_AI_WIN_j_LO j.1) s → s.fio.out.getLsbD j.1 = false → fbit F.FIO_AI_EVT j.1 t = true) ∧ t.mem = s.mem))

/-- R361, R364, R368, R374: the outcome of a command at the power die, the first row that applies. -/
def Obligations.LoadChannelOutcomes : Prop :=
  ∀ (src : Fin 5) (c : PdCmd) (n : Fin 48) (s : State), bits c.w0 5 0 = n.1 →
    let fin (st : Status) (reason : Nat) (s : State) := pdRecord src c.w1 n.1 st reason 0 s
    let op := bits c.w0 11 8
    (cstate s ≠ 2 → pdOutcome src c s = fin .failedRefused 3 s) ∧
    (cstate s = 2 → pdFormOk c = false → pdOutcome src c s = fin .failedRefused 5 s) ∧
    (cstate s = 2 → pdFormOk c = true → src.1 < 4 → cqAllowed src.1 n.1 s = false → pdOutcome src c s = fin .failedRefused 4 s) ∧
    (cstate s = 2 → pdFormOk c = true → (src.1 < 4 → cqAllowed src.1 n.1 s = true) →
      (pdValid n c s = false → pdOutcome src c s = fin .failedRefused 5 s) ∧
      (op = 0 → pdOutcome src c s = fin .done 0 (setDrive n .off true s)) ∧
      (op = 1 → (chLatched n s = true → pdOutcome src c s = fin .failedRefused 1 s) ∧ (chLatched n s = false → chBarred n s = true → pdOutcome src c s = fin .failedRefused 2 s) ∧
        (chLatched n s = false → chBarred n s = false → pdOutcome src c s = fin .done 0 (setDrive n .high false s))) ∧
      (op = 2 → pdValid n c s = true → 0 < bits c.w2 10 0 → chLatched n s = false → chBarred n s = false →
        pdOutcome src c s = fin .done 0 (setDrive n (pwmDrive (bits c.w2 10 0) (bits c.w2 31 16)) false s)) ∧
      (op = 3 → (chLatched n s = false → pdOutcome src c s = fin .done 0 s) ∧
        (isHb n.1 = false → chLatched n s = true → fget (F.LOADCH_CH_STAT_n_CAUSE n.1) s = causeTrip ∨ fget (F.LOADCH_CH_STAT_n_CAUSE n.1) s = causeShort →
          pdOutcome src c s = fin .done 0 (setDrive n .off false (fput (F.LOADCH_CH_STAT_n_CAUSE n.1) 0 s))) ∧
        (isHb n.1 = false → fget (F.LOADCH_CH_STAT_n_CAUSE n.1) s = causeI2t → (fget (F.LOADCH_I2T_B_n_W_CLR n.1) s : Rat) ≤ (pdCh n s).w * 256 →
          pdOutcome src c s = fin .failedRefused 6 s)) ∧
      (op = 4 → (4 ≤ chClass n s ∨ fbit F.LOADCH_CTRL_TEST_CLASS (chClass n s) s = false → pdOutcome src c s = fin .failedRefused 7 s) ∧
        (chClass n s < 4 → fbit F.LOADCH_CTRL_TEST_CLASS (chClass n s) s = true → chWanted n s = false → pdOutcome src c s = fin .failedRefused 9 s) ∧
        (chClass n s < 4 → fbit F.LOADCH_CTRL_TEST_CLASS (chClass n s) s = true → chWanted n s = true →
          let v := updPd (fun p => { p with tests := p.tests ++ [⟨src.1, c.w1, n, s.now, none⟩] }) s
          pdOutcome src c s = if s.now < (pdCh n v).inrushEnd then v else startPulses n v)) ∧
      (op = 5 → pdValid n c s = true → bits c.w3 2 0 = 2 → chLatched n s = false → chBarred n s = false → pdOutcome src c s = fin .done 0 (setDrive n .low false s)) ∧
      (op = 6 → pdValid n c s = true → bits c.w3 2 0 = 0 → pdOutcome src c s = fin .done 0 (setDrive (hbPartner n) .off true (setDrive n .off true s))) ∧
      (op = 6 → pdValid n c s = true → bits c.w3 2 0 = 4 → chLatched n s = false → chLatched (hbPartner n) s = false → chBarred n s = false → chBarred (hbPartner n) s = false →
        pdOutcome src c s = fin .done 0 (setDrive (hbPartner n) .high false (setDrive n .high false s))))

/-- R366, R368, R369, R370, R372, R373, R374, R375, R390: what protects and tests an output. -/
def Obligations.LoadChannelProtection : Prop :=
  (∀ (n : Fin 48) (ma us mv : Nat) (s : State), chExists n.1 = true →
    (chWanted n s = true → 5 * iR n.1 s < 2 * ma → exec (.hardShort n ma) s = .next (latch n causeShort s)) ∧
    (chWanted n s = false ∨ 2 * ma ≤ 5 * iR n.1 s → exec (.hardShort n ma) s = .next s) ∧
    (chOn n s = true → tripThreshold n s < ma → clampNat 16 16000 (fget (F.LOADCH_TRIP_n_T_TRIP n.1) s) ≤ us → exec (.trip n ⟨ma, us⟩) s = .next (latch n causeTrip s)) ∧
    (chOn n s = false ∨ ma ≤ tripThreshold n s ∨ us < clampNat 16 16000 (fget (F.LOADCH_TRIP_n_T_TRIP n.1) s) → exec (.trip n ⟨ma, us⟩) s = .next s) ∧
    (∀ t, turnedOn n s = some t → isGd n.1 = true → fget (F.LOADCH_GD_VDS_n_VDS_TH n.1) s < mv → t + fget (F.LOADCH_GD_VDS_n_VDS_BLANK n.1) s * 1000 ≤ s.now →
      exec (.vdsFault n mv) s = .next (latch n causeVds s)) ∧
    (turnedOn n s = none ∨ isGd n.1 = false ∨ mv ≤ fget (F.LOADCH_GD_VDS_n_VDS_TH n.1) s → exec (.vdsFault n mv) s = .next s)) ∧
  (∀ (n : Fin 48) (k : Fin 8) (s : State), isHb n.1 = false → chLatched n s = false → k ≠ 0 → fget (F.LOADCH_CH_STAT_n_CAUSE n.1) (latch n k.1 s) = k.1 ∧
    chOn n (latch n k.1 s) = false ∧ fbit (F.LOADCH_CH_EVENT_n_EVENT n.1) 0 (latch n k.1 s) = true ∧ (latch n k.1 s).mem = s.mem) ∧
  (∀ (n : Fin 48) (k : Nat) (s : State), chLatched n s = true → latch n k s = s) ∧
  (∀ (n : Fin 48) (isq : Nat) (s : State), chExists n.1 = true → fget (F.LOADCH_I2T_A_n_I_W n.1) s ≠ 0 →
    let v := setW n (heatStep n isq s) (updCh n (fun c => { c with isq := isq }) s)
    exec (.i2tUpdate n isq) s = .next (if (clampNat 256 1024 (fget (F.LOADCH_I2T_B_n_W_TH n.1) v) : Rat) / 256 ≤ heatStep n isq s then latch n causeI2t v else v)) ∧
  (∀ (n : Fin 48) (isq : Nat) (s : State), let iw := fget (F.LOADCH_I2T_A_n_I_W n.1) s * curUnit n.1
    iw ≠ 0 → fget (F.LOADCH_I2T_A_n_TAU n.1) s = 1000 → heatStep n isq s = (pdCh n s).w + ((isq : Rat) / (iw * iw : Rat) - (pdCh n s).w) / 100000) ∧
  (∀ (n : Fin 48) (s : State), ftst (F.LOADCH_CH_STAT_n_INRUSH n.1) s = true → (pdCh n s).inrushEnd ≤ s.now →
    exec (.inrushWindowEnd n) s = .next (startPulses n (fput (F.LOADCH_CH_STAT_n_INRUSH n.1) 0 s))) ∧
  (∀ (n : Fin 48) (ua : Nat) (s : State), chExists n.1 = true → longPhase n s = true →
    let unit := if 24 ≤ n.1 ∧ n.1 < 32 ∧ ftst (F.LOADCH_CH_CFG_n_FINE_EN n.1) s = true then 250 else if 40 ≤ n.1 then 10000 else 1000
    let below := decide (ua < fget (F.LOADCH_OL_n_OL_ON n.1) s * unit)
    Does (.openOn n ua) s fun t => ftst (F.LOADCH_CH_STAT_n_OPEN_ON n.1) t = below ∧
    (below = true → ftst (F.LOADCH_CH_STAT_n_OPEN_ON n.1) s = false → fbit (F.LOADCH_CH_EVENT_n_EVENT n.1) 1 t = true) ∧ t.pd = s.pd ∧ t.mem = s.mem) ∧
  (∀ (n : Fin 48) (out vbat loaded : Nat) (s : State), chExists n.1 = true → chOn n s = false → ftst (F.LOADCH_CH_CFG_n_OL_OFF_EN n.1) s = true → chLatched n s = false →
    Does (.offStateTest n out vbat loaded) s fun t => ftst (F.LOADCH_CH_STAT_n_SHORT_BAT n.1) t = decide (vbat < out + 1000) ∧
      ftst (F.LOADCH_CH_STAT_n_OPEN_OFF n.1) t = decide (2500 < loaded) ∧ t.pd = s.pd ∧ t.mem = s.mem) ∧
  (∀ (n : Fin 48) (out vbat e : Nat) (x : PdTest) (s : State), s.pd.tests.find? (fun t => t.ch == n) = some x → x.pulse = some e → e ≤ s.now →
    exec (.testPulseEnd n out vbat) s = .next (judgeTest x (decide (10 * out < 3 * vbat)) s)) ∧
  (∀ (n : Fin 48) (x : PdTest) (s : State), s.pd.tests.find? (fun t => t.ch == n && t.pulse.isNone) = some x → x.since + 100000000 ≤ (pdCh n s).inrushEnd → x.since + 100000000 ≤ s.now →
    exec (.testDeferTimeout n) s = .next (pdRecord (Fin.ofNat 5 x.src) x.tag n.1 .deferred 0 0 (updPd (fun p => { p with tests := p.tests.erase x }) s))) ∧
  (∀ (n : Fin 48) (ua : Nat) (s : State), chExists n.1 = true → let unit := curStep n.1
    Does (.currentUpdate n ua) s fun t => fget (F.LOADCH_CH_CUR_n_CUR n.1) t = min 0xFFFF ((roundNearest ((ua : Rat) / (1000 * curUnit n.1 * unit : Nat))).toNat * unit) ∧
      t.pd = s.pd ∧ t.mem = s.mem)

/-- R366, R377, R378, R379, R380, R384: the thermal groups, the power budget, and the restore of what was shed. -/
def Obligations.LoadChannelLimits : Prop :=
  (∀ (g : Fin 6) (d : Int) (s : State), d < tgWarnAt g s → d < tgLimitAt g s - 10 → s.pd.tgHeld[g.1] = false → Does (.tgTempRead g d) s fun t =>
    ftst (F.LOADCH_TG_STAT_g_WARN g.1) t = false ∧ ftst (F.LOADCH_TG_STAT_g_LIMIT g.1) t = false ∧ ftst (F.LOADCH_TG_STAT_g_OT g.1) t = false ∧ t.pd.tgDue[g.1] = none ∧ t.mem = s.mem) ∧
  (∀ (g : Fin 6) (d : Int) (s : State), tgLimitAt g s ≤ d → d < 170 → ftst (F.LOADCH_TG_STAT_g_LIMIT g.1) s = false → ∃ v, exec (.tgTempRead g d) s = .next (groupShed g v) ∧
    ftst (F.LOADCH_TG_STAT_g_LIMIT g.1) v = true ∧ fbit F.LOADCH_EVENT 5 v = true ∧ v.pd = s.pd ∧ v.mem = s.mem) ∧
  (∀ (g : Fin 6) (at_ : Nat) (s : State), s.pd.tgDue[g.1] = some at_ → at_ ≤ s.now → exec (.tgShedStep g) s = .next (groupShed g s)) ∧
  (∀ (g : Fin 6) (n : Fin 48) (s : State), let v := updPd (fun p => { p with tgDue := p.tgDue.set g.1 (some (s.now + 100000000)) g.2, tgHeld := p.tgHeld.set g.1 true g.2 }) s
    (shedPick (fun n => tgOf n.1 == g) v = some n → groupShed g s = shed n shedGroup v) ∧ (shedPick (fun n => tgOf n.1 == g) v = none → groupShed g s = v)) ∧
  (∀ (p : Fin 48 → Bool) (n : Fin 48) (s : State), shedPick p s = some n → p n = true ∧ chOn n s = true ∧ chClass n s < 4 ∧ chExists n.1 = true ∧
    ∀ m : Fin 48, chExists m.1 = true → p m = true → chOn m s = true → chClass n s ≤ chClass m s) ∧
  (∀ s : State,
    let l := forCh (fun n s => updCh n (fun c => { c with loss := chLoss n s }) s) s
    let x := updPd (fun p => { p with win := (pNow l :: p.win).take 1000 }) l
    let y := fput F.LOADCH_POWER_P_AVG (min 0xFFFF (roundNearest (pAvg x)).toNat) (fput F.LOADCH_POWER_P_NOW (min 0xFFFF (roundNearest (pNow x)).toNat) x)
    pAvg x ≤ pWarn y → pBudget y - 1000 ≤ pAvg x → pAvg x ≤ pBudget y →
    exec .powerBudgetUpdate s = .next (updPd (fun p => { p with warnOn := false, overOn := false }) y)) ∧
  (∀ s : State, s.pd.budgetOn = true → s.pd.budgetDue ≤ s.now →
    let v := updPd (fun p => { p with budgetDue := s.now + 10000000 }) s
    exec .budgetShedStep s = .next (if pBudget v < pNow v then budgetShed v else updPd (fun p => { p with budgetOn := false }) v)) ∧
  (∀ (n : Fin 48) (s : State), ([4, 3, 2, 1, 0].flatMap fun c => allCh.filter fun n => chClass n s == c).find? (fun n => (pdCh n s).wait) = some n → s.pd.nextRestore ≤ s.now →
    let v := raise F.LOADCH_EVENT 11 (chChange n (updCh n fun c => { c with wait := false }) s)
    exec .shedRestoreStep s = .next (updPd (fun p => { p with nextRestore := s.now + clampNat 1 100 (fget F.LOADCH_CTRL_RESTORE_MS s) * 1000000 }) v))

/-- R15, R382, R386, R387, R388, R402: control of the power die is claimed, parked, lost and restarted; its OTP records. -/
def Obligations.LoadChannelControl : Prop :=
  (∀ (w : Initiator) (s : State), Lets w R.LOADCH_CTRL true s → let u := entered w R.LOADCH_CTRL s;
    (cstate u ≠ 2 → laneAlive u = true → exec (.loadchClaim w) s = .next (raise F.LOADCH_EVENT 3 (setCstate 2 (forCh claimOne (ok u))))) ∧
    (cstate u = 2 ∨ laneAlive u = false → exec (.loadchClaim w) s = .next (ok u)) ∧
    (cstate u = 2 → exec (.park w) s = .next (setCstate 3 (ok u))) ∧ (cstate u ≠ 2 → exec (.park w) s = .next (ok u))) ∧
  (∀ s : State, exec (.controlLost true) s = .next (resetNotice s)) ∧
  (∀ s : State, cstate s = 2 → laneAlive s = false → s.pd.silent + 1000000 ≤ s.now → exec (.controlLost false) s = .next (loseControl s)) ∧
  (∀ s : State, laneAlive s = true → cstate s = 2 ∨ cstate s = 3 → resetNotice s = loseControl s) ∧
  (∀ (n : Fin 48) (t : Nat) (s : State), (pdCh n s).holdDue = some t → t ≤ s.now →
    let v := raise (F.LOADCH_CH_EVENT_n_EVENT n.1) 6 (chChange n (fun s => fput (F.LOADCH_CH_STAT_n_LIMPED n.1) 1 (updCh n (fun c => { c with mode := .limp, holdDue := none }) s)) s)
    exec (.tHoldExpire n) s = .next (if cstate v = 0 ∧ allCh.all (fun m => (pdCh m v).holdDue.isNone) = true then raise F.LOADCH_EVENT 2 (setCstate 1 v) else v)) ∧
  (∀ s : State, exec .pdRestart s = .next (pdRestart s)) ∧
  (∀ s : State, s.pd.tests = [] → ∃ v, pdRestart s = raise F.LOADCH_EVENT 14 (startHolds (forCh restartOne (forCh applyOtp v))) ∧ cstate v = 0 ∧ fget F.LOADCH_STATUS_STAGE v = 0 ∧
    v.pd.ch = PdSt.init.ch ∧ v.pd.otp = s.pd.otp ∧ v.pd.cq = s.pd.cq ∧ v.mem = s.mem) ∧
  (∀ (b : Bool) (s : State), let f := if b then F.LOADCH_STATUS_LANE_B else F.LOADCH_STATUS_LANE_A
    (ftst f s = true → Does (.laneLoss b) s fun t => ftst f t = false ∧ fbit F.LOADCH_EVENT 0 t = true ∧ t.pd.ch = s.pd.ch ∧ t.mem = s.mem ∧ (laneAlive t = false → t.pd.silent = s.now)) ∧
    (exec (.laneRestored b) s = .next (fput f 1 s))) ∧
  (∀ (mv : Nat) (s : State), cstate s ≠ 2 →
    let v := updPd (fun p => (List.finRange 4).foldl (fun p k => stageSample mv k p) p) s
    exec (.pdVbatSample mv) s = .next (applyStage (ownStage v) v)) ∧
  (∀ (k : Fin 4) (mv : Nat) (p : PdSt), p.stageIn[k.1] = false → mv < p.th[k.1] → p.stageCnt[k.1] = 100 → (stageSample mv k p).stageIn[k.1] = true) ∧
  (∀ (w : Initiator) (n : Fin 48) (s : State), Lets w R.LOADCH_OTP_CMD true s → let u := entered w R.LOADCH_OTP_CMD s; fget F.LOADCH_OTP_IDX u = n.1 → chExists n.1 = true →
    (∀ a b c d, u.pd.otp[n.1] = some (a, b, c, d) → Does (.otpRead w) s fun t => rd (R.LOADCH_OTP_DATA_k 0) t = a ∧ rd (R.LOADCH_OTP_DATA_k 1) t = b ∧
      rd (R.LOADCH_OTP_DATA_k 2) t = c ∧ rd (R.LOADCH_OTP_DATA_k 3) t = d ∧ fget F.LOADCH_OTP_STATUS_RESULT t = 0 ∧ fget F.LOADCH_OTP_STATUS_PROGRAMMED t = 1 ∧ t.pd = u.pd) ∧
    (u.pd.otp[n.1] = none → initWorld w u = true → 12000 ≤ fget F.BLW_VBAT_MV u → fget F.BLW_VBAT_MV u ≤ 16000 → Does (.otpProg w) s fun t =>
      t.pd.otp[n.1] = some (rd (R.LOADCH_OTP_DATA_k 0) u, rd (R.LOADCH_OTP_DATA_k 1) u, rd (R.LOADCH_OTP_DATA_k 2) u, rd (R.LOADCH_OTP_DATA_k 3) u) ∧
      fget F.LOADCH_OTP_STATUS_RESULT t = 0 ∧ t.mem = u.mem) ∧
    (u.pd.otp[n.1] ≠ none → Does (.otpProg w) s fun t => t.pd = u.pd ∧ fget F.LOADCH_OTP_STATUS_RESULT t = Status.failedRefused.code)) ∧
  (∀ (w : Initiator) (s : State), Lets w R.LOADCH_CNT_CLR true s → let u := entered w R.LOADCH_CNT_CLR s; exec (.loadchCntClr w) s = .next (clearRegs loadchCounters (ok u)))

/-! ### The bus, the memory island and the Causeway (chapters 00, 01 and 11) -/

/-- R6, R25, R33, R467, R484, R632, R641: what becomes of a write that an initiator makes, and of an access of the debug port. -/
def Obligations.BusAccesses : Prop :=
  (∀ (w : Initiator) (addr : BitVec 40) (size : AccSize) (d : Word) (s : State), let a := addr.toNat; let n := accBytes size
    (a % n ≠ 0 → exec (.registerWrite w addr size d) s = .next (busError s)) ∧
    (a % n = 0 → ownEntryAddr a s = none → exec (.registerWrite w addr size d) s = .next (busError (logUnmapped (initCode w) a s))) ∧
    (a % n = 0 → ownEntryAddr a s ≠ none →
      ((initCheck w a true s).1 = false → exec (.registerWrite w addr size d) s = .next (answer .failedBus 0 (initCheck w a true s).2)) ∧
      ((initCheck w a true s).1 = true → homeOpen a (initCheck w a true s).2 = false →
        exec (.registerWrite w addr size d) s = .next (answer .abortedIslandOff 0 (initCheck w a true s).2)) ∧
      (Lets w a true s → let u := entered w a s; inBanks a n = true → exec (.registerWrite w addr size d) s = .next (sealSettle (mwrN a n d.toNat (ok u)))) ∧
      (Lets w a true s → let u := entered w a s; 0x20000000 ≤ a → a < 0x28000000 → exec (.registerWrite w addr size d) s = .next (busError (ok u))))) ∧
  (∀ (w : Initiator) (d : Word) (s : State), Lets w R.MEM_EVENT true s → let u := entered w R.MEM_EVENT s; initWorld w u = true →
    exec (.registerWrite w (BitVec.ofNat 40 R.MEM_EVENT) .word d) s = .next (wr R.MEM_EVENT (rd R.MEM_EVENT u &&& ~~~(d &&& 0x1F)) (ok u))) ∧
  (∀ (w : Initiator) (d : Word) (s : State), Lets w (R.FIO_AI_WIN_j 0) true s → let u := entered w (R.FIO_AI_WIN_j 0) s; cwyPosted (R.FIO_AI_WIN_j 0) u = false →
    exec (.registerWrite w (BitVec.ofNat 40 (R.FIO_AI_WIN_j 0)) .word d) s = .next (wr (R.FIO_AI_WIN_j 0) ((rd (R.FIO_AI_WIN_j 0) u &&& 0xF000F000) ||| (d &&& 0x0FFF0FFF)) (ok u))) ∧
  (∀ (w : Initiator) (d : Word) (s : State), Lets w R.MEM_UNMAP_CNT true s → let u := entered w R.MEM_UNMAP_CNT s; initWorld w u = true →
    Does (.registerWrite w (BitVec.ofNat 40 R.MEM_UNMAP_CNT) .word d) s fun t => t.resp = ⟨.done, 0⟩ ∧ SameMem u t ∧ SameRegsBut [] u t) ∧
  (∀ (a n data old rw k : Nat), n = 1 ∨ n = 2 ∨ n = 4 → a % n = 0 → data < 2 ^ (8 * n) → k < 32 →
    (mergedValue a n data old rw).testBit k = if 8 * (a % 4) ≤ k ∧ k < 8 * (a % 4) + 8 * n then data.testBit (k - 8 * (a % 4)) else old.testBit k && rw.testBit k) ∧
  (∀ (wr_ : Bool) (addr : BitVec 40) (size : AccSize) (d : Word) (s : State),
    (debugPort s = false → exec (.debugAccess wr_ addr size d) s = .next s) ∧
    (debugPort s = true → islOpen islMEM s = false → exec (.debugAccess wr_ addr size d) s = .next (answer .failedBus 0 s)) ∧
    (debugPort s = true → islOpen islMEM s = true → wr_ = true → exec (.debugAccess wr_ addr size d) s = exec (.registerWrite .debug addr size d) s) ∧
    (debugPort s = true → islOpen islMEM s = true → wr_ = false → addr.toNat % accBytes size = 0 → Lets .debug addr.toNat false s → let u := entered .debug addr.toNat s; inBanks addr.toNat (accBytes size) = true →
      exec (.debugAccess wr_ addr size d) s = .next (answer .done (mrdN addr.toNat (accBytes size) u) (ok u))))

/-- R412, R422, R434: the TCM copy engine starts, refuses and ends copies; patrol scrubbing logs what it finds. -/
def Obligations.TcmCopiesAndScrubbing : Prop :=
  (∀ (w : Initiator) (len : BitVec 19) (s : State), Lets w R.MEM_TCMCPY_CTL true s → let u := entered w R.MEM_TCMCPY_CTL s;
    (initWorld w u = false → exec (.tcmcpyGo w len) s = .next (bad (ok u))) ∧
    (initWorld w u = true →
      let v := fput F.MEM_TCMCPY_CTL_LEN len.toNat (ok u)
      let fits := tcmOpen (fget F.MEM_TCMCPY_DST_TARGET v) v && tcmFits (fget F.MEM_TCMCPY_DST_TARGET v) (fget F.MEM_TCMCPY_DST_OFS v) len.toNat
      (ftst F.MEM_TCMCPY_STAT_BUSY u = true → exec (.tcmcpyGo w len) s = .next (bad (ok u))) ∧
      (ftst F.MEM_TCMCPY_STAT_BUSY u = false → fits = false ∨ len.toNat % 16 ≠ 0 → exec (.tcmcpyGo w len) s = .next (copyEnd .failedRefused v)) ∧
      (ftst F.MEM_TCMCPY_STAT_BUSY u = false → fits = true → len.toNat % 16 = 0 →
        exec (.tcmcpyGo w len) s = .next (fput F.MEM_TCMCPY_STAT_BUSY 1 (updCwy (fun c => { c with copy := some ⟨fget F.MEM_TCMCPY_SRC_LO v + 2 ^ 32 * fget F.MEM_TCMCPY_SRC_HI v, len.toNat, fget F.MEM_TCMCPY_DST_TARGET v, fget F.MEM_TCMCPY_DST_OFS v⟩ }) v))))) ∧
  (∀ (c : TcmCopy) (s : State), s.cwy.copy = some c →
    exec (.tcmcpyDone .busError) s = .next (copyEnd .failedBus s) ∧ exec (.tcmcpyDone .eccError) s = .next (copyEnd .failedEcc s) ∧
    (tcmOpen c.target s = false → exec (.tcmcpyDone .ok) s = .next (copyEnd .failedRefused s)) ∧
    (tcmOpen c.target s = true →
      let r := unitRead ⟨16, 0x40, true, 0⟩ c.src c.len s
      (r.1 = none → exec (.tcmcpyDone .ok) s = .next (copyEnd .failedBus r.2)) ∧
      (∀ d, r.1 = some d → exec (.tcmcpyDone .ok) s = .next (copyEnd .done (mwrBytes (tcmBase c.target + c.ofs) d r.2))))) ∧
  (∀ (t : Fin 5) (ofs n : Nat), tcmFits t.1 ofs n = true ↔
    if t.1 < 4 then ofs + n ≤ 0x30000 ∨ (0x40000 ≤ ofs ∧ ofs + n ≤ 0x80000) else ofs + n ≤ 0x40000) ∧
  (∀ (p : Fin 4) (s : State), tcmOpen p.1 s = true ↔ islSt (islL p) s = .reset) ∧ (∀ s : State, tcmOpen 4 s = s.cwy.hcBoot) ∧
  (∀ (addr : BitVec 40) (f : HdrEcc) (s : State), ftst F.MEM_SCRUB_EN s = true → inDram addr.toNat 8 s = true →
    exec (.dramScrub addr f) s = .next (match f with
      | .clean => s
      | .corrected => eccLog addr.toNat 0x40 false true s
      | .bad => eccLog addr.toNat 0x40 true true s)) ∧
  (∀ (a : Nat) (s : State), a < 2 ^ 40 → let t := eccLog a 0x40 true true s
    fbit F.MEM_EVENT 1 t = true ∧ rd R.MEM_ECC_UE_CNT t = rd R.MEM_ECC_UE_CNT (bump R.MEM_ECC_UE_CNT s) ∧ rd R.MEM_ECC_LAST_LO t = BitVec.ofNat 32 a ∧
    fget F.MEM_ECC_LAST_HI_ADDR t = a / 2 ^ 32 ∧ fget F.MEM_ECC_LAST_HI_INIT t = 0x40 ∧ fget F.MEM_ECC_LAST_HI_UE t = 1 ∧ fget F.MEM_ECC_LAST_HI_SCRUB t = 1 ∧ SameMem s t)

/-- R413, R417, R418, R419, R472: atomics in the shared banks, from the window and from a hart; reservations; exceptions, in world 1 to Anvil's vector. The exception causes are the model's (log entry 22). -/
def Obligations.BankAtomicsOfProcessors : Prop :=
  (∀ (w : Initiator) (v : Word) (add : Bool) (s : State), Lets w (if add then R.MEM_ATOM_AADD else R.MEM_ATOM_ASWP) true s → let u := entered w (if add then R.MEM_ATOM_AADD else R.MEM_ATOM_ASWP) s;
    let cell := fun s : State => sget (fun _ => (0, 0, 0)) s.cwy.atom (initIdx w)
    let a := 0x01000000 + (cell u).1 / 4 * 4 % 0x400000
    let c : Instr := if add then .atomAadd w v else .atomAswp w v
    ((initCheck w a true (ok u)).1 = true → Does c s fun t =>
      mrdN a 4 t = (if add then mrdN a 4 u + v.toNat else v.toNat) % 2 ^ 32 ∧ cell t = ((cell u).1, mrdN a 4 u, Status.done.code) ∧
      (∀ b, b < a ∨ a + 4 ≤ b → mrd b t = mrd b u) ∧ t.resp = ⟨.done, 0⟩) ∧
    ((initCheck w a true (ok u)).1 = false → Does c s fun t =>
      SameMem u t ∧ cell t = ((cell u).1, (cell u).2.1, Status.failedRefused.code) ∧ t.resp = ⟨.failedRefused, 0⟩)) ∧
  (∀ (h : Fin 8) (op : AmoOp) (dbl : Bool) (addr : BitVec 40) (v : BitVec 64) (s : State), let a := addr.toNat; let n := if dbl then 8 else 4
    let traps := fun c : Nat => if (s.harts[h.1]).world then Does (.hartBankAmo h op dbl addr v) s fun t => (t.harts[h.1]).world = true ∧ (t.harts[h.1]).exc = c ∧
        (t.harts[h.1]).pc.toNat = fget F.OWN_ANVIL_VEC_LO s + 2 ^ 32 * fget F.OWN_ANVIL_VEC_HI s + 0x40 ∧ (∀ g : Fin 8, g ≠ h → t.harts[g.1] = s.harts[g.1]) ∧ SameMem s t
      else exec (.hartBankAmo h op dbl addr v) s = .next (answer .failedBus 0 { s with harts := upd s.harts h fun x => { x with exc := c } })
    (a % n ≠ 0 → traps (if op = .lr then 4 else 6)) ∧
    (a % n = 0 → (0x02000000 ≤ a ∧ a < 0x03000000) ∨ (0x04000000 ≤ a ∧ a < 0x05000000) → traps (if op = .lr then 5 else 7)) ∧
    let chk := initCheck (.hart h) a (op != .lr) s
    let u := chk.2
    (a % n = 0 → inBanks a n = true → chk.1 = false → exec (.hartBankAmo h op dbl addr v) s = .next (answer .failedBus 0 u)) ∧
    (a % n = 0 → inBanks a n = true → chk.1 = true → islOpen islMEM u = true →
      let o := mrdN a n u
      (op = .lr → exec (.hartBankAmo h op dbl addr v) s = .next (answer .done o (setResv h (some (a / 16, u.now)) u))) ∧
      (op = .sc → (∀ t0, u.cwy.resv[h.1] = some (a / 16, t0) → u.now < t0 + 1280 → exec (.hartBankAmo h op dbl addr v) s = .next (answer .done 0 (setResv h none (mwrN a n (v.toNat % 2 ^ (8 * n)) u)))) ∧
        ((∀ k t0, u.cwy.resv[h.1] = some (k, t0) → k ≠ a / 16 ∨ t0 + 1280 ≤ u.now) → exec (.hartBankAmo h op dbl addr v) s = .next (answer .done 1 (setResv h none u)))) ∧
      (op ≠ .lr → op ≠ .sc → Does (.hartBankAmo h op dbl addr v) s fun t => t.resp = ⟨.done, BitVec.ofNat 32 o⟩ ∧ mrdN a n t = amoValue (8 * n) op o v.toNat ∧
        (∀ b, b < a ∨ a + n ≤ b → mrd b t = mrd b s) ∧ ∀ g : Fin 8, ∀ w0 t0, s.cwy.resv[g.1] = some (w0, t0) → w0 = a / 16 → t.cwy.resv[g.1] = none))) ∧
  (∀ (h : Fin 8) (b t0 : Nat) (s : State), s.cwy.resv[h.1] = some (b, t0) → t0 + 1280 ≤ s.now → exec (.lrReservationExpire h) s = .next (setResv h none s)) ∧
  (∀ (b o v : Nat), o < 2 ^ b → 0 < b → amoValue b .add o v = (o + v) % 2 ^ b ∧ amoValue b .swap o v = v % 2 ^ b ∧ amoValue b .and o v = o &&& (v % 2 ^ b) ∧
    amoValue b .or o v = o ||| (v % 2 ^ b) ∧ amoValue b .xor o v = o ^^^ (v % 2 ^ b) ∧ amoValue b .minu o v = min o (v % 2 ^ b) ∧ amoValue b .maxu o v = max o (v % 2 ^ b) ∧
    signedOf b (amoValue b .min o v) = min (signedOf b o) (signedOf b (v % 2 ^ b)) ∧ signedOf b (amoValue b .max o v) = max (signedOf b o) (signedOf b (v % 2 ^ b)))

/-- R424, R426, R427, R428, R432, R435: the Causeway's timeouts, posted errors, error log and locks, and the pops that a hart discards. -/
def Obligations.CausewayCommands : Prop :=
  (∀ (w : Initiator) (addr : BitVec 40) (part : Fin 8) (be : BitVec 4) (wr_ : Bool) (s : State),
    (0x10000000 ≤ addr.toNat → addr.toNat < 0x20000000 →
      let u := advance (4 * max 256 (fget F.CWY_CTRL_TIMEOUT s)) s
      (wr_ = true → cwyPosted addr.toNat s = true → exec (.cwyTimeout w addr wr_ part be) s = .next (cwyError (cwyEntry w addr.toNat .failedTimeout part be u) u)) ∧
      (wr_ = false ∨ cwyPosted addr.toNat s = false → exec (.cwyTimeout w addr wr_ part be) s = .next (answer .failedTimeout 0 u)) ∧
      (cwyPosted addr.toNat s = true → exec (.cwyPostedError w addr .busError part be) s = .next (cwyError (cwyEntry w addr.toNat .failedBus part be s) s) ∧
        exec (.cwyPostedError w addr .eccError part be) s = .next (cwyError (cwyEntry w addr.toNat .failedEcc part be s) s)))) ∧
  (∀ (e : CwyErr) (s : State),
    (s.cwy.log.length < 8 → (cwyError e s).cwy.log = s.cwy.log ++ [e] ∧ fbit F.CWY_EVENT 0 (cwyError e s) = true ∧ fget F.CWY_ERRLOG_FILL (cwyError e s) = s.cwy.log.length + 1) ∧
    (8 ≤ s.cwy.log.length → cwyError e s = bump R.CWY_ERR_OVF s)) ∧
  (∀ s : State, exec .lateResp s = .next (raise F.CWY_EVENT 3 (bump R.CWY_LATE_RESP_CNT s))) ∧
  (∀ (h : Fin 8) (a t0 : Nat) (s : State), s.cwy.lock = some (h, a, t0) → t0 + 256 ≤ s.now →
    exec .lockBroken s = .next (raise F.CWY_EVENT 1 (bump R.CWY_LOCK_BROKEN_CNT { s with cwy := { s.cwy with lock := none } }))) ∧
  (∀ (w : Initiator) (s : State), Lets w R.CWY_ERRLOG_POP false s → let u := entered w R.CWY_ERRLOG_POP s;
    (u.cwy.log = [] → exec (.errlogPop w) s = .next (answer .done 0xFFFFFFFF (ok u))) ∧
    (∀ e rest, u.cwy.log = e :: rest → Does (.errlogPop w) s fun t => t.resp = ⟨.done, BitVec.ofNat 32 e.addr⟩ ∧ t.cwy.log = rest ∧
      sget (fun _ => ⟨0, 0, 0, 0, 0, 0⟩) t.cwy.shadows (initIdx w) = e ∧ (∀ h, w = .hart h → t.cwy.undo = some e) ∧ ((∀ h, w ≠ .hart h) → t.cwy.undo = none))) ∧
  (∀ (h : Fin 8) (op : AmoOp) (dbl : Bool) (addr : BitVec 40) (v : Word) (n : Fin 9) (s : State), let a := addr.toNat; let c : Instr := .cwyLockedSequence h op dbl addr v n
    0x10000000 ≤ a → a < 0x20000000 →
    (a % (if dbl then 8 else 4) ≠ 0 → (s.harts[h.1]).world = false →
      exec c s = .next (answer .failedBus 0 { s with harts := upd s.harts h fun x => { x with exc := if op = .lr then 4 else 6 } })) ∧
    (dbl = true → a % 8 = 0 → exec c s = .next (answer .failedBus 0 s)) ∧
    (dbl = false → a % 4 = 0 → n = 0 →
      (op = .lr → (busRead (.hart h) a 4 s).resp.status = .done → Does c s fun t => t.cwy.lock = some (h, a, t.now) ∧ t.resp = (busRead (.hart h) a 4 s).resp) ∧
      (op = .sc → (∀ t0, s.cwy.lock = some (h, a, t0) → s.now < t0 + 256 → Does c s fun t => t.resp = (busWrite (.hart h) a 4 v.toNat { s with cwy := { s.cwy with lock := none } }).resp) ∧
        (s.cwy.lock = none → Does c s fun t => t.resp = ⟨.done, 1⟩ ∧ SameMem s t ∧ SameRegsBut [R.CWY_RETRY_CNT] s t)))) ∧
  (∀ (n : Nat) (s : State), rd R.CWY_RETRY_CNT (retried n s) = rd R.CWY_RETRY_CNT (bumpBy n R.CWY_RETRY_CNT s) ∧
    (8 ≤ n → rd R.CWY_RETRY_HOLD_CNT (retried n s) = rd R.CWY_RETRY_HOLD_CNT (bump R.CWY_RETRY_HOLD_CNT s) ∧ fbit F.CWY_EVENT 2 (retried n s) = true)) ∧
  (∀ s : State,
    (∀ e, s.cwy.undo = some e → Does (.popUndo .errlog) s fun t => t.cwy.log = e :: s.cwy.log ∧ t.cwy.undo = none ∧ rd R.MEM_SPEC_POP t = rd R.MEM_SPEC_POP (bump R.MEM_SPEC_POP s)) ∧
    (∀ v, s.own.undo = some v → Does (.popUndo .violation) s fun t => t.own.viol = v :: s.own.viol ∧ t.own.undo = none) ∧
    (∀ (m : Fin 16) e, s.cap[m.1].undo = some e → Does (.popUndo (.capture m)) s fun t => t.cap[m.1].fifo = e :: s.cap[m.1].fifo ∧ t.cap[m.1].undo = none) ∧
    (∀ (t0 : Fin 13) i b, s.ic.undo[t0.1] = some (i, b) → Does (.popUndo (.claim t0)) s fun t => t.ic.stack[t0.1] = (s.ic.stack[t0.1]).tail ∧ t.ic.undo[t0.1] = none) ∧
    (s.cwy.undo = none → exec (.popUndo .errlog) s = .next s)) ∧
  (∀ (w : Initiator) (s : State), Lets w R.MEM_CNT_CLR true s → let u := entered w R.MEM_CNT_CLR s; initWorld w u = true → exec (.memCntClr w) s = .next (clearRegs memCounters (ok u))) ∧
  (∀ (w : Initiator) (s : State), Lets w R.CWY_CNT_CLR true s → let u := entered w R.CWY_CNT_CLR s; initWorld w u = true → exec (.cwyCntClr w) s = .next (clearRegs cwyCounters (ok u)))

/-! ### Interrupts, WCALL and Heron (chapters 09, 11, 12 and 13) -/

/-- R437, R440, R442, R443, R444: edge requests, claims and ends of interrupt. -/
def Obligations.InterruptControllerCommands : Prop :=
  (∀ (w : Initiator) (i : Fin 1024) (s : State), Lets w R.IC_SGI_SET true s → let u := entered w R.IC_SGI_SET s;
    (768 ≤ i.1 → srcOwner w i.1 (ok u) = true → exec (.sgiSet w i) s = .next { ok u with ic := { u.ic with edge := u.ic.edge ||| BitVec.ofNat 256 (2 ^ (i.1 - 768)) } }) ∧
    (i.1 < 768 ∨ srcOwner w i.1 (ok u) = false → exec (.sgiSet w i) s = .next (bad (ok u)))) ∧
  (∀ (w : Initiator) (t : Fin 13) (s : State), Lets w (R.IC_CLAIM_t t.1) false s → let u := entered w (R.IC_CLAIM_t t.1) s;
    (16 ≤ (u.ic.stack[t.1]).length → exec (.icClaim w t) s = .next (answer .done 0 (raise (F.IC_STAT_t_STACK_FULL t.1) 0 (ok u)))) ∧
    ((u.ic.stack[t.1]).length < 16 → icBest t u = none → exec (.icClaim w t) s = .next (ok u)) ∧
    (∀ i p, (u.ic.stack[t.1]).length < 16 → icBest t u = some (i, p) → Does (.icClaim w t) s fun v => v.resp = ⟨.done, BitVec.ofNat 32 i⟩ ∧
      v.ic.stack[t.1] = (i, p) :: u.ic.stack[t.1] ∧ srcActive i v = true ∧ (∀ k : Fin 13, k ≠ t → v.ic.stack[k.1] = u.ic.stack[k.1]) ∧
      (768 ≤ i → v.ic.edge = u.ic.edge &&& ~~~(BitVec.ofNat 256 (2 ^ (i - 768)))) ∧ (i < 768 → v.ic.edge = u.ic.edge) ∧
      runPri t v = max p (fget (F.IC_THRESH_t_PRI t.1) u) ∧ (runPri t u < p → fget (F.IC_STAT_t_RUNPRI t.1) v = p) ∧ SameMem u v)) ∧
  (∀ (w : Initiator) (t : Fin 13) (id : Fin 1024) (s : State), Lets w (R.IC_EOI_t t.1) true s → let u := entered w (R.IC_EOI_t t.1) s;
    (∀ p rest, u.ic.stack[t.1] = (id.1, p) :: rest → Does (.eoi w t id) s fun v => v.resp = ⟨.done, 0⟩ ∧ v.ic.stack[t.1] = rest ∧ v.ic.edge = u.ic.edge ∧
      (∀ k : Fin 13, k ≠ t → v.ic.stack[k.1] = u.ic.stack[k.1]) ∧ rd R.IC_EOI_ERR_CNT v = rd R.IC_EOI_ERR_CNT u ∧
      ((∀ e ∈ rest, e.1 ≠ id.1) → (∀ k : Fin 13, k ≠ t → ∀ e ∈ u.ic.stack[k.1], e.1 ≠ id.1) → srcActive id.1 v = false ∧
        (requesting id.1 u = true → ftst (F.IC_SRC_CFG_i_EN id.1) u = true → ftst (F.IC_SRC_CFG_i_PRIO id.1) u = true → srcPending id.1 v = true))) ∧
    ((∀ p rest, u.ic.stack[t.1] ≠ (id.1, p) :: rest) → exec (.eoi w t id) s = .next (bad (bump R.IC_EOI_ERR_CNT (ok u)))))

/-- R436, R438, R441, R442: the source that the IC presents to a target is pending and routed to it, stands above the running priority, and no other such source has a higher
priority, nor an equal one and a lower number; where the IC presents none to a target that runs, there is none. -/
def Obligations.PresentedInterruptIsTheBest : Prop :=
  (∀ (t : Fin 13) (i p : Nat) (s : State), icBest t s = some (i, p) →
    i < 1024 ∧ islOpen (targetIsl t.1) s = true ∧ srcPending i s = true ∧ fget (F.IC_SRC_CFG_i_TARGET i) s = t.1 ∧ fget (F.IC_SRC_CFG_i_PRIO i) s = p ∧ runPri t s < p ∧
      ∀ j, j < 1024 → srcPending j s = true → fget (F.IC_SRC_CFG_i_TARGET j) s = t.1 → runPri t s < fget (F.IC_SRC_CFG_i_PRIO j) s →
        fget (F.IC_SRC_CFG_i_PRIO j) s < p ∨ (fget (F.IC_SRC_CFG_i_PRIO j) s = p ∧ i ≤ j)) ∧
  (∀ (t : Fin 13) (s : State), icBest t s = none → islOpen (targetIsl t.1) s = true →
    ∀ j, j < 1024 → srcPending j s = true → fget (F.IC_SRC_CFG_i_TARGET j) s = t.1 → fget (F.IC_SRC_CFG_i_PRIO j) s ≤ runPri t s) ∧
  (∀ (i : Nat) (s : State), srcPending i s = true ↔
    fget (F.IC_SRC_CFG_i_EN i) s ≠ 0 ∧ fget (F.IC_SRC_CFG_i_PRIO i) s ≠ 0 ∧ requesting i s = true ∧ ∀ k : Fin 13, ∀ e ∈ s.ic.stack[k.1], e.1 ≠ i) ∧
  (∀ (i : Nat) (s : State), fget (F.IC_SRC_CFG_i_PRIO i) s ≤ 31 ∧ (fget (F.IC_SRC_CFG_i_PRIO i) s = 0 →
    (∀ (t : Fin 13) (p : Nat), icBest t s ≠ some (i, p)) ∧ ∀ e : Fin 24, i < 1024 → ((icSettle s).ic.bits[e.1]).getLsbD i = (s.ic.bits[e.1]).getLsbD i))

/-- R406, R446, R447, R448, R450, R471, R472, R486: vector assist on a pair, and WCALL on a hart. The trap cause numbers are the model's (log entry 22). -/
def Obligations.VectorAssistAndWcall : Prop :=
  (∀ (p : Fin 4) (r : PairRegs) (s : State), let t := pairTarget p
    ftst (F.IC_VA_CFG_t_EN t.1) s = true → islOpen (islL p) s = true →
    (r.mode = .u ∨ r.mstatus.getLsbD 3 = true → icBest t s ≠ none →
      (dtcm p (r.sp - 96).toNat 96 = none → exec (.vectorEntry p r) s = .next { s with pair := s.pair.set p.1 (pairFault 7 (r.sp - 96).toNat r) p.2 }) ∧
      (∀ a i q, dtcm p (r.sp - 96).toNat 96 = some a → (icStack t s).length < 16 → icBest t (advance 16 s) = some (i, q) → i ≠ 0 → Does (.vectorEntry p r) s fun v =>
        let x := v.pair[p.1]
        x.sp = r.sp - 96 ∧ x.mode = .m ∧ x.mepc = r.pc ∧ x.x = r.x ∧ x.fcsr = r.fcsr ∧ x.mstatus.getLsbD 3 = true ∧ v.ic.stack[t.1] = (i, q) :: s.ic.stack[t.1] ∧ v.now = s.now + 32 ∧
        (∀ k : Fin 16, mrdN (a + 4 * k.1) 4 v = (r.x[k.1]).toNat) ∧ mrdN (a + 64) 4 v = r.pc.toNat ∧ mrdN (a + 72) 4 v = r.fcsr.toNat ∧ mrdN (a + 76) 4 v = i % 2 ^ 32 ∧
        (∀ b, b < a ∨ a + 96 ≤ b → mrd b v = mrd b s)) ∧
      (∀ a, dtcm p (r.sp - 96).toNat 96 = some a → (icStack t s).length < 16 → icBest t (advance 16 s) = none → Does (.vectorEntry p r) s fun v =>
        v.pair[p.1] = r ∧ v.ic.stack = s.ic.stack ∧ SameMem s v)) ∧
    (icStack t s ≠ [] → ∀ a, dtcm p r.sp.toNat 96 = some a →
      (icBest t (icPop t s) = none → Does (.assistedMret p r) s fun v => v.ic.stack[t.1] = (s.ic.stack[t.1]).tail ∧ v.pair[p.1] = pairReturn (frameRegs a r s) ∧ SameMem s v) ∧
      (∀ i q, icBest t (icPop t s) = some (i, q) → i ≠ 0 → (icStack t s).length ≤ 16 → Does (.assistedMret p r) s fun v => v.ic.stack[t.1] = (i, q) :: (s.ic.stack[t.1]).tail ∧
        mrdN (a + 76) 4 v = i % 2 ^ 32 ∧ (∀ b, b < a + 76 ∨ a + 80 ≤ b → mrd b v = mrd b s) ∧ ({ v.pair[p.1] with pc := r.pc } = r)))) ∧
  (∀ (h : Fin 8) (c : HartCtx) (s : State), (s.harts[h.1]).parked = false → (s.harts[h.1]).bistHeld = false → islOpen (targetIsl h.1) s = true →
    ((s.harts[h.1]).world = false → c.mode ≠ .u → c.virt = false → ftst F.OWN_HWDT_STAT_IN_RESTART s = false → Does (.wcall h c) s fun t =>
      let x := t.harts[h.1]
      x.world = true ∧ x.mepc = c.pc ∧ x.mcause = 24 ∧ x.mpp = c.mode ∧ x.mpie = c.mie ∧ x.mie = false ∧ x.mode = .m ∧ x.a0 = c.a0 ∧
      x.pc = BitVec.ofNat 64 (fget F.OWN_ANVIL_VEC_LO s + 2 ^ 32 * fget F.OWN_ANVIL_VEC_HI s) ∧ ftst (F.OWN_HART_CFG_h_WORLD h.1) t = true ∧ SameMem s t) ∧
    ((s.harts[h.1]).world = false → c.mode ≠ .u → c.virt = false → ftst F.OWN_HWDT_STAT_IN_RESTART s = true → Does (.wcall h c) s fun t =>
      let x := t.harts[h.1]
      x.world = false ∧ x.a0 = BitVec.ofInt 64 (-16) ∧ x.pc = c.pc + 4 ∧ x.mode = c.mode) ∧
    ((s.harts[h.1]).world = false → c.mode = .u → Does (.wcall h c) s fun t => (t.harts[h.1]).exc = 2 ∧ (t.harts[h.1]).world = false) ∧
    ((s.harts[h.1]).world = false → c.mode = .s → c.virt = true → Does (.wcall h c) s fun t => (t.harts[h.1]).exc = 22 ∧ (t.harts[h.1]).world = false) ∧
    ((s.harts[h.1]).world = true → Does (.wcall h c) s fun t =>
      let x := t.harts[h.1]
      x.world = false ∧ x.mode = c.mpp ∧ x.mie = c.mpie ∧ x.pc = c.mepc + 4 ∧ x.a0 = c.a0 ∧ ftst (F.OWN_HART_CFG_h_WORLD h.1) t = false ∧ SameMem s t))

/-- R454, R455, R462: a sleep request is refused or begins the entry, whose steps follow one another as the islands of each have stopped. -/
def Obligations.SleepRequestsAndEntry : Prop :=
  (∀ (w : Initiator) (deep : Bool) (s : State), Lets w R.HERON_SLEEP_CMD true s → let u := entered w R.HERON_SLEEP_CMD s; let c : Instr := if deep then .sleepDeep w else .sleepStandby w
    (sleepRefused (ok u) = true → exec c s = .next (bad (raise F.HERON_EVENT 1 (ok u)))) ∧
    (sleepRefused (ok u) = false → ∃ v : State, exec c s = .next (sleepBegin 1 v) ∧ v.heron = { HeronSt.init with deep := deep, rtcBase := u.heron.rtcBase } ∧
      heronState v = 1 ∧ fget F.HERON_WAKE_SRC_INPUT v = 0xFF ∧ fget F.HERON_WAKE_SRC_WATCH v = 0xFF ∧ fget F.HERON_WAKE_SRC_TAMPER v = 0 ∧
      v.resp = ⟨.done, 0⟩ ∧ SameMem u v ∧ SameRegsBut [R.HERON_STATUS, R.HERON_WAKE_SRC] u v)) ∧
  (∀ s : State, sleepRefused s = true ↔ heronState s ≠ 0 ∨ anyLatched s = true ∨ rd R.OWN_KEEPALIVE s ≠ 0 ∨ (∃ k i, k < 64 ∧ watched k s = some i ∧ requesting i s = true) ∨
    ∃ g : Fin 35, segState g s ≠ segDisabled ∧ segState g s ≠ segSleep ∧ segState g s ≠ segIsolated) ∧
  (∀ s : State, heronState s = 1 → (sleepGroup s.heron.step).any (fun i => stopping i s) = false → (sleepGroup s.heron.step).any (fun i => islOpen i s) = false →
    (s.heron.step = 1 ∨ s.heron.step = 2 ∨ s.heron.step = 3 → exec .sleepEntryStep s = .next (sleepBegin (s.heron.step + 1) s)) ∧
    (s.heron.step = 4 → exec .sleepEntryStep s = .next (sleepBegin 5 (lanesSilent s))) ∧
    (s.heron.step = 5 → s.heron.deep = false → Does .sleepEntryStep s fun t => heronState t = 2 ∧ t.blw.wdOn = false ∧ SameMem s t ∧ t.railA = s.railA ∧ t.railB = s.railB) ∧
    (s.heron.step = 5 → s.heron.deep = true → Does .sleepEntryStep s fun t => heronState t = 3 ∧ t.blw.wdOn = false ∧ t.railA = false ∧ t.railB = false ∧
      ∀ i : Fin 21, i ≠ islPEAT → islSt i t = .off)) ∧
  (∀ (s : State), (sleepBegin 2 s).heron.rec_ = some (vt s, s.now))

/-- R393, R452, R453, R455, R456, R457, R555, R577: what wakes the Z480, and what a wake does in each of Heron's states. -/
def Obligations.Wakes : Prop :=
  (∀ (n : Fin 85) (s : State), let en := (rd (R.HERON_WAKE_EN_k (n.1 / 32)) s).getLsbD (n.1 % 32)
    (heronState s = 0 ∨ en = false → exec (.heronWake (.input n)) s = .next s) ∧
    (heronState s ≠ 0 → en = true → n.1 ≠ 84 → exec (.heronWake (.input n)) s = .next (wakeBy F.HERON_WAKE_SRC_INPUT n.1 (latchBit R.HERON_WAKE_LATCH_k n.1 s)))) ∧
  (∀ s : State, heronState s ≠ 0 → ftst F.TAMP_STATUS_TAMPER_LATCH s = true → exec (.heronWake .tamper) s = .next (wakeBy F.HERON_WAKE_SRC_TAMPER 1 s)) ∧
  (∀ (k : Fin 64) (i : Nat) (s : State), watched k.1 s = some i →
    (heronState s ≠ 0 → requesting i s = true → s.heron.deep = false ∨ deepSource i = true →
      exec (.watchedSourceWake k) s = .next (wakeBy F.HERON_WAKE_SRC_WATCH k.1 (latchBit R.HERON_WATCH_LATCH_k k.1 s))) ∧
    (heronState s = 0 ∨ requesting i s = false → exec (.watchedSourceWake k) s = .next s)) ∧
  (∀ (f : Fld) (v : Nat) (s : State), (firstWake s = true → wakeBy f v s = wakeUp (fput f v s)) ∧ (firstWake s = false → wakeBy f v s = wakeUp s)) ∧
  (∀ s : State,
    (heronState s = 1 → heronState (wakeUp s) = 0 ∧ fbit F.HERON_EVENT 2 (wakeUp s) = true ∧ (wakeUp s).heron.step = 0) ∧
    (heronState s = 2 → wakeUp s = wakeStandby (raise F.HERON_EVENT 0 s)) ∧
    (heronState s = 3 → heronState (wakeUp s) = 4 ∧ fbit F.HERON_EVENT 0 (wakeUp s) = true ∧ (wakeUp s).heron.due = s.now + clampNat 1 100 (fget F.HERON_VREG_DELAY_MS s) * 1000000) ∧
    (heronState s = 4 → wakeUp s = s)) ∧
  (∀ s : State, heronState s = 4 → s.heron.deep = false → s.heron.due ≤ s.now → exec .wakeOrderStep s = .next (orderStep s) ∧
    (orderFrom s.heron.order s = [] → heronState (orderStep s) = 0) ∧
    (∀ k i, orderFrom s.heron.order s = [(k, i)] → s.isl[i.1].blw = false → orderStep s = setHeron 0 (wakeIsl i s)) ∧
    (∀ k i j rest, orderFrom s.heron.order s = (k, i) :: j :: rest → s.isl[i.1].blw = false →
      orderStep s = updHeron (fun h => { h with order := k + 1, due := (wakeIsl i s).now + fget (F.HERON_ORDER_k_DELAY_US k) (wakeIsl i s) * 1000 }) (wakeIsl i s))) ∧
  (∀ s : State, heronState s = 4 → s.heron.deep = true → s.heron.due ≤ s.now → ∃ v : State, exec .vregDelayEnd s = .next (chipReset kindDeepWake 0 v) ∧
    epoch v = (epoch s + 1) % 2 ^ 16 ∧ SameMem s v) ∧
  (∀ (mv : Vector Nat 48) (s : State), (heronState s = 3 → exec (.diPoll mv) s = .next (forFin 48 (diPollOne (diCompare mv s).fio.closed) (diCompare mv s))) ∧
    (heronState s ≠ 3 → exec (.diPoll mv) s = .next s)) ∧
  (∀ (l : BitVec 48) (i : Fin 48) (s : State), let v := l.getLsbD i.1 != ftst (F.FIO_DI_CFG_i_INV i.1) s
    (ftst (F.FIO_DI_CFG_i_WAKE_EN i.1) s = false → diPollOne l i s = s) ∧
    (s.fio.pollLast.getLsbD i.1 ≠ v ∨ s.fio.pollBase.getLsbD i.1 = v → ∀ a, rd a (diPollOne l i s) = rd a s) ∧
    (ftst (F.FIO_DI_CFG_i_WAKE_EN i.1) s = true → s.fio.pollLast.getLsbD i.1 = v → s.fio.pollBase.getLsbD i.1 ≠ v → fget (F.FIO_DI_CFG_i_WAKE_EDGE i.1) s = 0 →
      ∃ x : FioSt, diPollOne l i s = wakeInput i.1 { s with fio := x } ∧ x.pollLast.getLsbD i.1 = v ∧ x.pollBase.getLsbD i.1 = v)) ∧
  (∀ (src : Fin 7) (s : State),
    (tamperWatched src s = false ∨ s.key.alarms.contains src.1 = true → exec (.tamperAlarm src) s = .next s) ∧
    (tamperWatched src s = true → s.key.alarms.contains src.1 = false → ∃ v : State, exec (.tamperAlarm src) s = .next (quench src v) ∧
      v.key.alarms = s.key.alarms ++ [src.1] ∧ ftst F.TAMP_STATUS_ACTIVE v = true ∧ SameMem s v))

/-! ### Hearth (chapter 13) -/

/-- R466, R467, R469, R470, R475, R476, R477, R479, R480, R489: the ownership check, invalidation, violation records, and the hand-over of a tongs block. -/
def Obligations.OwnershipAndTongs : Prop :=
  (∀ (w : Initiator) (a : Nat) (wr_ : Bool) (s : State), inUnowned a s = false →
    (ftst F.OWN_CTRL_EN s = false ∨ initWorld w s = true → initCheck w a wr_ s = (true, s)) ∧
    (ftst F.OWN_CTRL_EN s = true → initWorld w s = false → inOwnTable a s = true → initCheck w a wr_ s = (false, violateBy w a wr_ 0 s)) ∧
    (∀ p, ftst F.OWN_CTRL_EN s = true → initWorld w s = false → inOwnTable a s = false → ownEntryAddr a s = some p →
      (s.own.cache.find? fun c => c.port == initPort w && c.page == a / 4096) = none →
      ((initCheck w a wr_ s).1 = true ↔ let e := mrdN p 2 s
        wordBad p s = false ∧ bits e 15 9 = 0 ∧ (bits e 1 0 = 1 ∧ (bits e 6 2 = initInst w s ∨ bits e 8 8 = 1) ∨ wr_ = false ∧ bits e 7 7 = 1)) ∧ SameMem s (initCheck w a wr_ s).2 ∧
      (wordBad p s = true → initCheck w a wr_ s = (false, raise F.OWN_EVENT 2 (violate (initCode w) (initWorld w s) (initInst w s) a wr_ 1 (eccLog p 0x40 true false (bump R.OWN_CACHE_MISS_CNT s))))))) ∧
  (∀ (w : Initiator) (a : Nat) (wr_ : Bool) (s : State), inUnowned a s = true → initWorld w s = false →
    initCheck w a wr_ s = (false, bump R.OWN_TONGS_BLOCKED_CNT (violateBy w a wr_ 3 s))) ∧
  (∀ (w : Initiator) (a : Nat) (wr_ : Bool) (c : Nat) (s : State), let t := violateBy w a wr_ c s
    rd R.OWN_VIOL_CNT t = rd R.OWN_VIOL_CNT (bump R.OWN_VIOL_CNT s) ∧ fbit F.OWN_EVENT 0 t = true ∧ SameMem s t ∧
    (s.own.viol.length < 16 → t.own.viol = s.own.viol ++ [⟨a, initCode w, initWorld w s, initInst w s, wr_, c⟩]) ∧ (16 ≤ s.own.viol.length → t.own.viol = s.own.viol ∧ fbit F.OWN_EVENT 1 t = true)) ∧
  (∀ (w : Initiator) (all : Bool) (s : State), Lets w R.OWN_INVAL_CMD true s → let u := entered w R.OWN_INVAL_CMD s; initWorld w u = true → let c : Instr := if all then .invalAll w else .invalPage w
    (ftst F.OWN_INVAL_CMD_BUSY u = true → exec c s = .next (bad (ok u))) ∧
    (ftst F.OWN_INVAL_CMD_BUSY u = false → exec c s = .next (fput F.OWN_INVAL_CMD_BUSY 1 (updOwn (fun o => { o with inval := some (if all then none else some (fget F.OWN_INVAL_ADDR_PAGE u)) }) (ok u))))) ∧
  (∀ (p : Option Nat) (s : State), s.own.inval = some p → Does .invalDone s fun t => fget F.OWN_INVAL_CMD_BUSY t = 0 ∧ t.own.inval = none ∧
    ∀ c, c ∈ t.own.cache ↔ c ∈ s.own.cache ∧ ∃ n, p = some n ∧ c.page ≠ n) ∧
  (∀ (w : Initiator) (s : State), Lets w R.OWN_VIOL_POP false s → let u := entered w R.OWN_VIOL_POP s;
    (u.own.viol = [] → exec (.violPop w) s = .next (answer .done 0xFFFFFFFF (ok u))) ∧
    (∀ v rest, u.own.viol = v :: rest → Does (.violPop w) s fun t => t.resp = ⟨.done, BitVec.ofNat 32 v.addr⟩ ∧ t.own.viol = rest ∧ sget (fun _ => 0) t.own.violShadow (initIdx w) = violInfo v)) ∧
  (∀ (w : Initiator) (b en : Bool) (s : State), Lets w R.OWN_CTRL true s → let u := entered w R.OWN_CTRL s; initWorld w u = true →
    exec (.l2ResChange w b en) s = .next (fput (if b then F.OWN_CTRL_L2_RES_B else F.OWN_CTRL_L2_RES_A) en.toNat (ok u))) ∧
  (∀ (w : Initiator) (k ni : Fin 32) (nw : Bool) (op : Fin 3) (s : State), Lets w R.OWN_TONGS_CMD true s → let u := entered w R.OWN_TONGS_CMD s; initWorld w u = true →
    let c : Instr := match op with
      | 0 => .tongsRequest w k nw ni
      | 1 => .tongsForce w k nw ni
      | 2 => .tongsGrant w k nw ni
    let st := tgState k.1 u
    let hasRow := (op = 0 ∧ st = 0) ∨ (op = 1 ∧ (st = 0 ∨ st = 1)) ∨ (op = 2 ∧ st = 3)
    let v := fput F.OWN_TONGS_CMD_NEW_INST ni.1 (fput F.OWN_TONGS_CMD_NEW_WORLD nw.toNat (fput F.OWN_TONGS_CMD_BLOCK k.1 (ok u)))
    (27 ≤ k.1 ∨ ftst F.OWN_TONGS_CMD_BUSY u = true ∨ ¬hasRow → exec c s = .next (bad (ok u))) ∧
    (k.1 < 27 → ftst F.OWN_TONGS_CMD_BUSY u = false → hasRow →
      exec c s = .next (match op with
        | 0 => tongsRequest k v
        | 1 => tongsReset k.1 true v
        | 2 => tongsGrant k.1 nw ni.1 v))) ∧
  (∀ (k : Fin 32) (s : State), k.1 < 27 → tgState k.1 (tongsRequest k s) = 1 ∧ (tongsRequest k s).own.tongsDue[k.1]? = some (s.now + clampNat 1 10000 (fget F.OWN_TONGS_CFG_TO_MS s) * 1000000)) ∧
  (∀ (k : Fin 27) (nw : Bool) (ni : Nat) (s : State), ni < 32 → let t := tongsGrant k.1 nw ni s
    tgState k.1 t = 0 ∧ ftst (F.OWN_BLK_k_WORLD k.1) t = nw ∧ fget (F.OWN_BLK_k_INST k.1) t = ni ∧ (∀ c ∈ t.own.cache, tongsBlockAt (4096 * c.page) ≠ some k.1)) ∧
  (∀ (w : Initiator) (k : Fin 32) (s : State), Lets w R.OWN_TONGS_REL true s → let u := entered w R.OWN_TONGS_REL s;
    (k.1 < 27 → blockOwner w k.1 (ok u) = true → tgState k.1 u ≤ 1 → exec (.tongsRel w k) s = .next (tongsReset k.1 false (ok u))) ∧
    (27 ≤ k.1 ∨ blockOwner w k.1 (ok u) = false ∨ 2 ≤ tgState k.1 u → exec (.tongsRel w k) s = .next (bad (violateBy w R.OWN_TONGS_REL true 3 (ok u))))) ∧
  (∀ (k : Fin 27) (s : State), tgState k.1 s = 1 → s.own.tongsDue[k.1] ≠ 0 → s.own.tongsDue[k.1] ≤ s.now →
    let v := raise F.OWN_EVENT 6 (updOwn (fun o => { o with tongsDue := upd o.tongsDue k fun _ => 0 }) s)
    exec (.tongsTimeout k) s = .next (if ftst F.OWN_TONGS_CFG_AUTO_FORCE s then tongsReset k.1 true v else v)) ∧
  (∀ (k : Fin 27) (s : State), tgState k.1 s = 2 → Does (.tongsDone k) s fun t => tgState k.1 t = 3 ∧ fbit F.OWN_EVENT 5 t = true ∧ SameMem s t ∧
    ∀ (e : Fin 24) (q : Fin 24), ftst (F.ENG_QSLOT_q_EN e.1 q.1) s = true → qBlock (fget (F.ENG_QSLOT_q_QID e.1 q.1) s) = some k.1 → ftst (F.ENG_QSLOT_q_GONE e.1 q.1) t = true) ∧
  (∀ (w : Initiator) (s : State), Lets w R.OWN_CNT_CLR true s → let u := entered w R.OWN_CNT_CLR s; initWorld w u = true → exec (.ownCntClr w) s = .next (clearRegs ownCounters (ok u)))

/-- R473, R482, R483, R485, R486, R487, R580: Anvil's time limit, keep-alive votes, the life cycle, the Hearth watchdog and the restart of Hearth. -/
def Obligations.HearthWatchdogAndLifeCycle : Prop :=
  (∀ (h : Fin 8) (s : State), (s.harts[h.1]).world = true → (s.harts[h.1]).anvilSince + clampNat 10 10000 (fget F.OWN_ANVIL_MAX_US s) * 1000 ≤ s.now →
    Does (.anvilTimeout h) s fun t => let x := t.harts[h.1]; let y := s.harts[h.1]
      x.world = false ∧ x.a0 = BitVec.ofInt 64 (-17) ∧ x.mode = y.mpp ∧ x.mie = y.mpie ∧ x.pc = y.mepc + 4 ∧ fbit F.OWN_EVENT 4 t = true ∧ SameMem s t) ∧
  (∀ (w : Initiator) (v : Word) (s : State), Lets w R.OWN_KEEPALIVE true s → let u := entered w R.OWN_KEEPALIVE s;
    (initWorld w u = false → exec (.keepalive w v) s = .next (bad (ok u))) ∧
    (initWorld w u = true → exec (.keepalive w v) s = .next (keepAlive v (ok u)))) ∧
  (∀ (v : Word) (s : State), (∀ i : Fin 21, islSt i s = .run) → (∀ i : Fin 21, (s.isl[i.1]).held = false) → keepAlive v s = wr R.OWN_KEEPALIVE (v &&& 0x1FFFFF) s) ∧
  (∀ (w : Initiator) (target : Fin 4) (code : BitVec 16) (s : State), Lets w R.OWN_LC_CMD true s → let u := entered w R.OWN_LC_CMD s; initWorld w u = true →
    let allowed := (u.own.lcPending = 0 ∧ (target = 1 ∨ target = 2)) ∨ (u.own.lcPending = 2 ∧ target = 3)
    (code = 0x4C43 → allowed → fuseSupply u = true →
      exec (.lcCmd w target code) s = .next (fput F.OWN_LC_STAT_RESULT Status.done.code (updOwn (fun o => { o with lcPending := target.1 }) (ok u)))) ∧
    (code ≠ 0x4C43 ∨ ¬allowed ∨ fuseSupply u = false → exec (.lcCmd w target code) s = .next (fput F.OWN_LC_STAT_RESULT Status.failedRefused.code (ok u)))) ∧
  (∀ (w : Initiator) (v : Word) (s : State), Lets w R.OWN_HWDT_KICK true s → let u := entered w R.OWN_HWDT_KICK s;
    (w = .hc → v = 0xC35A → ftst F.OWN_HWDT_STAT_IN_RESTART u = false →
      exec (.hwdtKick w v) s = .next (updOwn (fun o => { o with kickDue := u.now + clampNat 10 1000 (fget F.OWN_HWDT_CFG_PERIOD_MS u) * 1000000 }) (ok u))) ∧
    (w ≠ .hc ∨ v ≠ 0xC35A → exec (.hwdtKick w v) s = .next (hearthExpiry 1 (ok u)))) ∧
  (∀ s : State, s.own.kickDue ≠ 0 → s.own.kickDue ≤ s.now → exec .hearthRestart s = .next (hearthExpiry 1 s)) ∧
  (∀ s : State, exec .hcLockstep s = .next (hearthExpiry 4 s)) ∧
  (∀ (d : Nat) (s : State), (s.own.firstExpiry = none → hearthExpiry d s = hearthRestart s) ∧
    (∀ t, s.own.firstExpiry = some t → (s.now ≤ t + 10000000000 → hearthExpiry d s = chipReset kindHearth d s) ∧ (t + 10000000000 < s.now → hearthExpiry d s = hearthRestart s))) ∧
  (∀ s : State, let t := hearthRestart s
    fget F.OWN_HWDT_STAT_IN_RESTART t = 1 ∧ fget F.OWN_HWDT_STAT_SERVICE_UP t = 0 ∧ fbit F.OWN_EVENT 7 t = true ∧ t.own.firstExpiry = some s.now ∧ t.own.kickDue = s.now + 100000000 ∧ t.cwy.hcBoot = true ∧
    ∀ h : Fin 8, (t.harts[h.1]).world = false ∧ ((s.harts[h.1]).world = true → (t.harts[h.1]).a0 = BitVec.ofInt 64 (-16) ∧ (t.harts[h.1]).pc = (s.harts[h.1]).mepc + 4) ∧
      ((s.harts[h.1]).world = false → t.harts[h.1] = s.harts[h.1])) ∧
  (∀ (t0 : Nat) (s : State), ftst F.OWN_HWDT_STAT_IN_RESTART s = true → s.cwy.hcBoot = true → s.own.firstExpiry = some t0 →
    let u := elapseTo (t0 + 100000) s; let k := fget F.SYSCTL_BOOT_STATUS_SLOT u
    exec .hearthImageVerify s = .next (
      if signatureOk k u = false then chipReset kindHearth 2 u
      else if sha512 (hearthImage k u) ≠ measBytes u then chipReset kindHearth 3 u
      else updCwy (fun c => { c with hcBoot := false }) (mwrBytes (tcmBase 4) (hearthImage k u) u))) ∧
  (∀ (w : Initiator) (s : State), Lets w R.OWN_HWDT_STAT true s → let u := entered w R.OWN_HWDT_STAT s; initWorld w u = true → Does (.serviceUp w) s fun t =>
    fget F.OWN_HWDT_STAT_IN_RESTART t = 0 ∧ fget F.OWN_HWDT_STAT_SERVICE_UP t = 1 ∧ t.resp = ⟨.done, 0⟩ ∧
    t.own.kickDue = if ftst F.OWN_HWDT_STAT_IN_RESTART u then u.now + clampNat 10 1000 (fget F.OWN_HWDT_CFG_PERIOD_MS u) * 1000000 else u.own.kickDue)

/-! ### Virtual instances (chapter 14) -/

/-- R490, R493, R495, R498, R500, R501, R502, R503, R505: a pair's descriptors are offered, fetched, checked, admitted to a target and completed. -/
def Obligations.VirtualInstanceItems : Prop :=
  (∀ (w : Initiator) (i : Fin 32) (p : Fin 8) (v : BitVec 13) (s : State), Lets w (R.VQI_SQ_TAIL_i_p i.1 p.1) true s → let u := entered w (R.VQI_SQ_TAIL_i_p i.1 p.1) s;
    exec (.sqTail w i p v) s = .next (fput (F.VQI_SQ_TAIL_i_p i.1 p.1) v.toNat (ok u))) ∧
  (∀ (i : Fin 32) (p : Fin 8) (s : State),
    (canFetch i p s = false → exec (.vqiFetch i p) s = .next s) ∧
    (canFetch i p s = true →
      let h := fget (F.VQI_SQ_HEAD_i_p i.1 p.1) s % sqEntries i p s
      let a := addrOf (F.VQI_SQ_BASE_LO_i_p i.1 p.1) (F.VQI_SQ_BASE_HI_i_p i.1 p.1) s + 32 * h
      let r := dmaRead (vqiIdent i s) a 32 s
      let x := r.2
      (r.1 = none → exec (.vqiFetch i p) s = .next (fput (F.VQI_PAIR_STATUS_i_p_FAULT i.1 p.1) 1 x)) ∧
      (∀ d, r.1 = some d →
        let y : VqiItem := ⟨x.vqi.nextId, i, p, h, vqiGen i x, d, .fetched, none⟩
        ∃ v : State, exec (.vqiFetch i p) s = .next (fetchChecks y v) ∧ v.vqi.items = x.vqi.items ++ [y] ∧ fget (F.VQI_SQ_HEAD_i_p i.1 p.1) v = (h + 1) % sqEntries i p s ∧ SameMem s v))) ∧
  (∀ (i : Fin 32) (p : Fin 8) (s : State), canFetch i p s = true → vqiState i s = vqiActive ∧ ftst (F.VQI_RING_SIZE_i_p_EN i.1 p.1) s = true ∧ 0 < cqFree i p s ∧
    ftst (F.VQI_PAIR_STATUS_i_p_FAULT i.1 p.1) s = false ∧ fget (F.VQI_SQ_HEAD_i_p i.1 p.1) s % sqEntries i p s ≠ fget (F.VQI_SQ_TAIL_i_p i.1 p.1) s % sqEntries i p s) ∧
  (∀ (x : VqiItem) (s : State),
    (descOk x s = false → fetchChecks x s = fetchEnd x .failedRefused (putPlace x .taken s)) ∧
    (descOk x s = true → x.op = 0x02 → fetchChecks x s = putPlace x .rxbuf s) ∧
    (descOk x s = true → x.op = 0x10 → fetchChecks x s = if canSource x.inst (x.field 16 4) s then s else spoof x s) ∧
    (descOk x s = true → x.op = 0x20 → fetchChecks x s = if sigSource x.inst (x.field 16 4) s then s else spoof x s) ∧
    (descOk x s = true → x.op = 0x30 → fetchChecks x s = s) ∧
    (let r := dmaRead (vqiIdent x.inst s) (x.field 8 5) (x.field 2 2) s
      ∀ b, descOk x s = true → x.op = 0x01 → r.1 = some b → fetchChecks x s = if ethSource x.inst b r.2 then r.2 else spoof x r.2)) ∧
  (∀ (i : Fin 32) (id : Nat) (s : State), canSource i id s = true ↔ ∃ k, k < 8 ∧ ftst (F.VQI_CAN_LO_i_k_EN i.1 k) s = true ∧
    fget (F.VQI_CAN_LO_i_k_ID i.1 k) s ≤ id % 2 ^ 30 ∧ id % 2 ^ 30 ≤ fget (F.VQI_CAN_HI_i_k_ID i.1 k) s) ∧
  (∀ (x : VqiItem) (s : State), let t := spoof x s
    t.vqi.done = s.vqi.done ++ [⟨x.id, x.inst, x.gen, .failedRefused, 0, 0, none⟩] ∧ rd (R.VQI_SPOOF_CNT_i x.inst.1) t = rd (R.VQI_SPOOF_CNT_i x.inst.1) (bump (R.VQI_SPOOF_CNT_i x.inst.1) s) ∧
    fbit F.VQI_MGR_EVENT_EVENT 0 t = true ∧ fget F.VQI_MGR_LAST_INST t = x.inst.1 ∧ SameMem s t) ∧
  (∀ (t : Fin 4) (take : Bool) (s : State), islOpen islSWP s = true → let v := if take then targetTakes t s else s
    (v.vqi.passed[t.1] < 1024 → exec (.admissionSlot t take) s = .next (giveSlot t v)) ∧ (1024 ≤ v.vqi.passed[t.1] → exec (.admissionSlot t take) s = .next v)) ∧
  (∀ (t : Fin 4) (i : Fin 32) (x : VqiItem) (s : State), t ≠ 2 → s.vqi.passed[t.1] < 1024 → (s.vqi.items.filter fun y => y.place == .admitted && y.target s == t).length < 1024 →
    slotInst t s = some i → nextItem t i s = some x → ∃ v : State, giveSlot t s = admitItem x v ∧ v.vqi.passed[t.1] = s.vqi.passed[t.1] + 1 ∧ v.vqi.items = s.vqi.items ∧
      slotsTaken t i v = slotsTaken t i s + 1) ∧
  (∀ (t : Fin 4) (i : Fin 32) (s : State), slotInst t s = some i → vqiOcc i t s < s.vqi.share[i.1] ∧ (nextItem t i s).isSome = true) ∧
  (∀ s : State, exec .shareRoundBoundary s = .next (forFin 32 newShare (updVqi (fun v => { v with passed := Vector.replicate 4 0, took := [] }) s))) ∧
  (∀ (i : Fin 32) (s : State), let n := fget (F.VQI_SHARE_i i.1) s
    (s.vqi.share[i.1] = n → newShare i s = s) ∧ ((newShare i s).vqi.share[i.1] = n) ∧
    (s.vqi.share[i.1] ≠ n → vqiState i s ≠ vqiDisabled → (∃ t : Fin 4, n ≤ vqiOcc i t s ∧ 0 < vqiOcc i t s) →
      fget (F.VQI_STATE_i_OVER_SHARE i.1) (newShare i s) = 1 ∧ fbit F.VQI_MGR_EVENT_EVENT 1 (newShare i s) = true ∧ (newShare i s).vqi.items = s.vqi.items)) ∧
  (∀ (d : VqiDone) (rest : List VqiDone) (s : State), s.vqi.done = d :: rest → let v := updVqi (fun x => { x with done := rest }) s
    ((∀ x ∈ s.vqi.items, x.id = d.id → x.gen ≠ d.gen) → exec .vqiCompletion s = .next (raise F.VQI_MGR_EVENT_EVENT 4 (bump (R.VQI_STALE_CNT_i d.inst.1) v))) ∧
    (∀ x, (s.vqi.items.find? fun y => y.id == d.id && y.gen == d.gen) = some x → exec .vqiCompletion s = .next (freezeCheck x.inst (vqiRecord x d v))))

/-- R501, R503, R504, R506, R507, R509, R510, R512: the states of an instance, its resets, its share, its migration and its counters. -/
def Obligations.VirtualInstanceStates : Prop :=
  (∀ (w : Initiator) (i : Fin 32) (s : State), Lets w (R.VQI_ICMD_i i.1) true s → let u := entered w (R.VQI_ICMD_i i.1) s;
    (vqiState i u = 1 → exec (.instanceReset w i) s = .next (vqiReset i 1 (ok u))) ∧ (vqiState i u = 0 → exec (.instanceReset w i) s = .next (ok u)) ∧
    (2 ≤ vqiState i u → exec (.instanceReset w i) s = .next (bad (ok u)))) ∧
  (∀ (w : Initiator) (i : Fin 32) (s : State), Lets w (R.VQI_CMD_i i.1) true s → let u := entered w (R.VQI_CMD_i i.1) s;
    (vqiState i u ≠ 0 → exec (.managerReset w i) s = .next (vqiReset i 1 (ok u))) ∧ (vqiState i u = 0 → exec (.managerReset w i) s = .next (ok u)) ∧
    (vqiState i u ≠ 1 → exec (.freeze w i) s = .next (bad (ok u))) ∧
    (vqiState i u = 1 → ∃ v : State, exec (.freeze w i) s = .next (freezeCheck i v) ∧ vqiState i v = 2 ∧ v.vqi.freezeDue[i.1] = u.now + 2000000 ∧
      ∀ x ∈ v.vqi.items, x.inst = i → x.place ≠ .rxbuf) ∧
    (vqiState i u = 3 → exec (.thaw w i) s = .next (putVqiState i 1 (ok u))) ∧ (vqiState i u ≠ 3 → exec (.thaw w i) s = .next (bad (ok u)))) ∧
  (∀ (i : Fin 32) (st : Fin 4) (s : State), let t := vqiReset i st.1 s
    vqiState i t = st.1 ∧ vqiGen i t = (vqiGen i s + 1) % 2 ^ 16 ∧ (∀ x ∈ t.vqi.items, x.inst ≠ i) ∧ fget (F.VQI_STATE_i_OVER_SHARE i.1) t = 0 ∧
    ∀ p : Fin 8, fget (F.VQI_SQ_HEAD_i_p i.1 p.1) t = fget (F.VQI_SQ_TAIL_i_p i.1 p.1) s) ∧
  (∀ (i : Fin 32) (s : State), vqiState i s = 2 →
    ((s.vqi.items.any fun x => x.inst == i) = false → vqiState i (freezeCheck i s) = 3 ∧ fbit F.VQI_MGR_EVENT_EVENT 2 (freezeCheck i s) = true) ∧
    ((s.vqi.items.any fun x => x.inst == i) = true → freezeCheck i s = s) ∧
    (s.vqi.freezeDue[i.1] ≤ s.now → Does (.freezeTimeout i) s fun t => vqiState i t = 3 ∧ vqiGen i t = (vqiGen i s + 1) % 2 ^ 16 ∧ fbit F.VQI_MGR_EVENT_EVENT 2 t = true ∧
      ∀ x ∈ t.vqi.items, x.inst ≠ i)) ∧
  (∀ (w : Initiator) (i : Fin 32) (s : State), Lets w (R.VQI_CFG_i i.1) true s → let u := entered w (R.VQI_CFG_i i.1) s;
    (ftst (F.VQI_CFG_i_EN i.1) u = false → 1024 < shareSum u + fget (F.VQI_SHARE_i i.1) u → exec (.vqiEnable w i) s = .next (bad (ok u))) ∧
    (ftst (F.VQI_CFG_i_EN i.1) u = false → shareSum u + fget (F.VQI_SHARE_i i.1) u ≤ 1024 → Does (.vqiEnable w i) s fun t =>
      ftst (F.VQI_CFG_i_EN i.1) t = true ∧ vqiState i t = 1 ∧ vqiGen i t = vqiGen i u ∧ fget F.VQI_SHARE_SUM t = shareSum u + fget (F.VQI_SHARE_i i.1) u ∧ SameMem u t) ∧
    (vqiState i u ≠ 0 → exec (.vqiDisable w i) s = .next (showShare (fput (F.VQI_CFG_i_EN i.1) 0 (vqiReset i 0 (ok u))))) ∧ (vqiState i u = 0 → exec (.vqiDisable w i) s = .next (ok u))) ∧
  (∀ (w : Initiator) (i : Fin 32) (v : BitVec 11) (s : State), Lets w (R.VQI_SHARE_i i.1) true s → let u := entered w (R.VQI_SHARE_i i.1) s;
    let others := shareSum u - if ftst (F.VQI_CFG_i_EN i.1) u then fget (F.VQI_SHARE_i i.1) u else 0
    let bad_ := 1024 < v.toNat ∨ (ftst (F.VQI_CFG_i_EN i.1) u = true ∧ 1024 < others + v.toNat)
    (bad_ → exec (.shareWrite w i v) s = .next (bad (ok u))) ∧ (¬bad_ → exec (.shareWrite w i v) s = .next (showShare (fput (F.VQI_SHARE_i i.1) v.toNat (ok u))))) ∧
  (∀ (w : Initiator) (i : Fin 32) (s : State), Lets w R.VQI_MIG_CMD true s → let u := entered w R.VQI_MIG_CMD s;
    (u.vqi.mig ≠ none → exec (.migExport w i) s = .next (bad (ok u)) ∧ exec (.migRestore w i) s = .next (bad (ok u))) ∧
    (u.vqi.mig = none → vqiState i u ≠ 3 → exec (.migExport w i) s = .next (bad (ok u))) ∧
    (u.vqi.mig = none → vqiState i u = 3 → Does (.migExport w i) s fun t => t.vqi.mig = some (1, i, initWorld w t, initInst w t) ∧ rd R.VQI_MIG_SEQ t = rd R.VQI_MIG_SEQ u + 1 ∧
      fget F.VQI_MIG_CMD_BUSY t = 1) ∧
    (u.vqi.mig = none → Does (.migRestore w i) s fun t => t.vqi.mig = some (2, i, initWorld w t, initInst w t) ∧ rd R.VQI_MIG_SEQ t = rd R.VQI_MIG_SEQ u ∧ fget F.VQI_MIG_CMD_BUSY t = 1)) ∧
  (∀ (op : Nat) (i : Fin 32) (wd : Bool) (n : Nat) (s : State), s.vqi.mig = some (op, i, wd, n) → let w : Ident := ⟨17, 0x40, wd, n⟩
    (op = 1 → exec .migDone s = .next (migExport i w s)) ∧ (op ≠ 1 → exec .migDone s = .next (migRestore i w s))) ∧
  (∀ (i : Fin 32) (w : Ident) (s : State),
    (migKey s = none → migExport i w s = migEnd .failedRefused 0 s) ∧
    (∀ p, migKey s = some p → let r := dmaWrite w (migBuf s) (migRecord i s ++ hmac512 s.key.keys[p.1] (migRecord i s)) (useKey p s)
      r.1 = true → migExport i w s = migEnd .done 0 r.2) ∧
    (∀ r p, (dmaRead w (migBuf s) 512 s).1 = some r → migKey s = some p → let y := useKey p (dmaRead w (migBuf s) 512 s).2
      let tagOk := hmac512 y.key.keys[p.1] (r.take 448) = r.drop 448
      let magicOk := r.take 8 = ascii "Z480VQI1"
      (¬tagOk → migRestore i w s = migEnd .failedRefused 1 y) ∧ (tagOk → ¬magicOk → migRestore i w s = migEnd .failedRefused 2 y) ∧
      (tagOk → magicOk → migFieldsOk r = false → migRestore i w s = migEnd .failedRefused 3 y) ∧
      (tagOk → magicOk → migFieldsOk r = true → vqiState i y ≠ 0 → migRestore i w s = migEnd .failedRefused 4 y) ∧
      (tagOk → magicOk → migFieldsOk r = true → vqiState i y = 0 → 1024 < shareSum y + mf r 30 2 → migRestore i w s = migEnd .failedRefused 5 y) ∧
      (tagOk → magicOk → migFieldsOk r = true → vqiState i y = 0 → shareSum y + mf r 30 2 ≤ 1024 → migRestore i w s = migEnd .done 0 (migApply i r y)))) ∧
  (∀ (i : Fin 32) (r : List Byte) (s : State), vqiState i (migApply i r s) = 3 ∧ vqiGen i (migApply i r s) = (mf r 28 2 + 1) % 2 ^ 16) ∧
  (∀ (w : Initiator) (i : Fin 32) (s : State), Lets w (R.VQI_CNT_CLR_i i.1) true s → let u := entered w (R.VQI_CNT_CLR_i i.1) s; exec (.vqiCntClr w i) s = .next (clearRegs (vqiCounters i.1) (ok u)))

/-! ### The settings flash and boot (chapter 15) -/

/-- R518, R519, R520: commands to the settings flash are refused, run, are suspended and end. -/
def Obligations.FlashCommands : Prop :=
  (∀ (w : Initiator) (op : Fin 3) (e : BusEnd) (s : State), Lets w R.SYSCTL_XSPI_CMD true s → let u := entered w R.SYSCTL_XSPI_CMD s; initWorld w u = true →
    let c : Instr := match op with
      | 0 => .erase4k w
      | 1 => .erase64k w
      | 2 => .program w e
    let n := match op with
      | 0 => 4096
      | 1 => 65536
      | 2 => fget F.SYSCTL_XSPI_LEN u
    let a := fget F.SYSCTL_XSPI_ADDR u
    (ftst F.SYSCTL_XSPI_CMD_BUSY u = true → exec c s = .next (bad (ok u))) ∧
    (ftst F.SYSCTL_XSPI_CMD_BUSY u = false → xspiRefused (op.1 + 1) a n (ok u) = true → exec c s = .next (xspiEnd .failedRefused false (ok u))) ∧
    (ftst F.SYSCTL_XSPI_CMD_BUSY u = false → xspiRefused (op.1 + 1) a n (ok u) = false → op ≠ 2 → Does c s fun t =>
      fget F.SYSCTL_XSPI_CMD_BUSY t = 1 ∧ t.boot.cmd = some ⟨op.1 + 1, a, n, [], ftst F.SYSCTL_XSPI_STAT_CRASH_ACTIVE u, u.now + 2000000000, u.now, none⟩ ∧ t.flash = u.flash ∧ SameMem u t) ∧
    (ftst F.SYSCTL_XSPI_CMD_BUSY u = false → xspiRefused 3 a n (ok u) = false → op = 2 →
      (e = .busError → exec c s = .next (xspiEnd .failedBus false (ok u))) ∧ (e = .eccError → exec c s = .next (xspiEnd .failedEcc false (ok u))) ∧
      (∀ d, e = .ok → (unitRead (initIdent w (ok u)) ((rd R.SYSCTL_XSPI_SRC_LO u).toNat + 2 ^ 32 * fget F.SYSCTL_XSPI_SRC_HI u) n (ok u)).1 = some d → Does c s fun t =>
        fget F.SYSCTL_XSPI_CMD_BUSY t = 1 ∧ (∃ y, t.boot.cmd = some y ∧ y.op = 3 ∧ y.addr = a ∧ y.len = n ∧ y.data = d) ∧ t.flash = u.flash ∧ SameMem u t))) ∧
  (∀ (op a n : Nat) (s : State), xspiRefused op a n s = true ↔ flashSize s < a + n ∨ (a < 0x1000000 ∧ 0x500000 < a + n) ∨
    (op = 3 ∧ (n = 0 ∨ 4096 < n ∨ a / 4096 ≠ (a + n - 1) / 4096)) ∨ (op ≠ 3 ∧ a % n ≠ 0) ∨
    ∃ k, k < 2 ∧ let b := slotBase k s; a < b + slotSize s ∧ b < a + n ∧ (¬(b ≤ a ∧ a + n ≤ b + slotSize s) ∨ fget F.SYSCTL_BOOT_STATUS_SLOT s = k)) ∧
  (∀ (c : XspiCmd) (s : State), s.boot.cmd = some c → c.waiting = false →
    (c.susp = none → c.op ≠ 3 → ∀ d, exec (.cmdDone d) s = .next (xspiEnd .done false (ferase c.addr c.len s))) ∧
    (c.susp = none → c.op = 3 → let v := fprogBytes c.addr c.data s
      exec (.cmdDone true) s = .next (xspiEnd .failedBus true (flashOpen c.addr c.len s)) ∧
      (frdBytes c.addr c.len v = c.data → exec (.cmdDone false) s = .next (xspiEnd .done false v)) ∧
      (frdBytes c.addr c.len v ≠ c.data → exec (.cmdDone false) s = .next (xspiEnd .failedBus true v))) ∧
    (c.susp = none → c.due ≤ s.now → exec .xspiBusyTimeout s = .next (xspiEnd .failedTimeout false (flashOpen c.addr c.len s))) ∧
    (c.susp = none → c.grant ≤ s.now → exec .xspiSuspend s = .next (fput F.SYSCTL_XSPI_STAT_SUSPENDED 1 (updBoot (fun b => { b with cmd := some { c with susp := some s.now } }) s))) ∧
    (∀ t0, c.susp = some t0 → t0 + 20000 ≤ s.now → exec .xspiResume s = .next (fput F.SYSCTL_XSPI_STAT_SUSPENDED 0
      (updBoot (fun b => { b with cmd := some { c with susp := none, due := c.due + (s.now - t0), grant := s.now + 200000 } }) s)))) ∧
  (∀ (a n b : Nat) (s : State), frd b (ferase a n s) = if a ≤ b ∧ b < a + n then 0xFF else frd b s) ∧
  (∀ (a : Nat) (d : List Byte) (b : Nat) (s : State), (b < a ∨ a + d.length ≤ b → frd b (fprogBytes a d s) = frd b s) ∧
    (∀ k v, d[k]? = some v → frd (a + k) (fprogBytes a d s) = v &&& frd (a + k) s)) ∧
  (∀ (st : Status) (v : Bool) (s : State), st.code < 256 → let t := xspiEnd st v s
    t.boot.cmd = none ∧ fget F.SYSCTL_XSPI_CMD_BUSY t = 0 ∧ fget F.SYSCTL_XSPI_STAT_LAST t = st.code ∧ ftst F.SYSCTL_XSPI_STAT_VERIFY t = v ∧ fbit F.SYSCTL_XSPI_EVENT_EVENT 0 t = true ∧
    (st ≠ .done → fbit F.SYSCTL_XSPI_EVENT_EVENT 1 t = true) ∧ t.flash = s.flash)

/-- R420, R483, R515, R525, R528, R529, R530, R532, R535: the core die leaves reset and a slot is chosen; retries and the boot commands. Discovery and training are operands (log entry 28). -/
def Obligations.BootCommands : Prop :=
  (∀ (cap : Option (Fin 3)) (dram : Option (Fin 4 × Fin 4)) (full : Bool) (t0 : Nat) (s : State), s.boot.inReset = some t0 → t0 ≤ s.now → ∃ v : State,
    exec (.coreResetRelease cap dram full) s = .next (selectSlot v) ∧ ftst F.SYSCTL_BOOT_STATUS_TRAIN_FULL v = full ∧
    (∀ z, cap = some z → fget F.SYSCTL_XSPI_CAP_SIZE v = z.1 ∧ ftst F.SYSCTL_XSPI_CAP_OK v = true) ∧
    (∀ z r, dram = some (z, r) → fget F.MEM_DRAM_CFG_SIZE v = z.1 ∧ fget F.MEM_DRAM_CFG_RATE v = r.1 + 1 ∧ ftst F.MEM_DRAM_CFG_TRAINED v = true) ∧
    fget F.SYSCTL_BOOT_STATUS_KEYLESS v = fget F.TAMP_STATUS_TAMPER_LATCH v ∧ v.boot.inReset = none) ∧
  (∀ (cap : Option (Fin 3)) (dram : Option (Fin 4 × Fin 4)) (full : Bool) (s : State), s.boot.inReset = none → exec (.coreResetRelease cap dram full) s = .next s) ∧
  (∀ s : State, s.boot.retryAt ≠ 0 → s.boot.retryAt ≤ s.now → exec .bootRetry s = .next (selectSlot (bump R.SYSCTL_BOOT_RETRIES s))) ∧
  (∀ s : State, let t := selectSlot s
    match (chooseSlot s).1 with
    | none => fget F.SYSCTL_BOOT_STATUS_SLOT t = 3 ∧ fget F.SYSCTL_BOOT_STATUS_RESULT t = 2 ∧ t.boot.retryAt = s.now + 2000000000 ∧ t.cwy.hcBoot = s.cwy.hcBoot ∧ SameMem s t
    | some k => t.cwy.hcBoot = false ∧ t.boot.retryAt = 0 ∧ t.boot.exclude = none ∧ fget F.SYSCTL_BOOT_STATUS_RESULT t = (if s.boot.exclude = none then 0 else 1) ∧
      fget F.SYSCTL_BOOT_STATUS_SLOT t = k % 4) ∧
  (∀ (k : Nat) (s : State), 2 ≤ k ∨ headerReason k s ≠ none ∨ signatureOk k s = false ∨ hearthHashOk k s = false → (chooseSlot s).1 ≠ some k) ∧
  (∀ (k : Nat) (s : State), s.boot.exclude = some k ∨ frdBytes (slotBase k s) 8 s ≠ ascii "Z480IMRN" ∨ headerForm k s = false ∨ signerOk k s = false ∨ hdr k 12 4 s < s.boot.rollback ∨
    hdr k 24 8 s ≠ Config.platformId % 2 ^ 64 ∨ (∃ j, journal s = some j ∧ j.target = k ∧ (j.state = 1 ∨ j.state = 3)) → headerReason k s ≠ none) ∧
  (∀ (w : Initiator) (s : State), Lets w R.SYSCTL_BOOT_CMD true s → let u := entered w R.SYSCTL_BOOT_CMD s; initWorld w u = true →
    (fget F.SYSCTL_BOOT_STATUS_SLOT u < 2 → exec (.alt w) s = .next (chipReset kindSoftware 2 (updBoot (fun b => { b with exclude := some (fget F.SYSCTL_BOOT_STATUS_SLOT u) }) (ok u)))) ∧
    (fuseSupply u = true → u.boot.rollback < 64 → exec (.rollbackAdv w) s = .next (fput F.SYSCTL_ROLLBACK_RESULT Status.done.code (updBoot (fun b => { b with rollback := b.rollback + 1 }) (ok u)))) ∧
    (fuseSupply u = false → exec (.rollbackAdv w) s = .next (fput F.SYSCTL_ROLLBACK_RESULT Status.failedRefused.code (ok u)))) ∧
  (∀ s : State, fuseSupply s = true ↔ 12000 ≤ fget F.BLW_VBAT_MV s ∧ fget F.BLW_VBAT_MV s ≤ 16000)

/-! ### Keys, crypto and tamper (chapter 16) -/

/-- R539, R542, R544, R546, R547, R548, R549, R559: jobs are submitted, start in the order of the queue on the unit of their operation, are refused or computed, and end; slot commands; Quench. -/
def Obligations.CryptoJobs : Prop :=
  (∀ (w : Initiator) (s : State), Lets w R.KEY_JQ_SUBMIT true s → let u := entered w R.KEY_JQ_SUBMIT s; initWorld w u = true →
    let a := (rd R.KEY_JQ_ADDR_LO u).toNat / 64 * 64 + 2 ^ 32 * fget F.KEY_JQ_ADDR_HI u
    let host := cryCount (fun j => match j.sub with | .host _ => true | _ => false) u
    (16 ≤ host → exec (.jqSubmit w) s = .next (fput F.KEY_JQ_STAT_LAST Status.failedRefused.code (bump R.KEY_REFUSED (ok u)))) ∧
    let r := unitRead (initIdent w (ok u)) a 64 (ok u)
    let x := r.2
    (host < 16 → r.1 = none → exec (.jqSubmit w) s = .next (fput F.KEY_JQ_STAT_LAST Status.failedRefused.code (bump R.KEY_REFUSED x))) ∧
    (∀ d, host < 16 → r.1 = some d →
      (jobInvalid d = true → exec (.jqSubmit w) s = .next (fput F.KEY_JQ_STAT_LAST Status.failedRefused.code (bump R.KEY_REFUSED x))) ∧
      (jobInvalid d = false → Does (.jqSubmit w) s fun t => fget F.KEY_JQ_STAT_LAST t = Status.done.code ∧
        ∃ j : CryJob, t.key.queue = x.key.queue ++ [j] ∧ j.desc = d ∧ j.at_ = a ∧ j.sub = .host (w == .hc) ∧ j.world = initWorld w u))) ∧
  (∀ (k : Nat) (c : Instr) (s : State) (j : CryJob), (k, c) ∈ [(1, .sha512), (2, .hmac), (3, .hmacVer), (4, .cmac), (5, .cmacVer), (6, .gcmEnc), (7, .gcmDec), (8, .sign), (9, .verify), (10, .derive),
      (11, .wrap), (12, .unwrap), (13, .pubkey), (14, .attest), (15, .random), (16, .loadpub)] →
    let pk := k = 8 ∨ k = 9 ∨ k = 13 ∨ k = 14
    let busy := if pk then s.key.pk.isSome else s.key.sym.isSome
    (islOpen islHC s = false ∨ busy = true → exec c s = .next s) ∧
    (islOpen islHC s = true → busy = false → (s.key.queue.find? fun x => opPk x.op == decide pk) = some j → j.op = k →
      let v := updKey (fun x => { x with queue := x.queue.filter fun y => y.id != j.id }) s
      Does c s fun t => (if pk then t.key.pk else t.key.sym) = some (cryStart j v).1 ∧ t.key.queue = v.key.queue ∧ (cryStart j v).1.job = j ∧ SameMem s t)) ∧
  (∀ (j : CryJob) (s : State), startRefused j s = true → cryStart j s = (cryFailed j .failedRefused, s)) ∧
  (∀ (j : CryJob) (p : Fin 128) (s : State), keyAllowed j p s = true → partValid p s = true ∧ partType p s = (opNeeds j.op).1 ∧
    (j.world = false → p.1 % 2 = 0 ∧ partUse p 19 s = false ∧ (partUse p 18 s = true ∨ bits (partAttr p s) 24 20 = j.inst)) ∧
    (partUse p 16 s = true → fget (F.KEY_USES_s_h_USES (p.1 / 2) (p.1 % 2)) s ≠ 0)) ∧
  (∀ (p : Fin 128) (s : State), let f := F.KEY_USES_s_h_USES (p.1 / 2) (p.1 % 2)
    (partUse p 16 s = false → useKey p s = s) ∧ (partUse p 16 s = true → 0 < fget f s → fget f (useKey p s) = fget f s - 1 ∧
      (fget f s = 1 → fbit F.KEY_EVENT 1 (useKey p s) = true ∧ ftst (F.KEY_ATTR_s_h_DISABLED (p.1 / 2) (p.1 % 2)) (useKey p s) = true))) ∧
  (∀ (pk : Bool) (r : CryRun) (s : State), (if pk then s.key.pk else s.key.sym) = some r →
    let v := updKey (fun k => if pk then { k with pk := none } else { k with sym := none }) s
    (∀ st, r.job.drop = some st → exec (.cryptoJobDone pk) s = .next (cryEnd r.job st v)) ∧
    (r.job.drop = none → exec (.cryptoJobDone pk) s = .next (cryEnd r.job (cryWrite r v).1 (cryWrite r v).2)) ∧ (r.status ≠ .done → cryWrite r v = (r.status, v))) ∧
  (∀ (w : Initiator) (slot : Fin 64) (s : State), Lets w R.KEY_SLOT_CMD true s → let u := entered w R.KEY_SLOT_CMD s; initWorld w u = true →
    let a := activePart slot; let h := shadowPart slot
    (Does (.slotClear w slot) s fun t => partValid a t = false ∧ partValid h t = false ∧ t.key.keys[a.1] = [] ∧ t.key.keys[h.1] = [] ∧ fget F.KEY_SLOT_STAT_RESULT t = Status.done.code ∧ fbit F.KEY_EVENT 2 t = true) ∧
    (Does (.slotDiscard w slot) s fun t => partValid h t = false ∧ t.key.keys[h.1] = [] ∧ t.key.keys[a.1] = u.key.keys[a.1] ∧ fget F.KEY_SLOT_STAT_RESULT t = Status.done.code) ∧
    (partValid h u = false → Does (.slotCommit w slot) s fun t => t.key.keys = u.key.keys ∧ fget F.KEY_SLOT_STAT_RESULT t = Status.failedRefused.code) ∧
    (partValid h u = true → Does (.slotCommit w slot) s fun t => t.key.keys[a.1] = u.key.keys[h.1] ∧ t.key.keys[h.1] = [] ∧ partAttr a t = partAttr h u ∧ partValid h t = false ∧
      fget F.KEY_SLOT_STAT_RESULT t = Status.done.code)) ∧
  (∀ (w : Initiator) (s : State), Lets w R.KEY_CNT_CLR true s → let u := entered w R.KEY_CNT_CLR s; initWorld w u = true → exec (.keyCntClr w) s = .next (clearRegs keyCounters (ok u)))

/-- R554, R555, R557, R561: Quench, and the commands of the tamper block. -/
def Obligations.TamperCommands : Prop :=
  (∀ (src : Fin 7) (s : State), let t := quench src s
    (∀ p : Fin 128, t.key.keys[p.1] = [] ∧ partValid p t = false) ∧ ftst F.KEY_STATUS_ROOT_BLOCKED t = true ∧ ftst F.TAMP_STATUS_ROOT_BLOCKED t = true ∧
    ftst F.TAMP_STATUS_TAMPER_LATCH t = true ∧ fbit F.TAMP_CAUSE src.1 t = true ∧ t.key.sym = none ∧ t.key.pk = none ∧ (∀ j ∈ t.key.queue, namesKey j = false)) ∧
  (∀ (j : CryJob) (s : State), j.op = 0x0A ∨ j.op = 0x0C ∨ j.op = 0x10 → ftst F.TAMP_STATUS_TAMPER_LATCH s = true → startRefused j s = true) ∧
  (∀ (src : Fin 7) (s : State), tamperWatched src s = true ↔ (src = 5 ∧ ftst F.TAMP_CFG_TAMP0_EN s = true) ∨ (src = 6 ∧ ftst F.TAMP_CFG_TAMP1_EN s = true) ∨
    (src.1 < 5 ∧ (s.own.lc = 2 ∨ (src ≠ 4 ∧ ftst F.TAMP_CFG_INT_MASK s = false)))) ∧
  (∀ (w : Initiator) (s : State), Lets w R.TAMP_CMD true s → let u := entered w R.TAMP_CMD s; initWorld w u = true →
    (ftst F.TAMP_STATUS_ACTIVE u = true → exec (.clearLatch w) s = .next (bad (ok u))) ∧ (ftst F.TAMP_STATUS_ACTIVE u = false → exec (.clearLatch w) s = .next (fput F.TAMP_STATUS_TAMPER_LATCH 0 (ok u)))) ∧
  (∀ (w : Initiator) (s : State), Lets w R.TAMP_CFG true s → let u := entered w R.TAMP_CFG s; initWorld w u = true → exec (.tampCfgLock w) s = .next (fput F.TAMP_STATUS_LOCKED 1 (fput F.TAMP_CFG_LOCK 1 (ok u)))) ∧
  (∀ (src : Fin 7) (s : State), Does (.tamperConditionCleared src) s fun t => (∀ x, x ∈ t.key.alarms ↔ x ∈ s.key.alarms ∧ x ≠ src.1) ∧
    (t.key.alarms = [] → ftst F.TAMP_STATUS_ACTIVE t = false) ∧ (t.key.alarms ≠ [] → SameRegsBut [] s t) ∧ SameMem s t ∧ SameRegsBut [R.TAMP_STATUS] s t)

/-! ### Supply, watchdogs, self-test and resets (chapter 17) -/

/-- R562, R564, R565, R566, R570: VBAT samples move the stage, a stage parks harts, and the junction clocks islands down. That 10 ms are 101 samples is the model's choice (log entry 31). -/
def Obligations.SupplyStages : Prop :=
  (∀ (mv : Nat) (s : State), let sampled := fun s : State => forFin 4 (blwCount mv) (fput F.BLW_VBAT_MV (min 0xFFFF mv) s)
    exec (.vbatSample mv) s = .next (withHeartbeats (fun s => changeStage (blwStage (sampled s)) (sampled s)) s) ∧ fget F.BLW_VBAT_MV (sampled s) = min 0xFFFF mv) ∧
  (∀ (mv : Nat) (k : Fin 4) (s : State), let th := fget (F.BLW_TH_k k.1) s; let t := blwCount mv k s
    (th ≤ mv → mv < th + 300 → t.blw.entered[k.1] = s.blw.entered[k.1] ∧ t.blw.low[k.1] = 0 ∧ t.blw.high[k.1] = 0) ∧
    (mv < th → t.blw.low[k.1] = min 101 (s.blw.low[k.1] + 1) ∧ t.blw.high[k.1] = 0 ∧ (100 ≤ s.blw.low[k.1] → t.blw.entered[k.1] = true) ∧
      (s.blw.low[k.1] < 100 → t.blw.entered[k.1] = s.blw.entered[k.1])) ∧
    (th + 300 ≤ mv → t.blw.low[k.1] = 0 ∧ (100 ≤ s.blw.high[k.1] → t.blw.entered[k.1] = false) ∧ (s.blw.high[k.1] < 100 → t.blw.entered[k.1] = s.blw.entered[k.1])) ∧
    (∀ j : Fin 4, j ≠ k → t.blw.entered[j.1] = s.blw.entered[j.1]) ∧
    (s.blw.entered[k.1] = false → t.blw.entered[k.1] = true → rd (R.BLW_STAGE_CNT_k k.1) t = rd (R.BLW_STAGE_CNT_k k.1) (bump (R.BLW_STAGE_CNT_k k.1) s))) ∧
  (∀ s : State, blwStage s ≤ 4 ∧ (∀ k : Fin 4, s.blw.entered[k.1] = true → k.1 < blwStage s) ∧ (∀ k : Fin 4, blwStage s = k.1 + 1 → s.blw.entered[k.1] = true) ∧ changeStage (fget F.BLW_STATUS_STAGE s) s = s) ∧
  (∀ (h : Fin 8) (t0 : Nat) (s : State), (s.harts[h.1]).parkDue = some t0 →
    ((s.harts[h.1]).world = true → exec (.hartPark h) s = .next s) ∧
    ((s.harts[h.1]).world = false → ftst F.SYSCTL_BIST_STAT_BUSY s = false → t0 ≤ s.now → Does (.hartPark h) s fun t =>
      t.harts[h.1] = { s.harts[h.1] with parkDue := none, parked := true } ∧ (∀ g : Fin 8, g ≠ h → t.harts[g.1] = s.harts[g.1]) ∧ SameMem s t)) ∧
  (∀ (t0 : Nat) (s : State), s.blw.logStop = some t0 → ctlDue s = 0 ∨ t0 ≤ s.now →
    (∀ e, sealEngine s = some e → exec .stage4SealStop s = .next (stopEngine (Fin.ofNat 24 e) (updBlw (fun b => { b with logStop := none }) s))) ∧
    (sealEngine s = none → exec .stage4SealStop s = .next (updBlw (fun b => { b with logStop := none }) s))) ∧
  (∀ (deg : Int) (s : State), deg ≤ 165 → let v := fputSat F.BLW_TJ_DEG deg s; let w := if (clampNat 100 150 (fget F.BLW_TJ_TJ_WARN s) : Int) ≤ deg then raise F.BLW_EVENT 4 v else v
    (s.blw.thermOn = false → 150 ≤ deg → exec (.coreTjRead deg) s = .next (thermalOn w)) ∧ (s.blw.thermOn = true → deg < 145 → exec (.coreTjRead deg) s = .next (thermalOff w)) ∧
    (s.blw.thermOn = false → deg < 150 → exec (.coreTjRead deg) s = .next w) ∧ (s.blw.thermOn = true → 145 ≤ deg → exec (.coreTjRead deg) s = .next w)) ∧
  (∀ s : State, let t := thermalOn s; t.blw.thermOn = true ∧ fbit F.BLW_EVENT 5 t = true ∧ (∀ i ∈ thermalIsls, islSt i s = .run → islSt i t = .slow) ∧ ∀ i : Fin 21, i ∉ thermalIsls → t.isl[i.1] = s.isl[i.1])

/-- R575, R577, R578, R586, R587, R589, R591: the chip watchdog, the heartbeat channels, the self-test windows and the counters of their blocks. -/
def Obligations.WatchdogsAndSelfTest : Prop :=
  (∀ (w : Initiator) (v : Word) (s : State), Lets w R.WDOG_WD_KICK true s → let u := entered w R.WDOG_WD_KICK s;
    (wdRunning u = false → exec (.wdKick w v) s = .next (ok u)) ∧
    (wdRunning u = true → v = 0x7A3E → exec (.wdKick w v) s = .next (updBlw (fun b => { b with wdFirst := some u.now }) (ok u))) ∧
    (∀ t0, wdRunning u = true → u.blw.wdFirst = some t0 → v = 0x85C1 → u.now ≤ t0 + 100000 → fget F.WDOG_WD_CFG_WINDOW u * wdPeriod u ≤ (u.now - u.blw.wdStart) * 4 →
      exec (.wdKick w v) s = .next (updBlw (fun b => { b with wdFirst := none, wdStart := u.now }) (ok u))) ∧
    (∀ t0, wdRunning u = true → v ≠ 0x7A3E → u.blw.wdFirst = none ∨ (u.blw.wdFirst = some t0 ∧ (v ≠ 0x85C1 ∨ t0 + 100000 < u.now ∨ (u.now - u.blw.wdStart) * 4 < fget F.WDOG_WD_CFG_WINDOW u * wdPeriod u)) →
      exec (.wdKick w v) s = .next (chipReset kindWdog 0 (ok u)))) ∧
  (∀ s : State, wdRunning s = true → (s.blw.wdStart + wdPeriod s * 3 / 4 ≤ s.now → exec .wdWarn s = .next (fput F.WDOG_WD_STAT_WARN 1 s)) ∧
    (s.blw.wdStart + wdPeriod s ≤ s.now → exec .chipWdog s = .next (chipReset kindWdog 0 s))) ∧
  (∀ (w : Initiator) (s : State), Lets w R.WDOG_WD_CFG true s → let u := entered w R.WDOG_WD_CFG s; exec (.wdCfgLock w) s = .next (fput F.WDOG_WD_CFG_LOCK 1 (ok u))) ∧
  (∀ (w : Initiator) (c : Fin 16) (s : State), Lets w (R.WDOG_HB_KICK_c c.1) true s → let u := entered w (R.WDOG_HB_KICK_c c.1) s;
    (ftst (F.WDOG_HB_CFG_c_EN c.1) u = false → exec (.hbKick w c) s = .next (ok u)) ∧
    (ftst (F.WDOG_HB_CFG_c_EN c.1) u = true → Does (.hbKick w c) s fun t => fget (F.WDOG_HB_STAT_c_STATE c.1) t = 1 ∧ t.blw.hbKick[c.1] = u.now ∧ SameRegsBut [R.WDOG_HB_STAT_c c.1] u t)) ∧
  (∀ (c : Fin 16) (s : State), ftst (F.WDOG_HB_CFG_c_EN c.1) s = true → hbSuspended c s = false → fget (F.WDOG_HB_STAT_c_STATE c.1) s = 1 →
    s.blw.hbKick[c.1] + clampNat 50 10000 (fget (F.WDOG_HB_CFG_c_TIMEOUT_US c.1) s) * 1000 ≤ s.now ∨ (∃ i, hbIsland c s = some i ∧ (islSt i s = .stopped ∨ islSt i s = .reset ∨ islSt i s = .off ∨ islSt i s = .draining)) →
    Does (.heartbeatLost c) s fun t => fget (F.WDOG_HB_STAT_c_STATE c.1) t = 2 ∧ ftst (F.WDOG_HB_STAT_c_LOST c.1) t = true ∧
      rd (R.WDOG_HB_LOST_CNT_c c.1) t = rd (R.WDOG_HB_LOST_CNT_c c.1) (bump (R.WDOG_HB_LOST_CNT_c c.1) s) ∧ SameMem s t) ∧
  (∀ (w : Initiator) (h : Fin 8) (s : State), Lets w R.SYSCTL_BIST_REQ true s → let u := entered w R.SYSCTL_BIST_REQ s;
    let v := fput F.SYSCTL_BIST_REQ_HART h.1 (ok u)
    let free := ftst F.SYSCTL_BIST_STAT_PENDING u = false ∧ ftst F.SYSCTL_BIST_STAT_BUSY u = false
    exec (.bistReq w h false) s = .next v ∧ (¬free → exec (.bistReq w h true) s = .next (fput F.SYSCTL_BIST_STAT_STATUS Status.failedRefused.code v)) ∧
    (free → Does (.bistReq w h true) s fun t => ftst F.SYSCTL_BIST_STAT_PENDING t = true ∧ fget F.SYSCTL_BIST_STAT_HART t = h.1 ∧ fbit F.SYSCTL_EVENT 3 t = true ∧ t.blw.bistAsk = u.now)) ∧
  (∀ (w : Initiator) (h : Fin 8) (s : State), Lets w R.SYSCTL_BIST_GRANT true s → let u := entered w R.SYSCTL_BIST_GRANT s;
    (bistPending h u = false → exec (.bistGrant w h) s = .next (bad (ok u)) ∧ exec (.bistDeny w h) s = .next (bad (ok u))) ∧
    (bistPending h u = true → (u.harts[h.1]).parked = false → (u.harts[h.1]).world = false → Does (.bistGrant w h) s fun t =>
      ftst F.SYSCTL_BIST_STAT_PENDING t = false ∧ ftst F.SYSCTL_BIST_STAT_BUSY t = true ∧ (t.harts[h.1]).bistHeld = true ∧ t.cwy.resv[h.1] = none ∧ t.blw.bistEnd = u.now + 2000000) ∧
    (bistPending h u = true → Does (.bistDeny w h) s fun t => ftst F.SYSCTL_BIST_STAT_PENDING t = false ∧ fget F.SYSCTL_BIST_STAT_STATUS t = Status.deferred.code)) ∧
  (∀ s : State, ftst F.SYSCTL_BIST_STAT_PENDING s = true → s.blw.bistAsk + 100000000 ≤ s.now →
    exec .bistGrantTimeout s = .next (fput F.SYSCTL_BIST_STAT_STATUS Status.deferred.code (fput F.SYSCTL_BIST_STAT_PENDING 0 s))) ∧
  (∀ (pass : Bool) (s : State), ftst F.SYSCTL_BIST_STAT_BUSY s = true → s.blw.bistEnd ≤ s.now → Does (.bistWindowEnd pass) s fun t =>
    let h : Fin 8 := Fin.ofNat 8 (fget F.SYSCTL_BIST_STAT_HART s)
    ftst F.SYSCTL_BIST_STAT_BUSY t = false ∧ fget F.SYSCTL_BIST_STAT_STATUS t = Status.done.code ∧ ftst F.SYSCTL_BIST_STAT_PASS t = pass ∧ fbit F.SYSCTL_EVENT 4 t = true ∧
    (pass = false → fbit F.SYSCTL_EVENT 5 t = true) ∧ (t.harts[h.1]).bistHeld = !pass ∧ (t.harts[h.1]).bistFailed = !pass ∧ SameMem s t) ∧
  (∀ (w : Initiator) (s : State), Lets w R.BLW_CNT_CLR true s → let u := entered w R.BLW_CNT_CLR s; exec (.blwCntClr w) s = .next (clearRegs blwCounters (ok u))) ∧
  (∀ (w : Initiator) (s : State), Lets w R.SYSCTL_CNT_CLR true s → let u := entered w R.SYSCTL_CNT_CLR s; exec (.sysctlCntClr w) s = .next (clearRegs sysctlCounters (ok u)))

/-- R413, R529, R568, R571, R573, R574, R585: the chip-level resets and what each leaves. -/
def Obligations.ChipResets : Prop :=
  (∀ (aon : Bool) (s : State), exec (.powerOn aon) s = .next (powerOn aon s)) ∧ (∀ s : State, exec .pinReset s = .next (chipReset kindPin 0 s)) ∧
  (∀ s : State, exec .brownOut s = .next (chipReset kindBrownOut 0 s)) ∧
  (∀ (w : Initiator) (go : Bool) (key : BitVec 16) (s : State), Lets w R.SYSCTL_CHIP_RST true s → let u := entered w R.SYSCTL_CHIP_RST s; initWorld w u = true →
    (go = true → key = 0x5253 → exec (.chipRst w go key) s = .next (chipReset kindSoftware 1 (ok u))) ∧ (go = false ∨ key ≠ 0x5253 → exec (.chipRst w go key) s = .next (bad (ok u)))) ∧
  (∀ (kind detail : Nat) (s : State), 2 ≤ kind → kind ≤ 7 → let t := chipReset kind detail s
    t.mem = [] ∧ t.dram = s.dram + 1 ∧ t.pending = s.pending ∧ t.now = s.now ∧ t.own.lc = s.own.lc ∧ t.own.viol = [] ∧ t.eng = State.reset.eng ∧ t.vqi = State.reset.vqi ∧ t.harts = State.reset.harts ∧
    fget F.SYSCTL_RESET_CAUSE_KIND t = kind ∧ fget F.SYSCTL_RESET_CAUSE_DETAIL t = detail % 16 ∧ fget F.SYSCTL_RESET_CAUSE_COUNT t = min 255 (fget F.SYSCTL_RESET_CAUSE_COUNT s + 1) ∧
    t.boot.inReset = some (s.now + if warmKind kind then 50000 else 0) ∧ t.boot.rollback = s.boot.rollback ∧ heronState t = 0 ∧
    rd R.TAMP_COUNT t = rd R.TAMP_COUNT s ∧ rd R.HERON_RTC_ALARM_LO t = rd R.HERON_RTC_ALARM_LO s ∧ ftst F.OWN_CTRL_EN t = false ∧ ftst F.SIG_CTRL_LOG_EN t = false) ∧
  (∀ (detail : Nat) (s : State), let t := chipReset kindBrownOut detail s
    (∀ p : Fin 128, t.key.keys[p.1] = [] ∧ partValid p t = false) ∧ rd R.TIME_EPOCH t = 0) ∧
  (∀ (kind detail : Nat) (p : Fin 128) (s : State), 3 ≤ kind → kind ≤ 7 → p.1 % 2 = 0 → partUse p 17 s = false →
    (chipReset kind detail s).key.keys[p.1] = s.key.keys[p.1] ∧ partAttr p (chipReset kind detail s) = partAttr p s) ∧
  (∀ (aon : Bool) (s : State), let t := powerOn aon s
    t.mem = [] ∧ t.pending = s.pending ∧ t.key = KeySt.init ∧ t.own.lc = s.own.lcPending ∧ t.boot.rollback = s.boot.rollback ∧ t.boot.inReset = some s.now ∧ t.heron.rtcBase = s.now ∧
    fget F.SYSCTL_RESET_CAUSE_KIND t = 1 ∧ ftst F.TAMP_STATUS_TAMPER_LATCH t = false ∧ ftst F.OWN_CTRL_EN t = false ∧ t.railA = true ∧ t.railB = true)
end

