-- ==== Sys2Proof/Laws/Sparse.lean ====
section
/-!
SUPPORT. What the operations on sparse lists do: reads after writes, and that the canonical form is kept.
-/
namespace Sys2Proof.Machine

variable {α : Type}

theorem sget_sins (d : Nat → α) (a b : Nat) (v : α) (l : List (Nat × α)) : sget d (sins a v l) b = if b = a then v else sget d l b := by
  induction l with
  | nil => simp only [sins, sget, eq_comm]
  | cons p l ih =>
    obtain ⟨k, w⟩ := p
    by_cases hk : k < a
    · simp only [sins, hk, if_true, sget, ih]; split <;> split <;> first | rfl | omega
    · by_cases he : k = a
      · subst he; simp only [sins, Nat.lt_irrefl, if_false, if_true, sget]; simp only [eq_comm]; split <;> rfl
      · simp only [sins, hk, he, if_false, sget]; simp only [eq_comm (a := a)]

theorem sget_filter (d : Nat → α) (f : Nat → Bool) (b : Nat) (l : List (Nat × α)) :
    sget d (l.filter fun p => f p.1) b = if f b then sget d l b else d b := by
  induction l with
  | nil => simp [sget]
  | cons p l ih =>
    obtain ⟨k, w⟩ := p
    by_cases hb : k = b
    · subst hb; by_cases hf : f k <;> simp [hf, sget, ih]
    · by_cases hf : f k <;> simp [hf, sget, ih, hb]

/-- A read after a write (no state is excepted). -/
theorem sget_sput [DecidableEq α] (d : Nat → α) (a b : Nat) (v : α) (l : List (Nat × α)) :
    sget d (sput d a v l) b = if b = a then v else sget d l b := by
  unfold sput
  split
  · next h => rw [sget_filter d (fun k => k != a)]; by_cases hb : b = a <;> simp [hb, h]
  · exact sget_sins d a b v l

theorem sget_sput_same [DecidableEq α] (d : Nat → α) (a : Nat) (v : α) (l : List (Nat × α)) : sget d (sput d a v l) a = v := by simp [sget_sput]

theorem sget_sput_other [DecidableEq α] (d : Nat → α) {a b : Nat} (v : α) (l : List (Nat × α)) (h : b ≠ a) : sget d (sput d a v l) b = sget d l b := by
  simp [sget_sput, h]

theorem sget_sdrop (d : Nat → α) (lo hi b : Nat) (l : List (Nat × α)) : sget d (sdrop lo hi l) b = if lo ≤ b ∧ b < hi then d b else sget d l b := by
  unfold sdrop
  rw [sget_filter d (fun k => !(decide (lo ≤ k) && decide (k < hi)))]
  by_cases h : lo ≤ b <;> by_cases h' : b < hi <;> simp [h, h']

/-! ### The canonical form -/

/-- The canonical form, said without recursion: keys strictly rising, no entry at its default. -/
theorem swf_iff [DecidableEq α] (d : Nat → α) (l : List (Nat × α)) :
    swf d l = true ↔ l.Pairwise (fun p q => p.1 < q.1) ∧ ∀ p ∈ l, p.2 ≠ d p.1 := by
  induction l with
  | nil => simp [swf]
  | cons p l ih =>
    obtain ⟨k, v⟩ := p
    cases l with
    | nil => simp [swf]
    | cons q l =>
      obtain ⟨k', v'⟩ := q
      simp only [swf, Bool.and_eq_true, decide_eq_true_eq, ih, List.pairwise_cons, List.mem_cons, forall_eq_or_imp]
      constructor
      · rintro ⟨⟨h1, h2⟩, ⟨h3, h4⟩, h5, h6⟩
        exact ⟨⟨⟨h2, fun q hq => Nat.lt_trans h2 (h3 q hq)⟩, h3, h4⟩, h1, h5, h6⟩
      · rintro ⟨⟨⟨h2, _⟩, h3, h4⟩, h1, h5, h6⟩
        exact ⟨⟨h1, h2⟩, ⟨h3, h4⟩, h5, h6⟩

theorem swf_filter [DecidableEq α] (d : Nat → α) (f : Nat × α → Bool) {l : List (Nat × α)} (h : swf d l = true) : swf d (l.filter f) = true := by
  rw [swf_iff] at h ⊢
  exact ⟨h.1.filter f, fun p hp => h.2 p (List.mem_filter.1 hp).1⟩

theorem mem_sins {a : Nat} {v : α} {l : List (Nat × α)} {p : Nat × α} (h : p ∈ sins a v l) : p = (a, v) ∨ p ∈ l := by
  induction l with
  | nil => simpa [sins] using h
  | cons q l ih =>
    obtain ⟨k, w⟩ := q
    simp only [sins] at h
    split at h
    · rcases List.mem_cons.1 h with h | h
      · exact .inr (by simp [h])
      · rcases ih h with h | h
        · exact .inl h
        · exact .inr (List.mem_cons_of_mem _ h)
    · split at h
      · rcases List.mem_cons.1 h with h | h
        · exact .inl h
        · exact .inr (List.mem_cons_of_mem _ h)
      · rcases List.mem_cons.1 h with h | h
        · exact .inl h
        · exact .inr h

theorem swf_sins [DecidableEq α] (d : Nat → α) {a : Nat} {v : α} (hv : v ≠ d a) {l : List (Nat × α)} (h : swf d l = true) : swf d (sins a v l) = true := by
  rw [swf_iff] at h ⊢
  refine ⟨?_, fun p hp => ?_⟩
  · induction l with
    | nil => simp [sins]
    | cons q l ih =>
      obtain ⟨k, w⟩ := q
      obtain ⟨hp, hd⟩ := h
      rw [List.pairwise_cons] at hp
      have ih := ih ⟨hp.2, fun p hp => hd p (List.mem_cons_of_mem _ hp)⟩
      simp only [sins]
      split
      · next hk =>
        refine List.pairwise_cons.2 ⟨fun p hp' => ?_, ih⟩
        rcases mem_sins hp' with rfl | hp'
        · exact hk
        · exact hp.1 p hp'
      · split
        · next hk he => subst he; exact List.pairwise_cons.2 ⟨hp.1, hp.2⟩
        · next hk he =>
          have : a < k := by omega
          refine List.pairwise_cons.2 ⟨fun p hp' => ?_, List.pairwise_cons.2 hp⟩
          rcases List.mem_cons.1 hp' with rfl | hp'
          · exact this
          · exact Nat.lt_trans this (hp.1 p hp')
  · rcases mem_sins hp with rfl | hp
    · exact hv
    · exact h.2 p hp

/-- A write keeps the canonical form. -/
theorem swf_sput [DecidableEq α] (d : Nat → α) (a : Nat) (v : α) {l : List (Nat × α)} (h : swf d l = true) : swf d (sput d a v l) = true := by
  unfold sput
  split
  · exact swf_filter d _ h
  · next hv => exact swf_sins d hv h

/-- Dropping a range keeps the canonical form. -/
theorem swf_sdrop [DecidableEq α] (d : Nat → α) (lo hi : Nat) {l : List (Nat × α)} (h : swf d l = true) : swf d (sdrop lo hi l) = true := swf_filter d _ h

end Sys2Proof.Machine
end

