-- ==== Sys2Proof/Laws/Ops.lean ====
section
/-!
SUPPORT. What the operations over registers and memory do, once for each: a read after a write, a field after a write of a field, an event bit after it is raised, a byte
of memory after a byte is written, what an access to a register can answer, and that every one keeps the canonical forms.
-/
namespace Sys2Proof.Machine

/-! ### Bits -/

theorem testBit_bits (v hi lo i : Nat) : (bits v hi lo).testBit i = (decide (i < hi + 1 - lo) && v.testBit (lo + i)) := by
  simp [bits, Nat.testBit_mod_two_pow, Nat.testBit_div_two_pow, Nat.add_comm]

theorem getLsbD_insertBits (w : Word) (hi lo v i : Nat) (h : i < 32) :
    (insertBits w hi lo v).getLsbD i = if lo ≤ i ∧ i < hi + 1 then v.testBit (i - lo) else w.getLsbD i := by
  simp only [insertBits, BitVec.getLsbD_or, BitVec.getLsbD_and, BitVec.getLsbD_not, BitVec.getLsbD_ofNat, h, decide_true, Bool.true_and,
    Nat.testBit_mul_two_pow, Nat.testBit_mod_two_pow, Nat.testBit_two_pow_sub_one]
  by_cases h1 : lo ≤ i <;> by_cases h2 : i < hi + 1
  · have : i - lo < hi + 1 - lo := by omega
    simp [h1, h2, this]
  · have : ¬ (i - lo < hi + 1 - lo) := by omega
    simp [h1, h2, this]
  · simp [h1]
  · simp [h1]

theorem testBit_word (w : Word) (i : Nat) : w.toNat.testBit i = w.getLsbD i := rfl

theorem bits_insertBits_same (w : Word) (hi lo v : Nat) (h : hi < 32) : bits (insertBits w hi lo v).toNat hi lo = v % 2 ^ (hi + 1 - lo) := by
  apply Nat.eq_of_testBit_eq
  intro i
  rw [testBit_bits, Nat.testBit_mod_two_pow]
  by_cases hi' : i < hi + 1 - lo
  · have h1 : lo + i < 32 := by omega
    have h2 : lo ≤ lo + i ∧ lo + i < hi + 1 := by omega
    simp [hi', testBit_word, getLsbD_insertBits _ _ _ _ _ h1, h2]
  · simp [hi']

theorem bits_insertBits_other (w : Word) (hi lo hi' lo' v : Nat) (h : hi' < 32) (hd : hi' < lo ∨ hi < lo') :
    bits (insertBits w hi lo v).toNat hi' lo' = bits w.toNat hi' lo' := by
  apply Nat.eq_of_testBit_eq
  intro i
  rw [testBit_bits, testBit_bits]
  by_cases hi'' : i < hi' + 1 - lo'
  · have h1 : lo' + i < 32 := by omega
    have h2 : ¬ (lo ≤ lo' + i ∧ lo' + i < hi + 1) := by omega
    rw [testBit_word, testBit_word, getLsbD_insertBits _ _ _ _ _ h1, if_neg h2]
  · simp [hi'']

/-! ### Registers -/

theorem rd_wr (a b : Nat) (v : Word) (s : State) : rd b (wr a v s) = if b = a then v else rd b s := sget_sput ..

@[simp] theorem rd_wr_same (a : Nat) (v : Word) (s : State) : rd a (wr a v s) = v := sget_sput_same ..

theorem rd_wr_other {a b : Nat} (v : Word) (s : State) (h : b ≠ a) : rd b (wr a v s) = rd b s := sget_sput_other _ _ _ h

/-- A field after that field is written. -/
theorem fget_fput_same (f : Fld) (v : Nat) (s : State) (h : f.hi < 32) : fget f (fput f v s) = v % 2 ^ (f.hi + 1 - f.lo) := by
  simp [fget, fput, bits_insertBits_same _ _ _ _ h]

/-- A field after another field of the same register is written. -/
theorem fget_fput_beside (f g : Fld) (v : Nat) (s : State) (ha : g.addr = f.addr) (h : g.hi < 32) (hd : g.hi < f.lo ∨ f.hi < g.lo) :
    fget g (fput f v s) = fget g s := by
  simp [fget, fput, ha, bits_insertBits_other _ _ _ _ _ _ h hd]

/-- A field after another register is written. -/
theorem fget_wr_other (f : Fld) {a : Nat} (v : Word) (s : State) (h : f.addr ≠ a) : fget f (wr a v s) = fget f s := by simp [fget, rd_wr, h]

theorem fget_fput_other (f g : Fld) (v : Nat) (s : State) (h : g.addr ≠ f.addr) : fget g (fput f v s) = fget g s := fget_wr_other _ _ _ h

/-- An event bit after it is raised. -/
theorem fbit_raise (f : Fld) (n : Nat) (s : State) (h : f.lo + n < 32) : fbit f n (raise f n s) = true := by
  simp only [fbit, raise, rd_wr_same, BitVec.getLsbD_or, BitVec.getLsbD_ofNat, h, Nat.testBit_two_pow, decide_true, Bool.and_true, Bool.or_true]

/-- Raising an event sets no other bit and clears none. -/
theorem rd_raise (f : Fld) (n a : Nat) (s : State) : rd a (raise f n s) = if a = f.addr then rd a s ||| BitVec.ofNat 32 (2 ^ (f.lo + n)) else rd a s := by
  by_cases h : a = f.addr <;> simp [raise, rd_wr, h]

/-- A counter after an event: it saturates at 0xFFFF_FFFF. -/
theorem rd_bump (a b : Nat) (s : State) : rd b (bump a s) = if b = a then BitVec.ofNat 32 (min 0xFFFFFFFF ((rd a s).toNat + 1)) else rd b s := rd_wr ..

theorem rd_clearRegs (as : List Nat) (b : Nat) (s : State) : rd b (clearRegs as s) = if b ∈ as then 0 else rd b s := by
  induction as generalizing s with
  | nil => simp [clearRegs]
  | cons a as ih =>
    have h : clearRegs (a :: as) s = clearRegs as (wr a 0 s) := rfl
    rw [h, ih, rd_wr]
    by_cases hb : b ∈ as <;> by_cases ha : b = a <;> simp [hb, ha]

/-! ### Memory -/

theorem mrd_mwr (a b : Nat) (v : Byte) (s : State) : mrd b (mwr a v s) = if b = a then v else mrd b s := sget_sput ..

@[simp] theorem mrd_mwr_same (a : Nat) (v : Byte) (s : State) : mrd a (mwr a v s) = v := sget_sput_same ..

/-- A write of several bytes leaves every other byte alone. -/
theorem mrd_mwrN_other (a n v b : Nat) (s : State) (h : b < a ∨ a + n ≤ b) : mrd b (mwrN a n v s) = mrd b s := by
  induction n generalizing a v s with
  | zero => rfl
  | succ n ih => rw [mwrN, ih (a + 1) (v / 256) _ (by omega), mrd_mwr]; simp; omega

theorem mrd_mwrBytes_other (a : Nat) (d : List Byte) (b : Nat) (s : State) (h : b < a ∨ a + d.length ≤ b) : mrd b (mwrBytes a d s) = mrd b s := by
  induction d generalizing a s with
  | nil => rfl
  | cons v d ih => simp only [List.length_cons] at h; rw [mwrBytes, ih (a + 1) _ (by omega), mrd_mwr]; simp; omega

/-- Reading back what a write of several bytes wrote. -/
theorem mrdN_mwrN (a n v : Nat) (s : State) : mrdN a n (mwrN a n v s) = v % 256 ^ n := by
  induction n generalizing a v s with
  | zero => simp [mrdN, Nat.mod_one]
  | succ n ih =>
    rw [mrdN, mwrN, ih, mrd_mwrN_other _ _ _ _ _ (by omega), mrd_mwr_same, Nat.pow_succ']
    simp [Nat.mod_mul]

/-! ### Canonical forms -/

theorem regsWf_wr {a : Nat} {v : Word} {s : State} (h : swf resetVal s.regs = true) : swf resetVal (wr a v s).regs = true := swf_sput _ _ _ h

theorem regsWf_dropRegs {lo hi : Nat} {s : State} (h : swf resetVal s.regs = true) : swf resetVal (dropRegs lo hi s).regs = true := swf_sdrop _ _ _ h

theorem wf_mwr {a : Nat} {v : Byte} {s : State} (h : Memory.wf s.dram s.mem = true) : Memory.wf s.dram (mwr a v s).mem = true := swf_sput _ _ _ h

theorem wf_dropMem {lo hi : Nat} {s : State} (h : Memory.wf s.dram s.mem = true) : Memory.wf s.dram (dropMem lo hi s).mem = true := swf_sdrop _ _ _ h

theorem wf_mwrN {a n v : Nat} {s : State} (h : Memory.wf s.dram s.mem = true) : Memory.wf s.dram (mwrN a n v s).mem = true ∧ (mwrN a n v s).dram = s.dram := by
  induction n generalizing a v s with
  | zero => exact ⟨h, rfl⟩
  | succ n ih => exact ih (s := mwr a (BitVec.ofNat 8 v) s) (wf_mwr h)

theorem wf_mwrBytes {a : Nat} {d : List Byte} {s : State} (h : Memory.wf s.dram s.mem = true) :
    Memory.wf s.dram (mwrBytes a d s).mem = true ∧ (mwrBytes a d s).dram = s.dram := by
  induction d generalizing a s with
  | nil => exact ⟨h, rfl⟩
  | cons v d ih => exact ih (s := mwr a v s) (wf_mwr h)

/-! ### Register accesses -/

/-- What an access to a register can answer: refused by the ownership check, ended at a closed home island, or let in. -/
theorem regAccess_cases (w : Initiator) (a : Nat) (write : Bool) (f : State → State) (s : State) :
    regAccess w a write f s = (let u := (initCheck w a write s).2
      if (initCheck w a write s).1 then (if homeOpen a u then f (ok (fabricWait a u)) else answer .abortedIslandOff 0 u) else answer .failedBus 0 u) := by
  simp only [regAccess]
  split <;> next h => simp [h]

end Sys2Proof.Machine
end

