-- ==== Sys2Proof/Laws/Access.lean ====
section
/-!
SUPPORT. The forms of Safety.lean: how a statement in them is shown.
-/
namespace Sys2Proof.Machine

/-- The lookup of an entry gives what `pageEntry` says. -/
theorem ownLookup_fst (w : Initiator) (a : Nat) (s : State) : (ownLookup (initPort w) a s).1 = pageEntry w a s := by
  simp only [ownLookup, pageEntry]
  cases hc : s.own.cache.find? fun c => c.port == initPort w && c.page == a / 4096 with
  | some c => rfl
  | none =>
    cases hb : ((ownEntryAddr a s).any fun p => wordBad p s) with
    | true => rfl
    | false => cases ownEntryAddr a s <;> rfl

/-- The lookup of an entry that is read leaves everything but the cache and its count of misses alone. -/
theorem ownLookup_snd {w : Initiator} {a e : Nat} {s : State} (h : pageEntry w a s = some e) :
    ∃ l, (ownLookup (initPort w) a s).2 = { s with own := { s.own with cache := l } } ∨
      (ownLookup (initPort w) a s).2 = bump R.OWN_CACHE_MISS_CNT { s with own := { s.own with cache := l } } := by
  rw [← ownLookup_fst] at h
  simp only [ownLookup] at h ⊢
  split
  · exact ⟨s.own.cache, .inl rfl⟩
  · split
    · rename_i h1 h2; simp [h1, h2] at h
    · exact ⟨_, .inr rfl⟩

theorem homeOpen_bump (a : Nat) (l : List OwnEntry) (s : State) : homeOpen a (bump R.OWN_CACHE_MISS_CNT { s with own := { s.own with cache := l } }) = homeOpen a s := by
  have : ftst F.TIME_STATUS_MASTER (bump R.OWN_CACHE_MISS_CNT { s with own := { s.own with cache := l } }) = ftst F.TIME_STATUS_MASTER s := by
    simp only [ftst, fget, bump, bumpBy]; rw [rd_wr_other]; · rfl
    decide
  simp only [homeOpen, masterIsl, this]; rfl

/-- An allowed access passes the check, which leaves the state that `entered` names before the wait for a lock. -/
theorem initCheck_allowed {w : Initiator} {a : Nat} {write : Bool} {s : State} (h : Allowed w a write s) :
    ∃ v, initCheck w a write s = (true, v) ∧ fabricWait a v = entered w a s ∧ homeOpen a v = homeOpen a s := by
  by_cases hw : initWorld w s = true
  · refine ⟨s, ?_, ?_, rfl⟩
    · simp [initCheck, ownCheck, hw]
    · simp [entered, hw]
  · obtain h | ⟨h1, h2⟩ := h
    · exact absurd h hw
    · obtain h2 | ⟨h2, e, h3, h4⟩ := h2
      · exact ⟨s, by simp [initCheck, ownCheck, h1, h2], by simp [entered, h2], rfl⟩
      · by_cases he : ftst F.OWN_CTRL_EN s = true
        · refine ⟨(ownLookup (initPort w) a s).2, ?_, by simp [entered, he, hw], ?_⟩
          · have : ownLookup (initPort w) a s = (some e, (ownLookup (initPort w) a s).2) := Prod.ext ((ownLookup_fst w a s).trans h3) rfl
            simp only [initCheck, ownCheck, hw, h1, he, h2]
            rw [this]; simp [h4]
          · obtain ⟨l, h5 | h5⟩ := ownLookup_snd h3
            · rw [h5]; rfl
            · rw [h5]; exact homeOpen_bump a l s
        · exact ⟨s, by simp [initCheck, ownCheck, h1, he], by simp [entered, he], rfl⟩

/-- An access that is let in has its effect, with a normal response unless the effect gives another. -/
theorem regAccess_lets {w : Initiator} {a : Nat} {write : Bool} {s : State} (h : Lets w a write s) (f : State → State) :
    regAccess w a write f s = f (ok (entered w a s)) := by
  obtain ⟨h1, h2⟩ := h
  obtain ⟨v, e1, e2, e3⟩ := initCheck_allowed h1
  simp [regAccess, e1, e3, h2, e2]

theorem regCmd_lets {w : Initiator} {a : Nat} {s : State} (h : Lets w a true s) (f : State → State) : regCmd w a f s = f (ok (entered w a s)) := regAccess_lets h f

theorem regRead_lets {w : Initiator} {a : Nat} {s : State} (h : Lets w a false s) (f : State → State) : regRead w a f s = f (ok (entered w a s)) := regAccess_lets h f

theorem does_of {c : Instr} {s t : State} {P : State → Prop} (h : exec c s = .next t) (hp : P t) : Does c s P := ⟨t, h, hp⟩

end Sys2Proof.Machine
end

