-- ==== Sys2Proof/Laws/Engine.lean ====
section
/-!
SUPPORT. Issue and retirement of engine instructions: what counting an issue, letting threads go first and throttling leave alone, and the state after an instruction that
writes one register.
-/
namespace Sys2Proof.Machine

theorem upd_get {α : Type} {n : Nat} (v : Vector α n) (i j : Fin n) (f : α → α) : (upd v i f)[j.1] = if j = i then f v[i.1] else v[j.1] := by
  simp only [upd, Vector.getElem_set]
  by_cases h : j = i
  · subst h; simp
  · have : i.1 ≠ j.1 := fun h' => h (Fin.ext h'.symm)
    simp [h, this]

@[simp] theorem advance_zero (s : State) : advance 0 s = s := by simp [advance, TimeIsl.run]

theorem elapseTo_past {t : Nat} {s : State} (h : t ≤ s.now) : elapseTo t s = s := by simp [elapseTo, Nat.sub_eq_zero_of_le h]

/-- What an operation of an engine leaves alone: the registers n0-n31 and the PC of every thread, memory, and every register outside the engine's window. -/
structure EngFrame (e : Fin 24) (s u : State) : Prop where
  n : ∀ j : Fin 96, u.eng[j.1].n = s.eng[j.1].n
  mem : u.mem = s.mem
  dram : u.dram = s.dram
  out : ∀ a, a < 0x02000000 + 0x80000 * e.1 ∨ 0x02080000 + 0x80000 * e.1 ≤ a → rd a u = rd a s
  pc : ∀ t : Fin 4, thrPc e t u = thrPc e t s

theorem EngFrame.refl (e : Fin 24) (s : State) : EngFrame e s s := ⟨fun _ => rfl, rfl, rfl, fun _ _ => rfl, fun _ => rfl⟩

theorem EngFrame.trans {e : Fin 24} {s u v : State} (h : EngFrame e s u) (g : EngFrame e u v) : EngFrame e s v :=
  ⟨fun j => (g.n j).trans (h.n j), g.mem.trans h.mem, g.dram.trans h.dram, fun a ha => (g.out a ha).trans (h.out a ha), fun t => (g.pc t).trans (h.pc t)⟩

theorem updThr_frame {e e' : Fin 24} {t : Fin 4} {f : EngThr → EngThr} (hf : ∀ x, (f x).n = x.n) (s : State) : EngFrame e s (updThr e' t f s) := by
  refine ⟨fun j => ?_, rfl, rfl, fun _ _ => rfl, fun _ => rfl⟩
  simp only [updThr, upd_get]
  split <;> simp_all

theorem wr_frame {e : Fin 24} {a : Nat} (v : Word) (s : State) (h1 : 0x02000000 + 0x80000 * e.1 ≤ a) (h2 : a < 0x02080000 + 0x80000 * e.1)
    (h3 : ∀ t : Fin 4, a ≠ R.ENG_THR_PC_t e.1 t.1) : EngFrame e s (wr a v s) :=
  ⟨fun _ => rfl, rfl, rfl, fun b hb => rd_wr_other _ _ (by omega), fun t => fget_wr_other _ _ _ fun h => h3 t h.symm⟩

theorem notePassed_frame (e : Fin 24) (t : Fin 4) (s : State) : EngFrame e s (notePassed e t s) := by
  have h : ∀ u x, EngFrame e x (updThr e u (fun x => { x with passed := x.passed.filter (fun k => k != t.1), slack := x.slack - 1 }) x) :=
    fun u x => updThr_frame (f := fun x => { x with passed := x.passed.filter (fun k => k != t.1), slack := x.slack - 1 }) (fun _ => rfl) x
  have h0 : EngFrame e s { s with issuer := upd s.issuer e fun _ => t } := ⟨fun _ => rfl, rfl, rfl, fun _ _ => rfl, fun _ => rfl⟩
  have e4 : List.finRange 4 = [0, 1, 2, 3] := by decide
  simp only [notePassed, forFin, e4, List.foldl_cons, List.foldl_nil]
  exact h0.trans ((((h 0 _).trans (h 1 _)).trans (h 2 _)).trans (h 3 _))

theorem bumpOver_frame (e : Fin 24) (t : Fin 4) (s : State) : EngFrame e s (bump (R.ENG_THR_OVER_CNT_t e.1 t.1) s) := by
  have ht := t.2
  apply wr_frame <;> simp only [R.ENG_THR_OVER_CNT_t, R.ENG_THR_PC_t] <;> intros <;> omega

theorem countIssue_frame (e : Fin 24) (t : Fin 4) (s : State) : EngFrame e s (countIssue e t s) := by
  simp only [countIssue]
  have h1 : EngFrame e s (fput (F.ENG_THR_USED_t_COUNT e.1 t.1) (min 0xFFFFF (fget (F.ENG_THR_USED_t_COUNT e.1 t.1) s + 1)) s) := by
    apply wr_frame <;> simp only [F.ENG_THR_USED_t_COUNT, R.ENG_THR_USED_t, R.ENG_THR_PC_t] <;> intros <;> omega
  have h2 : ∀ x, EngFrame e x (raise (F.ENG_EVENT_BUDGET_C0 e.1) t.1 x) := fun x => by
    apply wr_frame <;> simp only [F.ENG_EVENT_BUDGET_C0, R.ENG_EVENT, R.ENG_THR_PC_t] <;> intros <;> omega
  have h3 := bumpOver_frame e t
  have h4 : ∀ x, EngFrame e x (updThr e t (fun x => { x with overFrame := true }) x) :=
    fun x => updThr_frame (f := fun x => { x with overFrame := true }) (fun _ => rfl) x
  split
  · exact h1.trans ((h2 _).trans ((h3 _).trans (h4 _)))
  · exact h1

theorem issued_frame (e : Fin 24) (t : Fin 4) (s : State) : EngFrame e s (issued e t s) :=
  ((updThr_frame (f := fun x => { x with passed := [] }) (fun _ => rfl) s).trans (countIssue_frame e t _)).trans (notePassed_frame e t _)

theorem noteSlack_frame (e : Fin 24) (t : Fin 4) (pc : Nat) (i : NyInsn) (s : State) : EngFrame e s (noteSlack e t pc i s) :=
  updThr_frame (f := fun x => { x with slack := nySlack (thrPc e t s != (pc + 1) % 16384) i }) (fun _ => rfl) s

theorem throttle_frame (e : Fin 24) (t : Fin 4) (s : State) : EngFrame e s (throttle e t s) := by
  have h2 : ∀ x, EngFrame e x (raise (F.ENG_EVENT_THROTTLE e.1) t.1 x) := fun x => by
    apply wr_frame <;> simp only [F.ENG_EVENT_THROTTLE, R.ENG_EVENT, R.ENG_THR_PC_t] <;> intros <;> omega
  have h4 : ∀ v x, EngFrame e x (fput (thrFld e t) v x) := fun v x => by
    apply wr_frame <;> simp only [thrFld, R.ENG_STATUS, R.ENG_THR_PC_t] <;> intros <;> omega
  have h5 : ∀ x, EngFrame e x (updThr e t (fun x => { x with overFrame := true }) x) :=
    fun x => updThr_frame (f := fun x => { x with overFrame := true }) (fun _ => rfl) x
  simp only [throttle]
  split
  · split
    · exact (h2 _).trans (h4 _ _)
    · exact (h2 _).trans (((bumpOver_frame e t _).trans (h5 _)).trans (h4 _ _))
  · exact EngFrame.refl e s

theorem getN_issued (e : Fin 24) (t : Fin 4) (k : Fin 32) (s : State) : getN e t k (issued e t s) = getN e t k s := by
  simp only [getN, thr, (issued_frame e t s).n]

theorem thrPc_issued (e : Fin 24) (t : Fin 4) (s : State) : thrPc e t (issued e t s) = thrPc e t s := (issued_frame e t s).pc t

theorem thrPc_setN (e : Fin 24) (t : Fin 4) (nd : Fin 32) (v : Word) (s : State) : thrPc e t (setN e t nd v s) = thrPc e t s := by
  simp only [setN]; split <;> rfl

/-- Reading a register after a register is written: n0 stays 0 (R139). -/
theorem getN_setN (e : Fin 24) (t : Fin 4) (nd k : Fin 32) (v : Word) (s : State) : getN e t k (setN e t nd v s) = if k = nd ∧ nd ≠ 0 then v else getN e t k s := by
  simp only [getN, setN, thr]
  by_cases h0 : nd = 0
  · simp [h0]
  · by_cases hk : k = 0
    · subst hk; simp only [h0, if_true]; rw [if_neg]; exact fun h => h0 h.1.symm
    · simp only [h0, hk, if_false, updThr, upd_get, if_true]
      by_cases hkn : k = nd
      · subst hkn; simp [h0]
      · have : nd.1 ≠ k.1 := fun h' => hkn (Fin.ext h'.symm)
        simp [hkn, this]

/-- An instruction that may issue, from a PC inside THR_CODE, with a legal encoding, has its effect in the state in which its issue is counted. -/
theorem issue_eq {e : Fin 24} {t : Fin 4} {s : State} (h : Issues e t s) {i : NyInsn} (hl : i.legal = true) (f : Nat → State → State) :
    .next (issue e t i f s) = ends e t i s (f (nyEncode i) (issued e t s)) := by
  simp only [issue, issueWord, h.1, h.2, hl, issued, ends]; rfl

theorem issueWord_wait {e : Fin 24} {t : Fin 4} {s : State} (h : mayIssue e t s = false) (w : Nat) (l : Bool) (f : State → State) : issueWord e t w l f s = s := by
  simp [issueWord, h]

theorem issueWord_window {e : Fin 24} {t : Fin 4} {s : State} (h : mayIssue e t s = true) (h2 : pcInCode e t (thrPc e t s) s = false) (w : Nat) (l : Bool)
    (f : State → State) : issueWord e t w l f s = trap e t w trWindow 0 s := by
  simp [issueWord, h, h2]

theorem issueWord_illegal {e : Fin 24} {t : Fin 4} {s : State} (h : Issues e t s) (w : Nat) (f : State → State) :
    issueWord e t w false f s = trap e t w trIllegal 0 (issued e t s) := by
  simp only [issueWord, h.1, h.2, issued]; rfl

/-- The state after an instruction that writes one register and moves the PC. -/
theorem retired_of {e : Fin 24} {t : Fin 4} (nd : Fin 32) (v : Word) (pc k : Nat) (i : NyInsn) (s : State) :
    Retired e t nd v pc s (throttle e t (noteSlack e t k i (putPc e t pc (setN e t nd v (issued e t s))))) := by
  have f1 := issued_frame e t s
  have f2 := (noteSlack_frame e t k i (putPc e t pc (setN e t nd v (issued e t s)))).trans (throttle_frame e t _)
  have e1 : (setN e t nd v (issued e t s)).mem = s.mem ∧ (setN e t nd v (issued e t s)).dram = s.dram := by
    simp only [setN]; split
    · exact ⟨f1.mem, f1.dram⟩
    · exact ⟨f1.mem, f1.dram⟩
  refine ⟨fun k => ?_, ?_, fun a => ?_, fun j hj => ?_, fun a ha => ?_⟩
  · rw [← getN_issued e t k s, ← getN_setN]; simp only [getN, thr, f2.n]; rfl
  · rw [f2.pc]; simp only [thrPc, putPc]; rw [fget_fput_same _ _ _ (by show 13 < 32; decide)]; simp [F.ENG_THR_PC_t_PC]
  · have m2 : (putPc e t pc (setN e t nd v (issued e t s))).mem = s.mem := e1.1
    have m3 : (putPc e t pc (setN e t nd v (issued e t s))).dram = s.dram := e1.2
    simp only [mrd, f2.mem, f2.dram, m2, m3]
  · rw [f2.n]
    show (setN e t nd v (issued e t s)).eng[j.1].n = _
    simp only [setN]; split
    · exact f1.n j
    · simp only [updThr, upd_get, hj, if_false]; exact f1.n j
  · rw [f2.out a ha, putPc, fput, rd_wr_other]
    · rw [← f1.out a ha]; simp only [setN]; split <;> rfl
    · have ht := t.2
      simp only [F.ENG_THR_PC_t_PC, R.ENG_THR_PC_t]; omega

end Sys2Proof.Machine
end

