-- ==== Sys2Proof/Laws/State.lean ====
section
/-!
SUPPORT. What each named update leaves alone: one lemma for each field of the state and each update, so that no proof unfolds a record update.
-/
namespace Sys2Proof.Machine

variable (s : State)

/-! ### wr -/

@[simp] theorem wr_pending (a : Nat) (v : Word) : (wr a v s).pending = s.pending := rfl
@[simp] theorem wr_regs (a : Nat) (v : Word) : (wr a v s).regs = sput resetVal a v s.regs := rfl
@[simp] theorem wr_mem (a : Nat) (v : Word) : (wr a v s).mem = s.mem := rfl
@[simp] theorem wr_dram (a : Nat) (v : Word) : (wr a v s).dram = s.dram := rfl
@[simp] theorem wr_flash (a : Nat) (v : Word) : (wr a v s).flash = s.flash := rfl
@[simp] theorem wr_cwy (a : Nat) (v : Word) : (wr a v s).cwy = s.cwy := rfl
@[simp] theorem wr_now (a : Nat) (v : Word) : (wr a v s).now = s.now := rfl
@[simp] theorem wr_resp (a : Nat) (v : Word) : (wr a v s).resp = s.resp := rfl
@[simp] theorem wr_fresh (a : Nat) (v : Word) : (wr a v s).fresh = s.fresh := rfl
@[simp] theorem wr_isl (a : Nat) (v : Word) : (wr a v s).isl = s.isl := rfl
@[simp] theorem wr_time (a : Nat) (v : Word) : (wr a v s).time = s.time := rfl
@[simp] theorem wr_log (a : Nat) (v : Word) : (wr a v s).log = s.log := rfl
@[simp] theorem wr_sig (a : Nat) (v : Word) : (wr a v s).sig = s.sig := rfl
@[simp] theorem wr_harts (a : Nat) (v : Word) : (wr a v s).harts = s.harts := rfl
@[simp] theorem wr_railA (a : Nat) (v : Word) : (wr a v s).railA = s.railA := rfl
@[simp] theorem wr_railB (a : Nat) (v : Word) : (wr a v s).railB = s.railB := rfl
@[simp] theorem wr_own (a : Nat) (v : Word) : (wr a v s).own = s.own := rfl
@[simp] theorem wr_trg (a : Nat) (v : Word) : (wr a v s).trg = s.trg := rfl
@[simp] theorem wr_cap (a : Nat) (v : Word) : (wr a v s).cap = s.cap := rfl
@[simp] theorem wr_trgShadows (a : Nat) (v : Word) : (wr a v s).trgShadows = s.trgShadows := rfl
@[simp] theorem wr_cam (a : Nat) (v : Word) : (wr a v s).cam = s.cam := rfl
@[simp] theorem wr_can (a : Nat) (v : Word) : (wr a v s).can = s.can := rfl
@[simp] theorem wr_lin (a : Nat) (v : Word) : (wr a v s).lin = s.lin := rfl
@[simp] theorem wr_nm (a : Nat) (v : Word) : (wr a v s).nm = s.nm := rfl
@[simp] theorem wr_eng (a : Nat) (v : Word) : (wr a v s).eng = s.eng := rfl
@[simp] theorem wr_issuer (a : Nat) (v : Word) : (wr a v s).issuer = s.issuer := rfl
@[simp] theorem wr_sw (a : Nat) (v : Word) : (wr a v s).sw = s.sw := rfl
@[simp] theorem wr_vqi (a : Nat) (v : Word) : (wr a v s).vqi = s.vqi := rfl
@[simp] theorem wr_mbox (a : Nat) (v : Word) : (wr a v s).mbox = s.mbox := rfl
@[simp] theorem wr_pulses (a : Nat) (v : Word) : (wr a v s).pulses = s.pulses := rfl
@[simp] theorem wr_pd (a : Nat) (v : Word) : (wr a v s).pd = s.pd := rfl
@[simp] theorem wr_fio (a : Nat) (v : Word) : (wr a v s).fio = s.fio := rfl
@[simp] theorem wr_ic (a : Nat) (v : Word) : (wr a v s).ic = s.ic := rfl
@[simp] theorem wr_pair (a : Nat) (v : Word) : (wr a v s).pair = s.pair := rfl
@[simp] theorem wr_heron (a : Nat) (v : Word) : (wr a v s).heron = s.heron := rfl
@[simp] theorem wr_key (a : Nat) (v : Word) : (wr a v s).key = s.key := rfl
@[simp] theorem wr_boot (a : Nat) (v : Word) : (wr a v s).boot = s.boot := rfl
@[simp] theorem wr_blw (a : Nat) (v : Word) : (wr a v s).blw = s.blw := rfl

/-! ### fput -/

@[simp] theorem fput_pending (f : Fld) (v : Nat) : (fput f v s).pending = s.pending := rfl
@[simp] theorem fput_mem (f : Fld) (v : Nat) : (fput f v s).mem = s.mem := rfl
@[simp] theorem fput_dram (f : Fld) (v : Nat) : (fput f v s).dram = s.dram := rfl
@[simp] theorem fput_flash (f : Fld) (v : Nat) : (fput f v s).flash = s.flash := rfl
@[simp] theorem fput_cwy (f : Fld) (v : Nat) : (fput f v s).cwy = s.cwy := rfl
@[simp] theorem fput_now (f : Fld) (v : Nat) : (fput f v s).now = s.now := rfl
@[simp] theorem fput_resp (f : Fld) (v : Nat) : (fput f v s).resp = s.resp := rfl
@[simp] theorem fput_fresh (f : Fld) (v : Nat) : (fput f v s).fresh = s.fresh := rfl
@[simp] theorem fput_isl (f : Fld) (v : Nat) : (fput f v s).isl = s.isl := rfl
@[simp] theorem fput_time (f : Fld) (v : Nat) : (fput f v s).time = s.time := rfl
@[simp] theorem fput_log (f : Fld) (v : Nat) : (fput f v s).log = s.log := rfl
@[simp] theorem fput_sig (f : Fld) (v : Nat) : (fput f v s).sig = s.sig := rfl
@[simp] theorem fput_harts (f : Fld) (v : Nat) : (fput f v s).harts = s.harts := rfl
@[simp] theorem fput_railA (f : Fld) (v : Nat) : (fput f v s).railA = s.railA := rfl
@[simp] theorem fput_railB (f : Fld) (v : Nat) : (fput f v s).railB = s.railB := rfl
@[simp] theorem fput_own (f : Fld) (v : Nat) : (fput f v s).own = s.own := rfl
@[simp] theorem fput_trg (f : Fld) (v : Nat) : (fput f v s).trg = s.trg := rfl
@[simp] theorem fput_cap (f : Fld) (v : Nat) : (fput f v s).cap = s.cap := rfl
@[simp] theorem fput_trgShadows (f : Fld) (v : Nat) : (fput f v s).trgShadows = s.trgShadows := rfl
@[simp] theorem fput_cam (f : Fld) (v : Nat) : (fput f v s).cam = s.cam := rfl
@[simp] theorem fput_can (f : Fld) (v : Nat) : (fput f v s).can = s.can := rfl
@[simp] theorem fput_lin (f : Fld) (v : Nat) : (fput f v s).lin = s.lin := rfl
@[simp] theorem fput_nm (f : Fld) (v : Nat) : (fput f v s).nm = s.nm := rfl
@[simp] theorem fput_eng (f : Fld) (v : Nat) : (fput f v s).eng = s.eng := rfl
@[simp] theorem fput_issuer (f : Fld) (v : Nat) : (fput f v s).issuer = s.issuer := rfl
@[simp] theorem fput_sw (f : Fld) (v : Nat) : (fput f v s).sw = s.sw := rfl
@[simp] theorem fput_vqi (f : Fld) (v : Nat) : (fput f v s).vqi = s.vqi := rfl
@[simp] theorem fput_mbox (f : Fld) (v : Nat) : (fput f v s).mbox = s.mbox := rfl
@[simp] theorem fput_pulses (f : Fld) (v : Nat) : (fput f v s).pulses = s.pulses := rfl
@[simp] theorem fput_pd (f : Fld) (v : Nat) : (fput f v s).pd = s.pd := rfl
@[simp] theorem fput_fio (f : Fld) (v : Nat) : (fput f v s).fio = s.fio := rfl
@[simp] theorem fput_ic (f : Fld) (v : Nat) : (fput f v s).ic = s.ic := rfl
@[simp] theorem fput_pair (f : Fld) (v : Nat) : (fput f v s).pair = s.pair := rfl
@[simp] theorem fput_heron (f : Fld) (v : Nat) : (fput f v s).heron = s.heron := rfl
@[simp] theorem fput_key (f : Fld) (v : Nat) : (fput f v s).key = s.key := rfl
@[simp] theorem fput_boot (f : Fld) (v : Nat) : (fput f v s).boot = s.boot := rfl
@[simp] theorem fput_blw (f : Fld) (v : Nat) : (fput f v s).blw = s.blw := rfl

/-! ### fputI -/

@[simp] theorem fputI_pending (f : Fld) (v : Int) : (fputI f v s).pending = s.pending := rfl
@[simp] theorem fputI_mem (f : Fld) (v : Int) : (fputI f v s).mem = s.mem := rfl
@[simp] theorem fputI_dram (f : Fld) (v : Int) : (fputI f v s).dram = s.dram := rfl
@[simp] theorem fputI_flash (f : Fld) (v : Int) : (fputI f v s).flash = s.flash := rfl
@[simp] theorem fputI_cwy (f : Fld) (v : Int) : (fputI f v s).cwy = s.cwy := rfl
@[simp] theorem fputI_now (f : Fld) (v : Int) : (fputI f v s).now = s.now := rfl
@[simp] theorem fputI_resp (f : Fld) (v : Int) : (fputI f v s).resp = s.resp := rfl
@[simp] theorem fputI_fresh (f : Fld) (v : Int) : (fputI f v s).fresh = s.fresh := rfl
@[simp] theorem fputI_isl (f : Fld) (v : Int) : (fputI f v s).isl = s.isl := rfl
@[simp] theorem fputI_time (f : Fld) (v : Int) : (fputI f v s).time = s.time := rfl
@[simp] theorem fputI_log (f : Fld) (v : Int) : (fputI f v s).log = s.log := rfl
@[simp] theorem fputI_sig (f : Fld) (v : Int) : (fputI f v s).sig = s.sig := rfl
@[simp] theorem fputI_harts (f : Fld) (v : Int) : (fputI f v s).harts = s.harts := rfl
@[simp] theorem fputI_railA (f : Fld) (v : Int) : (fputI f v s).railA = s.railA := rfl
@[simp] theorem fputI_railB (f : Fld) (v : Int) : (fputI f v s).railB = s.railB := rfl
@[simp] theorem fputI_own (f : Fld) (v : Int) : (fputI f v s).own = s.own := rfl
@[simp] theorem fputI_trg (f : Fld) (v : Int) : (fputI f v s).trg = s.trg := rfl
@[simp] theorem fputI_cap (f : Fld) (v : Int) : (fputI f v s).cap = s.cap := rfl
@[simp] theorem fputI_trgShadows (f : Fld) (v : Int) : (fputI f v s).trgShadows = s.trgShadows := rfl
@[simp] theorem fputI_cam (f : Fld) (v : Int) : (fputI f v s).cam = s.cam := rfl
@[simp] theorem fputI_can (f : Fld) (v : Int) : (fputI f v s).can = s.can := rfl
@[simp] theorem fputI_lin (f : Fld) (v : Int) : (fputI f v s).lin = s.lin := rfl
@[simp] theorem fputI_nm (f : Fld) (v : Int) : (fputI f v s).nm = s.nm := rfl
@[simp] theorem fputI_eng (f : Fld) (v : Int) : (fputI f v s).eng = s.eng := rfl
@[simp] theorem fputI_issuer (f : Fld) (v : Int) : (fputI f v s).issuer = s.issuer := rfl
@[simp] theorem fputI_sw (f : Fld) (v : Int) : (fputI f v s).sw = s.sw := rfl
@[simp] theorem fputI_vqi (f : Fld) (v : Int) : (fputI f v s).vqi = s.vqi := rfl
@[simp] theorem fputI_mbox (f : Fld) (v : Int) : (fputI f v s).mbox = s.mbox := rfl
@[simp] theorem fputI_pulses (f : Fld) (v : Int) : (fputI f v s).pulses = s.pulses := rfl
@[simp] theorem fputI_pd (f : Fld) (v : Int) : (fputI f v s).pd = s.pd := rfl
@[simp] theorem fputI_fio (f : Fld) (v : Int) : (fputI f v s).fio = s.fio := rfl
@[simp] theorem fputI_ic (f : Fld) (v : Int) : (fputI f v s).ic = s.ic := rfl
@[simp] theorem fputI_pair (f : Fld) (v : Int) : (fputI f v s).pair = s.pair := rfl
@[simp] theorem fputI_heron (f : Fld) (v : Int) : (fputI f v s).heron = s.heron := rfl
@[simp] theorem fputI_key (f : Fld) (v : Int) : (fputI f v s).key = s.key := rfl
@[simp] theorem fputI_boot (f : Fld) (v : Int) : (fputI f v s).boot = s.boot := rfl
@[simp] theorem fputI_blw (f : Fld) (v : Int) : (fputI f v s).blw = s.blw := rfl

/-! ### fputSat -/

@[simp] theorem fputSat_pending (f : Fld) (v : Int) : (fputSat f v s).pending = s.pending := rfl
@[simp] theorem fputSat_mem (f : Fld) (v : Int) : (fputSat f v s).mem = s.mem := rfl
@[simp] theorem fputSat_dram (f : Fld) (v : Int) : (fputSat f v s).dram = s.dram := rfl
@[simp] theorem fputSat_flash (f : Fld) (v : Int) : (fputSat f v s).flash = s.flash := rfl
@[simp] theorem fputSat_cwy (f : Fld) (v : Int) : (fputSat f v s).cwy = s.cwy := rfl
@[simp] theorem fputSat_now (f : Fld) (v : Int) : (fputSat f v s).now = s.now := rfl
@[simp] theorem fputSat_resp (f : Fld) (v : Int) : (fputSat f v s).resp = s.resp := rfl
@[simp] theorem fputSat_fresh (f : Fld) (v : Int) : (fputSat f v s).fresh = s.fresh := rfl
@[simp] theorem fputSat_isl (f : Fld) (v : Int) : (fputSat f v s).isl = s.isl := rfl
@[simp] theorem fputSat_time (f : Fld) (v : Int) : (fputSat f v s).time = s.time := rfl
@[simp] theorem fputSat_log (f : Fld) (v : Int) : (fputSat f v s).log = s.log := rfl
@[simp] theorem fputSat_sig (f : Fld) (v : Int) : (fputSat f v s).sig = s.sig := rfl
@[simp] theorem fputSat_harts (f : Fld) (v : Int) : (fputSat f v s).harts = s.harts := rfl
@[simp] theorem fputSat_railA (f : Fld) (v : Int) : (fputSat f v s).railA = s.railA := rfl
@[simp] theorem fputSat_railB (f : Fld) (v : Int) : (fputSat f v s).railB = s.railB := rfl
@[simp] theorem fputSat_own (f : Fld) (v : Int) : (fputSat f v s).own = s.own := rfl
@[simp] theorem fputSat_trg (f : Fld) (v : Int) : (fputSat f v s).trg = s.trg := rfl
@[simp] theorem fputSat_cap (f : Fld) (v : Int) : (fputSat f v s).cap = s.cap := rfl
@[simp] theorem fputSat_trgShadows (f : Fld) (v : Int) : (fputSat f v s).trgShadows = s.trgShadows := rfl
@[simp] theorem fputSat_cam (f : Fld) (v : Int) : (fputSat f v s).cam = s.cam := rfl
@[simp] theorem fputSat_can (f : Fld) (v : Int) : (fputSat f v s).can = s.can := rfl
@[simp] theorem fputSat_lin (f : Fld) (v : Int) : (fputSat f v s).lin = s.lin := rfl
@[simp] theorem fputSat_nm (f : Fld) (v : Int) : (fputSat f v s).nm = s.nm := rfl
@[simp] theorem fputSat_eng (f : Fld) (v : Int) : (fputSat f v s).eng = s.eng := rfl
@[simp] theorem fputSat_issuer (f : Fld) (v : Int) : (fputSat f v s).issuer = s.issuer := rfl
@[simp] theorem fputSat_sw (f : Fld) (v : Int) : (fputSat f v s).sw = s.sw := rfl
@[simp] theorem fputSat_vqi (f : Fld) (v : Int) : (fputSat f v s).vqi = s.vqi := rfl
@[simp] theorem fputSat_mbox (f : Fld) (v : Int) : (fputSat f v s).mbox = s.mbox := rfl
@[simp] theorem fputSat_pulses (f : Fld) (v : Int) : (fputSat f v s).pulses = s.pulses := rfl
@[simp] theorem fputSat_pd (f : Fld) (v : Int) : (fputSat f v s).pd = s.pd := rfl
@[simp] theorem fputSat_fio (f : Fld) (v : Int) : (fputSat f v s).fio = s.fio := rfl
@[simp] theorem fputSat_ic (f : Fld) (v : Int) : (fputSat f v s).ic = s.ic := rfl
@[simp] theorem fputSat_pair (f : Fld) (v : Int) : (fputSat f v s).pair = s.pair := rfl
@[simp] theorem fputSat_heron (f : Fld) (v : Int) : (fputSat f v s).heron = s.heron := rfl
@[simp] theorem fputSat_key (f : Fld) (v : Int) : (fputSat f v s).key = s.key := rfl
@[simp] theorem fputSat_boot (f : Fld) (v : Int) : (fputSat f v s).boot = s.boot := rfl
@[simp] theorem fputSat_blw (f : Fld) (v : Int) : (fputSat f v s).blw = s.blw := rfl

/-! ### raise -/

@[simp] theorem raise_pending (f : Fld) (n : Nat) : (raise f n s).pending = s.pending := rfl
@[simp] theorem raise_mem (f : Fld) (n : Nat) : (raise f n s).mem = s.mem := rfl
@[simp] theorem raise_dram (f : Fld) (n : Nat) : (raise f n s).dram = s.dram := rfl
@[simp] theorem raise_flash (f : Fld) (n : Nat) : (raise f n s).flash = s.flash := rfl
@[simp] theorem raise_cwy (f : Fld) (n : Nat) : (raise f n s).cwy = s.cwy := rfl
@[simp] theorem raise_now (f : Fld) (n : Nat) : (raise f n s).now = s.now := rfl
@[simp] theorem raise_resp (f : Fld) (n : Nat) : (raise f n s).resp = s.resp := rfl
@[simp] theorem raise_fresh (f : Fld) (n : Nat) : (raise f n s).fresh = s.fresh := rfl
@[simp] theorem raise_isl (f : Fld) (n : Nat) : (raise f n s).isl = s.isl := rfl
@[simp] theorem raise_time (f : Fld) (n : Nat) : (raise f n s).time = s.time := rfl
@[simp] theorem raise_log (f : Fld) (n : Nat) : (raise f n s).log = s.log := rfl
@[simp] theorem raise_sig (f : Fld) (n : Nat) : (raise f n s).sig = s.sig := rfl
@[simp] theorem raise_harts (f : Fld) (n : Nat) : (raise f n s).harts = s.harts := rfl
@[simp] theorem raise_railA (f : Fld) (n : Nat) : (raise f n s).railA = s.railA := rfl
@[simp] theorem raise_railB (f : Fld) (n : Nat) : (raise f n s).railB = s.railB := rfl
@[simp] theorem raise_own (f : Fld) (n : Nat) : (raise f n s).own = s.own := rfl
@[simp] theorem raise_trg (f : Fld) (n : Nat) : (raise f n s).trg = s.trg := rfl
@[simp] theorem raise_cap (f : Fld) (n : Nat) : (raise f n s).cap = s.cap := rfl
@[simp] theorem raise_trgShadows (f : Fld) (n : Nat) : (raise f n s).trgShadows = s.trgShadows := rfl
@[simp] theorem raise_cam (f : Fld) (n : Nat) : (raise f n s).cam = s.cam := rfl
@[simp] theorem raise_can (f : Fld) (n : Nat) : (raise f n s).can = s.can := rfl
@[simp] theorem raise_lin (f : Fld) (n : Nat) : (raise f n s).lin = s.lin := rfl
@[simp] theorem raise_nm (f : Fld) (n : Nat) : (raise f n s).nm = s.nm := rfl
@[simp] theorem raise_eng (f : Fld) (n : Nat) : (raise f n s).eng = s.eng := rfl
@[simp] theorem raise_issuer (f : Fld) (n : Nat) : (raise f n s).issuer = s.issuer := rfl
@[simp] theorem raise_sw (f : Fld) (n : Nat) : (raise f n s).sw = s.sw := rfl
@[simp] theorem raise_vqi (f : Fld) (n : Nat) : (raise f n s).vqi = s.vqi := rfl
@[simp] theorem raise_mbox (f : Fld) (n : Nat) : (raise f n s).mbox = s.mbox := rfl
@[simp] theorem raise_pulses (f : Fld) (n : Nat) : (raise f n s).pulses = s.pulses := rfl
@[simp] theorem raise_pd (f : Fld) (n : Nat) : (raise f n s).pd = s.pd := rfl
@[simp] theorem raise_fio (f : Fld) (n : Nat) : (raise f n s).fio = s.fio := rfl
@[simp] theorem raise_ic (f : Fld) (n : Nat) : (raise f n s).ic = s.ic := rfl
@[simp] theorem raise_pair (f : Fld) (n : Nat) : (raise f n s).pair = s.pair := rfl
@[simp] theorem raise_heron (f : Fld) (n : Nat) : (raise f n s).heron = s.heron := rfl
@[simp] theorem raise_key (f : Fld) (n : Nat) : (raise f n s).key = s.key := rfl
@[simp] theorem raise_boot (f : Fld) (n : Nat) : (raise f n s).boot = s.boot := rfl
@[simp] theorem raise_blw (f : Fld) (n : Nat) : (raise f n s).blw = s.blw := rfl

/-! ### lower -/

@[simp] theorem lower_pending (f : Fld) (n : Nat) : (lower f n s).pending = s.pending := rfl
@[simp] theorem lower_mem (f : Fld) (n : Nat) : (lower f n s).mem = s.mem := rfl
@[simp] theorem lower_dram (f : Fld) (n : Nat) : (lower f n s).dram = s.dram := rfl
@[simp] theorem lower_flash (f : Fld) (n : Nat) : (lower f n s).flash = s.flash := rfl
@[simp] theorem lower_cwy (f : Fld) (n : Nat) : (lower f n s).cwy = s.cwy := rfl
@[simp] theorem lower_now (f : Fld) (n : Nat) : (lower f n s).now = s.now := rfl
@[simp] theorem lower_resp (f : Fld) (n : Nat) : (lower f n s).resp = s.resp := rfl
@[simp] theorem lower_fresh (f : Fld) (n : Nat) : (lower f n s).fresh = s.fresh := rfl
@[simp] theorem lower_isl (f : Fld) (n : Nat) : (lower f n s).isl = s.isl := rfl
@[simp] theorem lower_time (f : Fld) (n : Nat) : (lower f n s).time = s.time := rfl
@[simp] theorem lower_log (f : Fld) (n : Nat) : (lower f n s).log = s.log := rfl
@[simp] theorem lower_sig (f : Fld) (n : Nat) : (lower f n s).sig = s.sig := rfl
@[simp] theorem lower_harts (f : Fld) (n : Nat) : (lower f n s).harts = s.harts := rfl
@[simp] theorem lower_railA (f : Fld) (n : Nat) : (lower f n s).railA = s.railA := rfl
@[simp] theorem lower_railB (f : Fld) (n : Nat) : (lower f n s).railB = s.railB := rfl
@[simp] theorem lower_own (f : Fld) (n : Nat) : (lower f n s).own = s.own := rfl
@[simp] theorem lower_trg (f : Fld) (n : Nat) : (lower f n s).trg = s.trg := rfl
@[simp] theorem lower_cap (f : Fld) (n : Nat) : (lower f n s).cap = s.cap := rfl
@[simp] theorem lower_trgShadows (f : Fld) (n : Nat) : (lower f n s).trgShadows = s.trgShadows := rfl
@[simp] theorem lower_cam (f : Fld) (n : Nat) : (lower f n s).cam = s.cam := rfl
@[simp] theorem lower_can (f : Fld) (n : Nat) : (lower f n s).can = s.can := rfl
@[simp] theorem lower_lin (f : Fld) (n : Nat) : (lower f n s).lin = s.lin := rfl
@[simp] theorem lower_nm (f : Fld) (n : Nat) : (lower f n s).nm = s.nm := rfl
@[simp] theorem lower_eng (f : Fld) (n : Nat) : (lower f n s).eng = s.eng := rfl
@[simp] theorem lower_issuer (f : Fld) (n : Nat) : (lower f n s).issuer = s.issuer := rfl
@[simp] theorem lower_sw (f : Fld) (n : Nat) : (lower f n s).sw = s.sw := rfl
@[simp] theorem lower_vqi (f : Fld) (n : Nat) : (lower f n s).vqi = s.vqi := rfl
@[simp] theorem lower_mbox (f : Fld) (n : Nat) : (lower f n s).mbox = s.mbox := rfl
@[simp] theorem lower_pulses (f : Fld) (n : Nat) : (lower f n s).pulses = s.pulses := rfl
@[simp] theorem lower_pd (f : Fld) (n : Nat) : (lower f n s).pd = s.pd := rfl
@[simp] theorem lower_fio (f : Fld) (n : Nat) : (lower f n s).fio = s.fio := rfl
@[simp] theorem lower_ic (f : Fld) (n : Nat) : (lower f n s).ic = s.ic := rfl
@[simp] theorem lower_pair (f : Fld) (n : Nat) : (lower f n s).pair = s.pair := rfl
@[simp] theorem lower_heron (f : Fld) (n : Nat) : (lower f n s).heron = s.heron := rfl
@[simp] theorem lower_key (f : Fld) (n : Nat) : (lower f n s).key = s.key := rfl
@[simp] theorem lower_boot (f : Fld) (n : Nat) : (lower f n s).boot = s.boot := rfl
@[simp] theorem lower_blw (f : Fld) (n : Nat) : (lower f n s).blw = s.blw := rfl

/-! ### bumpBy -/

@[simp] theorem bumpBy_pending (n a : Nat) : (bumpBy n a s).pending = s.pending := rfl
@[simp] theorem bumpBy_mem (n a : Nat) : (bumpBy n a s).mem = s.mem := rfl
@[simp] theorem bumpBy_dram (n a : Nat) : (bumpBy n a s).dram = s.dram := rfl
@[simp] theorem bumpBy_flash (n a : Nat) : (bumpBy n a s).flash = s.flash := rfl
@[simp] theorem bumpBy_cwy (n a : Nat) : (bumpBy n a s).cwy = s.cwy := rfl
@[simp] theorem bumpBy_now (n a : Nat) : (bumpBy n a s).now = s.now := rfl
@[simp] theorem bumpBy_resp (n a : Nat) : (bumpBy n a s).resp = s.resp := rfl
@[simp] theorem bumpBy_fresh (n a : Nat) : (bumpBy n a s).fresh = s.fresh := rfl
@[simp] theorem bumpBy_isl (n a : Nat) : (bumpBy n a s).isl = s.isl := rfl
@[simp] theorem bumpBy_time (n a : Nat) : (bumpBy n a s).time = s.time := rfl
@[simp] theorem bumpBy_log (n a : Nat) : (bumpBy n a s).log = s.log := rfl
@[simp] theorem bumpBy_sig (n a : Nat) : (bumpBy n a s).sig = s.sig := rfl
@[simp] theorem bumpBy_harts (n a : Nat) : (bumpBy n a s).harts = s.harts := rfl
@[simp] theorem bumpBy_railA (n a : Nat) : (bumpBy n a s).railA = s.railA := rfl
@[simp] theorem bumpBy_railB (n a : Nat) : (bumpBy n a s).railB = s.railB := rfl
@[simp] theorem bumpBy_own (n a : Nat) : (bumpBy n a s).own = s.own := rfl
@[simp] theorem bumpBy_trg (n a : Nat) : (bumpBy n a s).trg = s.trg := rfl
@[simp] theorem bumpBy_cap (n a : Nat) : (bumpBy n a s).cap = s.cap := rfl
@[simp] theorem bumpBy_trgShadows (n a : Nat) : (bumpBy n a s).trgShadows = s.trgShadows := rfl
@[simp] theorem bumpBy_cam (n a : Nat) : (bumpBy n a s).cam = s.cam := rfl
@[simp] theorem bumpBy_can (n a : Nat) : (bumpBy n a s).can = s.can := rfl
@[simp] theorem bumpBy_lin (n a : Nat) : (bumpBy n a s).lin = s.lin := rfl
@[simp] theorem bumpBy_nm (n a : Nat) : (bumpBy n a s).nm = s.nm := rfl
@[simp] theorem bumpBy_eng (n a : Nat) : (bumpBy n a s).eng = s.eng := rfl
@[simp] theorem bumpBy_issuer (n a : Nat) : (bumpBy n a s).issuer = s.issuer := rfl
@[simp] theorem bumpBy_sw (n a : Nat) : (bumpBy n a s).sw = s.sw := rfl
@[simp] theorem bumpBy_vqi (n a : Nat) : (bumpBy n a s).vqi = s.vqi := rfl
@[simp] theorem bumpBy_mbox (n a : Nat) : (bumpBy n a s).mbox = s.mbox := rfl
@[simp] theorem bumpBy_pulses (n a : Nat) : (bumpBy n a s).pulses = s.pulses := rfl
@[simp] theorem bumpBy_pd (n a : Nat) : (bumpBy n a s).pd = s.pd := rfl
@[simp] theorem bumpBy_fio (n a : Nat) : (bumpBy n a s).fio = s.fio := rfl
@[simp] theorem bumpBy_ic (n a : Nat) : (bumpBy n a s).ic = s.ic := rfl
@[simp] theorem bumpBy_pair (n a : Nat) : (bumpBy n a s).pair = s.pair := rfl
@[simp] theorem bumpBy_heron (n a : Nat) : (bumpBy n a s).heron = s.heron := rfl
@[simp] theorem bumpBy_key (n a : Nat) : (bumpBy n a s).key = s.key := rfl
@[simp] theorem bumpBy_boot (n a : Nat) : (bumpBy n a s).boot = s.boot := rfl
@[simp] theorem bumpBy_blw (n a : Nat) : (bumpBy n a s).blw = s.blw := rfl

/-! ### bump -/

@[simp] theorem bump_pending (a : Nat) : (bump a s).pending = s.pending := rfl
@[simp] theorem bump_mem (a : Nat) : (bump a s).mem = s.mem := rfl
@[simp] theorem bump_dram (a : Nat) : (bump a s).dram = s.dram := rfl
@[simp] theorem bump_flash (a : Nat) : (bump a s).flash = s.flash := rfl
@[simp] theorem bump_cwy (a : Nat) : (bump a s).cwy = s.cwy := rfl
@[simp] theorem bump_now (a : Nat) : (bump a s).now = s.now := rfl
@[simp] theorem bump_resp (a : Nat) : (bump a s).resp = s.resp := rfl
@[simp] theorem bump_fresh (a : Nat) : (bump a s).fresh = s.fresh := rfl
@[simp] theorem bump_isl (a : Nat) : (bump a s).isl = s.isl := rfl
@[simp] theorem bump_time (a : Nat) : (bump a s).time = s.time := rfl
@[simp] theorem bump_log (a : Nat) : (bump a s).log = s.log := rfl
@[simp] theorem bump_sig (a : Nat) : (bump a s).sig = s.sig := rfl
@[simp] theorem bump_harts (a : Nat) : (bump a s).harts = s.harts := rfl
@[simp] theorem bump_railA (a : Nat) : (bump a s).railA = s.railA := rfl
@[simp] theorem bump_railB (a : Nat) : (bump a s).railB = s.railB := rfl
@[simp] theorem bump_own (a : Nat) : (bump a s).own = s.own := rfl
@[simp] theorem bump_trg (a : Nat) : (bump a s).trg = s.trg := rfl
@[simp] theorem bump_cap (a : Nat) : (bump a s).cap = s.cap := rfl
@[simp] theorem bump_trgShadows (a : Nat) : (bump a s).trgShadows = s.trgShadows := rfl
@[simp] theorem bump_cam (a : Nat) : (bump a s).cam = s.cam := rfl
@[simp] theorem bump_can (a : Nat) : (bump a s).can = s.can := rfl
@[simp] theorem bump_lin (a : Nat) : (bump a s).lin = s.lin := rfl
@[simp] theorem bump_nm (a : Nat) : (bump a s).nm = s.nm := rfl
@[simp] theorem bump_eng (a : Nat) : (bump a s).eng = s.eng := rfl
@[simp] theorem bump_issuer (a : Nat) : (bump a s).issuer = s.issuer := rfl
@[simp] theorem bump_sw (a : Nat) : (bump a s).sw = s.sw := rfl
@[simp] theorem bump_vqi (a : Nat) : (bump a s).vqi = s.vqi := rfl
@[simp] theorem bump_mbox (a : Nat) : (bump a s).mbox = s.mbox := rfl
@[simp] theorem bump_pulses (a : Nat) : (bump a s).pulses = s.pulses := rfl
@[simp] theorem bump_pd (a : Nat) : (bump a s).pd = s.pd := rfl
@[simp] theorem bump_fio (a : Nat) : (bump a s).fio = s.fio := rfl
@[simp] theorem bump_ic (a : Nat) : (bump a s).ic = s.ic := rfl
@[simp] theorem bump_pair (a : Nat) : (bump a s).pair = s.pair := rfl
@[simp] theorem bump_heron (a : Nat) : (bump a s).heron = s.heron := rfl
@[simp] theorem bump_key (a : Nat) : (bump a s).key = s.key := rfl
@[simp] theorem bump_boot (a : Nat) : (bump a s).boot = s.boot := rfl
@[simp] theorem bump_blw (a : Nat) : (bump a s).blw = s.blw := rfl

/-! ### dropRegs -/

@[simp] theorem dropRegs_pending (lo hi : Nat) : (dropRegs lo hi s).pending = s.pending := rfl
@[simp] theorem dropRegs_regs (lo hi : Nat) : (dropRegs lo hi s).regs = sdrop lo hi s.regs := rfl
@[simp] theorem dropRegs_mem (lo hi : Nat) : (dropRegs lo hi s).mem = s.mem := rfl
@[simp] theorem dropRegs_dram (lo hi : Nat) : (dropRegs lo hi s).dram = s.dram := rfl
@[simp] theorem dropRegs_flash (lo hi : Nat) : (dropRegs lo hi s).flash = s.flash := rfl
@[simp] theorem dropRegs_cwy (lo hi : Nat) : (dropRegs lo hi s).cwy = s.cwy := rfl
@[simp] theorem dropRegs_now (lo hi : Nat) : (dropRegs lo hi s).now = s.now := rfl
@[simp] theorem dropRegs_resp (lo hi : Nat) : (dropRegs lo hi s).resp = s.resp := rfl
@[simp] theorem dropRegs_fresh (lo hi : Nat) : (dropRegs lo hi s).fresh = s.fresh := rfl
@[simp] theorem dropRegs_isl (lo hi : Nat) : (dropRegs lo hi s).isl = s.isl := rfl
@[simp] theorem dropRegs_time (lo hi : Nat) : (dropRegs lo hi s).time = s.time := rfl
@[simp] theorem dropRegs_log (lo hi : Nat) : (dropRegs lo hi s).log = s.log := rfl
@[simp] theorem dropRegs_sig (lo hi : Nat) : (dropRegs lo hi s).sig = s.sig := rfl
@[simp] theorem dropRegs_harts (lo hi : Nat) : (dropRegs lo hi s).harts = s.harts := rfl
@[simp] theorem dropRegs_railA (lo hi : Nat) : (dropRegs lo hi s).railA = s.railA := rfl
@[simp] theorem dropRegs_railB (lo hi : Nat) : (dropRegs lo hi s).railB = s.railB := rfl
@[simp] theorem dropRegs_own (lo hi : Nat) : (dropRegs lo hi s).own = s.own := rfl
@[simp] theorem dropRegs_trg (lo hi : Nat) : (dropRegs lo hi s).trg = s.trg := rfl
@[simp] theorem dropRegs_cap (lo hi : Nat) : (dropRegs lo hi s).cap = s.cap := rfl
@[simp] theorem dropRegs_trgShadows (lo hi : Nat) : (dropRegs lo hi s).trgShadows = s.trgShadows := rfl
@[simp] theorem dropRegs_cam (lo hi : Nat) : (dropRegs lo hi s).cam = s.cam := rfl
@[simp] theorem dropRegs_can (lo hi : Nat) : (dropRegs lo hi s).can = s.can := rfl
@[simp] theorem dropRegs_lin (lo hi : Nat) : (dropRegs lo hi s).lin = s.lin := rfl
@[simp] theorem dropRegs_nm (lo hi : Nat) : (dropRegs lo hi s).nm = s.nm := rfl
@[simp] theorem dropRegs_eng (lo hi : Nat) : (dropRegs lo hi s).eng = s.eng := rfl
@[simp] theorem dropRegs_issuer (lo hi : Nat) : (dropRegs lo hi s).issuer = s.issuer := rfl
@[simp] theorem dropRegs_sw (lo hi : Nat) : (dropRegs lo hi s).sw = s.sw := rfl
@[simp] theorem dropRegs_vqi (lo hi : Nat) : (dropRegs lo hi s).vqi = s.vqi := rfl
@[simp] theorem dropRegs_mbox (lo hi : Nat) : (dropRegs lo hi s).mbox = s.mbox := rfl
@[simp] theorem dropRegs_pulses (lo hi : Nat) : (dropRegs lo hi s).pulses = s.pulses := rfl
@[simp] theorem dropRegs_pd (lo hi : Nat) : (dropRegs lo hi s).pd = s.pd := rfl
@[simp] theorem dropRegs_fio (lo hi : Nat) : (dropRegs lo hi s).fio = s.fio := rfl
@[simp] theorem dropRegs_ic (lo hi : Nat) : (dropRegs lo hi s).ic = s.ic := rfl
@[simp] theorem dropRegs_pair (lo hi : Nat) : (dropRegs lo hi s).pair = s.pair := rfl
@[simp] theorem dropRegs_heron (lo hi : Nat) : (dropRegs lo hi s).heron = s.heron := rfl
@[simp] theorem dropRegs_key (lo hi : Nat) : (dropRegs lo hi s).key = s.key := rfl
@[simp] theorem dropRegs_boot (lo hi : Nat) : (dropRegs lo hi s).boot = s.boot := rfl
@[simp] theorem dropRegs_blw (lo hi : Nat) : (dropRegs lo hi s).blw = s.blw := rfl

/-! ### mwr -/

@[simp] theorem mwr_pending (a : Nat) (v : Byte) : (mwr a v s).pending = s.pending := rfl
@[simp] theorem mwr_regs (a : Nat) (v : Byte) : (mwr a v s).regs = s.regs := rfl
@[simp] theorem mwr_mem (a : Nat) (v : Byte) : (mwr a v s).mem = sput (memDflt s.dram) a v s.mem := rfl
@[simp] theorem mwr_dram (a : Nat) (v : Byte) : (mwr a v s).dram = s.dram := rfl
@[simp] theorem mwr_flash (a : Nat) (v : Byte) : (mwr a v s).flash = s.flash := rfl
@[simp] theorem mwr_now (a : Nat) (v : Byte) : (mwr a v s).now = s.now := rfl
@[simp] theorem mwr_resp (a : Nat) (v : Byte) : (mwr a v s).resp = s.resp := rfl
@[simp] theorem mwr_fresh (a : Nat) (v : Byte) : (mwr a v s).fresh = s.fresh := rfl
@[simp] theorem mwr_isl (a : Nat) (v : Byte) : (mwr a v s).isl = s.isl := rfl
@[simp] theorem mwr_time (a : Nat) (v : Byte) : (mwr a v s).time = s.time := rfl
@[simp] theorem mwr_log (a : Nat) (v : Byte) : (mwr a v s).log = s.log := rfl
@[simp] theorem mwr_sig (a : Nat) (v : Byte) : (mwr a v s).sig = s.sig := rfl
@[simp] theorem mwr_harts (a : Nat) (v : Byte) : (mwr a v s).harts = s.harts := rfl
@[simp] theorem mwr_railA (a : Nat) (v : Byte) : (mwr a v s).railA = s.railA := rfl
@[simp] theorem mwr_railB (a : Nat) (v : Byte) : (mwr a v s).railB = s.railB := rfl
@[simp] theorem mwr_own (a : Nat) (v : Byte) : (mwr a v s).own = s.own := rfl
@[simp] theorem mwr_trg (a : Nat) (v : Byte) : (mwr a v s).trg = s.trg := rfl
@[simp] theorem mwr_cap (a : Nat) (v : Byte) : (mwr a v s).cap = s.cap := rfl
@[simp] theorem mwr_trgShadows (a : Nat) (v : Byte) : (mwr a v s).trgShadows = s.trgShadows := rfl
@[simp] theorem mwr_cam (a : Nat) (v : Byte) : (mwr a v s).cam = s.cam := rfl
@[simp] theorem mwr_can (a : Nat) (v : Byte) : (mwr a v s).can = s.can := rfl
@[simp] theorem mwr_lin (a : Nat) (v : Byte) : (mwr a v s).lin = s.lin := rfl
@[simp] theorem mwr_nm (a : Nat) (v : Byte) : (mwr a v s).nm = s.nm := rfl
@[simp] theorem mwr_eng (a : Nat) (v : Byte) : (mwr a v s).eng = s.eng := rfl
@[simp] theorem mwr_issuer (a : Nat) (v : Byte) : (mwr a v s).issuer = s.issuer := rfl
@[simp] theorem mwr_sw (a : Nat) (v : Byte) : (mwr a v s).sw = s.sw := rfl
@[simp] theorem mwr_vqi (a : Nat) (v : Byte) : (mwr a v s).vqi = s.vqi := rfl
@[simp] theorem mwr_mbox (a : Nat) (v : Byte) : (mwr a v s).mbox = s.mbox := rfl
@[simp] theorem mwr_pulses (a : Nat) (v : Byte) : (mwr a v s).pulses = s.pulses := rfl
@[simp] theorem mwr_pd (a : Nat) (v : Byte) : (mwr a v s).pd = s.pd := rfl
@[simp] theorem mwr_fio (a : Nat) (v : Byte) : (mwr a v s).fio = s.fio := rfl
@[simp] theorem mwr_ic (a : Nat) (v : Byte) : (mwr a v s).ic = s.ic := rfl
@[simp] theorem mwr_pair (a : Nat) (v : Byte) : (mwr a v s).pair = s.pair := rfl
@[simp] theorem mwr_heron (a : Nat) (v : Byte) : (mwr a v s).heron = s.heron := rfl
@[simp] theorem mwr_key (a : Nat) (v : Byte) : (mwr a v s).key = s.key := rfl
@[simp] theorem mwr_boot (a : Nat) (v : Byte) : (mwr a v s).boot = s.boot := rfl
@[simp] theorem mwr_blw (a : Nat) (v : Byte) : (mwr a v s).blw = s.blw := rfl

/-! ### dropMem -/

@[simp] theorem dropMem_pending (lo hi : Nat) : (dropMem lo hi s).pending = s.pending := rfl
@[simp] theorem dropMem_regs (lo hi : Nat) : (dropMem lo hi s).regs = s.regs := rfl
@[simp] theorem dropMem_mem (lo hi : Nat) : (dropMem lo hi s).mem = sdrop lo hi s.mem := rfl
@[simp] theorem dropMem_dram (lo hi : Nat) : (dropMem lo hi s).dram = s.dram := rfl
@[simp] theorem dropMem_flash (lo hi : Nat) : (dropMem lo hi s).flash = s.flash := rfl
@[simp] theorem dropMem_cwy (lo hi : Nat) : (dropMem lo hi s).cwy = s.cwy := rfl
@[simp] theorem dropMem_now (lo hi : Nat) : (dropMem lo hi s).now = s.now := rfl
@[simp] theorem dropMem_resp (lo hi : Nat) : (dropMem lo hi s).resp = s.resp := rfl
@[simp] theorem dropMem_fresh (lo hi : Nat) : (dropMem lo hi s).fresh = s.fresh := rfl
@[simp] theorem dropMem_isl (lo hi : Nat) : (dropMem lo hi s).isl = s.isl := rfl
@[simp] theorem dropMem_time (lo hi : Nat) : (dropMem lo hi s).time = s.time := rfl
@[simp] theorem dropMem_log (lo hi : Nat) : (dropMem lo hi s).log = s.log := rfl
@[simp] theorem dropMem_sig (lo hi : Nat) : (dropMem lo hi s).sig = s.sig := rfl
@[simp] theorem dropMem_harts (lo hi : Nat) : (dropMem lo hi s).harts = s.harts := rfl
@[simp] theorem dropMem_railA (lo hi : Nat) : (dropMem lo hi s).railA = s.railA := rfl
@[simp] theorem dropMem_railB (lo hi : Nat) : (dropMem lo hi s).railB = s.railB := rfl
@[simp] theorem dropMem_own (lo hi : Nat) : (dropMem lo hi s).own = s.own := rfl
@[simp] theorem dropMem_trg (lo hi : Nat) : (dropMem lo hi s).trg = s.trg := rfl
@[simp] theorem dropMem_cap (lo hi : Nat) : (dropMem lo hi s).cap = s.cap := rfl
@[simp] theorem dropMem_trgShadows (lo hi : Nat) : (dropMem lo hi s).trgShadows = s.trgShadows := rfl
@[simp] theorem dropMem_cam (lo hi : Nat) : (dropMem lo hi s).cam = s.cam := rfl
@[simp] theorem dropMem_can (lo hi : Nat) : (dropMem lo hi s).can = s.can := rfl
@[simp] theorem dropMem_lin (lo hi : Nat) : (dropMem lo hi s).lin = s.lin := rfl
@[simp] theorem dropMem_nm (lo hi : Nat) : (dropMem lo hi s).nm = s.nm := rfl
@[simp] theorem dropMem_eng (lo hi : Nat) : (dropMem lo hi s).eng = s.eng := rfl
@[simp] theorem dropMem_issuer (lo hi : Nat) : (dropMem lo hi s).issuer = s.issuer := rfl
@[simp] theorem dropMem_sw (lo hi : Nat) : (dropMem lo hi s).sw = s.sw := rfl
@[simp] theorem dropMem_vqi (lo hi : Nat) : (dropMem lo hi s).vqi = s.vqi := rfl
@[simp] theorem dropMem_mbox (lo hi : Nat) : (dropMem lo hi s).mbox = s.mbox := rfl
@[simp] theorem dropMem_pulses (lo hi : Nat) : (dropMem lo hi s).pulses = s.pulses := rfl
@[simp] theorem dropMem_pd (lo hi : Nat) : (dropMem lo hi s).pd = s.pd := rfl
@[simp] theorem dropMem_fio (lo hi : Nat) : (dropMem lo hi s).fio = s.fio := rfl
@[simp] theorem dropMem_ic (lo hi : Nat) : (dropMem lo hi s).ic = s.ic := rfl
@[simp] theorem dropMem_pair (lo hi : Nat) : (dropMem lo hi s).pair = s.pair := rfl
@[simp] theorem dropMem_heron (lo hi : Nat) : (dropMem lo hi s).heron = s.heron := rfl
@[simp] theorem dropMem_key (lo hi : Nat) : (dropMem lo hi s).key = s.key := rfl
@[simp] theorem dropMem_boot (lo hi : Nat) : (dropMem lo hi s).boot = s.boot := rfl
@[simp] theorem dropMem_blw (lo hi : Nat) : (dropMem lo hi s).blw = s.blw := rfl

/-! ### clearResv -/

@[simp] theorem clearResv_pending (a : Nat) : (clearResv a s).pending = s.pending := rfl
@[simp] theorem clearResv_regs (a : Nat) : (clearResv a s).regs = s.regs := rfl
@[simp] theorem clearResv_mem (a : Nat) : (clearResv a s).mem = s.mem := rfl
@[simp] theorem clearResv_dram (a : Nat) : (clearResv a s).dram = s.dram := rfl
@[simp] theorem clearResv_flash (a : Nat) : (clearResv a s).flash = s.flash := rfl
@[simp] theorem clearResv_now (a : Nat) : (clearResv a s).now = s.now := rfl
@[simp] theorem clearResv_resp (a : Nat) : (clearResv a s).resp = s.resp := rfl
@[simp] theorem clearResv_fresh (a : Nat) : (clearResv a s).fresh = s.fresh := rfl
@[simp] theorem clearResv_isl (a : Nat) : (clearResv a s).isl = s.isl := rfl
@[simp] theorem clearResv_time (a : Nat) : (clearResv a s).time = s.time := rfl
@[simp] theorem clearResv_log (a : Nat) : (clearResv a s).log = s.log := rfl
@[simp] theorem clearResv_sig (a : Nat) : (clearResv a s).sig = s.sig := rfl
@[simp] theorem clearResv_harts (a : Nat) : (clearResv a s).harts = s.harts := rfl
@[simp] theorem clearResv_railA (a : Nat) : (clearResv a s).railA = s.railA := rfl
@[simp] theorem clearResv_railB (a : Nat) : (clearResv a s).railB = s.railB := rfl
@[simp] theorem clearResv_own (a : Nat) : (clearResv a s).own = s.own := rfl
@[simp] theorem clearResv_trg (a : Nat) : (clearResv a s).trg = s.trg := rfl
@[simp] theorem clearResv_cap (a : Nat) : (clearResv a s).cap = s.cap := rfl
@[simp] theorem clearResv_trgShadows (a : Nat) : (clearResv a s).trgShadows = s.trgShadows := rfl
@[simp] theorem clearResv_cam (a : Nat) : (clearResv a s).cam = s.cam := rfl
@[simp] theorem clearResv_can (a : Nat) : (clearResv a s).can = s.can := rfl
@[simp] theorem clearResv_lin (a : Nat) : (clearResv a s).lin = s.lin := rfl
@[simp] theorem clearResv_nm (a : Nat) : (clearResv a s).nm = s.nm := rfl
@[simp] theorem clearResv_eng (a : Nat) : (clearResv a s).eng = s.eng := rfl
@[simp] theorem clearResv_issuer (a : Nat) : (clearResv a s).issuer = s.issuer := rfl
@[simp] theorem clearResv_sw (a : Nat) : (clearResv a s).sw = s.sw := rfl
@[simp] theorem clearResv_vqi (a : Nat) : (clearResv a s).vqi = s.vqi := rfl
@[simp] theorem clearResv_mbox (a : Nat) : (clearResv a s).mbox = s.mbox := rfl
@[simp] theorem clearResv_pulses (a : Nat) : (clearResv a s).pulses = s.pulses := rfl
@[simp] theorem clearResv_pd (a : Nat) : (clearResv a s).pd = s.pd := rfl
@[simp] theorem clearResv_fio (a : Nat) : (clearResv a s).fio = s.fio := rfl
@[simp] theorem clearResv_ic (a : Nat) : (clearResv a s).ic = s.ic := rfl
@[simp] theorem clearResv_pair (a : Nat) : (clearResv a s).pair = s.pair := rfl
@[simp] theorem clearResv_heron (a : Nat) : (clearResv a s).heron = s.heron := rfl
@[simp] theorem clearResv_key (a : Nat) : (clearResv a s).key = s.key := rfl
@[simp] theorem clearResv_boot (a : Nat) : (clearResv a s).boot = s.boot := rfl
@[simp] theorem clearResv_blw (a : Nat) : (clearResv a s).blw = s.blw := rfl

/-! ### answer -/

@[simp] theorem answer_pending (r : Status) (d : Nat) : (answer r d s).pending = s.pending := rfl
@[simp] theorem answer_regs (r : Status) (d : Nat) : (answer r d s).regs = s.regs := rfl
@[simp] theorem answer_mem (r : Status) (d : Nat) : (answer r d s).mem = s.mem := rfl
@[simp] theorem answer_dram (r : Status) (d : Nat) : (answer r d s).dram = s.dram := rfl
@[simp] theorem answer_flash (r : Status) (d : Nat) : (answer r d s).flash = s.flash := rfl
@[simp] theorem answer_cwy (r : Status) (d : Nat) : (answer r d s).cwy = s.cwy := rfl
@[simp] theorem answer_now (r : Status) (d : Nat) : (answer r d s).now = s.now := rfl
@[simp] theorem answer_resp (r : Status) (d : Nat) : (answer r d s).resp = ⟨r, BitVec.ofNat 32 d⟩ := rfl
@[simp] theorem answer_fresh (r : Status) (d : Nat) : (answer r d s).fresh = s.fresh := rfl
@[simp] theorem answer_isl (r : Status) (d : Nat) : (answer r d s).isl = s.isl := rfl
@[simp] theorem answer_time (r : Status) (d : Nat) : (answer r d s).time = s.time := rfl
@[simp] theorem answer_log (r : Status) (d : Nat) : (answer r d s).log = s.log := rfl
@[simp] theorem answer_sig (r : Status) (d : Nat) : (answer r d s).sig = s.sig := rfl
@[simp] theorem answer_harts (r : Status) (d : Nat) : (answer r d s).harts = s.harts := rfl
@[simp] theorem answer_railA (r : Status) (d : Nat) : (answer r d s).railA = s.railA := rfl
@[simp] theorem answer_railB (r : Status) (d : Nat) : (answer r d s).railB = s.railB := rfl
@[simp] theorem answer_own (r : Status) (d : Nat) : (answer r d s).own = s.own := rfl
@[simp] theorem answer_trg (r : Status) (d : Nat) : (answer r d s).trg = s.trg := rfl
@[simp] theorem answer_cap (r : Status) (d : Nat) : (answer r d s).cap = s.cap := rfl
@[simp] theorem answer_trgShadows (r : Status) (d : Nat) : (answer r d s).trgShadows = s.trgShadows := rfl
@[simp] theorem answer_cam (r : Status) (d : Nat) : (answer r d s).cam = s.cam := rfl
@[simp] theorem answer_can (r : Status) (d : Nat) : (answer r d s).can = s.can := rfl
@[simp] theorem answer_lin (r : Status) (d : Nat) : (answer r d s).lin = s.lin := rfl
@[simp] theorem answer_nm (r : Status) (d : Nat) : (answer r d s).nm = s.nm := rfl
@[simp] theorem answer_eng (r : Status) (d : Nat) : (answer r d s).eng = s.eng := rfl
@[simp] theorem answer_issuer (r : Status) (d : Nat) : (answer r d s).issuer = s.issuer := rfl
@[simp] theorem answer_sw (r : Status) (d : Nat) : (answer r d s).sw = s.sw := rfl
@[simp] theorem answer_vqi (r : Status) (d : Nat) : (answer r d s).vqi = s.vqi := rfl
@[simp] theorem answer_mbox (r : Status) (d : Nat) : (answer r d s).mbox = s.mbox := rfl
@[simp] theorem answer_pulses (r : Status) (d : Nat) : (answer r d s).pulses = s.pulses := rfl
@[simp] theorem answer_pd (r : Status) (d : Nat) : (answer r d s).pd = s.pd := rfl
@[simp] theorem answer_fio (r : Status) (d : Nat) : (answer r d s).fio = s.fio := rfl
@[simp] theorem answer_ic (r : Status) (d : Nat) : (answer r d s).ic = s.ic := rfl
@[simp] theorem answer_pair (r : Status) (d : Nat) : (answer r d s).pair = s.pair := rfl
@[simp] theorem answer_heron (r : Status) (d : Nat) : (answer r d s).heron = s.heron := rfl
@[simp] theorem answer_key (r : Status) (d : Nat) : (answer r d s).key = s.key := rfl
@[simp] theorem answer_boot (r : Status) (d : Nat) : (answer r d s).boot = s.boot := rfl
@[simp] theorem answer_blw (r : Status) (d : Nat) : (answer r d s).blw = s.blw := rfl

/-! ### ok -/

@[simp] theorem ok_pending : (ok s).pending = s.pending := rfl
@[simp] theorem ok_regs : (ok s).regs = s.regs := rfl
@[simp] theorem ok_mem : (ok s).mem = s.mem := rfl
@[simp] theorem ok_dram : (ok s).dram = s.dram := rfl
@[simp] theorem ok_flash : (ok s).flash = s.flash := rfl
@[simp] theorem ok_cwy : (ok s).cwy = s.cwy := rfl
@[simp] theorem ok_now : (ok s).now = s.now := rfl
@[simp] theorem ok_resp : (ok s).resp = ⟨.done, 0⟩ := rfl
@[simp] theorem ok_fresh : (ok s).fresh = s.fresh := rfl
@[simp] theorem ok_isl : (ok s).isl = s.isl := rfl
@[simp] theorem ok_time : (ok s).time = s.time := rfl
@[simp] theorem ok_log : (ok s).log = s.log := rfl
@[simp] theorem ok_sig : (ok s).sig = s.sig := rfl
@[simp] theorem ok_harts : (ok s).harts = s.harts := rfl
@[simp] theorem ok_railA : (ok s).railA = s.railA := rfl
@[simp] theorem ok_railB : (ok s).railB = s.railB := rfl
@[simp] theorem ok_own : (ok s).own = s.own := rfl
@[simp] theorem ok_trg : (ok s).trg = s.trg := rfl
@[simp] theorem ok_cap : (ok s).cap = s.cap := rfl
@[simp] theorem ok_trgShadows : (ok s).trgShadows = s.trgShadows := rfl
@[simp] theorem ok_cam : (ok s).cam = s.cam := rfl
@[simp] theorem ok_can : (ok s).can = s.can := rfl
@[simp] theorem ok_lin : (ok s).lin = s.lin := rfl
@[simp] theorem ok_nm : (ok s).nm = s.nm := rfl
@[simp] theorem ok_eng : (ok s).eng = s.eng := rfl
@[simp] theorem ok_issuer : (ok s).issuer = s.issuer := rfl
@[simp] theorem ok_sw : (ok s).sw = s.sw := rfl
@[simp] theorem ok_vqi : (ok s).vqi = s.vqi := rfl
@[simp] theorem ok_mbox : (ok s).mbox = s.mbox := rfl
@[simp] theorem ok_pulses : (ok s).pulses = s.pulses := rfl
@[simp] theorem ok_pd : (ok s).pd = s.pd := rfl
@[simp] theorem ok_fio : (ok s).fio = s.fio := rfl
@[simp] theorem ok_ic : (ok s).ic = s.ic := rfl
@[simp] theorem ok_pair : (ok s).pair = s.pair := rfl
@[simp] theorem ok_heron : (ok s).heron = s.heron := rfl
@[simp] theorem ok_key : (ok s).key = s.key := rfl
@[simp] theorem ok_boot : (ok s).boot = s.boot := rfl
@[simp] theorem ok_blw : (ok s).blw = s.blw := rfl

/-! ### bad -/

@[simp] theorem bad_pending : (bad s).pending = s.pending := rfl
@[simp] theorem bad_regs : (bad s).regs = s.regs := rfl
@[simp] theorem bad_mem : (bad s).mem = s.mem := rfl
@[simp] theorem bad_dram : (bad s).dram = s.dram := rfl
@[simp] theorem bad_flash : (bad s).flash = s.flash := rfl
@[simp] theorem bad_cwy : (bad s).cwy = s.cwy := rfl
@[simp] theorem bad_now : (bad s).now = s.now := rfl
@[simp] theorem bad_resp : (bad s).resp = ⟨.failedRefused, 0⟩ := rfl
@[simp] theorem bad_fresh : (bad s).fresh = s.fresh := rfl
@[simp] theorem bad_isl : (bad s).isl = s.isl := rfl
@[simp] theorem bad_time : (bad s).time = s.time := rfl
@[simp] theorem bad_log : (bad s).log = s.log := rfl
@[simp] theorem bad_sig : (bad s).sig = s.sig := rfl
@[simp] theorem bad_harts : (bad s).harts = s.harts := rfl
@[simp] theorem bad_railA : (bad s).railA = s.railA := rfl
@[simp] theorem bad_railB : (bad s).railB = s.railB := rfl
@[simp] theorem bad_own : (bad s).own = s.own := rfl
@[simp] theorem bad_trg : (bad s).trg = s.trg := rfl
@[simp] theorem bad_cap : (bad s).cap = s.cap := rfl
@[simp] theorem bad_trgShadows : (bad s).trgShadows = s.trgShadows := rfl
@[simp] theorem bad_cam : (bad s).cam = s.cam := rfl
@[simp] theorem bad_can : (bad s).can = s.can := rfl
@[simp] theorem bad_lin : (bad s).lin = s.lin := rfl
@[simp] theorem bad_nm : (bad s).nm = s.nm := rfl
@[simp] theorem bad_eng : (bad s).eng = s.eng := rfl
@[simp] theorem bad_issuer : (bad s).issuer = s.issuer := rfl
@[simp] theorem bad_sw : (bad s).sw = s.sw := rfl
@[simp] theorem bad_vqi : (bad s).vqi = s.vqi := rfl
@[simp] theorem bad_mbox : (bad s).mbox = s.mbox := rfl
@[simp] theorem bad_pulses : (bad s).pulses = s.pulses := rfl
@[simp] theorem bad_pd : (bad s).pd = s.pd := rfl
@[simp] theorem bad_fio : (bad s).fio = s.fio := rfl
@[simp] theorem bad_ic : (bad s).ic = s.ic := rfl
@[simp] theorem bad_pair : (bad s).pair = s.pair := rfl
@[simp] theorem bad_heron : (bad s).heron = s.heron := rfl
@[simp] theorem bad_key : (bad s).key = s.key := rfl
@[simp] theorem bad_boot : (bad s).boot = s.boot := rfl
@[simp] theorem bad_blw : (bad s).blw = s.blw := rfl

/-! ### useFree -/

@[simp] theorem useFree_pending : (useFree s).pending = s.pending := rfl
@[simp] theorem useFree_regs : (useFree s).regs = s.regs := rfl
@[simp] theorem useFree_mem : (useFree s).mem = s.mem := rfl
@[simp] theorem useFree_dram : (useFree s).dram = s.dram := rfl
@[simp] theorem useFree_flash : (useFree s).flash = s.flash := rfl
@[simp] theorem useFree_cwy : (useFree s).cwy = s.cwy := rfl
@[simp] theorem useFree_now : (useFree s).now = s.now := rfl
@[simp] theorem useFree_resp : (useFree s).resp = s.resp := rfl
@[simp] theorem useFree_fresh : (useFree s).fresh = s.fresh + 1 := rfl
@[simp] theorem useFree_isl : (useFree s).isl = s.isl := rfl
@[simp] theorem useFree_time : (useFree s).time = s.time := rfl
@[simp] theorem useFree_log : (useFree s).log = s.log := rfl
@[simp] theorem useFree_sig : (useFree s).sig = s.sig := rfl
@[simp] theorem useFree_harts : (useFree s).harts = s.harts := rfl
@[simp] theorem useFree_railA : (useFree s).railA = s.railA := rfl
@[simp] theorem useFree_railB : (useFree s).railB = s.railB := rfl
@[simp] theorem useFree_own : (useFree s).own = s.own := rfl
@[simp] theorem useFree_trg : (useFree s).trg = s.trg := rfl
@[simp] theorem useFree_cap : (useFree s).cap = s.cap := rfl
@[simp] theorem useFree_trgShadows : (useFree s).trgShadows = s.trgShadows := rfl
@[simp] theorem useFree_cam : (useFree s).cam = s.cam := rfl
@[simp] theorem useFree_can : (useFree s).can = s.can := rfl
@[simp] theorem useFree_lin : (useFree s).lin = s.lin := rfl
@[simp] theorem useFree_nm : (useFree s).nm = s.nm := rfl
@[simp] theorem useFree_eng : (useFree s).eng = s.eng := rfl
@[simp] theorem useFree_issuer : (useFree s).issuer = s.issuer := rfl
@[simp] theorem useFree_sw : (useFree s).sw = s.sw := rfl
@[simp] theorem useFree_vqi : (useFree s).vqi = s.vqi := rfl
@[simp] theorem useFree_mbox : (useFree s).mbox = s.mbox := rfl
@[simp] theorem useFree_pulses : (useFree s).pulses = s.pulses := rfl
@[simp] theorem useFree_pd : (useFree s).pd = s.pd := rfl
@[simp] theorem useFree_fio : (useFree s).fio = s.fio := rfl
@[simp] theorem useFree_ic : (useFree s).ic = s.ic := rfl
@[simp] theorem useFree_pair : (useFree s).pair = s.pair := rfl
@[simp] theorem useFree_heron : (useFree s).heron = s.heron := rfl
@[simp] theorem useFree_key : (useFree s).key = s.key := rfl
@[simp] theorem useFree_boot : (useFree s).boot = s.boot := rfl
@[simp] theorem useFree_blw : (useFree s).blw = s.blw := rfl

/-! ### pulse -/

@[simp] theorem pulse_pending (n : Nat) : (pulse n s).pending = s.pending := by unfold pulse; split <;> rfl
@[simp] theorem pulse_regs (n : Nat) : (pulse n s).regs = s.regs := by unfold pulse; split <;> rfl
@[simp] theorem pulse_mem (n : Nat) : (pulse n s).mem = s.mem := by unfold pulse; split <;> rfl
@[simp] theorem pulse_dram (n : Nat) : (pulse n s).dram = s.dram := by unfold pulse; split <;> rfl
@[simp] theorem pulse_flash (n : Nat) : (pulse n s).flash = s.flash := by unfold pulse; split <;> rfl
@[simp] theorem pulse_cwy (n : Nat) : (pulse n s).cwy = s.cwy := by unfold pulse; split <;> rfl
@[simp] theorem pulse_now (n : Nat) : (pulse n s).now = s.now := by unfold pulse; split <;> rfl
@[simp] theorem pulse_resp (n : Nat) : (pulse n s).resp = s.resp := by unfold pulse; split <;> rfl
@[simp] theorem pulse_fresh (n : Nat) : (pulse n s).fresh = s.fresh := by unfold pulse; split <;> rfl
@[simp] theorem pulse_isl (n : Nat) : (pulse n s).isl = s.isl := by unfold pulse; split <;> rfl
@[simp] theorem pulse_time (n : Nat) : (pulse n s).time = s.time := by unfold pulse; split <;> rfl
@[simp] theorem pulse_log (n : Nat) : (pulse n s).log = s.log := by unfold pulse; split <;> rfl
@[simp] theorem pulse_sig (n : Nat) : (pulse n s).sig = s.sig := by unfold pulse; split <;> rfl
@[simp] theorem pulse_harts (n : Nat) : (pulse n s).harts = s.harts := by unfold pulse; split <;> rfl
@[simp] theorem pulse_railA (n : Nat) : (pulse n s).railA = s.railA := by unfold pulse; split <;> rfl
@[simp] theorem pulse_railB (n : Nat) : (pulse n s).railB = s.railB := by unfold pulse; split <;> rfl
@[simp] theorem pulse_own (n : Nat) : (pulse n s).own = s.own := by unfold pulse; split <;> rfl
@[simp] theorem pulse_trg (n : Nat) : (pulse n s).trg = s.trg := by unfold pulse; split <;> rfl
@[simp] theorem pulse_cap (n : Nat) : (pulse n s).cap = s.cap := by unfold pulse; split <;> rfl
@[simp] theorem pulse_trgShadows (n : Nat) : (pulse n s).trgShadows = s.trgShadows := by unfold pulse; split <;> rfl
@[simp] theorem pulse_cam (n : Nat) : (pulse n s).cam = s.cam := by unfold pulse; split <;> rfl
@[simp] theorem pulse_can (n : Nat) : (pulse n s).can = s.can := by unfold pulse; split <;> rfl
@[simp] theorem pulse_lin (n : Nat) : (pulse n s).lin = s.lin := by unfold pulse; split <;> rfl
@[simp] theorem pulse_nm (n : Nat) : (pulse n s).nm = s.nm := by unfold pulse; split <;> rfl
@[simp] theorem pulse_eng (n : Nat) : (pulse n s).eng = s.eng := by unfold pulse; split <;> rfl
@[simp] theorem pulse_issuer (n : Nat) : (pulse n s).issuer = s.issuer := by unfold pulse; split <;> rfl
@[simp] theorem pulse_sw (n : Nat) : (pulse n s).sw = s.sw := by unfold pulse; split <;> rfl
@[simp] theorem pulse_vqi (n : Nat) : (pulse n s).vqi = s.vqi := by unfold pulse; split <;> rfl
@[simp] theorem pulse_mbox (n : Nat) : (pulse n s).mbox = s.mbox := by unfold pulse; split <;> rfl
@[simp] theorem pulse_pd (n : Nat) : (pulse n s).pd = s.pd := by unfold pulse; split <;> rfl
@[simp] theorem pulse_fio (n : Nat) : (pulse n s).fio = s.fio := by unfold pulse; split <;> rfl
@[simp] theorem pulse_ic (n : Nat) : (pulse n s).ic = s.ic := by unfold pulse; split <;> rfl
@[simp] theorem pulse_pair (n : Nat) : (pulse n s).pair = s.pair := by unfold pulse; split <;> rfl
@[simp] theorem pulse_heron (n : Nat) : (pulse n s).heron = s.heron := by unfold pulse; split <;> rfl
@[simp] theorem pulse_key (n : Nat) : (pulse n s).key = s.key := by unfold pulse; split <;> rfl
@[simp] theorem pulse_boot (n : Nat) : (pulse n s).boot = s.boot := by unfold pulse; split <;> rfl
@[simp] theorem pulse_blw (n : Nat) : (pulse n s).blw = s.blw := by unfold pulse; split <;> rfl

/-! ### updIsl -/

@[simp] theorem updIsl_pending (i : Fin 21) (f : Island → Island) : (updIsl i f s).pending = s.pending := rfl
@[simp] theorem updIsl_regs (i : Fin 21) (f : Island → Island) : (updIsl i f s).regs = s.regs := rfl
@[simp] theorem updIsl_mem (i : Fin 21) (f : Island → Island) : (updIsl i f s).mem = s.mem := rfl
@[simp] theorem updIsl_dram (i : Fin 21) (f : Island → Island) : (updIsl i f s).dram = s.dram := rfl
@[simp] theorem updIsl_flash (i : Fin 21) (f : Island → Island) : (updIsl i f s).flash = s.flash := rfl
@[simp] theorem updIsl_cwy (i : Fin 21) (f : Island → Island) : (updIsl i f s).cwy = s.cwy := rfl
@[simp] theorem updIsl_now (i : Fin 21) (f : Island → Island) : (updIsl i f s).now = s.now := rfl
@[simp] theorem updIsl_resp (i : Fin 21) (f : Island → Island) : (updIsl i f s).resp = s.resp := rfl
@[simp] theorem updIsl_fresh (i : Fin 21) (f : Island → Island) : (updIsl i f s).fresh = s.fresh := rfl
@[simp] theorem updIsl_isl (i : Fin 21) (f : Island → Island) : (updIsl i f s).isl = upd s.isl i f := rfl
@[simp] theorem updIsl_time (i : Fin 21) (f : Island → Island) : (updIsl i f s).time = s.time := rfl
@[simp] theorem updIsl_log (i : Fin 21) (f : Island → Island) : (updIsl i f s).log = s.log := rfl
@[simp] theorem updIsl_sig (i : Fin 21) (f : Island → Island) : (updIsl i f s).sig = s.sig := rfl
@[simp] theorem updIsl_harts (i : Fin 21) (f : Island → Island) : (updIsl i f s).harts = s.harts := rfl
@[simp] theorem updIsl_railA (i : Fin 21) (f : Island → Island) : (updIsl i f s).railA = s.railA := rfl
@[simp] theorem updIsl_railB (i : Fin 21) (f : Island → Island) : (updIsl i f s).railB = s.railB := rfl
@[simp] theorem updIsl_own (i : Fin 21) (f : Island → Island) : (updIsl i f s).own = s.own := rfl
@[simp] theorem updIsl_trg (i : Fin 21) (f : Island → Island) : (updIsl i f s).trg = s.trg := rfl
@[simp] theorem updIsl_cap (i : Fin 21) (f : Island → Island) : (updIsl i f s).cap = s.cap := rfl
@[simp] theorem updIsl_trgShadows (i : Fin 21) (f : Island → Island) : (updIsl i f s).trgShadows = s.trgShadows := rfl
@[simp] theorem updIsl_cam (i : Fin 21) (f : Island → Island) : (updIsl i f s).cam = s.cam := rfl
@[simp] theorem updIsl_can (i : Fin 21) (f : Island → Island) : (updIsl i f s).can = s.can := rfl
@[simp] theorem updIsl_lin (i : Fin 21) (f : Island → Island) : (updIsl i f s).lin = s.lin := rfl
@[simp] theorem updIsl_nm (i : Fin 21) (f : Island → Island) : (updIsl i f s).nm = s.nm := rfl
@[simp] theorem updIsl_eng (i : Fin 21) (f : Island → Island) : (updIsl i f s).eng = s.eng := rfl
@[simp] theorem updIsl_issuer (i : Fin 21) (f : Island → Island) : (updIsl i f s).issuer = s.issuer := rfl
@[simp] theorem updIsl_sw (i : Fin 21) (f : Island → Island) : (updIsl i f s).sw = s.sw := rfl
@[simp] theorem updIsl_vqi (i : Fin 21) (f : Island → Island) : (updIsl i f s).vqi = s.vqi := rfl
@[simp] theorem updIsl_mbox (i : Fin 21) (f : Island → Island) : (updIsl i f s).mbox = s.mbox := rfl
@[simp] theorem updIsl_pulses (i : Fin 21) (f : Island → Island) : (updIsl i f s).pulses = s.pulses := rfl
@[simp] theorem updIsl_pd (i : Fin 21) (f : Island → Island) : (updIsl i f s).pd = s.pd := rfl
@[simp] theorem updIsl_fio (i : Fin 21) (f : Island → Island) : (updIsl i f s).fio = s.fio := rfl
@[simp] theorem updIsl_ic (i : Fin 21) (f : Island → Island) : (updIsl i f s).ic = s.ic := rfl
@[simp] theorem updIsl_pair (i : Fin 21) (f : Island → Island) : (updIsl i f s).pair = s.pair := rfl
@[simp] theorem updIsl_heron (i : Fin 21) (f : Island → Island) : (updIsl i f s).heron = s.heron := rfl
@[simp] theorem updIsl_key (i : Fin 21) (f : Island → Island) : (updIsl i f s).key = s.key := rfl
@[simp] theorem updIsl_boot (i : Fin 21) (f : Island → Island) : (updIsl i f s).boot = s.boot := rfl
@[simp] theorem updIsl_blw (i : Fin 21) (f : Island → Island) : (updIsl i f s).blw = s.blw := rfl

/-! ### updTime -/

@[simp] theorem updTime_pending (f : TimeSt → TimeSt) : (updTime f s).pending = s.pending := rfl
@[simp] theorem updTime_regs (f : TimeSt → TimeSt) : (updTime f s).regs = s.regs := rfl
@[simp] theorem updTime_mem (f : TimeSt → TimeSt) : (updTime f s).mem = s.mem := rfl
@[simp] theorem updTime_dram (f : TimeSt → TimeSt) : (updTime f s).dram = s.dram := rfl
@[simp] theorem updTime_flash (f : TimeSt → TimeSt) : (updTime f s).flash = s.flash := rfl
@[simp] theorem updTime_cwy (f : TimeSt → TimeSt) : (updTime f s).cwy = s.cwy := rfl
@[simp] theorem updTime_now (f : TimeSt → TimeSt) : (updTime f s).now = s.now := rfl
@[simp] theorem updTime_resp (f : TimeSt → TimeSt) : (updTime f s).resp = s.resp := rfl
@[simp] theorem updTime_fresh (f : TimeSt → TimeSt) : (updTime f s).fresh = s.fresh := rfl
@[simp] theorem updTime_isl (f : TimeSt → TimeSt) : (updTime f s).isl = s.isl := rfl
@[simp] theorem updTime_time (f : TimeSt → TimeSt) : (updTime f s).time = f s.time := rfl
@[simp] theorem updTime_log (f : TimeSt → TimeSt) : (updTime f s).log = s.log := rfl
@[simp] theorem updTime_sig (f : TimeSt → TimeSt) : (updTime f s).sig = s.sig := rfl
@[simp] theorem updTime_harts (f : TimeSt → TimeSt) : (updTime f s).harts = s.harts := rfl
@[simp] theorem updTime_railA (f : TimeSt → TimeSt) : (updTime f s).railA = s.railA := rfl
@[simp] theorem updTime_railB (f : TimeSt → TimeSt) : (updTime f s).railB = s.railB := rfl
@[simp] theorem updTime_own (f : TimeSt → TimeSt) : (updTime f s).own = s.own := rfl
@[simp] theorem updTime_trg (f : TimeSt → TimeSt) : (updTime f s).trg = s.trg := rfl
@[simp] theorem updTime_cap (f : TimeSt → TimeSt) : (updTime f s).cap = s.cap := rfl
@[simp] theorem updTime_trgShadows (f : TimeSt → TimeSt) : (updTime f s).trgShadows = s.trgShadows := rfl
@[simp] theorem updTime_cam (f : TimeSt → TimeSt) : (updTime f s).cam = s.cam := rfl
@[simp] theorem updTime_can (f : TimeSt → TimeSt) : (updTime f s).can = s.can := rfl
@[simp] theorem updTime_lin (f : TimeSt → TimeSt) : (updTime f s).lin = s.lin := rfl
@[simp] theorem updTime_nm (f : TimeSt → TimeSt) : (updTime f s).nm = s.nm := rfl
@[simp] theorem updTime_eng (f : TimeSt → TimeSt) : (updTime f s).eng = s.eng := rfl
@[simp] theorem updTime_issuer (f : TimeSt → TimeSt) : (updTime f s).issuer = s.issuer := rfl
@[simp] theorem updTime_sw (f : TimeSt → TimeSt) : (updTime f s).sw = s.sw := rfl
@[simp] theorem updTime_vqi (f : TimeSt → TimeSt) : (updTime f s).vqi = s.vqi := rfl
@[simp] theorem updTime_mbox (f : TimeSt → TimeSt) : (updTime f s).mbox = s.mbox := rfl
@[simp] theorem updTime_pulses (f : TimeSt → TimeSt) : (updTime f s).pulses = s.pulses := rfl
@[simp] theorem updTime_pd (f : TimeSt → TimeSt) : (updTime f s).pd = s.pd := rfl
@[simp] theorem updTime_fio (f : TimeSt → TimeSt) : (updTime f s).fio = s.fio := rfl
@[simp] theorem updTime_ic (f : TimeSt → TimeSt) : (updTime f s).ic = s.ic := rfl
@[simp] theorem updTime_pair (f : TimeSt → TimeSt) : (updTime f s).pair = s.pair := rfl
@[simp] theorem updTime_heron (f : TimeSt → TimeSt) : (updTime f s).heron = s.heron := rfl
@[simp] theorem updTime_key (f : TimeSt → TimeSt) : (updTime f s).key = s.key := rfl
@[simp] theorem updTime_boot (f : TimeSt → TimeSt) : (updTime f s).boot = s.boot := rfl
@[simp] theorem updTime_blw (f : TimeSt → TimeSt) : (updTime f s).blw = s.blw := rfl

/-! ### updTimeIsl -/

@[simp] theorem updTimeIsl_pending (b : Bool) (f : TimeIsl → TimeIsl) : (updTimeIsl b f s).pending = s.pending := rfl
@[simp] theorem updTimeIsl_regs (b : Bool) (f : TimeIsl → TimeIsl) : (updTimeIsl b f s).regs = s.regs := rfl
@[simp] theorem updTimeIsl_mem (b : Bool) (f : TimeIsl → TimeIsl) : (updTimeIsl b f s).mem = s.mem := rfl
@[simp] theorem updTimeIsl_dram (b : Bool) (f : TimeIsl → TimeIsl) : (updTimeIsl b f s).dram = s.dram := rfl
@[simp] theorem updTimeIsl_flash (b : Bool) (f : TimeIsl → TimeIsl) : (updTimeIsl b f s).flash = s.flash := rfl
@[simp] theorem updTimeIsl_cwy (b : Bool) (f : TimeIsl → TimeIsl) : (updTimeIsl b f s).cwy = s.cwy := rfl
@[simp] theorem updTimeIsl_now (b : Bool) (f : TimeIsl → TimeIsl) : (updTimeIsl b f s).now = s.now := rfl
@[simp] theorem updTimeIsl_resp (b : Bool) (f : TimeIsl → TimeIsl) : (updTimeIsl b f s).resp = s.resp := rfl
@[simp] theorem updTimeIsl_fresh (b : Bool) (f : TimeIsl → TimeIsl) : (updTimeIsl b f s).fresh = s.fresh := rfl
@[simp] theorem updTimeIsl_isl (b : Bool) (f : TimeIsl → TimeIsl) : (updTimeIsl b f s).isl = s.isl := rfl
@[simp] theorem updTimeIsl_log (b : Bool) (f : TimeIsl → TimeIsl) : (updTimeIsl b f s).log = s.log := rfl
@[simp] theorem updTimeIsl_sig (b : Bool) (f : TimeIsl → TimeIsl) : (updTimeIsl b f s).sig = s.sig := rfl
@[simp] theorem updTimeIsl_harts (b : Bool) (f : TimeIsl → TimeIsl) : (updTimeIsl b f s).harts = s.harts := rfl
@[simp] theorem updTimeIsl_railA (b : Bool) (f : TimeIsl → TimeIsl) : (updTimeIsl b f s).railA = s.railA := rfl
@[simp] theorem updTimeIsl_railB (b : Bool) (f : TimeIsl → TimeIsl) : (updTimeIsl b f s).railB = s.railB := rfl
@[simp] theorem updTimeIsl_own (b : Bool) (f : TimeIsl → TimeIsl) : (updTimeIsl b f s).own = s.own := rfl
@[simp] theorem updTimeIsl_trg (b : Bool) (f : TimeIsl → TimeIsl) : (updTimeIsl b f s).trg = s.trg := rfl
@[simp] theorem updTimeIsl_cap (b : Bool) (f : TimeIsl → TimeIsl) : (updTimeIsl b f s).cap = s.cap := rfl
@[simp] theorem updTimeIsl_trgShadows (b : Bool) (f : TimeIsl → TimeIsl) : (updTimeIsl b f s).trgShadows = s.trgShadows := rfl
@[simp] theorem updTimeIsl_cam (b : Bool) (f : TimeIsl → TimeIsl) : (updTimeIsl b f s).cam = s.cam := rfl
@[simp] theorem updTimeIsl_can (b : Bool) (f : TimeIsl → TimeIsl) : (updTimeIsl b f s).can = s.can := rfl
@[simp] theorem updTimeIsl_lin (b : Bool) (f : TimeIsl → TimeIsl) : (updTimeIsl b f s).lin = s.lin := rfl
@[simp] theorem updTimeIsl_nm (b : Bool) (f : TimeIsl → TimeIsl) : (updTimeIsl b f s).nm = s.nm := rfl
@[simp] theorem updTimeIsl_eng (b : Bool) (f : TimeIsl → TimeIsl) : (updTimeIsl b f s).eng = s.eng := rfl
@[simp] theorem updTimeIsl_issuer (b : Bool) (f : TimeIsl → TimeIsl) : (updTimeIsl b f s).issuer = s.issuer := rfl
@[simp] theorem updTimeIsl_sw (b : Bool) (f : TimeIsl → TimeIsl) : (updTimeIsl b f s).sw = s.sw := rfl
@[simp] theorem updTimeIsl_vqi (b : Bool) (f : TimeIsl → TimeIsl) : (updTimeIsl b f s).vqi = s.vqi := rfl
@[simp] theorem updTimeIsl_mbox (b : Bool) (f : TimeIsl → TimeIsl) : (updTimeIsl b f s).mbox = s.mbox := rfl
@[simp] theorem updTimeIsl_pulses (b : Bool) (f : TimeIsl → TimeIsl) : (updTimeIsl b f s).pulses = s.pulses := rfl
@[simp] theorem updTimeIsl_pd (b : Bool) (f : TimeIsl → TimeIsl) : (updTimeIsl b f s).pd = s.pd := rfl
@[simp] theorem updTimeIsl_fio (b : Bool) (f : TimeIsl → TimeIsl) : (updTimeIsl b f s).fio = s.fio := rfl
@[simp] theorem updTimeIsl_ic (b : Bool) (f : TimeIsl → TimeIsl) : (updTimeIsl b f s).ic = s.ic := rfl
@[simp] theorem updTimeIsl_pair (b : Bool) (f : TimeIsl → TimeIsl) : (updTimeIsl b f s).pair = s.pair := rfl
@[simp] theorem updTimeIsl_heron (b : Bool) (f : TimeIsl → TimeIsl) : (updTimeIsl b f s).heron = s.heron := rfl
@[simp] theorem updTimeIsl_key (b : Bool) (f : TimeIsl → TimeIsl) : (updTimeIsl b f s).key = s.key := rfl
@[simp] theorem updTimeIsl_boot (b : Bool) (f : TimeIsl → TimeIsl) : (updTimeIsl b f s).boot = s.boot := rfl
@[simp] theorem updTimeIsl_blw (b : Bool) (f : TimeIsl → TimeIsl) : (updTimeIsl b f s).blw = s.blw := rfl

/-! ### updTwin -/

@[simp] theorem updTwin_pending (d : Bool) (f : TwinDir → TwinDir) : (updTwin d f s).pending = s.pending := rfl
@[simp] theorem updTwin_regs (d : Bool) (f : TwinDir → TwinDir) : (updTwin d f s).regs = s.regs := rfl
@[simp] theorem updTwin_mem (d : Bool) (f : TwinDir → TwinDir) : (updTwin d f s).mem = s.mem := rfl
@[simp] theorem updTwin_dram (d : Bool) (f : TwinDir → TwinDir) : (updTwin d f s).dram = s.dram := rfl
@[simp] theorem updTwin_flash (d : Bool) (f : TwinDir → TwinDir) : (updTwin d f s).flash = s.flash := rfl
@[simp] theorem updTwin_cwy (d : Bool) (f : TwinDir → TwinDir) : (updTwin d f s).cwy = s.cwy := rfl
@[simp] theorem updTwin_now (d : Bool) (f : TwinDir → TwinDir) : (updTwin d f s).now = s.now := rfl
@[simp] theorem updTwin_resp (d : Bool) (f : TwinDir → TwinDir) : (updTwin d f s).resp = s.resp := rfl
@[simp] theorem updTwin_fresh (d : Bool) (f : TwinDir → TwinDir) : (updTwin d f s).fresh = s.fresh := rfl
@[simp] theorem updTwin_isl (d : Bool) (f : TwinDir → TwinDir) : (updTwin d f s).isl = s.isl := rfl
@[simp] theorem updTwin_log (d : Bool) (f : TwinDir → TwinDir) : (updTwin d f s).log = s.log := rfl
@[simp] theorem updTwin_sig (d : Bool) (f : TwinDir → TwinDir) : (updTwin d f s).sig = s.sig := rfl
@[simp] theorem updTwin_harts (d : Bool) (f : TwinDir → TwinDir) : (updTwin d f s).harts = s.harts := rfl
@[simp] theorem updTwin_railA (d : Bool) (f : TwinDir → TwinDir) : (updTwin d f s).railA = s.railA := rfl
@[simp] theorem updTwin_railB (d : Bool) (f : TwinDir → TwinDir) : (updTwin d f s).railB = s.railB := rfl
@[simp] theorem updTwin_own (d : Bool) (f : TwinDir → TwinDir) : (updTwin d f s).own = s.own := rfl
@[simp] theorem updTwin_trg (d : Bool) (f : TwinDir → TwinDir) : (updTwin d f s).trg = s.trg := rfl
@[simp] theorem updTwin_cap (d : Bool) (f : TwinDir → TwinDir) : (updTwin d f s).cap = s.cap := rfl
@[simp] theorem updTwin_trgShadows (d : Bool) (f : TwinDir → TwinDir) : (updTwin d f s).trgShadows = s.trgShadows := rfl
@[simp] theorem updTwin_cam (d : Bool) (f : TwinDir → TwinDir) : (updTwin d f s).cam = s.cam := rfl
@[simp] theorem updTwin_can (d : Bool) (f : TwinDir → TwinDir) : (updTwin d f s).can = s.can := rfl
@[simp] theorem updTwin_lin (d : Bool) (f : TwinDir → TwinDir) : (updTwin d f s).lin = s.lin := rfl
@[simp] theorem updTwin_nm (d : Bool) (f : TwinDir → TwinDir) : (updTwin d f s).nm = s.nm := rfl
@[simp] theorem updTwin_eng (d : Bool) (f : TwinDir → TwinDir) : (updTwin d f s).eng = s.eng := rfl
@[simp] theorem updTwin_issuer (d : Bool) (f : TwinDir → TwinDir) : (updTwin d f s).issuer = s.issuer := rfl
@[simp] theorem updTwin_sw (d : Bool) (f : TwinDir → TwinDir) : (updTwin d f s).sw = s.sw := rfl
@[simp] theorem updTwin_vqi (d : Bool) (f : TwinDir → TwinDir) : (updTwin d f s).vqi = s.vqi := rfl
@[simp] theorem updTwin_mbox (d : Bool) (f : TwinDir → TwinDir) : (updTwin d f s).mbox = s.mbox := rfl
@[simp] theorem updTwin_pulses (d : Bool) (f : TwinDir → TwinDir) : (updTwin d f s).pulses = s.pulses := rfl
@[simp] theorem updTwin_pd (d : Bool) (f : TwinDir → TwinDir) : (updTwin d f s).pd = s.pd := rfl
@[simp] theorem updTwin_fio (d : Bool) (f : TwinDir → TwinDir) : (updTwin d f s).fio = s.fio := rfl
@[simp] theorem updTwin_ic (d : Bool) (f : TwinDir → TwinDir) : (updTwin d f s).ic = s.ic := rfl
@[simp] theorem updTwin_pair (d : Bool) (f : TwinDir → TwinDir) : (updTwin d f s).pair = s.pair := rfl
@[simp] theorem updTwin_heron (d : Bool) (f : TwinDir → TwinDir) : (updTwin d f s).heron = s.heron := rfl
@[simp] theorem updTwin_key (d : Bool) (f : TwinDir → TwinDir) : (updTwin d f s).key = s.key := rfl
@[simp] theorem updTwin_boot (d : Bool) (f : TwinDir → TwinDir) : (updTwin d f s).boot = s.boot := rfl
@[simp] theorem updTwin_blw (d : Bool) (f : TwinDir → TwinDir) : (updTwin d f s).blw = s.blw := rfl

/-! ### updThr -/

@[simp] theorem updThr_pending (e : Fin 24) (t : Fin 4) (f : EngThr → EngThr) : (updThr e t f s).pending = s.pending := rfl
@[simp] theorem updThr_regs (e : Fin 24) (t : Fin 4) (f : EngThr → EngThr) : (updThr e t f s).regs = s.regs := rfl
@[simp] theorem updThr_mem (e : Fin 24) (t : Fin 4) (f : EngThr → EngThr) : (updThr e t f s).mem = s.mem := rfl
@[simp] theorem updThr_dram (e : Fin 24) (t : Fin 4) (f : EngThr → EngThr) : (updThr e t f s).dram = s.dram := rfl
@[simp] theorem updThr_flash (e : Fin 24) (t : Fin 4) (f : EngThr → EngThr) : (updThr e t f s).flash = s.flash := rfl
@[simp] theorem updThr_cwy (e : Fin 24) (t : Fin 4) (f : EngThr → EngThr) : (updThr e t f s).cwy = s.cwy := rfl
@[simp] theorem updThr_now (e : Fin 24) (t : Fin 4) (f : EngThr → EngThr) : (updThr e t f s).now = s.now := rfl
@[simp] theorem updThr_resp (e : Fin 24) (t : Fin 4) (f : EngThr → EngThr) : (updThr e t f s).resp = s.resp := rfl
@[simp] theorem updThr_fresh (e : Fin 24) (t : Fin 4) (f : EngThr → EngThr) : (updThr e t f s).fresh = s.fresh := rfl
@[simp] theorem updThr_isl (e : Fin 24) (t : Fin 4) (f : EngThr → EngThr) : (updThr e t f s).isl = s.isl := rfl
@[simp] theorem updThr_time (e : Fin 24) (t : Fin 4) (f : EngThr → EngThr) : (updThr e t f s).time = s.time := rfl
@[simp] theorem updThr_log (e : Fin 24) (t : Fin 4) (f : EngThr → EngThr) : (updThr e t f s).log = s.log := rfl
@[simp] theorem updThr_sig (e : Fin 24) (t : Fin 4) (f : EngThr → EngThr) : (updThr e t f s).sig = s.sig := rfl
@[simp] theorem updThr_harts (e : Fin 24) (t : Fin 4) (f : EngThr → EngThr) : (updThr e t f s).harts = s.harts := rfl
@[simp] theorem updThr_railA (e : Fin 24) (t : Fin 4) (f : EngThr → EngThr) : (updThr e t f s).railA = s.railA := rfl
@[simp] theorem updThr_railB (e : Fin 24) (t : Fin 4) (f : EngThr → EngThr) : (updThr e t f s).railB = s.railB := rfl
@[simp] theorem updThr_own (e : Fin 24) (t : Fin 4) (f : EngThr → EngThr) : (updThr e t f s).own = s.own := rfl
@[simp] theorem updThr_trg (e : Fin 24) (t : Fin 4) (f : EngThr → EngThr) : (updThr e t f s).trg = s.trg := rfl
@[simp] theorem updThr_cap (e : Fin 24) (t : Fin 4) (f : EngThr → EngThr) : (updThr e t f s).cap = s.cap := rfl
@[simp] theorem updThr_trgShadows (e : Fin 24) (t : Fin 4) (f : EngThr → EngThr) : (updThr e t f s).trgShadows = s.trgShadows := rfl
@[simp] theorem updThr_cam (e : Fin 24) (t : Fin 4) (f : EngThr → EngThr) : (updThr e t f s).cam = s.cam := rfl
@[simp] theorem updThr_can (e : Fin 24) (t : Fin 4) (f : EngThr → EngThr) : (updThr e t f s).can = s.can := rfl
@[simp] theorem updThr_lin (e : Fin 24) (t : Fin 4) (f : EngThr → EngThr) : (updThr e t f s).lin = s.lin := rfl
@[simp] theorem updThr_nm (e : Fin 24) (t : Fin 4) (f : EngThr → EngThr) : (updThr e t f s).nm = s.nm := rfl
@[simp] theorem updThr_eng (e : Fin 24) (t : Fin 4) (f : EngThr → EngThr) : (updThr e t f s).eng = upd s.eng (thrIdx e t) f := rfl
@[simp] theorem updThr_issuer (e : Fin 24) (t : Fin 4) (f : EngThr → EngThr) : (updThr e t f s).issuer = s.issuer := rfl
@[simp] theorem updThr_sw (e : Fin 24) (t : Fin 4) (f : EngThr → EngThr) : (updThr e t f s).sw = s.sw := rfl
@[simp] theorem updThr_vqi (e : Fin 24) (t : Fin 4) (f : EngThr → EngThr) : (updThr e t f s).vqi = s.vqi := rfl
@[simp] theorem updThr_mbox (e : Fin 24) (t : Fin 4) (f : EngThr → EngThr) : (updThr e t f s).mbox = s.mbox := rfl
@[simp] theorem updThr_pulses (e : Fin 24) (t : Fin 4) (f : EngThr → EngThr) : (updThr e t f s).pulses = s.pulses := rfl
@[simp] theorem updThr_pd (e : Fin 24) (t : Fin 4) (f : EngThr → EngThr) : (updThr e t f s).pd = s.pd := rfl
@[simp] theorem updThr_fio (e : Fin 24) (t : Fin 4) (f : EngThr → EngThr) : (updThr e t f s).fio = s.fio := rfl
@[simp] theorem updThr_ic (e : Fin 24) (t : Fin 4) (f : EngThr → EngThr) : (updThr e t f s).ic = s.ic := rfl
@[simp] theorem updThr_pair (e : Fin 24) (t : Fin 4) (f : EngThr → EngThr) : (updThr e t f s).pair = s.pair := rfl
@[simp] theorem updThr_heron (e : Fin 24) (t : Fin 4) (f : EngThr → EngThr) : (updThr e t f s).heron = s.heron := rfl
@[simp] theorem updThr_key (e : Fin 24) (t : Fin 4) (f : EngThr → EngThr) : (updThr e t f s).key = s.key := rfl
@[simp] theorem updThr_boot (e : Fin 24) (t : Fin 4) (f : EngThr → EngThr) : (updThr e t f s).boot = s.boot := rfl
@[simp] theorem updThr_blw (e : Fin 24) (t : Fin 4) (f : EngThr → EngThr) : (updThr e t f s).blw = s.blw := rfl

/-! ### setN -/

@[simp] theorem setN_pending (e : Fin 24) (t : Fin 4) (k : Fin 32) (v : Word) : (setN e t k v s).pending = s.pending := by unfold setN; split <;> rfl
@[simp] theorem setN_regs (e : Fin 24) (t : Fin 4) (k : Fin 32) (v : Word) : (setN e t k v s).regs = s.regs := by unfold setN; split <;> rfl
@[simp] theorem setN_mem (e : Fin 24) (t : Fin 4) (k : Fin 32) (v : Word) : (setN e t k v s).mem = s.mem := by unfold setN; split <;> rfl
@[simp] theorem setN_dram (e : Fin 24) (t : Fin 4) (k : Fin 32) (v : Word) : (setN e t k v s).dram = s.dram := by unfold setN; split <;> rfl
@[simp] theorem setN_flash (e : Fin 24) (t : Fin 4) (k : Fin 32) (v : Word) : (setN e t k v s).flash = s.flash := by unfold setN; split <;> rfl
@[simp] theorem setN_cwy (e : Fin 24) (t : Fin 4) (k : Fin 32) (v : Word) : (setN e t k v s).cwy = s.cwy := by unfold setN; split <;> rfl
@[simp] theorem setN_now (e : Fin 24) (t : Fin 4) (k : Fin 32) (v : Word) : (setN e t k v s).now = s.now := by unfold setN; split <;> rfl
@[simp] theorem setN_resp (e : Fin 24) (t : Fin 4) (k : Fin 32) (v : Word) : (setN e t k v s).resp = s.resp := by unfold setN; split <;> rfl
@[simp] theorem setN_fresh (e : Fin 24) (t : Fin 4) (k : Fin 32) (v : Word) : (setN e t k v s).fresh = s.fresh := by unfold setN; split <;> rfl
@[simp] theorem setN_isl (e : Fin 24) (t : Fin 4) (k : Fin 32) (v : Word) : (setN e t k v s).isl = s.isl := by unfold setN; split <;> rfl
@[simp] theorem setN_time (e : Fin 24) (t : Fin 4) (k : Fin 32) (v : Word) : (setN e t k v s).time = s.time := by unfold setN; split <;> rfl
@[simp] theorem setN_log (e : Fin 24) (t : Fin 4) (k : Fin 32) (v : Word) : (setN e t k v s).log = s.log := by unfold setN; split <;> rfl
@[simp] theorem setN_sig (e : Fin 24) (t : Fin 4) (k : Fin 32) (v : Word) : (setN e t k v s).sig = s.sig := by unfold setN; split <;> rfl
@[simp] theorem setN_harts (e : Fin 24) (t : Fin 4) (k : Fin 32) (v : Word) : (setN e t k v s).harts = s.harts := by unfold setN; split <;> rfl
@[simp] theorem setN_railA (e : Fin 24) (t : Fin 4) (k : Fin 32) (v : Word) : (setN e t k v s).railA = s.railA := by unfold setN; split <;> rfl
@[simp] theorem setN_railB (e : Fin 24) (t : Fin 4) (k : Fin 32) (v : Word) : (setN e t k v s).railB = s.railB := by unfold setN; split <;> rfl
@[simp] theorem setN_own (e : Fin 24) (t : Fin 4) (k : Fin 32) (v : Word) : (setN e t k v s).own = s.own := by unfold setN; split <;> rfl
@[simp] theorem setN_trg (e : Fin 24) (t : Fin 4) (k : Fin 32) (v : Word) : (setN e t k v s).trg = s.trg := by unfold setN; split <;> rfl
@[simp] theorem setN_cap (e : Fin 24) (t : Fin 4) (k : Fin 32) (v : Word) : (setN e t k v s).cap = s.cap := by unfold setN; split <;> rfl
@[simp] theorem setN_trgShadows (e : Fin 24) (t : Fin 4) (k : Fin 32) (v : Word) : (setN e t k v s).trgShadows = s.trgShadows := by unfold setN; split <;> rfl
@[simp] theorem setN_cam (e : Fin 24) (t : Fin 4) (k : Fin 32) (v : Word) : (setN e t k v s).cam = s.cam := by unfold setN; split <;> rfl
@[simp] theorem setN_can (e : Fin 24) (t : Fin 4) (k : Fin 32) (v : Word) : (setN e t k v s).can = s.can := by unfold setN; split <;> rfl
@[simp] theorem setN_lin (e : Fin 24) (t : Fin 4) (k : Fin 32) (v : Word) : (setN e t k v s).lin = s.lin := by unfold setN; split <;> rfl
@[simp] theorem setN_nm (e : Fin 24) (t : Fin 4) (k : Fin 32) (v : Word) : (setN e t k v s).nm = s.nm := by unfold setN; split <;> rfl
@[simp] theorem setN_issuer (e : Fin 24) (t : Fin 4) (k : Fin 32) (v : Word) : (setN e t k v s).issuer = s.issuer := by unfold setN; split <;> rfl
@[simp] theorem setN_sw (e : Fin 24) (t : Fin 4) (k : Fin 32) (v : Word) : (setN e t k v s).sw = s.sw := by unfold setN; split <;> rfl
@[simp] theorem setN_vqi (e : Fin 24) (t : Fin 4) (k : Fin 32) (v : Word) : (setN e t k v s).vqi = s.vqi := by unfold setN; split <;> rfl
@[simp] theorem setN_mbox (e : Fin 24) (t : Fin 4) (k : Fin 32) (v : Word) : (setN e t k v s).mbox = s.mbox := by unfold setN; split <;> rfl
@[simp] theorem setN_pulses (e : Fin 24) (t : Fin 4) (k : Fin 32) (v : Word) : (setN e t k v s).pulses = s.pulses := by unfold setN; split <;> rfl
@[simp] theorem setN_pd (e : Fin 24) (t : Fin 4) (k : Fin 32) (v : Word) : (setN e t k v s).pd = s.pd := by unfold setN; split <;> rfl
@[simp] theorem setN_fio (e : Fin 24) (t : Fin 4) (k : Fin 32) (v : Word) : (setN e t k v s).fio = s.fio := by unfold setN; split <;> rfl
@[simp] theorem setN_ic (e : Fin 24) (t : Fin 4) (k : Fin 32) (v : Word) : (setN e t k v s).ic = s.ic := by unfold setN; split <;> rfl
@[simp] theorem setN_pair (e : Fin 24) (t : Fin 4) (k : Fin 32) (v : Word) : (setN e t k v s).pair = s.pair := by unfold setN; split <;> rfl
@[simp] theorem setN_heron (e : Fin 24) (t : Fin 4) (k : Fin 32) (v : Word) : (setN e t k v s).heron = s.heron := by unfold setN; split <;> rfl
@[simp] theorem setN_key (e : Fin 24) (t : Fin 4) (k : Fin 32) (v : Word) : (setN e t k v s).key = s.key := by unfold setN; split <;> rfl
@[simp] theorem setN_boot (e : Fin 24) (t : Fin 4) (k : Fin 32) (v : Word) : (setN e t k v s).boot = s.boot := by unfold setN; split <;> rfl
@[simp] theorem setN_blw (e : Fin 24) (t : Fin 4) (k : Fin 32) (v : Word) : (setN e t k v s).blw = s.blw := by unfold setN; split <;> rfl

/-! ### updCwy -/

@[simp] theorem updCwy_pending (f : CwySt → CwySt) : (updCwy f s).pending = s.pending := rfl
@[simp] theorem updCwy_regs (f : CwySt → CwySt) : (updCwy f s).regs = s.regs := rfl
@[simp] theorem updCwy_mem (f : CwySt → CwySt) : (updCwy f s).mem = s.mem := rfl
@[simp] theorem updCwy_dram (f : CwySt → CwySt) : (updCwy f s).dram = s.dram := rfl
@[simp] theorem updCwy_flash (f : CwySt → CwySt) : (updCwy f s).flash = s.flash := rfl
@[simp] theorem updCwy_cwy (f : CwySt → CwySt) : (updCwy f s).cwy = f s.cwy := rfl
@[simp] theorem updCwy_now (f : CwySt → CwySt) : (updCwy f s).now = s.now := rfl
@[simp] theorem updCwy_resp (f : CwySt → CwySt) : (updCwy f s).resp = s.resp := rfl
@[simp] theorem updCwy_fresh (f : CwySt → CwySt) : (updCwy f s).fresh = s.fresh := rfl
@[simp] theorem updCwy_isl (f : CwySt → CwySt) : (updCwy f s).isl = s.isl := rfl
@[simp] theorem updCwy_time (f : CwySt → CwySt) : (updCwy f s).time = s.time := rfl
@[simp] theorem updCwy_log (f : CwySt → CwySt) : (updCwy f s).log = s.log := rfl
@[simp] theorem updCwy_sig (f : CwySt → CwySt) : (updCwy f s).sig = s.sig := rfl
@[simp] theorem updCwy_harts (f : CwySt → CwySt) : (updCwy f s).harts = s.harts := rfl
@[simp] theorem updCwy_railA (f : CwySt → CwySt) : (updCwy f s).railA = s.railA := rfl
@[simp] theorem updCwy_railB (f : CwySt → CwySt) : (updCwy f s).railB = s.railB := rfl
@[simp] theorem updCwy_own (f : CwySt → CwySt) : (updCwy f s).own = s.own := rfl
@[simp] theorem updCwy_trg (f : CwySt → CwySt) : (updCwy f s).trg = s.trg := rfl
@[simp] theorem updCwy_cap (f : CwySt → CwySt) : (updCwy f s).cap = s.cap := rfl
@[simp] theorem updCwy_trgShadows (f : CwySt → CwySt) : (updCwy f s).trgShadows = s.trgShadows := rfl
@[simp] theorem updCwy_cam (f : CwySt → CwySt) : (updCwy f s).cam = s.cam := rfl
@[simp] theorem updCwy_can (f : CwySt → CwySt) : (updCwy f s).can = s.can := rfl
@[simp] theorem updCwy_lin (f : CwySt → CwySt) : (updCwy f s).lin = s.lin := rfl
@[simp] theorem updCwy_nm (f : CwySt → CwySt) : (updCwy f s).nm = s.nm := rfl
@[simp] theorem updCwy_eng (f : CwySt → CwySt) : (updCwy f s).eng = s.eng := rfl
@[simp] theorem updCwy_issuer (f : CwySt → CwySt) : (updCwy f s).issuer = s.issuer := rfl
@[simp] theorem updCwy_sw (f : CwySt → CwySt) : (updCwy f s).sw = s.sw := rfl
@[simp] theorem updCwy_vqi (f : CwySt → CwySt) : (updCwy f s).vqi = s.vqi := rfl
@[simp] theorem updCwy_mbox (f : CwySt → CwySt) : (updCwy f s).mbox = s.mbox := rfl
@[simp] theorem updCwy_pulses (f : CwySt → CwySt) : (updCwy f s).pulses = s.pulses := rfl
@[simp] theorem updCwy_pd (f : CwySt → CwySt) : (updCwy f s).pd = s.pd := rfl
@[simp] theorem updCwy_fio (f : CwySt → CwySt) : (updCwy f s).fio = s.fio := rfl
@[simp] theorem updCwy_ic (f : CwySt → CwySt) : (updCwy f s).ic = s.ic := rfl
@[simp] theorem updCwy_pair (f : CwySt → CwySt) : (updCwy f s).pair = s.pair := rfl
@[simp] theorem updCwy_heron (f : CwySt → CwySt) : (updCwy f s).heron = s.heron := rfl
@[simp] theorem updCwy_key (f : CwySt → CwySt) : (updCwy f s).key = s.key := rfl
@[simp] theorem updCwy_boot (f : CwySt → CwySt) : (updCwy f s).boot = s.boot := rfl
@[simp] theorem updCwy_blw (f : CwySt → CwySt) : (updCwy f s).blw = s.blw := rfl

/-! ### updCan -/

@[simp] theorem updCan_pending (c : Fin 12) (f : CanSt → CanSt) : (updCan c f s).pending = s.pending := rfl
@[simp] theorem updCan_regs (c : Fin 12) (f : CanSt → CanSt) : (updCan c f s).regs = s.regs := rfl
@[simp] theorem updCan_mem (c : Fin 12) (f : CanSt → CanSt) : (updCan c f s).mem = s.mem := rfl
@[simp] theorem updCan_dram (c : Fin 12) (f : CanSt → CanSt) : (updCan c f s).dram = s.dram := rfl
@[simp] theorem updCan_flash (c : Fin 12) (f : CanSt → CanSt) : (updCan c f s).flash = s.flash := rfl
@[simp] theorem updCan_cwy (c : Fin 12) (f : CanSt → CanSt) : (updCan c f s).cwy = s.cwy := rfl
@[simp] theorem updCan_now (c : Fin 12) (f : CanSt → CanSt) : (updCan c f s).now = s.now := rfl
@[simp] theorem updCan_resp (c : Fin 12) (f : CanSt → CanSt) : (updCan c f s).resp = s.resp := rfl
@[simp] theorem updCan_fresh (c : Fin 12) (f : CanSt → CanSt) : (updCan c f s).fresh = s.fresh := rfl
@[simp] theorem updCan_isl (c : Fin 12) (f : CanSt → CanSt) : (updCan c f s).isl = s.isl := rfl
@[simp] theorem updCan_time (c : Fin 12) (f : CanSt → CanSt) : (updCan c f s).time = s.time := rfl
@[simp] theorem updCan_log (c : Fin 12) (f : CanSt → CanSt) : (updCan c f s).log = s.log := rfl
@[simp] theorem updCan_sig (c : Fin 12) (f : CanSt → CanSt) : (updCan c f s).sig = s.sig := rfl
@[simp] theorem updCan_harts (c : Fin 12) (f : CanSt → CanSt) : (updCan c f s).harts = s.harts := rfl
@[simp] theorem updCan_railA (c : Fin 12) (f : CanSt → CanSt) : (updCan c f s).railA = s.railA := rfl
@[simp] theorem updCan_railB (c : Fin 12) (f : CanSt → CanSt) : (updCan c f s).railB = s.railB := rfl
@[simp] theorem updCan_own (c : Fin 12) (f : CanSt → CanSt) : (updCan c f s).own = s.own := rfl
@[simp] theorem updCan_trg (c : Fin 12) (f : CanSt → CanSt) : (updCan c f s).trg = s.trg := rfl
@[simp] theorem updCan_cap (c : Fin 12) (f : CanSt → CanSt) : (updCan c f s).cap = s.cap := rfl
@[simp] theorem updCan_trgShadows (c : Fin 12) (f : CanSt → CanSt) : (updCan c f s).trgShadows = s.trgShadows := rfl
@[simp] theorem updCan_cam (c : Fin 12) (f : CanSt → CanSt) : (updCan c f s).cam = s.cam := rfl
@[simp] theorem updCan_can (c : Fin 12) (f : CanSt → CanSt) : (updCan c f s).can = upd s.can c f := rfl
@[simp] theorem updCan_lin (c : Fin 12) (f : CanSt → CanSt) : (updCan c f s).lin = s.lin := rfl
@[simp] theorem updCan_nm (c : Fin 12) (f : CanSt → CanSt) : (updCan c f s).nm = s.nm := rfl
@[simp] theorem updCan_eng (c : Fin 12) (f : CanSt → CanSt) : (updCan c f s).eng = s.eng := rfl
@[simp] theorem updCan_issuer (c : Fin 12) (f : CanSt → CanSt) : (updCan c f s).issuer = s.issuer := rfl
@[simp] theorem updCan_sw (c : Fin 12) (f : CanSt → CanSt) : (updCan c f s).sw = s.sw := rfl
@[simp] theorem updCan_vqi (c : Fin 12) (f : CanSt → CanSt) : (updCan c f s).vqi = s.vqi := rfl
@[simp] theorem updCan_mbox (c : Fin 12) (f : CanSt → CanSt) : (updCan c f s).mbox = s.mbox := rfl
@[simp] theorem updCan_pulses (c : Fin 12) (f : CanSt → CanSt) : (updCan c f s).pulses = s.pulses := rfl
@[simp] theorem updCan_pd (c : Fin 12) (f : CanSt → CanSt) : (updCan c f s).pd = s.pd := rfl
@[simp] theorem updCan_fio (c : Fin 12) (f : CanSt → CanSt) : (updCan c f s).fio = s.fio := rfl
@[simp] theorem updCan_ic (c : Fin 12) (f : CanSt → CanSt) : (updCan c f s).ic = s.ic := rfl
@[simp] theorem updCan_pair (c : Fin 12) (f : CanSt → CanSt) : (updCan c f s).pair = s.pair := rfl
@[simp] theorem updCan_heron (c : Fin 12) (f : CanSt → CanSt) : (updCan c f s).heron = s.heron := rfl
@[simp] theorem updCan_key (c : Fin 12) (f : CanSt → CanSt) : (updCan c f s).key = s.key := rfl
@[simp] theorem updCan_boot (c : Fin 12) (f : CanSt → CanSt) : (updCan c f s).boot = s.boot := rfl
@[simp] theorem updCan_blw (c : Fin 12) (f : CanSt → CanSt) : (updCan c f s).blw = s.blw := rfl

/-! ### updLin -/

@[simp] theorem updLin_pending (l : Fin 6) (f : LinSt → LinSt) : (updLin l f s).pending = s.pending := rfl
@[simp] theorem updLin_regs (l : Fin 6) (f : LinSt → LinSt) : (updLin l f s).regs = s.regs := rfl
@[simp] theorem updLin_mem (l : Fin 6) (f : LinSt → LinSt) : (updLin l f s).mem = s.mem := rfl
@[simp] theorem updLin_dram (l : Fin 6) (f : LinSt → LinSt) : (updLin l f s).dram = s.dram := rfl
@[simp] theorem updLin_flash (l : Fin 6) (f : LinSt → LinSt) : (updLin l f s).flash = s.flash := rfl
@[simp] theorem updLin_cwy (l : Fin 6) (f : LinSt → LinSt) : (updLin l f s).cwy = s.cwy := rfl
@[simp] theorem updLin_now (l : Fin 6) (f : LinSt → LinSt) : (updLin l f s).now = s.now := rfl
@[simp] theorem updLin_resp (l : Fin 6) (f : LinSt → LinSt) : (updLin l f s).resp = s.resp := rfl
@[simp] theorem updLin_fresh (l : Fin 6) (f : LinSt → LinSt) : (updLin l f s).fresh = s.fresh := rfl
@[simp] theorem updLin_isl (l : Fin 6) (f : LinSt → LinSt) : (updLin l f s).isl = s.isl := rfl
@[simp] theorem updLin_time (l : Fin 6) (f : LinSt → LinSt) : (updLin l f s).time = s.time := rfl
@[simp] theorem updLin_log (l : Fin 6) (f : LinSt → LinSt) : (updLin l f s).log = s.log := rfl
@[simp] theorem updLin_sig (l : Fin 6) (f : LinSt → LinSt) : (updLin l f s).sig = s.sig := rfl
@[simp] theorem updLin_harts (l : Fin 6) (f : LinSt → LinSt) : (updLin l f s).harts = s.harts := rfl
@[simp] theorem updLin_railA (l : Fin 6) (f : LinSt → LinSt) : (updLin l f s).railA = s.railA := rfl
@[simp] theorem updLin_railB (l : Fin 6) (f : LinSt → LinSt) : (updLin l f s).railB = s.railB := rfl
@[simp] theorem updLin_own (l : Fin 6) (f : LinSt → LinSt) : (updLin l f s).own = s.own := rfl
@[simp] theorem updLin_trg (l : Fin 6) (f : LinSt → LinSt) : (updLin l f s).trg = s.trg := rfl
@[simp] theorem updLin_cap (l : Fin 6) (f : LinSt → LinSt) : (updLin l f s).cap = s.cap := rfl
@[simp] theorem updLin_trgShadows (l : Fin 6) (f : LinSt → LinSt) : (updLin l f s).trgShadows = s.trgShadows := rfl
@[simp] theorem updLin_cam (l : Fin 6) (f : LinSt → LinSt) : (updLin l f s).cam = s.cam := rfl
@[simp] theorem updLin_can (l : Fin 6) (f : LinSt → LinSt) : (updLin l f s).can = s.can := rfl
@[simp] theorem updLin_lin (l : Fin 6) (f : LinSt → LinSt) : (updLin l f s).lin = upd s.lin l f := rfl
@[simp] theorem updLin_nm (l : Fin 6) (f : LinSt → LinSt) : (updLin l f s).nm = s.nm := rfl
@[simp] theorem updLin_eng (l : Fin 6) (f : LinSt → LinSt) : (updLin l f s).eng = s.eng := rfl
@[simp] theorem updLin_issuer (l : Fin 6) (f : LinSt → LinSt) : (updLin l f s).issuer = s.issuer := rfl
@[simp] theorem updLin_sw (l : Fin 6) (f : LinSt → LinSt) : (updLin l f s).sw = s.sw := rfl
@[simp] theorem updLin_vqi (l : Fin 6) (f : LinSt → LinSt) : (updLin l f s).vqi = s.vqi := rfl
@[simp] theorem updLin_mbox (l : Fin 6) (f : LinSt → LinSt) : (updLin l f s).mbox = s.mbox := rfl
@[simp] theorem updLin_pulses (l : Fin 6) (f : LinSt → LinSt) : (updLin l f s).pulses = s.pulses := rfl
@[simp] theorem updLin_pd (l : Fin 6) (f : LinSt → LinSt) : (updLin l f s).pd = s.pd := rfl
@[simp] theorem updLin_fio (l : Fin 6) (f : LinSt → LinSt) : (updLin l f s).fio = s.fio := rfl
@[simp] theorem updLin_ic (l : Fin 6) (f : LinSt → LinSt) : (updLin l f s).ic = s.ic := rfl
@[simp] theorem updLin_pair (l : Fin 6) (f : LinSt → LinSt) : (updLin l f s).pair = s.pair := rfl
@[simp] theorem updLin_heron (l : Fin 6) (f : LinSt → LinSt) : (updLin l f s).heron = s.heron := rfl
@[simp] theorem updLin_key (l : Fin 6) (f : LinSt → LinSt) : (updLin l f s).key = s.key := rfl
@[simp] theorem updLin_boot (l : Fin 6) (f : LinSt → LinSt) : (updLin l f s).boot = s.boot := rfl
@[simp] theorem updLin_blw (l : Fin 6) (f : LinSt → LinSt) : (updLin l f s).blw = s.blw := rfl

/-! ### updPd -/

@[simp] theorem updPd_pending (f : PdSt → PdSt) : (updPd f s).pending = s.pending := rfl
@[simp] theorem updPd_regs (f : PdSt → PdSt) : (updPd f s).regs = s.regs := rfl
@[simp] theorem updPd_mem (f : PdSt → PdSt) : (updPd f s).mem = s.mem := rfl
@[simp] theorem updPd_dram (f : PdSt → PdSt) : (updPd f s).dram = s.dram := rfl
@[simp] theorem updPd_flash (f : PdSt → PdSt) : (updPd f s).flash = s.flash := rfl
@[simp] theorem updPd_cwy (f : PdSt → PdSt) : (updPd f s).cwy = s.cwy := rfl
@[simp] theorem updPd_now (f : PdSt → PdSt) : (updPd f s).now = s.now := rfl
@[simp] theorem updPd_resp (f : PdSt → PdSt) : (updPd f s).resp = s.resp := rfl
@[simp] theorem updPd_fresh (f : PdSt → PdSt) : (updPd f s).fresh = s.fresh := rfl
@[simp] theorem updPd_isl (f : PdSt → PdSt) : (updPd f s).isl = s.isl := rfl
@[simp] theorem updPd_time (f : PdSt → PdSt) : (updPd f s).time = s.time := rfl
@[simp] theorem updPd_log (f : PdSt → PdSt) : (updPd f s).log = s.log := rfl
@[simp] theorem updPd_sig (f : PdSt → PdSt) : (updPd f s).sig = s.sig := rfl
@[simp] theorem updPd_harts (f : PdSt → PdSt) : (updPd f s).harts = s.harts := rfl
@[simp] theorem updPd_railA (f : PdSt → PdSt) : (updPd f s).railA = s.railA := rfl
@[simp] theorem updPd_railB (f : PdSt → PdSt) : (updPd f s).railB = s.railB := rfl
@[simp] theorem updPd_own (f : PdSt → PdSt) : (updPd f s).own = s.own := rfl
@[simp] theorem updPd_trg (f : PdSt → PdSt) : (updPd f s).trg = s.trg := rfl
@[simp] theorem updPd_cap (f : PdSt → PdSt) : (updPd f s).cap = s.cap := rfl
@[simp] theorem updPd_trgShadows (f : PdSt → PdSt) : (updPd f s).trgShadows = s.trgShadows := rfl
@[simp] theorem updPd_cam (f : PdSt → PdSt) : (updPd f s).cam = s.cam := rfl
@[simp] theorem updPd_can (f : PdSt → PdSt) : (updPd f s).can = s.can := rfl
@[simp] theorem updPd_lin (f : PdSt → PdSt) : (updPd f s).lin = s.lin := rfl
@[simp] theorem updPd_nm (f : PdSt → PdSt) : (updPd f s).nm = s.nm := rfl
@[simp] theorem updPd_eng (f : PdSt → PdSt) : (updPd f s).eng = s.eng := rfl
@[simp] theorem updPd_issuer (f : PdSt → PdSt) : (updPd f s).issuer = s.issuer := rfl
@[simp] theorem updPd_sw (f : PdSt → PdSt) : (updPd f s).sw = s.sw := rfl
@[simp] theorem updPd_vqi (f : PdSt → PdSt) : (updPd f s).vqi = s.vqi := rfl
@[simp] theorem updPd_mbox (f : PdSt → PdSt) : (updPd f s).mbox = s.mbox := rfl
@[simp] theorem updPd_pulses (f : PdSt → PdSt) : (updPd f s).pulses = s.pulses := rfl
@[simp] theorem updPd_pd (f : PdSt → PdSt) : (updPd f s).pd = f s.pd := rfl
@[simp] theorem updPd_fio (f : PdSt → PdSt) : (updPd f s).fio = s.fio := rfl
@[simp] theorem updPd_ic (f : PdSt → PdSt) : (updPd f s).ic = s.ic := rfl
@[simp] theorem updPd_pair (f : PdSt → PdSt) : (updPd f s).pair = s.pair := rfl
@[simp] theorem updPd_heron (f : PdSt → PdSt) : (updPd f s).heron = s.heron := rfl
@[simp] theorem updPd_key (f : PdSt → PdSt) : (updPd f s).key = s.key := rfl
@[simp] theorem updPd_boot (f : PdSt → PdSt) : (updPd f s).boot = s.boot := rfl
@[simp] theorem updPd_blw (f : PdSt → PdSt) : (updPd f s).blw = s.blw := rfl

/-! ### updCh -/

@[simp] theorem updCh_pending (n : Fin 48) (f : PdCh → PdCh) : (updCh n f s).pending = s.pending := rfl
@[simp] theorem updCh_regs (n : Fin 48) (f : PdCh → PdCh) : (updCh n f s).regs = s.regs := rfl
@[simp] theorem updCh_mem (n : Fin 48) (f : PdCh → PdCh) : (updCh n f s).mem = s.mem := rfl
@[simp] theorem updCh_dram (n : Fin 48) (f : PdCh → PdCh) : (updCh n f s).dram = s.dram := rfl
@[simp] theorem updCh_flash (n : Fin 48) (f : PdCh → PdCh) : (updCh n f s).flash = s.flash := rfl
@[simp] theorem updCh_cwy (n : Fin 48) (f : PdCh → PdCh) : (updCh n f s).cwy = s.cwy := rfl
@[simp] theorem updCh_now (n : Fin 48) (f : PdCh → PdCh) : (updCh n f s).now = s.now := rfl
@[simp] theorem updCh_resp (n : Fin 48) (f : PdCh → PdCh) : (updCh n f s).resp = s.resp := rfl
@[simp] theorem updCh_fresh (n : Fin 48) (f : PdCh → PdCh) : (updCh n f s).fresh = s.fresh := rfl
@[simp] theorem updCh_isl (n : Fin 48) (f : PdCh → PdCh) : (updCh n f s).isl = s.isl := rfl
@[simp] theorem updCh_time (n : Fin 48) (f : PdCh → PdCh) : (updCh n f s).time = s.time := rfl
@[simp] theorem updCh_log (n : Fin 48) (f : PdCh → PdCh) : (updCh n f s).log = s.log := rfl
@[simp] theorem updCh_sig (n : Fin 48) (f : PdCh → PdCh) : (updCh n f s).sig = s.sig := rfl
@[simp] theorem updCh_harts (n : Fin 48) (f : PdCh → PdCh) : (updCh n f s).harts = s.harts := rfl
@[simp] theorem updCh_railA (n : Fin 48) (f : PdCh → PdCh) : (updCh n f s).railA = s.railA := rfl
@[simp] theorem updCh_railB (n : Fin 48) (f : PdCh → PdCh) : (updCh n f s).railB = s.railB := rfl
@[simp] theorem updCh_own (n : Fin 48) (f : PdCh → PdCh) : (updCh n f s).own = s.own := rfl
@[simp] theorem updCh_trg (n : Fin 48) (f : PdCh → PdCh) : (updCh n f s).trg = s.trg := rfl
@[simp] theorem updCh_cap (n : Fin 48) (f : PdCh → PdCh) : (updCh n f s).cap = s.cap := rfl
@[simp] theorem updCh_trgShadows (n : Fin 48) (f : PdCh → PdCh) : (updCh n f s).trgShadows = s.trgShadows := rfl
@[simp] theorem updCh_cam (n : Fin 48) (f : PdCh → PdCh) : (updCh n f s).cam = s.cam := rfl
@[simp] theorem updCh_can (n : Fin 48) (f : PdCh → PdCh) : (updCh n f s).can = s.can := rfl
@[simp] theorem updCh_lin (n : Fin 48) (f : PdCh → PdCh) : (updCh n f s).lin = s.lin := rfl
@[simp] theorem updCh_nm (n : Fin 48) (f : PdCh → PdCh) : (updCh n f s).nm = s.nm := rfl
@[simp] theorem updCh_eng (n : Fin 48) (f : PdCh → PdCh) : (updCh n f s).eng = s.eng := rfl
@[simp] theorem updCh_issuer (n : Fin 48) (f : PdCh → PdCh) : (updCh n f s).issuer = s.issuer := rfl
@[simp] theorem updCh_sw (n : Fin 48) (f : PdCh → PdCh) : (updCh n f s).sw = s.sw := rfl
@[simp] theorem updCh_vqi (n : Fin 48) (f : PdCh → PdCh) : (updCh n f s).vqi = s.vqi := rfl
@[simp] theorem updCh_mbox (n : Fin 48) (f : PdCh → PdCh) : (updCh n f s).mbox = s.mbox := rfl
@[simp] theorem updCh_pulses (n : Fin 48) (f : PdCh → PdCh) : (updCh n f s).pulses = s.pulses := rfl
@[simp] theorem updCh_fio (n : Fin 48) (f : PdCh → PdCh) : (updCh n f s).fio = s.fio := rfl
@[simp] theorem updCh_ic (n : Fin 48) (f : PdCh → PdCh) : (updCh n f s).ic = s.ic := rfl
@[simp] theorem updCh_pair (n : Fin 48) (f : PdCh → PdCh) : (updCh n f s).pair = s.pair := rfl
@[simp] theorem updCh_heron (n : Fin 48) (f : PdCh → PdCh) : (updCh n f s).heron = s.heron := rfl
@[simp] theorem updCh_key (n : Fin 48) (f : PdCh → PdCh) : (updCh n f s).key = s.key := rfl
@[simp] theorem updCh_boot (n : Fin 48) (f : PdCh → PdCh) : (updCh n f s).boot = s.boot := rfl
@[simp] theorem updCh_blw (n : Fin 48) (f : PdCh → PdCh) : (updCh n f s).blw = s.blw := rfl

/-! ### updTrg -/

@[simp] theorem updTrg_pending (n : Fin 16) (f : Trigger → Trigger) : (updTrg n f s).pending = s.pending := rfl
@[simp] theorem updTrg_regs (n : Fin 16) (f : Trigger → Trigger) : (updTrg n f s).regs = s.regs := rfl
@[simp] theorem updTrg_mem (n : Fin 16) (f : Trigger → Trigger) : (updTrg n f s).mem = s.mem := rfl
@[simp] theorem updTrg_dram (n : Fin 16) (f : Trigger → Trigger) : (updTrg n f s).dram = s.dram := rfl
@[simp] theorem updTrg_flash (n : Fin 16) (f : Trigger → Trigger) : (updTrg n f s).flash = s.flash := rfl
@[simp] theorem updTrg_cwy (n : Fin 16) (f : Trigger → Trigger) : (updTrg n f s).cwy = s.cwy := rfl
@[simp] theorem updTrg_now (n : Fin 16) (f : Trigger → Trigger) : (updTrg n f s).now = s.now := rfl
@[simp] theorem updTrg_resp (n : Fin 16) (f : Trigger → Trigger) : (updTrg n f s).resp = s.resp := rfl
@[simp] theorem updTrg_fresh (n : Fin 16) (f : Trigger → Trigger) : (updTrg n f s).fresh = s.fresh := rfl
@[simp] theorem updTrg_isl (n : Fin 16) (f : Trigger → Trigger) : (updTrg n f s).isl = s.isl := rfl
@[simp] theorem updTrg_time (n : Fin 16) (f : Trigger → Trigger) : (updTrg n f s).time = s.time := rfl
@[simp] theorem updTrg_log (n : Fin 16) (f : Trigger → Trigger) : (updTrg n f s).log = s.log := rfl
@[simp] theorem updTrg_sig (n : Fin 16) (f : Trigger → Trigger) : (updTrg n f s).sig = s.sig := rfl
@[simp] theorem updTrg_harts (n : Fin 16) (f : Trigger → Trigger) : (updTrg n f s).harts = s.harts := rfl
@[simp] theorem updTrg_railA (n : Fin 16) (f : Trigger → Trigger) : (updTrg n f s).railA = s.railA := rfl
@[simp] theorem updTrg_railB (n : Fin 16) (f : Trigger → Trigger) : (updTrg n f s).railB = s.railB := rfl
@[simp] theorem updTrg_own (n : Fin 16) (f : Trigger → Trigger) : (updTrg n f s).own = s.own := rfl
@[simp] theorem updTrg_trg (n : Fin 16) (f : Trigger → Trigger) : (updTrg n f s).trg = upd s.trg n f := rfl
@[simp] theorem updTrg_cap (n : Fin 16) (f : Trigger → Trigger) : (updTrg n f s).cap = s.cap := rfl
@[simp] theorem updTrg_trgShadows (n : Fin 16) (f : Trigger → Trigger) : (updTrg n f s).trgShadows = s.trgShadows := rfl
@[simp] theorem updTrg_cam (n : Fin 16) (f : Trigger → Trigger) : (updTrg n f s).cam = s.cam := rfl
@[simp] theorem updTrg_can (n : Fin 16) (f : Trigger → Trigger) : (updTrg n f s).can = s.can := rfl
@[simp] theorem updTrg_lin (n : Fin 16) (f : Trigger → Trigger) : (updTrg n f s).lin = s.lin := rfl
@[simp] theorem updTrg_nm (n : Fin 16) (f : Trigger → Trigger) : (updTrg n f s).nm = s.nm := rfl
@[simp] theorem updTrg_eng (n : Fin 16) (f : Trigger → Trigger) : (updTrg n f s).eng = s.eng := rfl
@[simp] theorem updTrg_issuer (n : Fin 16) (f : Trigger → Trigger) : (updTrg n f s).issuer = s.issuer := rfl
@[simp] theorem updTrg_sw (n : Fin 16) (f : Trigger → Trigger) : (updTrg n f s).sw = s.sw := rfl
@[simp] theorem updTrg_vqi (n : Fin 16) (f : Trigger → Trigger) : (updTrg n f s).vqi = s.vqi := rfl
@[simp] theorem updTrg_mbox (n : Fin 16) (f : Trigger → Trigger) : (updTrg n f s).mbox = s.mbox := rfl
@[simp] theorem updTrg_pulses (n : Fin 16) (f : Trigger → Trigger) : (updTrg n f s).pulses = s.pulses := rfl
@[simp] theorem updTrg_pd (n : Fin 16) (f : Trigger → Trigger) : (updTrg n f s).pd = s.pd := rfl
@[simp] theorem updTrg_fio (n : Fin 16) (f : Trigger → Trigger) : (updTrg n f s).fio = s.fio := rfl
@[simp] theorem updTrg_ic (n : Fin 16) (f : Trigger → Trigger) : (updTrg n f s).ic = s.ic := rfl
@[simp] theorem updTrg_pair (n : Fin 16) (f : Trigger → Trigger) : (updTrg n f s).pair = s.pair := rfl
@[simp] theorem updTrg_heron (n : Fin 16) (f : Trigger → Trigger) : (updTrg n f s).heron = s.heron := rfl
@[simp] theorem updTrg_key (n : Fin 16) (f : Trigger → Trigger) : (updTrg n f s).key = s.key := rfl
@[simp] theorem updTrg_boot (n : Fin 16) (f : Trigger → Trigger) : (updTrg n f s).boot = s.boot := rfl
@[simp] theorem updTrg_blw (n : Fin 16) (f : Trigger → Trigger) : (updTrg n f s).blw = s.blw := rfl

/-! ### updCap -/

@[simp] theorem updCap_pending (m : Fin 16) (f : Capture → Capture) : (updCap m f s).pending = s.pending := rfl
@[simp] theorem updCap_regs (m : Fin 16) (f : Capture → Capture) : (updCap m f s).regs = s.regs := rfl
@[simp] theorem updCap_mem (m : Fin 16) (f : Capture → Capture) : (updCap m f s).mem = s.mem := rfl
@[simp] theorem updCap_dram (m : Fin 16) (f : Capture → Capture) : (updCap m f s).dram = s.dram := rfl
@[simp] theorem updCap_flash (m : Fin 16) (f : Capture → Capture) : (updCap m f s).flash = s.flash := rfl
@[simp] theorem updCap_cwy (m : Fin 16) (f : Capture → Capture) : (updCap m f s).cwy = s.cwy := rfl
@[simp] theorem updCap_now (m : Fin 16) (f : Capture → Capture) : (updCap m f s).now = s.now := rfl
@[simp] theorem updCap_resp (m : Fin 16) (f : Capture → Capture) : (updCap m f s).resp = s.resp := rfl
@[simp] theorem updCap_fresh (m : Fin 16) (f : Capture → Capture) : (updCap m f s).fresh = s.fresh := rfl
@[simp] theorem updCap_isl (m : Fin 16) (f : Capture → Capture) : (updCap m f s).isl = s.isl := rfl
@[simp] theorem updCap_time (m : Fin 16) (f : Capture → Capture) : (updCap m f s).time = s.time := rfl
@[simp] theorem updCap_log (m : Fin 16) (f : Capture → Capture) : (updCap m f s).log = s.log := rfl
@[simp] theorem updCap_sig (m : Fin 16) (f : Capture → Capture) : (updCap m f s).sig = s.sig := rfl
@[simp] theorem updCap_harts (m : Fin 16) (f : Capture → Capture) : (updCap m f s).harts = s.harts := rfl
@[simp] theorem updCap_railA (m : Fin 16) (f : Capture → Capture) : (updCap m f s).railA = s.railA := rfl
@[simp] theorem updCap_railB (m : Fin 16) (f : Capture → Capture) : (updCap m f s).railB = s.railB := rfl
@[simp] theorem updCap_own (m : Fin 16) (f : Capture → Capture) : (updCap m f s).own = s.own := rfl
@[simp] theorem updCap_trg (m : Fin 16) (f : Capture → Capture) : (updCap m f s).trg = s.trg := rfl
@[simp] theorem updCap_cap (m : Fin 16) (f : Capture → Capture) : (updCap m f s).cap = upd s.cap m f := rfl
@[simp] theorem updCap_trgShadows (m : Fin 16) (f : Capture → Capture) : (updCap m f s).trgShadows = s.trgShadows := rfl
@[simp] theorem updCap_cam (m : Fin 16) (f : Capture → Capture) : (updCap m f s).cam = s.cam := rfl
@[simp] theorem updCap_can (m : Fin 16) (f : Capture → Capture) : (updCap m f s).can = s.can := rfl
@[simp] theorem updCap_lin (m : Fin 16) (f : Capture → Capture) : (updCap m f s).lin = s.lin := rfl
@[simp] theorem updCap_nm (m : Fin 16) (f : Capture → Capture) : (updCap m f s).nm = s.nm := rfl
@[simp] theorem updCap_eng (m : Fin 16) (f : Capture → Capture) : (updCap m f s).eng = s.eng := rfl
@[simp] theorem updCap_issuer (m : Fin 16) (f : Capture → Capture) : (updCap m f s).issuer = s.issuer := rfl
@[simp] theorem updCap_sw (m : Fin 16) (f : Capture → Capture) : (updCap m f s).sw = s.sw := rfl
@[simp] theorem updCap_vqi (m : Fin 16) (f : Capture → Capture) : (updCap m f s).vqi = s.vqi := rfl
@[simp] theorem updCap_mbox (m : Fin 16) (f : Capture → Capture) : (updCap m f s).mbox = s.mbox := rfl
@[simp] theorem updCap_pulses (m : Fin 16) (f : Capture → Capture) : (updCap m f s).pulses = s.pulses := rfl
@[simp] theorem updCap_pd (m : Fin 16) (f : Capture → Capture) : (updCap m f s).pd = s.pd := rfl
@[simp] theorem updCap_fio (m : Fin 16) (f : Capture → Capture) : (updCap m f s).fio = s.fio := rfl
@[simp] theorem updCap_ic (m : Fin 16) (f : Capture → Capture) : (updCap m f s).ic = s.ic := rfl
@[simp] theorem updCap_pair (m : Fin 16) (f : Capture → Capture) : (updCap m f s).pair = s.pair := rfl
@[simp] theorem updCap_heron (m : Fin 16) (f : Capture → Capture) : (updCap m f s).heron = s.heron := rfl
@[simp] theorem updCap_key (m : Fin 16) (f : Capture → Capture) : (updCap m f s).key = s.key := rfl
@[simp] theorem updCap_boot (m : Fin 16) (f : Capture → Capture) : (updCap m f s).boot = s.boot := rfl
@[simp] theorem updCap_blw (m : Fin 16) (f : Capture → Capture) : (updCap m f s).blw = s.blw := rfl

/-! ### updIc -/

@[simp] theorem updIc_pending (f : IcSt → IcSt) : (updIc f s).pending = s.pending := rfl
@[simp] theorem updIc_regs (f : IcSt → IcSt) : (updIc f s).regs = s.regs := rfl
@[simp] theorem updIc_mem (f : IcSt → IcSt) : (updIc f s).mem = s.mem := rfl
@[simp] theorem updIc_dram (f : IcSt → IcSt) : (updIc f s).dram = s.dram := rfl
@[simp] theorem updIc_flash (f : IcSt → IcSt) : (updIc f s).flash = s.flash := rfl
@[simp] theorem updIc_cwy (f : IcSt → IcSt) : (updIc f s).cwy = s.cwy := rfl
@[simp] theorem updIc_now (f : IcSt → IcSt) : (updIc f s).now = s.now := rfl
@[simp] theorem updIc_resp (f : IcSt → IcSt) : (updIc f s).resp = s.resp := rfl
@[simp] theorem updIc_fresh (f : IcSt → IcSt) : (updIc f s).fresh = s.fresh := rfl
@[simp] theorem updIc_isl (f : IcSt → IcSt) : (updIc f s).isl = s.isl := rfl
@[simp] theorem updIc_time (f : IcSt → IcSt) : (updIc f s).time = s.time := rfl
@[simp] theorem updIc_log (f : IcSt → IcSt) : (updIc f s).log = s.log := rfl
@[simp] theorem updIc_sig (f : IcSt → IcSt) : (updIc f s).sig = s.sig := rfl
@[simp] theorem updIc_harts (f : IcSt → IcSt) : (updIc f s).harts = s.harts := rfl
@[simp] theorem updIc_railA (f : IcSt → IcSt) : (updIc f s).railA = s.railA := rfl
@[simp] theorem updIc_railB (f : IcSt → IcSt) : (updIc f s).railB = s.railB := rfl
@[simp] theorem updIc_own (f : IcSt → IcSt) : (updIc f s).own = s.own := rfl
@[simp] theorem updIc_trg (f : IcSt → IcSt) : (updIc f s).trg = s.trg := rfl
@[simp] theorem updIc_cap (f : IcSt → IcSt) : (updIc f s).cap = s.cap := rfl
@[simp] theorem updIc_trgShadows (f : IcSt → IcSt) : (updIc f s).trgShadows = s.trgShadows := rfl
@[simp] theorem updIc_cam (f : IcSt → IcSt) : (updIc f s).cam = s.cam := rfl
@[simp] theorem updIc_can (f : IcSt → IcSt) : (updIc f s).can = s.can := rfl
@[simp] theorem updIc_lin (f : IcSt → IcSt) : (updIc f s).lin = s.lin := rfl
@[simp] theorem updIc_nm (f : IcSt → IcSt) : (updIc f s).nm = s.nm := rfl
@[simp] theorem updIc_eng (f : IcSt → IcSt) : (updIc f s).eng = s.eng := rfl
@[simp] theorem updIc_issuer (f : IcSt → IcSt) : (updIc f s).issuer = s.issuer := rfl
@[simp] theorem updIc_sw (f : IcSt → IcSt) : (updIc f s).sw = s.sw := rfl
@[simp] theorem updIc_vqi (f : IcSt → IcSt) : (updIc f s).vqi = s.vqi := rfl
@[simp] theorem updIc_mbox (f : IcSt → IcSt) : (updIc f s).mbox = s.mbox := rfl
@[simp] theorem updIc_pulses (f : IcSt → IcSt) : (updIc f s).pulses = s.pulses := rfl
@[simp] theorem updIc_pd (f : IcSt → IcSt) : (updIc f s).pd = s.pd := rfl
@[simp] theorem updIc_fio (f : IcSt → IcSt) : (updIc f s).fio = s.fio := rfl
@[simp] theorem updIc_ic (f : IcSt → IcSt) : (updIc f s).ic = f s.ic := rfl
@[simp] theorem updIc_pair (f : IcSt → IcSt) : (updIc f s).pair = s.pair := rfl
@[simp] theorem updIc_heron (f : IcSt → IcSt) : (updIc f s).heron = s.heron := rfl
@[simp] theorem updIc_key (f : IcSt → IcSt) : (updIc f s).key = s.key := rfl
@[simp] theorem updIc_boot (f : IcSt → IcSt) : (updIc f s).boot = s.boot := rfl
@[simp] theorem updIc_blw (f : IcSt → IcSt) : (updIc f s).blw = s.blw := rfl

/-! ### updHart -/

@[simp] theorem updHart_pending (h : Fin 8) (f : Hart → Hart) : (updHart h f s).pending = s.pending := rfl
@[simp] theorem updHart_mem (h : Fin 8) (f : Hart → Hart) : (updHart h f s).mem = s.mem := rfl
@[simp] theorem updHart_dram (h : Fin 8) (f : Hart → Hart) : (updHart h f s).dram = s.dram := rfl
@[simp] theorem updHart_flash (h : Fin 8) (f : Hart → Hart) : (updHart h f s).flash = s.flash := rfl
@[simp] theorem updHart_cwy (h : Fin 8) (f : Hart → Hart) : (updHart h f s).cwy = s.cwy := rfl
@[simp] theorem updHart_now (h : Fin 8) (f : Hart → Hart) : (updHart h f s).now = s.now := rfl
@[simp] theorem updHart_resp (h : Fin 8) (f : Hart → Hart) : (updHart h f s).resp = s.resp := rfl
@[simp] theorem updHart_fresh (h : Fin 8) (f : Hart → Hart) : (updHart h f s).fresh = s.fresh := rfl
@[simp] theorem updHart_isl (h : Fin 8) (f : Hart → Hart) : (updHart h f s).isl = s.isl := rfl
@[simp] theorem updHart_time (h : Fin 8) (f : Hart → Hart) : (updHart h f s).time = s.time := rfl
@[simp] theorem updHart_log (h : Fin 8) (f : Hart → Hart) : (updHart h f s).log = s.log := rfl
@[simp] theorem updHart_sig (h : Fin 8) (f : Hart → Hart) : (updHart h f s).sig = s.sig := rfl
@[simp] theorem updHart_railA (h : Fin 8) (f : Hart → Hart) : (updHart h f s).railA = s.railA := rfl
@[simp] theorem updHart_railB (h : Fin 8) (f : Hart → Hart) : (updHart h f s).railB = s.railB := rfl
@[simp] theorem updHart_own (h : Fin 8) (f : Hart → Hart) : (updHart h f s).own = s.own := rfl
@[simp] theorem updHart_trg (h : Fin 8) (f : Hart → Hart) : (updHart h f s).trg = s.trg := rfl
@[simp] theorem updHart_cap (h : Fin 8) (f : Hart → Hart) : (updHart h f s).cap = s.cap := rfl
@[simp] theorem updHart_trgShadows (h : Fin 8) (f : Hart → Hart) : (updHart h f s).trgShadows = s.trgShadows := rfl
@[simp] theorem updHart_cam (h : Fin 8) (f : Hart → Hart) : (updHart h f s).cam = s.cam := rfl
@[simp] theorem updHart_can (h : Fin 8) (f : Hart → Hart) : (updHart h f s).can = s.can := rfl
@[simp] theorem updHart_lin (h : Fin 8) (f : Hart → Hart) : (updHart h f s).lin = s.lin := rfl
@[simp] theorem updHart_nm (h : Fin 8) (f : Hart → Hart) : (updHart h f s).nm = s.nm := rfl
@[simp] theorem updHart_eng (h : Fin 8) (f : Hart → Hart) : (updHart h f s).eng = s.eng := rfl
@[simp] theorem updHart_issuer (h : Fin 8) (f : Hart → Hart) : (updHart h f s).issuer = s.issuer := rfl
@[simp] theorem updHart_sw (h : Fin 8) (f : Hart → Hart) : (updHart h f s).sw = s.sw := rfl
@[simp] theorem updHart_vqi (h : Fin 8) (f : Hart → Hart) : (updHart h f s).vqi = s.vqi := rfl
@[simp] theorem updHart_mbox (h : Fin 8) (f : Hart → Hart) : (updHart h f s).mbox = s.mbox := rfl
@[simp] theorem updHart_pulses (h : Fin 8) (f : Hart → Hart) : (updHart h f s).pulses = s.pulses := rfl
@[simp] theorem updHart_pd (h : Fin 8) (f : Hart → Hart) : (updHart h f s).pd = s.pd := rfl
@[simp] theorem updHart_fio (h : Fin 8) (f : Hart → Hart) : (updHart h f s).fio = s.fio := rfl
@[simp] theorem updHart_ic (h : Fin 8) (f : Hart → Hart) : (updHart h f s).ic = s.ic := rfl
@[simp] theorem updHart_pair (h : Fin 8) (f : Hart → Hart) : (updHart h f s).pair = s.pair := rfl
@[simp] theorem updHart_heron (h : Fin 8) (f : Hart → Hart) : (updHart h f s).heron = s.heron := rfl
@[simp] theorem updHart_key (h : Fin 8) (f : Hart → Hart) : (updHart h f s).key = s.key := rfl
@[simp] theorem updHart_boot (h : Fin 8) (f : Hart → Hart) : (updHart h f s).boot = s.boot := rfl
@[simp] theorem updHart_blw (h : Fin 8) (f : Hart → Hart) : (updHart h f s).blw = s.blw := rfl

/-! ### updCam -/

@[simp] theorem updCam_pending (n : Fin 4) (f : CamSt → CamSt) : (updCam n f s).pending = s.pending := rfl
@[simp] theorem updCam_regs (n : Fin 4) (f : CamSt → CamSt) : (updCam n f s).regs = s.regs := rfl
@[simp] theorem updCam_mem (n : Fin 4) (f : CamSt → CamSt) : (updCam n f s).mem = s.mem := rfl
@[simp] theorem updCam_dram (n : Fin 4) (f : CamSt → CamSt) : (updCam n f s).dram = s.dram := rfl
@[simp] theorem updCam_flash (n : Fin 4) (f : CamSt → CamSt) : (updCam n f s).flash = s.flash := rfl
@[simp] theorem updCam_cwy (n : Fin 4) (f : CamSt → CamSt) : (updCam n f s).cwy = s.cwy := rfl
@[simp] theorem updCam_now (n : Fin 4) (f : CamSt → CamSt) : (updCam n f s).now = s.now := rfl
@[simp] theorem updCam_resp (n : Fin 4) (f : CamSt → CamSt) : (updCam n f s).resp = s.resp := rfl
@[simp] theorem updCam_fresh (n : Fin 4) (f : CamSt → CamSt) : (updCam n f s).fresh = s.fresh := rfl
@[simp] theorem updCam_isl (n : Fin 4) (f : CamSt → CamSt) : (updCam n f s).isl = s.isl := rfl
@[simp] theorem updCam_time (n : Fin 4) (f : CamSt → CamSt) : (updCam n f s).time = s.time := rfl
@[simp] theorem updCam_log (n : Fin 4) (f : CamSt → CamSt) : (updCam n f s).log = s.log := rfl
@[simp] theorem updCam_sig (n : Fin 4) (f : CamSt → CamSt) : (updCam n f s).sig = s.sig := rfl
@[simp] theorem updCam_harts (n : Fin 4) (f : CamSt → CamSt) : (updCam n f s).harts = s.harts := rfl
@[simp] theorem updCam_railA (n : Fin 4) (f : CamSt → CamSt) : (updCam n f s).railA = s.railA := rfl
@[simp] theorem updCam_railB (n : Fin 4) (f : CamSt → CamSt) : (updCam n f s).railB = s.railB := rfl
@[simp] theorem updCam_own (n : Fin 4) (f : CamSt → CamSt) : (updCam n f s).own = s.own := rfl
@[simp] theorem updCam_trg (n : Fin 4) (f : CamSt → CamSt) : (updCam n f s).trg = s.trg := rfl
@[simp] theorem updCam_cap (n : Fin 4) (f : CamSt → CamSt) : (updCam n f s).cap = s.cap := rfl
@[simp] theorem updCam_trgShadows (n : Fin 4) (f : CamSt → CamSt) : (updCam n f s).trgShadows = s.trgShadows := rfl
@[simp] theorem updCam_cam (n : Fin 4) (f : CamSt → CamSt) : (updCam n f s).cam = upd s.cam n f := rfl
@[simp] theorem updCam_can (n : Fin 4) (f : CamSt → CamSt) : (updCam n f s).can = s.can := rfl
@[simp] theorem updCam_lin (n : Fin 4) (f : CamSt → CamSt) : (updCam n f s).lin = s.lin := rfl
@[simp] theorem updCam_nm (n : Fin 4) (f : CamSt → CamSt) : (updCam n f s).nm = s.nm := rfl
@[simp] theorem updCam_eng (n : Fin 4) (f : CamSt → CamSt) : (updCam n f s).eng = s.eng := rfl
@[simp] theorem updCam_issuer (n : Fin 4) (f : CamSt → CamSt) : (updCam n f s).issuer = s.issuer := rfl
@[simp] theorem updCam_sw (n : Fin 4) (f : CamSt → CamSt) : (updCam n f s).sw = s.sw := rfl
@[simp] theorem updCam_vqi (n : Fin 4) (f : CamSt → CamSt) : (updCam n f s).vqi = s.vqi := rfl
@[simp] theorem updCam_mbox (n : Fin 4) (f : CamSt → CamSt) : (updCam n f s).mbox = s.mbox := rfl
@[simp] theorem updCam_pulses (n : Fin 4) (f : CamSt → CamSt) : (updCam n f s).pulses = s.pulses := rfl
@[simp] theorem updCam_pd (n : Fin 4) (f : CamSt → CamSt) : (updCam n f s).pd = s.pd := rfl
@[simp] theorem updCam_fio (n : Fin 4) (f : CamSt → CamSt) : (updCam n f s).fio = s.fio := rfl
@[simp] theorem updCam_ic (n : Fin 4) (f : CamSt → CamSt) : (updCam n f s).ic = s.ic := rfl
@[simp] theorem updCam_pair (n : Fin 4) (f : CamSt → CamSt) : (updCam n f s).pair = s.pair := rfl
@[simp] theorem updCam_heron (n : Fin 4) (f : CamSt → CamSt) : (updCam n f s).heron = s.heron := rfl
@[simp] theorem updCam_key (n : Fin 4) (f : CamSt → CamSt) : (updCam n f s).key = s.key := rfl
@[simp] theorem updCam_boot (n : Fin 4) (f : CamSt → CamSt) : (updCam n f s).boot = s.boot := rfl
@[simp] theorem updCam_blw (n : Fin 4) (f : CamSt → CamSt) : (updCam n f s).blw = s.blw := rfl

/-! ### updSig -/

@[simp] theorem updSig_pending (f : SigSt → SigSt) : (updSig f s).pending = s.pending := rfl
@[simp] theorem updSig_regs (f : SigSt → SigSt) : (updSig f s).regs = s.regs := rfl
@[simp] theorem updSig_mem (f : SigSt → SigSt) : (updSig f s).mem = s.mem := rfl
@[simp] theorem updSig_dram (f : SigSt → SigSt) : (updSig f s).dram = s.dram := rfl
@[simp] theorem updSig_flash (f : SigSt → SigSt) : (updSig f s).flash = s.flash := rfl
@[simp] theorem updSig_cwy (f : SigSt → SigSt) : (updSig f s).cwy = s.cwy := rfl
@[simp] theorem updSig_now (f : SigSt → SigSt) : (updSig f s).now = s.now := rfl
@[simp] theorem updSig_resp (f : SigSt → SigSt) : (updSig f s).resp = s.resp := rfl
@[simp] theorem updSig_fresh (f : SigSt → SigSt) : (updSig f s).fresh = s.fresh := rfl
@[simp] theorem updSig_isl (f : SigSt → SigSt) : (updSig f s).isl = s.isl := rfl
@[simp] theorem updSig_time (f : SigSt → SigSt) : (updSig f s).time = s.time := rfl
@[simp] theorem updSig_log (f : SigSt → SigSt) : (updSig f s).log = s.log := rfl
@[simp] theorem updSig_sig (f : SigSt → SigSt) : (updSig f s).sig = f s.sig := rfl
@[simp] theorem updSig_harts (f : SigSt → SigSt) : (updSig f s).harts = s.harts := rfl
@[simp] theorem updSig_railA (f : SigSt → SigSt) : (updSig f s).railA = s.railA := rfl
@[simp] theorem updSig_railB (f : SigSt → SigSt) : (updSig f s).railB = s.railB := rfl
@[simp] theorem updSig_own (f : SigSt → SigSt) : (updSig f s).own = s.own := rfl
@[simp] theorem updSig_trg (f : SigSt → SigSt) : (updSig f s).trg = s.trg := rfl
@[simp] theorem updSig_cap (f : SigSt → SigSt) : (updSig f s).cap = s.cap := rfl
@[simp] theorem updSig_trgShadows (f : SigSt → SigSt) : (updSig f s).trgShadows = s.trgShadows := rfl
@[simp] theorem updSig_cam (f : SigSt → SigSt) : (updSig f s).cam = s.cam := rfl
@[simp] theorem updSig_can (f : SigSt → SigSt) : (updSig f s).can = s.can := rfl
@[simp] theorem updSig_lin (f : SigSt → SigSt) : (updSig f s).lin = s.lin := rfl
@[simp] theorem updSig_nm (f : SigSt → SigSt) : (updSig f s).nm = s.nm := rfl
@[simp] theorem updSig_eng (f : SigSt → SigSt) : (updSig f s).eng = s.eng := rfl
@[simp] theorem updSig_issuer (f : SigSt → SigSt) : (updSig f s).issuer = s.issuer := rfl
@[simp] theorem updSig_sw (f : SigSt → SigSt) : (updSig f s).sw = s.sw := rfl
@[simp] theorem updSig_vqi (f : SigSt → SigSt) : (updSig f s).vqi = s.vqi := rfl
@[simp] theorem updSig_mbox (f : SigSt → SigSt) : (updSig f s).mbox = s.mbox := rfl
@[simp] theorem updSig_pulses (f : SigSt → SigSt) : (updSig f s).pulses = s.pulses := rfl
@[simp] theorem updSig_pd (f : SigSt → SigSt) : (updSig f s).pd = s.pd := rfl
@[simp] theorem updSig_fio (f : SigSt → SigSt) : (updSig f s).fio = s.fio := rfl
@[simp] theorem updSig_ic (f : SigSt → SigSt) : (updSig f s).ic = s.ic := rfl
@[simp] theorem updSig_pair (f : SigSt → SigSt) : (updSig f s).pair = s.pair := rfl
@[simp] theorem updSig_heron (f : SigSt → SigSt) : (updSig f s).heron = s.heron := rfl
@[simp] theorem updSig_key (f : SigSt → SigSt) : (updSig f s).key = s.key := rfl
@[simp] theorem updSig_boot (f : SigSt → SigSt) : (updSig f s).boot = s.boot := rfl
@[simp] theorem updSig_blw (f : SigSt → SigSt) : (updSig f s).blw = s.blw := rfl

/-! ### updVqi -/

@[simp] theorem updVqi_pending (f : VqiSt → VqiSt) : (updVqi f s).pending = s.pending := rfl
@[simp] theorem updVqi_regs (f : VqiSt → VqiSt) : (updVqi f s).regs = s.regs := rfl
@[simp] theorem updVqi_mem (f : VqiSt → VqiSt) : (updVqi f s).mem = s.mem := rfl
@[simp] theorem updVqi_dram (f : VqiSt → VqiSt) : (updVqi f s).dram = s.dram := rfl
@[simp] theorem updVqi_flash (f : VqiSt → VqiSt) : (updVqi f s).flash = s.flash := rfl
@[simp] theorem updVqi_cwy (f : VqiSt → VqiSt) : (updVqi f s).cwy = s.cwy := rfl
@[simp] theorem updVqi_now (f : VqiSt → VqiSt) : (updVqi f s).now = s.now := rfl
@[simp] theorem updVqi_resp (f : VqiSt → VqiSt) : (updVqi f s).resp = s.resp := rfl
@[simp] theorem updVqi_fresh (f : VqiSt → VqiSt) : (updVqi f s).fresh = s.fresh := rfl
@[simp] theorem updVqi_isl (f : VqiSt → VqiSt) : (updVqi f s).isl = s.isl := rfl
@[simp] theorem updVqi_time (f : VqiSt → VqiSt) : (updVqi f s).time = s.time := rfl
@[simp] theorem updVqi_log (f : VqiSt → VqiSt) : (updVqi f s).log = s.log := rfl
@[simp] theorem updVqi_sig (f : VqiSt → VqiSt) : (updVqi f s).sig = s.sig := rfl
@[simp] theorem updVqi_harts (f : VqiSt → VqiSt) : (updVqi f s).harts = s.harts := rfl
@[simp] theorem updVqi_railA (f : VqiSt → VqiSt) : (updVqi f s).railA = s.railA := rfl
@[simp] theorem updVqi_railB (f : VqiSt → VqiSt) : (updVqi f s).railB = s.railB := rfl
@[simp] theorem updVqi_own (f : VqiSt → VqiSt) : (updVqi f s).own = s.own := rfl
@[simp] theorem updVqi_trg (f : VqiSt → VqiSt) : (updVqi f s).trg = s.trg := rfl
@[simp] theorem updVqi_cap (f : VqiSt → VqiSt) : (updVqi f s).cap = s.cap := rfl
@[simp] theorem updVqi_trgShadows (f : VqiSt → VqiSt) : (updVqi f s).trgShadows = s.trgShadows := rfl
@[simp] theorem updVqi_cam (f : VqiSt → VqiSt) : (updVqi f s).cam = s.cam := rfl
@[simp] theorem updVqi_can (f : VqiSt → VqiSt) : (updVqi f s).can = s.can := rfl
@[simp] theorem updVqi_lin (f : VqiSt → VqiSt) : (updVqi f s).lin = s.lin := rfl
@[simp] theorem updVqi_nm (f : VqiSt → VqiSt) : (updVqi f s).nm = s.nm := rfl
@[simp] theorem updVqi_eng (f : VqiSt → VqiSt) : (updVqi f s).eng = s.eng := rfl
@[simp] theorem updVqi_issuer (f : VqiSt → VqiSt) : (updVqi f s).issuer = s.issuer := rfl
@[simp] theorem updVqi_sw (f : VqiSt → VqiSt) : (updVqi f s).sw = s.sw := rfl
@[simp] theorem updVqi_vqi (f : VqiSt → VqiSt) : (updVqi f s).vqi = f s.vqi := rfl
@[simp] theorem updVqi_mbox (f : VqiSt → VqiSt) : (updVqi f s).mbox = s.mbox := rfl
@[simp] theorem updVqi_pulses (f : VqiSt → VqiSt) : (updVqi f s).pulses = s.pulses := rfl
@[simp] theorem updVqi_pd (f : VqiSt → VqiSt) : (updVqi f s).pd = s.pd := rfl
@[simp] theorem updVqi_fio (f : VqiSt → VqiSt) : (updVqi f s).fio = s.fio := rfl
@[simp] theorem updVqi_ic (f : VqiSt → VqiSt) : (updVqi f s).ic = s.ic := rfl
@[simp] theorem updVqi_pair (f : VqiSt → VqiSt) : (updVqi f s).pair = s.pair := rfl
@[simp] theorem updVqi_heron (f : VqiSt → VqiSt) : (updVqi f s).heron = s.heron := rfl
@[simp] theorem updVqi_key (f : VqiSt → VqiSt) : (updVqi f s).key = s.key := rfl
@[simp] theorem updVqi_boot (f : VqiSt → VqiSt) : (updVqi f s).boot = s.boot := rfl
@[simp] theorem updVqi_blw (f : VqiSt → VqiSt) : (updVqi f s).blw = s.blw := rfl

/-! ### updFio -/

@[simp] theorem updFio_pending (f : FioSt → FioSt) : (updFio f s).pending = s.pending := rfl
@[simp] theorem updFio_regs (f : FioSt → FioSt) : (updFio f s).regs = s.regs := rfl
@[simp] theorem updFio_mem (f : FioSt → FioSt) : (updFio f s).mem = s.mem := rfl
@[simp] theorem updFio_dram (f : FioSt → FioSt) : (updFio f s).dram = s.dram := rfl
@[simp] theorem updFio_flash (f : FioSt → FioSt) : (updFio f s).flash = s.flash := rfl
@[simp] theorem updFio_cwy (f : FioSt → FioSt) : (updFio f s).cwy = s.cwy := rfl
@[simp] theorem updFio_now (f : FioSt → FioSt) : (updFio f s).now = s.now := rfl
@[simp] theorem updFio_resp (f : FioSt → FioSt) : (updFio f s).resp = s.resp := rfl
@[simp] theorem updFio_fresh (f : FioSt → FioSt) : (updFio f s).fresh = s.fresh := rfl
@[simp] theorem updFio_isl (f : FioSt → FioSt) : (updFio f s).isl = s.isl := rfl
@[simp] theorem updFio_time (f : FioSt → FioSt) : (updFio f s).time = s.time := rfl
@[simp] theorem updFio_log (f : FioSt → FioSt) : (updFio f s).log = s.log := rfl
@[simp] theorem updFio_sig (f : FioSt → FioSt) : (updFio f s).sig = s.sig := rfl
@[simp] theorem updFio_harts (f : FioSt → FioSt) : (updFio f s).harts = s.harts := rfl
@[simp] theorem updFio_railA (f : FioSt → FioSt) : (updFio f s).railA = s.railA := rfl
@[simp] theorem updFio_railB (f : FioSt → FioSt) : (updFio f s).railB = s.railB := rfl
@[simp] theorem updFio_own (f : FioSt → FioSt) : (updFio f s).own = s.own := rfl
@[simp] theorem updFio_trg (f : FioSt → FioSt) : (updFio f s).trg = s.trg := rfl
@[simp] theorem updFio_cap (f : FioSt → FioSt) : (updFio f s).cap = s.cap := rfl
@[simp] theorem updFio_trgShadows (f : FioSt → FioSt) : (updFio f s).trgShadows = s.trgShadows := rfl
@[simp] theorem updFio_cam (f : FioSt → FioSt) : (updFio f s).cam = s.cam := rfl
@[simp] theorem updFio_can (f : FioSt → FioSt) : (updFio f s).can = s.can := rfl
@[simp] theorem updFio_lin (f : FioSt → FioSt) : (updFio f s).lin = s.lin := rfl
@[simp] theorem updFio_nm (f : FioSt → FioSt) : (updFio f s).nm = s.nm := rfl
@[simp] theorem updFio_eng (f : FioSt → FioSt) : (updFio f s).eng = s.eng := rfl
@[simp] theorem updFio_issuer (f : FioSt → FioSt) : (updFio f s).issuer = s.issuer := rfl
@[simp] theorem updFio_sw (f : FioSt → FioSt) : (updFio f s).sw = s.sw := rfl
@[simp] theorem updFio_vqi (f : FioSt → FioSt) : (updFio f s).vqi = s.vqi := rfl
@[simp] theorem updFio_mbox (f : FioSt → FioSt) : (updFio f s).mbox = s.mbox := rfl
@[simp] theorem updFio_pulses (f : FioSt → FioSt) : (updFio f s).pulses = s.pulses := rfl
@[simp] theorem updFio_pd (f : FioSt → FioSt) : (updFio f s).pd = s.pd := rfl
@[simp] theorem updFio_fio (f : FioSt → FioSt) : (updFio f s).fio = f s.fio := rfl
@[simp] theorem updFio_ic (f : FioSt → FioSt) : (updFio f s).ic = s.ic := rfl
@[simp] theorem updFio_pair (f : FioSt → FioSt) : (updFio f s).pair = s.pair := rfl
@[simp] theorem updFio_heron (f : FioSt → FioSt) : (updFio f s).heron = s.heron := rfl
@[simp] theorem updFio_key (f : FioSt → FioSt) : (updFio f s).key = s.key := rfl
@[simp] theorem updFio_boot (f : FioSt → FioSt) : (updFio f s).boot = s.boot := rfl
@[simp] theorem updFio_blw (f : FioSt → FioSt) : (updFio f s).blw = s.blw := rfl

/-! ### updSeg -/

@[simp] theorem updSeg_pending (g : Fin 35) (f : NmSeg → NmSeg) : (updSeg g f s).pending = s.pending := rfl
@[simp] theorem updSeg_regs (g : Fin 35) (f : NmSeg → NmSeg) : (updSeg g f s).regs = s.regs := rfl
@[simp] theorem updSeg_mem (g : Fin 35) (f : NmSeg → NmSeg) : (updSeg g f s).mem = s.mem := rfl
@[simp] theorem updSeg_dram (g : Fin 35) (f : NmSeg → NmSeg) : (updSeg g f s).dram = s.dram := rfl
@[simp] theorem updSeg_flash (g : Fin 35) (f : NmSeg → NmSeg) : (updSeg g f s).flash = s.flash := rfl
@[simp] theorem updSeg_cwy (g : Fin 35) (f : NmSeg → NmSeg) : (updSeg g f s).cwy = s.cwy := rfl
@[simp] theorem updSeg_now (g : Fin 35) (f : NmSeg → NmSeg) : (updSeg g f s).now = s.now := rfl
@[simp] theorem updSeg_resp (g : Fin 35) (f : NmSeg → NmSeg) : (updSeg g f s).resp = s.resp := rfl
@[simp] theorem updSeg_fresh (g : Fin 35) (f : NmSeg → NmSeg) : (updSeg g f s).fresh = s.fresh := rfl
@[simp] theorem updSeg_isl (g : Fin 35) (f : NmSeg → NmSeg) : (updSeg g f s).isl = s.isl := rfl
@[simp] theorem updSeg_time (g : Fin 35) (f : NmSeg → NmSeg) : (updSeg g f s).time = s.time := rfl
@[simp] theorem updSeg_log (g : Fin 35) (f : NmSeg → NmSeg) : (updSeg g f s).log = s.log := rfl
@[simp] theorem updSeg_sig (g : Fin 35) (f : NmSeg → NmSeg) : (updSeg g f s).sig = s.sig := rfl
@[simp] theorem updSeg_harts (g : Fin 35) (f : NmSeg → NmSeg) : (updSeg g f s).harts = s.harts := rfl
@[simp] theorem updSeg_railA (g : Fin 35) (f : NmSeg → NmSeg) : (updSeg g f s).railA = s.railA := rfl
@[simp] theorem updSeg_railB (g : Fin 35) (f : NmSeg → NmSeg) : (updSeg g f s).railB = s.railB := rfl
@[simp] theorem updSeg_own (g : Fin 35) (f : NmSeg → NmSeg) : (updSeg g f s).own = s.own := rfl
@[simp] theorem updSeg_trg (g : Fin 35) (f : NmSeg → NmSeg) : (updSeg g f s).trg = s.trg := rfl
@[simp] theorem updSeg_cap (g : Fin 35) (f : NmSeg → NmSeg) : (updSeg g f s).cap = s.cap := rfl
@[simp] theorem updSeg_trgShadows (g : Fin 35) (f : NmSeg → NmSeg) : (updSeg g f s).trgShadows = s.trgShadows := rfl
@[simp] theorem updSeg_cam (g : Fin 35) (f : NmSeg → NmSeg) : (updSeg g f s).cam = s.cam := rfl
@[simp] theorem updSeg_can (g : Fin 35) (f : NmSeg → NmSeg) : (updSeg g f s).can = s.can := rfl
@[simp] theorem updSeg_lin (g : Fin 35) (f : NmSeg → NmSeg) : (updSeg g f s).lin = s.lin := rfl
@[simp] theorem updSeg_eng (g : Fin 35) (f : NmSeg → NmSeg) : (updSeg g f s).eng = s.eng := rfl
@[simp] theorem updSeg_issuer (g : Fin 35) (f : NmSeg → NmSeg) : (updSeg g f s).issuer = s.issuer := rfl
@[simp] theorem updSeg_sw (g : Fin 35) (f : NmSeg → NmSeg) : (updSeg g f s).sw = s.sw := rfl
@[simp] theorem updSeg_vqi (g : Fin 35) (f : NmSeg → NmSeg) : (updSeg g f s).vqi = s.vqi := rfl
@[simp] theorem updSeg_mbox (g : Fin 35) (f : NmSeg → NmSeg) : (updSeg g f s).mbox = s.mbox := rfl
@[simp] theorem updSeg_pulses (g : Fin 35) (f : NmSeg → NmSeg) : (updSeg g f s).pulses = s.pulses := rfl
@[simp] theorem updSeg_pd (g : Fin 35) (f : NmSeg → NmSeg) : (updSeg g f s).pd = s.pd := rfl
@[simp] theorem updSeg_fio (g : Fin 35) (f : NmSeg → NmSeg) : (updSeg g f s).fio = s.fio := rfl
@[simp] theorem updSeg_ic (g : Fin 35) (f : NmSeg → NmSeg) : (updSeg g f s).ic = s.ic := rfl
@[simp] theorem updSeg_pair (g : Fin 35) (f : NmSeg → NmSeg) : (updSeg g f s).pair = s.pair := rfl
@[simp] theorem updSeg_heron (g : Fin 35) (f : NmSeg → NmSeg) : (updSeg g f s).heron = s.heron := rfl
@[simp] theorem updSeg_key (g : Fin 35) (f : NmSeg → NmSeg) : (updSeg g f s).key = s.key := rfl
@[simp] theorem updSeg_boot (g : Fin 35) (f : NmSeg → NmSeg) : (updSeg g f s).boot = s.boot := rfl
@[simp] theorem updSeg_blw (g : Fin 35) (f : NmSeg → NmSeg) : (updSeg g f s).blw = s.blw := rfl

/-! ### updSw -/

@[simp] theorem updSw_pending (f : SwSt → SwSt) : (updSw f s).pending = s.pending := rfl
@[simp] theorem updSw_regs (f : SwSt → SwSt) : (updSw f s).regs = s.regs := rfl
@[simp] theorem updSw_mem (f : SwSt → SwSt) : (updSw f s).mem = s.mem := rfl
@[simp] theorem updSw_dram (f : SwSt → SwSt) : (updSw f s).dram = s.dram := rfl
@[simp] theorem updSw_flash (f : SwSt → SwSt) : (updSw f s).flash = s.flash := rfl
@[simp] theorem updSw_cwy (f : SwSt → SwSt) : (updSw f s).cwy = s.cwy := rfl
@[simp] theorem updSw_now (f : SwSt → SwSt) : (updSw f s).now = s.now := rfl
@[simp] theorem updSw_resp (f : SwSt → SwSt) : (updSw f s).resp = s.resp := rfl
@[simp] theorem updSw_fresh (f : SwSt → SwSt) : (updSw f s).fresh = s.fresh := rfl
@[simp] theorem updSw_isl (f : SwSt → SwSt) : (updSw f s).isl = s.isl := rfl
@[simp] theorem updSw_time (f : SwSt → SwSt) : (updSw f s).time = s.time := rfl
@[simp] theorem updSw_log (f : SwSt → SwSt) : (updSw f s).log = s.log := rfl
@[simp] theorem updSw_sig (f : SwSt → SwSt) : (updSw f s).sig = s.sig := rfl
@[simp] theorem updSw_harts (f : SwSt → SwSt) : (updSw f s).harts = s.harts := rfl
@[simp] theorem updSw_railA (f : SwSt → SwSt) : (updSw f s).railA = s.railA := rfl
@[simp] theorem updSw_railB (f : SwSt → SwSt) : (updSw f s).railB = s.railB := rfl
@[simp] theorem updSw_own (f : SwSt → SwSt) : (updSw f s).own = s.own := rfl
@[simp] theorem updSw_trg (f : SwSt → SwSt) : (updSw f s).trg = s.trg := rfl
@[simp] theorem updSw_cap (f : SwSt → SwSt) : (updSw f s).cap = s.cap := rfl
@[simp] theorem updSw_trgShadows (f : SwSt → SwSt) : (updSw f s).trgShadows = s.trgShadows := rfl
@[simp] theorem updSw_cam (f : SwSt → SwSt) : (updSw f s).cam = s.cam := rfl
@[simp] theorem updSw_can (f : SwSt → SwSt) : (updSw f s).can = s.can := rfl
@[simp] theorem updSw_lin (f : SwSt → SwSt) : (updSw f s).lin = s.lin := rfl
@[simp] theorem updSw_nm (f : SwSt → SwSt) : (updSw f s).nm = s.nm := rfl
@[simp] theorem updSw_eng (f : SwSt → SwSt) : (updSw f s).eng = s.eng := rfl
@[simp] theorem updSw_issuer (f : SwSt → SwSt) : (updSw f s).issuer = s.issuer := rfl
@[simp] theorem updSw_sw (f : SwSt → SwSt) : (updSw f s).sw = f s.sw := rfl
@[simp] theorem updSw_vqi (f : SwSt → SwSt) : (updSw f s).vqi = s.vqi := rfl
@[simp] theorem updSw_mbox (f : SwSt → SwSt) : (updSw f s).mbox = s.mbox := rfl
@[simp] theorem updSw_pulses (f : SwSt → SwSt) : (updSw f s).pulses = s.pulses := rfl
@[simp] theorem updSw_pd (f : SwSt → SwSt) : (updSw f s).pd = s.pd := rfl
@[simp] theorem updSw_fio (f : SwSt → SwSt) : (updSw f s).fio = s.fio := rfl
@[simp] theorem updSw_ic (f : SwSt → SwSt) : (updSw f s).ic = s.ic := rfl
@[simp] theorem updSw_pair (f : SwSt → SwSt) : (updSw f s).pair = s.pair := rfl
@[simp] theorem updSw_heron (f : SwSt → SwSt) : (updSw f s).heron = s.heron := rfl
@[simp] theorem updSw_key (f : SwSt → SwSt) : (updSw f s).key = s.key := rfl
@[simp] theorem updSw_boot (f : SwSt → SwSt) : (updSw f s).boot = s.boot := rfl
@[simp] theorem updSw_blw (f : SwSt → SwSt) : (updSw f s).blw = s.blw := rfl

/-! ### updFrame -/

@[simp] theorem updFrame_pending (n : Nat) (f : SwFrame → SwFrame) : (updFrame n f s).pending = s.pending := rfl
@[simp] theorem updFrame_regs (n : Nat) (f : SwFrame → SwFrame) : (updFrame n f s).regs = s.regs := rfl
@[simp] theorem updFrame_mem (n : Nat) (f : SwFrame → SwFrame) : (updFrame n f s).mem = s.mem := rfl
@[simp] theorem updFrame_dram (n : Nat) (f : SwFrame → SwFrame) : (updFrame n f s).dram = s.dram := rfl
@[simp] theorem updFrame_flash (n : Nat) (f : SwFrame → SwFrame) : (updFrame n f s).flash = s.flash := rfl
@[simp] theorem updFrame_cwy (n : Nat) (f : SwFrame → SwFrame) : (updFrame n f s).cwy = s.cwy := rfl
@[simp] theorem updFrame_now (n : Nat) (f : SwFrame → SwFrame) : (updFrame n f s).now = s.now := rfl
@[simp] theorem updFrame_resp (n : Nat) (f : SwFrame → SwFrame) : (updFrame n f s).resp = s.resp := rfl
@[simp] theorem updFrame_fresh (n : Nat) (f : SwFrame → SwFrame) : (updFrame n f s).fresh = s.fresh := rfl
@[simp] theorem updFrame_isl (n : Nat) (f : SwFrame → SwFrame) : (updFrame n f s).isl = s.isl := rfl
@[simp] theorem updFrame_time (n : Nat) (f : SwFrame → SwFrame) : (updFrame n f s).time = s.time := rfl
@[simp] theorem updFrame_log (n : Nat) (f : SwFrame → SwFrame) : (updFrame n f s).log = s.log := rfl
@[simp] theorem updFrame_sig (n : Nat) (f : SwFrame → SwFrame) : (updFrame n f s).sig = s.sig := rfl
@[simp] theorem updFrame_harts (n : Nat) (f : SwFrame → SwFrame) : (updFrame n f s).harts = s.harts := rfl
@[simp] theorem updFrame_railA (n : Nat) (f : SwFrame → SwFrame) : (updFrame n f s).railA = s.railA := rfl
@[simp] theorem updFrame_railB (n : Nat) (f : SwFrame → SwFrame) : (updFrame n f s).railB = s.railB := rfl
@[simp] theorem updFrame_own (n : Nat) (f : SwFrame → SwFrame) : (updFrame n f s).own = s.own := rfl
@[simp] theorem updFrame_trg (n : Nat) (f : SwFrame → SwFrame) : (updFrame n f s).trg = s.trg := rfl
@[simp] theorem updFrame_cap (n : Nat) (f : SwFrame → SwFrame) : (updFrame n f s).cap = s.cap := rfl
@[simp] theorem updFrame_trgShadows (n : Nat) (f : SwFrame → SwFrame) : (updFrame n f s).trgShadows = s.trgShadows := rfl
@[simp] theorem updFrame_cam (n : Nat) (f : SwFrame → SwFrame) : (updFrame n f s).cam = s.cam := rfl
@[simp] theorem updFrame_can (n : Nat) (f : SwFrame → SwFrame) : (updFrame n f s).can = s.can := rfl
@[simp] theorem updFrame_lin (n : Nat) (f : SwFrame → SwFrame) : (updFrame n f s).lin = s.lin := rfl
@[simp] theorem updFrame_nm (n : Nat) (f : SwFrame → SwFrame) : (updFrame n f s).nm = s.nm := rfl
@[simp] theorem updFrame_eng (n : Nat) (f : SwFrame → SwFrame) : (updFrame n f s).eng = s.eng := rfl
@[simp] theorem updFrame_issuer (n : Nat) (f : SwFrame → SwFrame) : (updFrame n f s).issuer = s.issuer := rfl
@[simp] theorem updFrame_vqi (n : Nat) (f : SwFrame → SwFrame) : (updFrame n f s).vqi = s.vqi := rfl
@[simp] theorem updFrame_mbox (n : Nat) (f : SwFrame → SwFrame) : (updFrame n f s).mbox = s.mbox := rfl
@[simp] theorem updFrame_pulses (n : Nat) (f : SwFrame → SwFrame) : (updFrame n f s).pulses = s.pulses := rfl
@[simp] theorem updFrame_pd (n : Nat) (f : SwFrame → SwFrame) : (updFrame n f s).pd = s.pd := rfl
@[simp] theorem updFrame_fio (n : Nat) (f : SwFrame → SwFrame) : (updFrame n f s).fio = s.fio := rfl
@[simp] theorem updFrame_ic (n : Nat) (f : SwFrame → SwFrame) : (updFrame n f s).ic = s.ic := rfl
@[simp] theorem updFrame_pair (n : Nat) (f : SwFrame → SwFrame) : (updFrame n f s).pair = s.pair := rfl
@[simp] theorem updFrame_heron (n : Nat) (f : SwFrame → SwFrame) : (updFrame n f s).heron = s.heron := rfl
@[simp] theorem updFrame_key (n : Nat) (f : SwFrame → SwFrame) : (updFrame n f s).key = s.key := rfl
@[simp] theorem updFrame_boot (n : Nat) (f : SwFrame → SwFrame) : (updFrame n f s).boot = s.boot := rfl
@[simp] theorem updFrame_blw (n : Nat) (f : SwFrame → SwFrame) : (updFrame n f s).blw = s.blw := rfl

/-! ### updOwn -/

@[simp] theorem updOwn_pending (f : OwnSt → OwnSt) : (updOwn f s).pending = s.pending := rfl
@[simp] theorem updOwn_regs (f : OwnSt → OwnSt) : (updOwn f s).regs = s.regs := rfl
@[simp] theorem updOwn_mem (f : OwnSt → OwnSt) : (updOwn f s).mem = s.mem := rfl
@[simp] theorem updOwn_dram (f : OwnSt → OwnSt) : (updOwn f s).dram = s.dram := rfl
@[simp] theorem updOwn_flash (f : OwnSt → OwnSt) : (updOwn f s).flash = s.flash := rfl
@[simp] theorem updOwn_cwy (f : OwnSt → OwnSt) : (updOwn f s).cwy = s.cwy := rfl
@[simp] theorem updOwn_now (f : OwnSt → OwnSt) : (updOwn f s).now = s.now := rfl
@[simp] theorem updOwn_resp (f : OwnSt → OwnSt) : (updOwn f s).resp = s.resp := rfl
@[simp] theorem updOwn_fresh (f : OwnSt → OwnSt) : (updOwn f s).fresh = s.fresh := rfl
@[simp] theorem updOwn_isl (f : OwnSt → OwnSt) : (updOwn f s).isl = s.isl := rfl
@[simp] theorem updOwn_time (f : OwnSt → OwnSt) : (updOwn f s).time = s.time := rfl
@[simp] theorem updOwn_log (f : OwnSt → OwnSt) : (updOwn f s).log = s.log := rfl
@[simp] theorem updOwn_sig (f : OwnSt → OwnSt) : (updOwn f s).sig = s.sig := rfl
@[simp] theorem updOwn_harts (f : OwnSt → OwnSt) : (updOwn f s).harts = s.harts := rfl
@[simp] theorem updOwn_railA (f : OwnSt → OwnSt) : (updOwn f s).railA = s.railA := rfl
@[simp] theorem updOwn_railB (f : OwnSt → OwnSt) : (updOwn f s).railB = s.railB := rfl
@[simp] theorem updOwn_own (f : OwnSt → OwnSt) : (updOwn f s).own = f s.own := rfl
@[simp] theorem updOwn_trg (f : OwnSt → OwnSt) : (updOwn f s).trg = s.trg := rfl
@[simp] theorem updOwn_cap (f : OwnSt → OwnSt) : (updOwn f s).cap = s.cap := rfl
@[simp] theorem updOwn_trgShadows (f : OwnSt → OwnSt) : (updOwn f s).trgShadows = s.trgShadows := rfl
@[simp] theorem updOwn_cam (f : OwnSt → OwnSt) : (updOwn f s).cam = s.cam := rfl
@[simp] theorem updOwn_can (f : OwnSt → OwnSt) : (updOwn f s).can = s.can := rfl
@[simp] theorem updOwn_lin (f : OwnSt → OwnSt) : (updOwn f s).lin = s.lin := rfl
@[simp] theorem updOwn_nm (f : OwnSt → OwnSt) : (updOwn f s).nm = s.nm := rfl
@[simp] theorem updOwn_eng (f : OwnSt → OwnSt) : (updOwn f s).eng = s.eng := rfl
@[simp] theorem updOwn_issuer (f : OwnSt → OwnSt) : (updOwn f s).issuer = s.issuer := rfl
@[simp] theorem updOwn_sw (f : OwnSt → OwnSt) : (updOwn f s).sw = s.sw := rfl
@[simp] theorem updOwn_vqi (f : OwnSt → OwnSt) : (updOwn f s).vqi = s.vqi := rfl
@[simp] theorem updOwn_mbox (f : OwnSt → OwnSt) : (updOwn f s).mbox = s.mbox := rfl
@[simp] theorem updOwn_pulses (f : OwnSt → OwnSt) : (updOwn f s).pulses = s.pulses := rfl
@[simp] theorem updOwn_pd (f : OwnSt → OwnSt) : (updOwn f s).pd = s.pd := rfl
@[simp] theorem updOwn_fio (f : OwnSt → OwnSt) : (updOwn f s).fio = s.fio := rfl
@[simp] theorem updOwn_ic (f : OwnSt → OwnSt) : (updOwn f s).ic = s.ic := rfl
@[simp] theorem updOwn_pair (f : OwnSt → OwnSt) : (updOwn f s).pair = s.pair := rfl
@[simp] theorem updOwn_heron (f : OwnSt → OwnSt) : (updOwn f s).heron = s.heron := rfl
@[simp] theorem updOwn_key (f : OwnSt → OwnSt) : (updOwn f s).key = s.key := rfl
@[simp] theorem updOwn_boot (f : OwnSt → OwnSt) : (updOwn f s).boot = s.boot := rfl
@[simp] theorem updOwn_blw (f : OwnSt → OwnSt) : (updOwn f s).blw = s.blw := rfl

/-! ### updHeron -/

@[simp] theorem updHeron_pending (f : HeronSt → HeronSt) : (updHeron f s).pending = s.pending := rfl
@[simp] theorem updHeron_regs (f : HeronSt → HeronSt) : (updHeron f s).regs = s.regs := rfl
@[simp] theorem updHeron_mem (f : HeronSt → HeronSt) : (updHeron f s).mem = s.mem := rfl
@[simp] theorem updHeron_dram (f : HeronSt → HeronSt) : (updHeron f s).dram = s.dram := rfl
@[simp] theorem updHeron_flash (f : HeronSt → HeronSt) : (updHeron f s).flash = s.flash := rfl
@[simp] theorem updHeron_cwy (f : HeronSt → HeronSt) : (updHeron f s).cwy = s.cwy := rfl
@[simp] theorem updHeron_now (f : HeronSt → HeronSt) : (updHeron f s).now = s.now := rfl
@[simp] theorem updHeron_resp (f : HeronSt → HeronSt) : (updHeron f s).resp = s.resp := rfl
@[simp] theorem updHeron_fresh (f : HeronSt → HeronSt) : (updHeron f s).fresh = s.fresh := rfl
@[simp] theorem updHeron_isl (f : HeronSt → HeronSt) : (updHeron f s).isl = s.isl := rfl
@[simp] theorem updHeron_time (f : HeronSt → HeronSt) : (updHeron f s).time = s.time := rfl
@[simp] theorem updHeron_log (f : HeronSt → HeronSt) : (updHeron f s).log = s.log := rfl
@[simp] theorem updHeron_sig (f : HeronSt → HeronSt) : (updHeron f s).sig = s.sig := rfl
@[simp] theorem updHeron_harts (f : HeronSt → HeronSt) : (updHeron f s).harts = s.harts := rfl
@[simp] theorem updHeron_railA (f : HeronSt → HeronSt) : (updHeron f s).railA = s.railA := rfl
@[simp] theorem updHeron_railB (f : HeronSt → HeronSt) : (updHeron f s).railB = s.railB := rfl
@[simp] theorem updHeron_own (f : HeronSt → HeronSt) : (updHeron f s).own = s.own := rfl
@[simp] theorem updHeron_trg (f : HeronSt → HeronSt) : (updHeron f s).trg = s.trg := rfl
@[simp] theorem updHeron_cap (f : HeronSt → HeronSt) : (updHeron f s).cap = s.cap := rfl
@[simp] theorem updHeron_trgShadows (f : HeronSt → HeronSt) : (updHeron f s).trgShadows = s.trgShadows := rfl
@[simp] theorem updHeron_cam (f : HeronSt → HeronSt) : (updHeron f s).cam = s.cam := rfl
@[simp] theorem updHeron_can (f : HeronSt → HeronSt) : (updHeron f s).can = s.can := rfl
@[simp] theorem updHeron_lin (f : HeronSt → HeronSt) : (updHeron f s).lin = s.lin := rfl
@[simp] theorem updHeron_nm (f : HeronSt → HeronSt) : (updHeron f s).nm = s.nm := rfl
@[simp] theorem updHeron_eng (f : HeronSt → HeronSt) : (updHeron f s).eng = s.eng := rfl
@[simp] theorem updHeron_issuer (f : HeronSt → HeronSt) : (updHeron f s).issuer = s.issuer := rfl
@[simp] theorem updHeron_sw (f : HeronSt → HeronSt) : (updHeron f s).sw = s.sw := rfl
@[simp] theorem updHeron_vqi (f : HeronSt → HeronSt) : (updHeron f s).vqi = s.vqi := rfl
@[simp] theorem updHeron_mbox (f : HeronSt → HeronSt) : (updHeron f s).mbox = s.mbox := rfl
@[simp] theorem updHeron_pulses (f : HeronSt → HeronSt) : (updHeron f s).pulses = s.pulses := rfl
@[simp] theorem updHeron_pd (f : HeronSt → HeronSt) : (updHeron f s).pd = s.pd := rfl
@[simp] theorem updHeron_fio (f : HeronSt → HeronSt) : (updHeron f s).fio = s.fio := rfl
@[simp] theorem updHeron_ic (f : HeronSt → HeronSt) : (updHeron f s).ic = s.ic := rfl
@[simp] theorem updHeron_pair (f : HeronSt → HeronSt) : (updHeron f s).pair = s.pair := rfl
@[simp] theorem updHeron_heron (f : HeronSt → HeronSt) : (updHeron f s).heron = f s.heron := rfl
@[simp] theorem updHeron_key (f : HeronSt → HeronSt) : (updHeron f s).key = s.key := rfl
@[simp] theorem updHeron_boot (f : HeronSt → HeronSt) : (updHeron f s).boot = s.boot := rfl
@[simp] theorem updHeron_blw (f : HeronSt → HeronSt) : (updHeron f s).blw = s.blw := rfl

/-! ### updBlw -/

@[simp] theorem updBlw_pending (f : BlwSt → BlwSt) : (updBlw f s).pending = s.pending := rfl
@[simp] theorem updBlw_regs (f : BlwSt → BlwSt) : (updBlw f s).regs = s.regs := rfl
@[simp] theorem updBlw_mem (f : BlwSt → BlwSt) : (updBlw f s).mem = s.mem := rfl
@[simp] theorem updBlw_dram (f : BlwSt → BlwSt) : (updBlw f s).dram = s.dram := rfl
@[simp] theorem updBlw_flash (f : BlwSt → BlwSt) : (updBlw f s).flash = s.flash := rfl
@[simp] theorem updBlw_cwy (f : BlwSt → BlwSt) : (updBlw f s).cwy = s.cwy := rfl
@[simp] theorem updBlw_now (f : BlwSt → BlwSt) : (updBlw f s).now = s.now := rfl
@[simp] theorem updBlw_resp (f : BlwSt → BlwSt) : (updBlw f s).resp = s.resp := rfl
@[simp] theorem updBlw_fresh (f : BlwSt → BlwSt) : (updBlw f s).fresh = s.fresh := rfl
@[simp] theorem updBlw_isl (f : BlwSt → BlwSt) : (updBlw f s).isl = s.isl := rfl
@[simp] theorem updBlw_time (f : BlwSt → BlwSt) : (updBlw f s).time = s.time := rfl
@[simp] theorem updBlw_log (f : BlwSt → BlwSt) : (updBlw f s).log = s.log := rfl
@[simp] theorem updBlw_sig (f : BlwSt → BlwSt) : (updBlw f s).sig = s.sig := rfl
@[simp] theorem updBlw_harts (f : BlwSt → BlwSt) : (updBlw f s).harts = s.harts := rfl
@[simp] theorem updBlw_railA (f : BlwSt → BlwSt) : (updBlw f s).railA = s.railA := rfl
@[simp] theorem updBlw_railB (f : BlwSt → BlwSt) : (updBlw f s).railB = s.railB := rfl
@[simp] theorem updBlw_own (f : BlwSt → BlwSt) : (updBlw f s).own = s.own := rfl
@[simp] theorem updBlw_trg (f : BlwSt → BlwSt) : (updBlw f s).trg = s.trg := rfl
@[simp] theorem updBlw_cap (f : BlwSt → BlwSt) : (updBlw f s).cap = s.cap := rfl
@[simp] theorem updBlw_trgShadows (f : BlwSt → BlwSt) : (updBlw f s).trgShadows = s.trgShadows := rfl
@[simp] theorem updBlw_cam (f : BlwSt → BlwSt) : (updBlw f s).cam = s.cam := rfl
@[simp] theorem updBlw_can (f : BlwSt → BlwSt) : (updBlw f s).can = s.can := rfl
@[simp] theorem updBlw_lin (f : BlwSt → BlwSt) : (updBlw f s).lin = s.lin := rfl
@[simp] theorem updBlw_nm (f : BlwSt → BlwSt) : (updBlw f s).nm = s.nm := rfl
@[simp] theorem updBlw_eng (f : BlwSt → BlwSt) : (updBlw f s).eng = s.eng := rfl
@[simp] theorem updBlw_issuer (f : BlwSt → BlwSt) : (updBlw f s).issuer = s.issuer := rfl
@[simp] theorem updBlw_sw (f : BlwSt → BlwSt) : (updBlw f s).sw = s.sw := rfl
@[simp] theorem updBlw_vqi (f : BlwSt → BlwSt) : (updBlw f s).vqi = s.vqi := rfl
@[simp] theorem updBlw_mbox (f : BlwSt → BlwSt) : (updBlw f s).mbox = s.mbox := rfl
@[simp] theorem updBlw_pulses (f : BlwSt → BlwSt) : (updBlw f s).pulses = s.pulses := rfl
@[simp] theorem updBlw_pd (f : BlwSt → BlwSt) : (updBlw f s).pd = s.pd := rfl
@[simp] theorem updBlw_fio (f : BlwSt → BlwSt) : (updBlw f s).fio = s.fio := rfl
@[simp] theorem updBlw_ic (f : BlwSt → BlwSt) : (updBlw f s).ic = s.ic := rfl
@[simp] theorem updBlw_pair (f : BlwSt → BlwSt) : (updBlw f s).pair = s.pair := rfl
@[simp] theorem updBlw_heron (f : BlwSt → BlwSt) : (updBlw f s).heron = s.heron := rfl
@[simp] theorem updBlw_key (f : BlwSt → BlwSt) : (updBlw f s).key = s.key := rfl
@[simp] theorem updBlw_boot (f : BlwSt → BlwSt) : (updBlw f s).boot = s.boot := rfl
@[simp] theorem updBlw_blw (f : BlwSt → BlwSt) : (updBlw f s).blw = f s.blw := rfl

/-! ### updKey -/

@[simp] theorem updKey_pending (f : KeySt → KeySt) : (updKey f s).pending = s.pending := rfl
@[simp] theorem updKey_regs (f : KeySt → KeySt) : (updKey f s).regs = s.regs := rfl
@[simp] theorem updKey_mem (f : KeySt → KeySt) : (updKey f s).mem = s.mem := rfl
@[simp] theorem updKey_dram (f : KeySt → KeySt) : (updKey f s).dram = s.dram := rfl
@[simp] theorem updKey_flash (f : KeySt → KeySt) : (updKey f s).flash = s.flash := rfl
@[simp] theorem updKey_cwy (f : KeySt → KeySt) : (updKey f s).cwy = s.cwy := rfl
@[simp] theorem updKey_now (f : KeySt → KeySt) : (updKey f s).now = s.now := rfl
@[simp] theorem updKey_resp (f : KeySt → KeySt) : (updKey f s).resp = s.resp := rfl
@[simp] theorem updKey_fresh (f : KeySt → KeySt) : (updKey f s).fresh = s.fresh := rfl
@[simp] theorem updKey_isl (f : KeySt → KeySt) : (updKey f s).isl = s.isl := rfl
@[simp] theorem updKey_time (f : KeySt → KeySt) : (updKey f s).time = s.time := rfl
@[simp] theorem updKey_log (f : KeySt → KeySt) : (updKey f s).log = s.log := rfl
@[simp] theorem updKey_sig (f : KeySt → KeySt) : (updKey f s).sig = s.sig := rfl
@[simp] theorem updKey_harts (f : KeySt → KeySt) : (updKey f s).harts = s.harts := rfl
@[simp] theorem updKey_railA (f : KeySt → KeySt) : (updKey f s).railA = s.railA := rfl
@[simp] theorem updKey_railB (f : KeySt → KeySt) : (updKey f s).railB = s.railB := rfl
@[simp] theorem updKey_own (f : KeySt → KeySt) : (updKey f s).own = s.own := rfl
@[simp] theorem updKey_trg (f : KeySt → KeySt) : (updKey f s).trg = s.trg := rfl
@[simp] theorem updKey_cap (f : KeySt → KeySt) : (updKey f s).cap = s.cap := rfl
@[simp] theorem updKey_trgShadows (f : KeySt → KeySt) : (updKey f s).trgShadows = s.trgShadows := rfl
@[simp] theorem updKey_cam (f : KeySt → KeySt) : (updKey f s).cam = s.cam := rfl
@[simp] theorem updKey_can (f : KeySt → KeySt) : (updKey f s).can = s.can := rfl
@[simp] theorem updKey_lin (f : KeySt → KeySt) : (updKey f s).lin = s.lin := rfl
@[simp] theorem updKey_nm (f : KeySt → KeySt) : (updKey f s).nm = s.nm := rfl
@[simp] theorem updKey_eng (f : KeySt → KeySt) : (updKey f s).eng = s.eng := rfl
@[simp] theorem updKey_issuer (f : KeySt → KeySt) : (updKey f s).issuer = s.issuer := rfl
@[simp] theorem updKey_sw (f : KeySt → KeySt) : (updKey f s).sw = s.sw := rfl
@[simp] theorem updKey_vqi (f : KeySt → KeySt) : (updKey f s).vqi = s.vqi := rfl
@[simp] theorem updKey_mbox (f : KeySt → KeySt) : (updKey f s).mbox = s.mbox := rfl
@[simp] theorem updKey_pulses (f : KeySt → KeySt) : (updKey f s).pulses = s.pulses := rfl
@[simp] theorem updKey_pd (f : KeySt → KeySt) : (updKey f s).pd = s.pd := rfl
@[simp] theorem updKey_fio (f : KeySt → KeySt) : (updKey f s).fio = s.fio := rfl
@[simp] theorem updKey_ic (f : KeySt → KeySt) : (updKey f s).ic = s.ic := rfl
@[simp] theorem updKey_pair (f : KeySt → KeySt) : (updKey f s).pair = s.pair := rfl
@[simp] theorem updKey_heron (f : KeySt → KeySt) : (updKey f s).heron = s.heron := rfl
@[simp] theorem updKey_key (f : KeySt → KeySt) : (updKey f s).key = f s.key := rfl
@[simp] theorem updKey_boot (f : KeySt → KeySt) : (updKey f s).boot = s.boot := rfl
@[simp] theorem updKey_blw (f : KeySt → KeySt) : (updKey f s).blw = s.blw := rfl

/-! ### updBoot -/

@[simp] theorem updBoot_pending (f : BootSt → BootSt) : (updBoot f s).pending = s.pending := rfl
@[simp] theorem updBoot_regs (f : BootSt → BootSt) : (updBoot f s).regs = s.regs := rfl
@[simp] theorem updBoot_mem (f : BootSt → BootSt) : (updBoot f s).mem = s.mem := rfl
@[simp] theorem updBoot_dram (f : BootSt → BootSt) : (updBoot f s).dram = s.dram := rfl
@[simp] theorem updBoot_flash (f : BootSt → BootSt) : (updBoot f s).flash = s.flash := rfl
@[simp] theorem updBoot_cwy (f : BootSt → BootSt) : (updBoot f s).cwy = s.cwy := rfl
@[simp] theorem updBoot_now (f : BootSt → BootSt) : (updBoot f s).now = s.now := rfl
@[simp] theorem updBoot_resp (f : BootSt → BootSt) : (updBoot f s).resp = s.resp := rfl
@[simp] theorem updBoot_fresh (f : BootSt → BootSt) : (updBoot f s).fresh = s.fresh := rfl
@[simp] theorem updBoot_isl (f : BootSt → BootSt) : (updBoot f s).isl = s.isl := rfl
@[simp] theorem updBoot_time (f : BootSt → BootSt) : (updBoot f s).time = s.time := rfl
@[simp] theorem updBoot_log (f : BootSt → BootSt) : (updBoot f s).log = s.log := rfl
@[simp] theorem updBoot_sig (f : BootSt → BootSt) : (updBoot f s).sig = s.sig := rfl
@[simp] theorem updBoot_harts (f : BootSt → BootSt) : (updBoot f s).harts = s.harts := rfl
@[simp] theorem updBoot_railA (f : BootSt → BootSt) : (updBoot f s).railA = s.railA := rfl
@[simp] theorem updBoot_railB (f : BootSt → BootSt) : (updBoot f s).railB = s.railB := rfl
@[simp] theorem updBoot_own (f : BootSt → BootSt) : (updBoot f s).own = s.own := rfl
@[simp] theorem updBoot_trg (f : BootSt → BootSt) : (updBoot f s).trg = s.trg := rfl
@[simp] theorem updBoot_cap (f : BootSt → BootSt) : (updBoot f s).cap = s.cap := rfl
@[simp] theorem updBoot_trgShadows (f : BootSt → BootSt) : (updBoot f s).trgShadows = s.trgShadows := rfl
@[simp] theorem updBoot_cam (f : BootSt → BootSt) : (updBoot f s).cam = s.cam := rfl
@[simp] theorem updBoot_can (f : BootSt → BootSt) : (updBoot f s).can = s.can := rfl
@[simp] theorem updBoot_lin (f : BootSt → BootSt) : (updBoot f s).lin = s.lin := rfl
@[simp] theorem updBoot_nm (f : BootSt → BootSt) : (updBoot f s).nm = s.nm := rfl
@[simp] theorem updBoot_eng (f : BootSt → BootSt) : (updBoot f s).eng = s.eng := rfl
@[simp] theorem updBoot_issuer (f : BootSt → BootSt) : (updBoot f s).issuer = s.issuer := rfl
@[simp] theorem updBoot_sw (f : BootSt → BootSt) : (updBoot f s).sw = s.sw := rfl
@[simp] theorem updBoot_vqi (f : BootSt → BootSt) : (updBoot f s).vqi = s.vqi := rfl
@[simp] theorem updBoot_mbox (f : BootSt → BootSt) : (updBoot f s).mbox = s.mbox := rfl
@[simp] theorem updBoot_pulses (f : BootSt → BootSt) : (updBoot f s).pulses = s.pulses := rfl
@[simp] theorem updBoot_pd (f : BootSt → BootSt) : (updBoot f s).pd = s.pd := rfl
@[simp] theorem updBoot_fio (f : BootSt → BootSt) : (updBoot f s).fio = s.fio := rfl
@[simp] theorem updBoot_ic (f : BootSt → BootSt) : (updBoot f s).ic = s.ic := rfl
@[simp] theorem updBoot_pair (f : BootSt → BootSt) : (updBoot f s).pair = s.pair := rfl
@[simp] theorem updBoot_heron (f : BootSt → BootSt) : (updBoot f s).heron = s.heron := rfl
@[simp] theorem updBoot_key (f : BootSt → BootSt) : (updBoot f s).key = s.key := rfl
@[simp] theorem updBoot_boot (f : BootSt → BootSt) : (updBoot f s).boot = f s.boot := rfl
@[simp] theorem updBoot_blw (f : BootSt → BootSt) : (updBoot f s).blw = s.blw := rfl

end Sys2Proof.Machine
end

