-- ==== Sys2Proof/Tests/Slice0.lean ====
section
/-!
SUPPORT. Tests: what the checks of WellFormed.lean refuse, words of chapter 05 written out from its encodings, and for each statement with hypotheses a state and operands that meet
them, clause by clause. Every expected value is from the manual's tables or worked by hand from its rules.
-/
namespace Sys2Proof.Tests

open Sys2Proof Sys2Proof.Machine

set_option maxRecDepth 100000
set_option Elab.async false

/-- Whether an initiator's access to a register is let in because Hearth makes it, or with the ownership check off. -/
def letsB (w : Initiator) (a : Nat) (s : State) : Bool := (initWorld w s || (!inUnowned a s && !ftst F.OWN_CTRL_EN s)) && homeOpen a s

theorem lets_and {w : Initiator} {a : Nat} {wr : Bool} {s : State} {P : Prop} (h : letsB w a s = true ∧ P) : Lets w a wr s ∧ P := by
  refine ⟨?_, h.2⟩
  have h := h.1
  simp only [letsB, Bool.and_eq_true, Bool.or_eq_true, Bool.not_eq_true'] at h
  exact ⟨h.1.imp id fun x => ⟨x.1, .inl x.2⟩, h.2⟩

/-- The state after reset. -/
def st : State := State.reset

def updIslT (i : Fin 21) (x : IslState) (s : State) : State := updIsl i (fun y => { y with st := x }) s

def later (n : Nat) (s : State) : State := { s with now := n }

/-- Whether a queue is bound depends on the registers alone. -/
theorem qidBound_regs {q : Nat} {s t : State} (h : s.regs = t.regs) : qidBound q s = qidBound q t := by
  simp only [qidBound, ftst, fget, rd, h]

/-- It is untouched by a write beyond the engines' registers. -/
theorem qidBound_wr {q a : Nat} {v : Word} {s : State} (h : 0x10000000 ≤ a) : qidBound q (wr a v s) = qidBound q s := by
  have ne : ∀ e k, e < 24 → k < 24 → rd (R.ENG_QSLOT_q e k) (wr a v s) = rd (R.ENG_QSLOT_q e k) s := fun e k he hk => rd_wr_other v s (by simp only [R.ENG_QSLOT_q]; omega)
  have at_ : ∀ e k, (F.ENG_QSLOT_q_EN e k).addr = R.ENG_QSLOT_q e k ∧ (F.ENG_QSLOT_q_QID e k).addr = R.ENG_QSLOT_q e k := fun _ _ => ⟨rfl, rfl⟩
  rw [Bool.eq_iff_iff]
  simp only [qidBound, List.any_eq_true, List.mem_range, ftst, fget, (at_ _ _).1, (at_ _ _).2]
  constructor <;> rintro ⟨e, he, k, hk, hx⟩ <;> refine ⟨e, he, k, hk, ?_⟩ <;> simpa only [ne e k he hk] using hx

theorem unbound : qidBound (canRxQid 11) st = false ∧ qidBound (canTxQid 11) st = false := by decide +kernel

/-- Source 1023 requests, is enabled with priority 31 and is routed to HC. -/
def edgePending : State :=
  (fun s => { s with ic := { s.ic with edge := s.ic.edge ||| BitVec.ofNat 256 (2 ^ 255) } })
    (st |> fput (F.IC_SRC_CFG_i_EN 1023) 1 |> fput (F.IC_SRC_CFG_i_PRIO 1023) 31 |> fput (F.IC_SRC_CFG_i_TARGET 1023) 12)

/-- The same below HC's threshold. -/
def maskedEdge : State := fput (F.IC_THRESH_t_PRI 12) 31 edgePending

theorem best1023 : icBest 12 edgePending = some (1023, 31) := by decide +kernel

theorem bestNone : icBest 12 maskedEdge = none := by decide +kernel

/-- A migration record whose fields are in range (R510). -/
def goodRecord : List Byte := ascii "Z480VQI1" ++ List.replicate 22 0 ++ [0, 4] ++ List.replicate 416 0

theorem tag_of_record (k x : List Byte) (h : x.length = 448) : hmac512 k ((x ++ hmac512 k x).take 448) = (x ++ hmac512 k x).drop 448 := by
  rw [List.take_left' h, List.drop_left' h]

/-! ### What the checks of WellFormed.lean refuse -/

/-- A run of four registers from n29 would pass n31 (R179). -/
theorem test_wf_refuses_a_run_past_n31 : (Instr.ldq 0 0 29 0 0 none .clear).wf = false ∧ (Instr.ldq 0 0 28 0 0 none .clear).wf = true := by decide

/-- A shift by an immediate above 31, and a slot above 23 (R208). -/
theorem test_wf_refuses_illegal_fields : (Instr.shli 0 0 1 1 32).wf = false ∧ (Instr.qpop 0 0 1 24).wf = false ∧ (Instr.ext 0 0 1 2 31 1 false).wf = false := by decide

/-- Nine bytes do not fit a classical CAN frame (R255). -/
theorem test_wf_refuses_a_long_can_frame :
    (Instr.canFrameReceive 0 .classical 0 (List.replicate 9 0) false 0 0).wf = false ∧ (Instr.canFrameReceive 0 .classical 0 (List.replicate 8 0) false 0 0).wf = true := by decide

/-- Eight data bytes and the checksum (R289). -/
theorem test_wf_refuses_a_long_lin_response : (Instr.linResponseEnd 0 (List.replicate 9 0) none false false).fits = false ∧ (Instr.linResponseEnd 0 (List.replicate 8 0) (some 0) false false).fits = true := by decide

theorem test_wf_refuses_an_empty_frame : (Instr.frameReceive 0 [] true).fits = false := by decide

/-- The length of a long packet has 16 bits (R123). -/
theorem test_wf_refuses_an_endless_long_packet (p : List Byte) (h : 2 ^ 16 ≤ p.length) : (Instr.csiLongPacket 0 0 0 p true .clean).fits = false :=
  decide_eq_false (by omega)

/-- Tongs blocks are numbered 0 to 26 (R476). -/
theorem test_wf_refuses_a_block_that_does_not_exist : (Instr.tongsRel .hc 27).wf = false ∧ (Instr.tongsRel .hc 26).wf = true := by decide

/-! ### Words of chapter 05: its example, and for the families it does not show, words written out from R177 to R208 -/

/-- Words 0, 2, 3 and 25 of the example. -/
theorem test_decode_immediate : nyDecode 0x20400001 = some (.aluI 7 2 0 1) ∧ nyDecode 0x0D292A40 = some (.aluI 2 9 9 0x2A40) ∧ nyDecode 0x04600004 = some (.aluI 0 3 0 4) ∧
    nyDecode 0x1AAE0010 = some (.aluI 5 21 14 16) := by decide

/-- Words 7, 8, 12 and 13 of the example. -/
theorem test_decode_events_queues_signals : nyDecode 0x98230000 = some (.event 0 1 3 0) ∧ nyDecode 0x88800002 = some (.slot 0 4 2) ∧ nyDecode 0xA6095000 = some (.signal 0 16 9 10) ∧
    nyDecode 0x88240200 = some (.qack 1 4 0) := by decide

/-- Words 9, 14 and 34 of the example: a branch names na and nb in the places of nd and na. -/
theorem test_decode_branches : nyDecode 0x6080FFFE = some (.branch 0 4 0 (-2)) ∧ nyDecode 0x6620FFF9 = some (.branch 1 17 0 (-7)) ∧ nyDecode 0x6000FFE5 = some (.branch 0 0 0 (-27)) := by decide

/-- Words 10, 15, 17, 28 and 29 of the example. -/
theorem test_decode_packets_and_time : nyDecode 0x91800000 = some (.time 0 12 0 0 false) ∧ nyDecode 0x86809805 = some (.packet 0 20 0 19 5) ∧ nyDecode 0x84205B01 = some (.packet 3 1 0 11 1) ∧
    nyDecode 0x90150300 = some (.time 3 0 21 0 false) ∧ nyDecode 0x84340100 = some (.packet 1 1 20 0 0) := by decide

/-- Words 11, 19, 20 and 31 of the example. -/
theorem test_decode_loads_and_stores : nyDecode 0x5C800040 = some (.store 3 4 0 0x40) ∧ nyDecode 0x56A20012 = some (.store 1 21 2 18) ∧ nyDecode 0x59220014 = some (.store 2 9 2 20) ∧
    nyDecode 0x4AA00050 = some (.load 2 21 0 0x50) := by decide

/-- ADD n0, n0, n0 is the word 0 (R180); SUB n1, n2, n3; CLZ n31, n1 with nb unused, and with nb = 1. -/
theorem test_decode_register_form : nyDecode 0 = some (.alu 0 0 0 0) ∧ nyDecode 0b000000_00001_00010_00011_00000000001 = some (.alu 1 1 2 3) ∧
    nyDecode 0b000000_11111_00001_00000_00000001100 = some (.alu 12 31 1 0) ∧ nyDecode 0b000000_11111_00001_00001_00000001100 = none := by decide

/-- JAL −1, JALR n31, n1, 2; EXT n1, n2 of width 32 at 0; INS with S set is illegal (R191). -/
theorem test_decode_jumps_and_fields : nyDecode 0b011110_11111111111111111111111111 = some (.jal (-1)) ∧ nyDecode 0b011111_11111_00001_0000000000000010 = some (.jalr 31 1 2) ∧
    nyDecode 0b100000_00001_00010_11111_00010000000 = some (.field 0 1 2 31 0 true) ∧ nyDecode 0b100000_00001_00010_00000_00110000000 = none := by decide

/-- LKPS, AADD, CQWAIT, HALT and TRAP n7. -/
theorem test_decode_table_bank_crypto_system : nyDecode 0b100011_00001_00010_00011_01000000000 = some (.table 2 1 2 3) ∧ nyDecode 0b100101_00001_00010_00011_00000000000 = some (.bank 0 1 2 3) ∧
    nyDecode 0b100111_00001_00010_00000_00100000000 = some (.crypto 1 1 2) ∧ nyDecode 0b101000_00000_00000_00000_00100000000 = some (.sys 1 0 0) ∧
    nyDecode 0b101000_00000_00111_00000_01000000000 = some (.sys 2 0 7) := by decide

/-- 0xFFFFFFFF, an fn above 0x00F of op 0x00, a slot of 24, LUI with na ≠ 0, and an op between the groups are illegal (R180, R187, R208). -/
theorem test_decode_refuses : nyDecode 0xFFFFFFFF = none ∧ nyDecode 0x10 = none ∧ nyDecode 0x88800018 = none ∧ nyDecode 0x20410001 = none ∧ nyDecode 0x2C000000 = none := by decide

/-! ### Worked examples of the manual -/

/-- The example of chapter 08: the definition of signal 0x00012A40, with its conversion entry 37. -/
def speedDef : SigDef := sigDef (leBytes 4 0x13000041 ++ leBytes 4 0x808BC017 ++ leBytes 4 0x00000025 ++ leBytes 4 0xFFFFFFFF)
def speedState : State := updSig (fun g => { g with conv := List.replicate 36 none ++ [some (BitVec.ofNat 128 (0x3C23D70A + 0xFFFF * 2 ^ 96))] }) st

theorem test_signal_layout : (speedDef.start, speedDef.len, speedDef.be, speedDef.raw, speedDef.out, speedDef.conv) = (23, 16, true, some .unsignedInt, 2, 37) ∧
    sigExtract speedDef [0x00, 0x03, 0x1F, 0x4A] = 8010 := by decide +kernel

theorem test_signal_read : sigConvert speedDef .unsignedInt (convEntry 37 .unsignedInt speedState) 8010 = (some 0x42A03333, 0) := by decide +kernel

theorem test_signal_write : sigUnconvert speedDef .unsignedInt (convEntry 37 .unsignedInt speedState) 0x42A03333 = (some 8010, 0) ∧
    sigDeposit speedDef 8010 [0x00, 0x03, 0, 0] = [0x00, 0x03, 0x1F, 0x4A] := by decide +kernel

/-- SHA-512 of the three bytes "abc" begins DDAF35A1 (FIPS 180-4). -/
theorem test_sha512 : (sha512 (ascii "abc")).take 4 = [0xDD, 0xAF, 0x35, 0xA1] := by decide +kernel

/-- The check value of the CRC-32 of Ethernet. -/
theorem test_crc32 : crc32 (ascii "123456789") = 0xCBF43926 := by decide +kernel

/-- LIN identifier 0 is protected as 0x80 and 0x3C as itself; the checksum of 4A 55 93 E5 is E6 (the worked example of the LIN specification). -/
theorem test_lin_wire : linPid 0 = 0x80 ∧ linPid 0x3C = 0x3C ∧ linChecksum false 0 [0x4A, 0x55, 0x93, 0xE5] = 0xE6 := by decide

/-- An input of half of 5.0 V converts to half of the range; one above 5.0 V to 0xFFF (R602). -/
theorem test_ai_code : aiCode 2500000 6 = 0x800 ∧ aiCode 5000001 0 = 0xFFF := by decide

/-- A thread that may issue, with the operands in n1 and n2. -/
def ready (a b : Word) : State :=
  st |> fput (F.ENG_THR_CODE_t_HI 0 0) 16383 |> fput (F.ENG_THR_BUDGET_t_CYCLES 0 0) 1000000 |> putThr 0 0 thReady |> setN 0 0 1 a |> setN 0 0 2 b

/-- The register n3 after a command of thread 0 of NE0. -/
def n3 (c : Instr) (s : State) : Option Word := match exec c s with
  | .next t => some (getN 0 0 3 t)
  | _ => none

/-- CLZ of 0 is 32; the arithmetic shift keeps the sign and takes nb[4:0]; MULH of −1 and 1 is −1 (the table of op 0x00). -/
theorem test_alu : n3 (.clz 0 0 3 0) (ready 0 0) = some 32 ∧ n3 (.sar 0 0 3 1 2) (ready 0x80000000 63) = some 0xFFFFFFFF ∧ n3 (.mulh 0 0 3 1 2) (ready 0xFFFFFFFF 1) = some 0xFFFFFFFF ∧
    n3 (.add 0 0 3 1 2) (ready 0xFFFFFFFF 2) = some 1 := by decide +kernel

/-- EXT sign-extends from bit width − 1; INS keeps the other bits of nd (R191 and its table). -/
theorem test_fields : n3 (.ext 0 0 3 1 7 8 true) (ready 0x8000 0) = some 0xFFFFFF80 ∧ n3 (.ins 0 0 3 1 7 8) (setN 0 0 3 0x11111111 (ready 0xFF 0)) = some 0x1111FF11 := by decide +kernel

/-- A write of a W1C register clears the bits written, and a byte write merges 0 into the others (R6, R632). -/
theorem test_register_write : (match exec (.registerWrite .hc (BitVec.ofNat 40 R.MEM_EVENT) .byte 0x02) (wr R.MEM_EVENT 0x1F st) with
    | .next t => rd R.MEM_EVENT t | _ => 0) = 0x1D := by decide +kernel

/-- The queue is taken first in, first out, and an empty queue lets time pass (log entry 1). -/
theorem test_step_takes_the_front : (match step { st with pending := [.lateResp, .powerOn true] } with | .next t => t.pending | _ => []) = [.powerOn true] := by decide +kernel

theorem test_step_idles : (match step st with | .next t => t.now | _ => 0) = 1 := by decide +kernel

/-! ### Witnesses that are no clause by clause list -/

theorem witness_StepRunsTheFrontCommand : st.pending = [] := by decide

theorem witness_EveryStepKeepsTheStateSound : ({ st with pending := [.lateResp] }).pending = .lateResp :: [] ∧ Sound { st with pending := [.lateResp] } ∧ st.pending = [] ∧ Sound st := by
  refine ⟨rfl, ⟨?_, ?_, ?_⟩, rfl, ?_, ?_, ?_⟩ <;> decide

theorem witness_EngineInstructionsDecodeFromTheirWords : (NyInsn.field 0 1 2 31 0 true).legal = true ∧ (NyInsn.field 0 1 2 0 31 true).legal = true ∧
    nyDecode 0 = some (.alu 0 0 0 0) ∧ (Instr.add 23 3 31 31 31).wf = true ∧ (Instr.add 23 3 31 31 31).insn = some ((23, 3), .alu 0 31 31 31) := by decide +kernel

/-! ### Witnesses: a state and operands that meet the hypotheses of each statement, clause by clause -/

theorem witness_IslandRequestsMoveTheIsland :
    (Lets .hc (R.SYSCTL_ISL_CMD_i 20) true st ∧ (let u := entered .hc (R.SYSCTL_ISL_CMD_i 20) st; initWorld .hc (ok u) = true ∧ islRefused 20 (.clockDown 3) (ok u) = false ∧ islSt 20 u = .run ∧ islRefused 20 .stop (ok u) = false ∧ fbit F.OWN_KEEPALIVE 20 u = false ∧ islRefused 20 .reset (ok u) = false)) ∧
    (Lets .hc (R.SYSCTL_ISL_CMD_i 0) true st ∧ (let u := entered .hc (R.SYSCTL_ISL_CMD_i 0) st; initWorld .hc (ok u) = true ∧ islRefused 0 .reset (ok u) = true ∧ islRefused 0 .stop (ok u) = true)) ∧
    (let s := updIslT 1 .slow st;
      Lets .hc (R.SYSCTL_ISL_CMD_i 1) true s ∧ (let u := entered .hc (R.SYSCTL_ISL_CMD_i 1) s; islRefused 1 .restore (ok u) = false ∧ islSt 1 u = .slow)) ∧
    (let s := fput F.OWN_KEEPALIVE 0x10 st;
      Lets .hc (R.SYSCTL_ISL_CMD_i 4) true s ∧ (let u := entered .hc (R.SYSCTL_ISL_CMD_i 4) s; islRefused 4 .stop (ok u) = false ∧ islSt 4 u = .run ∧ fbit F.OWN_KEEPALIVE 4 u = true)) ∧
    (let s := updIslT 4 .stopped st;
      Lets .hc (R.SYSCTL_ISL_CMD_i 4) true s ∧ (let u := entered .hc (R.SYSCTL_ISL_CMD_i 4) s; islRefused 4 .start (ok u) = false ∧ islSt 4 u = .stopped)) ∧
    (let s := updIsl 4 (fun x => { x with st := .reset, holdRec := true }) st;
      Lets .hc (R.SYSCTL_ISL_CMD_i 4) true s ∧ (let u := entered .hc (R.SYSCTL_ISL_CMD_i 4) s; islRefused 4 .release (ok u) = false ∧ islSt 4 u = .reset ∧ (u.isl[4]).holdRec = true)) := by refine ⟨?_, ?_, ?_, ?_, ?_, ?_⟩ <;> first | exact lets_and (by decide +kernel) | decide +kernel

theorem witness_IslandAndDomainEvents_1 :
    (let s := updIslT 4 .draining st;
      islSt 4 s = .draining ∧ (s.isl[4]).resetRec = false ∧ (s.isl[4]).drainDue ≤ s.now ∧ openTrans 4 s = false) ∧
    (let s := updIsl 20 (fun x => { x with st := .draining, resetRec := true }) st;
      islSt 20 s = .draining ∧ (s.isl[20]).resetRec = true) ∧
    (let s := updThr 0 0 (fun x => { x with posted := [(0, 0)] }) (updIslT (engIsl 0) .draining st);
      islSt (engIsl 0) s = .draining ∧ openTrans (engIsl 0) s = true) ∧
    (let s := updIslT 4 .reset st;
      islSt 4 s = .reset ∧ (s.isl[4]).holdRec = false) ∧
    (let s := updIsl 4 (fun x => { x with st := .reset, holdRec := true }) st;
      islSt 4 s = .reset ∧ (s.isl[4]).holdRec = true) ∧
    (let s := updIslT 16 .starting st;
      islSt 16 s = .starting ∧ (16 : Fin 21) ≠ islSW0 ∧ (16 : Fin 21) ≠ islSW1 ∧ clusterHarts 16 = [] ∧ groupEngines 16 = [] ∧ blwStopsIsl 16 s = false ∧ s.blw.thermOn = false) := by refine ⟨?_, ?_, ?_, ?_, ?_, ?_⟩ <;> decide +kernel

theorem witness_IslandAndDomainEvents_2 :
    (let s := updIslT 0 .off st;
      islSt 0 s = .off) ∧
    (railOk .a st = true ∧ railOk .b { st with railB := false } = false ∧ islOpen (islL 3) st = true) := by refine ⟨?_, ?_⟩ <;> decide +kernel

theorem witness_TimeRegisterCommands_1 :
    (Lets .hc R.TIME_NOW_NS false st ∧ Initiator.hc ≠ .debug) ∧
    (let s := fput F.TIME_STATUS_TA_OK 0 st;
      Lets .hc R.TIME_CTRL true s ∧ (let u := entered .hc R.TIME_CTRL s; ftst F.TIME_STATUS_TA_OK u = false)) ∧
    (let s := fput F.TIME_STATUS_STATE stRefusing st;
      Lets .hc R.TIME_STEP_ACCEPT true s ∧ (let u := entered .hc R.TIME_STEP_ACCEPT s; timeState u = stRefusing ∧ u.time.stepAt = none)) ∧
    (Lets .hc R.TIME_SET_CMD true st ∧ (let u := entered .hc R.TIME_SET_CMD st; timeState u = stUnsync ∧ fget F.TIME_SET_NS_NS u ≤ 999999999)) ∧
    (let s := fput F.TIME_STATUS_STATE stFree (fput F.TIME_SET_NS_NS 999999999 st);
      Lets .hc R.TIME_SET_CMD true s ∧ (let u := entered .hc R.TIME_SET_CMD s; timeState u = stFree ∧ fget F.TIME_SET_NS_NS u ≤ 999999999)) ∧
    (let s := fput F.TIME_STATUS_STATE stFree st;
      Lets .hc R.TIME_CTRL true s ∧ (let u := entered .hc R.TIME_CTRL s; timeState u = stFree ∧ fget F.TIME_CTRL_ROLE u ≠ 2)) := by refine ⟨?_, ?_, ?_, ?_, ?_, ?_⟩ <;> first | exact lets_and (by decide +kernel) | decide +kernel

theorem witness_TimeRegisterCommands_2 :
    (let s := fput F.TIME_STATUS_STATE stLocked st;
      Lets .hc R.TIME_SET_CMD true s ∧ (let u := entered .hc R.TIME_SET_CMD s; timeState u ≠ stUnsync ∧ timeState u ≠ stFree)) ∧
    (let s := fput F.TIME_STATUS_STATE stLocked st;
      Lets .hc R.TIME_CTRL true s ∧ (let u := entered .hc R.TIME_CTRL s; timeState u ≠ stFree ∧ fget F.TIME_CTRL_ROLE u ≠ 1)) ∧
    (Lets .hc R.TIME_CTRL true st ∧ (let u := entered .hc R.TIME_CTRL st; ftst F.TIME_CTRL_TWIN_EN u ≠ true)) ∧
    (Lets .hc R.TIME_TWIN_CMD true st ∧ True) ∧
    (Lets .hc R.TIME_CNT_CLR true st ∧ True) := by refine ⟨?_, ?_, ?_, ?_, ?_⟩ <;> first | exact lets_and (by decide +kernel) | decide +kernel

theorem witness_TimeEvents_1 :
    (masterB (compareIslands 0 0 st) = masterB st) ∧
    (let s := updTime (fun t => { t with accepted := some (1000000 * nsUnit, 0), tb := { t.tb with vt := 1000000 * nsUnit } }) st;
      masterB (compareIslands 0 0 s) ≠ masterB s) ∧
    (let s := st |> fput F.TIME_CTRL_GPTP_STBY 1 |> putThr 0 0 thTrapped;
      ftst F.TIME_CTRL_GPTP_STBY s = true ∧ thrState 0 0 s = thTrapped) ∧
    (let s := updTime (fun t => { t with queue := [⟨0, 0, 0, true, 0, 0, 0, 0, 0⟩] }) st;
      s.time.queue = ⟨0, 0, 0, true, 0, 0, 0, 0, 0⟩ :: []) ∧
    (let s := later 10000000000 (fput F.TIME_STATUS_STATE stLocked st);
      timeState s = stLocked ∧ s.time.lastFed + holdTimeout s ≤ s.now) ∧
    (let s := later 3600000000000 (updTime (fun t => { t with holdSince := some 0 }) st);
      s.time.holdSince = some 0 ∧ s.time.holdDone = false ∧ 0 + clampNat 1 3600 (fget F.TIME_HOLD_CFG_LIMIT s) * secNs ≤ s.now) := by refine ⟨?_, ?_, ?_, ?_, ?_, ?_⟩ <;> decide +kernel

theorem witness_TimeEvents_2 :
    (let s := updTime (fun t => { t with stepAt := some 0, setPend := some 0 }) st;
      s.time.stepAt = some 0 ∧ s.time.setPend = some 0) ∧
    (freeRunning (timeState st) = true) ∧
    (let s := fput F.TIME_STATUS_STATE stLocked st;
      freeRunning (timeState s) = false) ∧
    (let s := later 10000000000 (fput F.TIME_TWIN_STATUS_STATE_P1 0 <| fput F.TIME_CTRL_TWIN_EN 1 (updTwin true (fun t => { t with lastSample := some 0 }) st));
      ftst F.TIME_CTRL_TWIN_EN s = true ∧ twinState true s ≠ twAbsent ∧ (twin true s).lastSample = some 0 ∧ 0 + holdTimeout s ≤ s.now) ∧
    (let s := fput F.TIME_CTRL_ROLE 1 st;
      fget F.TIME_CTRL_ROLE s = 1 ∧ ftst F.TIME_PPS_CFG_EDGE s = !true ∧ ppsAccepted s.time.mraw s = true) ∧
    (let s := fput F.TIME_CTRL_ROLE 1 (updTime (fun t => { t with ppsLast := some 5 }) st);
      fget F.TIME_CTRL_ROLE s = 1 ∧ ftst F.TIME_PPS_CFG_EDGE s = !true ∧ ppsAccepted s.time.mraw s = false) := by refine ⟨?_, ?_, ?_, ?_, ?_, ?_⟩ <;> decide +kernel

theorem witness_TimeEvents_3 :
    (let s := fput F.TIME_CTRL_ROLE 1 (updTime (fun t => { t with mraw := ppsLimit }) st);
      s.time.ppsLost = false ∧ fget F.TIME_CTRL_ROLE s = 1 ∧ s.time.ppsSince + ppsLimit ≤ s.time.mraw) := by decide +kernel

theorem witness_TriggerCommands_1 :
    (let s := st |> fput (F.TRG_PERIOD_NS_n_NS 15) 100 |> fput (F.TRG_WIDTH_n_W 15) 64;
      Lets .hc (R.TRG_CMD_n 15) true s ∧ (let u := entered .hc (R.TRG_CMD_n 15) s; trgState 15 u = trgIdle ∧ trgValid 15 u = true)) ∧
    (Lets .hc (R.TRG_CMD_n 15) true st ∧ (let u := entered .hc (R.TRG_CMD_n 15) st; trgValid 15 u = false)) ∧
    (let s := putTrgState 15 trgArmed st;
      Lets .hc (R.TRG_CMD_n 15) true s ∧ (let u := entered .hc (R.TRG_CMD_n 15) s; trgState 15 u = trgArmed)) ∧
    (let s := putTrgState 15 trgRunning st;
      Lets .hc (R.TRG_CMD_n 15) true s ∧ (let u := entered .hc (R.TRG_CMD_n 15) s; trgState 15 u = trgRunning)) := by refine ⟨?_, ?_, ?_, ?_⟩ <;> first | exact lets_and (by decide +kernel) | decide +kernel

theorem witness_TriggerCommands_2 :
    (let s := putTrgState 15 trgRunning st;
      trgWaiting 15 s = true ∧ placed (trgInstant 15 (s.trg[15]).next s) * 2 ^ 32 ≤ vt s ∧ gateOpen 15 s = true ∧ pulseActive 15 s = false) ∧
    (let s := putTrgState 15 trgRunning (updTrg 15 (fun t => { t with pulseEnd := some 0 }) st);
      trgWaiting 15 s = true ∧ placed (trgInstant 15 (s.trg[15]).next s) * 2 ^ 32 ≤ vt s ∧ pulseActive 15 s = true ∧ (s.trg[15]).pulseEnd = some 0 ∧ (0 + 7) / 8 ≤ s.time.mraw) := by refine ⟨?_, ?_⟩ <;> decide +kernel

theorem witness_TriggerCommands_3 :
    (Lets .hc (R.TRG_LAST_NS_n 15) false st ∧ True) := lets_and (by decide +kernel)

theorem witness_CaptureCommands_1 :
    (let s := st |> fput (F.TRG_CAP_CFG_m_EDGE 15) 3 |> updCap 15 (fun c => { c with lastEdge := some 0 });
      7 < 8 ∧ capSelected 15 true s = true ∧ fget (F.TRG_CAP_CFG_m_FILT 15) s * 8 ≤ 0 ∧ (s.cap[15]).lastEdge = some 0 ∧ s.time.mraw * 8 + 7 < 0 + 32) ∧
    (let s := st |> fput (F.TRG_CAP_CFG_m_EDGE 15) 1 |> updCap 15 (fun c => { c with fifo := List.replicate 16 ⟨0, false, 0, false⟩ });
      7 < 8 ∧ capSelected 15 true s = true ∧ (s.cap[15]).lastEdge = none ∧ 16 ≤ (s.cap[15]).fifo.length) ∧
    (let s := st |> fput (F.TRG_CAP_CFG_m_EDGE 15) 2 |> updCap 15 (fun c => { c with fifo := List.replicate 15 ⟨0, false, 0, false⟩ });
      0 < 8 ∧ capSelected 15 false s = true ∧ (s.cap[15]).lastEdge = none ∧ (s.cap[15]).fifo.length < 16 ∧ fgetI (F.TRG_CAP_DELAY_m_PS 15) s = 0) := by refine ⟨?_, ?_, ?_⟩ <;> decide +kernel

theorem witness_CaptureCommands_2 :
    (let s := updCap 15 (fun c => { c with fifo := [⟨0, false, 0, false⟩] }) st;
      Lets .hc (R.TRG_CAP_STAMP_NS_m 15) false s ∧ (let u := entered .hc (R.TRG_CAP_STAMP_NS_m 15) s; (u.cap[15]).fifo = ⟨0, false, 0, false⟩ :: [])) ∧
    (Lets .hc (R.TRG_CAP_STAMP_NS_m 15) false st ∧ (let u := entered .hc (R.TRG_CAP_STAMP_NS_m 15) st; (u.cap[15]).fifo = [])) := by refine ⟨?_, ?_⟩ <;> first | exact lets_and (by decide +kernel) | decide +kernel

theorem witness_CameraCommands_1 :
    (let s := st |> fput (F.CAM_CTRL_EN 3) 1 |> fput (F.CAM_VC_CFG_v_EN 3 15) 1 |> fput (F.CAM_VC_CFG_v_EMB_EN 3 15) 1 |> putFrame 3 15 (some ⟨1, 0, 0, 0, 0, none, 0, false, none⟩);
      camTakes 3 s = true ∧ HdrEcc.corrected ≠ .bad ∧ ftst (F.CAM_VC_CFG_v_EN 3 15) (camBurst 3 s) = true ∧ camFrame 3 15 (camBurst 3 s) = some ⟨1, 0, 0, 0, 0, none, 0, false, none⟩ ∧ dtSupported (0x12 : BitVec 6).toNat = true ∧ ftst (F.CAM_VC_CFG_v_EMB_EN 3 15) (camBurst 3 s) = true ∧ [(0 : Byte)] ≠ []) ∧
    (let s := fput (F.CAM_STATUS_OPEN 3) 1 st;
      ftst (F.CAM_STATUS_OPEN 3) s = true) ∧
    (ftst (F.CAM_STATUS_OPEN 3) st = false ∧ headerThreadGone 3 st = false) ∧
    (let s := updCam 3 (fun c => { c with staged := [⟨7, 15, 0x2A, 0, 1, 1, 0, 0, 0, 0, 0, [1], false, none, none⟩] }) st;
      (s.cam[3]).staged.find? (fun l => !l.queued) = some ⟨7, 15, 0x2A, 0, 1, 1, 0, 0, 0, 0, 0, [1], false, none, none⟩ ∧ (s.cam[3]).queue.length < 32) ∧
    (let s := updCam 3 (fun c => { c with staged := [⟨7, 15, 0x2A, 0, 1, 1, 0, 0, 0, 0, 0, [1], false, some [], none⟩] }) st;
      (s.cam[3]).staged.find? (fun l => l.header.isSome) = some ⟨7, 15, 0x2A, 0, 1, 1, 0, 0, 0, 0, 0, [1], false, some [], none⟩) := by refine ⟨?_, ?_, ?_, ?_, ?_⟩ <;> decide +kernel

theorem witness_CameraCommands_2 :
    (Lets .hc (R.CAM_CNT_CLR 3) true st ∧ True) := lets_and (by decide +kernel)

theorem witness_ThreadCommandsAndEvents_1 :
    (let s := st |> fput (F.ENG_THR_BUDGET_t_CYCLES 23 3) 1 |> fput (F.ENG_THR_CODE_t_HI 23 3) 16383 |> fput (F.ENG_THR_ENTRY_t_PC 23 3) 16383 |> putThr 23 3 thTrapped;
      Lets .hc (R.ENG_THR_CMD_t 23 3) true s ∧ (let u := entered .hc (R.ENG_THR_CMD_t 23 3) s; ftst (F.ENG_THR_CFG_t_WORLD 23 3) (ok u) = false ∧ thrState 23 3 u = thTrapped ∧ fget (F.ENG_THR_BUDGET_t_CYCLES 23 3) u ≠ 0 ∧ pcInCode 23 3 (fget (F.ENG_THR_ENTRY_t_PC 23 3) u) u = true ∧ blwStops 23 3 u = false)) ∧
    (let s := fput (F.ENG_THR_BUDGET_t_CYCLES 23 3) 0 st;
      Lets (.hart 0) (R.ENG_THR_CMD_t 23 3) true s ∧ (let u := entered (.hart 0) (R.ENG_THR_CMD_t 23 3) s; ftst (F.ENG_THR_CFG_t_WORLD 23 3) (ok u) = false ∧ thrState 23 3 u = thIdle ∧ fget (F.ENG_THR_BUDGET_t_CYCLES 23 3) u = 0)) ∧
    (let s := putThr 23 3 thThrottled st;
      Lets .hc (R.ENG_THR_CMD_t 23 3) true s ∧ (let u := entered .hc (R.ENG_THR_CMD_t 23 3) s; initWorld .hc (ok u) = true ∧ thrState 23 3 u = thThrottled)) := by refine ⟨?_, ?_, ?_⟩ <;> first | exact lets_and (by decide +kernel) | decide +kernel

theorem witness_ThreadCommandsAndEvents_2 :
    (let s := putThr 23 3 thThrottled st;
      thrState 23 3 s = thThrottled ∧ (thr 23 3 s).wait = none) ∧
    (let s := updThr 23 3 (fun x => { x with wait := some .fence, alarm := some 0, posted := List.replicate 8 (0, 0) }) st;
      (thr 23 3 (icSettle s)).wait = some .fence ∧ (thr 23 3 s).alarm = some 0 ∧ 0 * 2 ^ 32 ≤ vt s ∧ (thr 23 3 s).posted[7]? = some (0, 0)) ∧
    (let s := st |> fput (F.ENG_THR_CODE_t_HI 23 3) 16383 |> fput (F.ENG_THR_BUDGET_t_CYCLES 23 3) 1000000 |> putThr 23 3 thReady;
      nyDecode (0xFFFFFFFF : Word).toNat = none ∧ Issues 23 3 s) := by refine ⟨?_, ?_, ?_⟩ <;> decide +kernel

theorem witness_IssueAndBranches :
    ((Instr.halt 23 3).insn = some ((23, 3), .sys 1 0 0) ∧ mayIssue 23 3 st = false) ∧
    (let s := st |> fput (F.ENG_THR_CODE_t_HI 23 3) 16383 |> fput (F.ENG_THR_BUDGET_t_CYCLES 23 3) 1000000 |> putThr 23 3 thReady |> fput (F.ENG_THR_CODE_t_LO 23 3) 1;
      mayIssue 23 3 s = true ∧ pcInCode 23 3 (thrPc 23 3 s) s = false) ∧
    (let s := st |> fput (F.ENG_THR_CODE_t_HI 23 3) 16383 |> fput (F.ENG_THR_BUDGET_t_CYCLES 23 3) 1000000 |> putThr 23 3 thReady;
      (Instr.ldq 23 3 29 0 0 none .clear).insn = some ((23, 3), .load 3 29 0 0) ∧ (NyInsn.load 3 29 0 0).legal = false ∧ Issues 23 3 s) := by refine ⟨?_, ?_, ?_⟩ <;> decide +kernel

theorem witness_RegisterFormInstructionsWriteTheirResult :
    (let s := st |> fput (F.ENG_THR_CODE_t_HI 23 3) 16383 |> fput (F.ENG_THR_BUDGET_t_CYCLES 23 3) 1000000 |> putThr 23 3 thReady;
      Issues 23 3 s ∧ (∀ i : Fin 32, 32 - 32 ≤ i.1 → (getN 23 3 1 s).getLsbD i.1 = false)) ∧
    (let s := st |> fput (F.ENG_THR_CODE_t_HI 23 3) 16383 |> fput (F.ENG_THR_BUDGET_t_CYCLES 23 3) 1000000 |> putThr 23 3 thReady |> setN 23 3 1 1;
      Issues 23 3 s ∧ (∀ i : Fin 32, 32 - 31 ≤ i.1 → (getN 23 3 1 s).getLsbD i.1 = false) ∧ (getN 23 3 1 s).getLsbD (31 - 31) = true) := by refine ⟨?_, ?_⟩ <;> decide +kernel

theorem witness_ImmediateAndFieldInstructionsWriteTheirResult :
    (let s := st |> fput (F.ENG_THR_CODE_t_HI 23 3) 16383 |> fput (F.ENG_THR_BUDGET_t_CYCLES 23 3) 1000000 |> putThr 23 3 thReady;
      Issues 23 3 s ∧ (31 : BitVec 16).toNat < 32 ∧ 31 + 0 + 1 ≤ 32 ∧ 0 + 31 + 1 ≤ 32) := by decide +kernel

theorem witness_LoadsReadTheirWindow :
    (let s := st |> fput (F.ENG_THR_CODE_t_HI 23 3) 16383 |> fput (F.ENG_THR_BUDGET_t_CYCLES 23 3) 1000000 |> putThr 23 3 thReady |> setN 23 3 1 1;
      Issues 23 3 s ∧ (getN 23 3 1 (issued 23 3 s) + (0 : BitVec 16).signExtend 32).toNat % accSize 1 ≠ 0) ∧
    (let s := st |> fput (F.ENG_THR_CODE_t_HI 23 3) 16383 |> fput (F.ENG_THR_BUDGET_t_CYCLES 23 3) 1000000 |> putThr 23 3 thReady |> setN 23 3 1 0x10000;
      Issues 23 3 s ∧ (0x10000 : Nat) % accSize 2 = 0 ∧ (windowOf 23 3 0x10000 (accSize 2) false (issued 23 3 s)).isNone = true) ∧
    (let s := st |> fput (F.ENG_THR_CODE_t_HI 23 3) 16383 |> fput (F.ENG_THR_BUDGET_t_CYCLES 23 3) 1000000 |> putThr 23 3 thReady |> setN 23 3 1 0xFFFC;
      Issues 23 3 s ∧ (getN 23 3 1 (issued 23 3 s)).toNat % accSize 2 = 0 ∧ (getN 23 3 1 (issued 23 3 s)).toNat + accSize 2 ≤ 0x10000 ∧ (none : Option BusEnd) ≠ some .eccError) ∧
    (let s := st |> fput (F.ENG_THR_CODE_t_HI 23 3) 16383 |> fput (F.ENG_THR_BUDGET_t_CYCLES 23 3) 1000000 |> putThr 23 3 thReady |> setN 23 3 1 0xFFF0;
      Issues 23 3 s ∧ (28 : Fin 32).1 ≤ 28 ∧ (getN 23 3 1 (issued 23 3 s)).toNat % accSize 3 = 0 ∧ (windowOf 23 3 0xFFF0 16 false (issued 23 3 s)).any (fun w => !w.outside) = true) ∧
    (let s := st |> fput (F.ENG_THR_CODE_t_HI 23 3) 16383 |> fput (F.ENG_THR_BUDGET_t_CYCLES 23 3) 1000000 |> putThr 23 3 thReady |> setN 23 3 1 0x013FFFFC;
      Issues 23 3 s ∧ (0x013FFFFC : Nat) % accSize 2 = 0 ∧ (windowOf 23 3 0x013FFFFC 4 false (issued 23 3 s)).any Win.outside = true ∧ (outerCheck 23 3 false 0x013FFFFC 4 (issued 23 3 s)).1 = none ∧ inBanks 0x013FFFFC 1 = true) := by refine ⟨?_, ?_, ?_, ?_, ?_⟩ <;> decide +kernel

theorem witness_StoresAndBankAtomics :
    (let s := st |> fput (F.ENG_THR_CODE_t_HI 23 3) 16383 |> fput (F.ENG_THR_BUDGET_t_CYCLES 23 3) 1000000 |> putThr 23 3 thReady |> setN 23 3 1 0x100F0 |> updThr 23 3 (fun x => { x with selected := some 1 });
      Issues 23 3 s ∧ (28 : Fin 32).1 ≤ 28 ∧ (0x100F0 : Nat) % accSize 3 = 0 ∧ (windowOf 23 3 0x100F0 16 true (postedDone 23 3 8 (issued 23 3 s))).any (fun w => !w.outside) = true) ∧
    (let s := st |> fput (F.ENG_THR_CODE_t_HI 23 3) 16383 |> fput (F.ENG_THR_BUDGET_t_CYCLES 23 3) 1000000 |> putThr 23 3 thReady |> setN 23 3 1 0xFFFE;
      Issues 23 3 s ∧ (getN 23 3 1 (postedDone 23 3 0 (issued 23 3 s)) + (0 : BitVec 16).signExtend 32).toNat % accSize 1 = 0 ∧ 0xFFFE + accSize 1 ≤ 0x10000 ∧ 0xFFFE % accSize 2 ≠ 0) ∧
    (let s := st |> fput (F.ENG_THR_CODE_t_HI 23 3) 16383 |> fput (F.ENG_THR_BUDGET_t_CYCLES 23 3) 1000000 |> putThr 23 3 thReady |> updThr 23 3 (fun x => { x with posted := List.replicate 8 (0, 0) });
      Issues 23 3 s ∧ (windowOf 23 3 0x01000000 4 true (postedDone 23 3 0 (issued 23 3 s))).any Win.outside = true ∧ 8 ≤ (thr 23 3 (postedDone 23 3 0 (issued 23 3 s))).posted.length) ∧
    (let s := st |> fput (F.ENG_THR_CODE_t_HI 23 3) 16383 |> fput (F.ENG_THR_BUDGET_t_CYCLES 23 3) 1000000 |> putThr 23 3 thReady |> updThr 23 3 (fun x => { x with posted := List.replicate 7 (0, 0) });
      Issues 23 3 s ∧ (windowOf 23 3 0x01000000 4 true (postedDone 23 3 0 (issued 23 3 s))).any Win.outside = true ∧ (thr 23 3 (postedDone 23 3 0 (issued 23 3 s))).posted.length < 8 ∧ (outerCheck 23 3 true 0x01000000 4 (postedDone 23 3 0 (issued 23 3 s))).1 = none) ∧
    (let s := st |> fput (F.ENG_THR_CODE_t_HI 23 3) 16383 |> fput (F.ENG_THR_BUDGET_t_CYCLES 23 3) 1000000 |> putThr 23 3 thReady |> setN 23 3 1 0x013FFFFC;
      Issues 23 3 s ∧ (getN 23 3 1 (issued 23 3 s)).toNat % 4 = 0 ∧ inBanks (getN 23 3 1 (issued 23 3 s)).toNat 4 = true ∧ (outerCheck 23 3 true (getN 23 3 1 (issued 23 3 s)).toNat 4 (issued 23 3 s)).1 = none) ∧
    (let s := st |> fput (F.ENG_THR_CODE_t_HI 23 3) 16383 |> fput (F.ENG_THR_BUDGET_t_CYCLES 23 3) 1000000 |> putThr 23 3 thReady |> setN 23 3 1 0x01400000 |> setN 23 3 2 1;
      Issues 23 3 s ∧ (getN 23 3 1 (issued 23 3 s)).toNat % 4 = 0 ∧ inBanks (getN 23 3 1 (issued 23 3 s)).toNat 4 = false ∧ (getN 23 3 2 (issued 23 3 s)).toNat % 4 ≠ 0) := by refine ⟨?_, ?_, ?_, ?_, ?_, ?_⟩ <;> decide +kernel

theorem witness_EventTimeCryptoAndSystemInstructions_1 :
    (let s := st |> fput (F.ENG_THR_CODE_t_HI 23 3) 16383 |> fput (F.ENG_THR_BUDGET_t_CYCLES 23 3) 1000000 |> putThr 23 3 thReady |> setN 23 3 1 0xFFFFFFFF |> setN 23 3 2 0x80000000 |> updThr 23 3 (fun x => { x with evBell := true });
      Issues 23 3 s ∧ (let v := icSettle (issued 23 3 s); thrEvents 23 3 v &&& (getN 23 3 1 v).toNat ≠ 0 ∧ getN 23 3 2 v ≠ 0 ∧ thrEvents 23 3 v &&& (getN 23 3 2 v).toNat = 0)) ∧
    (let s := st |> fput (F.ENG_THR_CODE_t_HI 23 3) 16383 |> fput (F.ENG_THR_BUDGET_t_CYCLES 23 3) 1000000 |> putThr 23 3 thReady |> updThr 23 3 (fun x => { x with posted := List.replicate 8 (0, 0) });
      Issues 23 3 s ∧ (thr 23 3 (issued 23 3 s)).posted.length ≤ 8 ∧ 7 < (thr 23 3 (issued 23 3 s)).posted.length) ∧
    (let s := st |> fput (F.ENG_THR_CODE_t_HI 23 3) 16383 |> fput (F.ENG_THR_BUDGET_t_CYCLES 23 3) 1000000 |> putThr 23 3 thReady |> setN 23 3 29 1000000000;
      Issues 23 3 s ∧ (29 : Fin 32).1 ≤ 29 ∧ (28 : Fin 32).1 ≤ 28 ∧ runVt 23 3 29 (issued 23 3 s) = none) ∧
    (let s := st |> fput (F.ENG_THR_CODE_t_HI 23 3) 16383 |> fput (F.ENG_THR_BUDGET_t_CYCLES 23 3) 1000000 |> putThr 23 3 thReady |> setN 23 3 29 999999999;
      Issues 23 3 s ∧ (29 : Fin 32).1 ≤ 29 ∧ (runVt 23 3 29 (issued 23 3 s)).isSome = true) ∧
    (let s := st |> fput (F.ENG_THR_CODE_t_HI 23 3) 16383 |> fput (F.ENG_THR_BUDGET_t_CYCLES 23 3) 1000000 |> putThr 23 3 thReady |> setN 23 3 1 0xFFC0 |> mwrBytes (dataRam 23 0xFFC0) [0x0F, 0, 0xFF, 0xFF, 32];
      Issues 23 3 s ∧ (getN 23 3 1 (issued 23 3 s)).toNat % 64 = 0 ∧ (getN 23 3 1 (issued 23 3 s)).toNat + 64 ≤ 0x10000 ∧ jobInvalid (mrdBytes (dataRam 23 0xFFC0) 64 (issued 23 3 s)) = false ∧ islOpen islHC (issued 23 3 s) = true ∧ 1 ∉ engTags 23 (issued 23 3 s)) ∧
    (let s := st |> fput (F.ENG_THR_CODE_t_HI 23 3) 16383 |> fput (F.ENG_THR_BUDGET_t_CYCLES 23 3) 1000000 |> putThr 23 3 thReady |> mwrBytes (dataRam 23 0) [0x0F, 0, 0xFF, 0xFF, 32] |> updKey (fun k => { k with coll := (List.range 9).map fun g => ((23, 0, g), .done) });
      Issues 23 3 s ∧ jobInvalid (mrdBytes (dataRam 23 0) 64 (issued 23 3 s)) = false ∧ islOpen islHC (issued 23 3 s) = true ∧ (∀ g : Fin 9, 1 ≤ g.1 → g.1 ∈ engTags 23 (issued 23 3 s))) := by refine ⟨?_, ?_, ?_, ?_, ?_, ?_⟩ <;> decide +kernel

theorem witness_EventTimeCryptoAndSystemInstructions_2 :
    (let s := st |> fput (F.ENG_THR_CODE_t_HI 23 3) 16383 |> fput (F.ENG_THR_BUDGET_t_CYCLES 23 3) 1000000 |> putThr 23 3 thReady |> updKey (fun k => { k with coll := [((23, 3, 8), .failedEcc)] });
      Issues 23 3 s ∧ jobDone 23 3 8 (issued 23 3 s) = some .failedEcc ∧ hasJobs 23 3 (issued 23 3 s) = true) ∧
    (let s := st |> fput (F.ENG_THR_CODE_t_HI 23 3) 16383 |> fput (F.ENG_THR_BUDGET_t_CYCLES 23 3) 1000000 |> putThr 23 3 thReady |> updKey (fun k => { k with queue := [⟨1, .engine 23 3 8, 12, 23, false, 0, 0, [], none⟩] });
      Issues 23 3 s ∧ jobDone 23 3 8 (issued 23 3 s) = none ∧ jobRuns 23 3 8 (issued 23 3 s) = true) ∧
    (let s := st |> fput (F.ENG_THR_CODE_t_HI 23 3) 16383 |> fput (F.ENG_THR_BUDGET_t_CYCLES 23 3) 1000000 |> putThr 23 3 thReady;
      Issues 23 3 s ∧ (thr 23 3 (issued 23 3 s)).holds = [] ∧ hasJobs 23 3 (issued 23 3 s) = false) := by refine ⟨?_, ?_, ?_⟩ <;> decide +kernel

theorem witness_PacketInstructions_1 :
    (let s := st |> fput (F.ENG_THR_CODE_t_HI 23 3) 16383 |> fput (F.ENG_THR_BUDGET_t_CYCLES 23 3) 1000000 |> putThr 23 3 thReady |> setN 23 3 1 8 |> updThr 23 3 (fun x => { x with holds := [(⟨8, 0x208, 0, 0, some (⟨List.replicate 60 0, some 7, none, none⟩ : Packet), 60, none⟩ : Hold)], selected := none });
      Issues 23 3 s ∧ getN 23 3 1 (issued 23 3 s) ≠ 0 ∧ heldPacket 23 3 1 (issued 23 3 s) = some ((⟨8, 0x208, 0, 0, some (⟨List.replicate 60 0, some 7, none, none⟩ : Packet), 60, none⟩ : Hold), (⟨List.replicate 60 0, some 7, none, none⟩ : Packet)) ∧ (thr 23 3 (issued 23 3 s)).selected ≠ some 8) ∧
    (let s := st |> fput (F.ENG_THR_CODE_t_HI 23 3) 16383 |> fput (F.ENG_THR_BUDGET_t_CYCLES 23 3) 1000000 |> putThr 23 3 thReady |> setN 23 3 2 1518;
      Issues 23 3 s ∧ getN 23 3 1 (issued 23 3 s) = 0 ∧ freeHandle 23 3 (issued 23 3 s) = some 1 ∧ heldPackets 23 3 (issued 23 3 s) < 4 ∧ (allocPacket 7 (getN 23 3 2 (issued 23 3 s)).toNat (issued 23 3 s)).isSome = true) ∧
    (let s := st |> fput (F.ENG_THR_CODE_t_HI 23 3) 16383 |> fput (F.ENG_THR_BUDGET_t_CYCLES 23 3) 1000000 |> putThr 23 3 thReady |> setN 23 3 2 1519;
      Issues 23 3 s ∧ getN 23 3 1 (issued 23 3 s) = 0 ∧ freeHandle 23 3 (issued 23 3 s) = some 1 ∧ heldPackets 23 3 (issued 23 3 s) < 4 ∧ (allocPacket 7 (getN 23 3 2 (issued 23 3 s)).toNat (issued 23 3 s)).isNone = true) ∧
    (let s := st |> fput (F.ENG_THR_CODE_t_HI 23 3) 16383 |> fput (F.ENG_THR_BUDGET_t_CYCLES 23 3) 1000000 |> putThr 23 3 thReady |> updThr 23 3 (fun x => { x with holds := (List.range 4).map fun k => (⟨k + 1, 0x208, 0, 0, some (⟨List.replicate 60 0, some 7, none, none⟩ : Packet), 60, none⟩ : Hold) });
      Issues 23 3 s ∧ getN 23 3 1 (issued 23 3 s) = 0 ∧ 4 ≤ heldPackets 23 3 (issued 23 3 s)) ∧
    (let s := st |> fput (F.ENG_THR_CODE_t_HI 23 3) 16383 |> fput (F.ENG_THR_BUDGET_t_CYCLES 23 3) 1000000 |> putThr 23 3 thReady |> setN 23 3 1 8 |> updThr 23 3 (fun x => { x with holds := [(⟨8, 0x013, 0, 0, some (⟨List.replicate 60 0, some 7, none, none⟩ : Packet), 60, none⟩ : Hold)], selected := some 8 });
      Issues 23 3 s ∧ (thr 23 3 (issued 23 3 s)).selected = some 8 ∧ (heldPacket 23 3 1 (windowBack 23 3 (issued 23 3 s))).any (fun x => x.1.ended.isNone && x.1.isLine) = true) ∧
    (let s := st |> fput (F.ENG_THR_CODE_t_HI 23 3) 16383 |> fput (F.ENG_THR_BUDGET_t_CYCLES 23 3) 1000000 |> putThr 23 3 thReady |> setN 23 3 1 8 |> setN 23 3 2 1518 |> setN 23 3 3 59 |> setN 23 3 4 1519 |> setN 23 3 5 60 |> updThr 23 3 (fun x => { x with holds := [(⟨8, 0x208, 0, 0, some (⟨List.replicate 60 0, some 7, none, none⟩ : Packet), 60, none⟩ : Hold)], selected := none });
      Issues 23 3 s ∧ heldPacket 23 3 1 (issued 23 3 s) = some ((⟨8, 0x208, 0, 0, some (⟨List.replicate 60 0, some 7, none, none⟩ : Packet), 60, none⟩ : Hold), (⟨List.replicate 60 0, some 7, none, none⟩ : Packet)) ∧ (⟨8, 0x208, 0, 0, some (⟨List.replicate 60 0, some 7, none, none⟩ : Packet), 60, none⟩ : Hold).ended = none ∧ (⟨8, 0x208, 0, 0, some (⟨List.replicate 60 0, some 7, none, none⟩ : Packet), 60, none⟩ : Hold).isLine = false ∧ (60 ≤ (getN 23 3 2 (issued 23 3 s)).toNat % 16384 ∧ (getN 23 3 2 (issued 23 3 s)).toNat % 16384 ≤ max 1518 (⟨8, 0x208, 0, 0, some (⟨List.replicate 60 0, some 7, none, none⟩ : Packet), 60, none⟩ : Hold).len ∧ 60 ≤ (getN 23 3 5 (issued 23 3 s)).toNat % 16384) ∧ markFits (⟨List.replicate 60 0, some 7, none, none⟩ : Packet) 1518 = true ∧ (getN 23 3 3 (issued 23 3 s)).toNat % 16384 < 60 ∧ max 1518 (⟨8, 0x208, 0, 0, some (⟨List.replicate 60 0, some 7, none, none⟩ : Packet), 60, none⟩ : Hold).len < (getN 23 3 4 (issued 23 3 s)).toNat % 16384) := by refine ⟨?_, ?_, ?_, ?_, ?_, ?_⟩ <;> decide +kernel

theorem witness_PacketInstructions_2 :
    (let s := st |> fput (F.ENG_THR_CODE_t_HI 23 3) 16383 |> fput (F.ENG_THR_BUDGET_t_CYCLES 23 3) 1000000 |> putThr 23 3 thReady |> setN 23 3 1 8 |> setN 23 3 29 0 |> updThr 23 3 (fun x => { x with holds := [(⟨8, 0x208, 0, 0, some (⟨List.replicate 60 0, some 7, none, none⟩ : Packet), 60, none⟩ : Hold)], selected := none });
      Issues 23 3 s ∧ (29 : Fin 32).1 ≤ 29 ∧ heldPacket 23 3 1 (issued 23 3 s) = some ((⟨8, 0x208, 0, 0, some (⟨List.replicate 60 0, some 7, none, none⟩ : Packet), 60, none⟩ : Hold), (⟨List.replicate 60 0, some 7, none, none⟩ : Packet)) ∧ markFits (⟨List.replicate 60 0, some 7, none, none⟩ : Packet) (⟨8, 0x208, 0, 0, some (⟨List.replicate 60 0, some 7, none, none⟩ : Packet), 60, none⟩ : Hold).len = true ∧ runVt 23 3 29 (issued 23 3 s) = some 0 ∧ 0 ≤ vt16 (issued 23 3 s)) ∧
    (let s := st |> fput (F.ENG_THR_CODE_t_HI 23 3) 16383 |> fput (F.ENG_THR_BUDGET_t_CYCLES 23 3) 1000000 |> putThr 23 3 thReady |> setN 23 3 1 8 |> setN 23 3 29 1 |> updThr 23 3 (fun x => { x with holds := [(⟨8, 0x208, 0, 0, some (⟨List.replicate 60 0, some 7, none, none⟩ : Packet), 60, none⟩ : Hold)], selected := none });
      Issues 23 3 s ∧ runVt 23 3 29 (issued 23 3 s) = some 65536 ∧ vt16 (issued 23 3 s) < 65536 ∧ 65536 ≤ vt16 (issued 23 3 s) + secNs * 65536) ∧
    (let s := st |> fput (F.ENG_THR_CODE_t_HI 23 3) 16383 |> fput (F.ENG_THR_BUDGET_t_CYCLES 23 3) 1000000 |> putThr 23 3 thReady |> setN 23 3 1 8 |> setN 23 3 29 1 |> setN 23 3 30 1 |> updThr 23 3 (fun x => { x with holds := [(⟨8, 0x208, 0, 0, some (⟨List.replicate 60 0, some 7, none, none⟩ : Packet), 60, none⟩ : Hold)], selected := none });
      Issues 23 3 s ∧ (runVt 23 3 29 (issued 23 3 s)).any (fun v => decide (vt16 (issued 23 3 s) + secNs * 65536 < v)) = true) ∧
    (let s := st |> fput (F.ENG_THR_CODE_t_HI 23 3) 16383 |> fput (F.ENG_THR_BUDGET_t_CYCLES 23 3) 1000000 |> putThr 23 3 thReady;
      Issues 23 3 s ∧ (thr 23 3 (issued 23 3 s)).selected = none ∧ (heldPacket 23 3 1 (issued 23 3 s)).isNone = true) ∧
    (let s := st |> fput (F.ENG_THR_CODE_t_HI 23 3) 16383 |> fput (F.ENG_THR_BUDGET_t_CYCLES 23 3) 1000000 |> putThr 23 3 thReady |> setN 23 3 1 244 |> setN 23 3 2 246 |> setN 23 3 3 14 |> setN 23 3 4 13 |> updThr 23 3 (fun x => { x with selected := some 8 });
      Issues 23 3 s ∧ (thr 23 3 (issued 23 3 s)).selected = some 8 ∧ (getN 23 3 1 (issued 23 3 s)).toNat + 12 ≤ 256 ∧ (getN 23 3 2 (issued 23 3 s)).toNat + 10 ≤ 256 ∧ 14 ≤ (getN 23 3 3 (issued 23 3 s)).toNat ∧ (getN 23 3 4 (issued 23 3 s)).toNat < 14) := by refine ⟨?_, ?_, ?_, ?_, ?_⟩ <;> decide +kernel

theorem witness_PacketCopies :
    (let s := st |> fput (F.ENG_THR_CODE_t_HI 23 3) 16383 |> fput (F.ENG_THR_BUDGET_t_CYCLES 23 3) 1000000 |> putThr 23 3 thReady |> setN 23 3 1 0x10000 |> setN 23 3 2 (60 * 65536) |> updThr 23 3 (fun x => { x with holds := [(⟨8, 0x208, 0, 0, some (⟨List.replicate 60 0, some 7, none, none⟩ : Packet), 60, none⟩ : Hold)], selected := some 8 });
      Issues 23 3 s ∧ ((thr 23 3 (issued 23 3 s)).selected.bind fun h => heldItem 23 3 h (issued 23 3 s)) = some (⟨8, 0x208, 0, 0, some (⟨List.replicate 60 0, some 7, none, none⟩ : Packet), 60, none⟩ : Hold) ∧ (copyWindow 0xFFC4 60).isSome = true ∧ 0 < (getN 23 3 2 (issued 23 3 s)).toNat / 65536 ∧ (getN 23 3 2 (issued 23 3 s)).toNat / 65536 ≤ 2048 ∧ (getN 23 3 2 (issued 23 3 s)).toNat % 65536 + (getN 23 3 2 (issued 23 3 s)).toNat / 65536 ≤ (⟨8, 0x208, 0, 0, some (⟨List.replicate 60 0, some 7, none, none⟩ : Packet), 60, none⟩ : Hold).len) ∧
    (let s := st |> fput (F.ENG_THR_CODE_t_HI 23 3) 16383 |> fput (F.ENG_THR_BUDGET_t_CYCLES 23 3) 1000000 |> putThr 23 3 thReady |> setN 23 3 1 0x013FF800 |> setN 23 3 2 (2048 * 65536) |> updThr 23 3 (fun x => { x with holds := [(⟨8, 0x208, 0, 0, some (⟨List.replicate 60 0, some 7, none, none⟩ : Packet), 2048, none⟩ : Hold)], selected := some 8 });
      Issues 23 3 s ∧ (copyWindow 0x013FF800 (max 1 (min 2048 2048))).any Win.outside = true ∧ (getN 23 3 2 (issued 23 3 s)).toNat / 65536 = 2048 ∧ (outerCheck 23 3 false 0x013FF800 2048 (issued 23 3 s)).1 = none) ∧
    (let s := st |> fput (F.ENG_THR_CODE_t_HI 23 3) 16383 |> fput (F.ENG_THR_BUDGET_t_CYCLES 23 3) 1000000 |> putThr 23 3 thReady |> setN 23 3 2 (60 * 65536 + 1) |> updThr 23 3 (fun x => { x with holds := [(⟨8, 0x208, 0, 0, some (⟨List.replicate 60 0, some 7, none, none⟩ : Packet), 60, none⟩ : Hold)], selected := some 8 });
      Issues 23 3 s ∧ (⟨8, 0x208, 0, 0, some (⟨List.replicate 60 0, some 7, none, none⟩ : Packet), 60, none⟩ : Hold).len < (getN 23 3 2 (issued 23 3 s)).toNat % 65536 + (getN 23 3 2 (issued 23 3 s)).toNat / 65536 ∧ (getN 23 3 3 (issued 23 3 s)).toNat / 65536 = 0) ∧
    (let s := st |> fput (F.ENG_THR_CODE_t_HI 23 3) 16383 |> fput (F.ENG_THR_BUDGET_t_CYCLES 23 3) 1000000 |> putThr 23 3 thReady |> fput F.OWN_CTRL_EN 1 |> setN 23 3 1 0x01000000 |> setN 23 3 2 65536 |> updThr 23 3 (fun x => { x with holds := [(⟨8, 0x208, 0, 0, some (⟨List.replicate 60 0, some 7, none, none⟩ : Packet), 60, none⟩ : Hold)], selected := some 8 });
      Issues 23 3 s ∧ (outerCheck 23 3 true 0x01000000 1 (issued 23 3 s)).1 = some trOwnership) := by refine ⟨?_, ?_, ?_, ?_⟩ <;> decide +kernel

theorem witness_QueueInstructions_1 :
    (let s := st |> fput (F.ENG_THR_CODE_t_HI 23 3) 16383 |> fput (F.ENG_THR_BUDGET_t_CYCLES 23 3) 1000000 |> putThr 23 3 thReady |> fput (F.ENG_QSLOT_q_EN 23 23) 1 |> fput (F.ENG_QSLOT_q_THREAD 23 23) 3 |> fput (F.ENG_QSLOT_q_QID 23 23) 0x65F |> fput (F.ENG_QSLOT_q_DIR 23 23) 0 |> (fun s => { s with mbox := s.mbox.set 95 [(⟨1, 0, (0, 0, 0), none⟩ : MailItem)] });
      Issues 23 3 s ∧ (28 : Fin 32).1 ≤ 28 ∧ (23 : Fin 32).1 < 24 ∧ slotQid 23 3 23 false (issued 23 3 s) = some 0x65F ∧ freeHandle 23 3 (issued 23 3 s) = some 1 ∧ (slotHead 23 23 0x65F (issued 23 3 s)).any (fun x => x.item.pkt.isNone) = true) ∧
    (let s := st |> fput (F.ENG_THR_CODE_t_HI 23 3) 16383 |> fput (F.ENG_THR_BUDGET_t_CYCLES 23 3) 1000000 |> putThr 23 3 thReady |> fput (F.ENG_QSLOT_q_EN 23 23) 1 |> fput (F.ENG_QSLOT_q_THREAD 23 23) 3 |> fput (F.ENG_QSLOT_q_QID 23 23) 0x65F |> fput (F.ENG_QSLOT_q_DIR 23 23) 0 |> (fun s => { s with mbox := s.mbox.set 95 [(⟨1, 64, (0, 0, 0), some (⟨List.replicate 60 0, some 7, none, none⟩ : Packet)⟩ : MailItem)] });
      Issues 23 3 s ∧ slotQid 23 3 23 false (issued 23 3 s) = some 0x65F ∧ freeHandle 23 3 (issued 23 3 s) = some 1 ∧ (slotHead 23 23 0x65F (issued 23 3 s)).any (fun x => x.item.pkt.isSome) = true ∧ heldPackets 23 3 (issued 23 3 s) < 4) ∧
    (let s := st |> fput (F.ENG_THR_CODE_t_HI 23 3) 16383 |> fput (F.ENG_THR_BUDGET_t_CYCLES 23 3) 1000000 |> putThr 23 3 thReady |> fput (F.ENG_QSLOT_q_EN 23 23) 1 |> fput (F.ENG_QSLOT_q_THREAD 23 23) 3 |> fput (F.ENG_QSLOT_q_QID 23 23) 0x65F |> fput (F.ENG_QSLOT_q_DIR 23 23) 0;
      Issues 23 3 s ∧ slotQid 23 3 23 false (issued 23 3 s) = some 0x65F ∧ freeHandle 23 3 (issued 23 3 s) = some 1 ∧ (slotHead 23 23 0x65F (issued 23 3 s)).isNone = true) ∧
    (let s := st |> fput (F.ENG_THR_CODE_t_HI 23 3) 16383 |> fput (F.ENG_THR_BUDGET_t_CYCLES 23 3) 1000000 |> putThr 23 3 thReady |> fput (F.ENG_QSLOT_q_EN 23 23) 1 |> fput (F.ENG_QSLOT_q_THREAD 23 23) 3 |> fput (F.ENG_QSLOT_q_QID 23 23) 0x65F |> fput (F.ENG_QSLOT_q_DIR 23 23) 0 |> updThr 23 3 (fun x => { x with holds := (List.range 8).map fun k => (⟨k + 1, 0x65F, 0, 0, none, 0, none⟩ : Hold) });
      Issues 23 3 s ∧ slotQid 23 3 23 false (issued 23 3 s) = some 0x65F ∧ freeHandle 23 3 (issued 23 3 s) = none) ∧
    (let s := st |> fput (F.ENG_THR_CODE_t_HI 23 3) 16383 |> fput (F.ENG_THR_BUDGET_t_CYCLES 23 3) 1000000 |> putThr 23 3 thReady |> fput (F.ENG_QSLOT_q_EN 23 23) 1 |> fput (F.ENG_QSLOT_q_THREAD 23 23) 3 |> fput (F.ENG_QSLOT_q_QID 23 23) 0x65F |> fput (F.ENG_QSLOT_q_DIR 23 23) 1;
      Issues 23 3 s ∧ slotQid 23 3 23 false (issued 23 3 s) = none ∧ slotQid 23 3 23 true (issued 23 3 s) = some 0x65F ∧ ftst (F.ENG_QSLOT_q_GONE 23 23) (issued 23 3 s) = false) ∧
    (let s := st |> fput (F.ENG_THR_CODE_t_HI 23 3) 16383 |> fput (F.ENG_THR_BUDGET_t_CYCLES 23 3) 1000000 |> putThr 23 3 thReady |> fput (F.ENG_QSLOT_q_EN 23 23) 1 |> fput (F.ENG_QSLOT_q_THREAD 23 23) 3 |> fput (F.ENG_QSLOT_q_QID 23 23) 0x65F |> fput (F.ENG_QSLOT_q_DIR 23 23) 1 |> fput (F.ENG_QSLOT_q_GONE 23 23) 1;
      Issues 23 3 s ∧ slotQid 23 3 23 true (issued 23 3 s) = some 0x65F ∧ ftst (F.ENG_QSLOT_q_GONE 23 23) (issued 23 3 s) = true) := by refine ⟨?_, ?_, ?_, ?_, ?_, ?_⟩ <;> decide +kernel

theorem witness_QueueInstructions_2 :
    (let s := st |> fput (F.ENG_THR_CODE_t_HI 23 3) 16383 |> fput (F.ENG_THR_BUDGET_t_CYCLES 23 3) 1000000 |> putThr 23 3 thReady |> setN 23 3 1 0x108 |> updThr 23 3 (fun x => { x with holds := (List.range 8).map fun k => (⟨k + 1, 0x65F, 0, 0, none, 0, none⟩ : Hold) });
      Issues 23 3 s ∧ (heldItem 23 3 ((getN 23 3 1 (issued 23 3 s)).toNat % 256) (issued 23 3 s)).any (fun x => x.pkt.isNone) = true ∧ heldItem 23 3 ((getN 23 3 2 (issued 23 3 s)).toNat % 256) (issued 23 3 s) = none) := by decide +kernel

theorem witness_TableInstructionsAndLookups :
    (let s := st |> fput (F.ENG_THR_CODE_t_HI 23 3) 16383 |> fput (F.ENG_THR_BUDGET_t_CYCLES 23 3) 1000000 |> putThr 23 3 thReady;
      Issues 23 3 s ∧ (28 : Fin 32).1 ≤ 28 ∧ islOpen islMEM s = true ∧ ftst F.SIG_CTRL_EN s = false ∧ (match lookStep 23 3 .ok 0 (.lkp 28 0) (issued 23 3 s) with | (.got _ _, _) => true | _ => false) = true) ∧
    (let s := st |> fput F.SIG_CTRL_EN 1 |> fput F.SIG_CAT_COUNT_N 1;
      islOpen islMEM s = true ∧ ftst F.SIG_CTRL_EN s = true ∧ ftst F.SIG_STATUS_READY s = false ∧ 0 < catLimit s ∧ (match lookStep 23 3 .ok 0 (.lkp 28 0) s with | (.wait _, _) => true | _ => false) = true) ∧
    (let s := st |> fput F.SIG_CTRL_EN 1 |> fput F.SIG_STATUS_READY 1 |> fput F.SIG_CAT_COUNT_N 1 |> fput F.SIG_CAT_BASE_PAGE 0x1000 |> updSig (fun g => { g with cache := [⟨false, 0, List.replicate 64 0, false⟩] });
      islOpen islMEM s = true ∧ ftst F.SIG_CTRL_EN s = true ∧ ftst F.SIG_STATUS_READY s = true ∧ 0 < catLimit s ∧ (match tabLine 23 3 false 0 0 0 s with | (.got _ _, _) => true | _ => false) = true ∧ (outerCheck 23 3 true (lineAddr false 0 s) 16 s).1 = none) ∧
    (let s := st |> fput (F.ENG_THR_CODE_t_HI 23 3) 16383 |> fput (F.ENG_THR_BUDGET_t_CYCLES 23 3) 1000000 |> putThr 23 3 thReady |> fput F.SIG_CTRL_EN 1 |> fput F.SIG_STATUS_READY 1 |> fput F.SIG_CAT_COUNT_N 1 |> fput F.SIG_CAT_BASE_PAGE 0x1000 |> fput F.OWN_CTRL_EN 1;
      Issues 23 3 s ∧ (match lookStep 23 3 .ok 0 (.lkp 28 0) (issued 23 3 s) with | (.trap _ _, _) => true | _ => false) = true) := by refine ⟨?_, ?_, ?_, ?_⟩ <;> decide +kernel

theorem witness_SwitchRegisterCommands_1 :
    (Lets .hc (R.SW_GATE_CTRL_p 22) true st ∧ (let u := entered .hc (R.SW_GATE_CTRL_p 22) st; fget (F.SW_GATE_CTRL_p_ADMIN_LEN 22) u = 0)) ∧
    (let s := st |> fput (F.SW_GATE_CTRL_p_ADMIN_LEN 22) 1 |> fput (F.SW_ADMIN_CYCLE_NS_p 22) 1000;
      Lets .hc (R.SW_GATE_CTRL_p 22) true s ∧ (let u := entered .hc (R.SW_GATE_CTRL_p 22) s; 0 < fget (F.SW_GATE_CTRL_p_ADMIN_LEN 22) u ∧ 1000 ≤ fget (F.SW_ADMIN_CYCLE_NS_p 22) u ∧ fget (F.SW_ADMIN_CYCLE_NS_p 22) u ≤ 1000000000 ∧ fget (F.SW_ADMIN_BASE_NS_p 22) u < 1000000000)) ∧
    (Lets .hc (R.SW_RING_TAIL_h_r 1 15) true st ∧ True) ∧
    (let s := st |> fput F.SW_TBL_INDEX 11775 |> fput (F.SW_GATE_CTRL_p_ACTIVE_BANK 22) 0;
      Lets .hc R.SW_TBL_CMD true s ∧ (let u := entered .hc R.SW_TBL_CMD s; fget F.SW_TBL_INDEX u < tblSize 9 ∧ (9 : Nat) ≠ tblAddr ∧ (9 : Nat) ≠ tblSgate ∧ (9 : Nat) ≠ tblSgateEntry ∧ ¬(9 = tblGcl ∧ gclBusy (fget F.SW_TBL_INDEX u) u = true))) ∧
    (let s := st |> fput F.SW_TBL_INDEX 11776;
      Lets .hc R.SW_TBL_CMD true s ∧ (let u := entered .hc R.SW_TBL_CMD s; tblSize 9 ≤ fget F.SW_TBL_INDEX u)) ∧
    (Lets .hc R.SW_TBL_CMD true st ∧ (let u := entered .hc R.SW_TBL_CMD st; fget F.SW_TBL_INDEX u < tblSize tblGcl ∧ gclBusy (fget F.SW_TBL_INDEX u) u = true)) := by refine ⟨?_, ?_, ?_, ?_, ?_, ?_⟩ <;> first | exact lets_and (by decide +kernel) | decide +kernel

theorem witness_SwitchRegisterCommands_2 :
    (Lets .hc R.SW_CTRL true st ∧ True) ∧
    (Lets .hc (R.SW_TC10_p 17) true st ∧ (let u := entered .hc (R.SW_TC10_p 17) st; 6 ≤ 17 ∧ fget (F.SW_TC10_p_STATE 17) u = 0 ∧ fget (F.SW_TC10_p_STATE 17) u ≠ 2)) ∧
    (let s := fput (F.SW_TC10_p_STATE 6) 2 st;
      Lets .hc (R.SW_TC10_p 6) true s ∧ (let u := entered .hc (R.SW_TC10_p 6) s; 6 ≤ 6 ∧ fget (F.SW_TC10_p_STATE 6) u = 2 ∧ fget (F.SW_TC10_p_STATE 6) u ≠ 0)) ∧
    (Lets .hc R.SW_CNT_CLR true st ∧ True) := by refine ⟨?_, ?_, ?_, ?_⟩ <;> first | exact lets_and (by decide +kernel) | decide +kernel

theorem witness_SwitchFrames_1 :
    (let s := st |> fput (F.SW_PORT_CFG_p_EN 17) 1 |> fput F.SW_CTRL_EN 1 |> fput (F.SW_PORT_STATUS_p_LINK 17) 1 |> fput (F.SW_PORT_CFG_p_LEARN 17) 0;
      (let b : List Byte := [0x01, 0x80, 0xC2, 0, 0, 0x0E] ++ List.replicate 6 0 ++ [0x88, 0xF7] ++ List.replicate 46 0; (ptpIngress 17 (pcpClass 17 (framePcp 17 b s) s) b s).1.isSome = true)) ∧
    (let s := st |> fput (F.SW_PORT_CFG_p_EN 17) 1 |> fput F.SW_CTRL_EN 1 |> fput (F.SW_PORT_STATUS_p_LINK 17) 1 |> fput (F.SW_PORT_CFG_p_LEARN 17) 0 |> tblPut tblSfilt 0 (BitVec.ofNat 128 (0x0180C200000E + fget (F.SW_PORT_CFG_p_PVID 17) st * 2 ^ 48 + 2 ^ 63 + 2 ^ 87 + 2 ^ 117));
      (let b : List Byte := [0x01, 0x80, 0xC2, 0, 0, 0x0E] ++ List.replicate 6 0 ++ [0x88, 0xF7] ++ List.replicate 46 0; (ptpIngress 17 (pcpClass 17 (framePcp 17 b s) s) b s).1 = none)) ∧
    (let s := st |> fput (F.SW_PORT_CFG_p_EN 17) 1 |> fput F.SW_CTRL_EN 1 |> fput (F.SW_PORT_STATUS_p_LINK 17) 1;
      ftst (F.SW_PORT_CFG_p_EN 17) s = true ∧ ftst F.SW_CTRL_EN s = true ∧ islOpen islSWP s = true ∧ portShut 17 s = false ∧ 1522 < (List.replicate 1519 (0 : Byte)).length + 4 ∧ (List.replicate 59 (0 : Byte)).length + 4 < 64 ∧ 64 ≤ (List.replicate 60 (0 : Byte)).length + 4 ∧ (List.replicate 1518 (0 : Byte)).length + 4 ≤ 1522 ∧ beNat ((List.replicate 60 (0 : Byte)).take 6) ≠ 0x0180C200000E) ∧
    ((let b : List Byte := [0x01, 0x80, 0xC2, 0, 0, 0x0E] ++ List.replicate 6 0 ++ [0x88, 0xF7] ++ List.replicate 46 0; 64 ≤ b.length + 4 ∧ b.length + 4 ≤ 1522 ∧ beNat (b.take 6) = 0x0180C200000E ∧ beNat ((b.drop 12).take 2) = 0x88F7)) ∧
    (let s := st |> fput (F.SW_PORT_CFG_p_EN 17) 1 |> fput F.SW_CTRL_EN 1 |> fput (F.SW_PORT_STATUS_p_LINK 17) 1 |> updSw (fun w => { w with tx := w.tx.set 17 (some ⟨1, 6, false, List.replicate 60 0, false, 0, 0, 0, 0, 0⟩) });
      s.sw.tx[17] = some ⟨1, 6, false, List.replicate 60 0, false, 0, 0, 0, 0, 0⟩ ∧ 0 ≤ s.now ∧ portCanSend 17 (settlePort 17 (launchDue s)) = true ∧ preemptable 17 6 (settlePort 17 (launchDue s)) = false) ∧
    (let s := st |> fput (F.SW_PORT_CFG_p_EN 17) 1 |> fput F.SW_CTRL_EN 1 |> fput (F.SW_PORT_STATUS_p_LINK 17) 1;
      portCanSend 17 (settlePort 17 (launchDue s)) = true ∧ (settlePort 17 (launchDue s)).sw.tx[17] = none ∧ portCanSend 16 (settlePort 16 (launchDue s)) = false) := by refine ⟨?_, ?_, ?_, ?_, ?_, ?_⟩ <;> decide +kernel

theorem witness_SwitchFrames_2 :
    (let s := st |> fput (F.SW_PORT_CFG_p_EN 5) 1 |> fput (F.SW_PORT_STATUS_p_LINK 5) 1 |> fput (F.SW_PREEMPT_p_EN 5) 1 |> fput (F.SW_PREEMPT_p_MASK 5) 0x40 |> fput (F.SW_PORT_STATUS_p_PREEMPT_ACTIVE 5) 1 |> updSw (fun w => { w with tx := w.tx.set 5 (some ⟨1, 6, false, List.replicate 60 0, false, 0, 0, 12000, 0, 0⟩), frames := [(⟨1, List.replicate 60 0, 0, 0, 0, 7, 0, .none, none, [⟨5, 7, 0, false⟩], 0, none, 0, true⟩ : SwFrame)] });
      portCanSend 5 (settlePort 5 (launchDue s)) = true ∧ preemptable 5 6 (settlePort 5 (launchDue s)) = true ∧ (readyClass 5 (fun c => !preemptable 5 c (settlePort 5 (launchDue s))) (settlePort 5 (launchDue s))) ≠ none ∧ (settlePort 5 (launchDue s)).sw.preempted[5] = none ∧ (cutPoint 5 ⟨1, 6, false, List.replicate 60 0, false, 0, 0, 12000, 0, 0⟩ (settlePort 5 (launchDue s))).isSome = true ∧ cutPoint 5 ⟨1, 6, false, List.replicate 60 0, false, 0, 0, 0, 0, 0⟩ (settlePort 5 (launchDue s)) = none) ∧
    (let s := st |> fput (F.SW_PLCA_p_EN 17) 1 |> fput (F.SW_PLCA_p_NODE_ID 17) 32;
      14 ≤ 17 ∧ ftst (F.SW_PLCA_p_EN 17) s = true ∧ 32 ≤ fget (F.SW_PLCA_p_NODE_ID 17) s ∧ (plcaDue 17 (fput (F.SW_PLCA_p_NODE_ID 17) 0 s)).isSome = true ∧ plcaDue 13 s = some s.now ∧ ftst (F.SW_PLCA_p_EN 16) s = false) ∧
    (20 < 22 ∧ 18 ≤ 18 ∧ portCanSend 18 (settlePort 18 (launchDue st)) = false) ∧
    (let s := st |> fput (F.SW_PORT_CFG_p_EN 20) 1 |> updSw (fun w => { w with frames := [(⟨1, List.replicate 60 0, 0, 0, 0, 7, 0, .none, none, [⟨20, 7, 0, false⟩], 0, none, 0, true⟩ : SwFrame)] });
      18 ≤ 20 ∧ 20 ≤ 20 ∧ portCanSend 20 (settlePort 20 (launchDue s)) = true ∧ readyClass 20 (fun _ => true) (settlePort 20 (launchDue s)) = some 7 ∧ (takeHead 20 7 (settlePort 20 (launchDue s))).isSome = true) ∧
    (let s := later 1000000000 (updSw (fun w => { w with frames := [(⟨1, List.replicate 60 0, 0, 0, 0, 7, 0, .none, none, [⟨17, 7, 0, false⟩], 0, none, 0, true⟩ : SwFrame)] }) st);
      queueOf 17 7 s = ((⟨1, List.replicate 60 0, 0, 0, 0, 7, 0, .none, none, [⟨17, 7, 0, false⟩], 0, none, 0, true⟩ : SwFrame), (⟨17, 7, 0, false⟩ : SwCopy)) :: [] ∧ 0 + maxRes s ≤ s.now ∧ s.sw.preempted[17] = none ∧ readyClass 17 (fun _ => true) s = some 7) ∧
    (let s := st |> fput (F.SW_RING_SIZE_h_r 1 7) 16 |> fput (F.SW_RING_TAIL_h_r 1 7) 1 |> fput (F.SW_RING_BASE_LO_h_r 1 7) 0x01000000 |> mwr 0x01000004 0 |> mwr 0x01000003 1 |> mwr 0x01000008 60 |> mwr 0x0100000A 2;
      ringSize 1 7 s ≠ 0 ∧ s.sw.ringNext.toList.getD 15 0 ≠ fget (F.SW_RING_TAIL_h_r 1 7) s ∧ islOpen islSWP s = true ∧ (dmaRead hostIdent (ringBase 1 7 s) 32 s).1.any (fun d => leNat ((d.drop 10).take 1) / 2 % 2 == 1 && leNat ((d.drop 8).take 2) == 60 && ((dmaRead hostIdent (leNat (d.take 5)) 60 s).1).isSome) = true) := by refine ⟨?_, ?_, ?_, ?_, ?_, ?_⟩ <;> decide +kernel

theorem witness_SwitchEvents_1 :
    (let s := st |> fput (F.SW_GATE_CTRL_p_EN 22) 1 |> fput (F.SW_OPER_CYCLE_NS_p 22) 1000 |> updSw (fun w => { w with operLen := w.operLen.set 22 1 }) |> tblPut tblGcl (512 * 22 + 256 * fget (F.SW_GATE_CTRL_p_ACTIVE_BANK 22) st) (BitVec.ofNat 128 (1000 * 2 ^ 32));
      gateRuns 22 s = true ∧ gateRest 22 s ≠ []) ∧
    (let s := updSw (fun w => { w with gateArm := w.gateArm.set 22 (some ⟨0, 0, 1000, 1⟩) }) st;
      s.sw.gateArm[22] = some ⟨0, 0, 1000, 1⟩ ∧ 0 * 2 ^ 48 ≤ vt s) ∧
    (sgateRuns 255 st = false) ∧
    (let s := st |> tblPut tblSgate 255 (BitVec.ofNat 128 (1000 * 2 ^ 96 + 2 ^ 95)) |> tblPut tblSgateEntry (255 * 64) (BitVec.ofNat 128 (1000 * 2 ^ 32));
      sgateRuns 255 s = true ∧ sgateRest 255 s ≠ []) ∧
    (let s := later 20000000 (frerPut 127 ⟨false, 0, 0, some 0, some 0, none⟩ st);
      (frerGet 127 s).last0 = some 0 ∧ (frerGet 127 s).last1 = some 0 ∧ max 0 0 + frerTimeout 127 s ≤ s.now) ∧
    (let s := st |> fput (F.SW_PREEMPT_p_EN 5) 1 |> fput (F.SW_PREEMPT_p_VERIFY_DIS 5) 0 |> fput (F.SW_PORT_STATUS_p_LINK 5) 1 |> updSw (fun w => { w with verify := w.verify.set 5 2 });
      ftst (F.SW_PREEMPT_p_EN 5) s = true ∧ ftst (F.SW_PREEMPT_p_VERIFY_DIS 5) s = false ∧ ftst (F.SW_PORT_STATUS_p_LINK 5) s = true ∧ fget (F.SW_PORT_STATUS_p_PREEMPT_ACTIVE 5) s = 0 ∧ s.sw.verify[5] < 3 ∧ 3 ≤ s.sw.verify[5] + 1) := by refine ⟨?_, ?_, ?_, ?_, ?_, ?_⟩ <;> decide +kernel

theorem witness_SwitchEvents_2 :
    (let s := later 1000000000000 (st |> fput F.SW_CTRL_AGE_S 1 |> tblPut tblAddr 16383 (BitVec.ofNat 128 (2 ^ 64)) |> updSw (fun w => { w with refreshed := [(16383, 0)] }));
      fget F.SW_CTRL_AGE_S s ≠ 0 ∧ eb (tblGet tblAddr 16383 s) 2 0 0 = 1 ∧ eb (tblGet tblAddr 16383 s) 2 1 1 = 0 ∧ s.sw.refreshed.find? (fun x => x.1 == 16383) = some (16383, 0) ∧ 0 + fget F.SW_CTRL_AGE_S s * 1000000000 ≤ s.now) ∧
    ((5 : Fin 18).1 < 6 ∧ 6 ≤ (6 : Fin 18).1 ∧ fget (F.SW_TC10_p_STATE 5) st ≠ 1 ∧ st.sw.tc10Due[5] ≤ st.now) ∧
    (2 ≤ 17 ∧ portWaits 17 st = false ∧ planeOk (ftst (F.SW_PORT_CFG_p_PLANE 17) st) st = true) ∧
    (let s := fput (F.SW_TC10_p_STATE 17) 1 st;
      fget (F.SW_TC10_p_STATE 17) s = 1 ∧ portWaits 17 s = false ∧ 6 ≤ 17) ∧
    (let s := fput (F.SW_TC10_p_STATE 17) 1 (updSw (fun w => { w with frames := [(⟨1, List.replicate 60 0, 0, 0, 0, 7, 0, .none, none, [⟨17, 7, 0, false⟩], 0, none, 0, true⟩ : SwFrame)] }) st);
      fget (F.SW_TC10_p_STATE 17) s = 1 ∧ portWaits 17 s = true ∧ s.sw.tc10Due[17] ≤ s.now) ∧
    (let s := st |> fput F.NM_CTRL_EN 1 |> fput (F.NM_SEG_STATUS_s_STATE 16) 4 |> updSw (fun w => { w with frames := [(⟨1, List.replicate 60 0, 0, 0, 0, 7, 0, .none, none, [⟨5, 7, 0, false⟩], 0, none, 0, true⟩ : SwFrame)] });
      fget (F.SW_TC10_p_STATE 5) s ≠ 1 ∧ portSlept 5 s = true ∧ portWaits 5 s = true ∧ s.sw.tc10Due[5] ≤ s.now) := by refine ⟨?_, ?_, ?_, ?_, ?_, ?_⟩ <;> decide +kernel

theorem witness_SwitchEvents_3 :
    (let s := fput (F.SW_TC10_p_STATE 17) 3 st;
      ftst (F.SW_PORT_STATUS_p_LINK 17) s ≠ true ∧ fget (F.SW_TC10_p_STATE 17) s = 3) := by decide +kernel

theorem witness_CanReceive_1 :
    (let s := st |> fput (F.CAN_CTRL_EN 11) 1 |> fput (F.CAN_CTRL_FD_EN 11) 1 |> fput (F.CAN_CTRL_XL_EN 11) 1 |> fput (F.CAN_ERR_REC 11) 127;
      canOn 11 s = true ∧ canOff 11 s = false ∧ ftst (F.CAN_CTRL_FD_EN 11) s = true ∧ ftst (F.CAN_CTRL_XL_EN 11) s = true ∧ canMode 11 s ≠ 5 ∧ canMode 11 s ≠ 3 ∧ fget (F.CAN_ERR_REC 11) s ≤ 127) ∧
    (let s := st |> fput (F.CAN_CTRL_EN 11) 1 |> fput (F.CAN_CTRL_MODE 11) 5;
      canOn 11 s = true ∧ canOff 11 s = false ∧ canMode 11 s = 5) ∧
    (let s := st |> fput (F.CAN_CTRL_EN 11) 1 |> fput (F.CAN_CTRL_MODE 11) 3;
      canOn 11 s = true ∧ canOff 11 s = false ∧ canMode 11 s = 3) ∧
    (let s := st |> fput (F.CAN_FILT_ACT_f_ACTION 11 127) 2 |> fput (F.CAN_FILT_ACT_f_BUF 11 127) 63;
      canFilter 11 (⟨.classical, 0, [], false, 0⟩ : CanFrame) s = some (2, 63) ∧ (⟨.classical, 0, [], false, 0⟩ : CanFrame).fmt ≠ .xl ∧ ftst (F.CAN_RXPAY_EN 11) s = false) ∧
    (let s := st |> fput (F.CAN_FILT_ACT_f_ACTION 11 0) 1;
      canFilter 11 (⟨.classical, 0, [], false, 0⟩ : CanFrame) s = some (1, 0)) ∧
    (let s := st |> fput (F.CAN_RXPAY_EN 11) 1 |> updCan 11 (fun y => { y with rxq := List.finRange 32 });
      canFilter 11 (⟨.classical, 0, [], false, 0⟩ : CanFrame) s = none ∧ (∀ i, i ∈ rxUsed 11 s) ∧ ftst (F.CAN_RXPAY_EN 11) s = true) := by refine ⟨?_, ?_, ?_, ?_, ?_, ?_⟩ <;> decide +kernel

theorem witness_CanReceive_2 :
    (let s := updCan 11 (fun y => { y with rxq := [31] }) st;
      Lets .hc (R.CAN_RXQ_POP 11) false s ∧ (let u := entered .hc (R.CAN_RXQ_POP 11) s; qidBound (canRxQid 11) u = false ∧ (canSt 11 u).rxq = 31 :: [])) := lets_and ⟨by decide +kernel, (qidBound_regs rfl).trans unbound.1, by decide +kernel⟩

theorem witness_CanReceive_3 :
    (Lets .hc (R.CAN_RXQ_POP 11) false st ∧ (let u := entered .hc (R.CAN_RXQ_POP 11) st; qidBound (canRxQid 11) u = false ∧ (canSt 11 u).rxq = [])) := lets_and ⟨by decide +kernel, (qidBound_regs rfl).trans unbound.1, by decide +kernel⟩

theorem witness_CanReceive_4 :
    (Lets .hc (R.CAN_RXE_i_w 11 31 7) false st ∧ (let u := entered .hc (R.CAN_RXE_i_w 11 31 7) st; ftst (F.CAN_CTRL_CONSIST 11) u = false)) ∧
    (let s := fput (F.CAN_MB_CTL_b_TYPE 11 63) 1 st;
      Lets .hc (R.CAN_MB_ID_b 11 63) false s ∧ (let u := entered .hc (R.CAN_MB_ID_b 11 63) s; ftst (F.CAN_CTRL_CONSIST 11) u = false ∧ fget (F.CAN_MB_CTL_b_TYPE 11 63) u = 1)) ∧
    (let s := fput (F.CAN_CTRL_CONSIST 11) 1 st;
      Lets .hc (R.CAN_MB_STAT_b 11 63) false s ∧ (let u := entered .hc (R.CAN_MB_STAT_b 11 63) s; ftst (F.CAN_CTRL_CONSIST 11) u = true)) ∧
    (let s := updCan 11 (fun y => { y with locks := [(63, 0)] }) st;
      Lets .hc (R.CAN_MB_STAT_b 11 63) false s ∧ (let u := entered .hc (R.CAN_MB_STAT_b 11 63) s; ftst (F.CAN_CTRL_CONSIST 11) u = false ∧ bufferBusy 11 63 u = true ∧ (canSt 11 u).locks = (63, 0) :: [] ∧ (canSt 11 u).popped = [] ∧ 0 ≤ u.now)) := by refine ⟨?_, ?_, ?_, ?_⟩ <;> first | exact lets_and (by decide +kernel) | decide +kernel

theorem witness_CanReceive_5 :
    (let s := updCan 11 (fun y => { y with locks := [(63, 0), (62, 1)], popped := [(31, 0)] }) st;
      ftst (F.CAN_CTRL_CONSIST 11) s = false ∧ (63, 0) ∈ (canSt 11 s).locks ∧ (∀ x ∈ (canSt 11 s).locks, x ≠ (63, 0) → 0 < x.2) ∧ (∀ x ∈ (canSt 11 s).popped, 0 ≤ x.2) ∧ 0 ≤ s.now) ∧
    (let s := updCan 11 (fun y => { y with popped := [(31, 0)] }) st;
      ftst (F.CAN_CTRL_CONSIST 11) s = false ∧ (31, 0) ∈ (canSt 11 s).popped ∧ (∀ x ∈ (canSt 11 s).popped, x ≠ (31, 0) → 0 < x.2) ∧ (∀ x ∈ (canSt 11 s).locks, 0 < x.2) ∧ 0 ≤ s.now) := by refine ⟨?_, ?_⟩ <;> decide +kernel

theorem witness_CanReceive_6 :
    (let s := st |> fput (F.CAN_CTRL_CONSIST 11) 1 |> fput (F.CAN_MB_CTL_b_TYPE 11 63) 1 |> fput (F.CAN_MB_STAT_b_NEW 11 63) 1;
      Lets .hc (R.CAN_MB_ACK 11) true s ∧ (let u := entered .hc (R.CAN_MB_ACK 11) s; ftst (F.CAN_CTRL_CONSIST 11) u = true ∧ fget (F.CAN_MB_CTL_b_TYPE 11 63) u = 1 ∧ ftst (F.CAN_MB_STAT_b_NEW 11 63) u = true ∧ ftst (F.CAN_MB_STAT_b_NEW 11 62) u = false)) := lets_and (by decide +kernel)

theorem witness_CanReceive_7 :
    (let s := st |> fput (F.CAN_CTRL_CONSIST 11) 1 |> updCan 11 (fun y => { y with popped := [(31, 0)] });
      Lets .hc (R.CAN_RXQ_ACK 11) true s ∧ (let u := entered .hc (R.CAN_RXQ_ACK 11) s; qidBound (canRxQid 11) u = false ∧ ftst (F.CAN_CTRL_CONSIST 11) u = true ∧ (31, 0) ∈ (canSt 11 u).popped ∧ (∀ p ∈ (canSt 11 u).popped, p.1 ≠ 30))) := lets_and ⟨by decide +kernel, (qidBound_regs (t := fput (F.CAN_CTRL_CONSIST 11) 1 st) rfl).trans ((qidBound_wr (a := (F.CAN_CTRL_CONSIST 11).addr) (by decide)).trans unbound.1), by decide +kernel⟩

theorem witness_CanTransmit_1 :
    (Lets .hc (R.CAN_TXB_REQ_k 11 1) true st ∧ True) := lets_and (by decide +kernel)

theorem witness_CanTransmit_2 :
    (let s := fput (F.CAN_MB_CTL_b_TYPE 11 63) 2 st;
      2 ≤ fget (F.CAN_MB_CTL_b_TYPE 11 63) s ∧ bufPending 11 63 s = false ∧ ftst (F.CAN_MB_STAT_b_SUSPENDED 11 63) s = false ∧ canAllowed 11 (canNew (.buffer 63) s 11) s = true ∧ (match sluice (canSeg 11) (canIdw 11 (canNew (.buffer 63) s 11) s) s with | (.pass, _) => true | _ => false) = true) ∧
    (let s := st |> fput (F.CAN_MB_CTL_b_TYPE 11 63) 3 |> fput (F.CAN_MB_CTL_b_LEN 11 63) 9;
      2 ≤ fget (F.CAN_MB_CTL_b_TYPE 11 63) s ∧ bufPending 11 63 s = false ∧ ftst (F.CAN_MB_STAT_b_SUSPENDED 11 63) s = false ∧ canAllowed 11 (canNew (.buffer 63) s 11) s = false ∧ ftst (F.CAN_MB_CTL_b_FD 11 63) s = false ∧ 8 < fget (F.CAN_MB_CTL_b_LEN 11 63) s) := by refine ⟨?_, ?_⟩ <;> decide +kernel

theorem witness_CanTransmit_3 :
    (let s := updCan 11 (fun y => { y with items := [⟨.host 31, 0, none, false, false, false⟩] }) st;
      Lets .hc (R.CAN_TXQ_SUBMIT 11) true s ∧ (let u := entered .hc (R.CAN_TXQ_SUBMIT 11) s; qidBound (canTxQid 11) u = false ∧ entryBusy 11 31 u = true ∧ entryBusy 11 30 u = false ∧ canAllowed 11 (canNew (.host 30) (ok u) 11) (ok u) = false)) := lets_and ⟨by decide +kernel, (qidBound_regs rfl).trans unbound.2, by decide +kernel⟩

theorem witness_CanTransmit_4 :
    (let s := wr (R.CAN_TXE_i_w 11 31 1) 0x00210008 (fput (F.NM_SEG_STATUS_s_STATE 11) 6 (fput F.NM_CTRL_EN 1 st));
      entryBusy 11 31 s = false ∧ canAllowed 11 (canNew (.host 31) (ok s) 11) (ok s) = true ∧ (match sluice (canSeg 11) (canIdw 11 (canNew (.host 31) (ok s) 11) (ok s)) (ok s) with | (.refuse, _) => true | _ => false) = true) := by decide +kernel

theorem witness_CanTransmit_5 :
    (let s := wr (R.CAN_TXE_i_w 11 31 1) 0x00210008 st;
      Lets .hc (R.CAN_TXQ_SUBMIT 11) true s ∧ (let u := entered .hc (R.CAN_TXQ_SUBMIT 11) s; qidBound (canTxQid 11) u = false ∧ entryBusy 11 31 u = false ∧ canAllowed 11 (canNew (.host 31) (ok u) 11) (ok u) = true ∧ (match sluice (canSeg 11) (canIdw 11 (canNew (.host 31) (ok u) 11) (ok u)) (ok u) with | (.pass, _) => true | _ => false) = true)) := lets_and ⟨by decide +kernel, (qidBound_wr (a := R.CAN_TXE_i_w 11 31 1) (by decide)).trans unbound.2, by decide +kernel⟩

theorem witness_CanTransmit_6 :
    (Lets .hc (R.CAN_TXB_CANCEL_k 11 1) true st ∧ True) := lets_and (by decide +kernel)

theorem witness_CanTransmit_7 :
    (Lets .hc (R.CAN_TXQ_CANCEL 11) true st ∧ (let u := entered .hc (R.CAN_TXQ_CANCEL 11) st; qidBound (canTxQid 11) u = false)) := lets_and ⟨by decide +kernel, (qidBound_regs rfl).trans unbound.2⟩

theorem witness_CanTransmit_8 :
    (let s := updCan 11 (fun y => { y with items := [(⟨.buffer 63, 0, none, false, false, false⟩ : CanItem)] }) st;
      (canSt 11 s).items.find? (fun x => x.src == .buffer 63) = some (⟨.buffer 63, 0, none, false, false, false⟩ : CanItem) ∧ sendingSrc 11 (.buffer 63) s = false) ∧
    (let s := updCan 11 (fun y => { y with items := [(⟨.buffer 63, 0, none, false, false, false⟩ : CanItem)], cur := some (⟨some (⟨.buffer 63, 0, none, false, false, false⟩ : CanItem), (⟨.classical, 0, [], false, 0⟩ : CanFrame), false, false, 0, 0⟩ : CanTry) }) st;
      (canSt 11 s).items.find? (fun x => x.src == .buffer 63) = some (⟨.buffer 63, 0, none, false, false, false⟩ : CanItem) ∧ sendingSrc 11 (.buffer 63) s = true ∧ (canSt 11 s).cur = some (⟨some (⟨.buffer 63, 0, none, false, false, false⟩ : CanItem), (⟨.classical, 0, [], false, 0⟩ : CanFrame), false, false, 0, 0⟩ : CanTry) ∧ (⟨some (⟨.buffer 63, 0, none, false, false, false⟩ : CanItem), (⟨.classical, 0, [], false, 0⟩ : CanFrame), false, false, 0, 0⟩ : CanTry).item = some (⟨.buffer 63, 0, none, false, false, false⟩ : CanItem) ∧ (canSt 11 s).items.find? (fun y => y.seq == (⟨.buffer 63, 0, none, false, false, false⟩ : CanItem).seq) = some (⟨.buffer 63, 0, none, false, false, false⟩ : CanItem) ∧ fget (F.CAN_ERR_TEC 11) (countTxError 11 .ack (updCan 11 (fun y => { y with cur := none }) s)) ≤ 255 ∧ canMode 11 s ≠ 3 ∧ canMode 11 s ≠ 4 ∧ ofNm (⟨.buffer 63, 0, none, false, false, false⟩ : CanItem) = false) ∧
    (let s := st |> fput (F.CAN_CTRL_MODE 11) 4 |> fput (F.CAN_ERR_TEC 11) 255 |> updCan 11 (fun y => { y with items := [(⟨.buffer 63, 0, none, false, false, false⟩ : CanItem)], cur := some (⟨some (⟨.buffer 63, 0, none, false, false, false⟩ : CanItem), (⟨.classical, 0, [], false, 0⟩ : CanFrame), false, false, 0, 0⟩ : CanTry) });
      (canSt 11 s).cur = some (⟨some (⟨.buffer 63, 0, none, false, false, false⟩ : CanItem), (⟨.classical, 0, [], false, 0⟩ : CanFrame), false, false, 0, 0⟩ : CanTry) ∧ (⟨some (⟨.buffer 63, 0, none, false, false, false⟩ : CanItem), (⟨.classical, 0, [], false, 0⟩ : CanFrame), false, false, 0, 0⟩ : CanTry).item = some (⟨.buffer 63, 0, none, false, false, false⟩ : CanItem) ∧ (canSt 11 s).items.find? (fun y => y.seq == (⟨.buffer 63, 0, none, false, false, false⟩ : CanItem).seq) = some (⟨.buffer 63, 0, none, false, false, false⟩ : CanItem) ∧ canMode 11 s = 4 ∧ 255 < fget (F.CAN_ERR_TEC 11) (countTxError 11 .bit1 (updCan 11 (fun y => { y with cur := none }) s))) ∧
    (let s := updCan 11 (fun y => { y with items := [(⟨.wisp 5, 0, none, false, false, false⟩ : CanItem)], cur := some (⟨some (⟨.wisp 5, 0, none, false, false, false⟩ : CanItem), (⟨.classical, 0, [], false, 0⟩ : CanFrame), false, false, 0, 0⟩ : CanTry) }) st;
      (canSt 11 s).cur = some (⟨some (⟨.wisp 5, 0, none, false, false, false⟩ : CanItem), (⟨.classical, 0, [], false, 0⟩ : CanFrame), false, false, 0, 0⟩ : CanTry) ∧ (⟨some (⟨.wisp 5, 0, none, false, false, false⟩ : CanItem), (⟨.classical, 0, [], false, 0⟩ : CanFrame), false, false, 0, 0⟩ : CanTry).item = some (⟨.wisp 5, 0, none, false, false, false⟩ : CanItem) ∧ (canSt 11 s).items.find? (fun y => y.seq == (⟨.wisp 5, 0, none, false, false, false⟩ : CanItem).seq) = some (⟨.wisp 5, 0, none, false, false, false⟩ : CanItem) ∧ (⟨.wisp 5, 0, none, false, false, false⟩ : CanItem).src = .wisp 5 ∧ canMode 11 s ≠ 3 ∧ canMode 11 s ≠ 4) ∧
    (let s := st |> fput (F.CAN_CTRL_EN 11) 1 |> updCan 11 (fun y => { y with refDue := some 7 });
      canMaySend 11 s = true ∧ (canSt 11 s).refDue = some 7) ∧
    (let s := st |> fput (F.CAN_CTRL_EN 11) 1 |> updCan 11 (fun y => { y with items := [(⟨.buffer 63, 0, none, false, false, false⟩ : CanItem)] });
      canMaySend 11 s = true ∧ (canSt 11 s).refDue = none ∧ canChoose 11 s = some (⟨.buffer 63, 0, none, false, false, false⟩ : CanItem) ∧ (canFrameOf 11 (⟨.buffer 63, 0, none, false, false, false⟩ : CanItem) s).1.isSome = true) := by refine ⟨?_, ?_, ?_, ?_, ?_, ?_⟩ <;> decide +kernel

theorem witness_CanTransmit_9 :
    ((canSt 11 st).items = [] ∧ (canSt 11 st).refDue = none ∧ (canSt 11 st).cur = none) ∧
    (let s := updCan 11 (fun y => { y with items := [(⟨.buffer 63, 0, some 0, false, false, false⟩ : CanItem)] }) st;
      (canSt 11 s).items = [(⟨.buffer 63, 0, some 0, false, false, false⟩ : CanItem)] ∧ (⟨.buffer 63, 0, some 0, false, false, false⟩ : CanItem).deadline = some 0 ∧ sendingSrc 11 (⟨.buffer 63, 0, some 0, false, false, false⟩ : CanItem).src s = false ∧ 0 ≤ s.now) := by refine ⟨?_, ?_⟩ <;> decide +kernel

theorem witness_CanErrorsAndSchedule_1 :
    (let s := st |> fput (F.CAN_CTRL_EN 11) 1;
      canOn 11 s = true ∧ canOff 11 s = false ∧ canMode 11 s ≠ 5 ∧ canMode 11 s ≠ 3) ∧
    (let s := st |> fput (F.CAN_CTRL_EN 11) 1 |> fput (F.CAN_ERR_STATE 11) 3;
      fget (F.CAN_ERR_STATE 11) s = 3 ∧ canOn 11 s = true) := by refine ⟨?_, ?_⟩ <;> decide +kernel

theorem witness_CanErrorsAndSchedule_2 :
    (let s := fput (F.CAN_ERR_STATE 11) 2 st;
      Lets .hc (R.CAN_CMD 11) true s ∧ (let u := entered .hc (R.CAN_CMD 11) s; fget (F.CAN_ERR_STATE 11) u = 2)) ∧
    (Lets .hc (R.CAN_CMD 11) true st ∧ (let u := entered .hc (R.CAN_CMD 11) st; fget (F.CAN_ERR_STATE 11) u ≠ 2)) := by refine ⟨?_, ?_⟩ <;> first | exact lets_and (by decide +kernel) | decide +kernel

theorem witness_CanErrorsAndSchedule_3 :
    (let s := st |> fput (F.CAN_CTRL_EN 11) 1 |> fput (F.CAN_CTRL_TT_EN 11) 1 |> updCan 11 (fun y => { y with cycleAt := some 0 });
      (canSt 11 s).cycleAt = some 0 ∧ ftst (F.CAN_CTRL_TT_EN 11) s = true ∧ canOn 11 s = true ∧ 0 + fget (F.CAN_TT_MARK_k 11 31) s ≤ s.now ∧ fget (F.CAN_TT_CELL_y_k_TYPE 11 (fget (F.CAN_TT_STATUS_CYCLE 11) (closeWindow 11 s)) 31) (closeWindow 11 s) ≠ 1) ∧
    (let s := st |> fput (F.CAN_CTRL_EN 11) 1 |> fput (F.CAN_CTRL_TT_EN 11) 1 |> fput (F.CAN_TT_CFG_ROLE 11) 1 |> fput (F.CAN_MB_CTL_b_TYPE 11 63) 3 |> fput (F.CAN_TT_CELL_y_k_TYPE 11 0 31) 1 |> fput (F.CAN_TT_CELL_y_k_MB 11 0 31) 63 |> updCan 11 (fun y => { y with cycleAt := some 0, items := [(⟨.buffer 63, 0, none, false, false, false⟩ : CanItem)] });
      (canSt 11 s).cycleAt = some 0 ∧ canOn 11 s = true ∧ fget (F.CAN_TT_CELL_y_k_TYPE 11 0 31) (closeWindow 11 s) = 1 ∧ (let x := updCan 11 (fun x => { x with window := some ⟨1, 63, 1000, false⟩ }) s; canMaySend 11 x = true ∧ (canChoose 11 x).isSome = true)) ∧
    (let s := st |> fput (F.CAN_CTRL_EN 11) 1 |> fput (F.CAN_CTRL_TT_EN 11) 1 |> fput (F.CAN_TT_CFG_ROLE 11) 1;
      ttMaster 11 s = true ∧ canOn 11 s = true ∧ ttLocked 11 s = false ∧ (canSt 11 s).lastRef = none ∧ canMaySend 11 (updCan 11 (fun x => { x with refNext := (canSt 11 s).refNext + 1 }) s) = true) ∧
    (let s := st |> fput (F.CAN_CTRL_EN 11) 1 |> fput (F.CAN_CTRL_TT_EN 11) 1 |> fput (F.CAN_TT_CFG_ROLE 11) 1 |> fput (F.CAN_TT_CFG_VT_LOCK 11) 1;
      ttMaster 11 s = true ∧ canOn 11 s = true ∧ ttLocked 11 s = true ∧ canMaySend 11 (updCan 11 (fun x => { x with refNext := 1 }) (elapseVt ((ttAnchor 11 s + 0 * ttCycleNs 11 s) * nsUnit) s)) = true) ∧
    (let s := later 3000000000 (st |> fput (F.CAN_CTRL_EN 11) 1 |> fput (F.CAN_CTRL_TT_EN 11) 1 |> fput (F.CAN_TT_STATUS_SYNC 11) 1 |> fput (F.CAN_TT_CYCLE_NS 11) 1000 |> updCan 11 (fun y => { y with lastRef := some 0 }));
      (canSt 11 s).lastRef = some 0 ∧ ftst (F.CAN_CTRL_TT_EN 11) s = true ∧ ftst (F.CAN_TT_CFG_ROLE 11) s = false ∧ ftst (F.CAN_TT_STATUS_SYNC 11) s = true ∧ 0 + ttCycleNs 11 s * 3 / 2 ≤ s.now) := by refine ⟨?_, ?_, ?_, ?_, ?_⟩ <;> decide +kernel

theorem witness_CanErrorsAndSchedule_4 :
    (Lets .hc (R.CAN_CNT_CLR 11) true st ∧ True) := lets_and (by decide +kernel)

theorem witness_LinChannels_1 :
    (let s := st |> fput (F.LIN_CFG_EN 5) 1 |> updLin 5 (fun y => { y with reqs := [(⟨1, 0x61, 8, 0, false, [], false, false⟩ : LinReq)] });
      linOn 5 s = true ∧ linState 5 s = 0 ∧ (linSt 5 s).reqs.find? (fun r => !r.held) = some (⟨1, 0x61, 8, 0, false, [], false, false⟩ : LinReq) ∧ linFree 5 s ≠ 0 ∧ (⟨1, 0x61, 8, 0, false, [], false, false⟩ : LinReq).kind ≠ 0x62) ∧
    (let s := st |> fput (F.LIN_CFG_EN 5) 1 |> updLin 5 (fun y => { y with reqs := [(⟨1, 0x62, 8, 0, false, [], true, false⟩ : LinReq)], resp := List.replicate 16 (⟨1, 0, (0, 0, 0), none⟩ : MailItem) });
      linOn 5 s = true ∧ linState 5 s = 0 ∧ (linSt 5 s).reqs.find? (fun r => !r.held) = some (⟨1, 0x62, 8, 0, false, [], true, false⟩ : LinReq) ∧ (⟨1, 0x62, 8, 0, false, [], true, false⟩ : LinReq).internal = true) ∧
    (let s := updLin 5 (fun y => { y with cur := some (⟨1, 0x60, 8, 0, false, [], false, false⟩ : LinReq) }) st;
      (linSt 5 s).cur = some (⟨1, 0x60, 8, 0, false, [], false, false⟩ : LinReq) ∧ (linSt 5 s).headerEnd ≤ s.now ∧ (⟨1, 0x60, 8, 0, false, [], false, false⟩ : LinReq).kind = 0x60 ∧ (⟨1, 0x60, 8, 0, false, [], false, false⟩ : LinReq).internal = false) ∧
    (let s := later 1000000000 (updLin 5 (fun y => { y with cur := some (⟨1, 0x61, 8, 0, false, [], false, false⟩ : LinReq) }) st);
      (linSt 5 s).cur = some (⟨1, 0x61, 8, 0, false, [], false, false⟩ : LinReq) ∧ (linSt 5 s).headerEnd ≤ s.now ∧ (⟨1, 0x61, 8, 0, false, [], false, false⟩ : LinReq).kind = 0x61 ∧ (linSt 5 s).headerEnd + (10 + fget (F.LIN_CFG_TOL 5) s) * ((⟨1, 0x61, 8, 0, false, [], false, false⟩ : LinReq).len + 1) * linBitNs 5 s ≤ s.now) ∧
    (let s := updLin 5 (fun y => { y with cur := some (⟨1, 0x62, 8, 0, false, [], false, false⟩ : LinReq) }) st;
      (linSt 5 s).cur = some (⟨1, 0x62, 8, 0, false, [], false, false⟩ : LinReq) ∧ (⟨1, 0x62, 8, 0, false, [], false, false⟩ : LinReq).kind = 0x62 ∧ (linSt 5 s).pulseEnd ≤ s.now ∧ (⟨1, 0x62, 8, 0, false, [], false, false⟩ : LinReq).internal = false) ∧
    (let s := updLin 5 (fun y => { y with cur := some (⟨1, 0x62, 8, 0, false, [], true, false⟩ : LinReq) }) st;
      (linSt 5 s).cur = some (⟨1, 0x62, 8, 0, false, [], true, false⟩ : LinReq) ∧ (linSt 5 s).pulseEnd ≤ s.now ∧ (⟨1, 0x62, 8, 0, false, [], true, false⟩ : LinReq).internal = true) := by refine ⟨?_, ?_, ?_, ?_, ?_, ?_⟩ <;> decide +kernel

theorem witness_LinChannels_2 :
    (let s := fput (F.LIN_CFG_EN 5) 1 st;
      linState 5 s = 0 ∧ 150 ≤ 5000 ∧ 5000 ≤ 5000 ∧ linOn 5 s = true ∧ 149 < 150) ∧
    (let s := updLin 5 (fun y => { y with release := some 0 }) st;
      (linSt 5 s).release = some 0 ∧ 0 ≤ s.now) := by refine ⟨?_, ?_⟩ <;> decide +kernel

theorem witness_LinChannels_3 :
    (Lets .hc (R.LIN_CNT_CLR 5) true st ∧ True) := lets_and (by decide +kernel)

theorem witness_CatalogueCommands_1 :
    (Lets .hc R.SIG_CTRL true st ∧ (let u := entered .hc R.SIG_CTRL st; ftst F.SIG_CTRL_EN u = false)) ∧
    (let s := fput F.SIG_CTRL_EN 1 st;
      Lets .hc R.SIG_CTRL true s ∧ (let u := entered .hc R.SIG_CTRL s; ftst F.SIG_CTRL_EN u = true ∧ ftst F.SIG_STATUS_READY u = false ∧ islOpen islMEM u = true)) := by refine ⟨?_, ?_⟩ <;> first | exact lets_and (by decide +kernel) | decide +kernel

theorem witness_CatalogueCommands_2 :
    (let s := st |> fput F.SIG_CTRL_EN 1 |> fput F.SIG_STATUS_READY 1 |> fput F.SIG_CAT_BASE_PAGE 0x1000 |> updSig (fun g => { g with defCmd := some (⟨true, false, 0, [], false⟩ : DefCmd) });
      s.sig.defCmd = some (⟨true, false, 0, [], false⟩ : DefCmd) ∧ islOpen islMEM s = true ∧ (⟨true, false, 0, [], false⟩ : DefCmd).refused = false ∧ ftst F.SIG_CTRL_EN s = true ∧ ftst F.SIG_STATUS_READY s = true ∧ lineMapped false 0 s = true) ∧
    (let s := st |> fput F.SIG_CTRL_EN 1 |> fput F.SIG_STATUS_READY 1 |> fput F.SIG_CAT_BASE_PAGE 0x2000 |> updSig (fun g => { g with defCmd := some (⟨true, false, 0, [], false⟩ : DefCmd) });
      lineMapped false 0 s = false ∧ cached false 0 s = none ∧ s.sig.failed ≠ some (false, 0)) ∧
    (let s := st |> fput F.SIG_CTRL_EN 1 |> fput F.SIG_STATUS_READY 1 |> fput F.SIG_CAT_BASE_PAGE 0x1000 |> updSig (fun g => { g with defCmd := some (⟨false, false, 0, [], false⟩ : DefCmd) });
      (match sigLook false 0 true s with | (.wait, _) => true | _ => false) = true ∧ cached false 0 s = none ∧ s.sig.failed ≠ some (false, 0) ∧ (false, 0) ∉ s.sig.fills) ∧
    (let s := fput F.SIG_CONV_BASE_PAGE 0x1000 st;
      2047 ∉ ([] : List Nat) ∧ inBanks (4096 * fget F.SIG_CONV_BASE_PAGE s + 16 * 2047) 16 = true) := by refine ⟨?_, ?_, ?_, ?_⟩ <;> decide +kernel

theorem witness_CatalogueCommands_3 :
    (Lets .hc R.SIG_CMD true st ∧ True) ∧
    (Lets .hc R.SIG_DEF_CMD true st ∧ (let u := entered .hc R.SIG_DEF_CMD st; u.sig.defCmd = none)) ∧
    (let s := updSig (fun g => { g with defCmd := some (⟨true, true, 0, [], false⟩ : DefCmd) }) st;
      Lets .hc R.SIG_DEF_CMD true s ∧ (let u := entered .hc R.SIG_DEF_CMD s; u.sig.defCmd ≠ none ∧ u.sig.defCmd = some (⟨true, true, 0, [], false⟩ : DefCmd) ∧ islOpen islMEM u = true ∧ (⟨true, true, 0, [], false⟩ : DefCmd).refused = true)) := by refine ⟨?_, ?_, ?_⟩ <;> first | exact lets_and (by decide +kernel) | decide +kernel

theorem witness_CatalogueCommands_4 :
    (let s := st |> fput F.SIG_CTRL_EN 1 |> fput F.SIG_STATUS_READY 1 |> updSig (fun g => { g with defCmd := some (⟨false, false, 0, [], false⟩ : DefCmd), cache := [⟨false, 0, [], false⟩] });
      s.sig.defCmd = some (⟨false, false, 0, [], false⟩ : DefCmd) ∧ islOpen islMEM s = true ∧ (⟨false, false, 0, [], false⟩ : DefCmd).refused = false ∧ ftst F.SIG_CTRL_EN s = true ∧ ftst F.SIG_STATUS_READY s = true ∧ (⟨false, false, 0, [], false⟩ : DefCmd).write = false ∧ (match sigLook false 0 true s with | (.hit _, _) => true | _ => false) = true) ∧
    (let s := updSig (fun g => { g with fills := [(true, 0)] }) st;
      s.sig.fills = (true, 0) :: [] ∧ islOpen islMEM s = true) := by refine ⟨?_, ?_⟩ <;> decide +kernel

theorem witness_CatalogueCommands_5 :
    (Lets .hc R.SIG_CNT_CLR true st ∧ True) := lets_and (by decide +kernel)

theorem witness_LogCommands_1 :
    (let s := fput F.SIG_STATUS_CHAIN_OPEN 1 st;
      Lets .hc R.SIG_CMD true s ∧ (let u := entered .hc R.SIG_CMD s; ftst F.SIG_STATUS_CHAIN_OPEN u = true ∧ u.sig.sealAt = none ∧ u.sig.blk = 0)) ∧
    (let s := fput F.SIG_STATUS_CHAIN_OPEN 1 (updSig (fun g => { g with sealAt := some 0 }) st);
      Lets .hc R.SIG_CMD true s ∧ (let u := entered .hc R.SIG_CMD s; ftst F.SIG_STATUS_CHAIN_OPEN u = true ∧ u.sig.sealAt ≠ none)) := by refine ⟨?_, ?_⟩ <;> first | exact lets_and (by decide +kernel) | decide +kernel

theorem witness_LogCommands_2 :
    (let s := fput F.SIG_CTRL_LOG_EN 1 st;
      ftst F.SIG_CTRL_LOG_EN s = true ∧ s.sig.sealNext ≤ s.time.mraw) ∧
    (let s := later 50000000 (updSig (fun g => { g with sealAt := some 0 }) (mwr 0x01000058 1 st));
      s.sig.sealAt = some 0 ∧ s.sig.sealLate = false ∧ ctlDue s ≠ 0 ∧ 0 + 50000000 ≤ s.now) ∧
    (let s := { st with log := { st.log with sink := [0] } };
      s.log.sink = 0 :: [] ∧ islOpen islMEM s = true ∧ ringFull { s with log := { s.log with sink := [] } } = false ∧ s.sig.ringLoss = 0) ∧
    (let s := updSig (fun g => { g with ringLoss := 1 }) { st with log := { st.log with sink := [0] } };
      s.log.sink = 0 :: [] ∧ islOpen islMEM s = true ∧ ringFull { s with log := { s.log with sink := [] } } = false ∧ s.sig.ringLoss ≠ 0 ∧ lossOf 0 = 0) ∧
    (let s := updSig (fun g => { g with ringLoss := 1 }) { st with log := { st.log with sink := [lossRecord 1 st] } };
      s.log.sink = lossRecord 1 st :: [] ∧ ringFull { s with log := { s.log with sink := [] } } = false ∧ s.sig.ringLoss ≠ 0 ∧ lossOf (lossRecord 1 st) ≠ 0) ∧
    (let s := fput F.SIG_RING_LOG2 4 (updSig (fun g => { g with prod := 16 }) { st with log := { st.log with sink := [0] } });
      s.log.sink = 0 :: [] ∧ ringFull { s with log := { s.log with sink := [] } } = true) := by refine ⟨?_, ?_, ?_, ?_, ?_, ?_⟩ <;> decide +kernel

theorem witness_LogCommands_3 :
    (let s := fput F.SIG_RING_LOG2 16 st;
      Lets .hc R.SIG_CTRL true s ∧ (let u := entered .hc R.SIG_CTRL s; 4 ≤ fget F.SIG_RING_LOG2 u ∧ fget F.SIG_RING_LOG2 u ≤ 16 ∧ ftst F.SIG_CTRL_LOG_EN u = false ∧ u.sig.kept = false)) ∧
    (let s := fput F.SIG_RING_LOG2 17 st;
      Lets .hc R.SIG_CTRL true s ∧ (let u := entered .hc R.SIG_CTRL s; 16 < fget F.SIG_RING_LOG2 u)) ∧
    (let s := fput F.SIG_CTRL_LOG_EN 1 st;
      Lets .hc R.SIG_CTRL true s ∧ (let u := entered .hc R.SIG_CTRL s; ftst F.SIG_CTRL_LOG_EN u = true ∧ 0x20000 / 65536 % 16 = 2 ∧ sinkRoom u = true)) ∧
    (Lets .hc (R.SIG_LOG_PUSH_k 3) true st ∧ (let u := entered .hc (R.SIG_LOG_PUSH_k 3) st; ftst F.SIG_CTRL_LOG_EN u = false)) := by refine ⟨?_, ?_, ?_, ?_⟩ <;> first | exact lets_and (by decide +kernel) | decide +kernel

theorem witness_LogCommands_4 :
    (let s := fput F.SIG_CTRL_LOG_EN 1 { st with log := { st.log with sink := List.replicate 960 0 } };
      ftst F.SIG_CTRL_LOG_EN s = true ∧ sinkRoom s = false ∧ 0x20000 < 2 ^ 32 ∧ 0x20000 / 65536 % 16 = 2) := by decide +kernel

theorem witness_CrashCommands_1 :
    (let s := fput F.SIG_STATUS_CRASH_FROZEN 1 st;
      Lets .hc R.SIG_CMD true s ∧ (let u := entered .hc R.SIG_CMD s; ftst F.SIG_STATUS_CRASH_FROZEN u = true)) ∧
    (let s := updSig (fun g => { g with images := [(⟨6, [], [], .done, 0⟩ : CrashImg)] }) st;
      Lets .hc R.SIG_CMD true s ∧ (let u := entered .hc R.SIG_CMD s; ftst F.SIG_STATUS_CRASH_FROZEN u = false ∧ erasedSlot u = none)) ∧
    (let s := st |> fput F.SYSCTL_XSPI_CAP_SIZE 1 |> fput F.SYSCTL_XSPI_CAP_OK 1;
      Lets .hc R.SIG_CMD true s ∧ (let u := entered .hc R.SIG_CMD s; ftst F.SIG_STATUS_CRASH_FROZEN u = false ∧ erasedSlot u = some 0)) := by refine ⟨?_, ?_, ?_⟩ <;> first | exact lets_and (by decide +kernel) | decide +kernel

theorem witness_CrashCommands_2 :
    (let s := fput F.SYSCTL_XSPI_STAT_CRASH_ACTIVE 1 (updSig (fun g => { g with images := [(⟨6, [], [], .done, 0⟩ : CrashImg)] }) st);
      s.sig.images = (⟨6, [], [], .done, 0⟩ : CrashImg) :: [] ∧ ftst F.SYSCTL_XSPI_STAT_CRASH_ACTIVE s = true) := by decide +kernel

theorem witness_WispRing_1 :
    (let s := st |> fput F.NM_CTRL_EN 1 |> fput (F.NM_SEG_STATUS_s_STATE 12) 1;
      (12 : Fin 35).1 = (12 : Fin 13).1 ∧ ftst F.NM_CTRL_EN s = true ∧ segState 12 s ≠ 0 ∧ segState 12 s ≠ 7 ∧ (seg 12 s).lastSeq.find? (fun p => p.1 == 63) ≠ some (63, 255)) ∧
    (let s := st |> fput F.NM_CTRL_EN 1 |> fput (F.NM_SEG_STATUS_s_STATE 12) 1 |> fput (F.NM_SEG_CTRL_s_CONSENT 12) 1;
      segState 12 s = 1 ∧ ownConsent 12 s = true) ∧
    (let s := st |> fput F.NM_CTRL_EN 1 |> fput (F.NM_SEG_STATUS_s_STATE 12) 1;
      segState 12 s = 1 ∧ ownConsent 12 s = false ∧ (seg 12 s).regen = none) ∧
    (let s := st |> fput F.NM_CTRL_EN 1 |> fput (F.NM_SEG_STATUS_s_STATE 12) 1 |> fput (F.NM_SEG_CTRL_s_CONSENT 12) 1 |> updSeg 12 (fun y => { y with forward := some (255, 0) });
      (seg 12 s).forward = some (255, 0) ∧ 0 ≤ s.now ∧ segState 12 s = 1 ∧ ownConsent 12 (updSeg 12 (fun x => { x with forward := none }) s) = true) ∧
    (let s := st |> fput F.NM_CTRL_EN 1 |> fput (F.NM_SEG_STATUS_s_STATE 12) 2 |> updSeg 12 (fun y => { y with forward := some (0, 0) });
      (seg 12 s).forward = some (0, 0) ∧ 0 ≤ s.now ∧ segState 12 s ≠ 1) ∧
    (let s := st |> fput F.NM_CTRL_EN 1 |> fput (F.NM_SEG_STATUS_s_STATE 12) 1 |> fput (F.NM_SEG_CTRL_s_CONSENT 12) 1 |> fput (F.NM_SEG_CFG_s_NODE_ID 12) 5 |> updSeg 12 (fun y => { y with forward := some (5, 0) });
      ownConsent 12 (updSeg 12 (fun x => { x with forward := none }) s) = true ∧ 5 ≠ 0xFF ∧ 5 = ownNode 12 s) := by refine ⟨?_, ?_, ?_, ?_, ?_, ?_⟩ <;> decide +kernel

theorem witness_WispRing_2 :
    (let s := st |> fput F.NM_CTRL_EN 1 |> fput (F.NM_SEG_STATUS_s_STATE 12) 1 |> fput (F.NM_SEG_CTRL_s_CONSENT 12) 1 |> updSeg 12 (fun y => { y with forward := some (254, 0) });
      ownConsent 12 (updSeg 12 (fun x => { x with forward := none }) s) = true ∧ 254 ≠ 0xFF ∧ 254 ≠ ownNode 12 s) ∧
    (let s := st |> fput F.NM_CTRL_EN 1 |> fput (F.NM_SEG_STATUS_s_STATE 12) 1 |> updSeg 12 (fun y => { y with forward := some (0, 0) });
      (seg 12 s).forward = some (0, 0) ∧ 0 ≤ s.now ∧ segState 12 s = 1 ∧ ownConsent 12 (updSeg 12 (fun x => { x with forward := none }) s) = false) ∧
    (let s := later 1000000000 (st |> fput F.NM_CTRL_EN 1 |> fput (F.NM_SEG_STATUS_s_STATE 12) 1);
      segState 12 s = 1 ∧ ftst F.NM_CTRL_EN s = true ∧ (seg 12 s).regen = none ∧ (seg 12 s).ring + clampNat 10 1000 (fget (F.NM_SEG_TIME_s_RING_MS 12) s) * 1000000 ≤ s.now) ∧
    (let s := st |> fput F.NM_CTRL_EN 1 |> fput (F.NM_SEG_STATUS_s_STATE 12) 1 |> updSeg 12 (fun y => { y with regen := some 0, lastDst := some 63 });
      segState 12 s = 1 ∧ (seg 12 s).regen = some 0 ∧ 0 ≤ s.now ∧ (seg 12 s).lastDst = some 63 ∧ 63 ≠ ownNode 12 s) := by refine ⟨?_, ?_, ?_, ?_⟩ <;> decide +kernel

theorem witness_SegmentSleepAndWake_1 :
    (let s := st |> fput F.NM_CTRL_EN 1 |> fput F.NM_CTRL_CTLBLK_EN 1;
      ftst F.NM_CTRL_EN s = true ∧ ftst F.NM_CTRL_CTLBLK_EN s = true) ∧
    (let s := st |> fput (F.NM_SEG_STATUS_s_STATE 34) 1;
      segState 34 s ≠ 0 ∧ (seg 34 s).minEnd ≤ s.now ∧ segState 34 s = 1) ∧
    (let s := later 1000000000 (st |> fput (F.NM_SEG_STATUS_s_STATE 11) 2);
      segState 11 s = 2 ∧ segSends 11 s = false ∧ (seg 11 s).since + clampNat 20 1000 (fget (F.NM_SEG_TIME_s_PREP_MS 11) s) * 1000000 ≤ s.now ∧ (seg 11 s).latched = none) ∧
    (let s := later 1000000000 (st |> fput (F.NM_SEG_STATUS_s_STATE 34) 2 |> updSeg 34 (fun y => { y with latched := some 1 }));
      segState 34 s = 2 ∧ segSends 34 s = false ∧ (seg 34 s).since + clampNat 20 1000 (fget (F.NM_SEG_TIME_s_PREP_MS 34) s) * 1000000 ≤ s.now ∧ (seg 34 s).latched = some 1 ∧ segState 34 (showLatch 34 (updSeg 34 (fun x => { x with latched := none }) s)) = 2) ∧
    (let s := later 1000000 (st |> fput (F.NM_SEG_STATUS_s_STATE 34) 3);
      segState 34 s = 3 ∧ (seg 34 s).latched = none ∧ (seg 34 s).since + clampNat 10 1000 (fget (F.NM_SEG_TIME3_s_SETTLE_US 34) s) * 1000 ≤ s.now) ∧
    (let s := later 1000000 (st |> fput (F.NM_SEG_STATUS_s_STATE 34) 5);
      segState 34 s = 5 ∧ (seg 34 s).since + clampNat 10 1000 (fget (F.NM_SEG_TIME3_s_WAKE_US 34) s) * 1000 ≤ s.now) := by refine ⟨?_, ?_, ?_, ?_, ?_, ?_⟩ <;> decide +kernel

theorem witness_SegmentSleepAndWake_2 :
    ((2 : Fin 5) = 2 ∧ 28 < (29 : Fin 35).1 ∧ (16 : Fin 35).1 < 17 ∧ 17 ≤ (17 : Fin 35).1 ∧ (28 : Fin 35).1 ≤ 28) ∧
    (let s := st |> fput (F.NM_SEG_STATUS_s_STATE 34) 4;
      segState 34 s = 4) ∧
    (let s := st |> fput (F.NM_SEG_STATUS_s_STATE 34) 6 |> updSeg 34 (fun y => { y with latched := some 1 });
      segState 34 s = 6 ∧ (seg 34 s).latched = some 1) ∧
    (let s := st |> fput (F.NM_SEG_STATUS_s_STATE 34) 7 |> updSeg 34 (fun y => { y with latched := some 1 });
      segState 34 s = 7 ∧ (seg 34 s).latched = some 1) ∧
    (let s := st |> fput (F.NM_SEG_STATUS_s_STATE 34) 4 |> updSeg 34 (fun y => { y with latched := some 1 });
      segState 34 s = 4 ∧ (seg 34 s).latched = some 1) ∧
    (let s := st |> fput (F.NM_SEG_CFG_s_FOLLOW 17) 1 |> fput (F.NM_SEG_CFG_s_PARENT 17) 11;
      parentOf 17 s = some 11 ∧ parentOf 16 s = none) := by refine ⟨?_, ?_, ?_, ?_, ?_, ?_⟩ <;> decide +kernel

theorem witness_SegmentSleepAndWake_3 :
    (let s := st |> fput F.BLW_STATUS_STAGE 2 |> fput F.BLW_NONESS_HI 4;
      blwAsleep 34 s = true) ∧
    (let s := st |> fput (F.NM_SEG_STATUS_s_STATE 34) 3 |> updSeg 34 (fun y => { y with latched := some 1 });
      (seg 34 s).latched = some 1 ∧ segState 34 (showLatch 34 (updSeg 34 (fun x => { x with latched := none }) s)) = 3) ∧
    (let s := later 65535000000000 (st |> fput (F.NM_SEG_STATUS_s_STATE 34) 1 |> fput (F.NM_SEG_TIME2_s_MAX_AWAKE_S 34) 1 |> updSeg 34 (fun y => { y with maxStart := some 0 }));
      (seg 34 s).maxStart = some 0 ∧ fget (F.NM_SEG_TIME2_s_MAX_AWAKE_S 34) s ≠ 0 ∧ segState 34 s = 1 ∧ 0 + (fget (F.NM_SEG_TIME2_s_MAX_AWAKE_S 34) s * 1000000000 - (seg 34 s).maxRun) ≤ s.now) := by refine ⟨?_, ?_, ?_⟩ <;> decide +kernel

theorem witness_SegmentCommands_1 :
    (let s := st |> fput (F.NM_SEG_STATUS_s_STATE 34) 4;
      Lets .hc (R.NM_SEG_CTRL_s 34) true s ∧ (let u := entered .hc (R.NM_SEG_CTRL_s 34) s; segState 34 u = 4 ∧ segState 34 u ≠ 6)) ∧
    (let s := st |> fput (F.NM_SEG_STATUS_s_STATE 34) 6;
      Lets .hc (R.NM_SEG_CTRL_s 34) true s ∧ (let u := entered .hc (R.NM_SEG_CTRL_s 34) s; 4 < segState 34 u ∧ segState 34 u = 6)) ∧
    (let s := st |> fput (F.NM_SEG_STATUS_s_STATE 34) 3;
      Lets .hc (R.NM_SEG_CTRL_s 34) true s ∧ (let u := entered .hc (R.NM_SEG_CTRL_s 34) s; segState 34 u = 3)) ∧
    (Lets .hc (R.NM_SEG_CFG_s 34) true st ∧ (let u := entered .hc (R.NM_SEG_CFG_s 34) st; ftst (F.NM_SEG_CFG_s_EN 34) u = false ∧ segState 34 u = 0 ∧ (seg 34 u).asleep = false ∧ (seg 34 u).level = none)) ∧
    (let s := updSeg 34 (fun y => { y with asleep := true }) st;
      Lets .hc (R.NM_SEG_CFG_s 34) true s ∧ (let u := entered .hc (R.NM_SEG_CFG_s 34) s; segState 34 u = 0 ∧ (seg 34 u).asleep = true)) ∧
    (let s := st |> fput (F.NM_SEG_STATUS_s_STATE 34) 7;
      Lets .hc (R.NM_SEG_CFG_s 34) true s ∧ (let u := entered .hc (R.NM_SEG_CFG_s 34) s; segState 34 u ≠ 0 ∧ ftst (F.NM_SEG_CFG_s_EN 34) u = false)) := by refine ⟨?_, ?_, ?_, ?_, ?_, ?_⟩ <;> first | exact lets_and (by decide +kernel) | decide +kernel

theorem witness_SegmentCommands_2 :
    (let s := fput (F.NM_SEG_CFG_s_EN 34) 1 st;
      Lets .hc (R.NM_SEG_CFG_s 34) true s ∧ (let u := entered .hc (R.NM_SEG_CFG_s 34) s; ftst (F.NM_SEG_CFG_s_EN 34) u = true)) ∧
    (let s := st |> updSeg 11 (fun y => { y with level := some true });
      Lets .hc (R.NM_SEG_CFG_s 11) true s ∧ (let u := entered .hc (R.NM_SEG_CFG_s 11) s; ftst (F.NM_SEG_CFG_s_EN 11) u = false ∧ segState 11 u = 0 ∧ (seg 11 u).level = some true ∧ ftst (F.NM_SEG_CFG_s_STB_POL 11) u = false)) := by refine ⟨?_, ?_⟩ <;> first | exact lets_and (by decide +kernel) | decide +kernel

theorem witness_SegmentCommands_3 :
    (blwAsleep 34 st = false ∧ segState 34 st ≠ 4) := by decide +kernel

theorem witness_SegmentCommands_4 :
    (Lets .hc R.NM_CNT_CLR true st ∧ True) := lets_and (by decide +kernel)

theorem witness_LoadChannelCommandsAndFieldInputs_1 :
    (let s := updPd (fun y => { y with cq := y.cq.set 3 (List.replicate 32 (⟨0, 7, 0, 0, 0⟩ : PdCmd)) }) st;
      Lets .hc (R.LOADCH_CQ_W_q_k 3 3) true s ∧ (let u := entered .hc (R.LOADCH_CQ_W_q_k 3 3) s; 32 ≤ u.pd.cq[3].length)) ∧
    (let s := updPd (fun y => { y with cq := y.cq.set 3 (List.replicate 31 (⟨0, 7, 0, 0, 0⟩ : PdCmd)) }) st;
      Lets .hc (R.LOADCH_CQ_W_q_k 3 3) true s ∧ (let u := entered .hc (R.LOADCH_CQ_W_q_k 3 3) s; u.pd.cq[3].length < 32)) := by refine ⟨?_, ?_⟩ <;> first | exact lets_and (by decide +kernel) | decide +kernel

theorem witness_LoadChannelCommandsAndFieldInputs_2 :
    (let s := later 1000000 (st |> fput F.LOADCH_STATUS_LANE_A 1 |> updPd (fun y => { y with cq := y.cq.set 3 [(⟨0x62F, 7, 0, 0, 0⟩ : PdCmd)] }));
      pdHead 3 s = some (⟨0x62F, 7, 0, 0, 0⟩ : PdCmd) ∧ laneAlive s = true ∧ s.pd.lastApply + 1000 ≤ s.now ∧ bits 0x62F 11 8 = (6 : Fin 7).1 ∧ bits 0x62F 11 8 ≠ (5 : Fin 7).1 ∧ bits 0x62F 11 8 ≤ 6 ∧ 0 + 1000000 ≤ s.now) ∧
    (let s := later 1000 (st |> fput F.LOADCH_STATUS_LANE_A 1 |> updPd (fun y => { y with nmq := [47] }));
      (pdHead 4 s).isSome = true ∧ laneAlive s = true ∧ s.pd.lastApply + 1000 ≤ s.now) ∧
    (fget F.HERON_STATUS_STATE st ≠ 3 ∧ ftst (F.FIO_DI_CFG_i_EN 47) st = false ∧ (Vector.replicate 48 2000)[47] ≤ 2000 ∧ ¬(Vector.replicate 48 4500)[47] ≤ 2000 ∧ 4500 ≤ (Vector.replicate 48 4500)[47] ∧ ¬4500 ≤ (Vector.replicate 48 2001)[47] ∧ 5000000 < 5000001 ∧ aiCode 0 0 < fget (F.FIO_AI_WIN_j_LO 15) (fput (F.FIO_AI_WIN_j_LO 15) 4095 st)) ∧
    (let s := st |> fput (F.FIO_DI_CFG_i_EN 47) 1 |> fput (F.FIO_DI_CFG_i_DEB 47) 1;
      ftst (F.FIO_DI_CFG_i_EN 47) s = true ∧ max 1 (fget (F.FIO_DI_CFG_i_DEB 47) s) ≤ 1) ∧
    (let s := st |> fput (F.FIO_DI_CFG_i_EN 47) 1 |> fput (F.FIO_DI_CFG_i_DEB 47) 2;
      1 < max 1 (fget (F.FIO_DI_CFG_i_DEB 47) s)) ∧
    (let s := st |> fput (F.FIO_AI_CFG_j_EN 15) 1 |> fput (F.FIO_AI_WIN_j_LO 15) 4095;
      fget F.HERON_STATUS_STATE s ≠ 3 ∧ ftst (F.FIO_AI_CFG_j_EN 15) s = true ∧ fget (F.FIO_AI_CFG_j_AVG 15) s = 0 ∧ aiCode 4999000 0 < fget (F.FIO_AI_WIN_j_LO 15) s ∧ s.fio.out.getLsbD 15 = false) := by refine ⟨?_, ?_, ?_, ?_, ?_, ?_⟩ <;> decide +kernel

theorem witness_LoadChannelOutcomes_1 :
    (cstate st ≠ 2) ∧
    (let s := st |> fput F.LOADCH_STATUS_LANE_A 1 |> fput F.LOADCH_STATUS_CSTATE 2 |> wr (R.LOADCH_CQ_MASK_HI_q 3) 0xFFFF |> wr (R.LOADCH_CQ_MASK_LO_q 3) 0xFFFFFFFF;
      cstate s = 2 ∧ pdFormOk (⟨38, 7, 0, 0, 0⟩ : PdCmd) = false ∧ bits (⟨38, 7, 0, 0, 0⟩ : PdCmd).w0 5 0 = 38 ∧ pdFormOk (⟨0x40, 7, 0, 0, 0⟩ : PdCmd) = false) ∧
    (let s := fput F.LOADCH_STATUS_CSTATE 2 st;
      cstate s = 2 ∧ pdFormOk (⟨47, 7, 0, 0, 0⟩ : PdCmd) = true ∧ (3 : Fin 5).1 < 4 ∧ cqAllowed 3 47 s = false) ∧
    (let s := st |> fput F.LOADCH_STATUS_LANE_A 1 |> fput F.LOADCH_STATUS_CSTATE 2 |> wr (R.LOADCH_CQ_MASK_HI_q 3) 0xFFFF |> wr (R.LOADCH_CQ_MASK_LO_q 3) 0xFFFFFFFF;
      cstate s = 2 ∧ pdFormOk (⟨47, 7, 0, 0, 0⟩ : PdCmd) = true ∧ cqAllowed 3 47 s = true ∧ bits (⟨47, 7, 0, 0, 0⟩ : PdCmd).w0 5 0 = 47 ∧ bits (⟨47, 7, 0, 0, 0⟩ : PdCmd).w0 11 8 = 0) ∧
    (let s := st |> fput F.LOADCH_STATUS_LANE_A 1 |> fput F.LOADCH_STATUS_CSTATE 2 |> wr (R.LOADCH_CQ_MASK_HI_q 3) 0xFFFF |> wr (R.LOADCH_CQ_MASK_LO_q 3) 0xFFFFFFFF;
      cstate s = 2 ∧ pdFormOk (⟨0x22F, 7, 1025, 0, 0⟩ : PdCmd) = true ∧ cqAllowed 3 47 s = true ∧ bits (⟨0x22F, 7, 1025, 0, 0⟩ : PdCmd).w0 5 0 = 47 ∧ pdValid 47 (⟨0x22F, 7, 1025, 0, 0⟩ : PdCmd) s = false) ∧
    (let s := st |> fput F.LOADCH_STATUS_LANE_A 1 |> fput F.LOADCH_STATUS_CSTATE 2 |> wr (R.LOADCH_CQ_MASK_HI_q 3) 0xFFFF |> wr (R.LOADCH_CQ_MASK_LO_q 3) 0xFFFFFFFF |> fput (F.LOADCH_CH_STAT_n_CAUSE 31) 1;
      cstate s = 2 ∧ pdFormOk (⟨0x31F, 7, 0, 0, 0⟩ : PdCmd) = true ∧ cqAllowed 3 31 s = true ∧ bits (⟨0x31F, 7, 0, 0, 0⟩ : PdCmd).w0 5 0 = 31 ∧ bits (⟨0x31F, 7, 0, 0, 0⟩ : PdCmd).w0 11 8 = 3 ∧ isHb 31 = false ∧ chLatched 31 s = true ∧ fget (F.LOADCH_CH_STAT_n_CAUSE 31) s = causeTrip) := by refine ⟨?_, ?_, ?_, ?_, ?_, ?_⟩ <;> decide +kernel

theorem witness_LoadChannelOutcomes_2 :
    (let s := st |> fput F.LOADCH_STATUS_LANE_A 1 |> fput F.LOADCH_STATUS_CSTATE 2 |> wr (R.LOADCH_CQ_MASK_HI_q 3) 0xFFFF |> wr (R.LOADCH_CQ_MASK_LO_q 3) 0xFFFFFFFF;
      cstate s = 2 ∧ pdFormOk (⟨0x12F, 7, 0, 0, 0⟩ : PdCmd) = true ∧ cqAllowed 3 47 s = true ∧ bits (⟨0x12F, 7, 0, 0, 0⟩ : PdCmd).w0 5 0 = 47 ∧ bits (⟨0x12F, 7, 0, 0, 0⟩ : PdCmd).w0 11 8 = 1 ∧ chLatched 47 s = false ∧ chBarred 47 s = false) ∧
    (let s := st |> fput F.LOADCH_STATUS_LANE_A 1 |> fput F.LOADCH_STATUS_CSTATE 2 |> wr (R.LOADCH_CQ_MASK_HI_q 3) 0xFFFF |> wr (R.LOADCH_CQ_MASK_LO_q 3) 0xFFFFFFFF |> fput (F.LOADCH_CH_STAT_n_SHED_SRC 47) 1;
      chLatched 47 s = false ∧ chBarred 47 s = true) ∧
    (let s := st |> fput F.LOADCH_STATUS_LANE_A 1 |> fput F.LOADCH_STATUS_CSTATE 2 |> wr (R.LOADCH_CQ_MASK_HI_q 3) 0xFFFF |> wr (R.LOADCH_CQ_MASK_LO_q 3) 0xFFFFFFFF;
      cstate s = 2 ∧ pdFormOk (⟨0x22F, 7, 1024, 0, 0⟩ : PdCmd) = true ∧ cqAllowed 3 47 s = true ∧ bits (⟨0x22F, 7, 1024, 0, 0⟩ : PdCmd).w0 5 0 = 47 ∧ bits (⟨0x22F, 7, 0, 0, 0⟩ : PdCmd).w0 11 8 = 2 ∧ pdValid 47 (⟨0x22F, 7, 1024, 0, 0⟩ : PdCmd) s = true ∧ 0 < bits (⟨0x22F, 7, 1024, 0, 0⟩ : PdCmd).w2 10 0) ∧
    (let s := st |> fput F.LOADCH_STATUS_LANE_A 1 |> fput F.LOADCH_STATUS_CSTATE 2 |> wr (R.LOADCH_CQ_MASK_HI_q 3) 0xFFFF |> wr (R.LOADCH_CQ_MASK_LO_q 3) 0xFFFFFFFF |> fput (F.LOADCH_CH_STAT_n_CAUSE 31) causeI2t |> updCh 31 (fun c => { c with w := 1 });
      fget (F.LOADCH_CH_STAT_n_CAUSE 31) s = causeI2t ∧ (fget (F.LOADCH_I2T_B_n_W_CLR 31) s : Rat) ≤ (pdCh 31 s).w * 256) ∧
    (let s := st |> fput F.LOADCH_STATUS_LANE_A 1 |> fput F.LOADCH_STATUS_CSTATE 2 |> wr (R.LOADCH_CQ_MASK_HI_q 3) 0xFFFF |> wr (R.LOADCH_CQ_MASK_LO_q 3) 0xFFFFFFFF |> fput (F.LOADCH_CH_CFG_n_CLASS 47) 4;
      cstate s = 2 ∧ pdFormOk (⟨0x42F, 7, 0, 0, 0⟩ : PdCmd) = true ∧ cqAllowed 3 47 s = true ∧ bits (⟨0x42F, 7, 0, 0, 0⟩ : PdCmd).w0 5 0 = 47 ∧ bits (⟨0x42F, 7, 0, 0, 0⟩ : PdCmd).w0 11 8 = 4 ∧ 4 ≤ chClass 47 s) ∧
    (let s := st |> fput F.LOADCH_STATUS_LANE_A 1 |> fput F.LOADCH_STATUS_CSTATE 2 |> wr (R.LOADCH_CQ_MASK_HI_q 3) 0xFFFF |> wr (R.LOADCH_CQ_MASK_LO_q 3) 0xFFFFFFFF |> fput (F.LOADCH_CH_CFG_n_CLASS 47) 3 |> fput F.LOADCH_CTRL_TEST_CLASS 8;
      chClass 47 s < 4 ∧ fbit F.LOADCH_CTRL_TEST_CLASS (chClass 47 s) s = true ∧ chOn 47 s = false) := by refine ⟨?_, ?_, ?_, ?_, ?_, ?_⟩ <;> decide +kernel

theorem witness_LoadChannelOutcomes_3 :
    (let s := st |> fput F.LOADCH_STATUS_LANE_A 1 |> fput F.LOADCH_STATUS_CSTATE 2 |> wr (R.LOADCH_CQ_MASK_HI_q 3) 0xFFFF |> wr (R.LOADCH_CQ_MASK_LO_q 3) 0xFFFFFFFF |> updCh 47 (fun c => { c with cmd := .high }) |> fput (F.LOADCH_CH_CFG_n_CLASS 47) 3 |> fput F.LOADCH_CTRL_TEST_CLASS 8;
      cstate s = 2 ∧ pdFormOk (⟨0x42F, 7, 0, 0, 0⟩ : PdCmd) = true ∧ cqAllowed 3 47 s = true ∧ bits (⟨0x42F, 7, 0, 0, 0⟩ : PdCmd).w0 5 0 = 47 ∧ chClass 47 s < 4 ∧ fbit F.LOADCH_CTRL_TEST_CLASS (chClass 47 s) s = true ∧ chOn 47 s = true) ∧
    (let s := st |> fput F.LOADCH_STATUS_LANE_A 1 |> fput F.LOADCH_STATUS_CSTATE 2 |> wr (R.LOADCH_CQ_MASK_HI_q 3) 0xFFFF |> wr (R.LOADCH_CQ_MASK_LO_q 3) 0xFFFFFFFF;
      cstate s = 2 ∧ pdFormOk (⟨0x525, 7, 0, 2, 0⟩ : PdCmd) = true ∧ cqAllowed 3 37 s = true ∧ bits (⟨0x525, 7, 0, 2, 0⟩ : PdCmd).w0 5 0 = 37 ∧ bits (⟨0x525, 7, 0, 2, 0⟩ : PdCmd).w0 11 8 = 5 ∧ pdValid 37 (⟨0x525, 7, 0, 2, 0⟩ : PdCmd) s = true ∧ bits (⟨0x525, 7, 0, 2, 0⟩ : PdCmd).w3 2 0 = 2 ∧ chLatched 37 s = false ∧ chBarred 37 s = false) ∧
    (let s := st |> fput F.LOADCH_STATUS_LANE_A 1 |> fput F.LOADCH_STATUS_CSTATE 2 |> wr (R.LOADCH_CQ_MASK_HI_q 3) 0xFFFF |> wr (R.LOADCH_CQ_MASK_LO_q 3) 0xFFFFFFFF;
      cstate s = 2 ∧ pdFormOk (⟨0x624, 7, 0, 0, 0⟩ : PdCmd) = true ∧ cqAllowed 3 36 s = true ∧ bits (⟨0x624, 7, 0, 0, 0⟩ : PdCmd).w0 5 0 = 36 ∧ bits (⟨0x624, 7, 0, 0, 0⟩ : PdCmd).w0 11 8 = 6 ∧ pdValid 36 (⟨0x624, 7, 0, 0, 0⟩ : PdCmd) s = true ∧ bits (⟨0x624, 7, 0, 0, 0⟩ : PdCmd).w3 2 0 = 0) ∧
    (let s := st |> fput F.LOADCH_STATUS_LANE_A 1 |> fput F.LOADCH_STATUS_CSTATE 2 |> wr (R.LOADCH_CQ_MASK_HI_q 3) 0xFFFF |> wr (R.LOADCH_CQ_MASK_LO_q 3) 0xFFFFFFFF;
      cstate s = 2 ∧ pdFormOk (⟨0x624, 7, 0, 4, 0⟩ : PdCmd) = true ∧ cqAllowed 3 36 s = true ∧ bits (⟨0x624, 7, 0, 4, 0⟩ : PdCmd).w0 5 0 = 36 ∧ pdValid 36 (⟨0x624, 7, 0, 4, 0⟩ : PdCmd) s = true ∧ bits (⟨0x624, 7, 0, 4, 0⟩ : PdCmd).w3 2 0 = 4 ∧ chLatched 36 s = false ∧ chLatched (hbPartner 36) s = false ∧ chBarred 36 s = false ∧ chBarred (hbPartner 36) s = false) := by refine ⟨?_, ?_, ?_, ?_⟩ <;> decide +kernel

theorem witness_LoadChannelProtection_1 :
    (let s := st |> fput F.LOADCH_STATUS_LANE_A 1 |> fput F.LOADCH_STATUS_CSTATE 2 |> wr (R.LOADCH_CQ_MASK_HI_q 3) 0xFFFF |> wr (R.LOADCH_CQ_MASK_LO_q 3) 0xFFFFFFFF |> updCh 47 (fun c => { c with cmd := .high });
      chExists 47 = true ∧ chWanted 47 s = true ∧ chOn 47 s = true ∧ 5 * iR 47 s < 2 * 1000000 ∧ tripThreshold 47 s < 1000000 ∧ clampNat 16 16000 (fget (F.LOADCH_TRIP_n_T_TRIP 47) s) ≤ 16000 ∧ 15 < clampNat 16 16000 (fget (F.LOADCH_TRIP_n_T_TRIP 47) s) ∧ 2 * 0 ≤ 5 * iR 47 s) ∧
    (let s := later 1000000 (st |> fput F.LOADCH_STATUS_LANE_A 1 |> fput F.LOADCH_STATUS_CSTATE 2 |> wr (R.LOADCH_CQ_MASK_HI_q 3) 0xFFFF |> wr (R.LOADCH_CQ_MASK_LO_q 3) 0xFFFFFFFF |> updCh 47 (fun c => { c with cmd := .high }));
      isGd 47 = true ∧ fget (F.LOADCH_GD_VDS_n_VDS_TH 47) s < 10000 ∧ turnedOn 47 s = some 0 ∧ 0 + fget (F.LOADCH_GD_VDS_n_VDS_BLANK 47) s * 1000 ≤ s.now) ∧
    (turnedOn 47 st = none ∧ chWanted 47 st = false) ∧
    (isHb 31 = false ∧ chLatched 31 st = false ∧ (7 : Fin 8) ≠ 0) ∧
    (let s := fput (F.LOADCH_CH_STAT_n_CAUSE 47) 1 st;
      chLatched 47 s = true) ∧
    (let s := st |> fput (F.LOADCH_I2T_A_n_I_W 47) 1 |> fput (F.LOADCH_I2T_A_n_TAU 47) 1000;
      chExists 47 = true ∧ fget (F.LOADCH_I2T_A_n_I_W 47) s ≠ 0 ∧ fget (F.LOADCH_I2T_A_n_I_W 47) s * curUnit 47 ≠ 0 ∧ fget (F.LOADCH_I2T_A_n_TAU 47) s = 1000) := by refine ⟨?_, ?_, ?_, ?_, ?_, ?_⟩ <;> decide +kernel

theorem witness_LoadChannelProtection_2 :
    (let s := fput (F.LOADCH_CH_STAT_n_INRUSH 47) 1 st;
      ftst (F.LOADCH_CH_STAT_n_INRUSH 47) s = true ∧ (pdCh 47 s).inrushEnd ≤ s.now) ∧
    (let s := st |> fput F.LOADCH_STATUS_LANE_A 1 |> fput F.LOADCH_STATUS_CSTATE 2 |> wr (R.LOADCH_CQ_MASK_HI_q 3) 0xFFFF |> wr (R.LOADCH_CQ_MASK_LO_q 3) 0xFFFFFFFF |> updCh 47 (fun c => { c with cmd := .high });
      chExists 47 = true ∧ longPhase 47 s = true ∧ ftst (F.LOADCH_CH_STAT_n_OPEN_ON 47) s = false) ∧
    (let s := st |> fput (F.LOADCH_CH_CFG_n_OL_OFF_EN 47) 1;
      chExists 47 = true ∧ chOn 47 s = false ∧ ftst (F.LOADCH_CH_CFG_n_OL_OFF_EN 47) s = true ∧ chLatched 47 s = false) ∧
    (let s := updPd (fun y => { y with tests := [⟨3, 7, 47, 0, some 0⟩] }) st;
      s.pd.tests.find? (fun t => t.ch == 47) = some ⟨3, 7, 47, 0, some 0⟩ ∧ 0 ≤ s.now) ∧
    (let s := later 100000000 (updCh 47 (fun c => { c with inrushEnd := 100000000 }) (updPd (fun y => { y with tests := [⟨3, 7, 47, 0, none⟩] }) st));
      s.pd.tests.find? (fun t => t.ch == 47 && t.pulse.isNone) = some ⟨3, 7, 47, 0, none⟩ ∧ 0 + 100000000 ≤ (pdCh 47 s).inrushEnd ∧ 0 + 100000000 ≤ s.now) ∧
    (chExists 47 = true ∧ chExists 0 = true) := by refine ⟨?_, ?_, ?_, ?_, ?_, ?_⟩ <;> decide +kernel

theorem witness_LoadChannelLimits_1 :
    ((89 : Int) < tgWarnAt 5 st ∧ 89 < tgLimitAt 5 st - 10 ∧ st.pd.tgHeld[5] = false) ∧
    (tgLimitAt 5 st ≤ 169 ∧ (169 : Int) < 170 ∧ ftst (F.LOADCH_TG_STAT_g_LIMIT 5) st = false) ∧
    (let s := updPd (fun y => { y with tgDue := y.tgDue.set 5 (some 0) }) st;
      s.pd.tgDue[5] = some 0 ∧ 0 ≤ s.now) ∧
    (let s := st |> fput F.LOADCH_STATUS_LANE_A 1 |> fput F.LOADCH_STATUS_CSTATE 2 |> wr (R.LOADCH_CQ_MASK_HI_q 3) 0xFFFF |> wr (R.LOADCH_CQ_MASK_LO_q 3) 0xFFFFFFFF |> updCh 47 (fun c => { c with cmd := .high });
      shedPick (fun _ => true) s = some 47) ∧
    (shedPick (fun _ => true) st = none) ∧
    (let s := fput F.LOADCH_BUDGET_P_WARN 1000 (updPd (fun p => { p with win := List.replicate 1000 (pBudget st - 500) }) st);
      (let l := forCh (fun n s => updCh n (fun c => { c with loss := chLoss n s }) s) s; let x := updPd (fun p => { p with win := (pNow l :: p.win).take 1000 }) l; let y := fput F.LOADCH_POWER_P_AVG (min 0xFFFF (roundNearest (pAvg x)).toNat) (fput F.LOADCH_POWER_P_NOW (min 0xFFFF (roundNearest (pNow x)).toNat) x); pAvg x ≤ pWarn y ∧ pBudget y - 1000 ≤ pAvg x ∧ pAvg x ≤ pBudget y)) := by refine ⟨?_, ?_, ?_, ?_, ?_, ?_⟩ <;> decide +kernel

theorem witness_LoadChannelLimits_2 :
    (let s := updPd (fun y => { y with budgetOn := true }) st;
      s.pd.budgetOn = true ∧ s.pd.budgetDue ≤ s.now) ∧
    (let s := updCh 47 (fun c => { c with wait := true }) st;
      ([4, 3, 2, 1, 0].flatMap fun c => allCh.filter fun n => chClass n s == c).find? (fun n => (pdCh n s).wait) = some 47 ∧ s.pd.nextRestore ≤ s.now) := by refine ⟨?_, ?_⟩ <;> decide +kernel

theorem witness_LoadChannelControl_1 :
    (let s := st |> fput F.LOADCH_STATUS_LANE_A 1;
      Lets .hc R.LOADCH_CTRL true s ∧ (let u := entered .hc R.LOADCH_CTRL s; cstate u ≠ 2 ∧ laneAlive u = true)) ∧
    (let s := fput F.LOADCH_STATUS_LANE_A 0 (fput F.LOADCH_STATUS_LANE_B 0 st);
      Lets .hc R.LOADCH_CTRL true s ∧ (let u := entered .hc R.LOADCH_CTRL s; cstate u ≠ 2 ∧ laneAlive u = false)) ∧
    (let s := fput F.LOADCH_STATUS_CSTATE 2 st;
      Lets .hc R.LOADCH_CTRL true s ∧ (let u := entered .hc R.LOADCH_CTRL s; cstate u = 2)) := by refine ⟨?_, ?_, ?_⟩ <;> first | exact lets_and (by decide +kernel) | decide +kernel

theorem witness_LoadChannelControl_2 :
    (let s := later 1000000 (st |> fput F.LOADCH_STATUS_LANE_A 0 |> fput F.LOADCH_STATUS_LANE_B 0 |> fput F.LOADCH_STATUS_CSTATE 2);
      cstate s = 2 ∧ laneAlive s = false ∧ s.pd.silent + 1000000 ≤ s.now) ∧
    (let s := st |> fput F.LOADCH_STATUS_LANE_A 1 |> fput F.LOADCH_STATUS_CSTATE 3;
      laneAlive s = true ∧ cstate s = 3) ∧
    (let s := updCh 47 (fun c => { c with holdDue := some 0 }) st;
      (pdCh 47 s).holdDue = some 0 ∧ 0 ≤ s.now) ∧
    (st.pd.tests = []) ∧
    (let s := st |> fput F.LOADCH_STATUS_LANE_B 1;
      ftst F.LOADCH_STATUS_LANE_B s = true) ∧
    (let s := updPd (fun y => { y with stageCnt := Vector.replicate 4 100 }) st;
      cstate s ≠ 2 ∧ s.pd.stageIn[3] = false ∧ 5499 < s.pd.th[3] ∧ s.pd.stageCnt[3] = 100) := by refine ⟨?_, ?_, ?_, ?_, ?_, ?_⟩ <;> decide +kernel

theorem witness_LoadChannelControl_3 :
    (let s := st |> fput F.LOADCH_OTP_IDX 47 |> fput F.BLW_VBAT_MV 16000;
      Lets .hc R.LOADCH_OTP_CMD true s ∧ (let u := entered .hc R.LOADCH_OTP_CMD s; fget F.LOADCH_OTP_IDX u = 47 ∧ chExists 47 = true ∧ u.pd.otp[47] = none ∧ initWorld .hc u = true ∧ 12000 ≤ fget F.BLW_VBAT_MV u ∧ fget F.BLW_VBAT_MV u ≤ 16000)) ∧
    (let s := st |> fput F.LOADCH_OTP_IDX 47 |> updPd (fun y => { y with otp := y.otp.set 47 (some (1, 2, 3, 4)) });
      Lets .hc R.LOADCH_OTP_CMD true s ∧ (let u := entered .hc R.LOADCH_OTP_CMD s; fget F.LOADCH_OTP_IDX u = 47 ∧ chExists 47 = true ∧ u.pd.otp[47] = some (1, 2, 3, 4))) ∧
    (Lets .hc R.LOADCH_CNT_CLR true st ∧ True) := by refine ⟨?_, ?_, ?_⟩ <;> first | exact lets_and (by decide +kernel) | decide +kernel

theorem witness_BusAccesses_1 :
    ((0x01000001#40).toNat % accBytes .word ≠ 0 ∧ (0x28000000#40).toNat % accBytes .word = 0 ∧ ownEntryAddr (0x28000000#40).toNat st = none ∧ ownEntryAddr 0x27FFFFFC st ≠ none) := by decide +kernel

theorem witness_BusAccesses_2 :
    (Lets (.hart 7) 0x27FFFFFC true st ∧ 0x20000000 ≤ 0x27FFFFFC ∧ 0x27FFFFFC < 0x28000000) ∧
    (Lets (.hart 7) 0x013FFFFF true st ∧ 0x013FFFFF % accBytes .byte = 0 ∧ inBanks 0x013FFFFF (accBytes .byte) = true) := by refine ⟨?_, ?_⟩ <;> first | exact lets_and (by decide +kernel) | decide +kernel

theorem witness_BusAccesses_3 :
    (let s := fput F.OWN_CTRL_EN 1 (updHart 7 (fun h => { h with world := false }) st);
      ownEntryAddr 0x01000000 s ≠ none ∧ (initCheck (.hart 7) 0x01000000 true s).1 = false) ∧
    (let s := updIslT 0 .off st;
      (initCheck .hc 0x02BFFFFC true s).1 = true ∧ ownEntryAddr 0x02BFFFFC s ≠ none) ∧
    (let s := updIslT (engIsl 23) .off st;
      (initCheck .hc 0x02BFFFFC true s).1 = true ∧ ownEntryAddr 0x02BFFFFC s ≠ none ∧ homeOpen 0x02BFFFFC (initCheck .hc 0x02BFFFFC true s).2 = false) := by refine ⟨?_, ?_, ?_⟩ <;> decide +kernel

theorem witness_BusAccesses_4 :
    (Lets .hc R.MEM_EVENT true st ∧ (let u := entered .hc R.MEM_EVENT st; initWorld .hc (ok u) = true)) ∧
    (Lets .hc (R.FIO_AI_WIN_j 0) true st ∧ (let u := entered .hc (R.FIO_AI_WIN_j 0) st; cwyPosted (R.FIO_AI_WIN_j 0) u = false)) ∧
    (Lets .hc R.MEM_UNMAP_CNT true st ∧ (let u := entered .hc R.MEM_UNMAP_CNT st; initWorld .hc (ok u) = true ∧ 2 % 2 = 0 ∧ 0xFFFF < 2 ^ (8 * 2) ∧ 31 < 32)) := by refine ⟨?_, ?_, ?_⟩ <;> first | exact lets_and (by decide +kernel) | decide +kernel

theorem witness_BusAccesses_5 :
    (let s := { st with own := { st.own with lc := 1 } };
      debugPort s = true ∧ islOpen islMEM s = true) ∧
    (let s := updIslT islMEM .off { st with own := { st.own with lc := 3 } };
      debugPort s = true ∧ islOpen islMEM s = false) ∧
    (let s := { st with own := { st.own with lc := 2 } };
      debugPort s = false) := by refine ⟨?_, ?_, ?_⟩ <;> decide +kernel

theorem witness_BusAccesses_6 :
    (let s := { st with own := { st.own with lc := 1 } };
      Lets .debug 0x013FFFFC false s ∧ (let u := entered .debug 0x013FFFFC s; debugPort u = true ∧ islOpen islMEM u = true ∧ 0x013FFFFC % accBytes .word = 0 ∧ inBanks 0x013FFFFC (accBytes .word) = true)) := lets_and (by decide +kernel)

theorem witness_TcmCopiesAndScrubbing_1 :
    (Lets (.hart 7) R.MEM_TCMCPY_CTL true st ∧ (let u := entered (.hart 7) R.MEM_TCMCPY_CTL st; initWorld (.hart 7) (ok u) = false)) ∧
    (let s := fput F.MEM_TCMCPY_STAT_BUSY 1 st;
      Lets .hc R.MEM_TCMCPY_CTL true s ∧ (let u := entered .hc R.MEM_TCMCPY_CTL s; initWorld .hc (ok u) = true ∧ ftst F.MEM_TCMCPY_STAT_BUSY u = true)) ∧
    (let s := st |> fput F.MEM_TCMCPY_DST_TARGET 4 |> fput F.MEM_TCMCPY_SRC_LO 0x01000000;
      Lets .hc R.MEM_TCMCPY_CTL true s ∧ (let u := entered .hc R.MEM_TCMCPY_CTL s; initWorld .hc (ok u) = true ∧ ftst F.MEM_TCMCPY_STAT_BUSY u = false ∧ (let v := fput F.MEM_TCMCPY_CTL_LEN 0x40000 (ok u); (tcmOpen (fget F.MEM_TCMCPY_DST_TARGET v) v && tcmFits (fget F.MEM_TCMCPY_DST_TARGET v) (fget F.MEM_TCMCPY_DST_OFS v) 0x40000) = true) ∧ 0x40000 % 16 = 0 ∧ 0x3FFF8 % 16 ≠ 0 ∧ tcmOpen 4 u = true)) := by refine ⟨?_, ?_, ?_⟩ <;> first | exact lets_and (by decide +kernel) | decide +kernel

theorem witness_TcmCopiesAndScrubbing_2 :
    (let s := updCwy (fun c => { c with copy := some ⟨0x01000000, 16, 4, 0⟩ }) st;
      s.cwy.copy = some ⟨0x01000000, 16, 4, 0⟩ ∧ tcmOpen 4 s = true ∧ (unitRead ⟨16, 0x40, true, 0⟩ 0x01000000 16 s).1.isSome = true) ∧
    (let s := updCwy (fun c => { c with copy := some ⟨0x01000000, 16, 2, 0⟩ }) st;
      s.cwy.copy = some ⟨0x01000000, 16, 2, 0⟩ ∧ tcmOpen 2 s = false) ∧
    (let s := updIslT (islL 3) .reset st;
      tcmOpen 3 s = true ∧ tcmOpen 2 s = false) ∧
    (let s := st |> fput F.MEM_SCRUB_EN 1 |> fput F.MEM_DRAM_CFG_SIZE 1 |> fput F.MEM_DRAM_CFG_TRAINED 1;
      ftst F.MEM_SCRUB_EN s = true ∧ inDram 0x800000000 8 s = true) := by refine ⟨?_, ?_, ?_, ?_⟩ <;> decide +kernel

theorem witness_BankAtomicsOfProcessors_1 :
    (let s := { st with cwy := { st.cwy with atom := [(12, (0x3FFFFC, 0, 0))] } };
      Lets .hc R.MEM_ATOM_AADD true s ∧ (let u := entered .hc R.MEM_ATOM_AADD s; (sget (fun _ => (0, 0, 0)) u.cwy.atom (initIdx .hc)).1 = 0x3FFFFC ∧ (initCheck .hc (0x01000000 + 0x3FFFFC) true (ok u)).1 = true)) := lets_and (by decide +kernel)

theorem witness_BankAtomicsOfProcessors_2 :
    (let s := fput F.OWN_CTRL_EN 1 st;
      ftst F.OWN_CTRL_EN s = true ∧ (initCheck (.hart 7) 0x01000000 true (ok s)).1 = false) ∧
    ((0x01000004#40).toNat % 8 ≠ 0 ∧ (0x01400000#40).toNat % 4 = 0 ∧ inBanks (0x01400000#40).toNat 4 = false) ∧
    ((0x013FFFF8#40).toNat % 8 = 0 ∧ inBanks (0x013FFFF8#40).toNat 8 = true ∧ (initCheck (.hart 7) 0x013FFFF8 false st).1 = true ∧ islOpen islMEM (initCheck (.hart 7) 0x013FFFF8 false st).2 = true ∧ st.cwy.resv[7] = none) ∧
    (let s := setResv 7 (some (0x013FFFF8 / 16, 0)) st;
      s.cwy.resv[7] = some (0x013FFFF8 / 16, 0) ∧ s.now < 0 + 1280) ∧
    (let s := later 1280 (setResv 7 (some (0x013FFFF8 / 16, 0)) st);
      s.cwy.resv[7] = some (0x013FFFF8 / 16, 0) ∧ 0 + 1280 ≤ s.now ∧ 2 ^ 32 - 1 < 2 ^ 32) := by refine ⟨?_, ?_, ?_, ?_, ?_⟩ <;> decide +kernel

theorem witness_CausewayCommands_1 :
    (let s := st |> fput (F.CWY_RANGE_CFG_k_EN 7) 1 |> fput (F.CWY_RANGE_CFG_k_POSTED 7) 1 |> fput (F.CWY_RANGE_LIMIT_k_LIMIT 7) 0xFFFF;
      cwyPosted 0x1FFFFFFC s = true) ∧
    (cwyPosted 0x1FFFFFFC st = false) ∧
    (let s := updCwy (fun c => { c with log := List.replicate 8 (⟨0, 0, 0, 0, 0, 0⟩ : CwyErr) }) st;
      8 ≤ s.cwy.log.length) ∧
    (let s := updCwy (fun c => { c with log := List.replicate 7 (⟨0, 0, 0, 0, 0, 0⟩ : CwyErr) }) st;
      s.cwy.log.length < 8) ∧
    (let s := later 256 (updCwy (fun c => { c with lock := some (7, 0, 0) }) st);
      s.cwy.lock = some (7, 0, 0) ∧ 0 + 256 ≤ s.now) := by refine ⟨?_, ?_, ?_, ?_, ?_⟩ <;> decide +kernel

theorem witness_CausewayCommands_2 :
    (Lets .hc R.CWY_ERRLOG_POP false st ∧ (let u := entered .hc R.CWY_ERRLOG_POP st; u.cwy.log = [])) ∧
    (let s := updCwy (fun c => { c with log := [(⟨0, 0, 0, 0, 0, 0⟩ : CwyErr)] }) st;
      Lets .hc R.CWY_ERRLOG_POP false s ∧ (let u := entered .hc R.CWY_ERRLOG_POP s; u.cwy.log = (⟨0, 0, 0, 0, 0, 0⟩ : CwyErr) :: [])) := by refine ⟨?_, ?_⟩ <;> first | exact lets_and (by decide +kernel) | decide +kernel

theorem witness_CausewayCommands_3 :
    (0x10000000 ≤ (0x1FFFFFFC#40).toNat ∧ (0x1FFFFFFC#40).toNat < 0x20000000 ∧ (0x1FFFFFFC#40).toNat % 8 ≠ 0 ∧ (0x10000000#40).toNat % 8 = 0 ∧ st.cwy.lock = none ∧ (0x1FFFFFFC#40).toNat % 4 = 0) ∧
    ((busRead (.hart 7) (R.HERON_WAKE_EN_k 0) 4 st).resp.status = .done ∧ 0x10000000 ≤ R.HERON_WAKE_EN_k 0 ∧ R.HERON_WAKE_EN_k 0 % 4 = 0) ∧
    (let s := updCwy (fun c => { c with lock := some (7, 0x1FFFFFFC, 0) }) st;
      s.cwy.lock = some (7, 0x1FFFFFFC, 0) ∧ s.now < 0 + 256 ∧ 8 ≤ 8) ∧
    (let s := updCwy (fun c => { c with undo := some (⟨0, 0, 0, 0, 0, 0⟩ : CwyErr) }) st;
      s.cwy.undo = some (⟨0, 0, 0, 0, 0, 0⟩ : CwyErr)) ∧
    (let s := updOwn (fun o => { o with undo := some ⟨0, 0, false, 0, false, 0⟩ }) st;
      s.own.undo = some ⟨0, 0, false, 0, false, 0⟩ ∧ s.cwy.undo = none) ∧
    (let s := updCap 15 (fun c => { c with undo := some ⟨0, false, 0, false⟩ }) st;
      s.cap[15].undo = some ⟨0, false, 0, false⟩) := by refine ⟨?_, ?_, ?_, ?_, ?_, ?_⟩ <;> decide +kernel

theorem witness_CausewayCommands_4 :
    (let s := { st with ic := { st.ic with undo := st.ic.undo.set 12 (some (1023, true)), stack := st.ic.stack.set 12 [(1023, 31)] } };
      s.ic.undo[12] = some (1023, true)) := by decide +kernel

theorem witness_CausewayCommands_5 :
    (Lets .hc R.MEM_CNT_CLR true st ∧ (let u := entered .hc R.MEM_CNT_CLR st; initWorld .hc (ok u) = true)) ∧
    (Lets .hc R.CWY_CNT_CLR true st ∧ (let u := entered .hc R.CWY_CNT_CLR st; initWorld .hc (ok u) = true)) := by refine ⟨?_, ?_⟩ <;> first | exact lets_and (by decide +kernel) | decide +kernel

theorem witness_InterruptControllerCommands_1 :
    (Lets .hc R.IC_SGI_SET true st ∧ (let u := entered .hc R.IC_SGI_SET st; 768 ≤ (1023 : Fin 1024).1 ∧ srcOwner .hc 1023 (ok u) = true ∧ (767 : Fin 1024).1 < 768)) ∧
    (let s := fput (F.IC_SRC_OWN_i_WORLD 768) 1 st;
      Lets (.hart 7) R.IC_SGI_SET true s ∧ (let u := entered (.hart 7) R.IC_SGI_SET s; srcOwner (.hart 7) 768 (ok u) = false)) ∧
    (let s := { st with ic := { st.ic with stack := st.ic.stack.set 12 (List.replicate 16 (1, 1)) } };
      Lets .hc (R.IC_CLAIM_t 12) false s ∧ (let u := entered .hc (R.IC_CLAIM_t 12) s; 16 ≤ u.ic.stack[12].length)) := by refine ⟨?_, ?_, ?_⟩ <;> first | exact lets_and (by decide +kernel) | decide +kernel

theorem witness_InterruptControllerCommands_2 :
    (let s := maskedEdge;
      Lets .hc (R.IC_CLAIM_t 12) false s ∧ (let u := entered .hc (R.IC_CLAIM_t 12) s; icBest 12 u = none ∧ u.ic.stack[12].length < 16)) := lets_and ⟨by decide +kernel, bestNone, by decide +kernel⟩

theorem witness_InterruptControllerCommands_3 :
    (let s := edgePending;
      Lets .hc (R.IC_CLAIM_t 12) false s ∧ (let u := entered .hc (R.IC_CLAIM_t 12) s; icBest 12 u = some (1023, 31) ∧ u.ic.stack[12].length < 16 ∧ 768 ≤ 1023)) := lets_and ⟨by decide +kernel, best1023, by decide +kernel⟩

theorem witness_InterruptControllerCommands_4 :
    (let s := { st with ic := { st.ic with stack := st.ic.stack.set 12 [(1023, 31)] } };
      Lets .hc (R.IC_EOI_t 12) true s ∧ (let u := entered .hc (R.IC_EOI_t 12) s; u.ic.stack[12] = (1023, 31) :: [] ∧ ∀ k : Fin 13, k ≠ 12 → u.ic.stack[k.1] = [])) ∧
    (Lets .hc (R.IC_EOI_t 12) true st ∧ (let u := entered .hc (R.IC_EOI_t 12) st; u.ic.stack[12] = [])) := by refine ⟨?_, ?_⟩ <;> first | exact lets_and (by decide +kernel) | decide +kernel

theorem witness_PresentedInterruptIsTheBest_1 :
    (let s := edgePending;
      icBest 12 s = some (1023, 31) ∧ srcPending 1023 s = true) := ⟨best1023, by decide +kernel⟩

theorem witness_PresentedInterruptIsTheBest_2 :
    (let s := maskedEdge;
      icBest 12 s = none ∧ islOpen (targetIsl 12) s = true ∧ srcPending 1023 s = true ∧ fget (F.IC_SRC_CFG_i_TARGET 1023) s = 12) := ⟨bestNone, by decide +kernel⟩

theorem witness_PresentedInterruptIsTheBest_3 :
    (fget (F.IC_SRC_CFG_i_PRIO 1023) st = 0) := by decide +kernel

theorem witness_VectorAssistAndWcall :
    (let s := (fun s => { s with ic := { s.ic with edge := s.ic.edge ||| BitVec.ofNat 256 (2 ^ 255) } }) (st |> fput (F.IC_SRC_CFG_i_EN 1023) 1 |> fput (F.IC_SRC_CFG_i_PRIO 1023) 31 |> fput (F.IC_SRC_CFG_i_TARGET 1023) 11 |> fput (F.IC_VA_CFG_t_EN 11) 1);
      ftst (F.IC_VA_CFG_t_EN (pairTarget 3).1) s = true ∧ islOpen (islL 3) s = true ∧ ({ PairRegs.init with sp := 0x30080000, mode := .u } : PairRegs).mode = .u ∧ icBest (pairTarget 3) s ≠ none ∧ dtcm 3 (({ PairRegs.init with sp := 0x30080000, mode := .u } : PairRegs).sp - 96).toNat 96 = some (tcmBase 3 + 0x7FFA0) ∧ (icStack (pairTarget 3) s).length < 16 ∧ icBest (pairTarget 3) (advance 16 s) = some (1023, 31) ∧ dtcm 3 (0x3003FFFF : Word).toNat 96 = none) ∧
    (let s := (fun s => { s with ic := { s.ic with stack := s.ic.stack.set 11 [(1, 1)] } }) ((fun s => { s with ic := { s.ic with edge := s.ic.edge ||| BitVec.ofNat 256 (2 ^ 255) } }) (st |> fput (F.IC_SRC_CFG_i_EN 1023) 1 |> fput (F.IC_SRC_CFG_i_PRIO 1023) 31 |> fput (F.IC_SRC_CFG_i_TARGET 1023) 11 |> fput (F.IC_VA_CFG_t_EN 11) 1));
      icStack (pairTarget 3) s ≠ [] ∧ dtcm 3 (0x30040000 : Word).toNat 96 = some (tcmBase 3 + 0x40000) ∧ icBest (pairTarget 3) (icPop (pairTarget 3) s) = some (1023, 31) ∧ (icStack (pairTarget 3) s).length ≤ 16) ∧
    (let s := (fun s => { s with ic := { s.ic with stack := s.ic.stack.set 11 [(1, 1)] } }) (fput (F.IC_VA_CFG_t_EN 11) 1 st);
      icStack (pairTarget 3) s ≠ [] ∧ icBest (pairTarget 3) (icPop (pairTarget 3) s) = none) ∧
    ((st.harts[7]).parked = false ∧ (st.harts[7]).bistHeld = false ∧ islOpen (targetIsl 7) st = true ∧ (st.harts[7]).world = false ∧ (⟨.m, false, 0, 0, 0, .u, false, false, 7⟩ : HartCtx).mode ≠ .u ∧ (⟨.m, false, 0, 0, 0, .u, false, false, 7⟩ : HartCtx).virt = false ∧ ftst F.OWN_HWDT_STAT_IN_RESTART st = false ∧ (⟨.u, false, 0, 0, 0, .u, false, false, 7⟩ : HartCtx).mode = .u ∧ (⟨.s, true, 0, 0, 0, .u, false, false, 7⟩ : HartCtx).mode = .s ∧ (⟨.s, true, 0, 0, 0, .u, false, false, 7⟩ : HartCtx).virt = true) ∧
    (let s := fput F.OWN_HWDT_STAT_IN_RESTART 1 st;
      (s.harts[7]).world = false ∧ ftst F.OWN_HWDT_STAT_IN_RESTART s = true) ∧
    (let s := updHart 7 (fun h => { h with world := true }) st;
      (s.harts[7]).world = true) := by refine ⟨?_, ?_, ?_, ?_, ?_, ?_⟩ <;> decide +kernel

theorem witness_SleepRequestsAndEntry_1 :
    (Lets .hc R.HERON_SLEEP_CMD true st ∧ (let u := entered .hc R.HERON_SLEEP_CMD st; sleepRefused (ok u) = false)) ∧
    (let s := wr R.OWN_KEEPALIVE 1 st;
      Lets .hc R.HERON_SLEEP_CMD true s ∧ (let u := entered .hc R.HERON_SLEEP_CMD s; sleepRefused (ok u) = true)) := by refine ⟨?_, ?_⟩ <;> first | exact lets_and (by decide +kernel) | decide +kernel

theorem witness_SleepRequestsAndEntry_2 :
    (let s := (fun s => { s with isl := Vector.replicate 21 { Island.init with st := .stopped } }) (updHeron (fun h => { h with step := 3, deep := false }) (fput F.HERON_STATUS_STATE 1 st));
      heronState s = 1 ∧ (sleepGroup s.heron.step).any (fun i => stopping i s) = false ∧ (sleepGroup s.heron.step).any (fun i => islOpen i s) = false ∧ s.heron.step = 3) ∧
    (let s := (fun s => { s with isl := Vector.replicate 21 { Island.init with st := .stopped } }) (updHeron (fun h => { h with step := 4, deep := false }) (fput F.HERON_STATUS_STATE 1 st));
      heronState s = 1 ∧ (sleepGroup s.heron.step).any (fun i => stopping i s) = false ∧ (sleepGroup s.heron.step).any (fun i => islOpen i s) = false ∧ s.heron.step = 4) ∧
    (let s := (fun s => { s with isl := Vector.replicate 21 { Island.init with st := .stopped } }) (updHeron (fun h => { h with step := 5, deep := false }) (fput F.HERON_STATUS_STATE 1 st));
      heronState s = 1 ∧ (sleepGroup s.heron.step).any (fun i => islOpen i s) = false ∧ s.heron.step = 5 ∧ s.heron.deep = false) ∧
    (let s := (fun s => { s with isl := Vector.replicate 21 { Island.init with st := .stopped } }) (updHeron (fun h => { h with step := 5, deep := true }) (fput F.HERON_STATUS_STATE 1 st));
      heronState s = 1 ∧ (sleepGroup s.heron.step).any (fun i => islOpen i s) = false ∧ s.heron.step = 5 ∧ s.heron.deep = true) := by refine ⟨?_, ?_, ?_, ?_⟩ <;> decide +kernel

theorem witness_Wakes_1 :
    (heronState st = 0) ∧
    (let s := wr (R.HERON_WAKE_EN_k 2) 0xFFFFFFFF (fput F.HERON_STATUS_STATE 3 (st));
      heronState s ≠ 0 ∧ (rd (R.HERON_WAKE_EN_k (83 / 32)) s).getLsbD (83 % 32) = true ∧ (83 : Fin 85) ≠ 84) ∧
    (let s := fput F.TAMP_STATUS_TAMPER_LATCH 1 (fput F.HERON_STATUS_STATE 2 (st));
      heronState s ≠ 0 ∧ ftst F.TAMP_STATUS_TAMPER_LATCH s = true) ∧
    (let s := (fun s => { s with ic := { s.ic with edge := s.ic.edge ||| BitVec.ofNat 256 (2 ^ 255) } }) (st |> fput (F.HERON_WATCH_k_EN 63) 1 |> fput (F.HERON_WATCH_k_SRC 63) 1023 |> fput F.HERON_STATUS_STATE 2);
      watched 63 s = some 1023 ∧ heronState s ≠ 0 ∧ requesting 1023 s = true ∧ s.heron.deep = false) ∧
    (let s := st |> fput (F.HERON_WATCH_k_EN 63) 1;
      watched 63 s = some 0 ∧ heronState s = 0 ∧ requesting 0 s = false) ∧
    (let s := fput F.HERON_WAKE_SRC_INPUT 0xFF (fput F.HERON_WAKE_SRC_WATCH 0xFF st);
      firstWake s = true) := by refine ⟨?_, ?_, ?_, ?_, ?_, ?_⟩ <;> decide +kernel

theorem witness_Wakes_2 :
    (let s := fput F.HERON_WAKE_SRC_WATCH 0 st;
      firstWake s = false) ∧
    (let s := fput F.HERON_STATUS_STATE 1 (st);
      heronState s = 1) ∧
    (let s := fput F.HERON_STATUS_STATE 3 (st);
      heronState s = 3) ∧
    (let s := fput F.HERON_STATUS_STATE 4 (st);
      heronState s = 4 ∧ s.heron.deep = false ∧ s.heron.due ≤ s.now ∧ orderFrom s.heron.order s = []) ∧
    (let s := (st |> fput F.HERON_STATUS_STATE 4 |> fput (F.HERON_ORDER_k_EN 15) 1 |> fput (F.HERON_ORDER_k_ISLAND 15) 20);
      orderFrom s.heron.order s = [(15, 20)] ∧ s.isl[20].blw = false) ∧
    (let s := (st |> fput F.HERON_STATUS_STATE 4 |> fput (F.HERON_ORDER_k_EN 0) 1 |> fput (F.HERON_ORDER_k_ISLAND 0) 4 |> fput (F.HERON_ORDER_k_EN 15) 1 |> fput (F.HERON_ORDER_k_ISLAND 15) 5);
      orderFrom s.heron.order s = (0, 4) :: (15, 5) :: [] ∧ s.isl[4].blw = false) := by refine ⟨?_, ?_, ?_, ?_, ?_, ?_⟩ <;> decide +kernel

theorem witness_Wakes_3 :
    (let s := updHeron (fun h => { h with deep := true }) (fput F.HERON_STATUS_STATE 4 (st));
      heronState s = 4 ∧ s.heron.deep = true ∧ s.heron.due ≤ s.now) ∧
    (let s := fput (F.FIO_DI_CFG_i_WAKE_EN 47) 1 { st with fio := { st.fio with pollLast := 0x800000000000 } } |> fput (F.FIO_DI_CFG_i_WAKE_EDGE 47) 0;
      ftst (F.FIO_DI_CFG_i_WAKE_EN 47) s = true ∧ s.fio.pollLast.getLsbD 47 = ((0x800000000000#48).getLsbD 47 != ftst (F.FIO_DI_CFG_i_INV 47) s) ∧ s.fio.pollBase.getLsbD 47 ≠ ((0x800000000000#48).getLsbD 47 != ftst (F.FIO_DI_CFG_i_INV 47) s) ∧ fget (F.FIO_DI_CFG_i_WAKE_EDGE 47) s = 0) ∧
    (let s := fput F.TAMP_CFG_TAMP1_EN 1 st;
      tamperWatched 6 s = true ∧ s.key.alarms.contains 6 = false) ∧
    (let s := fput F.TAMP_CFG_TAMP1_EN 0 st;
      tamperWatched 6 s = false) := by refine ⟨?_, ?_, ?_, ?_⟩ <;> decide +kernel

theorem witness_OwnershipAndTongs_1 :
    (let s := fput F.OWN_CTRL_EN 1 (fput F.MEM_DRAM_CFG_SIZE 3 st);
      inUnowned 0x01000000 s = false ∧ initWorld (.hart 7) s = false ∧ initWorld .hc s = true ∧ ftst F.OWN_CTRL_EN s = true ∧ inOwnTable (fget F.OWN_PT_BASE_PAGE s * 4096 + 0x3FFFFF) s = true) ∧
    (let s := st |> fput F.OWN_CTRL_EN 1 |> fput F.OWN_PT_BASE_PAGE 0x1000 |> fput F.OWN_PT_IO_BASE_PAGE 0x1000;
      inUnowned 0x027FFFFC s = false ∧ inOwnTable 0x027FFFFC s = false ∧ ownEntryAddr 0x027FFFFC s = some (0x1000000 + 2 * 0x27FF) ∧ (s.own.cache.find? fun c => c.port == initPort (.hart 7) && c.page == 0x027FFFFC / 4096) = none) ∧
    (let s := st |> fput F.OWN_CTRL_EN 1 |> fput F.OWN_PT_BASE_PAGE 0x1000 |> fput F.OWN_PT_IO_BASE_PAGE 0x1000 |> updCwy (fun c => { c with bad := [(0x1000000 + 2 * 0x27FF) / 8] });
      ownEntryAddr 0x027FFFFC s = some (0x1000000 + 2 * 0x27FF) ∧ wordBad (0x1000000 + 2 * 0x27FF) s = true ∧ inOwnTable 0x027FFFFC s = false) ∧
    (let s := fput (F.OWN_BLK_k_STATE 0) 2 st;
      (∃ a ∈ [0x02000000, 0x04030000, 0x04100000, 0x10000000, 0x10100000], inUnowned a s = true) ∧ initWorld (.hart 7) s = false) ∧
    (let s := updOwn (fun o => { o with viol := List.replicate 15 ⟨0, 0, false, 0, false, 0⟩ }) st;
      s.own.viol.length < 16) ∧
    (let s := updOwn (fun o => { o with viol := List.replicate 16 ⟨0, 0, false, 0, false, 0⟩ }) st;
      16 ≤ s.own.viol.length) := by refine ⟨?_, ?_, ?_, ?_, ?_, ?_⟩ <;> decide +kernel

theorem witness_OwnershipAndTongs_2 :
    (Lets .hc R.OWN_INVAL_CMD true st ∧ (let u := entered .hc R.OWN_INVAL_CMD st; initWorld .hc (ok u) = true ∧ ftst F.OWN_INVAL_CMD_BUSY u = false)) ∧
    (let s := fput F.OWN_INVAL_CMD_BUSY 1 (updOwn (fun o => { o with inval := some none }) st);
      Lets .hc R.OWN_INVAL_CMD true s ∧ (let u := entered .hc R.OWN_INVAL_CMD s; ftst F.OWN_INVAL_CMD_BUSY u = true ∧ u.own.inval = some none)) ∧
    (Lets .hc R.OWN_VIOL_POP false st ∧ (let u := entered .hc R.OWN_VIOL_POP st; u.own.viol = [])) ∧
    (let s := updOwn (fun o => { o with viol := [⟨0, 0, false, 0, false, 0⟩] }) st;
      Lets .hc R.OWN_VIOL_POP false s ∧ (let u := entered .hc R.OWN_VIOL_POP s; u.own.viol = ⟨0, 0, false, 0, false, 0⟩ :: [])) ∧
    (Lets .hc R.OWN_CTRL true st ∧ (let u := entered .hc R.OWN_CTRL st; initWorld .hc (ok u) = true)) ∧
    (Lets .hc R.OWN_TONGS_CMD true st ∧ (let u := entered .hc R.OWN_TONGS_CMD st; initWorld .hc (ok u) = true ∧ (26 : Fin 32).1 < 27 ∧ 27 ≤ (27 : Fin 32).1 ∧ ftst F.OWN_TONGS_CMD_BUSY u = false ∧ tgState 26 u = 0)) := by refine ⟨?_, ?_, ?_, ?_, ?_, ?_⟩ <;> first | exact lets_and (by decide +kernel) | decide +kernel

theorem witness_OwnershipAndTongs_3 :
    (let s := fput (F.OWN_BLK_k_STATE 26) 1 (fput F.OWN_TONGS_CMD_BUSY 1 st);
      Lets .hc R.OWN_TONGS_CMD true s ∧ (let u := entered .hc R.OWN_TONGS_CMD s; ftst F.OWN_TONGS_CMD_BUSY u = true ∧ tgState 26 u = 1)) ∧
    (let s := fput (F.OWN_BLK_k_STATE 26) 3 st;
      Lets .hc R.OWN_TONGS_CMD true s ∧ (let u := entered .hc R.OWN_TONGS_CMD s; tgState 26 u = 3 ∧ ftst F.OWN_TONGS_CMD_BUSY u = false)) ∧
    (let s := fput (F.OWN_BLK_k_WORLD 26) 0 (fput (F.OWN_BLK_k_INST 26) 0 st);
      Lets (.hart 7) R.OWN_TONGS_REL true s ∧ (let u := entered (.hart 7) R.OWN_TONGS_REL s; blockOwner (.hart 7) 26 (ok u) = true ∧ tgState 26 u ≤ 1)) ∧
    (let s := fput (F.OWN_BLK_k_STATE 26) 2 (fput (F.OWN_BLK_k_INST 25) 31 st);
      Lets (.hart 7) R.OWN_TONGS_REL true s ∧ (let u := entered (.hart 7) R.OWN_TONGS_REL s; 2 ≤ tgState 26 u ∧ blockOwner (.hart 7) 25 (ok u) = false)) := by refine ⟨?_, ?_, ?_, ?_⟩ <;> first | exact lets_and (by decide +kernel) | decide +kernel

theorem witness_OwnershipAndTongs_4 :
    (let s := later 5 (fput (F.OWN_BLK_k_STATE 26) 1 (updOwn (fun o => { o with tongsDue := o.tongsDue.set 26 5 }) st));
      tgState 26 s = 1 ∧ s.own.tongsDue[26] ≠ 0 ∧ s.own.tongsDue[26] ≤ s.now) ∧
    (let s := st |> fput (F.OWN_BLK_k_STATE 0) 2 |> fput (F.ENG_QSLOT_q_EN 23 23) 1 |> fput (F.ENG_QSLOT_q_QID 23 23) 0x010;
      tgState 0 s = 2 ∧ ftst (F.ENG_QSLOT_q_EN 23 23) s = true ∧ (qBlock (fget (F.ENG_QSLOT_q_QID 23 23) s)).isSome = true) := by refine ⟨?_, ?_⟩ <;> decide +kernel

theorem witness_OwnershipAndTongs_5 :
    (Lets .hc R.OWN_CNT_CLR true st ∧ (let u := entered .hc R.OWN_CNT_CLR st; initWorld .hc (ok u) = true)) := lets_and (by decide +kernel)

theorem witness_HearthWatchdogAndLifeCycle_1 :
    (let s := later 10000000000 (updHart 7 (fun h => { h with world := true }) st);
      (s.harts[7]).world = true ∧ (s.harts[7]).anvilSince + clampNat 10 10000 (fget F.OWN_ANVIL_MAX_US s) * 1000 ≤ s.now) := by decide +kernel

theorem witness_HearthWatchdogAndLifeCycle_2 :
    (Lets (.hart 7) R.OWN_KEEPALIVE true st ∧ (let u := entered (.hart 7) R.OWN_KEEPALIVE st; initWorld (.hart 7) (ok u) = false)) ∧
    (Lets .hc R.OWN_KEEPALIVE true st ∧ (let u := entered .hc R.OWN_KEEPALIVE st; initWorld .hc (ok u) = true ∧ (∀ i : Fin 21, islSt i u = .run) ∧ (∀ i : Fin 21, (u.isl[i.1]).held = false))) ∧
    (let s := updOwn (fun o => { o with lcPending := 0 }) (fput F.BLW_VBAT_MV 12000 st);
      Lets .hc R.OWN_LC_CMD true s ∧ (let u := entered .hc R.OWN_LC_CMD s; initWorld .hc (ok u) = true ∧ u.own.lcPending = 0 ∧ fuseSupply u = true)) ∧
    (let s := updOwn (fun o => { o with lcPending := 2 }) (fput F.BLW_VBAT_MV 16001 st);
      Lets .hc R.OWN_LC_CMD true s ∧ (let u := entered .hc R.OWN_LC_CMD s; u.own.lcPending = 2 ∧ fuseSupply u = false)) ∧
    (Lets .hc R.OWN_HWDT_KICK true st ∧ (let u := entered .hc R.OWN_HWDT_KICK st; ftst F.OWN_HWDT_STAT_IN_RESTART u = false)) ∧
    (Lets (.hart 7) R.OWN_HWDT_KICK true st ∧ (Initiator.hart 7) ≠ .hc ∧ (0xC35B : Word) ≠ 0xC35A) := by refine ⟨?_, ?_, ?_, ?_, ?_, ?_⟩ <;> first | exact lets_and (by decide +kernel) | decide +kernel

theorem witness_HearthWatchdogAndLifeCycle_3 :
    (let s := later 1 (updOwn (fun o => { o with kickDue := 1 }) (st));
      s.own.kickDue ≠ 0 ∧ s.own.kickDue ≤ s.now) ∧
    (let s := later 10000000000 (updOwn (fun o => { o with firstExpiry := some 0 }) (st));
      s.own.firstExpiry = some 0 ∧ s.now ≤ 0 + 10000000000) ∧
    (let s := later 10000000001 (updOwn (fun o => { o with firstExpiry := some 0 }) (st));
      s.own.firstExpiry = some 0 ∧ 0 + 10000000000 < s.now) ∧
    (st.own.firstExpiry = none) ∧
    (let s := updOwn (fun o => { o with firstExpiry := some 0 }) (fput F.OWN_HWDT_STAT_IN_RESTART 1 st);
      ftst F.OWN_HWDT_STAT_IN_RESTART s = true ∧ s.cwy.hcBoot = true ∧ s.own.firstExpiry = some 0) := by refine ⟨?_, ?_, ?_, ?_, ?_⟩ <;> decide +kernel

theorem witness_HearthWatchdogAndLifeCycle_4 :
    (Lets .hc R.OWN_HWDT_STAT true st ∧ (let u := entered .hc R.OWN_HWDT_STAT st; initWorld .hc (ok u) = true)) := lets_and (by decide +kernel)

theorem witness_VirtualInstanceItems_1 :
    (Lets (.hart 7) (R.VQI_SQ_TAIL_i_p 31 7) true st ∧ True) := lets_and (by decide +kernel)

theorem witness_VirtualInstanceItems_2 :
    (let s := st |> fput (F.VQI_STATE_i_STATE 31) 1 |> fput (F.VQI_PAIR_KIND_i_p_KIND 31 7) 1 |> fput (F.VQI_RING_SIZE_i_p_EN 31 7) 1 |> fput (F.VQI_RING_SIZE_i_p_SQ_LOG2 31 7) 4 |> fput (F.VQI_RING_SIZE_i_p_CQ_LOG2 31 7) 4 |> fput (F.VQI_SQ_TAIL_i_p 31 7) 1 |> fput (F.VQI_SQ_BASE_LO_i_p 31 7) 0x01000000;
      canFetch 31 7 s = true ∧ (dmaRead (vqiIdent 31 s) (addrOf (F.VQI_SQ_BASE_LO_i_p 31 7) (F.VQI_SQ_BASE_HI_i_p 31 7) s) 32 s).1.isSome = true) ∧
    (let s := st |> fput (F.VQI_STATE_i_STATE 31) 1 |> fput (F.VQI_PAIR_KIND_i_p_KIND 31 7) 1 |> fput (F.VQI_RING_SIZE_i_p_EN 31 7) 1 |> fput (F.VQI_RING_SIZE_i_p_SQ_LOG2 31 7) 4 |> fput (F.VQI_RING_SIZE_i_p_CQ_LOG2 31 7) 4 |> fput (F.VQI_SQ_TAIL_i_p 31 7) 1 |> fput F.OWN_CTRL_EN 1;
      canFetch 31 7 s = true ∧ (dmaRead (vqiIdent 31 s) (addrOf (F.VQI_SQ_BASE_LO_i_p 31 7) (F.VQI_SQ_BASE_HI_i_p 31 7) s) 32 s).1.isNone = true) ∧
    (canFetch 31 7 st = false) ∧
    (let s := st |> fput (F.VQI_PAIR_KIND_i_p_KIND 31 7) 0 |> fput (F.VQI_PAIR_KIND_i_p_CLASSES 31 7) 255;
      descOk (⟨1, 31, 7, 0, 0, [2] ++ List.replicate 31 0, .fetched, none⟩ : VqiItem) s = false) ∧
    (let s := st |> fput (F.VQI_PAIR_KIND_i_p_KIND 31 7) 1 |> fput (F.VQI_PAIR_KIND_i_p_CLASSES 31 7) 255;
      descOk (⟨1, 31, 7, 0, 0, [2] ++ List.replicate 31 0, .fetched, none⟩ : VqiItem) s = true ∧ (⟨1, 31, 7, 0, 0, [2] ++ List.replicate 31 0, .fetched, none⟩ : VqiItem).op = 0x02 ∧ descOk (⟨1, 31, 7, 0, 0, [1, 0, 0xEE, 5, 0, 0, 0, 0, 0, 0, 0, 1] ++ List.replicate 20 0, .fetched, none⟩ : VqiItem) s = true ∧ (⟨1, 31, 7, 0, 0, [1, 0, 0xEE, 5, 0, 0, 0, 0, 0, 0, 0, 1] ++ List.replicate 20 0, .fetched, none⟩ : VqiItem).op = 0x01 ∧ (⟨1, 31, 7, 0, 0, [1, 0, 0xEE, 5, 0, 0, 0, 0, 0, 0, 0, 1] ++ List.replicate 20 0, .fetched, none⟩ : VqiItem).field 2 2 = 1518 ∧ (dmaRead (vqiIdent 31 s) ((⟨1, 31, 7, 0, 0, [1, 0, 0xEE, 5, 0, 0, 0, 0, 0, 0, 0, 1] ++ List.replicate 20 0, .fetched, none⟩ : VqiItem).field 8 5) 1518 s).1.isSome = true) ∧
    (let s := st |> fput (F.VQI_PAIR_KIND_i_p_KIND 31 7) 2 |> fput (F.VQI_PAIR_KIND_i_p_CLASSES 31 7) 255;
      descOk (⟨1, 31, 7, 0, 0, [0x10] ++ List.replicate 31 0, .fetched, none⟩ : VqiItem) s = true ∧ (⟨1, 31, 7, 0, 0, [0x10] ++ List.replicate 31 0, .fetched, none⟩ : VqiItem).op = 0x10) := by refine ⟨?_, ?_, ?_, ?_, ?_, ?_⟩ <;> decide +kernel

theorem witness_VirtualInstanceItems_3 :
    (let s := st |> fput (F.VQI_PAIR_KIND_i_p_KIND 31 7) 3 |> fput (F.VQI_PAIR_KIND_i_p_CLASSES 31 7) 255;
      descOk (⟨1, 31, 7, 0, 0, [0x20] ++ List.replicate 31 0, .fetched, none⟩ : VqiItem) s = true ∧ (⟨1, 31, 7, 0, 0, [0x20] ++ List.replicate 31 0, .fetched, none⟩ : VqiItem).op = 0x20) ∧
    (let s := st |> fput (F.VQI_PAIR_KIND_i_p_KIND 31 7) 4 |> fput (F.VQI_PAIR_KIND_i_p_CLASSES 31 7) 255;
      descOk (⟨1, 31, 7, 0, 0, [0x30, 0, 64] ++ List.replicate 29 0, .fetched, none⟩ : VqiItem) s = true ∧ (⟨1, 31, 7, 0, 0, [0x30, 0, 64] ++ List.replicate 29 0, .fetched, none⟩ : VqiItem).op = 0x30) ∧
    (islOpen islSWP st = true ∧ st.vqi.passed[3] < 1024) ∧
    (let s := updVqi (fun v => { v with passed := Vector.replicate 4 1024 }) (st);
      islOpen islSWP s = true ∧ 1024 ≤ s.vqi.passed[3]) ∧
    (let s := updVqi (fun v => { v with passed := Vector.replicate 4 1023, share := v.share.set 31 1, items := [(⟨1, 31, 7, 0, 0, [0x30, 0, 64] ++ List.replicate 29 0, .fetched, none⟩ : VqiItem)] }) (st |> fput (F.VQI_STATE_i_STATE 31) 1);
      (3 : Fin 4) ≠ 2 ∧ s.vqi.passed[3] < 1024 ∧ (s.vqi.items.filter fun y => y.place == .admitted && y.target s == 3).length < 1024 ∧ slotInst 3 s = some 31 ∧ nextItem 3 31 s = some (⟨1, 31, 7, 0, 0, [0x30, 0, 64] ++ List.replicate 29 0, .fetched, none⟩ : VqiItem)) ∧
    (let s := updVqi (fun v => { v with items := [(⟨1, 31, 7, 0, 0, [0x30, 0, 64] ++ List.replicate 29 0, .admitted, none⟩ : VqiItem)] }) (st |> fput (F.VQI_STATE_i_STATE 31) 1);
      s.vqi.share[31] ≠ fget (F.VQI_SHARE_i 31) s ∨ vqiState 31 s ≠ vqiDisabled) := by refine ⟨?_, ?_, ?_, ?_, ?_, ?_⟩ <;> decide +kernel

theorem witness_VirtualInstanceItems_4 :
    (let s := updVqi (fun v => { v with share := v.share.set 31 2, items := [(⟨1, 31, 7, 0, 0, [0x30, 0, 64] ++ List.replicate 29 0, .admitted, none⟩ : VqiItem)] }) (st |> fput (F.VQI_STATE_i_STATE 31) 1 |> fput (F.VQI_SHARE_i 31) 1);
      s.vqi.share[31] ≠ fget (F.VQI_SHARE_i 31) s ∧ vqiState 31 s ≠ vqiDisabled ∧ fget (F.VQI_SHARE_i 31) s ≤ vqiOcc 31 3 s ∧ 0 < vqiOcc 31 3 s) ∧
    (let s := updVqi (fun v => { v with done := [(⟨1, 31, 1, .done, 0, 0, none⟩ : VqiDone)], items := [(⟨1, 31, 7, 0, 0, [0x30, 0, 64] ++ List.replicate 29 0, .fetched, none⟩ : VqiItem)] }) (st);
      s.vqi.done = (⟨1, 31, 1, .done, 0, 0, none⟩ : VqiDone) :: [] ∧ (∀ x ∈ s.vqi.items, x.id = 1 → x.gen ≠ 1)) ∧
    (let s := updVqi (fun v => { v with done := [(⟨1, 31, 0, .done, 0, 0, none⟩ : VqiDone)], items := [(⟨1, 31, 7, 0, 0, [0x30, 0, 64] ++ List.replicate 29 0, .fetched, none⟩ : VqiItem)] }) (st);
      s.vqi.done = (⟨1, 31, 0, .done, 0, 0, none⟩ : VqiDone) :: [] ∧ (s.vqi.items.find? fun y => y.id == 1 && y.gen == 0) = some (⟨1, 31, 7, 0, 0, [0x30, 0, 64] ++ List.replicate 29 0, .fetched, none⟩ : VqiItem)) := by refine ⟨?_, ?_, ?_⟩ <;> decide +kernel

theorem witness_VirtualInstanceStates_1 :
    (let s := st |> fput (F.VQI_STATE_i_STATE 31) 1;
      Lets (.hart 7) (R.VQI_ICMD_i 31) true s ∧ (let u := entered (.hart 7) (R.VQI_ICMD_i 31) s; vqiState 31 u = 1)) ∧
    (Lets (.hart 7) (R.VQI_ICMD_i 31) true st ∧ (let u := entered (.hart 7) (R.VQI_ICMD_i 31) st; vqiState 31 u = 0)) ∧
    (let s := fput (F.VQI_STATE_i_STATE 31) 2 st;
      Lets (.hart 7) (R.VQI_ICMD_i 31) true s ∧ (let u := entered (.hart 7) (R.VQI_ICMD_i 31) s; 2 ≤ vqiState 31 u ∧ (u.vqi.items.any fun x => x.inst == 31) = false ∧ u.vqi.freezeDue[31] ≤ u.now)) ∧
    (let s := st |> fput (F.VQI_STATE_i_STATE 31) 1;
      Lets .hc (R.VQI_CMD_i 31) true s ∧ (let u := entered .hc (R.VQI_CMD_i 31) s; vqiState 31 u ≠ 0 ∧ vqiState 31 u = 1 ∧ vqiState 31 u ≠ 3)) ∧
    (let s := fput (F.VQI_STATE_i_STATE 31) 3 st;
      Lets .hc (R.VQI_CMD_i 31) true s ∧ (let u := entered .hc (R.VQI_CMD_i 31) s; vqiState 31 u = 3 ∧ vqiState 31 u ≠ 1)) := by refine ⟨?_, ?_, ?_, ?_, ?_⟩ <;> first | exact lets_and (by decide +kernel) | decide +kernel

theorem witness_VirtualInstanceStates_2 :
    (let s := updVqi (fun v => { v with items := [(⟨1, 31, 7, 0, 0, [0x30, 0, 64] ++ List.replicate 29 0, .fetched, none⟩ : VqiItem)] }) (fput (F.VQI_STATE_i_STATE 31) 2 st);
      vqiState 31 s = 2 ∧ (s.vqi.items.any fun x => x.inst == 31) = true) := by decide +kernel

theorem witness_VirtualInstanceStates_3 :
    (let s := fput (F.VQI_SHARE_i 31) 1024 st;
      Lets .hc (R.VQI_CFG_i 31) true s ∧ (let u := entered .hc (R.VQI_CFG_i 31) s; ftst (F.VQI_CFG_i_EN 31) u = false ∧ shareSum u + fget (F.VQI_SHARE_i 31) u ≤ 1024)) ∧
    (let s := fput (F.VQI_SHARE_i 31) 1024 (fput (F.VQI_SHARE_i 0) 1 (fput (F.VQI_CFG_i_EN 0) 1 st));
      Lets .hc (R.VQI_CFG_i 31) true s ∧ (let u := entered .hc (R.VQI_CFG_i 31) s; ftst (F.VQI_CFG_i_EN 31) u = false ∧ 1024 < shareSum u + fget (F.VQI_SHARE_i 31) u)) ∧
    (let s := st |> fput (F.VQI_STATE_i_STATE 31) 1;
      Lets .hc (R.VQI_CFG_i 31) true s ∧ (let u := entered .hc (R.VQI_CFG_i 31) s; vqiState 31 u ≠ 0)) ∧
    (let s := fput (F.VQI_CFG_i_EN 31) 1 st;
      Lets .hc (R.VQI_SHARE_i 31) true s ∧ (let u := entered .hc (R.VQI_SHARE_i 31) s; ftst (F.VQI_CFG_i_EN 31) u = true ∧ 1024 < (1025 : BitVec 11).toNat ∧ (1024 : BitVec 11).toNat ≤ 1024 ∧ (shareSum u - fget (F.VQI_SHARE_i 31) u) + 1024 ≤ 1024)) ∧
    (let s := fput (F.VQI_STATE_i_STATE 31) 3 st;
      Lets .hc R.VQI_MIG_CMD true s ∧ (let u := entered .hc R.VQI_MIG_CMD s; u.vqi.mig = none ∧ vqiState 31 u = 3)) ∧
    (let s := st |> fput (F.VQI_STATE_i_STATE 31) 1;
      Lets .hc R.VQI_MIG_CMD true s ∧ (let u := entered .hc R.VQI_MIG_CMD s; u.vqi.mig = none ∧ vqiState 31 u ≠ 3)) := by refine ⟨?_, ?_, ?_, ?_, ?_, ?_⟩ <;> first | exact lets_and (by decide +kernel) | decide +kernel

theorem witness_VirtualInstanceStates_4 :
    (let s := updVqi (fun v => { v with mig := some (1, 31, true, 0) }) (st);
      Lets .hc R.VQI_MIG_CMD true s ∧ (let u := entered .hc R.VQI_MIG_CMD s; u.vqi.mig ≠ none ∧ u.vqi.mig = some (1, 31, true, 0))) := lets_and (by decide +kernel)

theorem witness_VirtualInstanceStates_5 :
    (let s := updVqi (fun v => { v with mig := some (2, 31, false, 31) }) (st);
      s.vqi.mig = some (2, 31, false, 31) ∧ 2 ≠ 1) ∧
    (migKey st = none) ∧
    (let s := wr (R.KEY_ATTR_s_h 0 0) 0x80002002 (wr R.VQI_MIG_BUF_LO 0x01000000 st);
      migKey s = some 0 ∧ (dmaRead ⟨17, 0x40, true, 0⟩ (migBuf s) 512 s).1.isSome = true ∧ (dmaWrite ⟨17, 0x40, true, 0⟩ (migBuf s) (List.replicate 512 0) (useKey 0 s)).1 = true ∧ migFieldsOk (List.replicate 512 0) = true ∧ vqiState 31 s = 0 ∧ (List.replicate 512 (0 : Byte)).take 8 ≠ ascii "Z480VQI1") := by refine ⟨?_, ?_, ?_⟩ <;> decide +kernel

theorem witness_VirtualInstanceStates_6 :
    ((let r : List Byte := goodRecord ++ hmac512 [] goodRecord; hmac512 [] (r.take 448) = r.drop 448 ∧ r.take 8 = ascii "Z480VQI1" ∧ migFieldsOk r = true ∧ mf r 30 2 = 1024 ∧ migKey st = none)) := ⟨tag_of_record _ _ (by decide), by decide +kernel⟩

theorem witness_VirtualInstanceStates_7 :
    (Lets .hc (R.VQI_CNT_CLR_i 31) true st ∧ True) := lets_and (by decide +kernel)

theorem witness_FlashCommands_1 :
    (let s := fput F.SYSCTL_XSPI_CMD_BUSY 1 st;
      Lets .hc R.SYSCTL_XSPI_CMD true s ∧ (let u := entered .hc R.SYSCTL_XSPI_CMD s; initWorld .hc (ok u) = true ∧ ftst F.SYSCTL_XSPI_CMD_BUSY u = true)) ∧
    (Lets .hc R.SYSCTL_XSPI_CMD true st ∧ (let u := entered .hc R.SYSCTL_XSPI_CMD st; ftst F.SYSCTL_XSPI_CMD_BUSY u = false ∧ xspiRefused 1 (fget F.SYSCTL_XSPI_ADDR u) 4096 (ok u) = true)) ∧
    (let s := st |> fput F.SYSCTL_XSPI_CAP_OK 1 |> fput F.SYSCTL_XSPI_ADDR 0x4FF000 |> fput F.SYSCTL_XSPI_LEN 4096 |> fput F.SYSCTL_XSPI_SRC_LO 0x01000000 |> fput F.SYSCTL_BOOT_STATUS_SLOT 3;
      Lets .hc R.SYSCTL_XSPI_CMD true s ∧ (let u := entered .hc R.SYSCTL_XSPI_CMD s; ftst F.SYSCTL_XSPI_CMD_BUSY u = false ∧ xspiRefused 1 (fget F.SYSCTL_XSPI_ADDR u) 4096 (ok u) = false ∧ xspiRefused 3 (fget F.SYSCTL_XSPI_ADDR u) 4096 (ok u) = false ∧ (unitRead (initIdent .hc (ok u)) ((rd R.SYSCTL_XSPI_SRC_LO u).toNat + 2 ^ 32 * fget F.SYSCTL_XSPI_SRC_HI u) 4096 (ok u)).1.isSome = true)) := by refine ⟨?_, ?_, ?_⟩ <;> first | exact lets_and (by decide +kernel) | decide +kernel

theorem witness_FlashCommands_2 :
    (let s := updBoot (fun b => { b with cmd := some (⟨1, 0x100000, 4096, [], false, 0, 0, none⟩ : XspiCmd) }) (st);
      s.boot.cmd = some (⟨1, 0x100000, 4096, [], false, 0, 0, none⟩ : XspiCmd) ∧ (⟨1, 0x100000, 4096, [], false, 0, 0, none⟩ : XspiCmd).waiting = false ∧ (⟨1, 0x100000, 4096, [], false, 0, 0, none⟩ : XspiCmd).susp = none ∧ (⟨1, 0x100000, 4096, [], false, 0, 0, none⟩ : XspiCmd).op ≠ 3 ∧ (⟨1, 0x100000, 4096, [], false, 0, 0, none⟩ : XspiCmd).due ≤ s.now ∧ (⟨1, 0x100000, 4096, [], false, 0, 0, none⟩ : XspiCmd).grant ≤ s.now) ∧
    (let s := updBoot (fun b => { b with cmd := some (⟨3, 0, 2, [0x5A, 0xFF], false, 0, 0, none⟩ : XspiCmd) }) (st);
      s.boot.cmd = some (⟨3, 0, 2, [0x5A, 0xFF], false, 0, 0, none⟩ : XspiCmd) ∧ frdBytes 0 2 (fprogBytes 0 [0x5A, 0xFF] s) = [0x5A, 0xFF]) ∧
    (let s := updBoot (fun b => { b with cmd := some (⟨3, 0, 2, [0x5A, 0xFF], false, 0, 0, none⟩ : XspiCmd) }) (fprogBytes 0 [0] st);
      frdBytes 0 2 (fprogBytes 0 [0x5A, 0xFF] s) ≠ [0x5A, 0xFF]) ∧
    (let s := later 20000 (updBoot (fun b => { b with cmd := some (⟨1, 0x100000, 4096, [], false, 0, 0, some 0⟩ : XspiCmd) }) (st));
      s.boot.cmd = some (⟨1, 0x100000, 4096, [], false, 0, 0, some 0⟩ : XspiCmd) ∧ 0 + 20000 ≤ s.now ∧ Status.done.code < 256) := by refine ⟨?_, ?_, ?_, ?_⟩ <;> decide +kernel

theorem witness_BootCommands_1 :
    (let s := updBoot (fun b => { b with inReset := some 0 }) st;
      s.boot.inReset = some 0 ∧ 0 ≤ s.now) ∧
    (st.boot.inReset = none ∧ headerReason 0 st ≠ none ∧ frdBytes (slotBase 1 st) 8 st ≠ ascii "Z480IMRN") ∧
    (let s := later 1 (updBoot (fun b => { b with retryAt := 1 }) st);
      s.boot.retryAt ≠ 0 ∧ s.boot.retryAt ≤ s.now) ∧
    (let s := updBoot (fun b => { b with exclude := some 1 }) st;
      s.boot.exclude = some 1) := by refine ⟨?_, ?_, ?_, ?_⟩ <;> decide +kernel

theorem witness_BootCommands_2 :
    (let s := st |> fput F.BLW_VBAT_MV 12000 |> updBoot (fun b => { b with rollback := 63 }) |> fput F.SYSCTL_BOOT_STATUS_SLOT 1;
      Lets .hc R.SYSCTL_BOOT_CMD true s ∧ (let u := entered .hc R.SYSCTL_BOOT_CMD s; initWorld .hc (ok u) = true ∧ fget F.SYSCTL_BOOT_STATUS_SLOT u < 2 ∧ fuseSupply u = true ∧ u.boot.rollback < 64)) ∧
    (let s := fput F.BLW_VBAT_MV 11999 st;
      Lets .hc R.SYSCTL_BOOT_CMD true s ∧ (let u := entered .hc R.SYSCTL_BOOT_CMD s; fuseSupply u = false)) := by refine ⟨?_, ?_⟩ <;> first | exact lets_and (by decide +kernel) | decide +kernel

theorem witness_CryptoJobs_1 :
    (let s := updKey (fun k => { k with queue := List.replicate 16 (⟨1, .host false, 12, 12, true, 0, 0, [1] ++ List.replicate 63 0, none⟩ : CryJob) }) (st);
      Lets .hc R.KEY_JQ_SUBMIT true s ∧ (let u := entered .hc R.KEY_JQ_SUBMIT s; initWorld .hc (ok u) = true ∧ 16 ≤ cryCount (fun j => match j.sub with | .host _ => true | _ => false) u)) ∧
    (let s := updKey (fun k => { k with queue := List.replicate 15 (⟨1, .host false, 12, 12, true, 0, 0, [1] ++ List.replicate 63 0, none⟩ : CryJob) }) (wr R.KEY_JQ_ADDR_LO 0x01000000 st);
      Lets .hc R.KEY_JQ_SUBMIT true s ∧ (let u := entered .hc R.KEY_JQ_SUBMIT s; cryCount (fun j => match j.sub with | .host _ => true | _ => false) u < 16 ∧ (unitRead (initIdent .hc (ok u)) 0x01000000 64 (ok u)).1 = some (List.replicate 64 0) ∧ jobInvalid (List.replicate 64 0) = true)) ∧
    (let s := wr R.KEY_JQ_ADDR_LO 0x01400000 st;
      Lets .hc R.KEY_JQ_SUBMIT true s ∧ (let u := entered .hc R.KEY_JQ_SUBMIT s; cryCount (fun j => match j.sub with | .host _ => true | _ => false) u < 16 ∧ (unitRead (initIdent .hc (ok u)) 0x01400000 64 (ok u)).1 = none)) ∧
    (let s := mwrBytes 0x01000000 [0x0F, 0, 0xFF, 0xFF, 32] (wr R.KEY_JQ_ADDR_LO 0x01000000 st);
      Lets .hc R.KEY_JQ_SUBMIT true s ∧ (let u := entered .hc R.KEY_JQ_SUBMIT s; (unitRead (initIdent .hc (ok u)) 0x01000000 64 (ok u)).1 = some ([0x0F, 0, 0xFF, 0xFF, 32] ++ List.replicate 59 0) ∧ jobInvalid ([0x0F, 0, 0xFF, 0xFF, 32] ++ List.replicate 59 0) = false)) := by refine ⟨?_, ?_, ?_, ?_⟩ <;> first | exact lets_and (by decide +kernel) | decide +kernel

theorem witness_CryptoJobs_2 :
    (let s := updKey (fun k => { k with queue := [(⟨1, .host false, 12, 12, true, 0, 0, [16] ++ List.replicate 63 0, none⟩ : CryJob)] }) (st);
      islOpen islHC s = true ∧ s.key.sym.isSome = false ∧ (s.key.queue.find? fun x => opPk x.op == false) = some (⟨1, .host false, 12, 12, true, 0, 0, [16] ++ List.replicate 63 0, none⟩ : CryJob) ∧ (⟨1, .host false, 12, 12, true, 0, 0, [16] ++ List.replicate 63 0, none⟩ : CryJob).op = 16) ∧
    (let s := updKey (fun k => { k with queue := [(⟨1, .host false, 12, 12, true, 0, 0, [14] ++ List.replicate 63 0, none⟩ : CryJob)] }) (st);
      islOpen islHC s = true ∧ s.key.pk.isSome = false ∧ (s.key.queue.find? fun x => opPk x.op == true) = some (⟨1, .host false, 12, 12, true, 0, 0, [14] ++ List.replicate 63 0, none⟩ : CryJob) ∧ (⟨1, .host false, 12, 12, true, 0, 0, [14] ++ List.replicate 63 0, none⟩ : CryJob).op = 14) ∧
    (let s := updKey (fun k => { k with sym := some (⟨(⟨1, .host false, 12, 12, true, 0, 0, [1] ++ List.replicate 63 0, some .abortedCancel⟩ : CryJob), .done, 0, [], none⟩ : CryRun), pk := some (⟨(⟨1, .host false, 12, 12, true, 0, 0, [8] ++ List.replicate 63 0, none⟩ : CryJob), .failedRefused, 0, [], none⟩ : CryRun) }) (st);
      s.key.sym = some (⟨(⟨1, .host false, 12, 12, true, 0, 0, [1] ++ List.replicate 63 0, some .abortedCancel⟩ : CryJob), .done, 0, [], none⟩ : CryRun) ∧ s.key.pk.isSome = true ∧ (⟨(⟨1, .host false, 12, 12, true, 0, 0, [1] ++ List.replicate 63 0, some .abortedCancel⟩ : CryJob), .done, 0, [], none⟩ : CryRun).job.drop = some .abortedCancel ∧ (⟨(⟨1, .host false, 12, 12, true, 0, 0, [8] ++ List.replicate 63 0, none⟩ : CryJob), .failedRefused, 0, [], none⟩ : CryRun).status ≠ .done) ∧
    (let s := fput F.TAMP_STATUS_TAMPER_LATCH 1 st;
      startRefused (⟨1, .host false, 12, 12, true, 0, 0, [16] ++ List.replicate 63 0, none⟩ : CryJob) s = true) ∧
    (let s := wr (R.KEY_ATTR_s_h 0 0) 0x80002002 st;
      partUse 0 13 s = true ∧ partValid 0 s = true ∧ partType 0 s = 2) ∧
    (let s := wr (R.KEY_ATTR_s_h 63 1) 0x80010001 (wr (R.KEY_USES_s_h 63 1) 1 st);
      partUse 127 16 s = true ∧ 0 < fget (F.KEY_USES_s_h_USES 63 1) s ∧ fget (F.KEY_USES_s_h_USES 63 1) s = 1) := by refine ⟨?_, ?_, ?_, ?_, ?_, ?_⟩ <;> decide +kernel

theorem witness_CryptoJobs_3 :
    (Lets .hc R.KEY_SLOT_CMD true st ∧ (let u := entered .hc R.KEY_SLOT_CMD st; initWorld .hc (ok u) = true ∧ partValid (shadowPart 63) u = false)) ∧
    (let s := wr (R.KEY_ATTR_s_h 63 1) 0x80000001 st;
      Lets .hc R.KEY_SLOT_CMD true s ∧ (let u := entered .hc R.KEY_SLOT_CMD s; partValid (shadowPart 63) u = true)) ∧
    (Lets .hc R.KEY_CNT_CLR true st ∧ (let u := entered .hc R.KEY_CNT_CLR st; initWorld .hc (ok u) = true)) := by refine ⟨?_, ?_, ?_⟩ <;> first | exact lets_and (by decide +kernel) | decide +kernel

theorem witness_TamperCommands_1 :
    (let s := fput F.TAMP_STATUS_TAMPER_LATCH 1 st;
      (⟨1, .host false, 12, 12, true, 0, 0, [0x0A] ++ List.replicate 63 0, none⟩ : CryJob).op = 0x0A ∧ (⟨1, .host false, 12, 12, true, 0, 0, [0x10] ++ List.replicate 63 0, none⟩ : CryJob).op = 0x10 ∧ ftst F.TAMP_STATUS_TAMPER_LATCH s = true) := by decide +kernel

theorem witness_TamperCommands_2 :
    (let s := fput F.TAMP_STATUS_ACTIVE 1 st;
      Lets .hc R.TAMP_CMD true s ∧ (let u := entered .hc R.TAMP_CMD s; initWorld .hc (ok u) = true ∧ ftst F.TAMP_STATUS_ACTIVE u = true)) ∧
    (Lets .hc R.TAMP_CMD true st ∧ (let u := entered .hc R.TAMP_CMD st; ftst F.TAMP_STATUS_ACTIVE u = false)) ∧
    (Lets .hc R.TAMP_CFG true st ∧ (let u := entered .hc R.TAMP_CFG st; initWorld .hc (ok u) = true)) := by refine ⟨?_, ?_, ?_⟩ <;> first | exact lets_and (by decide +kernel) | decide +kernel

theorem witness_SupplyStages_1 :
    (fget (F.BLW_TH_k 3) st ≤ fget (F.BLW_TH_k 3) st + 299 ∧ fget (F.BLW_TH_k 3) st + 299 < fget (F.BLW_TH_k 3) st + 300 ∧ 0 < fget (F.BLW_TH_k 3) st ∧ st.blw.low[3] < 100) ∧
    (let s := updBlw (fun b => { b with low := Vector.replicate 4 100, high := Vector.replicate 4 100 }) st;
      100 ≤ s.blw.low[3] ∧ 100 ≤ s.blw.high[3] ∧ s.blw.entered[3] = false ∧ (blwCount 0 3 s).blw.entered[3] = true) ∧
    (let s := updHart 7 (fun h => { h with parkDue := some 0 }) st;
      (s.harts[7]).parkDue = some 0 ∧ (s.harts[7]).world = false ∧ ftst F.SYSCTL_BIST_STAT_BUSY s = false ∧ 0 ≤ s.now) ∧
    (let s := updBlw (fun b => { b with logStop := some 0 }) (fput (F.IC_SRC_CFG_i_TARGET 444) 36 st);
      s.blw.logStop = some 0 ∧ 0 ≤ s.now ∧ sealEngine s = some 23) ∧
    (let s := updBlw (fun b => { b with logStop := some 0 }) st;
      s.blw.logStop = some 0 ∧ sealEngine s = none) ∧
    ((165 : Int) ≤ 165 ∧ st.blw.thermOn = false ∧ (150 : Int) ≤ 150 ∧ (149 : Int) < 150) := by refine ⟨?_, ?_, ?_, ?_, ?_, ?_⟩ <;> decide +kernel

theorem witness_SupplyStages_2 :
    (let s := updBlw (fun b => { b with thermOn := true }) st;
      s.blw.thermOn = true ∧ (144 : Int) < 145 ∧ (145 : Int) ≤ 145) := by decide +kernel

theorem witness_WatchdogsAndSelfTest_1 :
    (let s := updBlw (fun b => { b with wdOn := false }) st;
      Lets .hc R.WDOG_WD_KICK true s ∧ (let u := entered .hc R.WDOG_WD_KICK s; wdRunning u = false)) ∧
    (Lets .hc R.WDOG_WD_KICK true st ∧ (let u := entered .hc R.WDOG_WD_KICK st; wdRunning u = true ∧ u.blw.wdFirst = none)) ∧
    (let s := later 10000000000 (updBlw (fun b => { b with wdFirst := some (10000000000 - 100000) }) st);
      Lets .hc R.WDOG_WD_KICK true s ∧ (let u := entered .hc R.WDOG_WD_KICK s; wdRunning u = true ∧ u.blw.wdFirst = some (10000000000 - 100000) ∧ u.now ≤ 10000000000 - 100000 + 100000 ∧ fget F.WDOG_WD_CFG_WINDOW u * wdPeriod u ≤ (u.now - u.blw.wdStart) * 4 ∧ u.blw.wdStart + wdPeriod u ≤ u.now)) ∧
    (let s := later 10000000000 (updBlw (fun b => { b with wdFirst := some 0 }) st);
      Lets .hc R.WDOG_WD_KICK true s ∧ (let u := entered .hc R.WDOG_WD_KICK s; wdRunning u = true ∧ u.blw.wdFirst = some 0 ∧ 0 + 100000 < u.now)) ∧
    (Lets .hc R.WDOG_WD_CFG true st ∧ True) ∧
    (Lets (.hart 7) (R.WDOG_HB_KICK_c 15) true st ∧ (let u := entered (.hart 7) (R.WDOG_HB_KICK_c 15) st; ftst (F.WDOG_HB_CFG_c_EN 15) u = false)) := by refine ⟨?_, ?_, ?_, ?_, ?_, ?_⟩ <;> first | exact lets_and (by decide +kernel) | decide +kernel

theorem witness_WatchdogsAndSelfTest_2 :
    (let s := fput (F.WDOG_HB_CFG_c_EN 15) 1 st;
      Lets (.hart 7) (R.WDOG_HB_KICK_c 15) true s ∧ (let u := entered (.hart 7) (R.WDOG_HB_KICK_c 15) s; ftst (F.WDOG_HB_CFG_c_EN 15) u = true)) := lets_and (by decide +kernel)

theorem witness_WatchdogsAndSelfTest_3 :
    (let s := later 10000000000 (fput (F.WDOG_HB_CFG_c_EN 15) 1 (fput (F.WDOG_HB_STAT_c_STATE 15) 1 st));
      ftst (F.WDOG_HB_CFG_c_EN 15) s = true ∧ hbSuspended 15 s = false ∧ fget (F.WDOG_HB_STAT_c_STATE 15) s = 1 ∧ s.blw.hbKick[15] + clampNat 50 10000 (fget (F.WDOG_HB_CFG_c_TIMEOUT_US 15) s) * 1000 ≤ s.now) ∧
    (let s := updIslT 20 .off (fput (F.WDOG_HB_CFG_c_EN 15) 1 (fput (F.WDOG_HB_CFG_c_PRIMARY 15) 20 (fput (F.WDOG_HB_STAT_c_STATE 15) 1 st)));
      hbSuspended 15 s = false ∧ hbIsland 15 s = some 20 ∧ islSt 20 s = .off) := by refine ⟨?_, ?_⟩ <;> decide +kernel

theorem witness_WatchdogsAndSelfTest_4 :
    (Lets .hc R.SYSCTL_BIST_REQ true st ∧ (let u := entered .hc R.SYSCTL_BIST_REQ st; ftst F.SYSCTL_BIST_STAT_PENDING u = false ∧ ftst F.SYSCTL_BIST_STAT_BUSY u = false)) ∧
    (let s := fput F.SYSCTL_BIST_STAT_PENDING 1 st;
      Lets .hc R.SYSCTL_BIST_REQ true s ∧ (let u := entered .hc R.SYSCTL_BIST_REQ s; ftst F.SYSCTL_BIST_STAT_PENDING u = true)) ∧
    (Lets .hc R.SYSCTL_BIST_GRANT true st ∧ (let u := entered .hc R.SYSCTL_BIST_GRANT st; bistPending 7 u = false)) ∧
    (let s := fput F.SYSCTL_BIST_STAT_HART 7 (fput F.SYSCTL_BIST_STAT_PENDING 1 st);
      Lets .hc R.SYSCTL_BIST_GRANT true s ∧ (let u := entered .hc R.SYSCTL_BIST_GRANT s; bistPending 7 u = true ∧ (u.harts[7]).parked = false ∧ (u.harts[7]).world = false)) := by refine ⟨?_, ?_, ?_, ?_⟩ <;> first | exact lets_and (by decide +kernel) | decide +kernel

theorem witness_WatchdogsAndSelfTest_5 :
    (let s := later 100000000 (fput F.SYSCTL_BIST_STAT_PENDING 1 st);
      ftst F.SYSCTL_BIST_STAT_PENDING s = true ∧ s.blw.bistAsk + 100000000 ≤ s.now) ∧
    (let s := fput F.SYSCTL_BIST_STAT_BUSY 1 st;
      ftst F.SYSCTL_BIST_STAT_BUSY s = true ∧ s.blw.bistEnd ≤ s.now) := by refine ⟨?_, ?_⟩ <;> decide +kernel

theorem witness_WatchdogsAndSelfTest_6 :
    (Lets .hc R.BLW_CNT_CLR true st ∧ True) ∧
    (Lets .hc R.SYSCTL_CNT_CLR true st ∧ True) := by refine ⟨?_, ?_⟩ <;> first | exact lets_and (by decide +kernel) | decide +kernel

theorem witness_ChipResets_1 :
    (Lets .hc R.SYSCTL_CHIP_RST true st ∧ (let u := entered .hc R.SYSCTL_CHIP_RST st; initWorld .hc (ok u) = true)) := lets_and (by decide +kernel)

theorem witness_ChipResets_2 :
    (3 ≤ 7 ∧ 7 ≤ 7 ∧ (126 : Fin 128).1 % 2 = 0 ∧ partUse 126 17 st = false) := by decide +kernel

end Sys2Proof.Tests
end

/-!
Every step keeps the state sound (O3): one rule for each function of the model that answers a state, said of the function by name. A rule takes the fact about the state
that goes in and answers the fact about the state that comes out, so the rules chain as the functions do.
-/
namespace Sys2Proof.Machine

/-- A sound state in whose queue `q` waits: what every effect of a command keeps. -/
structure Kept (q : List Instr) (s : State) : Prop where
  sound : Sound s
  pending : s.pending = q

variable {q : List Instr} {s t : State}

/-! ### Shapes of effects -/

/-- A change of anything but the queue, the registers, the memory and the settings flash. -/
theorem Kept.same {cwy now resp fresh isl time log sig harts railA railB own trg cap trgShadows cam can lin nm eng issuer sw vqi mbox pulses pd fio ic pair
    heron key boot blw}
    (h : Kept q s) : Kept q { s with
      cwy := cwy, now := now, resp := resp, fresh := fresh, isl := isl, time := time, log := log, sig := sig, harts := harts, railA := railA, railB :=
      railB, own := own, trg := trg, cap := cap, trgShadows := trgShadows, cam := cam, can := can, lin := lin, nm := nm, eng := eng, issuer := issuer,
      sw := sw, vqi := vqi, mbox := mbox, pulses := pulses, pd := pd, fio := fio, ic := ic, pair := pair, heron := heron, key := key, boot := boot,
      blw := blw } :=
  ⟨h.sound, h.pending⟩

theorem Kept.ite {c : Prop} [Decidable c] (ha : Kept q s) (hb : Kept q t) : Kept q (if c then s else t) := by
  split
  · exact ha
  · exact hb

theorem Kept.foldl {α : Type} {l : List α} {f : State → α → State} (h : Kept q s) (hf : ∀ {u x}, Kept q u → Kept q (f u x)) :
    Kept q (l.foldl f s) := by
  induction l generalizing s with
  | nil => exact h
  | cons x l ih => exact ih (hf h)

/-- A choice between two answers. -/
theorem Kept.ite₂ {α : Type} {x y : α × State} {c : Prop} [Decidable c] (hx : Kept q x.2) (hy : Kept q y.2) : Kept q (if c then x else y).2 := by
  split
  · exact hx
  · exact hy

/-- A fold whose accumulator holds a value beside the state. -/
theorem Kept.foldl₂ {α β : Type} {l : List α} {f : β × State → α → β × State} {p : β × State} (h : Kept q p.2)
    (hf : ∀ {p x}, Kept q p.2 → Kept q (f p x).2) : Kept q (l.foldl f p).2 := by
  induction l generalizing p with
  | nil => exact h
  | cons x l ih => exact ih (hf h)

theorem Kept.pair {α : Type} {a : α} (h : Kept q s) : Kept q (a, s).2 := h

theorem Kept.triple {α β : Type} {a : α} {b : β} (h : Kept q s) : Kept q (a, b, s).2.2 := h

/-- The state of an answer that is a pair. -/
theorem Kept.snd {α : Type} {p : α × State} {a : α} (h : Kept q p.2) (e : p = (a, t)) : Kept q t := by
  subst e
  exact h

/-- The state that stands first in an answer. -/
theorem Kept.fst {α : Type} {p : State × α} {a : α} (h : Kept q p.1) (e : p = (t, a)) : Kept q t := by
  subst e
  exact h

/-- The state of an answer that is a triple. -/
theorem Kept.snd₃ {α β : Type} {p : α × β × State} {a : α} {b : β} (h : Kept q p.2.2) (e : p = (a, b, t)) : Kept q t := by
  subst e
  exact h

/-- An outcome that is a next state, sound and with `q` in its queue. -/
def Completes (q : List Instr) (o : Host.Outcome State Fault Refusal) : Prop := ∃ t, o = .next t ∧ Kept q t

theorem Completes.next (h : Kept q t) : Completes q (.next t) := ⟨t, rfl, h⟩

/-! ### Register and memory operations -/

theorem Kept.wr {a v} (h : Kept q s) : Kept q (wr a v s) := by
  obtain ⟨⟨hregs, hmem, hflash⟩, hq⟩ := h
  exact ⟨⟨regsWf_wr hregs, hmem, hflash⟩, hq⟩

theorem Kept.fput {f v} (h : Kept q s) : Kept q (fput f v s) := h.wr

theorem Kept.fputI {f v} (h : Kept q s) : Kept q (fputI f v s) := h.fput

theorem Kept.fputSat {f v} (h : Kept q s) : Kept q (fputSat f v s) := h.fputI

theorem Kept.raise {f n} (h : Kept q s) : Kept q (raise f n s) := h.wr

theorem Kept.lower {f n} (h : Kept q s) : Kept q (lower f n s) := h.wr

theorem Kept.bumpBy {n a} (h : Kept q s) : Kept q (bumpBy n a s) := h.wr

theorem Kept.bump {a} (h : Kept q s) : Kept q (bump a s) := h.bumpBy

theorem Kept.clearRegs {as} (h : Kept q s) : Kept q (clearRegs as s) := h.foldl fun h => h.wr

theorem Kept.dropRegs {lo hi} (h : Kept q s) : Kept q (dropRegs lo hi s) := by
  obtain ⟨⟨hregs, hmem, hflash⟩, hq⟩ := h
  exact ⟨⟨regsWf_dropRegs hregs, hmem, hflash⟩, hq⟩

theorem Kept.mwr {a v} (h : Kept q s) : Kept q (mwr a v s) := by
  obtain ⟨⟨hregs, hmem, hflash⟩, hq⟩ := h
  exact ⟨⟨hregs, wf_mwr hmem, hflash⟩, hq⟩

theorem Kept.mwrN {a n v} (h : Kept q s) : Kept q (mwrN a n v s) := by
  induction n generalizing a v s with
  | zero => exact h
  | succ n ih => exact ih h.mwr

theorem Kept.mwrBytes {a d} (h : Kept q s) : Kept q (mwrBytes a d s) := by
  induction d generalizing a s with
  | nil => exact h
  | cons b d ih => exact ih h.mwr

theorem Kept.dropMem {lo hi} (h : Kept q s) : Kept q (dropMem lo hi s) := by
  obtain ⟨⟨hregs, hmem, hflash⟩, hq⟩ := h
  exact ⟨⟨hregs, wf_dropMem hmem, hflash⟩, hq⟩

theorem Kept.answer {st d} (h : Kept q s) : Kept q (answer st d s) := h.same

theorem Kept.ok (h : Kept q s) : Kept q (ok s) := h.answer

theorem Kept.bad (h : Kept q s) : Kept q (bad s) := h.answer

theorem Kept.useFree (h : Kept q s) : Kept q (useFree s) := h.same

theorem Kept.whenB {c} {f : State → State} (h : Kept q s) (hf : ∀ {u}, Kept q u → Kept q (f u)) : Kept q (whenB c f s) := .ite (hf h) h

theorem Kept.forN {n} {f : Nat → State → State} (h : Kept q s) (hf : ∀ {i u}, Kept q u → Kept q (f i u)) : Kept q (forN n f s) :=
  h.foldl fun h => hf h

theorem Kept.forFin {n} {f : Fin n → State → State} (h : Kept q s) (hf : ∀ {i u}, Kept q u → Kept q (f i u)) : Kept q (forFin n f s) :=
  h.foldl fun h => hf h

theorem Kept.pulse {src} (h : Kept q s) : Kept q (pulse src s) := .ite h h.same

theorem Kept.updIsl {i f} (h : Kept q s) : Kept q (updIsl i f s) := h.same

/-! ### Accesses, ownership and faults of memory -/

theorem Kept.eccLog {a code ue scrub} (h : Kept q s) : Kept q (eccLog a code ue scrub s) :=
  .ite h.wr.wr.same.bump.raise (h.wr.wr.bump.whenB Kept.raise)

theorem Kept.ownLookup {port a} (h : Kept q s) : Kept q (ownLookup port a s).2 := by
  unfold Machine.ownLookup
  split
  · exact .pair h
  split
  · exact .pair h.bump.eccLog
  · exact .pair h.same.bump

theorem Kept.violate {w world inst a write cause} (h : Kept q s) : Kept q (violate w world inst a write cause s) :=
  .ite h.bump.raise.same h.bump.raise.raise

theorem Kept.violateBy {w a write cause} (h : Kept q s) : Kept q (violateBy w a write cause s) := h.violate

theorem Kept.ownCheck {port code world inst a write} (h : Kept q s) : Kept q (ownCheck port code world inst a write s).2 := by
  unfold Machine.ownCheck
  split
  · exact .pair h.violate.bump
  split
  · exact .pair h
  split
  · exact .pair h
  split
  · exact .pair h.violate
  split
  · next heq => exact .pair (h.ownLookup.snd heq).violate.raise
  · next heq =>
      split
      · exact .pair (h.ownLookup.snd heq)
      · exact .pair (h.ownLookup.snd heq).violate

theorem Kept.initCheck {w a write} (h : Kept q s) : Kept q (initCheck w a write s).2 := h.ownCheck

theorem Kept.logUnmapped {code a} (h : Kept q s) : Kept q (logUnmapped code a s) := h.bump.raise.wr.wr

theorem Kept.rangeCheck {w write a n} (h : Kept q s) : Kept q (rangeCheck w write a n s).2 := by
  induction n generalizing a s with
  | zero => exact h
  | succ n ih =>
    unfold Machine.rangeCheck
    split
    · next heq => exact h.ownCheck.snd heq
    · next heq => exact ih (h.ownCheck.snd heq)

theorem Kept.dmaCheck {w write a n} (h : Kept q s) : Kept q (dmaCheck w write a n s).2 := by
  unfold Machine.dmaCheck
  split
  · exact .pair h
  split
  · exact .pair h.logUnmapped
  · exact h.rangeCheck

theorem Kept.dmaRead {w a n} (h : Kept q s) : Kept q (dmaRead w a n s).2 := by
  unfold Machine.dmaRead
  split
  · next heq => exact .pair (h.dmaCheck.snd heq)
  · next heq => exact .pair (h.dmaCheck.snd heq)

theorem Kept.dmaWrite {w a d} (h : Kept q s) : Kept q (dmaWrite w a d s).2 := by
  unfold Machine.dmaWrite
  split
  · next heq => exact .pair (h.dmaCheck.snd heq)
  · next heq => exact .pair (h.dmaCheck.snd heq).mwrBytes

theorem Kept.breakLock (h : Kept q s) : Kept q (breakLock s) := h.same.bump.raise

theorem Kept.fabricWait {a} (h : Kept q s) : Kept q (fabricWait a s) := .ite h.breakLock h

theorem Kept.regAccess {w a write} {f : State → State} (h : Kept q s) (hf : ∀ {u}, Kept q u → Kept q (f u)) : Kept q (regAccess w a write f s) := by
  unfold Machine.regAccess
  split
  · next heq => exact (h.initCheck.snd heq).answer
  · next heq => exact .ite (hf (h.initCheck.snd heq).fabricWait.ok) (h.initCheck.snd heq).answer

theorem Kept.regCmd {w a} {f : State → State} (h : Kept q s) (hf : ∀ {u}, Kept q u → Kept q (f u)) : Kept q (regCmd w a f s) := h.regAccess hf

theorem Kept.regRead {w a} {f : State → State} (h : Kept q s) (hf : ∀ {u}, Kept q u → Kept q (f u)) : Kept q (regRead w a f s) := h.regAccess hf

theorem Kept.hearthOnly {w} {f : State → State} (h : Kept q s) (hf : ∀ {u}, Kept q u → Kept q (f u)) : Kept q (hearthOnly w f s) := .ite (hf h) h.bad

/-! ### The event log -/

theorem Kept.countLost (h : Kept q s) : Kept q (countLost s) := h.same.bump.raise

theorem Kept.sinkLose (h : Kept q s) : Kept q (sinkLose s) := h.same.countLost

theorem Kept.sinkPut {r} (h : Kept q s) : Kept q (sinkPut r s) := h.same

theorem Kept.logOwn {r} (h : Kept q s) : Kept q (logOwn r s) := .ite h (.ite h.sinkPut h.sinkLose)

theorem Kept.logTime {sub value} (h : Kept q s) : Kept q (logTime sub value s) := h.logOwn

theorem Kept.logFault {origin source code status detail} (h : Kept q s) : Kept q (logFault origin source code status detail s) := h.logOwn

/-! ### Time: servo, twins and islands of the clock -/

theorem Kept.advance {n} (h : Kept q s) : Kept q (advance n s) := h.same

theorem Kept.elapseTo {t} (h : Kept q s) : Kept q (elapseTo t s) := h.advance

theorem Kept.elapseVt {v} (h : Kept q s) : Kept q (elapseVt v s) := .ite h h.advance

theorem Kept.updTime {f} (h : Kept q s) : Kept q (updTime f s) := h.same

theorem Kept.onCopied {f} (h : Kept q s) : Kept q (onCopied f s) := h.updTime

theorem Kept.keepPast {old} (h : Kept q s) : Kept q (keepPast old s) := .ite h h.updTime

theorem Kept.setFreq {f} (h : Kept q s) : Kept q (setFreq f s) := h.onCopied.fputI.keepPast

theorem Kept.setInteg {i} (h : Kept q s) : Kept q (setInteg i s) := h.onCopied

theorem Kept.showQuality (h : Kept q s) : Kept q (showQuality s) := h.fput

theorem Kept.learn (h : Kept q s) : Kept q (learn s) := by
  unfold Machine.learn
  exact h.onCopied.updTime

theorem Kept.enterState {st} (h : Kept q s) : Kept q (enterState st s) :=
  have h1 := Kept.ite h.fput.updTime h.fput
  (Kept.ite h1.setFreq h1).updTime.showQuality

theorem Kept.enterHoldover (h : Kept q s) : Kept q (enterHoldover s) := h.updTime.enterState.raise.logTime

theorem Kept.putStepPend {v} (h : Kept q s) : Kept q (putStepPend v s) := h.wr.wr

theorem Kept.dropStep (h : Kept q s) : Kept q (dropStep s) := h.updTime.fput

theorem Kept.acceptStep {theta} (h : Kept q s) : Kept q (acceptStep theta s) := h.updTime.fput

theorem Kept.feed {theta rx src} (h : Kept q s) : Kept q (feed theta rx src s) :=
  have h1 := h.setInteg.setFreq.updTime
  have h2 := Kept.ite h1.learn h1
  .ite h2.enterState.logTime h2

theorem Kept.refuse {theta src changed} (h : Kept q s) : Kept q (refuse theta src changed s) := by
  unfold Machine.refuse
  extract_lets tn s1 tol
  split
  · exact
      have h1 := (Kept.ite h (h.updTime.enterState.raise.logTime.whenB fun h => h.raise.logTime)).updTime.putStepPend
      .ite h1.acceptStep h1

theorem Kept.judge {theta src rx} (h : Kept q s) : Kept q (judge theta src rx s) := by
  unfold Machine.judge
  extract_lets s1 th jump changed policy forced s2 st
  have h1 : Kept q s2 := h.fputSat.updTime
  split
  · exact .ite h1.refuse h1.updTime.acceptStep.enterState.setInteg.updTime
  split
  · split
    · exact
        have h2 := h1.putStepPend
        (Kept.ite h2.setInteg h2).updTime.enterState.feed
    · exact h1.refuse
  split
  · exact .ite (h1.setInteg.enterState.whenB fun h => h.raise.logTime).feed h1.refuse
  · exact .ite h1 (.ite h1.refuse (Kept.ite h1.enterState.raise.logTime h1).feed)

theorem Kept.refuseSample (h : Kept q s) : Kept q (refuseSample s) := h.bump.raise

theorem Kept.pushSample {w w0 w1 v} (h : Kept q s) : Kept q (pushSample w w0 w1 v s).2 := by
  unfold Machine.pushSample
  split
  · exact .pair h.refuseSample
  extract_lets p
  split
  · exact .pair h.updTime
  · exact .pair h.refuseSample

theorem Kept.track {slot theta} (h : Kept q s) : Kept q (track slot theta s) := h.fputSat

theorem Kept.updTwin {d f} (h : Kept q s) : Kept q (updTwin d f s) := h.updTime

theorem Kept.putAgree {n} (h : Kept q s) : Kept q (putAgree n s) := h.fput

theorem Kept.setTwin {d st} (h : Kept q s) : Kept q (setTwin d st s) := .ite h h.fput.updTwin

theorem Kept.chooseSteer (h : Kept q s) : Kept q (chooseSteer s) := h.fput

theorem Kept.setBase {d b} (h : Kept q s) : Kept q (setBase d b s) := h.updTwin.fputSat

theorem Kept.makeAbsent {d} (h : Kept q s) : Kept q (makeAbsent d s) :=
  have h1 := h.setTwin.updTwin
  (Kept.ite h1.updTime.putAgree h1).chooseSteer

theorem Kept.relearn {d} (h : Kept q s) : Kept q (relearn d s) := by
  unfold Machine.relearn
  extract_lets s1
  split
  · exact h.setTwin.setBase
  · exact h.setTwin

theorem Kept.learnBase {d agree} (h : Kept q s) : Kept q (learnBase d agree s) := by
  unfold Machine.learnBase
  extract_lets jumpTh
  split
  · exact h.setBase
  · exact .ite h.updTwin.setBase (.ite (.ite h.updTwin.setBase h.updTwin) h.updTwin)
  · exact h

theorem Kept.steerVerdict {d} (h : Kept q s) : Kept q (steerVerdict d s).2 := .pair h.chooseSteer

theorem Kept.pathAsym {lastDir est} (h : Kept q s) : Kept q (pathAsym lastDir est s) := h.fput.fputSat.raise.logTime

theorem Kept.jointSample {d theta} (h : Kept q s) : Kept q (jointSample d theta s).2 := by
  unfold Machine.jointSample
  extract_lets s1 s2
  have h1 : Kept q s2 := (Kept.ite h.setTwin h).updTwin
  split
  · split
    · exact .pair h1.updTime.putAgree.updTime.relearn.relearn.raise.chooseSteer
    · exact .pair h1.updTime.putAgree
  · exact .pair h1

theorem Kept.twinCheck {d theta delay gm} (h : Kept q s) : Kept q (twinCheck d theta delay gm s).2 := by
  unfold Machine.twinCheck
  extract_lets o s1 differs s2 s3 s4 s5
  have h1 : Kept q s1 := h.updTwin
  have h4 : Kept q s4 := (Kept.ite h1.makeAbsent h1).updTwin.fputSat
  have h5 : Kept q s5 := by
    unfold s5
    split
    · exact h4.setBase
    · exact h4
  split
  · exact .pair (.ite h1 h1.makeAbsent)
  split
  · exact h5.jointSample
  split
  · exact .ite₂ (.pair h5) h5.setTwin.learnBase.steerVerdict
  split
  · exact .ite₂ (.ite₂ h5.putAgree.relearn.raise.steerVerdict (.pair h5.putAgree)) (.pair h5.putAgree)
  exact .ite₂ h5.setTwin.learnBase.steerVerdict (.ite₂ (.pair h5.setTwin.putAgree.pathAsym.chooseSteer)
    (.ite₂ h5.setTwin.putAgree.setTwin.learnBase.pathAsym.steerVerdict (.pair h5.setTwin.setTwin.putAgree.updTime.pathAsym.chooseSteer)))

theorem Kept.takeSample {p} (h : Kept q s) : Kept q (takeSample p s) := by
  unfold Machine.takeSample
  extract_lets theta
  split
  · exact h.track
  split
  · split
    · exact h.track
    split
    · exact h.bump
    split
    · next heq => exact (h.twinCheck.snd heq).judge
    · next heq => exact h.twinCheck.snd heq
    · next heq => exact (h.twinCheck.snd heq).bump
    · next heq => exact (h.twinCheck.snd heq).track
    · next heq => exact .ite (h.twinCheck.snd heq) (h.twinCheck.snd heq).enterHoldover
  · exact .ite h.track (.ite h.bump h.judge)

theorem Kept.twinReset (h : Kept q s) : Kept q (twinReset s) := h.updTime.clearRegs.wr

theorem Kept.updTimeIsl {b f} (h : Kept q s) : Kept q (updTimeIsl b f s) := h.updTime

theorem Kept.setMaster {b} (h : Kept q s) : Kept q (setMaster b s) := .ite h h.fput.logTime.keepPast

theorem Kept.markFaulty {b} (h : Kept q s) : Kept q (markFaulty b s) := by
  unfold Machine.markFaulty
  exact h.fput.updTimeIsl.updTime

theorem Kept.takeHeld {b} (h : Kept q s) : Kept q (takeHeld b s) := (h.foldl fun h => h.wr).foldl fun h => h.wr

theorem Kept.freshFault (h : Kept q s) : Kept q (freshFault s) := h.updTime

theorem Kept.countSplit (h : Kept q s) : Kept q (countSplit s) := by
  unfold Machine.countSplit
  split
  · exact h.updTime

theorem Kept.copyIsland (h : Kept q s) : Kept q (copyIsland s) := by
  unfold Machine.copyIsland
  exact h.updTimeIsl.updTime

theorem Kept.compareIslands {driftA driftB} (h : Kept q s) : Kept q (compareIslands driftA driftB s) := by
  unfold Machine.compareIslands
  extract_lets s1 bend s2 f faulty both skip s3
  have h1 : Kept q s3 := h.elapseTo.updTime.updTime
  split
  · exact h1
  split
  · exact .ite h1.copyIsland h1
  split
  · exact h1
  split
  · split
    · exact h1.fputSat
    split
    · exact .ite h1.fputSat.fput.updTime h1.fputSat.updTime
    · exact
        have h2 := h1.fputSat.updTime.countSplit
        .ite h2.updTimeIsl h2
  · exact .ite h1.fputSat.raise.bump.countSplit.setMaster.markFaulty h1.fputSat

theorem Kept.moveVt {target} (h : Kept q s) : Kept q (moveVt target s) := by
  unfold Machine.moveVt
  exact h.onCopied.keepPast.fput.raise.updTime

/-! ### Triggers and captures -/

theorem Kept.putTrgState {n st} (h : Kept q s) : Kept q (putTrgState n st s) := h.fput

theorem Kept.updTrg {n f} (h : Kept q s) : Kept q (updTrg n f s) := h.same

theorem Kept.skipInstant {n} (h : Kept q s) : Kept q (skipInstant n s) := h.bump.raise

theorem Kept.leadingEdge {n at_} (h : Kept q s) : Kept q (leadingEdge n at_ s) :=
  have h1 := h.putTrgState.updTrg.fput.fput.fput
  .ite h1.putTrgState.raise h1

theorem Kept.instantReached {n at_} (h : Kept q s) : Kept q (instantReached n at_ s) := .ite h.updTrg.skipInstant h.updTrg.leadingEdge

theorem Kept.skipMany {n m} (h : Kept q s) : Kept q (skipMany n m s) := .ite h h.updTrg.bumpBy.raise

theorem Kept.skipPassed {n} (h : Kept q s) : Kept q (skipPassed n s) := .ite h.skipMany h

theorem Kept.latePassed {n} (h : Kept q s) : Kept q (latePassed n s) := by
  unfold Machine.latePassed
  split
  · extract_lets m
    split
    · exact h
    · exact
        have h1 := h.skipMany.updTrg
        .ite h1.skipInstant h1.leadingEdge.raise
  · exact h

theorem Kept.lateTriggers (h : Kept q s) : Kept q (lateTriggers s) := h.forFin Kept.latePassed

theorem Kept.skipTriggers (h : Kept q s) : Kept q (skipTriggers s) := h.forFin Kept.skipPassed

theorem Kept.withMasterMove {f : State → State} (h : Kept q s) (hf : ∀ {u}, Kept q u → Kept q (f u)) : Kept q (withMasterMove f s) :=
  .ite (hf h) (hf h).lateTriggers

theorem Kept.trgStop {n} (h : Kept q s) : Kept q (trgStop n s) := .ite h.putTrgState (.ite h.putTrgState h)

theorem Kept.trgStart {n} (h : Kept q s) : Kept q (trgStart n s) := .ite h.putTrgState.updTrg.clearRegs h.raise

theorem Kept.execTrailingEdge {n} (h : Kept q s) : Completes q (execTrailingEdge n s) := by
  unfold Machine.execTrailingEdge
  refine Completes.next ?_
  split
  · exact h
  · exact
      have h1 := h.advance.updTrg.fput
      .ite h1.putTrgState h1

theorem Kept.trgLastRead {w n} (h : Kept q s) : Kept q (trgLastRead w n s) := h.same.answer

theorem Kept.updCap {m f} (h : Kept q s) : Kept q (updCap m f s) := h.same

theorem Kept.showCap {m} (h : Kept q s) : Kept q (showCap m s) := h.fput.wr

theorem Kept.captureEdge {m rise at8 sub} (h : Kept q s) : Kept q (captureEdge m rise at8 sub s) :=
  .ite h.updCap.raise (.ite h.updCap.updCap.bump.raise h.updCap.updCap.showCap)

theorem Kept.capPop {w m} (h : Kept q s) : Kept q (capPop w m s) := by
  unfold Machine.capPop
  split
  · exact h.answer
  · exact h.updCap.showCap.answer

/-! ### Cameras -/

theorem Kept.updCam {n f} (h : Kept q s) : Kept q (updCam n f s) := h.same

theorem Kept.putFrame {n vc f} (h : Kept q s) : Kept q (putFrame n vc f s) := h.updCam.fput

theorem Kept.camBurst {n} (h : Kept q s) : Kept q (camBurst n s) := h.fput.updCam

theorem Kept.camDiscard {n} (h : Kept q s) : Kept q (camDiscard n s) := h.bump

theorem Kept.camBadHeader {n} (h : Kept q s) : Kept q (camBadHeader n s) := h.camDiscard.raise

theorem Kept.markLoss {n vc seq id} (h : Kept q s) : Kept q (markLoss n vc seq id s) := by
  unfold Machine.markLoss
  split
  · exact h.updCam
  split
  · exact .ite h.putFrame h
  · exact h

theorem Kept.arrivalLost {n vc} (h : Kept q s) : Kept q (arrivalLost n vc s) := by
  unfold Machine.arrivalLost
  split
  · exact h.putFrame
  · exact h

theorem Kept.dropLine {n vc seq id} (h : Kept q s) : Kept q (dropLine n vc seq id s) := h.bump.markLoss

theorem Kept.stageLine {n l} (h : Kept q s) : Kept q (stageLine n l s) := h.updCam

theorem Kept.endFrame {n vc arr extra} (h : Kept q s) : Kept q (endFrame n vc arr extra s) := by
  unfold Machine.endFrame
  split
  · exact h
  · exact h.stageLine.putFrame

theorem Kept.abortFrame {n vc arr} (h : Kept q s) : Kept q (abortFrame n vc arr s) := .ite h h.endFrame.bump.raise

theorem Kept.placeVc {n vc} (h : Kept q s) : Kept q (placeVc n vc s) := h.updCam

theorem Kept.moveVcs {k} (h : Kept q s) : Kept q (moveVcs k s) := h.forFin Kept.updCam

theorem Kept.openFrame {n vc num} (h : Kept q s) : Kept q (openFrame n vc num s) := h.fput.putFrame.whenB Kept.raise

theorem Kept.execCsiFrameStart {n vc num ecc} (h : Kept q s) : Completes q (execCsiFrameStart n vc num ecc s) := Completes.next <|
  .ite h (.ite h.camBurst.camBadHeader (.ite h.camBurst.camDiscard h.camBurst.placeVc.abortFrame.openFrame))

theorem Kept.execCsiLineStart {n vc num ecc} (h : Kept q s) : Completes q (execCsiLineStart n vc num ecc s) := by
  unfold Machine.execCsiLineStart
  refine Completes.next ?_
  split
  · exact h
  extract_lets s1
  split
  · exact h.camBurst.camBadHeader
  split
  · exact h.camBurst.camDiscard
  split
  · exact h.camBurst.putFrame
  · exact h.camBurst.camDiscard

theorem Kept.takeLine {n vc f dt payload crcOk corrected} (h : Kept q s) : Kept q (takeLine n vc f dt payload crcOk corrected s) := by
  unfold Machine.takeLine
  extract_lets l num s1
  split
  · exact h.putFrame.bump.arrivalLost.raise
  · exact
      have h1 := Kept.ite h.putFrame h.putFrame.bump.raise
      .ite h1.arrivalLost h1.stageLine.putFrame

theorem Kept.execCsiLongPacket {n vc dt payload crcOk ecc} (h : Kept q s) : Completes q (execCsiLongPacket n vc dt payload crcOk ecc s) := by
  unfold Machine.execCsiLongPacket
  refine Completes.next ?_
  split
  · exact h
  extract_lets s1
  split
  · exact h.camBurst.camBadHeader.arrivalLost
  split
  · exact h.camBurst.camDiscard.raise
  split
  · exact h.camBurst.camDiscard
  split
  · exact h.camBurst
  split
  · exact h.camBurst.camDiscard.raise
  split
  · exact h.camBurst.camDiscard.raise
  · exact h.camBurst.takeLine

theorem Kept.execCsiLinkTimeout {n} (h : Kept q s) : Completes q (execCsiLinkTimeout n s) := Completes.next <|
  have h1 := h.elapseTo.fput
  .ite (h1.forFin Kept.abortFrame).raise h1

theorem Kept.unstage {n id} (h : Kept q s) : Kept q (unstage n id s) := h.updCam

theorem Kept.lineFailed {n vc seq id isEnd} (h : Kept q s) : Kept q (lineFailed n vc seq id isEnd s) := .ite h h.dropLine

theorem Kept.lineLost {n id} (h : Kept q s) : Kept q (lineLost n id s) := by
  unfold Machine.lineLost
  split
  · exact h
  · exact h.unstage.lineFailed

theorem Kept.countForwarded {n vc seq} (h : Kept q s) : Kept q (countForwarded n vc seq s) := by
  unfold Machine.countForwarded
  split
  · exact h.putFrame
  · exact h.updCam

theorem Kept.lineSent {n id header mark} (h : Kept q s) : Kept q (lineSent n id header mark s) := by
  unfold Machine.lineSent
  split
  · exact h
  · exact .ite h.updCam h.updCam.countForwarded

theorem Kept.queueLost {n} (h : Kept q s) : Kept q (queueLost n s) := .ite (h.foldl fun h => h.lineLost) h

theorem Kept.execLineItemPush {n} (h : Kept q s) : Completes q (execLineItemPush n s) := by
  unfold Machine.execLineItemPush
  refine Completes.next ?_
  split
  · exact h
  · exact .ite h h.updCam.queueLost

theorem Kept.camAbortFrames {n} (h : Kept q s) : Kept q (camAbortFrames n s) := h.forFin Kept.abortFrame

theorem Kept.camFlush {n} (h : Kept q s) : Kept q (camFlush n s) := h.updCam.bumpBy.fput

/-! ### Output channels -/

theorem Kept.updPd {f} (h : Kept q s) : Kept q (updPd f s) := h.same

theorem Kept.updCh {n f} (h : Kept q s) : Kept q (updCh n f s) := h.updPd

theorem Kept.forCh {f : Fin 48 → State → State} (h : Kept q s) (hf : ∀ {i u}, Kept q u → Kept q (f i u)) : Kept q (forCh f s) := h.foldl fun h => hf h

theorem Kept.chShow {n} (h : Kept q s) : Kept q (chShow n s) := h.fput

theorem Kept.openInrush {n} (h : Kept q s) : Kept q (openInrush n s) := h.updCh.fput

theorem Kept.startPhase {n} (h : Kept q s) : Kept q (startPhase n s) := by
  unfold Machine.startPhase
  split
  · exact h.updCh
  · exact h.updCh

theorem Kept.phaseSettle {n pos} (h : Kept q s) : Kept q (phaseSettle n pos s) := by
  unfold Machine.phaseSettle
  split
  · extract_lets from_
    split
    · exact h.updCh
    split
    · exact h.updCh
    · exact h
  · exact h

theorem Kept.withPhases {d} {f : State → State} (h : Kept q s) (hf : ∀ {u}, Kept q u → Kept q (f u)) : Kept q (withPhases d f s) :=
  (hf h).forCh Kept.phaseSettle

theorem Kept.chChange {n} {f : State → State} (h : Kept q s) (hf : ∀ {u}, Kept q u → Kept q (f u)) : Kept q (chChange n f s) :=
  (Kept.ite (hf h).startPhase.openInrush (.ite (hf h).fput (.ite (hf h).startPhase (hf h)))).chShow

theorem Kept.realignPwm {d} (h : Kept q s) : Kept q (realignPwm d s) := h.withPhases id

theorem Kept.pdEvent {n} (h : Kept q s) : Kept q (pdEvent n s) := h.raise

theorem Kept.chEvent {n b} (h : Kept q s) : Kept q (chEvent n b s) := h.raise

theorem Kept.latchOne {n cause} (h : Kept q s) : Kept q (latchOne n cause s) := .ite h (h.chChange Kept.fput).fput.chEvent.bump

theorem Kept.latch {n cause} (h : Kept q s) : Kept q (latch n cause s) := .ite h (h.latchOne.whenB Kept.latchOne)

theorem Kept.shed {n src} (h : Kept q s) : Kept q (shed n src s) :=
  have h1 := h.chChange fun h => h.raise.updCh
  .ite h1 h1.chEvent.bump.pdEvent

theorem Kept.release {n src} (h : Kept q s) : Kept q (release n src s) := .ite h (h.chChange fun h => .ite h.lower (.ite h.lower.updCh h.lower.updCh))

theorem Kept.settleStage {n} (h : Kept q s) : Kept q (settleStage n s) := .ite h.shed (.ite h.release h)

theorem Kept.applyStage {st} (h : Kept q s) : Kept q (applyStage st s) := h.fput.forCh Kept.settleStage

theorem Kept.loseOne {n} (h : Kept q s) : Kept q (loseOne n s) := by
  unfold Machine.loseOne
  refine h.chChange fun h => ?_
  split
  · exact h.updCh
  · exact h.updCh.fput
  · exact h.updCh

theorem Kept.startHolds (h : Kept q s) : Kept q (startHolds s) := h.forCh Kept.updCh

theorem Kept.ownMeasure (h : Kept q s) : Kept q (ownMeasure s) := h.updPd

theorem Kept.setCstate {c} (h : Kept q s) : Kept q (setCstate c s) := ((h.whenB Kept.ownMeasure).withPhases Kept.fput).applyStage

theorem Kept.loseControl (h : Kept q s) : Kept q (loseControl s) := (h.setCstate.forCh Kept.loseOne).startHolds.pdEvent.bump

theorem Kept.resetNotice (h : Kept q s) : Kept q (resetNotice s) := .ite h.loseControl h

theorem Kept.pdRecord {src tag ch st reason testFail} (h : Kept q s) : Kept q (pdRecord src tag ch st reason testFail s) :=
  have h1 := h.bump.whenB Kept.bump
  .ite h1 (h1.dmaWrite.whenB fun h => h.bump.fput).updPd.fput.fput

theorem Kept.showFill {k} (h : Kept q s) : Kept q (showFill k s) := h.fput

theorem Kept.abortCommands (h : Kept q s) : Kept q (abortCommands s) :=
  (h.forFin fun h => (h.updPd.foldl fun h => h.pdRecord).showFill).updPd.foldl fun h => h.pdRecord

theorem Kept.loadchRegsReset (h : Kept q s) : Kept q (loadchRegsReset s) := by
  unfold Machine.loadchRegsReset
  exact (h.dropRegs.fput.fput.dropRegs.dropRegs.dropRegs.dropRegs.forCh Kept.dropRegs).updPd

theorem Kept.loadchReset (h : Kept q s) : Kept q (loadchReset s) := h.abortCommands.loadchRegsReset

/-! ### Inputs and outputs at the pins -/

theorem Kept.updFio {f} (h : Kept q s) : Kept q (updFio f s) := h.same

theorem Kept.diCompare {mv} (h : Kept q s) : Kept q (diCompare mv s) := h.forFin fun h => .ite h.updFio (.ite h.updFio h)

theorem Kept.diSampleOne {levels i} (h : Kept q s) : Kept q (diSampleOne levels i s) := by
  unfold Machine.diSampleOne
  split
  · exact h
  extract_lets v n s1
  split
  · exact .ite (Kept.ite h.updFio.raise h.updFio.lower).raise h.updFio

theorem Kept.execAiConvert {j v cal} (h : Kept q s) : Completes q (execAiConvert j v cal s) := Completes.next <|
  have h1 := h.whenB fun h => h.fput.fput
  .ite h1 (h1.updFio.fput.fput.updFio.whenB Kept.raise)

/-! ### Flash images and copies -/

theorem Kept.fprog {a v} (h : Kept q s) : Kept q (fprog a v s) := by
  obtain ⟨⟨hregs, hmem, hflash⟩, hq⟩ := h
  exact ⟨⟨hregs, hmem, swf_sput _ _ _ hflash⟩, hq⟩

theorem Kept.fprogBytes {a d} (h : Kept q s) : Kept q (fprogBytes a d s) := by
  induction d generalizing a s with
  | nil => exact h
  | cons b d ih => exact ih h.fprog

theorem Kept.ferase {a n} (h : Kept q s) : Kept q (ferase a n s) := by
  obtain ⟨⟨hregs, hmem, hflash⟩, hq⟩ := h
  exact ⟨⟨hregs, hmem, swf_sdrop _ _ _ hflash⟩, hq⟩

theorem Kept.unitRead {w a n} (h : Kept q s) : Kept q (unitRead w a n s).2 := by
  unfold Machine.unitRead
  split
  · exact .pair h
  split
  · exact .pair h.logUnmapped
  split
  · next heq => exact .pair (h.rangeCheck.snd heq)
  · next heq => exact .pair (h.rangeCheck.snd heq)

/-! ### The causeway and errors of memory -/

theorem Kept.updCwy {f} (h : Kept q s) : Kept q (updCwy f s) := h.same

theorem Kept.copyEnd {st} (h : Kept q s) : Kept q (copyEnd st s) := h.updCwy.fput.fput.raise

theorem Kept.tcmcpyGo {len} (h : Kept q s) : Kept q (tcmcpyGo len s) := .ite h.bad (.ite h.fput.copyEnd h.fput.updCwy.fput)

theorem Kept.execTcmcpyDone {e} (h : Kept q s) : Completes q (execTcmcpyDone e s) := by
  unfold Machine.execTcmcpyDone
  refine Completes.next ?_
  split
  · exact h
  split
  · exact h.copyEnd
  · exact h.copyEnd
  split
  · exact h.copyEnd
  split
  · next heq => exact (h.unitRead.snd heq).copyEnd
  · next heq => exact (h.unitRead.snd heq).mwrBytes.copyEnd

theorem Kept.atomic {w f} (h : Kept q s) : Kept q (atomic w f s) := by
  unfold Machine.atomic
  split
  extract_lets a put
  split
  · next heq => exact (h.initCheck.snd heq).updCwy.bad
  · next heq => exact (h.initCheck.snd heq).mwrN.updCwy

theorem Kept.setResv {i r} (h : Kept q s) : Kept q (setResv i r s) := h.updCwy

theorem Kept.hartExc {i c} (h : Kept q s) : Kept q (hartExc i c s) := h.same

theorem Kept.execHartBankAmo {i op dbl addr v} (h : Kept q s) : Completes q (execHartBankAmo i op dbl addr v s) := by
  unfold Machine.execHartBankAmo
  refine Completes.next ?_
  extract_lets n a
  split
  · exact h.hartExc.answer
  split
  · exact h.hartExc.answer
  split
  · exact h
  split
  · next heq => exact (h.initCheck.snd heq).answer
  · next heq =>
      split
      · exact (h.initCheck.snd heq).answer
      extract_lets o
      split
      · exact (h.initCheck.snd heq).setResv.answer
      · exact .ite (h.initCheck.snd heq).mwrN.setResv.answer (h.initCheck.snd heq).setResv.answer
      · exact (h.initCheck.snd heq).mwrN.answer

theorem Kept.execLrReservationExpire {i} (h : Kept q s) : Completes q (execLrReservationExpire i s) := by
  unfold Machine.execLrReservationExpire
  refine Completes.next ?_
  split
  · exact h
  · exact h.elapseTo.setResv

theorem Kept.execDramScrub {addr found} (h : Kept q s) : Completes q (execDramScrub addr found s) := by
  unfold Machine.execDramScrub
  refine Completes.next ?_
  split
  · exact h
  split
  · exact h
  · exact h.eccLog
  · exact h.eccLog

theorem Kept.showErrlog (h : Kept q s) : Kept q (showErrlog s) := h.fput

theorem Kept.cwyError {e} (h : Kept q s) : Kept q (cwyError e s) := .ite h.bump h.updCwy.showErrlog.raise

theorem Kept.execCwyPostedError {w addr e part be} (h : Kept q s) : Completes q (execCwyPostedError w addr e part be s) := by
  unfold Machine.execCwyPostedError
  refine Completes.next ?_
  split
  · exact h
  split
  · exact h
  · exact h.cwyError
  · exact h.cwyError

theorem Kept.execLockBroken (h : Kept q s) : Completes q (execLockBroken s) := by
  unfold Machine.execLockBroken
  refine Completes.next ?_
  split
  · exact h
  · exact h.elapseTo.breakLock

theorem Kept.errlogPop {w} (h : Kept q s) : Kept q (errlogPop w s) := by
  unfold Machine.errlogPop
  split
  · exact h.answer
  · exact h.updCwy.showErrlog.answer

/-! ### Items that engines and harts hold -/

theorem Kept.updThr {e t f} (h : Kept q s) : Kept q (updThr e t f s) := h.same

theorem Kept.endHolds {pick st} (h : Kept q s) : Kept q (endHolds pick st s) := h.same

/-! ### Network management: segments and wakes -/

theorem Kept.sleepReq {p} (h : Kept q s) : Kept q (sleepReq p s) := .ite h.same.fput h

theorem Kept.wakeReq {p} (h : Kept q s) : Kept q (wakeReq p s) := .ite h.fput h

theorem Kept.updSeg {g f} (h : Kept q s) : Kept q (updSeg g f s) := h.same

theorem Kept.ctlWrite {g} (h : Kept q s) : Kept q (ctlWrite g s) := .ite h h.mwrN.mwrN.mwrN

theorem Kept.nmEvent {g} (h : Kept q s) : Kept q (nmEvent g s) := .ite h h.same

theorem Kept.maxSettle {g} (h : Kept q s) : Kept q (maxSettle g s) := h.updSeg

theorem Kept.dropWisps {g} (h : Kept q s) : Kept q (dropWisps g s) := by
  unfold Machine.dropWisps
  split
  · exact h.same
  · exact h

theorem Kept.setSeg {g st} (h : Kept q s) : Kept q (setSeg g st s) := (h.updSeg.whenB Kept.dropWisps).fput.maxSettle.raise.ctlWrite.nmEvent

theorem Kept.formConsent {g} (h : Kept q s) : Kept q (formConsent g s) := h.fput.maxSettle

theorem Kept.startMinAwake {g} (h : Kept q s) : Kept q (startMinAwake g s) := h.updSeg.formConsent

theorem Kept.linInternal {l r} (h : Kept q s) : Kept q (linInternal l r s) := h.same

theorem Kept.frameDue {g} (h : Kept q s) : Kept q (frameDue g s) := h.forFin fun h => .ite h.same h

theorem Kept.sleepAction {g} (h : Kept q s) : Kept q (sleepAction g s) := by
  unfold Machine.sleepAction
  extract_lets s1
  have h1 : Kept q s1 := h.updSeg.frameDue
  split
  · exact h1.sleepReq
  split
  · exact h1.linInternal
  · exact h1

theorem Kept.wakeAction {g} (h : Kept q s) : Kept q (wakeAction g s) := by
  unfold Machine.wakeAction
  split
  · exact h
  extract_lets s1
  split
  · exact .ite h.updSeg.fput h.updSeg.wakeReq
  split
  · exact h.updSeg.linInternal
  · exact h.updSeg

theorem Kept.releaseHeld {g} (h : Kept q s) : Kept q (releaseHeld g s) := by
  unfold Machine.releaseHeld
  split
  · exact h.same
  split
  · exact h.same
  · exact h

theorem Kept.enterAwake {g} (h : Kept q s) : Kept q (enterAwake g s) := h.setSeg.updSeg.releaseHeld

theorem Kept.recordWake {g src} (h : Kept q s) : Kept q (recordWake g src s) := h.fput.startMinAwake

theorem Kept.abortOne {g src} (h : Kept q s) : Kept q (abortOne g src s) := .ite h.bump.raise.recordWake.enterAwake h

theorem Kept.abortGroup {g src} (h : Kept q s) : Kept q (abortGroup g src s) := h.abortOne.forFin fun h => .ite h.abortOne h

theorem Kept.wakeForParent {g} (h : Kept q s) : Kept q (wakeForParent g s) := by
  unfold Machine.wakeForParent
  split
  · exact h
  · exact
      have h1 := h.startMinAwake
      .ite h1.abortGroup h1

theorem Kept.abortPrepare {g src} (h : Kept q s) : Kept q (abortPrepare g src s) := h.abortGroup.wakeForParent

theorem Kept.wakeOne {g src} (h : Kept q s) : Kept q (wakeOne g src s) := h.updSeg.wakeAction.setSeg

theorem Kept.wakeTry {g src} (h : Kept q s) : Kept q (wakeTry g src s) := .ite h.bump h.wakeOne

theorem Kept.wakeSeg {g src} (h : Kept q s) : Kept q (wakeSeg g src s) := .ite h.bump (.ite (h.wakeOne.forFin fun h => .ite h.wakeTry h) h.wakeOne)

theorem Kept.followersLeave {g was} (h : Kept q s) : Kept q (followersLeave g was s) := h.forFin fun h => .ite h (.ite h.abortOne (.ite h.wakeTry h))

theorem Kept.enterPrepare {g} (h : Kept q s) : Kept q (enterPrepare g s) := h.setSeg.forFin fun h => .ite h.setSeg h

theorem Kept.showConsent {g} (h : Kept q s) : Kept q (showConsent g s) :=
  have h1 := h.formConsent
  .ite h1.enterPrepare (.ite h1.abortPrepare h1)

theorem Kept.sluiceDrops {n} (h : Kept q s) : Kept q (sluiceDrops n s) := h.whenB fun h => h.bumpBy.raise

theorem Kept.sluiceDrop (h : Kept q s) : Kept q (sluiceDrop s) := h.sluiceDrops

theorem Kept.sluice {g key} (h : Kept q s) : Kept q (sluice g key s).2 := by
  unfold Machine.sluice
  extract_lets st
  split
  · exact .pair h
  split
  · split
    · exact .pair h.bump.abortPrepare
    · exact .pair h
  split
  · split
    · exact .pair h.bump.wakeSeg
    · exact .pair h.sluiceDrop
  split
  · exact .pair h
  · exact .pair h.sluiceDrop

theorem Kept.showLatch {g} (h : Kept q s) : Kept q (showLatch g s) := .ite h.fput.raise h.fput.lower

theorem Kept.latchWake {g src} (h : Kept q s) : Kept q (latchWake g src s) := h.updSeg.showLatch

theorem Kept.segWakeInput {g src} (h : Kept q s) : Kept q (segWakeInput g src s) :=
  .ite h (.ite h.latchWake (.ite (.ite h h.wakeSeg) (.ite h.bump h)))

/-! ### Virtual queue interfaces -/

theorem Kept.updVqi {f} (h : Kept q s) : Kept q (updVqi f s) := h.same

theorem Kept.putVqiState {i st} (h : Kept q s) : Kept q (putVqiState i st s) := h.fput.fput

theorem Kept.putVqiGen {i g} (h : Kept q s) : Kept q (putVqiGen i g s) := h.fput.fput

theorem Kept.cqWrite {i p rec} (h : Kept q s) : Kept q (cqWrite i p rec s) := by
  unfold Machine.cqWrite
  extract_lets n tail a
  split
  · next heq => exact (h.dmaWrite.snd heq).fput
  · next heq => exact (h.dmaWrite.snd heq).fput

theorem Kept.showOcc {i} (h : Kept q s) : Kept q (showOcc i s) := (h.forFin Kept.fput).whenB Kept.fput

theorem Kept.vqiTake {x} (h : Kept q s) : Kept q (vqiTake x s) := h.updVqi.showOcc

theorem Kept.vqiFinish {d} (h : Kept q s) : Kept q (vqiFinish d s) := h.updVqi

theorem Kept.freezeCheck {i} (h : Kept q s) : Kept q (freezeCheck i s) := .ite h.putVqiState.raise h

theorem Kept.vqiRecord {x d} (h : Kept q s) : Kept q (vqiRecord x d s) := h.cqWrite.updVqi.showOcc

theorem Kept.vqiComplete {d} (h : Kept q s) : Kept q (vqiComplete d s) := by
  unfold Machine.vqiComplete
  split
  · exact h.bump.raise
  · exact h.vqiRecord.freezeCheck

theorem Kept.vqiFill {i bytes cls ingress stamp} (h : Kept q s) : Kept q (vqiFill i bytes cls ingress stamp s) := by
  unfold Machine.vqiFill
  split
  · exact h.bump
  extract_lets len s1 fin
  split
  · exact h.updVqi.vqiFinish
  split
  · next heq => exact (h.updVqi.dmaWrite.snd heq).vqiFinish
  · next heq => exact (h.updVqi.dmaWrite.snd heq).vqiFinish

theorem Kept.vqiDeliver {i bytes vid cls ingress stamp} (h : Kept q s) : Kept q (vqiDeliver i bytes vid cls ingress stamp s).2 :=
  .pair (h.foldl fun h => h.vqiFill)

theorem Kept.migEnd {st reason} (h : Kept q s) : Kept q (migEnd st reason s) := h.updVqi.fput.fput.fput.raise

theorem Kept.migAbort {st} (h : Kept q s) : Kept q (migAbort st s) := .ite h.migEnd h

/-! ### Switch: cell pools -/

theorem Kept.updSw {f} (h : Kept q s) : Kept q (updSw f s) := h.same

theorem Kept.tblPut {t i v} (h : Kept q s) : Kept q (tblPut t i v s) := h.updSw

theorem Kept.ecplOvf (h : Kept q s) : Kept q (ecplOvf s) := h.bump.raise

theorem Kept.ecplRecord {e t count st len} (h : Kept q s) : Kept q (ecplRecord e t count st len s) :=
  .ite h.bump (h.bump.mwrBytes.whenB Kept.ecplOvf).updSw.fput

theorem Kept.moveHead {i r fetched n} (h : Kept q s) : Kept q (moveHead i r fetched n s) := by
  induction n generalizing s with
  | zero => exact h
  | succ n ih => exact .ite h (.ite h (ih h.fput))

theorem Kept.hostTxDone {i r d stamp st at_} (h : Kept q s) : Kept q (hostTxDone i r d stamp st at_ s) :=
  (h.mwr.mwr.whenB Kept.mwrBytes).moveHead.pulse

theorem Kept.lineSegment {n line st} (h : Kept q s) : Kept q (lineSegment n line st s) := by
  unfold Machine.lineSegment
  split
  · exact h
  · exact .ite (.ite h.updSw.lineFailed (h.updSw.whenB Kept.bump)) h.updSw

theorem Kept.submitEnd {sub st len at_} (h : Kept q s) : Kept q (submitEnd sub st len at_ s) := by
  unfold Machine.submitEnd
  split
  · exact h
  · exact h.ecplRecord
  · exact h.hostTxDone
  · exact h.lineSegment
  · exact h.vqiFinish

theorem Kept.noteLow {before} (h : Kept q s) : Kept q (noteLow before s) := h.whenB Kept.raise

theorem Kept.showPool (h : Kept q s) : Kept q (showPool s) := (h.forN fun h => h.fput.fput).fput.noteLow

theorem Kept.poolTake {id half c refs cells} (h : Kept q s) : Kept q (poolTake id half c refs cells s) := h.updSw.showPool

theorem Kept.poolDrop {id half} (h : Kept q s) : Kept q (poolDrop id half s) := h.updSw.showPool

theorem Kept.freePacket {p} (h : Kept q s) : Kept q (freePacket p s) := by
  unfold Machine.freePacket
  split
  · exact h.poolDrop
  · exact h

theorem Kept.updFrame {id f} (h : Kept q s) : Kept q (updFrame id f s) := h.updSw

theorem Kept.frameCheck {id} (h : Kept q s) : Kept q (frameCheck id s) := by
  unfold Machine.frameCheck
  split
  · exact h
  · exact .ite h.updSw.submitEnd h

theorem Kept.copyFail {id k st} (h : Kept q s) : Kept q (copyFail id k st s) := h.updFrame.poolDrop.frameCheck

theorem Kept.copyOut {id half st at_ keep} (h : Kept q s) : Kept q (copyOut id half st at_ keep s) :=
  (Kept.ite h.updFrame h.updFrame.poolDrop).frameCheck

theorem Kept.flushPort {p st pick} (h : Kept q s) : Kept q (flushPort p st pick s) := h.foldl fun h => h.foldl fun h => .ite h.bump.copyFail h

theorem Kept.flushSlept {p} (h : Kept q s) : Kept q (flushSlept p s) := (h.whenB Kept.sluiceDrops).flushPort

theorem Kept.mboxPut {k x} (h : Kept q s) : Kept q (mboxPut k x s).2 := by
  unfold Machine.mboxPut
  split
  · exact .pair h.same
  · exact .pair h

theorem Kept.ptpDrop (h : Kept q s) : Kept q (ptpDrop s) := h.bump.raise

theorem Kept.ptpPut {k x} (h : Kept q s) : Kept q (ptpPut k x s) := by
  unfold Machine.ptpPut
  split
  · next heq => exact h.mboxPut.snd heq
  · next heq => exact (h.mboxPut.snd heq).ptpDrop

theorem Kept.ptpDeliver {p bytes stamp raw} (h : Kept q s) : Kept q (ptpDeliver p bytes stamp raw s) :=
  .ite h (.ite h.ptpDrop (.ite h.bump.ptpPut (h.bump.ptpPut.whenB Kept.ptpPut)))

theorem Kept.ptpSent {p bytes stamp raw} (h : Kept q s) : Kept q (ptpSent p bytes stamp raw s) := .ite h (.ite h.ptpDrop h.bump.ptpPut)

/-! ### Switch: gates and shapers -/

theorem Kept.putArm {p a} (h : Kept q s) : Kept q (putArm p a s) := h.updSw.fput

theorem Kept.gateSwap {p} (h : Kept q s) : Kept q (gateSwap p s) := by
  unfold Machine.gateSwap
  split
  · exact h
  · exact h.putArm.updSw.fput.fput.fput.fput.fput.raise

theorem Kept.gatesAfterStep (h : Kept q s) : Kept q (gatesAfterStep s) := by
  unfold Machine.gatesAfterStep
  refine h.forFin fun h => ?_
  split
  · exact .ite h.gateSwap h
  · exact h

theorem Kept.gateArm {p} (h : Kept q s) : Kept q (gateArm p s) := .ite h.raise h.putArm

theorem Kept.sgateCommit (h : Kept q s) : Kept q (sgateCommit s) := by
  unfold Machine.sgateCommit
  exact (h.foldl fun h => h.updSw).updSw

theorem Kept.putCredit {p c v} (h : Kept q s) : Kept q (putCredit p c v s) := h.updSw

theorem Kept.settleCredit {p c} (h : Kept q s) : Kept q (settleCredit p c s) := .ite h h.putCredit

theorem Kept.payCredit {p c len} (h : Kept q s) : Kept q (payCredit p c len s) := .ite h h.putCredit

theorem Kept.settlePort {p} (h : Kept q s) : Kept q (settlePort p s) := h.forN Kept.settleCredit

/-! ### Switch: the path of a frame -/

theorem Kept.addrRefresh {i} (h : Kept q s) : Kept q (addrRefresh i s) := h.updSw

theorem Kept.learnAddr {p vid bytes} (h : Kept q s) : Kept q (learnAddr p vid bytes s) := by
  unfold Machine.learnAddr
  extract_lets v fid mac
  split
  · exact h
  split
  · exact .ite h (.ite h.addrRefresh h.bump.tblPut.addrRefresh)
  split
  · exact h.tblPut.addrRefresh
  · exact h.bump.raise

theorem Kept.meterFrame {m len} (h : Kept q s) : Kept q (meterFrame m len s).2 := by
  unfold Machine.meterFrame
  extract_lets e cbs ebs k dt c surplus c1 x need put
  split
  · exact .pair h.updSw
  split
  · exact .pair h.updSw
  · exact .pair h.updSw

theorem Kept.dropStream {p c} (h : Kept q s) : Kept q (dropStream p c s) := h.bump

theorem Kept.streamChecks {i p cls bytes} (h : Kept q s) : Kept q (streamChecks i p cls bytes s).2 := by
  unfold Machine.streamChecks
  extract_lets e maxSdu
  split
  · exact .pair h.dropStream
  split
  · exact .pair (h.whenB fun h => h.tblPut.raise).dropStream
  split
  split
  · exact .pair h.dropStream
  split
  · split
    · next heq =>
        split
        · exact .pair (h.meterFrame.snd heq).dropStream
        · exact .pair (h.meterFrame.snd heq)
  · exact .pair h

theorem Kept.frerPut {f r} (h : Kept q s) : Kept q (frerPut f r s) := h.updSw

theorem Kept.frerCount {f w n} (h : Kept q s) : Kept q (frerCount f w n s) := h.tblPut

theorem Kept.frerLatent {f other} (h : Kept q s) : Kept q (frerLatent f other s) := h.whenB Kept.raise

theorem Kept.frerDecide {f p seq} (h : Kept q s) : Kept q (frerDecide f p seq s).2 := by
  unfold Machine.frerDecide
  extract_lets e r begun r1 s1 r2 len
  split
  · exact
      have h1 := (Kept.ite h.frerLatent (.ite h.frerLatent h)).frerPut.frerCount
      .pair (.ite h1 h1.frerCount)

theorem Kept.etherSluice {k key bb} (h : Kept q s) : Kept q (etherSluice k key bb s).2 := by
  unfold Machine.etherSluice
  split
  · split
    · exact .pair h
    split
    · next heq => exact .pair (h.sluice.snd heq)
  · exact .pair h

theorem Kept.sluicePorts {c key l bb} (h : Kept q s) : Kept q (sluicePorts c key l bb s).2.2 := by
  induction l generalizing bb s with
  | nil => exact h
  | cons p l ih =>
    unfold Machine.sluicePorts
    split
    next heq =>
      extract_lets asleep gone s2
      have h2 : Kept q s2 := (h.etherSluice.snd heq).whenB Kept.bump
      split
      next heq =>
        split
        · exact .triple ((ih h2).snd₃ heq)
        · exact .triple ((ih h2).snd₃ heq)

theorem Kept.admitFrame {p bytes cls vid sub mark stamp raw ports} (h : Kept q s) :
    Kept q (admitFrame p bytes cls vid sub mark stamp raw ports s) := by
  unfold Machine.admitFrame
  extract_lets cells id single s1
  split
  next heq =>
    extract_lets refused good s2 half
    have h2 : Kept q s2 := by
      refine (h.updSw.sluicePorts.snd₃ heq).foldl fun h => ?_
      split
      · exact h.bump
      · exact h
    have hhalf : ∀ {b x}, Kept q x.1 → Kept q (half b x).1 := by
      intro b x h
      unfold half
      split
      extract_lets qs
      split
      · exact h
      split
      · exact Kept.poolTake h
      · exact Kept.bump h
    clear_value half
    split
    next heq =>
      have h3 := Kept.fst (hhalf (hhalf h2)) heq
      exact h3.updSw.frameCheck

theorem Kept.settleAll {ports} (h : Kept q s) : Kept q (settleAll ports s) := h.foldl fun h => h.settlePort

theorem Kept.refuseFrame {i bytes} (h : Kept q s) : Kept q (refuseFrame i bytes s) := h.submitEnd

theorem Kept.forwardFrame {i mark handle bytes cls vid stamp raw} (h : Kept q s) : Kept q (forwardFrame i mark handle bytes cls vid stamp raw s) := by
  unfold Machine.forwardFrame
  extract_lets gen ports go
  have hgo : ∀ {l b m u}, Kept q u → Kept q (go l b m u) := fun h => .ite h.refuseFrame h.settleAll.admitFrame
  clear_value gen
  split
  · exact hgo h.tblPut
  · exact hgo h

theorem Kept.withdrawFrame {id} (h : Kept q s) : Kept q (withdrawFrame id s) := h.updSw.showPool

theorem Kept.recoverFrame {f p seq} (h : Kept q s) : Kept q (recoverFrame f p seq s).2 := by
  unfold Machine.recoverFrame
  split
  · split
    · exact .pair h.withdrawFrame.frerPut.frerCount
    · exact h.frerDecide
  · exact h.frerDecide

theorem Kept.keepTie {f p seq id} (h : Kept q s) : Kept q (keepTie f p seq id s) := h.whenB Kept.frerPut

theorem Kept.ingressChecks {p vid cls tagged} (h : Kept q s) : Kept q (ingressChecks p vid cls tagged s).2.2 := by
  unfold Machine.ingressChecks
  extract_lets handle
  clear_value handle
  split
  · split
    next heq => exact .triple (h.streamChecks.snd heq)
  · exact .triple h

theorem Kept.ingressFrame {i bytes} (h : Kept q s) : Kept q (ingressFrame i bytes s) := by
  unfold Machine.ingressFrame
  extract_lets stamp raw pcp cls s1
  have h1 : Kept q s1 := h.whenB Kept.bump
  split
  · exact h.refuseFrame
  split
  · exact h1.bump.refuseFrame
  extract_lets tagged mark
  split
  next heq =>
    have h2 := (h1.whenB Kept.learnAddr).ingressChecks.snd₃ heq
    split
    · exact h2.refuseFrame
    split
    · split
      next heq =>
        have h3 := h2.recoverFrame.snd heq
        split
        · exact h3.keepTie.forwardFrame
        · exact h3.submitEnd
    · exact h2.forwardFrame

theorem Kept.nextCount {e} (h : Kept q s) : Kept q (nextCount e s).2 := .pair h.updSw

theorem Kept.ptpIngress {p cls bytes} (h : Kept q s) : Kept q (ptpIngress p cls bytes s).2 := h.bump.learnAddr.ingressChecks

theorem Kept.portTSend {reserved sub bytes mark} (h : Kept q s) : Kept q (portTSend reserved sub bytes mark s).2 := by
  unfold Machine.portTSend
  extract_lets pn
  split
  · exact .pair h.ptpDrop
  split
  · next heq => exact .pair (h.ptpIngress.snd heq).submitEnd
  · next heq => exact .pair (h.ptpIngress.snd heq).settlePort.admitFrame

theorem Kept.portESend {e t p} (h : Kept q s) : Kept q (portESend e t p s).2 := by
  unfold Machine.portESend
  extract_lets s1
  split
  · next heq =>
      extract_lets sub refuse
      split
      · split
        · exact .pair (h.freePacket.nextCount.snd heq).submitEnd
        split
        · next heq1 => exact .pair ((h.freePacket.nextCount.snd heq).ptpIngress.snd heq1).submitEnd
        · next heq1 =>
            split
            · next heq2 => exact .pair (((h.freePacket.nextCount.snd heq).ptpIngress.snd heq1).portTSend.snd heq2)
            · next heq2 => exact .pair (((h.freePacket.nextCount.snd heq).ptpIngress.snd heq1).portTSend.snd heq2).submitEnd
      · exact .pair (h.freePacket.nextCount.snd heq).ingressFrame

theorem Kept.launchDue (h : Kept q s) : Kept q (launchDue s) := h.updSw.foldl fun h => h.portESend

/-! ### The wisp ring -/

theorem Kept.wispToBackbone {b} (h : Kept q s) : Kept q (wispToBackbone b s) := by
  unfold Machine.wispToBackbone
  split
  · exact h
  split
  · next heq => exact h.ptpIngress.snd heq
  · next heq => exact (h.ptpIngress.snd heq).settleAll.admitFrame

theorem Kept.wispToCan {c w} (h : Kept q s) : Kept q (wispToCan c w s) := h.dropWisps.same

theorem Kept.withhold {g n on} (h : Kept q s) : Kept q (withhold g n on s) := (Kept.ite h.raise h.lower).ctlWrite

theorem Kept.wispWithhold {g n runStart flags} (h : Kept q s) : Kept q (wispWithhold g n runStart flags s) := .ite h.withhold (.ite h.withhold h)

theorem Kept.sendWisp {g runStart flags} (h : Kept q s) : Kept q (sendWisp g runStart flags s) := by
  unfold Machine.sendWisp
  extract_lets x w f s1
  have h1 : Kept q s1 := h.updSeg.wispWithhold
  split
  · exact h1.wispToCan
  · exact h1.wispToBackbone

theorem Kept.consensus {g} (h : Kept q s) : Kept q (consensus g s) := .ite h (.ite h.enterPrepare h.sendWisp)

theorem Kept.sendAgreed {g runStart} (h : Kept q s) : Kept q (sendAgreed g runStart s) := h.sendWisp.whenB Kept.consensus

theorem Kept.wispSent {c w} (h : Kept q s) : Kept q (wispSent c w s) := h.whenB Kept.consensus

theorem Kept.wispAccept {g w} (h : Kept q s) : Kept q (wispAccept g w s) := by
  unfold Machine.wispAccept
  extract_lets src st
  split
  · exact h
  split
  · exact h
  · exact
      have h1 := h.updSeg.wispWithhold.whenB Kept.consensus
      have h2 := Kept.ite h1.abortPrepare h1
      .ite h2.updSeg h2

theorem Kept.wispFromCan {c f} (h : Kept q s) : Kept q (wispFromCan c f s) := h.whenB Kept.wispAccept

theorem Kept.wispFromBackbone {p b} (h : Kept q s) : Kept q (wispFromBackbone p b s) := h.whenB Kept.wispAccept

/-! ### CAN -/

theorem Kept.updCan {c f} (h : Kept q s) : Kept q (updCan c f s) := h.same

theorem Kept.canEvent {c n} (h : Kept q s) : Kept q (canEvent c n s) := h.raise

theorem Kept.putErrState {c st} (h : Kept q s) : Kept q (putErrState c st s) := .ite h h.fput.canEvent

theorem Kept.showErrState {c} (h : Kept q s) : Kept q (showErrState c s) := .ite h h.putErrState

theorem Kept.clearAlone {c received} (h : Kept q s) : Kept q (clearAlone c received s) :=
  have h1 := h.updCan.fput
  .ite (h1.forN Kept.fput) h1

theorem Kept.rxQueue {c f stamp} (h : Kept q s) : Kept q (rxQueue c f stamp s) := by
  unfold Machine.rxQueue
  extract_lets used
  split
  · exact h.bump
  split
  · exact h.bump.canEvent
  split
  · exact (h.dmaWrite.forN Kept.wr).updCan.canEvent

theorem Kept.putBuffer {c b f stamp} (h : Kept q s) : Kept q (putBuffer c b f stamp s) := by
  unfold Machine.putBuffer
  split
  · exact ((h.wr.fput.fput.forN Kept.wr).forN Kept.wr).fput

theorem Kept.rxBuffer {c b f stamp} (h : Kept q s) : Kept q (rxBuffer c b f stamp s) :=
  .ite h (.ite (Kept.ite h.canEvent h).updCan (Kept.ite h.canEvent h).putBuffer.canEvent)

theorem Kept.applyShadow {c b} (h : Kept q s) : Kept q (applyShadow c b s) := by
  unfold Machine.applyShadow
  split
  · exact h
  · exact h.updCan.putBuffer.canEvent

theorem Kept.checkWake {c f} (h : Kept q s) : Kept q (checkWake c f s) := .ite h.canEvent.segWakeInput h

theorem Kept.rxRoute {c f stamp} (h : Kept q s) : Kept q (rxRoute c f stamp s) := by
  unfold Machine.rxRoute
  split
  · exact .ite h.rxQueue h.rxBuffer
  · exact h.rxQueue
  · exact h
  · exact .ite h.rxQueue h

theorem Kept.closeWindow {c} (h : Kept q s) : Kept q (closeWindow c s) := by
  unfold Machine.closeWindow
  split
  · exact h
  · exact .ite h.updCan.bump.canEvent h.updCan

theorem Kept.startCycle {c count at_} (h : Kept q s) : Kept q (startCycle c count at_ s) := by
  unfold Machine.startCycle
  extract_lets s1 s2
  have h1 : Kept q s2 := by
    unfold s2
    refine h.closeWindow.foldl fun h => ?_
    split
    · exact h.wr
  exact h1.updCan.fput

theorem Kept.takeReference {c f ago} (h : Kept q s) : Kept q (takeReference c f ago s) := .ite h.startCycle.fput h

theorem Kept.execCanFrameReceive {c fmt idw data esi af ago} (h : Kept q s) : Completes q (execCanFrameReceive c fmt idw data esi af ago s) := by
  unfold Machine.execCanFrameReceive
  refine Completes.next ?_
  extract_lets f off
  split
  · exact h
  split
  · exact h.checkWake
  · exact
      have h1 := (Kept.ite h.fput.useFree h.fput).bump.clearAlone.showErrState
      (Kept.ite h1.checkWake h1).takeReference.rxRoute.wispFromCan

theorem Kept.rxFree {c i} (h : Kept q s) : Kept q (rxFree c i s) := h.updCan

theorem Kept.rxqPop {w c} (h : Kept q s) : Kept q (rxqPop w c s) := by
  unfold Machine.rxqPop
  split
  · exact h.answer
  split
  · exact h.answer
  · exact h.updCan.answer

theorem Kept.rxeWord7Read {c i} (h : Kept q s) : Kept q (rxeWord7Read c i s) := .ite h.answer.rxFree h.answer

theorem Kept.mbIdRead {c b} (h : Kept q s) : Kept q (mbIdRead c b s) := .ite h.answer.updCan h.answer

theorem Kept.unlockBuffer {c b} (h : Kept q s) : Kept q (unlockBuffer c b s) := h.updCan.applyShadow

theorem Kept.mbStatRead {c b} (h : Kept q s) : Kept q (mbStatRead c b s) := .ite h.answer.fput.unlockBuffer h.answer

theorem Kept.execLockExpired {c} (h : Kept q s) : Completes q (execLockExpired c s) := by
  unfold Machine.execLockExpired
  refine Completes.next ?_
  split
  · exact h
  extract_lets unlock free
  split
  · exact h.elapseTo.unlockBuffer.canEvent
  · exact h.elapseTo.rxFree.canEvent
  · exact .ite h.elapseTo.unlockBuffer.canEvent h.elapseTo.rxFree.canEvent
  · exact h

theorem Kept.ackErr {c} (h : Kept q s) : Kept q (ackErr c s) := h.bump.bad

theorem Kept.mbAck {c b} (h : Kept q s) : Kept q (mbAck c b s) := .ite h.bad (.ite h.ackErr h.fput.applyShadow)

theorem Kept.rxqAck {c i} (h : Kept q s) : Kept q (rxqAck c i s) := .ite h.bad (.ite h.rxFree h.ackErr)

theorem Kept.canFrameOf {c x} (h : Kept q s) : Kept q (canFrameOf c x s).2 := by
  unfold Machine.canFrameOf
  split
  extract_lets fmt len1 mk
  split
  · split
    · next heq => exact .pair (h.dmaRead.snd heq)
    · next heq => exact .pair (h.dmaRead.snd heq)
  · exact .pair h

theorem Kept.canRecord {c x st ns} (h : Kept q s) : Kept q (canRecord c x st ns s) := by
  unfold Machine.canRecord
  split
  · exact .ite h.bump (h.bump.dmaWrite.whenB Kept.bump).updCan.fput.canEvent

theorem Kept.showPending {c b on} (h : Kept q s) : Kept q (showPending c b on s) := .ite h.fput.raise h.fput.lower

theorem Kept.putMbStamp {c b v} (h : Kept q s) : Kept q (putMbStamp c b v s) := h.wr.wr.wr

theorem Kept.canFinish {c x st at_} (h : Kept q s) : Kept q (canFinish c x st at_ s) := by
  unfold Machine.canFinish
  extract_lets ns s1 s2 s3
  have h1 : Kept q s2 := h.updCan.whenB Kept.canRecord
  have h2 : Kept q s3 := by
    unfold s3
    split
    · extract_lets s3
      have h2 : Kept q s3 := h1.fput.fput.showPending
      split
      · exact h2.putMbStamp
      · exact h2
    · exact h1
  exact h2.whenB Kept.canEvent

theorem Kept.canAccept {c src ms reroute held} (h : Kept q s) : Kept q (canAccept c src ms reroute held s) := h.updCan

theorem Kept.refuseItem {c x} (h : Kept q s) : Kept q (refuseItem c x s) := h.updCan.canFinish

theorem Kept.requestBuffer {c b} (h : Kept q s) : Kept q (requestBuffer c b s) := by
  unfold Machine.requestBuffer
  extract_lets type x
  split
  · exact h
  split
  · exact h.fput
  split
  · exact h.refuseItem
  split
  · next heq => exact (h.sluice.snd heq).refuseItem
  · next heq => exact (h.sluice.snd heq).showPending.canAccept
  · next heq => exact (h.sluice.snd heq).showPending.canAccept

theorem Kept.txbReq {c k m} (h : Kept q s) : Kept q (txbReq c k m s) := h.forFin fun h => .ite h.requestBuffer h

theorem Kept.txqSubmit {c i} (h : Kept q s) : Kept q (txqSubmit c i s) := by
  unfold Machine.txqSubmit
  extract_lets x w1
  split
  · exact h.bad
  split
  · exact h.ackErr
  split
  · exact h.refuseItem
  split
  · next heq => exact (h.sluice.snd heq).refuseItem
  · next heq => exact (h.sluice.snd heq).canAccept
  · next heq => exact (h.sluice.snd heq).canAccept

theorem Kept.canPush {c w0 w1 w2 w3} (h : Kept q s) : Kept q (canPush c w0 w1 w2 w3 s).2 := by
  unfold Machine.canPush
  extract_lets src x slot len queued
  split
  · exact .pair h
  split
  · next heq => exact .pair (h.sluice.snd heq)
  · next heq => exact .pair (h.sluice.snd heq).canAccept.updCan

theorem Kept.rewriteBuffer {c w0 w1 w2 w3} (h : Kept q s) : Kept q (rewriteBuffer c w0 w1 w2 w3 s) := by
  unfold Machine.rewriteBuffer
  extract_lets b len s1
  have h1 : Kept q s1 := h.wr.fput
  split
  next heq =>
    have h2 := Kept.snd (q := q) ?_ heq
    · exact .ite (h2.forN Kept.wr).requestBuffer (h2.forN Kept.wr)
    · refine .ite₂ (.pair h1) ?_
      split
      · next heq => exact .pair (h1.dmaRead.snd heq)
      · next heq => exact .pair (h1.dmaRead.snd heq)

theorem Kept.canUpdate {c w0 w1 w2 w3} (h : Kept q s) : Kept q (canUpdate c w0 w1 w2 w3 s).2 := by
  unfold Machine.canUpdate
  extract_lets kind
  split
  · split
    · exact .pair h
    split
    · exact .pair h.updCan
    · exact .pair h.rewriteBuffer
  split
  · split
    · exact .pair h
    · exact .pair h.updCan
  · exact .pair h

theorem Kept.cancelSrc {c src} (h : Kept q s) : Kept q (cancelSrc c src s) := by
  unfold Machine.cancelSrc
  split
  · exact h
  · exact .ite h.updCan.bump.canEvent h.canFinish

theorem Kept.txbCancel {c k m} (h : Kept q s) : Kept q (txbCancel c k m s) := h.forFin fun h => .ite h.cancelSrc h

theorem Kept.txqCancel {c i} (h : Kept q s) : Kept q (txqCancel c i s) := .ite h.bad h.cancelSrc

theorem Kept.startItem {c x exclusive} (h : Kept q s) : Kept q (startItem c x exclusive s) := by
  unfold Machine.startItem
  split
  · next heq => exact (h.canFrameOf.snd heq).canFinish
  · next heq => exact (h.canFrameOf.snd heq).updCan

theorem Kept.startReference {c count} (h : Kept q s) : Kept q (startReference c count s) := by
  unfold Machine.startReference
  extract_lets b
  split
  · next heq => exact h.canFrameOf.snd heq
  · next heq => exact (h.canFrameOf.snd heq).startCycle.updCan

theorem Kept.execCanTxStart {c} (h : Kept q s) : Completes q (execCanTxStart c s) := by
  unfold Machine.execCanTxStart
  refine Completes.next ?_
  split
  · exact h
  split
  · exact h.startReference
  · exact h
  · exact h.startItem

theorem Kept.applyUpdates {c} (h : Kept q s) : Kept q (applyUpdates c s) := by
  unfold Machine.applyUpdates
  refine h.updCan.foldl fun h => ?_
  split
  · exact h.rewriteBuffer

theorem Kept.enterBusOff {c} (h : Kept q s) : Kept q (enterBusOff c s) :=
  have h1 := h.bump.canEvent.putErrState
  .ite h1 (h1.foldl fun h => h.canFinish)

theorem Kept.attemptFailed {c x t ackErr off} (h : Kept q s) : Kept q (attemptFailed c x t ackErr off s) := by
  unfold Machine.attemptFailed
  split
  · exact h.canFinish
  split
  · extract_lets s1
    have h1 : Kept q s1 := by
      unfold s1
      split
      · exact h.fput
      · exact h
    exact h1.canFinish
  split
  · exact h.canFinish
  split
  · exact h.canFinish
  split
  · exact h.canFinish
  split
  · extract_lets s1
    split
    · exact h.updCan.fput
    · exact h.updCan
  · exact h

theorem Kept.countTxError {c e} (h : Kept q s) : Kept q (countTxError c e s) :=
  have h1 := Kept.ite (.ite h.fput.fput.updCan.canEvent h.fput.fput) h.fput
  .ite h1 h1.fput

theorem Kept.loopBack {c t} (h : Kept q s) : Kept q (loopBack c t s) := .ite h.bump.rxRoute h

theorem Kept.keepReference {c} (h : Kept q s) : Kept q (keepReference c s) := h.updCan

theorem Kept.execCanTxAttemptEnd {c r} (h : Kept q s) : Completes q (execCanTxAttemptEnd c r s) := by
  unfold Machine.execCanTxAttemptEnd
  refine Completes.next ?_
  split
  · exact h
  extract_lets acked r1 s1 item s2 s3 s4
  have h1 : Kept q s1 := h.updCan
  have h3 : Kept q s3 := h1.fput.fput.bump.clearAlone.showErrState.loopBack
  have h4 : Kept q s4 := by
    unfold s4
    clear_value r1 item
    split
    · split
      · extract_lets s5
        split
        · exact h3.canFinish.wispSent
        · exact h3.canFinish
      · exact .ite h3.putMbStamp h3
    · split
      · exact h1.attemptFailed
      · exact h1.keepReference
    · extract_lets s5 off s6
      have h5 : Kept q s5 := (Kept.ite h1.clearAlone h1).countTxError
      have h6 : Kept q s6 := by
        unfold s6
        split
        · exact h5.attemptFailed
        · exact h5.keepReference
      exact .ite h6.enterBusOff h6.showErrState
  exact h4.applyUpdates

theorem Kept.execCanDeadline {c} (h : Kept q s) : Completes q (execCanDeadline c s) := by
  unfold Machine.execCanDeadline
  refine Completes.next ?_
  split
  · exact h
  · exact h.elapseTo.canFinish

theorem Kept.recover {c} (h : Kept q s) : Kept q (recover c s) := .ite h.putErrState h

theorem Kept.aloneResume {c} (h : Kept q s) : Kept q (aloneResume c s) := h.forN Kept.fput

theorem Kept.execTtColumnMark {c k} (h : Kept q s) : Completes q (execTtColumnMark c k s) := by
  unfold Machine.execTtColumnMark
  refine Completes.next ?_
  split
  · exact h
  split
  · exact h
  extract_lets s1 y type mb en s2
  have h1 : Kept q s2 := h.elapseTo.closeWindow.updCan
  split
  · split
    · exact h1.startItem
    · exact h1
  · exact h1

theorem Kept.execTtReferenceDue {c busBusy} (h : Kept q s) : Completes q (execTtReferenceDue c busBusy s) := by
  unfold Machine.execTtReferenceDue
  refine Completes.next ?_
  split
  · exact h
  extract_lets k s1 s2
  have h1 : Kept q s1 := by
    unfold s1
    split
    · exact h.elapseVt
    split
    · exact h.elapseTo
    · exact h
  split
  · exact
      have h2 := h1.updCan.updCan
      .ite h2.canEvent h2
  · exact h1.updCan.startReference

theorem Kept.execTtReferenceTimeout {c} (h : Kept q s) : Completes q (execTtReferenceTimeout c s) := by
  unfold Machine.execTtReferenceTimeout
  refine Completes.next ?_
  split
  · exact h
  · exact .ite h h.elapseTo.updCan.fput.canEvent

theorem Kept.ttAfterStep (h : Kept q s) : Kept q (ttAfterStep s) := h.forFin fun h => .ite h (.ite h (h.updCan.whenB fun h => h.bumpBy.canEvent))

theorem Kept.ttStart {c} (h : Kept q s) : Kept q (ttStart c s) := h.updCan

theorem Kept.canTake {c i} (h : Kept q s) : Kept q (canTake c i s) := h.updCan

theorem Kept.canAbort {c st} (h : Kept q s) : Kept q (canAbort c st s) := (h.foldl fun h => h.canFinish).endHolds.updCan

theorem Kept.canRegsReset {c} (h : Kept q s) : Kept q (canRegsReset c s) := h.dropRegs

theorem Kept.canReset {c} (h : Kept q s) : Kept q (canReset c s) := h.canAbort.canRegsReset

/-! ### LIN -/

theorem Kept.updLin {l f} (h : Kept q s) : Kept q (updLin l f s) := h.same

theorem Kept.linEvent {l n} (h : Kept q s) : Kept q (linEvent l n s) := h.raise

theorem Kept.showReqs {l} (h : Kept q s) : Kept q (showReqs l s) := h.fput

theorem Kept.linPush {l w0 w1 w2 w3} (h : Kept q s) : Kept q (linPush l w0 w1 w2 w3 s).2 := by
  unfold Machine.linPush
  extract_lets kind len r okKind
  split
  · exact .pair h
  split
  · next heq => exact .pair (h.sluice.snd heq)
  · next heq => exact .pair (h.sluice.snd heq).updLin.showReqs

theorem Kept.linRest {l} (h : Kept q s) : Kept q (linRest l s) := h.updLin.fput.showReqs

theorem Kept.linFinish {l st len noResp sum bit frame d} (h : Kept q s) : Kept q (linFinish l st len noResp sum bit frame d s) := by
  unfold Machine.linFinish
  split
  · exact h
  extract_lets s1
  split
  · exact h.linRest
  · exact
      have h1 := h.linRest.updLin.linEvent
      .ite h1.bump h1.bump.linEvent

theorem Kept.execLinHeaderStart {l} (h : Kept q s) : Completes q (execLinHeaderStart l s) := by
  unfold Machine.execLinHeaderStart
  refine Completes.next ?_
  split
  · exact h
  split
  · exact h
  · exact .ite h (.ite h.updLin.updLin.fput.showReqs h.updLin.updLin.fput.showReqs)

theorem Kept.execLinResponseEnd {l data sum bitBad frameBad} (h : Kept q s) : Completes q (execLinResponseEnd l data sum bitBad frameBad s) := by
  unfold Machine.execLinResponseEnd
  refine Completes.next ?_
  split
  · exact h
  · exact .ite h (.ite h.elapseTo.linFinish h.elapseTo.linFinish)

theorem Kept.execLinResponseTimeout {l} (h : Kept q s) : Completes q (execLinResponseTimeout l s) := by
  unfold Machine.execLinResponseTimeout
  refine Completes.next ?_
  split
  · exact h
  · exact .ite h h.elapseTo.linFinish

theorem Kept.execLinWakePulseEnd {l} (h : Kept q s) : Completes q (execLinWakePulseEnd l s) := by
  unfold Machine.execLinWakePulseEnd
  refine Completes.next ?_
  split
  · exact h
  split
  · exact h
  · exact
      have h1 := h.elapseTo.linFinish
      .ite h1.updLin h1

theorem Kept.execSluiceLinRelease {l} (h : Kept q s) : Completes q (execSluiceLinRelease l s) := by
  unfold Machine.execSluiceLinRelease
  refine Completes.next ?_
  split
  · exact h
  · exact h.elapseTo.updLin

theorem Kept.linReset {l} (h : Kept q s) : Kept q (linReset l s) := h.updLin.endHolds.dropRegs.bumpBy

/-! ### Switch: ports and lines -/

theorem Kept.takeHead {p c f k} (h : Kept q s) (e : takeHead p c s = some (f, k, t)) : Kept q t := by
  unfold Machine.takeHead at e
  split at e
  · cases e
  · cases e
    exact h.updFrame

theorem Kept.startTx {p c stomped} (h : Kept q s) : Kept q (startTx p c stomped s) := by
  unfold Machine.startTx
  split
  · exact h
  · next heq => exact (h.takeHead heq).updSw

theorem Kept.finishTx {p} (h : Kept q s) : Kept q (finishTx p s) := by
  unfold Machine.finishTx
  split
  · exact h
  extract_lets s1 s2 s3 s4
  have h1 : Kept q s3 := h.elapseTo.settlePort.updSw.bump
  have h2 : Kept q s4 := by
    unfold s4
    split
    · exact h1.whenB Kept.ptpSent
    · exact h1
  exact h2.copyOut

theorem Kept.preempt {p t} (h : Kept q s) : Kept q (preempt p t s) := h.updSw

theorem Kept.selectNext {p} (h : Kept q s) : Kept q (selectNext p s) := by
  unfold Machine.selectNext
  extract_lets express
  split
  · exact h.startTx
  · exact .ite h.updSw h
  split
  · exact h.startTx
  · exact h

theorem Kept.selectFree {p} (h : Kept q s) : Kept q (selectFree p s) := by
  unfold Machine.selectFree
  split
  · exact h
  · exact .ite h.elapseTo.settlePort.selectNext h.selectNext

theorem Kept.selectWire {p} (h : Kept q s) : Kept q (selectWire p s) := by
  unfold Machine.selectWire
  extract_lets s1
  split
  · exact h.settlePort
  split
  · exact h.settlePort.selectFree
  extract_lets cut
  split
  · exact h.settlePort.elapseTo.settlePort.preempt.selectNext
  · exact h.settlePort.finishTx.selectFree

theorem Kept.hostRx {i c f} (h : Kept q s) : Kept q (hostRx i c f s).2 := by
  unfold Machine.hostRx
  extract_lets r n d a empty len
  have hempty : ∀ {u}, Kept q u → Kept q (empty u).2 := fun h => .pair h.bump
  split
  · exact hempty h
  split
  · next heq => exact hempty (h.dmaRead.snd heq)
  · next heq =>
    have h1 := h.dmaRead.snd heq
    split
    · exact hempty h1
    split
    next heq =>
      have h2 := Kept.snd (q := q) ?_ heq
      · exact .pair h2.mwrBytes.fput.pulse
      · refine .ite₂ (.pair h1) ?_
        split
        · next heq => exact .pair (h1.dmaWrite.snd heq)
        · next heq => exact .pair (h1.dmaWrite.snd heq)

theorem Kept.hostDeliver {i c f} (h : Kept q s) : Kept q (hostDeliver i c f s).2 := by
  unfold Machine.hostDeliver
  split
  · next heq => exact .pair (h.vqiDeliver.snd heq)
  · next heq => exact (h.vqiDeliver.snd heq).hostRx

theorem Kept.portEDeliver {c f half} (h : Kept q s) : Kept q (portEDeliver c f half s).2 := by
  unfold Machine.portEDeliver
  split
  · exact .pair h.bump
  · exact .pair h.updSw

theorem Kept.selectInternal {p} (h : Kept q s) : Kept q (selectInternal p s) := by
  unfold Machine.selectInternal
  extract_lets s1
  have h1 : Kept q s1 := h.settlePort
  split
  · exact h1
  split
  · exact h1
  split
  · exact h1
  next heq =>
    have h2 := h1.takeHead heq
    extract_lets g
    split
    next heq => exact ((Kept.ite₂ h2.portEDeliver h2.hostDeliver).snd heq |>.whenB fun h => h.bump.payCredit).copyOut

theorem Kept.execTransmissionSelection {p} (h : Kept q s) : Completes q (execTransmissionSelection p s) := by
  unfold Machine.execTransmissionSelection
  refine Completes.next ?_
  extract_lets s1
  split
  · exact h.launchDue.selectWire
  · exact .ite h.launchDue.selectInternal h.launchDue

theorem Kept.execFrameReceive {p bytes fcsOk} (h : Kept q s) : Completes q (execFrameReceive p bytes fcsOk s) := by
  unfold Machine.execFrameReceive
  refine Completes.next ?_
  extract_lets len
  split
  · exact h
  split
  · exact h.bump
  split
  · exact h.bump
  split
  · exact h.bump
  split
  · split
    · exact h.bump
    split
    · next heq => exact h.ptpIngress.snd heq
    · next heq => exact (h.ptpIngress.snd heq).ptpDeliver
  split
  · exact .ite (h.whenB Kept.wispFromBackbone).ingressFrame.startTx (h.whenB Kept.wispFromBackbone).ingressFrame.startTx.bump
  · exact .ite (h.whenB Kept.wispFromBackbone).ingressFrame (h.whenB Kept.wispFromBackbone).bump

theorem Kept.execGateEntry {p} (h : Kept q s) : Completes q (execGateEntry p s) := by
  unfold Machine.execGateEntry
  refine Completes.next ?_
  split
  · exact h
  split
  · exact h
  · exact h.settlePort.elapseVt.settlePort

theorem Kept.execGateChange {p} (h : Kept q s) : Completes q (execGateChange p s) := by
  unfold Machine.execGateChange
  refine Completes.next ?_
  split
  · exact h
  · exact h.elapseVt.settlePort.gateSwap.settlePort

theorem Kept.execStreamGateEntry {g} (h : Kept q s) : Completes q (execStreamGateEntry g s) := by
  unfold Machine.execStreamGateEntry
  refine Completes.next ?_
  split
  · split
    · exact h.elapseVt.sgateCommit
    · exact h.sgateCommit
  · exact h.sgateCommit

theorem Kept.execFrerResetTimeout {f} (h : Kept q s) : Completes q (execFrerResetTimeout f s) := by
  unfold Machine.execFrerResetTimeout
  refine Completes.next ?_
  extract_lets r
  split
  · exact (h.elapseTo.whenB Kept.raise).frerPut
  · exact h

theorem Kept.preemptStart {p} (h : Kept q s) : Kept q (preemptStart p s) := h.updSw.fput

theorem Kept.execFrameAged {p c} (h : Kept q s) : Completes q (execFrameAged p c s) := by
  unfold Machine.execFrameAged
  refine Completes.next ?_
  split
  · exact h
  · exact h.elapseTo.settlePort.bump.copyFail

theorem Kept.execAddressAgeing {i} (h : Kept q s) : Completes q (execAddressAgeing i s) := by
  unfold Machine.execAddressAgeing
  refine Completes.next ?_
  extract_lets e age
  split
  · exact h
  split
  · exact h
  · exact h.elapseTo.updSw.tblPut

theorem Kept.moveCopy {b st id k} (h : Kept q s) : Kept q (moveCopy b st id k s) := .ite h.updSw.updFrame h.bump.copyFail

theorem Kept.cutCopy {p t} (h : Kept q s) : Kept q (cutCopy p t s) := h.updFrame

theorem Kept.cutTx {b p} (h : Kept q s) : Kept q (cutTx b p s) := by
  unfold Machine.cutTx
  extract_lets s1
  have h1 : Kept q s1 := by
    unfold s1
    split
    · exact .ite h.updSw.cutCopy h
    · exact h
  split
  · exact .ite h1.updSw.cutCopy h1
  · exact h1

theorem Kept.cutItems {b c} (h : Kept q s) : Kept q (cutItems b c s) := h.updSw.bumpBy

theorem Kept.planeLost {b st} (h : Kept q s) : Kept q (planeLost b st s) := by
  unfold Machine.planeLost
  split
  · exact h
  · exact (((h.fput.raise.moveVcs.forFin Kept.cutTx).foldl fun h => h.foldl fun h => .ite h.moveCopy h).forFin Kept.cutItems).updSw.showPool.forN fun h => .ite h.fput h

theorem Kept.planeBack {b} (h : Kept q s) : Kept q (planeBack b s) := h.fput

theorem Kept.ringTail {i r v} (h : Kept q s) : Kept q (ringTail i r v s) := h.fput

theorem Kept.execHostTxDescriptor {i r} (h : Kept q s) : Completes q (execHostTxDescriptor i r s) := by
  unfold Machine.execHostTxDescriptor
  refine Completes.next ?_
  extract_lets n k d
  split
  · exact h
  split
  · next heq => exact h.dmaRead.snd heq
  · next heq =>
      extract_lets flags
      split
      · exact h.dmaRead.snd heq
      split
      · exact (h.dmaRead.snd heq).updSw.submitEnd
      split
      · next heq1 => exact ((h.dmaRead.snd heq).updSw.dmaRead.snd heq1).submitEnd
      · next heq1 => exact ((h.dmaRead.snd heq).updSw.dmaRead.snd heq1).ingressFrame

theorem Kept.submitLine {n l header} (h : Kept q s) : Kept q (submitLine n l header s) := by
  unfold Machine.submitLine
  split
  · exact h.updCam.updSw.foldl fun h => h.ingressFrame

theorem Kept.freeLine {n l} (h : Kept q s) : Kept q (freeLine n l s) := h.unstage.submitLine

theorem Kept.camClose {n st} (h : Kept q s) : Kept q (camClose n st s) := (h.endHolds.foldl fun h => h.freeLine).camFlush

theorem Kept.execLineStagingFree {n} (h : Kept q s) : Completes q (execLineStagingFree n s) := by
  unfold Machine.execLineStagingFree
  refine Completes.next ?_
  split
  · exact h
  · exact h.freeLine

theorem Kept.tblRead {t} (h : Kept q s) : Kept q (tblRead t s) := .ite h.fput.fput.bad (h.fput.fput.forN Kept.wr)

theorem Kept.tblWrite {t} (h : Kept q s) : Kept q (tblWrite t s) :=
  have h1 := h.sgateCommit.fput.fput
  .ite h1.bad (.ite h1.raise (.ite h1.updSw (h1.tblPut.whenB Kept.addrRefresh)))

theorem Kept.flushDyn (h : Kept q s) : Kept q (flushDyn s) := h.foldl fun h => h.updSw.tblPut

theorem Kept.closePort {p} (h : Kept q s) : Kept q (closePort p s) := (Kept.ite h.elapseTo.flushPort h).same

theorem Kept.tc10Wake {p} (h : Kept q s) : Kept q (tc10Wake p s) := .ite h.raise.fput (.ite h.raise.fput h.raise)

theorem Kept.execLinkChange {p up} (h : Kept q s) : Completes q (execLinkChange p up s) := by
  unfold Machine.execLinkChange
  refine Completes.next ?_
  split
  · exact h
  extract_lets s1 s2
  have h1 : Kept q s1 := h.fput.pulse.whenB Kept.moveVcs
  have h2 : Kept q s2 := .ite h1.fput h1
  split
  · exact h2.preemptStart
  · exact h2

theorem Kept.clearFrerCounts (h : Kept q s) : Kept q (clearFrerCounts s) := h.foldl fun h => h.tblPut

theorem Kept.swCntClr (h : Kept q s) : Kept q (swCntClr s) := h.clearRegs.clearFrerCounts

/-! ### Network management: power states -/

theorem Kept.execWispForward {r} (h : Kept q s) : Completes q (execWispForward r s) := by
  unfold Machine.execWispForward
  refine Completes.next ?_
  extract_lets g
  split
  · exact h
  · exact
      have h1 := h.elapseTo.updSeg
      .ite h1 (.ite h1.sendWisp (.ite h1.sendWisp (.ite h1.sendAgreed h1.sendWisp)))

theorem Kept.execWispRegenerate {r} (h : Kept q s) : Completes q (execWispRegenerate r s) := by
  unfold Machine.execWispRegenerate
  refine Completes.next ?_
  extract_lets g
  split
  · exact h
  · exact .ite h.updSeg h.elapseTo.updSeg.bump.raise.sendWisp

theorem Kept.endPending {g} (h : Kept q s) : Kept q (endPending g s) := by
  unfold Machine.endPending
  split
  · exact h.foldl fun h => h.sluiceDrop.canFinish
  split
  · exact h
  · exact h.foldl fun h => .ite h h.sluiceDrop.updLin.linEvent.bump.showReqs

theorem Kept.execPrepareEnd {g} (h : Kept q s) : Completes q (execPrepareEnd g s) := by
  unfold Machine.execPrepareEnd
  refine Completes.next ?_
  split
  · exact h
  extract_lets s1
  split
  · exact h.elapseTo.updSeg.showLatch.abortPrepare
  · exact h.elapseTo.setSeg.endPending.sleepAction

theorem Kept.execLatchedWakeAction {g} (h : Kept q s) : Completes q (execLatchedWakeAction g s) := by
  unfold Machine.execLatchedWakeAction
  refine Completes.next ?_
  split
  · exact h
  extract_lets st
  split
  · exact h
  · exact
      have h1 := h.updSeg.showLatch
      .ite h1.abortPrepare (.ite h1.wakeSeg (.ite h1.bump h1))

theorem Kept.segCtrlWake {g} (h : Kept q s) : Kept q (segCtrlWake g s) := .ite h.wakeSeg (.ite h.latchWake h)

theorem Kept.rejoin {g} (h : Kept q s) : Kept q (rejoin g s) := .ite h h.wr.wr.fput.wakeSeg

theorem Kept.segEnable {g} (h : Kept q s) : Kept q (segEnable g s) := by
  unfold Machine.segEnable
  split
  · exact h
  · exact
      have h1 := h.fput.updSeg
      .ite h1 (.ite h1.setSeg h1.enterAwake.showConsent)

theorem Kept.segDisable {g} (h : Kept q s) : Kept q (segDisable g s) := .ite h.fput h.fput.setSeg.wakeAction.releaseHeld.followersLeave

theorem Kept.segLose {g} (h : Kept q s) : Kept q (segLose g s) := .ite h h.setSeg.followersLeave

theorem Kept.segRestart {g} (h : Kept q s) : Kept q (segRestart g s) := .ite h (.ite h.wakeAction.startMinAwake.enterAwake h.wakeAction.setSeg)

/-! ### Isolation of network segments -/

theorem Kept.feedOff {g} (h : Kept q s) : Kept q (feedOff g s) := h.forN fun h => .ite h.updPd h

theorem Kept.execMaxAwakeExpire {g} (h : Kept q s) : Completes q (execMaxAwakeExpire g s) := by
  unfold Machine.execMaxAwakeExpire
  refine Completes.next ?_
  split
  · exact h
  · exact .ite h ((h.elapseTo.fput.raise.bump.setSeg.updSeg.whenB fun h => h.flushSlept.flushSlept).endPending.sleepAction.whenB Kept.feedOff)

/-! ### The interrupt controllers and the harts -/

theorem Kept.updIc {f} (h : Kept q s) : Kept q (updIc f s) := h.same

theorem Kept.icShow {t} (h : Kept q s) : Kept q (icShow t s) := h.fput.fput.fput

theorem Kept.putStack {t l} (h : Kept q s) : Kept q (putStack t l s) := h.updIc.icShow

theorem Kept.clearReq {i} (h : Kept q s) : Kept q (clearReq i s) := .ite h.updIc h.same

theorem Kept.icClaim {spec t} (h : Kept q s) : Kept q (icClaim spec t s).2 := by
  unfold Machine.icClaim
  split
  · exact .pair h.raise
  split
  · exact .pair h
  · exact .pair h.clearReq.putStack.updIc

theorem Kept.icPop {t} (h : Kept q s) : Kept q (icPop t s) := h.updIc.putStack

theorem Kept.icTargetLost {t} (h : Kept q s) : Kept q (icTargetLost t s) := h.updIc.putStack

theorem Kept.icEngineLost {e} (h : Kept q s) : Kept q (icEngineLost e s) := h.updIc

theorem Kept.icSettle (h : Kept q s) : Kept q (icSettle s) := by
  unfold Machine.icSettle
  refine h.foldl fun h => ?_
  extract_lets c t
  split
  · exact .ite h.updIc h
  · exact h

theorem Kept.sgiSet {w i} (h : Kept q s) : Kept q (sgiSet w i s) := .ite h.bad h.updIc

theorem Kept.srcCfgWrite {w i v} (h : Kept q s) : Kept q (srcCfgWrite w i v s) := .ite h.violateBy.bad (.ite h.bad h.wr)

theorem Kept.claimRead {w t} (h : Kept q s) : Kept q (claimRead w t s) := by
  unfold Machine.claimRead
  split
  · next heq => exact (h.icClaim.snd heq).answer

theorem Kept.eoiWrite {t id} (h : Kept q s) : Kept q (eoiWrite t id s) := by
  unfold Machine.eoiWrite
  split
  · exact h.bump.bad
  · exact .ite h.icPop h.bump.bad

theorem Kept.putPair {p r} (h : Kept q s) : Kept q (putPair p r s) := h.same

theorem Kept.mwrWords {a l} (h : Kept q s) : Kept q (mwrWords a l s) := by
  induction l generalizing a s with
  | nil => exact h
  | cons w l ih => exact ih h.mwrN

theorem Kept.execVectorEntry {p r} (h : Kept q s) : Completes q (execVectorEntry p r s) := by
  unfold Machine.execVectorEntry
  refine Completes.next ?_
  extract_lets t fp s1 prev
  split
  · exact h
  split
  · exact h.putPair
  split
  next heq =>
    have h2 := h.advance.icClaim.snd heq
    exact .ite h2.advance.putPair h2.advance.mwrWords.useFree.putPair

theorem Kept.execAssistedMret {p r} (h : Kept q s) : Completes q (execAssistedMret p r s) := by
  unfold Machine.execAssistedMret
  refine Completes.next ?_
  extract_lets t
  split
  · exact h
  split
  · exact h.icPop.putPair
  split
  · next heq => exact .ite (h.icPop.icClaim.snd heq).putPair (h.icPop.icClaim.snd heq).mwrN.useFree.putPair

theorem Kept.updHart {i f} (h : Kept q s) : Kept q (updHart i f s) := h.same.fput

theorem Kept.anvilReturn {i code} (h : Kept q s) : Kept q (anvilReturn i code s) := h.updHart

theorem Kept.wcallEnter {i} (h : Kept q s) : Kept q (wcallEnter i s) := .ite h.updHart (.ite h.updHart (.ite h.updHart h.updHart))

/-! ### Signals -/

theorem Kept.updSig {f} (h : Kept q s) : Kept q (updSig f s) := h.same

theorem Kept.cachePut {l} (h : Kept q s) : Kept q (cachePut l s) := by
  unfold Machine.cachePut
  exact h.updSig

theorem Kept.sigLook {idx j first} (h : Kept q s) : Kept q (sigLook idx j first s).2 := by
  unfold Machine.sigLook
  extract_lets s1 s2
  have h1 : Kept q s1 := h.whenB Kept.bump
  have h2 : Kept q s2 := h1.whenB Kept.bump
  split
  · exact .pair h1.cachePut
  · exact .ite₂ (.pair h2) (.ite₂ (.pair h2) (.ite₂ (.pair h2.logUnmapped) (.pair h2.updSig)))

theorem Kept.defWrite {i d} (h : Kept q s) : Kept q (defWrite i d s) := by
  unfold Machine.defWrite
  extract_lets s1
  split
  · exact h.mwrBytes
  · exact h.mwrBytes.updSig

theorem Kept.logPush {origin words} (h : Kept q s) : Kept q (logPush origin words s).2 := by
  unfold Machine.logPush
  extract_lets w kind code ok
  split
  · exact .pair h
  split
  · exact .pair h.sinkLose
  · exact .pair h.sinkPut

theorem Kept.logSignal {origin id sat value logc} (h : Kept q s) : Kept q (logSignal origin id sat value logc s) := .ite h (.ite h.sinkLose h.sinkPut)

/-! ### Keys, jobs and alarms -/

theorem Kept.updKey {f} (h : Kept q s) : Kept q (updKey f s) := h.same

theorem Kept.clearPart {p} (h : Kept q s) : Kept q (clearPart p s) := by
  unfold Machine.clearPart
  split
  · exact h.updKey.clearRegs

theorem Kept.clearKeys (h : Kept q s) : Kept q (clearKeys s) := h.forFin Kept.clearPart

theorem Kept.expireKeys (h : Kept q s) : Kept q (expireKeys s) := h.forFin fun h => .ite h.clearPart h

theorem Kept.loadPart {l} (h : Kept q s) : Kept q (loadPart l s) := by
  unfold Machine.loadPart
  split
  · exact h.updKey.wr.wr.wr.wr

theorem Kept.useKey {p} (h : Kept q s) : Kept q (useKey p s) := .ite h (h.fput.whenB fun h => h.fput.raise)

theorem Kept.cryShow (h : Kept q s) : Kept q (cryShow s) := h.fput.fput

theorem Kept.cryTally {st} (h : Kept q s) : Kept q (cryTally st s) := by
  unfold Machine.cryTally
  extract_lets s1
  split
  · exact h.bump.bump
  · exact h.bump.bump
  · exact h.bump

theorem Kept.cryReport {j st} (h : Kept q s) : Kept q (cryReport j st s) := by
  unfold Machine.cryReport
  split
  · exact .ite h h.updKey
  · exact h.dmaWrite.raise
  · exact h.vqiFinish

theorem Kept.cryEnd {j st} (h : Kept q s) : Kept q (cryEnd j st s) := h.cryTally.cryReport.cryShow

theorem Kept.cryEnqueue {sub w at_ desc} (h : Kept q s) : Kept q (cryEnqueue sub w at_ desc s) := h.updKey.cryShow

theorem Kept.cryRead {j a n} (h : Kept q s) : Kept q (cryRead j a n s).2 := by
  unfold Machine.cryRead
  split
  · exact .pair h
  · exact h.unitRead

theorem Kept.cryStart {j} (h : Kept q s) : Kept q (cryStart j s).2 := by
  unfold Machine.cryStart
  extract_lets key s1
  have h1 : Kept q s1 := by
    unfold s1
    split
    · exact .ite h.useKey h
    · exact h
  split
  · exact .pair h
  split
  · next heq => exact .pair (h1.cryRead.snd heq)
  next heq =>
  have h2 := h1.cryRead.snd heq
  split
  · next heq => exact .pair (h2.cryRead.snd heq)
  next heq =>
  have h3 := h2.cryRead.snd heq
  have h4 : ∀ {c : Prop} [Decidable c] {a}, Kept q (if c then Machine.cryRead j a 1 _ else (some [], _)).2 := .ite₂ h3.cryRead (.pair h3)
  split
  · next heq => exact .pair (h4.snd heq)
  next heq =>
  split
  · exact .pair (h4.snd heq)
  · exact .pair (h4.snd heq).same

theorem Kept.cryNext {op} (h : Kept q s) : Kept q (cryNext op s) := by
  unfold Machine.cryNext
  extract_lets pk
  refine .ite h ?_
  split
  · exact h
  refine .ite h ?_
  exact h.updKey.cryStart.updKey.cryShow

theorem Kept.cryWrite {r} (h : Kept q s) : Kept q (cryWrite r s).2 := by
  unfold Machine.cryWrite
  extract_lets j fields
  split
  · exact .pair h
  split
  · next heq => exact .pair ((Kept.ite₂ (.pair h) h.dmaWrite).snd heq)
  next heq =>
  have h1 := (Kept.ite₂ (.pair h) h.dmaWrite).snd heq
  extract_lets s2
  have h2 : Kept q s2 := by
    refine h1.foldl fun h => ?_
    split
    · exact h.mwrBytes
    · exact h.dmaWrite
  refine .pair ?_
  split
  · exact h2.loadPart
  · exact h2

theorem Kept.cryDone {pk} (h : Kept q s) : Kept q (cryDone pk s) := by
  unfold Machine.cryDone
  split
  · exact h
  extract_lets s1
  split
  · exact h.updKey.cryEnd
  split
  · next heq => exact (h.updKey.cryWrite.snd heq).cryEnd

theorem Kept.cryDrop {f st} (h : Kept q s) : Kept q (cryDrop f st s) := h.updKey.foldl fun h => h.cryEnd

theorem Kept.jqSubmit {w} (h : Kept q s) : Kept q (jqSubmit w s) := by
  unfold Machine.jqSubmit
  extract_lets a put
  split
  · exact h.bump.fput
  split
  · next heq => exact (h.unitRead.snd heq).bump.fput
  · next heq => exact .ite (h.unitRead.snd heq).bump.fput (h.unitRead.snd heq).cryEnqueue.fput

theorem Kept.slotDone {slot st} (h : Kept q s) : Kept q (slotDone slot st s) := h.fput.fput.raise

theorem Kept.slotClear {slot} (h : Kept q s) : Kept q (slotClear slot s) := h.clearPart.clearPart.slotDone

theorem Kept.slotCommit {slot} (h : Kept q s) : Kept q (slotCommit slot s) := by
  unfold Machine.slotCommit
  split
  · exact .ite h.slotDone h.updKey.wr.wr.wr.wr.clearPart.slotDone

theorem Kept.slotDiscard {slot} (h : Kept q s) : Kept q (slotDiscard slot s) := h.clearPart.slotDone

theorem Kept.crashAbort (h : Kept q s) : Kept q (crashAbort s) := h.same

theorem Kept.quench {src} (h : Kept q s) : Kept q (quench src s) :=
  (((Kept.ite h h.fput).clearKeys.crashAbort.fput.fput.fput.raise.bump.whenB fun h => h.wr.wr).updKey.foldl fun h => h.cryEnd).migAbort.foldl fun h => h.cryEnd

theorem Kept.clearLatch (h : Kept q s) : Kept q (clearLatch s) := .ite h.bad h.fput

theorem Kept.tampLock (h : Kept q s) : Kept q (tampLock s) := h.fput.fput

/-! ### Virtual queue interfaces: rings and migration -/

theorem Kept.sqTail {i p v} (h : Kept q s) : Kept q (sqTail i p v s) := h.fput

theorem Kept.fetchEnd {x st} (h : Kept q s) : Kept q (fetchEnd x st s) := h.vqiFinish

theorem Kept.putPlace {x pl} (h : Kept q s) : Kept q (putPlace x pl s) := h.updVqi

theorem Kept.spoof {x} (h : Kept q s) : Kept q (spoof x s) := h.putPlace.fetchEnd.bump.raise.fput

theorem Kept.fetchChecks {x} (h : Kept q s) : Kept q (fetchChecks x s) := by
  unfold Machine.fetchChecks
  split
  · exact h.putPlace.fetchEnd
  split
  · exact h.putPlace
  split
  · split
    · next heq => exact (h.dmaRead.snd heq).putPlace.fetchEnd
    · next heq => exact .ite (h.dmaRead.snd heq) (h.dmaRead.snd heq).spoof
  · exact .ite h.spoof (.ite h.spoof h)

theorem Kept.execVqiFetch {i p} (h : Kept q s) : Completes q (execVqiFetch i p s) := by
  unfold Machine.execVqiFetch
  refine Completes.next ?_
  split
  · exact h
  extract_lets i1
  split
  · next heq => exact (h.dmaRead.snd heq).fput
  · next heq => exact (h.dmaRead.snd heq).fput.updVqi.fetchChecks

theorem Kept.admitItem {x} (h : Kept q s) : Kept q (admitItem x s) := h.putPlace.bump.showOcc

theorem Kept.admitSvc {x k} (h : Kept q s) : Kept q (admitSvc x k s) := by
  unfold Machine.admitSvc
  extract_lets s1 len
  have h1 : Kept q s1 := h.updVqi
  split
  · exact h1.admitItem
  split
  next heq =>
    have h2 := (Kept.ite₂ (.pair h1) h1.dmaRead).snd heq
    split
    · exact h2.putPlace.fetchEnd
    · exact h2.mwrBytes.admitItem

theorem Kept.targetTakes {t} (h : Kept q s) : Kept q (targetTakes t s) := by
  unfold Machine.targetTakes
  split
  · exact h
  extract_lets w
  split
  · split
    · next heq => exact (h.vqiTake.dmaRead.snd heq).fetchEnd
    · next heq => exact (h.vqiTake.dmaRead.snd heq).ingressFrame
  split
  · split
    · exact h
    split
    · next heq => exact (h.vqiTake.unitRead.snd heq).fetchEnd
    · next heq => exact .ite (h.vqiTake.unitRead.snd heq).fetchEnd (h.vqiTake.unitRead.snd heq).cryEnqueue
  · exact h

theorem Kept.giveSlot {t} (h : Kept q s) : Kept q (giveSlot t s) := by
  unfold Machine.giveSlot
  extract_lets s1
  split
  · exact h.updVqi
  split
  · exact h.updVqi
  extract_lets n go
  split
  · exact h.updVqi
  split
  · exact h.updVqi.updVqi.admitItem
  split
  · exact h.updVqi
  · exact h.updVqi.updVqi.admitSvc

theorem Kept.execAdmissionSlot {t take} (h : Kept q s) : Completes q (execAdmissionSlot t take s) := by
  unfold Machine.execAdmissionSlot
  refine Completes.next ?_
  split
  · exact h
  · exact
      have h1 := h.whenB Kept.targetTakes
      .ite h1 h1.giveSlot

theorem Kept.newShare {i} (h : Kept q s) : Kept q (newShare i s) := .ite h (.ite h.updVqi.fput.raise.fput.bump h.updVqi.showOcc)

theorem Kept.execVqiCompletion (h : Kept q s) : Completes q (execVqiCompletion s) := by
  unfold Machine.execVqiCompletion
  refine Completes.next ?_
  split
  · exact h
  · exact h.updVqi.vqiComplete

theorem Kept.abortItems {i pick} (h : Kept q s) : Kept q (abortItems i pick s) := (h.foldl fun h => h.vqiRecord).endHolds

theorem Kept.resetPair {i n p} (h : Kept q s) : Kept q (resetPair i n p s) := (h.whenB Kept.cqWrite).fput.fput

theorem Kept.vqiReset {i st} (h : Kept q s) : Kept q (vqiReset i st s) := (h.abortItems.putVqiGen.forFin Kept.resetPair).putVqiState.fput.fput.showOcc

theorem Kept.instanceReset {i} (h : Kept q s) : Kept q (instanceReset i s) := .ite h.vqiReset (.ite h h.bad)

theorem Kept.managerReset {i} (h : Kept q s) : Kept q (managerReset i s) := .ite h h.vqiReset

theorem Kept.vqiFreeze {i} (h : Kept q s) : Kept q (vqiFreeze i s) := .ite h.bad h.putVqiState.abortItems.updVqi.freezeCheck

theorem Kept.vqiThaw {i} (h : Kept q s) : Kept q (vqiThaw i s) := .ite h.putVqiState h.bad

theorem Kept.showShare (h : Kept q s) : Kept q (showShare s) := h.fput

theorem Kept.vqiEnable {i} (h : Kept q s) : Kept q (vqiEnable i s) := .ite h (.ite h.bad h.fput.putVqiState.showShare)

theorem Kept.vqiDisable {i} (h : Kept q s) : Kept q (vqiDisable i s) := .ite h h.vqiReset.fput.showShare

theorem Kept.shareWrite {i v} (h : Kept q s) : Kept q (shareWrite i v s) := .ite h.bad h.fput.showShare

theorem Kept.migExport {i w} (h : Kept q s) : Kept q (migExport i w s) := by
  unfold Machine.migExport
  split
  · exact h.migEnd
  extract_lets r tag
  split
  · next heq => exact (h.useKey.dmaWrite.snd heq).migEnd
  · next heq => exact (h.useKey.dmaWrite.snd heq).migEnd

theorem Kept.migApply {i r} (h : Kept q s) : Kept q (migApply i r s) :=
  (((h.fput.fput.fput.forN fun h => .ite h.wr.wr h.wr.wr).forN fun h => h.wr.wr.wr.wr.wr).forN fun h => h.wr.wr.wr.wr.wr.fput.fput.fput.fput.wr).putVqiGen.putVqiState.showShare

theorem Kept.migRestore {i w} (h : Kept q s) : Kept q (migRestore i w s) := by
  unfold Machine.migRestore
  split
  · next heq => exact (h.dmaRead.snd heq).migEnd
  · next heq _ => exact (h.dmaRead.snd heq).migEnd
  · next heq _ =>
    exact
      have h1 := (h.dmaRead.snd heq).useKey
      .ite h1.migEnd (.ite h1.migEnd (.ite h1.migEnd (.ite h1.migEnd (.ite h1.migEnd h1.migApply.migEnd))))

theorem Kept.migCmd {w op i} (h : Kept q s) : Kept q (migCmd w op i s) := .ite h.bad (.ite h.bad (h.fput.fput.whenB Kept.wr).updVqi)

theorem Kept.execMigDone (h : Kept q s) : Completes q (execMigDone s) := by
  unfold Machine.execMigDone
  refine Completes.next ?_
  split
  · exact h
  · exact .ite h.migExport h.migRestore

/-! ### Items of queues -/

theorem Kept.qTake {qid i} (h : Kept q s) : Kept q (qTake qid i s) := by
  unfold Machine.qTake
  split
  · exact h.updCam
  split
  · exact h.canTake
  split
  · exact h.updLin
  split
  · exact h.updSw
  split
  · exact h.same
  split
  · split
    · exact h.vqiTake
    · exact h
  · exact .ite h.same h

theorem Kept.vqiPush {i p w0 w1 w2 w3} (h : Kept q s) : Kept q (vqiPush i p w0 w1 w2 w3 s).2 := by
  unfold Machine.vqiPush
  extract_lets kind
  split
  · exact .pair h
  split
  · exact .pair h.bump
  · exact .pair h.cqWrite

theorem Kept.qPush {e t qid w0 w1 w2 w3} (h : Kept q s) : Kept q (qPush e t qid w0 w1 w2 w3 s).2 := by
  unfold Machine.qPush
  extract_lets w
  split
  · exact .pair h
  split
  · split
    · next heq => exact ((Kept.ite₂ h.dmaRead (.pair h)).snd heq).pushSample
    · next heq => exact ((Kept.ite₂ h.dmaRead (.pair h)).snd heq).pushSample
  split
  · exact .ite₂ h.canPush (.ite₂ h.canUpdate (.pair h))
  split
  · exact h.linPush
  split
  · exact h.logPush
  split
  · exact h.vqiPush
  split
  · split
    · next heq => exact .pair (h.mboxPut.snd heq)
    · next heq => exact .pair (h.mboxPut.snd heq)
  · exact .pair h

theorem Kept.homeEnd {i st} (h : Kept q s) : Kept q (homeEnd i st s) := by
  unfold Machine.homeEnd
  extract_lets s1
  have h1 : Kept q s1 := by
    unfold s1
    split
    · exact h.freePacket
    · exact h
  split
  · exact h1.whenB Kept.lineLost
  split
  · exact h1.rxFree
  split
  · split
    · exact h1.vqiFinish
    · exact h1
  · exact h1

theorem Kept.endItem {i st} (h : Kept q s) : Kept q (endItem i st s).2 := by
  unfold Machine.endItem
  split
  · refine .pair ?_
    split
    · exact h.freePacket
    · exact h
  · exact .pair h.homeEnd

/-! ### Engines and their threads -/

theorem Kept.putThr {e t st} (h : Kept q s) : Kept q (putThr e t st s) := h.fput

theorem Kept.setN {e t k v} (h : Kept q s) : Kept q (setN e t k v s) := .ite h h.updThr

theorem Kept.setRun {e t k l} (h : Kept q s) : Kept q (setRun e t k l s) := h.foldl fun h => h.setN

theorem Kept.putPc {e t v} (h : Kept q s) : Kept q (putPc e t v s) := h.fput

theorem Kept.retire {e t} (h : Kept q s) : Kept q (retire e t s) := h.putPc

theorem Kept.waitOn {e t w} (h : Kept q s) : Kept q (waitOn e t w s) := h.retire.updThr.putThr

theorem Kept.retireWait {e t} (h : Kept q s) : Kept q (retireWait e t s) := h.waitOn

theorem Kept.dropHold {e t i} (h : Kept q s) : Kept q (dropHold e t i s) := h.updThr

theorem Kept.endAllHeld {e t st trap} (h : Kept q s) : Kept q (endAllHeld e t st trap s) := by
  unfold Machine.endAllHeld
  refine h.foldl fun h => ?_
  split
  · exact h
  · exact (h.whenB Kept.bump).endItem.dropHold

theorem Kept.trapRecord {e t cause addr pc word} (h : Kept q s) : Kept q (trapRecord e t cause addr pc word s) := h.wr.wr.wr.wr.wr.wr.wr.wr

theorem Kept.trapAt {e t cause addr pc word} (h : Kept q s) : Kept q (trapAt e t cause addr pc word s) :=
  h.trapRecord.endAllHeld.cryDrop.updThr.putThr.raise.logFault

theorem Kept.trap {e t word cause addr} (h : Kept q s) : Kept q (trap e t word cause addr s) := h.trapAt

theorem Kept.countIssue {e t} (h : Kept q s) : Kept q (countIssue e t s) := .ite h.fput.raise.bump.updThr h.fput

theorem Kept.throttle {e t} (h : Kept q s) : Kept q (throttle e t s) := .ite (Kept.ite h.raise h.raise.bump.updThr).putThr h

theorem Kept.notePassed {e t} (h : Kept q s) : Kept q (notePassed e t s) := h.same.forFin Kept.updThr

theorem Kept.noteSlack {e t pc i} (h : Kept q s) : Kept q (noteSlack e t pc i s) := h.updThr

theorem Kept.issueWord {e t word legal} {f : State → State} (h : Kept q s) (hf : ∀ {u}, Kept q u → Kept q (f u)) :
    Kept q (issueWord e t word legal f s) := by
  unfold Machine.issueWord
  split
  · exact h
  split
  · exact h.trap
  · exact
      have h1 := h.updThr.countIssue.notePassed
      .ite (hf h1).throttle h1.trap

theorem Kept.issue {e t i1} {f : Nat → State → State} (h : Kept q s) (hf : ∀ {i u}, Kept q u → Kept q (f i u)) : Kept q (issue e t i1 f s) :=
  h.issueWord fun h => (hf h).noteSlack

theorem Kept.outerCheck {e t write a n} (h : Kept q s) : Kept q (outerCheck e t write a n s).2 := by
  unfold Machine.outerCheck
  split
  · exact .pair h
  extract_lets w
  split
  · exact .pair h.logUnmapped
  split
  · next heq => exact .pair (h.rangeCheck.snd heq)
  · next heq =>
      split
      · exact .pair (h.rangeCheck.snd heq)
      · exact .pair (h.rangeCheck.snd heq).logUnmapped

theorem Kept.endTrap {e a r} (h : Kept q s) : Kept q (endTrap e a r s).2 := by
  unfold Machine.endTrap
  split
  · exact .pair h
  · exact .pair h
  · exact .pair h.eccLog

theorem Kept.putWinBytes {e t w d} (h : Kept q s) : Kept q (putWinBytes e t w d s) := by
  unfold Machine.putWinBytes
  split
  · exact h.mwrBytes
  · exact h.updThr
  · exact h.raise
  · exact h.mwrBytes
  · exact h.mwrBytes

theorem Kept.reportEvents {e t nd m} (h : Kept q s) : Kept q (reportEvents e t nd m s) := h.updThr.setN

theorem Kept.alarmCheck {k} (h : Kept q s) : Kept q (alarmCheck k s) := h.same

theorem Kept.alarmsDue (h : Kept q s) : Kept q (alarmsDue s) := h.forFin Kept.alarmCheck

theorem Kept.thrFrame {e t} (h : Kept q s) : Kept q (thrFrame e t s) :=
  have h1 := h.updThr.fput
  .ite h1.putThr h1

theorem Kept.execTimeAlarm {e t} (h : Kept q s) : Completes q (execTimeAlarm e t s) := by
  unfold Machine.execTimeAlarm
  refine Completes.next ?_
  split
  · exact h.elapseVt.alarmCheck
  · exact h

theorem Kept.execPostedStoreError {e t k} (h : Kept q s) : Completes q (execPostedStoreError e t k s) := by
  unfold Machine.execPostedStoreError
  refine Completes.next ?_
  split
  · exact h
  · exact .ite h.updThr.trapAt h.updThr

theorem Kept.memLost {e t} (h : Kept q s) : Kept q (memLost e t s) := by
  unfold Machine.memLost
  extract_lets x st go
  split
  · exact h
  split
  · exact h.updThr.trapAt
  · exact h.updThr.trapAt
  · exact h.updThr.trapAt
  · exact h.updThr.trapAt
  · exact h

theorem Kept.execIllegalEncoding {e t word ecc} (h : Kept q s) : Completes q (execIllegalEncoding e t word ecc s) :=
  Completes.next <| .ite (h.issueWord Kept.trap) <| .ite h <| h.issueWord id

theorem Kept.atomicRuns {e t} (h : Kept q s) : Kept q (atomicRuns e t s) := by
  unfold Machine.atomicRuns
  split
  · exact h.mwrN
  · exact h

theorem Kept.threadsLost {e st} (h : Kept q s) : Kept q (threadsLost e st s) := h.forFin fun h => h.atomicRuns.endAllHeld.cryDrop.updThr.putThr

/-! ### Flash: erasing, programming and the settings -/

theorem Kept.updBoot {f} (h : Kept q s) : Kept q (updBoot f s) := h.same

theorem Kept.flashOpen {a n} (h : Kept q s) : Kept q (flashOpen a n s) := h.ferase.fprogBytes.same

theorem Kept.xspiEnd {st verify} (h : Kept q s) : Kept q (xspiEnd st verify s) :=
  (h.updBoot.fput.fput.fput.fput.raise.whenB Kept.raise).whenB Kept.fput

theorem Kept.xspiSource {w op n e} (h : Kept q s) : Kept q (xspiSource w op n e s).2.2 := by
  unfold Machine.xspiSource
  split
  · exact .triple h
  split
  · exact .triple h
  · exact .triple h
  split
  · next heq => exact .triple (h.unitRead.snd heq)
  · next heq => exact .triple (h.unitRead.snd heq)

theorem Kept.xspiCmd {w op e} (h : Kept q s) : Kept q (xspiCmd w op e s) := by
  unfold Machine.xspiCmd
  split
  · exact h.bad
  extract_lets a n
  split
  · exact h.xspiEnd
  split
  · next heq => exact (h.xspiSource.snd₃ heq).updBoot.fput
  · next heq => exact (h.xspiSource.snd₃ heq).xspiEnd

theorem Kept.execCmdDone {differs} (h : Kept q s) : Completes q (execCmdDone differs s) := by
  unfold Machine.execCmdDone
  refine Completes.next ?_
  split
  · exact h
  · exact .ite h.ferase.xspiEnd (.ite h.flashOpen.xspiEnd (.ite h.fprogBytes.xspiEnd h.fprogBytes.xspiEnd))

theorem Kept.execXspiBusyTimeout (h : Kept q s) : Completes q (execXspiBusyTimeout s) := by
  unfold Machine.execXspiBusyTimeout
  refine Completes.next ?_
  split
  · exact h
  · exact h.elapseTo.flashOpen.xspiEnd

theorem Kept.execXspiSuspend (h : Kept q s) : Completes q (execXspiSuspend s) := by
  unfold Machine.execXspiSuspend
  refine Completes.next ?_
  split
  · exact h
  · exact h.elapseTo.updBoot.fput

theorem Kept.execXspiResume (h : Kept q s) : Completes q (execXspiResume s) := by
  unfold Machine.execXspiResume
  refine Completes.next ?_
  split
  · exact h
  split
  · exact h
  · exact h.elapseTo.updBoot.fput

theorem Kept.xspiRelease (h : Kept q s) : Kept q (xspiRelease s) := h.updBoot.fput

/-! ### The seal of the log -/

theorem Kept.ringWrite {a d} (h : Kept q s) : Kept q (ringWrite a d s) := .ite h.mwrBytes h.logUnmapped

theorem Kept.closeBlock (h : Kept q s) : Kept q (closeBlock s) := h.updSig.mwrN

theorem Kept.packRecord {r} (h : Kept q s) : Kept q (packRecord r s) :=
  have h1 := h.ringWrite.bump.updSig
  .ite h1.closeBlock h1

theorem Kept.ringLose {r} (h : Kept q s) : Kept q (ringLose r s) := (Kept.ite h.updSig h.updSig.countLost).raise

theorem Kept.packOrLose {r} (h : Kept q s) : Kept q (packOrLose r s) := .ite h.ringLose h.packRecord

theorem Kept.acceptRecord (h : Kept q s) : Kept q (acceptRecord s) := by
  unfold Machine.acceptRecord
  split
  · exact h
  extract_lets s1
  split
  · exact h.same.ringLose
  split
  · exact h.same.packRecord
  · exact
      have h1 := h.same.updSig.packRecord
      .ite h1.packOrLose h1

theorem Kept.drainSink {n} (h : Kept q s) : Kept q (drainSink n s) := by
  induction n generalizing s with
  | zero => exact h
  | succ n ih => exact ih h.acceptRecord

theorem Kept.padBlock (h : Kept q s) : Kept q (padBlock s) := .ite h h.ringWrite.closeBlock

theorem Kept.postSeal {k} (h : Kept q s) : Kept q (postSeal k s) := h.padBlock.bump.updSig.mwrN.mwrBytes

theorem Kept.sealTrigger {reason} (h : Kept q s) : Kept q (sealTrigger reason s) := .ite h (.ite h.postSeal h.updSig)

theorem Kept.sealSettle (h : Kept q s) : Kept q (sealSettle s) := by
  unfold Machine.sealSettle
  split
  · exact h
  split
  · exact h.postSeal
  · exact .ite h.updSig h.updSig.fput

theorem Kept.execSealLate (h : Kept q s) : Completes q (execSealLate s) := by
  unfold Machine.execSealLate
  refine Completes.next ?_
  split
  · exact h
  · exact .ite h h.elapseTo.raise.logFault.updSig

theorem Kept.crashSign {head} (h : Kept q s) : Kept q (crashSign head s).2.2 := by
  unfold Machine.crashSign
  extract_lets p zero
  split
  · exact .triple h.useKey.useFree
  · exact .triple h

theorem Kept.crashSkip (h : Kept q s) : Kept q (crashSkip s) := h.bump.raise

theorem Kept.crashImage {reason} (h : Kept q s) : Kept q (crashImage reason s) := by
  unfold Machine.crashImage
  split
  · exact h.crashSkip
  extract_lets ring s1 head
  split
  · next heq => exact (h.updSig.crashSign.snd₃ heq).updSig.whenB Kept.fput

theorem Kept.crashTrigger {reason} (h : Kept q s) : Kept q (crashTrigger reason s) := (Kept.ite h.crashSkip h.fput.crashImage).sealTrigger

theorem Kept.crashRearm (h : Kept q s) : Kept q (crashRearm s) := h.fput

theorem Kept.execCrashDone (h : Kept q s) : Completes q (execCrashDone s) := by
  unfold Machine.execCrashDone
  refine Completes.next ?_
  split
  · exact h
  · exact .ite h (h.fprogBytes.fprogBytes.updSig.cryTally.logFault.raise.fput.whenB Kept.xspiRelease)

theorem Kept.logOpen (h : Kept q s) : Kept q (logOpen s) :=
  have h1 := h.fput.fput.same.updSig.mwrN.mwrN.mwrBytes
  (Kept.ite h1.crashImage h1).updSig.logFault.acceptRecord

theorem Kept.logClose (h : Kept q s) : Kept q (logClose s) := h.drainSink.fput.sealTrigger

theorem Kept.logEnWrite {en} (h : Kept q s) : Kept q (logEnWrite en s) := .ite h (.ite h.logOpen h.logClose)

theorem Kept.hostPush {w w3} (h : Kept q s) : Kept q (hostPush w w3 s) := by
  unfold Machine.hostPush
  split
  · next heq => exact (h.logPush.snd heq).fput

/-! ### Memory instructions of a thread -/

theorem Kept.loadData {e t nd size w} (h : Kept q s) : Kept q (loadData e t nd size w s) := h.setRun

theorem Kept.bankClash {a c} (h : Kept q s) : Kept q (bankClash a c s) := by
  unfold Machine.bankClash
  split
  · extract_lets b
    split
    · exact h
    · exact h.bump
    · exact h.bump
  · exact h

theorem Kept.outerData {e t nd size a c} (h : Kept q s) : Kept q (outerData e t nd size a c s) := .ite h.bankClash.setRun.useFree h.bankClash.loadData

theorem Kept.load {k e t nd na imm r c} (h : Kept q s) : Kept q (load k e t nd na imm r c s) := by
  unfold Machine.load
  refine h.issue fun h => ?_
  extract_lets a size
  split
  · exact h.trap
  split
  · exact h.trap
  · split
    · next heq => exact (h.outerCheck.snd heq).trap
    · next heq =>
        split
        · exact (h.outerCheck.snd heq).waitOn
        split
        · next heq1 => exact ((h.outerCheck.snd heq).endTrap.snd heq1).trap
        · next heq1 => exact ((h.outerCheck.snd heq).endTrap.snd heq1).outerData.retire
  · split
    · next heq => exact (h.outerCheck.snd heq).trap
    · next heq =>
        split
        · exact (h.outerCheck.snd heq).waitOn
        split
        · next heq1 => exact ((h.outerCheck.snd heq).endTrap.snd heq1).trap
        · next heq1 => exact ((h.outerCheck.snd heq).endTrap.snd heq1).outerData.retire
  split
  · exact h.trap
  · exact h.trap
  · exact h.loadData.retire

theorem Kept.storeEffect {e t w a d word c} (h : Kept q s) : Kept q (storeEffect e t w a d word c s).2 := by
  unfold Machine.storeEffect
  split
  · split
    · next heq => exact .pair (h.outerCheck.snd heq)
    · next heq => exact .pair (h.outerCheck.snd heq).bankClash.putWinBytes.updThr.sealSettle
  · split
    · next heq => exact .pair (h.outerCheck.snd heq)
    · next heq => exact .pair (h.outerCheck.snd heq).bankClash.putWinBytes.updThr.sealSettle
  · exact .pair h.putWinBytes

theorem Kept.storeTrap {e t c a pc word} (h : Kept q s) : Kept q (storeTrap e t c a pc word s) := h.trapAt

theorem Kept.postedDone {e t n} (h : Kept q s) : Kept q (postedDone e t n s) := h.updThr

theorem Kept.store {k e t nd na imm n c} (h : Kept q s) : Kept q (store k e t nd na imm n c s) := by
  unfold Machine.store
  refine h.issue fun h => ?_
  extract_lets s1 a size pc
  split
  · exact h.postedDone.trap
  split
  · exact h.postedDone.trap
  extract_lets d
  split
  · exact h.postedDone.waitOn
  split
  · next heq => exact (h.postedDone.storeEffect.snd heq).retire
  · next heq => exact (Kept.ite (h.postedDone.storeEffect.snd heq).retire (h.postedDone.storeEffect.snd heq)).storeTrap

theorem Kept.bankRmw {e t nd add a v} (h : Kept q s) : Kept q (bankRmw e t nd add a v s) := h.mwrN.setN.sealSettle

theorem Kept.bankAtomic {add e t nd na nb r} (h : Kept q s) : Kept q (bankAtomic add e t nd na nb r s) := by
  unfold Machine.bankAtomic
  refine h.issue fun h => ?_
  extract_lets a v
  split
  · exact h.trap
  split
  · exact h.trap
  split
  · next heq => exact (h.outerCheck.snd heq).trap
  · next heq =>
      split
      · exact (h.outerCheck.snd heq).waitOn
      split
      · next heq1 => exact ((h.outerCheck.snd heq).endTrap.snd heq1).trap
      · next heq1 => exact ((h.outerCheck.snd heq).endTrap.snd heq1).bankRmw.retire

theorem Kept.wev {e t nd na} (h : Kept q s) : Kept q (wev e t nd na s) := h.issue fun h => .ite h.icSettle.reportEvents.retire h.icSettle.waitOn

theorem Kept.execTat {e t nd na} (h : Kept q s) : Completes q (execTat e t nd na s) := by
  unfold Machine.execTat
  refine Completes.next ?_
  refine h.issue fun h => ?_
  split
  · exact h.setN.retire
  · exact h.updThr.alarmCheck.setN.retire

theorem Kept.cq {e t nd na} (h : Kept q s) : Kept q (cq e t nd na s) := by
  unfold Machine.cq
  refine h.issue fun h => ?_
  extract_lets a
  split
  · exact h.trap
  split
  · exact h.trap
  split
  · exact h.trap
  split
  · exact h.trap
  split
  · exact h.trap
  split
  · exact h.setN.retireWait
  · exact h.cryEnqueue.setN.retireWait

theorem Kept.jobCollect {e t nd g st} (h : Kept q s) : Kept q (jobCollect e t nd g st s) := h.updKey.setN

theorem Kept.execCqwait {e t nd na} (h : Kept q s) : Completes q (execCqwait e t nd na s) := by
  unfold Machine.execCqwait
  refine Completes.next ?_
  refine h.issue fun h => ?_
  extract_lets g
  split
  · exact h.jobCollect.retire
  · exact .ite h.waitOn h.trap

/-! ### Table instructions of a thread -/

theorem Kept.tabLine {e t idx j counted n} (h : Kept q s) : Kept q (tabLine e t idx j counted n s).2 := by
  unfold Machine.tabLine
  extract_lets a w
  split
  · exact .pair h.logUnmapped
  split
  · next heq => exact .pair (h.rangeCheck.snd heq)
  · next heq =>
      split
      · next heq1 => exact .pair ((h.rangeCheck.snd heq).sigLook.snd heq1)
      · next heq1 => exact .pair ((h.rangeCheck.snd heq).sigLook.snd heq1)
      · next heq1 => exact .pair ((h.rangeCheck.snd heq).sigLook.snd heq1)

theorem Kept.tabDef {e t id counted} (h : Kept q s) : Kept q (tabDef e t id counted s).2 := by
  unfold Machine.tabDef
  split
  · exact .pair h
  split
  · exact .pair h
  split
  · exact .pair h
  split
  · next heq => exact .pair (h.tabLine.snd heq)
  · next heq => exact .pair (h.tabLine.snd heq)
  · next heq => exact .pair (h.tabLine.snd heq)

theorem Kept.idxFind {e t key k counted f i cur n} (h : Kept q s) : Kept q (idxFind e t key k counted f i cur n s).2 := by
  induction f generalizing i cur n s with
  | zero => exact h
  | succ f ih =>
    unfold Machine.idxFind
    extract_lets r
    have hr : Kept q r.2 := by
      unfold r
      split
      · exact .ite₂ (.pair h) h.tabLine
      · exact h.tabLine
    clear_value r
    split
    · exact .pair hr
    · exact .pair hr
    · exact .ite₂ (.pair hr) (.ite₂ (.pair hr) (ih hr))

theorem Kept.groupFind {e t counted f id cur n acc} (h : Kept q s) : Kept q (groupFind e t counted f id cur n acc s).2 := by
  induction f generalizing id cur n acc s with
  | zero => exact h
  | succ f ih =>
    unfold Machine.groupFind
    extract_lets r
    have hr : Kept q r.2 := by
      unfold r
      split
      · exact .ite₂ (.pair h) h.tabLine
      · exact h.tabLine
    split
    · exact .pair h
    clear_value r
    split
    · exact .pair hr
    · exact .pair hr
    · exact ih hr

theorem Kept.tabSource {e t key nth counted} (h : Kept q s) : Kept q (tabSource e t key nth counted s).2 := by
  unfold Machine.tabSource
  split
  · exact .pair h
  split
  · exact .pair h
  split
  · exact .pair h
  extract_lets k
  split
  · next heq => exact .pair (h.idxFind.snd heq)
  · next heq => exact .pair (h.idxFind.snd heq)
  · next heq => exact .pair (h.idxFind.snd heq)
  · next heq =>
      split
      · next heq1 => exact .pair ((h.idxFind.snd heq).groupFind.snd heq1)
      · next heq1 => exact .pair ((h.idxFind.snd heq).groupFind.snd heq1)
      · next heq1 => exact .pair ((h.idxFind.snd heq).groupFind.snd heq1)

theorem Kept.payload {e t a n write r} (h : Kept q s) : Kept q (payload e t a n write r s).2 := by
  unfold Machine.payload
  split
  · split
    · exact .pair h
    · exact .pair h
  split
  · split
    · next heq => exact .pair (h.outerCheck.snd heq)
    · next heq =>
        split
        · next heq1 => exact .pair ((h.outerCheck.snd heq).endTrap.snd heq1)
        · next heq1 => exact .pair ((h.outerCheck.snd heq).endTrap.snd heq1)
  · exact .pair h

theorem Kept.sigRead {e t a r d} (h : Kept q s) : Kept q (sigRead e t a r d s).2 := by
  unfold Machine.sigRead
  split
  · exact .pair h
  split
  · split
    · next heq =>
        split
        · exact .pair (h.payload.snd heq)
        · exact .pair (h.payload.snd heq).useFree
    · next heq => exact .pair (h.payload.snd heq)
    · next heq => exact .pair (h.payload.snd heq)
  · exact .pair h
  · exact .pair h

theorem Kept.sigWrite {e t id a value r d} (h : Kept q s) : Kept q (sigWrite e t id a value r d s).2 := by
  unfold Machine.sigWrite
  extract_lets upd
  have hupd : ∀ {u}, Kept q u → Kept q (upd u) := Kept.bump
  split
  · exact .pair (hupd h)
  split
  · extract_lets c
    split
    · exact .pair (hupd h)
    split
    · next heq =>
      have h1 := h.payload.snd heq
      split
      split
      next heq =>
        have h2 := Kept.snd (q := q) ?_ heq
        · exact .pair (hupd h2.putWinBytes.logSignal)
        · split
          · exact .pair h1
          · exact .pair h1.useFree
    · next heq => exact .pair (h.payload.snd heq)
    · next heq => exact .pair (h.payload.snd heq)
  · exact .pair (hupd h)
  · exact .pair (hupd h)

theorem Kept.tabWrite {e t id d counted} (h : Kept q s) : Kept q (tabWrite e t id d counted s).2 := by
  unfold Machine.tabWrite
  split
  · exact .pair h
  split
  · exact .pair h
  split
  · exact .pair h
  split
  · next heq => exact .pair (h.outerCheck.snd heq)
  · next heq => exact .pair (h.outerCheck.snd heq).bump.defWrite

theorem Kept.lookStep {e t r counted op} (h : Kept q s) : Kept q (lookStep e t r counted op s).2 := by
  unfold Machine.lookStep
  split
  · split
    · next heq => exact .pair (h.tabDef.snd heq).setRun
    · next heq => exact .pair (h.tabDef.snd heq)
    · next heq => exact .pair (h.tabDef.snd heq)
  · split
    · next heq => exact .pair (h.tabWrite.snd heq).setN
    · next heq => exact .pair (h.tabWrite.snd heq)
    · next heq => exact .pair (h.tabWrite.snd heq)
  · split
    · next heq => exact .pair (h.tabSource.snd heq).setRun
    · next heq => exact .pair (h.tabSource.snd heq)
    · next heq => exact .pair (h.tabSource.snd heq)
  · split
    · next heq =>
        split
        · next heq1 => exact .pair ((h.tabDef.snd heq).sigRead.snd heq1).setRun
        · next heq1 => exact .pair ((h.tabDef.snd heq).sigRead.snd heq1)
        · next heq1 => exact .pair ((h.tabDef.snd heq).sigRead.snd heq1)
    · next heq => exact .pair (h.tabDef.snd heq)
    · next heq => exact .pair (h.tabDef.snd heq)
  split
  · next heq =>
      split
      · next heq1 => exact .pair ((h.tabDef.snd heq).sigWrite.snd heq1).setN
      · next heq1 => exact .pair ((h.tabDef.snd heq).sigWrite.snd heq1)
      · next heq1 => exact .pair ((h.tabDef.snd heq).sigWrite.snd heq1)
  · next heq => exact .pair (h.tabDef.snd heq)
  · next heq => exact .pair (h.tabDef.snd heq)

theorem Kept.lookIssue {e t i r op} (h : Kept q s) : Kept q (lookIssue e t i r op s) := by
  unfold Machine.lookIssue
  refine h.issue fun h => ?_
  extract_lets o
  split
  · next heq => exact (h.lookStep.snd heq).retireWait
  · next heq => exact (h.lookStep.snd heq).waitOn
  · next heq => exact (h.lookStep.snd heq).trap

theorem Kept.wakeThr {e t} (h : Kept q s) : Kept q (wakeThr e t s) := .ite h.updThr.putThr h.updThr

theorem Kept.waitEnd {e t r c w} (h : Kept q s) : Kept q (waitEnd e t r c w s) := by
  unfold Machine.waitEnd
  split
  · exact h.wakeThr
  · exact .ite h h.reportEvents.wakeThr
  · split
    · exact h.jobCollect.wakeThr
    · exact h
  · exact h.postedDone.wakeThr
  · split
    · split
      · exact h.trapAt
      split
      · next heq => exact (h.endTrap.snd heq).trapAt
      · next heq => exact (h.endTrap.snd heq).outerData.wakeThr
    · split
      · exact h.trapAt
      split
      · next heq => exact (h.endTrap.snd heq).trapAt
      · next heq => exact (h.endTrap.snd heq).outerData.wakeThr
    · exact h
  · split
    · exact h.trapAt
    split
    · next heq => exact (h.endTrap.snd heq).trapAt
    · next heq => exact (h.endTrap.snd heq).bankRmw.wakeThr
  · split
    · split
      · next heq => exact (h.postedDone.storeEffect.snd heq).wakeThr
      · next heq => exact (h.postedDone.storeEffect.snd heq).storeTrap
    · exact h
  split
  · next heq => exact (h.lookStep.snd heq).wakeThr
  · next heq => exact (h.lookStep.snd heq).updThr
  · next heq => exact (h.lookStep.snd heq).trapAt

theorem Kept.execWaitComplete {e t r c} (h : Kept q s) : Completes q (execWaitComplete e t r c s) := by
  unfold Machine.execWaitComplete
  refine Completes.next ?_
  extract_lets s1
  split
  · exact h.icSettle.waitEnd
  · exact h.icSettle

/-! ### Commands to a thread -/

theorem Kept.readsReturn {e t} (h : Kept q s) : Kept q (readsReturn e t s) := by
  unfold Machine.readsReturn
  split
  · split
    · exact h.setRun
    · exact h
  · exact h.bankRmw
  · exact h.lookStep
  · exact h

theorem Kept.thrStop {e t} (h : Kept q s) : Kept q (thrStop e t s) := .ite h h.readsReturn.endAllHeld.cryDrop.updThr.putThr

theorem Kept.blwStopThr {e t} (h : Kept q s) : Kept q (blwStopThr e t s) := .ite h.thrStop.same h

theorem Kept.thrStart {e t} (h : Kept q s) : Kept q (thrStart e t s) := by
  unfold Machine.thrStart
  extract_lets st
  split
  · exact h
  split
  · exact h.raise
  · exact
      have h1 := h.updThr.fput.putPc.putThr
      .ite h1.blwStopThr h1

theorem Kept.doorbell {e t} (h : Kept q s) : Kept q (doorbell e t s) := h.updThr

theorem Kept.thrCmd {w e t v} (h : Kept q s) : Kept q (thrCmd w e t v s) :=
  .ite h.bad (((h.whenB Kept.thrStop).whenB Kept.thrStart).whenB Kept.doorbell)

/-! ### Commands of the clock -/

theorem Kept.nowRead {w} (h : Kept q s) : Kept q (nowRead w s) := by
  unfold Machine.nowRead
  split
  · exact (Kept.ite h h.updTime).answer

theorem Kept.resync (h : Kept q s) : Kept q (resync s) := .ite h h.updTime

theorem Kept.execServoSample (h : Kept q s) : Completes q (execServoSample s) := by
  unfold Machine.execServoSample
  refine Completes.next ?_
  split
  · exact h
  · exact h.updTime.takeSample

theorem Kept.execHoldLimit (h : Kept q s) : Completes q (execHoldLimit s) := by
  unfold Machine.execHoldLimit
  refine Completes.next ?_
  split
  · exact .ite h h.elapseTo.updTime.showQuality.raise.logTime
  · exact h

theorem Kept.stepAccept (h : Kept q s) : Kept q (stepAccept s) := .ite h.acceptStep h

theorem Kept.roleWrite {role} (h : Kept q s) : Kept q (roleWrite role s) := by
  unfold Machine.roleWrite
  split
  · exact h
  · exact
      have h1 := h.fput.updTime
      .ite (.ite h1 h1.dropStep.putStepPend.updTime.enterState) (.ite h1.updTime.enterHoldover h1)

theorem Kept.twinEnWrite {en} (h : Kept q s) : Kept q (twinEnWrite en s) := .ite h h.fput.twinReset

theorem Kept.setGo (h : Kept q s) : Kept q (setGo s) := .ite h.updTime h.raise.bad

theorem Kept.twinResume {dir} (h : Kept q s) : Kept q (twinResume dir s) := h.updTime.relearn.putAgree.raise.chooseSteer

theorem Kept.ppsSample {sub} (h : Kept q s) : Kept q (ppsSample sub s) :=
  have h1 := Kept.ite h.fput.fput h
  .ite h1.bump h1.judge

theorem Kept.execPpsLost (h : Kept q s) : Completes q (execPpsLost s) := by
  unfold Machine.execPpsLost
  refine Completes.next ?_
  split
  · exact h
  · exact
      have h1 := h.advance.updTime.raise.fput
      .ite h1 h1.dropStep.enterHoldover

/-! ### Islands -/

theorem Kept.shellDown {st} (h : Kept q s) : Kept q (shellDown st s) := by
  unfold Machine.shellDown
  extract_lets s1
  have h1 : Kept q s1 := by
    unfold s1
    refine h.foldl fun h => ?_
    split
    · next heq => exact (h.nextCount.snd heq).submitEnd
  exact (((h1.foldl fun h => h.submitEnd).endHolds.migAbort.updVqi.foldl fun h => h.vqiComplete).foldl fun h => h.vqiComplete).endHolds.updSw.showPool

theorem Kept.copyLost {pick} (h : Kept q s) : Kept q (copyLost pick s) := h.whenB Kept.copyEnd

theorem Kept.linDown {l} (h : Kept q s) : Kept q (linDown l s) := h.bumpBy.updLin.linRest

theorem Kept.islandDown {i st} (h : Kept q s) : Kept q (islandDown i st s) := by
  unfold Machine.islandDown
  split
  · exact (h.forFin Kept.canAbort).forFin Kept.linDown
  · exact h.copyLost.forFin fun h => h.forFin Kept.memLost
  · exact h.cryDrop.copyLost
  · exact h.foldl fun h => h.icTargetLost.setResv
  · exact h.foldl fun h => h.icTargetLost.setResv
  · exact h.icTargetLost.copyLost
  · exact h.icTargetLost.copyLost
  · exact h.icTargetLost.copyLost
  · exact h.icTargetLost.copyLost
  · exact h.foldl fun h => h.threadsLost.icEngineLost
  · exact h.foldl fun h => h.threadsLost.icEngineLost
  · exact h.foldl fun h => h.threadsLost.icEngineLost
  · exact h.foldl fun h => h.threadsLost.icEngineLost
  · exact h.planeLost
  · exact h.planeLost
  · exact h.foldl fun h => h.camClose
  · exact h.foldl fun h => h.camClose
  · exact h.shellDown
  · exact h

theorem Kept.showPlanes (h : Kept q s) : Kept q (showPlanes s) := (h.whenB Kept.fput).whenB Kept.fput

theorem Kept.timeWipe {b} (h : Kept q s) : Kept q (timeWipe b s) := by
  unfold Machine.timeWipe
  exact h.useFree.useFree.updTimeIsl

theorem Kept.islandWipe {i} (h : Kept q s) : Kept q (islandWipe i s) := by
  unfold Machine.islandWipe
  split
  · exact h.foldl fun h => h.updHart
  · exact h.foldl fun h => h.updHart
  · exact h.dropMem.same
  · exact h.dropMem.same
  · exact h.dropMem.same
  · exact h.dropMem.same
  · exact h.foldl fun h => (h.forFin Kept.updThr).dropMem.dropRegs
  · exact h.foldl fun h => (h.forFin Kept.updThr).dropMem.dropRegs
  · exact h.foldl fun h => (h.forFin Kept.updThr).dropMem.dropRegs
  · exact h.foldl fun h => (h.forFin Kept.updThr).dropMem.dropRegs
  · exact h.foldl fun h => h.dropRegs.updCam
  · exact h.foldl fun h => h.dropRegs.updCam
  · exact h.timeWipe
  · exact h.timeWipe
  · exact h.dropRegs.dropRegs.same.showPlanes.showPool
  · exact h

theorem Kept.enterReset {i st} (h : Kept q s) : Kept q (enterReset i st s) := h.islandDown.islandWipe.updIsl.raise.bump.fput.fput

theorem Kept.stopIsland {i} (h : Kept q s) : Kept q (stopIsland i s) := (h.foldl fun h => h.camAbortFrames).updIsl

theorem Kept.leaveMaster {b} (h : Kept q s) : Kept q (leaveMaster b s) := (h.withMasterMove fun h => .ite h.setMaster h).markFaulty.freshFault

theorem Kept.resetIsland {i hold} (h : Kept q s) : Kept q (resetIsland i hold s) := (Kept.ite h.leaveMaster (.ite h.leaveMaster h)).updIsl

theorem Kept.drainOver {i} (h : Kept q s) : Kept q (drainOver i s) := .ite h (.ite h.enterReset h.islandDown.updIsl)

theorem Kept.startIsland {i} (h : Kept q s) : Kept q (startIsland i s) := h.updIsl

theorem Kept.blwTakes {i} (h : Kept q s) : Kept q (blwTakes i s) :=
  have h1 := (h.foldl fun h => .ite h.updHart h).foldl fun h => h.forFin fun h => .ite h.blwStopThr h
  .ite h1.stopIsland.updIsl (.ite h1.updIsl.same h1)

theorem Kept.islandUp {i} (h : Kept q s) : Kept q (islandUp i s) := (Kept.ite h.updIsl.planeBack (.ite h.updIsl.planeBack h.updIsl)).blwTakes

theorem Kept.worldGate {w a} (h : Kept q s) : Kept q (worldGate w a s) := h.violateBy.bump.raise.bad

theorem Kept.islDo {i op} (h : Kept q s) : Kept q (islDo i op s) := by
  unfold Machine.islDo
  extract_lets x
  split
  · exact h.updIsl
  · exact h.updIsl
  · exact .ite h.updIsl h.stopIsland
  · exact .ite h.updIsl h.stopIsland
  · exact .ite h h.islandUp
  · exact h.startIsland
  · exact h.islandWipe.startIsland
  · exact h.resetIsland
  · exact h.resetIsland
  · exact h.enterReset.updIsl
  · exact h.resetIsland
  · exact h.resetIsland
  · exact h.enterReset.updIsl
  · exact .ite h.startIsland h
  · exact h

theorem Kept.islCmd {w i op} (h : Kept q s) : Kept q (islCmd w i op s) := .ite h.worldGate (.ite h.bad h.islDo)

theorem Kept.execResponseDiscard {i} (h : Kept q s) : Completes q (execResponseDiscard i s) := by
  unfold Machine.execResponseDiscard
  refine Completes.next ?_
  split
  · exact h.bump.raise
  · exact h.bump.raise
  · exact h.bump.raise
  · exact h

theorem Kept.setRail {d v} (h : Kept q s) : Kept q (setRail d v s) := by
  unfold Machine.setRail
  split
  · exact h.same
  · exact h.same

theorem Kept.readmitMaster {b} (h : Kept q s) : Kept q (readmitMaster b s) := (Kept.ite h h.takeHeld).updTimeIsl.fput.fputI

theorem Kept.loseTime {b} (h : Kept q s) : Kept q (loseTime b s) :=
  have h1 := h.markFaulty.freshFault
  .ite (h1.withMasterMove Kept.setMaster).readmitMaster.raise h1

theorem Kept.loseCan {c} (h : Kept q s) : Kept q (loseCan c s) := h.canAbort.canRegsReset.segLose

theorem Kept.domainLost {d} (h : Kept q s) : Kept q (domainLost d s) := by
  unfold Machine.domainLost
  split
  · exact h
  · exact (((h.setRail.lower.raise.loseTime.foldl fun h => .ite h h.islandDown.updIsl).forFin Kept.queueLost).foldl fun h => h.loseCan).whenB Kept.makeAbsent

theorem Kept.execLockstep {p} (h : Kept q s) : Completes q (execLockstep p s) := by
  unfold Machine.execLockstep
  refine Completes.next ?_
  extract_lets i
  split
  · exact h
  · exact h
  · exact h.enterReset.updIsl.raise.raise

theorem Kept.keepAlive {v} (h : Kept q s) : Kept q (keepAlive v s) := by
  unfold Machine.keepAlive
  extract_lets old s1
  refine h.wr.forFin fun h => ?_
  extract_lets x was is
  split
  · split
    · exact .ite h h.islandUp
    · exact .ite h h.startIsland
    · exact h
  split
  · split
    · exact h.stopIsland
    · exact h.stopIsland
    · exact h
  · exact h

/-! ### Load channels -/

theorem Kept.cqSubmit {k w3} (h : Kept q s) : Kept q (cqSubmit k w3 s) := .ite h.fput h.updPd.showFill.fput

theorem Kept.pdPop {src} (h : Kept q s) : Kept q (pdPop src s) := by
  unfold Machine.pdPop
  split
  · exact h.updPd.showFill
  · exact h.updPd

theorem Kept.setDrive {n d endShed} (h : Kept q s) : Kept q (setDrive n d endShed s) := h.chChange fun h => (Kept.ite h.fput.updCh h).updCh.fput

theorem Kept.startPulses {n} (h : Kept q s) : Kept q (startPulses n s) := by
  unfold Machine.startPulses
  split
  · exact h.chChange Kept.updPd
  · exact h.chChange Kept.updPd
  · exact h

theorem Kept.pdOutcome {src c} (h : Kept q s) : Kept q (pdOutcome src c s) := by
  unfold Machine.pdOutcome
  extract_lets ch n fin drives
  split
  · exact h.pdRecord
  split
  · exact h.pdRecord
  split
  · exact h.pdRecord
  split
  · exact h.pdRecord
  split
  · exact .ite h.pdRecord (.ite h.pdRecord (h.foldl fun h => h.fput.setDrive).pdRecord)
  split
  · exact .ite h.pdRecord (.ite h.pdRecord (.ite h.updPd h.updPd.startPulses))
  · exact .ite (h.foldl fun h => h.setDrive).pdRecord (.ite h.pdRecord (.ite h.pdRecord (h.foldl fun h => h.setDrive).pdRecord))

theorem Kept.pdApply {src op} (h : Kept q s) : Kept q (pdApply src op s) := by
  unfold Machine.pdApply
  split
  · exact h
  · exact .ite h h.elapseTo.pdPop.updPd.pdOutcome

theorem Kept.execCmdLinkTimeout {src} (h : Kept q s) : Completes q (execCmdLinkTimeout src s) := by
  unfold Machine.execCmdLinkTimeout
  refine Completes.next ?_
  split
  · exact h
  · exact h.elapseTo.pdPop.pdRecord

theorem Kept.execVdsFault {n mv} (h : Kept q s) : Completes q (execVdsFault n mv s) := by
  unfold Machine.execVdsFault
  refine Completes.next ?_
  split
  · exact .ite h.elapseTo.latch h
  · exact h

theorem Kept.setW {n w} (h : Kept q s) : Kept q (setW n w s) := h.updCh.fput

theorem Kept.execI2tUpdate {n isq} (h : Kept q s) : Completes q (execI2tUpdate n isq s) := by
  unfold Machine.execI2tUpdate
  refine Completes.next ?_
  split
  · exact h
  · exact
      have h1 := h.updCh.setW.whenB Kept.useFree
      .ite h1.latch h1

theorem Kept.setDiag {f ev n v} (h : Kept q s) : Kept q (setDiag f ev n v s) := .ite h.fput.chEvent h.fput

theorem Kept.judgeTest {t fell} (h : Kept q s) : Kept q (judgeTest t fell s) :=
  have h1 := (h.chChange Kept.updPd).whenB Kept.updCh
  .ite h1.pdRecord h1.setDiag.pdRecord

theorem Kept.execTestPulseEnd {n out vbat} (h : Kept q s) : Completes q (execTestPulseEnd n out vbat s) := by
  unfold Machine.execTestPulseEnd
  refine Completes.next ?_
  split
  · exact h
  split
  · exact h.elapseTo.judgeTest
  · exact .ite h h.elapseTo.judgeTest

theorem Kept.execTestDeferTimeout {n} (h : Kept q s) : Completes q (execTestDeferTimeout n s) := by
  unfold Machine.execTestDeferTimeout
  refine Completes.next ?_
  split
  · exact h
  · exact .ite h h.elapseTo.updPd.pdRecord

theorem Kept.groupShed {g} (h : Kept q s) : Kept q (groupShed g s) := by
  unfold Machine.groupShed
  extract_lets s1
  split
  · exact h.updPd.shed
  · exact h.updPd

theorem Kept.execTgTempRead {g deg} (h : Kept q s) : Completes q (execTgTempRead g deg s) := Completes.next <|
  have h1 := ((h.fputSat.fput.whenB Kept.pdEvent).fput.whenB Kept.pdEvent).fput.whenB Kept.pdEvent
  have h2 := Kept.ite (.ite h1 h1.groupShed) h1.updPd
  have h3 := Kept.ite (h2.updPd.forCh fun h => .ite h.release h) h2
  .ite (h3.forCh fun h => .ite h.latchOne h) h3

theorem Kept.execTgShedStep {g} (h : Kept q s) : Completes q (execTgShedStep g s) := by
  unfold Machine.execTgShedStep
  refine Completes.next ?_
  split
  · exact h
  · exact h.elapseTo.groupShed

theorem Kept.budgetShed (h : Kept q s) : Kept q (budgetShed s) := by
  unfold Machine.budgetShed
  split
  · exact h.updCh.shed
  · exact .ite (h.updPd.whenB Kept.pdEvent) h

theorem Kept.budgetRelease (h : Kept q s) : Kept q (budgetRelease s) :=
  Kept.foldl₂ (.pair h) fun h => .ite₂ (.pair (Kept.release h)) h

theorem Kept.execPowerBudgetUpdate (h : Kept q s) : Completes q (execPowerBudgetUpdate s) := Completes.next <|
  have h1 := ((h.forCh Kept.updCh).updPd.fput.fput.whenB Kept.pdEvent).updPd
  have h2 := Kept.ite h1.updPd.pdEvent.budgetShed h1
  .ite h2.budgetRelease h2

theorem Kept.execBudgetShedStep (h : Kept q s) : Completes q (execBudgetShedStep s) := by
  unfold Machine.execBudgetShedStep
  refine Completes.next ?_
  split
  · exact h
  · exact
      have h1 := h.elapseTo.updPd
      .ite h1.budgetShed h1.updPd

theorem Kept.execShedRestoreStep (h : Kept q s) : Completes q (execShedRestoreStep s) := by
  unfold Machine.execShedRestoreStep
  refine Completes.next ?_
  extract_lets order
  split
  · exact h
  · exact (h.elapseTo.chChange Kept.updCh).pdEvent.updPd

theorem Kept.claimOne {n} (h : Kept q s) : Kept q (claimOne n s) := h.chChange Kept.updCh

theorem Kept.loadchClaim (h : Kept q s) : Kept q (loadchClaim s) := .ite h (h.forCh Kept.claimOne).setCstate.pdEvent

theorem Kept.loadchPark (h : Kept q s) : Kept q (loadchPark s) := .ite h.setCstate h

theorem Kept.execTHoldExpire {n} (h : Kept q s) : Completes q (execTHoldExpire n s) := by
  unfold Machine.execTHoldExpire
  refine Completes.next ?_
  split
  · exact h
  · exact
      have h1 := (h.elapseTo.chChange fun h => h.updCh.fput).chEvent
      .ite h1.setCstate.pdEvent h1

theorem Kept.applyOtp {n} (h : Kept q s) : Kept q (applyOtp n s) := by
  unfold Machine.applyOtp
  split
  · exact h
  · exact (h.wr.wr.wr.wr.whenB Kept.fput).whenB Kept.fput

theorem Kept.restartOne {n} (h : Kept q s) : Kept q (restartOne n s) :=
  (Kept.ite h.updCh.wr.wr.wr.fput.startPhase.openInrush h.updCh.wr.wr.wr.fput).chShow

theorem Kept.pdRestart (h : Kept q s) : Kept q (pdRestart s) :=
  ((h.updPd.dropRegs.dropRegs.dropRegs.dropRegs.fput.fput.forCh Kept.applyOtp).forCh Kept.restartOne).startHolds.pdEvent.foldl fun h => h.pdRecord

theorem Kept.execLaneLoss {b} (h : Kept q s) : Completes q (execLaneLoss b s) := by
  unfold Machine.execLaneLoss
  refine Completes.next ?_
  extract_lets f
  split
  · exact h
  · exact
      have h1 := h.fput.pdEvent
      .ite h1 h1.updPd

theorem Kept.showOtp (h : Kept q s) : Kept q (showOtp s) := h.fput

theorem Kept.otpProg {w} (h : Kept q s) : Kept q (otpProg w s) := .ite h.fput.showOtp h.updPd.fput.showOtp

theorem Kept.otpRead (h : Kept q s) : Kept q (otpRead s) := by
  unfold Machine.otpRead
  extract_lets i s1
  have h1 : Kept q s1 := by
    unfold s1
    split
    · exact h.wr.wr.wr.wr
    · exact h.forN fun h => h.wr.useFree
  exact .ite h.fput.showOtp h1.fput.showOtp

/-! ### Resets of the chip -/

theorem Kept.flashCut (h : Kept q s) : Kept q (flashCut s) := by
  unfold Machine.flashCut
  extract_lets s1
  have h1 : Kept q s1 := by
    unfold s1
    split
    · exact .ite h h.flashOpen
    · exact h
  split
  · exact .ite h1.flashOpen h1
  · exact h1

theorem Kept.showTime {okA okB} (h : Kept q s) : Kept q (showTime okA okB s) := h.fput.fput.fput

theorem Kept.warmState {unsync} (h : Kept q s) : Kept q (warmState unsync s) :=
  have h1 := h.fput.fput.showQuality
  .ite h1 h1.raise

theorem Kept.coreWipe {kind t} (h : Kept q s) : Kept q (coreWipe kind t s) := by
  obtain ⟨⟨hregs, -, hflash⟩, hq⟩ := h
  unfold Machine.coreWipe
  extract_lets cold
  exact Kept.forFin ⟨⟨swf_filter _ _ hregs, rfl, hflash⟩, hq⟩ Kept.showLatch

theorem Kept.recordCause {kind detail} (h : Kept q s) : Kept q (recordCause kind detail s) := h.fput.fput.fput

theorem Kept.resetLanes {kind} (h : Kept q s) : Kept q (resetLanes kind s) := .ite h.resetNotice (.ite h.fput.fput.updPd h)

theorem Kept.resetKeys {kind} (h : Kept q s) : Kept q (resetKeys kind s) := (Kept.ite h.clearKeys h.expireKeys).fput

theorem Kept.wipeRegs {last} (h : Kept q s) : Kept q (wipeRegs last s) := (h.dropRegs.wr.loadchRegsReset.forCh Kept.chShow).fput.showPlanes

theorem Kept.railsUp (h : Kept q s) : Kept q (railsUp s) := h.same.raise.raise.raise

theorem Kept.chipReset {kind detail} (h : Kept q s) : Kept q (chipReset kind detail s) :=
  have h1 := (Kept.ite h.railsUp h).flashCut.resetLanes.coreWipe.wipeRegs.resetKeys.recordCause
  .ite h1.showTime.warmState h1

theorem Kept.powerOn {aon} (h : Kept q s) : Kept q (powerOn aon s) := by
  unfold Machine.powerOn
  extract_lets s1 s2 r₀ own pd heron boot blw r
  have h2 : Kept q s2 := .ite h.flashCut.resetNotice h.flashCut
  have hr : Kept q r := by
    obtain ⟨⟨hregs, -, hflash⟩, hq⟩ := h2
    refine ⟨⟨?_, rfl, hflash⟩, hq⟩
    cases aon
    · rfl
    · exact swf_filter _ _ hregs
  exact .ite (hr.loadchRegsReset.forCh Kept.chShow) hr.pdRestart

theorem Kept.chipRst {go key} (h : Kept q s) : Kept q (chipRst go key s) := .ite h.chipReset h.bad

/-! ### Boot -/

theorem Kept.startHearth {k} (h : Kept q s) : Kept q (startHearth k s) := by
  unfold Machine.startHearth
  exact (h.forN Kept.wr).mwrBytes.updCwy

theorem Kept.selectSlot (h : Kept q s) : Kept q (selectSlot s) := by
  unfold Machine.selectSlot
  split
  extract_lets alt s1 s2
  have h1 : Kept q s2 := h.fput.fput.fput.fput.updBoot
  split
  · exact h1.fput.fput.updBoot
  · exact h1.fput.fput.wr.wr.updBoot.startHearth

theorem Kept.releaseIsl {i} (h : Kept q s) : Kept q (releaseIsl i s) := .ite h.same.blwTakes h.same

theorem Kept.releaseCore (h : Kept q s) : Kept q (releaseCore s) := (h.forFin fun h => .ite h h.releaseIsl).showPlanes.showTime.updBoot.same

theorem Kept.execCoreResetRelease {cap dram full} (h : Kept q s) : Completes q (execCoreResetRelease cap dram full s) := by
  unfold Machine.execCoreResetRelease
  refine Completes.next ?_
  split
  · exact h
  extract_lets s1 s2 s3
  have h1 : Kept q s1 := h.elapseTo.releaseCore
  have h2 : Kept q s2 := by
    unfold s2
    split
    · exact h1.fput.fput
    · exact h1
  have h3 : Kept q s3 := by
    unfold s3
    split
    · exact h2.fput.fput.fput
    · exact h2
  exact h3.fput.fput.selectSlot

theorem Kept.bootAlt (h : Kept q s) : Kept q (bootAlt s) := by
  unfold Machine.bootAlt
  exact h.updBoot.chipReset

theorem Kept.rollbackAdv (h : Kept q s) : Kept q (rollbackAdv s) := .ite h.updBoot.fput h.fput

/-! ### Hearth -/

theorem Kept.updOwn {f} (h : Kept q s) : Kept q (updOwn f s) := h.same

theorem Kept.invalCmd {page} (h : Kept q s) : Kept q (invalCmd page s) := .ite h.bad h.updOwn.fput

theorem Kept.invalPage (h : Kept q s) : Kept q (invalPage s) := h.invalCmd

theorem Kept.execInvalDone (h : Kept q s) : Completes q (execInvalDone s) := by
  unfold Machine.execInvalDone
  refine Completes.next ?_
  split
  · exact h
  · exact h.updOwn.fput

theorem Kept.l2ResChange {b en} (h : Kept q s) : Kept q (l2ResChange b en s) := h.fput

theorem Kept.camReset {n} (h : Kept q s) : Kept q (camReset n s) := h.camClose.dropRegs.updCam

theorem Kept.trgReset (h : Kept q s) : Kept q (trgReset s) := h.same.dropRegs

theorem Kept.nmReset (h : Kept q s) : Kept q (nmReset s) := (h.endHolds.forFin Kept.releaseHeld).same.dropRegs.forFin Kept.showLatch

theorem Kept.blockReset {k} (h : Kept q s) : Kept q (blockReset k s) := by
  unfold Machine.blockReset
  split
  · exact h.canReset
  split
  · exact h.linReset
  split
  · exact h.loadchReset
  split
  · exact h.same.dropRegs
  split
  · exact h.camReset
  · exact .ite h.trgReset (.ite h.nmReset h.same.dropRegs)

theorem Kept.markGone {k f} (h : Kept q s) : Kept q (markGone k f s) := h.forFin fun h => h.forN fun h => .ite h.fput h

theorem Kept.tongsDone {k} (h : Kept q s) : Kept q (tongsDone k s) := h.fput.markGone.raise

theorem Kept.tongsReset {k forced} (h : Kept q s) : Kept q (tongsReset k forced s) :=
  have h1 := h.fput.fput.fput.blockReset
  .ite h1.tongsDone h1

theorem Kept.tongsCmd {k nw ni inState} {f : State → State} (h : Kept q s) (hf : ∀ {u}, Kept q u → Kept q (f u)) :
    Kept q (tongsCmd k nw ni inState f s) :=
  .ite h.bad (.ite (hf h.fput.fput.fput) h.bad)

theorem Kept.tongsRequest {k} (h : Kept q s) : Kept q (tongsRequest k s) := h.updOwn.fput

theorem Kept.tongsGrant {k nw ni} (h : Kept q s) : Kept q (tongsGrant k nw ni s) := h.updOwn.fput.fput.fput.markGone

theorem Kept.tongsRel {w k} (h : Kept q s) : Kept q (tongsRel w k s) := .ite h.tongsReset h.violateBy.bad

theorem Kept.lcCmd {target code} (h : Kept q s) : Kept q (lcCmd target code s) := .ite h.updOwn.fput h.fput

theorem Kept.hearthRestart (h : Kept q s) : Kept q (hearthRestart s) :=
  (h.fput.fput.raise.fput.fput.updOwn.forFin fun h => .ite h.anvilReturn h).updCwy.icTargetLost.cryDrop.migAbort.expireKeys

theorem Kept.hearthExpiry {detail} (h : Kept q s) : Kept q (hearthExpiry detail s) := by
  unfold Machine.hearthExpiry
  split
  · exact .ite h.chipReset h.hearthRestart
  · exact h.hearthRestart

theorem Kept.hwdtKick {w v} (h : Kept q s) : Kept q (hwdtKick w v s) := .ite (.ite h h.updOwn) h.hearthExpiry

theorem Kept.hearthPath (h : Kept q s) : Kept q (hearthPath s) := by
  unfold Machine.hearthPath
  split
  · exact h.elapseTo
  · exact h

theorem Kept.execHearthImageVerify (h : Kept q s) : Completes q (execHearthImageVerify s) := Completes.next <|
  .ite h (.ite h.hearthPath.chipReset (.ite h.hearthPath.chipReset h.hearthPath.mwrBytes.updCwy))

theorem Kept.serviceUp (h : Kept q s) : Kept q (serviceUp s) := (h.whenB Kept.updOwn).fput.fput

theorem Kept.violPop {w} (h : Kept q s) : Kept q (violPop w s) := by
  unfold Machine.violPop
  split
  · exact h.answer
  · exact h.updOwn.answer

/-! ### Supplies and watchdogs -/

theorem Kept.updBlw {f} (h : Kept q s) : Kept q (updBlw f s) := h.same

theorem Kept.blwEvent {n} (h : Kept q s) : Kept q (blwEvent n s) := h.raise

theorem Kept.parkHarts {l} (h : Kept q s) : Kept q (parkHarts l s) := (h.foldl fun h => h.updHart).blwEvent

theorem Kept.unparkHarts {l} (h : Kept q s) : Kept q (unparkHarts l s) := h.foldl fun h => h.updHart

theorem Kept.forceSegments (h : Kept q s) : Kept q (forceSegments s) := h.forFin fun h => .ite h.setSeg.endPending.sleepAction.updBlw h

theorem Kept.freeSegments (h : Kept q s) : Kept q (freeSegments s) := h.updBlw.foldl fun h => .ite h.wakeOne h

theorem Kept.blwStop {l} (h : Kept q s) : Kept q (blwStop l s) := h.foldl fun h => .ite h.stopIsland.updIsl h

theorem Kept.blwStart {l} (h : Kept q s) : Kept q (blwStart l s) := by
  unfold Machine.blwStart
  refine h.foldl fun h => ?_
  extract_lets x
  split
  · exact h
  split
  · exact h.startIsland
  · exact .ite h h.islandUp.updIsl
  · exact h.updIsl

theorem Kept.stopEngine {e} (h : Kept q s) : Kept q (stopEngine e s) := h.forFin fun h => .ite h.blwStopThr h

theorem Kept.stopThreads (h : Kept q s) : Kept q (stopThreads s) := h.updBlw.forFin Kept.stopEngine

theorem Kept.startThreads (h : Kept q s) : Kept q (startThreads s) := h.updBlw.forFin fun h => .ite h.thrStart h

theorem Kept.enterStage {k} (h : Kept q s) : Kept q (enterStage k s) := by
  unfold Machine.enterStage
  split
  · exact h.forceSegments.parkHarts
  · exact h.blwStop.updBlw.parkHarts
  · exact h.parkHarts.crashTrigger.stopThreads.blwStop
  · exact h

theorem Kept.leaveStage {k} (h : Kept q s) : Kept q (leaveStage k s) := by
  unfold Machine.leaveStage
  split
  · exact h.unparkHarts.freeSegments
  · exact h.unparkHarts.updBlw.blwStart
  · exact h.blwStart.startThreads.unparkHarts
  · exact h

theorem Kept.stageUp {k} (h : Kept q s) : Kept q (stageUp k s) := .ite (.ite h.bump.blwEvent h) h.enterStage

theorem Kept.blwForget {l} (h : Kept q s) : Kept q (blwForget l s) := h.foldl fun h => h.updIsl

theorem Kept.stageDown {k} (h : Kept q s) : Kept q (stageDown k s) := by
  unfold Machine.stageDown
  split
  · exact h.leaveStage
  extract_lets s1
  have h1 : Kept q s1 := h.unparkHarts
  split
  · exact h1.updBlw.blwForget
  · exact h1.blwForget
  · exact h1

theorem Kept.stageResume (h : Kept q s) : Kept q (stageResume s) :=
  have h1 := Kept.ite h.startThreads h
  .ite h1.freeSegments h1

theorem Kept.changeStage {new} (h : Kept q s) : Kept q (changeStage new s) := by
  unfold Machine.changeStage
  extract_lets old
  split
  · exact h
  · exact
      have h1 := h.fput.logFault
      have h2 := Kept.ite (h1.forN Kept.stageUp) (h1.forN Kept.stageDown)
      (Kept.ite h2.applyStage h2).blwEvent

theorem Kept.blwCount {mv k} (h : Kept q s) : Kept q (blwCount mv k s) := .ite h.updBlw.bump h.updBlw

theorem Kept.hbStart {c} (h : Kept q s) : Kept q (hbStart c s) := h.updBlw

theorem Kept.withHeartbeats {f : State → State} (h : Kept q s) (hf : ∀ {u}, Kept q u → Kept q (f u)) : Kept q (withHeartbeats f s) :=
  (hf h).forFin fun h => .ite h.hbStart h

theorem Kept.hbKick {c} (h : Kept q s) : Kept q (hbKick c s) := .ite h h.hbStart.fput

theorem Kept.hbLose {c} (h : Kept q s) : Kept q (hbLose c s) := h.fput.fput.bump

theorem Kept.execHartPark {i} (h : Kept q s) : Completes q (execHartPark i s) := by
  unfold Machine.execHartPark
  refine Completes.next ?_
  split
  · exact h
  · exact .ite h h.elapseTo.updHart

theorem Kept.execStage4SealStop (h : Kept q s) : Completes q (execStage4SealStop s) := by
  unfold Machine.execStage4SealStop
  refine Completes.next ?_
  split
  · exact h
  extract_lets s1
  have h1 : Kept q s1 := .ite h h.elapseTo
  split
  · exact h1.updBlw.stopEngine
  · exact h1.updBlw

theorem Kept.tamperAlarm {src} (h : Kept q s) : Kept q (tamperAlarm src s) := .ite h h.updKey.fput.quench

theorem Kept.thermalOn (h : Kept q s) : Kept q (thermalOn s) := h.updBlw.blwEvent.foldl fun h => .ite h.updIsl.updBlw h

theorem Kept.thermalOff (h : Kept q s) : Kept q (thermalOff s) := h.updBlw.foldl fun h => .ite h.updIsl h.updIsl

theorem Kept.execCoreTjRead {deg} (h : Kept q s) : Completes q (execCoreTjRead deg s) := Completes.next <|
  have h1 := h.fputSat.whenB Kept.blwEvent
  (Kept.ite h1.thermalOn (.ite h1.thermalOff h1)).whenB Kept.tamperAlarm

theorem Kept.wdExpire (h : Kept q s) : Kept q (wdExpire s) := h.chipReset

theorem Kept.wdKick {v} (h : Kept q s) : Kept q (wdKick v s) := by
  unfold Machine.wdKick
  split
  · exact h
  split
  · exact h.updBlw
  split
  · exact h.wdExpire
  · exact .ite h.wdExpire h.updBlw

theorem Kept.bistReq {i go} (h : Kept q s) : Kept q (bistReq i go s) := .ite h.fput (.ite h.fput.fput h.fput.fput.fput.raise.updBlw)

theorem Kept.bistGrant {i} (h : Kept q s) : Kept q (bistGrant i s) := .ite h.fput h.fput.updHart.setResv.fput.fput.updBlw

theorem Kept.grantBist {i} (h : Kept q s) : Kept q (grantBist i s) := .ite h.bistGrant h.bad

theorem Kept.bistDefer (h : Kept q s) : Kept q (bistDefer s) := h.fput.fput

theorem Kept.denyBist {i} (h : Kept q s) : Kept q (denyBist i s) := .ite h.fput.bistDefer h.bad

/-! ### Moves of VT -/

theorem Kept.vtMoved {d} (h : Kept q s) : Kept q (vtMoved d s) := h.skipTriggers.gatesAfterStep.ttAfterStep.launchDue.alarmsDue.realignPwm

theorem Kept.execStepInstant (h : Kept q s) : Completes q (execStepInstant s) := by
  unfold Machine.execStepInstant
  refine Completes.next ?_
  split
  · exact h
  · exact h.elapseVt.moveVt.dropStep.fputSat.updTime.enterState.logTime.vtMoved

theorem Kept.execSetApply (h : Kept q s) : Completes q (execSetApply s) := by
  unfold Machine.execSetApply
  refine Completes.next ?_
  split
  · exact h
  · exact h.elapseTo.updTime.moveVt.logTime.vtMoved

/-! ### The deep states of the chip -/

theorem Kept.updHeron {f} (h : Kept q s) : Kept q (updHeron f s) := h.same

theorem Kept.setHeron {st} (h : Kept q s) : Kept q (setHeron st s) := h.fput

theorem Kept.sleepStop {i} (h : Kept q s) : Kept q (sleepStop i s) := .ite h.stopIsland.updHeron h

theorem Kept.sleepBegin {step} (h : Kept q s) : Kept q (sleepBegin step s) := h.updHeron.foldl fun h => h.sleepStop

theorem Kept.sleepCmd {level} (h : Kept q s) : Kept q (sleepCmd level s) := .ite h (.ite h.raise.bad h.setHeron.fput.fput.fput.updHeron.sleepBegin)

theorem Kept.lanesSilent (h : Kept q s) : Kept q (lanesSilent s) := h.fput.fput.updPd

theorem Kept.enterDeep (h : Kept q s) : Kept q (enterDeep s) := (h.lower.lower.lower.same.forFin fun h => .ite h h.updIsl).updFio.setHeron

theorem Kept.fallAsleep (h : Kept q s) : Kept q (fallAsleep s) :=
  have h1 := h.setHeron.updBlw
  .ite h1.enterDeep h1

theorem Kept.execSleepEntryStep (h : Kept q s) : Completes q (execSleepEntryStep s) := by
  unfold Machine.execSleepEntryStep
  refine Completes.next ?_
  extract_lets k
  split
  · exact h
  split
  · exact h.foldl fun h => h.sleepStop
  · exact
      have h1 := Kept.ite h.lanesSilent h
      .ite h1.fallAsleep h1.sleepBegin

theorem Kept.wakeTime (h : Kept q s) : Kept q (wakeTime s) := by
  unfold Machine.wakeTime
  split
  · exact h
  · exact h.updTime.dropStep.putStepPend.enterState.fput.vtMoved

theorem Kept.wakeIsl {i} (h : Kept q s) : Kept q (wakeIsl i s) := by
  unfold Machine.wakeIsl
  split
  · exact h.startIsland
  · exact h.islandUp
  · exact h

theorem Kept.abortEntry (h : Kept q s) : Kept q (abortEntry s) := by
  unfold Machine.abortEntry
  exact ((Kept.ite h.wakeTime h).foldl fun h => .ite h.wakeIsl h).raise.setHeron.updHeron

theorem Kept.orderStep (h : Kept q s) : Kept q (orderStep s) := by
  unfold Machine.orderStep
  split
  · exact h.setHeron
  · exact
      have h1 := Kept.ite h h.wakeIsl
      .ite h1.setHeron h1.updHeron

theorem Kept.wakeStandby (h : Kept q s) : Kept q (wakeStandby s) :=
  (h.setHeron.wakeTime.foldl fun h => h.wakeIsl).updBlw.updHeron.stageResume.orderStep

theorem Kept.wakeDeep (h : Kept q s) : Kept q (wakeDeep s) := h.setHeron.updHeron

theorem Kept.wakeUp (h : Kept q s) : Kept q (wakeUp s) := .ite h.abortEntry (.ite h.raise.wakeStandby (.ite h.raise.wakeDeep h))

theorem Kept.wakeBy {f v} (h : Kept q s) : Kept q (wakeBy f v s) := (h.whenB Kept.fput).wakeUp

theorem Kept.latchBit {f n} (h : Kept q s) : Kept q (latchBit f n s) := h.wr

theorem Kept.wakeInput {n} (h : Kept q s) : Kept q (wakeInput n s) := .ite h h.latchBit.wakeBy

theorem Kept.execHeronWake {by_} (h : Kept q s) : Completes q (execHeronWake by_ s) := by
  unfold Machine.execHeronWake
  refine Completes.next ?_
  split
  · exact (Kept.ite h.elapseTo h).wakeInput
  · exact .ite h h.wakeBy

theorem Kept.execWatchedSourceWake {k} (h : Kept q s) : Completes q (execWatchedSourceWake k s) := by
  unfold Machine.execWatchedSourceWake
  refine Completes.next ?_
  split
  · exact h
  · exact .ite h h.latchBit.wakeBy

theorem Kept.diPollOne {levels i} (h : Kept q s) : Kept q (diPollOne levels i s) := .ite h (.ite h.updFio.wakeInput h.updFio)

/-! ### Commands of the signals -/

theorem Kept.sigEnable (h : Kept q s) : Kept q (sigEnable s) := h.updSig.fput.fput

theorem Kept.sigDisable (h : Kept q s) : Kept q (sigDisable s) := h.fput.fput.fput.updSig

theorem Kept.sigEnWrite {en} (h : Kept q s) : Kept q (sigEnWrite en s) := .ite h (.ite h.sigEnable h.sigDisable)

theorem Kept.sigFetch {a n bad} (h : Kept q s) : Kept q (sigFetch a n bad s).2 := by
  unfold Machine.sigFetch
  split
  · exact .pair h.logUnmapped
  split
  · exact .pair h.eccLog
  · exact .pair h

theorem Kept.loadConv {badConv i} (h : Kept q s) : Kept q (loadConv badConv i s) := by
  unfold Machine.loadConv
  split
  · next heq => exact (h.sigFetch.snd heq).updSig
  · next heq => exact (h.sigFetch.snd heq).updSig.fput

theorem Kept.loadPin {badPins k} (h : Kept q s) : Kept q (loadPin badPins k s) := by
  unfold Machine.loadPin
  split
  · next heq => exact h.sigFetch.snd heq
  · next heq =>
      extract_lets j
      split
      · exact h.sigFetch.snd heq
      split
      · next heq1 => exact (h.sigFetch.snd heq).sigFetch.snd heq1
      · next heq1 => exact .ite ((h.sigFetch.snd heq).sigFetch.snd heq1).cachePut ((h.sigFetch.snd heq).sigFetch.snd heq1).cachePut.bump.raise

theorem Kept.sigInvalidate (h : Kept q s) : Kept q (sigInvalidate s) := h.updSig

theorem Kept.defStart {rd_ wr_} (h : Kept q s) : Kept q (defStart rd_ wr_ s) := .ite h.bad (.ite h h.updSig.fput)

theorem Kept.defEnd {st} (h : Kept q s) : Kept q (defEnd st s) := h.fput.fput.updSig

theorem Kept.putDefData {d} (h : Kept q s) : Kept q (putDefData d s) := h.forN Kept.wr

theorem Kept.defLost {j} (h : Kept q s) : Kept q (defLost j s) := .ite h.putDefData (h.forN fun h => h.wr.useFree)

theorem Kept.defGo {c} (h : Kept q s) : Kept q (defGo c s) := by
  unfold Machine.defGo
  split
  · exact h.defEnd
  split
  · exact h
  split
  · exact h.bump.logUnmapped.defEnd
  split
  · exact h.bump.defWrite.defEnd
  split
  · next heq => exact (h.sigLook.snd heq).putDefData.defEnd
  · next heq => exact (h.sigLook.snd heq).updSig
  · next heq => exact (h.sigLook.snd heq).defLost.defEnd

theorem Kept.execDefCmdDone (h : Kept q s) : Completes q (execDefCmdDone s) := by
  unfold Machine.execDefCmdDone
  refine Completes.next ?_
  split
  · exact h
  · exact .ite h.defGo h

theorem Kept.failWaiter {e t} (h : Kept q s) : Kept q (failWaiter e t s) := by
  unfold Machine.failWaiter
  split
  · split
    · next heq => exact (h.lookStep.snd heq).trapAt
    · exact h
  · exact h

theorem Kept.failLine {l} (h : Kept q s) : Kept q (failLine l s) := by
  unfold Machine.failLine
  extract_lets s1 s2 s3
  have h1 : Kept q s2 := h.updSig.forFin fun h => h.forFin Kept.failWaiter
  have h2 : Kept q s3 := by
    unfold s3
    split
    · exact .ite h1.defGo h1
    · exact h1
  exact h2.updSig

theorem Kept.execCacheFill {e} (h : Kept q s) : Completes q (execCacheFill e s) := by
  unfold Machine.execCacheFill
  refine Completes.next ?_
  split
  · exact h
  split
  · exact h
  extract_lets s1 a
  split
  · exact h.updSig.cachePut
  · exact h.updSig.failLine
  · exact h.updSig.eccLog.failLine

/-! ### Register reads -/

theorem Kept.readTrg {w o f} (h : Kept q s) (e : readTrg w o = some f) : Kept q (f s) := by
  unfold Machine.readTrg at e
  split at e
  · cases e
    exact h.trgLastRead
  split at e
  · cases e
    exact h.capPop
  · cases e

theorem Kept.readCan {w c o f} (h : Kept q s) (e : readCan w c o = some f) : Kept q (f s) := by
  unfold Machine.readCan at e
  split at e
  · cases e
    exact h.rxqPop
  split at e
  · cases e
    exact h.mbIdRead
  split at e
  · cases e
    exact h.mbStatRead
  split at e
  · cases e
    exact h.rxeWord7Read
  · cases e

theorem Kept.readIc {w o f} (h : Kept q s) (e : readIc w o = some f) : Kept q (f s) := by
  unfold Machine.readIc at e
  split at e
  · cases e
    exact h.claimRead
  · cases e

theorem Kept.readEffect {w a f} (h : Kept q s) (e : readEffect w a = some f) : Kept q (f s) := by
  unfold Machine.readEffect at e
  split at e
  · cases e
    exact h.nowRead
  split at e
  · exact h.readTrg e
  split at e
  · exact h.readIc e
  split at e
  · cases e
    exact h.violPop
  split at e
  · cases e
    exact h.errlogPop
  split at e
  · exact h.readCan e
  · cases e

theorem Kept.readReg {w a} (h : Kept q s) : Kept q (readReg w a s) := by
  unfold Machine.readReg
  split
  · next heq => exact h.readEffect heq
  · exact h.answer

/-! ### Register writes -/

theorem Kept.plainMask {m x} (h : Kept q s) : Kept q (plainMask m x s) := h.wr

theorem Kept.plain {x} (h : Kept q s) : Kept q (plain x s) := h.plainMask

theorem Kept.clampF {x hi lo mn mx} (h : Kept q s) : Kept q (clampF x hi lo mn mx s) := h.fput

theorem Kept.plainIf {c x} (h : Kept q s) : Kept q (plainIf c x s) := .ite h.plain h.bad

theorem Kept.cntClr {x} {f : State → State} (h : Kept q s) (hf : ∀ {u}, Kept q u → Kept q (f u)) : Kept q (cntClr x f s) := h.whenB hf

theorem Kept.wrIslCmd {x i} (h : Kept q s) : Kept q (wrIslCmd x i s) := by
  unfold Machine.wrIslCmd
  split
  · exact h.islCmd
  · exact h.islCmd
  · exact h.islCmd
  · exact h.islCmd
  · exact h.islCmd
  · exact h.islCmd
  · exact h.islCmd
  · exact .ite h.bad h

theorem Kept.wrBoot {x} (h : Kept q s) : Kept q (wrBoot x s) := by
  unfold Machine.wrBoot
  split
  · exact (h.whenB Kept.rollbackAdv).whenB Kept.bootAlt
  · exact .ite h.xspiCmd h.bad
  · exact h.plain

theorem Kept.wrSysctl {x} (h : Kept q s) : Kept q (wrSysctl x s) := by
  unfold Machine.wrSysctl
  split
  · exact h.hearthOnly Kept.plain
  · exact h.hearthOnly Kept.chipRst
  · exact h.cntClr Kept.clearRegs
  · exact h.plain.clampF
  · exact h.bistReq
  · exact .ite h.grantBist (.ite h.denyBist h.plain)
  · exact .ite (h.hearthOnly Kept.wrBoot) (.ite h.wrIslCmd h.plain)

theorem Kept.putLearn {f g} (h : Kept q s) : Kept q (putLearn f g s) := by
  unfold Machine.putLearn
  split
  · exact h
  · exact h.updTime

theorem Kept.wrTimeCtrl {x} (h : Kept q s) : Kept q (wrTimeCtrl x s) := h.plainMask.twinEnWrite.roleWrite.whenB Kept.resync

theorem Kept.wrTime {x} (h : Kept q s) : Kept q (wrTime x s) := by
  unfold Machine.wrTime
  split
  · exact h.wrTimeCtrl
  · exact h.whenB Kept.setGo
  · exact h.plain.clampF
  · exact h.whenB Kept.stepAccept
  · exact h.plain.clampF.clampF
  · exact h.plain.clampF.clampF
  · exact h.whenB Kept.twinResume
  · exact h.putLearn
  · exact h.putLearn
  · exact h.cntClr Kept.clearRegs
  · exact h.plain

theorem Kept.wrTrg {x} (h : Kept q s) : Kept q (wrTrg x s) :=
  .ite h.plain (.ite ((h.whenB Kept.trgStop).whenB Kept.trgStart) (.ite h.plain (.ite h.plainMask h.raise.bad)))

theorem Kept.wrCam {n x} (h : Kept q s) : Kept q (wrCam n x s) := by
  unfold Machine.wrCam
  split
  · exact h.plain.whenB Kept.fput
  · exact h.plain.clampF
  · exact h.plain.clampF
  · exact h.plainIf
  · exact h.cntClr Kept.clearRegs
  · exact .ite h.plain.clampF h.plain

theorem Kept.wrEngCfg {e x} (h : Kept q s) : Kept q (wrEngCfg e x s) := .ite h.violateBy.bad (.ite h.plainIf (.ite h.plain.fput h.bad))

theorem Kept.wrEng {e x} (h : Kept q s) : Kept q (wrEng e x s) := .ite h.wrEngCfg (.ite h.thrCmd h.plain)

theorem Kept.wrPool {x} (h : Kept q s) : Kept q (wrPool x s) := .ite h.bad h.plain.noteLow.showPool

theorem Kept.showPlane {p} (h : Kept q s) : Kept q (showPlane p s) := h.whenB Kept.fput

theorem Kept.wrPort {p k x} (h : Kept q s) : Kept q (wrPort p k x s) := by
  unfold Machine.wrPort
  split
  · exact .ite h.plainMask h.plain.showPlane
  split
  · exact h.settlePort.plainIf
  split
  · exact h.plain.whenB Kept.gateArm
  split
  · split
    · exact h.plain.preemptStart
    · exact h.plain
  split
  · exact h.whenB Kept.plain
  split
  · split
    · exact (h.plain.whenB Kept.sleepReq).whenB Kept.wakeReq
    · exact h.plain
  · exact .ite h.ringTail h.plain

theorem Kept.wrSw {x} (h : Kept q s) : Kept q (wrSw x s) :=
  .ite (h.plain.clampF.whenB Kept.flushDyn) (.ite h.wrPool (.ite (h.cntClr Kept.swCntClr) (.ite (.ite h.tblWrite h.tblRead) (.ite h.wrPort h.plain))))

/-! ### Register writes with commands -/

theorem Kept.wrCanCtrl {c x} (h : Kept q s) : Kept q (wrCanCtrl c x s) :=
  .ite (.ite h.fput h.fput.bad) (.ite h.plain (.ite h.plainMask.canEvent.bad (h.plainMask.fput.ttStart.whenB Kept.segRestart)))

theorem Kept.wrCan {c x} (h : Kept q s) : Kept q (wrCan c x s) := by
  unfold Machine.wrCan
  extract_lets off tt
  split
  · exact h.wrCanCtrl
  · exact h.plainIf
  · exact h.plainIf
  · exact h.plainIf
  · exact h.plainIf
  · exact (h.whenB Kept.recover).whenB Kept.aloneResume
  · exact h.plain.clampF
  · exact h.txbReq
  · exact h.txbReq
  · exact h.txbCancel
  · exact h.txbCancel
  · exact h.mbAck
  · exact h.cntClr Kept.clearRegs
  · exact h.rxqAck
  · exact h.txqSubmit
  · exact h.txqCancel
  · exact .ite h.plainIf (.ite h.plainIf (.ite h.plainIf h.plain))

theorem Kept.wrLin {l x} (h : Kept q s) : Kept q (wrLin l x s) := by
  unfold Machine.wrLin
  split
  · exact h.plain.clampF
  · exact h.plain.clampF
  · exact h.cntClr Kept.clearRegs
  · exact h.plain

theorem Kept.wrSigCtrl {x} (h : Kept q s) : Kept q (wrSigCtrl x s) := .ite h.bad ((Kept.ite h h.fput).fput.sigEnWrite.logEnWrite.whenB Kept.bad)

theorem Kept.wrSigCmd {x} (h : Kept q s) : Kept q (wrSigCmd x s) :=
  (((h.whenB Kept.sealTrigger).whenB Kept.crashTrigger).whenB Kept.crashRearm).whenB Kept.sigInvalidate

theorem Kept.wrSig {x} (h : Kept q s) : Kept q (wrSig x s) := by
  unfold Machine.wrSig
  extract_lets free closed
  split
  · exact h.wrSigCtrl
  · exact h.wrSigCmd
  · exact .ite h.plain.clampF h.bad
  · exact .ite h.plain.clampF h.bad
  · exact .ite h.plain.clampF h.bad
  · exact h.plainIf
  · exact h.plainIf
  · exact h.plainIf
  · exact h.plainIf
  · exact .ite h.plain.clampF h.bad
  · exact h.plainIf
  · exact h.plainIf
  · exact h.plainIf
  · exact h.plainIf
  · exact h.plainIf
  · exact h.plainIf
  · exact h.wr
  · exact h.wr
  · exact h.wr
  · exact h.hostPush
  · exact h.defStart
  · exact h.cntClr Kept.clearRegs
  · exact h.plain

theorem Kept.wrSegCfg {g x} (h : Kept q s) : Kept q (wrSegCfg g x s) :=
  have h1 := Kept.ite h h.plainMask
  (Kept.ite h1.segEnable h1.segDisable).whenB Kept.bad

theorem Kept.wrSegCtrl {g x} (h : Kept q s) : Kept q (wrSegCtrl g x s) := (h.plain.showConsent.whenB Kept.segCtrlWake).whenB Kept.rejoin

theorem Kept.wrSeg {g k x} (h : Kept q s) : Kept q (wrSeg g k x s) := by
  unfold Machine.wrSeg
  extract_lets off
  split
  · exact h.wrSegCfg
  · exact .ite h.plain.clampF.clampF h.bad
  · exact h.plainIf
  · exact .ite h.plain.clampF.clampF h.bad
  · exact h.wrSegCtrl
  · exact h.plain

theorem Kept.wrNm {x} (h : Kept q s) : Kept q (wrNm x s) :=
  .ite (h.plain.forFin Kept.showConsent) (.ite (h.cntClr Kept.clearRegs) (.ite h.wrSeg (.ite h.plainIf h.plain)))

theorem Kept.wrChCfg {n x} (h : Kept q s) : Kept q (wrChCfg n x s) :=
  .ite h.bad (h.chChange fun h => h.withPhases fun h => (h.plain.clampF.whenB Kept.fput).whenB Kept.fput).settleStage

theorem Kept.wrCh {n k x} (h : Kept q s) : Kept q (wrCh n k x s) := by
  unfold Machine.wrCh
  extract_lets u i
  split
  · exact h.wrChCfg
  · exact h.plain.clampF.clampF
  · exact h.plain.clampF
  · exact h.plain.clampF
  · exact h.plain.clampF.clampF
  · exact h.plain.clampF
  · exact h.chChange Kept.plain
  · exact h.withPhases Kept.plain
  · exact h.plain.clampF
  · exact h.whenB fun h => h.plain.clampF
  · exact h.plain

theorem Kept.wrCq {k k1 x} (h : Kept q s) : Kept q (wrCq k k1 x s) := by
  unfold Machine.wrCq
  split
  · exact h.wr
  · exact h.wr
  · exact h.wr
  · exact h.cqSubmit
  · exact h.plain.whenB Kept.updPd
  · exact h.plain

theorem Kept.wrLoadch {x} (h : Kept q s) : Kept q (wrLoadch x s) := by
  unfold Machine.wrLoadch
  split
  · exact (h.plainMask.clampF.whenB Kept.loadchClaim).whenB Kept.loadchPark
  split
  · exact h.plain.clampF.clampF
  split
  · exact h.plain.clampF
  · exact .ite (h.cntClr Kept.clearRegs) (.ite h.wrCq (.ite h.wrCh (.ite h.plain.showOtp (.ite ((h.whenB Kept.otpProg).whenB Kept.otpRead) h.plain))))

theorem Kept.wrFio {x} (h : Kept q s) : Kept q (wrFio x s) := .ite h.plain.clampF.clampF h.plain

theorem Kept.wrMem {x} (h : Kept q s) : Kept q (wrMem x s) := by
  unfold Machine.wrMem
  extract_lets hearth
  split
  · exact h.updCwy
  · exact h.atomic
  · exact h.atomic
  · exact h.hearthOnly Kept.plainIf
  · exact h.hearthOnly fun h => h.plain.clampF
  · exact h.hearthOnly fun h => .ite h.tcmcpyGo h.plain
  · exact h.hearthOnly fun h => h.cntClr Kept.clearRegs
  · exact .ite h.plain (h.hearthOnly Kept.plain)

theorem Kept.wrCwy {x} (h : Kept q s) : Kept q (wrCwy x s) := by
  unfold Machine.wrCwy
  refine h.hearthOnly fun h => ?_
  split
  · exact h.plain.clampF
  · exact h.cntClr Kept.clearRegs
  · exact h.plain

theorem Kept.wrIc {x} (h : Kept q s) : Kept q (wrIc x s) := by
  unfold Machine.wrIc
  split
  · exact h.srcCfgWrite
  split
  · exact .ite h.plain h.violateBy.bad
  split
  · exact h.sgiSet
  split
  · extract_lets t
    split
    · exact h.eoiWrite
    · exact h.plain.icShow
    · exact h.plainIf
    · exact h.plain
  · exact h.plain

theorem Kept.wrHeron {x} (h : Kept q s) : Kept q (wrHeron x s) := by
  unfold Machine.wrHeron
  extract_lets request
  split
  · exact h.bad
  split
  · exact h.sleepCmd
  · exact h.plain.clampF
  · exact h.plain

theorem Kept.wrTongs {x} (h : Kept q s) : Kept q (wrTongs x s) := by
  unfold Machine.wrTongs
  extract_lets k nw ni
  split
  · exact h.tongsCmd Kept.tongsRequest
  · exact h.tongsCmd Kept.tongsReset
  · exact h.tongsCmd Kept.tongsGrant
  · exact h.plain

theorem Kept.wrOwnHearth {x} (h : Kept q s) : Kept q (wrOwnHearth x s) := by
  unfold Machine.wrOwnHearth
  extract_lets off
  split
  · exact h.plain.whenB Kept.fput
  · exact h.plainIf
  · exact h.plainIf
  · exact .ite h.invalCmd (h.whenB Kept.invalPage)
  · exact h.plain.clampF
  · exact h.keepAlive
  · exact h.plain.clampF
  · exact h.whenB Kept.serviceUp
  · exact h.lcCmd
  · exact h.whenB Kept.plain
  · exact h.wrTongs
  · exact h.plain.clampF
  · exact h.cntClr Kept.clearRegs
  · exact h.plain

theorem Kept.wrOwn {x} (h : Kept q s) : Kept q (wrOwn x s) := by
  unfold Machine.wrOwn
  split
  · exact h.tongsRel
  · exact h.hwdtKick
  · exact .ite h.plain (h.hearthOnly Kept.wrOwnHearth)

theorem Kept.wrVqiCfg {i x} (h : Kept q s) : Kept q (wrVqiCfg i x s) := (Kept.ite h.plainMask.vqiEnable h.plainMask.vqiDisable).whenB Kept.bad

theorem Kept.wrVqiBlock {i k x} (h : Kept q s) : Kept q (wrVqiBlock i k x s) := by
  unfold Machine.wrVqiBlock
  split
  · exact h.wrVqiCfg
  · exact ((h.whenB Kept.managerReset).whenB Kept.vqiFreeze).whenB Kept.vqiThaw
  · exact h.shareWrite
  · exact h.cntClr Kept.clearRegs
  · exact .ite h.plainIf h.plain

theorem Kept.wrVqiPage {i k x} (h : Kept q s) : Kept q (wrVqiPage i k x s) := by
  unfold Machine.wrVqiPage
  split
  · exact h.whenB Kept.instanceReset
  split
  · exact h.plain
  extract_lets p on busy
  split
  · exact h.sqTail
  · exact h.plainIf
  · exact h.plainIf
  · exact h.plainIf
  · exact h.plainIf
  · exact h.plainIf
  · exact h.plain

theorem Kept.wrVqi {x} (h : Kept q s) : Kept q (wrVqi x s) := by
  unfold Machine.wrVqi
  split
  · exact h.plain.clampF
  split
  · exact h.plainIf
  split
  · split
    · exact h.migCmd
    · exact h.migCmd
    · exact h.plain
  · exact .ite (h.hearthOnly Kept.plain) (.ite h.wrVqiBlock (.ite h.wrVqiPage h.plain))

theorem Kept.wrKey {x} (h : Kept q s) : Kept q (wrKey x s) := by
  unfold Machine.wrKey
  refine h.hearthOnly fun h => ?_
  split
  · exact h.whenB Kept.jqSubmit
  · extract_lets k
    split
    · exact h.slotClear
    · exact h.slotCommit
    · exact h.slotDiscard
    · exact h.plain
  · exact h.cntClr Kept.clearRegs
  · exact h.plain

theorem Kept.wrTamp {x} (h : Kept q s) : Kept q (wrTamp x s) := by
  unfold Machine.wrTamp
  refine h.hearthOnly fun h => ?_
  split
  · exact h.whenB Kept.clearLatch
  · exact .ite h (h.plainMask.whenB Kept.tampLock)
  · exact h.plain

theorem Kept.wrTh {k x} (h : Kept q s) : Kept q (wrTh k x s) := .ite (h.plain.whenB Kept.updPd) h.bad

theorem Kept.wrBlw {x} (h : Kept q s) : Kept q (wrBlw x s) := by
  unfold Machine.wrBlw
  split
  · exact h.wrTh
  · exact h.wrTh
  · exact h.wrTh
  · exact h.wrTh
  · exact h.plain.clampF
  · exact h.plain.clampF
  · exact h.cntClr Kept.clearRegs
  · exact h.plain

theorem Kept.wrWdCfg {x} (h : Kept q s) : Kept q (wrWdCfg x s) := .ite h (h.plainMask.clampF.whenB Kept.updBlw)

theorem Kept.wrHb {c x} (h : Kept q s) : Kept q (wrHb c x s) :=
  have h1 := h.plain.clampF
  .ite h1.hbStart.fput (h1.whenB Kept.fput)

theorem Kept.wrWdog {x} (h : Kept q s) : Kept q (wrWdog x s) := .ite h.wrWdCfg (.ite h.wdKick (.ite h.wrHb (.ite h.hbKick h.plain)))

/-! ### The bus and the debug port -/

theorem Kept.writeReg {x} (h : Kept q s) : Kept q (writeReg x s) := by
  unfold Machine.writeReg
  extract_lets a at_ unit
  exact .ite h.wrEng <| .ite h.wrSysctl <| .ite h.wrTime <| .ite h.wrTrg <| .ite h.wrCam <| .ite h.wrSw <| .ite h.wrSig <| .ite h.wrIc <| .ite h.wrOwn <|
    .ite h.wrVqi <| .ite h.wrKey <| .ite h.wrTamp <| .ite h.wrMem <| .ite h.wrCwy <| .ite h.wrCan <| .ite h.wrLin <| .ite h.wrLoadch <| .ite h.wrFio <|
    .ite h.wrNm <| .ite h.wrHeron <| .ite h.wrBlw h.wrWdog

theorem Kept.narrowWrite {w row a n data} (h : Kept q s) : Kept q (narrowWrite w row a n data s) := h.writeReg

theorem Kept.narrowData {a n} (h : Kept q s) : Kept q (narrowData a n s) := .ite h.answer h

theorem Kept.busError (h : Kept q s) : Kept q (busError s) := h.answer

theorem Kept.landWrite {w a n data} (h : Kept q s) : Kept q (landWrite w a n data s) := by
  unfold Machine.landWrite
  split
  · exact h.busError
  · exact h.busError
  · exact h.mwrN.sealSettle
  · exact h.mwrN
  · exact .ite h.mwrN h.violateBy.bad
  · exact h.narrowWrite
  · exact h.logUnmapped.busError

theorem Kept.landRead {w a n} (h : Kept q s) : Kept q (landRead w a n s) := by
  unfold Machine.landRead
  split
  · split
    · exact h.answer
    · exact h.logUnmapped.busError
  · split
    · exact h.answer
    · exact h.logUnmapped.busError
  · exact h.answer
  · exact h.answer
  · exact h.answer
  · exact h.readReg.narrowData
  · exact h.logUnmapped.busError

theorem Kept.busAccess {w a n write} {f : State → State} (h : Kept q s) (hf : ∀ {u}, Kept q u → Kept q (f u)) : Kept q (busAccess w a n write f s) :=
  .ite h.busError (.ite h.logUnmapped.busError (h.regAccess hf))

theorem Kept.postedEnd {w a n} (h : Kept q s) : Kept q (postedEnd w a n s) := .ite h h.cwyError.ok

theorem Kept.farWrite {w a n data} (h : Kept q s) : Kept q (farWrite w a n data s) := .ite h.landWrite.postedEnd h.landWrite

theorem Kept.busWrite {w a n data} (h : Kept q s) : Kept q (busWrite w a n data s) := h.busAccess Kept.farWrite

theorem Kept.busRead {w a n} (h : Kept q s) : Kept q (busRead w a n s) := h.busAccess Kept.landRead

theorem Kept.setLock {l} (h : Kept q s) : Kept q (setLock l s) := h.updCwy

theorem Kept.retried {n} (h : Kept q s) : Kept q (retried n s) := h.bumpBy.whenB fun h => h.bump.raise

theorem Kept.lockedWord {i op a v} (h : Kept q s) : Kept q (lockedWord i op a v s) := by
  unfold Machine.lockedWord
  split
  · exact .ite h.busRead.setLock h.busRead
  · exact .ite h.setLock.busWrite h.answer
  extract_lets s1
  split
  · exact
      have h1 := h.busRead.busWrite
      .ite h1.answer h1
  · exact h.busRead

theorem Kept.popRestored (h : Kept q s) : Kept q (popRestored s) := h.bump

theorem Kept.undoCap {m} (h : Kept q s) : Kept q (undoCap m s) := by
  unfold Machine.undoCap
  split
  · exact h
  · exact h.updCap.showCap.popRestored

theorem Kept.undoCanRx {c} (h : Kept q s) : Kept q (undoCanRx c s) := by
  unfold Machine.undoCanRx
  split
  · exact h
  · exact .ite h.updCan.updCan.popRestored h.updCan

theorem Kept.undoErrlog (h : Kept q s) : Kept q (undoErrlog s) := by
  unfold Machine.undoErrlog
  split
  · exact h
  · exact h.updCwy.showErrlog.popRestored

theorem Kept.undoViol (h : Kept q s) : Kept q (undoViol s) := by
  unfold Machine.undoViol
  split
  · exact h
  · exact h.updOwn.popRestored

theorem Kept.reRequest {i} (h : Kept q s) : Kept q (reRequest i s) := .ite h.updIc h.pulse

theorem Kept.undoClaim {t} (h : Kept q s) : Kept q (undoClaim t s) := by
  unfold Machine.undoClaim
  split
  · exact h
  · exact (h.icPop.whenB Kept.reRequest).popRestored

theorem Kept.execPopUndo {r} (h : Kept q s) : Completes q (execPopUndo r s) := by
  unfold Machine.execPopUndo
  refine Completes.next ?_
  split
  · exact h.undoCap
  · exact h.undoCanRx
  · exact h.undoErrlog
  · exact h.undoViol
  · exact h.undoClaim

/-! ### Register instructions of a thread -/

theorem Kept.aluRR {k f e t nd na nb} (h : Kept q s) : Kept q (aluRR k f e t nd na nb s) := h.issue fun h => h.setN.retire

theorem Kept.aluRI {k f e t nd na imm} (h : Kept q s) : Kept q (aluRI k f e t nd na imm s) := h.issue fun h => h.setN.retire

theorem Kept.branchIf {k c e t na nb off} (h : Kept q s) : Kept q (branchIf k c e t na nb off s) := h.issue fun h => .ite h.putPc h.retire

/-! ### Queue and packet instructions of a thread -/

theorem Kept.setStatus {e t nd st} (h : Kept q s) : Kept q (setStatus e t nd st s) := h.setN

theorem Kept.updHold {e t i f} (h : Kept q s) : Kept q (updHold e t i f s) := h.updThr

theorem Kept.addHold {e t x} (h : Kept q s) : Kept q (addHold e t x s) := h.updThr

theorem Kept.windowBack {e t} (h : Kept q s) : Kept q (windowBack e t s) := by
  unfold Machine.windowBack
  split
  · exact h
  · exact h.updHold

theorem Kept.windowSelect {e t i} (h : Kept q s) : Kept q (windowSelect e t i s) := by
  unfold Machine.windowSelect
  split
  · exact h
  extract_lets s1
  split
  · exact h.windowBack
  · exact h.windowBack.updThr

theorem Kept.allocPacket {c len p} (h : Kept q s) (e : allocPacket c len s = some (p, t)) : Kept q t := by
  unfold Machine.allocPacket at e
  extract_lets half id at e
  split at e
  · cases e
  split at e
  · cases e
  · cases e
    exact h.updSw.poolTake

theorem Kept.pkHold {e t nd na nb c} (h : Kept q s) : Kept q (pkHold e t nd na nb c s) := by
  unfold Machine.pkHold
  refine h.issue fun h => ?_
  split
  · split
    · exact h.trap
    · exact
        have h1 := h.windowSelect.setN
        .ite h1.retire h1.retireWait
  split
  · exact h.trap
  split
  · exact h.trap
  extract_lets len
  split
  · exact h.setN.retireWait
  · next heq => exact (h.allocPacket heq).addHold.windowSelect.setN.retireWait

theorem Kept.sentHold {e t i} (h : Kept q s) : Kept q (sentHold e t i s) := h.windowBack.dropHold.updThr

theorem Kept.sendPacket {e t word nd na} {go : Hold → Packet → State → Option (Status × State)} (h : Kept q s)
    (hgo : ∀ {x p u r}, Kept q u → go x p u = some r → Kept q r.2) : Kept q (sendPacket e t word nd na go s) := by
  unfold Machine.sendPacket
  extract_lets s1
  have h1 : Kept q s1 := .ite h.windowBack h
  split
  · exact h1.trap
  split
  next heq =>
    have h2 := Kept.snd (q := q) ?_ heq
    · exact h2.sentHold.setStatus.retireWait
    · split
      · exact h1.endItem
      split
      · next heq => exact hgo h1 heq
      · exact h1.endItem

theorem Kept.pkSend {e t nd na nb} (h : Kept q s) : Kept q (pkSend e t nd na nb s) := by
  unfold Machine.pkSend
  refine h.issue fun h => h.sendPacket fun h e => ?_
  split at e
  · extract_lets n len at e
    split at e
    · cases e
    · cases e
      exact h.lineSent
  extract_lets len at e
  split at e
  · cases e
  · cases e
    exact h.portESend

theorem Kept.tSend {e t nd na nb} (h : Kept q s) : Kept q (tSend e t nd na nb s) := by
  unfold Machine.tSend
  refine h.issue fun h => h.sendPacket fun h e => ?_
  split at e
  · cases e
  split at e
  · cases e
  extract_lets p at e
  split at e
  · cases e
    exact h.portESend
  · cases e
    exact .pair h.updSw

theorem Kept.countDrop {x} (h : Kept q s) : Kept q (countDrop x s) := h.whenB Kept.bump

theorem Kept.execPkdrop {e t nd na} (h : Kept q s) : Completes q (execPkdrop e t nd na s) := by
  unfold Machine.execPkdrop
  refine Completes.next ?_
  refine h.issue fun h => ?_
  split
  · exact h.trap
  split
  · next heq => exact (h.countDrop.endItem.snd heq).dropHold.setStatus.retireWait

theorem Kept.execTstamp {e t na form} (h : Kept q s) : Completes q (execTstamp e t na form s) := by
  unfold Machine.execTstamp
  refine Completes.next ?_
  refine h.issue fun h => ?_
  extract_lets o
  split
  · exact h.trap
  · exact .ite h.trap h.updHold.retire

theorem Kept.pkMove {e t toPacket i off n w} (h : Kept q s) : Kept q (pkMove e t toPacket i off n w s) := by
  unfold Machine.pkMove
  extract_lets s1
  split
  · exact h.windowBack
  · exact .ite h.windowBack.updHold.updThr h.windowBack.putWinBytes

theorem Kept.pkCopy {e t nd na nb toPacket r} (h : Kept q s) : Kept q (pkCopy e t nd na nb toPacket r s) := by
  unfold Machine.pkCopy
  refine h.issue fun h => ?_
  extract_lets a v off n
  split
  · split
    · exact h.setStatus.retireWait
    extract_lets check
    have hc : Kept q check.2 := by
      unfold check
      split
      · split
        · next heq => exact .pair (h.outerCheck.snd heq)
        · next heq => exact (h.outerCheck.snd heq).endTrap
      · exact .pair h
    clear_value check
    split
    · exact hc.trap
    · exact hc.pkMove.sealSettle.setStatus.retireWait
  · exact h.trap

theorem Kept.emptyDesc {e t nd} (h : Kept q s) : Kept q (emptyDesc e t nd s) := h.useFree.useFree.useFree.setRun

theorem Kept.setDesc {e t nd i x} (h : Kept q s) : Kept q (setDesc e t nd i x s) := h.setRun

theorem Kept.qPop {e t nd k} (h : Kept q s) : Kept q (qPop e t nd k s) := by
  unfold Machine.qPop
  refine h.issue fun h => ?_
  split
  · exact h.trap
  split
  · exact h.trap
  split
  · exact h.emptyDesc.retireWait
  split
  · exact h.trap
  · exact
      have h1 := h.qTake.addHold
      (Kept.ite h1.windowSelect h1).setDesc.retireWait

theorem Kept.execQpeek {e t nd k} (h : Kept q s) : Completes q (execQpeek e t nd k s) := by
  unfold Machine.execQpeek
  refine Completes.next ?_
  refine h.issue fun h => ?_
  split
  · exact h.trap
  split
  · exact h.emptyDesc.retireWait
  · exact h.setDesc.retireWait

theorem Kept.qPushInsn {e t nd k r} (h : Kept q s) : Kept q (qPushInsn e t nd k r s) := by
  unfold Machine.qPushInsn
  refine h.issue fun h => ?_
  split
  · exact h.trap
  extract_lets w
  split
  next heq => exact ((Kept.ite₂ (.pair h) (.ite₂ (.ite₂ h.pushSample (.pair h)) h.qPush)).snd heq).setStatus.retireWait

theorem Kept.execQack {e t nd na nb} (h : Kept q s) : Completes q (execQack e t nd na nb s) := by
  unfold Machine.execQack
  refine Completes.next ?_
  refine h.issue fun h => ?_
  split
  · exact h.trap
  split
  · exact h.trap
  split
  · next heq => exact (h.endItem.snd heq).dropHold.setStatus.retireWait

/-! ### The step without a command -/

theorem Kept.idle (h : Kept q s) : Kept q (idle s) := h.advance.launchDue.icSettle.sealSettle

/-- What every command keeps: the rules above, one for each effect. -/
theorem Kept.exec {c : Instr} (h : Kept q s) : Completes q (exec c s) := by
  cases c with
  | registerWrite => exact .next h.busWrite
  | clockDown => exact .next (h.regCmd Kept.islCmd)
  | restore => exact .next (h.regCmd Kept.islCmd)
  | stop => exact .next (h.regCmd Kept.islCmd)
  | start => exact .next (h.regCmd Kept.islCmd)
  | reset => exact .next (h.regCmd Kept.islCmd)
  | resetHold => exact .next (h.regCmd Kept.islCmd)
  | release => exact .next (h.regCmd Kept.islCmd)
  | drainComplete => exact .next (.ite h h.drainOver)
  | drainTimerExpire => exact .next (.ite h.elapseTo.drainOver h)
  | resetComplete => exact .next (.ite h.startIsland h)
  | clockStable => exact .next (.ite h.islandUp h)
  | domainLost => exact .next h.domainLost
  | responseDiscard => exact h.execResponseDiscard
  | nowNsRead => exact .next (h.regRead Kept.nowRead)
  | splitCompare => exact .next (h.withMasterMove Kept.compareIslands)
  | resync => exact .next (h.regCmd Kept.resync)
  | gptpStandbyTakeover => exact .next (.ite h.fput h)
  | servoSample => exact h.execServoSample
  | holdoverTimeout => exact .next (.ite h.elapseTo.enterHoldover h)
  | holdLimit => exact h.execHoldLimit
  | stepAccept => exact .next (h.regCmd Kept.stepAccept)
  | stepInstant => exact h.execStepInstant
  | roleWrite => exact .next (h.regCmd Kept.roleWrite)
  | twinEnChange => exact .next (h.regCmd Kept.twinEnWrite)
  | setGo => exact .next (h.regCmd Kept.setGo)
  | setApply => exact h.execSetApply
  | holdoverFreqRecompute => exact .next (.ite h.setFreq h)
  | tempSensorRead => exact .next h.updTime.fputI.fput
  | twinAbsent => exact .next (.ite h.elapseTo.makeAbsent h)
  | twinResume => exact .next (h.regCmd Kept.twinResume)
  | ppsEdge => exact .next (.ite (.ite h.updTime.ppsSample h.bump) h)
  | ppsLost => exact h.execPpsLost
  | timeCntClr => exact .next (h.regCmd Kept.clearRegs)
  | trgStart => exact .next (h.regCmd Kept.trgStart)
  | trgStop => exact .next (h.regCmd Kept.trgStop)
  | triggerInstant => exact .next (.ite h.elapseVt.instantReached h)
  | trailingEdge => exact h.execTrailingEdge
  | trgLastRead => exact .next (h.regRead Kept.trgLastRead)
  | captureEdge => exact .next (.ite h.advance.captureEdge h.advance)
  | capStampPop => exact .next (h.regRead Kept.capPop)
  | csiFrameStart => exact h.execCsiFrameStart
  | csiFrameEnd => exact .next (.ite h (.ite h.camBurst.camBadHeader (.ite h.camBurst.camDiscard h.camBurst.endFrame)))
  | csiLineStart => exact h.execCsiLineStart
  | csiLongPacket => exact h.execCsiLongPacket
  | csiGenericShortPacket => exact .next (.ite h.camBurst.camDiscard h)
  | csiLinkTimeout => exact h.execCsiLinkTimeout
  | lineItemPush => exact h.execLineItemPush
  | lineStagingFree => exact h.execLineStagingFree
  | camCntClr => exact .next (h.regCmd Kept.clearRegs)
  | thrStart => exact .next (h.regCmd Kept.thrCmd)
  | thrStop => exact .next (h.regCmd Kept.thrCmd)
  | doorbell => exact .next (h.regCmd Kept.thrCmd)
  | budgetFrameStart => exact .next (h.advance.forFin fun h => h.forFin Kept.thrFrame)
  | waitComplete e t r c => exact h.execWaitComplete (e := e) (t := t) (r := r) (c := c)
  | postedStoreError => exact h.execPostedStoreError
  | timeAlarm => exact h.execTimeAlarm
  | illegalEncoding => exact h.execIllegalEncoding
  | add => exact .next h.aluRR
  | sub => exact .next h.aluRR
  | and => exact .next h.aluRR
  | or => exact .next h.aluRR
  | xor => exact .next h.aluRR
  | shl => exact .next h.aluRR
  | shr => exact .next h.aluRR
  | sar => exact .next h.aluRR
  | mul => exact .next h.aluRR
  | mulh => exact .next h.aluRR
  | min => exact .next h.aluRR
  | max => exact .next h.aluRR
  | clz => exact .next h.aluRR
  | popc => exact .next h.aluRR
  | slt => exact .next h.aluRR
  | sltu => exact .next h.aluRR
  | addi => exact .next h.aluRI
  | andi => exact .next h.aluRI
  | ori => exact .next h.aluRI
  | xori => exact .next h.aluRI
  | shli => exact .next h.aluRI
  | shri => exact .next h.aluRI
  | sari => exact .next h.aluRI
  | lui => exact .next h.aluRI
  | slti => exact .next h.aluRI
  | sltui => exact .next h.aluRI
  | ldb => exact .next h.load
  | ldh => exact .next h.load
  | ldw => exact .next h.load
  | ldq => exact .next h.load
  | stb => exact .next h.store
  | sth => exact .next h.store
  | stw => exact .next h.store
  | stq => exact .next h.store
  | beq => exact .next h.branchIf
  | bne => exact .next h.branchIf
  | blt => exact .next h.branchIf
  | bge => exact .next h.branchIf
  | bltu => exact .next h.branchIf
  | bgeu => exact .next h.branchIf
  | jal => exact .next (h.issue fun h => h.setN.putPc)
  | jalr => exact .next (h.issue fun h => h.setN.putPc)
  | ext => exact .next (h.issue fun h => h.setN.retire)
  | ins => exact .next (h.issue fun h => h.setN.retire)
  | dep => exact .next (h.issue fun h => h.setN.retire)
  | pkhold => exact .next h.pkHold
  | pksend => exact .next h.pkSend
  | pkdrop => exact h.execPkdrop
  | pkcopy => exact .next h.pkCopy
  | qpop => exact .next h.qPop
  | qpush => exact .next h.qPushInsn
  | qack => exact h.execQack
  | qpeek => exact h.execQpeek
  | lkp => exact .next h.lookIssue
  | lkpw => exact .next h.lookIssue
  | lkps => exact .next h.lookIssue
  | tnow => exact .next (h.issue fun h => h.setRun.retire)
  | tat => exact h.execTat
  | tsend => exact .next h.tSend
  | tstamp => exact h.execTstamp
  | aadd => exact .next h.bankAtomic
  | aswp => exact .next h.bankAtomic
  | wev => exact .next h.wev
  | pscan => exact .next (h.issue fun h => h.icSettle.setN.retire)
  | pclr => exact .next (h.issue fun h => (h.icSettle.updIc.foldl fun h => h.clearReq).setN.retire)
  | cq => exact .next h.cq
  | cqwait => exact h.execCqwait
  | yield => exact .next (h.issue fun h => h.updThr.retire)
  | halt => exact .next (h.issue fun h => .ite h.trap h.retire.putThr)
  | trap => exact .next (h.issue Kept.trap)
  | budget => exact .next (h.issue fun h => h.setN.retire)
  | fence => exact .next (h.issue fun h => .ite h.postedDone.retire h.postedDone.waitOn)
  | sigrd => exact .next h.lookIssue
  | sigwr => exact .next h.lookIssue
  | frameReceive => exact h.execFrameReceive
  | transmissionSelection => exact h.execTransmissionSelection
  | frameTxComplete => exact .next h.finishTx
  | gateEntry => exact h.execGateEntry
  | gateChangeArm => exact .next (h.regCmd Kept.gateArm)
  | gateChange => exact h.execGateChange
  | streamGateEntry => exact h.execStreamGateEntry
  | frerResetTimeout => exact h.execFrerResetTimeout
  | preemptVerify => exact .next (.ite h (.ite h.fput h.elapseTo.updSw))
  | frameAged => exact h.execFrameAged
  | addressAgeing => exact h.execAddressAgeing
  | planeReturn => exact .next (h.forN fun h => .ite h.fput h)
  | hostRingTail => exact .next (h.regCmd Kept.ringTail)
  | hostTxDescriptor => exact h.execHostTxDescriptor
  | flushDyn => exact .next (h.regCmd Kept.flushDyn)
  | tblRead => exact .next (h.regCmd Kept.tblRead)
  | tblWrite => exact .next (h.regCmd Kept.tblWrite)
  | sleepReq => exact .next (h.regCmd Kept.sleepReq)
  | wakeReq => exact .next (h.regCmd Kept.wakeReq)
  | tc10SleepComplete => exact .next (.ite ((Kept.ite h.elapseTo.flushSlept h).whenB Kept.fput) (.ite h.closePort h))
  | wakeSeen => exact .next (.ite h.tc10Wake h.raise)
  | linkChange => exact h.execLinkChange
  | swCntClr => exact .next (h.regCmd Kept.swCntClr)
  | canFrameReceive => exact h.execCanFrameReceive
  | rxqPop => exact .next (h.regRead Kept.rxqPop)
  | rxeWord7Read => exact .next (h.regRead Kept.rxeWord7Read)
  | mbIdRead => exact .next (h.regRead Kept.mbIdRead)
  | mbStatRead => exact .next (h.regRead Kept.mbStatRead)
  | lockExpired => exact h.execLockExpired
  | mbAck => exact .next (h.regCmd Kept.mbAck)
  | rxqAck => exact .next (h.regCmd Kept.rxqAck)
  | txbReq => exact .next (h.regCmd Kept.txbReq)
  | txqSubmit => exact .next (h.regCmd Kept.txqSubmit)
  | txbCancel => exact .next (h.regCmd Kept.txbCancel)
  | txqCancel => exact .next (h.regCmd Kept.txqCancel)
  | canTxStart => exact h.execCanTxStart
  | canTxAttemptEnd => exact h.execCanTxAttemptEnd
  | canDeadline => exact h.execCanDeadline
  | busOffRecovery => exact .next (.ite h.fput.fput.putErrState h)
  | recover => exact .next (h.regCmd Kept.recover)
  | aloneResume => exact .next (h.regCmd Kept.aloneResume)
  | ttColumnMark => exact h.execTtColumnMark
  | ttReferenceDue => exact h.execTtReferenceDue
  | ttReferenceTimeout => exact h.execTtReferenceTimeout
  | canCntClr => exact .next (h.regCmd Kept.clearRegs)
  | linHeaderStart => exact h.execLinHeaderStart
  | linResponseEnd => exact h.execLinResponseEnd
  | linResponseTimeout => exact h.execLinResponseTimeout
  | busStuck => exact .next (.ite h.linEvent.linFinish h)
  | linWakePulseEnd => exact h.execLinWakePulseEnd
  | wakeRx => exact .next (.ite (Kept.ite h.linEvent h).segWakeInput h)
  | linCntClr => exact .next (h.regCmd Kept.clearRegs)
  | sigEnable => exact .next (h.regCmd Kept.sigEnWrite)
  | sigDisable => exact .next (h.regCmd Kept.sigEnWrite)
  | ready => exact .next (.ite h ((h.updSig.forN Kept.loadConv).forN Kept.loadPin).fput.raise)
  | logEnable => exact .next (h.regCmd fun h => .ite h.logEnWrite h.bad)
  | logDisable => exact .next (h.regCmd Kept.logEnWrite)
  | crash => exact .next (h.regCmd Kept.crashTrigger)
  | crashRearm => exact .next (h.regCmd Kept.crashRearm)
  | invalidate => exact .next (h.regCmd Kept.sigInvalidate)
  | defRead => exact .next (h.regCmd Kept.defStart)
  | defWrite => exact .next (h.regCmd Kept.defStart)
  | defCmdDone => exact h.execDefCmdDone
  | logPush => exact .next (h.regCmd Kept.hostPush)
  | logRecordAccept => exact .next (.ite h.acceptRecord h)
  | sealPeriodic => exact .next (.ite h h.advance.sealTrigger.updSig)
  | sealLate => exact h.execSealLate
  | cacheFill => exact h.execCacheFill
  | crashDone => exact h.execCrashDone
  | sigCntClr => exact .next (h.regCmd Kept.clearRegs)
  | wispReceive => exact .next h.wispAccept
  | wispForward => exact h.execWispForward
  | ringLost => exact .next (.ite h h.elapseTo.updSeg)
  | wispRegenerate => exact h.execWispRegenerate
  | nmCtlblkRead => exact .next (.ite h (h.forFin fun h => h.updSeg.showConsent))
  | minAwakeEnd => exact .next (.ite h h.elapseTo.showConsent)
  | prepareEnd => exact h.execPrepareEnd
  | settleEnd => exact .next (.ite h h.elapseTo.setSeg)
  | wakingEnd => exact .next (.ite h h.elapseTo.recordWake.wakeForParent.enterAwake.showConsent)
  | segmentWakeInput => exact .next ((Kept.ite h.tc10Wake h).segWakeInput)
  | latchedWakeAction => exact h.execLatchedWakeAction
  | maxAwakeExpire => exact h.execMaxAwakeExpire
  | segCtrlWake => exact .next (h.regCmd Kept.segCtrlWake)
  | rejoin => exact .next (h.regCmd Kept.rejoin)
  | segEnable => exact .next (h.regCmd Kept.segEnable)
  | segDisable => exact .next (h.regCmd Kept.segDisable)
  | sluiceLinRelease => exact h.execSluiceLinRelease
  | nmCntClr => exact .next (h.regCmd Kept.clearRegs)
  | cqSubmit => exact .next (h.regCmd Kept.cqSubmit)
  | off => exact .next h.pdApply
  | on => exact .next h.pdApply
  | pwm => exact .next h.pdApply
  | clear => exact .next h.pdApply
  | test => exact .next h.pdApply
  | hbSet => exact .next h.pdApply
  | bridge => exact .next h.pdApply
  | cmdLinkTimeout => exact h.execCmdLinkTimeout
  | hardShort => exact .next (.ite h.latch h)
  | trip => exact .next (.ite h.latch h)
  | vdsFault => exact h.execVdsFault
  | i2tUpdate => exact h.execI2tUpdate
  | inrushWindowEnd => exact .next (.ite h h.elapseTo.fput.startPulses)
  | tgTempRead => exact h.execTgTempRead
  | tgShedStep => exact h.execTgShedStep
  | openOn => exact .next (.ite h.setDiag h)
  | offStateTest => exact .next (.ite h.setDiag.setDiag h)
  | testPulseEnd => exact h.execTestPulseEnd
  | testDeferTimeout => exact h.execTestDeferTimeout
  | currentUpdate => exact .next (.ite h h.fput.fput)
  | powerBudgetUpdate => exact h.execPowerBudgetUpdate
  | budgetShedStep => exact h.execBudgetShedStep
  | shedRestoreStep => exact h.execShedRestoreStep
  | loadchClaim => exact .next (h.regCmd Kept.loadchClaim)
  | park => exact .next (h.regCmd Kept.loadchPark)
  | controlLost => exact .next (.ite h.resetNotice (.ite h.elapseTo.loseControl h))
  | tHoldExpire => exact h.execTHoldExpire
  | pdRestart => exact .next h.pdRestart
  | laneLoss => exact h.execLaneLoss
  | pdVbatSample => exact .next (.ite h h.updPd.applyStage)
  | otpProg => exact .next (h.regCmd Kept.otpProg)
  | otpRead => exact .next (h.regCmd Kept.otpRead)
  | diSample => exact .next (.ite h (h.diCompare.forFin Kept.diSampleOne))
  | diPoll => exact .next (.ite (h.diCompare.forFin Kept.diPollOne) h)
  | aiConvert => exact h.execAiConvert
  | loadchCntClr => exact .next (h.regCmd Kept.clearRegs)
  | tcmcpyGo => exact .next (h.regCmd fun h => h.hearthOnly Kept.tcmcpyGo)
  | tcmcpyDone => exact h.execTcmcpyDone
  | atomAadd => exact .next (h.regCmd Kept.atomic)
  | atomAswp => exact .next (h.regCmd Kept.atomic)
  | hartBankAmo => exact h.execHartBankAmo
  | lrReservationExpire => exact h.execLrReservationExpire
  | cwyLockedSequence => exact .next (.ite h (.ite h.hartExc.busError (.ite h.busError h.lockedWord.retried)))
  | lockBroken => exact h.execLockBroken
  | cwyTimeout => exact .next (.ite h (.ite h.advance.cwyError h.advance.answer))
  | cwyPostedError => exact h.execCwyPostedError
  | lateResp => exact .next h.bump.raise
  | popUndo => exact h.execPopUndo
  | errlogPop => exact .next (h.regRead Kept.errlogPop)
  | dramScrub => exact h.execDramScrub
  | memCntClr => exact .next (h.regCmd fun h => h.hearthOnly Kept.clearRegs)
  | cwyCntClr => exact .next (h.regCmd fun h => h.hearthOnly Kept.clearRegs)
  | sgiSet => exact .next (h.regCmd Kept.sgiSet)
  | icClaim => exact .next (h.regRead Kept.claimRead)
  | eoi => exact .next (h.regCmd Kept.eoiWrite)
  | vectorEntry => exact h.execVectorEntry
  | assistedMret => exact h.execAssistedMret
  | wcall => exact .next (.ite h (.ite h.updHart.anvilReturn h.updHart.wcallEnter))
  | sleepStandby => exact .next (h.regCmd Kept.sleepCmd)
  | sleepDeep => exact .next (h.regCmd Kept.sleepCmd)
  | sleepEntryStep => exact h.execSleepEntryStep
  | heronWake => exact h.execHeronWake
  | watchedSourceWake => exact h.execWatchedSourceWake
  | wakeOrderStep => exact .next (.ite h.elapseTo.orderStep h)
  | vregDelayEnd => exact .next (.ite h.elapseTo.same.fput.chipReset h)
  | invalPage => exact .next (h.regCmd fun h => h.hearthOnly Kept.invalPage)
  | invalAll => exact .next (h.regCmd fun h => h.hearthOnly Kept.invalCmd)
  | invalDone => exact h.execInvalDone
  | anvilTimeout => exact .next (.ite h h.elapseTo.anvilReturn.raise)
  | l2ResChange => exact .next (h.regCmd fun h => h.hearthOnly Kept.l2ResChange)
  | tongsRequest => exact .next (h.regCmd fun h => h.hearthOnly fun h => h.tongsCmd Kept.tongsRequest)
  | tongsForce => exact .next (h.regCmd fun h => h.hearthOnly fun h => h.tongsCmd Kept.tongsReset)
  | tongsGrant => exact .next (h.regCmd fun h => h.hearthOnly fun h => h.tongsCmd Kept.tongsGrant)
  | tongsRel => exact .next (h.regCmd Kept.tongsRel)
  | tongsTimeout => exact .next (.ite h (h.elapseTo.updOwn.raise.whenB Kept.tongsReset))
  | tongsDone => exact .next (.ite h.tongsDone h)
  | keepalive => exact .next (h.regCmd fun h => h.hearthOnly Kept.keepAlive)
  | lcCmd => exact .next (h.regCmd fun h => h.hearthOnly Kept.lcCmd)
  | hwdtKick => exact .next (h.regCmd Kept.hwdtKick)
  | hearthRestart => exact .next (.ite h h.elapseTo.hearthExpiry)
  | hearthImageVerify => exact h.execHearthImageVerify
  | serviceUp => exact .next (h.regCmd fun h => h.hearthOnly Kept.serviceUp)
  | debugAccess => exact .next (.ite h (.ite h.busError (.ite h.busWrite h.busRead)))
  | ownCntClr => exact .next (h.regCmd fun h => h.hearthOnly Kept.clearRegs)
  | violPop => exact .next (h.regRead Kept.violPop)
  | sqTail => exact .next (h.regCmd Kept.sqTail)
  | vqiFetch => exact h.execVqiFetch
  | admissionSlot => exact h.execAdmissionSlot
  | shareRoundBoundary => exact .next (h.updVqi.forFin Kept.newShare)
  | vqiCompletion => exact h.execVqiCompletion
  | instanceReset => exact .next (h.regCmd Kept.instanceReset)
  | managerReset => exact .next (h.regCmd Kept.managerReset)
  | freeze => exact .next (h.regCmd Kept.vqiFreeze)
  | thaw => exact .next (h.regCmd Kept.vqiThaw)
  | vqiEnable => exact .next (h.regCmd Kept.vqiEnable)
  | vqiDisable => exact .next (h.regCmd Kept.vqiDisable)
  | freezeTimeout => exact .next (.ite h h.elapseTo.abortItems.putVqiGen.putVqiState.raise)
  | shareWrite => exact .next (h.regCmd Kept.shareWrite)
  | migExport => exact .next (h.regCmd Kept.migCmd)
  | migRestore => exact .next (h.regCmd Kept.migCmd)
  | migDone => exact h.execMigDone
  | vqiCntClr => exact .next (h.regCmd Kept.clearRegs)
  | erase4k => exact .next (h.regCmd fun h => h.hearthOnly Kept.xspiCmd)
  | erase64k => exact .next (h.regCmd fun h => h.hearthOnly Kept.xspiCmd)
  | program => exact .next (h.regCmd fun h => h.hearthOnly Kept.xspiCmd)
  | cmdDone => exact h.execCmdDone
  | xspiBusyTimeout => exact h.execXspiBusyTimeout
  | xspiSuspend => exact h.execXspiSuspend
  | xspiResume => exact h.execXspiResume
  | alt => exact .next (h.regCmd fun h => h.hearthOnly Kept.bootAlt)
  | rollbackAdv => exact .next (h.regCmd fun h => h.hearthOnly Kept.rollbackAdv)
  | powerOn => exact .next h.powerOn
  | coreResetRelease => exact h.execCoreResetRelease
  | bootRetry => exact .next (.ite h h.elapseTo.bump.selectSlot)
  | jqSubmit => exact .next (h.regCmd fun h => h.hearthOnly Kept.jqSubmit)
  | sha512 => exact .next h.cryNext
  | hmac => exact .next h.cryNext
  | hmacVer => exact .next h.cryNext
  | cmac => exact .next h.cryNext
  | cmacVer => exact .next h.cryNext
  | gcmEnc => exact .next h.cryNext
  | gcmDec => exact .next h.cryNext
  | sign => exact .next h.cryNext
  | verify => exact .next h.cryNext
  | derive => exact .next h.cryNext
  | wrap => exact .next h.cryNext
  | unwrap => exact .next h.cryNext
  | pubkey => exact .next h.cryNext
  | attest => exact .next h.cryNext
  | random => exact .next h.cryNext
  | loadpub => exact .next h.cryNext
  | cryptoJobDone => exact .next h.cryDone
  | slotClear => exact .next (h.regCmd fun h => h.hearthOnly Kept.slotClear)
  | slotCommit => exact .next (h.regCmd fun h => h.hearthOnly Kept.slotCommit)
  | slotDiscard => exact .next (h.regCmd fun h => h.hearthOnly Kept.slotDiscard)
  | keyCntClr => exact .next (h.regCmd fun h => h.hearthOnly Kept.clearRegs)
  | tamperAlarm => exact .next h.tamperAlarm
  | clearLatch => exact .next (h.regCmd fun h => h.hearthOnly Kept.clearLatch)
  | tampCfgLock => exact .next (h.regCmd fun h => h.hearthOnly Kept.tampLock)
  | vbatSample => exact .next (h.withHeartbeats fun h => (h.fput.forFin Kept.blwCount).changeStage)
  | hartPark => exact h.execHartPark
  | stage4SealStop => exact h.execStage4SealStop
  | brownOut => exact .next h.chipReset
  | coreTjRead => exact h.execCoreTjRead
  | pinReset => exact .next h.chipReset
  | chipRst => exact .next (h.regCmd fun h => h.hearthOnly Kept.chipRst)
  | wdKick => exact .next (h.regCmd Kept.wdKick)
  | wdWarn => exact .next (.ite h.elapseTo.fput h)
  | chipWdog => exact .next (.ite h.elapseTo.wdExpire h)
  | wdCfgLock => exact .next (h.regCmd Kept.fput)
  | hbKick => exact .next (h.regCmd Kept.hbKick)
  | heartbeatLost => exact .next (.ite h (Kept.ite h h.elapseTo).hbLose)
  | lockstep => exact h.execLockstep
  | hcLockstep => exact .next h.hearthExpiry
  | bistReq => exact .next (h.regCmd Kept.bistReq)
  | bistGrant => exact .next (h.regCmd Kept.grantBist)
  | bistDeny => exact .next (h.regCmd Kept.denyBist)
  | bistGrantTimeout => exact .next (.ite h.elapseTo.bistDefer h)
  | bistWindowEnd => exact .next (.ite h (h.elapseTo.updHart.fput.fput.fput.raise.whenB Kept.raise))
  | blwCntClr => exact .next (h.regCmd Kept.clearRegs)
  | sysctlCntClr => exact .next (h.regCmd Kept.clearRegs)
  | domainRailValid => exact .next h.setRail.raise
  | laneRestored => exact .next h.fput
  | csiSkewCalibration => exact .next (.ite h.camBurst.fput h)
  | tamperConditionCleared => exact .next (.ite h.updKey.fput h.updKey)
  | canReceiveError => exact .next (.ite h h.fput.fput.showErrState)
  -- The command of R326 whose name is a keyword of Lean, so that no alternative can spell it.
  | _ => exact .next (h.regCmd Kept.sealTrigger)

/-- Settles O3: every command's effect keeps a state sound and leaves the rest of the queue. -/
theorem everyStepKeepsTheStateSound : Obligations.EveryStepKeepsTheStateSound := by
  refine ⟨fun c rest s hp hs => ?_, fun s hp hs => ?_⟩
  · obtain ⟨t, ht, hs', hp'⟩ := Kept.exec (q := rest) (s := { s with pending := rest }) (c := c) ⟨hs, rfl⟩
    refine ⟨t, ?_, hs', hp'⟩
    rw [step, hp]
    exact ht
  · obtain ⟨hs', hp'⟩ := Kept.idle (q := []) ⟨hs, hp⟩
    refine ⟨idle s, ?_, hs', hp'⟩
    rw [step, hp]

end Sys2Proof.Machine

/-!
The state after reset (O2).
-/
namespace Sys2Proof.Machine

theorem rd_reset (a : Nat) : rd a State.reset = resetVal a := rfl

theorem mrd_reset (a : Nat) : mrd a State.reset = memDflt 0 a := rfl

theorem sound_reset : Sound State.reset := ⟨rfl, rfl, rfl⟩

theorem islSt_reset (i : Fin 21) : islSt i State.reset = .run := by
  simp [islSt, State.reset, Island.init]

theorem world_reset (h : Fin 8) : (State.reset.harts[h.1]).world = false := by
  simp [State.reset, Hart.init]

theorem getN_reset (e : Fin 24) (t : Fin 4) (k : Fin 32) : getN e t k State.reset = 0 := by
  simp [getN, thr, State.reset, EngThr.init]

/-- Settles O2: no list of the reset state holds an entry, so every register and every byte reads its default, and every array repeats one initial value. -/
theorem resetIsSound : Obligations.ResetIsSound :=
  ⟨sound_reset, rfl, rd_reset, mrd_reset, islSt_reset, by decide, by decide, by decide, world_reset, getN_reset⟩

end Sys2Proof.Machine

/-!
What becomes of a write on the bus and of a debug access (O41).
-/
namespace Sys2Proof.Machine

/-! ### The checks of an access, in their order -/

theorem exec_registerWrite (w : Initiator) (addr : BitVec 40) (size : AccSize) (d : Word) (s : State) :
    exec (.registerWrite w addr size d) s = .next (busWrite w addr.toNat (accBytes size) d.toNat s) := rfl

theorem busAccess_misaligned {a n : Nat} (h : a % n ≠ 0) (w : Initiator) (write : Bool) (f : State → State) (s : State) :
    busAccess w a n write f s = busError s := if_pos h

theorem busAccess_unmapped {a n : Nat} {s : State} (ha : a % n = 0) (ho : ownEntryAddr a s = none) (w : Initiator) (write : Bool) (f : State → State) :
    busAccess w a n write f s = busError (logUnmapped (initCode w) a s) := by
  simp [busAccess, ha, ho]

/-- An aligned access to a mapped page is an access as of a register. -/
theorem busAccess_mapped {a n : Nat} {s : State} (ha : a % n = 0) (ho : ownEntryAddr a s ≠ none) (w : Initiator) (write : Bool) (f : State → State) :
    busAccess w a n write f s = regAccess w a write f s := by
  simp [busAccess, ha, ho]

theorem regAccess_refused {w : Initiator} {a : Nat} {write : Bool} {s : State} (h : (initCheck w a write s).1 = false) (f : State → State) :
    regAccess w a write f s = answer .failedBus 0 (initCheck w a write s).2 := by
  simp [regAccess_cases, h]

theorem regAccess_closed {w : Initiator} {a : Nat} {write : Bool} {s : State} (h : (initCheck w a write s).1 = true)
    (hh : homeOpen a (initCheck w a write s).2 = false) (f : State → State) :
    regAccess w a write f s = answer .abortedIslandOff 0 (initCheck w a write s).2 := by
  simp [regAccess_cases, h, hh]

theorem busWrite_lets {w : Initiator} {a n : Nat} {s : State} (ha : a % n = 0) (ho : ownEntryAddr a s ≠ none) (h : Lets w a true s) (d : Nat) :
    busWrite w a n d s = farWrite w a n d (ok (entered w a s)) :=
  (busAccess_mapped ha ho ..).trans (regAccess_lets h _)

theorem busRead_lets {w : Initiator} {a n : Nat} {s : State} (ha : a % n = 0) (ho : ownEntryAddr a s ≠ none) (h : Lets w a false s) :
    busRead w a n s = landRead w a n (ok (entered w a s)) :=
  (busAccess_mapped ha ho ..).trans (regAccess_lets h _)

/-- Every page below the end of the settings-flash window has an entry in the ownership table. -/
theorem ownEntryAddr_low {a : Nat} (h : a < 0x28000000) (s : State) : ownEntryAddr a s ≠ none := by
  simp (disch := omega) [ownEntryAddr, if_neg, if_pos]

/-! ### What lies at an address -/

theorem bank_range {a n : Nat} (h : inBanks a n = true) : 0x01000000 ≤ a ∧ a + n ≤ 0x01400000 := by
  simpa [inBanks] using h

theorem landAt_banks {a n : Nat} (h : inBanks a n = true) (s : State) : landAt a n s = .ram := by
  have hr := bank_range h
  simp (disch := omega) [landAt, if_neg, h]

theorem landAt_flash {a n : Nat} (h : 0x20000000 ≤ a) (h' : a < 0x28000000) (s : State) : landAt a n s = .flash := by
  have hb : (inBanks a n || inDram a n s) = false := by
    simp [inBanks, inDram]
    omega
  simp (disch := omega) [landAt, if_neg, hb, h, h']

/-- A register of a block behind the engines. -/
theorem landAt_register {a : Nat} {row : RegRow} (h : 0x04000000 ≤ a) (h' : a < 0x20000000) (ha : a / 4 * 4 = a) (hr : reservedOut a = false)
    (hrow : rowAt a = some row) (s : State) : landAt a 4 s = .reg row := by
  have hb : (inBanks a 4 || inDram a 4 s) = false := by
    simp [inBanks, inDram]
    omega
  simp (disch := omega) [landAt, if_neg, hb, ha, hr, hrow]

theorem farWrite_direct {a : Nat} {s : State} (h : (decide (0x10000000 ≤ a) && decide (a < 0x20000000) && cwyPosted a s) = false) (w : Initiator) (n d : Nat) :
    farWrite w a n d s = landWrite w a n d s := by
  simp only [farWrite, h, Bool.false_eq_true, if_false]

@[simp] theorem rd_ok (a : Nat) (s : State) : rd a (ok s) = rd a s := rfl

@[simp] theorem initWorld_ok (w : Initiator) (s : State) : initWorld w (ok s) = initWorld w s := rfl

@[simp] theorem cwyPosted_ok (a : Nat) (s : State) : cwyPosted a (ok s) = cwyPosted a s := rfl

@[simp] theorem mrdN_ok (a n : Nat) (s : State) : mrdN a n (ok s) = mrdN a n s := by
  induction n generalizing a with
  | zero => rfl
  | succ n ih => rw [mrdN, mrdN, ih]; rfl

/-! ### Writes of a register -/

/-- The bits of the bytes that an access addresses in its register. -/
theorem testBit_byteMask (n sh k : Nat) : ((2 ^ (8 * n) - 1) * 2 ^ sh).testBit k = decide (sh ≤ k ∧ k < sh + 8 * n) := by
  rw [Nat.testBit_mul_two_pow, Nat.testBit_two_pow_sub_one, ← Bool.decide_and, decide_eq_decide]
  omega

theorem byteMask_lt {a n : Nat} (hn : n = 1 ∨ n = 2 ∨ n = 4) (ha : a % n = 0) : (2 ^ (8 * n) - 1) * 2 ^ (8 * (a % 4)) < 2 ^ 32 := by
  have hlt : (2 ^ (8 * n) - 1) * 2 ^ (8 * (a % 4)) < 2 ^ (8 * n) * 2 ^ (8 * (a % 4)) :=
    Nat.mul_lt_mul_of_pos_right (Nat.sub_lt (Nat.two_pow_pos _) Nat.one_pos) (Nat.two_pow_pos _)
  have hwidth : 8 * n + 8 * (a % 4) ≤ 32 := by
    obtain rfl | rfl | rfl := hn <;> omega
  rw [← Nat.pow_add] at hlt
  exact Nat.lt_of_lt_of_le hlt (Nat.pow_le_pow_right Nat.two_pos hwidth)

/-- A bit of a merged value: of the data in the addressed bytes, elsewhere of the RW fields (R632). -/
theorem testBit_mergedValue {a n data k : Nat} (old rw : Nat) (hn : n = 1 ∨ n = 2 ∨ n = 4) (ha : a % n = 0) (hk : k < 32) :
    (mergedValue a n data old rw).testBit k =
      if 8 * (a % 4) ≤ k ∧ k < 8 * (a % 4) + 8 * n then data.testBit (k - 8 * (a % 4)) else old.testBit k && rw.testBit k := by
  have hm := byteMask_lt hn ha
  have hrest : 0xFFFFFFFF - (2 ^ (8 * n) - 1) * 2 ^ (8 * (a % 4)) = 2 ^ 32 - ((2 ^ (8 * n) - 1) * 2 ^ (8 * (a % 4)) + 1) := by omega
  simp only [mergedValue, hrest, Nat.testBit_or, Nat.testBit_and, testBit_byteMask, Nat.testBit_two_pow_sub_succ hm]
  by_cases hin : 8 * (a % 4) ≤ k ∧ k < 8 * (a % 4) + 8 * n
  · simp [hin, Nat.testBit_mul_two_pow]
  · simp [hin, hk]

theorem mergedValue_word {a : Nat} (ha : a % 4 = 0) (d : Word) (old rw : Nat) : mergedValue a 4 d.toNat old rw = d.toNat := by
  have hm : d.toNat &&& 0xFFFFFFFF = d.toNat := by
    rw [show (0xFFFFFFFF : Nat) = 2 ^ 32 - 1 from rfl, Nat.and_two_pow_sub_one_eq_mod, Nat.mod_eq_of_lt d.isLt]
  simp [mergedValue, ha, hm]

theorem writeReg_mem {a : Nat} (h : 0x04800000 ≤ a) (h' : a < 0x04900000) (w : Initiator) (o : Nat) (row : RegRow) (v : Nat) (s : State) :
    writeReg ⟨w, a, o, row, v⟩ s = wrMem ⟨w, a, a - 0x04800000, row, v⟩ s := by
  simp (disch := omega) only [writeReg, if_neg, if_pos]

theorem writeReg_fio {a : Nat} (h : 0x10300000 ≤ a) (h' : a < 0x10400000) (w : Initiator) (o : Nat) (row : RegRow) (v : Nat) (s : State) :
    writeReg ⟨w, a, o, row, v⟩ s = wrFio ⟨w, a, a - 0x10300000, row, v⟩ s := by
  simp (disch := omega) only [writeReg, if_neg, if_pos]

/-- A word write that is let in reaches the register as a full write. -/
theorem exec_wordWrite {w : Initiator} {a : Nat} {row : RegRow} {s : State} (d : Word) (hl : Lets w a true s) (hrow : rowAt a = some row)
    (h : 0x04000000 ≤ a) (h' : a < 0x20000000) (ha : a % 4 = 0) (hr : reservedOut a = false)
    (hp : (decide (0x10000000 ≤ a) && decide (a < 0x20000000) && cwyPosted a (ok (entered w a s))) = false) :
    exec (.registerWrite w (BitVec.ofNat 40 a) .word d) s = .next (writeReg ⟨w, a, 0, row, d.toNat⟩ (ok (entered w a s))) := by
  have ha' : a / 4 * 4 = a := by omega
  have hn : (BitVec.ofNat 40 a).toNat = a := by
    rw [BitVec.toNat_ofNat, Nat.mod_eq_of_lt (by omega)]
  rw [exec_registerWrite, hn, accBytes, busWrite_lets ha (ownEntryAddr_low (by omega) s) hl, farWrite_direct hp, landWrite,
    landAt_register h h' ha' hr hrow]
  simp only [narrowWrite, ha', mergedValue_word ha]

theorem word_and_ones (u : Word) : u &&& 0xFFFFFFFF#32 = u := BitVec.and_allOnes

/-- A write of an RW register (R6): its bits take the value's, every other one stays. -/
theorem plain_rw {row : RegRow} {m : Word} (hm : BitVec.ofNat 32 row.rw = m) (hc : row.w1c = 0) (hs : row.w1s = 0) (w : Initiator) (a o : Nat) (v : Word) (s : State) :
    plain ⟨w, a, o, row, v.toNat⟩ s = wr a ((rd a s &&& ~~~m) ||| (v &&& m)) s := by
  simp [plain, plainMask, hm, hc, hs, word_and_ones]

/-- A write of a W1C register (R6): a 1 clears its bit. -/
theorem plain_w1c {row : RegRow} {m : Word} (hm : BitVec.ofNat 32 row.w1c = m) (hr : row.rw = 0) (hs : row.w1s = 0) (w : Initiator) (a o : Nat) (v : Word) (s : State) :
    plain ⟨w, a, o, row, v.toNat⟩ s = wr a (rd a s &&& ~~~(v &&& m)) s := by
  simp [plain, plainMask, hm, hr, hs, word_and_ones]

/-- A write of a register without a bit that a write reaches (R6). -/
theorem plain_ro {row : RegRow} (hr : row.rw = 0) (hc : row.w1c = 0) (hs : row.w1s = 0) (w : Initiator) (a o v : Nat) (s : State) :
    plain ⟨w, a, o, row, v⟩ s = wr a (rd a s) s := by
  simp [plain, plainMask, hr, hc, hs, word_and_ones]

/-- A word of MEM outside its commands, written by Hearth. -/
theorem wrMem_plain {w : Initiator} {a o v : Nat} {row : RegRow} {s : State} (h : o = 0 ∨ o = 0x38) (hw : initWorld w s = true) :
    wrMem ⟨w, a, o, row, v⟩ s = plain ⟨w, a, o, row, v⟩ s := by
  obtain rfl | rfl := h
  · exact if_pos hw
  · exact if_pos hw

theorem wrFio_plain {w : Initiator} {a o v : Nat} {row : RegRow} {s : State} (h : o ≠ 0x110) : wrFio ⟨w, a, o, row, v⟩ s = plain ⟨w, a, o, row, v⟩ s :=
  if_neg h

/-! ### The registers of the statement, one of each access code -/

theorem exec_write_MEM_EVENT {w : Initiator} {s : State} (d : Word) (hl : Lets w R.MEM_EVENT true s) (hw : initWorld w (entered w R.MEM_EVENT s) = true) :
    exec (.registerWrite w (BitVec.ofNat 40 R.MEM_EVENT) .word d) s =
      .next (wr R.MEM_EVENT (rd R.MEM_EVENT (entered w R.MEM_EVENT s) &&& ~~~(d &&& 0x1F)) (ok (entered w R.MEM_EVENT s))) := by
  have hrow : rowAt R.MEM_EVENT = some ⟨0, [], 0, 0x1F, 0, 0, 0⟩ := by decide
  rw [exec_wordWrite d hl hrow (by decide) (by decide) (by decide) (by decide) rfl, writeReg_mem (by decide) (by decide),
    wrMem_plain (by decide) ((initWorld_ok ..).trans hw), plain_w1c (m := 0x1F) rfl rfl rfl, rd_ok]

theorem aiWin_mask : ~~~(0x0FFF0FFF : Word) = 0xF000F000 := by decide

theorem exec_write_FIO_AI_WIN {w : Initiator} {s : State} (d : Word) (hl : Lets w (R.FIO_AI_WIN_j 0) true s)
    (hp : cwyPosted (R.FIO_AI_WIN_j 0) (entered w (R.FIO_AI_WIN_j 0) s) = false) :
    exec (.registerWrite w (BitVec.ofNat 40 (R.FIO_AI_WIN_j 0)) .word d) s =
      .next (wr (R.FIO_AI_WIN_j 0) ((rd (R.FIO_AI_WIN_j 0) (entered w (R.FIO_AI_WIN_j 0) s) &&& 0xF000F000) ||| (d &&& 0x0FFF0FFF))
        (ok (entered w (R.FIO_AI_WIN_j 0) s))) := by
  have hrow : rowAt (R.FIO_AI_WIN_j 0) = some ⟨0x240, [(4, 16)], 0x0FFF0FFF, 0, 0, 0, 0x0FFF0000⟩ := by decide
  rw [exec_wordWrite d hl hrow (by decide) (by decide) (by decide) (by decide) (by rw [cwyPosted_ok, hp, Bool.and_false]), writeReg_fio (by decide) (by decide),
    wrFio_plain (by decide),
    plain_rw (m := 0x0FFF0FFF) rfl rfl rfl, rd_ok, aiWin_mask]

theorem exec_write_MEM_UNMAP_CNT {w : Initiator} {s : State} (d : Word) (hl : Lets w R.MEM_UNMAP_CNT true s)
    (hw : initWorld w (entered w R.MEM_UNMAP_CNT s) = true) :
    exec (.registerWrite w (BitVec.ofNat 40 R.MEM_UNMAP_CNT) .word d) s =
      .next (wr R.MEM_UNMAP_CNT (rd R.MEM_UNMAP_CNT (entered w R.MEM_UNMAP_CNT s)) (ok (entered w R.MEM_UNMAP_CNT s))) := by
  have hrow : rowAt R.MEM_UNMAP_CNT = some ⟨0x38, [], 0, 0, 0, 0, 0⟩ := by decide
  rw [exec_wordWrite d hl hrow (by decide) (by decide) (by decide) (by decide) rfl, writeReg_mem (by decide) (by decide),
    wrMem_plain (by decide) ((initWorld_ok ..).trans hw), plain_ro rfl rfl rfl, rd_ok]

/-- The write of a read-only register leaves it and every other one as they were. -/
theorem rd_wr_self (a b : Nat) (s : State) : rd b (wr a (rd a s) s) = rd b s := by
  rw [rd_wr]
  split
  next h => rw [h]
  next => rfl

/-! ### The debug port (R484, R641) -/

theorem exec_debugAccess (write : Bool) (addr : BitVec 40) (size : AccSize) (d : Word) (s : State) :
    exec (.debugAccess write addr size d) s = .next (if !debugPort s then s
      else if !islOpen islMEM s then busError s
      else if write then busWrite .debug addr.toNat (accBytes size) d.toNat s
      else busRead .debug addr.toNat (accBytes size) s) := rfl

theorem exec_debugAccess_unconnected {s : State} (h : debugPort s = false) (write : Bool) (addr : BitVec 40) (size : AccSize) (d : Word) :
    exec (.debugAccess write addr size d) s = .next s := by
  simp [exec_debugAccess, h]

theorem exec_debugAccess_closed {s : State} (h : debugPort s = true) (hm : islOpen islMEM s = false) (write : Bool) (addr : BitVec 40) (size : AccSize) (d : Word) :
    exec (.debugAccess write addr size d) s = .next (answer .failedBus 0 s) := by
  simp [exec_debugAccess, h, hm, busError]

theorem exec_debugAccess_write {s : State} (h : debugPort s = true) (hm : islOpen islMEM s = true) (addr : BitVec 40) (size : AccSize) (d : Word) :
    exec (.debugAccess true addr size d) s = exec (.registerWrite .debug addr size d) s := by
  simp [exec_debugAccess, exec_registerWrite, h, hm]

theorem exec_debugAccess_read {s : State} (h : debugPort s = true) (hm : islOpen islMEM s = true) (addr : BitVec 40) (size : AccSize) (d : Word) :
    exec (.debugAccess false addr size d) s = .next (busRead .debug addr.toNat (accBytes size) s) := by
  simp [exec_debugAccess, h, hm]

/-! ### The banks and the settings-flash window -/

theorem busWrite_banks {w : Initiator} {a n : Nat} {s : State} (ha : a % n = 0) (hl : Lets w a true s) (hb : inBanks a n = true) (d : Nat) :
    busWrite w a n d s = sealSettle (mwrN a n d (ok (entered w a s))) := by
  obtain ⟨hlo, hhi⟩ := bank_range hb
  have hp : ¬ 0x10000000 ≤ a := by omega
  rw [busWrite_lets ha (ownEntryAddr_low (by omega) s) hl, farWrite_direct (by simp [hp]), landWrite, landAt_banks hb]

theorem busWrite_flash {w : Initiator} {a n : Nat} {s : State} (ha : a % n = 0) (hl : Lets w a true s) (h : 0x20000000 ≤ a) (h' : a < 0x28000000) (d : Nat) :
    busWrite w a n d s = busError (ok (entered w a s)) := by
  have hp : ¬ a < 0x20000000 := by omega
  rw [busWrite_lets ha (ownEntryAddr_low h' s) hl, farWrite_direct (by simp [hp]), landWrite, landAt_flash h h']

theorem busRead_banks {w : Initiator} {a n : Nat} {s : State} (ha : a % n = 0) (hl : Lets w a false s) (hb : inBanks a n = true) :
    busRead w a n s = answer .done (mrdN a n (entered w a s)) (ok (entered w a s)) := by
  obtain ⟨hlo, hhi⟩ := bank_range hb
  rw [busRead_lets ha (ownEntryAddr_low (by omega) s) hl, landRead, landAt_banks hb, mrdN_ok]

/-- Settles O41: the checks in their order, then what lies at the address; the access codes on one register each; the merge bit by bit; the debug port. -/
theorem busAccesses : Obligations.BusAccesses := by
  refine ⟨fun w addr size d s => ⟨fun ha => ?_, fun ha ho => ?_, fun ha ho => ⟨fun hc => ?_, fun hc hh => ?_, fun hl hb => ?_, fun hl h h' => ?_⟩⟩,
    fun w d s hl hw => exec_write_MEM_EVENT d hl hw, fun w d s hl hp => exec_write_FIO_AI_WIN d hl hp,
    fun w d s hl hw => does_of (exec_write_MEM_UNMAP_CNT d hl hw) ⟨rfl, fun a => rfl, fun a _ => rd_wr_self _ a _⟩,
    fun a n data old rw k hn ha _ hk => testBit_mergedValue old rw hn ha hk,
    fun write addr size d s => ⟨fun hd => exec_debugAccess_unconnected hd .., fun hd hm => exec_debugAccess_closed hd hm .., fun hd hm hw => ?_,
      fun hd hm hw ha hl hb => ?_⟩⟩
  · rw [exec_registerWrite, busWrite, busAccess_misaligned ha]
  · rw [exec_registerWrite, busWrite, busAccess_unmapped ha ho]
  · rw [exec_registerWrite, busWrite, busAccess_mapped ha ho, regAccess_refused hc]
  · rw [exec_registerWrite, busWrite, busAccess_mapped ha ho, regAccess_closed hc hh]
  · rw [exec_registerWrite, busWrite_banks ha hl hb]
  · rw [exec_registerWrite, busWrite_flash ha hl h h']
  · rw [hw, exec_debugAccess_write hd hm]
  · rw [hw, exec_debugAccess_read hd hm, busRead_banks ha hl hb]

end Sys2Proof.Machine

/-!
What a request to an island does (O5).
-/
namespace Sys2Proof.Machine

/-! ### The command of a request, and its way to the island -/

/-- The command that writes a request of an initiator into ISL_CMD of an island. -/
def IslOp.command (w : Initiator) (i : Fin 21) : IslOp → Instr
  | .clockDown d => .clockDown w i d
  | .restore => .restore w i
  | .stop => .stop w i
  | .start => .start w i
  | .reset => .reset w i
  | .resetHold => .resetHold w i
  | .release => .release w i

theorem exec_islCommand (w : Initiator) (i : Fin 21) (op : IslOp) (s : State) :
    exec (op.command w i) s = .next (regCmd w (R.SYSCTL_ISL_CMD_i i.1) (islCmd w i op) s) := by
  cases op <;> rfl

/-- A request that the world gate does not stop (R481) is refused, or done. -/
theorem islCmd_admitted {w : Initiator} {i : Fin 21} {s : State} (hw : initWorld w s = true ∨ hearthIsland i s = false) (op : IslOp) :
    islCmd w i op s = if islRefused i op s then bad s else islDo i op s := by
  obtain hw | hw := hw <;> simp [islCmd, hw]

/-- A request that is let in and admitted answers an error, or does what its row of R21 says. -/
theorem exec_islCommand_admitted {w : Initiator} {i : Fin 21} {s : State} (hl : Lets w (R.SYSCTL_ISL_CMD_i i.1) true s)
    (hw : initWorld w (ok (entered w (R.SYSCTL_ISL_CMD_i i.1) s)) = true ∨ hearthIsland i (ok (entered w (R.SYSCTL_ISL_CMD_i i.1) s)) = false) (op : IslOp) :
    exec (op.command w i) s = .next (if islRefused i op (ok (entered w (R.SYSCTL_ISL_CMD_i i.1) s)) then bad (ok (entered w (R.SYSCTL_ISL_CMD_i i.1) s))
      else islDo i op (ok (entered w (R.SYSCTL_ISL_CMD_i i.1) s))) := by
  rw [exec_islCommand, regCmd_lets hl, islCmd_admitted hw]

/-! ### An island after a change -/

@[simp] theorem upd_get_same {α : Type} {n : Nat} (v : Vector α n) (i : Fin n) (f : α → α) : (upd v i f)[i.1] = f v[i.1] := by
  simp [upd_get]

@[simp] theorem islSt_updIsl (i : Fin 21) (f : Island → Island) (s : State) : islSt i (updIsl i f s) = (f s.isl[i.1]).st := by
  simp [islSt]

/-! ### The rows of R21: what a request does in the state its island is in -/

section
variable {i : Fin 21} {s : State}

theorem islDo_clockDown_run (h : islSt i s = .run) (d : Fin 4) : islDo i (.clockDown d) s = updIsl i (fun x => { x with st := .slow, div := d.1 }) s := by
  simp only [islDo, show s.isl[i.1].st = .run from h]

theorem islDo_restore_slow (h : islSt i s = .slow) : islDo i .restore s = updIsl i (fun x => { x with st := .run, div := 0 }) s := by
  simp only [islDo, show s.isl[i.1].st = .slow from h]

/-- A STOP waits for the keep-alive vote of the island (R482). -/
theorem islDo_stop_open (h : islSt i s = .run ∨ islSt i s = .slow) :
    islDo i .stop s = if fbit F.OWN_KEEPALIVE i.1 s then updIsl i (fun x => { x with held := true }) s else stopIsland i s := by
  obtain h | h := h <;> simp only [islDo, show s.isl[i.1].st = _ from h]

theorem islDo_start_stopped (h : islSt i s = .stopped) : islDo i .start s = startIsland i s := by
  simp only [islDo, show s.isl[i.1].st = .stopped from h]

theorem islDo_reset_open (h : islSt i s = .run ∨ islSt i s = .slow) (hold : Bool) :
    islDo i (if hold then .resetHold else .reset) s = resetIsland i hold s := by
  obtain h | h := h <;> cases hold <;> simp only [islDo, show s.isl[i.1].st = _ from h] <;> rfl

theorem islDo_release_held (h : islSt i s = .reset) (hh : s.isl[i.1].holdRec = true) : islDo i .release s = startIsland i s := by
  simp [islDo, show s.isl[i.1].st = .reset from h, hh]

end

/-! ### Drains that begin -/

/-- An island without cameras has no frames to close before it drains (R135). -/
theorem stopIsland_without_cams {i : Fin 21} (h : islCams i = []) (s : State) :
    stopIsland i s = updIsl i (fun x => { x with st := .draining, resetRec := false, holdRec := false, held := false, drainDue := drainEnd s }) s := by
  simp [stopIsland, h]

/-- The reset of an island other than TA and TB moves no mastership (R636). -/
theorem resetIsland_without_time {i : Fin 21} (h : i ≠ islTA ∧ i ≠ islTB) (hold : Bool) (s : State) :
    resetIsland i hold s = updIsl i (fun x => { x with st := .draining, resetRec := true, holdRec := hold, held := false, drainDue := drainEnd s }) s := by
  simp [resetIsland, h]

theorem stopIsland_drains (i : Fin 21) (s : State) :
    islSt i (stopIsland i s) = .draining ∧ (stopIsland i s).isl[i.1].resetRec = false ∧ (stopIsland i s).isl[i.1].held = false := by
  simp [stopIsland]

theorem resetIsland_drains (i : Fin 21) (hold : Bool) (s : State) :
    islSt i (resetIsland i hold s) = .draining ∧ (resetIsland i hold s).isl[i.1].resetRec = true ∧ (resetIsland i hold s).isl[i.1].holdRec = hold := by
  simp [resetIsland]

/-- Settles O5: each command reaches the island as its request, and each row of R21 is one equation of `islDo`. -/
theorem islandRequestsMoveTheIsland : Obligations.IslandRequestsMoveTheIsland := by
  intro w i d s hl u hw
  have refused (op : IslOp) (hr : islRefused i op (ok u) = true) : exec (op.command w i) s = .next (bad (ok u)) := by
    rw [exec_islCommand_admitted hl hw, if_pos hr]
  have taken (op : IslOp) {t : State} (hr : islRefused i op (ok u) = false) (hdo : islDo i op (ok u) = t) : exec (op.command w i) s = .next t := by
    rw [exec_islCommand_admitted hl hw, if_neg (Bool.eq_false_iff.1 hr), hdo]
  refine ⟨fun op c hc hr => ?_, fun hr h => taken (.clockDown d) hr (islDo_clockDown_run (s := ok u) h d), fun hr h => taken .restore hr (islDo_restore_slow h),
    fun hr h hk => ?_, fun hr h hk => ?_, fun hr h => taken .start hr (islDo_start_stopped h), fun hold hr h => ?_,
    fun hr h hh => taken .release hr (islDo_release_held h hh)⟩
  · have hcmd : c = op.command w i := by
      simp only [List.mem_cons, Prod.mk.injEq, List.not_mem_nil, or_false] at hc
      obtain ⟨rfl, rfl⟩ | ⟨rfl, rfl⟩ | ⟨rfl, rfl⟩ | ⟨rfl, rfl⟩ | ⟨rfl, rfl⟩ | ⟨rfl, rfl⟩ | ⟨rfl, rfl⟩ := hc <;> rfl
    rw [hcmd, refused op hr]
  · obtain ⟨hst, hrec, hheld⟩ := stopIsland_drains i (ok u)
    exact does_of (taken .stop hr ((islDo_stop_open (s := ok u) h).trans (if_neg (Bool.eq_false_iff.1 hk)))) ⟨hst, hrec, hheld, fun hc => stopIsland_without_cams hc (ok u)⟩
  · exact taken .stop hr ((islDo_stop_open (s := ok u) h).trans (if_pos hk))
  · obtain ⟨hst, hrec, hhold⟩ := resetIsland_drains i hold (ok u)
    have hcmd : exec (if hold then .resetHold w i else .reset w i) s = .next (resetIsland i hold (ok u)) := by
      cases hold with
      | false => exact taken .reset hr (islDo_reset_open (s := ok u) h false)
      | true => exact taken .resetHold hr (islDo_reset_open (s := ok u) h true)
    exact does_of hcmd ⟨hst, hrec, hhold, fun hi => resetIsland_without_time hi hold (ok u)⟩

end Sys2Proof.Machine

/-!
How drains, resets and starts of islands end, and what the loss of a domain or of a pair does (O6).
-/
namespace Sys2Proof.Machine

/-! ### Event bits beside other writes -/

theorem fbit_wr_other (f : Fld) {a : Nat} (n : Nat) (v : Word) (s : State) (h : f.addr ≠ a) : fbit f n (wr a v s) = fbit f n s := by
  simp [fbit, rd_wr, h]

/-- The events of a register stay over a write of a field of another one. -/
theorem fbit_fput_other (f g : Fld) (n v : Nat) (s : State) (h : f.addr ≠ g.addr) : fbit f n (fput g v s) = fbit f n s := fbit_wr_other f n _ s h

theorem fbit_bump_other (f : Fld) {a : Nat} (n : Nat) (s : State) (h : f.addr ≠ a) : fbit f n (bump a s) = fbit f n s := fbit_wr_other f n _ s h

theorem fbit_raise_other (f g : Fld) (n k : Nat) (s : State) (h : f.addr ≠ g.addr) : fbit f n (raise g k s) = fbit f n s := fbit_wr_other f n _ s h

/-! ### The end of a drain (R21, R575) -/

section
variable {i : Fin 21} {s : State}

theorem islSt_raise (j : Fin 21) (f : Fld) (n : Nat) (s : State) : islSt j (raise f n s) = islSt j s := rfl

@[simp] theorem islSt_enterReset (i : Fin 21) (st : Status) (s : State) : islSt i (enterReset i st s) = .reset := by
  simp [islSt, enterReset]

theorem lastIsland_enterReset (i : Fin 21) (st : Status) (s : State) : fget F.SYSCTL_RESET_CAUSE_LAST_ISLAND (enterReset i st s) = i.1 := by
  rw [enterReset, fget_fput_same _ _ _ (by decide)]
  exact Nat.mod_eq_of_lt (Nat.lt_trans i.2 (by decide))

/-- An island that enters RESET raises ISL_RESET. -/
theorem resetEvent_enterReset (i : Fin 21) (st : Status) (s : State) : fbit F.SYSCTL_EVENT 0 (enterReset i st s) = true := by
  rw [enterReset, fbit_fput_other _ _ _ _ _ (by decide), fbit_fput_other _ _ _ _ _ (by decide), fbit_bump_other _ _ _ (by decide), fbit_raise _ _ _ (by decide)]

theorem drainOver_reset (h : islSt i s = .draining) (hr : s.isl[i.1].resetRec = true) : drainOver i s = enterReset i .abortedReset s := by
  simp [drainOver, show s.isl[i.1].st = .draining from h, hr]

theorem drainOver_stop (h : islSt i s = .draining) (hr : s.isl[i.1].resetRec = false) :
    drainOver i s = updIsl i (fun x => { x with st := .stopped, div := 0 }) (islandDown i .abortedIslandOff s) := by
  simp [drainOver, show s.isl[i.1].st = .draining from h, hr]

/-! ### What each row does in the state it waits for -/

theorem exec_drainComplete (i : Fin 21) (s : State) : exec (.drainComplete i) s = .next (if openTrans i s then s else drainOver i s) := rfl

theorem exec_drainTimerExpire (h : islSt i s = .draining) (ht : s.isl[i.1].drainDue ≤ s.now) : exec (.drainTimerExpire i) s = .next (drainOver i s) := by
  change Host.Outcome.next (if islSt i s = .draining then drainOver i (elapseTo s.isl[i.1].drainDue s) else s) = _
  rw [if_pos h, elapseTo_past ht]

theorem exec_resetComplete (i : Fin 21) (s : State) :
    exec (.resetComplete i) s = .next (if islSt i s = .reset ∧ s.isl[i.1].holdRec = false then startIsland i s else s) := rfl

theorem exec_clockStable (h : islSt i s = .starting) : exec (.clockStable i) s = .next (islandUp i s) := by
  change Host.Outcome.next (if islSt i s = .starting then islandUp i s else s) = _
  rw [if_pos h]

/-- An island without a hart or an engine that no stage and no thermal limit holds starts to no other state (R564, R565, R570). -/
theorem blwTakes_free (hc : clusterHarts i = []) (hg : groupEngines i = []) (hb : blwStopsIsl i s = false) (ht : s.blw.thermOn = false) :
    blwTakes i s = s := by
  simp [blwTakes, hc, hg, hb, ht]

theorem islandUp_free (h0 : i ≠ islSW0) (h1 : i ≠ islSW1) (hc : clusterHarts i = []) (hg : groupEngines i = []) (hb : blwStopsIsl i s = false)
    (ht : s.blw.thermOn = false) : islandUp i s = updIsl i (fun x => { x with st := .run, div := 0 }) s := by
  rw [islandUp, if_neg h0, if_neg h1]
  exact blwTakes_free hc hg hb ht

theorem exec_responseDiscard_down (h : islSt i s = .stopped ∨ islSt i s = .reset ∨ islSt i s = .off) :
    exec (.responseDiscard i) s = .next (raise F.SYSCTL_EVENT 1 (bump R.SYSCTL_DISCARD_CNT s)) := by
  change execResponseDiscard i s = _
  obtain h | h | h := h <;> simp only [execResponseDiscard, h]

end

/-! ### Domains and pairs -/

theorem exec_domainLost (d : Domain) (s : State) : exec (.domainLost d) s = .next (domainLost d s) := rfl

theorem domainLost_again {d : Domain} {s : State} (h : railOk d s = false) : domainLost d s = s := by
  simp [domainLost, h]

/-- A pair whose island runs is reset and held, and shown. -/
theorem exec_lockstep_open {p : Fin 4} {s : State} (h : islOpen (islL p) s = true) :
    exec (.lockstep p) s = .next (raise F.SYSCTL_EVENT 2 (raise F.SYSCTL_LS_STAT p.1
      (updIsl (islL p) (fun x => { x with holdRec := true }) (enterReset (islL p) .abortedIslandOff s)))) := by
  change execLockstep p s = _
  cases hst : islSt (islL p) s <;> simp only [islOpen, hst, Bool.false_eq_true] at h <;> simp only [execLockstep, hst]

/-- What is seen of a pair after LOCKSTEP (R579). -/
theorem lockstep_holds {p : Fin 4} {s : State} (h : islOpen (islL p) s = true) :
    Does (.lockstep p) s fun t => islSt (islL p) t = .reset ∧ t.isl[(islL p).1].holdRec = true ∧ fbit F.SYSCTL_LS_STAT p.1 t = true ∧ fbit F.SYSCTL_EVENT 2 t = true := by
  have hp : F.SYSCTL_LS_STAT.lo + p.1 < 32 := by
    simp only [F.SYSCTL_LS_STAT]
    omega
  refine does_of (exec_lockstep_open h) ⟨?_, ?_, ?_, fbit_raise _ _ _ (by decide)⟩
  · rw [islSt_raise, islSt_raise, islSt_updIsl]
    exact islSt_enterReset ..
  · simp
  · rw [fbit_raise_other _ _ _ _ _ (by decide), fbit_raise _ _ _ hp]

/-- Settles O6: each row is one equation in the state it waits for; what a reset shows is said once, of `enterReset`. -/
theorem islandAndDomainEvents : Obligations.IslandAndDomainEvents := by
  refine ⟨⟨fun i s h => ⟨fun ho => ?_, fun ho => ?_, exec_drainTimerExpire h, fun hr => ?_, fun hr => ?_⟩, fun i s h hh => ?_, fun i s _ hh => ?_,
    fun i s h => exec_clockStable h, fun i s h h0 h1 hc hg hb ht => ?_, fun i s h => exec_responseDiscard_down h⟩,
    fun d s h => ?_, fun d s h => ?_, fun d s => rfl, fun p s h => lockstep_holds h⟩
  · simp [exec_drainComplete, ho]
  · simp [exec_drainComplete, ho]
  · simp [drainOver_stop h hr]
  · rw [drainOver_reset h hr]
    exact ⟨islSt_enterReset .., lastIsland_enterReset .., resetEvent_enterReset ..⟩
  · rw [exec_resetComplete, if_pos ⟨h, hh⟩, startIsland]
  · simp [exec_resetComplete, hh]
  · rw [exec_clockStable h, islandUp_free h0 h1 hc hg hb ht]
  · simp [exec_domainLost, domainLost, h, whenB]
  · rw [exec_domainLost, domainLost_again h]

end Sys2Proof.Machine

/-!
Control of the power die and its OTP records (O40).
-/
namespace Sys2Proof.Machine

/-! ### Claim and park (R386, R387) -/

theorem exec_loadchClaim {w : Initiator} {s : State} (hl : Lets w R.LOADCH_CTRL true s) :
    exec (.loadchClaim w) s = .next (loadchClaim (ok (entered w R.LOADCH_CTRL s))) := congrArg _ (regCmd_lets hl _)

theorem exec_park {w : Initiator} {s : State} (hl : Lets w R.LOADCH_CTRL true s) :
    exec (.park w) s = .next (loadchPark (ok (entered w R.LOADCH_CTRL s))) := congrArg _ (regCmd_lets hl _)

section
variable {s : State}

theorem loadchClaim_taken (hc : cstate s ≠ 2) (ha : laneAlive s = true) :
    loadchClaim s = raise F.LOADCH_EVENT 3 (setCstate 2 (forCh claimOne s)) := by
  simp only [loadchClaim, ha, csControlled, beq_eq_false_iff_ne.2 hc]
  rfl

theorem loadchClaim_ignored (h : cstate s = 2 ∨ laneAlive s = false) : loadchClaim s = s := by
  obtain h | h := h <;> simp [loadchClaim, csControlled, h]

theorem loadchPark_taken (h : cstate s = 2) : loadchPark s = setCstate 3 s := by
  simp [loadchPark, csControlled, csParked, h]

theorem loadchPark_ignored (h : cstate s ≠ 2) : loadchPark s = s := by
  simp [loadchPark, csControlled, h]

/-! ### Loss of control, and the hold timers (R386) -/

theorem exec_controlLost_silent (hc : cstate s = 2) (ha : laneAlive s = false) (ht : s.pd.silent + 1000000 ≤ s.now) :
    exec (.controlLost false) s = .next (loseControl s) := by
  change Host.Outcome.next (if cstate s == csControlled && !laneAlive s then loseControl (elapseTo (s.pd.silent + 1000000) s) else s) = _
  rw [elapseTo_past ht, if_pos (by simp [csControlled, hc, ha])]

theorem resetNotice_taken (ha : laneAlive s = true) (h : cstate s = 2 ∨ cstate s = 3) : resetNotice s = loseControl s := by
  obtain h | h := h <;> simp [resetNotice, csControlled, csParked, ha, h]

/-- An expired hold timer puts its output into the limp state; the last one ends HOLDING. -/
theorem exec_tHoldExpire_due {n : Fin 48} {t : Nat} (hd : (pdCh n s).holdDue = some t) (ht : t ≤ s.now) :
    let v := raise (F.LOADCH_CH_EVENT_n_EVENT n.1) 6
      (chChange n (fun s => fput (F.LOADCH_CH_STAT_n_LIMPED n.1) 1 (updCh n (fun c => { c with mode := .limp, holdDue := none }) s)) s)
    exec (.tHoldExpire n) s = .next (if cstate v = 0 ∧ allCh.all (fun m => (pdCh m v).holdDue.isNone) = true then raise F.LOADCH_EVENT 2 (setCstate 1 v) else v) := by
  intro v
  change execTHoldExpire n s = _
  simp only [execTHoldExpire, hd, elapseTo_past ht, Bool.and_eq_true, beq_iff_eq]
  rfl

/-! ### The restart (R386, R388) -/

/-- The power die at its restart, before the OTP records are applied. -/
def pdCleared (s : State) : State :=
  updPd (fun p => { PdSt.init with cq := p.cq, nmq := p.nmq, otp := p.otp, unread := p.unread, silent := p.silent, lastApply := p.lastApply }) s
    |> dropRegs R.LOADCH_CTRL (R.LOADCH_CTRL + 4) |> dropRegs (R.LOADCH_TG_CFG_g 0) (R.LOADCH_BUDGET + 8) |> dropRegs 0x10220000 0x10230000
    |> dropRegs 0x10240000 0x10250000 |> fput F.LOADCH_STATUS_CSTATE csHolding |> fput F.LOADCH_STATUS_STAGE 0

/-- A restart that meets no test ends no command. -/
theorem pdRestart_without_tests (h : s.pd.tests = []) :
    pdRestart s = raise F.LOADCH_EVENT 14 (startHolds (forCh restartOne (forCh applyOtp (pdCleared s)))) := by
  simp only [pdRestart, h, List.foldl_nil]
  rfl

theorem cstate_pdCleared (s : State) : cstate (pdCleared s) = 0 := by
  rw [cstate, pdCleared, fget_fput_beside F.LOADCH_STATUS_STAGE F.LOADCH_STATUS_CSTATE _ _ rfl (by decide) (by decide), fget_fput_same _ _ _ (by decide)]
  rfl

theorem stage_pdCleared (s : State) : fget F.LOADCH_STATUS_STAGE (pdCleared s) = 0 := by
  rw [pdCleared, fget_fput_same _ _ _ (by decide)]
  rfl

/-! ### The lanes of the interface (R15) -/

/-- The bit of STATUS that shows a lane alive. -/
def laneFld (b : Bool) : Fld := if b then F.LOADCH_STATUS_LANE_B else F.LOADCH_STATUS_LANE_A

/-- A lane shown lost, with LANE_LOSS raised. -/
def laneDown (b : Bool) (s : State) : State := raise F.LOADCH_EVENT 0 (fput (laneFld b) 0 s)

/-- The state after the loss of a lane that was alive: the second one lost marks the instant from which the die is silent. -/
def laneLost (b : Bool) (s : State) : State :=
  if laneAlive (laneDown b s) then laneDown b s else updPd (fun p => { p with silent := s.now }) (laneDown b s)

theorem exec_laneLoss {b : Bool} (h : ftst (laneFld b) s = true) : exec (.laneLoss b) s = .next (laneLost b s) := by
  change execLaneLoss b s = _
  simp only [execLaneLoss, show (if b then F.LOADCH_STATUS_LANE_B else F.LOADCH_STATUS_LANE_A) = laneFld b from rfl, h]
  rfl

theorem laneFld_laneDown (b : Bool) (s : State) : ftst (laneFld b) (laneDown b s) = false := by
  have ha : (laneFld b).addr ≠ F.LOADCH_EVENT.addr := by cases b <;> decide
  have hh : (laneFld b).hi < 32 := by cases b <;> decide
  rw [ftst, laneDown, raise, fget_wr_other _ _ _ ha, fget_fput_same _ _ _ hh, Nat.zero_mod]
  rfl

theorem event_laneDown (b : Bool) (s : State) : fbit F.LOADCH_EVENT 0 (laneDown b s) = true := fbit_raise _ _ _ (by decide)

theorem laneLost_shows (b : Bool) (s : State) : ftst (laneFld b) (laneLost b s) = false ∧ fbit F.LOADCH_EVENT 0 (laneLost b s) = true ∧
    (laneLost b s).pd.ch = s.pd.ch ∧ (laneLost b s).mem = s.mem ∧ (laneAlive (laneLost b s) = false → (laneLost b s).pd.silent = s.now) := by
  by_cases ha : laneAlive (laneDown b s) = true
  · rw [laneLost, if_pos ha]
    exact ⟨laneFld_laneDown b s, event_laneDown b s, rfl, rfl, fun h => absurd ha (Bool.eq_false_iff.1 h)⟩
  · rw [laneLost, if_neg ha]
    exact ⟨laneFld_laneDown b s, event_laneDown b s, rfl, rfl, fun _ => rfl⟩

/-! ### The stages the die measures (R382) -/

theorem exec_pdVbatSample (h : cstate s ≠ 2) (mv : Nat) :
    let v := updPd (fun p => (List.finRange 4).foldl (fun p k => stageSample mv k p) p) s
    exec (.pdVbatSample mv) s = .next (applyStage (ownStage v) v) :=
  congrArg _ (if_neg (by simp [csControlled, h]))

/-- The sample that completes 10 ms below the threshold enters the stage. -/
theorem stageSample_enters {k : Fin 4} {mv : Nat} {p : PdSt} (hi : p.stageIn[k.1] = false) (hm : mv < p.th[k.1]) (hc : p.stageCnt[k.1] = 100) :
    (stageSample mv k p).stageIn[k.1] = true := by
  simp [stageSample, hi, hm, hc]

/-! ### The OTP records (R402) -/

theorem exec_otpRead {w : Initiator} (hl : Lets w R.LOADCH_OTP_CMD true s) :
    exec (.otpRead w) s = .next (otpRead (ok (entered w R.LOADCH_OTP_CMD s))) := congrArg _ (regCmd_lets hl _)

theorem exec_otpProg {w : Initiator} (hl : Lets w R.LOADCH_OTP_CMD true s) :
    exec (.otpProg w) s = .next (otpProg w (ok (entered w R.LOADCH_OTP_CMD s))) := congrArg _ (regCmd_lets hl _)

/-- The record that the four words of OTP_DATA hold. -/
def otpWords (s : State) : Word × Word × Word × Word :=
  (rd (R.LOADCH_OTP_DATA_k 0) s, rd (R.LOADCH_OTP_DATA_k 1) s, rd (R.LOADCH_OTP_DATA_k 2) s, rd (R.LOADCH_OTP_DATA_k 3) s)

/-- A record in the four words of OTP_DATA. -/
def otpShown (r : Word × Word × Word × Word) (s : State) : State :=
  s |> wr (R.LOADCH_OTP_DATA_k 0) r.1 |> wr (R.LOADCH_OTP_DATA_k 1) r.2.1 |> wr (R.LOADCH_OTP_DATA_k 2) r.2.2.1 |> wr (R.LOADCH_OTP_DATA_k 3) r.2.2.2

theorem otpWords_shown (r : Word × Word × Word × Word) (s : State) : otpWords (otpShown r s) = r := by
  simp [otpWords, otpShown, rd_wr, R.LOADCH_OTP_DATA_k]

theorem otpIdx_shown (r : Word × Word × Word × Word) (s : State) : fget F.LOADCH_OTP_IDX (otpShown r s) = fget F.LOADCH_OTP_IDX s := by
  simp [fget, otpShown, rd_wr, F.LOADCH_OTP_IDX, R.LOADCH_OTP_IDX, R.LOADCH_OTP_DATA_k]

/-- OTP_STATUS with a result, and with what is programmed. -/
def otpEnd (st : Status) (s : State) : State := showOtp (fput F.LOADCH_OTP_STATUS_RESULT st.code s)

theorem otpEnd_pd (st : Status) (s : State) : (otpEnd st s).pd = s.pd := rfl

theorem otpWords_otpEnd (st : Status) (s : State) : otpWords (otpEnd st s) = otpWords s := by
  simp [otpWords, otpEnd, showOtp, fput, rd_wr, R.LOADCH_OTP_DATA_k, F.LOADCH_OTP_STATUS_RESULT, F.LOADCH_OTP_STATUS_PROGRAMMED, R.LOADCH_OTP_STATUS]

theorem otpResult_otpEnd (st : Status) (s : State) : fget F.LOADCH_OTP_STATUS_RESULT (otpEnd st s) = st.code := by
  rw [otpEnd, showOtp, fget_fput_beside F.LOADCH_OTP_STATUS_PROGRAMMED F.LOADCH_OTP_STATUS_RESULT _ _ rfl (by decide) (by decide), fget_fput_same _ _ _ (by decide)]
  cases st <;> rfl

theorem otpProgrammed_otpEnd {n : Fin 48} (hi : fget F.LOADCH_OTP_IDX s = n.1) (he : chExists n.1 = true) (ho : s.pd.otp[n.1].isSome = true) (st : Status) :
    fget F.LOADCH_OTP_STATUS_PROGRAMMED (otpEnd st s) = 1 := by
  have hi' : fget F.LOADCH_OTP_IDX (fput F.LOADCH_OTP_STATUS_RESULT st.code s) = n.1 := (fget_fput_other _ _ _ _ (by decide)).trans hi
  rw [otpEnd, showOtp, fget_fput_same _ _ _ (by decide), hi']
  simp [he, ho, F.LOADCH_OTP_STATUS_PROGRAMMED]

theorem otpRead_programmed {n : Fin 48} {r : Word × Word × Word × Word} (hi : fget F.LOADCH_OTP_IDX s = n.1) (he : chExists n.1 = true)
    (ho : s.pd.otp[n.1] = some r) : otpRead s = otpEnd .done (otpShown r s) := by
  simp [otpRead, hi, he, ho, otpShown, otpEnd]

theorem otpProg_refused {n : Fin 48} (hi : fget F.LOADCH_OTP_IDX s = n.1) (ho : s.pd.otp[n.1] ≠ none) (w : Initiator) :
    otpProg w s = otpEnd .failedRefused s := by
  simp [otpProg, otpEnd, hi, Option.isSome_iff_ne_none.2 ho]

theorem otpProg_taken {w : Initiator} {n : Fin 48} (hi : fget F.LOADCH_OTP_IDX s = n.1) (he : chExists n.1 = true) (ho : s.pd.otp[n.1] = none)
    (hw : initWorld w s = true) (hlo : 12000 ≤ fget F.BLW_VBAT_MV s) (hhi : fget F.BLW_VBAT_MV s ≤ 16000) :
    otpProg w s = otpEnd .done (updPd (fun p => { p with otp := upd p.otp n fun _ => some (otpWords s) }) s) := by
  have hlow : ¬ fget F.BLW_VBAT_MV s < 12000 := Nat.not_lt.2 hlo
  have hhigh : ¬ 16000 < fget F.BLW_VBAT_MV s := Nat.not_lt.2 hhi
  simp [otpProg, otpEnd, hi, he, ho, hw, hlow, hhigh, otpWords]

/-- READ of a programmed record. -/
theorem otpRead_shows {n : Fin 48} {r : Word × Word × Word × Word} (hi : fget F.LOADCH_OTP_IDX s = n.1) (he : chExists n.1 = true)
    (ho : s.pd.otp[n.1] = some r) : otpWords (otpRead s) = r ∧ fget F.LOADCH_OTP_STATUS_RESULT (otpRead s) = 0 ∧
      fget F.LOADCH_OTP_STATUS_PROGRAMMED (otpRead s) = 1 ∧ (otpRead s).pd = s.pd := by
  rw [otpRead_programmed hi he ho]
  have hs : (otpShown r s).pd.otp[n.1].isSome = true := by simp [otpShown, ho]
  exact ⟨(otpWords_otpEnd ..).trans (otpWords_shown ..), otpResult_otpEnd .., otpProgrammed_otpEnd ((otpIdx_shown ..).trans hi) he hs _, rfl⟩

/-- PROG of a record that is not programmed, in the normal range of VBAT. -/
theorem otpProg_shows {w : Initiator} {n : Fin 48} (hi : fget F.LOADCH_OTP_IDX s = n.1) (he : chExists n.1 = true) (ho : s.pd.otp[n.1] = none)
    (hw : initWorld w s = true) (hlo : 12000 ≤ fget F.BLW_VBAT_MV s) (hhi : fget F.BLW_VBAT_MV s ≤ 16000) :
    (otpProg w s).pd.otp[n.1] = some (otpWords s) ∧ fget F.LOADCH_OTP_STATUS_RESULT (otpProg w s) = 0 ∧ (otpProg w s).mem = s.mem := by
  rw [otpProg_taken hi he ho hw hlo hhi]
  refine ⟨?_, otpResult_otpEnd .., rfl⟩
  rw [otpEnd_pd]
  exact upd_get_same ..

end

/-- Settles O40: the claim, the lanes, the restart and the OTP records, each by its own equation. -/
theorem loadChannelControl : Obligations.LoadChannelControl := by
  refine ⟨fun w s hl => ?_, fun s => rfl, fun s => exec_controlLost_silent, fun s => resetNotice_taken, fun n t s => exec_tHoldExpire_due, fun s => rfl,
    fun s h => ⟨pdCleared s, pdRestart_without_tests h, cstate_pdCleared s, stage_pdCleared s, rfl, rfl, rfl, rfl⟩,
    fun b s => ⟨fun h => does_of (exec_laneLoss h) (laneLost_shows b s), rfl⟩, fun mv s h => exec_pdVbatSample h mv, fun k mv p => stageSample_enters,
    fun w n s hl => ?_, fun w s hl => congrArg _ (regCmd_lets hl _)⟩
  · intro u
    exact ⟨fun hc ha => (exec_loadchClaim hl).trans (congrArg _ (loadchClaim_taken (s := ok u) hc ha)),
      fun h => (exec_loadchClaim hl).trans (congrArg _ (loadchClaim_ignored (s := ok u) h)),
      fun h => (exec_park hl).trans (congrArg _ (loadchPark_taken (s := ok u) h)),
      fun h => (exec_park hl).trans (congrArg _ (loadchPark_ignored (s := ok u) h))⟩
  · intro u hi he
    refine ⟨fun a b c d ho => ?_, fun ho hw hlo hhi => does_of (exec_otpProg hl) (otpProg_shows (s := ok u) hi he ho hw hlo hhi), fun ho => ?_⟩
    · obtain ⟨hdata, hrest⟩ := otpRead_shows (s := ok u) hi he ho
      simp only [otpWords, Prod.mk.injEq] at hdata
      obtain ⟨h0, h1, h2, h3⟩ := hdata
      exact does_of (exec_otpRead hl) ⟨h0, h1, h2, h3, hrest⟩
    · have hprog : otpProg w (ok u) = otpEnd .failedRefused (ok u) := otpProg_refused (s := ok u) hi ho w
      exact does_of ((exec_otpProg hl).trans (congrArg _ hprog)) ⟨rfl, otpResult_otpEnd .failedRefused (ok u)⟩

end Sys2Proof.Machine

/-!
Triggers: START and STOP, the instants, the leading edge and the ends of pulses (O9).
-/
namespace Sys2Proof.Machine

/-! ### Fields beside other writes -/

theorem fget_clearRegs_other {f : Fld} {as : List Nat} (s : State) (h : f.addr ∉ as) : fget f (clearRegs as s) = fget f s := by
  simp only [fget, rd_clearRegs, h, if_false]

theorem fget_clearRegs_mem {f : Fld} {as : List Nat} (s : State) (h : f.addr ∈ as) : fget f (clearRegs as s) = 0 := by
  simp [fget, rd_clearRegs, h, bits]

@[simp] theorem clearRegs_mem (as : List Nat) (s : State) : (clearRegs as s).mem = s.mem := by
  induction as generalizing s with
  | nil => rfl
  | cons a as ih => exact ih (wr a 0 s)

@[simp] theorem clearRegs_trg (as : List Nat) (s : State) : (clearRegs as s).trg = s.trg := by
  induction as generalizing s with
  | nil => rfl
  | cons a as ih => exact ih (wr a 0 s)

theorem elapseVt_past {v : Nat} {s : State} (h : v ≤ vt s) : elapseVt v s = s := by
  have hd : (v : Int) - vt s ≤ 0 := by omega
  simp only [elapseVt, if_pos hd]

/-! ### The state of a trigger -/

section
variable {n : Fin 16} {s : State}

theorem trgState_putTrgState (n : Fin 16) (st : Nat) (s : State) : trgState n (putTrgState n st s) = st % 4 :=
  fget_fput_same (F.TRG_STATUS_n_STATE n.1) st s (by decide : 1 < 32)

/-- A write of LEVEL leaves STATE, and one of STATE leaves LEVEL. -/
theorem trgState_fput_level (n : Fin 16) (v : Nat) (s : State) : trgState n (fput (F.TRG_STATUS_n_LEVEL n.1) v s) = trgState n s :=
  fget_fput_beside (F.TRG_STATUS_n_LEVEL n.1) (F.TRG_STATUS_n_STATE n.1) v s rfl (by decide : 1 < 32) (.inl (by decide : 1 < 2))

theorem level_putTrgState (n : Fin 16) (st : Nat) (s : State) : fget (F.TRG_STATUS_n_LEVEL n.1) (putTrgState n st s) = fget (F.TRG_STATUS_n_LEVEL n.1) s :=
  fget_fput_beside (F.TRG_STATUS_n_STATE n.1) (F.TRG_STATUS_n_LEVEL n.1) st s rfl (by decide : 2 < 32) (.inr (by decide : 1 < 2))

@[simp] theorem putTrgState_time (n : Fin 16) (st : Nat) (s : State) : (putTrgState n st s).time = s.time := rfl

@[simp] theorem putTrgState_trg (n : Fin 16) (st : Nat) (s : State) : (putTrgState n st s).trg = s.trg := rfl

@[simp] theorem putTrgState_mem (n : Fin 16) (st : Nat) (s : State) : (putTrgState n st s).mem = s.mem := rfl

/-! ### START and STOP (R107, R108) -/

theorem exec_trgStart {w : Initiator} (hl : Lets w (R.TRG_CMD_n n.1) true s) :
    exec (.trgStart w n) s = .next (trgStart n (ok (entered w (R.TRG_CMD_n n.1) s))) := congrArg _ (regCmd_lets hl _)

theorem exec_trgStop {w : Initiator} (hl : Lets w (R.TRG_CMD_n n.1) true s) :
    exec (.trgStop w n) s = .next (trgStop n (ok (entered w (R.TRG_CMD_n n.1) s))) := congrArg _ (regCmd_lets hl _)

/-- The index of the first instant that a START now reaches: none earlier than 2 us after VT (R107). -/
def startIndex (n : Fin 16) (s : State) : Nat := firstIndex n (vt16 s + 2000 * 65536 + (if vt s % 2 ^ 32 = 0 then 0 else 1)) s

theorem trgStart_idle (hi : trgState n s = trgIdle) (hv : trgValid n s = true) :
    trgStart n s = clearRegs [R.TRG_EDGE_IDX_n n.1, R.TRG_SKIP_CNT_n n.1]
      (updTrg n (fun t => { t with next := startIndex n s, history := [] }) (putTrgState n trgArmed s)) := if_pos ⟨hi, hv⟩

theorem trgStart_refused (h : trgState n s ≠ trgIdle ∨ trgValid n s = false) : trgStart n s = raise (F.TRG_STATUS_n_REFUSED n.1) 0 s := by
  refine if_neg ?_
  rintro ⟨hi, hv⟩
  obtain h | h := h
  · exact h hi
  · exact absurd hv (Bool.eq_false_iff.1 h)

/-- An idle trigger with a valid schedule is armed, with its counts at 0. -/
theorem trgStart_shows (hi : trgState n s = trgIdle) (hv : trgValid n s = true) :
    trgState n (trgStart n s) = trgArmed ∧ fget (F.TRG_EDGE_IDX_n_COUNT n.1) (trgStart n s) = 0 ∧ rd (R.TRG_SKIP_CNT_n n.1) (trgStart n s) = 0 ∧
      (trgStart n s).trg[n.1].next = startIndex n s ∧ (trgStart n s).mem = s.mem := by
  rw [trgStart_idle hi hv]
  refine ⟨?_, fget_clearRegs_mem _ List.mem_cons_self, ?_, ?_, ?_⟩
  · rw [trgState, fget_clearRegs_other]
    · exact trgState_putTrgState n trgArmed s
    · simp [F.TRG_STATUS_n_STATE, R.TRG_STATUS_n, R.TRG_EDGE_IDX_n, R.TRG_SKIP_CNT_n]
  · simp [rd_clearRegs]
  · simp
  · simp

theorem trgStop_armed (h : trgState n s = trgArmed) : trgStop n s = putTrgState n trgIdle s := if_pos h

/-- A running schedule ends at once, or with its active pulse. -/
theorem trgStop_running (h : trgState n s = trgRunning) : trgStop n s = putTrgState n (if pulseActive n s then trgStopping else trgIdle) s := by
  simp [trgStop, h, trgRunning, trgArmed]

/-! ### The instants (R108, R109, R638) -/

theorem exec_triggerInstant_due (hw : trgWaiting n s = true) (ht : placed (trgInstant n s.trg[n.1].next s) * 2 ^ 32 ≤ vt s) :
    exec (.triggerInstant n) s = .next (instantReached n (placed (trgInstant n s.trg[n.1].next s)) s) := by
  change execTriggerInstant n s = _
  simp only [execTriggerInstant, if_pos hw, elapseVt_past ht]

/-- The index of the next instant is no part of the gate or of a pulse. -/
theorem pulseActive_updNext (n : Fin 16) (g : Nat → Nat) (s : State) :
    pulseActive n (updTrg n (fun t => { t with next := g t.next }) s) = pulseActive n s := by
  simp [pulseActive]

theorem gateOpen_updTrg (n k : Fin 16) (f : Trigger → Trigger) (s : State) : gateOpen n (updTrg k f s) = gateOpen n s := rfl

/-- What the instant that is next comes to, by the gate and the pulse of the state in which it is reached. -/
theorem instantReached_eq (n : Fin 16) (at_ : Nat) (s : State) :
    instantReached n at_ s = if gateOpen n s = false ∨ pulseActive n s = true
      then skipInstant n (updTrg n (fun t => { t with next := t.next + 1 }) s)
      else leadingEdge n at_ (updTrg n (fun t => { t with next := t.next + 1 }) s) := by
  simp only [instantReached, gateOpen_updTrg, pulseActive_updNext n (· + 1), Bool.or_eq_true, Bool.not_eq_true']

theorem instantReached_drives (hg : gateOpen n s = true) (hp : pulseActive n s = false) (at_ : Nat) :
    instantReached n at_ s = leadingEdge n at_ (updTrg n (fun t => { t with next := t.next + 1 }) s) := by
  rw [instantReached_eq, if_neg (by simp [hg, hp])]

theorem instantReached_skips (h : gateOpen n s = false ∨ pulseActive n s = true) (at_ : Nat) :
    instantReached n at_ s = skipInstant n (updTrg n (fun t => { t with next := t.next + 1 }) s) := by
  rw [instantReached_eq, if_pos h]

/-! ### The leading edge (R105, R108) -/

/-- A leading edge, before COUNT is asked: the trigger runs, its pulse is active, and LAST and EDGE_IDX show the edge. -/
def edgeDriven (n : Fin 16) (at_ : Nat) (s : State) : State :=
  let r := putTrgState n trgRunning s
  let p := updTrg n (fun t => { t with pulseEnd := some (r.time.mraw * 8 + trgWidth n r), last := at_, history := ((at_, epoch r) :: t.history).take 64 }) r
  let l := fput (F.TRG_LAST_NS_n_NS n.1) (vtParts at_).2.1 (fput (F.TRG_STATUS_n_LEVEL n.1) 1 p)
  fput (F.TRG_EDGE_IDX_n_COUNT n.1) (fget (F.TRG_EDGE_IDX_n_COUNT n.1) l + 1) l

/-- The edge that reaches COUNT also ends the schedule, which STATUS alone shows. -/
theorem leadingEdge_cases (n : Fin 16) (at_ : Nat) (s : State) : leadingEdge n at_ s = edgeDriven n at_ s ∨
    leadingEdge n at_ s = raise (F.TRG_STATUS_n_DONE n.1) 0 (putTrgState n trgStopping (edgeDriven n at_ s)) :=
  (Classical.em _).elim (fun h => .inr (if_pos h)) fun h => .inl (if_neg h)

theorem leadingEdge_trg (n : Fin 16) (at_ : Nat) (s : State) : (leadingEdge n at_ s).trg = (edgeDriven n at_ s).trg := by
  obtain h | h := leadingEdge_cases n at_ s
  · rw [h]
  · rw [h, raise_trg, putTrgState_trg]

theorem leadingEdge_mem (n : Fin 16) (at_ : Nat) (s : State) : (leadingEdge n at_ s).mem = s.mem := by
  have hd : (edgeDriven n at_ s).mem = s.mem := by
    simp only [edgeDriven, putTrgState_mem, fput_mem, updTrg_mem]
  obtain h | h := leadingEdge_cases n at_ s
  · rw [h, hd]
  · rw [h, raise_mem, putTrgState_mem, hd]

theorem fget_leadingEdge {f : Fld} (h : f.addr ≠ R.TRG_STATUS_n n.1) (at_ : Nat) (s : State) :
    fget f (leadingEdge n at_ s) = fget f (edgeDriven n at_ s) := by
  obtain h' | h' := leadingEdge_cases n at_ s
  · rw [h']
  · rw [h']
    exact (fget_wr_other f _ _ h).trans (fget_wr_other f _ _ h)

/-- The pulse ends WIDTH after its edge, on the raw count (R105). -/
theorem leadingEdge_pulse (n : Fin 16) (at_ : Nat) (s : State) :
    (leadingEdge n at_ s).trg[n.1].pulseEnd = some (s.time.mraw * 8 + trgWidth n s) ∧ (leadingEdge n at_ s).trg[n.1].last = at_ := by
  have hw : trgWidth n (putTrgState n trgRunning s) = trgWidth n s :=
    fget_fput_other _ _ _ _ (by simp [F.TRG_WIDTH_n_W, F.TRG_STATUS_n_STATE, R.TRG_WIDTH_n, R.TRG_STATUS_n])
  simp only [leadingEdge_trg]
  simp [edgeDriven, hw]

theorem edgeIdx_leadingEdge (n : Fin 16) (at_ : Nat) (s : State) :
    fget (F.TRG_EDGE_IDX_n_COUNT n.1) (leadingEdge n at_ s) = (fget (F.TRG_EDGE_IDX_n_COUNT n.1) s + 1) % 2 ^ 32 := by
  have hs : (F.TRG_EDGE_IDX_n_COUNT n.1).addr ≠ R.TRG_STATUS_n n.1 := by simp [F.TRG_EDGE_IDX_n_COUNT, R.TRG_EDGE_IDX_n, R.TRG_STATUS_n]
  have hl : (F.TRG_EDGE_IDX_n_COUNT n.1).addr ≠ R.TRG_LAST_NS_n n.1 := by simp [F.TRG_EDGE_IDX_n_COUNT, R.TRG_EDGE_IDX_n, R.TRG_LAST_NS_n]
  rw [fget_leadingEdge hs, edgeDriven, fget_fput_same _ _ _ (by decide : 31 < 32), fget_fput_other (F.TRG_LAST_NS_n_NS n.1) _ _ _ hl,
    fget_fput_other (F.TRG_STATUS_n_LEVEL n.1) _ _ _ hs]
  have hp : fget (F.TRG_EDGE_IDX_n_COUNT n.1) (putTrgState n trgRunning s) = fget (F.TRG_EDGE_IDX_n_COUNT n.1) s := fget_fput_other _ _ _ _ hs
  exact congrArg (fun k => (k + 1) % 2 ^ 32) hp

theorem lastNs_leadingEdge (n : Fin 16) (at_ : Nat) (s : State) :
    fget (F.TRG_LAST_NS_n_NS n.1) (leadingEdge n at_ s) = (vtParts at_).2.1 % 2 ^ 32 := by
  have hs : (F.TRG_LAST_NS_n_NS n.1).addr ≠ R.TRG_STATUS_n n.1 := by simp [F.TRG_LAST_NS_n_NS, R.TRG_LAST_NS_n, R.TRG_STATUS_n]
  have he : (F.TRG_LAST_NS_n_NS n.1).addr ≠ R.TRG_EDGE_IDX_n n.1 := by simp [F.TRG_LAST_NS_n_NS, R.TRG_LAST_NS_n, R.TRG_EDGE_IDX_n]
  rw [fget_leadingEdge hs, edgeDriven, fget_fput_other (F.TRG_EDGE_IDX_n_COUNT n.1) _ _ _ he]
  exact fget_fput_same _ _ _ (by decide : 31 < 32)

/-! ### The trailing edge (R105, R108) -/

/-- A pulse of a trigger over: its ball shows the resting level. -/
def pulseOver (n : Fin 16) (s : State) : State :=
  fput (F.TRG_STATUS_n_LEVEL n.1) 0 (updTrg n (fun t => { t with pulseEnd := none, carry := none }) s)

theorem trgState_pulseOver (n : Fin 16) (s : State) : trgState n (pulseOver n s) = trgState n s := trgState_fput_level ..

theorem level_pulseOver (n : Fin 16) (s : State) : fget (F.TRG_STATUS_n_LEVEL n.1) (pulseOver n s) = 0 :=
  fget_fput_same (F.TRG_STATUS_n_LEVEL n.1) 0 _ (by decide : 2 < 32)

theorem exec_trailingEdge_due {e : Nat} (hp : s.trg[n.1].pulseEnd = some e) (ht : (e + 7) / 8 ≤ s.time.mraw) :
    exec (.trailingEdge n) s = .next (if trgState n s = trgStopping then putTrgState n trgIdle (pulseOver n s) else pulseOver n s) := by
  have hz : (e + 7) / 8 - s.time.mraw = 0 := Nat.sub_eq_zero_of_le ht
  change execTrailingEdge n s = _
  simp only [execTrailingEdge, hp, hz, advance_zero, ← trgState_pulseOver n s]
  rfl

/-- A schedule that stops is over with its last pulse. -/
theorem trailingEdge_ends {e : Nat} (hp : s.trg[n.1].pulseEnd = some e) (ht : (e + 7) / 8 ≤ s.time.mraw) :
    Does (.trailingEdge n) s fun t => t.trg[n.1].pulseEnd = none ∧ fget (F.TRG_STATUS_n_LEVEL n.1) t = 0 ∧
      trgState n t = (if trgState n s = trgStopping then trgIdle else trgState n s) ∧ t.mem = s.mem := by
  refine does_of (exec_trailingEdge_due hp ht) ?_
  by_cases hs : trgState n s = trgStopping
  · simp only [if_pos hs]
    exact ⟨by simp [pulseOver], (level_putTrgState ..).trans (level_pulseOver ..), trgState_putTrgState n trgIdle _, rfl⟩
  · simp only [if_neg hs]
    exact ⟨by simp [pulseOver], level_pulseOver .., trgState_pulseOver .., rfl⟩

/-! ### The read of LAST (R115) -/

theorem exec_trgLastRead {w : Initiator} (hl : Lets w (R.TRG_LAST_NS_n n.1) false s) :
    exec (.trgLastRead w n) s = .next (trgLastRead w n (ok (entered w (R.TRG_LAST_NS_n n.1) s))) := congrArg _ (regRead_lets hl _)

theorem shadow_trgLastRead (w : Initiator) (n : Fin 16) (s : State) :
    sget (fun _ => 0) (trgLastRead w n s).trgShadows (n.1 * 256 + initIdx w) = s.trg[n.1].last := sget_sput_same ..

end

/-- Settles O9: each command by its equation in the state it meets, and the leading edge register by register. -/
theorem triggerCommands : Obligations.TriggerCommands := by
  refine ⟨⟨fun w n s hl => ?_, fun w n s hl => ?_, fun w n s hl => ?_, fun w n s hl => ?_, fun n s hw ht hg hp => ?_, fun n s hw ht h => ?_,
    fun n e s => trailingEdge_ends, fun w n s hl => ?_⟩, fun n at_ s => ?_⟩
  · intro u hi hv
    exact does_of (exec_trgStart hl) (trgStart_shows (s := ok u) hi hv)
  · intro u h
    exact (exec_trgStart hl).trans (congrArg _ (trgStart_refused (s := ok u) h))
  · intro u h
    exact (exec_trgStop hl).trans (congrArg _ (trgStop_armed (s := ok u) h))
  · intro u h
    exact (exec_trgStop hl).trans (congrArg _ (trgStop_running (s := ok u) h))
  · rw [exec_triggerInstant_due hw ht, instantReached_drives hg hp]
  · rw [exec_triggerInstant_due hw ht, instantReached_skips h]
  · exact does_of (exec_trgLastRead hl) ⟨rfl, rfl, rfl, shadow_trgLastRead ..⟩
  · obtain ⟨hpulse, hlast⟩ := leadingEdge_pulse n at_ s
    exact ⟨hpulse, hlast, edgeIdx_leadingEdge n at_ s, lastNs_leadingEdge n at_ s, leadingEdge_mem n at_ s⟩

end Sys2Proof.Machine

/-!
Captures: an edge merged, dropped or stamped, and the read that takes the head of the FIFO (O10).
-/
namespace Sys2Proof.Machine

/-- A field with a bit set is not zero. -/
theorem ftst_of_fbit {f : Fld} {k : Nat} {s : State} (hk : k < f.hi + 1 - f.lo) (h : fbit f k s = true) : ftst f s = true := by
  have hbit : (fget f s).testBit k = true := by
    rw [fget, testBit_bits, testBit_word, decide_eq_true hk]
    exact h
  have hne : fget f s ≠ 0 := by
    intro h0
    simp [h0] at hbit
  simpa [ftst] using hne

section
variable {m : Fin 16} {s : State}

@[simp] theorem showCap_cap (m : Fin 16) (s : State) : (showCap m s).cap = s.cap := rfl

/-- FILL shows how many entries the FIFO holds. -/
theorem fill_showCap (m : Fin 16) (s : State) : fget (F.TRG_CAP_STATUS_m_FILL m.1) (showCap m s) = s.cap[m.1].fifo.length % 2 ^ 5 := by
  have hs : (F.TRG_CAP_STATUS_m_FILL m.1).addr ≠ R.TRG_CAP_STAMP_NS_m m.1 := by
    simp only [F.TRG_CAP_STATUS_m_FILL, R.TRG_CAP_STATUS_m, R.TRG_CAP_STAMP_NS_m]
    omega
  rw [showCap, fget_wr_other _ _ _ hs]
  exact fget_fput_same _ _ _ (by decide : 4 < 32)

/-! ### The edge (R117-R119) -/

/-- A selected edge that passes the filter counts, in the ns in which it comes. -/
theorem exec_captureEdge_counts {rise : Bool} {after hold : Nat} (ha : after < 8) (hs : capSelected m rise s = true)
    (hf : fget (F.TRG_CAP_CFG_m_FILT m.1) s * 8 ≤ hold) :
    exec (.captureEdge m rise after hold) s = .next (captureEdge m rise (s.time.mraw * 8 + after) after s) := by
  change execCaptureEdge m rise after hold s = _
  simp only [execCaptureEdge, Nat.div_eq_of_lt ha, Nat.mod_eq_of_lt ha, advance_zero, hs, hf, decide_true, Bool.and_self, if_true]

/-- An edge within 4 ns of the latest one is merged into it. -/
theorem captureEdge_near {at8 l : Nat} (hl : s.cap[m.1].lastEdge = some l) (h : at8 < l + 32) (rise : Bool) (sub : Nat) :
    captureEdge m rise at8 sub s = raise (F.TRG_CAP_STATUS_m_MERGE m.1) 0 (updCap m (fun c => { c with gap := true }) s) := by
  simp [captureEdge, hl, h]

/-- The entry of an edge `sub` phases into the present ns: VT less the input's delay (R117, R121). -/
def capEntry (m : Fin 16) (rise : Bool) (sub : Nat) (s : State) : CapEntry :=
  ⟨(((vt16 s / 0x2000 * 0x2000 + sub * 0x2000 : Nat) : Int) - roundNearest ((fgetI (F.TRG_CAP_DELAY_m_PS m.1) s : Rat) * 65536 / 1000)).toNat,
    rise, epoch s % 16, s.cap[m.1].gap⟩

/-- An edge is lost to a full FIFO (R119). -/
def capDropped (m : Fin 16) (s : State) : State :=
  raise (F.TRG_CAP_STATUS_m_OVF m.1) 0 (bump (R.TRG_CAP_DROP_CNT_m m.1) (updCap m (fun c => { c with gap := true }) s))

/-- An entry goes into the FIFO. -/
def capTaken (m : Fin 16) (e : CapEntry) (s : State) : State :=
  showCap m (updCap m (fun c => { c with fifo := c.fifo ++ [e], gap := false }) s)

/-- An edge that keeps the spacing is dropped or stamped, and is the latest one. -/
theorem captureEdge_spaced {at8 : Nat} (h : ∀ l, s.cap[m.1].lastEdge = some l → l + 32 ≤ at8) (rise : Bool) (sub : Nat) :
    captureEdge m rise at8 sub s = if 16 ≤ s.cap[m.1].fifo.length
      then capDropped m (updCap m (fun c => { c with lastEdge := some at8 }) s)
      else capTaken m (capEntry m rise sub s) (updCap m (fun c => { c with lastEdge := some at8 }) s) := by
  cases hl : s.cap[m.1].lastEdge with
  | none =>
    simp only [captureEdge, hl]
    rfl
  | some l =>
    simp only [captureEdge, hl, decide_eq_false (Nat.not_lt.2 (h l hl))]
    rfl

theorem merge_shows {at8 l : Nat} (hl : s.cap[m.1].lastEdge = some l) (h : at8 < l + 32) (rise : Bool) (sub : Nat) :
    (captureEdge m rise at8 sub s).cap[m.1].fifo = s.cap[m.1].fifo ∧ (captureEdge m rise at8 sub s).cap[m.1].gap = true ∧
      (captureEdge m rise at8 sub s).cap[m.1].lastEdge = some l ∧ ftst (F.TRG_CAP_STATUS_m_MERGE m.1) (captureEdge m rise at8 sub s) = true := by
  rw [captureEdge_near hl h]
  exact ⟨by simp, by simp, by simp [hl], ftst_of_fbit (by decide : 0 < 9 + 1 - 9) (fbit_raise _ _ _ (by decide : 9 + 0 < 32))⟩

theorem drop_shows {at8 : Nat} (h : ∀ l, s.cap[m.1].lastEdge = some l → l + 32 ≤ at8) (hfull : 16 ≤ s.cap[m.1].fifo.length) (rise : Bool) (sub : Nat) :
    (captureEdge m rise at8 sub s).cap[m.1].fifo = s.cap[m.1].fifo ∧ (captureEdge m rise at8 sub s).cap[m.1].gap = true ∧
      ftst (F.TRG_CAP_STATUS_m_OVF m.1) (captureEdge m rise at8 sub s) = true := by
  rw [captureEdge_spaced h, if_pos hfull, capDropped]
  exact ⟨by simp, by simp, ftst_of_fbit (by decide : 0 < 8 + 1 - 8) (fbit_raise _ _ _ (by decide : 8 + 0 < 32))⟩

/-- No delay, turned from ps into units of 2^-16 ns. -/
theorem roundNearest_noDelay : roundNearest (((0 : Int) : Rat) * 65536 / 1000) = 0 := by
  decide +kernel

/-- Without a delay an entry holds the phase that the edge came in. -/
theorem stamp_capEntry (hd : fgetI (F.TRG_CAP_DELAY_m_PS m.1) s = 0) (rise : Bool) (sub : Nat) :
    (capEntry m rise sub s).stamp = vt16 s / 0x2000 * 0x2000 + sub * 0x2000 := by
  have hr : roundNearest ((fgetI (F.TRG_CAP_DELAY_m_PS m.1) s : Rat) * 65536 / 1000) = 0 := by
    rw [hd, roundNearest_noDelay]
  rw [capEntry, hr, Int.sub_zero, Int.toNat_natCast]

theorem take_shows {at8 : Nat} (h : ∀ l, s.cap[m.1].lastEdge = some l → l + 32 ≤ at8) (hroom : s.cap[m.1].fifo.length < 16) (rise : Bool) (sub : Nat) :
    (captureEdge m rise at8 sub s).cap[m.1].fifo = s.cap[m.1].fifo ++ [capEntry m rise sub s] ∧ (captureEdge m rise at8 sub s).cap[m.1].gap = false ∧
      fget (F.TRG_CAP_STATUS_m_FILL m.1) (captureEdge m rise at8 sub s) = (s.cap[m.1].fifo.length + 1) % 2 ^ 5 := by
  rw [captureEdge_spaced h, if_neg (Nat.not_le.2 hroom), capTaken]
  exact ⟨by simp, by simp, by simp [fill_showCap]⟩

/-! ### The pop (R120) -/

theorem exec_capStampPop {w : Initiator} (hl : Lets w (R.TRG_CAP_STAMP_NS_m m.1) false s) :
    exec (.capStampPop w m) s = .next (capPop w m (ok (entered w (R.TRG_CAP_STAMP_NS_m m.1) s))) := congrArg _ (regRead_lets hl _)

theorem capPop_empty (h : s.cap[m.1].fifo = []) (w : Initiator) : capPop w m s = answer .done 0xFFFFFFFF s := by
  simp only [capPop, h]

theorem capPop_head {e : CapEntry} {rest : List CapEntry} (h : s.cap[m.1].fifo = e :: rest) (w : Initiator) :
    capPop w m s = answer .done (vtParts e.stamp).2.1 (showCap m (updCap m (fun c => { c with
      fifo := rest, undo := undoFor w e, shadows := sput (fun _ => ⟨0, false, 0, false⟩) (initIdx w) e c.shadows }) s)) := by
  simp only [capPop, h]

theorem pop_shows {e : CapEntry} {rest : List CapEntry} (h : s.cap[m.1].fifo = e :: rest) (w : Initiator) :
    (capPop w m s).cap[m.1].fifo = rest ∧ (capPop w m s).resp = ⟨.done, BitVec.ofNat 32 (vtParts e.stamp).2.1⟩ ∧
      sget (fun _ => ⟨0, false, 0, false⟩) (capPop w m s).cap[m.1].shadows (initIdx w) = e ∧ (capPop w m s).mem = s.mem := by
  rw [capPop_head h]
  exact ⟨by simp, rfl, by simp [sget_sput_same], rfl⟩

end

/-- Settles O10: an edge is near, finds the FIFO full, or is stamped; the pop takes the head, or finds none. -/
theorem captureCommands : Obligations.CaptureCommands := by
  refine ⟨fun m rise after hold s ha hs hf => does_of (exec_captureEdge_counts ha hs hf)
    ⟨fun l hl h => merge_shows hl h .., fun h hfull => drop_shows h hfull .., fun h hroom => ?_⟩, fun w m s e rest hl => ?_, fun w m s hl => ?_⟩
  · obtain ⟨hfifo, hgap, hfill⟩ := take_shows h hroom rise after
    exact ⟨capEntry m rise after s, hfifo, rfl, rfl, rfl, hgap, fun hd => stamp_capEntry hd .., hfill⟩
  · intro u h
    exact does_of (exec_capStampPop hl) (pop_shows (s := ok u) h w)
  · intro u h
    exact (exec_capStampPop hl).trans (congrArg _ (capPop_empty (s := ok u) h w))

end Sys2Proof.Machine

/-!
Cameras: the packets of an enabled virtual channel, the link timeout, the staging and the counters (O11).
-/
namespace Sys2Proof.Machine

section
variable {n : Fin 4} {vc : Fin 16} {s : State}

/-! ### Packets (R123, R124, R127, R133, R134) -/

/-- A bad header ends a packet at once. -/
theorem exec_csiFrameStart_bad (ht : camTakes n s = true) (vc : Fin 16) (num : BitVec 16) :
    exec (.csiFrameStart n vc num .bad) s = .next (camBadHeader n (camBurst n s)) := by
  change execCsiFrameStart n vc num .bad s = _
  simp [execCsiFrameStart, ht]

theorem exec_csiFrameStart_opens {ecc : HdrEcc} (ht : camTakes n s = true) (he : ecc ≠ .bad) (hv : ftst (F.CAM_VC_CFG_v_EN n.1 vc.1) (camBurst n s) = true)
    (num : BitVec 16) : exec (.csiFrameStart n vc num ecc) s =
      .next (openFrame n vc num.toNat (abortFrame n vc (camStamp n (camBurst n s)) (placeVc n vc (camBurst n s)))) := by
  change execCsiFrameStart n vc num ecc s = _
  simp [execCsiFrameStart, ht, he, hv]

theorem exec_csiFrameEnd_ends {ecc : HdrEcc} {f : CamFrame} (ht : camTakes n s = true) (he : ecc ≠ .bad)
    (hv : ftst (F.CAM_VC_CFG_v_EN n.1 vc.1) (camBurst n s) = true) (hf : camFrame n vc (camBurst n s) = some f) :
    exec (.csiFrameEnd n vc ecc) s =
      .next (endFrame n vc (camStamp n (camBurst n s)) (if ecc = .corrected then 2 else 0) (camBurst n s)) := by
  change execCsiFrameEnd n vc ecc s = _
  simp [execCsiFrameEnd, ht, he, hv, hf]

theorem exec_csiLineStart_stamps {ecc : HdrEcc} {f : CamFrame} (ht : camTakes n s = true) (he : ecc ≠ .bad)
    (hv : ftst (F.CAM_VC_CFG_v_EN n.1 vc.1) (camBurst n s) = true) (hf : camFrame n vc (camBurst n s) = some f) (num : BitVec 16) :
    exec (.csiLineStart n vc num ecc) s = .next (putFrame n vc
      (some { f with lineStart := some ⟨camStamp n (camBurst n s), num.toNat, epoch (camBurst n s), ecc == .corrected⟩ }) (camBurst n s)) := by
  change execCsiLineStart n vc num ecc s = _
  simp [execCsiLineStart, ht, he, hv, hf]

/-- A long packet of an open frame brings a line, when its type is supported and none of its channel's switches keeps it out. -/
theorem exec_csiLongPacket_line {dt : BitVec 6} {p : List Byte} {ecc : HdrEcc} {f : CamFrame} (ht : camTakes n s = true) (he : ecc ≠ .bad)
    (hd : dtSupported dt.toNat = true) (hv : ftst (F.CAM_VC_CFG_v_EN n.1 vc.1) (camBurst n s) = true)
    (hemb : dt = 0x12 → ftst (F.CAM_VC_CFG_v_EMB_EN n.1 vc.1) (camBurst n s) = true) (hp : p ≠ [])
    (hf : camFrame n vc (camBurst n s) = some f) (crcOk : Bool) :
    exec (.csiLongPacket n vc dt p crcOk ecc) s = .next (takeLine n vc f dt.toNat p crcOk (ecc == .corrected) (camBurst n s)) := by
  have hkept : ¬ (dt = 0x12 ∧ ftst (F.CAM_VC_CFG_v_EMB_EN n.1 vc.1) (camBurst n s) = false) := by
    rintro ⟨hdt, hoff⟩
    exact absurd (hemb hdt) (Bool.eq_false_iff.1 hoff)
  have hsome : p.isEmpty = false := by simp [hp]
  change execCsiLongPacket n vc dt p crcOk ecc s = _
  simp only [execCsiLongPacket, ht, he, hd, hv, hkept, hsome, hf, Bool.not_true, Bool.false_eq_true, if_false]

theorem exec_csiGenericShortPacket_discards (ht : camTakes n s = true) : exec (.csiGenericShortPacket n) s = .next (camDiscard n (camBurst n s)) :=
  congrArg Host.Outcome.next (if_pos ht)

theorem exec_csiSkewCalibration_shows (ht : camTakes n s = true) :
    exec (.csiSkewCalibration n) s = .next (fput (F.CAM_STATUS_DESKEWED n.1) 1 (camBurst n s)) := congrArg Host.Outcome.next (if_pos ht)

/-! ### Open frames, and the link timeout (R134) -/

theorem camFrame_putFrame (n : Fin 4) (vc v : Fin 16) (f : Option CamFrame) (s : State) :
    camFrame n v (putFrame n vc f s) = if v = vc then f else camFrame n v s := by
  simp [camFrame, putFrame, upd_get]

theorem camFrame_stageLine (n : Fin 4) (v : Fin 16) (l : CamLine) (s : State) : camFrame n v (stageLine n l s) = camFrame n v s := by
  simp [camFrame, stageLine]

/-- An end closes its own frame. -/
theorem camFrame_endFrame (n : Fin 4) (vc v : Fin 16) (arr extra : Nat) (s : State) :
    camFrame n v (endFrame n vc arr extra s) = if v = vc then none else camFrame n v s := by
  cases hf : camFrame n vc s with
  | none =>
    simp only [endFrame, hf]
    split
    next h => rw [h, hf]
    next => rfl
  | some f =>
    simp only [endFrame, hf]
    rw [camFrame_putFrame, camFrame_stageLine]

theorem camFrame_abortFrame (n : Fin 4) (vc v : Fin 16) (arr : Nat) (s : State) :
    camFrame n v (abortFrame n vc arr s) = if v = vc then none else camFrame n v s := by
  by_cases hf : (camFrame n vc s).isNone = true
  · rw [abortFrame, if_pos hf]
    split
    next h => rw [h, Option.isNone_iff_eq_none.1 hf]
    next => rfl
  · rw [abortFrame, if_neg hf]
    exact camFrame_endFrame ..

/-- Every frame of a list of channels is closed, and no other one. -/
theorem camFrame_foldl_abortFrame (n : Fin 4) (v : Fin 16) (arr : State → Nat) (l : List (Fin 16)) (s : State) :
    camFrame n v (l.foldl (fun s vc => abortFrame n vc (arr s) s) s) = if v ∈ l then none else camFrame n v s := by
  induction l generalizing s with
  | nil => simp
  | cons vc l ih =>
    rw [List.foldl_cons, ih, camFrame_abortFrame]
    by_cases hl : v ∈ l <;> by_cases hv : v = vc <;> simp [hl, hv]

/-- The end of every frame of a port with ABORT, stamped with VT. -/
def abortAll (n : Fin 4) (s : State) : State := forFin 16 (fun vc s => abortFrame n vc (stamp16 s) s) s

theorem camFrame_abortAll (n : Fin 4) (v : Fin 16) (s : State) : camFrame n v (abortAll n s) = none := by
  rw [abortAll, forFin, camFrame_foldl_abortFrame, if_pos (List.mem_finRange v)]

theorem camFrame_raise (n : Fin 4) (v : Fin 16) (f : Fld) (k : Nat) (s : State) : camFrame n v (raise f k s) = camFrame n v s := rfl

/-- The state in which a lost link is found: LINK shows it. -/
def linkLost (n : Fin 4) (s : State) : State := fput (F.CAM_STATUS_LINK n.1) 0 (elapseTo (linkDue n s) s)

theorem exec_csiLinkTimeout (n : Fin 4) (s : State) : exec (.csiLinkTimeout n) s = .next (if ftst (F.CAM_STATUS_OPEN n.1) (linkLost n s)
    then raise (F.CAM_EVENT n.1) 0 (abortAll n (linkLost n s)) else linkLost n s) := rfl

theorem ftst_open_linkLost (n : Fin 4) (s : State) : ftst (F.CAM_STATUS_OPEN n.1) (linkLost n s) = ftst (F.CAM_STATUS_OPEN n.1) s := by
  have hb : fget (F.CAM_STATUS_OPEN n.1) (linkLost n s) = fget (F.CAM_STATUS_OPEN n.1) (elapseTo (linkDue n s) s) :=
    fget_fput_beside (F.CAM_STATUS_LINK n.1) (F.CAM_STATUS_OPEN n.1) _ _ rfl (by decide : 2 < 32) (.inr (by decide : 0 < 2))
  rw [ftst, hb]
  rfl

/-- A link lost with a frame open raises LINK_LOST and closes every frame. -/
theorem csiLinkTimeout_closes (h : ftst (F.CAM_STATUS_OPEN n.1) s = true) :
    Does (.csiLinkTimeout n) s fun t => fbit (F.CAM_EVENT n.1) 0 t = true ∧ ∀ vc : Fin 16, camFrame n vc t = none := by
  have hc := exec_csiLinkTimeout n s
  rw [if_pos ((ftst_open_linkLost n s).trans h)] at hc
  exact does_of hc ⟨fbit_raise _ _ _ (by decide : 0 + 0 < 32), fun vc => (camFrame_raise ..).trans (camFrame_abortAll ..)⟩

theorem exec_csiLinkTimeout_idle (h : ftst (F.CAM_STATUS_OPEN n.1) s = false) : exec (.csiLinkTimeout n) s = .next (linkLost n s) := by
  rw [exec_csiLinkTimeout, ftst_open_linkLost, h]
  rfl

/-! ### Staging (R128, R129, R135) -/

theorem exec_lineItemPush_offers {l : CamLine} (hl : s.cam[n.1].staged.find? (fun l => !l.queued) = some l) (hq : s.cam[n.1].queue.length < 32) :
    exec (.lineItemPush n) s = .next (queueLost n (updCam n (fun c => { c with
      queue := c.queue ++ [l.id], staged := c.staged.map fun m => if m.id = l.id then { m with queued := true } else m }) s)) := by
  change execLineItemPush n s = _
  simp only [execLineItemPush, hl, if_neg (Nat.not_le.2 hq)]

/-- Lines stay on the queue of a header thread that is there. -/
theorem queueLost_there (h : headerThreadGone n s = false) : queueLost n s = s := if_neg (Bool.eq_false_iff.1 h)

theorem exec_lineStagingFree_submits {l : CamLine} {h : List Byte} (hl : s.cam[n.1].staged.find? (fun l => l.header.isSome) = some l) (hh : l.header = some h) :
    exec (.lineStagingFree n) s = .next (submitLine n l h (unstage n l.id s)) := by
  change execLineStagingFree n s = _
  simp only [execLineStagingFree, hl, freeLine, hh, Option.getD_some]

/-! ### The counters (R136) -/

theorem exec_camCntClr {w : Initiator} (hl : Lets w (R.CAM_CNT_CLR n.1) true s) :
    exec (.camCntClr w n) s = .next (clearRegs (camCounters n.1) (ok (entered w (R.CAM_CNT_CLR n.1) s))) := congrArg _ (regCmd_lets hl _)

end

/-- Settles O11: each packet by its equation, and the frames that a lost link closes by what one abort does to each channel. -/
theorem cameraCommands : Obligations.CameraCommands :=
  ⟨fun _ _ num _ _ ht he hv => ⟨exec_csiFrameStart_opens ht he hv num,
      fun _ hf => ⟨exec_csiFrameEnd_ends ht he hv hf, exec_csiLineStart_stamps ht he hv hf num⟩⟩,
    fun _ _ _ _ crcOk _ _ _ ht he hd hv hemb hp hf => exec_csiLongPacket_line ht he hd hv hemb hp hf crcOk,
    fun _ vc num _ ht => exec_csiFrameStart_bad ht vc num,
    fun _ _ ht => ⟨exec_csiGenericShortPacket_discards ht, exec_csiSkewCalibration_shows ht⟩,
    fun _ _ => csiLinkTimeout_closes, fun _ _ => exec_csiLinkTimeout_idle, fun _ _ _ => exec_lineItemPush_offers, fun _ _ => queueLost_there,
    fun _ _ _ _ => exec_lineStagingFree_submits, fun _ _ _ hl => exec_camCntClr hl⟩

end Sys2Proof.Machine

/-!
The words of the engines' instructions: what the decoder finds in the fields of an encoded instruction, and that it answers an instruction of its word alone (O4).
-/
namespace Sys2Proof.Machine

/-! ### The fields of a word (R177) -/

section
variable {op nd na nb fn : Nat} (a b : Fin 32) (imm : BitVec 16)

/-- What the decoder reads of a word of the RR format. -/
theorem fields_encRR (hd : nd < 32) (ha : na < 32) (hb : nb < 32) (hf : fn < 2048) :
    encRR op nd na nb fn / 67108864 = op ∧ Fin.ofNat 32 (encRR op nd na nb fn / 2097152) = Fin.ofNat 32 nd ∧
      Fin.ofNat 32 (encRR op nd na nb fn / 65536) = Fin.ofNat 32 na ∧ Fin.ofNat 32 (encRR op nd na nb fn / 2048) = Fin.ofNat 32 nb ∧
      encRR op nd na nb fn % 2048 = fn := by
  simp only [encRR, Fin.ext_iff, Fin.val_ofNat]
  omega

/-- What the decoder reads of a word of the RI or BR format. -/
theorem fields_encRI : encRI op a b imm.toNat / 67108864 = op ∧ Fin.ofNat 32 (encRI op a b imm.toNat / 2097152) = a ∧
    Fin.ofNat 32 (encRI op a b imm.toNat / 65536) = b ∧ BitVec.ofNat 16 (encRI op a b imm.toNat) = imm := by
  simp only [encRI, Fin.ext_iff, Fin.val_ofNat, BitVec.toNat_eq, BitVec.toNat_ofNat]
  omega

/-- What the decoder reads of the word of JAL. -/
theorem fields_jal (off : BitVec 26) : (30 * 67108864 + off.toNat) / 67108864 = 30 ∧ BitVec.ofNat 26 (30 * 67108864 + off.toNat) = off := by
  simp only [BitVec.toNat_eq, BitVec.toNat_ofNat]
  omega

/-- The place `k` of an instruction in its row stands above the eight bits of fn that the row uses itself (R180). -/
theorem kind_fn {n r : Nat} [NeZero n] (k : Fin n) (hr : r < 256) : Fin.ofNat n ((k.1 * 256 + r) / 256) = k := by
  rw [show (k.1 * 256 + r) / 256 = k.1 by omega, Fin.ofNat_val_eq_self]

/-- A field at the foot of fn, under whole multiples of its size. -/
theorem foot_fn {n r : Nat} [NeZero n] (q : Fin n) (hr : n ∣ r) : Fin.ofNat n (r + q.1) = q := by
  apply Fin.ext
  rw [Fin.val_ofNat, Nat.add_mod, Nat.mod_eq_zero_of_dvd hr, Nat.zero_add, Nat.mod_mod, Nat.mod_eq_of_lt q.2]

theorem toNat_beq_one (b : Bool) : (b.toNat == 1) = b := by
  cases b <;> rfl

theorem encRR_lt (ho : op < 64) (hd : nd < 32) (ha : na < 32) (hb : nb < 32) (hf : fn < 2048) : encRR op nd na nb fn < 2 ^ 32 := by
  simp only [encRR]
  omega

theorem encRI_lt (ho : op < 64) : encRI op a b imm.toNat < 2 ^ 32 := by
  simp only [encRI]
  omega

end

theorem NyInsn.exact_self {i : NyInsn} (h : i.legal = true) : NyInsn.exact (nyEncode i) i = some i := by
  simp [NyInsn.exact, NyInsn.checked, h]

theorem nyEncode_lt (i : NyInsn) : nyEncode i < 2 ^ 32 := by
  cases i with
  | alu k nd na nb => exact encRR_lt (by decide) nd.2 na.2 nb.2 (by omega)
  | aluI k | load k | store k | branch k => exact encRI_lt _ _ _ (by omega)
  | jal off => simp only [nyEncode]; omega
  | jalr => exact encRI_lt _ _ _ (by decide)
  | field k nd na w pos s => exact encRR_lt (by decide) nd.2 na.2 w.2 (by have := s.toNat_le; omega)
  | packet k nd na nb | table k nd na nb | bank k nd na nb | event k nd na nb | signal k nd na nb => exact encRR_lt (by decide) nd.2 na.2 nb.2 (by omega)
  | slot k nd q => exact encRR_lt (by decide) nd.2 (by decide) (by decide) (by split <;> omega)
  | qack nd na nb => exact encRR_lt (by decide) nd.2 na.2 nb.2 (by decide)
  | time k nd na nb form => exact encRR_lt (by decide) nd.2 na.2 nb.2 (by have := form.toNat_le; omega)
  | crypto k nd na | sys k nd na => exact encRR_lt (by decide) nd.2 na.2 (by decide) (by omega)

/-- Each row finds its opcode below those of the rows that the decoder asks before it, and its own fields in fn. -/
theorem nyDecode_nyEncode {i : NyInsn} (h : i.legal = true) : nyDecode (nyEncode i) = some i := by
  refine Eq.trans ?_ (NyInsn.exact_self h)
  cases i with
  | aluI k nd na imm =>
    have ho : 1 + k.1 ≠ 0 ∧ 1 + k.1 ≤ 10 := by omega
    simp only [nyDecode, nyEncode, fields_encRI, ho, Nat.add_sub_cancel_left, Fin.ofNat_val_eq_self, reduceIte]
  | load k nd na imm =>
    have ho : 16 + k.1 ≠ 0 ∧ ¬ 16 + k.1 ≤ 10 ∧ ¬ 16 + k.1 < 16 ∧ 16 + k.1 ≤ 19 := by omega
    simp only [nyDecode, nyEncode, fields_encRI, ho, Nat.add_sub_cancel_left, Fin.ofNat_val_eq_self, reduceIte]
  | store k nd na imm =>
    have ho : 20 + k.1 ≠ 0 ∧ ¬ 20 + k.1 ≤ 10 ∧ ¬ 20 + k.1 < 16 ∧ ¬ 20 + k.1 ≤ 19 ∧ 20 + k.1 ≤ 23 := by omega
    simp only [nyDecode, nyEncode, fields_encRI, ho, Nat.add_sub_cancel_left, Fin.ofNat_val_eq_self, reduceIte]
  | branch k na nb off =>
    have ho : 24 + k.1 ≠ 0 ∧ ¬ 24 + k.1 ≤ 10 ∧ ¬ 24 + k.1 < 16 ∧ ¬ 24 + k.1 ≤ 19 ∧ ¬ 24 + k.1 ≤ 23 ∧ 24 + k.1 ≤ 29 := by omega
    simp only [nyDecode, nyEncode, fields_encRI, ho, Nat.add_sub_cancel_left, Fin.ofNat_val_eq_self, reduceIte]
  | jal off => simp only [nyDecode, nyEncode, fields_jal, reduceIte, Nat.reduceEqDiff, Nat.reduceLeDiff, Nat.reduceLT]
  | jalr nd na imm => simp only [nyDecode, nyEncode, fields_encRI, reduceIte, Nat.reduceEqDiff, Nat.reduceLeDiff, Nat.reduceLT]
  | alu k nd na nb =>
    have hf : k.1 < 2048 := by omega
    simp only [nyDecode, nyEncode, fields_encRR nd.2 na.2 nb.2 hf,
      Fin.ofNat_val_eq_self, reduceIte, Nat.reduceEqDiff, Nat.reduceLeDiff, Nat.reduceLT]
  | field k nd na w pos s =>
    have hs := s.toNat_le
    have hf : k.1 * 256 + s.toNat * 128 + pos.1 < 2048 := by omega
    have hk : (k.1 * 256 + s.toNat * 128 + pos.1) / 256 = k.1 := by omega
    have hx : (k.1 * 256 + s.toNat * 128 + pos.1) / 128 % 2 = s.toNat := by omega
    have hp : 32 ∣ k.1 * 256 + s.toNat * 128 := by omega
    simp only [nyDecode, nyEncode, fields_encRR nd.2 na.2 w.2 hf, foot_fn pos hp, hk, hx, toNat_beq_one,
      Fin.ofNat_val_eq_self, reduceIte, Nat.reduceEqDiff, Nat.reduceLeDiff, Nat.reduceLT]
  | packet k nd na nb m =>
    have hf : k.1 * 256 + m.1 < 2048 := by omega
    have hm : m.1 < 256 := by omega
    have hd : 8 ∣ k.1 * 256 := by omega
    simp only [nyDecode, nyEncode, fields_encRR nd.2 na.2 nb.2 hf, kind_fn k hm, foot_fn m hd,
      Fin.ofNat_val_eq_self, reduceIte, Nat.reduceEqDiff, Nat.reduceLeDiff, Nat.reduceLT]
  | slot k nd q =>
    by_cases hk : k = 2
    · have hf : 0x300 + q.1 < 2048 := by omega
      have hq : (0x300 + q.1) / 256 = 3 := by omega
      simp only [nyDecode, nyEncode, hk, fields_encRR nd.2 (by decide : 0 < 32) (by decide : 0 < 32) hf, foot_fn q (by decide : 32 ∣ 0x300), hq,
        Fin.ofNat_val_eq_self, reduceIte, Nat.reduceEqDiff, Nat.reduceLeDiff, Nat.reduceLT]
    · have hf : k.1 * 256 + q.1 < 2048 := by omega
      have hq : (k.1 * 256 + q.1) / 256 = k.1 ∧ k.1 ≠ 2 ∧ k.1 ≠ 3 := by omega
      have hd : 32 ∣ k.1 * 256 := by omega
      simp only [nyDecode, nyEncode, hk, fields_encRR nd.2 (by decide : 0 < 32) (by decide : 0 < 32) hf, foot_fn q hd, hq,
        Fin.ofNat_val_eq_self, reduceIte, Nat.reduceEqDiff, Nat.reduceLeDiff, Nat.reduceLT]
  | qack nd na nb =>
    simp only [nyDecode, nyEncode, fields_encRR nd.2 na.2 nb.2 (by decide : 0x200 < 2048), Nat.reduceDiv,
      Fin.ofNat_val_eq_self, reduceIte, Nat.reduceEqDiff, Nat.reduceLeDiff, Nat.reduceLT]
  | time k nd na nb form =>
    have hs := form.toNat_le
    have hf : k.1 * 256 + form.toNat < 2048 := by omega
    have hx : (k.1 * 256 + form.toNat) % 2 = form.toNat := by omega
    have hr : form.toNat < 256 := by omega
    simp only [nyDecode, nyEncode, fields_encRR nd.2 na.2 nb.2 hf, kind_fn k hr, hx, toNat_beq_one,
      Fin.ofNat_val_eq_self, reduceIte, Nat.reduceEqDiff, Nat.reduceLeDiff, Nat.reduceLT]
  | table k nd na nb | bank k nd na nb | event k nd na nb | signal k nd na nb =>
    have hf : k.1 * 256 < 2048 := by omega
    have hk : k.1 * 256 / 256 = k.1 := by omega
    simp only [nyDecode, nyEncode, fields_encRR nd.2 na.2 nb.2 hf, hk,
      Fin.ofNat_val_eq_self, reduceIte, Nat.reduceEqDiff, Nat.reduceLeDiff, Nat.reduceLT]
  | crypto k nd na | sys k nd na =>
    have hf : k.1 * 256 < 2048 := by omega
    have hk : k.1 * 256 / 256 = k.1 := by omega
    simp only [nyDecode, nyEncode, fields_encRR nd.2 na.2 (by decide : 0 < 32) hf, hk,
      Fin.ofNat_val_eq_self, reduceIte, Nat.reduceEqDiff, Nat.reduceLeDiff, Nat.reduceLT]

/-! ### What the decoder answers -/

/-- An answer of the decoder to the word `w` that is right: it is none, or a legal instruction whose word is `w`. -/
def Faithful (w : Nat) (o : Option NyInsn) : Prop := ∀ i, o = some i → nyEncode i = w ∧ i.legal = true

theorem Faithful.none {w : Nat} : Faithful w none := nofun

theorem Faithful.exact {w : Nat} {i : NyInsn} : Faithful w (NyInsn.exact w i) := by
  intro j h
  simp only [NyInsn.exact, NyInsn.checked, Option.ite_none_right_eq_some] at h
  obtain ⟨hw, hl, hj⟩ := h
  cases hj
  exact ⟨hw, hl⟩

theorem Faithful.ite {w : Nat} {o p : Option NyInsn} {c : Prop} [Decidable c] (ho : Faithful w o) (hp : Faithful w p) : Faithful w (if c then o else p) := by
  split
  · exact ho
  · exact hp

theorem faithful_nyDecode (w : Nat) : Faithful w (nyDecode w) :=
  .ite .exact <| .ite .exact <| .ite .none <| .ite .exact <| .ite .exact <| .ite .exact <| .ite .exact <| .ite .exact <| .ite .exact <| .ite .exact <|
    .ite (.ite .exact .exact) <| .ite .exact <| .ite .exact <| .ite .exact <| .ite .exact <| .ite .exact <| .ite .exact <| .ite .exact .none

/-- The instruction of a well-formed command is legal. -/
theorem insn_legal {c : Instr} {et : Fin 24 × Fin 4} {i : NyInsn} (hw : c.wf = true) (hi : c.insn = some (et, i)) : i.legal = true := by
  simp only [Instr.wf, hi, Option.all_some, Bool.and_eq_true] at hw
  obtain ⟨⟨hl, -⟩, -⟩ := hw
  exact hl

/-- Settles O4: the decoder finds every field of an encoded instruction, and answers only what it has encoded again. -/
theorem engineInstructionsDecodeFromTheirWords : Obligations.EngineInstructionsDecodeFromTheirWords :=
  ⟨fun _ => nyDecode_nyEncode, nyEncode_lt, faithful_nyDecode, fun _ _ _ hw hi => nyDecode_nyEncode (insn_legal hw hi)⟩

end Sys2Proof.Machine

/-!
The instructions that act on the registers of a thread alone: arithmetic in its two forms (O14, O15) and the bit fields (O15).
-/
namespace Sys2Proof.Machine

section
variable {c : Instr} {e : Fin 24} {t : Fin 4} {nd na nb : Fin 32} {imm : BitVec 16} {s : State}

/-! ### An instruction that writes one register and goes on -/

/-- Such an instruction retires with the result that it computes when its issue is counted. -/
theorem does_write {i : NyInsn} {g : State → Word} {v : Word} (hi : Issues e t s)
    (hc : exec c s = .next (issue e t i (fun _ u => retire e t (setN e t nd (g u) u)) s)) (hl : i.legal = true) (hg : g (issued e t s) = v) :
    Does c s (Retired e t nd v (thrPc e t s + 1) s) := by
  refine ⟨_, hc.trans (issue_eq hi hl _), ?_⟩
  rw [hg, retire, thrPc_setN, thrPc_issued]
  exact retired_of ..

theorem does_aluRR {k : Fin 16} {f : Word → Word → Word} {v : Word} (hi : Issues e t s) (hc : exec c s = .next (aluRR k f e t nd na nb s))
    (hl : (NyInsn.alu k nd na nb).legal = true) (hv : f (getN e t na s) (getN e t nb s) = v) : Does c s (Retired e t nd v (thrPc e t s + 1) s) :=
  does_write (g := fun u => f (getN e t na u) (getN e t nb u)) hi hc hl (by rw [getN_issued, getN_issued, hv])

theorem does_aluRI {k : Fin 10} {f : Word → BitVec 16 → Word} {v : Word} (hi : Issues e t s) (hc : exec c s = .next (aluRI k f e t nd na imm s))
    (hl : (NyInsn.aluI k nd na imm).legal = true) (hv : f (getN e t na s) imm = v) : Does c s (Retired e t nd v (thrPc e t s + 1) s) :=
  does_write (g := fun u => f (getN e t na u) imm) hi hc hl (by rw [getN_issued, hv])

end

/-! ### Leading zeros (R180) -/

/-- How far a predicate holds from the top of `0 … n - 1` downwards. -/
theorem length_takeWhile_range {p : Nat → Bool} {n z : Nat} (hz : z ≤ n) (ht : ∀ i < n, n - z ≤ i → p i = true) (hf : z < n → p (n - 1 - z) = false) :
    ((List.range n).reverse.takeWhile p).length = z := by
  induction n generalizing z with
  | zero => simp [Nat.le_zero.1 hz]
  | succ n ih =>
    simp only [List.range_succ, List.reverse_append, List.reverse_singleton, List.singleton_append, List.takeWhile_cons]
    cases z with
    | zero => simp [show p n = false by simpa using hf (by omega)]
    | succ z =>
      simp only [ht n (by omega) (by omega), if_true, List.length_cons]
      rw [ih (z := z) (by omega) (fun i hi hz => ht i (by omega) (by omega)) (fun h => by simpa [Nat.sub_sub, Nat.add_comm] using hf (by omega))]

theorem leadingZeros_eq {a : Word} {z : Fin 33} (hz : ∀ i : Fin 32, 32 - z.1 ≤ i.1 → a.getLsbD i.1 = false) (ho : z.1 < 32 → a.getLsbD (31 - z.1) = true) :
    leadingZeros a = z.1 :=
  length_takeWhile_range (by omega) (fun i hi h => by simp [hz ⟨i, hi⟩ h]) (fun h => by simp [ho h])

/-- Settles O14: each command is the register form of its function, which `does_aluRR` retires. -/
theorem registerFormInstructionsWriteTheirResult : Obligations.RegisterFormInstructionsWriteTheirResult := by
  intro e t nd na nb s hi
  refine ⟨does_aluRR hi rfl rfl rfl, does_aluRR hi rfl rfl rfl, does_aluRR hi rfl rfl rfl, does_aluRR hi rfl rfl rfl, does_aluRR hi rfl rfl rfl, does_aluRR hi rfl rfl rfl,
    does_aluRR hi rfl rfl rfl, does_aluRR hi rfl rfl rfl, does_aluRR hi rfl rfl rfl, does_aluRR hi rfl rfl rfl, does_aluRR hi rfl rfl rfl, does_aluRR hi rfl rfl rfl,
    does_aluRR hi rfl rfl rfl, does_aluRR hi rfl rfl rfl, fun z hz ho => ?_, does_aluRR hi rfl rfl rfl⟩
  exact does_aluRR hi rfl rfl (congrArg _ (leadingZeros_eq hz ho))

/-! ### Bit fields (R191) -/

theorem and_widthMask (a : Word) (w : Fin 32) : a &&& widthMask w = BitVec.ofNat 32 (a.toNat % 2 ^ (w.1 + 1)) := by
  rw [widthMask, ← Nat.and_two_pow_sub_one_eq_mod, BitVec.ofNat_and, BitVec.ofNat_toNat, BitVec.setWidth_eq]

theorem ofNat_shiftLeft (n k : Nat) : BitVec.ofNat 32 n <<< k = BitVec.ofNat 32 (n * 2 ^ k) := by
  apply BitVec.eq_of_toNat_eq
  simp only [BitVec.toNat_shiftLeft, BitVec.toNat_ofNat, Nat.shiftLeft_eq, Nat.mod_mul_mod]

/-- The bits of a field, moved to its place. -/
theorem field_place (a : Word) (w pos : Fin 32) : (a &&& widthMask w) <<< pos.1 = BitVec.ofNat 32 (a.toNat % 2 ^ (w.1 + 1) * 2 ^ pos.1) := by
  rw [and_widthMask, ofNat_shiftLeft]

theorem field_insert (a b : Word) (w pos : Fin 32) :
    (b &&& ~~~(widthMask w <<< pos.1)) ||| ((a &&& widthMask w) <<< pos.1) = insertBits b (pos.1 + w.1) pos.1 a.toNat := by
  rw [field_place, widthMask, ofNat_shiftLeft, insertBits, show pos.1 + w.1 + 1 - pos.1 = w.1 + 1 by omega]

theorem field_of_word (a : Word) (w pos : Fin 32) : (a >>> pos.1) &&& widthMask w = BitVec.ofNat 32 (a.toNat / 2 ^ pos.1 % 2 ^ (w.1 + 1)) := by
  rw [and_widthMask, BitVec.toNat_ushiftRight, Nat.shiftRight_eq_div_pow]

theorem extractField_unsigned (a : Word) (w pos : Fin 32) : extractField w pos false a = BitVec.ofNat 32 (a.toNat / 2 ^ pos.1 % 2 ^ (w.1 + 1)) := by
  rw [← field_of_word]
  rfl

/-- Ones above a field are what is left of it when the value of the bit above it is taken away. -/
theorem or_not_widthMask (a : Word) (w : Fin 32) : a &&& widthMask w ||| ~~~widthMask w = (a &&& widthMask w) - BitVec.ofNat 32 (2 ^ (w.1 + 1)) := by
  have hd : (a &&& widthMask w) &&& ~~~widthMask w = 0#32 := by
    rw [BitVec.and_assoc, BitVec.and_not_self]
    exact BitVec.and_zero
  have hm : widthMask w = BitVec.ofNat 32 (2 ^ (w.1 + 1)) - 1 := (BitVec.ofNat_sub_ofNat_of_le _ 1 (by decide) Nat.one_le_two_pow).symm
  have hn : ~~~widthMask w = -BitVec.ofNat 32 (2 ^ (w.1 + 1)) := by
    rw [BitVec.not_eq_neg_add, hm, BitVec.neg_sub]
    exact BitVec.add_sub_cancel ..
  rw [← BitVec.add_eq_or_of_and_eq_zero _ _ hd, hn, BitVec.sub_eq_add_neg]

theorem testBit_top {n k : Nat} (h : n < 2 ^ (k + 1)) : n.testBit k = decide (2 ^ k ≤ n) := by
  rw [Bool.eq_iff_iff, decide_eq_true_iff]
  exact ⟨Nat.ge_two_pow_of_testBit, fun hk => Nat.testBit_of_two_pow_le_and_two_pow_add_one_gt hk h⟩

/-- A field whose top bit is 1 stands for its value less that of the bit above it (R191). -/
theorem extractField_signed (a : Word) (w pos : Fin 32) :
    extractField w pos true a = BitVec.ofInt 32 (signedOf (w.1 + 1) (a.toNat / 2 ^ pos.1 % 2 ^ (w.1 + 1))) := by
  generalize hn : a.toNat / 2 ^ pos.1 % 2 ^ (w.1 + 1) = n
  have hlt : n < 2 ^ (w.1 + 1) := hn ▸ Nat.mod_lt _ (Nat.two_pow_pos _)
  have hv : (a >>> pos.1) &&& widthMask w = BitVec.ofNat 32 n := hn ▸ field_of_word a w pos
  have ht : (BitVec.ofNat 32 n).getLsbD w.1 = decide (2 ^ w.1 ≤ n) := by
    rw [BitVec.getLsbD_ofNat, testBit_top hlt, decide_eq_true w.2, Bool.true_and]
  simp only [extractField, Bool.true_and, signedOf, Nat.add_sub_cancel, hv, ht, decide_eq_true_eq]
  by_cases h : 2 ^ w.1 ≤ n
  · have ho := hv ▸ or_not_widthMask (a >>> pos.1) w
    rw [if_pos h, if_neg (Nat.not_lt.2 h), ho, Int.sub_eq_add_neg, BitVec.ofInt_add, BitVec.ofInt_neg, BitVec.ofInt_natCast, BitVec.sub_eq_add_neg,
      ← BitVec.ofInt_natCast 32 (2 ^ (w.1 + 1)), Int.natCast_pow]
    rfl
  · rw [if_neg h, if_pos (Nat.not_le.1 h), BitVec.ofInt_natCast]

theorem field_legal {k : Fin 3} {w pos : Fin 32} {sx : Bool} (nd na : Fin 32) (h : pos.1 + w.1 + 1 ≤ 32) (hk : sx = false ∨ k = 0) :
    (NyInsn.field k nd na w pos sx).legal = true := by
  rcases hk with rfl | rfl <;> simp [NyInsn.legal, h]

/-! ### The immediate form (R180, R187) -/

theorem setWidth_shiftLeft (imm : BitVec 16) : imm.setWidth 32 <<< 16 = imm ++ (0 : BitVec 16) := by
  apply BitVec.eq_of_toNat_eq
  refine Eq.trans ?_ (BitVec.toNat_append imm 0#16).symm
  simp only [BitVec.toNat_shiftLeft, BitVec.toNat_setWidth, BitVec.toNat_ofNat, Nat.zero_mod, Nat.or_zero, Nat.shiftLeft_eq]
  omega

theorem shiftI_legal (k : Fin 10) (hk : k = 4 ∨ k = 5 ∨ k = 6) (nd na : Fin 32) {imm : BitVec 16} (h : imm.toNat < 32) : (NyInsn.aluI k nd na imm).legal = true := by
  rcases hk with rfl | rfl | rfl <;> simp [NyInsn.legal, h]

/-- Settles O15: the immediate form as the register form; a shift amount below 32 is its own remainder, and each field instruction computes by its equation above. -/
theorem immediateAndFieldInstructionsWriteTheirResult : Obligations.ImmediateAndFieldInstructionsWriteTheirResult := by
  intro e t nd na imm s hi
  refine ⟨does_aluRI hi rfl rfl rfl, does_aluRI hi rfl rfl rfl, does_aluRI hi rfl rfl rfl, does_aluRI hi rfl rfl rfl, fun hs => ?_,
    does_aluRI hi rfl rfl (setWidth_shiftLeft imm), does_aluRI hi rfl rfl rfl, does_aluRI hi rfl rfl rfl, fun w pos hw => ?_⟩
  · have hm := Nat.mod_eq_of_lt hs
    exact ⟨does_aluRI hi rfl (shiftI_legal 4 (by decide) nd na hs) (by rw [hm]), does_aluRI hi rfl (shiftI_legal 5 (by decide) nd na hs) (by rw [hm]),
      does_aluRI hi rfl (shiftI_legal 6 (by decide) nd na hs) (by rw [hm])⟩
  · exact ⟨does_write hi rfl (field_legal nd na hw (.inr rfl)) (by rw [getN_issued, extractField_unsigned]),
      does_write hi rfl (field_legal nd na hw (.inr rfl)) (by rw [getN_issued, extractField_signed]),
      does_write hi rfl (field_legal nd na hw (.inl rfl)) (by rw [getN_issued, field_place]),
      does_write hi rfl (field_legal nd na hw (.inl rfl)) (by rw [getN_issued, getN_issued, field_insert])⟩

end Sys2Proof.Machine

/-!
The signal catalogue: in and out of service, lookups and fills of its cache, and definition commands (O30).
-/
namespace Sys2Proof.Machine

section
variable {w : Initiator} {s : State}

/-! ### In and out of service (R303, R310, R311) -/

theorem exec_sigEnable (hl : Lets w R.SIG_CTRL true s) : exec (.sigEnable w) s = .next (sigEnWrite true (ok (entered w R.SIG_CTRL s))) :=
  congrArg _ (regCmd_lets hl _)

theorem exec_sigDisable (hl : Lets w R.SIG_CTRL true s) : exec (.sigDisable w) s = .next (sigEnWrite false (ok (entered w R.SIG_CTRL s))) :=
  congrArg _ (regCmd_lets hl _)

theorem sigEnWrite_same {en : Bool} (h : ftst F.SIG_CTRL_EN s = en) : sigEnWrite en s = s := by
  simp [sigEnWrite, h]

theorem sigEnWrite_on (h : ftst F.SIG_CTRL_EN s = false) : sigEnWrite true s = sigEnable s := by
  simp [sigEnWrite, h]

theorem sigEnWrite_off (h : ftst F.SIG_CTRL_EN s = true) : sigEnWrite false s = sigDisable s := by
  simp [sigEnWrite, h]

theorem exec_ready_loads (he : ftst F.SIG_CTRL_EN s = true) (hr : ftst F.SIG_STATUS_READY s = false) (ho : islOpen islMEM s = true) (bc bp : List Nat) :
    let v := forN 2047 (fun i s => loadConv bc (i + 1) s) (updSig (fun g => { g with conv := [] }) s)
    exec (.ready bc bp) s = .next (raise F.SIG_EVENT 6 (fput F.SIG_STATUS_READY 1 (forN (fget F.SIG_PIN_COUNT_N v) (loadPin bp) v))) := by
  have hc : ¬ (!ftst F.SIG_CTRL_EN s || ftst F.SIG_STATUS_READY s || !islOpen islMEM s) = true := by simp [he, hr, ho]
  exact congrArg Host.Outcome.next (if_neg hc)

/-- A read of mapped memory that meets no error gives its bytes. -/
theorem sigFetch_mapped {a n : Nat} (h : inBanks a n = true ∨ inDram a n s = true) : sigFetch a n false s = (some (mrdBytes a n s), s) := by
  have hm : (inBanks a n || inDram a n s) = true := by rwa [Bool.or_eq_true]
  simp [sigFetch, hm]

theorem loadConv_mapped {bc : List Nat} {i : Nat} (hi : i ∉ bc)
    (h : inBanks (4096 * fget F.SIG_CONV_BASE_PAGE s + 16 * i) 16 = true ∨ inDram (4096 * fget F.SIG_CONV_BASE_PAGE s + 16 * i) 16 s = true) :
    loadConv bc i s = updSig (fun g => { g with
      conv := g.conv ++ [some (BitVec.ofNat 128 (leNat (mrdBytes (4096 * fget F.SIG_CONV_BASE_PAGE s + 16 * i) 16 s)))] }) s := by
  simp [loadConv, hi, sigFetch_mapped h]

/-! ### The cache (R308, R312, R313) -/

theorem exec_invalidate (hl : Lets w R.SIG_CMD true s) : exec (.invalidate w) s = .next (sigInvalidate (ok (entered w R.SIG_CMD s))) :=
  congrArg _ (regCmd_lets hl _)

/-- The state in which a lookup that misses goes on: it is counted, once. -/
def missCounted (first : Bool) (s : State) : State := whenB first (bump R.SIG_MISSES) (whenB first (bump R.SIG_LOOKUPS) s)

@[simp] theorem missCounted_sig (first : Bool) (s : State) : (missCounted first s).sig = s.sig := by
  cases first <;> rfl

theorem fget_missCounted {f : Fld} (hm : f.addr ≠ R.SIG_MISSES) (hl : f.addr ≠ R.SIG_LOOKUPS) (first : Bool) (s : State) :
    fget f (missCounted first s) = fget f s := by
  cases first with
  | false => rfl
  | true => exact (fget_wr_other f _ _ hm).trans (fget_wr_other f _ _ hl)

theorem lineAddr_missCounted (idx : Bool) (j : Nat) (first : Bool) (s : State) : lineAddr idx j (missCounted first s) = lineAddr idx j s := by
  rw [lineAddr, fget_missCounted (by decide) (by decide), fget_missCounted (by decide) (by decide), lineAddr]

theorem dramUsable_missCounted (first : Bool) (s : State) : dramUsable (missCounted first s) = dramUsable s := by
  rw [dramUsable, ftst, fget_missCounted (by decide) (by decide), fget_missCounted (by decide) (by decide), ← ftst, dramUsable]

/-- Counting a lookup moves no line out of the mapped memory. -/
theorem lineMapped_missCounted (idx : Bool) (j : Nat) (first : Bool) (s : State) : lineMapped idx j (missCounted first s) = lineMapped idx j s := by
  rw [lineMapped, lineAddr_missCounted, inDram, dramUsable_missCounted, ← inDram, lineMapped]

/-- A lookup of a line that the cache does not hold: it fails, waits for the fill that is asked for, or asks for one. -/
theorem sigLook_miss {idx : Bool} {j : Nat} (hc : cached idx j s = none) (first : Bool) :
    sigLook idx j first s =
      if s.sig.failed = some (idx, j) then (.err, missCounted first s)
      else if (idx, j) ∈ s.sig.fills then (.wait, missCounted first s)
      else if lineMapped idx j s = false then (.err, logUnmapped 0x40 (lineAddr idx j s) (missCounted first s))
      else (.wait, updSig (fun g => { g with fills := g.fills ++ [(idx, j)] }) (missCounted first s)) := by
  have hc' : cached idx j (whenB first (bump R.SIG_LOOKUPS) s) = none := by
    cases first <;> exact hc
  have hm : whenB first (bump R.SIG_MISSES) (whenB first (bump R.SIG_LOOKUPS) s) = missCounted first s := rfl
  simp only [sigLook, hc', hm, missCounted_sig, lineMapped_missCounted, lineAddr_missCounted, beq_iff_eq, List.contains_iff_mem,
    Bool.not_eq_true']

theorem sigLook_asks {idx : Bool} {j : Nat} (hc : cached idx j s = none) (hf : s.sig.failed ≠ some (idx, j)) (hm : lineMapped idx j s = true)
    (hn : (idx, j) ∉ s.sig.fills) (first : Bool) :
    (sigLook idx j first s).1 = .wait ∧ (sigLook idx j first s).2.sig.fills = s.sig.fills ++ [(idx, j)] := by
  simp [sigLook_miss hc, hf, hn, hm]

theorem sigLook_awaits {idx : Bool} {j : Nat} (hc : cached idx j s = none) (hf : s.sig.failed ≠ some (idx, j)) (hm : (idx, j) ∈ s.sig.fills) (first : Bool) :
    (sigLook idx j first s).1 = .wait ∧ (sigLook idx j first s).2.sig.fills = s.sig.fills := by
  simp [sigLook_miss hc, hf, hm]

/-- The end of the oldest fill, while MEM runs. -/
theorem exec_cacheFill {idx : Bool} {j : Nat} {rest : List (Bool × Nat)} (hf : s.sig.fills = (idx, j) :: rest) (ho : islOpen islMEM s = true) (e : BusEnd) :
    let v := updSig (fun g => { g with fills := rest }) s
    exec (.cacheFill e) s = .next (match e with
      | .ok => cachePut ⟨idx, j, mrdBytes (lineAddr idx j s) 64 s, false⟩ v
      | .busError => failLine (idx, j) v
      | .eccError => failLine (idx, j) (eccLog (lineAddr idx j s) 0x40 true false v)) := by
  change execCacheFill e s = _
  simp only [execCacheFill, hf, ho]
  rfl

/-! ### Definition commands (R639) -/

theorem exec_defRead (hl : Lets w R.SIG_DEF_CMD true s) : exec (.defRead w) s = .next (defStart true false (ok (entered w R.SIG_DEF_CMD s))) :=
  congrArg _ (regCmd_lets hl _)

theorem exec_defWrite (hl : Lets w R.SIG_DEF_CMD true s) : exec (.defWrite w) s = .next (defStart false true (ok (entered w R.SIG_DEF_CMD s))) :=
  congrArg _ (regCmd_lets hl _)

/-- The definition command that the registers of the SIG unit ask for, judged when it is made. -/
def defAsked (wr_ : Bool) (s : State) : DefCmd :=
  ⟨wr_, !ftst F.SIG_CTRL_EN s || decide (catLimit s ≤ (rd R.SIG_DEF_IDX s).toNat), (rd R.SIG_DEF_IDX s).toNat,
    (List.range 4).flatMap fun k => leBytes 4 (rd (R.SIG_DEF_DATA_k k) s).toNat, false⟩

theorem exec_defCommand (hl : Lets w R.SIG_DEF_CMD true s) (wr_ : Bool) :
    exec (if wr_ then .defWrite w else .defRead w) s = .next (defStart (!wr_) wr_ (ok (entered w R.SIG_DEF_CMD s))) := by
  cases wr_ with
  | false => exact exec_defRead hl
  | true => exact exec_defWrite hl

theorem defStart_free (h : s.sig.defCmd = none) (wr_ : Bool) :
    defStart (!wr_) wr_ s = fput F.SIG_DEF_CMD_BUSY 1 (updSig (fun g => { g with defCmd := some (defAsked wr_ s) }) s) := by
  cases wr_ <;> simp [defStart, h, defAsked]

theorem defStart_busy (h : s.sig.defCmd ≠ none) (rd_ wr_ : Bool) : defStart rd_ wr_ s = bad s := by
  simp [defStart, Option.isSome_iff_ne_none.2 h]

section
variable {c : DefCmd}

theorem exec_defCmdDone (hc : s.sig.defCmd = some c) (ho : islOpen islMEM s = true) : exec .defCmdDone s = .next (defGo c s) := by
  change execDefCmdDone s = _
  simp [execDefCmdDone, hc, ho]

theorem defGo_refused (h : c.refused = true ∨ ftst F.SIG_CTRL_EN s = false) : defGo c s = defEnd .failedRefused s := by
  obtain h | h := h <;> simp [defGo, h]

variable (hr : c.refused = false) (he : ftst F.SIG_CTRL_EN s = true) (hready : ftst F.SIG_STATUS_READY s = true)
include hr he hready

theorem defGo_write_mapped (hw : c.write = true) (hm : lineMapped false (c.idx / 4) s = true) :
    defGo c s = defEnd .done (defWrite c.idx c.data (bump R.SIG_LOOKUPS s)) := by
  simp [defGo, hr, he, hready, hw, hm]

theorem defGo_write_unmapped (hw : c.write = true) (hm : lineMapped false (c.idx / 4) s = false) :
    defGo c s = defEnd .done (logUnmapped 0x40 (lineAddr false (c.idx / 4) (bump R.SIG_LOOKUPS s)) (bump R.SIG_LOOKUPS s)) := by
  simp [defGo, hr, he, hready, hw, hm]

/-- A read goes on by what the lookup of its line meets. -/
theorem defGo_read (hw : c.write = false) : defGo c s =
    let r := sigLook false (c.idx / 4) (!c.counted) s
    match r.1 with
    | .hit d => defEnd .done (putDefData (defIn c.idx d) r.2)
    | .wait => updSig (fun g => { g with defCmd := some { c with counted := true } }) r.2
    | .err => defEnd .done (defLost (c.idx / 4) r.2) := by
  rcases hl : sigLook false (c.idx / 4) (!c.counted) s with ⟨l, t⟩
  simp only [defGo, hr, he, hready, hw, hl]
  cases l <;> rfl

theorem defGo_read_hit (hw : c.write = false) {d : List Byte} (hd : (sigLook false (c.idx / 4) (!c.counted) s).1 = .hit d) :
    defGo c s = defEnd .done (putDefData (defIn c.idx d) (sigLook false (c.idx / 4) (!c.counted) s).2) := by
  simp only [defGo_read hr he hready hw, hd]

theorem defGo_read_wait (hw : c.write = false) (hd : (sigLook false (c.idx / 4) (!c.counted) s).1 = .wait) :
    defGo c s = updSig (fun g => { g with defCmd := some { c with counted := true } }) (sigLook false (c.idx / 4) (!c.counted) s).2 := by
  simp only [defGo_read hr he hready hw, hd]

end

/-! ### The counters (R333) -/

theorem exec_sigCntClr (hl : Lets w R.SIG_CNT_CLR true s) :
    exec (.sigCntClr w) s = .next (clearRegs sigCounters (ok (entered w R.SIG_CNT_CLR s))) := congrArg _ (regCmd_lets hl _)

end

/-- Settles O30: each command by its equation; a lookup that misses by the one equation of all misses. -/
theorem catalogueCommands : Obligations.CatalogueCommands := by
  refine ⟨fun w s hl => ?_, fun bc bp s he hr ho => exec_ready_loads he hr ho bc bp, fun bc i s hi => loadConv_mapped hi, fun w s hl => exec_invalidate hl,
    fun w wr_ s hl => ?_, fun c s hc ho => ?_, fun idx j first s hc hf hm hn => sigLook_asks hc hf hm hn first,
    fun idx j first s hc hf hm => sigLook_awaits hc hf hm first,
    fun idx j rest s hf ho => ⟨exec_cacheFill hf ho .ok, exec_cacheFill hf ho .busError, exec_cacheFill hf ho .eccError⟩, fun w s hl => exec_sigCntClr hl⟩
  · intro u
    exact ⟨fun h => (exec_sigEnable hl).trans (congrArg _ (sigEnWrite_on (s := ok u) h)), fun h => (exec_sigDisable hl).trans (congrArg _ (sigEnWrite_off (s := ok u) h)),
      fun h => (exec_sigEnable hl).trans (congrArg _ (sigEnWrite_same (s := ok u) h)), fun h => (exec_sigDisable hl).trans (congrArg _ (sigEnWrite_same (s := ok u) h))⟩
  · intro u c i d
    exact ⟨fun h => (exec_defCommand hl wr_).trans (congrArg _ (defStart_free (s := ok u) h wr_)),
      fun h => (exec_defCommand hl wr_).trans (congrArg _ (defStart_busy (s := ok u) h (!wr_) wr_))⟩
  · rw [exec_defCmdDone hc ho]
    exact ⟨fun h => congrArg _ (defGo_refused h), fun hr he hready => ⟨fun hw hm => congrArg _ (defGo_write_mapped hr he hready hw hm),
      fun hw hm => congrArg _ (defGo_write_unmapped hr he hready hw hm), fun d hw hd => congrArg _ (defGo_read_hit hr he hready hw hd),
      fun hw hd => congrArg _ (defGo_read_wait hr he hready hw hd)⟩⟩

end Sys2Proof.Machine

/-!
The sealed log: seals, records on their way from the sink to the ring, the chain opened and closed, and records that software pushes (O31).
-/
namespace Sys2Proof.Machine

/-! ### What a write of several bytes leaves alone -/

/-- What the write of one byte leaves alone, the write of a number does. -/
theorem mwrN_keeps {α : Type} {f : State → α} (h : ∀ a v s, f (mwr a v s) = f s) (a n v : Nat) (s : State) : f (mwrN a n v s) = f s := by
  induction n generalizing a v s with
  | zero => rfl
  | succ n ih => exact (ih _ _ _).trans (h a _ s)

/-- What the write of one byte leaves alone, the write of a list of bytes does. -/
theorem mwrBytes_keeps {α : Type} {f : State → α} (h : ∀ a v s, f (mwr a v s) = f s) (a : Nat) (d : List Byte) (s : State) : f (mwrBytes a d s) = f s := by
  induction d generalizing a s with
  | nil => rfl
  | cons b d ih => exact (ih _ _).trans (h a b s)

@[simp] theorem mwrN_sig (a n v : Nat) (s : State) : (mwrN a n v s).sig = s.sig := mwrN_keeps (f := State.sig) (fun _ _ _ => rfl) a n v s

@[simp] theorem mwrBytes_sig (a : Nat) (d : List Byte) (s : State) : (mwrBytes a d s).sig = s.sig := mwrBytes_keeps (f := State.sig) (fun _ _ _ => rfl) a d s

@[simp] theorem mwrN_log (a n v : Nat) (s : State) : (mwrN a n v s).log = s.log := mwrN_keeps (f := State.log) (fun _ _ _ => rfl) a n v s

@[simp] theorem mwrBytes_log (a : Nat) (d : List Byte) (s : State) : (mwrBytes a d s).log = s.log := mwrBytes_keeps (f := State.log) (fun _ _ _ => rfl) a d s

@[simp] theorem mwrN_regs (a n v : Nat) (s : State) : (mwrN a n v s).regs = s.regs := mwrN_keeps (f := State.regs) (fun _ _ _ => rfl) a n v s

@[simp] theorem mwrBytes_regs (a : Nat) (d : List Byte) (s : State) : (mwrBytes a d s).regs = s.regs :=
  mwrBytes_keeps (f := State.regs) (fun _ _ _ => rfl) a d s

/-- Two states with the same registers show the same value in each. -/
theorem rd_congr {s t : State} (h : t.regs = s.regs) (a : Nat) : rd a t = rd a s := by
  rw [rd, h, rd]

theorem ftst_congr {s t : State} (h : t.regs = s.regs) (f : Fld) : ftst f t = ftst f s := by
  simp only [ftst, fget, rd_congr h]

section
variable {w : Initiator} {s : State}

/-! ### Seals (R326) -/

theorem exec_seal (hl : Lets w R.SIG_CMD true s) : exec (.seal w) s = .next (sealTrigger 2 (ok (entered w R.SIG_CMD s))) := congrArg _ (regCmd_lets hl _)

theorem sealTrigger_posts (hc : ftst F.SIG_STATUS_CHAIN_OPEN s = true) (ha : s.sig.sealAt = none) (reason : Nat) :
    sealTrigger reason s = postSeal ⟨reason, vtNs s, epoch s⟩ s := by
  simp [sealTrigger, hc, ha]

theorem sealTrigger_merges (hc : ftst F.SIG_STATUS_CHAIN_OPEN s = true) (ha : s.sig.sealAt ≠ none) (reason : Nat) :
    sealTrigger reason s = updSig (fun g => { g with merged := some ⟨reason ||| (g.merged.map (·.reason)).getD 0, vtNs s, epoch s⟩ }) s := by
  simp [sealTrigger, hc, ha]

theorem padBlock_empty (h : s.sig.blk = 0) : padBlock s = s := if_pos h

/-- A seal that finds no record in the open block takes the next checkpoint number, and is pending from now on. -/
theorem postSeal_sig (h : s.sig.blk = 0) (q : SealReq) :
    (postSeal q s).sig = { s.sig with k := s.sig.k + 1, sealAt := some s.now, sealLate := false, merged := none } := by
  simp [postSeal, padBlock_empty h]

theorem postSeal_regs (h : s.sig.blk = 0) (q : SealReq) : (postSeal q s).regs = (bump R.SIG_SEALS s).regs := by
  simp [postSeal, padBlock_empty h]

theorem postSeal_shows (h : s.sig.blk = 0) (q : SealReq) : (postSeal q s).sig.k = s.sig.k + 1 ∧ (postSeal q s).sig.sealAt = some s.now ∧
    (postSeal q s).sig.prod = s.sig.prod ∧ rd R.SIG_SEALS (postSeal q s) = rd R.SIG_SEALS (bump R.SIG_SEALS s) := by
  rw [postSeal_sig h, rd_congr (postSeal_regs h q)]
  exact ⟨rfl, rfl, rfl, rfl⟩

/-- The periodic seal, when the raw count has reached its period. -/
theorem exec_sealPeriodic_due (he : ftst F.SIG_CTRL_LOG_EN s = true) (hd : s.sig.sealNext ≤ s.time.mraw) :
    exec .sealPeriodic s =
      .next (updSig (fun g => { g with sealNext := g.sealNext + fget F.SIG_SEAL_MS (sealTrigger 1 s) * 1000000 }) (sealTrigger 1 s)) := by
  change execSealPeriodic s = _
  simp [execSealPeriodic, he, Nat.sub_eq_zero_of_le hd]

/-- A seal that has waited for 50 ms is reported, once. -/
theorem exec_sealLate_due {t : Nat} (ha : s.sig.sealAt = some t) (hl : s.sig.sealLate = false) (hd : ctlDue s ≠ 0) (ht : t + 50000000 ≤ s.now) :
    exec .sealLate s = .next (updSig (fun g => { g with sealLate := true }) (logFault 0x30 0 0x05 0 0 (raise F.SIG_EVENT 2 s))) := by
  change execSealLate s = _
  simp [execSealLate, ha, hl, hd, elapseTo_past ht]

/-! ### From the sink to the ring (R321-R323) -/

/-- The LOSS record that is due goes into the ring, with what the record `r` reports when it is one itself. -/
def packDue (r : BitVec 128) (s : State) : State :=
  packRecord (lossRecord (s.sig.ringLoss + lossOf r) s) (updSig (fun g => { g with ringLoss := 0 }) s)

/-- A record that has left the sink meets the ring. -/
def meetRing (r : BitVec 128) (s : State) : State :=
  if ringFull s then ringLose r s
  else if s.sig.ringLoss = 0 then packRecord r s
  else if lossOf r = 0 then packOrLose r (packDue r s) else packDue r s

theorem acceptRecord_head {r : BitVec 128} {rest : List (BitVec 128)} (h : s.log.sink = r :: rest) :
    acceptRecord s = meetRing r { s with log := { s.log with sink := rest } } := by
  simp only [acceptRecord, h]
  rfl

theorem exec_logRecordAccept_head {r : BitVec 128} {rest : List (BitVec 128)} (h : s.log.sink = r :: rest) (ho : islOpen islMEM s = true) :
    exec .logRecordAccept s = .next (meetRing r { s with log := { s.log with sink := rest } }) :=
  congrArg Host.Outcome.next ((if_pos ho).trans (acceptRecord_head h))

theorem meetRing_full (h : ringFull s = true) (r : BitVec 128) : meetRing r s = ringLose r s := if_pos h

theorem meetRing_packs (hf : ringFull s = false) (hn : s.sig.ringLoss = 0) (r : BitVec 128) : meetRing r s = packRecord r s := by
  simp [meetRing, hf, hn]

theorem meetRing_loss {r : BitVec 128} (hf : ringFull s = false) (hn : s.sig.ringLoss ≠ 0) (hr : lossOf r ≠ 0) : meetRing r s = packDue r s := by
  simp [meetRing, hf, hn, hr]

theorem meetRing_after_loss {r : BitVec 128} (hf : ringFull s = false) (hn : s.sig.ringLoss ≠ 0) (hr : lossOf r = 0) :
    meetRing r s = packOrLose r (packDue r s) := by
  simp [meetRing, hf, hn, hr]

/-- What a record that is lost to a full ring leaves to be reported. -/
theorem ringLose_sig (r : BitVec 128) (s : State) : (ringLose r s).sig = if lossOf r = 0
    then { s.sig with ringLoss := s.sig.ringLoss + 1, lost := min 0xFFFFFFFF (s.sig.lost + 1) } else { s.sig with ringLoss := s.sig.ringLoss + lossOf r } := by
  by_cases h : lossOf r = 0 <;> simp [ringLose, countLost, h]

theorem ringLose_shows (r : BitVec 128) (s : State) : (ringLose r s).sig.ringLoss = s.sig.ringLoss + (if lossOf r = 0 then 1 else lossOf r) ∧
    fbit F.SIG_EVENT 1 (ringLose r s) = true ∧ (lossOf r = 0 → (ringLose r s).sig.lost = min 0xFFFFFFFF (s.sig.lost + 1)) := by
  refine ⟨?_, fbit_raise _ _ _ (by decide), fun h => ?_⟩
  · rw [ringLose_sig]
    split <;> rfl
  · rw [ringLose_sig, if_pos h]

/-! ### The chain opened and closed (R324, R326, R333) -/

theorem ringLogOk_iff : ringLogOk s = true ↔ 4 ≤ fget F.SIG_RING_LOG2 s ∧ fget F.SIG_RING_LOG2 s ≤ 16 := by
  simp [ringLogOk]

theorem exec_logEnable (hl : Lets w R.SIG_CTRL true s) : exec (.logEnable w) s =
    .next (if ringLogOk (ok (entered w R.SIG_CTRL s)) then logEnWrite true (ok (entered w R.SIG_CTRL s)) else bad (ok (entered w R.SIG_CTRL s))) :=
  congrArg _ (regCmd_lets hl _)

theorem exec_logDisable (hl : Lets w R.SIG_CTRL true s) : exec (.logDisable w) s = .next (logEnWrite false (ok (entered w R.SIG_CTRL s))) :=
  congrArg _ (regCmd_lets hl _)

theorem logEnWrite_opens (h : ftst F.SIG_CTRL_LOG_EN s = false) : logEnWrite true s = logOpen s := by
  simp [logEnWrite, h]

theorem exec_logEnable_opens (hl : Lets w R.SIG_CTRL true s) (hlo : 4 ≤ fget F.SIG_RING_LOG2 (entered w R.SIG_CTRL s))
    (hhi : fget F.SIG_RING_LOG2 (entered w R.SIG_CTRL s) ≤ 16) (he : ftst F.SIG_CTRL_LOG_EN (entered w R.SIG_CTRL s) = false) :
    exec (.logEnable w) s = .next (logOpen (ok (entered w R.SIG_CTRL s))) := by
  have hr : ringLogOk (ok (entered w R.SIG_CTRL s)) = true := ringLogOk_iff.2 ⟨hlo, hhi⟩
  rw [exec_logEnable hl, if_pos hr, logEnWrite_opens (s := ok (entered w R.SIG_CTRL s)) he]

theorem exec_logEnable_refused (hl : Lets w R.SIG_CTRL true s)
    (h : fget F.SIG_RING_LOG2 (entered w R.SIG_CTRL s) < 4 ∨ 16 < fget F.SIG_RING_LOG2 (entered w R.SIG_CTRL s)) :
    exec (.logEnable w) s = .next (bad (ok (entered w R.SIG_CTRL s))) := by
  have hr : ¬ ringLogOk (ok (entered w R.SIG_CTRL s)) = true := by
    rw [ringLogOk_iff]
    rintro ⟨hlo, hhi⟩
    exact h.elim (Nat.not_lt.2 hlo) (Nat.not_lt.2 hhi)
  rw [exec_logEnable hl, if_neg hr]

theorem logEnWrite_closes (h : ftst F.SIG_CTRL_LOG_EN s = true) :
    logEnWrite false s = sealTrigger 0x20 (fput F.SIG_CTRL_LOG_EN 0 (drainSink s.log.sink.length s)) := by
  simp [logEnWrite, h, logClose]

/-- The state of a chain that begins: nothing waits, and nothing is counted. -/
def chainBegun (s : State) : State :=
  let s := fput F.SIG_STATUS_CHAIN_OPEN 1 (fput F.SIG_CTRL_LOG_EN 1 s)
  updSig (fun g => { g with
    prod := 0, blk := 0, k := 0, records := 0, lost := 0, ringLoss := 0, sealAt := none, sealLate := false, merged := none,
    sealNext := s.time.mraw + fget F.SIG_SEAL_MS s * 1000000 }) { s with log := ⟨[], 0⟩ }

/-- The control block of a chain that begins: PROD, SEAL_DUE_N and the genesis. -/
def genesisWritten (s : State) : State :=
  s |> mwrN (ctlProd s) 8 0 |> mwrN (logCtl s + 88) 8 0 |> mwrBytes (logCtl s + 128) (genesis s)

/-- A chain that is open, before its first record. -/
def chainOpened (s : State) : State := updSig (fun g => { g with kept := false }) (genesisWritten (chainBegun s))

theorem genesisWritten_sig (s : State) : (genesisWritten s).sig = s.sig := by
  simp [genesisWritten]

/-- Without a crash ring kept through a reset, the chain opens with its BOOT record. -/
theorem logOpen_chainOpened (h : s.sig.kept = false) :
    logOpen s = acceptRecord (logFault 0x30 0 0x01 0 (rd R.SYSCTL_RESET_CAUSE (chainOpened s)).toNat (chainOpened s)) := by
  have hk : ¬ ((genesisWritten (chainBegun s)).sig.kept && ftst F.SIG_CTRL_WARM_PERSIST (genesisWritten (chainBegun s))) = true := by
    rw [genesisWritten_sig]
    simp [chainBegun, h]
  exact congrArg (fun t => let v := updSig (fun g => { g with kept := false }) t
    acceptRecord (logFault 0x30 0 0x01 0 (rd R.SYSCTL_RESET_CAUSE v).toNat v)) (if_neg hk)

theorem chainOpened_sig (s : State) : (chainOpened s).sig = { (chainBegun s).sig with kept := false } := by
  rw [chainOpened, updSig_sig, genesisWritten_sig]

theorem chainOpened_log (s : State) : (chainOpened s).log = ⟨[], 0⟩ := by
  simp [chainOpened, genesisWritten, chainBegun]

theorem chainOpened_regs (s : State) : (chainOpened s).regs = (fput F.SIG_STATUS_CHAIN_OPEN 1 (fput F.SIG_CTRL_LOG_EN 1 s)).regs := by
  simp [chainOpened, genesisWritten, chainBegun]

theorem logEn_chainOpened (s : State) : ftst F.SIG_CTRL_LOG_EN (chainOpened s) = true := by
  rw [ftst_congr (chainOpened_regs s), ftst, fget_fput_other _ _ _ _ (by decide), fget_fput_same _ _ _ (by decide)]
  rfl

theorem chainOpen_chainOpened (s : State) : ftst F.SIG_STATUS_CHAIN_OPEN (chainOpened s) = true := by
  rw [ftst_congr (chainOpened_regs s), ftst, fget_fput_same _ _ _ (by decide)]
  rfl

/-! ### Records that software pushes (R320) -/

theorem exec_logPush (hl : Lets w (R.SIG_LOG_PUSH_k 3) true s) (w3 : Word) :
    exec (.logPush w w3) s = .next (hostPush w w3 (ok (entered w (R.SIG_LOG_PUSH_k 3) s))) := congrArg _ (regCmd_lets hl _)

theorem logPush_disabled (h : ftst F.SIG_CTRL_LOG_EN s = false) (o : Nat) (words : List Nat) : logPush o words s = (.failedRefused, s) := by
  simp [logPush, h]

/-- The kind of a pushed record lies in bits 19 to 16 of its word 1. -/
theorem pushKind (b : Nat) : bits (b % 2 ^ 32) 19 16 = b / 65536 % 16 := by
  simp only [bits]
  omega

/-- A record of kind 2 is lost to a full sink, or goes into it with the time it brings, or VT where it brings none. -/
theorem logPush_kind2 {b : Nat} (he : ftst F.SIG_CTRL_LOG_EN s = true) (hk : b / 65536 % 16 = 2) (o a c d : Nat) :
    logPush o [a, b, c, d] s = if sinkRoom s = false then (.failedRefused, sinkLose s) else
      (.done, sinkPut (logRecord (if a % 2 ^ 32 + b % 65536 * 2 ^ 32 = 0 then vtNs s else a % 2 ^ 32 + b % 65536 * 2 ^ 32) 2 (epoch s) o
        (c % 2 ^ 32 + d % 2 ^ 32 * 2 ^ 32)) s) := by
  have hb : b % 2 ^ 32 % 65536 = b % 65536 := Nat.mod_mod_of_dvd b (by decide)
  simp only [logPush, List.getElem?_cons_zero, List.getElem?_cons_succ, Option.getD_some, pushKind, hk, hb, he]
  simp

end

/-- Settles O31: each command by its equation; the chain that opens is `chainOpened`. -/
theorem logCommands : Obligations.LogCommands := by
  refine ⟨fun w s hl => ?_, fun q s h => postSeal_shows h q, fun s he hd => exec_sealPeriodic_due he hd, fun t s ha hl hd ht => exec_sealLate_due ha hl hd ht,
    fun r rest s h ho => ?_, fun r s => ringLose_shows r s, fun w s hl => ?_, fun s h => ⟨chainOpened s, logOpen_chainOpened h, logEn_chainOpened s,
      chainOpen_chainOpened s, chainOpened_log s, ?_⟩, fun w w3 s hl => exec_logPush hl w3, fun o a b c d s => ⟨fun he => logPush_disabled he o _, ?_, ?_⟩⟩
  · intro u hc
    exact ⟨fun ha => (exec_seal hl).trans (congrArg _ (sealTrigger_posts (s := ok u) hc ha 2)),
      fun ha => (exec_seal hl).trans (congrArg _ (sealTrigger_merges (s := ok u) hc ha 2))⟩
  · rw [exec_logRecordAccept_head h ho]
    exact ⟨fun hf hn => congrArg _ (meetRing_packs hf hn r), fun hf hn hr => congrArg _ (meetRing_loss hf hn hr),
      fun hf hn hr => congrArg _ (meetRing_after_loss hf hn hr), fun hf => congrArg _ (meetRing_full hf r)⟩
  · intro u
    exact ⟨fun hlo hhi he => exec_logEnable_opens hl hlo hhi he, fun h => exec_logEnable_refused hl h,
      fun he => (exec_logDisable hl).trans (congrArg _ (logEnWrite_closes (s := ok u) he))⟩
  · rw [chainOpened_sig]
    exact ⟨rfl, rfl, rfl, rfl, rfl⟩
  · intro hk he hr
    rw [logPush_kind2 he hk, if_pos hr]
  · intro _ ha hk he hr
    rw [logPush_kind2 he hk, if_neg (by simp [hr]), Nat.mod_eq_of_lt ha]
    exact ⟨rfl, _, rfl⟩

end Sys2Proof.Machine

/-!
Crash images: begun in an erased slot or skipped, programmed, and the ring re-armed (O32).
-/
namespace Sys2Proof.Machine

theorem whenB_keeps {α : Type} {f : State → α} {g : State → State} (h : ∀ s, f (g s) = f s) (c : Bool) (s : State) : f (whenB c g s) = f s := by
  cases c with
  | false => rfl
  | true => exact h s

/-! ### The signature of a seal (R541, R546) -/

/-- The use of a key changes registers alone. -/
theorem useKey_keeps {α : Type} {f : State → α} (h : ∀ a v s, f (wr a v s) = f s) (p : Fin 128) (s : State) : f (useKey p s) = f s := by
  unfold useKey
  split
  · rfl
  · exact (whenB_keeps (fun u => (h _ _ _).trans (h _ _ u)) _ _).trans (h _ _ s)

/-- A signature changes registers and takes a free value. -/
theorem crashSign_keeps {α : Type} {f : State → α} (hw : ∀ a v s, f (wr a v s) = f s) (hu : ∀ s, f (useFree s) = f s) (head : List Byte) (s : State) :
    f (crashSign head s).2.2 = f s := by
  unfold crashSign
  extract_lets p zero
  split
  · exact (hu _).trans (useKey_keeps hw p s)
  · rfl

section
variable {w : Initiator} {s : State}

/-! ### An image begun (R330, R331) -/

theorem erasedSlot_free {k : Nat} (h : erasedSlot s = some k) :
    k < 7 ∧ (∀ c ∈ s.sig.images, c.slot ≠ k) ∧ ∀ b ∈ frdBytes (crashSlot k) 260 s, b = 0xFF := by
  unfold erasedSlot at h
  split at h
  · cases h
  · have hfree := List.find?_some h
    simp only [Bool.and_eq_true, List.all_eq_true, bne_iff_ne, beq_iff_eq] at hfree
    exact ⟨List.mem_range.1 (List.mem_of_find?_eq_some h), hfree.2, hfree.1⟩

theorem crashImage_skipped (h : erasedSlot s = none) (r : Nat) : crashImage r s = raise F.SIG_EVENT 4 (bump R.SIG_CRASH_SKIP s) := by
  simp only [crashImage, h]
  rfl

/-- The head of the seal of an image, in a state that counts the image. -/
def crashHead (r : Nat) (s : State) : List Byte :=
  sealHead "Z480CRSH" s.sig.imageCount s.sig.newest ⟨r, vtNs s, epoch s⟩ s.sig.crash.reverse.length s ++ sha512 (crashBytes s.sig.crash.reverse)

/-- The device's count of images, with one more. -/
def imageCounted (s : State) : State := updSig (fun g => { g with imageCount := g.imageCount + 1 }) s

/-- The status and the bytes of the seal's signature, and the state that the signing leaves. -/
def imageSigned (r : Nat) (s : State) : Status × List Byte × State := crashSign (crashHead r (imageCounted s)) (imageCounted s)

/-- The image of the ring that a trigger begins in a slot. -/
def imageOf (r k : Nat) (s : State) : CrashImg :=
  ⟨k, s.sig.crash.reverse, crashHead r (imageCounted s) ++ (imageSigned r s).2.1, (imageSigned r s).1, (imageSigned r s).2.2.now⟩

theorem crashImage_begins {k : Nat} (h : erasedSlot s = some k) (r : Nat) :
    let v := updSig (fun g => { g with images := g.images ++ [imageOf r k s] }) (imageSigned r s).2.2
    crashImage r s = whenB (!ftst F.SYSCTL_XSPI_CMD_BUSY v) (fput F.SYSCTL_XSPI_STAT_CRASH_ACTIVE 1) v := by
  simp only [crashImage, h]
  rfl

/-- The signature of an image leaves the SIG unit as it was, but for the count. -/
theorem imageSigned_sig (r : Nat) (s : State) : (imageSigned r s).2.2.sig = { s.sig with imageCount := s.sig.imageCount + 1 } :=
  crashSign_keeps (f := State.sig) (fun _ _ _ => rfl) (fun _ => rfl) _ (imageCounted s)

theorem crashImage_sig {k : Nat} (h : erasedSlot s = some k) (r : Nat) : (crashImage r s).sig =
    { s.sig with imageCount := s.sig.imageCount + 1, images := s.sig.images ++ [imageOf r k s] } := by
  rw [crashImage_begins h, whenB_keeps (f := State.sig) (g := fput F.SYSCTL_XSPI_STAT_CRASH_ACTIVE 1) (fun _ => rfl), updSig_sig, imageSigned_sig]

/-- An image begun leaves alone what neither a register nor the SIG unit nor a free value holds. -/
theorem crashImage_keeps {α : Type} {f : State → α} (hw : ∀ a v s, f (wr a v s) = f s) (hu : ∀ s, f (useFree s) = f s) (hs : ∀ g s, f (updSig g s) = f s)
    {k : Nat} (h : erasedSlot s = some k) (r : Nat) : f (crashImage r s) = f s := by
  rw [crashImage_begins h, whenB_keeps (g := fput F.SYSCTL_XSPI_STAT_CRASH_ACTIVE 1) (fun _ => hw _ _ _), hs]
  exact (crashSign_keeps hw hu _ _).trans (hs _ s)

/-! ### The commands (R326, R330, R331) -/

theorem exec_crash (hl : Lets w R.SIG_CMD true s) : exec (.crash w) s = .next (crashTrigger 4 (ok (entered w R.SIG_CMD s))) := congrArg _ (regCmd_lets hl _)

theorem exec_crashRearm (hl : Lets w R.SIG_CMD true s) : exec (.crashRearm w) s = .next (crashRearm (ok (entered w R.SIG_CMD s))) :=
  congrArg _ (regCmd_lets hl _)

theorem crashTrigger_frozen (h : ftst F.SIG_STATUS_CRASH_FROZEN s = true) (r : Nat) :
    crashTrigger r s = sealTrigger r (raise F.SIG_EVENT 4 (bump R.SIG_CRASH_SKIP s)) := by
  simp [crashTrigger, h, crashSkip]

theorem crashTrigger_running (h : ftst F.SIG_STATUS_CRASH_FROZEN s = false) (r : Nat) :
    crashTrigger r s = sealTrigger r (crashImage r (fput F.SIG_STATUS_CRASH_FROZEN 1 s)) := by
  simp [crashTrigger, h]

/-- The image that is being written ends: its ring, its seal, its status and its record. -/
theorem exec_crashDone_first {c : CrashImg} {rest : List CrashImg} (h : s.sig.images = c :: rest) (ha : ftst F.SYSCTL_XSPI_STAT_CRASH_ACTIVE s = true) :
    let v := cryTally c.status (updSig (fun g => { g with images := rest })
      (fprogBytes (crashSlot c.slot) c.head (fprogBytes (crashSlot c.slot + 4096) (crashBytes c.ring) s)))
    exec .crashDone s = .next (whenB rest.isEmpty xspiRelease (fput F.SIG_STATUS_CRASH_RESULT c.status.code
      (raise F.SIG_EVENT 3 (logFault 0x30 0 0x04 0 (c.slot + c.status.code * 256) v)))) := by
  change execCrashDone s = _
  simp only [execCrashDone, h, ha]
  rfl

end

/-- Settles O32: the slot is the first one that `find?` meets; an image begun leaves alone what its signature does. -/
theorem crashCommands : Obligations.CrashCommands := by
  refine ⟨fun w s hl => ?_, fun r s h => crashImage_skipped h r, fun r k s h => ⟨imageOf r k s, ?_, rfl, rfl, ?_, ?_,
    crashImage_keeps (f := State.mem) (fun _ _ _ => rfl) (fun _ => rfl) (fun _ _ => rfl) h r,
    crashImage_keeps (f := State.flash) (fun _ _ _ => rfl) (fun _ => rfl) (fun _ _ => rfl) h r⟩,
    fun k s h => erasedSlot_free h, fun c rest s h ha => exec_crashDone_first h ha⟩
  · intro u
    exact ⟨fun h => (exec_crash hl).trans (congrArg _ (crashTrigger_frozen (s := ok u) h 4)),
      fun h => (exec_crash hl).trans (congrArg _ (crashTrigger_running (s := ok u) h 4)), exec_crashRearm hl⟩
  · rw [crashImage_sig h]
  · rw [crashImage_sig h]
  · rw [crashImage_sig h]

end Sys2Proof.Machine

/-!
Segments of the network management, and the writes of their registers that act (O35).
-/
namespace Sys2Proof.Machine

section
variable {w : Initiator} {g : Fin 35} {s : State}

/-! ### A segment after a change -/

@[simp] theorem seg_updSeg_same (g : Fin 35) (f : NmSeg → NmSeg) (s : State) : seg g (updSeg g f s) = f (seg g s) := upd_get_same _ g f

theorem seg_updSeg_other {k : Fin 35} (h : k ≠ g) (f : NmSeg → NmSeg) (s : State) : seg k (updSeg g f s) = seg k s :=
  (upd_get _ g k f).trans (if_neg h)

@[simp] theorem segState_updSeg (k g : Fin 35) (f : NmSeg → NmSeg) (s : State) : segState k (updSeg g f s) = segState k s := rfl

/-- A change of a segment depends on what it makes of the segment as it is. -/
theorem updSeg_congr {f f' : NmSeg → NmSeg} (h : f (seg g s) = f' (seg g s)) : updSeg g f s = updSeg g f' s := by
  have hseg : upd s.nm.segs g f = upd s.nm.segs g f' := congrArg (fun x => s.nm.segs.set g.1 x g.2) h
  rw [updSeg, updSeg, hseg]

/-! ### SEG_CTRL (R341-R343) -/

theorem exec_segCtrlWake (hl : Lets w (R.NM_SEG_CTRL_s g.1) true s) :
    exec (.segCtrlWake w g) s = .next (segCtrlWake g (ok (entered w (R.NM_SEG_CTRL_s g.1) s))) := congrArg _ (regCmd_lets hl _)

theorem exec_rejoin (hl : Lets w (R.NM_SEG_CTRL_s g.1) true s) :
    exec (.rejoin w g) s = .next (rejoin g (ok (entered w (R.NM_SEG_CTRL_s g.1) s))) := congrArg _ (regCmd_lets hl _)

theorem segCtrlWake_sleeping (h : segState g s = 4) : segCtrlWake g s = wakeSeg g 7 s := if_pos h

theorem segCtrlWake_before_sleep (h : segState g s = 2 ∨ segState g s = 3) : segCtrlWake g s = latchWake g 7 s := by
  have h4 : segState g s ≠ 4 := by omega
  exact (if_neg h4).trans (if_pos h)

theorem segCtrlWake_elsewhere (h : segState g s < 2 ∨ 4 < segState g s) : segCtrlWake g s = s := by
  have h4 : segState g s ≠ 4 := by omega
  have h23 : ¬ (segState g s = 2 ∨ segState g s = 3) := by omega
  exact (if_neg h4).trans (if_neg h23)

theorem rejoin_isolated (h : segState g s = 6) : rejoin g s =
    wakeSeg g 7 (fput (F.NM_SEG_STATUS_s_OFFENDER g.1) 0xFF (wr (R.NM_WITHHOLD_HI_s g.1) 0 (wr (R.NM_WITHHOLD_LO_s g.1) 0 s))) :=
  if_neg (not_not_intro h)

theorem rejoin_elsewhere (h : segState g s ≠ 6) : rejoin g s = s := if_pos h

/-- A segment that neither sleeps nor is kept asleep by Bellows passes to WAKING alone. -/
theorem wakeSeg_alone (hb : blwAsleep g s = false) (h : segState g s ≠ 4) (src : Nat) : wakeSeg g src s = wakeOne g src s := by
  have h4 : ¬ segState g s = segSleep := h
  simp [wakeSeg, hb, h4]

/-! ### SEG_CFG.EN (R342, R348) -/

theorem exec_segEnable (hl : Lets w (R.NM_SEG_CFG_s g.1) true s) :
    exec (.segEnable w g) s = .next (segEnable g (ok (entered w (R.NM_SEG_CFG_s g.1) s))) := congrArg _ (regCmd_lets hl _)

theorem exec_segDisable (hl : Lets w (R.NM_SEG_CFG_s g.1) true s) :
    exec (.segDisable w g) s = .next (segDisable g (ok (entered w (R.NM_SEG_CFG_s g.1) s))) := congrArg _ (regCmd_lets hl _)

/-- EN is a field of its own beside the others of SEG_CFG. -/
theorem fget_segCfg_fput_EN {f : Fld} (ha : f.addr = R.NM_SEG_CFG_s g.1) (hi : f.hi < 32) (lo : 0 < f.lo) (v : Nat) (s : State) :
    fget f (fput (F.NM_SEG_CFG_s_EN g.1) v s) = fget f s :=
  fget_fput_beside _ _ _ _ ha hi (.inr lo)

/-- The state of a segment lies outside SEG_CFG. -/
@[simp] theorem segState_fput_EN (g : Fin 35) (v : Nat) (s : State) : segState g (fput (F.NM_SEG_CFG_s_EN g.1) v s) = segState g s :=
  fget_fput_other _ _ _ _ (by simp only [F.NM_SEG_STATUS_s_STATE, R.NM_SEG_STATUS_s, F.NM_SEG_CFG_s_EN, R.NM_SEG_CFG_s]; omega)

/-- Whether a segment's pin is held at sleep level: a level kept over a reset says it, else the segment itself (R348). -/
def pinAsleep (g : Fin 35) (s : State) : Bool :=
  match (seg g s).level with
  | some l => l != ftst (F.NM_SEG_CFG_s_STB_POL g.1) s
  | none => (seg g s).asleep

/-- A segment whose management begins: its ring knows no node but the Z480. -/
def segManaged (g : Fin 35) (s : State) : State :=
  updSeg g (fun x => { x with
    members := if ringSeg g then 2 ^ ownNode g s else 0, lastSeq := [], lastDst := none, forward := none, minEnd := s.now,
    asleep := pinAsleep g s, level := none }) (fput (F.NM_SEG_CFG_s_EN g.1) 1 s)

theorem segEnable_managed (h : ftst (F.NM_SEG_CFG_s_EN g.1) s = true) : segEnable g s = s := if_pos h

/-- What the model makes of a segment as it is enabled is `segManaged`: EN is no part of the node ID or of the pin's polarity. -/
theorem segEnable_begins (h : ftst (F.NM_SEG_CFG_s_EN g.1) s = false) : segEnable g s =
    if segState g s ≠ 0 then segManaged g s
    else if pinAsleep g s then setSeg g 4 (segManaged g s) else showConsent g (enterAwake g (segManaged g s)) := by
  have hn : ¬ ftst (F.NM_SEG_CFG_s_EN g.1) s = true := by simp [h]
  have hnode : ownNode g (fput (F.NM_SEG_CFG_s_EN g.1) 1 s) = ownNode g s :=
    fget_segCfg_fput_EN (f := F.NM_SEG_CFG_s_NODE_ID g.1) rfl (by decide : 6 < 32) Nat.one_pos _ _
  have hpol : ftst (F.NM_SEG_CFG_s_STB_POL g.1) (fput (F.NM_SEG_CFG_s_EN g.1) 1 s) = ftst (F.NM_SEG_CFG_s_STB_POL g.1) s :=
    congrArg (· != 0) (fget_segCfg_fput_EN (f := F.NM_SEG_CFG_s_STB_POL g.1) rfl (by decide : 15 < 32) (by decide : 0 < 15) _ _)
  have hseg : (seg g (segManaged g s)).asleep = pinAsleep g s := by simp [segManaged]
  have hst : segState g (segManaged g s) = segState g s := by simp [segManaged]
  rw [← hst, ← hseg]
  refine (if_neg hn).trans ?_
  dsimp only
  rw [hnode, hpol]
  rfl

theorem segDisable_disabled (h : segState g s = 0) : segDisable g s = fput (F.NM_SEG_CFG_s_EN g.1) 0 s :=
  if_pos ((segState_fput_EN g 0 s).trans h)

theorem segDisable_leaves (h : segState g s ≠ 0) : segDisable g s =
    followersLeave g (segState g s) (releaseHeld g (wakeAction g (setSeg g 0 (fput (F.NM_SEG_CFG_s_EN g.1) 0 s)))) := by
  have hst := segState_fput_EN g 0 s
  have hd : ¬ segState g (fput (F.NM_SEG_CFG_s_EN g.1) 0 s) = segDisabled := by rwa [hst]
  rw [← hst]
  exact if_neg hd

theorem exec_nmCntClr (hl : Lets w R.NM_CNT_CLR true s) : exec (.nmCntClr w) s = .next (clearRegs nmCounters (ok (entered w R.NM_CNT_CLR s))) :=
  congrArg _ (regCmd_lets hl _)

end

/-- Settles O35: each write by what it does in the state of its segment. -/
theorem segmentCommands : Obligations.SegmentCommands := by
  refine ⟨fun w g s hl => ?_, fun w g s hl => ?_, fun g k s hb h => wakeSeg_alone hb h k, fun w s hl => exec_nmCntClr hl⟩
  · intro u
    rw [exec_segCtrlWake hl, exec_rejoin hl]
    exact ⟨fun h => congrArg _ (segCtrlWake_sleeping (s := ok u) h), fun h => congrArg _ (segCtrlWake_before_sleep (s := ok u) h),
      fun h => congrArg _ (segCtrlWake_elsewhere (s := ok u) h), fun h => congrArg _ (rejoin_isolated (s := ok u) h),
      fun h => congrArg _ (rejoin_elsewhere (s := ok u) h)⟩
  · intro u
    rw [exec_segEnable hl, exec_segDisable hl]
    refine ⟨fun he => ?_, fun he => congrArg _ (segEnable_managed (s := ok u) he), fun h => congrArg _ (segDisable_disabled (s := ok u) h),
      fun h => congrArg _ (segDisable_leaves (s := ok u) h)⟩
    have hb := segEnable_begins (g := g) (s := ok u) he
    exact ⟨fun h => congrArg _ (hb.trans (if_pos h)), fun h ha => congrArg _ (hb.trans ((if_neg (not_not_intro h)).trans (if_pos ha))),
      fun h ha => congrArg _ (hb.trans ((if_neg (not_not_intro h)).trans (if_neg (ne_true_of_eq_false ha))))⟩

end Sys2Proof.Machine

/-!
What moves a segment between its states: consent, the prepare window, sleep, wakes and isolation (O34).
-/
namespace Sys2Proof.Machine

/-- Raising an event leaves the fields beside it alone. -/
theorem fget_raise_beside (f g : Fld) (n : Nat) (s : State) (ha : g.addr = f.addr) (hd : g.hi < f.lo + n) :
    fget g (raise f n s) = fget g s := by
  apply Nat.eq_of_testBit_eq
  intro i
  rw [fget, fget, testBit_bits, testBit_bits, testBit_word, testBit_word, ha, raise, rd_wr_same]
  by_cases hi : i < g.hi + 1 - g.lo
  · have hne : ¬ f.lo + n = g.lo + i := by omega
    simp only [BitVec.getLsbD_or, BitVec.getLsbD_ofNat, Nat.testBit_two_pow, hne, decide_false, Bool.and_false, Bool.or_false]
  · simp [hi]

section
variable {g : Fin 35} {s : State}

/-! ### What the writes of the NM unit leave alone -/

@[simp] theorem mwrN_nm (a n v : Nat) (s : State) : (mwrN a n v s).nm = s.nm := mwrN_keeps (f := State.nm) (fun _ _ _ => rfl) a n v s

@[simp] theorem ctlWrite_nm (g : Fin 35) (s : State) : (ctlWrite g s).nm = s.nm := by
  unfold ctlWrite
  split <;> simp

@[simp] theorem ctlWrite_regs (g : Fin 35) (s : State) : (ctlWrite g s).regs = s.regs := by
  unfold ctlWrite
  split <;> simp

@[simp] theorem nmEvent_segs (g : Fin 35) (s : State) : (nmEvent g s).nm.segs = s.nm.segs := by
  unfold nmEvent
  split <;> rfl

@[simp] theorem nmEvent_regs (g : Fin 35) (s : State) : (nmEvent g s).regs = s.regs := by
  unfold nmEvent
  split <;> rfl

@[simp] theorem dropWisps_nm (g : Fin 35) (s : State) : (dropWisps g s).nm = s.nm := by
  unfold dropWisps
  split <;> rfl

@[simp] theorem dropWisps_regs (g : Fin 35) (s : State) : (dropWisps g s).regs = s.regs := by
  unfold dropWisps
  split <;> rfl

/-! ### A change of state (R342, R346, R349) -/

@[simp] theorem maxSettle_regs (g : Fin 35) (s : State) : (maxSettle g s).regs = s.regs := rfl

/-- The maximum-awake timer is no other field of a segment. -/
theorem seg_maxSettle (g : Fin 35) (s : State) : (seg g (maxSettle g s)).since = (seg g s).since ∧ (seg g (maxSettle g s)).changes = (seg g s).changes := by
  rw [maxSettle, seg_updSeg_same]
  split
  · exact ⟨rfl, rfl⟩
  split
  · exact ⟨rfl, rfl⟩
  split
  · exact ⟨rfl, rfl⟩
  · exact ⟨rfl, rfl⟩

/-- A segment in its new state, before the change is shown to software. -/
def segMoved (g : Fin 35) (st : Nat) (s : State) : State :=
  maxSettle g (fput (F.NM_SEG_STATUS_s_STATE g.1) st (whenB (st != segAwake) (dropWisps g)
    (updSeg g (fun x => { x with since := s.now, changes := (x.changes + 1) % 2 ^ 32 }) s)))

theorem setSeg_segs (g : Fin 35) (st : Nat) (s : State) : (setSeg g st s).nm.segs = (segMoved g st s).nm.segs :=
  (nmEvent_segs ..).trans (congrArg NmSt.segs (ctlWrite_nm ..))

theorem setSeg_regs (g : Fin 35) (st : Nat) (s : State) :
    (setSeg g st s).regs = (raise (F.NM_SEG_STATUS_s_CHANGED g.1) 0 (segMoved g st s)).regs :=
  (nmEvent_regs ..).trans (ctlWrite_regs ..)

theorem segState_segMoved (g : Fin 35) (st : Nat) (s : State) : segState g (segMoved g st s) = st % 8 :=
  fget_fput_same (F.NM_SEG_STATUS_s_STATE g.1) st _ (by decide : 2 < 32)

theorem segMoved_nm (g : Fin 35) (st : Nat) (s : State) : ∃ t, segMoved g st s = maxSettle g t ∧
    t.nm = (updSeg g (fun x => { x with since := s.now, changes := (x.changes + 1) % 2 ^ 32 }) s).nm :=
  ⟨_, rfl, whenB_keeps (f := State.nm) (dropWisps_nm g) _ _⟩

theorem segState_setSeg (g : Fin 35) (st : Nat) (s : State) : segState g (setSeg g st s) = st % 8 := by
  have hbits : rd (R.NM_SEG_STATUS_s g.1) (setSeg g st s) = rd (R.NM_SEG_STATUS_s g.1) (raise (F.NM_SEG_STATUS_s_CHANGED g.1) 0 (segMoved g st s)) :=
    rd_congr (setSeg_regs g st s) _
  calc segState g (setSeg g st s)
      = segState g (raise (F.NM_SEG_STATUS_s_CHANGED g.1) 0 (segMoved g st s)) := congrArg (fun w : Word => bits w.toNat 2 0) hbits
    _ = segState g (segMoved g st s) := fget_raise_beside _ _ _ _ rfl (by decide : 2 < 24 + 0)
    _ = st % 8 := segState_segMoved g st s

theorem changed_setSeg (g : Fin 35) (st : Nat) (s : State) : fbit (F.NM_SEG_STATUS_s_CHANGED g.1) 0 (setSeg g st s) = true := by
  rw [fbit, rd_congr (setSeg_regs g st s)]
  exact fbit_raise _ _ _ (by decide : 24 + 0 < 32)

/-- A change of state begins a new stay in it, and counts. -/
theorem seg_setSeg (g : Fin 35) (st : Nat) (s : State) : (seg g (setSeg g st s)).since = s.now ∧
    (seg g (setSeg g st s)).changes = ((seg g s).changes + 1) % 2 ^ 32 := by
  obtain ⟨t, hm, ht⟩ := segMoved_nm g st s
  have hseg : seg g (setSeg g st s) = seg g (maxSettle g t) := by rw [seg, setSeg_segs, hm, seg]
  have ht' : seg g t = seg g (updSeg g (fun x => { x with since := s.now, changes := (x.changes + 1) % 2 ^ 32 }) s) := by rw [seg, ht, seg]
  obtain ⟨hs, hc⟩ := seg_maxSettle g t
  rw [hseg, hs, hc, ht', seg_updSeg_same]
  exact ⟨rfl, rfl⟩

theorem seg_setSeg_other {k : Fin 35} (h : k ≠ g) (st : Nat) (s : State) : seg k (setSeg g st s) = seg k s := by
  obtain ⟨t, hm, ht⟩ := segMoved_nm g st s
  calc seg k (setSeg g st s)
      = seg k (maxSettle g t) := by rw [seg, setSeg_segs, hm, seg]
    _ = seg k t := seg_updSeg_other h _ t
    _ = seg k (updSeg g (fun x => { x with since := s.now, changes := (x.changes + 1) % 2 ^ 32 }) s) := by rw [seg, ht, seg]
    _ = seg k s := seg_updSeg_other h _ s

/-! ### Consent (R339) -/

theorem exec_nmCtlblkRead (he : ftst F.NM_CTRL_EN s = true) (hc : ftst F.NM_CTRL_CTLBLK_EN s = true) : exec .nmCtlblkRead s =
    .next (forFin 35 (fun g s => showConsent g (updSeg g (fun x => { x with ctl := mrd (ctlBlock g s + 2) s == 1 }) s)) s) :=
  congrArg Host.Outcome.next (if_neg (by simp [he, hc]))

theorem exec_minAwakeEnd (h : segState g s ≠ 0) (ht : (seg g s).minEnd ≤ s.now) : exec (.minAwakeEnd g) s = .next (showConsent g s) := by
  change execMinAwakeEnd g s = _
  simp [execMinAwakeEnd, segDisabled, h, elapseTo_past ht]

/-! ### The prepare window and sleep (R342, R343) -/

theorem exec_prepareEnd_elsewhere (h : segState g s ≠ 2 ∨ segSends g s = true) : exec (.prepareEnd g) s = .next s :=
  congrArg Host.Outcome.next (if_pos h)

/-- The latch of a segment is given up. -/
def unlatched (g : Fin 35) (s : State) : State := showLatch g (updSeg g (fun x => { x with latched := none }) s)

section
variable (h : segState g s = 2) (hq : segSends g s = false)
  (ht : (seg g s).since + clampNat 20 1000 (fget (F.NM_SEG_TIME_s_PREP_MS g.1) s) * 1000000 ≤ s.now)
include h hq ht

theorem exec_prepareEnd_sleeps (hl : (seg g s).latched = none) : exec (.prepareEnd g) s = .next (sleepAction g (endPending g (setSeg g 3 s))) := by
  change execPrepareEnd g s = _
  simp [execPrepareEnd, segPrepare, segSleepEntry, h, hq, elapseTo_past ht, hl]

theorem exec_prepareEnd_aborts {src : Nat} (hl : (seg g s).latched = some src) : exec (.prepareEnd g) s = .next (abortPrepare g src (unlatched g s)) := by
  change execPrepareEnd g s = _
  simp [execPrepareEnd, segPrepare, h, hq, elapseTo_past ht, hl, unlatched]

end

theorem exec_settleEnd (h : segState g s = 3) (hl : (seg g s).latched = none)
    (ht : (seg g s).since + clampNat 10 1000 (fget (F.NM_SEG_TIME3_s_SETTLE_US g.1) s) * 1000 ≤ s.now) : exec (.settleEnd g) s = .next (setSeg g 4 s) := by
  change execSettleEnd g s = _
  simp [execSettleEnd, segSleepEntry, segSleep, h, hl, elapseTo_past ht]

/-! ### Wakes (R342, R343, R347, R564) -/

theorem exec_wakingEnd (h : segState g s = 5)
    (ht : (seg g s).since + clampNat 10 1000 (fget (F.NM_SEG_TIME3_s_WAKE_US g.1) s) * 1000 ≤ s.now) :
    exec (.wakingEnd g) s = .next (showConsent g (enterAwake g (wakeForParent g (recordWake g (seg g s).src s)))) := by
  change execWakingEnd g s = _
  simp [execWakingEnd, segWaking, h, elapseTo_past ht]

theorem wakeForParent_none (h : parentOf g s = none) : wakeForParent g s = s := by
  simp [wakeForParent, h]

theorem wakeForParent_some {p : Fin 35} (h : parentOf g s = some p) : wakeForParent g s =
    if segState p (startMinAwake p s) = 2 ∧ ownConsent p (startMinAwake p s) = false then abortGroup p wakeConsent (startMinAwake p s)
    else startMinAwake p s := by
  simp only [wakeForParent, h]
  rfl

theorem exec_segmentWakeInput_plain {k : Fin 5} (h : k ≠ 2 ∨ g.1 < 17 ∨ 28 < g.1) : exec (.segmentWakeInput g k) s = .next (segWakeInput g (k.1 + 1) s) := by
  have hn : ¬ (17 ≤ g.1 ∧ g.1 ≤ 28 ∧ k = 2) := by
    rintro ⟨hlo, hhi, hk⟩
    obtain h | h | h := h
    · exact h hk
    · omega
    · omega
  exact congrArg (fun t => Host.Outcome.next (segWakeInput g (k.1 + 1) t)) (if_neg hn)

/-- A wake on a segment of a port with TC10 is one of the port's, too. -/
theorem exec_segmentWakeInput_tc10 (h : 17 ≤ g.1 ∧ g.1 ≤ 28) : exec (.segmentWakeInput g 2) s = .next (segWakeInput g 3 (tc10Wake (g.1 - 11) s)) :=
  congrArg (fun t => Host.Outcome.next (segWakeInput g 3 t)) (if_pos ⟨h.1, h.2, rfl⟩)

/-- What a wake other than by activity does, by the state of its segment. -/
theorem segWakeInput_cases {src : Nat} (h : src ≠ 5) : segWakeInput g src s =
    if segState g s = 2 ∨ segState g s = 3 then latchWake g src s
    else if segState g s = 4 then wakeSeg g src s
    else if segState g s = 6 then bump R.NM_IGNORED_WAKE s else s := by
  have hn : ¬ src = wakeActivity := h
  simp only [segWakeInput, hn, false_and, if_false]
  rfl

theorem wakeSeg_kept_asleep (h : blwAsleep g s = true) (src : Nat) : wakeSeg g src s = bump R.NM_IGNORED_WAKE s := if_pos h

/-- What a latched wake does, by the state of its segment: the latch outlives DISABLED and LOST. -/
theorem exec_latchedWakeAction {src : Nat} (hl : (seg g s).latched = some src) : exec (.latchedWakeAction g) s = .next
    (if segState g s = 0 ∨ segState g s = 7 then s
    else if segState g s = 2 then abortPrepare g src (unlatched g s)
    else if segState g s = 3 ∨ segState g s = 4 then wakeSeg g src (unlatched g s)
    else if segState g s = 6 then bump R.NM_IGNORED_WAKE (unlatched g s) else unlatched g s) := by
  change execLatchedWakeAction g s = _
  simp only [execLatchedWakeAction, hl]
  rfl

/-! ### Isolation (R346, R347) -/

/-- A segment that is isolated: its offender is shown, and it counts; it has no wisp to send on. -/
def segIsolates (g : Fin 35) (s : State) : State :=
  updSeg g (fun x => { x with forward := none, regen := none })
    (setSeg g 6 (bump R.NM_ISOLATIONS (raise F.NM_EVENT 0 (fput (F.NM_SEG_STATUS_s_OFFENDER g.1) (offender g s) s))))

/-- The bus of an isolated segment is put to sleep; on the backbone what waits for its ports is flushed first. -/
def isolatedSleeps (g : Fin 35) (s : State) : State := sleepAction g (endPending g (if g = 12 then flushSlept 1 (flushSlept 0 s) else s))

theorem exec_maxAwakeExpire {t : Nat} (hm : (seg g s).maxStart = some t) (h0 : fget (F.NM_SEG_TIME2_s_MAX_AWAKE_S g.1) s ≠ 0) (h : segState g s = 1)
    (ht : t + (fget (F.NM_SEG_TIME2_s_MAX_AWAKE_S g.1) s * 1000000000 - (seg g s).maxRun) ≤ s.now) : exec (.maxAwakeExpire g) s =
    .next (if ftst (F.NM_SEG_CFG_s_FEED_OFF g.1) (isolatedSleeps g (segIsolates g s)) = true
      then feedOff g (isolatedSleeps g (segIsolates g s)) else isolatedSleeps g (segIsolates g s)) := by
  have hn : ¬ (fget (F.NM_SEG_TIME2_s_MAX_AWAKE_S g.1) s = 0 ∨ segState g s ≠ segAwake) := by simp [h0, h, segAwake]
  have hp : elapseTo (t + (fget (F.NM_SEG_TIME2_s_MAX_AWAKE_S g.1) s * secNs - (seg g s).maxRun)) s = s := elapseTo_past ht
  have hb : ∀ v, whenB (g == 12) (fun s => flushSlept 1 (flushSlept 0 s)) v = if g = 12 then flushSlept 1 (flushSlept 0 v) else v := by
    simp [whenB]
  change execMaxAwakeExpire g s = _
  simp only [execMaxAwakeExpire, hm, if_neg hn, hp, hb]
  rfl

end

/-- Settles O34: each command by what it does once its instant has come; a change of state by what `segMoved` makes of the segment. -/
theorem segmentSleepAndWake : Obligations.SegmentSleepAndWake := by
  refine ⟨fun g st s => ⟨?_, (seg_setSeg g st.1 s).1, (seg_setSeg g st.1 s).2, changed_setSeg g st.1 s, fun k hk => seg_setSeg_other hk st.1 s⟩,
    fun s he hc => exec_nmCtlblkRead he hc, fun g s h ht => exec_minAwakeEnd h ht,
    fun g s h hq ht => ⟨exec_prepareEnd_sleeps h hq ht, fun src => exec_prepareEnd_aborts h hq ht⟩,
    fun g s h => exec_prepareEnd_elsewhere h, fun g s h hl ht => exec_settleEnd h hl ht, fun g s h ht => exec_wakingEnd h ht,
    fun g s h => wakeForParent_none h, fun g p s h => wakeForParent_some h, fun g k s h => exec_segmentWakeInput_plain h,
    fun g s h => exec_segmentWakeInput_tc10 h, fun g k s hk => ?_, fun g k s h => wakeSeg_kept_asleep h k, fun g src s hl => ?_,
    fun g t s hm h0 h ht => exec_maxAwakeExpire hm h0 h ht⟩
  · rw [segState_setSeg, Nat.mod_eq_of_lt st.2]
  · rw [segWakeInput_cases hk]
    exact ⟨fun h => by simp [h], fun h => by simp [h], fun h => if_pos h, fun h => by simp [h]⟩
  · rw [exec_latchedWakeAction hl]
    intro v
    exact ⟨fun h => congrArg _ (if_pos h), fun h => by simp [h, v, unlatched], fun h => by simp [h, v, unlatched],
      fun h => by obtain h | h := h <;> simp [h, v, unlatched]⟩

end Sys2Proof.Machine

/-!
The wisp ring: a wisp taken, sent on, lost and made anew; on the backbone what port T and the switch make of it leaves the segments alone (O33).
-/
namespace Sys2Proof.Machine

theorem foldl_keeps {α β : Type} {f : State → α} {step : State → β → State} (h : ∀ s x, f (step s x) = f s) (l : List β) (s : State) :
    f (l.foldl step s) = f s := by
  induction l generalizing s with
  | nil => rfl
  | cons x l ih => exact (ih _).trans (h s x)

theorem forN_keeps {α : Type} {f : State → α} {step : Nat → State → State} (h : ∀ i s, f (step i s) = f s) (n : Nat) (s : State) :
    f (forN n step s) = f s :=
  foldl_keeps (fun s i => h i s) _ s

/-! ### How submitted frames end leaves the NM unit alone -/

theorem whenB_nm {g : State → State} (h : ∀ s, (g s).nm = s.nm) (c : Bool) (s : State) : (whenB c g s).nm = s.nm := whenB_keeps (f := State.nm) h c s

@[simp] theorem mwrBytes_nm (a : Nat) (d : List Byte) (s : State) : (mwrBytes a d s).nm = s.nm := mwrBytes_keeps (f := State.nm) (fun _ _ _ => rfl) a d s

@[simp] theorem ecplRecord_nm (e : Fin 24) (t : Fin 4) (count : Nat) (st : Status) (len : Nat) (s : State) : (ecplRecord e t count st len s).nm = s.nm := by
  have hovf : ∀ c u, (whenB c ecplOvf u).nm = u.nm := whenB_nm fun _ => rfl
  unfold ecplRecord
  dsimp only
  split
  · rfl
  · simp [hovf]

@[simp] theorem moveHead_nm (h : Fin 2) (r fetched n : Nat) (s : State) : (moveHead h r fetched n s).nm = s.nm := by
  induction n generalizing s with
  | zero => rfl
  | succ n ih =>
    unfold moveHead
    dsimp only
    split
    · rfl
    split
    · rfl
    · exact ih _

@[simp] theorem hostTxDone_nm (h : Fin 2) (r d : Nat) (stamp : Bool) (st : Status) (at_ : Nat) (s : State) : (hostTxDone h r d stamp st at_ s).nm = s.nm := by
  simp [hostTxDone, whenB_nm (fun t => mwrBytes_nm _ _ t)]

@[simp] theorem markLoss_nm (n : Fin 4) (vc : Fin 16) (seq id : Nat) (s : State) : (markLoss n vc seq id s).nm = s.nm := by
  unfold markLoss
  split
  · rfl
  split
  · split <;> rfl
  · rfl

@[simp] theorem lineFailed_nm (n : Fin 4) (vc : Fin 16) (seq id : Nat) (isEnd : Bool) (s : State) : (lineFailed n vc seq id isEnd s).nm = s.nm := by
  cases isEnd with
  | true => rfl
  | false => exact markLoss_nm ..

@[simp] theorem lineSegment_nm (n : Fin 4) (line : Nat) (st : Status) (s : State) : (lineSegment n line st s).nm = s.nm := by
  unfold lineSegment
  split
  · rfl
  extract_lets bad rest s1
  split
  · split
    · exact lineFailed_nm ..
    · exact whenB_nm (fun u => bump_nm u _) ..
  · rfl

@[simp] theorem submitEnd_nm (sub : Submitter) (st : Status) (len at_ : Nat) (s : State) : (submitEnd sub st len at_ s).nm = s.nm := by
  cases sub with
  | none => rfl
  | engine e t count => exact ecplRecord_nm ..
  | host h d _ stamp => exact hostTxDone_nm ..
  | camera n line => exact lineSegment_nm ..
  | vqi i item gen => rfl

@[simp] theorem frameCheck_nm (id : Nat) (s : State) : (frameCheck id s).nm = s.nm := by
  unfold frameCheck
  split
  · rfl
  split
  · exact submitEnd_nm ..
  · rfl

@[simp] theorem noteLow_nm (t s : State) : (noteLow t s).nm = s.nm :=
  whenB_nm (g := raise F.SW_EVENT swPoolLow) (fun u => raise_nm u _ _) _ s

@[simp] theorem showPool_nm (s : State) : (showPool s).nm = s.nm := by
  rw [showPool, noteLow_nm, fput_nm]
  refine forN_keeps (f := State.nm) (fun c u => ?_) 8 s
  rw [fput_nm, fput_nm]

@[simp] theorem poolTake_nm (id : Nat) (half : Bool) (c refs : Nat) (cells : Nat × Nat) (s : State) : (poolTake id half c refs cells s).nm = s.nm :=
  showPool_nm _

/-- The number of the next frame is taken. -/
def frameNumbered (s : State) : State := updSw (fun w => { w with nextId := w.nextId + 1 }) s

/-- Past the Sluice, a frame is admitted without the NM unit. -/
theorem admitFrame_nm (p : Nat) (bytes : List Byte) (cls vid : Nat) (sub : Submitter) (mark : Option (Nat × Bool)) (stamp raw : Nat) (ports : List Nat) (s : State) :
    (admitFrame p bytes cls vid sub mark stamp raw ports s).nm =
      (sluicePorts cls (sluiceKey p bytes (frameNumbered s)) ports none (frameNumbered s)).2.2.nm := by
  unfold admitFrame
  extract_lets cells id single s1
  split
  next left slept s2 heq =>
    extract_lets refused good s3 half
    have h3 : s3.nm = s2.nm := foldl_keeps (f := State.nm) (fun s r => by split <;> rfl) _ _
    have hhalf : ∀ b x, (half b x).1.nm = x.1.nm := by
      intro b x
      unfold half
      split
      extract_lets qs
      split
      · rfl
      split
      · exact poolTake_nm ..
      · rfl
    clear_value half
    split
    next s4 copies failed heq' =>
      have h4 : s4.nm = s3.nm := by
        have hs4 := congrArg (fun x => x.1.nm) heq'
        exact hs4.symm.trans ((hhalf ..).trans (hhalf ..))
      rw [frameCheck_nm, updSw_nm, h4, h3]
      exact (congrArg (fun x => x.2.2.nm) heq).symm

/-! ### What a segment's ring and its Sluice see of the rest -/

/-- The NM unit, and the state of a segment. -/
def segsOf (g : Fin 35) (s : State) : NmSt × Nat := (s.nm, segState g s)

section
variable {g : Fin 35} {s : State}

theorem segState_of_segsOf {t : State} (h : segsOf g t = segsOf g s) : segState g t = segState g s := congrArg Prod.snd h

theorem segsOf_congr {t : State} (hn : t.nm = s.nm) (hr : t.regs = s.regs) : segsOf g t = segsOf g s :=
  Prod.ext hn (congrArg (fun w : Word => bits w.toNat 2 0) (rd_congr hr (R.NM_SEG_STATUS_s g.1)))

/-- The status register of a segment lies 20 bytes above a multiple of 32. -/
theorem segsOf_wr {a : Nat} (h : a % 32 ≠ 20) (v : Word) (s : State) : segsOf g (wr a v s) = segsOf g s := by
  have ha : (F.NM_SEG_STATUS_s_STATE g.1).addr ≠ a := by
    simp only [F.NM_SEG_STATUS_s_STATE, R.NM_SEG_STATUS_s]
    omega
  exact Prod.ext rfl (fget_wr_other _ v s ha)

theorem segsOf_bump {a : Nat} (h : a % 32 ≠ 20) (s : State) : segsOf g (bump a s) = segsOf g s := segsOf_wr h _ s

theorem segsOf_raise {f : Fld} (h : f.addr % 32 ≠ 20) (n : Nat) (s : State) : segsOf g (raise f n s) = segsOf g s := segsOf_wr h _ s

theorem segsOf_lower {f : Fld} (h : f.addr % 32 ≠ 20) (n : Nat) (s : State) : segsOf g (lower f n s) = segsOf g s := segsOf_wr h _ s

theorem segsOf_updSw (f : SwSt → SwSt) (s : State) : segsOf g (updSw f s) = segsOf g s := rfl

theorem segsOf_tblPut (t i : Nat) (v : BitVec 128) (s : State) : segsOf g (tblPut t i v s) = segsOf g s := segsOf_updSw ..

theorem segsOf_addrRefresh (i : Nat) (s : State) : segsOf g (addrRefresh i s) = segsOf g s := segsOf_updSw ..

/-! ### A gPTP frame on its way to the Sluice (R220, R223, R228) -/

theorem segsOf_swEvent (n : Nat) (s : State) : segsOf g (raise F.SW_EVENT n s) = segsOf g s := segsOf_raise (by simp [F.SW_EVENT, R.SW_EVENT]) n s

theorem segsOf_learnAddr (p vid : Nat) (bytes : List Byte) (s : State) : segsOf g (learnAddr p vid bytes s) = segsOf g s := by
  have hm : R.SW_MOVE_p p % 32 ≠ 20 := by
    simp only [R.SW_MOVE_p]
    omega
  have hf : R.SW_LEARN_FAIL_CNT % 32 ≠ 20 := by simp [R.SW_LEARN_FAIL_CNT]
  unfold learnAddr
  extract_lets v fid mac
  split
  · rfl
  split
  · dsimp only
    split
    · rfl
    split
    · exact segsOf_addrRefresh ..
    · exact ((segsOf_addrRefresh ..).trans (segsOf_tblPut ..)).trans (segsOf_bump hm s)
  split
  · exact (segsOf_addrRefresh ..).trans (segsOf_tblPut ..)
  · exact (segsOf_swEvent _ _).trans (segsOf_bump hf s)

theorem segsOf_meterFrame (m len : Nat) (s : State) : segsOf g (meterFrame m len s).2 = segsOf g s := by
  unfold meterFrame
  extract_lets e cbs ebs k dt c surplus c1 x need put
  split
  · exact segsOf_updSw ..
  split
  · exact segsOf_updSw ..
  · exact segsOf_updSw ..

theorem segsOf_dropStream (p c : Nat) (s : State) : segsOf g (dropStream p c s) = segsOf g s := by
  refine segsOf_bump ?_ s
  simp only [R.SW_DROP_STREAM_p_c]
  omega

theorem segsOf_streamChecks (i p cls : Nat) (bytes : List Byte) (s : State) : segsOf g (streamChecks i p cls bytes s).2 = segsOf g s := by
  unfold streamChecks
  extract_lets e maxSdu
  split
  · exact segsOf_dropStream ..
  split
  · refine (segsOf_dropStream p cls _).trans (whenB_keeps (f := segsOf g) (fun u => ?_) _ s)
    exact segsOf_swEvent ..
  split
  split
  · exact segsOf_dropStream ..
  split
  · split
    next heq =>
      have hm := (congrArg (fun x => segsOf g x.2) heq).symm.trans (segsOf_meterFrame ..)
      split
      · exact (segsOf_dropStream ..).trans hm
      · exact hm
  · rfl

theorem segsOf_ingressChecks (p vid cls : Nat) (tagged : List Byte) (s : State) : segsOf g (ingressChecks p vid cls tagged s).2.2 = segsOf g s := by
  unfold ingressChecks
  extract_lets handle
  clear_value handle
  split
  · exact segsOf_streamChecks ..
  · rfl

theorem segsOf_ptpIngress (p cls : Nat) (bytes : List Byte) (s : State) : segsOf g (ptpIngress p cls bytes s).2 = segsOf g s := by
  have hr : R.SW_RX_p_c p cls % 32 ≠ 20 := by
    simp only [R.SW_RX_p_c]
    omega
  exact (segsOf_ingressChecks ..).trans ((segsOf_learnAddr ..).trans (segsOf_bump hr s))

theorem segsOf_settleCredit (p c : Nat) (s : State) : segsOf g (settleCredit p c s) = segsOf g s := by
  unfold settleCredit
  split
  · rfl
  · exact segsOf_updSw ..

theorem segsOf_settleAll (ports : List Nat) (s : State) : segsOf g (settleAll ports s) = segsOf g s :=
  foldl_keeps (f := segsOf g) (fun u q => forN_keeps (f := segsOf g) (fun c v => segsOf_settleCredit q c v) 8 u) ports s

/-! ### A wisp is sent (R335, R337, R341) -/

/-- The Sluice of an awake segment lets everything pass. -/
theorem sluice_awake (h : segState g s = 1) (key : Nat) : sluice g key s = (.pass, s) := by
  simp [sluice, h, segAwake]

/-- P0 and P1 are one segment: while it is awake both take a frame. -/
theorem sluicePorts_backbone (h : segState 12 s = 1) (c key : Nat) : sluicePorts c key [0, 1] none s = ([0, 1], none, s) := by
  have h0 : etherSluice 0 key none s = ((1, .pass), s) := by
    simp [etherSluice, portSeg, sluice_awake h, h]
  have h1 : etherSluice 1 key (some (1, .pass)) s = ((1, .pass), s) := rfl
  simp [sluicePorts, h0, h1, whenB]

/-- While the backbone is awake a wisp leaves it through port T without a change of the NM unit. -/
theorem wispToBackbone_nm (h : segState 12 s = 1) (b : List Byte) : (wispToBackbone b s).nm = s.nm := by
  unfold wispToBackbone
  split
  · rfl
  split
  next t heq => exact congrArg Prod.fst ((congrArg (fun x => segsOf 12 x.2) heq).symm.trans (segsOf_ptpIngress ..))
  next cls t heq =>
    have ht : segsOf 12 t = segsOf 12 s := (congrArg (fun x => segsOf 12 x.2) heq).symm.trans (segsOf_ptpIngress ..)
    have hn : segsOf 12 (frameNumbered (settleAll [0, 1] t)) = segsOf 12 s := (segsOf_settleAll ..).trans ht
    rw [admitFrame_nm, sluicePorts_backbone ((segState_of_segsOf hn).trans h)]
    exact congrArg Prod.fst hn

/-- The wisp that the Z480 sends (R335). -/
def wispWord (g : Fin 35) (run flags : Nat) (s : State) : Nat :=
  ownNode g s + successor g s * 2 ^ 8 + run * 2 ^ 16 + flags * 2 ^ 24 + (seg g s).seq * 2 ^ 32

/-- What a segment keeps of a wisp that it sends. -/
def wispNoted (g : Fin 35) (run flags : Nat) (s : State) (y : NmSeg) : NmSeg :=
  { y with sent := some (wispFrame g (wispWord g run flags s) s), seq := ((seg g s).seq + 1) % 256, lastDst := some (successor g s) }

/-- A wisp that is made, before it goes to its bus. -/
def wispMade (g : Fin 35) (run flags : Nat) (s : State) : State :=
  wispWithhold g (ownNode g s) run flags (updSeg g (wispNoted g run flags s) s)

theorem sendWisp_can (h : g.1 < 12) (run flags : Nat) (s : State) :
    sendWisp g run flags s = wispToCan ⟨g.1, h⟩ (wispWord g run flags s) (wispMade g run flags s) := dif_pos h

theorem sendWisp_backbone (h : ¬ g.1 < 12) (run flags : Nat) (s : State) :
    sendWisp g run flags s = wispToBackbone (wispEther (wispFrame g (wispWord g run flags s) s)) (wispMade g run flags s) := dif_neg h

theorem segsOf_ctlWrite (k : Fin 35) (s : State) : segsOf g (ctlWrite k s) = segsOf g s := segsOf_congr (ctlWrite_nm k s) (ctlWrite_regs k s)

theorem segsOf_withhold (k : Fin 35) (n : Nat) (on : Bool) (s : State) : segsOf g (withhold k n on s) = segsOf g s := by
  have hf : (if n < 32 then F.NM_WITHHOLD_LO_s k.1 else F.NM_WITHHOLD_HI_s k.1).addr % 32 ≠ 20 := by
    split
    · simp only [F.NM_WITHHOLD_LO_s, R.NM_WITHHOLD_LO_s]
      omega
    · simp only [F.NM_WITHHOLD_HI_s, R.NM_WITHHOLD_HI_s]
      omega
  refine (segsOf_ctlWrite k _).trans ?_
  cases on with
  | true => exact segsOf_raise hf _ s
  | false => exact segsOf_lower hf _ s

theorem segsOf_wispWithhold (k : Fin 35) (n run flags : Nat) (s : State) : segsOf g (wispWithhold k n run flags s) = segsOf g s := by
  unfold wispWithhold
  split
  · exact segsOf_withhold ..
  split
  · exact segsOf_withhold ..
  · rfl

/-- A wisp that is sent changes of its segment what `wispNoted` says, and nothing of the others. -/
theorem sendWisp_nm (hg : g.1 < 12 ∨ g.1 = 12 ∧ segState g s = 1) (run flags : Nat) :
    (sendWisp g run flags s).nm = (updSeg g (wispNoted g run flags s) s).nm := by
  have hm : ∀ k, segsOf k (wispMade g run flags s) = segsOf k (updSeg g (wispNoted g run flags s) s) := fun k => segsOf_wispWithhold ..
  refine Eq.trans ?_ (congrArg Prod.fst (hm g))
  obtain hg | ⟨hg, h1⟩ := hg
  · rw [sendWisp_can hg]
    exact dropWisps_nm _ _
  · have hb : g = 12 := Fin.ext hg
    rw [sendWisp_backbone (by omega)]
    refine wispToBackbone_nm ((segState_of_segsOf (hm 12)).trans ?_) _
    rw [← hb]
    exact h1

theorem seg_sendWisp (hg : g.1 < 12 ∨ g.1 = 12 ∧ segState g s = 1) (run flags : Nat) :
    seg g (sendWisp g run flags s) = wispNoted g run flags s (seg g s) := by
  rw [seg, sendWisp_nm hg, ← seg, seg_updSeg_same]

/-- On CAN a wisp waits as an item that the Sluice does not hold. -/
theorem wisp_waits {c : Fin 12} (hc : c.1 = g.1) (run flags : Nat) (s : State) :
    ∃ y ∈ (canSt c (sendWisp g run flags s)).items, y.src = .wisp (wispWord g run flags s) ∧ y.held = false := by
  have hg : g.1 < 12 := hc ▸ c.2
  obtain rfl : c = ⟨g.1, hg⟩ := Fin.ext hc
  rw [sendWisp_can hg, wispToCan, canSt]
  dsimp only
  rw [upd_get_same]
  exact ⟨_, List.mem_append_right _ (List.mem_singleton_self _), rfl, rfl⟩

/-! ### Consensus (R338) -/

theorem consensus_awake (h : segState g s = 1) : consensus g s = if ownConsent g s then enterPrepare g s else sendWisp g 0xFF 2 s :=
  if_neg (not_not_intro h)

theorem consensus_elsewhere (h : segState g s ≠ 1) : consensus g s = s := if_pos h

theorem wispSent_agreed {c : Fin 12} (hc : c.1 = g.1) (w : Nat) (s : State) : wispSent c w s = if w.testBit 24 = true then consensus g s else s := by
  have hg : g = ⟨c.1, by omega⟩ := Fin.ext hc.symm
  rw [hg]
  rfl

/-! ### A wisp is taken (R336-R338, R340, R341) -/

theorem ringOf_eq {r : Fin 13} (hg : g.1 = r.1) : ringOf r = g := Fin.ext hg.symm

theorem exec_wispReceive {r : Fin 13} (hg : g.1 = r.1) (w : BitVec 64) (s : State) : exec (.wispReceive r w) s = .next (wispAccept g w s) := by
  rw [← ringOf_eq hg]
  rfl

theorem wispByte_eq (w : BitVec 64) (k : Nat) : wispByte w k = w.toNat / 2 ^ (8 * k) % 256 := by
  have h8 : 8 * k + 7 + 1 - 8 * k = 8 := by omega
  exact congrArg (fun n => w.toNat / 2 ^ (8 * k) % 2 ^ n) h8

/-- The source and the destination of a wisp are the low six bits of their bytes. -/
theorem wispNode_eq (w : BitVec 64) (k : Nat) : wispByte w k % 64 = w.toNat / 2 ^ (8 * k) % 64 := by
  rw [wispByte_eq, Nat.mod_mod_of_dvd _ (by decide)]

theorem wispSource_eq (w : BitVec 64) : wispByte w 0 % 64 = w.toNat % 64 := by
  rw [wispNode_eq, Nat.mul_zero, Nat.pow_zero, Nat.div_one]

theorem wispFlag_eq (w : BitVec 64) {k : Nat} (hk : k < 8) : (wispByte w 3).testBit k = w.getLsbD (24 + k) := by
  rw [wispByte, testBit_bits, decide_eq_true (by omega), Bool.true_and]
  rfl

/-- What a wisp that is taken does, before it may be sent on: it is noted, its node withholds or agrees, and it may abort the prepare window. -/
def wispHeard (g : Fin 35) (w : BitVec 64) (s : State) : State :=
  let src := w.toNat % 64
  let run := w.toNat / 2 ^ 16 % 256
  let x := updSeg g (fun x => { x with
    members := x.members ||| 2 ^ src, lastSeq := x.lastSeq.filter (fun p => p.1 != src) ++ [(src, w.toNat / 2 ^ 32 % 256)],
    lastDst := some (w.toNat / 2 ^ 8 % 64), ring := s.now, regen := none }) s
  let v := if (w.getLsbD 26 = false ∧ run = 0xFF) ∨ w.getLsbD 25 = true then withhold g src true x else if run ≠ 0xFF then withhold g src false x else x
  let y := if w.getLsbD 24 = true then consensus g v else v
  if w.getLsbD 25 = true ∧ segState g y = 2 then abortPrepare g wakeAbort y else y

/-- A wisp is not taken where the ring is out of service, nor when its node's latest one had its number. -/
theorem wispAccept_ignored {w : BitVec 64} (h : ftst F.NM_CTRL_EN s = false ∨ segState g s = 0 ∨ segState g s = 7 ∨
    (seg g s).lastSeq.find? (fun p => p.1 == w.toNat % 64) = some (w.toNat % 64, w.toNat / 2 ^ 32 % 256)) : wispAccept g w s = s := by
  have hnum : wispByte w 4 = w.toNat / 2 ^ 32 % 256 := wispByte_eq w 4
  simp only [wispAccept, wispSource_eq, hnum]
  obtain h | h | h | h := h
  · simp [h]
  · simp [h, segDisabled]
  · simp [h, segLost]
  · simp [h]

theorem wispAccept_taken {w : BitVec 64} (he : ftst F.NM_CTRL_EN s = true) (h0 : segState g s ≠ 0) (h7 : segState g s ≠ 7)
    (hn : (seg g s).lastSeq.find? (fun p => p.1 == w.toNat % 64) ≠ some (w.toNat % 64, w.toNat / 2 ^ 32 % 256)) :
    wispAccept g w s = if w.toNat / 2 ^ 8 % 64 = ownNode g (wispHeard g w s) ∧ segState g (wispHeard g w s) ≠ 6
      then updSeg g (fun x => { x with
        forward := some (w.toNat / 2 ^ 16 % 256, (wispHeard g w s).now + fget (F.NM_SEG_TIME_s_HOP_MS g.1) (wispHeard g w s) * 1000000) }) (wispHeard g w s)
      else wispHeard g w s := by
  have hdst : wispByte w 1 % 64 = w.toNat / 2 ^ 8 % 64 := wispNode_eq w 1
  have hrun : wispByte w 2 = w.toNat / 2 ^ 16 % 256 := wispByte_eq w 2
  have hnum : wispByte w 4 = w.toNat / 2 ^ 32 % 256 := wispByte_eq w 4
  have hagreed : (wispByte w 3).testBit 0 = w.getLsbD 24 := wispFlag_eq w (by decide)
  have habort : (wispByte w 3).testBit 1 = w.getLsbD 25 := wispFlag_eq w (by decide)
  have hregen : (wispByte w 3).testBit 2 = w.getLsbD 26 := wispFlag_eq w (by decide)
  have hin : ¬ (!ftst F.NM_CTRL_EN s || segState g s == segDisabled || segState g s == segLost) = true := by
    simp [he, h0, h7, segDisabled, segLost]
  simp only [wispAccept, wispSource_eq, hdst, hrun, hnum, wispWithhold, hagreed, habort, hregen, if_neg hin, if_neg hn]
  rfl

/-! ### A wisp is sent on (R337, R338) -/

/-- The wisp that a segment sends on: a run that begins, ends or goes on, as the Z480 consents. -/
theorem exec_wispForward {r : Fin 13} (hg : g.1 = r.1) {run due : Nat} (hf : (seg g s).forward = some (run, due)) (hd : due ≤ s.now) :
    let x := updSeg g (fun x => { x with forward := none }) s
    exec (.wispForward r) s = .next (
      if segState g s ≠ 1 then x
      else if ownConsent g x = false then sendWisp g 0xFF 0 x
      else if run = 0xFF then sendWisp g (ownNode g s) 0 x
      else if run = ownNode g s then sendAgreed g run x
      else sendWisp g run 0 x) := by
  intro x
  have hx : updSeg g (fun x => { x with forward := none }) (elapseTo due s) = x := by rw [elapseTo_past hd]
  change execWispForward r s = _
  simp only [execWispForward, ringOf_eq hg, hf, hx, Bool.not_eq_true']
  rfl

theorem sendAgreed_ring (hg : g.1 ≤ 12) (run : Nat) (s : State) :
    sendAgreed g run s = if g.1 = 12 then consensus g (sendWisp g run 1 s) else sendWisp g run 1 s := by
  have h12 : 12 ≤ g.1 ↔ g.1 = 12 := by omega
  simp only [sendAgreed, whenB, decide_eq_true_eq, h12]

/-! ### A wisp is lost and made anew (R340) -/

theorem exec_ringLost {r : Fin 13} (hg : g.1 = r.1) (h : segState g s = 1) (he : ftst F.NM_CTRL_EN s = true) (hr : (seg g s).regen = none)
    (ht : (seg g s).ring + clampNat 10 1000 (fget (F.NM_SEG_TIME_s_RING_MS g.1) s) * 1000000 ≤ s.now) :
    exec (.ringLost r) s = .next (updSeg g (fun x => { x with regen := some (s.now + ownNode g s * 1000000) }) s) := by
  change execRingLost r s = _
  simp [execRingLost, ringOf_eq hg, segAwake, h, he, hr, elapseTo_past ht]

/-- A segment as its wisp is made anew: the node that the latest wisp was for leaves the member table, unless that is the Z480. -/
def ringAnew (me now : Nat) (x : NmSeg) : NmSeg :=
  { x with
    regen := none
    ring := now
    members := (match x.lastDst with
      | some d => if d = me then x.members else x.members &&& (2 ^ 64 - 1 - 2 ^ d)
      | none => x.members) }

theorem ringAnew_silent {me now d : Nat} {x : NmSeg} (hl : x.lastDst = some d) (hne : d ≠ me) :
    ringAnew me now x = { x with regen := none, ring := now, members := x.members &&& (2 ^ 64 - 1 - 2 ^ d) } := by
  simp only [ringAnew, hl, if_neg hne]

/-- The node that did not answer leaves the member table, and a run begins anew. -/
theorem exec_wispRegenerate {r : Fin 13} (hg : g.1 = r.1) {due d : Nat} (h : segState g s = 1) (hr : (seg g s).regen = some due) (hd : due ≤ s.now)
    (hl : (seg g s).lastDst = some d) (hne : d ≠ ownNode g s) :
    exec (.wispRegenerate r) s = .next (sendWisp g 0xFF 4 (raise F.NM_EVENT 2 (bump R.NM_RING_REGEN
      (updSeg g (fun x => { x with regen := none, ring := s.now, members := x.members &&& (2 ^ 64 - 1 - 2 ^ d) }) s)))) := by
  have hn : ¬ segState g s ≠ segAwake := not_not_intro h
  have hx : updSeg g (ringAnew (ownNode g s) s.now) s =
      updSeg g (fun x => { x with regen := none, ring := s.now, members := x.members &&& (2 ^ 64 - 1 - 2 ^ d) }) s :=
    updSeg_congr (ringAnew_silent hl hne)
  rw [← hx]
  change execWispRegenerate r s = _
  simp only [execWispRegenerate, ringOf_eq hg, hr, if_neg hn, elapseTo_past hd]
  rfl

end

/-- Settles O33: a wisp that is sent changes the segment as `wispNoted` says, and a wisp that is taken does what `wispHeard` says. -/
theorem wispRing : Obligations.WispRing := by
  refine ⟨fun r g w s hg he h0 h7 => ?_, fun r g w s hg h => ?_, fun g s => ⟨fun h => consensus_elsewhere h, fun h => ⟨fun hc => ?_, fun hc => ?_⟩⟩,
    fun r g run due s hg hf hd => ?_, fun g run flags s hg => ⟨seg_sendWisp hg run flags, fun c hc => wisp_waits hc run flags s⟩,
    fun c g w s hc => wispSent_agreed hc w s, fun r g s hg h he hr ht => exec_ringLost hg h he hr ht,
    fun r g due d s hg h hr hd hl hne => exec_wispRegenerate hg h hr hd hl hne⟩
  · intro src dst run agreed abort regen n hn x v y z
    have ht := wispAccept_taken he h0 h7 hn
    rw [exec_wispReceive hg]
    have hout : dst ≠ ownNode g z ∨ segState g z = 6 → ¬ (dst = ownNode g z ∧ segState g z ≠ 6) := by
      rintro h ⟨hd, h6⟩
      exact h.elim (· hd) h6
    exact ⟨fun hd h6 => congrArg _ (ht.trans (if_pos ⟨hd, h6⟩)), fun h => congrArg _ (ht.trans (if_neg (hout h)))⟩
  · rw [exec_wispReceive hg, wispAccept_ignored h]
  · rw [consensus_awake h, if_pos hc]
  · rw [consensus_awake h, if_neg (by simp [hc])]
  · intro x
    have hx := exec_wispForward hg hf hd
    refine ⟨fun h => hx.trans (by rw [if_pos h]), fun h => ?_⟩
    rw [hx, if_neg (not_not_intro h)]
    refine ⟨fun hc => by rw [if_pos hc], fun hc hr => by simp [x, hc, hr], fun hc hr hm => ?_, fun hc hr hm => by simp [x, hc, hr, hm]⟩
    rw [if_neg (by simp [x, hc]), if_neg hr, if_pos hm, sendAgreed_ring (by omega)]

end Sys2Proof.Machine

/-!
What a fold over a fixed family does to one member, and the bits and flags of registers (O36, O38, O39, O49).
-/
namespace Sys2Proof.Machine

/-! ### A fold over a fixed family -/

/-- An observation that only the step of member `i` moves is moved once by the whole fold. -/
theorem forFin_at {n : Nat} {β : Type} {f : Fin n → State → State} {obs : State → β} {g : β → β} {i : Fin n} (hi : ∀ s, obs (f i s) = g (obs s))
    (ho : ∀ j, j ≠ i → ∀ s, obs (f j s) = obs s) (s : State) : obs (forFin n f s) = g (obs s) := by
  have hfold : ∀ l : List (Fin n), l.Nodup → ∀ s, obs (l.foldl (fun s j => f j s) s) = if i ∈ l then g (obs s) else obs s := by
    intro l hl
    induction l with
    | nil => simp
    | cons j l ih =>
      intro s
      obtain ⟨hj, hl⟩ := List.nodup_cons.1 hl
      rw [List.foldl_cons, ih hl]
      by_cases h : j = i
      · subst h
        simp [hj, hi]
      · simp [ho j h, Ne.symm h]
  exact (hfold _ (List.nodup_finRange n) s).trans (if_pos (List.mem_finRange i))

theorem forFin_keeps {n : Nat} {β : Type} {f : Fin n → State → State} {obs : State → β} (h : ∀ j s, obs (f j s) = obs s) (s : State) :
    obs (forFin n f s) = obs s :=
  foldl_keeps (fun s j => h j s) _ s

/-! ### Bits of a mask -/

theorem getLsbD_or_bit {w : Nat} (x : BitVec w) (i : Nat) {j : Nat} (hj : j < w) : (x ||| BitVec.ofNat w (2 ^ i)).getLsbD j = (x.getLsbD j || decide (i = j)) := by
  simp only [BitVec.getLsbD_or, BitVec.getLsbD_ofNat, Nat.testBit_two_pow, hj, decide_true, Bool.true_and]

theorem getLsbD_and_not_bit {w : Nat} (x : BitVec w) (i : Nat) {j : Nat} (hj : j < w) :
    (x &&& ~~~(BitVec.ofNat w (2 ^ i))).getLsbD j = (x.getLsbD j && !decide (i = j)) := by
  simp only [BitVec.getLsbD_and, BitVec.getLsbD_not, BitVec.getLsbD_ofNat, Nat.testBit_two_pow, hj, decide_true, Bool.true_and]

/-- A bit of a mask after it is set or cleared. -/
theorem getLsbD_put {w i : Nat} (hi : i < w) (v : Bool) (x : BitVec w) :
    (if v then x ||| BitVec.ofNat w (2 ^ i) else x &&& ~~~(BitVec.ofNat w (2 ^ i))).getLsbD i = v := by
  cases v
  · rw [if_neg (by decide), getLsbD_and_not_bit _ _ hi, decide_eq_true rfl, Bool.not_true, Bool.and_false]
  · rw [if_pos rfl, getLsbD_or_bit _ _ hi, decide_eq_true rfl, Bool.or_true]

/-! ### Flags -/

theorem fbit_lower (f : Fld) (n : Nat) (s : State) (h : f.lo + n < 32) : fbit f n (lower f n s) = false := by
  rw [fbit, lower, rd_wr_same, getLsbD_and_not_bit _ _ h]
  simp

theorem ftst_of_fget {f : Fld} {s t : State} (h : fget f t = fget f s) : ftst f t = ftst f s := congrArg (· != 0) h

/-- A flag after it is shown. -/
theorem ftst_fput_flag (f : Fld) (hlo : f.lo ≤ f.hi) (hhi : f.hi < 32) (b : Bool) (s : State) : ftst f (fput f (if b then 1 else 0) s) = b := by
  have hpow : 1 < 2 ^ (f.hi + 1 - f.lo) := Nat.one_lt_two_pow (by omega)
  rw [ftst, fget_fput_same _ _ _ hhi]
  cases b <;> simp [Nat.mod_eq_of_lt hpow]

/-- A whole number is its own rounding. -/
theorem roundNearest_natCast (k : Nat) : roundNearest (k : Rat) = k := by
  have hhalf : (1 / 2 : Rat).floor = 0 := by decide +kernel
  have hfloor : ((k : Rat) + 1 / 2).floor = (k : Int) := by
    rw [Rat.add_comm, ← Rat.intCast_natCast k, Rat.floor_add_intCast, hhalf, Int.zero_add]
  rw [roundNearest, if_pos Rat.natCast_nonneg, hfloor]

end Sys2Proof.Machine

/-!
Load commands on their way to the power die, and the field inputs (O36).
-/
namespace Sys2Proof.Machine

/-! ### Submission (R357) -/

theorem exec_cqSubmit {w : Initiator} {q : Fin 4} {s : State} (hl : Lets w (R.LOADCH_CQ_W_q_k q.1 3) true s) (w3 : Word) :
    exec (.cqSubmit w q w3) s = .next (cqSubmit q w3 (ok (entered w (R.LOADCH_CQ_W_q_k q.1 3) s))) := congrArg _ (regCmd_lets hl _)

section
variable {s : State}

theorem cqSubmit_full {q : Fin 4} (h : 32 ≤ s.pd.cq[q.1].length) (w3 : Word) :
    cqSubmit q w3 s = fput (F.LOADCH_CQ_STAT_q_LAST q.1) Status.failedRefused.code s := if_pos h

theorem cqSubmit_queued {q : Fin 4} (h : s.pd.cq[q.1].length < 32) (w3 : Word) :
    let c : PdCmd := ⟨(rd (R.LOADCH_CQ_W_q_k q.1 0) s).toNat, (rd (R.LOADCH_CQ_W_q_k q.1 1) s).toNat, (rd (R.LOADCH_CQ_W_q_k q.1 2) s).toNat, w3.toNat, s.now⟩
    cqSubmit q w3 s = fput (F.LOADCH_CQ_STAT_q_LAST q.1) 0 (showFill q (updPd (fun p => { p with cq := upd p.cq q fun l => l ++ [c] }) s)) :=
  if_neg (Nat.not_le.2 h)

/-! ### Application at the power die (R360, R361) -/

/-- The front command is applied by the row of its operation; an operation that the table does not have ends whichever row comes. -/
theorem pdApply_due {src : Fin 5} {c : PdCmd} (hc : pdHead src s = some c) (ha : laneAlive s = true) (ht : s.pd.lastApply + 1000 ≤ s.now) (op : Nat) :
    pdApply src op s = if bits c.w0 11 8 ≠ op ∧ bits c.w0 11 8 ≤ 6 then s else pdOutcome src c (updPd (fun p => { p with lastApply := s.now }) (pdPop src s)) := by
  simp only [pdApply, hc, ha, elapseTo_past ht, opOf, opBridge, Bool.not_true, Bool.false_eq_true, or_false]

/-- The row that applies an operation of the table. -/
def loadCommand (src : Fin 5) : Fin 7 → Instr
  | 0 => .off src
  | 1 => .on src
  | 2 => .pwm src
  | 3 => .clear src
  | 4 => .test src
  | 5 => .hbSet src
  | 6 => .bridge src

theorem exec_loadCommand (src : Fin 5) (op : Fin 7) (s : State) : exec (loadCommand src op) s = .next (pdApply src op.1 s) :=
  match op with
  | 0 | 1 | 2 | 3 | 4 | 5 | 6 => rfl

theorem exec_cmdLinkTimeout_due {src : Fin 5} {c : PdCmd} (hc : pdHead src s = some c) (ht : c.at_ + 1000000 ≤ s.now) :
    exec (.cmdLinkTimeout src) s = .next (pdRecord src c.w1 (bits c.w0 5 0) .failedTimeout 8 0 (pdPop src s)) := by
  change execCmdLinkTimeout src s = _
  simp only [execCmdLinkTimeout, hc, elapseTo_past ht]
  rfl

/-! ### Digital inputs (R392, R601) -/

theorem inDeep_eq_false (h : fget F.HERON_STATUS_STATE s ≠ 3) : inDeep s = false := beq_eq_false_iff_ne.2 h

theorem exec_diSample_powered (h : fget F.HERON_STATUS_STATE s ≠ 3) (mv : Vector Nat 48) :
    exec (.diSample mv) s = .next (forFin 48 (diSampleOne (diCompare mv s).fio.closed) (diCompare mv s)) := by
  change execDiSample mv s = _
  rw [execDiSample, if_neg (Bool.eq_false_iff.1 (inDeep_eq_false h))]

/-- A comparator at a voltage: closed, open, or as before. -/
def comparator (mv : Nat) (was : Bool) : Bool := if mv ≤ 2000 then true else if 4500 ≤ mv then false else was

/-- One comparator at its voltage. -/
def compareOne (mv : Vector Nat 48) (j : Fin 48) (s : State) : State :=
  if mv[j.1] ≤ 2000 then updFio (fun x => { x with closed := x.closed ||| BitVec.ofNat 48 (2 ^ j.1) }) s
  else if 4500 ≤ mv[j.1] then updFio (fun x => { x with closed := x.closed &&& ~~~(BitVec.ofNat 48 (2 ^ j.1)) }) s
  else s

theorem diCompare_eq (mv : Vector Nat 48) (s : State) : diCompare mv s = forFin 48 (compareOne mv) s := rfl

theorem closed_compareOne_same (mv : Vector Nat 48) (i : Fin 48) (s : State) :
    (compareOne mv i s).fio.closed.getLsbD i.1 = comparator mv[i.1] (s.fio.closed.getLsbD i.1) := by
  rw [compareOne, comparator]
  split
  · rw [updFio_fio, getLsbD_or_bit _ _ i.2, decide_eq_true rfl, Bool.or_true]
  · split
    · rw [updFio_fio, getLsbD_and_not_bit _ _ i.2, decide_eq_true rfl, Bool.not_true, Bool.and_false]
    · rfl

theorem closed_compareOne_other {i j : Fin 48} (h : j ≠ i) (mv : Vector Nat 48) (s : State) :
    (compareOne mv j s).fio.closed.getLsbD i.1 = s.fio.closed.getLsbD i.1 := by
  have hne : j.1 ≠ i.1 := fun e => h (Fin.ext e)
  rw [compareOne]
  split
  · rw [updFio_fio, getLsbD_or_bit _ _ i.2, decide_eq_false hne, Bool.or_false]
  · split
    · rw [updFio_fio, getLsbD_and_not_bit _ _ i.2, decide_eq_false hne, Bool.not_false, Bool.and_true]
    · rfl

theorem closed_diCompare (mv : Vector Nat 48) (i : Fin 48) (s : State) :
    (diCompare mv s).fio.closed.getLsbD i.1 = comparator mv[i.1] (s.fio.closed.getLsbD i.1) := by
  rw [diCompare_eq]
  exact forFin_at (f := compareOne mv) (obs := fun s => s.fio.closed.getLsbD i.1) (closed_compareOne_same mv i) (fun j hj => closed_compareOne_other hj mv) s

theorem diCompare_regs (mv : Vector Nat 48) (s : State) : (diCompare mv s).regs = s.regs := by
  rw [diCompare_eq]
  refine forFin_keeps (f := compareOne mv) (obs := State.regs) (fun j s => ?_) s
  unfold compareOne
  split
  · rfl
  · split <;> rfl

/-- The level that a sample gives an input, by its polarity. -/
def diLevel (l : BitVec 48) (i : Fin 48) (s : State) : Bool := l.getLsbD i.1 != ftst (F.FIO_DI_CFG_i_INV i.1) s

/-- How many samples in a row, with this one, have had the level. -/
def diRun (l : BitVec 48) (i : Fin 48) (s : State) : Nat := if s.fio.last.getLsbD i.1 == diLevel l i s then s.fio.count[i.1] + 1 else 1

/-- A sample noted beside the registers. -/
def diNoted (i : Fin 48) (v : Bool) (n : Nat) (s : State) : State :=
  updFio (fun x => { x with
    last := if v then x.last ||| BitVec.ofNat 48 (2 ^ i.1) else x.last &&& ~~~(BitVec.ofNat 48 (2 ^ i.1))
    count := x.count.set i.1 (min n 16) i.2 }) s

/-- A debounced change shown in DI_STATE and DI_CHG. -/
def diShown (i : Fin 48) (v : Bool) (s : State) : State :=
  raise (F.FIO_DI_CHG_k (i.1 / 32)) (i.1 % 32)
    (if v then raise (F.FIO_DI_STATE_k (i.1 / 32)) (i.1 % 32) s else lower (F.FIO_DI_STATE_k (i.1 / 32)) (i.1 % 32) s)

theorem diSampleOne_disabled {i : Fin 48} (he : ftst (F.FIO_DI_CFG_i_EN i.1) s = false) (l : BitVec 48) : diSampleOne l i s = s := by
  simp [diSampleOne, he]

theorem diSampleOne_enabled {i : Fin 48} (he : ftst (F.FIO_DI_CFG_i_EN i.1) s = true) (l : BitVec 48) :
    diSampleOne l i s = if max 1 (fget (F.FIO_DI_CFG_i_DEB i.1) s) ≤ diRun l i s ∧ fbit (F.FIO_DI_STATE_k (i.1 / 32)) (i.1 % 32) s ≠ diLevel l i s
      then diShown i (diLevel l i s) (diNoted i (diLevel l i s) (diRun l i s) s) else diNoted i (diLevel l i s) (diRun l i s) s := by
  have hcond : ∀ (a : Prop) [Decidable a] (x y : Bool), ((decide a && x != y) = true) = (a ∧ x ≠ y) := by simp
  rw [diSampleOne, he, Bool.not_true, if_neg Bool.false_ne_true]
  simp only [diBit, hcond]
  rfl

theorem state_diShown (i : Fin 48) (v : Bool) (s : State) : fbit (F.FIO_DI_STATE_k (i.1 / 32)) (i.1 % 32) (diShown i v s) = v := by
  have hbit : (F.FIO_DI_STATE_k (i.1 / 32)).lo + i.1 % 32 < 32 := by simp only [F.FIO_DI_STATE_k]; omega
  rw [diShown, fbit_raise_other _ _ _ _ _ (by simp [F.FIO_DI_STATE_k, F.FIO_DI_CHG_k, R.FIO_DI_STATE_k, R.FIO_DI_CHG_k])]
  cases v
  · exact fbit_lower _ _ _ hbit
  · exact fbit_raise _ _ _ hbit

theorem fio_diShown (i : Fin 48) (v : Bool) (s : State) : (diShown i v s).fio = s.fio := by
  cases v <;> rfl

theorem count_diNoted (i : Fin 48) (v : Bool) (n : Nat) (s : State) : (diNoted i v n s).fio.count[i.1] = min n 16 := Vector.getElem_set_self ..

/-- What one sample of an enabled input leaves: its debounced state, and the count of equal samples. -/
theorem diSampleOne_shows {i : Fin 48} (he : ftst (F.FIO_DI_CFG_i_EN i.1) s = true) (l : BitVec 48) :
    (max 1 (fget (F.FIO_DI_CFG_i_DEB i.1) s) ≤ diRun l i s → fbit (F.FIO_DI_STATE_k (i.1 / 32)) (i.1 % 32) (diSampleOne l i s) = diLevel l i s) ∧
    (diRun l i s < max 1 (fget (F.FIO_DI_CFG_i_DEB i.1) s) → (diSampleOne l i s).regs = s.regs) ∧ (diSampleOne l i s).fio.count[i.1] = min (diRun l i s) 16 := by
  rw [diSampleOne_enabled he]
  split
  · next h => exact ⟨fun _ => state_diShown .., fun hlt => absurd h.1 (Nat.not_le.2 hlt),
      (congrArg (fun x : FioSt => x.count[i.1]) (fio_diShown ..)).trans (count_diNoted ..)⟩
  · next h => exact ⟨fun hle => Decidable.byContradiction fun hne => h ⟨hle, hne⟩, fun _ => rfl, count_diNoted ..⟩

/-! ### Analogue inputs (R394, R403, R602) -/

theorem aiCode_over {uv : Nat} (h : 5000000 < uv) (err : Fin 13) : aiCode uv err = 0xFFF := if_pos h

theorem aiCode_within {uv : Nat} (h : uv ≤ 5000000) (err : Fin 13) :
    aiCode uv err ≤ 0xFFF ∧ aiCode uv err ≤ uv * 4096 / 5000000 + 6 ∧ uv * 4096 / 5000000 ≤ aiCode uv err + 6 := by
  rw [aiCode, if_neg (Nat.not_lt.2 h), clampNat]
  omega

theorem aiCode_le (uv : Nat) (err : Fin 13) : aiCode uv err ≤ 0xFFF := by
  obtain h | h := Nat.lt_or_ge 5000000 uv
  · exact Nat.le_of_eq (aiCode_over h err)
  · exact (aiCode_within h err).1

/-- A conversion kept, and its code shown with a new sequence number. -/
def aiValued (j : Fin 16) (code : Nat) (s : State) : State :=
  fput (F.FIO_AI_VAL_j_SEQ j.1) (fget (F.FIO_AI_VAL_j_SEQ j.1) s + 1)
    (fput (F.FIO_AI_VAL_j_VALUE j.1) code (updFio (fun x => { x with hist := upd x.hist j fun l => (code :: l).take 16 }) s))

/-- Whether a value lies outside the input's window. -/
def aiOutside (j : Fin 16) (v : Nat) (s : State) : Bool :=
  decide (v < fget (F.FIO_AI_WIN_j_LO j.1) s) || decide (fget (F.FIO_AI_WIN_j_HI j.1) s < v)

/-- A value judged by its window: an excursion that begins raises the input's event. -/
def aiJudged (j : Fin 16) (v : Nat) (s : State) : State :=
  whenB (aiOutside j v s && !s.fio.out.getLsbD j.1) (raise F.FIO_AI_EVT j.1)
    (updFio (fun x => { x with out := if aiOutside j v s then x.out ||| BitVec.ofNat 16 (2 ^ j.1) else x.out &&& ~~~(BitVec.ofNat 16 (2 ^ j.1)) }) s)

/-- The mean of one conversion is its code. -/
theorem mean_single (code : Nat) (l : List Nat) :
    (roundNearest ((((((code :: l).take 16).take 1).foldl (· + ·) 0 : Nat) : Rat) / (max 1 (((code :: l).take 16).take 1).length : Nat))).toNat = code := by
  have hsum : (((code :: l).take 16).take 1).foldl (· + ·) 0 = code := Nat.zero_add code
  have hlen : max 1 (((code :: l).take 16).take 1).length = 1 := rfl
  have hmean : (code : Rat) / ((1 : Nat) : Rat) = code := by grind
  rw [hsum, hlen, hmean, roundNearest_natCast, Int.toNat_natCast]

theorem aiAvg_one {j : Nat} (h : fget (F.FIO_AI_CFG_j_AVG j) s = 0) : aiAvg j s = 1 := by
  simp [aiAvg, h]

theorem exec_aiConvert_single {j : Fin 16} (hd : fget F.HERON_STATUS_STATE s ≠ 3) (he : ftst (F.FIO_AI_CFG_j_EN j.1) s = true)
    (ha : fget (F.FIO_AI_CFG_j_AVG j.1) s = 0) (uv : Nat) (err : Fin 13) :
    exec (.aiConvert j ⟨uv, err⟩ false) s = .next (aiJudged j (aiCode uv err) (aiValued j (aiCode uv err) s)) := by
  have havg : aiAvg j.1 (updFio (fun x => { x with hist := upd x.hist j fun l => (aiCode uv err :: l).take 16 }) s) = 1 := aiAvg_one ha
  change execAiConvert j ⟨uv, err⟩ false s = _
  have hon : (inDeep s || !ftst (F.FIO_AI_CFG_j_EN j.1) s) = false := by simp [inDeep_eq_false hd, he]
  simp only [execAiConvert, whenB, Bool.false_eq_true, if_false, hon, havg, updFio_fio, upd_get_same, mean_single]
  rfl

theorem value_aiValued (j : Fin 16) (code : Nat) (s : State) : fget (F.FIO_AI_VAL_j_VALUE j.1) (aiValued j code s) = code % 2 ^ 12 := by
  rw [aiValued, fget_fput_beside (F.FIO_AI_VAL_j_SEQ j.1) (F.FIO_AI_VAL_j_VALUE j.1) _ _ rfl (by show 11 < 32; decide) (.inl (by show 11 < 16; decide)),
    fget_fput_same _ _ _ (by show 11 < 32; decide)]
  rfl

theorem hist_aiValued (j : Fin 16) (code : Nat) (s : State) : (aiValued j code s).fio.hist[j.1] = (code :: s.fio.hist[j.1]).take 16 := upd_get_same ..

theorem low_aiValued (j : Fin 16) (code : Nat) (s : State) : fget (F.FIO_AI_WIN_j_LO j.1) (aiValued j code s) = fget (F.FIO_AI_WIN_j_LO j.1) s := by
  have hne : (F.FIO_AI_WIN_j_LO j.1).addr ≠ R.FIO_AI_VAL_j j.1 := by simp only [F.FIO_AI_WIN_j_LO, R.FIO_AI_WIN_j, R.FIO_AI_VAL_j]; omega
  exact (fget_fput_other _ _ _ _ hne).trans (fget_fput_other _ _ _ _ hne)

theorem fget_aiJudged {f : Fld} (h : f.addr ≠ R.FIO_AI_EVT) (j : Fin 16) (v : Nat) (s : State) : fget f (aiJudged j v s) = fget f s :=
  whenB_keeps (f := fget f) (fun _ => fget_wr_other _ _ _ h) _ _

theorem hist_aiJudged (j : Fin 16) (v : Nat) (s : State) : (aiJudged j v s).fio.hist = s.fio.hist :=
  whenB_keeps (f := fun s => s.fio.hist) (g := raise F.FIO_AI_EVT j.1) (fun _ => rfl) _ _

theorem mem_aiJudged (j : Fin 16) (v : Nat) (s : State) : (aiJudged j v s).mem = s.mem := 
  whenB_keeps (f := State.mem) (g := raise F.FIO_AI_EVT j.1) (fun _ => rfl) _ _

/-- An excursion below the window raises the input's event, when the input was inside before. -/
theorem event_aiJudged {j : Fin 16} {v : Nat} (hv : v < fget (F.FIO_AI_WIN_j_LO j.1) s) (ho : s.fio.out.getLsbD j.1 = false) :
    fbit F.FIO_AI_EVT j.1 (aiJudged j v s) = true := by
  have hbegins : (aiOutside j v s && !s.fio.out.getLsbD j.1) = true := by
    rw [aiOutside, decide_eq_true hv, ho, Bool.true_or, Bool.not_false, Bool.and_true]
  rw [aiJudged, hbegins, whenB, if_pos rfl]
  exact fbit_raise _ _ _ (by show 0 + j.1 < 32; omega)

end

/-- Settles O36: each command by its equation, the comparators and samples input by input, and a conversion by what shows its code and judges it. -/
theorem loadChannelCommandsAndFieldInputs : Obligations.LoadChannelCommandsAndFieldInputs := by
  refine ⟨⟨fun w q w3 s hl => ⟨fun h => (exec_cqSubmit hl w3).trans (congrArg _ (cqSubmit_full (s := ok _) h w3)),
      fun h => (exec_cqSubmit hl w3).trans (congrArg _ (cqSubmit_queued (s := ok _) h w3))⟩, fun op src c s hc ha ht => ?_,
      fun src c s hc ht => exec_cmdLinkTimeout_due hc ht⟩,
    fun mv s h => exec_diSample_powered h mv, fun mv i s => ⟨diCompare_regs mv s, closed_diCompare mv i s⟩,
    fun uv err => ⟨fun h => aiCode_over h err, fun h => aiCode_within h err⟩,
    fun l i s => ⟨fun he => diSampleOne_disabled he l, fun he => diSampleOne_shows he l⟩, fun j uv err s hd he ha => ?_⟩
  · intro cmd v
    have hcmd : exec cmd s = .next (pdApply src op.1 s) := exec_loadCommand src op s
    rw [hcmd, pdApply_due hc ha ht]
    exact ⟨fun h => congrArg _ (if_neg (by omega)), fun hne hle => congrArg _ (if_pos ⟨hne, hle⟩)⟩
  · intro code
    have hval : (F.FIO_AI_VAL_j_VALUE j.1).addr ≠ R.FIO_AI_EVT := by simp only [F.FIO_AI_VAL_j_VALUE, R.FIO_AI_VAL_j, R.FIO_AI_EVT]; omega
    have hcode : code % 2 ^ 12 = code := Nat.mod_eq_of_lt (Nat.lt_succ_of_le (aiCode_le uv err))
    refine does_of (exec_aiConvert_single hd he ha uv err) ⟨?_, ?_, fun hlow hin => ?_, mem_aiJudged ..⟩
    · rw [fget_aiJudged hval, value_aiValued, hcode]
    · exact (congrArg (fun h : Vector (List Nat) 16 => h[j.1]) (hist_aiJudged ..)).trans (hist_aiValued ..)
    · exact event_aiJudged (by rwa [low_aiValued]) hin

end Sys2Proof.Machine

/-!
The outcome of a load command at the power die, row by row (O37).
-/
namespace Sys2Proof.Machine

/-! ### The rows that refuse any operation (R361) -/

/-- A command ended with its record, which carries no test result. -/
def pdEnd (src : Fin 5) (c : PdCmd) (n : Fin 48) (st : Status) (reason : Nat) (s : State) : State := pdRecord src c.w1 n.1 st reason 0 s

/-- The outputs that a CLEAR names: both halves of an H-bridge. -/
def clearedOutputs (n : Fin 48) : List (Fin 48) := if isHb n.1 then [n, hbPartner n] else [n]

/-- The output whose latch decides a CLEAR: of an H-bridge the one with a cause of its own. -/
def clearedReal (n : Fin 48) (s : State) : Fin 48 :=
  ((clearedOutputs n).find? fun x => fget (F.LOADCH_CH_STAT_n_CAUSE x.1) s ≠ 0 && fget (F.LOADCH_CH_STAT_n_CAUSE x.1) s ≠ causePartner).getD n

/-- The outcome of a CLEAR that no earlier row refuses. -/
def clearOutcome (src : Fin 5) (c : PdCmd) (n : Fin 48) (s : State) : State :=
  let real := clearedReal n s
  let cause := fget (F.LOADCH_CH_STAT_n_CAUSE real.1) s
  if !chLatched n s then pdEnd src c n .done 0 s
  else if (cause = causeI2t && decide (fget (F.LOADCH_I2T_B_n_W_CLR real.1) s ≤ (pdCh real s).w * 256)) ||
      (cause = causeOvertemp && ftst (F.LOADCH_TG_STAT_g_LIMIT (tgOf real.1).1) s) then
    pdEnd src c n .failedRefused 6 s
  else pdEnd src c n .done 0 ((clearedOutputs n).foldl (fun s x => setDrive x .off false (fput (F.LOADCH_CH_STAT_n_CAUSE x.1) 0 s)) s)

/-- A TEST that the power die has taken, before its pulse. -/
def testTaken (src : Fin 5) (c : PdCmd) (n : Fin 48) (s : State) : State :=
  updPd (fun p => { p with tests := p.tests ++ [⟨src.1, c.w1, n, s.now, none⟩] }) s

/-- The outcome of a TEST that no earlier row refuses. -/
def testOutcome (src : Fin 5) (c : PdCmd) (n : Fin 48) (s : State) : State :=
  if chClass n s ≥ 4 || !fbit F.LOADCH_CTRL_TEST_CLASS (chClass n s) s then pdEnd src c n .failedRefused 7 s
  else if !chWanted n s then pdEnd src c n .failedRefused 9 s
  else if s.now < (pdCh n (testTaken src c n s)).inrushEnd then testTaken src c n s else startPulses n (testTaken src c n s)

/-- The outcome of a command that asks its outputs for drives, when no earlier row refuses it. -/
def driveOutcome (src : Fin 5) (c : PdCmd) (n : Fin 48) (drives : List (Fin 48 × PdDrive)) (s : State) : State :=
  if drives.all (fun d => d.2 == .off) then pdEnd src c n .done 0 (drives.foldl (fun s d => setDrive d.1 .off true s) s)
  else if drives.any (fun d => chLatched d.1 s) then pdEnd src c n .failedRefused 1 s
  else if drives.any (fun d => chBarred d.1 s) then pdEnd src c n .failedRefused 2 s
  else pdEnd src c n .done 0 (drives.foldl (fun s d => setDrive d.1 d.2 false s) s)

section
variable {src : Fin 5} {c : PdCmd} {n : Fin 48} {s : State}

/-- The rows of R361 in their order. -/
theorem pdOutcome_eq (hn : bits c.w0 5 0 = n.1) : pdOutcome src c s =
    if cstate s ≠ 2 then pdEnd src c n .failedRefused 3 s
    else if !pdFormOk c then pdEnd src c n .failedRefused 5 s
    else if src.1 < 4 && !cqAllowed src.1 n.1 s then pdEnd src c n .failedRefused 4 s
    else if !pdValid n c s then pdEnd src c n .failedRefused 5 s
    else if bits c.w0 11 8 = 3 then clearOutcome src c n s
    else if bits c.w0 11 8 = 4 then testOutcome src c n s
    else driveOutcome src c n (askedDrives n c) s := by
  have hch : Fin.ofNat 48 n.1 = n := Fin.ext (Nat.mod_eq_of_lt n.2)
  simp only [pdOutcome, hn, hch]
  rfl

theorem pdOutcome_unclaimed (hn : bits c.w0 5 0 = n.1) (hc : cstate s ≠ 2) : pdOutcome src c s = pdEnd src c n .failedRefused 3 s :=
  (pdOutcome_eq hn).trans (if_pos hc)

theorem pdOutcome_form (hn : bits c.w0 5 0 = n.1) (hc : cstate s = 2) (hf : pdFormOk c = false) : pdOutcome src c s = pdEnd src c n .failedRefused 5 s := by
  rw [pdOutcome_eq hn, if_neg (not_not_intro hc), if_pos (by simp [hf])]

theorem pdOutcome_masked (hn : bits c.w0 5 0 = n.1) (hc : cstate s = 2) (hf : pdFormOk c = true) (hs : src.1 < 4) (hm : cqAllowed src.1 n.1 s = false) :
    pdOutcome src c s = pdEnd src c n .failedRefused 4 s := by
  rw [pdOutcome_eq hn, if_neg (not_not_intro hc), if_neg (by simp [hf]), if_pos (by simp [hs, hm])]

/-- A command past the rows UNCLAIMED, INVALID and MASK is judged by its family and its operation. -/
theorem pdOutcome_admitted (hn : bits c.w0 5 0 = n.1) (hc : cstate s = 2) (hf : pdFormOk c = true) (hm : src.1 < 4 → cqAllowed src.1 n.1 s = true) :
    pdOutcome src c s = if pdValid n c s = false then pdEnd src c n .failedRefused 5 s
      else if bits c.w0 11 8 = 3 then clearOutcome src c n s
      else if bits c.w0 11 8 = 4 then testOutcome src c n s
      else driveOutcome src c n (askedDrives n c) s := by
  have hmask : ¬ (src.1 < 4 && !cqAllowed src.1 n.1 s) = true := by simpa using hm
  rw [pdOutcome_eq hn, if_neg (not_not_intro hc), if_neg (by simp [hf]), if_neg hmask]
  simp only [Bool.not_eq_true']

/-! ### CLEAR (R361, R368) -/

theorem clearOutcome_unlatched (h : chLatched n s = false) : clearOutcome src c n s = pdEnd src c n .done 0 s := by
  rw [clearOutcome, h]
  rfl

/-- Of an output that is no half-bridge its own latch decides. -/
theorem clearedReal_single (hb : isHb n.1 = false) : clearedReal n s = n := by
  simp only [clearedReal, clearedOutputs, hb, Bool.false_eq_true, if_false, List.find?_cons, List.find?_nil]
  split <;> rfl

theorem clearOutcome_latched (hb : isHb n.1 = false) (h : chLatched n s = true) : clearOutcome src c n s =
    if (fget (F.LOADCH_CH_STAT_n_CAUSE n.1) s = 3 ∧ (fget (F.LOADCH_I2T_B_n_W_CLR n.1) s : Rat) ≤ (pdCh n s).w * 256) ∨
        (fget (F.LOADCH_CH_STAT_n_CAUSE n.1) s = 4 ∧ ftst (F.LOADCH_TG_STAT_g_LIMIT (tgOf n.1).1) s = true) then pdEnd src c n .failedRefused 6 s
    else pdEnd src c n .done 0 (setDrive n .off false (fput (F.LOADCH_CH_STAT_n_CAUSE n.1) 0 s)) := by
  simp only [clearOutcome, clearedReal_single hb, h, clearedOutputs, hb, causeI2t, causeOvertemp, Bool.not_true, Bool.false_eq_true, if_false,
    Bool.or_eq_true, Bool.and_eq_true, decide_eq_true_eq]
  rfl

/-! ### TEST (R374) -/

theorem testOutcome_class (h : 4 ≤ chClass n s ∨ fbit F.LOADCH_CTRL_TEST_CLASS (chClass n s) s = false) :
    testOutcome src c n s = pdEnd src c n .failedRefused 7 s := by
  rw [testOutcome, if_pos]
  simpa using h

/-- A TEST of a class that may be tested. -/
theorem testOutcome_allowed (hc : chClass n s < 4) (ht : fbit F.LOADCH_CTRL_TEST_CLASS (chClass n s) s = true) : testOutcome src c n s =
    if chWanted n s = false then pdEnd src c n .failedRefused 9 s
    else if s.now < (pdCh n (testTaken src c n s)).inrushEnd then testTaken src c n s else startPulses n (testTaken src c n s) := by
  rw [testOutcome, if_neg (by simp [ht, hc])]
  simp only [Bool.not_eq_true']

/-! ### Drives (R358, R364, R389) -/

/-- Outputs that are all asked for OFF take it whatever latches or bars them. -/
theorem driveOutcome_off {drives : List (Fin 48 × PdDrive)} (h : drives.all (fun d => d.2 == .off) = true) :
    driveOutcome src c n drives s = pdEnd src c n .done 0 (drives.foldl (fun s d => setDrive d.1 .off true s) s) := if_pos h

theorem driveOutcome_single {d : PdDrive} (hd : d ≠ .off) : driveOutcome src c n [(n, d)] s =
    if chLatched n s = true then pdEnd src c n .failedRefused 1 s else if chBarred n s = true then pdEnd src c n .failedRefused 2 s
    else pdEnd src c n .done 0 (setDrive n d false s) := by
  simp [driveOutcome, hd]

theorem driveOutcome_pair {m : Fin 48} {d e : PdDrive} (hd : d ≠ .off) : driveOutcome src c n [(n, d), (m, e)] s =
    if chLatched n s = true ∨ chLatched m s = true then pdEnd src c n .failedRefused 1 s
    else if chBarred n s = true ∨ chBarred m s = true then pdEnd src c n .failedRefused 2 s
    else pdEnd src c n .done 0 (setDrive m e false (setDrive n d false s)) := by
  simp [driveOutcome, hd]

theorem pwmDrive_on {duty : Nat} (h : 0 < duty) (freq : Nat) : pwmDrive duty freq ≠ .off := by
  rw [pwmDrive, if_neg (Nat.ne_of_gt h)]
  split <;> simp

/-- An operation without parameters is valid for every family. -/
theorem pdValid_plain (h : bits c.w0 11 8 = 0 ∨ bits c.w0 11 8 = 1 ∨ bits c.w0 11 8 = 3 ∨ bits c.w0 11 8 = 4) : pdValid n c s = true := by
  obtain h | h | h | h := h <;> simp [pdValid, opOf, h]

end

/-- Settles O37: the rows of R361 in their order, then each operation by its own outcome. -/
theorem loadChannelOutcomes : Obligations.LoadChannelOutcomes := by
  intro src c n s hn fin op
  refine ⟨pdOutcome_unclaimed hn, pdOutcome_form hn, pdOutcome_masked hn, fun hc hf hm => ?_⟩
  have hrow := pdOutcome_admitted hn hc hf hm
  have hplain : op = 0 ∨ op = 1 ∨ op = 3 ∨ op = 4 → ¬ pdValid n c s = false := fun h => by
    rw [pdValid_plain h]
    decide
  have hdrive : op ≠ 3 → op ≠ 4 → ¬ pdValid n c s = false → pdOutcome src c s = driveOutcome src c n (askedDrives n c) s := fun h3 h4 hv => by
    rw [hrow, if_neg hv, if_neg h3, if_neg h4]
  refine ⟨fun hv => hrow.trans (if_pos hv), fun h0 => ?_, fun h1 => ?_, fun h2 hv hd hl hb => ?_, fun h3 => ?_, fun h4 => ?_, fun h5 hv hm hl hb => ?_,
    fun h6 hv hm => ?_, fun h6 hv hm hl hl' hb hb' => ?_⟩
  · have ha : askedDrives n c = [(n, .off)] := by simp [askedDrives, opOf, show bits c.w0 11 8 = 0 from h0]
    rw [hdrive (by omega) (by omega) (hplain (.inl h0)), ha, driveOutcome_off rfl]
    rfl
  · have ha : askedDrives n c = [(n, .high)] := by simp [askedDrives, opOf, show bits c.w0 11 8 = 1 from h1]
    rw [hdrive (by omega) (by omega) (hplain (.inr (.inl h1))), ha, driveOutcome_single (by simp)]
    exact ⟨fun hl => if_pos hl, fun hl hb => (if_neg (by simp [hl])).trans (if_pos hb), fun hl hb => (if_neg (by simp [hl])).trans (if_neg (by simp [hb]))⟩
  · have ha : askedDrives n c = [(n, pwmDrive (bits c.w2 10 0) (bits c.w2 31 16))] := by simp [askedDrives, opOf, show bits c.w0 11 8 = 2 from h2]
    rw [hdrive (by omega) (by omega) (by simp [hv]), ha, driveOutcome_single (pwmDrive_on hd _), if_neg (by simp [hl]), if_neg (by simp [hb])]
    rfl
  · have hclear : pdOutcome src c s = clearOutcome src c n s := by rw [hrow, if_neg (hplain (.inr (.inr (.inl h3)))), if_pos h3]
    refine ⟨fun hl => hclear.trans (clearOutcome_unlatched hl), fun hb hl hcause => ?_, fun hb hcause hw => ?_⟩
    · rw [hclear, clearOutcome_latched hb hl, if_neg]
      · rfl
      · obtain h | h := hcause <;> simp [h, causeTrip, causeShort]
    · have hl : chLatched n s = true := by simp [chLatched, ftst, hcause, causeI2t]
      rw [hclear, clearOutcome_latched hb hl, if_pos (.inl ⟨hcause, hw⟩)]
      rfl
  · have htest : pdOutcome src c s = testOutcome src c n s := by rw [hrow, if_neg (hplain (.inr (.inr (.inr h4)))), if_neg (by omega), if_pos h4]
    refine ⟨fun h => htest.trans (testOutcome_class h), fun hlt ht hw => ?_, fun hlt ht hw => ?_⟩
    · rw [htest, testOutcome_allowed hlt ht, if_pos hw]
      rfl
    · rw [htest, testOutcome_allowed hlt ht, if_neg (by simp [hw])]
      rfl
  · have ha : askedDrives n c = [(n, .low)] := by simp [askedDrives, opOf, show bits c.w0 11 8 = 5 from h5, hm]
    rw [hdrive (by omega) (by omega) (by simp [hv]), ha, driveOutcome_single (by simp), if_neg (by simp [hl]), if_neg (by simp [hb])]
    rfl
  · have ha : askedDrives n c = [(n, .off), (hbPartner n, .off)] := by simp [askedDrives, opOf, show bits c.w0 11 8 = 6 from h6, hm]
    rw [hdrive (by omega) (by omega) (by simp [hv]), ha, driveOutcome_off rfl]
    rfl
  · have ha : askedDrives n c = [(n, .high), (hbPartner n, .high)] := by simp [askedDrives, opOf, show bits c.w0 11 8 = 6 from h6, hm]
    rw [hdrive (by omega) (by omega) (by simp [hv]), ha, driveOutcome_pair (by simp), if_neg (by simp [hl, hl']), if_neg (by simp [hb, hb'])]
    rfl

end Sys2Proof.Machine

/-!
What protects and tests an output (O38).
-/
namespace Sys2Proof.Machine

/-! ### A change of what decides an output leaves the rest alone (R364, R369) -/

theorem startPhase_keeps {α : Type} {f : State → α} (h : ∀ n g s, f (updCh n g s) = f s) (n : Fin 48) (s : State) : f (startPhase n s) = f s := by
  unfold startPhase
  split <;> exact h ..

theorem openInrush_keeps {α : Type} {f : State → α} {n : Fin 48} (hc : ∀ g s, f (updCh n g s) = f s)
    (hi : ∀ v s, f (fput (F.LOADCH_CH_STAT_n_INRUSH n.1) v s) = f s) (s : State) : f (openInrush n s) = f s :=
  (hi ..).trans (hc ..)

/-- Beside what the change itself does, an output shows its state and its inrush window, and may begin its on-phases. -/
theorem chChange_keeps {α : Type} {f : State → α} {n : Fin 48} (hc : ∀ m g s, f (updCh m g s) = f s)
    (hi : ∀ v s, f (fput (F.LOADCH_CH_STAT_n_INRUSH n.1) v s) = f s) (hs : ∀ v s, f (fput (F.LOADCH_CH_STAT_n_STATE n.1) v s) = f s)
    (g : State → State) (s : State) : f (chChange n g s) = f (g s) := by
  refine (hs ..).trans ?_
  split
  · exact (openInrush_keeps (hc n) hi _).trans (startPhase_keeps hc ..)
  · split
    · exact hi ..
    · split
      · exact startPhase_keeps hc ..
      · rfl

theorem chChange_mem (n : Fin 48) (g : State → State) (s : State) : (chChange n g s).mem = (g s).mem :=
  chChange_keeps (f := State.mem) (fun _ _ _ => rfl) (fun _ _ => rfl) (fun _ _ => rfl) g s

/-- The cause of a latch stands beside the fields that a change of the output shows. -/
theorem cause_chChange (n : Fin 48) (g : State → State) (s : State) :
    fget (F.LOADCH_CH_STAT_n_CAUSE n.1) (chChange n g s) = fget (F.LOADCH_CH_STAT_n_CAUSE n.1) (g s) :=
  chChange_keeps (f := fget (F.LOADCH_CH_STAT_n_CAUSE n.1)) (fun _ _ _ => rfl)
    (fun v s => fget_fput_beside (F.LOADCH_CH_STAT_n_INRUSH n.1) _ v s rfl (by show 7 < 32; decide) (.inl (by show 7 < 11; decide)))
    (fun v s => fget_fput_beside (F.LOADCH_CH_STAT_n_STATE n.1) _ v s rfl (by show 7 < 32; decide) (.inr (by show 3 < 4; decide))) g s

/-! ### Latches (R366, R368) -/

section
variable {n : Fin 48} {s : State}

theorem latch_again (h : chLatched n s = true) (k : Nat) : latch n k s = s := if_pos h

theorem latch_single (hb : isHb n.1 = false) (h : chLatched n s = false) (k : Nat) : latch n k s =
    bump R.LOADCH_LATCH_CNT (raise (F.LOADCH_CH_EVENT_n_EVENT n.1) 0 (fput (F.LOADCH_CH_I2T_n_LATCHES n.1)
      (min 0xFFFF (fget (F.LOADCH_CH_I2T_n_LATCHES n.1) s + 1)) (chChange n (fput (F.LOADCH_CH_STAT_n_CAUSE n.1) k) s))) := by
  rw [latch, h, hb, latchOne, h]
  rfl

theorem chOn_of_latched (h : chLatched n s = true) : chOn n s = false := by
  simp [chOn, chDrive, chWanted, h]

/-- What a latch leaves: its cause, the output off, and its event. -/
theorem latch_shows {k : Fin 8} (hb : isHb n.1 = false) (h : chLatched n s = false) (hk : k ≠ 0) : fget (F.LOADCH_CH_STAT_n_CAUSE n.1) (latch n k.1 s) = k.1 ∧
    chOn n (latch n k.1 s) = false ∧ fbit (F.LOADCH_CH_EVENT_n_EVENT n.1) 0 (latch n k.1 s) = true ∧ (latch n k.1 s).mem = s.mem := by
  have hcount : (F.LOADCH_CH_STAT_n_CAUSE n.1).addr ≠ R.LOADCH_LATCH_CNT := by simp only [F.LOADCH_CH_STAT_n_CAUSE, R.LOADCH_CH_STAT_n, R.LOADCH_LATCH_CNT]; omega
  have hevent : (F.LOADCH_CH_STAT_n_CAUSE n.1).addr ≠ (F.LOADCH_CH_EVENT_n_EVENT n.1).addr := by
    simp only [F.LOADCH_CH_STAT_n_CAUSE, F.LOADCH_CH_EVENT_n_EVENT, R.LOADCH_CH_STAT_n, R.LOADCH_CH_EVENT_n]; omega
  have hheat : (F.LOADCH_CH_STAT_n_CAUSE n.1).addr ≠ (F.LOADCH_CH_I2T_n_LATCHES n.1).addr := by
    simp only [F.LOADCH_CH_STAT_n_CAUSE, F.LOADCH_CH_I2T_n_LATCHES, R.LOADCH_CH_STAT_n, R.LOADCH_CH_I2T_n]; omega
  have hkeep : (F.LOADCH_CH_EVENT_n_EVENT n.1).addr ≠ R.LOADCH_LATCH_CNT := by simp only [F.LOADCH_CH_EVENT_n_EVENT, R.LOADCH_CH_EVENT_n, R.LOADCH_LATCH_CNT]; omega
  have hcause : fget (F.LOADCH_CH_STAT_n_CAUSE n.1) (latch n k.1 s) = k.1 := by
    have hfit : k.1 % 2 ^ 4 = k.1 := Nat.mod_eq_of_lt (by omega)
    rw [latch_single hb h, bump, bumpBy, fget_wr_other _ _ _ hcount, raise, fget_wr_other _ _ _ hevent, fget_fput_other _ _ _ _ hheat, cause_chChange,
      fget_fput_same _ _ _ (by show 7 < 32; decide)]
    exact hfit
  refine ⟨hcause, chOn_of_latched ?_, ?_, ?_⟩
  · rw [chLatched, ftst, hcause]
    exact bne_iff_ne.2 fun h0 => hk (Fin.ext h0)
  · rw [latch_single hb h, fbit_bump_other _ _ _ hkeep]
    exact fbit_raise _ _ _ (by show 0 + 0 < 32; decide)
  · rw [latch_single hb h]
    exact chChange_mem ..

/-! ### What trips an output (R366, R391) -/

theorem exec_hardShort (he : chExists n.1 = true) (ma : Nat) :
    exec (.hardShort n ma) s = .next (if chWanted n s = true ∧ 5 * iR n.1 s < 2 * ma then latch n causeShort s else s) := by
  change execHardShort n ma s = _
  simp only [execHardShort, he, Bool.true_and, Bool.and_eq_true, decide_eq_true_eq]

theorem exec_trip (he : chExists n.1 = true) (ma us : Nat) :
    exec (.trip n ⟨ma, us⟩) s = .next (if chOn n s = true ∧ tripThreshold n s < ma ∧ clampNat 16 16000 (fget (F.LOADCH_TRIP_n_T_TRIP n.1) s) ≤ us
      then latch n causeTrip s else s) := by
  change execTrip n ⟨ma, us⟩ s = _
  simp only [execTrip, he, Bool.true_and, Bool.and_eq_true, decide_eq_true_eq, and_assoc]

theorem exec_vdsFault_blanked {t mv : Nat} (ht : turnedOn n s = some t) (hg : isGd n.1 = true) (hv : fget (F.LOADCH_GD_VDS_n_VDS_TH n.1) s < mv)
    (hb : t + fget (F.LOADCH_GD_VDS_n_VDS_BLANK n.1) s * 1000 ≤ s.now) : exec (.vdsFault n mv) s = .next (latch n causeVds s) := by
  change execVdsFault n mv s = _
  simp [execVdsFault, ht, hg, hv, elapseTo_past hb]

theorem exec_vdsFault_none {mv : Nat} (h : turnedOn n s = none ∨ isGd n.1 = false ∨ mv ≤ fget (F.LOADCH_GD_VDS_n_VDS_TH n.1) s) :
    exec (.vdsFault n mv) s = .next s := by
  change execVdsFault n mv s = _
  unfold execVdsFault
  cases ht : turnedOn n s with
  | none => rfl
  | some t =>
    refine congrArg _ (if_neg ?_)
    obtain h | h | h := h
    · rw [ht] at h; cases h
    · simp [h]
    · simp [Nat.not_lt.2 h]

/-! ### Wire heating (R370) -/

theorem exec_i2tUpdate (he : chExists n.1 = true) (hi : fget (F.LOADCH_I2T_A_n_I_W n.1) s ≠ 0) (isq : Nat) :
    let v := setW n (heatStep n isq s) (updCh n (fun c => { c with isq := isq }) s)
    exec (.i2tUpdate n isq) s = .next (if (clampNat 256 1024 (fget (F.LOADCH_I2T_B_n_W_TH n.1) v) : Rat) / 256 ≤ heatStep n isq s then latch n causeI2t v else v) := by
  have hiw : (fget (F.LOADCH_I2T_A_n_I_W n.1) s == 0) = false := beq_eq_false_iff_ne.2 hi
  change execI2tUpdate n isq s = _
  simp only [execI2tUpdate, he, Bool.not_true, Bool.false_eq_true, if_false, hiw, whenB]

/-- The step of the heating value for a time constant of 100 s. -/
theorem heatStep_slow {isq iw : Nat} (hw : fget (F.LOADCH_I2T_A_n_I_W n.1) s * curUnit n.1 = iw) (hi : iw ≠ 0)
    (ht : fget (F.LOADCH_I2T_A_n_TAU n.1) s = 1000) :
    heatStep n isq s = (pdCh n s).w + ((isq : Rat) / (iw * iw : Rat) - (pdCh n s).w) / 100000 := by
  have htau : ((clampNat 1 6000 1000 : Nat) : Rat) / 10 = 100 := by decide +kernel
  simp only [heatStep, hw, if_neg hi, ht, htau, Rat.natCast_mul]
  grind

theorem exec_inrushWindowEnd (h : ftst (F.LOADCH_CH_STAT_n_INRUSH n.1) s = true) (ht : (pdCh n s).inrushEnd ≤ s.now) :
    exec (.inrushWindowEnd n) s = .next (startPulses n (fput (F.LOADCH_CH_STAT_n_INRUSH n.1) 0 s)) := by
  change execInrushWindowEnd n s = _
  simp [execInrushWindowEnd, h, elapseTo_past ht]

/-! ### Open load and off-state tests (R372, R373) -/

/-- Beside its flag, a diagnostic shows in the output's events. -/
theorem setDiag_keeps {α : Type} {obs : State → α} {ev : Nat} (h : ∀ s, obs (chEvent n ev s) = obs s) (f : Nat → Fld) (v : Bool) (s : State) :
    obs (setDiag f ev n v s) = obs (fput (f n.1) (if v then 1 else 0) s) := by
  by_cases hup : (v && !ftst (f n.1) s) = true
  · exact (congrArg obs (if_pos hup)).trans (h _)
  · exact congrArg obs (if_neg hup)

theorem setDiag_pd (f : Nat → Fld) (ev : Nat) (v : Bool) (s : State) : (setDiag f ev n v s).pd = s.pd := setDiag_keeps (obs := State.pd) (fun _ => rfl) f v s

theorem setDiag_mem (f : Nat → Fld) (ev : Nat) (v : Bool) (s : State) : (setDiag f ev n v s).mem = s.mem := setDiag_keeps (obs := State.mem) (fun _ => rfl) f v s

/-- A field of CH_STAT stands as the flag is shown. -/
theorem fget_setDiag {g : Fld} (ha : g.addr = R.LOADCH_CH_STAT_n n.1) (f : Nat → Fld) (ev : Nat) (v : Bool) (s : State) :
    fget g (setDiag f ev n v s) = fget g (fput (f n.1) (if v then 1 else 0) s) := by
  have hne : g.addr ≠ R.LOADCH_CH_EVENT_n n.1 := by rw [ha]; simp only [R.LOADCH_CH_STAT_n, R.LOADCH_CH_EVENT_n]; omega
  exact setDiag_keeps (obs := fget g) (fun _ => fget_wr_other _ _ _ hne) f v s

theorem flag_setDiag {f : Nat → Fld} (ha : (f n.1).addr = R.LOADCH_CH_STAT_n n.1) (hlo : (f n.1).lo ≤ (f n.1).hi) (hhi : (f n.1).hi < 32) (ev : Nat) (v : Bool)
    (s : State) : ftst (f n.1) (setDiag f ev n v s) = v :=
  (congrArg (· != 0) (fget_setDiag ha f ev v s)).trans (ftst_fput_flag _ hlo hhi v s)

/-- A flag that comes up raises its event. -/
theorem event_setDiag {f : Nat → Fld} {ev : Nat} (hev : ev < 32) (h : ftst (f n.1) s = false) : fbit (F.LOADCH_CH_EVENT_n_EVENT n.1) ev (setDiag f ev n true s) = true := by
  simp only [setDiag, h, Bool.not_false, Bool.and_self, if_true]
  exact fbit_raise _ _ _ (by show 0 + ev < 32; omega)

theorem olOnUa_eq (n : Fin 48) (s : State) : olOnUa n s = fget (F.LOADCH_OL_n_OL_ON n.1) s *
    (if 24 ≤ n.1 ∧ n.1 < 32 ∧ ftst (F.LOADCH_CH_CFG_n_FINE_EN n.1) s = true then 250 else if 40 ≤ n.1 then 10000 else 1000) := by
  have hlight : (isLight n.1 && ftst (F.LOADCH_CH_CFG_n_FINE_EN n.1) s) = true ↔ 24 ≤ n.1 ∧ n.1 < 32 ∧ ftst (F.LOADCH_CH_CFG_n_FINE_EN n.1) s = true := by
    simp [isLight, and_assoc]
  have hunit : 1000 * curUnit n.1 = if 40 ≤ n.1 then 10000 else 1000 := by
    simp only [curUnit, isGd, decide_eq_true_eq]
    split <;> rfl
  simp only [olOnUa, hlight, hunit]

theorem exec_openOn (he : chExists n.1 = true) (hl : longPhase n s = true) (ua : Nat) :
    exec (.openOn n ua) s = .next (setDiag F.LOADCH_CH_STAT_n_OPEN_ON 1 n (decide (ua < olOnUa n s)) s) := by
  change execOpenOn n ua s = _
  simp [execOpenOn, he, hl]

theorem exec_offStateTest (he : chExists n.1 = true) (ho : chOn n s = false) (hen : ftst (F.LOADCH_CH_CFG_n_OL_OFF_EN n.1) s = true) (hl : chLatched n s = false)
    (out vbat loaded : Nat) : exec (.offStateTest n out vbat loaded) s = .next (setDiag F.LOADCH_CH_STAT_n_OPEN_OFF 2 n (decide (2500 < loaded))
      (setDiag F.LOADCH_CH_STAT_n_SHORT_BAT 3 n (decide (vbat < out + 1000)) s)) := by
  change execOffStateTest n out vbat loaded s = _
  simp [execOffStateTest, he, ho, hen, hl]

/-- The flag of an open load is shown beside that of a short to battery. -/
theorem shortBat_setDiag (v : Bool) (s : State) :
    ftst (F.LOADCH_CH_STAT_n_SHORT_BAT n.1) (setDiag F.LOADCH_CH_STAT_n_OPEN_OFF 2 n v s) = ftst (F.LOADCH_CH_STAT_n_SHORT_BAT n.1) s :=
  ftst_of_fget ((fget_setDiag rfl _ 2 v s).trans
    (fget_fput_beside (F.LOADCH_CH_STAT_n_OPEN_OFF n.1) _ _ _ rfl (by show 15 < 32; decide) (.inr (by show 14 < 15; decide))))

/-! ### Switch tests (R374) -/

theorem exec_testPulseEnd {x : PdTest} {e : Nat} (hx : s.pd.tests.find? (fun t => t.ch == n) = some x) (hp : x.pulse = some e) (ht : e ≤ s.now) (out vbat : Nat) :
    exec (.testPulseEnd n out vbat) s = .next (judgeTest x (decide (10 * out < 3 * vbat)) s) := by
  change execTestPulseEnd n out vbat s = _
  simp only [execTestPulseEnd, hx, hp, elapseTo_past ht]

theorem exec_testDeferTimeout {x : PdTest} (hx : s.pd.tests.find? (fun t => t.ch == n && t.pulse.isNone) = some x)
    (hi : x.since + 100000000 ≤ (pdCh n s).inrushEnd) (ht : x.since + 100000000 ≤ s.now) : exec (.testDeferTimeout n) s =
      .next (pdRecord (Fin.ofNat 5 x.src) x.tag n.1 .deferred 0 0 (updPd (fun p => { p with tests := p.tests.erase x }) s)) := by
  change execTestDeferTimeout n s = _
  simp only [execTestDeferTimeout, hx, if_neg (Nat.not_lt.2 hi), elapseTo_past ht]

/-! ### The current (R375) -/

/-- A mean current in the units of CUR, at its resolution. -/
def curShown (n : Fin 48) (ua : Nat) : Nat := (roundNearest ((ua : Rat) / (1000 * curUnit n.1 * curStep n.1 : Nat))).toNat * curStep n.1

theorem exec_currentUpdate (he : chExists n.1 = true) (ua : Nat) : ∃ fine, exec (.currentUpdate n ua) s =
    .next (fput (F.LOADCH_CH_CUR_n_CUR_FINE n.1) fine (fput (F.LOADCH_CH_CUR_n_CUR n.1) (min 0xFFFF (curShown n ua)) s)) := by
  change ∃ fine, execCurrentUpdate n ua s = _
  simp only [execCurrentUpdate, he, Bool.not_true, Bool.false_eq_true, if_false]
  exact ⟨_, rfl⟩

theorem cur_fput_fine {v : Nat} (hv : v < 2 ^ 16) (fine : Nat) :
    fget (F.LOADCH_CH_CUR_n_CUR n.1) (fput (F.LOADCH_CH_CUR_n_CUR_FINE n.1) fine (fput (F.LOADCH_CH_CUR_n_CUR n.1) v s)) = v := by
  rw [fget_fput_beside (F.LOADCH_CH_CUR_n_CUR_FINE n.1) (F.LOADCH_CH_CUR_n_CUR n.1) _ _ rfl (by show 15 < 32; decide) (.inl (by show 15 < 16; decide)),
    fget_fput_same _ _ _ (by show 15 < 32; decide)]
  exact Nat.mod_eq_of_lt hv

end

/-- Settles O38: each fault by the latch it makes, the latch by what it leaves, and each test and measure by its own equation. -/
theorem loadChannelProtection : Obligations.LoadChannelProtection := by
  refine ⟨fun n ma us mv s he => ?_, fun n k s hb h hk => latch_shows hb h hk, fun n k s h => latch_again h k, fun n isq s he hi => exec_i2tUpdate he hi isq,
    fun n isq s => heatStep_slow rfl, fun n s => exec_inrushWindowEnd, fun n ua s he hl => ?_, fun n out vbat loaded s he ho hen hl => ?_,
    fun n out vbat e x s hx hp ht => exec_testPulseEnd hx hp ht out vbat, fun n x s => exec_testDeferTimeout, fun n ua s he => ?_⟩
  · rw [exec_hardShort he, exec_trip he]
    exact ⟨fun hw hm => congrArg _ (if_pos ⟨hw, hm⟩), fun h => congrArg _ (if_neg fun ⟨hw, hm⟩ => by simp [hw] at h; omega),
      fun ho hm ht => congrArg _ (if_pos ⟨ho, hm, ht⟩), fun h => congrArg _ (if_neg fun ⟨ho, hm, ht⟩ => by simp [ho] at h; omega),
      fun t ht hg hv hb => exec_vdsFault_blanked ht hg hv hb, exec_vdsFault_none⟩
  · intro unit below
    have hbelow : decide (ua < olOnUa n s) = below := by rw [olOnUa_eq]
    refine does_of (exec_openOn he hl ua) ?_
    rw [hbelow]
    exact ⟨flag_setDiag rfl (Nat.le_refl _) (by show 13 < 32; decide) 1 below s, fun hb h => by rw [hb]; exact event_setDiag (by decide) h, setDiag_pd .., setDiag_mem ..⟩
  · refine does_of (exec_offStateTest he ho hen hl out vbat loaded) ⟨?_, ?_, ?_, ?_⟩
    · rw [shortBat_setDiag]
      exact flag_setDiag rfl (Nat.le_refl _) (by show 15 < 32; decide) ..
    · exact flag_setDiag rfl (Nat.le_refl _) (by show 14 < 32; decide) ..
    · rw [setDiag_pd, setDiag_pd]
    · rw [setDiag_mem, setDiag_mem]
  · obtain ⟨fine, hexec⟩ := exec_currentUpdate (s := s) he ua
    exact does_of hexec ⟨cur_fput_fine (by omega) fine, rfl, rfl⟩

end Sys2Proof.Machine

/-!
The thermal groups, the power budget, and the restore of what was shed (O39).
-/
namespace Sys2Proof.Machine

/-! ### Which output is shed first (R378) -/

section
variable {s : State}

theorem class_le_of_shedBefore {a b : Fin 48} (h : shedBefore a b s = true) : chClass a s ≤ chClass b s := by
  simp only [shedBefore, Bool.or_eq_true, Bool.and_eq_true, decide_eq_true_eq, beq_iff_eq] at h
  omega

theorem class_ge_of_not_shedBefore {a b : Fin 48} (h : shedBefore a b s = false) : chClass b s ≤ chClass a s := by
  simp only [shedBefore, Bool.or_eq_false_iff, decide_eq_false_iff_not] at h
  omega

/-- Of the best output so far and one more, the one to shed first. -/
def shedFirst (s : State) (best : Option (Fin 48)) (n : Fin 48) : Option (Fin 48) :=
  match best with
  | none => some n
  | some b => if shedBefore n b s then some n else some b

theorem shedPick_eq (p : Fin 48 → Bool) (s : State) :
    shedPick p s = (allCh.filter fun n => p n && chOn n s && decide (chClass n s < 4)).foldl (shedFirst s) none := rfl

/-- The step takes one of the two outputs, of a class no higher than either's. -/
theorem shedFirst_some (b n : Fin 48) : ∃ x, shedFirst s (some b) n = some x ∧ (x = b ∨ x = n) ∧ chClass x s ≤ chClass b s ∧ chClass x s ≤ chClass n s := by
  cases h : shedBefore n b s with
  | true => exact ⟨n, by simp [shedFirst, h], .inr rfl, class_le_of_shedBefore h, Nat.le_refl _⟩
  | false => exact ⟨b, by simp [shedFirst, h], .inl rfl, Nat.le_refl _, class_ge_of_not_shedBefore h⟩

/-- The whole fold takes an output of the list, or the one it began with, of the lowest class. -/
theorem foldl_shedFirst {l : List (Fin 48)} {b n : Fin 48} (h : l.foldl (shedFirst s) (some b) = some n) :
    (n = b ∨ n ∈ l) ∧ chClass n s ≤ chClass b s ∧ ∀ m ∈ l, chClass n s ≤ chClass m s := by
  induction l generalizing b with
  | nil =>
    obtain rfl : b = n := Option.some.inj h
    exact ⟨.inl rfl, Nat.le_refl _, by simp⟩
  | cons m l ih =>
    obtain ⟨x, hx, hxbm, hxb, hxm⟩ := shedFirst_some (s := s) b m
    rw [List.foldl_cons, hx] at h
    obtain ⟨hmem, hnx, hle⟩ := ih h
    refine ⟨?_, Nat.le_trans hnx hxb, ?_⟩
    · obtain rfl | hn := hmem
      · obtain rfl | rfl := hxbm
        · exact .inl rfl
        · exact .inr (List.mem_cons_self ..)
      · exact .inr (List.mem_cons_of_mem _ hn)
    · intro k hk
      obtain rfl | hk := List.mem_cons.1 hk
      · exact Nat.le_trans hnx hxm
      · exact hle k hk

theorem mem_allCh (n : Fin 48) : n ∈ allCh ↔ chExists n.1 = true := by simp [allCh]

/-- The output that is picked is on and of the lowest class that can be shed. -/
theorem shedPick_some {p : Fin 48 → Bool} {n : Fin 48} (h : shedPick p s = some n) : p n = true ∧ chOn n s = true ∧ chClass n s < 4 ∧ chExists n.1 = true ∧
    ∀ m : Fin 48, chExists m.1 = true → p m = true → chOn m s = true → chClass n s ≤ chClass m s := by
  rw [shedPick_eq] at h
  have hlist : ∀ m, m ∈ (allCh.filter fun n => p n && chOn n s && decide (chClass n s < 4)) ↔
      chExists m.1 = true ∧ (p m = true ∧ chOn m s = true) ∧ chClass m s < 4 := by simp [mem_allCh]
  generalize (allCh.filter fun n => p n && chOn n s && decide (chClass n s < 4)) = l at h hlist
  cases l with
  | nil => simp at h
  | cons b l =>
    obtain ⟨hmem, hb, hle⟩ := foldl_shedFirst (b := b) h
    obtain ⟨he, ⟨hp, ho⟩, hc⟩ := (hlist n).1 (List.mem_cons.2 hmem)
    refine ⟨hp, ho, hc, he, fun m hme hmp hmo => ?_⟩
    by_cases hm4 : chClass m s < 4
    · obtain rfl | hm := List.mem_cons.1 ((hlist m).2 ⟨hme, ⟨hmp, hmo⟩, hm4⟩)
      · exact hb
      · exact hle m hm
    · omega

/-! ### Thermal groups (R366, R377, R378) -/

/-- A flag of a group's temperature: LOADCH.EVENT shows that it comes up. -/
def tgEdge (f : Fld) (now : Bool) (ev : Nat) (s : State) : State := whenB (now && !ftst f s) (pdEvent ev) (fput f (if now then 1 else 0) s)

/-- A group's temperature shown, with the three flags that it judges. -/
def tgShown (g : Fin 6) (d : Int) (s : State) : State :=
  fputSat (F.LOADCH_TG_STAT_g_TEMP g.1) d s |> tgEdge (F.LOADCH_TG_STAT_g_WARN g.1) (decide (tgWarnAt g s ≤ d)) pdTgWarn
    |> tgEdge (F.LOADCH_TG_STAT_g_LIMIT g.1) (decide (tgLimitAt g s ≤ d)) pdTgLimit |> tgEdge (F.LOADCH_TG_STAT_g_OT g.1) (decide (170 ≤ d)) pdTgOt

theorem tgEdge_keeps {α : Type} {obs : State → α} (h : ∀ n s, obs (pdEvent n s) = obs s) (f : Fld) (now : Bool) (ev : Nat) (s : State) :
    obs (tgEdge f now ev s) = obs (fput f (if now then 1 else 0) s) :=
  whenB_keeps (h ev) ..

theorem tgEdge_pd (f : Fld) (now : Bool) (ev : Nat) (s : State) : (tgEdge f now ev s).pd = s.pd := tgEdge_keeps (obs := State.pd) (fun _ _ => rfl) ..

theorem tgEdge_mem (f : Fld) (now : Bool) (ev : Nat) (s : State) : (tgEdge f now ev s).mem = s.mem := tgEdge_keeps (obs := State.mem) (fun _ _ => rfl) ..

theorem fget_tgEdge {k : Fld} (hk : k.addr ≠ R.LOADCH_EVENT) (f : Fld) (now : Bool) (ev : Nat) (s : State) :
    fget k (tgEdge f now ev s) = fget k (fput f (if now then 1 else 0) s) :=
  tgEdge_keeps (obs := fget k) (fun _ _ => fget_wr_other _ _ _ hk) ..

theorem ftst_tgEdge_same {f : Fld} (hf : f.addr ≠ R.LOADCH_EVENT) (hlo : f.lo ≤ f.hi) (hhi : f.hi < 32) (now : Bool) (ev : Nat) (s : State) :
    ftst f (tgEdge f now ev s) = now :=
  (congrArg (· != 0) (fget_tgEdge hf ..)).trans (ftst_fput_flag f hlo hhi now s)

theorem ftst_tgEdge_beside (f k : Fld) (hk : k.addr ≠ R.LOADCH_EVENT) (ha : k.addr = f.addr) (hhi : k.hi < 32) (hd : k.hi < f.lo ∨ f.hi < k.lo) (now : Bool)
    (ev : Nat) (s : State) : ftst k (tgEdge f now ev s) = ftst k s :=
  ftst_of_fget ((fget_tgEdge hk ..).trans (fget_fput_beside f k _ _ ha hhi hd))

theorem tgStat_ne_event (g : Fin 6) : R.LOADCH_TG_STAT_g g.1 ≠ R.LOADCH_EVENT := by simp only [R.LOADCH_TG_STAT_g, R.LOADCH_EVENT]; omega

theorem tgShown_pd (g : Fin 6) (d : Int) (s : State) : (tgShown g d s).pd = s.pd := by simp only [tgShown, tgEdge_pd, fputSat_pd]

theorem tgShown_mem (g : Fin 6) (d : Int) (s : State) : (tgShown g d s).mem = s.mem := by simp only [tgShown, tgEdge_mem, fputSat_mem]

theorem ot_tgShown (g : Fin 6) (d : Int) (s : State) : ftst (F.LOADCH_TG_STAT_g_OT g.1) (tgShown g d s) = decide (170 ≤ d) := by
  rw [tgShown, ftst_tgEdge_same (f := F.LOADCH_TG_STAT_g_OT g.1) (tgStat_ne_event g) (Nat.le_refl _) (by show 18 < 32; decide)]

theorem limit_tgShown (g : Fin 6) (d : Int) (s : State) : ftst (F.LOADCH_TG_STAT_g_LIMIT g.1) (tgShown g d s) = decide (tgLimitAt g s ≤ d) := by
  rw [tgShown, ftst_tgEdge_beside (F.LOADCH_TG_STAT_g_OT g.1) (F.LOADCH_TG_STAT_g_LIMIT g.1) (tgStat_ne_event g) rfl (by show 17 < 32; decide)
      (.inl (by show 17 < 18; decide)),
    ftst_tgEdge_same (f := F.LOADCH_TG_STAT_g_LIMIT g.1) (tgStat_ne_event g) (Nat.le_refl _) (by show 17 < 32; decide)]

theorem warn_tgShown (g : Fin 6) (d : Int) (s : State) : ftst (F.LOADCH_TG_STAT_g_WARN g.1) (tgShown g d s) = decide (tgWarnAt g s ≤ d) := by
  rw [tgShown, ftst_tgEdge_beside (F.LOADCH_TG_STAT_g_OT g.1) (F.LOADCH_TG_STAT_g_WARN g.1) (tgStat_ne_event g) rfl (by show 16 < 32; decide)
      (.inl (by show 16 < 18; decide)),
    ftst_tgEdge_beside (F.LOADCH_TG_STAT_g_LIMIT g.1) (F.LOADCH_TG_STAT_g_WARN g.1) (tgStat_ne_event g) rfl (by show 16 < 32; decide)
      (.inl (by show 16 < 17; decide)),
    ftst_tgEdge_same (f := F.LOADCH_TG_STAT_g_WARN g.1) (tgStat_ne_event g) (Nat.le_refl _) (by show 16 < 32; decide)]

/-- A group that comes to its limit shows it in LOADCH.EVENT. -/
theorem event_tgShown {g : Fin 6} {d : Int} (hl : tgLimitAt g s ≤ d) (hw : ftst (F.LOADCH_TG_STAT_g_LIMIT g.1) s = false) (ho : d < 170) :
    fbit F.LOADCH_EVENT 5 (tgShown g d s) = true := by
  have hbeside : ftst (F.LOADCH_TG_STAT_g_LIMIT g.1) (fputSat (F.LOADCH_TG_STAT_g_TEMP g.1) d s) = false :=
    (ftst_of_fget (fget_fput_beside (F.LOADCH_TG_STAT_g_TEMP g.1) (F.LOADCH_TG_STAT_g_LIMIT g.1) _ s rfl (by show 17 < 32; decide) (.inr (by show 9 < 17; decide)))).trans hw
  have hwas : ∀ now, ftst (F.LOADCH_TG_STAT_g_LIMIT g.1) (tgEdge (F.LOADCH_TG_STAT_g_WARN g.1) now pdTgWarn (fputSat (F.LOADCH_TG_STAT_g_TEMP g.1) d s)) = false :=
    fun now => by
      rw [ftst_tgEdge_beside (F.LOADCH_TG_STAT_g_WARN g.1) (F.LOADCH_TG_STAT_g_LIMIT g.1) (tgStat_ne_event g) rfl (by show 17 < 32; decide)
        (.inr (by show 16 < 17; decide)), hbeside]
  have hno : decide (170 ≤ d) = false := decide_eq_false (by omega)
  simp only [tgShown, hno, decide_eq_true hl]
  rw [tgEdge, Bool.false_and, whenB, if_neg Bool.false_ne_true, fbit_fput_other _ _ _ _ _ (tgStat_ne_event g).symm, tgEdge, hwas]
  exact fbit_raise _ _ _ (by decide)

theorem tgLimitAt_le (g : Fin 6) (s : State) : tgLimitAt g s ≤ 155 := by
  simp only [tgLimitAt, clampNat]
  omega

/-- What a temperature makes of a group's shedding: a step where the limit is reached anew, and no further steps below it. -/
def tgLimited (g : Fin 6) (d : Int) (s : State) : State :=
  if tgLimitAt g s ≤ d then (if ftst (F.LOADCH_TG_STAT_g_LIMIT g.1) s then tgShown g d s else groupShed g (tgShown g d s))
  else updPd (fun p => { p with tgDue := p.tgDue.set g.1 none g.2 }) (tgShown g d s)

theorem exec_tgTempRead (g : Fin 6) (d : Int) (s : State) : exec (.tgTempRead g d) s = .next (
    let x := if d < tgLimitAt g s - 10 && (tgLimited g d s).pd.tgHeld[g.1] then
        forCh (fun n s => if tgOf n.1 == g then release n shedGroup s else s) (updPd (fun p => { p with tgHeld := p.tgHeld.set g.1 false g.2 }) (tgLimited g d s))
      else tgLimited g d s
    if 170 ≤ d then forCh (fun n s => if tgOf n.1 == g then latchOne n causeOvertemp s else s) x else x) := rfl

/-- A temperature below 170 degrees that releases nothing. -/
theorem exec_tgTempRead_kept {g : Fin 6} {d : Int} (ho : d < 170) (hk : d < tgLimitAt g s - 10 → (tgLimited g d s).pd.tgHeld[g.1] = false) :
    exec (.tgTempRead g d) s = .next (tgLimited g d s) := by
  have hrel : ¬ (d < tgLimitAt g s - 10 && (tgLimited g d s).pd.tgHeld[g.1]) = true := by simpa using hk
  rw [exec_tgTempRead, if_neg (Int.not_le.2 ho), if_neg hrel]

theorem tgLimited_below {g : Fin 6} {d : Int} (h : d < tgLimitAt g s) :
    tgLimited g d s = updPd (fun p => { p with tgDue := p.tgDue.set g.1 none g.2 }) (tgShown g d s) := if_neg (Int.not_le.2 h)

theorem tgLimited_reached {g : Fin 6} {d : Int} (h : tgLimitAt g s ≤ d) (hw : ftst (F.LOADCH_TG_STAT_g_LIMIT g.1) s = false) :
    tgLimited g d s = groupShed g (tgShown g d s) := by
  rw [tgLimited, if_pos h, if_neg (by simp [hw])]

/-- A group below its limit by more than 10 degrees that holds nothing shed only shows its temperature. -/
theorem exec_tgTempRead_cool {g : Fin 6} {d : Int} (hc : d < tgLimitAt g s - 10) (hh : s.pd.tgHeld[g.1] = false) :
    exec (.tgTempRead g d) s = .next (updPd (fun p => { p with tgDue := p.tgDue.set g.1 none g.2 }) (tgShown g d s)) := by
  have h155 := tgLimitAt_le g s
  have hbelow : tgLimited g d s = _ := tgLimited_below (by omega)
  have hheld : (tgShown g d s).pd.tgHeld[g.1] = false := (congrArg (fun p : PdSt => p.tgHeld[g.1]) (tgShown_pd g d s)).trans hh
  rw [← hbelow]
  refine exec_tgTempRead_kept (by omega) fun _ => ?_
  rw [hbelow]
  exact hheld

theorem exec_tgTempRead_limit {g : Fin 6} {d : Int} (hl : tgLimitAt g s ≤ d) (ho : d < 170) (hw : ftst (F.LOADCH_TG_STAT_g_LIMIT g.1) s = false) :
    exec (.tgTempRead g d) s = .next (groupShed g (tgShown g d s)) := by
  rw [← tgLimited_reached hl hw]
  exact exec_tgTempRead_kept ho fun h => by omega

theorem exec_tgShedStep_due {g : Fin 6} {t : Nat} (hd : s.pd.tgDue[g.1] = some t) (ht : t ≤ s.now) : exec (.tgShedStep g) s = .next (groupShed g s) := by
  change execTgShedStep g s = _
  simp only [execTgShedStep, hd, elapseTo_past ht]

/-- A group as it sheds: its next step is due in 100 ms. -/
def groupHeld (g : Fin 6) (s : State) : State :=
  updPd (fun p => { p with tgDue := p.tgDue.set g.1 (some (s.now + 100000000)) g.2, tgHeld := p.tgHeld.set g.1 true g.2 }) s

theorem groupShed_some {g : Fin 6} {n : Fin 48} (h : shedPick (fun n => tgOf n.1 == g) (groupHeld g s) = some n) :
    groupShed g s = shed n shedGroup (groupHeld g s) := by
  unfold groupShed
  rw [groupHeld] at h
  simp only [h]
  rfl

theorem groupShed_none {g : Fin 6} (h : shedPick (fun n => tgOf n.1 == g) (groupHeld g s) = none) : groupShed g s = groupHeld g s := by
  unfold groupShed
  rw [groupHeld] at h
  simp only [h]
  rfl

/-! ### The power budget (R379, R380) -/

/-- Every output's loss noted, and the die's among those of the last 1,000 ms. -/
def lossNoted (s : State) : State :=
  let l := forCh (fun n s => updCh n (fun c => { c with loss := chLoss n s }) s) s
  updPd (fun p => { p with win := (pNow l :: p.win).take 1000 }) l

/-- The present and the mean loss shown. -/
def powerShown (s : State) : State :=
  fput F.LOADCH_POWER_P_AVG (min 0xFFFF (roundNearest (pAvg s)).toNat) (fput F.LOADCH_POWER_P_NOW (min 0xFFFF (roundNearest (pNow s)).toNat) s)

/-- What the budget makes of a mean loss. -/
def budgetJudged (avg : Rat) (s : State) : State :=
  let warn := decide (pWarn s < avg)
  let above := decide (pBudget s < avg)
  let s := whenB (warn && !s.pd.warnOn) (pdEvent pdBudgetWarn) s
  let first := above && !s.pd.overOn
  let s := updPd (fun p => { p with warnOn := warn, overOn := above }) s
  let s := if first then
      budgetShed (pdEvent pdBudgetOver (updPd (fun p => { p with budgetOn := true, c4 := false, budgetDue := s.now + 10000000 }) s))
    else s
  if avg < pBudget s - 1000 then budgetRelease s else s

theorem exec_powerBudgetUpdate (s : State) : exec .powerBudgetUpdate s = .next (budgetJudged (pAvg (lossNoted s)) (powerShown (lossNoted s))) := rfl

/-- A mean loss within the budget, and too near to it for a release, changes no output. -/
theorem budgetJudged_within {avg : Rat} (hw : avg ≤ pWarn s) (hr : pBudget s - 1000 ≤ avg) (hb : avg ≤ pBudget s) :
    budgetJudged avg s = updPd (fun p => { p with warnOn := false, overOn := false }) s := by
  have hrel : ¬ avg < pBudget (updPd (fun p => { p with warnOn := false, overOn := false }) s) - 1000 := Rat.not_lt.2 hr
  simp only [budgetJudged, decide_eq_false (Rat.not_lt.2 hw), decide_eq_false (Rat.not_lt.2 hb), Bool.false_and, whenB, Bool.false_eq_true, if_false, if_neg hrel]

theorem exec_budgetShedStep_due (ho : s.pd.budgetOn = true) (ht : s.pd.budgetDue ≤ s.now) :
    let v := updPd (fun p => { p with budgetDue := s.now + 10000000 }) s
    exec .budgetShedStep s = .next (if pBudget v < pNow v then budgetShed v else updPd (fun p => { p with budgetOn := false }) v) := by
  change execBudgetShedStep s = _
  simp only [execBudgetShedStep, ho, Bool.not_true, Bool.false_eq_true, if_false, elapseTo_past ht]

/-! ### The restore (R384) -/

theorem exec_shedRestoreStep_due {n : Fin 48} (h : ([4, 3, 2, 1, 0].flatMap fun c => allCh.filter fun n => chClass n s == c).find? (fun n => (pdCh n s).wait) = some n)
    (ht : s.pd.nextRestore ≤ s.now) :
    let v := raise F.LOADCH_EVENT 11 (chChange n (updCh n fun c => { c with wait := false }) s)
    exec .shedRestoreStep s = .next (updPd (fun p => { p with nextRestore := s.now + clampNat 1 100 (fget F.LOADCH_CTRL_RESTORE_MS s) * 1000000 }) v) := by
  change execShedRestoreStep s = _
  simp only [execShedRestoreStep, h, elapseTo_past ht]
  rfl

end

/-- Settles O39: the group's temperature by what it shows, the pick by the fold that makes it, and the budget and the restore each by its equation. -/
theorem loadChannelLimits : Obligations.LoadChannelLimits := by
  refine ⟨fun g d s hw hc hh => ?_, fun g d s hl ho hw => ⟨tgShown g d s, exec_tgTempRead_limit hl ho hw, ?_, event_tgShown hl hw ho, tgShown_pd .., tgShown_mem ..⟩,
    fun g at_ s => exec_tgShedStep_due, fun g n s => ⟨groupShed_some, groupShed_none⟩, fun p n s => shedPick_some, fun s hw hr hb => ?_,
    fun s => exec_budgetShedStep_due, fun n s => exec_shedRestoreStep_due⟩
  · have h155 := tgLimitAt_le g s
    refine does_of (exec_tgTempRead_cool hc hh) ⟨?_, ?_, ?_, Vector.getElem_set_self .., tgShown_mem ..⟩
    · exact (warn_tgShown ..).trans (decide_eq_false (by omega))
    · exact (limit_tgShown ..).trans (decide_eq_false (by omega))
    · exact (ot_tgShown ..).trans (decide_eq_false (by omega))
  · exact (limit_tgShown ..).trans (decide_eq_true hl)
  · exact (exec_powerBudgetUpdate s).trans (congrArg _ (budgetJudged_within hw hr hb))

end Sys2Proof.Machine

/-!
What wakes the Z480, and what a wake does in each of Heron's states (O49).
-/
namespace Sys2Proof.Machine

section
variable {s : State}

/-! ### Wake inputs, tamper and watched sources (R452, R453) -/

/-- Whether WAKE_EN lets an input wake. -/
def wakeEn (n : Nat) (s : State) : Bool := (rd (R.HERON_WAKE_EN_k (n / 32)) s).getLsbD (n % 32)

theorem wakeInput_ignored {n : Nat} (h : heronState s = 0 ∨ wakeEn n s = false) : wakeInput n s = s := if_pos h

theorem wakeInput_taken {n : Nat} (ha : heronState s ≠ 0) (he : wakeEn n s = true) :
    wakeInput n s = wakeBy F.HERON_WAKE_SRC_INPUT n (latchBit R.HERON_WAKE_LATCH_k n s) :=
  if_neg fun h => h.elim ha (Bool.eq_false_iff.1 · he)

/-- Only an alarm of the RTC that acts waits for its instant. -/
theorem exec_heronWake_input {n : Fin 85} (h : n.1 ≠ 84 ∨ heronState s = 0 ∨ wakeEn n.1 s = false) : exec (.heronWake (.input n)) s = .next (wakeInput n.1 s) := by
  have hnow : ¬ (n.1 = 84 ∧ wakeEn n.1 s = true ∧ heronState s ≠ hAwake) := by
    rintro ⟨hn, he, ha⟩
    exact h.elim (· hn) (·.elim ha (Bool.eq_false_iff.1 · he))
  exact congrArg (fun t => Host.Outcome.next (wakeInput n.1 t)) (if_neg hnow)

theorem exec_heronWake_tamper (ha : heronState s ≠ 0) (ht : ftst F.TAMP_STATUS_TAMPER_LATCH s = true) :
    exec (.heronWake .tamper) s = .next (wakeBy F.HERON_WAKE_SRC_TAMPER 1 s) :=
  congrArg _ (if_neg fun h => h.elim ha (Bool.eq_false_iff.1 · ht))

theorem exec_watchedSourceWake {k : Fin 64} {i : Nat} (hw : watched k.1 s = some i) : exec (.watchedSourceWake k) s =
    .next (if heronState s = 0 ∨ requesting i s = false ∨ (s.heron.deep = true ∧ 3 ≤ heronState s ∧ deepSource i = false) then s
      else wakeBy F.HERON_WAKE_SRC_WATCH k.1 (latchBit R.HERON_WATCH_LATCH_k k.1 s)) := by
  change execWatchedSourceWake k s = _
  simp only [execWatchedSourceWake, hw]
  rfl

theorem wakeBy_first (h : firstWake s = true) (f : Fld) (v : Nat) : wakeBy f v s = wakeUp (fput f v s) := by
  rw [wakeBy, h]
  rfl

theorem wakeBy_later (h : firstWake s = false) (f : Fld) (v : Nat) : wakeBy f v s = wakeUp s := by
  rw [wakeBy, h]
  rfl

/-! ### A wake in each state (R455-R457) -/

theorem heronState_setHeron (st : Nat) (s : State) : heronState (setHeron st s) = st % 8 := fget_fput_same _ _ _ (by decide)

theorem heronState_updHeron (f : HeronSt → HeronSt) (s : State) : heronState (updHeron f s) = heronState s := rfl

theorem event_updHeron (n : Nat) (f : HeronSt → HeronSt) (s : State) : fbit F.HERON_EVENT n (updHeron f s) = fbit F.HERON_EVENT n s := rfl

theorem event_setHeron (n st : Nat) (s : State) : fbit F.HERON_EVENT n (setHeron st s) = fbit F.HERON_EVENT n s := fbit_fput_other _ _ _ _ _ (by decide)

theorem wakeUp_entering (h : heronState s = 1) : wakeUp s = abortEntry s := if_pos h

theorem wakeUp_standby (h : heronState s = 2) : wakeUp s = wakeStandby (raise F.HERON_EVENT 0 s) := by
  simp [wakeUp, h, hEntering, hStandby]

theorem wakeUp_deep (h : heronState s = 3) : wakeUp s = wakeDeep (raise F.HERON_EVENT 0 s) := by
  simp [wakeUp, h, hEntering, hStandby, hDeep]

theorem wakeUp_waking (h : heronState s = 4) : wakeUp s = s := by
  simp [wakeUp, h, hEntering, hStandby, hDeep]

/-- An entry that a wake ends: awake again, with SLEEP_ABORTED. -/
theorem abortEntry_shows (s : State) : heronState (abortEntry s) = 0 ∧ fbit F.HERON_EVENT 2 (abortEntry s) = true ∧ (abortEntry s).heron.step = 0 := by
  refine ⟨?_, ?_, rfl⟩
  · rw [abortEntry, heronState_updHeron]
    exact heronState_setHeron ..
  · rw [abortEntry, event_updHeron, event_setHeron]
    exact fbit_raise _ _ _ (by decide)

theorem due_wakeDeep (s : State) : (wakeDeep s).heron.due = s.now + clampNat 1 100 (fget F.HERON_VREG_DELAY_MS s) * 1000000 := rfl

/-- A wake from DEEP: the core die starts after VREG_DELAY. -/
theorem wakeDeep_shows (s : State) : heronState (wakeDeep (raise F.HERON_EVENT 0 s)) = 4 ∧ fbit F.HERON_EVENT 0 (wakeDeep (raise F.HERON_EVENT 0 s)) = true ∧
    (wakeDeep (raise F.HERON_EVENT 0 s)).heron.due = s.now + clampNat 1 100 (fget F.HERON_VREG_DELAY_MS s) * 1000000 := by
  refine ⟨?_, ?_, ?_⟩
  · rw [wakeDeep, heronState_updHeron]
    exact heronState_setHeron ..
  · rw [wakeDeep, event_updHeron, event_setHeron]
    exact fbit_raise _ _ _ (by decide)
  · rw [due_wakeDeep, raise_now, raise, fget_wr_other _ _ _ (by decide)]

/-! ### The wake order (R456) -/

theorem exec_wakeOrderStep_due (h : heronState s = 4) (hd : s.heron.deep = false) (ht : s.heron.due ≤ s.now) : exec .wakeOrderStep s = .next (orderStep s) := by
  change execWakeOrderStep s = _
  rw [execWakeOrderStep, if_pos ⟨h, hd⟩, elapseTo_past ht]

theorem orderStep_none (h : orderFrom s.heron.order s = []) : orderStep s = setHeron 0 s := by
  simp [orderStep, h, hAwake]

/-- The island of the first entry starts, unless Bellows holds it. -/
theorem orderStep_first {k : Nat} {i : Fin 21} {rest : List (Nat × Fin 21)} (h : orderFrom s.heron.order s = (k, i) :: rest) (hb : s.isl[i.1].blw = false) :
    orderStep s = if rest.isEmpty then setHeron 0 (wakeIsl i s)
      else updHeron (fun h => { h with order := k + 1, due := (wakeIsl i s).now + fget (F.HERON_ORDER_k_DELAY_US k) (wakeIsl i s) * 1000 }) (wakeIsl i s) := by
  simp [orderStep, h, hb, hAwake]

/-! ### The start from DEEP (R457) -/

/-- The state in which the core die starts: VT goes on from what the RTC has counted, in the next epoch. -/
def coreStarts (s : State) : State :=
  let v := { s with time := restartTime ((sleptVt s).getD 0) s }
  fput F.TIME_EPOCH_COUNT (epoch v + 1) v

theorem exec_vregDelayEnd_due (h : heronState s = 4) (hd : s.heron.deep = true) (ht : s.heron.due ≤ s.now) :
    exec .vregDelayEnd s = .next (chipReset kindDeepWake 0 (coreStarts s)) := by
  change execVregDelayEnd s = _
  rw [execVregDelayEnd, if_pos ⟨h, hd⟩, elapseTo_past ht]
  rfl

theorem epoch_coreStarts (s : State) : epoch (coreStarts s) = (epoch s + 1) % 2 ^ 16 := fget_fput_same _ _ _ (by decide)

theorem sameMem_coreStarts (s : State) : SameMem s (coreStarts s) := fun _ => rfl

/-! ### Polls in DEEP (R393) -/

theorem exec_diPoll_deep (h : heronState s = 3) (mv : Vector Nat 48) :
    exec (.diPoll mv) s = .next (forFin 48 (diPollOne (diCompare mv s).fio.closed) (diCompare mv s)) := congrArg _ (if_pos h)

theorem exec_diPoll_elsewhere (h : heronState s ≠ 3) (mv : Vector Nat 48) : exec (.diPoll mv) s = .next s := congrArg _ (if_neg h)

theorem diPollOne_disabled {i : Fin 48} (he : ftst (F.FIO_DI_CFG_i_WAKE_EN i.1) s = false) (l : BitVec 48) : diPollOne l i s = s := by
  simp [diPollOne, he]

/-- A bit of a poll noted. -/
def pollPut (i : Fin 48) (v : Bool) (x : BitVec 48) : BitVec 48 := if v then x ||| BitVec.ofNat 48 (2 ^ i.1) else x &&& ~~~(BitVec.ofNat 48 (2 ^ i.1))

/-- A change that one poll has shown, or none, is no wake. -/
theorem diPollOne_unconfirmed {l : BitVec 48} {i : Fin 48} (h : s.fio.pollLast.getLsbD i.1 ≠ diLevel l i s ∨ s.fio.pollBase.getLsbD i.1 = diLevel l i s) :
    ∃ f : FioSt → FioSt, diPollOne l i s = updFio f s := by
  have hconf : (s.fio.pollLast.getLsbD i.1 == diLevel l i s && s.fio.pollBase.getLsbD i.1 != diLevel l i s) = false := by
    obtain h | h := h
    · simp only [beq_eq_false_iff_ne.2 h, Bool.false_and]
    · simp only [h, bne_self_eq_false, Bool.and_false]
  rw [diLevel] at hconf
  by_cases he : ftst (F.FIO_DI_CFG_i_WAKE_EN i.1) s = true
  · simp only [diPollOne, he, hconf, Bool.not_true, Bool.false_eq_true, if_false, Bool.false_and]
    exact ⟨_, rfl⟩
  · exact ⟨id, diPollOne_disabled (Bool.not_eq_true _ ▸ he) l⟩

/-- A change that two polls in a row show is a wake, where each direction is one. -/
theorem diPollOne_confirmed {l : BitVec 48} {i : Fin 48} (he : ftst (F.FIO_DI_CFG_i_WAKE_EN i.1) s = true) (hl : s.fio.pollLast.getLsbD i.1 = diLevel l i s)
    (hb : s.fio.pollBase.getLsbD i.1 ≠ diLevel l i s) (hd : fget (F.FIO_DI_CFG_i_WAKE_EDGE i.1) s = 0) :
    diPollOne l i s = wakeInput i.1 (updFio (fun x => { x with
      pollLast := pollPut i (diLevel l i s) x.pollLast, pollBase := pollPut i (diLevel l i s) x.pollBase }) s) := by
  have hconf : (s.fio.pollLast.getLsbD i.1 == diLevel l i s && s.fio.pollBase.getLsbD i.1 != diLevel l i s) = true := by
    rw [Bool.and_eq_true]
    exact ⟨beq_iff_eq.2 hl, bne_iff_ne.2 hb⟩
  rw [diLevel] at hconf
  have hedge : ∀ f, fget (F.FIO_DI_CFG_i_WAKE_EDGE i.1) (updFio f s) = 0 := fun _ => hd
  simp only [diPollOne, he, hconf, hedge, Bool.not_true, Bool.false_eq_true, if_false, if_true, beq_self_eq_true, Bool.true_or, Bool.and_self]
  rfl

/-! ### Tamper alarms (R555) -/

theorem tamperAlarm_ignored {src : Fin 7} (h : tamperWatched src s = false ∨ s.key.alarms.contains src.1 = true) : tamperAlarm src s = s := by
  rw [tamperAlarm, if_pos]
  simpa using h

/-- A source that begins to alarm, shown. -/
def alarmNoted (src : Fin 7) (s : State) : State := fput F.TAMP_STATUS_ACTIVE 1 (updKey (fun k => { k with alarms := k.alarms ++ [src.1] }) s)

theorem tamperAlarm_quenches {src : Fin 7} (hw : tamperWatched src s = true) (ha : s.key.alarms.contains src.1 = false) :
    tamperAlarm src s = quench src (alarmNoted src s) := by
  rw [tamperAlarm, hw, ha]
  rfl

theorem active_alarmNoted (src : Fin 7) (s : State) : ftst F.TAMP_STATUS_ACTIVE (alarmNoted src s) = true :=
  ftst_fput_flag F.TAMP_STATUS_ACTIVE (by decide) (by decide) true _

end

/-- Settles O49: each wake by its source's equation, what it does by Heron's state, and the polls by what two of them in a row show. -/
theorem wakes : Obligations.Wakes := by
  refine ⟨fun n s => ⟨fun h => (exec_heronWake_input (.inr h)).trans (congrArg _ (wakeInput_ignored h)),
      fun ha he hn => (exec_heronWake_input (.inl hn)).trans (congrArg _ (wakeInput_taken ha he))⟩,
    fun s => exec_heronWake_tamper, fun k i s hw => ?_, fun f v s => ⟨fun h => wakeBy_first h f v, fun h => wakeBy_later h f v⟩,
    fun s => ⟨fun h => ?_, wakeUp_standby, fun h => ?_, wakeUp_waking⟩,
    fun s h hd ht => ⟨exec_wakeOrderStep_due h hd ht, fun ho => ?_, fun k i ho hb => ?_, fun k i j rest ho hb => ?_⟩,
    fun s h hd ht => ⟨coreStarts s, exec_vregDelayEnd_due h hd ht, epoch_coreStarts s, sameMem_coreStarts s⟩,
    fun mv s => ⟨fun h => exec_diPoll_deep h mv, fun h => exec_diPoll_elsewhere h mv⟩,
    fun l i s => ⟨fun he => diPollOne_disabled he l, fun h => ?_, fun he hl hb hd => ?_⟩,
    fun src s => ⟨fun h => congrArg _ (tamperAlarm_ignored h), fun hw ha => ⟨alarmNoted src s, congrArg _ (tamperAlarm_quenches hw ha), rfl, active_alarmNoted src s, fun _ => rfl⟩⟩⟩
  · rw [exec_watchedSourceWake hw]
    refine ⟨fun ha hr hd => congrArg _ (if_neg ?_), fun h => congrArg _ (if_pos (h.imp_right .inl))⟩
    obtain hd | hd := hd <;> simp [ha, hr, hd]
  · rw [wakeUp_entering h]
    exact abortEntry_shows s
  · rw [wakeUp_deep h]
    exact wakeDeep_shows s
  · rw [orderStep_none ho]
    exact heronState_setHeron 0 s
  · rw [orderStep_first ho hb]
    rfl
  · rw [orderStep_first ho hb]
    rfl
  · intro a
    obtain ⟨f, hf⟩ := diPollOne_unconfirmed h
    rw [hf]
    rfl
  · exact ⟨_, diPollOne_confirmed he hl hb hd, getLsbD_put i.2 .., getLsbD_put i.2 ..⟩

end Sys2Proof.Machine

/-!
TCM copies and patrol scrubbing (O42).
-/
namespace Sys2Proof.Machine

/-- Memory that is held alike reads alike. -/
theorem sameMem_of {s t : State} (hm : t.mem = s.mem) (hd : t.dram = s.dram) : SameMem s t := fun a => by
  rw [mrd, mrd, hm, hd]

section
variable {w : Initiator} {s : State}

/-! ### Register commands that only Hearth may give -/

theorem regCmd_hearth {a : Nat} (hl : Lets w a true s) (hw : initWorld w (entered w a s) = true) (f : State → State) :
    regCmd w a (hearthOnly w f) s = f (ok (entered w a s)) := (regCmd_lets hl _).trans (if_pos hw)

theorem regCmd_hearth_refused {a : Nat} (hl : Lets w a true s) (hw : initWorld w (entered w a s) = false) (f : State → State) :
    regCmd w a (hearthOnly w f) s = bad (ok (entered w a s)) := (regCmd_lets hl _).trans (if_neg (Bool.eq_false_iff.1 hw))

/-! ### The start of a copy (R412) -/

theorem exec_tcmcpyGo (w : Initiator) (len : BitVec 19) (s : State) :
    exec (.tcmcpyGo w len) s = .next (regCmd w R.MEM_TCMCPY_CTL (hearthOnly w (tcmcpyGo len.toNat)) s) := rfl

theorem tcmcpyGo_busy (h : ftst F.MEM_TCMCPY_STAT_BUSY s = true) (len : Nat) : tcmcpyGo len s = bad s := if_pos h

/-- Whether the target of the copy that the registers describe is open, and holds its range. -/
def copyFits (len : Nat) (s : State) : Bool :=
  tcmOpen (fget F.MEM_TCMCPY_DST_TARGET s) s && tcmFits (fget F.MEM_TCMCPY_DST_TARGET s) (fget F.MEM_TCMCPY_DST_OFS s) len

/-- The copy that the registers describe, under way. -/
def copyBegun (len : Nat) (s : State) : State :=
  fput F.MEM_TCMCPY_STAT_BUSY 1 (updCwy (fun c => { c with copy := some ⟨fget F.MEM_TCMCPY_SRC_LO s + 2 ^ 32 * fget F.MEM_TCMCPY_SRC_HI s, len,
    fget F.MEM_TCMCPY_DST_TARGET s, fget F.MEM_TCMCPY_DST_OFS s⟩ }) s)

theorem tcmcpyGo_idle (h : ftst F.MEM_TCMCPY_STAT_BUSY s = false) (len : Nat) : tcmcpyGo len s =
    if copyFits len (fput F.MEM_TCMCPY_CTL_LEN len s) = true ∧ len % 16 = 0 then copyBegun len (fput F.MEM_TCMCPY_CTL_LEN len s)
    else copyEnd .failedRefused (fput F.MEM_TCMCPY_CTL_LEN len s) := by
  rw [tcmcpyGo, if_neg (Bool.eq_false_iff.1 h), ← ite_not]
  refine if_congr ?_ rfl rfl
  cases ho : tcmOpen (fget F.MEM_TCMCPY_DST_TARGET (fput F.MEM_TCMCPY_CTL_LEN len s)) (fput F.MEM_TCMCPY_CTL_LEN len s) <;>
    simp [copyFits, ho, and_comm]

/-! ### The end of a copy (R412) -/

/-- What the copy engine reads from a copy's source, with Hearth's identity. -/
def copySource (c : TcmCopy) (s : State) : Option (List Byte) × State := unitRead ⟨16, 0x40, true, 0⟩ c.src c.len s

section
variable {c : TcmCopy} (hc : s.cwy.copy = some c)
include hc

theorem exec_tcmcpyDone_busError : exec (.tcmcpyDone .busError) s = .next (copyEnd .failedBus s) := by
  change execTcmcpyDone .busError s = _
  simp only [execTcmcpyDone, hc]

theorem exec_tcmcpyDone_eccError : exec (.tcmcpyDone .eccError) s = .next (copyEnd .failedEcc s) := by
  change execTcmcpyDone .eccError s = _
  simp only [execTcmcpyDone, hc]

theorem exec_tcmcpyDone_closed (ho : tcmOpen c.target s = false) : exec (.tcmcpyDone .ok) s = .next (copyEnd .failedRefused s) := by
  change execTcmcpyDone .ok s = _
  simp [execTcmcpyDone, hc, ho]

theorem exec_tcmcpyDone_unread (ho : tcmOpen c.target s = true) (hr : (copySource c s).1 = none) :
    exec (.tcmcpyDone .ok) s = .next (copyEnd .failedBus (copySource c s).2) := by
  have hpair : unitRead ⟨16, 0x40, true, 0⟩ c.src c.len s = (none, (copySource c s).2) := Prod.ext hr rfl
  change execTcmcpyDone .ok s = _
  simp [execTcmcpyDone, hc, ho, hpair]

theorem exec_tcmcpyDone_done (ho : tcmOpen c.target s = true) {d : List Byte} (hr : (copySource c s).1 = some d) :
    exec (.tcmcpyDone .ok) s = .next (copyEnd .done (mwrBytes (tcmBase c.target + c.ofs) d (copySource c s).2)) := by
  have hpair : unitRead ⟨16, 0x40, true, 0⟩ c.src c.len s = (some d, (copySource c s).2) := Prod.ext hr rfl
  change execTcmcpyDone .ok s = _
  simp [execTcmcpyDone, hc, ho, hpair]

end

/-! ### Targets (R410, R412) -/

theorem tcmFits_iff (t : Fin 5) (ofs n : Nat) : tcmFits t.1 ofs n = true ↔
    if t.1 < 4 then ofs + n ≤ 0x30000 ∨ (0x40000 ≤ ofs ∧ ofs + n ≤ 0x80000) else ofs + n ≤ 0x40000 := by
  rw [tcmFits]
  split <;> simp

theorem tcmOpen_pair (p : Fin 4) (s : State) : tcmOpen p.1 s = true ↔ islSt (islL p) s = .reset := by
  rw [tcmOpen, if_pos p.2, Fin.ofNat_val_eq_self]
  exact beq_iff_eq

theorem tcmOpen_hc (s : State) : tcmOpen 4 s = s.cwy.hcBoot := rfl

/-! ### Scrubbing (R421, R422) -/

theorem exec_dramScrub (addr : BitVec 40) (f : HdrEcc) (s : State) : exec (.dramScrub addr f) s = execDramScrub addr f s := rfl

/-- The place of an uncorrectable error that scrubbing meets (R434). -/
def scrubPlaced (a : Nat) (s : State) : State :=
  wr R.MEM_ECC_LAST_HI (BitVec.ofNat 32 (a / 2 ^ 32 % 256 + 0x40 * 256 + 2 ^ 16 + 2 ^ 17)) (wr R.MEM_ECC_LAST_LO (BitVec.ofNat 32 a) s)

/-- The event and the count of an uncorrectable error that scrubbing meets come after its place. -/
theorem eccLog_scrub (a : Nat) (s : State) : eccLog a 0x40 true true s = raise F.MEM_EVENT 1 (bump R.MEM_ECC_UE_CNT
    (updCwy (fun c => { c with bad := c.bad.filter (fun k => k != a / 8) ++ [a / 8] }) (scrubPlaced a s))) := rfl

@[simp] theorem rd_updCwy (b : Nat) (f : CwySt → CwySt) (s : State) : rd b (updCwy f s) = rd b s := rfl

theorem eccLog_sameMem (a : Nat) (s : State) : SameMem s (eccLog a 0x40 true true s) := by
  apply sameMem_of
  · rw [eccLog_scrub, raise_mem, bump_mem, updCwy_mem, scrubPlaced, wr_mem, wr_mem]
  · rw [eccLog_scrub, raise_dram, bump_dram, updCwy_dram, scrubPlaced, wr_dram, wr_dram]

theorem rd_eccLog_scrub (a : Nat) (s : State) {b : Nat} (he : b ≠ F.MEM_EVENT.addr) (hu : b ≠ R.MEM_ECC_UE_CNT) :
    rd b (eccLog a 0x40 true true s) = rd b (scrubPlaced a s) := by
  rw [eccLog_scrub, rd_raise, if_neg he, rd_bump, if_neg hu, rd_updCwy]

theorem eccLog_lastLo (a : Nat) (s : State) : rd R.MEM_ECC_LAST_LO (eccLog a 0x40 true true s) = BitVec.ofNat 32 a := by
  rw [rd_eccLog_scrub a s (by decide) (by decide), scrubPlaced, rd_wr_other _ _ (by decide), rd_wr_same]

theorem eccLog_lastHi {a : Nat} (h : a < 2 ^ 40) (s : State) :
    (rd R.MEM_ECC_LAST_HI (eccLog a 0x40 true true s)).toNat = a / 2 ^ 32 + 0x40 * 256 + 2 ^ 16 + 2 ^ 17 := by
  rw [rd_eccLog_scrub a s (by decide) (by decide), scrubPlaced, rd_wr_same, BitVec.toNat_ofNat]
  omega

/-- The count of uncorrectable errors that scrubbing meets. -/
theorem eccLog_count (a : Nat) (s : State) : rd R.MEM_ECC_UE_CNT (eccLog a 0x40 true true s) = rd R.MEM_ECC_UE_CNT (bump R.MEM_ECC_UE_CNT s) := by
  rw [eccLog_scrub, rd_raise, if_neg (by decide), rd_bump, rd_bump, rd_updCwy, scrubPlaced, rd_wr_other _ _ (by decide), rd_wr_other _ _ (by decide)]

theorem eccLog_scrubbed {a : Nat} (h : a < 2 ^ 40) (s : State) : let t := eccLog a 0x40 true true s
    fbit F.MEM_EVENT 1 t = true ∧ rd R.MEM_ECC_UE_CNT t = rd R.MEM_ECC_UE_CNT (bump R.MEM_ECC_UE_CNT s) ∧ rd R.MEM_ECC_LAST_LO t = BitVec.ofNat 32 a ∧
    fget F.MEM_ECC_LAST_HI_ADDR t = a / 2 ^ 32 ∧ fget F.MEM_ECC_LAST_HI_INIT t = 0x40 ∧ fget F.MEM_ECC_LAST_HI_UE t = 1 ∧ fget F.MEM_ECC_LAST_HI_SCRUB t = 1 ∧ SameMem s t := by
  have hfield (hi lo : Nat) : fget ⟨R.MEM_ECC_LAST_HI, hi, lo⟩ (eccLog a 0x40 true true s) = bits (a / 2 ^ 32 + 0x40 * 256 + 2 ^ 16 + 2 ^ 17) hi lo :=
    congrArg (bits · hi lo) (eccLog_lastHi h s)
  have haddr : bits (a / 2 ^ 32 + 0x40 * 256 + 2 ^ 16 + 2 ^ 17) 7 0 = a / 2 ^ 32 := by rw [bits]; omega
  have hinit : bits (a / 2 ^ 32 + 0x40 * 256 + 2 ^ 16 + 2 ^ 17) 15 8 = 0x40 := by rw [bits]; omega
  have hue : bits (a / 2 ^ 32 + 0x40 * 256 + 2 ^ 16 + 2 ^ 17) 16 16 = 1 := by rw [bits]; omega
  have hscrub : bits (a / 2 ^ 32 + 0x40 * 256 + 2 ^ 16 + 2 ^ 17) 17 17 = 1 := by rw [bits]; omega
  exact ⟨fbit_raise F.MEM_EVENT 1 _ (by decide), eccLog_count a s, eccLog_lastLo a s, (hfield 7 0).trans haddr, (hfield 15 8).trans hinit,
    (hfield 16 16).trans hue, (hfield 17 17).trans hscrub, eccLog_sameMem a s⟩

end

/-- Settles O42: the start of a copy by what its registers describe, its end by the outcome of its reads, and what scrubbing logs by the fields of ECC_LAST. -/
theorem tcmCopiesAndScrubbing : Obligations.TcmCopiesAndScrubbing := by
  refine ⟨fun w len s hl => ⟨fun hw => ?_, fun hw => ⟨fun hb => ?_, fun hb hn => ?_, fun hb hf hn => ?_⟩⟩,
    fun c s hc => ⟨exec_tcmcpyDone_busError hc, exec_tcmcpyDone_eccError hc, exec_tcmcpyDone_closed hc,
      fun ho => ⟨exec_tcmcpyDone_unread hc ho, fun d => exec_tcmcpyDone_done hc ho⟩⟩,
    tcmFits_iff, tcmOpen_pair, tcmOpen_hc, fun addr f s he hd => ?_, fun a s h => eccLog_scrubbed h s⟩
  · rw [exec_tcmcpyGo, regCmd_hearth_refused hl hw]
  · rw [exec_tcmcpyGo, regCmd_hearth hl hw, tcmcpyGo_busy (s := ok _) hb]
  · rw [exec_tcmcpyGo, regCmd_hearth hl hw, tcmcpyGo_idle (s := ok _) hb, if_neg]
    rintro ⟨hf, h16⟩
    exact hn.elim (Bool.eq_false_iff.1 · hf) (· h16)
  · rw [exec_tcmcpyGo, regCmd_hearth hl hw, tcmcpyGo_idle (s := ok _) hb, if_pos ⟨hf, hn⟩]
    rfl
  · cases f <;> simp [exec_dramScrub, execDramScrub, he, hd]

end Sys2Proof.Machine

/-!
The core die leaves reset, a slot is chosen, and the boot commands (O55).
-/
namespace Sys2Proof.Machine

section
variable {k : Nat} {s : State}

/-! ### Why a slot is not chosen (R524-R528, R532) -/

theorem imageReason_eq_zero (h : imageReason k s = 0) : signatureOk k s = true ∧ hearthHashOk k s = true := by
  cases hs : signatureOk k s <;> cases hh : hearthHashOk k s <;> simp [imageReason, hs, hh] at h ⊢

/-- A slot that is chosen is one of the two, and nothing makes it invalid. -/
theorem chooseSlot_some (h : (chooseSlot s).1 = some k) : k < 2 ∧ headerReason k s = none ∧ imageReason k s = 0 := by
  rw [chooseSlot] at h
  split at h
  · exact absurd h nofun
  · split at h
    next => exact absurd h nofun
    next ha hb => grind
    next ha hb => grind
    next ha hb => grind

/-- What a slot without a reason against its header meets: nothing excludes it, and each check of its header holds. -/
theorem headerReason_eq_none (h : headerReason k s = none) : s.boot.exclude ≠ some k ∧ (∀ j, journal s = some j → j.target = k → j.state ≠ 1 ∧ j.state ≠ 3) ∧
    frdBytes (slotBase k s) 8 s = ascii "Z480IMRN" ∧ headerForm k s = true ∧ hdr k 24 8 s = Config.platformId % 2 ^ 64 ∧ s.boot.rollback ≤ hdr k 12 4 s ∧
    signerOk k s = true := by
  simp only [headerReason, ite_eq_iff, reduceCtorEq, and_false, false_or, and_true, beq_iff_eq, bne_iff_ne, ne_eq, not_not, Bool.not_eq_true', Bool.not_eq_false, Nat.not_lt] at h
  obtain ⟨hx, hb, hm, hf, hp, hr, hs⟩ := h
  refine ⟨hx, fun j hj ht => ?_, hm, hf, hp, hr, hs⟩
  simp_all

/-! ### What the choice leaves (R525, R528, R532) -/

/-- What the choice shows of both slots. -/
def slotsShown (s : State) : State :=
  let (_, a, b) := chooseSlot s
  updBoot (fun x => { x with exclude := none }) (s |> fput F.SYSCTL_BOOT_STATUS_A_REASON a |> fput F.SYSCTL_BOOT_STATUS_B_REASON b
    |> fput F.SYSCTL_BOOT_STATUS_UPDATE (updateCode a b s) |> fput F.SYSCTL_BOOT_STATUS_UPD_SLOT (match journal s with | some j => j.target | none => 0))

/-- No slot is chosen: the boot ROM waits for its next attempt. -/
def slotMissing (s : State) : State :=
  updBoot (fun x => { x with retryAt := s.now + 2000000000 }) (fput F.SYSCTL_BOOT_STATUS_RESULT 2 (fput F.SYSCTL_BOOT_STATUS_SLOT 3 s))

/-- A slot is chosen, as an alternative or not. -/
def slotTaken (k : Nat) (alt : Bool) (s : State) : State :=
  s |> fput F.SYSCTL_BOOT_STATUS_SLOT k |> fput F.SYSCTL_BOOT_STATUS_RESULT (if alt then 1 else 0) |> wr R.SYSCTL_BOOT_SEQ_LO (BitVec.ofNat 32 (hdr k 16 8 s))
    |> wr R.SYSCTL_BOOT_SEQ_HI (BitVec.ofNat 32 (hdr k 16 8 s / 2 ^ 32)) |> updBoot (fun x => { x with retryAt := 0 })

theorem selectSlot_none (h : (chooseSlot s).1 = none) : selectSlot s = slotMissing (slotsShown s) := by
  obtain ⟨a, b, hc⟩ : ∃ a b, chooseSlot s = (none, a, b) := ⟨_, _, Prod.ext h rfl⟩
  cases hj : journal s <;> simp only [selectSlot, slotsShown, slotMissing, hc, hj]

theorem selectSlot_some (h : (chooseSlot s).1 = some k) : selectSlot s = startHearth k (slotTaken k s.boot.exclude.isSome (slotsShown s)) := by
  obtain ⟨a, b, hc⟩ : ∃ a b, chooseSlot s = (some k, a, b) := ⟨_, _, Prod.ext h rfl⟩
  cases hj : journal s <;> simp only [selectSlot, slotsShown, slotTaken, hc, hj]

theorem slotsShown_mem (s : State) : (slotsShown s).mem = s.mem := by simp only [slotsShown, updBoot_mem, fput_mem]

theorem slotsShown_dram (s : State) : (slotsShown s).dram = s.dram := by simp only [slotsShown, updBoot_dram, fput_dram]

theorem slotsShown_cwy (s : State) : (slotsShown s).cwy = s.cwy := by simp only [slotsShown, updBoot_cwy, fput_cwy]

theorem slotsShown_now (s : State) : (slotsShown s).now = s.now := by simp only [slotsShown, updBoot_now, fput_now]

theorem slotsShown_exclude (s : State) : (slotsShown s).boot.exclude = none := by simp only [slotsShown, updBoot_boot]

theorem fget_updBoot (f : Fld) (g : BootSt → BootSt) (s : State) : fget f (updBoot g s) = fget f s := rfl

theorem slotMissing_cwy (s : State) : (slotMissing s).cwy = s.cwy := by simp only [slotMissing, updBoot_cwy, fput_cwy]

theorem slotMissing_sameMem (s : State) : SameMem s (slotMissing (slotsShown s)) :=
  sameMem_of (by rw [slotMissing, updBoot_mem, fput_mem, fput_mem, slotsShown_mem]) (by rw [slotMissing, updBoot_dram, fput_dram, fput_dram, slotsShown_dram])

theorem slotMissing_shows (s : State) : fget F.SYSCTL_BOOT_STATUS_SLOT (slotMissing s) = 3 ∧ fget F.SYSCTL_BOOT_STATUS_RESULT (slotMissing s) = 2 ∧
    (slotMissing s).boot.retryAt = s.now + 2000000000 := by
  refine ⟨?_, ?_, ?_⟩
  · rw [slotMissing, fget_updBoot, fget_fput_beside F.SYSCTL_BOOT_STATUS_RESULT F.SYSCTL_BOOT_STATUS_SLOT _ _ rfl (by decide) (.inl (by decide)),
      fget_fput_same _ _ _ (by decide)]
    rfl
  · rw [slotMissing, fget_updBoot, fget_fput_same _ _ _ (by decide)]
    rfl
  · rw [slotMissing, updBoot_boot]

theorem fget_slotTaken {f : Fld} (ha : f.addr = R.SYSCTL_BOOT_STATUS) (k : Nat) (alt : Bool) (s : State) : fget f (slotTaken k alt s) =
    fget f (fput F.SYSCTL_BOOT_STATUS_RESULT (if alt then 1 else 0) (fput F.SYSCTL_BOOT_STATUS_SLOT k s)) := by
  rw [slotTaken, fget_updBoot, fget_wr_other _ _ _ (by rw [ha]; decide), fget_wr_other _ _ _ (by rw [ha]; decide)]

theorem slot_slotTaken (k : Nat) (alt : Bool) (s : State) : fget F.SYSCTL_BOOT_STATUS_SLOT (slotTaken k alt s) = k % 4 := by
  rw [fget_slotTaken rfl, fget_fput_beside F.SYSCTL_BOOT_STATUS_RESULT F.SYSCTL_BOOT_STATUS_SLOT _ _ rfl (by decide) (.inl (by decide)), fget_fput_same _ _ _ (by decide)]
  rfl

theorem result_slotTaken (k : Nat) (alt : Bool) (s : State) : fget F.SYSCTL_BOOT_STATUS_RESULT (slotTaken k alt s) = if alt then 1 else 0 := by
  rw [fget_slotTaken rfl, fget_fput_same _ _ _ (by decide)]
  cases alt <;> rfl

/-- The start of Hearth writes only its measurement, HC's memory and the state of HC. -/
theorem startHearth_keeps {α : Type} {f : State → α} (hw : ∀ i v s, f (wr (R.OWN_MEAS_k i) v s) = f s) (hm : ∀ a v s, f (mwr a v s) = f s)
    (hc : ∀ g s, f (updCwy g s) = f s) (k : Nat) (s : State) : f (startHearth k s) = f s := by
  rw [startHearth, hc, mwrBytes_keeps hm]
  exact forN_keeps (fun i s => hw i _ s) 16 s

theorem startHearth_boot (k : Nat) (s : State) : (startHearth k s).boot = s.boot :=
  startHearth_keeps (f := State.boot) (fun _ _ _ => rfl) (fun _ _ _ => rfl) (fun _ _ => rfl) k s

theorem fget_startHearth {f : Fld} (ha : f.addr = R.SYSCTL_BOOT_STATUS) (k : Nat) (s : State) : fget f (startHearth k s) = fget f s :=
  startHearth_keeps (f := fget f) (fun i v s => fget_wr_other _ _ _ (by rw [ha]; simp only [R.SYSCTL_BOOT_STATUS, R.OWN_MEAS_k]; omega)) (fun _ _ _ => rfl)
    (fun _ _ => rfl) k s

theorem startHearth_hcBoot (k : Nat) (s : State) : (startHearth k s).cwy.hcBoot = false := by rw [startHearth, updCwy_cwy]

theorem retryAt_slotTaken (k : Nat) (alt : Bool) (s : State) : (slotTaken k alt s).boot = { s.boot with retryAt := 0 } := by
  simp only [slotTaken, updBoot_boot, wr_boot, fput_boot]

/-! ### The release of the core die (R420, R515, R529, R530) -/

/-- What discovery finds of the settings flash, shown. -/
def capShown (cap : Option (Fin 3)) (s : State) : State :=
  match cap with
  | some z => s |> fput F.SYSCTL_XSPI_CAP_SIZE z.1 |> fput F.SYSCTL_XSPI_CAP_OK 1
  | none => s

/-- What the training of DRAM ends with, shown. -/
def dramShown (dram : Option (Fin 4 × Fin 4)) (s : State) : State :=
  match dram with
  | some (z, r) => s |> fput F.MEM_DRAM_CFG_SIZE z.1 |> fput F.MEM_DRAM_CFG_RATE (r.1 + 1) |> fput F.MEM_DRAM_CFG_TRAINED 1
  | none => s

/-- The core die out of reset, before the choice of a slot. -/
def coreReleased (cap : Option (Fin 3)) (dram : Option (Fin 4 × Fin 4)) (full : Bool) (s : State) : State :=
  let s := dramShown dram (capShown cap (releaseCore s))
  s |> fput F.SYSCTL_BOOT_STATUS_TRAIN_FULL full.toNat |> fput F.SYSCTL_BOOT_STATUS_KEYLESS (fget F.TAMP_STATUS_TAMPER_LATCH s)

section
variable (cap : Option (Fin 3)) (dram : Option (Fin 4 × Fin 4)) (full : Bool)

theorem exec_coreResetRelease_due {t : Nat} (h : s.boot.inReset = some t) (ht : t ≤ s.now) :
    exec (.coreResetRelease cap dram full) s = .next (selectSlot (coreReleased cap dram full s)) := by
  change execCoreResetRelease cap dram full s = _
  simp only [execCoreResetRelease, h, elapseTo_past ht]
  cases cap <;> rcases dram with _ | ⟨z, r⟩ <;> rfl

theorem exec_coreResetRelease_released (h : s.boot.inReset = none) : exec (.coreResetRelease cap dram full) s = .next s := by
  change execCoreResetRelease cap dram full s = _
  simp only [execCoreResetRelease, h]

/-- A field outside BOOT_STATUS does not move after the training. -/
theorem fget_coreReleased {f : Fld} (ha : f.addr ≠ R.SYSCTL_BOOT_STATUS) (s : State) :
    fget f (coreReleased cap dram full s) = fget f (dramShown dram (capShown cap (releaseCore s))) :=
  (fget_fput_other _ _ _ _ ha).trans (fget_fput_other _ _ _ _ ha)

theorem fget_dramShown {f : Fld} (ha : f.addr ≠ R.MEM_DRAM_CFG) (s : State) : fget f (dramShown dram s) = fget f s := by
  rcases dram with _ | ⟨z, r⟩
  · rfl
  · exact (fget_fput_other _ _ _ _ ha).trans ((fget_fput_other _ _ _ _ ha).trans (fget_fput_other _ _ _ _ ha))

theorem trainFull_coreReleased (s : State) : ftst F.SYSCTL_BOOT_STATUS_TRAIN_FULL (coreReleased cap dram full s) = full := by
  rw [ftst, coreReleased, fget_fput_beside F.SYSCTL_BOOT_STATUS_KEYLESS F.SYSCTL_BOOT_STATUS_TRAIN_FULL _ _ rfl (by decide) (.inr (by decide)),
    fget_fput_same _ _ _ (by decide)]
  cases full <;> rfl

theorem keyless_coreReleased (s : State) : fget F.SYSCTL_BOOT_STATUS_KEYLESS (coreReleased cap dram full s) =
    fget F.TAMP_STATUS_TAMPER_LATCH (coreReleased cap dram full s) := by
  rw [fget_coreReleased cap dram full (f := F.TAMP_STATUS_TAMPER_LATCH) (by decide), coreReleased, fget_fput_same _ _ _ (by decide)]
  exact Nat.mod_eq_of_lt (Nat.mod_lt _ (by decide))

theorem capShown_boot (s : State) : (capShown cap s).boot = s.boot := by
  cases cap <;> simp only [capShown, fput_boot]

theorem dramShown_boot (s : State) : (dramShown dram s).boot = s.boot := by
  rcases dram with _ | ⟨z, r⟩ <;> simp only [dramShown, fput_boot]

theorem inReset_coreReleased (s : State) : (coreReleased cap dram full s).boot.inReset = none := by
  simp only [coreReleased, fput_boot, dramShown_boot, capShown_boot, releaseCore, updBoot_boot]

theorem cap_coreReleased (z : Fin 3) (s : State) : fget F.SYSCTL_XSPI_CAP_SIZE (coreReleased (some z) dram full s) = z.1 ∧
    ftst F.SYSCTL_XSPI_CAP_OK (coreReleased (some z) dram full s) = true := by
  constructor
  · rw [fget_coreReleased _ _ _ (by decide), fget_dramShown _ (by decide), capShown, fget_fput_beside F.SYSCTL_XSPI_CAP_OK F.SYSCTL_XSPI_CAP_SIZE _ _ rfl (by decide) (.inl (by decide)),
      fget_fput_same _ _ _ (by decide)]
    exact Nat.mod_eq_of_lt (Nat.lt_trans z.2 (by decide))
  · rw [ftst, fget_coreReleased _ _ _ (by decide), fget_dramShown _ (by decide), capShown, fget_fput_same _ _ _ (by decide)]
    rfl

theorem dram_coreReleased (z r : Fin 4) (s : State) : fget F.MEM_DRAM_CFG_SIZE (coreReleased cap (some (z, r)) full s) = z.1 ∧
    fget F.MEM_DRAM_CFG_RATE (coreReleased cap (some (z, r)) full s) = r.1 + 1 ∧ ftst F.MEM_DRAM_CFG_TRAINED (coreReleased cap (some (z, r)) full s) = true := by
  have hr : r.1 + 1 < 2 ^ 3 := by omega
  refine ⟨?_, ?_, ?_⟩
  · rw [fget_coreReleased _ _ _ (by decide), dramShown, fget_fput_beside F.MEM_DRAM_CFG_TRAINED F.MEM_DRAM_CFG_SIZE _ _ rfl (by decide) (.inl (by decide)),
      fget_fput_beside F.MEM_DRAM_CFG_RATE F.MEM_DRAM_CFG_SIZE _ _ rfl (by decide) (.inl (by decide)), fget_fput_same _ _ _ (by decide)]
    exact Nat.mod_eq_of_lt z.2
  · rw [fget_coreReleased _ _ _ (by decide), dramShown, fget_fput_beside F.MEM_DRAM_CFG_TRAINED F.MEM_DRAM_CFG_RATE _ _ rfl (by decide) (.inr (by decide)), fget_fput_same _ _ _ (by decide)]
    exact Nat.mod_eq_of_lt hr
  · rw [ftst, fget_coreReleased _ _ _ (by decide), dramShown, fget_fput_same _ _ _ (by decide)]
    rfl

end

theorem fget_ok (f : Fld) (s : State) : fget f (ok s) = fget f s := rfl

/-! ### Retries and boot commands (R528, R532, R535) -/

theorem exec_bootRetry_due (h : s.boot.retryAt ≠ 0) (ht : s.boot.retryAt ≤ s.now) : exec .bootRetry s = .next (selectSlot (bump R.SYSCTL_BOOT_RETRIES s)) := by
  change execBootRetry s = _
  rw [execBootRetry, if_neg h, elapseTo_past ht]

theorem exec_alt (w : Initiator) (s : State) : exec (.alt w) s = .next (regCmd w R.SYSCTL_BOOT_CMD (hearthOnly w bootAlt) s) := rfl

theorem exec_rollbackAdv (w : Initiator) (s : State) : exec (.rollbackAdv w) s = .next (regCmd w R.SYSCTL_BOOT_CMD (hearthOnly w rollbackAdv) s) := rfl

theorem bootAlt_booted (h : fget F.SYSCTL_BOOT_STATUS_SLOT s < 2) :
    bootAlt s = chipReset kindSoftware 2 (updBoot (fun b => { b with exclude := some (fget F.SYSCTL_BOOT_STATUS_SLOT s) }) s) := by
  simp only [bootAlt, if_pos h]

theorem rollbackAdv_blown (hf : fuseSupply s = true) (hr : s.boot.rollback < 64) :
    rollbackAdv s = fput F.SYSCTL_ROLLBACK_RESULT Status.done.code (updBoot (fun b => { b with rollback := b.rollback + 1 }) s) := by
  simp [rollbackAdv, hf, hr]

theorem rollbackAdv_unsupplied (hf : fuseSupply s = false) : rollbackAdv s = fput F.SYSCTL_ROLLBACK_RESULT Status.failedRefused.code s := by
  simp [rollbackAdv, hf]

theorem fuseSupply_iff (s : State) : fuseSupply s = true ↔ 12000 ≤ fget F.BLW_VBAT_MV s ∧ fget F.BLW_VBAT_MV s ≤ 16000 := by
  simp [fuseSupply]

end

/-- Settles O55: the release by the state that it leaves to the choice, the choice by what a chosen slot must meet, and each boot command by its equation. -/
theorem bootCommands : Obligations.BootCommands := by
  refine ⟨fun cap dram full t0 s h ht => ⟨coreReleased cap dram full s, exec_coreResetRelease_due cap dram full h ht, trainFull_coreReleased .., ?_, ?_,
      keyless_coreReleased .., inReset_coreReleased ..⟩,
    fun cap dram full s => exec_coreResetRelease_released cap dram full, fun s => exec_bootRetry_due, fun s => ?_, fun k s h hc => ?_, fun k s h hn => ?_,
    fun w s hl hw => ⟨fun hs => ?_, fun hf hr => ?_, fun hf => ?_⟩, fuseSupply_iff⟩
  · rintro z rfl
    exact cap_coreReleased ..
  · rintro z r rfl
    exact dram_coreReleased ..
  · cases hc : (chooseSlot s).1 with
    | none =>
      obtain ⟨hslot, hresult, hretry⟩ := slotMissing_shows (slotsShown s)
      rw [selectSlot_none hc]
      exact ⟨hslot, hresult, hretry.trans (by rw [slotsShown_now]), by rw [slotMissing_cwy, slotsShown_cwy], slotMissing_sameMem s⟩
    | some k =>
      rw [selectSlot_some hc]
      refine ⟨startHearth_hcBoot .., ?_, ?_, ?_, (fget_startHearth rfl ..).trans (slot_slotTaken ..)⟩
      · rw [startHearth_boot, retryAt_slotTaken]
      · rw [startHearth_boot, retryAt_slotTaken, slotsShown_exclude]
      · rw [fget_startHearth rfl, result_slotTaken]
        cases s.boot.exclude <;> rfl
  · obtain ⟨hk, hh, hi⟩ := chooseSlot_some hc
    obtain ⟨hsig, hhash⟩ := imageReason_eq_zero hi
    obtain h | h | h | h := h
    · exact absurd hk (Nat.not_lt.2 h)
    · exact h hh
    · exact Bool.eq_false_iff.1 h hsig
    · exact Bool.eq_false_iff.1 h hhash
  · obtain ⟨hx, hj, hm, hf, hp, hr, hs⟩ := headerReason_eq_none hn
    obtain h | h | h | h | h | h | ⟨j, h, ht, hb⟩ := h
    · exact hx h
    · exact h hm
    · exact Bool.eq_false_iff.1 h hf
    · exact Bool.eq_false_iff.1 h hs
    · exact Nat.not_lt.2 hr h
    · exact h hp
    · exact hb.elim (hj j h ht).1 (hj j h ht).2
  · rw [exec_alt, regCmd_hearth hl hw, bootAlt_booted (s := ok _) hs, fget_ok]
  · rw [exec_rollbackAdv, regCmd_hearth hl hw, rollbackAdv_blown (s := ok _) hf hr]
  · rw [exec_rollbackAdv, regCmd_hearth hl hw, rollbackAdv_unsupplied (s := ok _) hf]

end Sys2Proof.Machine

/-!
What an observation of the state does not see: writes of registers of a block, and the power die (O60).
-/
namespace Sys2Proof.Machine

/-! ### Observations beside a set of registers -/

/-- An observation that no register of a set shows in. -/
structure Beside {α : Type} (W : Nat → Prop) (f : State → α) : Prop where
  wr : ∀ {a} v s, W a → f (Machine.wr a v s) = f s
  drop : ∀ {lo hi} s, (∀ a, lo ≤ a → a < hi → W a) → f (dropRegs lo hi s) = f s

section
variable {α : Type} {W : Nat → Prop} {f : State → α}

theorem Beside.fput (h : Beside W f) {g : Fld} (v : Nat) (s : State) (ha : W g.addr) : f (fput g v s) = f s := h.wr _ s ha

theorem Beside.raise (h : Beside W f) {g : Fld} (n : Nat) (s : State) (ha : W g.addr) : f (raise g n s) = f s := h.wr _ s ha

theorem Beside.lower (h : Beside W f) {g : Fld} (n : Nat) (s : State) (ha : W g.addr) : f (lower g n s) = f s := h.wr _ s ha

theorem Beside.bump (h : Beside W f) {a : Nat} (s : State) (ha : W a) : f (bump a s) = f s := h.wr _ s ha

theorem Beside.clearRegs (h : Beside W f) {as : List Nat} (s : State) (ha : ∀ a ∈ as, W a) : f (clearRegs as s) = f s := by
  induction as generalizing s with
  | nil => rfl
  | cons a as ih => exact (ih (Machine.wr a 0 s) fun b hb => ha b (List.mem_cons_of_mem a hb)).trans (h.wr _ s (ha a List.mem_cons_self))

theorem rd_dropRegs (lo hi b : Nat) (s : State) : rd b (dropRegs lo hi s) = if lo ≤ b ∧ b < hi then resetVal b else rd b s := sget_sdrop ..

/-- A register outside the set. -/
theorem beside_rd {b : Nat} (h : ¬ W b) : Beside W (rd b) where
  wr v s ha := rd_wr_other v s fun e => h (e ▸ ha)
  drop {lo hi} s ha := by rw [rd_dropRegs, if_neg fun hb => h (ha b hb.1 hb.2)]

/-- What does not depend on the registers. -/
theorem beside_of_regs (h : ∀ r s, f { s with regs := r } = f s) : Beside W f where
  wr _ s _ := h _ s
  drop s _ := h _ s

end

/-! ### Observations beside the power die (R364-R388) -/

/-- The registers of LOADCH. -/
abbrev inLoadch (a : Nat) : Prop := 0x10200000 ≤ a ∧ a < 0x10300000

theorem inLoadch_chStat (n : Fin 48) : inLoadch (R.LOADCH_CH_STAT_n n.1) := by simp only [inLoadch, R.LOADCH_CH_STAT_n]; omega

theorem inLoadch_chEvent (n : Fin 48) : inLoadch (R.LOADCH_CH_EVENT_n n.1) := by simp only [inLoadch, R.LOADCH_CH_EVENT_n]; omega

section
variable {α : Type} {f : State → α} (hb : Beside inLoadch f) (hp : ∀ g s, f (updPd g s) = f s)

section
include hb

theorem chShow_keeps (n : Fin 48) (s : State) : f (chShow n s) = f s := hb.fput _ s (inLoadch_chStat n)

theorem chEvent_keeps (n : Fin 48) (b : Nat) (s : State) : f (chEvent n b s) = f s := hb.raise b s (inLoadch_chEvent n)

theorem pdEvent_keeps (n : Nat) (s : State) : f (pdEvent n s) = f s := hb.raise n s (by decide : inLoadch R.LOADCH_EVENT)

theorem applyOtp_keeps (n : Fin 48) (s : State) : f (applyOtp n s) = f s := by
  have hcfg : inLoadch (R.LOADCH_CH_CFG_n n.1) := by simp only [inLoadch, R.LOADCH_CH_CFG_n]; omega
  have htrip : inLoadch (R.LOADCH_TRIP_n n.1) := by simp only [inLoadch, R.LOADCH_TRIP_n]; omega
  have hinrush : inLoadch (R.LOADCH_INRUSH_n n.1) := by simp only [inLoadch, R.LOADCH_INRUSH_n]; omega
  have hlimp : inLoadch (R.LOADCH_LIMP_PWM_n n.1) := by simp only [inLoadch, R.LOADCH_LIMP_PWM_n]; omega
  unfold applyOtp
  split
  · rfl
  · refine (whenB_keeps (fun s => hb.fput _ s hcfg) _ _).trans ((whenB_keeps (fun s => hb.fput _ s hcfg) _ _).trans ?_)
    exact (hb.wr _ _ hlimp).trans ((hb.wr _ _ hinrush).trans ((hb.wr _ _ htrip).trans (hb.wr _ s hcfg)))

end

theorem forCh_keeps {step : Fin 48 → State → State} (h : ∀ n s, f (step n s) = f s) (s : State) : f (forCh step s) = f s := foldl_keeps (fun s n => h n s) _ s

include hp

theorem phaseSettle_keeps (n : Fin 48) (pos : Option Nat) (s : State) : f (phaseSettle n pos s) = f s := by
  unfold phaseSettle
  split
  · dsimp only
    split
    · exact hp ..
    · split
      · exact hp ..
      · rfl
  · rfl

theorem withPhases_keeps {g : State → State} (h : ∀ s, f (g s) = f s) (d : Int) (s : State) : f (withPhases d g s) = f s :=
  (forCh_keeps (fun n t => phaseSettle_keeps hp n _ t) (g s)).trans (h s)

theorem startHolds_keeps (s : State) : f (startHolds s) = f s := forCh_keeps (fun _ _ => hp _ _) s

include hb

/-- A change of an output that the observation does not see. -/
theorem chChange_unseen {n : Fin 48} {g : State → State} {s : State} (h : f (g s) = f s) : f (chChange n g s) = f s :=
  (chChange_keeps (fun _ _ _ => hp _ _) (fun v s => hb.fput v s (inLoadch_chStat n)) (fun v s => hb.fput v s (inLoadch_chStat n)) g s).trans h

theorem shed_keeps (n : Fin 48) (src : Nat) (s : State) : f (shed n src s) = f s := by
  have hchange : ∀ s, f (chChange n (fun s => s |> raise (F.LOADCH_CH_STAT_n_SHED_SRC n.1) src |> updCh n (fun c => { c with wait := false })) s) = f s :=
    fun s => chChange_unseen hb hp ((hp _ _).trans (hb.raise src s (inLoadch_chStat n)))
  unfold shed
  dsimp only
  split
  · exact hchange s
  · exact (pdEvent_keeps hb _ _).trans ((hb.bump _ (by decide)).trans ((chEvent_keeps hb n 5 _).trans (hchange s)))

theorem release_keeps (n : Fin 48) (src : Nat) (s : State) : f (release n src s) = f s := by
  have hlower : f (lower (F.LOADCH_CH_STAT_n_SHED_SRC n.1) src s) = f s := hb.lower src s (inLoadch_chStat n)
  unfold release
  split
  · rfl
  · refine chChange_unseen hb hp ?_
    dsimp only
    split
    · exact hlower
    · split
      · exact (hp _ _).trans hlower
      · exact (hp _ _).trans hlower

theorem settleStage_keeps (n : Fin 48) (s : State) : f (settleStage n s) = f s := by
  unfold settleStage
  dsimp only
  split
  · exact shed_keeps hb hp ..
  · split
    · exact release_keeps hb hp ..
    · rfl

theorem setCstate_keeps (c : Nat) (s : State) : f (setCstate c s) = f s := by
  have hstage : ∀ st s, f (applyStage st s) = f s := fun st s =>
    (forCh_keeps (settleStage_keeps hb hp) _).trans (hb.fput _ s (by decide))
  refine (hstage _ _).trans ((withPhases_keeps hp (fun s => hb.fput c s (by decide)) 0 _).trans ?_)
  exact whenB_keeps (fun s => hp _ s) _ s

theorem loseOne_keeps (n : Fin 48) (s : State) : f (loseOne n s) = f s := by
  refine chChange_unseen hb hp ?_
  split
  · exact hp ..
  · exact (hb.fput 1 _ (inLoadch_chStat n)).trans (hp ..)
  · exact hp ..

theorem resetNotice_keeps (s : State) : f (resetNotice s) = f s := by
  unfold resetNotice
  split
  · exact (hb.bump _ (by decide)).trans ((pdEvent_keeps hb _ _).trans ((startHolds_keeps hp _).trans
      ((forCh_keeps (loseOne_keeps hb hp) _).trans (setCstate_keeps hb hp csHolding s))))
  · rfl

theorem loadchRegsReset_keeps (s : State) : f (loadchRegsReset s) = f s := by
  have hdrop {lo hi : Nat} (hlo : 0x10200000 ≤ lo) (hhi : hi ≤ 0x10300000) (s : State) : f (dropRegs lo hi s) = f s :=
    hb.drop s fun a h h' => ⟨Nat.le_trans hlo h, Nat.lt_of_lt_of_le h' hhi⟩
  have hevents (n : Fin 48) (s : State) : f (dropRegs (R.LOADCH_CH_EVENT_n n.1) (R.LOADCH_CH_EVENT_n n.1 + 4) s) = f s :=
    hdrop (inLoadch_chEvent n).1 (by simp only [R.LOADCH_CH_EVENT_n]; omega) s
  rw [loadchRegsReset, hp, forCh_keeps hevents, hdrop (by decide) (by decide), hdrop (by decide) (by decide), hdrop (by decide) (by decide), hdrop (by decide) (by decide),
    hb.fput _ _ (by decide), hb.fput _ _ (by decide), hdrop (by decide) (by decide)]

theorem restartOne_keeps (n : Fin 48) (s : State) : f (restartOne n s) = f s := by
  have hi2t : inLoadch (R.LOADCH_CH_I2T_n n.1) := by simp only [inLoadch, R.LOADCH_CH_I2T_n]; omega
  have hcur : inLoadch (R.LOADCH_CH_CUR_n n.1) := by simp only [inLoadch, R.LOADCH_CH_CUR_n]; omega
  refine (chShow_keeps hb n _).trans ?_
  have hshown : ∀ {t}, f t = f s → ∀ c : Bool, f (if c then openInrush n (startPhase n t) else t) = f s := fun ht c => by
    split
    · exact (openInrush_keeps (fun _ _ => hp _ _) (fun v s => hb.fput v s (inLoadch_chStat n)) _).trans ((startPhase_keeps (fun _ _ _ => hp _ _) n _).trans ht)
    · exact ht
  refine hshown ?_ _
  exact (hb.fput _ _ (inLoadch_chStat n)).trans ((hb.wr _ _ hcur).trans ((hb.wr _ _ hi2t).trans ((hb.wr _ _ (inLoadch_chStat n)).trans (hp _ s))))

/-- A restart of the power die in which no test was running. -/
theorem pdRestart_keeps {s : State} (h : s.pd.tests = []) : f (pdRestart s) = f s := by
  have hdrop {lo hi : Nat} (hlo : 0x10200000 ≤ lo) (hhi : hi ≤ 0x10300000) (s : State) : f (dropRegs lo hi s) = f s :=
    hb.drop s fun a h h' => ⟨Nat.le_trans hlo h, Nat.lt_of_lt_of_le h' hhi⟩
  rw [pdRestart_without_tests h, hb.raise 14 _ (by decide), startHolds_keeps hp, forCh_keeps (restartOne_keeps hb hp), forCh_keeps (applyOtp_keeps hb), pdCleared,
    hb.fput _ _ (by decide), hb.fput _ _ (by decide), hdrop (by decide) (by decide), hdrop (by decide) (by decide), hdrop (by decide) (by decide), hdrop (by decide) (by decide), hp]

end

end Sys2Proof.Machine

/-!
The chip-level resets (O60).
-/
namespace Sys2Proof.Machine

section
variable {α : Type} {f : State → α} {s : State}

/-! ### Up to the reset of the core die (R330, R386, R457, R518) -/

theorem fprogBytes_keeps (h : ∀ l s, f { s with flash := l } = f s) (a : Nat) (d : List Byte) (s : State) : f (fprogBytes a d s) = f s := by
  induction d generalizing a s with
  | nil => rfl
  | cons b d ih => exact (ih (a + 1) _).trans (h _ s)

theorem flashOpen_keeps (h : ∀ l s, f { s with flash := l } = f s) (hf : ∀ n s, f { s with fresh := n } = f s) (a n : Nat) (s : State) : f (flashOpen a n s) = f s :=
  (hf _ _).trans ((fprogBytes_keeps h _ _ _).trans (h _ s))

/-- A settings-flash command that a reset cuts short. -/
def commandCut (s : State) : State :=
  match s.boot.cmd with
  | some c => if c.waiting then s else flashOpen c.addr c.len s
  | none => s

/-- A crash image that a reset cuts short. -/
def imageCut (s : State) : State :=
  match s.sig.images with
  | c :: _ => if ftst F.SYSCTL_XSPI_STAT_CRASH_ACTIVE s then flashOpen (crashSlot c.slot + 4096) 0x80000 s else s
  | [] => s

theorem flashCut_eq (s : State) : flashCut s = imageCut (commandCut s) := rfl

/-- What a reset cuts short leaves only bytes of the settings flash open. -/
theorem flashCut_keeps (h : ∀ l s, f { s with flash := l } = f s) (hf : ∀ n s, f { s with fresh := n } = f s) (s : State) : f (flashCut s) = f s := by
  have himage (s : State) : f (imageCut s) = f s := by
    unfold imageCut
    split
    · split
      · exact flashOpen_keeps h hf ..
      · rfl
    · rfl
  rw [flashCut_eq, himage]
  unfold commandCut
  split
  · split
    · rfl
    · exact flashOpen_keeps h hf ..
  · rfl

/-- The state that a reset of the core die meets: the regulators are up, a flash command is cut, the power die has its notice. -/
def atReset (kind : Nat) (s : State) : State :=
  resetLanes kind (flashCut (if s.heron.deep && decide (2 ≤ fget F.HERON_STATUS_STATE s) then railsUp s else s))

/-- The registers that change before the core die is reset. -/
abbrev beforeReset (a : Nat) : Prop := inLoadch a ∨ a = R.BLW_RAIL

theorem Beside.mono {W V : Nat → Prop} (h : Beside W f) (hv : ∀ a, V a → W a) : Beside V f where
  wr v s ha := h.wr v s (hv _ ha)
  drop s ha := h.drop s fun a hlo hhi => hv a (ha a hlo hhi)

theorem resetLanes_keeps (hb : Beside inLoadch f) (hp : ∀ g s, f (updPd g s) = f s) (kind : Nat) (s : State) : f (resetLanes kind s) = f s := by
  unfold resetLanes
  split
  · exact resetNotice_keeps hb hp s
  · split
    · exact (hp _ _).trans ((hb.fput 0 _ (by decide)).trans (hb.fput 0 s (by decide)))
    · rfl

theorem atReset_keeps (hb : Beside beforeReset f) (hp : ∀ g s, f (updPd g s) = f s) (hl : ∀ l s, f { s with flash := l } = f s)
    (hf : ∀ n s, f { s with fresh := n } = f s) (hr : ∀ s, f { s with railA := true, railB := true } = f s) (kind : Nat) (s : State) : f (atReset kind s) = f s := by
  refine (resetLanes_keeps (hb.mono fun _ => .inl) hp kind _).trans ((flashCut_keeps hl hf _).trans ?_)
  split
  · exact (hb.raise 3 _ (.inr rfl)).trans ((hb.raise 1 _ (.inr rfl)).trans ((hb.raise 0 _ (.inr rfl)).trans (hr s)))
  · rfl

/-! ### After the reset of the core die -/

/-- The registers that are put to their values once the core die's own have gone. -/
abbrev afterWipe (a : Nat) : Prop :=
  inLoadch a ∨ (R.WDOG_WD_CFG ≤ a ∧ a < R.WDOG_WD_STAT + 4) ∨ a ∈ [R.SYSCTL_XSPI_STAT, R.HERON_STATUS, R.SW_STATUS]

/-- The registers of the keys that a reset writes (R543): those of their slots, and KEY_STATUS. -/
abbrev inSlots (a : Nat) : Prop := 0x04600100 ≤ a ∧ a < 0x04600900

abbrev keyReset (a : Nat) : Prop := inSlots a ∨ a = R.KEY_STATUS

/-- The registers that show the time state after a warm reset (R83). -/
abbrev timeShown (a : Nat) : Prop := a = R.TIME_STATUS ∨ a = R.TIME_EVENT

theorem showPlanes_keeps (hb : Beside (· = R.SW_STATUS) f) (s : State) : f (showPlanes s) = f s :=
  (whenB_keeps (fun s => hb.fput 0 s rfl) _ _).trans (whenB_keeps (fun s => hb.fput 0 s rfl) _ s)

theorem wipeRegs_keeps (hb : Beside afterWipe f) (hp : ∀ g s, f (updPd g s) = f s) (last : Nat) (s : State) : f (wipeRegs last s) = f s := by
  have hl : Beside inLoadch f := hb.mono fun _ => .inl
  rw [wipeRegs, showPlanes_keeps (hb.mono fun a ha => ha ▸ by decide), hb.fput 0 _ (by decide), forCh_keeps (chShow_keeps hl), loadchRegsReset_keeps hl hp,
    hb.wr _ _ (by decide)]
  exact hb.drop s fun a h h' => .inr (.inl ⟨h, h'⟩)

theorem clearPart_keeps (hk : ∀ g s, f (updKey g s) = f s) (p : Fin 128)
    (hw : ∀ as s, (∀ a ∈ as, R.KEY_ATTR_s_h (p.1 / 2) (p.1 % 2) ≤ a ∧ a < R.KEY_ATTR_s_h (p.1 / 2) (p.1 % 2) + 16) → f (clearRegs as s) = f s) (s : State) :
    f (clearPart p s) = f s := by
  refine (hw _ _ fun a ha => ?_).trans (hk _ s)
  simp only [List.mem_cons, List.not_mem_nil, or_false, R.KEY_ATTR_s_h, R.KEY_USES_s_h, R.KEY_KCV_LO_s_h, R.KEY_KCV_HI_s_h] at ha ⊢
  omega

theorem resetKeys_keeps (hb : Beside keyReset f) (hk : ∀ g s, f (updKey g s) = f s) (kind : Nat) (s : State) : f (resetKeys kind s) = f s := by
  have hpart (p : Fin 128) (s : State) : f (clearPart p s) = f s := by
    refine clearPart_keeps hk p (fun as s h => hb.clearRegs s fun a ha => .inl ?_) s
    obtain ⟨hlo, hhi⟩ := h a ha
    simp only [R.KEY_ATTR_s_h] at hlo hhi
    omega
  refine (hb.fput _ _ (.inr rfl)).trans ?_
  split
  · exact forFin_keeps hpart s
  · refine forFin_keeps (fun p s => ?_) s
    split
    · exact hpart p s
    · rfl

/-- What a chip-level reset shows after the core die has been reset. -/
def wiped (kind detail last : Nat) (okA okB unsync : Bool) (s : State) : State :=
  let s := recordCause kind detail (resetKeys kind (wipeRegs last s))
  if warmKind kind then warmState unsync (showTime okA okB s) else s

theorem warm_keeps (hb : Beside timeShown f) (unsync okA okB : Bool) (s : State) : f (warmState unsync (showTime okA okB s)) = f s := by
  have htime (g : Fld) (v : Nat) (s : State) (hg : g.addr = R.TIME_STATUS) : f (fput g v s) = f s := hb.fput v s (.inl hg)
  have hshown : f (showTime okA okB s) = f s := (htime _ _ _ rfl).trans ((htime _ _ _ rfl).trans (htime _ _ s rfl))
  unfold warmState
  split
  · exact (htime _ _ _ rfl).trans ((htime _ _ _ rfl).trans ((htime _ _ _ rfl).trans hshown))
  · exact (hb.raise 3 _ (.inr rfl)).trans ((htime _ _ _ rfl).trans ((htime _ _ _ rfl).trans ((htime _ _ _ rfl).trans hshown)))

theorem wiped_after_cause (hb : Beside timeShown f) (kind detail last : Nat) (okA okB unsync : Bool) (s : State) :
    f (wiped kind detail last okA okB unsync s) = f (recordCause kind detail (resetKeys kind (wipeRegs last s))) := by
  unfold wiped
  dsimp only
  split
  · exact warm_keeps hb ..
  · rfl

theorem recordCause_keeps (hc : Beside (· = R.SYSCTL_RESET_CAUSE) f) (kind detail : Nat) (s : State) : f (recordCause kind detail s) = f s :=
  (hc.fput _ _ rfl).trans ((hc.fput _ _ rfl).trans (hc.fput _ s rfl))

theorem wiped_keeps (hb : Beside afterWipe f) (hs : Beside keyReset f) (ht : Beside timeShown f) (hc : Beside (· = R.SYSCTL_RESET_CAUSE) f) (hp : ∀ g s, f (updPd g s) = f s)
    (hk : ∀ g s, f (updKey g s) = f s) (kind detail last : Nat) (okA okB unsync : Bool) (s : State) : f (wiped kind detail last okA okB unsync s) = f s :=
  (wiped_after_cause ht ..).trans ((recordCause_keeps hc ..).trans ((resetKeys_keeps hs hk ..).trans (wipeRegs_keeps hb hp last s)))

end

/-! ### The reset of the core die -/

theorem chipReset_eq (kind detail : Nat) (s : State) : ∃ last okA okB unsync t,
    chipReset kind detail s = wiped kind detail last okA okB unsync (coreWipe kind t (atReset kind s)) := ⟨_, _, _, _, _, rfl⟩

/-- The registers that show whether Heron holds a wake of a segment. -/
abbrev showsLatch (a : Nat) : Prop := (0x10400000 ≤ a ∧ a < 0x10500000) ∨ a = R.HERON_SEG_LATCH_LO ∨ a = R.HERON_SEG_LATCH_HI

theorem showLatch_keeps {α : Type} {f : State → α} (hb : Beside showsLatch f) (g : Fin 35) (s : State) : f (showLatch g s) = f s := by
  have hseg : f (fput (F.NM_SEG_STATUS_s_LATCHED g.1) (seg g s).latched.isSome.toNat s) = f s :=
    hb.fput _ s (.inl (by simp only [F.NM_SEG_STATUS_s_LATCHED, R.NM_SEG_STATUS_s]; omega))
  have hheron : showsLatch (if g.1 < 32 then F.HERON_SEG_LATCH_LO else F.HERON_SEG_LATCH_HI).addr := by
    split
    · exact .inr (.inl rfl)
    · exact .inr (.inr rfl)
  unfold showLatch
  dsimp only
  split
  · exact (hb.raise _ _ hheron).trans hseg
  · exact (hb.lower _ _ hheron).trans hseg

/-- The core die as a chip-level reset leaves it, before anything is shown: what of the block stands, and what starts anew (R571-R573). -/
structure DieReset (kind : Nat) (s u : State) : Prop where
  regs : ∀ a, ¬ beforeReset a → rd a u = if keptReg kind a then rd a s else resetVal a
  mem : u.mem = []
  dram : u.dram = s.dram + 1
  pending : u.pending = s.pending
  now : u.now = s.now
  own : u.own = { OwnSt.init with lc := s.own.lc, lcPending := s.own.lcPending }
  eng : u.eng = State.reset.eng
  vqi : u.vqi = State.reset.vqi
  harts : u.harts = State.reset.harts
  keys : u.key.keys = s.key.keys
  rollback : u.boot.rollback = s.boot.rollback
  inReset : u.boot.inReset = some (s.now + if warmKind kind then 50000 else 0)

/-- What the reset of the core die makes of the state that it meets. -/
theorem coreWipe_eq (kind : Nat) (t : TimeSt) (s : State) : ∃ u, coreWipe kind t s = forFin 35 showLatch u ∧ DieReset kind s u :=
  ⟨_, rfl, fun a _ => sget_filter resetVal (keptReg kind) a s.regs, rfl, rfl, rfl, rfl, rfl, rfl, rfl, rfl, rfl, rfl, rfl⟩

/-- What stands over a reset has not moved before the core die is reset. -/
theorem DieReset.of_atReset {kind : Nat} {s u : State} (h : DieReset kind (atReset kind s) u) : DieReset kind s u := by
  have hkeep {α : Type} {f : State → α} (hr : ∀ r s, f { s with regs := r } = f s) (hp : ∀ g s, f (updPd g s) = f s) (hl : ∀ l s, f { s with flash := l } = f s)
      (hf : ∀ n s, f { s with fresh := n } = f s) (hrail : ∀ s, f { s with railA := true, railB := true } = f s) : f (atReset kind s) = f s :=
    atReset_keeps (beside_of_regs hr) hp hl hf hrail kind s
  have hdram : (atReset kind s).dram = s.dram := hkeep (fun _ _ => rfl) (fun _ _ => rfl) (fun _ _ => rfl) (fun _ _ => rfl) fun _ => rfl
  have hpending : (atReset kind s).pending = s.pending := hkeep (fun _ _ => rfl) (fun _ _ => rfl) (fun _ _ => rfl) (fun _ _ => rfl) fun _ => rfl
  have hnow : (atReset kind s).now = s.now := hkeep (fun _ _ => rfl) (fun _ _ => rfl) (fun _ _ => rfl) (fun _ _ => rfl) fun _ => rfl
  have hown : (atReset kind s).own = s.own := hkeep (fun _ _ => rfl) (fun _ _ => rfl) (fun _ _ => rfl) (fun _ _ => rfl) fun _ => rfl
  have hkey : (atReset kind s).key = s.key := hkeep (fun _ _ => rfl) (fun _ _ => rfl) (fun _ _ => rfl) (fun _ _ => rfl) fun _ => rfl
  have hboot : (atReset kind s).boot = s.boot := hkeep (fun _ _ => rfl) (fun _ _ => rfl) (fun _ _ => rfl) (fun _ _ => rfl) fun _ => rfl
  have hrd (a : Nat) (ha : ¬ beforeReset a) : rd a (atReset kind s) = rd a s :=
    atReset_keeps (beside_rd ha) (fun _ _ => rfl) (fun _ _ => rfl) (fun _ _ => rfl) (fun _ => rfl) kind s
  exact ⟨fun a ha => hrd a ha ▸ h.regs a ha, h.mem, hdram ▸ h.dram, hpending ▸ h.pending, hnow ▸ h.now, hown ▸ h.own, h.eng, h.vqi, h.harts, hkey ▸ h.keys,
    hboot ▸ h.rollback, hnow ▸ h.inReset⟩

theorem chipReset_from (kind detail : Nat) (s : State) : ∃ last okA okB unsync u,
    chipReset kind detail s = wiped kind detail last okA okB unsync (forFin 35 showLatch u) ∧ DieReset kind s u := by
  obtain ⟨last, okA, okB, unsync, t, h⟩ := chipReset_eq kind detail s
  obtain ⟨u, hu, hd⟩ := coreWipe_eq kind t (atReset kind s)
  exact ⟨last, okA, okB, unsync, u, by rw [h, hu], hd.of_atReset⟩

theorem beside_fget {W : Nat → Prop} {g : Fld} (h : ¬ W g.addr) : Beside W (fget g) where
  wr v s ha := fget_wr_other g v s fun e => h (e ▸ ha)
  drop s ha := congrArg (fun v : Word => bits v.toNat g.hi g.lo) ((beside_rd h).drop s ha)

/-! ### What is seen after a reset -/

section
variable {kind detail last : Nat} {okA okB unsync : Bool} {s u : State}

/-- What depends neither on the registers nor on the power die and the keys. -/
theorem wiped_field {α : Type} {f : State → α} (hr : ∀ r s, f { s with regs := r } = f s) (hp : ∀ g s, f (updPd g s) = f s) (hk : ∀ g s, f (updKey g s) = f s) :
    f (wiped kind detail last okA okB unsync (forFin 35 showLatch u)) = f u :=
  (wiped_keeps (beside_of_regs hr) (beside_of_regs hr) (beside_of_regs hr) (beside_of_regs hr) hp hk ..).trans (forFin_keeps (showLatch_keeps (beside_of_regs hr)) u)

/-- A register that a reset neither puts to a value of its own nor shows anything in: it stands, or takes its reset value. -/
theorem rd_chipReset {a : Nat} (hw : ¬ (afterWipe a ∨ keyReset a ∨ timeShown a ∨ a = R.SYSCTL_RESET_CAUSE)) (hl : ¬ (showsLatch a ∨ beforeReset a)) (kind detail : Nat) (s : State) :
    rd a (chipReset kind detail s) = if keptReg kind a then rd a s else resetVal a := by
  obtain ⟨last, okA, okB, unsync, u, h, hd⟩ := chipReset_from kind detail s
  rw [h, wiped_keeps (f := rd a) (beside_rd fun h => hw (.inl h)) (beside_rd fun h => hw (.inr (.inl h))) (beside_rd fun h => hw (.inr (.inr (.inl h))))
      (beside_rd fun h => hw (.inr (.inr (.inr h)))) (fun _ _ => rfl) (fun _ _ => rfl),
    forFin_keeps (showLatch_keeps (beside_rd fun h => hl (.inl h))), hd.regs a fun h => hl (.inr h)]

theorem ftst_of_rd_zero {f : Fld} (h : rd f.addr s = 0) : ftst f s = false := by
  simp [ftst, fget, h, bits]

/-! ### RESET_CAUSE (R573) -/

theorem cause_recordCause (kind detail : Nat) (s : State) : fget F.SYSCTL_RESET_CAUSE_KIND (recordCause kind detail s) = kind % 16 ∧
    fget F.SYSCTL_RESET_CAUSE_DETAIL (recordCause kind detail s) = detail % 16 ∧
    fget F.SYSCTL_RESET_CAUSE_COUNT (recordCause kind detail s) = min 255 (fget F.SYSCTL_RESET_CAUSE_COUNT s + 1) := by
  refine ⟨?_, ?_, ?_⟩
  · rw [recordCause, fget_fput_beside F.SYSCTL_RESET_CAUSE_COUNT F.SYSCTL_RESET_CAUSE_KIND _ _ rfl (by decide) (.inl (by decide)),
      fget_fput_beside F.SYSCTL_RESET_CAUSE_DETAIL F.SYSCTL_RESET_CAUSE_KIND _ _ rfl (by decide) (.inl (by decide)), fget_fput_same _ _ _ (by decide)]
    rfl
  · rw [recordCause, fget_fput_beside F.SYSCTL_RESET_CAUSE_COUNT F.SYSCTL_RESET_CAUSE_DETAIL _ _ rfl (by decide) (.inl (by decide)), fget_fput_same _ _ _ (by decide)]
    rfl
  · rw [recordCause, fget_fput_same _ _ _ (by decide)]
    exact Nat.mod_eq_of_lt (Nat.lt_of_le_of_lt (Nat.min_le_left ..) (by decide))

theorem cause_chipReset (kind detail : Nat) (s : State) : fget F.SYSCTL_RESET_CAUSE_KIND (chipReset kind detail s) = kind % 16 ∧
    fget F.SYSCTL_RESET_CAUSE_DETAIL (chipReset kind detail s) = detail % 16 ∧
    fget F.SYSCTL_RESET_CAUSE_COUNT (chipReset kind detail s) = min 255 (fget F.SYSCTL_RESET_CAUSE_COUNT s + 1) := by
  obtain ⟨last, okA, okB, unsync, u, h, hd⟩ := chipReset_from kind detail s
  have hafter (g : Fld) (hg : g.addr = R.SYSCTL_RESET_CAUSE) : fget g (chipReset kind detail s) =
      fget g (recordCause kind detail (resetKeys kind (wipeRegs last (forFin 35 showLatch u)))) := by
    rw [h, wiped_after_cause (f := fget g) (beside_fget (by rw [hg]; decide))]
  have hbefore : fget F.SYSCTL_RESET_CAUSE_COUNT (resetKeys kind (wipeRegs last (forFin 35 showLatch u))) = fget F.SYSCTL_RESET_CAUSE_COUNT s := by
    rw [resetKeys_keeps (beside_fget (by decide)) (fun _ _ => rfl), wipeRegs_keeps (beside_fget (by decide)) (fun _ _ => rfl),
      forFin_keeps (showLatch_keeps (beside_fget (by decide))), fget, hd.regs _ (by decide), if_pos (by simp [keptReg, F.SYSCTL_RESET_CAUSE_COUNT])]
    rfl
  obtain ⟨hkind, hdetail, hcount⟩ := cause_recordCause kind detail (resetKeys kind (wipeRegs last (forFin 35 showLatch u)))
  exact ⟨(hafter _ rfl).trans hkind, (hafter _ rfl).trans hdetail, (hafter _ rfl).trans (hcount.trans (by rw [hbefore]))⟩

/-- Heron is awake after every reset (R457). -/
theorem heronState_chipReset (kind detail : Nat) (s : State) : heronState (chipReset kind detail s) = 0 := by
  obtain ⟨last, okA, okB, unsync, u, h, hd⟩ := chipReset_from kind detail s
  have hshown (s : State) : fget F.HERON_STATUS_STATE (wipeRegs last s) = 0 := by
    rw [wipeRegs, showPlanes_keeps (beside_fget (by decide)), fget_fput_same _ _ _ (by decide)]
    rfl
  rw [heronState, h, wiped_after_cause (beside_fget (by decide)), recordCause_keeps (beside_fget (by decide)), resetKeys_keeps (beside_fget (by decide)) (fun _ _ => rfl),
    hshown]

/-! ### Keys (R543) -/

/-- What the key RAM and ATTR hold of a part. -/
def partHeld (p : Fin 128) (s : State) : List Byte × Nat := (s.key.keys[p.1], partAttr p s)

theorem clearPart_key (p : Fin 128) (s : State) : (clearPart p s).key = { s.key with keys := s.key.keys.set p.1 [] p.2 } :=
  Beside.clearRegs (W := fun _ => True) (f := State.key) (beside_of_regs fun _ _ => rfl) _ fun _ _ => trivial

theorem partHeld_clearPart_same (p : Fin 128) (s : State) : partHeld p (clearPart p s) = ([], 0) := by
  have hattr : partAttr p (clearPart p s) = 0 := by
    rw [partAttr, clearPart, rd_clearRegs, if_pos List.mem_cons_self]
    rfl
  have hkey : (clearPart p s).key.keys[p.1] = [] := by
    rw [clearPart_key, Vector.getElem_set_self]
  rw [partHeld, hattr, hkey]

theorem partHeld_clearPart_other {p q : Fin 128} (h : q ≠ p) (s : State) : partHeld p (clearPart q s) = partHeld p s := by
  have hne : q.1 ≠ p.1 := fun e => h (Fin.ext e)
  have hattr : partAttr p (clearPart q s) = partAttr p s := by
    rw [partAttr, clearPart, rd_clearRegs, if_neg]
    · rfl
    · simp only [List.mem_cons, List.not_mem_nil, or_false, R.KEY_ATTR_s_h, R.KEY_USES_s_h, R.KEY_KCV_LO_s_h, R.KEY_KCV_HI_s_h]
      omega
  have hkey : (clearPart q s).key.keys[p.1] = s.key.keys[p.1] := by
    rw [clearPart_key, Vector.getElem_set_ne _ _ hne]
  rw [partHeld, hattr, hkey, partHeld]

theorem partHeld_clearKeys (p : Fin 128) (s : State) : partHeld p (clearKeys s) = ([], 0) :=
  forFin_at (obs := partHeld p) (g := fun _ => ([], 0)) (partHeld_clearPart_same p) (fun _ hq s => partHeld_clearPart_other hq s) s

/-- What expiry makes of an active part: it stays unless its ATTR says that resets expire it. -/
def partExpired (x : List Byte × Nat) : List Byte × Nat := if bits x.2 17 17 == 1 then ([], 0) else x

theorem partHeld_expireKeys {p : Fin 128} (hp : p.1 % 2 = 0) (s : State) : partHeld p (expireKeys s) = partExpired (partHeld p s) := by
  refine forFin_at (obs := partHeld p) (g := partExpired) (i := p) (fun s => ?_) (fun q hq s => ?_) s
  · by_cases hu : partUse p 17 s = true
    · rw [if_pos (.inr hu), partHeld_clearPart_same]
      exact (if_pos hu).symm
    · rw [if_neg fun h => h.elim (by omega) hu]
      exact (if_neg hu).symm
  · split
    · exact partHeld_clearPart_other hq s
    · rfl

/-- What is not a register of a slot, or of the range that a reset writes, does not show in a part. -/
theorem not_inSlots_of_written {a : Nat} (h : afterWipe a ∨ timeShown a ∨ showsLatch a ∨ beforeReset a ∨ a = R.SYSCTL_RESET_CAUSE ∨ a = R.KEY_STATUS) : ¬ inSlots a := by
  simp only [afterWipe, timeShown, showsLatch, beforeReset, inLoadch, inSlots, List.mem_cons, List.not_mem_nil, or_false, R.WDOG_WD_CFG, R.WDOG_WD_STAT, R.SYSCTL_XSPI_STAT,
    R.HERON_STATUS, R.SW_STATUS, R.TIME_STATUS, R.TIME_EVENT, R.HERON_SEG_LATCH_LO, R.HERON_SEG_LATCH_HI, R.BLW_RAIL, R.SYSCTL_RESET_CAUSE, R.KEY_STATUS] at h ⊢
  omega

/-- A reset reaches the parts of the key RAM by their expiry alone. -/
theorem partHeld_chipReset (kind detail : Nat) (p : Fin 128) (s : State) : ∃ v, partHeld p v = partHeld p s ∧
    partHeld p (chipReset kind detail s) = partHeld p (if kind = kindBrownOut then clearKeys v else expireKeys v) := by
  obtain ⟨last, okA, okB, unsync, u, h, hd⟩ := chipReset_from kind detail s
  have hattr : inSlots (R.KEY_ATTR_s_h (p.1 / 2) (p.1 % 2)) := by simp only [inSlots, R.KEY_ATTR_s_h]; omega
  have hbeside {W : Nat → Prop} (hw : ∀ a, W a → ¬ inSlots a) : Beside W (partHeld p) := by
    have hrd : Beside W (rd (R.KEY_ATTR_s_h (p.1 / 2) (p.1 % 2))) := beside_rd fun h => hw _ h hattr
    exact ⟨fun v s ha => Prod.ext rfl (congrArg BitVec.toNat (hrd.wr v s ha)), fun s ha => Prod.ext rfl (congrArg BitVec.toNat (hrd.drop s ha))⟩
  have hkept : keptReg kind (R.KEY_ATTR_s_h (p.1 / 2) (p.1 % 2)) = true := by simp [keptReg, hattr]
  have hlow : ¬ beforeReset (R.KEY_ATTR_s_h (p.1 / 2) (p.1 % 2)) := fun h => not_inSlots_of_written (.inr (.inr (.inr (.inl h)))) hattr
  have hwipe : Beside afterWipe (partHeld p) := hbeside fun _ h => not_inSlots_of_written (.inl h)
  have htime : Beside timeShown (partHeld p) := hbeside fun _ h => not_inSlots_of_written (.inr (.inl h))
  have hlatch : Beside showsLatch (partHeld p) := hbeside fun _ h => not_inSlots_of_written (.inr (.inr (.inl h)))
  have hcause : Beside (· = R.SYSCTL_RESET_CAUSE) (partHeld p) := hbeside fun _ h => not_inSlots_of_written (.inr (.inr (.inr (.inr (.inl h)))))
  have hstatus : Beside (· = R.KEY_STATUS) (partHeld p) := hbeside fun _ h => not_inSlots_of_written (.inr (.inr (.inr (.inr (.inr h)))))
  refine ⟨wipeRegs last (forFin 35 showLatch u), ?_, ?_⟩
  · rw [wipeRegs_keeps hwipe (fun _ _ => rfl), forFin_keeps (showLatch_keeps hlatch), partHeld, hd.keys, partAttr, hd.regs _ hlow, if_pos hkept]
    rfl
  · rw [h, wiped_after_cause htime, recordCause_keeps hcause, resetKeys]
    exact hstatus.fput _ _ rfl

/-- A cold reset empties every part (R543, R568). -/
theorem partHeld_brownOut (detail : Nat) (p : Fin 128) (s : State) : partHeld p (chipReset kindBrownOut detail s) = ([], 0) := by
  obtain ⟨v, hv, h⟩ := partHeld_chipReset kindBrownOut detail p s
  rw [h, if_pos rfl, partHeld_clearKeys]

/-- An active part without EXPIRE_RESET stands over every other reset (R543). -/
theorem partHeld_kept (hk : kind ≠ kindBrownOut) (detail : Nat) {p : Fin 128} (hp : p.1 % 2 = 0) (hu : partUse p 17 s = false) :
    partHeld p (chipReset kind detail s) = partHeld p s := by
  obtain ⟨v, hv, h⟩ := partHeld_chipReset kind detail p s
  rw [h, if_neg hk, partHeld_expireKeys hp, hv]
  exact if_neg (Bool.eq_false_iff.1 hu)

theorem keptReg_ownCtrl (kind : Nat) : ¬ keptReg kind F.OWN_CTRL_EN.addr = true := by
  simp [keptReg, F.OWN_CTRL_EN, R.OWN_CTRL, R.SYSCTL_RESET_CAUSE, R.SYSCTL_XSPI_STAT, R.TIME_EPOCH, R.TIME_FREQ]

theorem keptReg_sigCtrl (kind : Nat) : ¬ keptReg kind F.SIG_CTRL_LOG_EN.addr = true := by
  simp [keptReg, F.SIG_CTRL_LOG_EN, R.SIG_CTRL, R.SYSCTL_RESET_CAUSE, R.SYSCTL_XSPI_STAT, R.TIME_EPOCH, R.TIME_FREQ]

/-! ### Power-on (R529, R571) -/

/-- What a power-on makes of the block, before the power die is shown or restarts. -/
structure PoweredOn (s u : State) : Prop where
  regs : ∀ a, ¬ inLoadch a → rd a u = resetVal a
  mem : u.mem = []
  pending : u.pending = s.pending
  key : u.key = KeySt.init
  lc : u.own.lc = s.own.lcPending
  rollback : u.boot.rollback = s.boot.rollback
  inReset : u.boot.inReset = some s.now
  rtcBase : u.heron.rtcBase = s.now
  rails : u.railA = true ∧ u.railB = true

theorem PoweredOn.of_notice {aon : Bool} {u : State} (h : PoweredOn (if aon then resetNotice (flashCut s) else flashCut s) u) : PoweredOn s u := by
  have hkeep {α : Type} {f : State → α} (hr : ∀ r s, f { s with regs := r } = f s) (hp : ∀ g s, f (updPd g s) = f s) (hl : ∀ l s, f { s with flash := l } = f s)
      (hf : ∀ n s, f { s with fresh := n } = f s) : f (if aon then resetNotice (flashCut s) else flashCut s) = f s := by
    split
    · exact (resetNotice_keeps (beside_of_regs hr) hp _).trans (flashCut_keeps hl hf s)
    · exact flashCut_keeps hl hf s
  generalize (if aon then resetNotice (flashCut s) else flashCut s) = v at h hkeep
  have hpending : v.pending = s.pending := hkeep (fun _ _ => rfl) (fun _ _ => rfl) (fun _ _ => rfl) fun _ _ => rfl
  have hnow : v.now = s.now := hkeep (fun _ _ => rfl) (fun _ _ => rfl) (fun _ _ => rfl) fun _ _ => rfl
  have hown : v.own = s.own := hkeep (fun _ _ => rfl) (fun _ _ => rfl) (fun _ _ => rfl) fun _ _ => rfl
  have hboot : v.boot = s.boot := hkeep (fun _ _ => rfl) (fun _ _ => rfl) (fun _ _ => rfl) fun _ _ => rfl
  exact ⟨h.regs, h.mem, hpending ▸ h.pending, h.key, hown ▸ h.lc, hboot ▸ h.rollback, hnow ▸ h.inReset, hnow ▸ h.rtcBase, h.rails⟩

theorem powerOn_eq (aon : Bool) (s : State) : ∃ u, powerOn aon s = (if aon then forCh chShow (loadchRegsReset u) else pdRestart u) ∧ PoweredOn s u ∧
    (aon = false → u.pd.tests = []) := by
  refine ⟨_, rfl, PoweredOn.of_notice (aon := aon) ⟨fun a ha => ?_, rfl, rfl, rfl, rfl, rfl, rfl, rfl, rfl, rfl⟩, ?_⟩
  · cases aon with
    | true => exact (sget_filter resetVal (fun k => decide (0x10200000 ≤ k) && decide (k < 0x10300000)) a _).trans (if_neg (by simpa [inLoadch] using ha))
    | false => rfl
  · rintro rfl
    rfl

/-- What does not depend on the power die and its registers, after a power-on. -/
theorem powerOn_from (aon : Bool) (s : State) : ∃ u, PoweredOn s u ∧
    ∀ {α : Type} {f : State → α}, Beside inLoadch f → (∀ g s, f (updPd g s) = f s) → f (powerOn aon s) = f u := by
  obtain ⟨u, h, hu, ht⟩ := powerOn_eq aon s
  refine ⟨u, hu, fun hb hp => ?_⟩
  rw [h]
  split
  · exact (forCh_keeps (chShow_keeps hb) _).trans (loadchRegsReset_keeps hb hp u)
  · next ha => exact pdRestart_keeps hb hp (ht (Bool.eq_false_iff.2 ha))

end

/-! ### The reset commands (R574) -/

theorem chipRst_key {w : Initiator} {s : State} (hl : Lets w R.SYSCTL_CHIP_RST true s) (hw : initWorld w (entered w R.SYSCTL_CHIP_RST s) = true) (go : Bool) (key : BitVec 16) :
    exec (.chipRst w go key) s = .next (if go = true ∧ key = 0x5253 then chipReset kindSoftware 1 (ok (entered w R.SYSCTL_CHIP_RST s)) else bad (ok (entered w R.SYSCTL_CHIP_RST s))) := by
  change Host.Outcome.next (regCmd w R.SYSCTL_CHIP_RST (hearthOnly w (chipRst go key)) s) = _
  rw [regCmd_hearth hl hw, chipRst]
  simp only [Bool.and_eq_true, beq_iff_eq]

/-- Settles O60: a reset by the state in which it leaves the core die, by the registers that stand over it, and by what it makes of the keys. -/
theorem chipResets : Obligations.ChipResets := by
  refine ⟨fun _ _ => rfl, fun _ => rfl, fun _ => rfl, fun w go key s hl hw => ⟨fun hg hk => ?_, fun h => ?_⟩, fun kind detail s h2 h7 => ?_,
    fun detail s => ⟨fun p => ?_, ?_⟩, fun kind detail p s h3 h7 hp hu => ?_, fun aon s => ?_⟩
  · rw [chipRst_key hl hw, if_pos ⟨hg, hk⟩]
  · rw [chipRst_key hl hw, if_neg]
    rintro ⟨hg, hk⟩
    exact h.elim (fun h => Bool.eq_false_iff.1 h hg) (· hk)
  · obtain ⟨last, okA, okB, unsync, u, h, hd⟩ := chipReset_from kind detail s
    obtain ⟨hkind, hdetail, hcount⟩ := cause_chipReset kind detail s
    have hfield {α : Type} {f : State → α} (hr : ∀ r s, f { s with regs := r } = f s) (hp : ∀ g s, f (updPd g s) = f s) (hk : ∀ g s, f (updKey g s) = f s) :
        f (chipReset kind detail s) = f u := h ▸ wiped_field hr hp hk
    have hown : (chipReset kind detail s).own = u.own := hfield (fun _ _ => rfl) (fun _ _ => rfl) fun _ _ => rfl
    have hboot : (chipReset kind detail s).boot = u.boot := hfield (fun _ _ => rfl) (fun _ _ => rfl) fun _ _ => rfl
    refine ⟨?_, ?_, ?_, ?_, ?_, ?_, ?_, ?_, ?_, ?_, hdetail, hcount, ?_, ?_, heronState_chipReset .., ?_, ?_, ?_, ?_⟩
    · exact (hfield (f := State.mem) (fun _ _ => rfl) (fun _ _ => rfl) fun _ _ => rfl).trans hd.mem
    · exact (hfield (f := State.dram) (fun _ _ => rfl) (fun _ _ => rfl) fun _ _ => rfl).trans hd.dram
    · exact (hfield (f := State.pending) (fun _ _ => rfl) (fun _ _ => rfl) fun _ _ => rfl).trans hd.pending
    · exact (hfield (f := State.now) (fun _ _ => rfl) (fun _ _ => rfl) fun _ _ => rfl).trans hd.now
    · rw [hown, hd.own]
    · rw [hown, hd.own]
      rfl
    · exact (hfield (f := State.eng) (fun _ _ => rfl) (fun _ _ => rfl) fun _ _ => rfl).trans hd.eng
    · exact (hfield (f := State.vqi) (fun _ _ => rfl) (fun _ _ => rfl) fun _ _ => rfl).trans hd.vqi
    · exact (hfield (f := State.harts) (fun _ _ => rfl) (fun _ _ => rfl) fun _ _ => rfl).trans hd.harts
    · exact hkind.trans (Nat.mod_eq_of_lt (by omega))
    · rw [hboot, hd.inReset]
    · rw [hboot, hd.rollback]
    · rw [rd_chipReset (by decide) (by decide), if_pos (by simp [keptReg, R.TAMP_COUNT])]
    · rw [rd_chipReset (by decide) (by decide), if_pos (by simp [keptReg, R.HERON_RTC_ALARM_LO])]
    · exact ftst_of_rd_zero ((rd_chipReset (by decide) (by decide) ..).trans (if_neg (keptReg_ownCtrl kind)))
    · exact ftst_of_rd_zero ((rd_chipReset (by decide) (by decide) ..).trans (if_neg (keptReg_sigCtrl kind)))
  · obtain ⟨hkey, hattr⟩ := Prod.mk.inj (partHeld_brownOut detail p s)
    exact ⟨hkey, by rw [partValid, hattr]; rfl⟩
  · exact (rd_chipReset (by decide) (by decide) ..).trans (if_neg (by decide))
  · exact Prod.mk.inj (partHeld_kept (by rintro rfl; exact absurd h3 (by decide)) detail hp hu)
  · obtain ⟨u, hu, hkeep⟩ := powerOn_from aon s
    have hfield {α : Type} {f : State → α} (hr : ∀ r s, f { s with regs := r } = f s) (hp : ∀ g s, f (updPd g s) = f s) : f (powerOn aon s) = f u :=
      hkeep (beside_of_regs hr) hp
    have hrd (a : Nat) (ha : ¬ inLoadch a) : rd a (powerOn aon s) = resetVal a := (hkeep (beside_rd ha) fun _ _ => rfl).trans (hu.regs a ha)
    have hown : (powerOn aon s).own = u.own := hfield (fun _ _ => rfl) fun _ _ => rfl
    have hboot : (powerOn aon s).boot = u.boot := hfield (fun _ _ => rfl) fun _ _ => rfl
    refine ⟨?_, ?_, ?_, ?_, ?_, ?_, ?_, ?_, ?_, ?_, ?_, ?_⟩
    · exact (hfield (f := State.mem) (fun _ _ => rfl) fun _ _ => rfl).trans hu.mem
    · exact (hfield (f := State.pending) (fun _ _ => rfl) fun _ _ => rfl).trans hu.pending
    · exact (hfield (f := State.key) (fun _ _ => rfl) fun _ _ => rfl).trans hu.key
    · rw [hown, hu.lc]
    · rw [hboot, hu.rollback]
    · rw [hboot, hu.inReset]
    · exact (hfield (f := fun s => s.heron.rtcBase) (fun _ _ => rfl) fun _ _ => rfl).trans hu.rtcBase
    · rw [fget, hrd _ (by decide)]
      rfl
    · exact ftst_of_rd_zero (hrd _ (by decide))
    · exact ftst_of_rd_zero (hrd _ (by decide))
    · exact (hfield (f := State.railA) (fun _ _ => rfl) fun _ _ => rfl).trans hu.rails.1
    · exact (hfield (f := State.railB) (fun _ _ => rfl) fun _ _ => rfl).trans hu.rails.2

end Sys2Proof.Machine

/-!
Vector assist on the real-time pairs, and WCALL (O47).
-/
namespace Sys2Proof.Machine

/-! ### Words of memory -/

theorem mrdN_congr {a n : Nat} {s t : State} (h : ∀ b, a ≤ b → b < a + n → mrd b t = mrd b s) : mrdN a n t = mrdN a n s := by
  induction n generalizing a with
  | zero => rfl
  | succ n ih => rw [mrdN, mrdN, h a (Nat.le_refl a) (by omega), ih fun b hlo hhi => h b (by omega) (by omega)]

theorem mrdN_of_sameMem {s t : State} (h : SameMem s t) (a n : Nat) : mrdN a n t = mrdN a n s := mrdN_congr fun b _ _ => h b

theorem mwrWords_keeps {α : Type} {f : State → α} (h : ∀ a v s, f (mwr a v s) = f s) (a : Nat) (ws : List Nat) (s : State) : f (mwrWords a ws s) = f s := by
  induction ws generalizing a s with
  | nil => rfl
  | cons w ws ih => exact (ih (a + 4) _).trans (mwrN_keeps h a 4 w s)

theorem mrd_mwrWords_other (a : Nat) (ws : List Nat) (b : Nat) (s : State) (h : b < a ∨ a + 4 * ws.length ≤ b) : mrd b (mwrWords a ws s) = mrd b s := by
  induction ws generalizing a s with
  | nil => rfl
  | cons w ws ih =>
    rw [List.length_cons] at h
    rw [mwrWords, ih (a + 4) _ (by omega), mrd_mwrN_other _ _ _ _ _ (by omega)]

/-- Reading back a word of those that are written. -/
theorem mrdN_mwrWords (a : Nat) (ws : List Nat) (k : Nat) (hk : k < ws.length) (s : State) : mrdN (a + 4 * k) 4 (mwrWords a ws s) = ws[k] % 2 ^ 32 := by
  induction ws generalizing a k s with
  | nil => exact absurd hk (Nat.not_lt_zero k)
  | cons w ws ih =>
    cases k with
    | zero => exact (mrdN_congr fun b hlo hhi => mrd_mwrWords_other (a + 4) ws b (mwrN a 4 w s) (.inl (by omega))).trans (mrdN_mwrN a 4 w s)
    | succ k =>
      have hlen : k < ws.length := Nat.lt_of_succ_lt_succ hk
      rw [mwrWords, show a + 4 * (k + 1) = a + 4 + 4 * k by omega, ih (a + 4) k hlen, List.getElem_cons_succ]

/-! ### Claims and ends of interrupt (R442-R444) -/

section
variable {t : Fin 13} {s : State}

theorem putStack_stack (t : Fin 13) (l : List (Nat × Nat)) (s : State) : (putStack t l s).ic.stack = s.ic.stack.set t.1 l t.2 := by
  simp only [putStack, icShow, fput_ic, updIc_ic]

theorem putStack_mem (t : Fin 13) (l : List (Nat × Nat)) (s : State) : (putStack t l s).mem = s.mem := by simp only [putStack, icShow, fput_mem, updIc_mem]

theorem putStack_dram (t : Fin 13) (l : List (Nat × Nat)) (s : State) : (putStack t l s).dram = s.dram := by simp only [putStack, icShow, fput_dram, updIc_dram]

theorem putStack_now (t : Fin 13) (l : List (Nat × Nat)) (s : State) : (putStack t l s).now = s.now := by simp only [putStack, icShow, fput_now, updIc_now]

theorem icPop_stack (t : Fin 13) (s : State) : (icPop t s).ic.stack = s.ic.stack.set t.1 (icStack t s).tail t.2 := by
  rw [icPop, putStack_stack, updIc_ic]

theorem icStack_icPop (t : Fin 13) (s : State) : icStack t (icPop t s) = (icStack t s).tail := by
  simp only [icStack, icPop_stack, Vector.getElem_set_self]

theorem icPop_sameMem (t : Fin 13) (s : State) : SameMem s (icPop t s) :=
  sameMem_of (by rw [icPop, putStack_mem, updIc_mem]) (by rw [icPop, putStack_dram, updIc_dram])

/-- A claim that takes no source leaves the stacks and the memory. -/
theorem icClaim_none (h : icBest t s = none) : ∃ v, icClaim false t s = (0, v) ∧ v.ic.stack = s.ic.stack ∧ SameMem s v := by
  by_cases hfull : 16 ≤ (icStack t s).length
  · exact ⟨_, if_pos hfull, by rw [raise_ic], sameMem_of (raise_mem ..) (raise_dram ..)⟩
  · exact ⟨s, by rw [icClaim, if_neg hfull, h], rfl, fun _ => rfl⟩

/-- A claim that no hart can discard takes the best source to the top of the stack. -/
theorem icClaim_some (hl : (icStack t s).length < 16) {e : Nat × Nat} (h : icBest t s = some e) :
    ∃ v, icClaim false t s = (e.1, v) ∧ v.ic.stack[t.1] = e :: icStack t s ∧ SameMem s v ∧ v.now = s.now := by
  have hreq : (clearReq e.1 s).mem = s.mem ∧ (clearReq e.1 s).dram = s.dram ∧ (clearReq e.1 s).now = s.now := by
    unfold clearReq
    split <;> exact ⟨rfl, rfl, rfl⟩
  obtain ⟨hmem, hdram, hnow⟩ := hreq
  refine ⟨_, by rw [icClaim, if_neg (Nat.not_le.2 hl), h], ?_, sameMem_of ?_ ?_, ?_⟩
  · simp only [updIc_ic, putStack_stack, Vector.getElem_set_self]
  · rw [updIc_mem, putStack_mem, hmem]
  · rw [updIc_dram, putStack_dram, hdram]
  · rw [updIc_now, putStack_now, hnow]

end

/-! ### The frame (R447) -/

theorem frameWords_length (r : PairRegs) (src prev : Nat) : (frameWords r src prev).length = 24 := by simp [frameWords]

theorem frameWords_x (r : PairRegs) (src prev : Nat) (k : Fin 16) : (frameWords r src prev)[k.1]'(by rw [frameWords_length]; omega) = (r.x[k.1]).toNat := by
  simp [frameWords]

theorem frameWords_saved (r : PairRegs) (src prev : Nat) : (frameWords r src prev)[16]'(by rw [frameWords_length]; omega) = r.mepc.toNat ∧
    (frameWords r src prev)[18]'(by rw [frameWords_length]; omega) = r.fcsr.toNat ∧ (frameWords r src prev)[19]'(by rw [frameWords_length]; omega) = src := by
  simp [frameWords]

/-- The registers that a frame holds are read from memory alone. -/
theorem frameRegs_of_sameMem {s v : State} (h : SameMem s v) (a : Nat) (r : PairRegs) : frameRegs a r v = frameRegs a r s := by
  simp only [frameRegs, mrdN_of_sameMem h]

/-! ### Vector entry (R446-R448) -/

theorem pair_putPair (p : Fin 4) (r : PairRegs) (s : State) : (putPair p r s).pair[p.1] = r := Vector.getElem_set_self ..

section
variable {p : Fin 4} {r : PairRegs} {s : State}

/-- A pair in the handler of a source: its frame is written below its stack, its registers are those of the trap. -/
def vectorEntered (p : Fin 4) (r : PairRegs) (a src prev : Nat) (s : State) : State :=
  let q := pairTrap 0x8000000B r
  let v := mwrWords a (frameWords q src prev) (advance 16 s)
  putPair p { q with sp := r.sp - 96, mstatus := q.mstatus ||| 8, pc := vectorOf p src v } (useFree v)

section
variable (he : ftst (F.IC_VA_CFG_t_EN (pairTarget p).1) s = true) (ho : islOpen (islL p) s = true) (hm : r.mode = .u ∨ r.mstatus.getLsbD 3 = true)
  (hb : icBest (pairTarget p) s ≠ none)
include he ho hm hb

/-- The guards of an entry that is due. -/
theorem vectorEntry_due : (!ftst (F.IC_VA_CFG_t_EN (pairTarget p).1) s || !islOpen (islL p) s || !(r.mode == .u || r.mstatus.getLsbD 3) || (icBest (pairTarget p) s).isNone) = false := by
  have hmode : (r.mode == .u || r.mstatus.getLsbD 3) = true := by simpa using hm
  have hbest : (icBest (pairTarget p) s).isNone = false := Bool.eq_false_iff.2 fun h => hb (Option.isNone_iff_eq_none.1 h)
  rw [he, ho, hmode, hbest]
  rfl

theorem exec_vectorEntry_fault (hd : dtcm p (r.sp - 96).toNat 96 = none) :
    exec (.vectorEntry p r) s = .next (putPair p (pairFault 7 (r.sp - 96).toNat r) s) := by
  change execVectorEntry p r s = _
  simp only [execVectorEntry, vectorEntry_due he ho hm hb, hd, Bool.false_eq_true, if_false]

theorem exec_vectorEntry_claim {a i : Nat} {v : State} (hd : dtcm p (r.sp - 96).toNat 96 = some a) (hc : icClaim false (pairTarget p) (advance 16 s) = (i, v)) :
    exec (.vectorEntry p r) s = .next (if i = 0 then putPair p r (advance 8 v) else vectorEntered p r a i (runPri (pairTarget p) (advance 16 s)) v) := by
  change execVectorEntry p r s = _
  simp only [execVectorEntry, vectorEntry_due he ho hm hb, hd, hc, Bool.false_eq_true, if_false]
  rfl

end

theorem vectorEntered_pair (p : Fin 4) (r : PairRegs) (a src prev : Nat) (s : State) : let x := (vectorEntered p r a src prev s).pair[p.1]
    x.sp = r.sp - 96 ∧ x.mode = .m ∧ x.mepc = r.pc ∧ x.x = r.x ∧ x.fcsr = r.fcsr ∧ x.mstatus.getLsbD 3 = true := by
  have h : (vectorEntered p r a src prev s).pair[p.1] = _ := pair_putPair ..
  rw [h]
  refine ⟨rfl, rfl, rfl, rfl, rfl, ?_⟩
  rw [BitVec.getLsbD_or]
  exact Bool.or_true _

theorem vectorEntered_now (p : Fin 4) (r : PairRegs) (a src prev : Nat) (s : State) : (vectorEntered p r a src prev s).now = s.now + 16 :=
  mwrWords_keeps (f := State.now) (fun _ _ _ => rfl) a _ (advance 16 s)

theorem vectorEntered_ic (p : Fin 4) (r : PairRegs) (a src prev : Nat) (s : State) : (vectorEntered p r a src prev s).ic = s.ic :=
  mwrWords_keeps (f := State.ic) (fun _ _ _ => rfl) a _ (advance 16 s)

theorem vectorEntered_sameMem (p : Fin 4) (r : PairRegs) (a src prev : Nat) (s : State) :
    SameMem (mwrWords a (frameWords (pairTrap 0x8000000B r) src prev) (advance 16 s)) (vectorEntered p r a src prev s) := fun _ => rfl

/-- The frame below the stack, and the memory around it. -/
theorem vectorEntered_frame (p : Fin 4) (r : PairRegs) (a src prev : Nat) (s : State) : let v := vectorEntered p r a src prev s
    (∀ k : Fin 16, mrdN (a + 4 * k.1) 4 v = (r.x[k.1]).toNat) ∧ mrdN (a + 64) 4 v = r.pc.toNat ∧ mrdN (a + 72) 4 v = r.fcsr.toNat ∧ mrdN (a + 76) 4 v = src % 2 ^ 32 ∧
    (∀ b, b < a ∨ a + 96 ≤ b → mrd b v = mrd b s) := by
  have hmem := vectorEntered_sameMem p r a src prev s
  have hlen := frameWords_length (pairTrap 0x8000000B r) src prev
  have hword (k : Nat) (hk : k < 24) : mrdN (a + 4 * k) 4 (vectorEntered p r a src prev s) =
      (frameWords (pairTrap 0x8000000B r) src prev)[k] % 2 ^ 32 := (mrdN_of_sameMem hmem ..).trans (mrdN_mwrWords a _ k (hlen.symm ▸ hk) _)
  obtain ⟨hpc, hfcsr, hsrc⟩ := frameWords_saved (pairTrap 0x8000000B r) src prev
  refine ⟨fun k => ?_, (hword 16 (by decide)).trans ?_, (hword 18 (by decide)).trans ?_, (hword 19 (by decide)).trans (by rw [hsrc]), fun b h => ?_⟩
  · rw [hword k.1 (Nat.lt_trans k.2 (by decide)), frameWords_x]
    exact Nat.mod_eq_of_lt (r.x[k.1]).isLt
  · rw [hpc]
    exact Nat.mod_eq_of_lt r.pc.isLt
  · rw [hfcsr]
    exact Nat.mod_eq_of_lt r.fcsr.isLt
  · exact (hmem b).trans (mrd_mwrWords_other a _ b (advance 16 s) (by rw [hlen]; exact h))

/-! ### Assisted return (R450) -/

section
variable (hs : icStack (pairTarget p) s ≠ []) (he : ftst (F.IC_VA_CFG_t_EN (pairTarget p).1) s = true) (ho : islOpen (islL p) s = true) {a : Nat}
  (hd : dtcm p r.sp.toNat 96 = some a)
include hs he ho hd

/-- A pair that returns ends its top source, then enters the next handler, or goes back to what was interrupted. -/
theorem exec_assistedMret_claim {i : Nat} {v : State} (hc : icClaim false (pairTarget p) (icPop (pairTarget p) s) = (i, v)) :
    exec (.assistedMret p r) s = .next (if i = 0 then putPair p (pairReturn (frameRegs a r v)) v
      else putPair p { r with pc := vectorOf p i v } (useFree (mwrN (a + 76) 4 i v))) := by
  have hstack : (icStack (pairTarget p) s).isEmpty = false := by simpa using hs
  change execAssistedMret p r s = _
  simp only [execAssistedMret, hstack, he, ho, hd, hc, Bool.not_true, Bool.or_false, Bool.false_eq_true, if_false]

end

/-- A pair that goes on with the next handler: the source in the frame, its registers but for the PC. -/
theorem tailChained_shows (p : Fin 4) (r : PairRegs) (a i : Nat) (s : State) : let v := putPair p { r with pc := vectorOf p i s } (useFree (mwrN (a + 76) 4 i s))
    mrdN (a + 76) 4 v = i % 2 ^ 32 ∧ (∀ b, b < a + 76 ∨ a + 80 ≤ b → mrd b v = mrd b s) ∧ ({ v.pair[p.1] with pc := r.pc } = r) := by
  have hmem : SameMem (mwrN (a + 76) 4 i s) (putPair p { r with pc := vectorOf p i s } (useFree (mwrN (a + 76) 4 i s))) := fun _ => rfl
  refine ⟨(mrdN_of_sameMem hmem ..).trans (mrdN_mwrN ..), fun b h => (hmem b).trans (mrd_mwrN_other _ _ _ b s h), ?_⟩
  rw [pair_putPair]

/-! ### WCALL (R406, R471, R472, R486) -/

section
variable {h : Fin 8} {c : HartCtx}

theorem hart_updHart (h : Fin 8) (f : Hart → Hart) (s : State) : (updHart h f s).harts[h.1] = f s.harts[h.1] := by
  rw [updHart, fput_harts, upd_get_same]

theorem world_updHart (h : Fin 8) (f : Hart → Hart) (s : State) : ftst (F.OWN_HART_CFG_h_WORLD h.1) (updHart h f s) = (f s.harts[h.1]).world := by
  have hshown : ftst (F.OWN_HART_CFG_h_WORLD h.1) (updHart h f s) = ((upd s.harts h f)[h.1]).world := by
    rw [updHart, ftst, fget_fput_same _ _ _ (by show 8 < 32; decide)]
    cases ((upd s.harts h f)[h.1]).world <;> rfl
  rw [hshown, upd_get_same]

theorem fget_updHart {g : Fld} (hg : g.addr < 0x4400100) (h : Fin 8) (f : Hart → Hart) (s : State) : fget g (updHart h f s) = fget g s :=
  fget_fput_other _ _ _ _ (by simp only [F.OWN_HART_CFG_h_WORLD, R.OWN_HART_CFG_h]; omega)

/-- A hart as its program has brought it to WCALL. -/
def wcallMet (h : Fin 8) (c : HartCtx) (s : State) : State :=
  updHart h (fun x => { x with mode := c.mode, virt := c.virt, vmid := c.vmid, pc := c.pc, mepc := c.mepc, mpp := c.mpp, mpie := c.mpie, mie := c.mie, a0 := c.a0 }) s

theorem hart_wcallMet (h : Fin 8) (c : HartCtx) (s : State) : (wcallMet h c s).harts[h.1] =
    { s.harts[h.1] with mode := c.mode, virt := c.virt, vmid := c.vmid, pc := c.pc, mepc := c.mepc, mpp := c.mpp, mpie := c.mpie, mie := c.mie, a0 := c.a0 } :=
  hart_updHart ..

theorem exec_wcall (hp : (s.harts[h.1]).parked = false) (hb : (s.harts[h.1]).bistHeld = false) (ho : islOpen (targetIsl h.1) s = true) :
    exec (.wcall h c) s = .next (if (s.harts[h.1]).world then anvilReturn h none (wcallMet h c s) else wcallEnter h (wcallMet h c s)) := by
  change execWcall h c s = _
  simp only [execWcall, hp, hb, ho, Bool.not_true, Bool.or_false, Bool.false_eq_true, if_false]
  rfl

/-- What a change of a hart that meets WCALL shows: the hart, its world in OWN and the memory. -/
theorem updHart_wcallMet (f : Hart → Hart) : let x := f (wcallMet h c s).harts[h.1]; let t := updHart h f (wcallMet h c s)
    t.harts[h.1] = x ∧ ftst (F.OWN_HART_CFG_h_WORLD h.1) t = x.world ∧ SameMem s t :=
  ⟨hart_updHart .., world_updHart .., fun _ => rfl⟩

theorem wcallEnter_user (hm : c.mode = .u) : wcallEnter h (wcallMet h c s) = updHart h (fun x => { x with exc := 2 }) (wcallMet h c s) := by
  simp only [wcallEnter, hart_wcallMet, hm, if_true]

theorem wcallEnter_virtual (hm : c.mode = .s) (hv : c.virt = true) : wcallEnter h (wcallMet h c s) = updHart h (fun x => { x with exc := 22 }) (wcallMet h c s) := by
  simp [wcallEnter, hart_wcallMet, hm, hv]

theorem inRestart_wcallMet (h : Fin 8) (c : HartCtx) (s : State) : ftst F.OWN_HWDT_STAT_IN_RESTART (wcallMet h c s) = ftst F.OWN_HWDT_STAT_IN_RESTART s :=
  ftst_of_fget (fget_updHart (by decide) ..)

theorem anvilVec_wcallMet (h : Fin 8) (c : HartCtx) (s : State) : anvilVec (wcallMet h c s) = anvilVec s := by
  have hkeep (g : Fld) (hg : g.addr < 0x4400100) : fget g (wcallMet h c s) = fget g s := fget_updHart hg ..
  rw [anvilVec, anvilVec, hkeep _ (by decide), hkeep _ (by decide)]

theorem wcallEnter_restarting (hm : c.mode ≠ .u) (hv : c.virt = false) (hr : ftst F.OWN_HWDT_STAT_IN_RESTART s = true) :
    wcallEnter h (wcallMet h c s) = updHart h (fun x => { x with a0 := BitVec.ofInt 64 (-16), pc := x.pc + 4 }) (wcallMet h c s) := by
  simp [wcallEnter, hart_wcallMet, hm, hv, inRestart_wcallMet, hr]

/-- A hart that enters Anvil. -/
def wcallTaken (vec now : Nat) (x : Hart) : Hart :=
  { x with world := true, mepc := x.pc, mcause := 24, mpp := x.mode, mpie := x.mie, mie := false, mode := .m, virt := false, anvilSince := now, pc := BitVec.ofNat 64 vec }

theorem wcallEnter_anvil (hm : c.mode ≠ .u) (hv : c.virt = false) (hr : ftst F.OWN_HWDT_STAT_IN_RESTART s = false) :
    wcallEnter h (wcallMet h c s) = updHart h (wcallTaken (anvilVec s) (wcallMet h c s).now) (wcallMet h c s) := by
  rw [← anvilVec_wcallMet h c s]
  simp only [wcallEnter, hart_wcallMet, hm, hv, inRestart_wcallMet, hr, if_false, Bool.false_and, Bool.false_eq_true]
  rfl

end

end

/-- Settles O47: the entry and the return by what the claim of the source gives, WCALL by the mode and the world in which the hart meets it. -/
theorem vectorAssistAndWcall : Obligations.VectorAssistAndWcall := by
  refine ⟨fun p r s he ho => ⟨fun hm hb => ⟨fun hd => ?_, fun a i q hd hl hc hi => ?_, fun a hd hl hc => ?_⟩, fun hs a hd => ⟨fun hc => ?_, fun i q hc hi hl => ?_⟩⟩,
    fun h c s hp hb ho => ⟨fun hw hm hv hr => ?_, fun hw hm hv hr => ?_, fun hw hm => ?_, fun hw hm hv => ?_, fun hw => ?_⟩⟩
  · exact exec_vectorEntry_fault he ho hm hb hd
  · obtain ⟨v, hclaim, hstack, hmem, hnow⟩ := icClaim_some (s := advance 16 s) hl hc
    obtain ⟨hx, hpc, hfcsr, hsrc, hother⟩ := vectorEntered_frame p r a i (runPri (pairTarget p) (advance 16 s)) v
    obtain ⟨hsp, hmode, hmepc, hregs, hcsr, hmie⟩ := vectorEntered_pair p r a i (runPri (pairTarget p) (advance 16 s)) v
    refine does_of ((exec_vectorEntry_claim he ho hm hb hd hclaim).trans (congrArg _ (if_neg hi))) ⟨hsp, hmode, hmepc, hregs, hcsr, hmie, ?_, ?_, hx, hpc, hfcsr, hsrc,
      fun b h => (hother b h).trans (hmem b)⟩
    · rw [vectorEntered_ic]
      exact hstack
    · rw [vectorEntered_now, hnow]
      rfl
  · obtain ⟨v, hclaim, hstack, hmem⟩ := icClaim_none (s := advance 16 s) hc
    exact does_of (exec_vectorEntry_claim he ho hm hb hd hclaim) ⟨pair_putPair .., hstack, fun b => hmem b⟩
  · obtain ⟨v, hclaim, hstack, hmem⟩ := icClaim_none hc
    have hall : SameMem s v := fun b => (hmem b).trans (icPop_sameMem _ s b)
    refine does_of (exec_assistedMret_claim hs he ho hd hclaim) ⟨?_, ?_, hall⟩
    · show v.ic.stack[(pairTarget p).1] = _
      simp only [hstack, icPop_stack, Vector.getElem_set_self]
      rfl
    · exact (pair_putPair ..).trans (congrArg pairReturn (frameRegs_of_sameMem hall a r))
  · have hroom : (icStack (pairTarget p) (icPop (pairTarget p) s)).length < 16 := by
      have hpos : 0 < (icStack (pairTarget p) s).length := List.length_pos_iff.2 hs
      rw [icStack_icPop, List.length_tail]
      omega
    obtain ⟨v, hclaim, hstack, hmem, -⟩ := icClaim_some hroom hc
    obtain ⟨hsrc, hother, hpair⟩ := tailChained_shows p r a i v
    refine does_of ((exec_assistedMret_claim hs he ho hd hclaim).trans (congrArg _ (if_neg hi))) ⟨?_, hsrc, fun b h => (hother b h).trans ((hmem b).trans (icPop_sameMem _ s b)), hpair⟩
    show (mwrN (a + 76) 4 i v).ic.stack[_] = _
    rw [mwrN_keeps (f := State.ic) (fun _ _ _ => rfl), hstack, icStack_icPop]
    rfl
  · have hplace : exec (.wcall h c) s = .next (updHart h (wcallTaken (anvilVec s) (wcallMet h c s).now) (wcallMet h c s)) := by
      rw [exec_wcall hp hb ho, if_neg (Bool.eq_false_iff.1 hw), wcallEnter_anvil hm hv hr]
    obtain ⟨hx, hworld, hmem⟩ := updHart_wcallMet (h := h) (c := c) (s := s) (wcallTaken (anvilVec s) (wcallMet h c s).now)
    refine does_of hplace ?_
    rw [hx, hart_wcallMet]
    exact ⟨rfl, rfl, rfl, rfl, rfl, rfl, rfl, rfl, rfl, hworld, hmem⟩
  · refine does_of ((exec_wcall hp hb ho).trans (congrArg _ ((if_neg (Bool.eq_false_iff.1 hw)).trans (wcallEnter_restarting hm hv hr)))) ?_
    rw [hart_updHart, hart_wcallMet]
    exact ⟨hw, rfl, rfl, rfl⟩
  · refine does_of ((exec_wcall hp hb ho).trans (congrArg _ ((if_neg (Bool.eq_false_iff.1 hw)).trans (wcallEnter_user hm)))) ?_
    rw [hart_updHart, hart_wcallMet]
    exact ⟨rfl, hw⟩
  · refine does_of ((exec_wcall hp hb ho).trans (congrArg _ ((if_neg (Bool.eq_false_iff.1 hw)).trans (wcallEnter_virtual hm hv)))) ?_
    rw [hart_updHart, hart_wcallMet]
    exact ⟨rfl, hw⟩
  · refine does_of ((exec_wcall hp hb ho).trans (congrArg _ (if_pos hw))) ?_
    obtain ⟨hx, hworld, hmem⟩ := updHart_wcallMet (h := h) (c := c) (s := s) fun x => { x with world := false, mode := x.mpp, mie := x.mpie, pc := x.mepc + 4 }
    refine ⟨?_, ?_, ?_, ?_, ?_, hworld, hmem⟩ <;> rw [anvilReturn, hart_updHart, hart_wcallMet]

end Sys2Proof.Machine

/-!
Bank atomics: through the window of an initiator, and by the harts, with their reservations and exceptions (O43).
-/
namespace Sys2Proof.Machine

/-! ### What the check of an access leaves alone (R467-R469) -/

section
variable {α : Type} {f : State → α} (hregs : ∀ l s, f { s with regs := l } = f s) (hown : ∀ o s, f { s with own := o } = f s)
  (hbad : ∀ l s, f { s with cwy := { s.cwy with bad := l } } = f s)

section
include hregs hown

theorem violate_keeps (k : Nat) (world : Bool) (i a : Nat) (write : Bool) (c : Nat) (s : State) : f (violate k world i a write c s) = f s := by
  have hcount : f (raise F.OWN_EVENT 0 (bump R.OWN_VIOL_CNT s)) = f s := (hregs _ (bump R.OWN_VIOL_CNT s)).trans (hregs _ s)
  rw [violate]
  split_ifs
  · exact (hown _ _).trans hcount
  · exact (hregs _ _).trans hcount

end

include hregs hbad in
theorem eccLog_bad_keeps (a k : Nat) (scrub : Bool) (s : State) : f (eccLog a k true scrub s) = f s :=
  (hregs _ _).trans ((hregs _ _).trans ((hbad _ _).trans ((hregs _ _).trans (hregs _ s))))

include hregs hown hbad

theorem ownLookup_keeps (p a : Nat) (s : State) : f (ownLookup p a s).2 = f s := by
  unfold ownLookup
  split
  · rfl
  · split
    · exact (eccLog_bad_keeps hregs hbad ..).trans (hregs _ s)
    · exact (hregs _ _).trans (hown _ s)

/-- A check of an access changes registers, the caches and records of ownership, and the words known as bad; nothing else. -/
theorem initCheck_keeps (w : Initiator) (a : Nat) (write : Bool) (s : State) : f (initCheck w a write s).2 = f s := by
  have hviolate (c : Nat) (t : State) : f (violate (initCode w) (initWorld w s) (initInst w s) a write c t) = f t := violate_keeps hregs hown ..
  have hlook := ownLookup_keeps hregs hown hbad (initPort w) a s
  unfold initCheck ownCheck
  split
  · exact (hregs _ _).trans (hviolate 3 s)
  split
  · rfl
  split
  · rfl
  split
  · exact hviolate 0 s
  split
  next t h =>
    rw [h] at hlook
    exact (hregs _ _).trans ((hviolate 1 t).trans hlook)
  next e t h =>
    rw [h] at hlook
    split
    · exact hlook
    · exact (hviolate 0 t).trans hlook

end

section
variable (w : Initiator) (a : Nat) (write : Bool) (s : State)

theorem initCheck_resv : (initCheck w a write s).2.cwy.resv = s.cwy.resv :=
  initCheck_keeps (f := fun s => s.cwy.resv) (fun _ _ => rfl) (fun _ _ => rfl) (fun _ _ => rfl) w a write s

theorem initCheck_resp : (initCheck w a write s).2.resp = s.resp :=
  initCheck_keeps (f := State.resp) (fun _ _ => rfl) (fun _ _ => rfl) (fun _ _ => rfl) w a write s

theorem initCheck_sameMem : SameMem s (initCheck w a write s).2 :=
  sameMem_of (initCheck_keeps (f := State.mem) (fun _ _ => rfl) (fun _ _ => rfl) (fun _ _ => rfl) w a write s)
    (initCheck_keeps (f := State.dram) (fun _ _ => rfl) (fun _ _ => rfl) (fun _ _ => rfl) w a write s)

end

/-! ### The atomic window (R417, R419) -/

section
variable {w : Initiator} {s : State}

/-- The atomic window's shadow of an initiator: its address, the old value and the status. -/
def atomCell (w : Initiator) (s : State) : Nat × Nat × Nat := sget (fun _ => (0, 0, 0)) s.cwy.atom (initIdx w)

/-- The word that an initiator's ATOM_ADDR names. -/
def atomAddr (w : Initiator) (s : State) : Nat := 0x01000000 + (atomCell w s).1 / 4 * 4 % 0x400000

/-- Gives an initiator's shadow. -/
def putAtom (w : Initiator) (x : Nat × Nat × Nat) (s : State) : State := updCwy (fun c => { c with atom := sput (fun _ => (0, 0, 0)) (initIdx w) x c.atom }) s

theorem atomCell_putAtom (w : Initiator) (x : Nat × Nat × Nat) (s : State) : atomCell w (putAtom w x s) = x := sget_sput_same ..

theorem putAtom_sameMem (w : Initiator) (x : Nat × Nat × Nat) (s : State) : SameMem s (putAtom w x s) := fun _ => rfl

/-- An atomic at an address after the check of its access. -/
def atomEnd (w : Initiator) (f : Nat → Nat) (a : Nat) (x : Nat × Nat × Nat) : Bool × State → State
  | (false, s) => bad (putAtom w (x.1, x.2.1, Status.failedRefused.code) s)
  | (true, s) => putAtom w (x.1, mrdN a 4 s, Status.done.code) (mwrN a 4 (f (mrdN a 4 s)) s)

theorem atomic_eq (w : Initiator) (f : Nat → Nat) (s : State) : atomic w f s = atomEnd w f (atomAddr w s) (atomCell w s) (initCheck w (atomAddr w s) true s) := rfl

theorem atomEnd_refused (f : Nat → Nat) (a : Nat) (x : Nat × Nat × Nat) {r : Bool × State} (h : r.1 = false) :
    atomEnd w f a x r = bad (putAtom w (x.1, x.2.1, Status.failedRefused.code) r.2) := by
  rw [show r = (false, r.2) from Prod.ext h rfl, atomEnd]

theorem atomEnd_allowed (f : Nat → Nat) (a : Nat) (x : Nat × Nat × Nat) {r : Bool × State} (h : r.1 = true) :
    atomEnd w f a x r = putAtom w (x.1, mrdN a 4 r.2, Status.done.code) (mwrN a 4 (f (mrdN a 4 r.2)) r.2) := by
  rw [show r = (true, r.2) from Prod.ext h rfl, atomEnd]

/-- An atomic that the ownership table refuses. -/
theorem atomic_refused_shows (f : Nat → Nat) (h : (initCheck w (atomAddr w s) true s).1 = false) : let t := atomic w f s
    SameMem s t ∧ atomCell w t = ((atomCell w s).1, (atomCell w s).2.1, Status.failedRefused.code) ∧ t.resp = ⟨.failedRefused, 0⟩ := by
  rw [atomic_eq, atomEnd_refused f _ _ h]
  exact ⟨fun b => initCheck_sameMem w _ true s b, atomCell_putAtom .., rfl⟩

/-- An atomic that happens: the word, the old value, and the rest of memory. -/
theorem atomic_allowed_shows (f : Nat → Nat) (h : (initCheck w (atomAddr w s) true s).1 = true) : let a := atomAddr w s; let t := atomic w f s
    mrdN a 4 t = f (mrdN a 4 s) % 2 ^ 32 ∧ atomCell w t = ((atomCell w s).1, mrdN a 4 s, Status.done.code) ∧ (∀ b, b < a ∨ a + 4 ≤ b → mrd b t = mrd b s) ∧ t.resp = s.resp := by
  have hmem := initCheck_sameMem w (atomAddr w s) true s
  rw [atomic_eq, atomEnd_allowed f _ _ h, mrdN_of_sameMem hmem]
  refine ⟨(mrdN_of_sameMem (putAtom_sameMem _ _ _) _ _).trans (mrdN_mwrN ..), atomCell_putAtom .., fun b hb => ?_, ?_⟩
  · exact (putAtom_sameMem _ _ _ b).trans ((mrd_mwrN_other (atomAddr w s) 4 _ b _ hb).trans (hmem b))
  · exact (mwrN_keeps (f := State.resp) (fun _ _ _ => rfl) ..).trans (initCheck_resp ..)

end

/-! ### Exceptions of a hart in place of an access (R418, R472) -/

section
variable {h : Fin 8} {s : State}

theorem fget_lt (f : Fld) (s : State) : fget f s < 2 ^ (f.hi + 1 - f.lo) := Nat.mod_lt _ (Nat.two_pow_pos _)

/-- In world 0 the hart only takes the exception. -/
theorem hartExc_normal (hw : (s.harts[h.1]).world = false) (c : Nat) : hartExc h c s = { s with harts := upd s.harts h fun x => { x with exc := c } } := by
  simp [hartExc, upd, hw]

/-- In world 1 it goes to Anvil's trap vector. -/
theorem hartExc_hearth (hw : (s.harts[h.1]).world = true) (c : Nat) : let x := (hartExc h c s).harts[h.1]
    x.world = true ∧ x.exc = c ∧ x.pc.toNat = fget F.OWN_ANVIL_VEC_LO s + 2 ^ 32 * fget F.OWN_ANVIL_VEC_HI s + 0x40 := by
  have hlo : fget F.OWN_ANVIL_VEC_LO s < 2 ^ 32 := fget_lt ..
  have hhi : fget F.OWN_ANVIL_VEC_HI s < 2 ^ 8 := fget_lt ..
  simp only [hartExc, upd_get_same, hw, if_true, true_and, anvilVec, BitVec.toNat_ofNat]
  omega

theorem hartExc_others (c : Nat) {g : Fin 8} (hg : g ≠ h) : (hartExc h c s).harts[g.1] = s.harts[g.1] := by
  rw [hartExc, upd_get, if_neg hg]

end

/-- What an access that a hart takes an exception for does, in each world. -/
theorem hartExc_traps {i : Instr} {c : Nat} (hx : exec i s = .next (answer .failedBus 0 (hartExc h c s))) :
    if (s.harts[h.1]).world then Does i s fun t => (t.harts[h.1]).world = true ∧ (t.harts[h.1]).exc = c ∧
      (t.harts[h.1]).pc.toNat = fget F.OWN_ANVIL_VEC_LO s + 2 ^ 32 * fget F.OWN_ANVIL_VEC_HI s + 0x40 ∧ (∀ g : Fin 8, g ≠ h → t.harts[g.1] = s.harts[g.1]) ∧ SameMem s t
    else exec i s = .next (answer .failedBus 0 { s with harts := upd s.harts h fun x => { x with exc := c } }) := by
  split
  next hw =>
    obtain ⟨hworld, hexc, hpc⟩ := hartExc_hearth hw c
    exact does_of hx ⟨hworld, hexc, hpc, fun _ => hartExc_others c, fun _ => rfl⟩
  next hw => rw [hx, hartExc_normal (Bool.eq_false_iff.2 hw)]

/-! ### The values that an AMO writes -/

theorem amoValue_and {b o : Nat} (h : o < 2 ^ b) (v : Nat) : o &&& v = o &&& v % 2 ^ b := by
  rw [← Nat.mod_eq_of_lt (Nat.lt_of_le_of_lt Nat.and_le_left h), Nat.and_mod_two_pow, Nat.mod_eq_of_lt h]

theorem amoValue_or {b o : Nat} (h : o < 2 ^ b) (v : Nat) : (o ||| v) % 2 ^ b = o ||| v % 2 ^ b := by
  rw [Nat.or_mod_two_pow, Nat.mod_eq_of_lt h]

theorem amoValue_xor {b o : Nat} (h : o < 2 ^ b) (v : Nat) : (o ^^^ v) % 2 ^ b = o ^^^ v % 2 ^ b := by
  rw [Nat.xor_mod_two_pow, Nat.mod_eq_of_lt h]

theorem signedOf_amoValue_min (b o v : Nat) : signedOf b (amoValue b .min o v) = min (signedOf b o) (signedOf b (v % 2 ^ b)) :=
  (apply_ite (signedOf b) ..).trans (min_def ..).symm

theorem signedOf_amoValue_max (b o v : Nat) : signedOf b (amoValue b .max o v) = max (signedOf b o) (signedOf b (v % 2 ^ b)) :=
  (apply_ite (signedOf b) ..).trans (max_def ..).symm

theorem ite_lt {c : Prop} [Decidable c] {x y n : Nat} (hx : x < n) (hy : y < n) : (if c then x else y) < n := by
  split
  · exact hx
  · exact hy

/-- An AMO on a word writes a word. -/
theorem amoValue_lt {b o : Nat} (h : o < 2 ^ b) (op : AmoOp) (v : Nat) : amoValue b op o v < 2 ^ b := by
  have hv : v % 2 ^ b < 2 ^ b := Nat.mod_lt _ (Nat.two_pow_pos b)
  cases op with
  | add | or | xor => exact Nat.mod_lt _ (Nat.two_pow_pos b)
  | swap | sc => exact hv
  | lr => exact h
  | and => exact Nat.lt_of_le_of_lt Nat.and_le_left h
  | minu => exact Nat.lt_of_le_of_lt (Nat.min_le_left ..) h
  | maxu => exact Nat.max_lt.2 ⟨h, hv⟩
  | min => exact ite_lt h hv
  | max => exact ite_lt hv h

/-! ### What a write of a bank word clears (R418) -/

theorem mrdN_lt (a n : Nat) (s : State) : mrdN a n s < 256 ^ n := by
  induction n generalizing a with
  | zero => exact Nat.one_pos
  | succ n ih =>
    have hlo := (mrd a s).isLt
    have hhi := ih (a + 1)
    rw [mrdN, Nat.pow_succ']
    omega

theorem resv_mwr (a : Nat) (v : Byte) (s : State) (g : Fin 8) :
    (mwr a v s).cwy.resv[g.1] = if (s.cwy.resv[g.1]).any (fun p => p.1 == a / 16) then none else s.cwy.resv[g.1] := Vector.getElem_map ..

theorem resv_mwrN_none (a n v : Nat) {s : State} {g : Fin 8} (h : s.cwy.resv[g.1] = none) : (mwrN a n v s).cwy.resv[g.1] = none := by
  induction n generalizing a v s with
  | zero => exact h
  | succ n ih => exact ih _ _ (by rw [resv_mwr, h]; rfl)

theorem resv_mwrN_cleared (a n v : Nat) {s : State} {g : Fin 8} {t : Nat} (h : s.cwy.resv[g.1] = some (a / 16, t)) : (mwrN a (n + 1) v s).cwy.resv[g.1] = none :=
  resv_mwrN_none _ n _ (by rw [resv_mwr, h]; simp)

/-! ### AMO, LR and SC of a hart in the banks (R413, R418) -/

/-- A word of the banks lies in no block of registers. -/
theorem inBlocks_of_inBanks {a n : Nat} (h : inBanks a n = true) : inBlocks a = false := by
  simp only [inBanks, Bool.and_eq_true, decide_eq_true_eq] at h
  simp only [inBlocks, Bool.or_eq_false_iff, Bool.and_eq_false_iff, decide_eq_false_iff_not]
  omega

/-- What the bank does with a word of `n` bytes that a hart may reach. -/
def bankAmo (h : Fin 8) (op : AmoOp) (a n v : Nat) (s : State) : State :=
  let o := mrdN a n s
  match op with
  | .lr => answer .done o (setResv h (some (a / 16, s.now)) s)
  | .sc =>
    if s.cwy.resv[h.1].any fun r => r.1 == a / 16 && decide (s.now < r.2 + 1280) then answer .done 0 (setResv h none (mwrN a n (v % 2 ^ (8 * n)) s))
    else answer .done 1 (setResv h none s)
  | _ => answer .done o (mwrN a n (amoValue (8 * n) op o v) s)

theorem mrdN_answer (a n : Nat) (st : Status) (d : Nat) (s : State) : mrdN a n (answer st d s) = mrdN a n s :=
  mrdN_of_sameMem (s := s) (t := answer st d s) (fun _ => rfl) a n

section
variable {h : Fin 8} {op : AmoOp} {a n v : Nat} {s : State}

theorem bankAmo_sc_done {t : Nat} (hr : s.cwy.resv[h.1] = some (a / 16, t)) (ht : s.now < t + 1280) :
    bankAmo h .sc a n v s = answer .done 0 (setResv h none (mwrN a n (v % 2 ^ (8 * n)) s)) := by
  rw [bankAmo, hr, Option.any_some, beq_self_eq_true, decide_eq_true ht]
  rfl

theorem bankAmo_sc_failed (hr : ∀ k t, s.cwy.resv[h.1] = some (k, t) → k ≠ a / 16 ∨ t + 1280 ≤ s.now) : bankAmo h .sc a n v s = answer .done 1 (setResv h none s) := by
  have hnone : (s.cwy.resv[h.1].any fun r => r.1 == a / 16 && decide (s.now < r.2 + 1280)) = false := by
    cases hs : s.cwy.resv[h.1] with
    | none => rfl
    | some r => simpa [imp_iff_not_or] using hr r.1 r.2 hs
  rw [bankAmo, hnone]
  rfl

theorem bankAmo_amo (hl : op ≠ .lr) (hs : op ≠ .sc) : bankAmo h op a n v s = answer .done (mrdN a n s) (mwrN a n (amoValue (8 * n) op (mrdN a n s) v) s) := by
  cases op with
  | lr => exact absurd rfl hl
  | sc => exact absurd rfl hs
  | _ => rfl

/-- An AMO returns the old value, writes the new one, and ends every reservation on its block. -/
theorem bankAmo_amo_shows (hl : op ≠ .lr) (hs : op ≠ .sc) (hn : n ≠ 0) : let t := bankAmo h op a n v s
    t.resp = ⟨.done, BitVec.ofNat 32 (mrdN a n s)⟩ ∧ mrdN a n t = amoValue (8 * n) op (mrdN a n s) v ∧ (∀ b, b < a ∨ a + n ≤ b → mrd b t = mrd b s) ∧
    ∀ g : Fin 8, ∀ t0, s.cwy.resv[g.1] = some (a / 16, t0) → t.cwy.resv[g.1] = none := by
  have hpow : 256 ^ n = 2 ^ (8 * n) := by rw [Nat.pow_mul]
  have hlt : amoValue (8 * n) op (mrdN a n s) v < 256 ^ n := hpow ▸ amoValue_lt (hpow ▸ mrdN_lt a n s) op v
  rw [bankAmo_amo hl hs]
  refine ⟨rfl, ?_, fun b hb => mrd_mwrN_other a n _ b s hb, fun g t0 hr => ?_⟩
  · rw [mrdN_answer, mrdN_mwrN, Nat.mod_eq_of_lt hlt]
  · obtain ⟨k, rfl⟩ := Nat.exists_eq_succ_of_ne_zero hn
    exact resv_mwrN_cleared a k _ hr

end

/-- The bytes of a word or a doubleword. -/
def amoBytes (dbl : Bool) : Nat := if dbl then 8 else 4

section
variable {h : Fin 8} {op : AmoOp} {dbl : Bool} {addr : BitVec 40} {v : BitVec 64} {s : State}

theorem exec_hartBankAmo_misaligned (ha : addr.toNat % amoBytes dbl ≠ 0) :
    exec (.hartBankAmo h op dbl addr v) s = .next (answer .failedBus 0 (hartExc h (amoMisaligned op) s)) := congrArg _ (if_pos ha)

section
variable (ha : addr.toNat % amoBytes dbl = 0)
include ha

theorem exec_hartBankAmo_blocks (hb : inBlocks addr.toNat = true) :
    exec (.hartBankAmo h op dbl addr v) s = .next (answer .failedBus 0 (hartExc h (amoFault op) s)) :=
  congrArg _ ((if_neg (not_not.2 ha)).trans (if_pos hb))

section
variable (hn : inBanks addr.toNat (amoBytes dbl) = true)
include hn

theorem exec_hartBankAmo_refused {u : State} (hc : initCheck (.hart h) addr.toNat (op != .lr) s = (false, u)) :
    exec (.hartBankAmo h op dbl addr v) s = .next (answer .failedBus 0 u) := by
  have hblocks := inBlocks_of_inBanks hn
  rw [amoBytes] at ha hn
  change execHartBankAmo h op dbl addr v s = _
  simp only [execHartBankAmo, ha, hn, hblocks, hc, ne_eq, not_true_eq_false, Bool.false_eq_true, Bool.not_true, if_false]

theorem exec_hartBankAmo {u : State} (hc : initCheck (.hart h) addr.toNat (op != .lr) s = (true, u)) (ho : islOpen islMEM u = true) :
    exec (.hartBankAmo h op dbl addr v) s = .next (bankAmo h op addr.toNat (amoBytes dbl) v.toNat u) := by
  have hblocks := inBlocks_of_inBanks hn
  rw [amoBytes] at ha hn
  change execHartBankAmo h op dbl addr v s = _
  simp only [execHartBankAmo, ha, hn, hblocks, hc, ho, ne_eq, not_true_eq_false, Bool.false_eq_true, Bool.not_true, if_false]
  rfl

end

end

theorem amoMisaligned_eq (op : AmoOp) : amoMisaligned op = if op = .lr then 4 else 6 := by cases op <;> rfl

theorem amoFault_eq (op : AmoOp) : amoFault op = if op = .lr then 5 else 7 := by cases op <;> rfl

theorem inBlocks_iff (a : Nat) : inBlocks a = true ↔ (0x02000000 ≤ a ∧ a < 0x03000000) ∨ (0x04000000 ≤ a ∧ a < 0x05000000) := by simp [inBlocks]

theorem exec_lrReservationExpire {b t0 : Nat} (hr : s.cwy.resv[h.1] = some (b, t0)) (ht : t0 + 1280 ≤ s.now) : exec (.lrReservationExpire h) s = .next (setResv h none s) := by
  change execLrReservationExpire h s = _
  simp only [execLrReservationExpire, hr, elapseTo_past ht]

end

theorem exec_atomAadd (w : Initiator) (v : Word) (s : State) : exec (.atomAadd w v) s = .next (regCmd w R.MEM_ATOM_AADD (atomic w fun o => o + v.toNat) s) := rfl

theorem exec_atomAswp (w : Initiator) (v : Word) (s : State) : exec (.atomAswp w v) s = .next (regCmd w R.MEM_ATOM_ASWP (atomic w fun _ => v.toNat) s) := rfl

theorem does_atomic {w : Initiator} {a : Nat} {f : Nat → Nat} {i : Instr} {s : State} (hl : Lets w a true s) (hx : exec i s = .next (regCmd w a (atomic w f) s)) :
    let u := entered w a s
    ((initCheck w (atomAddr w u) true (ok u)).1 = true → Does i s fun t => mrdN (atomAddr w u) 4 t = f (mrdN (atomAddr w u) 4 u) % 2 ^ 32 ∧
      atomCell w t = ((atomCell w u).1, mrdN (atomAddr w u) 4 u, Status.done.code) ∧ (∀ b, b < atomAddr w u ∨ atomAddr w u + 4 ≤ b → mrd b t = mrd b u) ∧ t.resp = ⟨.done, 0⟩) ∧
    ((initCheck w (atomAddr w u) true (ok u)).1 = false → Does i s fun t =>
      SameMem u t ∧ atomCell w t = ((atomCell w u).1, (atomCell w u).2.1, Status.failedRefused.code) ∧ t.resp = ⟨.failedRefused, 0⟩) := by
  rw [regCmd_lets hl] at hx
  refine ⟨fun h => does_of hx ?_, fun h => does_of hx (atomic_refused_shows (s := ok _) f h)⟩
  obtain ⟨hword, hcell, hother, hresp⟩ := atomic_allowed_shows (s := ok (entered w a s)) f h
  rw [mrdN_ok] at hword hcell
  exact ⟨hword, hcell, hother, hresp⟩

/-- Settles O43: the atomic of the window after its check of ownership, and the cases of a hart's access to the banks. -/
theorem bankAtomicsOfProcessors : Obligations.BankAtomicsOfProcessors := by
  refine ⟨fun w v add s hl => ?_, fun h op dbl addr v s => ⟨fun ha => ?_, fun ha hb => ?_, fun ha hn hc => ?_, fun ha hn hc ho => ⟨?_, ?_, fun hnl hns => ?_⟩⟩,
    fun h b t0 s hr ht => exec_lrReservationExpire hr ht, fun b o v ho _ => ⟨rfl, rfl, amoValue_and ho v, amoValue_or ho v, amoValue_xor ho v, rfl, rfl,
      signedOf_amoValue_min b o v, signedOf_amoValue_max b o v⟩⟩
  · cases add with
    | true =>
      simp only [if_true] at hl ⊢
      exact does_atomic (f := fun o => o + v.toNat) hl (exec_atomAadd w v s)
    | false =>
      simp only [Bool.false_eq_true, if_false] at hl ⊢
      exact does_atomic (f := fun _ => v.toNat) hl (exec_atomAswp w v s)
  · exact amoMisaligned_eq op ▸ hartExc_traps (exec_hartBankAmo_misaligned ha)
  · exact amoFault_eq op ▸ hartExc_traps (exec_hartBankAmo_blocks ha ((inBlocks_iff _).2 hb))
  · exact exec_hartBankAmo_refused ha hn (Prod.ext hc rfl)
  · rintro rfl
    exact exec_hartBankAmo ha hn (Prod.ext hc rfl) ho
  · rintro rfl
    exact ⟨fun t0 hr ht => (exec_hartBankAmo ha hn (Prod.ext hc rfl) ho).trans (congrArg _ (bankAmo_sc_done hr ht)),
      fun hr => (exec_hartBankAmo ha hn (Prod.ext hc rfl) ho).trans (congrArg _ (bankAmo_sc_failed hr))⟩
  · have hbytes : amoBytes dbl ≠ 0 := by cases dbl <;> decide
    obtain ⟨hresp, hword, hother, hresv⟩ := bankAmo_amo_shows (h := h) (a := addr.toNat) (v := v.toNat) (s := (initCheck (.hart h) addr.toNat (op != .lr) s).2) hnl hns hbytes
    refine does_of (exec_hartBankAmo ha hn (Prod.ext hc rfl) ho) ⟨hresp, hword, fun b hb => (hother b hb).trans (initCheck_sameMem _ _ _ s b), fun g w0 t0 hr hw => hresv g t0 ?_⟩
    rw [initCheck_resv, hr, hw]

end Sys2Proof.Machine

/-!
The Causeway: timeouts, posted errors, the error log, locked sequences, and the pops that a hart discards (O44).
-/
namespace Sys2Proof.Machine

section
variable {s : State}

/-! ### Timeouts and posted errors (R426) -/

theorem inFabric_iff (a : Nat) : inFabric a = true ↔ 0x10000000 ≤ a ∧ a < 0x20000000 := by simp [inFabric]

theorem clampNat_timeout (s : State) : clampNat 256 65535 (fget F.CWY_CTRL_TIMEOUT s) = max 256 (fget F.CWY_CTRL_TIMEOUT s) := by
  have hlt : fget F.CWY_CTRL_TIMEOUT s < 2 ^ 16 := fget_lt ..
  rw [clampNat, Nat.min_eq_right (Nat.le_of_lt_succ hlt)]

section
variable {w : Initiator} {addr : BitVec 40} {part : Fin 8} {be : BitVec 4} (ha : inFabric addr.toNat = true)
include ha

theorem exec_cwyTimeout (write : Bool) : let u := advance (4 * max 256 (fget F.CWY_CTRL_TIMEOUT s)) s
    exec (.cwyTimeout w addr write part be) s =
      .next (if (write && cwyPosted addr.toNat s) = true then cwyError (cwyEntry w addr.toNat .failedTimeout part be u) u else answer .failedTimeout 0 u) := by
  change execCwyTimeout w addr write part be s = _
  simp only [execCwyTimeout, ha, clampNat_timeout, Bool.not_true, Bool.false_eq_true, if_false]

theorem exec_cwyPostedError (hp : cwyPosted addr.toNat s = true) :
    exec (.cwyPostedError w addr .busError part be) s = .next (cwyError (cwyEntry w addr.toNat .failedBus part be s) s) ∧
    exec (.cwyPostedError w addr .eccError part be) s = .next (cwyError (cwyEntry w addr.toNat .failedEcc part be s) s) := by
  have hguard : (!inFabric addr.toNat || !cwyPosted addr.toNat s) = false := by rw [ha, hp]; rfl
  exact ⟨congrArg _ (if_neg (Bool.eq_false_iff.1 hguard)), congrArg _ (if_neg (Bool.eq_false_iff.1 hguard))⟩

end

/-! ### The error log (R426, R435) -/

theorem cwyError_full (h : 8 ≤ s.cwy.log.length) (e : CwyErr) : cwyError e s = bump R.CWY_ERR_OVF s := if_pos h

/-- The log takes an error at its end while it has room. -/
theorem cwyError_room (h : s.cwy.log.length < 8) (e : CwyErr) : let t := cwyError e s
    t.cwy.log = s.cwy.log ++ [e] ∧ fbit F.CWY_EVENT 0 t = true ∧ fget F.CWY_ERRLOG_FILL t = s.cwy.log.length + 1 := by
  rw [cwyError, if_neg (Nat.not_le.2 h)]
  refine ⟨?_, fbit_raise _ _ _ (by decide), ?_⟩
  · rw [raise_cwy, showErrlog, fput_cwy, updCwy_cwy]
  · have hlen : (updCwy (fun c => { c with log := c.log ++ [e] }) s).cwy.log.length = s.cwy.log.length + 1 := List.length_append
    rw [raise, fget_wr_other _ _ _ (by decide), showErrlog, fget_fput_same _ _ _ (by decide), hlen]
    exact Nat.mod_eq_of_lt (by show _ < 2 ^ 4; omega)

theorem exec_lateResp (s : State) : exec .lateResp s = .next (raise F.CWY_EVENT 3 (bump R.CWY_LATE_RESP_CNT s)) := rfl

theorem exec_lockBroken {h : Fin 8} {a t0 : Nat} (hl : s.cwy.lock = some (h, a, t0)) (ht : t0 + 256 ≤ s.now) : exec .lockBroken s = .next (breakLock s) := by
  change execLockBroken s = _
  simp only [execLockBroken, hl, elapseTo_past ht]

theorem exec_errlogPop {w : Initiator} (hl : Lets w R.CWY_ERRLOG_POP false s) : exec (.errlogPop w) s = .next (errlogPop w (ok (entered w R.CWY_ERRLOG_POP s))) :=
  congrArg _ (regRead_lets hl _)

theorem errlogPop_empty (w : Initiator) (h : s.cwy.log = []) : errlogPop w s = answer .done 0xFFFFFFFF s := by
  rw [errlogPop, h]

/-- The pop of the oldest error, which only a hart may still discard. -/
theorem errlogPop_oldest (w : Initiator) {e : CwyErr} {rest : List CwyErr} (h : s.cwy.log = e :: rest) : let t := errlogPop w s
    t.resp = ⟨.done, BitVec.ofNat 32 e.addr⟩ ∧ t.cwy.log = rest ∧ sget (fun _ => ⟨0, 0, 0, 0, 0, 0⟩) t.cwy.shadows (initIdx w) = e ∧ t.cwy.undo = undoFor w e := by
  rw [errlogPop, h]
  exact ⟨rfl, rfl, sget_sput_same .., rfl⟩

theorem undoFor_of_not_hart {α : Type} {w : Initiator} (h : ∀ n, w ≠ .hart n) (x : α) : undoFor w x = none := by
  cases w with
  | hart n => exact absurd rfl (h n)
  | _ => rfl

/-! ### Locked sequences (R427, R428) -/

section
variable {h : Fin 8} {op : AmoOp} {dbl : Bool} {addr : BitVec 40} {v : Word} {n : Fin 9}

section
variable (hlo : 0x10000000 ≤ addr.toNat) (hhi : addr.toNat < 0x20000000)
include hlo hhi

/-- A sequence in the peripheral fabric is judged by its address. -/
theorem exec_cwyLockedSequence : exec (.cwyLockedSequence h op dbl addr v n) s = .next (
    if addr.toNat % amoBytes dbl ≠ 0 then busError (hartExc h (amoMisaligned op) s) else if dbl then busError s else retried n.1 (lockedWord h op addr.toNat v.toNat s)) :=
  congrArg _ (if_neg (by omega))

theorem exec_cwyLockedSequence_misaligned (ha : addr.toNat % amoBytes dbl ≠ 0) :
    exec (.cwyLockedSequence h op dbl addr v n) s = .next (answer .failedBus 0 (hartExc h (amoMisaligned op) s)) :=
  (exec_cwyLockedSequence hlo hhi).trans (congrArg _ (if_pos ha))

theorem exec_cwyLockedSequence_double (ha : addr.toNat % 8 = 0) : exec (.cwyLockedSequence h op true addr v n) s = .next (answer .failedBus 0 s) :=
  (exec_cwyLockedSequence hlo hhi).trans (congrArg _ (if_neg (not_not.2 ha)))

theorem exec_cwyLockedSequence_word (ha : addr.toNat % 4 = 0) (hn : n = 0) :
    exec (.cwyLockedSequence h op false addr v n) s = .next (retried 0 (lockedWord h op addr.toNat v.toNat s)) := by
  subst hn
  exact (exec_cwyLockedSequence hlo hhi).trans (congrArg _ (if_neg (not_not.2 ha)))

end

theorem lockedWord_lr (a v : Nat) (hd : (busRead (.hart h) a 4 s).resp.status = .done) :
    lockedWord h .lr a v s = setLock (some (h, a, (busRead (.hart h) a 4 s).now)) (busRead (.hart h) a 4 s) := if_pos hd

theorem lockedWord_sc_held {a t0 : Nat} (hl : s.cwy.lock = some (h, a, t0)) (ht : s.now < t0 + 256) (v : Nat) :
    lockedWord h .sc a v s = busWrite (.hart h) a 4 v (setLock none s) := by
  rw [lockedWord, hl, Option.any_some, beq_self_eq_true, beq_self_eq_true, decide_eq_true ht]
  rfl

theorem lockedWord_sc_free (hl : s.cwy.lock = none) (a v : Nat) : lockedWord h .sc a v s = answer .done 1 s := by
  rw [lockedWord, hl]
  rfl

theorem retried_resp (n : Nat) (s : State) : (retried n s).resp = s.resp := by
  unfold retried whenB
  split <;> rfl

theorem rd_retried_cnt (n : Nat) (s : State) : rd R.CWY_RETRY_CNT (retried n s) = rd R.CWY_RETRY_CNT (bumpBy n R.CWY_RETRY_CNT s) :=
  whenB_keeps (f := rd R.CWY_RETRY_CNT) (fun u => (rd_wr_other _ _ (by decide)).trans (rd_wr_other _ u (by decide))) _ _

/-- At eight retries the Causeway holds new downward transfers. -/
theorem retried_hold {n : Nat} (hn : 8 ≤ n) (s : State) : rd R.CWY_RETRY_HOLD_CNT (retried n s) = rd R.CWY_RETRY_HOLD_CNT (bump R.CWY_RETRY_HOLD_CNT s) ∧
    fbit F.CWY_EVENT 2 (retried n s) = true := by
  rw [retried, decide_eq_true hn, whenB, if_pos rfl]
  refine ⟨?_, fbit_raise _ _ _ (by decide)⟩
  rw [raise, rd_wr_other _ _ (by decide), rd_bump, rd_bump, bumpBy, rd_wr_other _ _ (by decide)]

theorem retried_zero_regs (s : State) : SameRegsBut [R.CWY_RETRY_CNT] s (retried 0 s) := fun _ ha => rd_wr_other _ s (List.ne_of_not_mem_cons ha)

end

/-! ### Pops that a hart discards (R432) -/

section
variable {e : CwyErr} (hu : s.cwy.undo = some e)
include hu

theorem undoErrlog_some : undoErrlog s = popRestored (showErrlog (updCwy (fun c => { c with log := e :: c.log, undo := none }) s)) := by
  rw [undoErrlog, hu]

theorem undoErrlog_restored : let t := undoErrlog s
    t.cwy.log = e :: s.cwy.log ∧ t.cwy.undo = none ∧ rd R.MEM_SPEC_POP t = rd R.MEM_SPEC_POP (bump R.MEM_SPEC_POP s) := by
  rw [undoErrlog_some hu]
  refine ⟨rfl, rfl, ?_⟩
  rw [popRestored, rd_bump, rd_bump, showErrlog, fput, rd_wr_other _ _ (by decide)]
  rfl

end

theorem undoErrlog_none (hu : s.cwy.undo = none) : undoErrlog s = s := by rw [undoErrlog, hu]

theorem undoViol_restored {v : Violation} (hu : s.own.undo = some v) : let t := undoViol s
    t.own.viol = v :: s.own.viol ∧ t.own.undo = none := by
  rw [undoViol, hu]
  exact ⟨rfl, rfl⟩

theorem undoCap_restored {m : Fin 16} {e : CapEntry} (hu : s.cap[m.1].undo = some e) : let t := undoCap m s
    t.cap[m.1].fifo = e :: s.cap[m.1].fifo ∧ t.cap[m.1].undo = none := by
  have hcap : (undoCap m s).cap[m.1] = { s.cap[m.1] with fifo := e :: s.cap[m.1].fifo, undo := none } := by
    rw [undoCap, hu]
    exact upd_get_same ..
  exact ⟨congrArg Capture.fifo hcap, congrArg Capture.undo hcap⟩

/-- A source that requests again leaves the stacks, and the claims that may be taken back. -/
theorem reRequest_ic (i : Nat) (s : State) : (reRequest i s).ic.stack = s.ic.stack ∧ (reRequest i s).ic.undo = s.ic.undo := by
  unfold reRequest pulse
  split_ifs <;> exact ⟨rfl, rfl⟩

theorem icPop_undo (t : Fin 13) (s : State) : (icPop t s).ic.undo[t.1] = none := by
  simp only [icPop, putStack, icShow, fput_ic, updIc_ic, Vector.getElem_set_self]

theorem undoClaim_restored {t0 : Fin 13} {i : Nat} {b : Bool} (hu : s.ic.undo[t0.1] = some (i, b)) : let t := undoClaim t0 s
    t.ic.stack[t0.1] = (s.ic.stack[t0.1]).tail ∧ t.ic.undo[t0.1] = none := by
  have hic : undoClaim t0 s = popRestored (whenB b (reRequest i) (icPop t0 s)) := by rw [undoClaim, hu]
  have hstack : (undoClaim t0 s).ic.stack = (icPop t0 s).ic.stack := by
    rw [hic, popRestored, bump_ic]
    exact whenB_keeps (f := fun s => s.ic.stack) (fun u => (reRequest_ic i u).1) ..
  have hundo : (undoClaim t0 s).ic.undo = (icPop t0 s).ic.undo := by
    rw [hic, popRestored, bump_ic]
    exact whenB_keeps (f := fun s => s.ic.undo) (fun u => (reRequest_ic i u).2) ..
  simp only [hstack, hundo, icPop_stack, icPop_undo, Vector.getElem_set_self, and_true]
  rfl

end

/-! ### The counters (R434, R435) -/

theorem exec_memCntClr {w : Initiator} {s : State} (hl : Lets w R.MEM_CNT_CLR true s) (hw : initWorld w (entered w R.MEM_CNT_CLR s) = true) :
    exec (.memCntClr w) s = .next (clearRegs memCounters (ok (entered w R.MEM_CNT_CLR s))) := by
  change Host.Outcome.next (regCmd w R.MEM_CNT_CLR (hearthOnly w (clearRegs memCounters)) s) = _
  rw [regCmd_hearth hl hw]

theorem exec_cwyCntClr {w : Initiator} {s : State} (hl : Lets w R.CWY_CNT_CLR true s) (hw : initWorld w (entered w R.CWY_CNT_CLR s) = true) :
    exec (.cwyCntClr w) s = .next (clearRegs cwyCounters (ok (entered w R.CWY_CNT_CLR s))) := by
  change Host.Outcome.next (regCmd w R.CWY_CNT_CLR (hearthOnly w (clearRegs cwyCounters)) s) = _
  rw [regCmd_hearth hl hw]

/-- Settles O44: the Causeway's answer to each error of the far side, its locks, and what each discarded pop gives back. -/
theorem causewayCommands : Obligations.CausewayCommands := by
  refine ⟨fun w addr part be write s hlo hhi => ?_, fun e s => ⟨fun h => cwyError_room h e, fun h => cwyError_full h e⟩, exec_lateResp,
    fun h a t0 s hl ht => exec_lockBroken hl ht, fun w s hl => ⟨fun h => ?_, fun e rest h => ?_⟩,
    fun h op dbl addr v n s hlo hhi => ⟨fun ha hw => ?_, fun hd ha => ?_, fun hd ha hn => ?_⟩, fun n s => ⟨rd_retried_cnt n s, fun hn => retried_hold hn s⟩,
    fun s => ⟨fun e hu => does_of rfl (undoErrlog_restored hu), fun v hu => does_of rfl (undoViol_restored hu), fun m e hu => does_of rfl (undoCap_restored hu),
      fun t0 i b hu => does_of rfl (undoClaim_restored hu), fun hu => congrArg _ (undoErrlog_none hu)⟩, fun w s hl => exec_memCntClr hl, fun w s hl => exec_cwyCntClr hl⟩
  · have hfabric := (inFabric_iff _).2 ⟨hlo, hhi⟩
    refine ⟨fun hw hp => (exec_cwyTimeout hfabric write).trans (congrArg _ (if_pos ?_)),
      fun h => (exec_cwyTimeout hfabric write).trans (congrArg _ (if_neg (Bool.eq_false_iff.1 (Bool.and_eq_false_iff.2 h)))), exec_cwyPostedError hfabric⟩
    rw [hw, hp]
    rfl
  · exact (exec_errlogPop hl).trans (congrArg _ (errlogPop_empty w h))
  · obtain ⟨hresp, hlog, hshadow, hundo⟩ := errlogPop_oldest w (s := ok _) h
    exact does_of (exec_errlogPop hl) ⟨hresp, hlog, hshadow, fun k hk => hundo.trans (hk ▸ rfl), fun hk => hundo.trans (undoFor_of_not_hart hk e)⟩
  · rw [exec_cwyLockedSequence_misaligned hlo hhi ha, amoMisaligned_eq, hartExc_normal hw]
  · subst hd
    exact exec_cwyLockedSequence_double hlo hhi ha
  · subst hd
    have hword := exec_cwyLockedSequence_word (h := h) (op := op) (v := v) (s := s) hlo hhi ha hn
    refine ⟨?_, ?_⟩
    · rintro rfl hdone
      rw [lockedWord_lr _ _ hdone] at hword
      exact does_of hword ⟨rfl, rfl⟩
    · rintro rfl
      refine ⟨fun t0 hl ht => ?_, fun hl => ?_⟩
      · rw [lockedWord_sc_held hl ht] at hword
        exact does_of hword (retried_resp 0 _)
      · rw [lockedWord_sc_free hl] at hword
        exact does_of hword ⟨rfl, fun b => rfl, fun a ha => retried_zero_regs _ a ha⟩

end Sys2Proof.Machine

/-!
One step of the whole machine (O1).
-/
namespace Sys2Proof.Machine

theorem step_pending (c : Instr) (rest : List Instr) (s : State) : step { s with pending := c :: rest } = exec c { s with pending := rest } := rfl

theorem step_idle {s : State} (h : s.pending = []) : step s = .next (idle s) := by
  rw [step, h]

theorem withFetchWord_unchanged (nbits w : Nat) (s : State) : s.withFetchWord nbits w = s := rfl

/-- Settles O1: the queue's head decides the step, and an empty queue lets the block idle. -/
theorem stepRunsTheFrontCommand : Obligations.StepRunsTheFrontCommand :=
  ⟨step_pending, fun _ h => ⟨step_idle h, rfl⟩, fun nbits w s => ⟨rfl, withFetchWord_unchanged nbits w s⟩⟩

end Sys2Proof.Machine

/-!
The source that the IC presents to a target (O46).
-/
namespace Sys2Proof.Machine

/-! ### The best of a family of candidates (R438, R442) -/

/-- What the best of the candidates below `n` is: none where there is none, else one with the highest priority, of equal ones the lowest. -/
def IsBest (cand : Nat → Bool) (pri : Nat → Nat) (n : Nat) : Option (Nat × Nat) → Prop
  | none => ∀ j < n, cand j = false
  | some (i, p) => i < n ∧ cand i = true ∧ pri i = p ∧ ∀ j < n, cand j = true → pri j < p ∨ (pri j = p ∧ i ≤ j)

section
variable {cand : Nat → Bool} {pri : Nat → Nat} {n : Nat} {b : Option (Nat × Nat)}

theorem IsBest.skip (h : IsBest cand pri n b) (hn : cand n = false) : IsBest cand pri (n + 1) b := by
  have hlast : ∀ j < n + 1, cand j = true → j < n := fun j hj hc =>
    Nat.lt_of_le_of_ne (Nat.le_of_lt_succ hj) fun e => Bool.eq_false_iff.1 hn (e ▸ hc)
  match b with
  | none => exact fun j hj => Bool.eq_false_iff.2 fun hc => Bool.eq_false_iff.1 (h j (hlast j hj hc)) hc
  | some (i, p) =>
    obtain ⟨hi, hc, hp, hall⟩ := h
    exact ⟨Nat.lt_succ_of_lt hi, hc, hp, fun j hj hcj => hall j (hlast j hj hcj) hcj⟩

theorem IsBest.take (h : IsBest cand pri n b) (hn : cand n = true) : IsBest cand pri (n + 1) (better b (some (n, pri n))) := by
  match b with
  | none =>
    refine ⟨Nat.lt_succ_self n, hn, rfl, fun j hj hc => ?_⟩
    obtain hj | rfl := Nat.lt_succ_iff_lt_or_eq.1 hj
    · exact absurd (h j hj) (by simp [hc])
    · exact .inr ⟨rfl, Nat.le_refl j⟩
  | some (i, p) =>
    obtain ⟨hi, hc, hp, hall⟩ := h
    by_cases hlt : p < pri n
    · rw [better, if_pos hlt]
      refine ⟨Nat.lt_succ_self n, hn, rfl, fun j hj hcj => ?_⟩
      obtain hj | rfl := Nat.lt_succ_iff_lt_or_eq.1 hj
      · have := hall j hj hcj
        omega
      · exact .inr ⟨rfl, Nat.le_refl j⟩
    · rw [better, if_neg hlt]
      refine ⟨Nat.lt_succ_of_lt hi, hc, hp, fun j hj hcj => ?_⟩
      obtain hj | rfl := Nat.lt_succ_iff_lt_or_eq.1 hj
      · exact hall j hj hcj
      · omega

theorem isBest_foldl (cand : Nat → Bool) (pri : Nat → Nat) (n : Nat) :
    IsBest cand pri n ((List.range n).foldl (fun b i => if cand i then better b (some (i, pri i)) else b) none) := by
  induction n with
  | zero => exact fun j hj => absurd hj (Nat.not_lt_zero j)
  | succ n ih =>
    rw [List.range_succ, List.foldl_append, List.foldl_cons, List.foldl_nil]
    split
    · next h => exact ih.take h
    · next h => exact ih.skip (Bool.eq_false_iff.2 h)

end

/-! ### Pending sources (R438) -/

section
variable {s : State}

theorem srcActive_iff (i : Nat) (s : State) : srcActive i s = true ↔ ∃ k : Fin 13, ∃ e ∈ s.ic.stack[k.1], e.1 = i := by
  simp only [srcActive, List.any_eq_true, Vector.mem_toList_iff, Vector.mem_iff_getElem, beq_iff_eq]
  constructor
  · rintro ⟨l, ⟨k, hk, rfl⟩, he⟩
    exact ⟨⟨k, hk⟩, he⟩
  · rintro ⟨k, he⟩
    exact ⟨_, ⟨k.1, k.2, rfl⟩, he⟩

theorem srcActive_eq_false_iff (i : Nat) (s : State) : srcActive i s = false ↔ ∀ k : Fin 13, ∀ e ∈ s.ic.stack[k.1], e.1 ≠ i := by
  rw [Bool.eq_false_iff, Ne, srcActive_iff]
  simp only [not_exists, not_and]

theorem ftst_iff (f : Fld) (s : State) : ftst f s = true ↔ fget f s ≠ 0 := bne_iff_ne

theorem srcPending_iff (i : Nat) (s : State) : srcPending i s = true ↔
    fget (F.IC_SRC_CFG_i_EN i) s ≠ 0 ∧ fget (F.IC_SRC_CFG_i_PRIO i) s ≠ 0 ∧ requesting i s = true ∧ ∀ k : Fin 13, ∀ e ∈ s.ic.stack[k.1], e.1 ≠ i := by
  rw [srcPending, Bool.and_eq_true, Bool.and_eq_true, Bool.and_eq_true, ftst_iff, ftst_iff, Bool.not_eq_true', srcActive_eq_false_iff]
  tauto

theorem srcPending_of_prio_zero {i : Nat} (h : fget (F.IC_SRC_CFG_i_PRIO i) s = 0) : srcPending i s = false :=
  Bool.eq_false_iff.2 fun hp => ((srcPending_iff i s).1 hp).2.1 h

/-! ### The source that the IC presents (R436, R441, R442) -/

/-- Whether a source is routed to a target, above its running priority, and pending. -/
def icOffers (t : Fin 13) (s : State) (i : Nat) : Bool :=
  fget (F.IC_SRC_CFG_i_TARGET i) s == t.1 && decide (runPri t s < fget (F.IC_SRC_CFG_i_PRIO i) s) && srcPending i s

theorem icOffers_iff {t : Fin 13} {i : Nat} : icOffers t s i = true ↔
    fget (F.IC_SRC_CFG_i_TARGET i) s = t.1 ∧ runPri t s < fget (F.IC_SRC_CFG_i_PRIO i) s ∧ srcPending i s = true := by
  simp only [icOffers, Bool.and_eq_true, beq_iff_eq, decide_eq_true_eq, and_assoc]

theorem icBest_eq (t : Fin 13) (s : State) : icBest t s = if !islOpen (targetIsl t.1) s then none else
    (List.range 1024).foldl (fun b i => if icOffers t s i then better b (some (i, fget (F.IC_SRC_CFG_i_PRIO i) s)) else b) none := rfl

theorem icBest_closed {t : Fin 13} (h : islOpen (targetIsl t.1) s = false) : icBest t s = none := if_pos (by rw [h]; rfl)

theorem icBest_isBest {t : Fin 13} (h : islOpen (targetIsl t.1) s = true) :
    IsBest (icOffers t s) (fun i => fget (F.IC_SRC_CFG_i_PRIO i) s) 1024 (icBest t s) := by
  have hopen : ¬ (!islOpen (targetIsl t.1) s) = true := by simp [h]
  rw [icBest_eq, if_neg hopen]
  exact isBest_foldl ..

theorem icBest_open {t : Fin 13} {e : Nat × Nat} (h : icBest t s = some e) : islOpen (targetIsl t.1) s = true := by
  by_contra ho
  rw [icBest_closed (Bool.eq_false_iff.2 ho)] at h
  exact absurd h nofun

/-- The presented source is offered, and none that is offered is better. -/
theorem icBest_some {t : Fin 13} {i p : Nat} (h : icBest t s = some (i, p)) : i < 1024 ∧ icOffers t s i = true ∧ fget (F.IC_SRC_CFG_i_PRIO i) s = p ∧
    ∀ j < 1024, icOffers t s j = true → fget (F.IC_SRC_CFG_i_PRIO j) s < p ∨ (fget (F.IC_SRC_CFG_i_PRIO j) s = p ∧ i ≤ j) := by
  have hbest := icBest_isBest (icBest_open h)
  rw [h] at hbest
  exact hbest

theorem icBest_eq_none {t : Fin 13} (h : icBest t s = none) (ho : islOpen (targetIsl t.1) s = true) {j : Nat} (hj : j < 1024) : icOffers t s j = false := by
  have hbest := icBest_isBest ho
  rw [h] at hbest
  exact hbest j hj

/-! ### The pending bits of the engines (R451) -/

/-- What the IC does for one source: it sets the pending bit of the engine to which a pending source is routed. -/
def icSettleOne (s : State) (i : Nat) : State :=
  let c := (rd (R.IC_SRC_CFG_i i) s).toNat
  let t := bits c 13 8
  if h : 13 ≤ t ∧ t < 37 then
    if bits c 16 16 == 1 && islOpen (targetIsl t) s && srcPending i s then
      updIc (fun c => { c with bits := upd c.bits ⟨t - 13, by omega⟩ fun b => b ||| BitVec.ofNat 1024 (2 ^ i) }) s
    else s
  else s

theorem icSettle_eq (s : State) : icSettle s = (List.range 1024).foldl icSettleOne s := rfl

/-- A source that is not pending changes nothing; a pending one sets its own bit of one engine. -/
theorem icSettleOne_cases (s : State) (i : Nat) : icSettleOne s i = s ∨ (srcPending i s = true ∧ ∃ e : Fin 24,
    icSettleOne s i = updIc (fun c => { c with bits := upd c.bits e fun b => b ||| BitVec.ofNat 1024 (2 ^ i) }) s) := by
  unfold icSettleOne
  dsimp only
  split
  · split
    · next h => exact .inr ⟨((Bool.and_eq_true _ _).mp h).2, _, rfl⟩
    · exact .inl rfl
  · exact .inl rfl

/-- A source of priority 0 is not given to an engine, whatever the other sources are. -/
theorem icSettle_of_prio_zero {i : Nat} (hi : i < 1024) (h : fget (F.IC_SRC_CFG_i_PRIO i) s = 0) (e : Fin 24) :
    ((icSettle s).ic.bits[e.1]).getLsbD i = (s.ic.bits[e.1]).getLsbD i := by
  have hstep : ∀ (l : List Nat) (u : State), fget (F.IC_SRC_CFG_i_PRIO i) u = 0 →
      ((l.foldl icSettleOne u).ic.bits[e.1]).getLsbD i = (u.ic.bits[e.1]).getLsbD i := by
    intro l
    induction l with
    | nil => exact fun _ _ => rfl
    | cons j l ih =>
      intro u hu
      rw [List.foldl_cons]
      obtain hj | ⟨hp, k, hj⟩ := icSettleOne_cases u j
      · rw [hj]
        exact ih u hu
      · have hne : j ≠ i := by
          rintro rfl
          exact Bool.eq_false_iff.1 (srcPending_of_prio_zero hu) hp
        rw [hj]
        refine (ih (updIc _ u) hu).trans ?_
        simp only [updIc_ic, upd_get]
        split
        · next hk => rw [getLsbD_or_bit _ _ hi, decide_eq_false hne, Bool.or_false, hk]
        · rfl
  rw [icSettle_eq]
  exact hstep _ s h

end

/-- Settles O46: the presented source is the best of those offered, and only a pending source is offered. -/
theorem presentedInterruptIsTheBest : Obligations.PresentedInterruptIsTheBest := by
  refine ⟨fun t i p s h => ?_, fun t s h ho j hj hp ht => ?_, srcPending_iff, fun i s => ⟨Nat.le_of_lt_succ (fget_lt ..), fun h0 => ⟨fun t p h => ?_, fun e hi => ?_⟩⟩⟩
  · obtain ⟨hi, hoff, hpri, hall⟩ := icBest_some h
    obtain ⟨htarget, hrun, hpend⟩ := icOffers_iff.1 hoff
    exact ⟨hi, icBest_open h, hpend, htarget, hpri, hpri ▸ hrun, fun j hj hp ht hr => hall j hj (icOffers_iff.2 ⟨ht, hr, hp⟩)⟩
  · by_contra hlt
    exact Bool.eq_false_iff.1 (icBest_eq_none h ho hj) (icOffers_iff.2 ⟨ht, Nat.lt_of_not_le hlt, hp⟩)
  · obtain ⟨-, hoff, -⟩ := icBest_some h
    exact Bool.eq_false_iff.1 (srcPending_of_prio_zero h0) (icOffers_iff.1 hoff).2.2
  · exact icSettle_of_prio_zero hi h0 e

end Sys2Proof.Machine

/-!
Edge requests, claims and ends of interrupt (O45).
-/
namespace Sys2Proof.Machine

/-! ### What asserts a source (R437) -/

/-- Two states that a source cannot tell apart: the registers outside the IC, the memory, the held requests and the edge requests are the same. -/
structure SameSources (s t : State) : Prop where
  rd : ∀ a, a < 0x4300000 ∨ 0x4400000 ≤ a → rd a t = rd a s
  mem : SameMem s t
  pulses : t.pulses = s.pulses
  edge : t.ic.edge = s.ic.edge

section
variable {s t : State} {i : Nat}

theorem sameSources_ok (s : State) : SameSources s (ok s) := ⟨fun _ _ => rfl, fun _ => rfl, rfl, rfl⟩

theorem SameSources.fget (h : SameSources s t) {f : Fld} (hf : f.addr < 0x4300000 ∨ 0x4400000 ≤ f.addr) : fget f t = fget f s :=
  congrArg (fun v : Word => bits v.toNat f.hi f.lo) (h.rd _ hf)

theorem SameSources.ftst (h : SameSources s t) {f : Fld} (hf : f.addr < 0x4300000 ∨ 0x4400000 ≤ f.addr) : ftst f t = ftst f s := ftst_of_fget (h.fget hf)

theorem SameSources.fbit (h : SameSources s t) {f : Fld} (hf : f.addr < 0x4300000 ∨ 0x4400000 ≤ f.addr) (n : Nat) : fbit f n t = fbit f n s :=
  congrArg (fun v : Word => v.getLsbD (f.lo + n)) (h.rd _ hf)

theorem SameSources.evOn (h : SameSources s t) {ev en : Nat} (hv : ev < 0x4300000 ∨ 0x4400000 ≤ ev) (hn : en < 0x4300000 ∨ 0x4400000 ≤ en) (m : Nat) :
    evOn ev en m t = evOn ev en m s := by
  rw [Machine.evOn, h.rd _ hv, h.rd _ hn]
  rfl

theorem SameSources.time (h : SameSources s t) : srcTime i t = srcTime i s := h.evOn (by decide) (by decide) _

theorem SameSources.slice (h : SameSources s t) (hi : i < 64) : srcSlice i t = srcSlice i s := by
  simp (disch := simp only [F.TRG_CAP_STATUS_m_FILL, F.TRG_CAP_CFG_m_IE_DATA, F.TRG_CAP_STATUS_m_OVF, F.TRG_CAP_STATUS_m_MERGE, F.TRG_CAP_CFG_m_IE_ERR, R.TRG_STATUS_n,
    R.TRG_CFG_n, R.TRG_CAP_STATUS_m, R.TRG_CAP_CFG_m, R.CAM_EVENT, R.CAM_EVENT_EN]; omega) only [srcSlice, h.ftst, h.evOn, h.rd]

theorem SameSources.switch (h : SameSources s t) (hi : i < 160) : srcSwitch i t = srcSwitch i s := by
  simp (disch := simp only [F.SW_TC10_p_WAKE_SEEN, R.SW_TC10_p, R.SW_EVENT, R.SW_EVENT_EN]; omega) only [srcSwitch, h.ftst, h.evOn]

theorem SameSources.bus (h : SameSources s t) : srcBus i t = srcBus i s := by
  simp (disch := simp only [R.CAN_EVENT, R.CAN_EVENT_EN, R.LIN_EVENT, R.LIN_EVENT_EN]; omega) only [srcBus, h.evOn]

theorem SameSources.load (h : SameSources s t) : srcLoad i t = srcLoad i s := by
  simp (disch := simp only [F.FIO_DI_CHG_k, F.FIO_DI_CFG_i_IE, F.FIO_AI_EVT, F.FIO_AI_CFG_j_IE, F.LOADCH_CQ_EVENT_q_CPL, F.LOADCH_CQ_EVENT_q_CPL_EN, F.LOADCH_CQ_EVENT_q_CPL_OVF,
    F.LOADCH_CQ_EVENT_q_OVF_EN, R.LOADCH_CH_EVENT_n, R.FIO_DI_CHG_k, R.FIO_DI_CFG_i, R.FIO_AI_EVT, R.FIO_AI_CFG_j, R.LOADCH_CQ_EVENT_q, R.LOADCH_EVENT, R.LOADCH_EVENT_EN]; omega)
    only [srcLoad, h.evOn, h.ftst, h.fbit, h.rd]

theorem SameSources.engine (h : SameSources s t) (hi : i < 384) : srcEngine i t = srcEngine i s := by
  simp (disch := simp only [R.ENG_EVENT, R.ENG_EVENT_EN]; omega) only [srcEngine, h.evOn]

theorem SameSources.key (h : SameSources s t) : srcKey i t = srcKey i s := by
  simp (disch := decide) only [srcKey, h.evOn, h.ftst]

theorem SameSources.logCtl (h : SameSources s t) : logCtl t = logCtl s := by
  rw [Machine.logCtl, h.fget (by decide)]
  rfl

theorem SameSources.memory (h : SameSources s t) : srcMem i t = srcMem i s := by
  simp (disch := simp only [F.OWN_BLK_k_STATE, F.OWN_BLK_k_RRQ, R.MEM_EVENT, R.MEM_EVENT_EN, R.CWY_EVENT, R.CWY_EVENT_EN, R.OWN_EVENT, R.OWN_EVENT_EN, R.OWN_BLK_k, R.SIG_EVENT,
    R.SIG_EVENT_EN]; omega) only [srcMem, h.evOn, h.fget, h.logCtl, mrdN_of_sameMem h.mem]

theorem SameSources.supply (h : SameSources s t) : srcSupply i t = srcSupply i s := by
  simp (disch := simp only [F.WDOG_WD_STAT_WARN, F.WDOG_WD_STAT_WARN_EN, F.WDOG_HB_STAT_c_LOST, F.WDOG_HB_STAT_c_IE, R.BLW_EVENT, R.BLW_EVENT_EN, R.SYSCTL_EVENT, R.SYSCTL_EVENT_EN,
    R.WDOG_WD_STAT, R.WDOG_HB_STAT_c, R.SYSCTL_XSPI_EVENT, R.SYSCTL_XSPI_EVENT_EN, R.HERON_EVENT, R.HERON_EVENT_EN]; omega) only [srcSupply, h.evOn, h.ftst]

theorem SameSources.nm (h : SameSources s t) : srcNm i t = srcNm i s := by
  simp (disch := simp only [F.NM_SEG_STATUS_s_CHANGED, R.NM_SEG_STATUS_s, R.NM_EVENT, R.NM_EVENT_EN]; omega) only [srcNm, h.evOn, h.ftst]

theorem SameSources.vqi (h : SameSources s t) : srcVqi i t = srcVqi i s := by
  simp (disch := simp only [F.VQI_MGR_SRC_ID, F.VQI_RING_SIZE_i_p_IE, F.VQI_RING_SIZE_i_p_DB, F.VQI_CQ_TAIL_i_p, F.VQI_CQ_HEAD_i_p, R.VQI_MGR_SRC, R.VQI_MGR_EVENT, R.VQI_MGR_EVENT_EN,
    R.VQI_RING_SIZE_i_p, R.VQI_CQ_TAIL_i_p, R.VQI_CQ_HEAD_i_p]; omega) only [srcVqi, h.evOn, h.fget, h.ftst]

theorem SameSources.requesting (h : SameSources s t) (i : Nat) : requesting i t = requesting i s := by
  unfold Machine.requesting
  refine ite_congr rfl (fun _ => rfl) fun _ => ite_congr rfl (fun _ => by rw [h.edge]) fun _ => ite_congr (by rw [h.pulses]) (fun _ => rfl) fun _ => ?_
  refine ite_congr rfl (fun _ => h.time) fun _ => ite_congr rfl h.slice fun _ => ite_congr rfl h.switch fun _ => ite_congr rfl (fun _ => h.bus) fun _ => ?_
  refine ite_congr rfl (fun _ => h.load) fun _ => ite_congr rfl h.engine fun _ => ite_congr rfl (fun _ => h.key) fun _ => ite_congr rfl (fun _ => h.memory) fun _ => ?_
  exact ite_congr rfl (fun _ => h.supply) fun _ => ite_congr rfl (fun _ => h.nm) fun _ => h.vqi

/-! ### A stack after it is given (R442, R444, R461) -/

/-- Only STAT of the target shows a stack. -/
theorem rd_putStack_other {t : Fin 13} {a : Nat} (ha : a ≠ R.IC_STAT_t t.1) (l : List (Nat × Nat)) (s : State) : rd a (putStack t l s) = rd a s :=
  (rd_wr_other _ _ ha).trans ((rd_wr_other _ _ ha).trans (rd_wr_other _ _ ha))

theorem putStack_edge (t : Fin 13) (l : List (Nat × Nat)) (s : State) : (putStack t l s).ic.edge = s.ic.edge := by simp only [putStack, icShow, fput_ic, updIc_ic]

theorem putStack_pulses (t : Fin 13) (l : List (Nat × Nat)) (s : State) : (putStack t l s).pulses = s.pulses := by simp only [putStack, icShow, fput_pulses, updIc_pulses]

theorem putStack_resp (t : Fin 13) (l : List (Nat × Nat)) (s : State) : (putStack t l s).resp = s.resp := by simp only [putStack, icShow, fput_resp, updIc_resp]

theorem runPri_of {t : Fin 13} {s : State} {e : Nat × Nat} {l : List (Nat × Nat)} (h : icStack t s = e :: l) : runPri t s = max e.2 (fget (F.IC_THRESH_t_PRI t.1) s) := by
  rw [runPri, h]

theorem icStack_putStack (t : Fin 13) (l : List (Nat × Nat)) (s : State) : icStack t (putStack t l s) = l := by
  simp only [icStack, putStack_stack, Vector.getElem_set_self]

theorem stack_putStack_other {t k : Fin 13} (h : k ≠ t) (l : List (Nat × Nat)) (s : State) : (putStack t l s).ic.stack[k.1] = s.ic.stack[k.1] := by
  simp only [putStack_stack, Vector.getElem_set_ne _ _ fun e : t.1 = k.1 => h (Fin.ext e.symm)]

/-- A target whose stack has a top runs at the priority of that top, or at its threshold. -/
theorem runPri_putStack (t : Fin 13) (e : Nat × Nat) (l : List (Nat × Nat)) (s : State) :
    runPri t (putStack t (e :: l) s) = max e.2 (fget (F.IC_THRESH_t_PRI t.1) s) := by
  have hthresh : R.IC_THRESH_t t.1 ≠ R.IC_STAT_t t.1 := by simp only [R.IC_THRESH_t, R.IC_STAT_t]; omega
  rw [runPri_of (icStack_putStack ..), fget, F.IC_THRESH_t_PRI, rd_putStack_other hthresh]
  rfl

/-- STAT shows the running priority. -/
theorem shownPri_putStack (t : Fin 13) (e : Nat × Nat) (l : List (Nat × Nat)) (s : State) :
    fget (F.IC_STAT_t_RUNPRI t.1) (putStack t (e :: l) s) = max e.2 (fget (F.IC_THRESH_t_PRI t.1) s) % 2 ^ 5 := by
  have hstack : icStack t (updIc (fun c => { c with stack := c.stack.set t.1 (e :: l) t.2 }) s) = e :: l := Vector.getElem_set_self ..
  rw [putStack, icShow, fget_fput_beside (F.IC_STAT_t_TOP_ID t.1) (F.IC_STAT_t_RUNPRI t.1) _ _ rfl (by show 4 < 32; decide) (.inl (by show 4 < 16; decide)),
    fget_fput_beside (F.IC_STAT_t_DEPTH t.1) (F.IC_STAT_t_RUNPRI t.1) _ _ rfl (by show 4 < 32; decide) (.inl (by show 4 < 8; decide)),
    fget_fput_same _ _ _ (by show 4 < 32; decide), runPri_of hstack]
  rfl

/-! ### SGI_SET (R437, R440) -/

theorem exec_sgiSet {w : Initiator} {s : State} (hl : Lets w R.IC_SGI_SET true s) (i : Fin 1024) :
    exec (.sgiSet w i) s = .next (sgiSet w i.1 (ok (entered w R.IC_SGI_SET s))) := congrArg _ (regCmd_lets hl _)

theorem sgiSet_refused {w : Initiator} {i : Nat} {s : State} (h : i < 768 ∨ srcOwner w i s = false) : sgiSet w i s = bad s := by
  rw [sgiSet, if_pos]
  simpa using h

theorem sgiSet_taken {w : Initiator} {i : Nat} {s : State} (hi : 768 ≤ i) (ho : srcOwner w i s = true) :
    sgiSet w i s = updIc (fun c => { c with edge := c.edge ||| BitVec.ofNat 256 (2 ^ (i - 768)) }) s := by
  rw [sgiSet, if_neg]
  simp [ho, hi]

/-! ### CLAIM (R442, R443) -/

theorem exec_icClaim {w : Initiator} {t : Fin 13} {s : State} (hl : Lets w (R.IC_CLAIM_t t.1) false s) :
    exec (.icClaim w t) s = .next (claimRead w t (ok (entered w (R.IC_CLAIM_t t.1) s))) := congrArg _ (regRead_lets hl _)

theorem icBest_ok (t : Fin 13) (s : State) : icBest t (ok s) = icBest t s := by
  have hpend (i : Nat) : srcPending i (ok s) = srcPending i s := by
    rw [srcPending, (sameSources_ok s).requesting]
    rfl
  have hoffers : icOffers t (ok s) = icOffers t s := funext fun i => by
    rw [icOffers, hpend]
    rfl
  rw [icBest_eq, hoffers]
  rfl

theorem claimRead_full {t : Fin 13} {s : State} (h : 16 ≤ (icStack t s).length) (w : Initiator) :
    claimRead w t s = answer .done 0 (raise (F.IC_STAT_t_STACK_FULL t.1) 0 s) := by
  rw [claimRead, icClaim, if_pos h]

theorem claimRead_none {t : Fin 13} {s : State} (hl : (icStack t s).length < 16) (h : icBest t s = none) (w : Initiator) : claimRead w t s = answer .done 0 s := by
  rw [claimRead, icClaim, if_neg (Nat.not_le.2 hl), h]

/-- What does not depend on the response does not see an answer. -/
theorem answer_keeps {α : Type} {f : State → α} (h : ∀ r s, f { s with resp := r } = f s) (st : Status) (d : Nat) (s : State) : f (answer st d s) = f s := h _ s

/-- What the IC keeps of a claim that a hart may discard (R432): the source, and whether its request was held. -/
def claimUndo (w : Initiator) (i : Nat) (s : State) : Option (Nat × Bool) := if (undoFor w ()).isSome then some (i, decide (768 ≤ i) || s.pulses.contains i) else none

/-- What a claim of the source `e` leaves, before the answer: the request is cleared, and the source stands at the top of the stack. -/
def claimed (w : Initiator) (t : Fin 13) (e : Nat × Nat) (s : State) : State :=
  updIc (fun c => { c with undo := c.undo.set t.1 (claimUndo w e.1 s) t.2 }) (putStack t (e :: icStack t s) (clearReq e.1 s))

theorem claimRead_some {t : Fin 13} {s : State} (hl : (icStack t s).length < 16) {e : Nat × Nat} (h : icBest t s = some e) (w : Initiator) :
    claimRead w t s = answer .done e.1 (claimed w t e s) := by
  rw [claimRead, icClaim, if_neg (Nat.not_le.2 hl), h]
  rfl

theorem clearReq_keeps {α : Type} {f : State → α} (hi : ∀ c s, f { s with ic := { s.ic with edge := c } } = f s) (hp : ∀ l s, f { s with pulses := l } = f s) (i : Nat) (s : State) :
    f (clearReq i s) = f s := by
  unfold clearReq
  split
  · exact hi _ s
  · exact hp _ s

theorem clearReq_edge (i : Nat) (s : State) : (clearReq i s).ic.edge = if 768 ≤ i then s.ic.edge &&& ~~~(BitVec.ofNat 256 (2 ^ (i - 768))) else s.ic.edge := by
  unfold clearReq
  split <;> rfl

theorem fget_updIc (f : Fld) (g : IcSt → IcSt) (s : State) : fget f (updIc g s) = fget f s := rfl

theorem runPri_congr {t : Fin 13} {s u : State} (hs : icStack t u = icStack t s) (ht : fget (F.IC_THRESH_t_PRI t.1) u = fget (F.IC_THRESH_t_PRI t.1) s) :
    runPri t u = runPri t s := by
  rw [runPri, runPri, hs, ht]

section
variable (w : Initiator) (t : Fin 13) (i p : Nat) (s : State)

theorem claimed_stack : (claimed w t (i, p) s).ic.stack[t.1] = (i, p) :: s.ic.stack[t.1] := by
  simp only [claimed, updIc_ic, putStack_stack, Vector.getElem_set_self, icStack]

theorem claimed_stack_other {k : Fin 13} (h : k ≠ t) : (claimed w t (i, p) s).ic.stack[k.1] = s.ic.stack[k.1] := by
  have hclear : (clearReq i s).ic.stack = s.ic.stack := clearReq_keeps (f := fun s => s.ic.stack) (fun _ _ => rfl) (fun _ _ => rfl) i s
  rw [claimed, updIc_ic, stack_putStack_other h, hclear]

theorem claimed_active : srcActive i (claimed w t (i, p) s) = true :=
  (srcActive_iff ..).2 ⟨t, (i, p), by rw [claimed_stack]; exact List.mem_cons_self, rfl⟩

theorem claimed_edge : (claimed w t (i, p) s).ic.edge = if 768 ≤ i then s.ic.edge &&& ~~~(BitVec.ofNat 256 (2 ^ (i - 768))) else s.ic.edge := by
  rw [claimed, updIc_ic, putStack_edge, clearReq_edge]

theorem thresh_clearReq : fget (F.IC_THRESH_t_PRI t.1) (clearReq i s) = fget (F.IC_THRESH_t_PRI t.1) s := clearReq_keeps (fun _ _ => rfl) (fun _ _ => rfl) i s

theorem claimed_runPri : runPri t (claimed w t (i, p) s) = max p (fget (F.IC_THRESH_t_PRI t.1) s) := by
  have hundo : runPri t (claimed w t (i, p) s) = runPri t (putStack t ((i, p) :: icStack t s) (clearReq i s)) :=
    runPri_congr (by simp only [icStack, claimed, updIc_ic]) (by rw [claimed, fget_updIc])
  rw [hundo, runPri_putStack, thresh_clearReq]

theorem claimed_shownPri : fget (F.IC_STAT_t_RUNPRI t.1) (claimed w t (i, p) s) = max p (fget (F.IC_THRESH_t_PRI t.1) s) % 2 ^ 5 := by
  rw [claimed, fget_updIc, shownPri_putStack, thresh_clearReq]

theorem claimed_sameMem : SameMem s (claimed w t (i, p) s) :=
  sameMem_of (by rw [claimed, updIc_mem, putStack_mem, clearReq_keeps (f := State.mem) (fun _ _ => rfl) (fun _ _ => rfl)])
    (by rw [claimed, updIc_dram, putStack_dram, clearReq_keeps (f := State.dram) (fun _ _ => rfl) (fun _ _ => rfl)])

end

theorem thresh_le_runPri (t : Fin 13) (s : State) : fget (F.IC_THRESH_t_PRI t.1) s ≤ runPri t s := by
  unfold runPri
  split
  · exact Nat.le_refl _
  · exact Nat.le_max_right ..

/-- A claimed source that stands above the running priority gives the target its own. -/
theorem claimed_shownPri_above {t : Fin 13} {s : State} {i p : Nat} (h : icBest t s = some (i, p)) (hp : runPri t s < p) (w : Initiator) :
    fget (F.IC_STAT_t_RUNPRI t.1) (claimed w t (i, p) s) = p := by
  obtain ⟨-, -, hpri, -⟩ := icBest_some h
  have hlt : p < 2 ^ 5 := hpri ▸ fget_lt (F.IC_SRC_CFG_i_PRIO i) s
  have hmax : max p (fget (F.IC_THRESH_t_PRI t.1) s) = p := Nat.max_eq_left (Nat.le_trans (thresh_le_runPri t s) (Nat.le_of_lt hp))
  rw [claimed_shownPri, hmax, Nat.mod_eq_of_lt hlt]

/-- What a claim leaves, with its answer. -/
theorem claimed_shows {t : Fin 13} {s : State} {i p : Nat} (h : icBest t s = some (i, p)) (w : Initiator) : let v := answer .done i (claimed w t (i, p) s)
    v.resp = ⟨.done, BitVec.ofNat 32 i⟩ ∧ v.ic.stack[t.1] = (i, p) :: s.ic.stack[t.1] ∧ srcActive i v = true ∧ (∀ k : Fin 13, k ≠ t → v.ic.stack[k.1] = s.ic.stack[k.1]) ∧
    (768 ≤ i → v.ic.edge = s.ic.edge &&& ~~~(BitVec.ofNat 256 (2 ^ (i - 768)))) ∧ (i < 768 → v.ic.edge = s.ic.edge) ∧
    runPri t v = max p (fget (F.IC_THRESH_t_PRI t.1) s) ∧ (runPri t s < p → fget (F.IC_STAT_t_RUNPRI t.1) v = p) ∧ SameMem s v := by
  have hstack := claimed_stack w t i p s
  have hactive := claimed_active w t i p s
  have hother (k : Fin 13) (hk : k ≠ t) := claimed_stack_other w t i p s hk
  have hedge := claimed_edge w t i p s
  have hrun := claimed_runPri w t i p s
  have hshown (hp : runPri t s < p) := claimed_shownPri_above h hp w
  have hmem := claimed_sameMem w t i p s
  generalize claimed w t (i, p) s = v at *
  exact ⟨rfl, hstack, (answer_keeps (f := srcActive i) (fun _ _ => rfl) ..).trans hactive, hother, fun hi => hedge.trans (if_pos hi), fun hi => hedge.trans (if_neg (Nat.not_le.2 hi)),
    (answer_keeps (f := runPri t) (fun _ _ => rfl) ..).trans hrun, fun hp => (answer_keeps (f := fget (F.IC_STAT_t_RUNPRI t.1)) (fun _ _ => rfl) ..).trans (hshown hp),
    fun a => (answer_keeps (f := mrd a) (fun _ _ => rfl) ..).trans (hmem a)⟩

/-! ### EOI (R444) -/

theorem exec_eoi {w : Initiator} {t : Fin 13} {s : State} (hl : Lets w (R.IC_EOI_t t.1) true s) (id : Fin 1024) :
    exec (.eoi w t id) s = .next (eoiWrite t id.1 (ok (entered w (R.IC_EOI_t t.1) s))) := congrArg _ (regCmd_lets hl _)

theorem eoiWrite_top {t : Fin 13} {s : State} {i p : Nat} {rest : List (Nat × Nat)} (h : icStack t s = (i, p) :: rest) : eoiWrite t i s = icPop t s := by
  rw [eoiWrite, h]
  exact if_pos rfl

theorem eoiWrite_ignored {t : Fin 13} {s : State} {i : Nat} (h : ∀ p rest, icStack t s ≠ (i, p) :: rest) : eoiWrite t i s = bad (bump R.IC_EOI_ERR_CNT s) := by
  unfold eoiWrite
  split
  · rfl
  · next e l hs => exact if_neg fun he => h e.2 l (by rw [hs, ← he])

theorem rd_icPop_other {t : Fin 13} {a : Nat} (ha : a ≠ R.IC_STAT_t t.1) (s : State) : rd a (icPop t s) = rd a s := rd_putStack_other ha ..

theorem sameSources_icPop (t : Fin 13) (s : State) : SameSources s (icPop t s) where
  rd a ha := rd_icPop_other (by simp only [R.IC_STAT_t]; omega) s
  mem := icPop_sameMem t s
  pulses := putStack_pulses ..
  edge := putStack_edge ..

theorem icPop_stack_other {t k : Fin 13} (h : k ≠ t) (s : State) : (icPop t s).ic.stack[k.1] = s.ic.stack[k.1] := stack_putStack_other h ..

theorem fget_srcCfg_icPop {f : Fld} {i : Fin 1024} (hf : f.addr = R.IC_SRC_CFG_i i.1) (t : Fin 13) (s : State) : fget f (icPop t s) = fget f s :=
  congrArg (fun v : Word => bits v.toNat f.hi f.lo) (rd_icPop_other (by rw [hf]; simp only [R.IC_SRC_CFG_i, R.IC_STAT_t]; omega) s)

/-- A source that stands in no other place is idle once it is ended. -/
theorem srcActive_icPop {t : Fin 13} {i : Nat} (hrest : ∀ e ∈ (icStack t s).tail, e.1 ≠ i) (hother : ∀ k : Fin 13, k ≠ t → ∀ e ∈ s.ic.stack[k.1], e.1 ≠ i) :
    srcActive i (icPop t s) = false := by
  refine (srcActive_eq_false_iff ..).2 fun k => ?_
  by_cases hk : k = t
  · subst hk
    rw [show (icPop k s).ic.stack[k.1] = (icStack k s).tail from icStack_icPop k s]
    exact hrest
  · rw [icPop_stack_other hk]
    exact hother k hk

/-- A source that is ended and still requests is pending again. -/
theorem srcPending_icPop {t : Fin 13} {i : Fin 1024} (ha : srcActive i.1 (icPop t s) = false) (hr : requesting i.1 s = true)
    (he : ftst (F.IC_SRC_CFG_i_EN i.1) s = true) (hp : ftst (F.IC_SRC_CFG_i_PRIO i.1) s = true) : srcPending i.1 (icPop t s) = true := by
  refine (srcPending_iff ..).2 ⟨?_, ?_, ((sameSources_icPop t s).requesting i.1).trans hr, (srcActive_eq_false_iff ..).1 ha⟩
  · rw [fget_srcCfg_icPop rfl]
    exact (ftst_iff ..).1 he
  · rw [fget_srcCfg_icPop rfl]
    exact (ftst_iff ..).1 hp

end

/-- Settles O45: each command by its equation, a claim by what it leaves at the top of the stack, an end by what it takes from there. -/
theorem interruptControllerCommands : Obligations.InterruptControllerCommands := by
  refine ⟨fun w i s hl => ⟨fun hi ho => ?_, fun h => ?_⟩, fun w t s hl => ⟨fun hf => ?_, fun hf hn => ?_, fun i p hf hb => ?_⟩,
    fun w t id s hl => ⟨fun p rest hs => ?_, fun hs => ?_⟩⟩
  · rw [exec_sgiSet hl, sgiSet_taken hi ho]
    rfl
  · rw [exec_sgiSet hl, sgiSet_refused h]
  · rw [exec_icClaim hl, claimRead_full (s := ok _) hf]
  · rw [exec_icClaim hl, claimRead_none (s := ok _) hf ((icBest_ok ..).trans hn)]
    rfl
  · have hx := exec_icClaim (w := w) hl
    rw [claimRead_some (s := ok _) hf ((icBest_ok ..).trans hb)] at hx
    exact does_of hx (claimed_shows ((icBest_ok ..).trans hb) w)
  · have hx := exec_eoi (w := w) hl id
    have hstack : icStack t (ok (entered w (R.IC_EOI_t t.1) s)) = (id.1, p) :: rest := hs
    rw [eoiWrite_top hstack] at hx
    refine does_of hx ⟨putStack_resp .., ?_, putStack_edge .., fun k hk => icPop_stack_other hk _, rd_icPop_other (by simp only [R.IC_EOI_ERR_CNT, R.IC_STAT_t]; omega) _, fun hrest hother => ?_⟩
    · exact (icStack_icPop ..).trans (by rw [hstack, List.tail_cons])
    · have hactive : srcActive id.1 (icPop t (ok (entered w (R.IC_EOI_t t.1) s))) = false := srcActive_icPop (by rw [hstack]; exact hrest) hother
      exact ⟨hactive, fun hr he hp => srcPending_icPop hactive (((sameSources_ok _).requesting id.1).trans hr) he hp⟩
  · rw [exec_eoi hl, eoiWrite_ignored (s := ok _) hs]

end Sys2Proof.Machine

/-!
Fields and event bits beside the other operations over registers, and the changes of a unit that no field shows (O48, O50-O54, O56-O59).
-/
namespace Sys2Proof.Machine

section
variable {s : State}

theorem fget_raise_other (g f : Fld) (n : Nat) (s : State) (h : g.addr ≠ f.addr) : fget g (raise f n s) = fget g s := fget_wr_other g _ s h

theorem fget_bump_other (g : Fld) (a : Nat) (s : State) (h : g.addr ≠ a) : fget g (bump a s) = fget g s := fget_wr_other g _ s h

/-- A field after a value that fits it is written. -/
theorem fget_fput_fits (f : Fld) {v : Nat} (s : State) (h : f.hi < 32) (hv : v < 2 ^ (f.hi + 1 - f.lo)) : fget f (fput f v s) = v := by
  rw [fget_fput_same f v s h, Nat.mod_eq_of_lt hv]

theorem ftst_fput_zero (f : Fld) (s : State) (h : f.hi < 32) : ftst f (fput f 0 s) = false := by
  rw [ftst, fget_fput_same f 0 s h, Nat.zero_mod]
  rfl

theorem ftst_fput_one (f : Fld) (s : State) (h : f.hi < 32) (hl : f.lo ≤ f.hi) : ftst f (fput f 1 s) = true := ftst_fput_flag f hl h true s

theorem ftst_fput_toNat (f : Fld) (b : Bool) (s : State) (h : f.hi < 32) (hl : f.lo ≤ f.hi) : ftst f (fput f b.toNat s) = b := by
  have hflag := ftst_fput_flag f hl h b s
  cases b <;> exact hflag

theorem ftst_fput_other (f g : Fld) (v : Nat) (s : State) (h : g.addr ≠ f.addr) : ftst g (fput f v s) = ftst g s := ftst_of_fget (fget_fput_other f g v s h)

theorem ftst_fput_beside (f g : Fld) (v : Nat) (s : State) (ha : g.addr = f.addr) (h : g.hi < 32) (hd : g.hi < f.lo ∨ f.hi < g.lo) : ftst g (fput f v s) = ftst g s :=
  ftst_of_fget (fget_fput_beside f g v s ha h hd)

theorem ftst_raise_other (g f : Fld) (n : Nat) (s : State) (h : g.addr ≠ f.addr) : ftst g (raise f n s) = ftst g s := ftst_of_fget (fget_raise_other g f n s h)

theorem ftst_bump_other (g : Fld) (a : Nat) (s : State) (h : g.addr ≠ a) : ftst g (bump a s) = ftst g s := ftst_of_fget (fget_bump_other g a s h)

theorem ftst_wr_other (g : Fld) {a : Nat} (v : Word) (s : State) (h : g.addr ≠ a) : ftst g (wr a v s) = ftst g s := ftst_of_fget (fget_wr_other g v s h)

/-- Raising another event of the same register leaves one that stands. -/
theorem fbit_raise_beside (f g : Fld) (n k : Nat) (s : State) (h : fbit f n s = true) : fbit f n (raise g k s) = true := by
  rw [fbit, rd_raise]
  split
  · rw [BitVec.getLsbD_or, show (rd f.addr s).getLsbD (f.lo + n) = true from h, Bool.true_or]
  · exact h

theorem fbit_raise_ne (f : Fld) {n k : Nat} (hn : f.lo + n < 32) (h : k ≠ n) (s : State) : fbit f n (raise f k s) = fbit f n s := by
  rw [fbit, rd_raise, if_pos rfl, getLsbD_or_bit _ _ hn, decide_eq_false (by omega), Bool.or_false, fbit]

theorem beside_fbit {W : Nat → Prop} {g : Fld} {n : Nat} (h : ¬ W g.addr) : Beside W (fbit g n) where
  wr v s ha := congrArg (fun v : Word => v.getLsbD (g.lo + n)) ((beside_rd h).wr v s ha)
  drop s ha := congrArg (fun v : Word => v.getLsbD (g.lo + n)) ((beside_rd h).drop s ha)

theorem rd_fput_other {a : Nat} (f : Fld) (v : Nat) (s : State) (h : a ≠ f.addr) : rd a (fput f v s) = rd a s := rd_wr_other _ s h

theorem rd_raise_other {a : Nat} (f : Fld) (n : Nat) (s : State) (h : a ≠ f.addr) : rd a (raise f n s) = rd a s := rd_wr_other _ s h

theorem rd_bump_other {a b : Nat} (s : State) (h : b ≠ a) : rd b (bump a s) = rd b s := rd_wr_other _ s h

/-- A count depends on the register alone. -/
theorem rd_bump_congr {a : Nat} {s t : State} (h : rd a t = rd a s) : rd a (bump a t) = rd a (bump a s) := by
  rw [rd_bump, rd_bump, if_pos rfl, if_pos rfl, h]

theorem fget_congr {s t : State} (f : Fld) (h : rd f.addr t = rd f.addr s) : fget f t = fget f s := congrArg (fun v : Word => bits v.toNat f.hi f.lo) h

theorem fbit_congr {s t : State} (f : Fld) (n : Nat) (h : rd f.addr t = rd f.addr s) : fbit f n t = fbit f n s := congrArg (fun v : Word => v.getLsbD (f.lo + n)) h

/-! ### Changes that no register shows -/

@[simp] theorem rd_updKey (a : Nat) (g : KeySt → KeySt) (s : State) : rd a (updKey g s) = rd a s := rfl

@[simp] theorem rd_updOwn (a : Nat) (g : OwnSt → OwnSt) (s : State) : rd a (updOwn g s) = rd a s := rfl

@[simp] theorem rd_updVqi (a : Nat) (g : VqiSt → VqiSt) (s : State) : rd a (updVqi g s) = rd a s := rfl

@[simp] theorem rd_updHeron (a : Nat) (g : HeronSt → HeronSt) (s : State) : rd a (updHeron g s) = rd a s := rfl

theorem fget_updBlw (f : Fld) (g : BlwSt → BlwSt) (s : State) : fget f (updBlw g s) = fget f s := rfl

theorem fget_updOwn (f : Fld) (g : OwnSt → OwnSt) (s : State) : fget f (updOwn g s) = fget f s := rfl

theorem fget_updVqi (f : Fld) (g : VqiSt → VqiSt) (s : State) : fget f (updVqi g s) = fget f s := rfl

theorem fget_updHeron (f : Fld) (g : HeronSt → HeronSt) (s : State) : fget f (updHeron g s) = fget f s := rfl

/-! ### Memory and settings flash held alike -/

theorem SameMem.trans {t u : State} (h : SameMem s t) (g : SameMem t u) : SameMem s u := fun a => (g a).trans (h a)

end

end Sys2Proof.Machine

/-!
What the accesses of a unit leave alone: the checks they pass change some registers, the caches and records of ownership, and the words known as bad (R467-R469; O51-O54, O56).
-/
namespace Sys2Proof.Machine

/-- The registers that a check of an access may write, but for the events of OWN: those of violations, of the caches' misses, of memory errors and of unmapped addresses. -/
abbrev accessReg (a : Nat) : Prop :=
  a ∈ [R.OWN_VIOL_CNT, R.OWN_TONGS_BLOCKED_CNT, R.OWN_CACHE_MISS_CNT, R.MEM_ECC_LAST_LO, R.MEM_ECC_LAST_HI, R.MEM_ECC_UE_CNT, R.MEM_EVENT, R.MEM_UNMAP_CNT,
    R.MEM_UNMAP_LO, R.MEM_UNMAP_HI]

/-- What the check of an access does not show in. -/
structure AccessBlind {α : Type} (f : State → α) : Prop where
  regs : Beside accessReg f
  event : ∀ {n} s, n < 3 → f (raise F.OWN_EVENT n s) = f s
  cache : ∀ l s, f { s with own := { s.own with cache := l } } = f s
  viol : ∀ l s, f { s with own := { s.own with viol := l } } = f s
  bad : ∀ l s, f { s with cwy := { s.cwy with bad := l } } = f s

section
variable {α : Type} {f : State → α}

theorem accessBlind_rd {a : Nat} (h : ¬ accessReg a) (he : a ≠ R.OWN_EVENT) : AccessBlind (rd a) :=
  ⟨beside_rd h, fun s _ => rd_raise_other F.OWN_EVENT _ s he, fun _ _ => rfl, fun _ _ => rfl, fun _ _ => rfl⟩

theorem accessBlind_fget {g : Fld} (h : ¬ accessReg g.addr) (he : g.addr ≠ R.OWN_EVENT) : AccessBlind (fget g) :=
  ⟨beside_fget h, fun s _ => fget_raise_other g F.OWN_EVENT _ s he, fun _ _ => rfl, fun _ _ => rfl, fun _ _ => rfl⟩

theorem AccessBlind.map {β : Type} (h : AccessBlind f) (g : α → β) : AccessBlind fun s => g (f s) where
  regs := ⟨fun v s ha => congrArg g (h.regs.wr v s ha), fun s ha => congrArg g (h.regs.drop s ha)⟩
  event s hn := congrArg g (h.event s hn)
  cache l s := congrArg g (h.cache l s)
  viol l s := congrArg g (h.viol l s)
  bad l s := congrArg g (h.bad l s)

theorem accessBlind_ftst {g : Fld} (h : ¬ accessReg g.addr) (he : g.addr ≠ R.OWN_EVENT) : AccessBlind (ftst g) := (accessBlind_fget h he).map (· != 0)

theorem accessBlind_of_regs (hregs : ∀ l s, f { s with regs := l } = f s) (hown : ∀ o s, f { s with own := o } = f s)
    (hbad : ∀ l s, f { s with cwy := { s.cwy with bad := l } } = f s) : AccessBlind f :=
  ⟨beside_of_regs hregs, fun s _ => hregs _ s, fun _ s => hown _ s, fun _ s => hown _ s, hbad⟩

end

/-- What is seen of the state of an answer. -/
theorem snd_keeps {α β : Type} {f : State → α} {p : β × State} {b : β} {t : State} {c : α} (e : p = (b, t)) (h : f p.2 = c) : f t = c := by
  subst e
  exact h

section
variable {α : Type} {f : State → α} (h : AccessBlind f)
include h

theorem logUnmapped_keeps (code a : Nat) (s : State) : f (logUnmapped code a s) = f s := by
  rw [logUnmapped, h.regs.wr _ _ (by decide), h.regs.wr _ _ (by decide), h.regs.raise _ _ (by decide), h.regs.bump _ (by decide)]

theorem violate_blind (k : Nat) (world : Bool) (i a : Nat) (write : Bool) (c : Nat) (s : State) : f (violate k world i a write c s) = f s := by
  have hcount : f (raise F.OWN_EVENT 0 (bump R.OWN_VIOL_CNT s)) = f s := (h.event _ (by decide)).trans (h.regs.bump _ (by decide))
  rw [violate]
  split_ifs
  · exact (h.viol _ _).trans hcount
  · exact (h.event _ (by decide)).trans hcount

theorem ownLookup_blind (p a : Nat) (s : State) : f (ownLookup p a s).2 = f s := by
  have hmiss : f (bump R.OWN_CACHE_MISS_CNT s) = f s := h.regs.bump _ (by decide)
  unfold ownLookup
  split
  · rfl
  · split
    · rw [← hmiss]
      refine (h.regs.raise _ _ (by decide)).trans ((h.regs.bump _ (by decide)).trans ((h.bad _ _).trans ?_))
      exact (h.regs.wr _ _ (by decide)).trans (h.regs.wr _ _ (by decide))
    · exact (h.regs.bump _ (by decide)).trans (h.cache _ s)

theorem ownCheck_keeps (port code : Nat) (world : Bool) (inst a : Nat) (write : Bool) (s : State) : f (ownCheck port code world inst a write s).2 = f s := by
  have hviolate (c : Nat) (t : State) : f (violate code world inst a write c t) = f t := violate_blind h ..
  have hlook := ownLookup_blind h port a s
  unfold ownCheck
  split
  · exact (h.regs.bump _ (by decide)).trans (hviolate 3 s)
  split
  · rfl
  split
  · rfl
  split
  · exact hviolate 0 s
  split
  · next t e => exact (h.event _ (by decide)).trans ((hviolate 1 t).trans (snd_keeps e hlook))
  · next x t e =>
    split
    · exact snd_keeps e hlook
    · exact (hviolate 0 t).trans (snd_keeps e hlook)

theorem rangeCheck_keeps (w : Ident) (write : Bool) (a n : Nat) (s : State) : f (rangeCheck w write a n s).2 = f s := by
  induction n generalizing a s with
  | zero => rfl
  | succ n ih =>
    have hcheck := ownCheck_keeps h w.port w.code w.world w.inst a write s
    unfold rangeCheck
    split
    · next t e => exact snd_keeps e hcheck
    · next t e => exact (ih _ t).trans (snd_keeps e hcheck)

theorem dmaCheck_keeps (w : Ident) (write : Bool) (a n : Nat) (s : State) : f (dmaCheck w write a n s).2 = f s := by
  unfold dmaCheck
  split
  · rfl
  split
  · exact logUnmapped_keeps h ..
  · exact rangeCheck_keeps h ..

theorem dmaRead_keeps (w : Ident) (a n : Nat) (s : State) : f (dmaRead w a n s).2 = f s := by
  have hcheck := dmaCheck_keeps h w false a n s
  unfold dmaRead
  split
  · next t e => exact snd_keeps e hcheck
  · next t e => exact snd_keeps e hcheck

theorem unitRead_keeps (w : Ident) (a n : Nat) (s : State) : f (unitRead w a n s).2 = f s := by
  have hrange := rangeCheck_keeps h w false a ((a + n - 1) / 4096 + 1 - a / 4096) s
  unfold unitRead
  split
  · rfl
  split
  · exact logUnmapped_keeps h ..
  split
  · next t e => exact snd_keeps e hrange
  · next t e => exact snd_keeps e hrange

theorem dmaWrite_keeps (hmwr : ∀ a v s, f (mwr a v s) = f s) (w : Ident) (a : Nat) (d : List Byte) (s : State) : f (dmaWrite w a d s).2 = f s := by
  have hcheck := dmaCheck_keeps h w true a d.length s
  unfold dmaWrite
  split
  · next t e => exact snd_keeps e hcheck
  · next t e => exact (mwrBytes_keeps hmwr a d t).trans (snd_keeps e hcheck)

end

theorem accessBlind_mem : AccessBlind State.mem := accessBlind_of_regs (fun _ _ => rfl) (fun _ _ => rfl) fun _ _ => rfl

theorem accessBlind_dram : AccessBlind State.dram := accessBlind_of_regs (fun _ _ => rfl) (fun _ _ => rfl) fun _ _ => rfl

theorem dmaRead_sameMem (w : Ident) (a n : Nat) (s : State) : SameMem s (dmaRead w a n s).2 :=
  sameMem_of (dmaRead_keeps accessBlind_mem w a n s) (dmaRead_keeps accessBlind_dram w a n s)

theorem unitRead_sameMem (w : Ident) (a n : Nat) (s : State) : SameMem s (unitRead w a n s).2 :=
  sameMem_of (unitRead_keeps accessBlind_mem w a n s) (unitRead_keeps accessBlind_dram w a n s)

end Sys2Proof.Machine

/-!
Commands to the settings flash (O54).
-/
namespace Sys2Proof.Machine

section
variable {s : State}

/-! ### What the bytes hold after an erase and a program (R518) -/

theorem frd_ferase (a n b : Nat) (s : State) : frd b (ferase a n s) = if a ≤ b ∧ b < a + n then 0xFF else frd b s := sget_sdrop ..

theorem frd_fprog (a b : Nat) (v : Byte) (s : State) : frd b (fprog a v s) = if b = a then v &&& frd a s else frd b s := sget_sput ..

theorem frd_fprogBytes_other (a : Nat) (d : List Byte) (b : Nat) (s : State) (h : b < a ∨ a + d.length ≤ b) : frd b (fprogBytes a d s) = frd b s := by
  induction d generalizing a s with
  | nil => rfl
  | cons v d ih =>
    rw [List.length_cons] at h
    rw [fprogBytes, ih (a + 1) _ (by omega), frd_fprog, if_neg (by omega)]

/-- A program can only clear bits. -/
theorem frd_fprogBytes_at (a : Nat) (d : List Byte) (k : Nat) (v : Byte) (s : State) (h : d[k]? = some v) : frd (a + k) (fprogBytes a d s) = v &&& frd (a + k) s := by
  induction d generalizing a k s with
  | nil => exact absurd h nofun
  | cons x d ih =>
    cases k with
    | zero =>
      obtain rfl : x = v := Option.some.inj h
      rw [fprogBytes, frd_fprogBytes_other _ _ _ _ (.inl (Nat.lt_succ_self _)), frd_fprog, Nat.add_zero, if_pos rfl]
    | succ k =>
      rw [fprogBytes, show a + (k + 1) = a + 1 + k by omega, ih (a + 1) k _ h, frd_fprog, if_neg (by omega)]

/-! ### The end of a command (R518, R520) -/

/-- What the end of a command shows, before a crash sequence that waits takes the interface. -/
def xspiShown (st : Status) (verify : Bool) (s : State) : State :=
  s |> fput F.SYSCTL_XSPI_CMD_BUSY 0 |> fput F.SYSCTL_XSPI_STAT_LAST st.code |> fput F.SYSCTL_XSPI_STAT_VERIFY verify.toNat |> fput F.SYSCTL_XSPI_STAT_SUSPENDED 0

theorem xspiEnd_eq (st : Status) (v : Bool) (s : State) : xspiEnd st v s = whenB (!s.sig.images.isEmpty) (fput F.SYSCTL_XSPI_STAT_CRASH_ACTIVE 1)
    (whenB (st != .done) (raise F.SYSCTL_XSPI_EVENT_EVENT 1) (raise F.SYSCTL_XSPI_EVENT_EVENT 0 (xspiShown st v (updBoot (fun b => { b with cmd := none }) s)))) := rfl

/-- What sees neither CRASH_ACTIVE nor the events sees of an end what it shows. -/
theorem xspiEnd_keeps {α : Type} {f : State → α} (hc : ∀ s, f (fput F.SYSCTL_XSPI_STAT_CRASH_ACTIVE 1 s) = f s) (he : ∀ n s, f (raise F.SYSCTL_XSPI_EVENT_EVENT n s) = f s)
    (st : Status) (v : Bool) (s : State) : f (xspiEnd st v s) = f (xspiShown st v (updBoot (fun b => { b with cmd := none }) s)) := by
  rw [xspiEnd_eq, whenB_keeps hc, whenB_keeps (he 1), he]

theorem xspiShown_fields (st : Status) (h : st.code < 256) (v : Bool) (s : State) : fget F.SYSCTL_XSPI_CMD_BUSY (xspiShown st v s) = 0 ∧
    fget F.SYSCTL_XSPI_STAT_LAST (xspiShown st v s) = st.code ∧ ftst F.SYSCTL_XSPI_STAT_VERIFY (xspiShown st v s) = v := by
  refine ⟨?_, ?_, ?_⟩
  · simp (disch := decide) only [xspiShown, fget_fput_other, fget_fput_same, Nat.zero_mod]
  · simp (disch := decide) only [xspiShown, fget_fput_beside, fget_fput_same]
    exact Nat.mod_eq_of_lt h
  · simp (disch := decide) only [xspiShown, ftst_fput_beside, ftst_fput_toNat]

theorem xspiEnd_done_event (st : Status) (v : Bool) (s : State) : fbit F.SYSCTL_XSPI_EVENT_EVENT 0 (xspiEnd st v s) = true := by
  rw [xspiEnd_eq, whenB_keeps fun s => fbit_fput_other _ _ _ _ s (by decide)]
  unfold whenB
  split
  · exact fbit_raise_beside _ _ _ _ _ (fbit_raise _ _ _ (by decide))
  · exact fbit_raise _ _ _ (by decide)

theorem xspiEnd_failed_event {st : Status} (h : st ≠ .done) (v : Bool) (s : State) : fbit F.SYSCTL_XSPI_EVENT_EVENT 1 (xspiEnd st v s) = true := by
  rw [xspiEnd_eq, whenB_keeps fun s => fbit_fput_other _ _ _ _ s (by decide), whenB, if_pos (bne_iff_ne.2 h)]
  exact fbit_raise _ _ _ (by decide)

theorem xspiEnd_shows (st : Status) (v : Bool) (s : State) (h : st.code < 256) : let t := xspiEnd st v s
    t.boot.cmd = none ∧ fget F.SYSCTL_XSPI_CMD_BUSY t = 0 ∧ fget F.SYSCTL_XSPI_STAT_LAST t = st.code ∧ ftst F.SYSCTL_XSPI_STAT_VERIFY t = v ∧
    fbit F.SYSCTL_XSPI_EVENT_EVENT 0 t = true ∧ (st ≠ .done → fbit F.SYSCTL_XSPI_EVENT_EVENT 1 t = true) ∧ t.flash = s.flash := by
  obtain ⟨hbusy, hlast, hverify⟩ := xspiShown_fields st h v (updBoot (fun b => { b with cmd := none }) s)
  refine ⟨?_, ?_, ?_, ?_, xspiEnd_done_event st v s, fun hs => xspiEnd_failed_event hs v s, ?_⟩
  · exact xspiEnd_keeps (f := fun s => s.boot.cmd) (fun _ => rfl) (fun _ _ => rfl) st v s
  · exact (xspiEnd_keeps (f := fget F.SYSCTL_XSPI_CMD_BUSY) (fun s => fget_fput_other _ _ _ s (by decide)) (fun n s => fget_raise_other _ _ n s (by decide)) st v s).trans hbusy
  · exact (xspiEnd_keeps (f := fget F.SYSCTL_XSPI_STAT_LAST) (fun s => fget_fput_beside _ _ _ s rfl (by decide) (by decide)) (fun n s => fget_raise_other _ _ n s (by decide)) st v s).trans hlast
  · exact (xspiEnd_keeps (f := ftst F.SYSCTL_XSPI_STAT_VERIFY) (fun s => ftst_fput_beside _ _ _ s rfl (by decide) (by decide)) (fun n s => ftst_raise_other _ _ n s (by decide)) st v s).trans hverify
  · exact xspiEnd_keeps (f := State.flash) (fun _ => rfl) (fun _ _ => rfl) st v s

/-! ### Why a command is refused (R518) -/

/-- Whether the form of an operation refuses a range: a program lies in one page of 4 KiB, an erase begins at a multiple of its size. -/
def formRefused (op a n : Nat) : Bool := if op = 3 then n == 0 || decide (4096 < n) || decide (a / 4096 ≠ (a + n - 1) / 4096) else a % n != 0

theorem formRefused_iff (op a n : Nat) : formRefused op a n = true ↔
    (op = 3 ∧ (n = 0 ∨ 4096 < n ∨ a / 4096 ≠ (a + n - 1) / 4096)) ∨ (op ≠ 3 ∧ a % n ≠ 0) := by
  rw [formRefused]
  split
  · next h => simp [h, or_assoc]
  · next h => simp [h]

/-- Whether a slot's extent refuses a range, as the flash unit computes it. -/
def slotStops (a n : Nat) (s : State) (k : Nat) : Bool := (inSlot k a n s).1 && (!(inSlot k a n s).2 || fget F.SYSCTL_BOOT_STATUS_SLOT s == k)

theorem xspiRefused_eq (op a n : Nat) (s : State) : xspiRefused op a n s =
    (decide (flashSize s < a + n) || slotStops a n s 0 || slotStops a n s 1 || (decide (a < 0x1000000) && decide (0x500000 < a + n)) || formRefused op a n) := rfl

/-- Whether a slot refuses a range: the range lies in it, but not wholly, or the block runs from it. -/
def slotRefuses (a n : Nat) (s : State) (k : Nat) : Prop := a < slotBase k s + slotSize s ∧ slotBase k s < a + n ∧
  (¬(slotBase k s ≤ a ∧ a + n ≤ slotBase k s + slotSize s) ∨ fget F.SYSCTL_BOOT_STATUS_SLOT s = k)

theorem slotStops_iff (a n : Nat) (s : State) (k : Nat) : slotStops a n s k = true ↔ slotRefuses a n s k := by
  have hin : inSlot k a n s = (decide (a < slotBase k s + slotSize s) && decide (slotBase k s < a + n),
    decide (slotBase k s ≤ a) && decide (a + n ≤ slotBase k s + slotSize s)) := rfl
  simp only [slotStops, hin, slotRefuses, Bool.and_eq_true, Bool.or_eq_true, Bool.not_eq_true', Bool.and_eq_false_iff, decide_eq_true_eq, decide_eq_false_iff_not, beq_iff_eq,
    and_assoc, not_and_or]

theorem exists_slot_iff {P : Nat → Prop} : (∃ k, k < 2 ∧ P k) ↔ P 0 ∨ P 1 := by
  constructor
  · rintro ⟨k, hk, h⟩
    obtain rfl | rfl : k = 0 ∨ k = 1 := by omega
    · exact .inl h
    · exact .inr h
  · rintro (h | h)
    · exact ⟨0, by decide, h⟩
    · exact ⟨1, by decide, h⟩

theorem xspiRefused_iff (op a n : Nat) (s : State) : xspiRefused op a n s = true ↔ flashSize s < a + n ∨ (a < 0x1000000 ∧ 0x500000 < a + n) ∨
    (op = 3 ∧ (n = 0 ∨ 4096 < n ∨ a / 4096 ≠ (a + n - 1) / 4096)) ∨ (op ≠ 3 ∧ a % n ≠ 0) ∨ ∃ k, k < 2 ∧ slotRefuses a n s k := by
  rw [xspiRefused_eq, exists_slot_iff]
  simp only [Bool.or_eq_true, Bool.and_eq_true, decide_eq_true_eq, slotStops_iff, formRefused_iff]
  exact iff_of_eq (by ac_rfl)

/-! ### The start of a command (R518) -/

section
variable {w : Initiator} {op : Nat} {e : BusEnd} {u : State}

/-- The number of bytes of a command. -/
def xspiLen (op : Nat) (s : State) : Nat := if op = 1 then 4096 else if op = 2 then 65536 else fget F.SYSCTL_XSPI_LEN s

theorem xspiLen_erase4k : xspiLen 1 s = 4096 := if_pos rfl

theorem xspiLen_erase64k : xspiLen 2 s = 65536 := (if_neg (by decide)).trans (if_pos rfl)

theorem xspiLen_program (s : State) : xspiLen 3 s = fget F.SYSCTL_XSPI_LEN s := (if_neg (by decide)).trans (if_neg (by decide))

/-- A command under way, with its bytes. -/
def xspiBegun (op a n : Nat) (d : List Byte) (s : State) : State :=
  fput F.SYSCTL_XSPI_CMD_BUSY 1 (updBoot (fun b => { b with cmd := some ⟨op, a, n, d, ftst F.SYSCTL_XSPI_STAT_CRASH_ACTIVE s, s.now + 2000000000, s.now, none⟩ }) s)

/-- Where a program reads its bytes. -/
def xspiSrc (s : State) : Nat := (rd R.SYSCTL_XSPI_SRC_LO s).toNat + 2 ^ 32 * fget F.SYSCTL_XSPI_SRC_HI s

theorem xspiCmd_busy (h : ftst F.SYSCTL_XSPI_CMD_BUSY s = true) : xspiCmd w op e s = bad s := if_pos h

theorem xspiCmd_refused (hb : ftst F.SYSCTL_XSPI_CMD_BUSY s = false) (hr : xspiRefused op (fget F.SYSCTL_XSPI_ADDR s) (xspiLen op s) s = true) :
    xspiCmd w op e s = xspiEnd .failedRefused false s := by
  rw [xspiLen] at hr
  simp only [xspiCmd, hb, hr, Bool.false_eq_true, if_false, if_true]

section
variable (hb : ftst F.SYSCTL_XSPI_CMD_BUSY s = false) (hr : xspiRefused op (fget F.SYSCTL_XSPI_ADDR s) (xspiLen op s) s = false) {d : List Byte} {x : State}
include hb hr

/-- A command that is taken is under way once its bytes are read. -/
theorem xspiCmd_begun (hs : xspiSource w op (xspiLen op s) e s = (.done, d, x)) : xspiCmd w op e s = xspiBegun op (fget F.SYSCTL_XSPI_ADDR s) (xspiLen op s) d x := by
  rw [xspiLen] at hr hs
  simp only [xspiCmd, hb, hr, hs, Bool.false_eq_true, if_false, xspiBegun, xspiLen]

/-- A command whose bytes cannot be read ends at once. -/
theorem xspiCmd_unread {st : Status} (hst : st ≠ .done) (hs : xspiSource w op (xspiLen op s) e s = (st, d, x)) : xspiCmd w op e s = xspiEnd st false x := by
  rw [xspiLen] at hr hs
  simp only [xspiCmd, hb, hr, hs, Bool.false_eq_true, if_false]

end

theorem xspiSource_erase (h : op ≠ 3) (n : Nat) : xspiSource w op n e s = (.done, [], s) := if_pos h

theorem xspiSource_busError (n : Nat) : xspiSource w 3 n .busError s = (.failedBus, [], s) := rfl

theorem xspiSource_eccError (n : Nat) : xspiSource w 3 n .eccError s = (.failedEcc, [], s) := rfl

theorem xspiSource_read {n : Nat} {d : List Byte} (h : (unitRead (initIdent w s) (xspiSrc s) n s).1 = some d) :
    xspiSource w 3 n .ok s = (.done, d, (unitRead (initIdent w s) (xspiSrc s) n s).2) := by
  have hpair : unitRead (initIdent w s) (xspiSrc s) n s = (some d, (unitRead (initIdent w s) (xspiSrc s) n s).2) := Prod.ext h rfl
  have hsource : xspiSource w 3 n .ok s = match unitRead (initIdent w s) (xspiSrc s) n s with
      | (none, s) => (.failedBus, [], s)
      | (some d, s) => (.done, d, s) := rfl
  rw [hsource, hpair]

theorem xspiBegun_shows (op a n : Nat) (d : List Byte) (s : State) : fget F.SYSCTL_XSPI_CMD_BUSY (xspiBegun op a n d s) = 1 ∧
    (xspiBegun op a n d s).boot.cmd = some ⟨op, a, n, d, ftst F.SYSCTL_XSPI_STAT_CRASH_ACTIVE s, s.now + 2000000000, s.now, none⟩ ∧
    (xspiBegun op a n d s).flash = s.flash ∧ SameMem s (xspiBegun op a n d s) :=
  ⟨fget_fput_fits _ _ (by decide) (by decide), rfl, rfl, fun _ => rfl⟩

section
variable {c : Instr} {k n : Nat} (hx : exec c s = .next (xspiCmd w k e u)) (hn : xspiLen k u = n)
include hx hn

/-- A command that writes XSPI_CMD, where the interface is busy or the range is refused. -/
theorem exec_xspiCmd_refused : (ftst F.SYSCTL_XSPI_CMD_BUSY u = true → exec c s = .next (bad u)) ∧
    (ftst F.SYSCTL_XSPI_CMD_BUSY u = false → xspiRefused k (fget F.SYSCTL_XSPI_ADDR u) n u = true → exec c s = .next (xspiEnd .failedRefused false u)) :=
  ⟨fun hb => hx.trans (congrArg _ (xspiCmd_busy hb)), fun hb hr => hx.trans (congrArg _ (xspiCmd_refused hb (hn ▸ hr)))⟩

/-- An erase that is taken. -/
theorem does_xspiCmd_erase (hk : k ≠ 3) (hb : ftst F.SYSCTL_XSPI_CMD_BUSY u = false) (hr : xspiRefused k (fget F.SYSCTL_XSPI_ADDR u) n u = false) :
    Does c s fun t => fget F.SYSCTL_XSPI_CMD_BUSY t = 1 ∧ t.boot.cmd = some ⟨k, fget F.SYSCTL_XSPI_ADDR u, n, [], ftst F.SYSCTL_XSPI_STAT_CRASH_ACTIVE u,
      u.now + 2000000000, u.now, none⟩ ∧ t.flash = u.flash ∧ SameMem u t := by
  subst hn
  rw [xspiCmd_begun hb hr (xspiSource_erase hk _)] at hx
  exact does_of hx (xspiBegun_shows ..)

end

/-- A program that is taken. -/
theorem exec_program_taken {c : Instr} (hx : exec c s = .next (xspiCmd w 3 e u)) (hb : ftst F.SYSCTL_XSPI_CMD_BUSY u = false)
    (hr : xspiRefused 3 (fget F.SYSCTL_XSPI_ADDR u) (fget F.SYSCTL_XSPI_LEN u) u = false) :
    (e = .busError → exec c s = .next (xspiEnd .failedBus false u)) ∧ (e = .eccError → exec c s = .next (xspiEnd .failedEcc false u)) ∧
    (∀ d, e = .ok → (unitRead (initIdent w u) (xspiSrc u) (fget F.SYSCTL_XSPI_LEN u) u).1 = some d → Does c s fun t => fget F.SYSCTL_XSPI_CMD_BUSY t = 1 ∧
      (∃ y, t.boot.cmd = some y ∧ y.op = 3 ∧ y.addr = fget F.SYSCTL_XSPI_ADDR u ∧ y.len = fget F.SYSCTL_XSPI_LEN u ∧ y.data = d) ∧ t.flash = u.flash ∧ SameMem u t) := by
  refine ⟨?_, ?_, ?_⟩
  · rintro rfl
    exact hx.trans (congrArg _ (xspiCmd_unread hb hr nofun (xspiSource_busError _)))
  · rintro rfl
    exact hx.trans (congrArg _ (xspiCmd_unread hb hr nofun (xspiSource_eccError _)))
  · rintro d rfl hd
    rw [xspiCmd_begun hb hr (xspiSource_read hd)] at hx
    obtain ⟨hbusy, hcmd, hflash, hmem⟩ := xspiBegun_shows 3 (fget F.SYSCTL_XSPI_ADDR u) (xspiLen 3 u) d (unitRead (initIdent w u) (xspiSrc u) (xspiLen 3 u) u).2
    refine does_of hx ⟨hbusy, ⟨_, hcmd, rfl, rfl, rfl, rfl⟩, hflash.trans ?_, ?_⟩
    · exact unitRead_keeps (f := State.flash) (accessBlind_of_regs (fun _ _ => rfl) (fun _ _ => rfl) fun _ _ => rfl) ..
    · exact SameMem.trans (unitRead_sameMem (initIdent w u) (xspiSrc u) (xspiLen 3 u) u) hmem

end

/-! ### Ends, suspension and resumption of a command that runs (R518, R519) -/

section
variable {c : XspiCmd} (hc : s.boot.cmd = some c)
include hc

theorem xspiRunning_of (hw : c.waiting = false) (hs : c.susp = none) : xspiRunning s = some c := by
  simp [xspiRunning, hc, hw, hs]

theorem exec_cmdDone_erase (hw : c.waiting = false) (hs : c.susp = none) (ho : c.op ≠ 3) (d : Bool) :
    exec (.cmdDone d) s = .next (xspiEnd .done false (ferase c.addr c.len s)) := by
  change execCmdDone d s = _
  simp only [execCmdDone, xspiRunning_of hc hw hs, if_pos ho]

theorem exec_cmdDone_program (hw : c.waiting = false) (hs : c.susp = none) (ho : c.op = 3) (d : Bool) : exec (.cmdDone d) s = .next (
    if d then xspiEnd .failedBus true (flashOpen c.addr c.len s)
    else if frdBytes c.addr c.len (fprogBytes c.addr c.data s) = c.data then xspiEnd .done false (fprogBytes c.addr c.data s)
    else xspiEnd .failedBus true (fprogBytes c.addr c.data s)) := by
  change execCmdDone d s = _
  simp only [execCmdDone, xspiRunning_of hc hw hs, if_neg (not_not.2 ho), beq_iff_eq]

theorem exec_xspiBusyTimeout_due (hw : c.waiting = false) (hs : c.susp = none) (ht : c.due ≤ s.now) :
    exec .xspiBusyTimeout s = .next (xspiEnd .failedTimeout false (flashOpen c.addr c.len s)) := by
  change execXspiBusyTimeout s = _
  simp only [execXspiBusyTimeout, xspiRunning_of hc hw hs, elapseTo_past ht]

theorem exec_xspiSuspend_granted (hw : c.waiting = false) (hs : c.susp = none) (ht : c.grant ≤ s.now) :
    exec .xspiSuspend s = .next (fput F.SYSCTL_XSPI_STAT_SUSPENDED 1 (updBoot (fun b => { b with cmd := some { c with susp := some s.now } }) s)) := by
  change execXspiSuspend s = _
  simp only [execXspiSuspend, xspiRunning_of hc hw hs, elapseTo_past ht]

theorem exec_xspiResume_due {t : Nat} (hs : c.susp = some t) (ht : t + 20000 ≤ s.now) : exec .xspiResume s = .next (fput F.SYSCTL_XSPI_STAT_SUSPENDED 0
    (updBoot (fun b => { b with cmd := some { c with susp := none, due := c.due + (s.now - t), grant := s.now + 200000 } }) s)) := by
  change execXspiResume s = _
  simp only [execXspiResume, hc, hs, elapseTo_past ht]

end

end

/-- Settles O54: a command by whether it is taken and what its source gives, its end by the outcome and what it leaves in the flash. -/
theorem flashCommands : Obligations.FlashCommands := by
  refine ⟨fun w op e s hl hw => ?_, xspiRefused_iff, fun c s hc hw => ⟨fun hs ho => exec_cmdDone_erase hc hw hs ho, fun hs ho => ?_, exec_xspiBusyTimeout_due hc hw,
      exec_xspiSuspend_granted hc hw, fun t => exec_xspiResume_due hc⟩, frd_ferase,
    fun a d b s => ⟨frd_fprogBytes_other a d b s, fun k v => frd_fprogBytes_at a d k v s⟩, fun st v s => xspiEnd_shows st v s⟩
  · match op with
    | 0 =>
      have hx : exec (.erase4k w) s = .next (xspiCmd w 1 .ok (ok (entered w R.SYSCTL_XSPI_CMD s))) := congrArg _ (regCmd_hearth hl hw _)
      obtain ⟨hbusy, hrefused⟩ := exec_xspiCmd_refused hx xspiLen_erase4k
      have herase := does_xspiCmd_erase hx xspiLen_erase4k (by decide)
      exact ⟨hbusy, hrefused, fun hb hr _ => herase hb hr, fun _ _ h => absurd h (by decide)⟩
    | 1 =>
      have hx : exec (.erase64k w) s = .next (xspiCmd w 2 .ok (ok (entered w R.SYSCTL_XSPI_CMD s))) := congrArg _ (regCmd_hearth hl hw _)
      obtain ⟨hbusy, hrefused⟩ := exec_xspiCmd_refused hx xspiLen_erase64k
      have herase := does_xspiCmd_erase hx xspiLen_erase64k (by decide)
      exact ⟨hbusy, hrefused, fun hb hr _ => herase hb hr, fun _ _ h => absurd h (by decide)⟩
    | 2 =>
      have hx : exec (.program w e) s = .next (xspiCmd w 3 e (ok (entered w R.SYSCTL_XSPI_CMD s))) := congrArg _ (regCmd_hearth hl hw _)
      obtain ⟨hbusy, hrefused⟩ := exec_xspiCmd_refused hx (xspiLen_program _)
      exact ⟨hbusy, hrefused, fun _ _ h => absurd rfl h, fun hb hr _ => exec_program_taken hx hb hr⟩
  · refine ⟨exec_cmdDone_program hc hw hs ho true, fun hd => ?_, fun hd => ?_⟩
    · exact (exec_cmdDone_program hc hw hs ho false).trans (congrArg _ (if_pos hd))
    · exact (exec_cmdDone_program hc hw hs ho false).trans (congrArg _ (if_neg hd))

end Sys2Proof.Machine

/-!
What the end of a crypto job shows in: its counts, its report to the submitter, and the jobs outstanding (R548, R559; O56, O57).
-/
namespace Sys2Proof.Machine

/-- The registers that the end of a job may write, but for the fill of the queue. -/
abbrev jobReg (a : Nat) : Prop := a ∈ [R.KEY_JOBS, R.KEY_REFUSED, R.KEY_TAMPER_ABORTS, R.KEY_EVENT, R.KEY_JQ_STAT]

/-- What the end of a job does not show in. -/
structure JobBlind {α : Type} (f : State → α) : Prop extends AccessBlind f where
  jobs : Beside jobReg f
  fill : ∀ v s, f (fput F.KEY_STATUS_QUEUE_FILL v s) = f s
  mem : ∀ a v s, f (mwr a v s) = f s
  coll : ∀ l s, f (updKey (fun k => { k with coll := k.coll ++ l }) s) = f s
  done : ∀ d s, f (vqiFinish d s) = f s

section
variable {α : Type} {f : State → α} (h : JobBlind f)
include h

theorem cryTally_keeps (st : Status) (s : State) : f (cryTally st s) = f s := by
  have hjobs : f (bump R.KEY_JOBS s) = f s := h.jobs.bump s (by decide)
  unfold cryTally
  extract_lets u
  split
  · exact (h.jobs.bump u (by decide)).trans hjobs
  · exact (h.jobs.bump u (by decide)).trans hjobs
  · exact hjobs

theorem cryReport_keeps (j : CryJob) (st : Status) (s : State) : f (cryReport j st s) = f s := by
  unfold cryReport
  split
  · split
    · rfl
    · exact h.coll _ s
  · exact (h.jobs.raise _ _ (by decide)).trans (dmaWrite_keeps h.toAccessBlind h.mem ..)
  · exact h.done _ s

theorem cryShow_keeps (s : State) : f (cryShow s) = f s := (h.jobs.fput _ _ (by decide)).trans (h.fill _ s)

theorem cryEnd_keeps (j : CryJob) (st : Status) (s : State) : f (cryEnd j st s) = f s :=
  (cryShow_keeps h _).trans ((cryReport_keeps h j st _).trans (cryTally_keeps h st s))

end

/-- A register is blind to the end of a job beside those that it writes. -/
theorem jobBlind_rd {a : Nat} (h : ¬ accessReg a) (he : a ≠ R.OWN_EVENT) (hj : ¬ jobReg a) (hs : a ≠ R.KEY_STATUS) : JobBlind (rd a) where
  toAccessBlind := accessBlind_rd h he
  jobs := beside_rd hj
  fill v s := rd_fput_other F.KEY_STATUS_QUEUE_FILL v s hs
  mem _ _ _ := rfl
  coll _ _ := rfl
  done _ _ := rfl

/-- A field of KEY_STATUS is blind to the end of a job beside the fill of the queue. -/
theorem jobBlind_keyStatus {g : Fld} (ha : g.addr = R.KEY_STATUS) (hi : g.hi < 32) (hd : g.hi < F.KEY_STATUS_QUEUE_FILL.lo ∨ F.KEY_STATUS_QUEUE_FILL.hi < g.lo) : JobBlind (fget g) where
  toAccessBlind := accessBlind_fget (by rw [ha]; decide) (by rw [ha]; decide)
  jobs := beside_fget (by rw [ha]; decide)
  fill v s := fget_fput_beside F.KEY_STATUS_QUEUE_FILL g v s ha hi hd
  mem _ _ _ := rfl
  coll _ _ := rfl
  done _ _ := rfl

/-- What holds no register, no record of ownership and no word known as bad is blind to the end of a job, if it sees no memory, no collected status and no item done. -/
theorem jobBlind_of_access {α : Type} {f : State → α} (h : AccessBlind f) (hregs : ∀ l s, f { s with regs := l } = f s) (hmem : ∀ a v s, f (mwr a v s) = f s)
    (hcoll : ∀ l s, f (updKey (fun k => { k with coll := k.coll ++ l }) s) = f s) (hdone : ∀ d s, f (vqiFinish d s) = f s) : JobBlind f :=
  ⟨h, beside_of_regs hregs, fun _ s => hregs _ s, hmem, hcoll, hdone⟩

/-- The keys and the jobs that wait and run. -/
def keyHeld (s : State) : Vector (List Byte) 128 × List CryJob × Option CryRun × Option CryRun := (s.key.keys, s.key.queue, s.key.sym, s.key.pk)

theorem jobBlind_keyHeld : JobBlind keyHeld :=
  jobBlind_of_access (accessBlind_of_regs (fun _ _ => rfl) (fun _ _ => rfl) fun _ _ => rfl) (fun _ _ => rfl) (fun _ _ _ => rfl) (fun _ _ => rfl) fun _ _ => rfl

end Sys2Proof.Machine

/-!
Quench and the commands of the tamper block (O57).
-/
namespace Sys2Proof.Machine

section
variable {s : State}

/-! ### Quench (R509, R555, R556) -/

/-- The registers that the end of a migration may write. -/
abbrev migReg (a : Nat) : Prop := a ∈ [R.VQI_MIG_CMD, R.VQI_MIG_STAT, R.VQI_MGR_EVENT]

theorem migEnd_keeps {α : Type} {f : State → α} (h : Beside migReg f) (hv : ∀ v s, f { s with vqi := v } = f s) (st : Status) (reason : Nat) (s : State) :
    f (migEnd st reason s) = f s := by
  rw [migEnd, h.raise _ _ (by decide), h.fput _ _ (by decide), h.fput _ _ (by decide), h.fput _ _ (by decide)]
  exact hv _ s

theorem migAbort_keeps {α : Type} {f : State → α} (h : Beside migReg f) (hv : ∀ v s, f { s with vqi := v } = f s) (st : Status) (s : State) : f (migAbort st s) = f s := by
  unfold migAbort
  split
  · exact migEnd_keeps h hv st 0 s
  · rfl

/-- What a quench makes of the keys: every part is empty, and the crash image's job is cut. -/
def quenchKeys (s : State) : State :=
  crashAbort (clearKeys (if (List.finRange 128).any fun p => partValid p s then s else fput F.SYSCTL_BOOT_STATUS_KEYLESS 1 s))

/-- What a quench shows in the registers of the tamper block and of the keys. -/
def quenchMarks (src : Fin 7) (first : Bool) (rtc : Nat) (s : State) : State :=
  whenB first (fun s => s |> wr R.TAMP_FIRST_RTC_LO (BitVec.ofNat 32 rtc) |> wr R.TAMP_FIRST_RTC_HI (BitVec.ofNat 32 (rtc / 2 ^ 32)))
    (s |> fput F.KEY_STATUS_ROOT_BLOCKED 1 |> fput F.TAMP_STATUS_ROOT_BLOCKED 1 |> fput F.TAMP_STATUS_TAMPER_LATCH 1 |> raise F.TAMP_CAUSE src.1 |> bump R.TAMP_COUNT)

/-- What a quench leaves of the jobs: those that name no key. -/
def quenchJobs (s : State) : State := updKey (fun k => { k with sym := none, pk := none, queue := k.queue.filter fun j => !namesKey j }) s

/-- A quench, before the jobs and the migration that it cuts are ended. -/
def quenchCut (src : Fin 7) (s : State) : State := quenchJobs (quenchMarks src (rd R.TAMP_COUNT s == 0) (rtcCount s) (quenchKeys s))

theorem quench_eq (src : Fin 7) (s : State) : quench src s = (s.key.queue.filter namesKey).foldl (fun s j => cryEnd j .abortedTamper s)
    (migAbort .abortedTamper ((s.key.sym.toList ++ s.key.pk.toList).foldl (fun s r => cryEnd r.job (r.job.drop.getD .abortedTamper) s) (quenchCut src s))) := rfl

theorem quench_keeps {α : Type} {f : State → α} (h : JobBlind f) (hm : Beside migReg f) (hv : ∀ v s, f { s with vqi := v } = f s) (src : Fin 7) (s : State) :
    f (quench src s) = f (quenchCut src s) := by
  rw [quench_eq, foldl_keeps fun s j => cryEnd_keeps h j _ s, migAbort_keeps hm hv, foldl_keeps fun s r => cryEnd_keeps h _ _ s]

theorem keyHeld_quench (src : Fin 7) (s : State) : keyHeld (quench src s) = keyHeld (quenchCut src s) :=
  quench_keeps jobBlind_keyHeld (beside_of_regs fun _ _ => rfl) (fun _ _ => rfl) src s

theorem rd_quench {a : Nat} (h : ¬ accessReg a) (he : a ≠ R.OWN_EVENT) (hj : ¬ jobReg a) (hs : a ≠ R.KEY_STATUS) (hm : ¬ migReg a) (src : Fin 7) (s : State) :
    rd a (quench src s) = rd a (quenchCut src s) := quench_keeps (jobBlind_rd h he hj hs) (beside_rd hm) (fun _ _ => rfl) src s

theorem quenchMarks_key (src : Fin 7) (first : Bool) (rtc : Nat) (s : State) : (quenchMarks src first rtc s).key = s.key := by
  cases first <;> rfl

/-- The parts lie beside what a quench shows. -/
theorem partAttr_quenchMarks (p : Fin 128) (src : Fin 7) (first : Bool) (rtc : Nat) (s : State) : partAttr p (quenchMarks src first rtc s) = partAttr p s := by
  rw [partAttr, quenchMarks, whenB_keeps (f := rd _)]
  · simp (disch := simp only [F.KEY_STATUS_ROOT_BLOCKED, F.TAMP_STATUS_ROOT_BLOCKED, F.TAMP_STATUS_TAMPER_LATCH, F.TAMP_CAUSE, R.KEY_STATUS, R.TAMP_STATUS, R.TAMP_CAUSE, R.TAMP_COUNT,
      R.KEY_ATTR_s_h]; omega) only [rd_bump_other, rd_raise_other, rd_fput_other, partAttr]
  · intro u
    simp (disch := simp only [R.TAMP_FIRST_RTC_HI, R.TAMP_FIRST_RTC_LO, R.KEY_ATTR_s_h]; omega) only [rd_wr_other]

theorem partHeld_crashAbort (p : Fin 128) (s : State) : partHeld p (crashAbort s) = partHeld p s := rfl

theorem partHeld_quenchCut (p : Fin 128) (src : Fin 7) (s : State) : partHeld p (quenchCut src s) = ([], 0) := by
  have hkeys : (quenchCut src s).key.keys = (quenchKeys s).key.keys := by
    rw [quenchCut, quenchJobs, updKey, quenchMarks_key]
  have hattr : partAttr p (quenchCut src s) = partAttr p (quenchKeys s) := partAttr_quenchMarks ..
  rw [partHeld, hattr, hkeys, ← partHeld, quenchKeys, partHeld_crashAbort, partHeld_clearKeys]

theorem slots_beside {a : Nat} (h : inSlots a) : ¬ accessReg a ∧ a ≠ R.OWN_EVENT ∧ ¬ jobReg a ∧ a ≠ R.KEY_STATUS ∧ ¬ migReg a := by
  simp only [inSlots] at h
  simp only [jobReg, accessReg, migReg, List.mem_cons, List.not_mem_nil, or_false, R.OWN_VIOL_CNT, R.OWN_EVENT, R.OWN_TONGS_BLOCKED_CNT, R.OWN_CACHE_MISS_CNT, R.MEM_ECC_LAST_LO,
    R.MEM_ECC_LAST_HI, R.MEM_ECC_UE_CNT, R.MEM_EVENT, R.MEM_UNMAP_CNT, R.MEM_UNMAP_LO, R.MEM_UNMAP_HI, R.KEY_JOBS, R.KEY_REFUSED, R.KEY_TAMPER_ABORTS, R.KEY_EVENT, R.KEY_JQ_STAT,
    R.KEY_STATUS, R.VQI_MIG_CMD, R.VQI_MIG_STAT, R.VQI_MGR_EVENT]
  omega

theorem partHeld_quench (p : Fin 128) (src : Fin 7) (s : State) : partHeld p (quench src s) = ([], 0) := by
  have hkeys : (quench src s).key.keys = (quenchCut src s).key.keys := congrArg Prod.fst (keyHeld_quench src s)
  have hattr : partAttr p (quench src s) = partAttr p (quenchCut src s) := by
    have hslot : inSlots (R.KEY_ATTR_s_h (p.1 / 2) (p.1 % 2)) := by simp only [inSlots, R.KEY_ATTR_s_h]; omega
    obtain ⟨haccess, hevent, hjob, hstatus, hmig⟩ := slots_beside hslot
    exact congrArg BitVec.toNat (rd_quench haccess hevent hjob hstatus hmig src s)
  rw [← partHeld_quenchCut p src s, partHeld, partHeld, hattr, hkeys]

theorem partValid_of_empty {p : Fin 128} (h : partHeld p s = ([], 0)) : s.key.keys[p.1] = [] ∧ partValid p s = false := by
  obtain ⟨hkey, hattr⟩ := Prod.mk.inj h
  exact ⟨hkey, by rw [partValid, hattr]; rfl⟩

/-- What the marks of a quench show, whatever a first alarm records beside them. -/
theorem quenchMarks_shows (src : Fin 7) (first : Bool) (rtc : Nat) (s : State) : let t := quenchMarks src first rtc s
    ftst F.KEY_STATUS_ROOT_BLOCKED t = true ∧ ftst F.TAMP_STATUS_ROOT_BLOCKED t = true ∧ ftst F.TAMP_STATUS_TAMPER_LATCH t = true ∧ fbit F.TAMP_CAUSE src.1 t = true := by
  have hcause : fbit F.TAMP_CAUSE src.1 (quenchMarks src first rtc s) = true := by
    rw [quenchMarks, whenB_keeps (f := fbit _ _)]
    · exact (fbit_bump_other F.TAMP_CAUSE src.1 _ (by decide)).trans <| fbit_raise _ _ _ (by show 0 + src.1 < 32; omega)
    · intro u
      exact fbit_congr _ _ ((rd_wr_other _ _ (by decide)).trans (rd_wr_other _ _ (by decide)))
  refine ⟨?_, ?_, ?_, hcause⟩
  all_goals
    rw [quenchMarks, whenB_keeps fun u => (ftst_wr_other _ _ _ (by decide)).trans (ftst_wr_other _ _ _ (by decide))]
    simp (disch := decide) only [ftst_bump_other, ftst_raise_other, ftst_fput_other, ftst_fput_beside, ftst_fput_one]

theorem quench_shows (src : Fin 7) (s : State) : let t := quench src s
    ftst F.KEY_STATUS_ROOT_BLOCKED t = true ∧ ftst F.TAMP_STATUS_ROOT_BLOCKED t = true ∧ ftst F.TAMP_STATUS_TAMPER_LATCH t = true ∧ fbit F.TAMP_CAUSE src.1 t = true := by
  obtain ⟨hkey, hroot, hlatch, hcause⟩ := quenchMarks_shows src (rd R.TAMP_COUNT s == 0) (rtcCount s) (quenchKeys s)
  have hblocked : fget F.KEY_STATUS_ROOT_BLOCKED (quench src s) = fget F.KEY_STATUS_ROOT_BLOCKED (quenchCut src s) :=
    quench_keeps (jobBlind_keyStatus rfl (by decide) (by decide)) (beside_fget (by decide)) (fun _ _ => rfl) src s
  have hstatus := rd_quench (a := R.TAMP_STATUS) (by decide) (by decide) (by decide) (by decide) (by decide) src s
  exact ⟨(ftst_of_fget hblocked).trans hkey, (ftst_of_fget (fget_congr _ hstatus)).trans hroot, (ftst_of_fget (fget_congr _ hstatus)).trans hlatch,
    (fbit_congr _ _ (rd_quench (by decide) (by decide) (by decide) (by decide) (by decide) src s)).trans hcause⟩

theorem quench_jobs (src : Fin 7) (s : State) : let t := quench src s
    t.key.sym = none ∧ t.key.pk = none ∧ ∀ j ∈ t.key.queue, namesKey j = false := by
  obtain ⟨-, hkey⟩ := Prod.mk.inj (keyHeld_quench src s)
  obtain ⟨hqueue, hkey⟩ := Prod.mk.inj hkey
  obtain ⟨hsym, hpk⟩ := Prod.mk.inj hkey
  refine ⟨hsym, hpk, fun j hj => ?_⟩
  rw [hqueue] at hj
  simpa using (List.mem_filter.1 hj).2

/-! ### What the latch refuses, and the sources watched (R554, R555) -/

theorem startRefused_latched {j : CryJob} (ho : j.op = 0x0A ∨ j.op = 0x0C ∨ j.op = 0x10) (hl : ftst F.TAMP_STATUS_TAMPER_LATCH s = true) : startRefused j s = true := by
  have hop : [0x0A, 0x0C, 0x10].contains j.op = true := by simpa using ho
  simp only [startRefused, hop, hl, Bool.and_self, Bool.or_true, Bool.true_or]

theorem tamperWatched_iff (src : Fin 7) (s : State) : tamperWatched src s = true ↔ (src = 5 ∧ ftst F.TAMP_CFG_TAMP0_EN s = true) ∨
    (src = 6 ∧ ftst F.TAMP_CFG_TAMP1_EN s = true) ∨ (src.1 < 5 ∧ (s.own.lc = 2 ∨ (src ≠ 4 ∧ ftst F.TAMP_CFG_INT_MASK s = false))) := by
  unfold tamperWatched lcProduction
  split_ifs with h5 h6 hlc
  · simp [h5]
  · simp [h6]
  · have hlt : src.1 < 5 := by omega
    simpa [h5, h6, hlt] using .inl (by simpa using hlc)
  · have hlt : src.1 < 5 := by omega
    have hne : s.own.lc ≠ 2 := by simpa using hlc
    simp [h5, h6, hlt, hne]

/-! ### The end of an alarm (R561) -/

theorem exec_tamperConditionCleared (src : Fin 7) (s : State) : exec (.tamperConditionCleared src) s = .next (
    let u := updKey (fun k => { k with alarms := k.alarms.filter fun x => x != src.1 }) s
    if u.key.alarms.isEmpty then fput F.TAMP_STATUS_ACTIVE 0 u else u) := rfl

theorem does_tamperConditionCleared (src : Fin 7) (s : State) : Does (.tamperConditionCleared src) s fun t => (∀ x, x ∈ t.key.alarms ↔ x ∈ s.key.alarms ∧ x ≠ src.1) ∧
    (t.key.alarms = [] → ftst F.TAMP_STATUS_ACTIVE t = false) ∧ (t.key.alarms ≠ [] → SameRegsBut [] s t) ∧ SameMem s t ∧ SameRegsBut [R.TAMP_STATUS] s t := by
  refine does_of (exec_tamperConditionCleared src s) ?_
  extract_lets u
  have hleft (x : Nat) : x ∈ u.key.alarms ↔ x ∈ s.key.alarms ∧ x ≠ src.1 := by
    show x ∈ s.key.alarms.filter _ ↔ _
    simp
  split
  next h =>
    refine ⟨hleft, fun _ => ftst_fput_zero _ _ (by decide), fun hne => absurd (List.isEmpty_iff.1 h) hne, fun _ => rfl, fun a ha => ?_⟩
    exact rd_fput_other _ _ _ fun e => ha (e ▸ List.mem_cons_self)
  next h => exact ⟨hleft, fun he => absurd (List.isEmpty_iff.2 he) h, fun _ _ _ => rfl, fun _ => rfl, fun _ _ => rfl⟩

end

/-- Settles O57: a quench by what the ends of the jobs that it cuts do not show in, the commands by what they write. -/
theorem tamperCommands : Obligations.TamperCommands := by
  refine ⟨fun src s => ?_, fun j s => startRefused_latched, tamperWatched_iff, fun w s hl hw => ?_, fun w s hl hw => ?_, does_tamperConditionCleared⟩
  · obtain ⟨hkey, hroot, hlatch, hcause⟩ := quench_shows src s
    exact ⟨fun p => partValid_of_empty (partHeld_quench p src s), hkey, hroot, hlatch, hcause, quench_jobs src s⟩
  · have hx : exec (.clearLatch w) s = .next (clearLatch (ok (entered w R.TAMP_CMD s))) := congrArg _ (regCmd_hearth hl hw _)
    exact ⟨fun ha => hx.trans (congrArg _ (if_pos ha)), fun ha => hx.trans (congrArg _ (if_neg (Bool.eq_false_iff.1 ha)))⟩
  · exact congrArg _ (regCmd_hearth hl hw _)

end Sys2Proof.Machine

/-!
VBAT samples and the stages, parked harts, the stop of stage 4 and the thermal limit (O58).
-/
namespace Sys2Proof.Machine

section
variable {s : State}

/-! ### Samples towards a stage (R562) -/

/-- What a sample counts towards the entry to a stage, towards its release, and whether the stage is then entered. -/
def lowCount (mv : Nat) (k : Fin 4) (s : State) : Nat := if mv < fget (F.BLW_TH_k k.1) s then min 101 (s.blw.low[k.1] + 1) else 0
def highCount (mv : Nat) (k : Fin 4) (s : State) : Nat := if fget (F.BLW_TH_k k.1) s + 300 ≤ mv then min 101 (s.blw.high[k.1] + 1) else 0
def enteredAfter (mv : Nat) (k : Fin 4) (s : State) : Bool :=
  if lowCount mv k s = 101 then true else if highCount mv k s = 101 then false else s.blw.entered[k.1]

/-- The counts of a sample, before an entry is counted. -/
def sampleCounted (mv : Nat) (k : Fin 4) (s : State) : State :=
  updBlw (fun b => { b with low := b.low.set k.1 (lowCount mv k s) k.2, high := b.high.set k.1 (highCount mv k s) k.2, entered := b.entered.set k.1 (enteredAfter mv k s) k.2 }) s

theorem blwCount_eq (mv : Nat) (k : Fin 4) (s : State) : blwCount mv k s =
    if enteredAfter mv k s && !s.blw.entered[k.1] then bump (R.BLW_STAGE_CNT_k k.1) (sampleCounted mv k s) else sampleCounted mv k s := rfl

theorem blwCount_keeps {α : Type} {f : State → α} (k : Fin 4) (hb : ∀ s, f (bump (R.BLW_STAGE_CNT_k k.1) s) = f s) (mv : Nat) (s : State) :
    f (blwCount mv k s) = f (sampleCounted mv k s) := by
  rw [blwCount_eq]
  split
  · exact hb _
  · rfl

theorem blwCount_blw (mv : Nat) (k : Fin 4) (s : State) : (blwCount mv k s).blw = (sampleCounted mv k s).blw := blwCount_keeps (f := State.blw) k (fun _ => rfl) mv s

theorem blwCount_low (mv : Nat) (k : Fin 4) (s : State) : (blwCount mv k s).blw.low[k.1] = lowCount mv k s := by
  rw [blwCount_blw]
  exact Vector.getElem_set_self ..

theorem blwCount_high (mv : Nat) (k : Fin 4) (s : State) : (blwCount mv k s).blw.high[k.1] = highCount mv k s := by
  rw [blwCount_blw]
  exact Vector.getElem_set_self ..

theorem blwCount_entered (mv : Nat) (k : Fin 4) (s : State) : (blwCount mv k s).blw.entered[k.1] = enteredAfter mv k s := by
  rw [blwCount_blw]
  exact Vector.getElem_set_self ..

theorem blwCount_entered_other {j k : Fin 4} (h : j ≠ k) (mv : Nat) (s : State) : (blwCount mv k s).blw.entered[j.1] = s.blw.entered[j.1] := by
  rw [blwCount_blw]
  exact Vector.getElem_set_ne k.2 j.2 fun e => h (Fin.ext e.symm)

/-- An entry is counted. -/
theorem blwCount_counted {mv : Nat} {k : Fin 4} (h : s.blw.entered[k.1] = false) (hn : (blwCount mv k s).blw.entered[k.1] = true) :
    rd (R.BLW_STAGE_CNT_k k.1) (blwCount mv k s) = rd (R.BLW_STAGE_CNT_k k.1) (bump (R.BLW_STAGE_CNT_k k.1) s) := by
  rw [blwCount_entered] at hn
  rw [blwCount_eq, hn, h]
  exact rd_bump_congr rfl

theorem vbatMv_sampled (mv : Nat) (s : State) : fget F.BLW_VBAT_MV (forFin 4 (blwCount mv) (fput F.BLW_VBAT_MV (min 0xFFFF mv) s)) = min 0xFFFF mv := by
  rw [forFin_keeps fun k u => blwCount_keeps k (fun v => fget_bump_other F.BLW_VBAT_MV _ v ?_) mv u]
  · exact fget_fput_fits _ _ (by decide) (by show min 0xFFFF mv < 2 ^ 16; omega)
  · simp only [F.BLW_VBAT_MV, R.BLW_VBAT, R.BLW_STAGE_CNT_k]
    omega

/-! ### The stage (R562, R565) -/

/-- The stage is that of the last threshold entered. -/
theorem blwStage_eq (s : State) : blwStage s = if s.blw.entered[3] then 4 else if s.blw.entered[2] then 3 else if s.blw.entered[1] then 2 else if s.blw.entered[0] then 1 else 0 := rfl

theorem blwStage_le (s : State) : blwStage s ≤ 4 := by
  rw [blwStage_eq]
  split_ifs <;> decide

theorem lt_blwStage_of_entered {k : Fin 4} (h : s.blw.entered[k.1] = true) : k.1 < blwStage s := by
  rw [blwStage_eq]
  match k with
  | 0 =>
    replace h : s.blw.entered[0] = true := h
    split_ifs <;> decide
  | 1 =>
    replace h : s.blw.entered[1] = true := h
    split_ifs <;> decide
  | 2 =>
    replace h : s.blw.entered[2] = true := h
    split_ifs <;> decide
  | 3 =>
    rw [if_pos (show s.blw.entered[3] = true from h)]
    decide

theorem entered_of_blwStage {k : Fin 4} (h : blwStage s = k.1 + 1) : s.blw.entered[k.1] = true := by
  rw [blwStage_eq] at h
  by_contra hn
  match k with
  | 0 =>
    replace hn : ¬ s.blw.entered[0] = true := hn
    simp only [if_neg hn] at h
    split_ifs at h <;> exact absurd h (by decide)
  | 1 =>
    replace hn : ¬ s.blw.entered[1] = true := hn
    simp only [if_neg hn] at h
    split_ifs at h <;> exact absurd h (by decide)
  | 2 =>
    replace hn : ¬ s.blw.entered[2] = true := hn
    simp only [if_neg hn] at h
    split_ifs at h <;> exact absurd h (by decide)
  | 3 =>
    replace hn : ¬ s.blw.entered[3] = true := hn
    simp only [if_neg hn] at h
    split_ifs at h <;> exact absurd h (by decide)

/-! ### Harts parked, and the stop of stage 4 (R564, R566) -/

section
variable {h : Fin 8} {t0 : Nat} (hd : (s.harts[h.1]).parkDue = some t0)
include hd

theorem exec_hartPark_anvil (hw : (s.harts[h.1]).world = true) : exec (.hartPark h) s = .next s := by
  change execHartPark h s = _
  simp only [execHartPark, hd, hw, Bool.true_or, if_true]

theorem exec_hartPark_due (hw : (s.harts[h.1]).world = false) (hb : ftst F.SYSCTL_BIST_STAT_BUSY s = false) (ht : t0 ≤ s.now) :
    exec (.hartPark h) s = .next (updHart h (fun x => { x with parkDue := none, parked := true }) s) := by
  change execHartPark h s = _
  simp only [execHartPark, hd, hw, hb, Bool.false_and, Bool.or_self, Bool.false_eq_true, if_false, elapseTo_past ht]

end

theorem hart_updHart_other {g h : Fin 8} (hg : g ≠ h) (f : Hart → Hart) (s : State) : (updHart h f s).harts[g.1] = s.harts[g.1] := by
  rw [updHart, fput_harts, upd_get, if_neg hg]

section
variable {t0 : Nat} (h : ctlDue s = 0 ∨ t0 ≤ s.now)
include h

/-- Once the seal has been produced, or its time has passed, the stop waits no longer. -/
theorem sealStop_now : (if ctlDue s = 0 then s else elapseTo t0 s) = s := by
  obtain h | h := h
  · exact if_pos h
  · rw [elapseTo_past h, ite_self]

theorem exec_stage4SealStop_engine (hl : s.blw.logStop = some t0) {e : Nat} (he : sealEngine s = some e) :
    exec .stage4SealStop s = .next (stopEngine (Fin.ofNat 24 e) (updBlw (fun b => { b with logStop := none }) s)) := by
  change execStage4SealStop s = _
  simp only [execStage4SealStop, hl, sealStop_now h, he]

theorem exec_stage4SealStop_none (hl : s.blw.logStop = some t0) (he : sealEngine s = none) :
    exec .stage4SealStop s = .next (updBlw (fun b => { b with logStop := none }) s) := by
  change execStage4SealStop s = _
  simp only [execStage4SealStop, hl, sealStop_now h, he]

end

/-! ### The junction (R570) -/

/-- A reading of the junction, shown and warned of. -/
def tjShown (deg : Int) (s : State) : State :=
  let s := fputSat F.BLW_TJ_DEG deg s
  whenB (decide ((clampNat 100 150 (fget F.BLW_TJ_TJ_WARN s) : Int) ≤ deg)) (blwEvent 4) s

/-- The reading does not show in the threshold that warns. -/
theorem tjShown_eq (deg : Int) (s : State) : tjShown deg s =
    if (clampNat 100 150 (fget F.BLW_TJ_TJ_WARN s) : Int) ≤ deg then raise F.BLW_EVENT 4 (fputSat F.BLW_TJ_DEG deg s) else fputSat F.BLW_TJ_DEG deg s := by
  have hwarn : fget F.BLW_TJ_TJ_WARN (fputSat F.BLW_TJ_DEG deg s) = fget F.BLW_TJ_TJ_WARN s :=
    fget_fput_beside F.BLW_TJ_DEG F.BLW_TJ_TJ_WARN _ s rfl (by decide) (by decide)
  simp only [tjShown, hwarn, whenB, blwEvent, decide_eq_true_eq]

theorem thermOn_tjShown (deg : Int) (s : State) : (tjShown deg s).blw.thermOn = s.blw.thermOn := whenB_keeps (f := fun s => s.blw.thermOn) (g := blwEvent 4) (fun _ => rfl) _ _

/-- What a reading does of the thermal limit. -/
def tjLimited (deg : Int) (s : State) : State :=
  if !s.blw.thermOn && decide (150 ≤ deg) then thermalOn s else if s.blw.thermOn && decide (deg < 145) then thermalOff s else s

theorem exec_coreTjRead {deg : Int} (h : deg ≤ 165) : exec (.coreTjRead deg) s = .next (tjLimited deg (tjShown deg s)) := by
  have hx : exec (.coreTjRead deg) s = .next (whenB (decide (165 < deg)) (tamperAlarm 3) (tjLimited deg (tjShown deg s))) := rfl
  rw [hx, whenB, if_neg (by simpa using h)]

/-- The thermal limit clocks an island down that runs. -/
def clockDown (s : State) (i : Fin 21) : State :=
  if islSt i s = .run then updBlw (fun b => { b with thermal := b.thermal ++ [i] }) (updIsl i (fun x => { x with st := .slow, div := 0, blw := true }) s) else s

theorem thermalOn_eq (s : State) : thermalOn s = thermalIsls.foldl clockDown (blwEvent 5 (updBlw (fun b => { b with thermOn := true }) s)) := rfl

theorem clockDown_keeps {α : Type} {f : State → α} (hi : ∀ l s, f { s with isl := l } = f s) (hb : ∀ l s, f { s with blw := { s.blw with thermal := l } } = f s) (i : Fin 21) (s : State) :
    f (clockDown s i) = f s := by
  unfold clockDown
  split
  · exact (hb _ _).trans (hi _ s)
  · rfl

theorem isl_clockDown_other {i j : Fin 21} (h : i ≠ j) (s : State) : (clockDown s j).isl[i.1] = s.isl[i.1] := by
  unfold clockDown
  split
  · show (upd s.isl j _)[i.1] = _
    rw [upd_get, if_neg h]
  · rfl

theorem clockDown_run {i : Fin 21} (h : islSt i s = .run) : islSt i (clockDown s i) = .slow := by
  rw [clockDown, if_pos h]
  exact islSt_updIsl i _ s

theorem clockDown_slow {i j : Fin 21} (h : islSt i s = .slow) : islSt i (clockDown s j) = .slow := by
  by_cases hj : i = j
  · subst hj
    rw [clockDown, if_neg (by rw [h]; decide), h]
  · rw [islSt, isl_clockDown_other hj]
    exact h

theorem foldl_clockDown_slow {i : Fin 21} (h : islSt i s = .slow) (l : List (Fin 21)) : islSt i (l.foldl clockDown s) = .slow := by
  induction l generalizing s with
  | nil => exact h
  | cons j l ih => exact ih (clockDown_slow h)

theorem foldl_clockDown_run {i : Fin 21} {l : List (Fin 21)} (hi : i ∈ l) (h : islSt i s = .run) : islSt i (l.foldl clockDown s) = .slow := by
  induction l generalizing s with
  | nil => exact absurd hi List.not_mem_nil
  | cons j l ih =>
    by_cases hj : i = j
    · subst hj
      exact foldl_clockDown_slow (clockDown_run h) l
    · refine ih ((List.mem_cons.1 hi).resolve_left hj) ?_
      rw [islSt, isl_clockDown_other hj]
      exact h

theorem foldl_clockDown_other {i : Fin 21} {l : List (Fin 21)} (hi : i ∉ l) (s : State) : (l.foldl clockDown s).isl[i.1] = s.isl[i.1] := by
  induction l generalizing s with
  | nil => rfl
  | cons j l ih =>
    obtain ⟨hj, hl⟩ := not_or.1 (mt List.mem_cons.2 hi)
    exact (ih hl _).trans (isl_clockDown_other hj s)

theorem thermalOn_shows (s : State) : let t := thermalOn s; t.blw.thermOn = true ∧ fbit F.BLW_EVENT 5 t = true ∧
    (∀ i ∈ thermalIsls, islSt i s = .run → islSt i t = .slow) ∧ ∀ i : Fin 21, i ∉ thermalIsls → t.isl[i.1] = s.isl[i.1] := by
  rw [thermalOn_eq]
  refine ⟨?_, ?_, fun i hi h => foldl_clockDown_run hi h, fun i hi => foldl_clockDown_other hi _⟩
  · exact foldl_keeps (f := fun s => s.blw.thermOn) (fun s i => clockDown_keeps (f := fun s => s.blw.thermOn) (fun _ _ => rfl) (fun _ _ => rfl) i s) _ _
  · rw [foldl_keeps fun s i => clockDown_keeps (f := fbit F.BLW_EVENT 5) (fun _ _ => rfl) (fun _ _ => rfl) i s]
    exact fbit_raise _ _ _ (by decide)

end

/-- Settles O58: a sample by what it counts towards each stage, the stage by the last threshold entered, the limit by one island at a time. -/
theorem supplyStages : Obligations.SupplyStages := by
  refine ⟨fun mv s => ⟨rfl, vbatMv_sampled mv s⟩, fun mv k s => ?_, fun s => ⟨blwStage_le s, fun k => lt_blwStage_of_entered, fun k => entered_of_blwStage, if_pos rfl⟩,
    fun h t0 s hd => ⟨exec_hartPark_anvil hd, fun hw hb ht => ?_⟩, fun t0 s hl h => ⟨fun e => exec_stage4SealStop_engine h hl, exec_stage4SealStop_none h hl⟩, fun deg s h => ?_, thermalOn_shows⟩
  · extract_lets th t
    refine ⟨fun hlo hhi => ?_, fun hlo => ?_, fun hhi => ?_, fun j hj => blwCount_entered_other hj mv s, blwCount_counted⟩
    · have hlow : lowCount mv k s = 0 := if_neg (Nat.not_lt.2 hlo)
      have hhigh : highCount mv k s = 0 := if_neg (Nat.not_le.2 hhi)
      refine ⟨(blwCount_entered ..).trans ?_, (blwCount_low ..).trans hlow, (blwCount_high ..).trans hhigh⟩
      simp [enteredAfter, hlow, hhigh]
    · have hlow : lowCount mv k s = min 101 (s.blw.low[k.1] + 1) := if_pos hlo
      have hhigh : highCount mv k s = 0 := if_neg (by omega)
      refine ⟨(blwCount_low ..).trans hlow, (blwCount_high ..).trans hhigh, fun h => (blwCount_entered ..).trans ?_, fun h => (blwCount_entered ..).trans ?_⟩
      · rw [enteredAfter, hlow, if_pos (by omega)]
      · rw [enteredAfter, hlow, hhigh, if_neg (by omega), if_neg (by decide)]
    · have hlow : lowCount mv k s = 0 := if_neg (by omega)
      have hhigh : highCount mv k s = min 101 (s.blw.high[k.1] + 1) := if_pos hhi
      refine ⟨(blwCount_low ..).trans hlow, fun h => (blwCount_entered ..).trans ?_, fun h => (blwCount_entered ..).trans ?_⟩
      · rw [enteredAfter, hlow, hhigh, if_neg (by decide), if_pos (by omega)]
      · rw [enteredAfter, hlow, hhigh, if_neg (by decide), if_neg (by omega)]
  · exact does_of (exec_hartPark_due hd hw hb ht) ⟨hart_updHart .., fun g hg => hart_updHart_other hg .., fun _ => rfl⟩
  · extract_lets v w
    have hw : w = tjShown deg s := (tjShown_eq deg s).symm
    rw [exec_coreTjRead h, hw, tjLimited, thermOn_tjShown]
    refine ⟨fun ht hd => ?_, fun ht hd => ?_, fun ht hd => ?_, fun ht hd => ?_⟩
    · simp [ht, hd]
    · simp [ht, hd]
    · simp [ht, hd]
    · simp [ht, hd]

end Sys2Proof.Machine

/-!
The chip watchdog, the heartbeat channels and the self-test windows (O59).
-/
namespace Sys2Proof.Machine

section
variable {w : Initiator} {s : State}

/-! ### The chip watchdog (R577) -/

section
variable {v : Word}

theorem wdKick_stopped (hr : wdRunning s = false) : wdKick v s = s := by
  simp only [wdKick, hr, Bool.not_false, if_true]

theorem wdKick_first (hr : wdRunning s = true) (hv : v = 0x7A3E) : wdKick v s = updBlw (fun b => { b with wdFirst := some s.now }) s := by
  simp only [wdKick, hr, Bool.not_true, Bool.false_eq_true, if_false, if_pos hv]

/-- A second word that comes in time ends the kick. -/
theorem wdKick_second {t0 : Nat} (hr : wdRunning s = true) (hf : s.blw.wdFirst = some t0) (hv : v = 0x85C1) (ht : s.now ≤ t0 + 100000)
    (hc : fget F.WDOG_WD_CFG_WINDOW s * wdPeriod s ≤ (s.now - s.blw.wdStart) * 4) : wdKick v s = updBlw (fun b => { b with wdFirst := none, wdStart := s.now }) s := by
  have hin : ¬ (v ≠ 0x85C1 ∨ t0 + 100000 < s.now ∨ (s.now - s.blw.wdStart) * 4 < fget F.WDOG_WD_CFG_WINDOW s * wdPeriod s) := by
    simp only [not_or, not_not, Nat.not_lt]
    exact ⟨hv, ht, hc⟩
  have hne : v ≠ 0x7A3E := by rw [hv]; decide
  simp only [wdKick, hr, Bool.not_true, Bool.false_eq_true, if_false, if_neg hne, hf, if_neg hin]

/-- Any other word expires the watchdog. -/
theorem wdKick_wrong {t0 : Nat} (hr : wdRunning s = true) (hv : v ≠ 0x7A3E) (h : s.blw.wdFirst = none ∨ (s.blw.wdFirst = some t0 ∧
    (v ≠ 0x85C1 ∨ t0 + 100000 < s.now ∨ (s.now - s.blw.wdStart) * 4 < fget F.WDOG_WD_CFG_WINDOW s * wdPeriod s))) : wdKick v s = wdExpire s := by
  obtain hf | ⟨hf, hout⟩ := h
  · simp only [wdKick, hr, Bool.not_true, Bool.false_eq_true, if_false, if_neg hv, hf]
  · simp only [wdKick, hr, Bool.not_true, Bool.false_eq_true, if_false, if_neg hv, hf, if_pos hout]

end

theorem exec_wdWarn_due (hr : wdRunning s = true) (h : s.blw.wdStart + wdPeriod s * 3 / 4 ≤ s.now) : exec .wdWarn s = .next (fput F.WDOG_WD_STAT_WARN 1 s) := by
  change execWdWarn s = _
  rw [execWdWarn, if_pos hr, elapseTo_past h]

theorem exec_chipWdog_due (hr : wdRunning s = true) (h : s.blw.wdStart + wdPeriod s ≤ s.now) : exec .chipWdog s = .next (chipReset kindWdog 0 s) := by
  change execChipWdog s = _
  rw [execChipWdog, if_pos hr, elapseTo_past h, wdExpire]

/-! ### Heartbeat channels (R578) -/

section
variable {c : Fin 16}

theorem hbKick_disabled (h : ftst (F.WDOG_HB_CFG_c_EN c.1) s = false) : hbKick c s = s := by
  simp only [hbKick, h, Bool.not_false, if_true]

theorem hbKick_enabled (h : ftst (F.WDOG_HB_CFG_c_EN c.1) s = true) : hbKick c s = fput (F.WDOG_HB_STAT_c_STATE c.1) 1 (hbStart c s) := by
  simp only [hbKick, h, Bool.not_true, Bool.false_eq_true, if_false]

theorem hbLive_shows (c : Fin 16) (s : State) : let t := fput (F.WDOG_HB_STAT_c_STATE c.1) 1 (hbStart c s)
    fget (F.WDOG_HB_STAT_c_STATE c.1) t = 1 ∧ t.blw.hbKick[c.1] = s.now ∧ SameRegsBut [R.WDOG_HB_STAT_c c.1] s t := by
  refine ⟨fget_fput_fits _ _ (by show 1 < 32; decide) (by show 1 < 4; decide), upd_get_same .., fun a ha => ?_⟩
  exact rd_fput_other _ _ _ fun e => ha (e ▸ List.mem_cons_self)

theorem hbLose_shows (c : Fin 16) (s : State) : fget (F.WDOG_HB_STAT_c_STATE c.1) (hbLose c s) = 2 ∧ ftst (F.WDOG_HB_STAT_c_LOST c.1) (hbLose c s) = true ∧
    rd (R.WDOG_HB_LOST_CNT_c c.1) (hbLose c s) = rd (R.WDOG_HB_LOST_CNT_c c.1) (bump (R.WDOG_HB_LOST_CNT_c c.1) s) ∧ SameMem s (hbLose c s) := by
  have hne : R.WDOG_HB_STAT_c c.1 ≠ R.WDOG_HB_LOST_CNT_c c.1 := by
    simp only [R.WDOG_HB_STAT_c, R.WDOG_HB_LOST_CNT_c]
    omega
  refine ⟨?_, ?_, rd_bump_congr ?_, fun _ => rfl⟩
  · rw [hbLose, fget_bump_other _ _ _ hne,
      fget_fput_beside (F.WDOG_HB_STAT_c_LOST c.1) (F.WDOG_HB_STAT_c_STATE c.1) _ _ rfl (by show 1 < 32; decide) (.inl (by show 1 < 2; decide))]
    exact fget_fput_fits _ _ (by show 1 < 32; decide) (by show 2 < 4; decide)
  · rw [hbLose, ftst_bump_other _ _ _ hne]
    exact ftst_fput_one _ _ (by show 2 < 32; decide) (by show 2 ≤ 2; decide)
  · exact (rd_fput_other _ _ _ hne.symm).trans (rd_fput_other _ _ _ hne.symm)

/-- A channel that lives is lost when its time has passed, and at once when its island has left service. -/
theorem exec_heartbeatLost (he : ftst (F.WDOG_HB_CFG_c_EN c.1) s = true) (hs : hbSuspended c s = false) (hl : fget (F.WDOG_HB_STAT_c_STATE c.1) s = 1)
    (h : s.blw.hbKick[c.1] + clampNat 50 10000 (fget (F.WDOG_HB_CFG_c_TIMEOUT_US c.1) s) * 1000 ≤ s.now ∨
      (∃ i, hbIsland c s = some i ∧ (islSt i s = .stopped ∨ islSt i s = .reset ∨ islSt i s = .off ∨ islSt i s = .draining))) :
    exec (.heartbeatLost c) s = .next (hbLose c s) := by
  change execHeartbeatLost c s = _
  simp only [execHeartbeatLost, he, hs, hl, Bool.not_true, Bool.or_self, bne_self_eq_false, Bool.false_eq_true, if_false]
  obtain h | ⟨i, hi, h⟩ := h
  · simp only [elapseTo_past h, ite_self]
  · obtain h | h | h | h := h <;> simp only [hi, h, if_true]

end

/-! ### Self-test windows (R586, R587) -/

/-- The fields of BIST_STAT that a request shows. -/
theorem bistReq_shows (h : Fin 8) (s : State) : let t := s |> fput F.SYSCTL_BIST_STAT_PENDING 1 |> fput F.SYSCTL_BIST_STAT_HART h.1 |> raise F.SYSCTL_EVENT 3
    ftst F.SYSCTL_BIST_STAT_PENDING t = true ∧ fget F.SYSCTL_BIST_STAT_HART t = h.1 ∧ fbit F.SYSCTL_EVENT 3 t = true := by
  refine ⟨?_, ?_, fbit_raise _ _ _ (by decide)⟩
  · simp (disch := decide) only [ftst_raise_other, ftst_fput_beside, ftst_fput_one]
  · rw [fget_raise_other _ _ _ _ (by decide)]
    exact fget_fput_fits _ _ (by decide) h.2

theorem bistReq_free (hp : ftst F.SYSCTL_BIST_STAT_PENDING s = false) (hb : ftst F.SYSCTL_BIST_STAT_BUSY s = false) (h : Fin 8) :
    bistReq h true s = updBlw (fun b => { b with bistAsk := s.now })
      (fput F.SYSCTL_BIST_REQ_HART h.1 s |> fput F.SYSCTL_BIST_STAT_PENDING 1 |> fput F.SYSCTL_BIST_STAT_HART h.1 |> raise F.SYSCTL_EVENT 3) := by
  simp (disch := decide) only [bistReq, ftst_fput_other, hp, hb, Bool.not_true, Bool.or_self, Bool.false_eq_true, if_false]
  rfl

theorem bistReq_taken (h : ¬ (ftst F.SYSCTL_BIST_STAT_PENDING s = false ∧ ftst F.SYSCTL_BIST_STAT_BUSY s = false)) (k : Fin 8) :
    bistReq k true s = fput F.SYSCTL_BIST_STAT_STATUS Status.failedRefused.code (fput F.SYSCTL_BIST_REQ_HART k.1 s) := by
  have htaken : (ftst F.SYSCTL_BIST_STAT_PENDING s || ftst F.SYSCTL_BIST_STAT_BUSY s) = true := by
    rwa [← Bool.not_eq_false, Bool.or_eq_false_iff]
  simp (disch := decide) only [bistReq, ftst_fput_other, htaken, Bool.not_true, Bool.false_eq_true, if_false, if_true]

section
variable {h : Fin 8}

theorem ftst_updBlw (f : Fld) (g : BlwSt → BlwSt) (s : State) : ftst f (updBlw g s) = ftst f s := ftst_of_fget (fget_updBlw f g s)

/-- A hart granted to the test, until an instant. -/
def bistGranted (h : Fin 8) (due : Nat) (s : State) : State :=
  setResv h none (updHart h (fun _ => { Hart.init with bistHeld := true, parkDue := s.harts[h.1].parkDue }) (fput F.SYSCTL_BIST_GRANT_HART h.1 s))
    |> fput F.SYSCTL_BIST_STAT_PENDING 0 |> fput F.SYSCTL_BIST_STAT_BUSY 1 |> updBlw (fun b => { b with bistEnd := due })

theorem bistGrant_free (hp : (s.harts[h.1]).parked = false) (hw : (s.harts[h.1]).world = false) : bistGrant h s = bistGranted h (s.now + 2000000) s := by
  have hfree : ¬ ((fput F.SYSCTL_BIST_GRANT_HART h.1 s).harts[h.1].parked || (fput F.SYSCTL_BIST_GRANT_HART h.1 s).harts[h.1].world) = true := by
    simp [hp, hw]
  exact if_neg hfree

theorem bistGranted_shows (h : Fin 8) (due : Nat) (s : State) : let t := bistGranted h due s; ftst F.SYSCTL_BIST_STAT_PENDING t = false ∧ ftst F.SYSCTL_BIST_STAT_BUSY t = true ∧
    (t.harts[h.1]).bistHeld = true ∧ t.cwy.resv[h.1] = none ∧ t.blw.bistEnd = due := by
  have hpend : ftst F.SYSCTL_BIST_STAT_PENDING (bistGranted h due s) = false := by
    simp (disch := decide) only [bistGranted, ftst_updBlw, ftst_fput_beside, ftst_fput_zero]
  have hbusy : ftst F.SYSCTL_BIST_STAT_BUSY (bistGranted h due s) = true := by
    simp (disch := decide) only [bistGranted, ftst_updBlw, ftst_fput_one]
  have hheld : ((bistGranted h due s).harts[h.1]).bistHeld = true := by
    simp only [bistGranted, updBlw, fput_harts, setResv, updCwy, hart_updHart]
  have hresv : (bistGranted h due s).cwy.resv[h.1] = none := by
    simp only [bistGranted, updBlw, fput_cwy, setResv, updCwy, Vector.getElem_set_self]
  exact ⟨hpend, hbusy, hheld, hresv, rfl⟩

theorem bistDefer_shows (s : State) : ftst F.SYSCTL_BIST_STAT_PENDING (bistDefer s) = false ∧ fget F.SYSCTL_BIST_STAT_STATUS (bistDefer s) = Status.deferred.code := by
  refine ⟨?_, fget_fput_fits _ _ (by decide) (by decide)⟩
  rw [bistDefer, ftst_fput_beside F.SYSCTL_BIST_STAT_STATUS F.SYSCTL_BIST_STAT_PENDING _ _ rfl (by decide) (by decide)]
  exact ftst_fput_zero _ _ (by decide)

end

/-- A window that has ended. -/
def bistEnded (pass : Bool) (h : Fin 8) (s : State) : State :=
  updHart h (fun x => { x with bistHeld := !pass, bistFailed := !pass }) s |> fput F.SYSCTL_BIST_STAT_BUSY 0 |> fput F.SYSCTL_BIST_STAT_STATUS Status.done.code
    |> fput F.SYSCTL_BIST_STAT_PASS pass.toNat |> raise F.SYSCTL_EVENT 4

theorem exec_bistWindowEnd_due {pass : Bool} (hb : ftst F.SYSCTL_BIST_STAT_BUSY s = true) (h : s.blw.bistEnd ≤ s.now) :
    exec (.bistWindowEnd pass) s = .next (whenB (!pass) (raise F.SYSCTL_EVENT 5) (bistEnded pass (Fin.ofNat 8 (fget F.SYSCTL_BIST_STAT_HART s)) s)) := by
  change execBistWindowEnd pass s = _
  simp only [execBistWindowEnd, hb, elapseTo_past h, Bool.not_true, Bool.false_eq_true, if_false]
  rfl

theorem bistEnded_stat (pass : Bool) (h : Fin 8) (s : State) : ftst F.SYSCTL_BIST_STAT_BUSY (bistEnded pass h s) = false ∧
    fget F.SYSCTL_BIST_STAT_STATUS (bistEnded pass h s) = Status.done.code ∧ ftst F.SYSCTL_BIST_STAT_PASS (bistEnded pass h s) = pass := by
  refine ⟨?_, ?_, ?_⟩
  · simp (disch := decide) only [bistEnded, ftst_raise_other, ftst_fput_beside, ftst_fput_zero]
  · simp (disch := decide) only [bistEnded, fget_raise_other, fget_fput_beside, fget_fput_fits]
  · simp (disch := decide) only [bistEnded, ftst_raise_other, ftst_fput_toNat]

/-- The events of a window's end: a failed one raises a second. -/
theorem bistEnded_events (pass : Bool) (h : Fin 8) (s : State) : let t := whenB (!pass) (raise F.SYSCTL_EVENT 5) (bistEnded pass h s)
    fbit F.SYSCTL_EVENT 4 t = true ∧ (pass = false → fbit F.SYSCTL_EVENT 5 t = true) := by
  have hend : fbit F.SYSCTL_EVENT 4 (bistEnded pass h s) = true := fbit_raise _ _ _ (by decide)
  cases pass with
  | true => exact ⟨hend, nofun⟩
  | false => exact ⟨fbit_raise_beside _ _ _ _ _ hend, fun _ => fbit_raise _ _ _ (by decide)⟩

theorem bistEnded_harts (pass : Bool) (h : Fin 8) (s : State) : (bistEnded pass h s).harts[h.1] = { s.harts[h.1] with bistHeld := !pass, bistFailed := !pass } := by
  rw [bistEnded, raise_harts, fput_harts, fput_harts, fput_harts, hart_updHart]

theorem bistEnded_shows (pass : Bool) (h : Fin 8) (s : State) : let t := whenB (!pass) (raise F.SYSCTL_EVENT 5) (bistEnded pass h s)
    ftst F.SYSCTL_BIST_STAT_BUSY t = false ∧ fget F.SYSCTL_BIST_STAT_STATUS t = Status.done.code ∧ ftst F.SYSCTL_BIST_STAT_PASS t = pass ∧ fbit F.SYSCTL_EVENT 4 t = true ∧
    (pass = false → fbit F.SYSCTL_EVENT 5 t = true) ∧ (t.harts[h.1]).bistHeld = !pass ∧ (t.harts[h.1]).bistFailed = !pass ∧ SameMem s t := by
  intro t
  have hstat {g : Fld} (hg : g.addr ≠ R.SYSCTL_EVENT) : fget g t = fget g (bistEnded pass h s) := whenB_keeps (fun u => fget_raise_other g F.SYSCTL_EVENT 5 u hg) _ _
  have hhart : t.harts[h.1] = { s.harts[h.1] with bistHeld := !pass, bistFailed := !pass } :=
    (whenB_keeps (f := fun s => s.harts[h.1]) (fun u => by rw [raise_harts]) _ _).trans (bistEnded_harts pass h s)
  have hmem : SameMem s t := fun a => whenB_keeps (f := mrd a) (g := raise F.SYSCTL_EVENT 5) (fun _ => rfl) _ _
  obtain ⟨hbusy, hstatus, hpass⟩ := bistEnded_stat pass h s
  obtain ⟨hdone, hfail⟩ := bistEnded_events pass h s
  refine ⟨(ftst_of_fget (hstat (by decide))).trans hbusy, (hstat (by decide)).trans hstatus, (ftst_of_fget (hstat (by decide))).trans hpass, hdone, hfail, ?_, ?_, hmem⟩
  · rw [hhart]
  · rw [hhart]

end

/-- Settles O59: kicks, heartbeats and windows each by what they write. -/
theorem watchdogsAndSelfTest : Obligations.WatchdogsAndSelfTest := by
  refine ⟨fun w v s hl => ?_, fun s hr => ⟨exec_wdWarn_due hr, exec_chipWdog_due hr⟩, fun w s hl => congrArg _ (regCmd_lets hl _), fun w c s hl => ?_,
    fun c s he hs hst h => does_of (exec_heartbeatLost he hs hst h) (hbLose_shows c s), fun w h s hl => ?_, fun w h s hl => ?_, fun s hp ht => ?_,
    fun pass s hb ht => does_of (exec_bistWindowEnd_due hb ht) (bistEnded_shows ..), fun w s hl => congrArg _ (regCmd_lets hl _), fun w s hl => congrArg _ (regCmd_lets hl _)⟩
  · have hx : exec (.wdKick w v) s = .next (wdKick v (ok (entered w R.WDOG_WD_KICK s))) := congrArg _ (regCmd_lets hl _)
    rw [hx]
    exact ⟨fun hr => congrArg _ (wdKick_stopped hr), fun hr hv => congrArg _ (wdKick_first hr hv), fun t0 hr hf hv ht hc => congrArg _ (wdKick_second hr hf hv ht hc),
      fun t0 hr hv h => congrArg _ (wdKick_wrong hr hv h)⟩
  · have hx : exec (.hbKick w c) s = .next (hbKick c (ok (entered w (R.WDOG_HB_KICK_c c.1) s))) := congrArg _ (regCmd_lets hl _)
    exact ⟨fun he => hx.trans (congrArg _ (hbKick_disabled he)), fun he => does_of (hx.trans (congrArg _ (hbKick_enabled he))) (hbLive_shows c _)⟩
  · have hx (go : Bool) : exec (.bistReq w h go) s = .next (bistReq h go (ok (entered w R.SYSCTL_BIST_REQ s))) := congrArg _ (regCmd_lets hl _)
    have htaken := bistReq_taken (s := ok (entered w R.SYSCTL_BIST_REQ s)) (k := h)
    have hfree := bistReq_free (s := ok (entered w R.SYSCTL_BIST_REQ s)) (h := h)
    refine ⟨hx false, fun hn => (hx true).trans (congrArg _ (htaken hn)), fun ⟨hp, hb⟩ => does_of ((hx true).trans (congrArg _ (hfree hp hb))) ?_⟩
    obtain ⟨hpend, hhart, hevent⟩ := bistReq_shows h (fput F.SYSCTL_BIST_REQ_HART h.1 (ok (entered w R.SYSCTL_BIST_REQ s)))
    exact ⟨hpend, hhart, hevent, rfl⟩
  · have hg : exec (.bistGrant w h) s = .next (grantBist h (ok (entered w R.SYSCTL_BIST_GRANT s))) := congrArg _ (regCmd_lets hl _)
    have hd : exec (.bistDeny w h) s = .next (denyBist h (ok (entered w R.SYSCTL_BIST_GRANT s))) := congrArg _ (regCmd_lets hl _)
    refine ⟨fun hn => ⟨hg.trans (congrArg _ (if_neg (Bool.eq_false_iff.1 hn))), hd.trans (congrArg _ (if_neg (Bool.eq_false_iff.1 hn)))⟩, fun hp hk hw => ?_, fun hp => ?_⟩
    · exact does_of (hg.trans (congrArg _ ((if_pos hp).trans (bistGrant_free hk hw)))) (bistGranted_shows h _ _)
    · exact does_of (hd.trans (congrArg _ (if_pos hp))) (bistDefer_shows _)
  · change execBistGrantTimeout s = _
    rw [execBistGrantTimeout, if_pos hp, elapseTo_past ht, bistDefer]

end Sys2Proof.Machine

/-!
Sleep requests and the steps of the entry (O48).
-/
namespace Sys2Proof.Machine

section
variable {s : State}

/-! ### The request (R454, R462) -/

/-- Heron's state and an empty WAKE_SRC, as an accepted request leaves them. -/
def sleepMarked (s : State) : State := s |> setHeron hEntering |> fput F.HERON_WAKE_SRC_INPUT 0xFF |> fput F.HERON_WAKE_SRC_WATCH 0xFF |> fput F.HERON_WAKE_SRC_TAMPER 0

/-- A request that is accepted, before the first step begins. -/
def sleepAccepted (deep : Bool) (s : State) : State := updHeron (fun h => { HeronSt.init with deep := deep, rtcBase := h.rtcBase }) (sleepMarked s)

theorem sleepCmd_refused {level : Nat} (hl : level = 1 ∨ level = 2) (h : sleepRefused s = true) : sleepCmd level s = bad (raise F.HERON_EVENT 1 s) := by
  rw [sleepCmd, if_neg (by omega), if_pos h]

theorem sleepCmd_accepted {level : Nat} (hl : level = 1 ∨ level = 2) (h : sleepRefused s = false) : sleepCmd level s = sleepBegin 1 (sleepAccepted (level == 2) s) := by
  rw [sleepCmd, if_neg (by omega), h]
  rfl

theorem sleepMarked_fields (s : State) : heronState (sleepMarked s) = 1 ∧ fget F.HERON_WAKE_SRC_INPUT (sleepMarked s) = 0xFF ∧
    fget F.HERON_WAKE_SRC_WATCH (sleepMarked s) = 0xFF ∧ fget F.HERON_WAKE_SRC_TAMPER (sleepMarked s) = 0 := by
  refine ⟨?_, ?_, ?_, fget_fput_fits _ _ (by decide) (by decide)⟩
  · rw [heronState, sleepMarked, fget_fput_other _ _ _ _ (by decide), fget_fput_other _ _ _ _ (by decide), fget_fput_other _ _ _ _ (by decide)]
    exact heronState_setHeron ..
  · simp (disch := decide) only [sleepMarked, fget_fput_beside, fget_fput_fits]
  · simp (disch := decide) only [sleepMarked, fget_fput_beside, fget_fput_fits]

theorem sleepMarked_regs (s : State) : SameRegsBut [R.HERON_STATUS, R.HERON_WAKE_SRC] s (sleepMarked s) := by
  intro a ha
  obtain ⟨hstatus, hsrc⟩ : a ≠ R.HERON_STATUS ∧ a ≠ R.HERON_WAKE_SRC := by simpa using ha
  exact (rd_fput_other _ _ _ hsrc).trans ((rd_fput_other _ _ _ hsrc).trans ((rd_fput_other _ _ _ hsrc).trans (rd_fput_other _ _ _ hstatus)))

/-- What a request that is let in and accepted leaves. -/
theorem sleepAccepted_shows (deep : Bool) (s : State) : let v := sleepAccepted deep (ok s)
    v.heron = { HeronSt.init with deep := deep, rtcBase := s.heron.rtcBase } ∧ heronState v = 1 ∧ fget F.HERON_WAKE_SRC_INPUT v = 0xFF ∧ fget F.HERON_WAKE_SRC_WATCH v = 0xFF ∧
      fget F.HERON_WAKE_SRC_TAMPER v = 0 ∧ v.resp = ⟨.done, 0⟩ ∧ SameMem s v ∧ SameRegsBut [R.HERON_STATUS, R.HERON_WAKE_SRC] s v := by
  obtain ⟨hstate, hinput, hwatch, htamper⟩ := sleepMarked_fields (ok s)
  have hheron : (sleepAccepted deep (ok s)).heron = { HeronSt.init with deep := deep, rtcBase := s.heron.rtcBase } := rfl
  have hresp : (sleepAccepted deep (ok s)).resp = ⟨.done, 0⟩ := by
    simp only [sleepAccepted, sleepMarked, updHeron, setHeron, fput_resp, ok_resp]
  have hregs : SameRegsBut [R.HERON_STATUS, R.HERON_WAKE_SRC] s (sleepAccepted deep (ok s)) := fun a ha => (rd_updHeron ..).trans (sleepMarked_regs (ok s) a ha)
  exact ⟨hheron, (heronState_updHeron ..).trans hstate, (fget_updHeron ..).trans hinput, (fget_updHeron ..).trans hwatch, (fget_updHeron ..).trans htamper, hresp, fun _ => rfl, hregs⟩

theorem sleepRefused_iff (s : State) : sleepRefused s = true ↔ heronState s ≠ 0 ∨ anyLatched s = true ∨ rd R.OWN_KEEPALIVE s ≠ 0 ∨
    (∃ k i, k < 64 ∧ watched k s = some i ∧ requesting i s = true) ∨ ∃ g : Fin 35, segState g s ≠ segDisabled ∧ segState g s ≠ segSleep ∧ segState g s ≠ segIsolated := by
  have hwatch : ((List.range 64).any fun k => (watched k s).any fun i => requesting i s) = true ↔ ∃ k i, k < 64 ∧ watched k s = some i ∧ requesting i s = true := by
    simp only [List.any_eq_true, List.mem_range, Option.any_eq_true]
    exact exists_congr fun k => exists_and_left.symm
  simp only [sleepRefused, Bool.or_eq_true, hwatch, bne_iff_ne, List.any_eq_true, List.mem_finRange, true_and, Bool.and_eq_true, hAwake, or_assoc, and_assoc]
  exact or_congr_right (or_congr_right (or_congr_right or_comm))

/-! ### The steps (R455) -/

section
variable (he : heronState s = 1) (hs : (sleepGroup s.heron.step).any (fun i => stopping i s) = false) (ho : (sleepGroup s.heron.step).any (fun i => islOpen i s) = false)
include he hs ho

/-- Once the islands of a step have stopped, what ends the step is done, and the next one begins. -/
theorem exec_sleepEntryStep_stopped : exec .sleepEntryStep s = .next (
    if s.heron.step = 5 then fallAsleep (if s.heron.step = 4 then lanesSilent s else s)
    else sleepBegin (s.heron.step + 1) (if s.heron.step = 4 then lanesSilent s else s)) := by
  change execSleepEntryStep s = _
  rw [execSleepEntryStep, if_neg (by rw [hs]; simp [he, hEntering]), if_neg (Bool.eq_false_iff.1 ho)]

theorem exec_sleepEntryStep_early (hk : s.heron.step = 1 ∨ s.heron.step = 2 ∨ s.heron.step = 3) : exec .sleepEntryStep s = .next (sleepBegin (s.heron.step + 1) s) := by
  rw [exec_sleepEntryStep_stopped he hs ho, if_neg (by omega), if_neg (by omega)]

theorem exec_sleepEntryStep_cwy (hk : s.heron.step = 4) : exec .sleepEntryStep s = .next (sleepBegin 5 (lanesSilent s)) := by
  rw [exec_sleepEntryStep_stopped he hs ho, if_neg (by omega), if_pos hk, hk]

theorem exec_sleepEntryStep_mem (hk : s.heron.step = 5) : exec .sleepEntryStep s = .next (fallAsleep s) := by
  rw [exec_sleepEntryStep_stopped he hs ho, if_pos hk, if_neg (by omega)]

end

/-- STANDBY, which DEEP passes through: Heron's state, and the chip watchdog stopped. -/
def standby (s : State) : State := updBlw (fun b => { b with wdOn := false, wdFirst := none }) (setHeron hStandby s)

theorem fallAsleep_standby (h : s.heron.deep = false) : fallAsleep s = standby s := if_neg (Bool.eq_false_iff.1 h)

theorem fallAsleep_deep (h : s.heron.deep = true) : fallAsleep s = enterDeep (standby s) := if_pos h

theorem heronState_updBlw (f : BlwSt → BlwSt) (s : State) : heronState (updBlw f s) = heronState s := fget_updBlw ..

theorem standby_shows (s : State) : heronState (standby s) = 2 ∧ (standby s).blw.wdOn = false ∧ SameMem s (standby s) ∧ (standby s).railA = s.railA ∧ (standby s).railB = s.railB :=
  ⟨(heronState_updBlw ..).trans (heronState_setHeron ..), rfl, fun _ => rfl, rfl, rfl⟩

/-- The core die without power. -/
def railsOff (s : State) : State :=
  let s := s |> lower F.BLW_RAIL 0 |> lower F.BLW_RAIL 1 |> lower F.BLW_RAIL 3
  { s with railA := false, railB := false, time := restartTime 0 s }

/-- An island without power; PEAT keeps it. -/
def islOff (i : Fin 21) (s : State) : State := if i = islPEAT then s else updIsl i (fun _ => { Island.init with st := .off }) s

/-- The wake inputs polled from the states that they have now. -/
def pollFrom (s : State) : State :=
  let di := BitVec.ofNat 48 ((rd (R.FIO_DI_STATE_k 0) s).toNat + 2 ^ 32 * (rd (R.FIO_DI_STATE_k 1) s).toNat)
  updFio (fun x => { x with pollBase := di, pollLast := di }) s

theorem enterDeep_eq (s : State) : enterDeep s = setHeron hDeep (pollFrom (forFin 21 islOff (railsOff s))) := rfl

theorem islOff_keeps {α : Type} {f : State → α} (h : ∀ l s, f { s with isl := l } = f s) (i : Fin 21) (s : State) : f (islOff i s) = f s := by
  unfold islOff
  split
  · rfl
  · exact h _ s

theorem isl_islOff_other {i j : Fin 21} (h : j ≠ i) (s : State) : (islOff j s).isl[i.1] = s.isl[i.1] := by
  unfold islOff
  split
  · rfl
  · show (upd s.isl j _)[i.1] = _
    rw [upd_get, if_neg h.symm]

theorem islSt_enterDeep {i : Fin 21} (h : i ≠ islPEAT) (s : State) : islSt i (enterDeep s) = .off := by
  have hoff (u : State) : (islOff i u).isl[i.1] = { Island.init with st := .off } := by
    rw [islOff, if_neg h, updIsl_isl, upd_get_same]
  have hdeep : (enterDeep s).isl = (forFin 21 islOff (railsOff s)).isl := (congrArg State.isl (enterDeep_eq s)).trans rfl
  rw [islSt, hdeep, forFin_at (obs := fun s : State => s.isl[i.1]) (g := fun _ => { Island.init with st := .off }) hoff fun j hj u => isl_islOff_other hj u]

theorem enterDeep_shows (s : State) : heronState (enterDeep s) = 3 ∧ (enterDeep s).blw.wdOn = s.blw.wdOn ∧ (enterDeep s).railA = false ∧ (enterDeep s).railB = false := by
  refine ⟨heronState_setHeron .., ?_, ?_, ?_⟩
  · exact forFin_keeps (obs := fun s => s.blw.wdOn) (fun i u => islOff_keeps (f := fun s => s.blw.wdOn) (fun _ _ => rfl) i u) (railsOff s)
  · exact forFin_keeps (obs := State.railA) (fun i u => islOff_keeps (f := State.railA) (fun _ _ => rfl) i u) (railsOff s)
  · exact forFin_keeps (obs := State.railB) (fun i u => islOff_keeps (f := State.railB) (fun _ _ => rfl) i u) (railsOff s)

/-- An island without cameras changes alone when the entry stops it. -/
theorem sleepStop_record {i : Fin 21} (h : islCams i = []) (s : State) : (sleepStop i s).heron.rec_ = s.heron.rec_ := by
  unfold sleepStop
  split
  · rw [stopIsland_without_cams h]
    rfl
  · rfl

theorem sleepBegin_record (s : State) : (sleepBegin 2 s).heron.rec_ = some (vt s, s.now) := by
  have hgroup : sleepBegin 2 s = sleepStop islTB (sleepStop islTA (updHeron (fun h => { h with step := 2, rec_ := some (vt s, s.now) }) s)) := rfl
  rw [hgroup, sleepStop_record (by decide), sleepStop_record (by decide)]
  rfl

end

/-- Settles O48: the request by its refusals, each step by what ends it. -/
theorem sleepRequestsAndEntry : Obligations.SleepRequestsAndEntry := by
  refine ⟨fun w deep s hl => ?_, sleepRefused_iff, fun s he hs ho => ⟨exec_sleepEntryStep_early he hs ho, exec_sleepEntryStep_cwy he hs ho, fun hk hd => ?_, fun hk hd => ?_⟩,
    sleepBegin_record⟩
  · have hx : exec (if deep then .sleepDeep w else .sleepStandby w) s = .next (sleepCmd (if deep then 2 else 1) (ok (entered w R.HERON_SLEEP_CMD s))) := by
      cases deep with
      | false => exact congrArg _ (regCmd_lets hl _)
      | true => exact congrArg _ (regCmd_lets hl _)
    have hlevel : (if deep then 2 else 1) = 1 ∨ (if deep then 2 else 1) = 2 := by cases deep <;> decide
    have hdeep : ((if deep then 2 else 1) == 2) = deep := by cases deep <;> rfl
    refine ⟨fun h => hx.trans (congrArg _ (sleepCmd_refused hlevel h)), fun h => ?_⟩
    have hbegun : exec (if deep then .sleepDeep w else .sleepStandby w) s = .next (sleepBegin 1 (sleepAccepted deep (ok (entered w R.HERON_SLEEP_CMD s)))) := by
      rw [hx, sleepCmd_accepted hlevel h, hdeep]
    exact ⟨_, hbegun, sleepAccepted_shows deep _⟩
  · exact does_of ((exec_sleepEntryStep_mem he hs ho hk).trans (congrArg _ (fallAsleep_standby hd))) (standby_shows s)
  · obtain ⟨hstate, hdog, hrailA, hrailB⟩ := enterDeep_shows (standby s)
    exact ⟨_, (exec_sleepEntryStep_mem he hs ho hk).trans (congrArg _ (fallAsleep_deep hd)), hstate, hdog, hrailA, hrailB, fun i hi => islSt_enterDeep hi _⟩

end Sys2Proof.Machine

/-!
The ownership check, violation records, invalidation, and the hand-over of a tongs block (O50).
-/
namespace Sys2Proof.Machine

section
variable {w : Initiator} {a : Nat} {wr_ : Bool} {s : State}

/-! ### The check of an access (R466, R467, R469, R479) -/

theorem initCheck_unowned (hu : inUnowned a s = true) (hw : initWorld w s = false) : initCheck w a wr_ s = (false, bump R.OWN_TONGS_BLOCKED_CNT (violateBy w a wr_ 3 s)) := by
  simp only [initCheck, ownCheck, hu, hw, Bool.not_false, Bool.and_self, if_true, violateBy]

section
variable (hu : inUnowned a s = false)
include hu

/-- With the check off, and for Hearth, every access is allowed. -/
theorem initCheck_free (h : ftst F.OWN_CTRL_EN s = false ∨ initWorld w s = true) : initCheck w a wr_ s = (true, s) := by
  unfold initCheck ownCheck
  rw [hu, Bool.and_false, if_neg Bool.false_ne_true]
  split
  · rfl
  next he =>
    have hw := h.resolve_left fun h => he (by rw [h]; rfl)
    rw [if_pos hw]

variable (he : ftst F.OWN_CTRL_EN s = true) (hw : initWorld w s = false)
include he hw

theorem initCheck_inTable (ht : inOwnTable a s = true) : initCheck w a wr_ s = (false, violateBy w a wr_ 0 s) := by
  simp only [initCheck, ownCheck, hu, he, hw, ht, Bool.and_false, Bool.not_true, Bool.false_eq_true, if_false, if_true, violateBy]

variable (ht : inOwnTable a s = false) {p : Nat} (hp : ownEntryAddr a s = some p) (hc : (s.own.cache.find? fun c => c.port == initPort w && c.page == a / 4096) = none)
include ht hp hc

/-- An entry that cannot be read refuses. -/
theorem initCheck_wordBad (hb : wordBad p s = true) : initCheck w a wr_ s =
    (false, raise F.OWN_EVENT 2 (violate (initCode w) (initWorld w s) (initInst w s) a wr_ 1 (eccLog p 0x40 true false (bump R.OWN_CACHE_MISS_CNT s)))) := by
  have hlook : ownLookup (initPort w) a s = (none, eccLog p 0x40 true false (bump R.OWN_CACHE_MISS_CNT s)) := by
    simp only [ownLookup, hc, hp, Option.any_some, hb, if_true, Option.getD_some]
  simp only [initCheck, ownCheck, hu, he, hw, ht, hlook, Bool.and_false, Bool.not_true, Bool.false_eq_true, if_false]

/-- An entry that is read decides. -/
theorem initCheck_entry (hb : wordBad p s = false) : (initCheck w a wr_ s).1 = entryAllows (mrdN p 2 s) (initInst w s) wr_ := by
  have hlook : (ownLookup (initPort w) a s).1 = some (mrdN p 2 s) := by
    simp only [ownLookup, hc, hp, Option.any_some, hb, Bool.false_eq_true, if_false]
  simp only [initCheck, ownCheck, hu, he, hw, ht, Bool.and_false, Bool.not_true, Bool.false_eq_true, if_false]
  split
  next t h =>
    rw [h] at hlook
    cases hlook
  next e t h =>
    rw [h] at hlook
    obtain rfl := Option.some.inj hlook
    split
    next h => exact h.symm
    next h => exact (Bool.eq_false_iff.2 h).symm

omit hu he hw ht hp hc in
theorem entryAllows_iff {e i : Nat} : entryAllows e i wr_ = true ↔
    bits e 15 9 = 0 ∧ (bits e 1 0 = 1 ∧ (bits e 6 2 = i ∨ bits e 8 8 = 1) ∨ wr_ = false ∧ bits e 7 7 = 1) := by
  by_cases h : bits e 15 9 = 0 <;> simp [entryAllows, h]

theorem initCheck_allows_iff : (initCheck w a wr_ s).1 = true ↔ let e := mrdN p 2 s
    wordBad p s = false ∧ bits e 15 9 = 0 ∧ (bits e 1 0 = 1 ∧ (bits e 6 2 = initInst w s ∨ bits e 8 8 = 1) ∨ wr_ = false ∧ bits e 7 7 = 1) := by
  cases hb : wordBad p s with
  | true => simp [initCheck_wordBad hu he hw ht hp hc hb]
  | false => simp only [initCheck_entry hu he hw ht hp hc hb, entryAllows_iff, true_and]

end

/-! ### Violation records (R467) -/

/-- A violation, counted and raised, before its record. -/
theorem violateBy_shows (w : Initiator) (a : Nat) (wr_ : Bool) (c : Nat) (s : State) : let t := violateBy w a wr_ c s
    rd R.OWN_VIOL_CNT t = rd R.OWN_VIOL_CNT (bump R.OWN_VIOL_CNT s) ∧ fbit F.OWN_EVENT 0 t = true ∧ SameMem s t ∧
    (s.own.viol.length < 16 → t.own.viol = s.own.viol ++ [⟨a, initCode w, initWorld w s, initInst w s, wr_, c⟩]) ∧
    (16 ≤ s.own.viol.length → t.own.viol = s.own.viol ∧ fbit F.OWN_EVENT 1 t = true) := by
  have hcount : rd R.OWN_VIOL_CNT (raise F.OWN_EVENT 0 (bump R.OWN_VIOL_CNT s)) = rd R.OWN_VIOL_CNT (bump R.OWN_VIOL_CNT s) := rd_raise_other _ _ _ (by decide)
  have hevent : fbit F.OWN_EVENT 0 (raise F.OWN_EVENT 0 (bump R.OWN_VIOL_CNT s)) = true := fbit_raise _ _ _ (by decide)
  intro t
  by_cases h : s.own.viol.length < 16
  · have ht : t = { raise F.OWN_EVENT 0 (bump R.OWN_VIOL_CNT s) with own := { s.own with viol := s.own.viol ++ [⟨a, initCode w, initWorld w s, initInst w s, wr_, c⟩] } } := if_pos h
    rw [ht]
    exact ⟨hcount, hevent, fun _ => rfl, fun _ => rfl, fun hn => absurd h (Nat.not_lt.2 hn)⟩
  · have ht : t = raise F.OWN_EVENT 1 (raise F.OWN_EVENT 0 (bump R.OWN_VIOL_CNT s)) := if_neg h
    rw [ht]
    exact ⟨(rd_raise_other _ _ _ (by decide)).trans hcount, fbit_raise_beside _ _ _ _ _ hevent, fun _ => rfl, fun hn => absurd hn h, fun _ => ⟨rfl, fbit_raise _ _ _ (by decide)⟩⟩

theorem violPop_none (h : s.own.viol = []) : violPop w s = answer .done 0xFFFFFFFF s := by
  rw [violPop, h]

/-- What a read of VIOL_POP leaves of the records. -/
def violPopped (w : Initiator) (v : Violation) (rest : List Violation) (s : State) : State :=
  updOwn (fun o => { o with viol := rest, undo := undoFor w v, violShadow := sput (fun _ => 0) (initIdx w) (violInfo v) o.violShadow }) s

theorem violPop_some {v : Violation} {rest : List Violation} (h : s.own.viol = v :: rest) : violPop w s = answer .done v.addr (violPopped w v rest s) := by
  rw [violPop, h]
  rfl

theorem violPopped_shows (w : Initiator) (v : Violation) (rest : List Violation) (s : State) : let t := answer .done v.addr (violPopped w v rest s)
    t.resp = ⟨.done, BitVec.ofNat 32 v.addr⟩ ∧ t.own.viol = rest ∧ sget (fun _ => 0) t.own.violShadow (initIdx w) = violInfo v := by
  have hown : (answer .done v.addr (violPopped w v rest s)).own = (violPopped w v rest s).own := answer_keeps (f := State.own) (fun _ _ => rfl) ..
  refine ⟨rfl, ?_, ?_⟩
  · rw [hown]
    rfl
  · rw [hown]
    exact sget_sput_same ..

/-! ### Invalidation (R470) -/

theorem invalCmd_busy (h : ftst F.OWN_INVAL_CMD_BUSY s = true) (page : Option Nat) : invalCmd page s = bad s := if_pos h

theorem invalCmd_taken (h : ftst F.OWN_INVAL_CMD_BUSY s = false) (page : Option Nat) :
    invalCmd page s = fput F.OWN_INVAL_CMD_BUSY 1 (updOwn (fun o => { o with inval := some page }) s) := if_neg (Bool.eq_false_iff.1 h)

/-- Whether an invalidation leaves an entry. -/
def invalKeeps (p : Option Nat) (c : OwnEntry) : Bool :=
  match p with
  | some n => c.page != n
  | none => false

theorem invalKeeps_iff (p : Option Nat) (c : OwnEntry) : invalKeeps p c = true ↔ ∃ n, p = some n ∧ c.page ≠ n := by
  cases p with
  | none => simp [invalKeeps]
  | some n => simp [invalKeeps]

theorem exec_invalDone {p : Option Nat} (h : s.own.inval = some p) :
    exec .invalDone s = .next (fput F.OWN_INVAL_CMD_BUSY 0 (updOwn (fun o => { o with cache := o.cache.filter (invalKeeps p), inval := none }) s)) := by
  change execInvalDone s = _
  rw [execInvalDone, h]
  rfl

theorem does_invalDone {p : Option Nat} (h : s.own.inval = some p) : Does .invalDone s fun t => fget F.OWN_INVAL_CMD_BUSY t = 0 ∧ t.own.inval = none ∧
    ∀ c, c ∈ t.own.cache ↔ c ∈ s.own.cache ∧ ∃ n, p = some n ∧ c.page ≠ n := by
  refine does_of (exec_invalDone h) ⟨fget_fput_fits _ _ (by decide) (by decide), rfl, fun c => ?_⟩
  rw [← invalKeeps_iff]
  exact List.mem_filter

end

/-! ### GONE of the slots of a block (R158) -/

section
variable {s : State}

theorem forN_eq_forFin (n : Nat) (f : Nat → State → State) (s : State) : forN n f s = forFin n (fun i => f i.1) s := by
  rw [forN, forFin, ← List.map_coe_finRange_eq_range, List.foldl_map]

/-- What is done of one slot. -/
def markSlot (k : Nat) (f : Fin 24 → Nat → State → Nat) (e : Fin 24) (q : Nat) (s : State) : State :=
  if ftst (F.ENG_QSLOT_q_EN e.1 q) s && qBlock (fget (F.ENG_QSLOT_q_QID e.1 q) s) == some k then fput (F.ENG_QSLOT_q_GONE e.1 q) (f e q s) s else s

theorem markGone_eq (k : Nat) (f : Fin 24 → Nat → State → Nat) (s : State) : markGone k f s = forFin 24 (fun e => forFin 24 fun q => markSlot k f e q.1) s := by
  have hgone : markGone k f s = forFin 24 (fun e => forN 24 (markSlot k f e)) s := rfl
  rw [hgone]
  exact congrArg (fun g => forFin 24 g s) (funext fun e => funext fun s => forN_eq_forFin 24 (markSlot k f e) s)

/-- What does not see the registers of slots does not see them marked. -/
theorem markGone_keeps {α : Type} {obs : State → α} (h : ∀ (e q : Fin 24) v s, obs (wr (R.ENG_QSLOT_q e.1 q.1) v s) = obs s) (k : Nat) (f : Fin 24 → Nat → State → Nat) (s : State) :
    obs (markGone k f s) = obs s := by
  rw [markGone_eq]
  refine forFin_keeps (fun e s => forFin_keeps (fun q s => ?_) s) s
  unfold markSlot
  split
  · exact h e q _ s
  · rfl

/-- Whether a slot is bound, its queue, and whether the queue is gone. -/
def slotSeen (e q : Fin 24) (s : State) : Bool × Nat × Bool :=
  (ftst (F.ENG_QSLOT_q_EN e.1 q.1) s, fget (F.ENG_QSLOT_q_QID e.1 q.1) s, ftst (F.ENG_QSLOT_q_GONE e.1 q.1) s)

/-- What a mark of the slots of a block makes of one. -/
def slotMarked (k : Nat) (x : Bool × Nat × Bool) : Bool × Nat × Bool := (x.1, x.2.1, if x.1 && qBlock x.2.1 == some k then true else x.2.2)

theorem slotSeen_markSlot_same (k : Nat) (e q : Fin 24) (s : State) : slotSeen e q (markSlot k (fun _ _ _ => 1) e q.1 s) = slotMarked k (slotSeen e q s) := by
  unfold markSlot
  split
  next h =>
    have hen : ftst (F.ENG_QSLOT_q_EN e.1 q.1) (fput (F.ENG_QSLOT_q_GONE e.1 q.1) 1 s) = ftst (F.ENG_QSLOT_q_EN e.1 q.1) s :=
      ftst_fput_beside _ _ _ _ rfl (by show 15 < 32; decide) (.inl (by show 15 < 16; decide))
    have hqid : fget (F.ENG_QSLOT_q_QID e.1 q.1) (fput (F.ENG_QSLOT_q_GONE e.1 q.1) 1 s) = fget (F.ENG_QSLOT_q_QID e.1 q.1) s :=
      fget_fput_beside _ _ _ _ rfl (by show 11 < 32; decide) (.inl (by show 11 < 16; decide))
    have hgone : ftst (F.ENG_QSLOT_q_GONE e.1 q.1) (fput (F.ENG_QSLOT_q_GONE e.1 q.1) 1 s) = true := ftst_fput_one _ _ (by show 16 < 32; decide) (by show 16 ≤ 16; decide)
    rw [slotSeen, hen, hqid, hgone, slotMarked, slotSeen, if_pos h]
  next h => rw [slotMarked, slotSeen, if_neg h]

theorem slotSeen_wr_other {e q e' q' : Fin 24} (h : (e', q') ≠ (e, q)) (v : Word) (s : State) : slotSeen e q (wr (R.ENG_QSLOT_q e'.1 q'.1) v s) = slotSeen e q s := by
  have hne : R.ENG_QSLOT_q e.1 q.1 ≠ R.ENG_QSLOT_q e'.1 q'.1 := by
    rw [Ne, Prod.mk.injEq, Fin.ext_iff, Fin.ext_iff] at h
    simp only [R.ENG_QSLOT_q]
    omega
  rw [slotSeen, ftst_wr_other _ _ _ hne, ftst_wr_other _ _ _ hne, fget_wr_other _ _ _ hne, slotSeen]

theorem slotSeen_markSlot_other {e q e' q' : Fin 24} (h : (e', q') ≠ (e, q)) (k : Nat) (f : Fin 24 → Nat → State → Nat) (s : State) :
    slotSeen e q (markSlot k f e' q'.1 s) = slotSeen e q s := by
  unfold markSlot
  split
  · exact slotSeen_wr_other h _ s
  · rfl

theorem slotSeen_markGone (k : Nat) (e q : Fin 24) (s : State) : slotSeen e q (markGone k (fun _ _ _ => 1) s) = slotMarked k (slotSeen e q s) := by
  have hother {e' q' : Fin 24} (h : e' ≠ e ∨ q' ≠ q) (s : State) : slotSeen e q (markSlot k (fun _ _ _ => 1) e' q'.1 s) = slotSeen e q s :=
    slotSeen_markSlot_other (fun p => h.elim (· (congrArg Prod.fst p)) (· (congrArg Prod.snd p))) k _ s
  have hrow (s : State) : slotSeen e q (forFin 24 (fun q' => markSlot k (fun _ _ _ => 1) e q'.1) s) = slotMarked k (slotSeen e q s) :=
    forFin_at (f := fun q' : Fin 24 => markSlot k (fun _ _ _ => 1) e q'.1) (obs := slotSeen e q) (g := slotMarked k) (slotSeen_markSlot_same k e q) (fun q' hq => hother (.inr hq)) s
  rw [markGone_eq]
  exact forFin_at (f := fun e' => forFin 24 fun q' => markSlot k (fun _ _ _ => 1) e' q'.1) (obs := slotSeen e q) (g := slotMarked k) hrow
    (fun e' he => forFin_keeps fun q' => hother (.inl he)) s

theorem slot_beside_own {a : Nat} (ha : 0x4400000 ≤ a) (e q : Fin 24) : a ≠ R.ENG_QSLOT_q e.1 q.1 := by
  simp only [R.ENG_QSLOT_q]
  omega

/-! ### The hand-over of a block (R476, R477, R479, R480) -/

section
variable {w : Initiator} {k ni : Fin 32} {nw : Bool}

/-- A command with its fields, as a state with a row for it shows them. -/
def tongsFields (k : Fin 32) (nw : Bool) (ni : Fin 32) (s : State) : State :=
  fput F.OWN_TONGS_CMD_NEW_INST ni.1 (fput F.OWN_TONGS_CMD_NEW_WORLD nw.toNat (fput F.OWN_TONGS_CMD_BLOCK k.1 s))

theorem tongsCmd_refused {inState : Nat → Bool} {f : State → State} (h : 27 ≤ k.1 ∨ ftst F.OWN_TONGS_CMD_BUSY s = true ∨ inState (tgState k.1 s) = false) :
    tongsCmd k nw ni inState f s = bad s := by
  unfold tongsCmd
  split
  · rfl
  next hn =>
    rw [if_neg]
    rw [(h.resolve_left fun h => hn (.inl h)).resolve_left fun h => hn (.inr h)]
    decide

theorem tongsCmd_taken {inState : Nat → Bool} {f : State → State} (hk : k.1 < 27) (hb : ftst F.OWN_TONGS_CMD_BUSY s = false) (hi : inState (tgState k.1 s) = true) :
    tongsCmd k nw ni inState f s = f (tongsFields k nw ni s) := by
  have hfree : ¬ (27 ≤ k.1 ∨ ftst F.OWN_TONGS_CMD_BUSY s = true) := fun h => h.elim (Nat.not_le.2 hk) (Bool.eq_false_iff.1 hb)
  rw [tongsCmd, if_neg hfree, if_pos hi, tongsFields]

/-- A command by the rows that its state needs. -/
theorem exec_tongsCmd {c : Instr} {u : State} {inState : Nat → Bool} {f : State → State} {P : Prop} (hx : exec c s = .next (tongsCmd k nw ni inState f u))
    (hp : P ↔ inState (tgState k.1 u) = true) : (27 ≤ k.1 ∨ ftst F.OWN_TONGS_CMD_BUSY u = true ∨ ¬P → exec c s = .next (bad u)) ∧
    (k.1 < 27 → ftst F.OWN_TONGS_CMD_BUSY u = false → P → exec c s = .next (f (tongsFields k nw ni u))) := by
  rw [hp, Bool.not_eq_true]
  exact ⟨fun h => hx.trans (congrArg _ (tongsCmd_refused h)), fun hk hb hi => hx.trans (congrArg _ (tongsCmd_taken hk hb hi))⟩

end

theorem tongsRequest_shows {k : Fin 32} (hk : k.1 < 27) (s : State) : tgState k.1 (tongsRequest k s) = 1 ∧
    (tongsRequest k s).own.tongsDue[k.1]? = some (s.now + clampNat 1 10000 (fget F.OWN_TONGS_CFG_TO_MS s) * 1000000) := by
  refine ⟨fget_fput_fits _ _ (by show 9 < 32; decide) (by show 1 < 2 ^ 2; decide), ?_⟩
  have hidx : (Fin.ofNat 27 k.1).1 = k.1 := Nat.mod_eq_of_lt hk
  rw [tongsRequest]
  generalize s.now + clampNat 1 10000 (fget F.OWN_TONGS_CFG_TO_MS s) * 1000000 = due
  have hdue := upd_get_same s.own.tongsDue (Fin.ofNat 27 k.1) fun _ => due
  simp only [hidx] at hdue
  exact (Vector.getElem?_eq_getElem hk).trans (congrArg some hdue)

/-- A block's new owner, as its register shows it. -/
def blockGiven (k : Nat) (nw : Bool) (ni : Nat) (s : State) : State :=
  s |> fput (F.OWN_BLK_k_STATE k) tgOwned |> fput (F.OWN_BLK_k_WORLD k) nw.toNat |> fput (F.OWN_BLK_k_INST k) ni

theorem blockGiven_shows (k : Nat) (nw : Bool) {ni : Nat} (hn : ni < 32) (s : State) : let t := blockGiven k nw ni s
    tgState k t = 0 ∧ ftst (F.OWN_BLK_k_WORLD k) t = nw ∧ fget (F.OWN_BLK_k_INST k) t = ni := by
  have hinst (v : Nat) (u : State) : fget (F.OWN_BLK_k_STATE k) (fput (F.OWN_BLK_k_INST k) v u) = fget (F.OWN_BLK_k_STATE k) u :=
    fget_fput_beside _ _ _ _ rfl (by show 9 < 32; decide) (.inr (by show 5 < 8; decide))
  have hworld (v : Nat) (u : State) : fget (F.OWN_BLK_k_STATE k) (fput (F.OWN_BLK_k_WORLD k) v u) = fget (F.OWN_BLK_k_STATE k) u :=
    fget_fput_beside _ _ _ _ rfl (by show 9 < 32; decide) (.inr (by show 0 < 8; decide))
  have hshown (v : Nat) (u : State) : ftst (F.OWN_BLK_k_WORLD k) (fput (F.OWN_BLK_k_INST k) v u) = ftst (F.OWN_BLK_k_WORLD k) u :=
    ftst_fput_beside _ _ _ _ rfl (by show 0 < 32; decide) (.inl (by show 0 < 1; decide))
  refine ⟨?_, ?_, fget_fput_fits _ _ (by show 5 < 32; decide) hn⟩
  · rw [tgState, blockGiven, hinst, hworld]
    exact fget_fput_fits _ _ (by show 9 < 32; decide) (by show 0 < 4; decide)
  · rw [blockGiven, hshown]
    exact ftst_fput_toNat _ _ _ (by show 0 < 32; decide) (by show 0 ≤ 0; decide)

theorem rd_markGone {a : Nat} (ha : 0x4400000 ≤ a) (k : Nat) (f : Fin 24 → Nat → State → Nat) (s : State) : rd a (markGone k f s) = rd a s :=
  markGone_keeps (fun e q _ u => rd_wr_other _ u (slot_beside_own ha e q)) k f s

theorem fget_markGone {g : Fld} (ha : 0x4400000 ≤ g.addr) (k : Nat) (f : Fin 24 → Nat → State → Nat) (s : State) : fget g (markGone k f s) = fget g s :=
  fget_congr g (rd_markGone ha k f s)

theorem block_after_slots (k : Nat) : 0x4400000 ≤ R.OWN_BLK_k k := by
  simp only [R.OWN_BLK_k]
  omega

/-- A grant, before the slots of the block's queues take their new threads. -/
def granted (k : Nat) (nw : Bool) (ni : Nat) (s : State) : State :=
  blockGiven k nw ni (updOwn (fun o => { o with cache := o.cache.filter fun c => tongsBlockAt (4096 * c.page) != some k }) s)

theorem tongsGrant_eq (k : Nat) (nw : Bool) (ni : Nat) (s : State) : tongsGrant k nw ni s =
    markGone k (fun e q s => if ftst (F.ENG_THR_CFG_t_WORLD e.1 (fget (F.ENG_QSLOT_q_THREAD e.1 q) s)) s == nw then 0 else 1) (granted k nw ni s) := rfl

theorem tongsGrant_shows (k : Fin 27) (nw : Bool) {ni : Nat} (hn : ni < 32) (s : State) : let t := tongsGrant k.1 nw ni s
    tgState k.1 t = 0 ∧ ftst (F.OWN_BLK_k_WORLD k.1) t = nw ∧ fget (F.OWN_BLK_k_INST k.1) t = ni ∧ (∀ c ∈ t.own.cache, tongsBlockAt (4096 * c.page) ≠ some k.1) := by
  obtain ⟨hstate, hworld, hinst⟩ := blockGiven_shows k.1 nw hn (updOwn (fun o => { o with cache := o.cache.filter fun c => tongsBlockAt (4096 * c.page) != some k.1 }) s)
  have hblock := block_after_slots k.1
  rw [tongsGrant_eq]
  refine ⟨(fget_markGone hblock ..).trans hstate, (ftst_of_fget (fget_markGone hblock ..)).trans hworld, (fget_markGone hblock ..).trans hinst, fun c hc => ?_⟩
  rw [markGone_keeps (obs := State.own) fun _ _ _ _ => rfl] at hc
  simpa using (List.mem_filter.1 hc).2

theorem tongsDone_shows (k : Fin 27) (s : State) : tgState k.1 (tongsDone k.1 s) = 3 ∧ fbit F.OWN_EVENT 5 (tongsDone k.1 s) = true ∧ SameMem s (tongsDone k.1 s) ∧
    ∀ (e : Fin 24) (q : Fin 24), ftst (F.ENG_QSLOT_q_EN e.1 q.1) s = true → qBlock (fget (F.ENG_QSLOT_q_QID e.1 q.1) s) = some k.1 →
      ftst (F.ENG_QSLOT_q_GONE e.1 q.1) (tongsDone k.1 s) = true := by
  have hblock := block_after_slots k.1
  have hevent : (F.OWN_BLK_k_STATE k.1).addr ≠ F.OWN_EVENT.addr := by
    simp only [F.OWN_BLK_k_STATE, F.OWN_EVENT, R.OWN_BLK_k, R.OWN_EVENT]
    omega
  refine ⟨?_, fbit_raise _ _ _ (by decide), sameMem_of ?_ ?_, fun e q he hq => ?_⟩
  · rw [tgState, tongsDone, fget_raise_other _ _ _ _ hevent, fget_markGone hblock]
    exact fget_fput_fits _ _ (by show 9 < 32; decide) (by show 3 < 4; decide)
  · rw [tongsDone, raise_mem, markGone_keeps (obs := State.mem) fun _ _ _ _ => rfl, fput_mem]
  · rw [tongsDone, raise_dram, markGone_keeps (obs := State.dram) fun _ _ _ _ => rfl, fput_dram]
  · have hseen : slotSeen e q (fput (F.OWN_BLK_k_STATE k.1) tgGrantable s) = slotSeen e q s := by
      have hne := (slot_beside_own hblock e q).symm
      rw [slotSeen, ftst_fput_other _ _ _ _ hne, ftst_fput_other _ _ _ _ hne, fget_fput_other _ _ _ _ hne, slotSeen]
    have hmarked := congrArg (fun x => x.2.2) (slotSeen_markGone k.1 e q (fput (F.OWN_BLK_k_STATE k.1) tgGrantable s))
    rw [hseen] at hmarked
    have hgone : (slotMarked k.1 (slotSeen e q s)).2.2 = true := by simp [slotMarked, slotSeen, he, hq]
    refine (ftst_raise_other _ _ _ _ ?_).trans (hmarked.trans hgone)
    exact (slot_beside_own (by decide) e q).symm

/-! ### TONGS_REL and the time limit (R477, R480) -/

section
variable {w : Initiator} {k : Nat}

theorem tongsRel_owner (hk : k < 27) (ho : blockOwner w k s = true) (ht : tgState k s ≤ 1) : tongsRel w k s = tongsReset k false s := by
  simp only [tongsRel, hk, ho, decide_eq_true (show tgState k s ≤ tgReleasing from ht), decide_true, Bool.and_self, if_true]

theorem tongsRel_refused (h : 27 ≤ k ∨ blockOwner w k s = false ∨ 2 ≤ tgState k s) : tongsRel w k s = bad (violateBy w R.OWN_TONGS_REL true 3 s) := by
  refine if_neg fun hc => ?_
  simp only [Bool.and_eq_true, decide_eq_true_eq] at hc
  obtain ⟨⟨hk, ho⟩, ht⟩ := hc
  obtain h | h | h := h
  · exact absurd hk (Nat.not_lt.2 h)
  · exact Bool.eq_false_iff.1 h ho
  · exact absurd ht (Nat.not_le.2 h)

end

/-- The end of a release's time, shown. -/
def tongsLate (k : Fin 27) (s : State) : State := raise F.OWN_EVENT 6 (updOwn (fun o => { o with tongsDue := upd o.tongsDue k fun _ => 0 }) s)

theorem exec_tongsTimeout_due {k : Fin 27} (hs : tgState k.1 s = 1) (hd : s.own.tongsDue[k.1] ≠ 0) (ht : s.own.tongsDue[k.1] ≤ s.now) :
    exec (.tongsTimeout k) s = .next (if ftst F.OWN_TONGS_CFG_AUTO_FORCE s then tongsReset k.1 true (tongsLate k s) else tongsLate k s) := by
  have hforce : ftst F.OWN_TONGS_CFG_AUTO_FORCE (tongsLate k s) = ftst F.OWN_TONGS_CFG_AUTO_FORCE s :=
    (ftst_raise_other _ _ _ _ (by decide)).trans (ftst_of_fget (fget_updOwn ..))
  have hgo : ¬ (tgState k.1 s ≠ tgReleasing ∨ s.own.tongsDue[k.1] = 0) := fun h => h.elim (· hs) hd
  change execTongsTimeout k s = _
  rw [execTongsTimeout, if_neg hgo, elapseTo_past ht, ← hforce]
  rfl

theorem exec_tongsDone {k : Fin 27} (hs : tgState k.1 s = 2) : exec (.tongsDone k) s = .next (tongsDone k.1 s) := congrArg _ (if_pos hs)

end

/-- Settles O50: the check by what decides it, a hand-over by the state of its block, and GONE one slot at a time. -/
theorem ownershipAndTongs : Obligations.OwnershipAndTongs := by
  refine ⟨fun w a wr_ s hu => ⟨initCheck_free hu, initCheck_inTable hu, fun p he hw ht hp hc => ⟨initCheck_allows_iff hu he hw ht hp hc, initCheck_sameMem w a wr_ s, initCheck_wordBad hu he hw ht hp hc⟩⟩,
    fun w a wr_ s => initCheck_unowned, violateBy_shows, fun w all s hl hw => ?_, fun p s => does_invalDone, fun w s hl => ?_, fun w b en s hl hw => congrArg _ (regCmd_hearth hl hw _),
    fun w k ni nw op s hl hw => ?_, fun k s hk => tongsRequest_shows hk s, fun k nw ni s hn => tongsGrant_shows k nw hn s, fun w k s hl => ?_,
    fun k s => exec_tongsTimeout_due, fun k s hs => does_of (exec_tongsDone hs) (tongsDone_shows k s), fun w s hl hw => congrArg _ (regCmd_hearth hl hw _)⟩
  · have hx : exec (if all then .invalAll w else .invalPage w) s =
        .next (invalCmd (if all then none else some (fget F.OWN_INVAL_ADDR_PAGE (entered w R.OWN_INVAL_CMD s))) (ok (entered w R.OWN_INVAL_CMD s))) := by
      cases all with
      | false => exact congrArg _ (regCmd_hearth hl hw _)
      | true => exact congrArg _ (regCmd_hearth hl hw _)
    have hbusy := invalCmd_busy (s := ok (entered w R.OWN_INVAL_CMD s))
    have htaken := invalCmd_taken (s := ok (entered w R.OWN_INVAL_CMD s))
    exact ⟨fun h => hx.trans (congrArg _ (hbusy h _)), fun h => hx.trans (congrArg _ (htaken h _))⟩
  · have hx : exec (.violPop w) s = .next (violPop w (ok (entered w R.OWN_VIOL_POP s))) := congrArg _ (regRead_lets hl _)
    refine ⟨fun h => hx.trans (congrArg _ (violPop_none h)), fun v rest h => does_of (hx.trans (congrArg _ (violPop_some h))) (violPopped_shows ..)⟩
  · match op with
    | 0 =>
      have hx : exec (.tongsRequest w k nw ni) s = .next (tongsCmd k nw ni (· == tgOwned) (tongsRequest k) (ok (entered w R.OWN_TONGS_CMD s))) := congrArg _ (regCmd_hearth hl hw _)
      exact exec_tongsCmd hx (by simp [tgOwned]; rfl)
    | 1 =>
      have hx : exec (.tongsForce w k nw ni) s = .next (tongsCmd k nw ni (fun x => x == tgOwned || x == tgReleasing) (tongsReset k.1 true) (ok (entered w R.OWN_TONGS_CMD s))) :=
        congrArg _ (regCmd_hearth hl hw _)
      exact exec_tongsCmd hx (by simp [tgOwned, tgReleasing]; rfl)
    | 2 =>
      have hx : exec (.tongsGrant w k nw ni) s = .next (tongsCmd k nw ni (· == tgGrantable) (tongsGrant k.1 nw ni.1) (ok (entered w R.OWN_TONGS_CMD s))) :=
        congrArg _ (regCmd_hearth hl hw _)
      exact exec_tongsCmd hx (by simp [tgGrantable]; rfl)
  · have hx : exec (.tongsRel w k) s = .next (tongsRel w k.1 (ok (entered w R.OWN_TONGS_REL s))) := congrArg _ (regCmd_lets hl _)
    exact ⟨fun hk ho ht => hx.trans (congrArg _ (tongsRel_owner hk ho ht)), fun h => hx.trans (congrArg _ (tongsRel_refused h))⟩

end Sys2Proof.Machine

/-!
Anvil's time limit, keep-alive votes, the life cycle, and the Hearth watchdog with its restart (O51).
-/
namespace Sys2Proof.Machine

section
variable {w : Initiator} {s : State}

/-! ### Anvil's limit and keep-alive votes (R473, R482) -/

theorem exec_anvilTimeout_due {h : Fin 8} (hw : (s.harts[h.1]).world = true)
    (ht : (s.harts[h.1]).anvilSince + clampNat 10 10000 (fget F.OWN_ANVIL_MAX_US s) * 1000 ≤ s.now) :
    exec (.anvilTimeout h) s = .next (raise F.OWN_EVENT 4 (anvilReturn h (some (-17)) s)) := by
  change execAnvilTimeout h s = _
  rw [execAnvilTimeout, hw, elapseTo_past ht]
  rfl

/-- A hart as Anvil returns it with a value in a0. -/
def returned (code : Int) (x : Hart) : Hart := { x with world := false, mode := x.mpp, mie := x.mpie, pc := x.mepc + 4, a0 := BitVec.ofInt 64 code }

theorem anvilReturn_eq (h : Fin 8) (code : Int) (s : State) : anvilReturn h (some code) s = updHart h (returned code) s := rfl

/-- A vote for islands that run, and that no vote has held, changes the votes alone. -/
theorem keepAlive_running (v : Word) (hr : ∀ i : Fin 21, islSt i s = .run) (hh : ∀ i : Fin 21, (s.isl[i.1]).held = false) :
    keepAlive v s = wr R.OWN_KEEPALIVE (v &&& 0x1FFFFF) s := by
  unfold keepAlive
  refine List.foldl_fixed' (fun i => ?_) _
  have hrun : ((wr R.OWN_KEEPALIVE (v &&& 0x1FFFFF) s).isl[i.1]).st = .run := hr i
  have hheld : ((wr R.OWN_KEEPALIVE (v &&& 0x1FFFFF) s).isl[i.1]).held = false := hh i
  simp only [hrun, hheld, Bool.and_false, Bool.false_eq_true, if_false, ite_self]

/-! ### The life cycle (R483) -/

theorem lcAllowed_iff (old : Nat) (target : Fin 4) : lcAllowed old target.1 = true ↔ (old = 0 ∧ (target = 1 ∨ target = 2)) ∨ (old = 2 ∧ target = 3) := by
  simp only [lcAllowed, Bool.or_eq_true, Bool.and_eq_true, beq_iff_eq, Fin.ext_iff]
  exact Iff.rfl

section
variable {target : Fin 4} {code : BitVec 16}

theorem lcCmd_blown (hc : code = 0x4C43) (ha : lcAllowed s.own.lcPending target.1 = true) (hf : fuseSupply s = true) :
    lcCmd target.1 code s = fput F.OWN_LC_STAT_RESULT Status.done.code (updOwn (fun o => { o with lcPending := target.1 }) s) := by
  refine if_pos ?_
  rw [hc, ha, hf]
  rfl

theorem lcCmd_refused (h : code ≠ 0x4C43 ∨ ¬ lcAllowed s.own.lcPending target.1 = true ∨ fuseSupply s = false) :
    lcCmd target.1 code s = fput F.OWN_LC_STAT_RESULT Status.failedRefused.code s := by
  refine if_neg fun hc => ?_
  simp only [Bool.and_eq_true, beq_iff_eq] at hc
  obtain ⟨⟨hcode, ha⟩, hf⟩ := hc
  exact h.elim (· hcode) (·.elim (· ha) (Bool.eq_false_iff.1 · hf))

end

/-! ### Kicks and expiries (R485, R487) -/

section
variable {v : Word}

theorem hwdtKick_taken (hw : w = .hc) (hv : v = 0xC35A) (hr : ftst F.OWN_HWDT_STAT_IN_RESTART s = false) :
    hwdtKick w v s = updOwn (fun o => { o with kickDue := s.now + clampNat 10 1000 (fget F.OWN_HWDT_CFG_PERIOD_MS s) * 1000000 }) s := by
  subst hw hv
  refine (if_pos rfl).trans (if_neg ?_)
  rw [hr]
  decide

theorem hwdtKick_wrong (h : w ≠ .hc ∨ v ≠ 0xC35A) : hwdtKick w v s = hearthExpiry 1 s := by
  refine if_neg fun hc => ?_
  simp only [Bool.and_eq_true, beq_iff_eq] at hc
  exact h.elim (· hc.1) (· hc.2)

end

theorem exec_hearthRestart_due (hd : s.own.kickDue ≠ 0) (ht : s.own.kickDue ≤ s.now) : exec .hearthRestart s = .next (hearthExpiry 1 s) := by
  change execHearthRestart s = _
  rw [execHearthRestart, if_neg hd, elapseTo_past ht]

theorem hearthExpiry_first (d : Nat) (h : s.own.firstExpiry = none) : hearthExpiry d s = hearthRestart s := by
  rw [hearthExpiry, h]

theorem hearthExpiry_again (d : Nat) {t : Nat} (h : s.own.firstExpiry = some t) :
    hearthExpiry d s = if s.now ≤ t + 10000000000 then chipReset kindHearth d s else hearthRestart s := by
  rw [hearthExpiry, h]

/-! ### The restart (R486) -/

/-- What the restart shows. -/
def restartMarks (s : State) : State :=
  s |> fput F.OWN_HWDT_STAT_IN_RESTART 1 |> fput F.OWN_HWDT_STAT_SERVICE_UP 0 |> raise F.OWN_EVENT 7 |> fput F.SYSCTL_RESET_CAUSE_HEARTH 1
    |> fput F.OWN_HWDT_STAT_RESTARTS (min 255 (fget F.OWN_HWDT_STAT_RESTARTS s + 1))

/-- The timer of a restart that begins. -/
def restartTimed (s : State) : State := updOwn (fun o => { o with firstExpiry := some s.now, kickDue := s.now + 100000000 }) s

/-- A hart in Anvil returns when Hearth restarts. -/
def restartHart (h : Fin 8) (s : State) : State := if s.harts[h.1].world then anvilReturn h (some (-16)) s else s

/-- A restart, before what Hearth held is dropped. -/
def restartBegun (s : State) : State := updCwy (fun c => { c with hcBoot := true }) (forFin 8 restartHart (restartTimed (restartMarks s)))

theorem hearthRestart_eq (s : State) : hearthRestart s = expireKeys (migAbort .abortedReset (cryDrop isHcJob .abortedReset (icTargetLost 12 (restartBegun s)))) := rfl

section
variable {α : Type} {f : State → α}

theorem cryDrop_keeps (h : JobBlind f) (hk : ∀ g s, f (updKey g s) = f s) (p : CrySub → Bool) (st : Status) (s : State) : f (cryDrop p st s) = f s := by
  unfold cryDrop
  extract_lets gone mark u
  exact (foldl_keeps (fun s j => cryEnd_keeps h _ st s) gone u).trans (hk _ s)

theorem icTargetLost_keeps (t : Fin 13) (hb : Beside (· = R.IC_STAT_t t.1) f) (hi : ∀ c s, f { s with ic := c } = f s) (s : State) : f (icTargetLost t s) = f s := by
  rw [icTargetLost, putStack, icShow, hb.fput _ _ rfl, hb.fput _ _ rfl, hb.fput _ _ rfl]
  exact (hi _ _).trans (hi _ s)

theorem expireKeys_keeps (hb : Beside inSlots f) (hk : ∀ g s, f (updKey g s) = f s) (s : State) : f (expireKeys s) = f s := by
  refine forFin_keeps (fun p s => ?_) s
  split
  · refine clearPart_keeps hk p (fun as s h => hb.clearRegs s fun a ha => ?_) s
    obtain ⟨hlo, hhi⟩ := h a ha
    simp only [R.KEY_ATTR_s_h] at hlo hhi
    omega
  · rfl

/-- The registers that the end of a restart writes, beside those of the jobs that it drops. -/
abbrev restartReg (a : Nat) : Prop := inSlots a ∨ migReg a ∨ a = R.IC_STAT_t 12

theorem hearthRestart_keeps (h : JobBlind f) (hb : Beside restartReg f) (hk : ∀ g s, f (updKey g s) = f s) (hv : ∀ v s, f { s with vqi := v } = f s)
    (hi : ∀ c s, f { s with ic := c } = f s) (s : State) : f (hearthRestart s) = f (restartBegun s) := by
  rw [hearthRestart_eq, expireKeys_keeps (hb.mono fun _ => .inl) hk, migAbort_keeps (hb.mono fun _ h => .inr (.inl h)) hv, cryDrop_keeps h hk,
    icTargetLost_keeps 12 (hb.mono fun _ h => .inr (.inr h)) hi]

end

/-- What a restart leaves of the watchdog, of HC and of the harts. -/
def restartSeen (s : State) : Option Nat × Nat × Bool × Vector Hart 8 := (s.own.firstExpiry, s.own.kickDue, s.cwy.hcBoot, s.harts)

theorem restartSeen_hearthRestart (s : State) : restartSeen (hearthRestart s) = restartSeen (restartBegun s) := by
  have haccess : AccessBlind restartSeen :=
    ⟨beside_of_regs fun _ _ => rfl, fun _ _ => rfl, fun _ _ => rfl, fun _ _ => rfl, fun _ _ => rfl⟩
  exact hearthRestart_keeps (jobBlind_of_access haccess (fun _ _ => rfl) (fun _ _ _ => rfl) (fun _ _ => rfl) fun _ _ => rfl) (beside_of_regs fun _ _ => rfl)
    (fun _ _ => rfl) (fun _ _ => rfl) (fun _ _ => rfl) s

theorem stat_hearthRestart (s : State) : rd R.OWN_HWDT_STAT (hearthRestart s) = rd R.OWN_HWDT_STAT (restartBegun s) :=
  hearthRestart_keeps (jobBlind_rd (by decide) (by decide) (by decide) (by decide)) (beside_rd (by decide)) (fun _ _ => rfl) (fun _ _ => rfl) (fun _ _ => rfl) s

/-- The events of violations are not that of a restart. -/
theorem jobBlind_restartEvent : JobBlind (fbit F.OWN_EVENT 7) where
  regs := beside_fbit (by decide)
  event s hn := fbit_raise_ne F.OWN_EVENT (by decide) (by omega) s
  cache _ _ := rfl
  viol _ _ := rfl
  bad _ _ := rfl
  jobs := beside_fbit (by decide)
  fill v s := fbit_fput_other _ _ _ _ s (by decide)
  mem _ _ _ := rfl
  coll _ _ := rfl
  done _ _ := rfl

theorem event_hearthRestart (s : State) : fbit F.OWN_EVENT 7 (hearthRestart s) = fbit F.OWN_EVENT 7 (restartBegun s) :=
  hearthRestart_keeps jobBlind_restartEvent (beside_fbit (by decide)) (fun _ _ => rfl) (fun _ _ => rfl) (fun _ _ => rfl) s

theorem restartHart_keeps {α : Type} {f : State → α} (h : Fin 8) (hf : ∀ g s, f (updHart h g s) = f s) (s : State) : f (restartHart h s) = f s := by
  unfold restartHart
  split
  · exact hf _ s
  · rfl

theorem rd_restartBegun {a : Nat} (ha : a < 0x4400100) (s : State) : rd a (restartBegun s) = rd a (restartMarks s) := by
  have hhart (h : Fin 8) (g : Hart → Hart) (u : State) : rd a (updHart h g u) = rd a u :=
    rd_fput_other (F.OWN_HART_CFG_h_WORLD h.1) _ _ (by simp only [F.OWN_HART_CFG_h_WORLD, R.OWN_HART_CFG_h]; omega)
  have hharts (u : State) : rd a (forFin 8 restartHart u) = rd a u := forFin_keeps (f := restartHart) (obs := rd a) (fun h => restartHart_keeps h (hhart h)) u
  rw [restartBegun, rd_updCwy, hharts, restartTimed, rd_updOwn]

theorem restartMarks_shows (s : State) : fget F.OWN_HWDT_STAT_IN_RESTART (restartMarks s) = 1 ∧ fget F.OWN_HWDT_STAT_SERVICE_UP (restartMarks s) = 0 ∧
    fbit F.OWN_EVENT 7 (restartMarks s) = true := by
  refine ⟨?_, ?_, ?_⟩
  · simp (disch := decide) only [restartMarks, fget_fput_beside, fget_fput_other, fget_raise_other, fget_fput_fits]
  · simp (disch := decide) only [restartMarks, fget_fput_beside, fget_fput_other, fget_raise_other, fget_fput_fits]
  · rw [restartMarks, fbit_fput_other _ _ _ _ _ (by decide), fbit_fput_other _ _ _ _ _ (by decide)]
    exact fbit_raise _ _ _ (by decide)

theorem restartMarks_now (s : State) : (restartMarks s).now = s.now := by simp only [restartMarks, fput_now, raise_now]

theorem restartMarks_harts (s : State) : (restartMarks s).harts = s.harts := by simp only [restartMarks, fput_harts, raise_harts]

/-- What a restart makes of a hart. -/
def restartedHart (x : Hart) : Hart := if x.world then returned (-16) x else x

theorem hart_restartHart (h : Fin 8) (s : State) : (restartHart h s).harts[h.1] = restartedHart s.harts[h.1] := by
  unfold restartHart restartedHart
  split
  · rw [anvilReturn_eq, hart_updHart]
  · rfl

theorem harts_restartBegun (h : Fin 8) (s : State) : (restartBegun s).harts[h.1] = restartedHart s.harts[h.1] := by
  have hreturned : (forFin 8 restartHart (restartTimed (restartMarks s))).harts[h.1] = restartedHart (restartTimed (restartMarks s)).harts[h.1] :=
    forFin_at (f := restartHart) (obs := fun s => s.harts[h.1]) (g := restartedHart) (hart_restartHart h)
      (fun g hg u => restartHart_keeps (f := fun s => s.harts[h.1]) g (fun f u => hart_updHart_other hg.symm f u) u) _
  rw [restartBegun, updCwy, hreturned, restartTimed, updOwn, restartMarks_harts]

/-- What a restart leaves of the watchdog and of HC. -/
theorem own_restartBegun (s : State) : (restartBegun s).own.firstExpiry = some s.now ∧ (restartBegun s).own.kickDue = s.now + 100000000 ∧ (restartBegun s).cwy.hcBoot = true := by
  have hharts (u : State) : (forFin 8 restartHart u).own = u.own := forFin_keeps (f := restartHart) (obs := State.own) (fun h => restartHart_keeps h fun _ _ => rfl) u
  have hown : (restartBegun s).own = (restartTimed (restartMarks s)).own := by rw [restartBegun, updCwy, hharts]
  rw [hown, restartTimed, restartMarks_now]
  exact ⟨rfl, rfl, rfl⟩

theorem hearthRestart_shows (s : State) : let t := hearthRestart s
    fget F.OWN_HWDT_STAT_IN_RESTART t = 1 ∧ fget F.OWN_HWDT_STAT_SERVICE_UP t = 0 ∧ fbit F.OWN_EVENT 7 t = true ∧ t.own.firstExpiry = some s.now ∧ t.own.kickDue = s.now + 100000000 ∧
    t.cwy.hcBoot = true ∧ ∀ h : Fin 8, t.harts[h.1] = restartedHart s.harts[h.1] := by
  intro t
  obtain ⟨hin, hup, hevent⟩ := restartMarks_shows s
  obtain ⟨hfirst, hdue, hboot⟩ := own_restartBegun s
  have hstat : rd R.OWN_HWDT_STAT t = rd R.OWN_HWDT_STAT (restartMarks s) := (stat_hearthRestart s).trans (rd_restartBegun (by decide) s)
  have hraised : fbit F.OWN_EVENT 7 t = fbit F.OWN_EVENT 7 (restartMarks s) := (event_hearthRestart s).trans (fbit_congr _ _ (rd_restartBegun (by decide) s))
  obtain ⟨hfirst', hseen⟩ := Prod.mk.inj (restartSeen_hearthRestart s)
  obtain ⟨hdue', hseen⟩ := Prod.mk.inj hseen
  obtain ⟨hboot', hharts⟩ := Prod.mk.inj hseen
  refine ⟨(fget_congr _ hstat).trans hin, (fget_congr _ hstat).trans hup, hraised.trans hevent, hfirst'.trans hfirst, hdue'.trans hdue, hboot'.trans hboot, fun h => ?_⟩
  simp only [t, hharts, harts_restartBegun]

/-! ### The image and the service (R486, R487) -/

theorem exec_hearthImageVerify {t0 : Nat} (hr : ftst F.OWN_HWDT_STAT_IN_RESTART s = true) (hb : s.cwy.hcBoot = true) (hf : s.own.firstExpiry = some t0) :
    let u := elapseTo (t0 + 100000) s; let k := fget F.SYSCTL_BOOT_STATUS_SLOT u
    exec .hearthImageVerify s = .next (
      if signatureOk k u = false then chipReset kindHearth 2 u
      else if sha512 (hearthImage k u) ≠ measBytes u then chipReset kindHearth 3 u
      else updCwy (fun c => { c with hcBoot := false }) (mwrBytes (tcmBase 4) (hearthImage k u) u)) := by
  have hpath : hearthPath s = elapseTo (t0 + 100000) s := by rw [hearthPath, hf]
  change execHearthImageVerify s = _
  simp only [execHearthImageVerify, hr, hb, hpath, Bool.not_true, Bool.or_self, Bool.false_eq_true, if_false, Bool.not_eq_true', bne_iff_ne]

/-- The kick of a service that is up again. -/
def serviceKick (s : State) : State := updOwn (fun o => { o with kickDue := s.now + clampNat 10 1000 (fget F.OWN_HWDT_CFG_PERIOD_MS s) * 1000000 }) s

/-- The watchdog as the end of a restart leaves it. -/
def serviceTimed (s : State) : State := whenB (ftst F.OWN_HWDT_STAT_IN_RESTART s) serviceKick s

theorem serviceUp_eq (s : State) : serviceUp s = fput F.OWN_HWDT_STAT_SERVICE_UP 1 (fput F.OWN_HWDT_STAT_IN_RESTART 0 (serviceTimed s)) := rfl

theorem kickDue_serviceTimed (s : State) : (serviceTimed s).own.kickDue =
    if ftst F.OWN_HWDT_STAT_IN_RESTART s then s.now + clampNat 10 1000 (fget F.OWN_HWDT_CFG_PERIOD_MS s) * 1000000 else s.own.kickDue := by
  unfold serviceTimed whenB
  split
  · rfl
  · rfl

theorem serviceUp_stat (s : State) : fget F.OWN_HWDT_STAT_IN_RESTART (serviceUp s) = 0 ∧ fget F.OWN_HWDT_STAT_SERVICE_UP (serviceUp s) = 1 := by
  rw [serviceUp_eq]
  generalize serviceTimed s = u
  refine ⟨?_, fget_fput_fits _ _ (by decide) (by decide)⟩
  simp (disch := decide) only [fget_fput_beside, fget_fput_fits]

theorem resp_updOwn (g : OwnSt → OwnSt) (s : State) : (updOwn g s).resp = s.resp := rfl

theorem serviceUp_resp (s : State) : (serviceUp s).resp = s.resp := by
  have hresp : (serviceTimed s).resp = s.resp := whenB_keeps (f := State.resp) (g := serviceKick) (fun _ => resp_updOwn ..) _ s
  rw [serviceUp_eq, fput_resp, fput_resp, hresp]

theorem serviceUp_own (s : State) : (serviceUp s).own = (serviceTimed s).own := by
  rw [serviceUp_eq, fput_own, fput_own]

end

/-- Settles O51: the restart by what the drop of HC's jobs and keys does not show in, the rest by what each command writes. -/
theorem hearthWatchdogAndLifeCycle : Obligations.HearthWatchdogAndLifeCycle := by
  refine ⟨fun h s hw ht => ?_, fun w v s hl => ⟨fun hw => congrArg _ (regCmd_hearth_refused hl hw _), fun hw => congrArg _ (regCmd_hearth hl hw _)⟩,
    fun v s hr hh => keepAlive_running v hr hh, fun w target code s hl hw => ?_, fun w v s hl => ?_, fun s => exec_hearthRestart_due, fun s => rfl,
    fun d s => ⟨hearthExpiry_first d, fun t h => ⟨fun hn => ?_, fun hn => ?_⟩⟩, fun s => ?_, fun t0 s => exec_hearthImageVerify, fun w s hl hw => ?_⟩
  · have hhart : (anvilReturn h (some (-17)) s).harts[h.1] = returned (-17) s.harts[h.1] := hart_updHart ..
    refine does_of (exec_anvilTimeout_due hw ht) ?_
    simp only [raise_harts, hhart]
    exact ⟨rfl, rfl, rfl, rfl, rfl, fbit_raise _ _ _ (by decide), fun _ => rfl⟩
  · have hx : exec (.lcCmd w target code) s = .next (lcCmd target.1 code (ok (entered w R.OWN_LC_CMD s))) := congrArg _ (regCmd_hearth hl hw _)
    intro allowed
    have hiff : allowed ↔ lcAllowed (ok (entered w R.OWN_LC_CMD s)).own.lcPending target.1 = true := (lcAllowed_iff _ target).symm
    rw [hiff, hx]
    exact ⟨fun hc ha hf => congrArg _ (lcCmd_blown hc ha hf), fun h => congrArg _ (lcCmd_refused h)⟩
  · have hx : exec (.hwdtKick w v) s = .next (hwdtKick w v (ok (entered w R.OWN_HWDT_KICK s))) := congrArg _ (regCmd_lets hl _)
    have htaken := hwdtKick_taken (w := w) (v := v) (s := ok (entered w R.OWN_HWDT_KICK s))
    exact ⟨fun hw hv hr => hx.trans (congrArg _ (htaken hw hv hr)), fun h => hx.trans (congrArg _ (hwdtKick_wrong h))⟩
  · rw [hearthExpiry_again d h, if_pos hn]
  · rw [hearthExpiry_again d h, if_neg (Nat.not_le.2 hn)]
  · obtain ⟨hin, hup, hevent, hfirst, hdue, hboot, hharts⟩ := hearthRestart_shows s
    refine ⟨hin, hup, hevent, hfirst, hdue, hboot, fun h => ?_⟩
    rw [hharts h, restartedHart]
    cases hw : (s.harts[h.1]).world with
    | true => exact ⟨rfl, fun _ => ⟨rfl, rfl⟩, nofun⟩
    | false => exact ⟨hw, nofun, fun _ => rfl⟩
  · have hx : exec (.serviceUp w) s = .next (serviceUp (ok (entered w R.OWN_HWDT_STAT s))) := congrArg _ (regCmd_hearth hl hw _)
    obtain ⟨hin, hup⟩ := serviceUp_stat (ok (entered w R.OWN_HWDT_STAT s))
    refine ⟨_, hx, hin, hup, (serviceUp_resp _).trans (ok_resp _), ?_⟩
    rw [serviceUp_own]
    exact kickDue_serviceTimed (ok (entered w R.OWN_HWDT_STAT s))

end Sys2Proof.Machine

/-!
Crypto jobs from their submission to their end, and the commands of the key slots (O56).
-/
namespace Sys2Proof.Machine

section
variable {s : State}

/-! ### Submission by the host (R547, R549) -/

/-- The check of an access writes above the registers of the engines. -/
theorem not_accessReg_low {a : Nat} (h : a < 0x4000000) : ¬ accessReg a := fun hr => by
  have hhigh : ∀ b ∈ [R.OWN_VIOL_CNT, R.OWN_TONGS_BLOCKED_CNT, R.OWN_CACHE_MISS_CNT, R.MEM_ECC_LAST_LO, R.MEM_ECC_LAST_HI, R.MEM_ECC_UE_CNT, R.MEM_EVENT, R.MEM_UNMAP_CNT,
    R.MEM_UNMAP_LO, R.MEM_UNMAP_HI], 0x4000000 ≤ b := by decide
  exact absurd h (Nat.not_lt.2 (hhigh a hr))

/-- An initiator's world lies beside what the check of an access changes. -/
theorem accessBlind_initWorld (w : Initiator) : AccessBlind (initWorld w) := by
  cases w with
  | hart n => exact accessBlind_of_regs (fun _ _ => rfl) (fun _ _ => rfl) fun _ _ => rfl
  | pair n => exact accessBlind_of_regs (fun _ _ => rfl) (fun _ _ => rfl) fun _ _ => rfl
  | hc => exact accessBlind_of_regs (fun _ _ => rfl) (fun _ _ => rfl) fun _ _ => rfl
  | thread e t =>
    have hreg : R.ENG_THR_CFG_t e.1 t.1 < 0x4000000 := by
      simp only [R.ENG_THR_CFG_t]
      omega
    exact accessBlind_ftst (g := F.ENG_THR_CFG_t_WORLD e.1 t.1) (not_accessReg_low hreg) fun h => absurd (h.symm.trans_lt hreg) (by decide)
  | debug => exact accessBlind_ftst (by decide) (by decide)

/-- Whether a job is the host's. -/
def hostJob (j : CryJob) : Bool := match j.sub with | .host _ => true | _ => false

/-- Where the host has placed a descriptor. -/
def jqAddr (s : State) : Nat := (rd R.KEY_JQ_ADDR_LO s).toNat / 64 * 64 + 2 ^ 32 * fget F.KEY_JQ_ADDR_HI s

/-- A submission that is refused. -/
def jqRefused (s : State) : State := fput F.KEY_JQ_STAT_LAST Status.failedRefused.code (bump R.KEY_REFUSED s)

section
variable {w : Initiator}

theorem jqSubmit_full (h : 16 ≤ cryCount hostJob s) : jqSubmit w s = jqRefused s := if_pos h

section
variable (h : cryCount hostJob s < 16)
include h

theorem jqSubmit_unread (hr : (unitRead (initIdent w s) (jqAddr s) 64 s).1 = none) : jqSubmit w s = jqRefused (unitRead (initIdent w s) (jqAddr s) 64 s).2 := by
  have hpair : unitRead (initIdent w s) (jqAddr s) 64 s = (none, (unitRead (initIdent w s) (jqAddr s) 64 s).2) := Prod.ext hr rfl
  refine (if_neg (Nat.not_le.2 h)).trans ?_
  rw [← jqAddr, hpair]
  rfl

theorem jqSubmit_read {d : List Byte} (hr : (unitRead (initIdent w s) (jqAddr s) 64 s).1 = some d) : jqSubmit w s =
    let x := (unitRead (initIdent w s) (jqAddr s) 64 s).2
    if jobInvalid d then jqRefused x else fput F.KEY_JQ_STAT_LAST Status.done.code (cryEnqueue (.host (w == .hc)) (initIdent w x) (jqAddr s) d x) := by
  have hpair : unitRead (initIdent w s) (jqAddr s) 64 s = (some d, (unitRead (initIdent w s) (jqAddr s) 64 s).2) := Prod.ext hr rfl
  refine (if_neg (Nat.not_le.2 h)).trans ?_
  rw [← jqAddr, hpair]
  rfl

end
end

/-- A job at the end of the queue, as the host's submission leaves it. -/
theorem submitted_shows (w : Initiator) (a : Nat) (d : List Byte) (x : State) : let t := fput F.KEY_JQ_STAT_LAST Status.done.code (cryEnqueue (.host (w == .hc)) (initIdent w x) a d x)
    fget F.KEY_JQ_STAT_LAST t = Status.done.code ∧
      ∃ j : CryJob, t.key.queue = x.key.queue ++ [j] ∧ j.desc = d ∧ j.at_ = a ∧ j.sub = .host (w == .hc) ∧ j.world = initWorld w x :=
  ⟨fget_fput_fits _ _ (by decide) (by decide), _, rfl, rfl, rfl, rfl, rfl⟩

theorem jqAddr_ok (s : State) : jqAddr (ok s) = jqAddr s := by
  rw [jqAddr, rd_ok, fget_ok, jqAddr]

/-- A submission by the host's jobs outstanding, by what is read of the descriptor and by the descriptor's form. -/
theorem exec_jqSubmit {w : Initiator} {c : Instr} {s u : State} {a host : Nat} (hx : exec c s = .next (jqSubmit w u)) (ha : jqAddr u = a) (hh : cryCount hostJob u = host) :
    (16 ≤ host → exec c s = .next (jqRefused u)) ∧
    let x := (unitRead (initIdent w u) a 64 u).2
    (host < 16 → (unitRead (initIdent w u) a 64 u).1 = none → exec c s = .next (jqRefused x)) ∧
    ∀ d, host < 16 → (unitRead (initIdent w u) a 64 u).1 = some d → (jobInvalid d = true → exec c s = .next (jqRefused x)) ∧
      (jobInvalid d = false → Does c s fun t => fget F.KEY_JQ_STAT_LAST t = Status.done.code ∧
        ∃ j : CryJob, t.key.queue = x.key.queue ++ [j] ∧ j.desc = d ∧ j.at_ = a ∧ j.sub = .host (w == .hc) ∧ j.world = initWorld w u) := by
  subst ha hh
  refine ⟨fun h => hx.trans (congrArg _ (jqSubmit_full h)), fun h hr => hx.trans (congrArg _ (jqSubmit_unread h hr)), fun d h hr => ?_⟩
  have hread := jqSubmit_read h hr
  refine ⟨fun hi => hx.trans (congrArg _ (hread.trans (if_pos hi))), fun hi => does_of (hx.trans (congrArg _ (hread.trans (if_neg (Bool.eq_false_iff.1 hi))))) ?_⟩
  obtain ⟨hlast, j, hqueue, hdesc, hat, hsub, hworld⟩ := submitted_shows w (jqAddr u) d (unitRead (initIdent w u) (jqAddr u) 64 u).2
  exact ⟨hlast, j, hqueue, hdesc, hat, hsub, hworld.trans (unitRead_keeps (accessBlind_initWorld w) ..)⟩

/-! ### The start of a job (R542, R544, R546-R548) -/

theorem cryStart_refused {j : CryJob} (h : startRefused j s = true) : cryStart j s = (cryFailed j .failedRefused, s) := if_pos h

section
variable {α : Type} {f : State → α} (h : AccessBlind f)
include h

theorem cryRead_keeps (j : CryJob) (a n : Nat) (s : State) : f (cryRead j a n s).2 = f s := by
  unfold cryRead
  split
  · rfl
  · exact unitRead_keeps h ..

/-- The start of a job reads, and counts the use of its key; it changes registers and takes free values. -/
theorem cryStart_keeps (hw : ∀ a v s, f (wr a v s) = f s) (hf : ∀ n s, f { s with fresh := n } = f s) (j : CryJob) (s : State) : f (cryStart j s).2 = f s := by
  unfold cryStart
  extract_lets key used
  have hused : f used = f s := by
    unfold used
    split
    · split
      · exact useKey_keeps hw _ s
      · rfl
    · rfl
  have hread (a n : Nat) (u : State) : f (cryRead j a n u).2 = f u := cryRead_keeps h j a n u
  split
  · rfl
  split
  · next u hu => exact snd_keeps hu ((hread ..).trans hused)
  next inp u hu =>
  have hin : f u = f s := snd_keeps hu ((hread ..).trans hused)
  split
  · next v hv => exact snd_keeps hv ((hread ..).trans hin)
  next aux v hv =>
  have haux : f v = f s := snd_keeps hv ((hread ..).trans hin)
  have htype (p : Prop) [Decidable p] (a : Nat) : f (if p then cryRead j a 1 v else (some [], v)).2 = f s := by
    split
    · exact (hread ..).trans haux
    · exact haux
  split
  · next x hx => exact snd_keeps hx (htype ..)
  next ty x hx =>
  have hty : f x = f s := snd_keeps hx (htype ..)
  split
  · exact hty
  · exact (hf _ x).trans hty

end

theorem cryStart_job (j : CryJob) (s : State) : (cryStart j s).1.job = j := by
  unfold cryStart
  extract_lets key used
  split
  · rfl
  split
  · rfl
  split
  · rfl
  split
  · rfl
  split
  · rfl
  · rfl

/-! ### The next job of a unit (R546) -/

/-- Whether the unit of an operation runs a job. -/
def unitBusy (op : Nat) (s : State) : Bool := (if opPk op then s.key.pk else s.key.sym).isSome

theorem cryNext_waits {op : Nat} (h : islOpen islHC s = false ∨ unitBusy op s = true) : cryNext op s = s := by
  refine if_pos ?_
  rw [Bool.or_eq_true, Bool.not_eq_true']
  exact h

/-- A job taken from the queue. -/
def dequeued (j : CryJob) (s : State) : State := updKey (fun x => { x with queue := x.queue.filter fun y => y.id != j.id }) s

/-- A job given to its unit. -/
def running (pk : Bool) (r : CryRun) (s : State) : State := cryShow (updKey (fun k => if pk then { k with pk := some r } else { k with sym := some r }) s)

theorem cryNext_starts {op : Nat} {j : CryJob} (ho : islOpen islHC s = true) (hb : unitBusy op s = false) (hf : (s.key.queue.find? fun x => opPk x.op == opPk op) = some j)
    (hj : j.op = op) : cryNext op s = running (opPk op) (cryStart j (dequeued j s)).1 (cryStart j (dequeued j s)).2 := by
  rw [unitBusy] at hb
  simp only [cryNext, ho, hb, hf, Bool.not_true, Bool.or_self, Bool.false_eq_true, if_false, if_neg (not_not.2 hj)]
  rfl

theorem running_shows (pk : Bool) (r : CryRun) (s : State) : (if pk then (running pk r s).key.pk else (running pk r s).key.sym) = some r ∧
    (running pk r s).key.queue = s.key.queue ∧ SameMem s (running pk r s) := by
  cases pk with
  | false => exact ⟨rfl, rfl, fun _ => rfl⟩
  | true => exact ⟨rfl, rfl, fun _ => rfl⟩

/-- The command of an operation starts the next job of that operation. -/
theorem exec_operation (s : State) : ∀ p ∈ [(1, Instr.sha512), (2, .hmac), (3, .hmacVer), (4, .cmac), (5, .cmacVer), (6, .gcmEnc), (7, .gcmDec), (8, .sign), (9, .verify), (10, .derive),
    (11, .wrap), (12, .unwrap), (13, .pubkey), (14, .attest), (15, .random), (16, .loadpub)], exec p.2 s = .next (cryNext p.1 s) := by
  simp only [List.forall_mem_cons]
  exact ⟨rfl, rfl, rfl, rfl, rfl, rfl, rfl, rfl, rfl, rfl, rfl, rfl, rfl, rfl, rfl, rfl, List.forall_mem_nil _⟩

theorem opPk_eq (op : Nat) : opPk op = decide (op = 8 ∨ op = 9 ∨ op = 13 ∨ op = 14) := by
  simp [opPk]

/-! ### Keys: who may use one, and the count of its uses (R539, R541, R542) -/

theorem keyAllowed_needs {j : CryJob} {p : Fin 128} (h : keyAllowed j p s = true) : partValid p s = true ∧ partType p s = (opNeeds j.op).1 ∧
    (j.world = false → p.1 % 2 = 0 ∧ partUse p 19 s = false ∧ (partUse p 18 s = true ∨ bits (partAttr p s) 24 20 = j.inst)) ∧
    (partUse p 16 s = true → fget (F.KEY_USES_s_h_USES (p.1 / 2) (p.1 % 2)) s ≠ 0) := by
  simp only [keyAllowed, Bool.and_eq_true, Bool.or_eq_true, beq_iff_eq, Bool.not_eq_true', Bool.and_eq_false_iff, beq_eq_false_iff_ne] at h
  obtain ⟨⟨⟨⟨howner, hvalid⟩, htype⟩, -⟩, huses⟩ := h
  refine ⟨hvalid, htype, fun hw => ?_, fun hu => huses.resolve_left (by rw [hu]; decide)⟩
  obtain ⟨⟨hactive, hworld⟩, hinst⟩ := howner.resolve_left (by rw [hw]; decide)
  exact ⟨hactive, hworld, hinst⟩

section
variable {p : Fin 128}

theorem useKey_uncounted (h : partUse p 16 s = false) : useKey p s = s := by
  rw [useKey, h]
  rfl

/-- The use of a counted key, before its last one is noted. -/
def keyUsed (p : Fin 128) (s : State) : State := fput (F.KEY_USES_s_h_USES (p.1 / 2) (p.1 % 2)) (fget (F.KEY_USES_s_h_USES (p.1 / 2) (p.1 % 2)) s - 1) s

/-- The last use of a counted key disables it. -/
def keySpent (p : Fin 128) (s : State) : State := raise F.KEY_EVENT 1 (fput (F.KEY_ATTR_s_h_DISABLED (p.1 / 2) (p.1 % 2)) 1 s)

theorem useKey_counted (h : partUse p 16 s = true) : useKey p s = whenB (fget (F.KEY_USES_s_h_USES (p.1 / 2) (p.1 % 2)) (keyUsed p s) == 0) (keySpent p) (keyUsed p s) := by
  rw [useKey, h]
  rfl

theorem uses_keyUsed (p : Fin 128) (s : State) : fget (F.KEY_USES_s_h_USES (p.1 / 2) (p.1 % 2)) (keyUsed p s) = fget (F.KEY_USES_s_h_USES (p.1 / 2) (p.1 % 2)) s - 1 :=
  fget_fput_fits _ _ (by show 23 < 32; decide) (Nat.lt_of_le_of_lt (Nat.sub_le ..) (fget_lt ..))

theorem useKey_shows (h : partUse p 16 s = true) : let f := F.KEY_USES_s_h_USES (p.1 / 2) (p.1 % 2)
    fget f (useKey p s) = fget f s - 1 ∧ (fget f s = 1 → fbit F.KEY_EVENT 1 (useKey p s) = true ∧ ftst (F.KEY_ATTR_s_h_DISABLED (p.1 / 2) (p.1 % 2)) (useKey p s) = true) := by
  intro f
  have hevent : f.addr ≠ F.KEY_EVENT.addr ∧ (F.KEY_ATTR_s_h_DISABLED (p.1 / 2) (p.1 % 2)).addr ≠ F.KEY_EVENT.addr ∧ f.addr ≠ (F.KEY_ATTR_s_h_DISABLED (p.1 / 2) (p.1 % 2)).addr := by
    simp only [f, F.KEY_USES_s_h_USES, F.KEY_EVENT, F.KEY_ATTR_s_h_DISABLED, R.KEY_USES_s_h, R.KEY_EVENT, R.KEY_ATTR_s_h]
    omega
  obtain ⟨huses, hattr, hbeside⟩ := hevent
  have hkeep (u : State) : fget f (keySpent p u) = fget f u := (fget_raise_other _ _ _ _ huses).trans (fget_fput_other _ _ _ _ hbeside)
  rw [useKey_counted h]
  refine ⟨(whenB_keeps hkeep _ _).trans (uses_keyUsed p s), fun h1 => ?_⟩
  have hlast : fget f (keyUsed p s) = 0 := by rw [uses_keyUsed, h1]
  rw [hlast]
  exact ⟨fbit_raise _ _ _ (by decide), (ftst_raise_other _ _ _ _ hattr).trans (ftst_fput_one _ _ (by show 30 < 32; decide) (by show 30 ≤ 30; decide))⟩

end

/-! ### The end of a job (R548, R549) -/

section
variable {pk : Bool} {r : CryRun} (hr : (if pk then s.key.pk else s.key.sym) = some r)
include hr

theorem cryDone_dropped {st : Status} (hd : r.job.drop = some st) :
    cryDone pk s = cryEnd r.job st (updKey (fun k => if pk then { k with pk := none } else { k with sym := none }) s) := by
  simp only [cryDone, hr, hd]

theorem cryDone_written (hd : r.job.drop = none) : let v := updKey (fun k => if pk then { k with pk := none } else { k with sym := none }) s
    cryDone pk s = cryEnd r.job (cryWrite r v).1 (cryWrite r v).2 := by
  simp only [cryDone, hr, hd]

end

theorem cryWrite_failed {r : CryRun} (h : r.status ≠ .done) (s : State) : cryWrite r s = (r.status, s) := if_pos h

/-! ### Slot commands (R544, R553) -/

section
variable {slot : Fin 64} {st : Status}

theorem slotDone_shows (h : st.code < 256) (slot : Fin 64) (s : State) : fget F.KEY_SLOT_STAT_RESULT (slotDone slot st s) = st.code ∧ fbit F.KEY_EVENT 2 (slotDone slot st s) = true :=
  ⟨(fget_raise_other _ _ _ _ (by decide)).trans (fget_fput_fits _ _ (by decide) h), fbit_raise _ _ _ (by decide)⟩

/-- The parts lie beside what a slot command shows. -/
theorem partHeld_slotDone (p : Fin 128) (slot : Fin 64) (st : Status) (s : State) : partHeld p (slotDone slot st s) = partHeld p s := by
  have hattr : rd (R.KEY_ATTR_s_h (p.1 / 2) (p.1 % 2)) (slotDone slot st s) = rd (R.KEY_ATTR_s_h (p.1 / 2) (p.1 % 2)) s := by
    simp (disch := simp only [F.KEY_SLOT_CMD_SLOT, F.KEY_SLOT_STAT_RESULT, F.KEY_EVENT, R.KEY_SLOT_CMD, R.KEY_SLOT_STAT, R.KEY_EVENT, R.KEY_ATTR_s_h]; omega) only
      [slotDone, rd_raise_other, rd_fput_other]
  exact Prod.ext rfl (congrArg BitVec.toNat hattr)

theorem active_ne_shadow (slot : Fin 64) : activePart slot ≠ shadowPart slot := fun h => by
  have hval : 2 * slot.1 = 2 * slot.1 + 1 := congrArg Fin.val h
  omega

theorem partHeld_slotClear (slot : Fin 64) (s : State) : partHeld (activePart slot) (slotClear slot s) = ([], 0) ∧ partHeld (shadowPart slot) (slotClear slot s) = ([], 0) := by
  rw [slotClear, partHeld_slotDone, partHeld_slotDone, partHeld_clearPart_other (active_ne_shadow slot).symm, partHeld_clearPart_same, partHeld_clearPart_same]
  exact ⟨rfl, rfl⟩

theorem partHeld_slotDiscard (slot : Fin 64) (s : State) : partHeld (activePart slot) (slotDiscard slot s) = partHeld (activePart slot) s ∧
    partHeld (shadowPart slot) (slotDiscard slot s) = ([], 0) := by
  rw [slotDiscard, partHeld_slotDone, partHeld_slotDone, partHeld_clearPart_other (active_ne_shadow slot).symm, partHeld_clearPart_same]
  exact ⟨rfl, rfl⟩

/-- The shadow copied over the active part. -/
def shadowCopied (slot : Fin 64) (s : State) : State :=
  let cp (f : Nat → Nat → Nat) (s : State) : State := wr (f slot.1 0) (rd (f slot.1 1) s) s
  updKey (fun k => { k with keys := k.keys.set (activePart slot).1 k.keys[(shadowPart slot).1] (activePart slot).2 }) s
    |> cp R.KEY_ATTR_s_h |> cp R.KEY_USES_s_h |> cp R.KEY_KCV_LO_s_h |> cp R.KEY_KCV_HI_s_h

theorem slotCommit_empty (h : partValid (shadowPart slot) s = false) : slotCommit slot s = slotDone slot .failedRefused s := by
  simp only [slotCommit, h, Bool.not_false, if_true]

theorem slotCommit_valid (h : partValid (shadowPart slot) s = true) : slotCommit slot s = slotDone slot .done (clearPart (shadowPart slot) (shadowCopied slot s)) := by
  simp only [slotCommit, h, Bool.not_true, Bool.false_eq_true, if_false, shadowCopied]

theorem attr_active (slot : Fin 64) : R.KEY_ATTR_s_h ((activePart slot).1 / 2) ((activePart slot).1 % 2) = R.KEY_ATTR_s_h slot.1 0 := by
  simp only [activePart, R.KEY_ATTR_s_h]
  omega

theorem attr_shadow (slot : Fin 64) : R.KEY_ATTR_s_h ((shadowPart slot).1 / 2) ((shadowPart slot).1 % 2) = R.KEY_ATTR_s_h slot.1 1 := by
  simp only [shadowPart, R.KEY_ATTR_s_h]
  omega

theorem partHeld_shadowCopied (slot : Fin 64) (s : State) : partHeld (activePart slot) (shadowCopied slot s) = partHeld (shadowPart slot) s := by
  have hattr : rd (R.KEY_ATTR_s_h slot.1 0) (shadowCopied slot s) = rd (R.KEY_ATTR_s_h slot.1 1) s := by
    simp (disch := simp only [R.KEY_ATTR_s_h, R.KEY_USES_s_h, R.KEY_KCV_LO_s_h, R.KEY_KCV_HI_s_h]; omega) only [shadowCopied, rd_wr_other, rd_wr_same, rd_updKey]
  have hkeys : (shadowCopied slot s).key.keys[(activePart slot).1] = s.key.keys[(shadowPart slot).1] := Vector.getElem_set_self ..
  rw [partHeld, partHeld, partAttr, partAttr, attr_active, attr_shadow, hattr, hkeys]

theorem partHeld_slotCommit (h : partValid (shadowPart slot) s = true) : partHeld (activePart slot) (slotCommit slot s) = partHeld (shadowPart slot) s ∧
    partHeld (shadowPart slot) (slotCommit slot s) = ([], 0) := by
  rw [slotCommit_valid h, partHeld_slotDone, partHeld_slotDone, partHeld_clearPart_other (active_ne_shadow slot).symm, partHeld_clearPart_same, partHeld_shadowCopied]
  exact ⟨rfl, rfl⟩

theorem partAttr_ok (p : Fin 128) (s : State) : partAttr p (ok s) = partAttr p s := congrArg BitVec.toNat (rd_ok ..)

theorem partValid_ok (p : Fin 128) (s : State) : partValid p (ok s) = partValid p s := by
  rw [partValid, partAttr_ok, partValid]

/-- The commands of a slot, by what they leave of its two parts. -/
theorem slotCommands_show {cl dc cm : Instr} {s u : State} (hclear : exec cl s = .next (slotClear slot u)) (hdiscard : exec dc s = .next (slotDiscard slot u))
    (hcommit : exec cm s = .next (slotCommit slot u)) : let a := activePart slot; let h := shadowPart slot
    (Does cl s fun t => partValid a t = false ∧ partValid h t = false ∧ t.key.keys[a.1] = [] ∧ t.key.keys[h.1] = [] ∧ fget F.KEY_SLOT_STAT_RESULT t = Status.done.code ∧ fbit F.KEY_EVENT 2 t = true) ∧
    (Does dc s fun t => partValid h t = false ∧ t.key.keys[h.1] = [] ∧ t.key.keys[a.1] = u.key.keys[a.1] ∧ fget F.KEY_SLOT_STAT_RESULT t = Status.done.code) ∧
    (partValid h u = false → Does cm s fun t => t.key.keys = u.key.keys ∧ fget F.KEY_SLOT_STAT_RESULT t = Status.failedRefused.code) ∧
    (partValid h u = true → Does cm s fun t => t.key.keys[a.1] = u.key.keys[h.1] ∧ t.key.keys[h.1] = [] ∧ partAttr a t = partAttr h u ∧ partValid h t = false ∧
      fget F.KEY_SLOT_STAT_RESULT t = Status.done.code) := by
  refine ⟨⟨_, hclear, ?_⟩, ⟨_, hdiscard, ?_⟩, fun h => ⟨_, hcommit, ?_⟩, fun h => ⟨_, hcommit, ?_⟩⟩
  · obtain ⟨hactive, hshadow⟩ := partHeld_slotClear slot u
    obtain ⟨hkey, hvalid⟩ := partValid_of_empty hactive
    obtain ⟨hkey', hvalid'⟩ := partValid_of_empty hshadow
    obtain ⟨hresult, hevent⟩ := slotDone_shows (st := .done) (by decide) slot (clearPart (shadowPart slot) (clearPart (activePart slot) u))
    exact ⟨hvalid, hvalid', hkey, hkey', hresult, hevent⟩
  · obtain ⟨hactive, hshadow⟩ := partHeld_slotDiscard slot u
    obtain ⟨hkey, hvalid⟩ := partValid_of_empty hshadow
    exact ⟨hvalid, hkey, congrArg Prod.fst hactive, (slotDone_shows (st := .done) (by decide) slot _).1⟩
  · rw [slotCommit_empty h]
    exact ⟨rfl, (slotDone_shows (by decide) slot u).1⟩
  · obtain ⟨hactive, hshadow⟩ := partHeld_slotCommit h
    obtain ⟨hkey, hvalid⟩ := partValid_of_empty hshadow
    obtain ⟨hcopied, hattr⟩ := Prod.mk.inj hactive
    refine ⟨hcopied, hkey, hattr, hvalid, ?_⟩
    rw [slotCommit_valid h]
    exact (slotDone_shows (by decide) slot _).1

end

end

section
variable {k : Nat} {pk : Prop} [Decidable pk] (hk : opPk k = decide pk)
include hk

theorem unit_of (s : State) : (if opPk k then s.key.pk else s.key.sym) = if pk then s.key.pk else s.key.sym := by
  by_cases h : pk <;> simp [hk, h]

theorem unitBusy_of (s : State) : unitBusy k s = if pk then s.key.pk.isSome else s.key.sym.isSome := by
  by_cases h : pk <;> simp [unitBusy, hk, h]

/-- The command of an operation, when its unit is free and the job in front is of that operation. -/
theorem does_operation {c : Instr} {s : State} {j : CryJob} (hx : exec c s = .next (cryNext k s)) (ho : islOpen islHC s = true) (hb : unitBusy k s = false)
    (hf : (s.key.queue.find? fun x => opPk x.op == decide pk) = some j) (hj : j.op = k) :
    Does c s fun t => (if pk then t.key.pk else t.key.sym) = some (cryStart j (dequeued j s)).1 ∧ t.key.queue = (dequeued j s).key.queue ∧ (cryStart j (dequeued j s)).1.job = j ∧ SameMem s t := by
  have hkey : (cryStart j (dequeued j s)).2.key = (dequeued j s).key :=
    cryStart_keeps (f := State.key) (accessBlind_of_regs (fun _ _ => rfl) (fun _ _ => rfl) fun _ _ => rfl) (fun _ _ _ => rfl) (fun _ _ => rfl) j (dequeued j s)
  have hmem : SameMem s (cryStart j (dequeued j s)).2 := sameMem_of (cryStart_keeps accessBlind_mem (fun _ _ _ => rfl) (fun _ _ => rfl) j (dequeued j s))
    (cryStart_keeps accessBlind_dram (fun _ _ _ => rfl) (fun _ _ => rfl) j (dequeued j s))
  rw [← hk] at hf
  obtain ⟨hunit, hqueue, hsame⟩ := running_shows (opPk k) (cryStart j (dequeued j s)).1 (cryStart j (dequeued j s)).2
  exact ⟨_, hx.trans (congrArg _ (cryNext_starts ho hb hf hj)), (unit_of hk _).symm.trans hunit, hqueue.trans (congrArg KeySt.queue hkey), cryStart_job .., hmem.trans hsame⟩

end

/-- Settles O56: a submission by what is read of its descriptor, a start by its checks, a slot command by what it leaves of the two parts. -/
theorem cryptoJobs : Obligations.CryptoJobs := by
  refine ⟨fun w s hl hw => ?_, fun k c s j hk => ?_, fun j s => cryStart_refused, fun j p s => keyAllowed_needs, fun p s => ⟨useKey_uncounted, fun h _ => useKey_shows h⟩,
    fun pk r s hr => ⟨fun st hd => congrArg _ (cryDone_dropped hr hd), fun hd => congrArg _ (cryDone_written hr hd), fun h => cryWrite_failed h _⟩, fun w slot s hl hw => ?_,
    fun w s hl hw => congrArg _ (regCmd_hearth hl hw _)⟩
  · have hx : exec (.jqSubmit w) s = .next (jqSubmit w (ok (entered w R.KEY_JQ_SUBMIT s))) := congrArg _ (regCmd_hearth hl hw _)
    exact exec_jqSubmit hx (jqAddr_ok _) rfl
  · have hx : exec c s = .next (cryNext k s) := exec_operation s (k, c) hk
    intro pk busy
    have hbusy : unitBusy k s = busy := unitBusy_of (opPk_eq k) s
    exact ⟨fun h => hx.trans (congrArg _ (cryNext_waits (h.imp_right hbusy.trans))), fun ho hb hf hj => does_operation (opPk_eq k) hx ho (hbusy.trans hb) hf hj⟩
  · have hclear : exec (.slotClear w slot) s = .next (slotClear slot (ok (entered w R.KEY_SLOT_CMD s))) := congrArg Host.Outcome.next (regCmd_hearth hl hw (slotClear slot))
    have hdiscard : exec (.slotDiscard w slot) s = .next (slotDiscard slot (ok (entered w R.KEY_SLOT_CMD s))) := congrArg Host.Outcome.next (regCmd_hearth hl hw (slotDiscard slot))
    have hcommit : exec (.slotCommit w slot) s = .next (slotCommit slot (ok (entered w R.KEY_SLOT_CMD s))) := congrArg Host.Outcome.next (regCmd_hearth hl hw (slotCommit slot))
    have hshow := slotCommands_show hclear hdiscard hcommit
    simp only [partValid_ok, partAttr_ok, ok_key] at hshow
    exact hshow

end Sys2Proof.Machine

/-!
The items of a virtual instance: fetched, checked, admitted and completed (O52).
-/
namespace Sys2Proof.Machine

/-- The registers of VQI. -/
abbrev vqiReg (a : Nat) : Prop := 0x4500000 ≤ a ∧ a < 0x4600000

/-- No check of an access writes a register of VQI. -/
theorem not_accessReg_vqi {a : Nat} (h : vqiReg a) : ¬ accessReg a := fun hm => by
  have hout : ∀ b ∈ [R.OWN_VIOL_CNT, R.OWN_TONGS_BLOCKED_CNT, R.OWN_CACHE_MISS_CNT, R.MEM_ECC_LAST_LO, R.MEM_ECC_LAST_HI, R.MEM_ECC_UE_CNT, R.MEM_EVENT, R.MEM_UNMAP_CNT,
    R.MEM_UNMAP_LO, R.MEM_UNMAP_HI], ¬ vqiReg b := by decide
  exact hout a hm h

theorem accessBlind_vqi {g : Fld} (h : vqiReg g.addr) : AccessBlind (fget g) :=
  accessBlind_fget (not_accessReg_vqi h) fun e => absurd (e ▸ h : vqiReg R.OWN_EVENT) (by decide)

section
variable {i : Fin 32} {p : Fin 8} {s : State}

/-! ### Fetch (R490, R491) -/

theorem ringEntries_le (n : Nat) : ringEntries n ≤ 2 ^ 12 := by
  unfold ringEntries
  split_ifs with h
  · exact Nat.pow_le_pow_right (by decide) h.2
  · exact Nat.zero_le _

theorem canFetch_iff : canFetch i p s = true ↔ vqiState i s = vqiActive ∧ (kindOps (fget (F.VQI_PAIR_KIND_i_p_KIND i.1 p.1) s)).isEmpty = false ∧
    ftst (F.VQI_RING_SIZE_i_p_EN i.1 p.1) s = true ∧ 0 < sqEntries i p s ∧ 0 < cqFree i p s ∧ ftst (F.VQI_PAIR_STATUS_i_p_FAULT i.1 p.1) s = false ∧
    fget (F.VQI_SQ_HEAD_i_p i.1 p.1) s % sqEntries i p s ≠ fget (F.VQI_SQ_TAIL_i_p i.1 p.1) s % sqEntries i p s ∧
    (pairItems i p s).any (fun x => x.place == .fetched) = false ∧ islOpen islSWP s = true := by
  simp only [canFetch, Bool.and_eq_true, beq_iff_eq, bne_iff_ne, Bool.not_eq_true', decide_eq_true_eq, and_assoc]

theorem exec_vqiFetch_idle (h : canFetch i p s = false) : exec (.vqiFetch i p) s = .next s :=
  congrArg Host.Outcome.next (if_pos (by rw [h]; rfl))

/-- The index of the descriptor that a pair fetches next. -/
def sqIndex (i : Fin 32) (p : Fin 8) (s : State) : Nat := fget (F.VQI_SQ_HEAD_i_p i.1 p.1) s % sqEntries i p s

/-- The read of that descriptor. -/
def sqRead (i : Fin 32) (p : Fin 8) (s : State) : Option (List Byte) × State :=
  dmaRead (vqiIdent i s) (addrOf (F.VQI_SQ_BASE_LO_i_p i.1 p.1) (F.VQI_SQ_BASE_HI_i_p i.1 p.1) s + 32 * sqIndex i p s) 32 s

theorem sqEntries_sqRead : sqEntries i p (sqRead i p s).2 = sqEntries i p s :=
  dmaRead_keeps ((accessBlind_vqi (g := F.VQI_RING_SIZE_i_p_SQ_LOG2 i.1 p.1) (by simp only [F.VQI_RING_SIZE_i_p_SQ_LOG2, R.VQI_RING_SIZE_i_p]; omega)).map ringEntries) ..

/-- The item that a descriptor becomes. -/
def fetchedItem (i : Fin 32) (p : Fin 8) (h : Nat) (d : List Byte) (s : State) : VqiItem := ⟨s.vqi.nextId, i, p, h, vqiGen i s, d, .fetched, none⟩

/-- The state in which a fetched item is checked, for the next head. -/
def fetched (i : Fin 32) (p : Fin 8) (x : VqiItem) (h : Nat) (s : State) : State :=
  updVqi (fun v => { v with items := v.items ++ [x], nextId := v.nextId + 1 }) (fput (F.VQI_SQ_HEAD_i_p i.1 p.1) h s)

theorem exec_vqiFetch (h : canFetch i p s = true) : exec (.vqiFetch i p) s = .next (match sqRead i p s with
    | (none, s) => fput (F.VQI_PAIR_STATUS_i_p_FAULT i.1 p.1) 1 s
    | (some d, t) => let x := fetchedItem i p (sqIndex i p s) d t; fetchChecks x (fetched i p x ((sqIndex i p s + 1) % max 1 (sqEntries i p t)) t)) := by
  have hn : max 1 (sqEntries i p s) = sqEntries i p s := Nat.max_eq_right (canFetch_iff.1 h).2.2.2.1
  refine congrArg Host.Outcome.next ((if_neg (by rw [h]; decide)).trans ?_)
  rw [hn]
  rfl

theorem exec_vqiFetch_refused (h : canFetch i p s = true) (hr : (sqRead i p s).1 = none) :
    exec (.vqiFetch i p) s = .next (fput (F.VQI_PAIR_STATUS_i_p_FAULT i.1 p.1) 1 (sqRead i p s).2) := by
  have hpair : sqRead i p s = (none, (sqRead i p s).2) := Prod.ext hr rfl
  rw [exec_vqiFetch h, hpair]

theorem exec_vqiFetch_read (h : canFetch i p s = true) {d : List Byte} (hr : (sqRead i p s).1 = some d) : let x := fetchedItem i p (sqIndex i p s) d (sqRead i p s).2
    exec (.vqiFetch i p) s = .next (fetchChecks x (fetched i p x ((sqIndex i p s + 1) % sqEntries i p s) (sqRead i p s).2)) := by
  have hpair : sqRead i p s = (some d, (sqRead i p s).2) := Prod.ext hr rfl
  have hn : max 1 (sqEntries i p (sqRead i p s).2) = sqEntries i p s := by
    rw [sqEntries_sqRead]
    exact Nat.max_eq_right (canFetch_iff.1 h).2.2.2.1
  rw [exec_vqiFetch h, hpair, ← hn]

theorem fetched_head (x : VqiItem) {h : Nat} (hn : h < sqEntries i p s) (t : State) : fget (F.VQI_SQ_HEAD_i_p i.1 p.1) (fetched i p x h t) = h := by
  have hlt : h < 2 ^ 13 := (hn.trans_le (ringEntries_le _)).trans (by decide)
  exact (fget_updVqi ..).trans (fget_fput_fits _ t (by show 12 < 32; decide) hlt)

/-! ### The checks (R493, R498) -/

section
variable {x : VqiItem}

theorem fetchChecks_refused (h : descOk x s = false) : fetchChecks x s = fetchEnd x .failedRefused (putPlace x .taken s) := by
  rw [fetchChecks, h]
  rfl

theorem fetchChecks_rxbuf (h : descOk x s = true) (ho : x.op = 0x02) : fetchChecks x s = putPlace x .rxbuf s := by
  rw [fetchChecks, h, ho]
  rfl

theorem fetchChecks_can (h : descOk x s = true) (ho : x.op = 0x10) : fetchChecks x s = if canSource x.inst (x.field 16 4) s then s else spoof x s := by
  rw [fetchChecks, h, ho]
  cases canSource x.inst (x.field 16 4) s <;> rfl

theorem fetchChecks_sig (h : descOk x s = true) (ho : x.op = 0x20) : fetchChecks x s = if sigSource x.inst (x.field 16 4) s then s else spoof x s := by
  rw [fetchChecks, h, ho]
  cases sigSource x.inst (x.field 16 4) s <;> rfl

theorem fetchChecks_job (h : descOk x s = true) (ho : x.op = 0x30) : fetchChecks x s = s := by
  rw [fetchChecks, h, ho]
  rfl

theorem fetchChecks_frame (h : descOk x s = true) (ho : x.op = 0x01) {b : List Byte} (hr : (dmaRead (vqiIdent x.inst s) (x.field 8 5) (x.field 2 2) s).1 = some b) :
    let r := dmaRead (vqiIdent x.inst s) (x.field 8 5) (x.field 2 2) s
    fetchChecks x s = if ethSource x.inst b r.2 then r.2 else spoof x r.2 := by
  have hpair : dmaRead (vqiIdent x.inst s) (x.field 8 5) (x.field 2 2) s = (some b, (dmaRead (vqiIdent x.inst s) (x.field 8 5) (x.field 2 2) s).2) := Prod.ext hr rfl
  rw [fetchChecks, h, ho, hpair]
  rfl

theorem canSource_iff (id : Nat) : canSource i id s = true ↔ ∃ k, k < 8 ∧ ftst (F.VQI_CAN_LO_i_k_EN i.1 k) s = true ∧
    fget (F.VQI_CAN_LO_i_k_ID i.1 k) s ≤ id % 2 ^ 30 ∧ id % 2 ^ 30 ≤ fget (F.VQI_CAN_HI_i_k_ID i.1 k) s := by
  simp only [canSource, List.any_eq_true, List.mem_range, Bool.and_eq_true, decide_eq_true_eq, and_assoc]

theorem spoof_shows (x : VqiItem) (s : State) : let t := spoof x s
    t.vqi.done = s.vqi.done ++ [⟨x.id, x.inst, x.gen, .failedRefused, 0, 0, none⟩] ∧ rd (R.VQI_SPOOF_CNT_i x.inst.1) t = rd (R.VQI_SPOOF_CNT_i x.inst.1) (bump (R.VQI_SPOOF_CNT_i x.inst.1) s) ∧
    fbit F.VQI_MGR_EVENT_EVENT 0 t = true ∧ fget F.VQI_MGR_LAST_INST t = x.inst.1 ∧ SameMem s t := by
  have hlast : R.VQI_SPOOF_CNT_i x.inst.1 ≠ R.VQI_MGR_LAST := by simp only [R.VQI_SPOOF_CNT_i, R.VQI_MGR_LAST]; omega
  have hevent : R.VQI_SPOOF_CNT_i x.inst.1 ≠ R.VQI_MGR_EVENT := by simp only [R.VQI_SPOOF_CNT_i, R.VQI_MGR_EVENT]; omega
  refine ⟨rfl, ?_, ?_, fget_fput_fits _ _ (by decide) x.inst.2, sameMem_of rfl rfl⟩
  · exact (rd_fput_other _ _ _ hlast).trans ((rd_raise_other _ _ _ hevent).trans (rd_bump_congr rfl))
  · exact (fbit_fput_other _ _ _ _ _ (by decide)).trans (fbit_raise _ _ _ (by decide))

end

/-! ### Admission (R500-R502) -/

section
variable {t : Fin 4}

theorem exec_admissionSlot (take : Bool) (ho : islOpen islSWP s = true) : exec (.admissionSlot t take) s = .next (
    if 1024 ≤ (whenB take (targetTakes t) s).vqi.passed[t.1] then whenB take (targetTakes t) s else giveSlot t (whenB take (targetTakes t) s)) :=
  congrArg Host.Outcome.next (if_neg (by rw [ho]; decide))

/-- One more slot of a target's round has passed. -/
def slotPassed (t : Fin 4) (s : State) : State := updVqi (fun v => { v with passed := upd v.passed t (· + 1) }) s

/-- An instance has taken its `n`-th slot of a target's round. -/
def slotUsed (t : Fin 4) (i : Fin 32) (n : Nat) (s : State) : State :=
  updVqi (fun v => { v with took := ((t.1, i.1), n) :: v.took.filter fun k => k.1 != (t.1, i.1), turn := upd v.turn t fun _ => i.1 }) s

theorem slotsTaken_slotUsed (n : Nat) : slotsTaken t i (slotUsed t i n s) = n := by
  have hfirst : ((t.1, i.1) == (t.1, i.1)) = true := beq_self_eq_true _
  simp only [slotsTaken, slotUsed, updVqi, List.find?_cons, hfirst, Option.map_some, Option.getD_some]

theorem giveSlot_admits {x : VqiItem} (ht : t ≠ 2) (hroom : (s.vqi.items.filter fun y => y.place == .admitted && y.target s == t).length < 1024)
    (hi : slotInst t (slotPassed t s) = some i) (hx : nextItem t i (slotPassed t s) = some x) :
    giveSlot t s = admitItem x (slotUsed t i (slotsTaken t i s + 1) (slotPassed t s)) := by
  unfold giveSlot
  extract_lets u
  change slotInst t u = some i at hi
  change nextItem t i u = some x at hx
  have hfree : ¬ 1024 ≤ (u.vqi.items.filter fun y => y.place == .admitted && y.target u == t).length := Nat.not_le.2 hroom
  rw [if_neg hfree, hi]
  dsimp only
  rw [hx]
  exact if_pos ht

theorem mayAdmit_of_slotInst (h : slotInst t s = some i) : mayAdmit t i s = true := by
  unfold slotInst at h
  extract_lets order at h
  split at h
  · next j hj =>
    obtain rfl : j = i := Option.some.inj h
    have hboth := List.find?_some hj
    rw [Bool.and_eq_true] at hboth
    exact hboth.1
  · exact List.find?_some (p := fun i => mayAdmit t i s) h

theorem mayAdmit_iff : mayAdmit t i s = true ↔ (nextItem t i s).isSome = true ∧ vqiOcc i t s < s.vqi.share[i.1] ∧ vqiState i s ≠ vqiDisabled := by
  simp only [mayAdmit, Bool.and_eq_true, decide_eq_true_eq, bne_iff_ne, and_assoc]

end

/-! ### Shares (R502) -/

theorem showOcc_vqi (i : Fin 32) (s : State) : (showOcc i s).vqi = s.vqi := by
  unfold showOcc
  extract_lets u
  exact (whenB_keeps (f := State.vqi) (fun s => fput_vqi (s := s) _ _) _ u).trans (forFin_keeps (obs := State.vqi) (fun _ s => fput_vqi (s := s) _ _) s)

/-- The share that an instance's register holds is in force. -/
def shared (i : Fin 32) (s : State) : State := updVqi (fun v => { v with share := v.share.set i.1 (fget (F.VQI_SHARE_i i.1) s) i.2 }) s

/-- What an instance over its new share shows. -/
def overShared (i : Fin 32) (s : State) : State :=
  s |> fput (F.VQI_STATE_i_OVER_SHARE i.1) 1 |> raise F.VQI_MGR_EVENT_EVENT mgrOverShare |> fput F.VQI_MGR_LAST_INST i.1 |> bump (R.VQI_OVER_SHARE_CNT_i i.1)

theorem newShare_kept (h : s.vqi.share[i.1] = fget (F.VQI_SHARE_i i.1) s) : newShare i s = s := if_pos h

theorem newShare_over {t : Fin 4} (h : s.vqi.share[i.1] ≠ fget (F.VQI_SHARE_i i.1) s) (hs : vqiState i s ≠ vqiDisabled)
    (ho : fget (F.VQI_SHARE_i i.1) s ≤ vqiOcc i t s) (hp : 0 < vqiOcc i t s) : newShare i s = overShared i (shared i s) := by
  refine (if_neg h).trans (if_pos ?_)
  rw [Bool.and_eq_true, bne_iff_ne, List.any_eq_true]
  exact ⟨hs, t, List.mem_finRange t, by rw [Bool.and_eq_true, decide_eq_true_eq, decide_eq_true_eq]; exact ⟨ho, hp⟩⟩

theorem newShare_share (i : Fin 32) (s : State) : (newShare i s).vqi.share[i.1] = fget (F.VQI_SHARE_i i.1) s := by
  have hset : (shared i s).vqi.share[i.1] = fget (F.VQI_SHARE_i i.1) s := Vector.getElem_set_self ..
  unfold newShare
  extract_lets n u
  split
  · assumption
  split
  · exact hset
  · exact (congrArg (fun v : VqiSt => v.share[i.1]) (showOcc_vqi i u)).trans hset

theorem overShared_shows (i : Fin 32) (s : State) : fget (F.VQI_STATE_i_OVER_SHARE i.1) (overShared i s) = 1 ∧ fbit F.VQI_MGR_EVENT_EVENT 1 (overShared i s) = true := by
  have hcount : R.VQI_MGR_EVENT ≠ R.VQI_OVER_SHARE_CNT_i i.1 := by simp only [R.VQI_MGR_EVENT, R.VQI_OVER_SHARE_CNT_i]; omega
  have hstate {b : Nat} (h : b = R.VQI_OVER_SHARE_CNT_i i.1 ∨ b < R.VQI_CFG_i 0) : R.VQI_STATE_i i.1 ≠ b := by
    simp only [R.VQI_STATE_i, R.VQI_OVER_SHARE_CNT_i, R.VQI_CFG_i] at h ⊢
    omega
  refine ⟨?_, ?_⟩
  · exact (fget_bump_other _ _ _ (hstate (.inl rfl))).trans ((fget_fput_other _ _ _ _ (hstate (.inr (by decide)))).trans
      ((fget_raise_other _ _ _ _ (hstate (.inr (by decide)))).trans (fget_fput_fits _ _ (by show 2 < 32; decide) (by show 1 < 2 ^ 1; decide))))
  · exact (fbit_bump_other _ _ _ hcount).trans ((fbit_fput_other _ _ _ _ _ (by decide)).trans (fbit_raise _ _ _ (by decide)))

/-! ### Completions (R495, R505) -/

section
variable {d : VqiDone} {rest : List VqiDone}

theorem exec_vqiCompletion (h : s.vqi.done = d :: rest) : exec .vqiCompletion s = .next (vqiComplete d (updVqi (fun x => { x with done := rest }) s)) := by
  change execVqiCompletion s = _
  rw [execVqiCompletion, h]

theorem vqiComplete_stale (h : ∀ x ∈ s.vqi.items, x.id = d.id → x.gen ≠ d.gen) :
    vqiComplete d s = raise F.VQI_MGR_EVENT_EVENT mgrStale (bump (R.VQI_STALE_CNT_i d.inst.1) s) := by
  have hnone : (s.vqi.items.find? fun x => x.id == d.id && x.gen == d.gen) = none := by
    rw [List.find?_eq_none]
    intro x hx hm
    rw [Bool.and_eq_true, beq_iff_eq, beq_iff_eq] at hm
    exact h x hx hm.1 hm.2
  rw [vqiComplete, hnone]

theorem vqiComplete_current {x : VqiItem} (h : (s.vqi.items.find? fun y => y.id == d.id && y.gen == d.gen) = some x) :
    vqiComplete d s = freezeCheck x.inst (vqiRecord x d s) := by
  rw [vqiComplete, h]

end

/-! ### The obligation -/

theorem exec_sqTail {w : Initiator} (v : BitVec 13) (hl : Lets w (R.VQI_SQ_TAIL_i_p i.1 p.1) true s) :
    exec (.sqTail w i p v) s = .next (fput (F.VQI_SQ_TAIL_i_p i.1 p.1) v.toNat (ok (entered w (R.VQI_SQ_TAIL_i_p i.1 p.1) s))) :=
  congrArg Host.Outcome.next (regCmd_lets hl _)

end

/-- Settles O52: each command and check has a lemma of its own; the ring's size, that the next head is taken modulo, is beside what the read of a descriptor changes. -/
theorem virtualInstanceItems : Obligations.VirtualInstanceItems := by
  unfold Obligations.VirtualInstanceItems
  refine ⟨fun w i p v s hl => exec_sqTail v hl, fun i p s => ⟨exec_vqiFetch_idle, fun hc => ⟨exec_vqiFetch_refused hc, fun d hr => ?_⟩⟩, fun i p s hc => ?_,
    fun x s => ⟨fetchChecks_refused, fetchChecks_rxbuf, fetchChecks_can, fetchChecks_sig, fetchChecks_job, fun b h ho hr => fetchChecks_frame h ho hr⟩, fun i id s => canSource_iff id,
    fun x s => spoof_shows x s, fun t take s ho => ⟨fun hp => ?_, fun hp => ?_⟩, fun t i x s ht _ hroom hi hx => ?_, fun t i s h => ?_, fun s => rfl,
    fun i s => ⟨newShare_kept, newShare_share i s, fun hn hs ⟨t, ho, hp⟩ => ?_⟩, fun d rest s hd => ⟨fun hstale => ?_, fun x hx => ?_⟩⟩
  · have hlt : (sqIndex i p s + 1) % sqEntries i p s < sqEntries i p s := Nat.mod_lt _ (canFetch_iff.1 hc).2.2.2.1
    exact ⟨_, exec_vqiFetch_read hc hr, rfl, fetched_head _ hlt _, (dmaRead_sameMem _ _ _ s).trans (sameMem_of rfl rfl)⟩
  · obtain ⟨hs, -, he, -, hf, hfault, hne, -⟩ := canFetch_iff.1 hc
    exact ⟨hs, he, hf, hfault, hne⟩
  · exact (exec_admissionSlot take ho).trans (congrArg Host.Outcome.next (if_neg (Nat.not_le.2 hp)))
  · exact (exec_admissionSlot take ho).trans (congrArg Host.Outcome.next (if_pos hp))
  · exact ⟨_, giveSlot_admits ht hroom hi hx, upd_get_same .., rfl, slotsTaken_slotUsed _⟩
  · obtain ⟨hx, ho, -⟩ := mayAdmit_iff.1 (mayAdmit_of_slotInst h)
    exact ⟨ho, hx⟩
  · rw [newShare_over hn hs ho hp]
    exact ⟨(overShared_shows i _).1, (overShared_shows i _).2, rfl⟩
  · exact (exec_vqiCompletion hd).trans (congrArg Host.Outcome.next (vqiComplete_stale hstale))
  · exact (exec_vqiCompletion hd).trans (congrArg Host.Outcome.next (vqiComplete_current hx))

end Sys2Proof.Machine

/-!
The states of a virtual instance: its resets, freeze, shares and migration (O53).
-/
namespace Sys2Proof.Machine

/-! ### What the writing of a record leaves alone (R495) -/

/-- What a write into a completion queue does not show in. -/
structure CqBlind {α : Type} (f : State → α) : Prop extends AccessBlind f where
  mem : ∀ a v s, f (mwr a v s) = f s
  fault : ∀ (i : Fin 32) (p : Fin 8) v s, f (fput (F.VQI_PAIR_STATUS_i_p_FAULT i.1 p.1) v s) = f s
  tail : ∀ (i : Fin 32) (p : Fin 8) v s, f (fput (F.VQI_CQ_TAIL_i_p i.1 p.1) v s) = f s

/-- What the end of items with their records does not show in. -/
structure RecordBlind {α : Type} (f : State → α) : Prop extends CqBlind f where
  occ : ∀ (i : Fin 32) (t : Fin 4) v s, f (fput (F.VQI_OCC_i_t i.1 t.1) v s) = f s
  overShare : ∀ (i : Fin 32) v s, f (fput (F.VQI_STATE_i_OVER_SHARE i.1) v s) = f s
  items : ∀ l s, f (updVqi (fun v => { v with items := l }) s) = f s
  eng : ∀ e s, f { s with eng := e } = f s

section
variable {α : Type} {f : State → α} {i : Fin 32} {p : Fin 8} {g : Fld}

theorem cqBlind_fget (hv : vqiReg g.addr) (hf : ∀ (i : Fin 32) (p : Fin 8), g.addr ≠ R.VQI_PAIR_STATUS_i_p i.1 p.1)
    (ht : ∀ (i : Fin 32) (p : Fin 8), g.addr ≠ R.VQI_CQ_TAIL_i_p i.1 p.1) : CqBlind (fget g) where
  toAccessBlind := accessBlind_vqi hv
  mem _ _ _ := rfl
  fault i p _ s := fget_fput_other _ _ _ s (hf i p)
  tail i p _ s := fget_fput_other _ _ _ s (ht i p)

theorem CqBlind.record_fget (h : CqBlind (fget g)) (ho : ∀ (i : Fin 32) (t : Fin 4), g.addr ≠ R.VQI_OCC_i_t i.1 t.1)
    (hs : ∀ (i : Fin 32) v s, fget g (fput (F.VQI_STATE_i_OVER_SHARE i.1) v s) = fget g s) : RecordBlind (fget g) where
  toCqBlind := h
  occ i t _ s := fget_fput_other _ _ _ s (ho i t)
  overShare := hs
  items _ _ := rfl
  eng _ _ := rfl

theorem cqBlind_vqi : CqBlind State.vqi where
  toAccessBlind := accessBlind_of_regs (fun _ _ => rfl) (fun _ _ => rfl) fun _ _ => rfl
  mem _ _ _ := rfl
  fault _ _ _ _ := rfl
  tail _ _ _ _ := rfl

theorem recordBlind_now : RecordBlind State.now where
  toAccessBlind := accessBlind_of_regs (fun _ _ => rfl) (fun _ _ => rfl) fun _ _ => rfl
  mem _ _ _ := rfl
  fault _ _ _ _ := rfl
  tail _ _ _ _ := rfl
  occ _ _ _ _ := rfl
  overShare _ _ _ := rfl
  items _ _ := rfl
  eng _ _ := rfl

/-- A field of the state register of an instance, but OVER_SHARE. -/
theorem recordBlind_state {hi lo : Nat} (hh : hi < 32) (hd : hi < 2 ∨ 2 < lo) : RecordBlind (fget ⟨R.VQI_STATE_i i.1, hi, lo⟩) := by
  refine (cqBlind_fget ?_ (fun j q => ?_) fun j q => ?_).record_fget (fun j t => ?_) fun j v s => ?_
  · simp only [R.VQI_STATE_i]
    omega
  · simp only [R.VQI_STATE_i, R.VQI_PAIR_STATUS_i_p]
    omega
  · simp only [R.VQI_STATE_i, R.VQI_CQ_TAIL_i_p]
    omega
  · simp only [R.VQI_STATE_i, R.VQI_OCC_i_t]
    omega
  · by_cases hj : j = i
    · exact fget_fput_beside _ _ _ _ (congrArg (fun k : Fin 32 => R.VQI_STATE_i k.1) hj.symm) hh hd
    · refine fget_fput_other _ _ _ _ ?_
      simp only [F.VQI_STATE_i_OVER_SHARE, R.VQI_STATE_i]
      omega

theorem recordBlind_vqiState : RecordBlind (vqiState i) := recordBlind_state (by decide) (by decide)

theorem recordBlind_vqiGen : RecordBlind (vqiGen i) := recordBlind_state (by decide) (by decide)

/-- A field of a register of a pair that no record changes. -/
theorem recordBlind_pair {hi lo ofs : Nat} (ho : ofs < 0x1C) : RecordBlind (fget ⟨R.VQI_SQ_BASE_LO_i_p i.1 p.1 + ofs, hi, lo⟩) := by
  refine (cqBlind_fget ?_ (fun j q => ?_) fun j q => ?_).record_fget (fun j t => ?_) fun j v s => fget_fput_other _ _ _ _ ?_
  · simp only [R.VQI_SQ_BASE_LO_i_p]
    omega
  · simp only [R.VQI_SQ_BASE_LO_i_p, R.VQI_PAIR_STATUS_i_p]
    omega
  · simp only [R.VQI_SQ_BASE_LO_i_p, R.VQI_CQ_TAIL_i_p]
    omega
  · simp only [R.VQI_SQ_BASE_LO_i_p, R.VQI_OCC_i_t]
    omega
  · simp only [R.VQI_SQ_BASE_LO_i_p, F.VQI_STATE_i_OVER_SHARE, R.VQI_STATE_i]
    omega

theorem recordBlind_sqTail : RecordBlind (fget (F.VQI_SQ_TAIL_i_p i.1 p.1)) := by
  have h := recordBlind_pair (i := i) (p := p) (hi := 12) (lo := 0) (ofs := 0x14) (by decide)
  have e : R.VQI_SQ_BASE_LO_i_p i.1 p.1 + 0x14 = R.VQI_SQ_TAIL_i_p i.1 p.1 := by simp only [R.VQI_SQ_BASE_LO_i_p, R.VQI_SQ_TAIL_i_p]; omega
  rwa [e] at h

theorem recordBlind_sqHead : RecordBlind (fget (F.VQI_SQ_HEAD_i_p i.1 p.1)) := by
  have h := recordBlind_pair (i := i) (p := p) (hi := 12) (lo := 0) (ofs := 0x18) (by decide)
  have e : R.VQI_SQ_BASE_LO_i_p i.1 p.1 + 0x18 = R.VQI_SQ_HEAD_i_p i.1 p.1 := by simp only [R.VQI_SQ_BASE_LO_i_p, R.VQI_SQ_HEAD_i_p]; omega
  rwa [e] at h

theorem cqWrite_keeps (h : CqBlind f) (i : Fin 32) (p : Fin 8) (rec : List Byte) (s : State) : f (cqWrite i p rec s) = f s := by
  unfold cqWrite
  extract_lets n tail a
  have hwrite := dmaWrite_keeps h.toAccessBlind h.mem (vqiIdent i s) a rec s
  split
  · next t e => exact (h.fault i p 1 t).trans (snd_keeps e hwrite)
  · next t e => exact (h.tail i p _ t).trans (snd_keeps e hwrite)

theorem showOcc_keeps (h : RecordBlind f) (i : Fin 32) (s : State) : f (showOcc i s) = f s := by
  unfold showOcc
  extract_lets u
  exact (whenB_keeps (h.overShare i 0) _ u).trans (forFin_keeps (obs := f) (fun t s => h.occ i t _ s) s)

theorem vqiRecord_keeps (h : RecordBlind f) (x : VqiItem) (d : VqiDone) (s : State) : f (vqiRecord x d s) = f s := by
  unfold vqiRecord
  extract_lets zero tail len u
  exact (showOcc_keeps h _ _).trans ((h.items _ u).trans (cqWrite_keeps h.toCqBlind _ _ _ s))

theorem vqiRecord_items (x : VqiItem) (d : VqiDone) (s : State) : (vqiRecord x d s).vqi.items = s.vqi.items.filter fun y => y.id != x.id := by
  unfold vqiRecord
  extract_lets zero tail len u
  have hu : u.vqi = s.vqi := cqWrite_keeps cqBlind_vqi _ _ _ s
  rw [showOcc_vqi, updVqi_vqi, hu]

theorem abortItems_keeps (h : RecordBlind f) (i : Fin 32) (pick : VqiItem → Bool) (s : State) : f (abortItems i pick s) = f s :=
  (h.eng _ _).trans (foldl_keeps (fun s x => vqiRecord_keeps h x _ s) _ s)

/-- The items that records end are forgotten. -/
theorem mem_foldl_vqiRecord {x : VqiItem} (d : VqiItem → VqiDone) (l : List VqiItem) (s : State)
    (h : x ∈ (l.foldl (fun s y => vqiRecord y (d y) s) s).vqi.items) : x ∈ s.vqi.items ∧ x ∉ l := by
  induction l generalizing s with
  | nil => exact ⟨h, List.not_mem_nil⟩
  | cons y l ih =>
    obtain ⟨hs, hl⟩ := ih _ h
    rw [vqiRecord_items, List.mem_filter, bne_iff_ne] at hs
    exact ⟨hs.1, fun hm => (List.mem_cons.1 hm).elim (fun e => hs.2 (congrArg VqiItem.id e)) hl⟩

theorem mem_abortItems {x : VqiItem} {pick : VqiItem → Bool} {s : State} (h : x ∈ (abortItems i pick s).vqi.items) : ¬ (x.inst = i ∧ pick x = true) := by
  obtain ⟨hs, hl⟩ := mem_foldl_vqiRecord _ _ s h
  refine fun hp => hl (List.mem_filter.2 ⟨hs, ?_⟩)
  rw [Bool.and_eq_true, beq_iff_eq]
  exact hp

end

/-! ### The two views of a state and of a generation (R512, R513) -/

section
variable {i : Fin 32} {s : State}

theorem fget_putVqiState_other (g : Fld) (st : Nat) (s : State) (h : g.addr ≠ R.VQI_STATE_i i.1) (hi : g.addr ≠ R.VQI_ISTATUS_i i.1) :
    fget g (putVqiState i st s) = fget g s := (fget_fput_other _ _ _ _ hi).trans (fget_fput_other _ _ _ s h)

theorem state_ne_istatus : R.VQI_STATE_i i.1 ≠ R.VQI_ISTATUS_i i.1 := by
  simp only [R.VQI_STATE_i, R.VQI_ISTATUS_i]
  omega

theorem vqiState_putVqiState {st : Nat} (h : st < 4) (s : State) : vqiState i (putVqiState i st s) = st :=
  (fget_fput_other (F.VQI_ISTATUS_i_STATE i.1) (F.VQI_STATE_i_STATE i.1) _ _ state_ne_istatus).trans (fget_fput_fits _ _ (by show 1 < 32; decide) h)

theorem vqiGen_putVqiState (st : Nat) (s : State) : vqiGen i (putVqiState i st s) = vqiGen i s :=
  (fget_fput_other (F.VQI_ISTATUS_i_STATE i.1) (F.VQI_STATE_i_GEN i.1) _ _ state_ne_istatus).trans
    (fget_fput_beside _ _ _ s rfl (by show 31 < 32; decide) (.inr (by show 1 < 16; decide)))

theorem vqiGen_putVqiGen (g : Nat) (s : State) : vqiGen i (putVqiGen i g s) = g % 2 ^ 16 :=
  (fget_fput_other (F.VQI_ISTATUS_i_GEN i.1) (F.VQI_STATE_i_GEN i.1) _ _ state_ne_istatus).trans (fget_fput_same _ _ s (by show 31 < 32; decide))

/-! ### Freeze (R507) -/

theorem freezeCheck_last (hs : vqiState i s = 2) (h : (s.vqi.items.any fun x => x.inst == i) = false) :
    freezeCheck i s = raise F.VQI_MGR_EVENT_EVENT mgrFreezeDone (putVqiState i vqiFrozen s) := if_pos ⟨hs, h⟩

theorem freezeCheck_waits (h : (s.vqi.items.any fun x => x.inst == i) = true) : freezeCheck i s = s :=
  if_neg fun hc => absurd (h.symm.trans hc.2) (by decide)

/-- What an instance shows that is frozen. -/
theorem frozen_shows (i : Fin 32) (s : State) : let t := raise F.VQI_MGR_EVENT_EVENT mgrFreezeDone (putVqiState i vqiFrozen s)
    vqiState i t = 3 ∧ vqiGen i t = vqiGen i s ∧ fbit F.VQI_MGR_EVENT_EVENT 2 t = true := by
  have hevent : R.VQI_STATE_i i.1 ≠ R.VQI_MGR_EVENT := by
    simp only [R.VQI_STATE_i, R.VQI_MGR_EVENT]
    omega
  refine ⟨?_, ?_, fbit_raise _ _ _ (by decide)⟩
  · exact (fget_raise_other (F.VQI_STATE_i_STATE i.1) F.VQI_MGR_EVENT_EVENT _ _ hevent).trans (vqiState_putVqiState (by decide) s)
  · exact (fget_raise_other (F.VQI_STATE_i_GEN i.1) F.VQI_MGR_EVENT_EVENT _ _ hevent).trans (vqiGen_putVqiState _ s)

/-- The state in which a freeze looks for what is left, for the instant of its timeout. -/
def freezing (i : Fin 32) (due : Nat) (s : State) : State :=
  updVqi (fun v => { v with freezeDue := v.freezeDue.set i.1 due i.2 }) (abortItems i (fun x => x.place == .rxbuf) (putVqiState i vqiFreezing s))

theorem vqiFreeze_active (h : vqiState i s = 1) : vqiFreeze i s = freezeCheck i (freezing i (s.now + 2000000) s) := by
  have hnow : (abortItems i (fun x => x.place == .rxbuf) (putVqiState i vqiFreezing s)).now = s.now := abortItems_keeps recordBlind_now i _ _
  exact (if_neg (not_not.2 h)).trans (congrArg (fun n => freezeCheck i (freezing i (n + 2000000) s)) hnow)

theorem freezing_shows (i : Fin 32) (due : Nat) (s : State) : vqiState i (freezing i due s) = 2 ∧ (freezing i due s).vqi.freezeDue[i.1] = due ∧
    ∀ x ∈ (freezing i due s).vqi.items, x.inst = i → x.place ≠ .rxbuf := by
  refine ⟨?_, Vector.getElem_set_self .., fun x hx hi hp => ?_⟩
  · exact (abortItems_keeps recordBlind_vqiState i _ _).trans (vqiState_putVqiState (by decide) s)
  · exact mem_abortItems hx ⟨hi, beq_iff_eq.2 hp⟩

theorem exec_freezeTimeout_due (h : vqiState i s = 2) (ht : s.vqi.freezeDue[i.1] ≤ s.now) : exec (.freezeTimeout i) s = .next (
    raise F.VQI_MGR_EVENT_EVENT mgrFreezeDone (putVqiState i vqiFrozen (putVqiGen i (vqiGen i s + 1) (abortItems i (fun _ => true) s)))) := by
  have hgen : vqiGen i (abortItems i (fun _ => true) s) = vqiGen i s := abortItems_keeps recordBlind_vqiGen i _ s
  change execFreezeTimeout i s = _
  rw [execFreezeTimeout, if_neg (show ¬ vqiState i s ≠ vqiFreezing from not_not.2 h), elapseTo_past ht]
  dsimp only
  rw [hgen]

/-! ### Resets (R504) -/

theorem resetPair_keeps {α : Type} {f : State → α} (h : CqBlind f) (hh : ∀ (p : Fin 8) v s, f (fput (F.VQI_SQ_HEAD_i_p i.1 p.1) v s) = f s)
    (n : Nat → Nat) (p : Fin 8) (s : State) : f (resetPair i n p s) = f s := by
  unfold resetPair
  extract_lets size tail left use u
  exact (h.fault i p 0 _).trans ((hh p tail u).trans (whenB_keeps (fun t => cqWrite_keeps h i p _ t) use s))

theorem sqHead_ne {p q : Fin 8} (h : q ≠ p) : R.VQI_SQ_HEAD_i_p i.1 p.1 ≠ R.VQI_SQ_HEAD_i_p i.1 q.1 := by
  simp only [R.VQI_SQ_HEAD_i_p]
  omega

theorem sqTail_ne (p q : Fin 8) : R.VQI_SQ_TAIL_i_p i.1 p.1 ≠ R.VQI_SQ_HEAD_i_p i.1 q.1 := by
  simp only [R.VQI_SQ_TAIL_i_p, R.VQI_SQ_HEAD_i_p]
  omega

theorem state_ne_sqHead (p : Fin 8) : R.VQI_STATE_i i.1 ≠ R.VQI_SQ_HEAD_i_p i.1 p.1 := by
  simp only [R.VQI_STATE_i, R.VQI_SQ_HEAD_i_p]
  omega

theorem sqTail_resetPair (n : Nat → Nat) (p q : Fin 8) (s : State) :
    fget (F.VQI_SQ_TAIL_i_p i.1 p.1) (resetPair i n q s) = fget (F.VQI_SQ_TAIL_i_p i.1 p.1) s :=
  resetPair_keeps recordBlind_sqTail.toCqBlind (fun q _ s => fget_fput_other _ _ _ s (sqTail_ne p q)) n q s

/-- Every descriptor that a pair offers is discarded. -/
theorem sqHead_resetPair_same (n : Nat → Nat) (p : Fin 8) (s : State) : fget (F.VQI_SQ_HEAD_i_p i.1 p.1) (resetPair i n p s) = fget (F.VQI_SQ_TAIL_i_p i.1 p.1) s := by
  unfold resetPair
  extract_lets size tail left use u
  exact (recordBlind_sqHead.fault i p 0 _).trans (fget_fput_fits _ u (by show 12 < 32; decide) (fget_lt (F.VQI_SQ_TAIL_i_p i.1 p.1) s))

theorem sqHead_resetPair_other (n : Nat → Nat) {p q : Fin 8} (h : q ≠ p) (s : State) :
    fget (F.VQI_SQ_HEAD_i_p i.1 p.1) (resetPair i n q s) = fget (F.VQI_SQ_HEAD_i_p i.1 p.1) s := by
  unfold resetPair
  extract_lets size tail left use u
  exact (recordBlind_sqHead.fault i q 0 _).trans ((fget_fput_other _ _ tail u (sqHead_ne h)).trans
    (whenB_keeps (fun t => cqWrite_keeps recordBlind_sqHead.toCqBlind i q _ t) use s))

theorem sqHead_resetPairs (n : Nat → Nat) (p : Fin 8) (s : State) :
    fget (F.VQI_SQ_HEAD_i_p i.1 p.1) (forFin 8 (resetPair i n) s) = fget (F.VQI_SQ_TAIL_i_p i.1 p.1) s := by
  have hboth := forFin_at (f := resetPair i n) (obs := fun s => (fget (F.VQI_SQ_HEAD_i_p i.1 p.1) s, fget (F.VQI_SQ_TAIL_i_p i.1 p.1) s)) (g := fun x => (x.2, x.2)) (i := p)
    (fun s => Prod.ext (sqHead_resetPair_same n p s) (sqTail_resetPair n p p s)) (fun q hq s => Prod.ext (sqHead_resetPair_other n hq s) (sqTail_resetPair n p q s)) s
  exact congrArg Prod.fst hboth

/-- The items of an instance for each of its pairs. -/
def pairCount (i : Fin 32) (s : State) (p : Nat) : Nat := (s.vqi.items.filter fun x => x.inst == i && x.pair.1 == p).length

/-- A reset before its instance shows its state: the items have ended, the generation has advanced, and the pairs have their summaries. -/
def summed (i : Fin 32) (s : State) : State :=
  forFin 8 (resetPair i (pairCount i s)) (putVqiGen i (vqiGen i s + 1) (abortItems i (fun _ => true) s))

/-- What an instance shows that has been reset. -/
def resetMarks (i : Fin 32) (st : Nat) (s : State) : State := fput (F.VQI_STATE_i_OVER_SHARE i.1) 0 (fput F.SYSCTL_RESET_CAUSE_INSTANCE 1 (putVqiState i st s))

theorem vqiReset_eq (i : Fin 32) (st : Nat) (s : State) : vqiReset i st s = showOcc i (resetMarks i st (summed i s)) := by
  have hgen : vqiGen i (abortItems i (fun _ => true) s) = vqiGen i s := abortItems_keeps recordBlind_vqiGen i _ s
  rw [summed, ← hgen]
  rfl

theorem vqiGen_summed (s : State) : vqiGen i (summed i s) = (vqiGen i s + 1) % 2 ^ 16 :=
  (forFin_keeps (resetPair_keeps recordBlind_vqiGen.toCqBlind (fun p _ s => fget_fput_other (F.VQI_SQ_HEAD_i_p i.1 p.1) (F.VQI_STATE_i_GEN i.1) _ s (state_ne_sqHead p)) _) _).trans
    (vqiGen_putVqiGen _ _)

theorem mem_summed {x : VqiItem} (h : x ∈ (summed i s).vqi.items) : x.inst ≠ i := by
  have hvqi : (summed i s).vqi = (abortItems i (fun _ => true) s).vqi :=
    forFin_keeps (obs := State.vqi) (resetPair_keeps cqBlind_vqi (fun _ _ _ => rfl) _) _
  rw [hvqi] at h
  exact fun e => mem_abortItems h ⟨e, rfl⟩

theorem sqHead_summed (p : Fin 8) (s : State) : fget (F.VQI_SQ_HEAD_i_p i.1 p.1) (summed i s) = fget (F.VQI_SQ_TAIL_i_p i.1 p.1) s := by
  have htail : R.VQI_SQ_TAIL_i_p i.1 p.1 ≠ R.VQI_STATE_i i.1 ∧ R.VQI_SQ_TAIL_i_p i.1 p.1 ≠ R.VQI_ISTATUS_i i.1 := by
    simp only [R.VQI_SQ_TAIL_i_p, R.VQI_STATE_i, R.VQI_ISTATUS_i]
    omega
  calc fget (F.VQI_SQ_HEAD_i_p i.1 p.1) (summed i s)
      = fget (F.VQI_SQ_TAIL_i_p i.1 p.1) (putVqiGen i (vqiGen i s + 1) (abortItems i (fun _ => true) s)) := sqHead_resetPairs _ p _
    _ = fget (F.VQI_SQ_TAIL_i_p i.1 p.1) (abortItems i (fun _ => true) s) :=
      (fget_fput_other (F.VQI_ISTATUS_i_GEN i.1) _ _ _ htail.2).trans (fget_fput_other (F.VQI_STATE_i_GEN i.1) _ _ _ htail.1)
    _ = fget (F.VQI_SQ_TAIL_i_p i.1 p.1) s := abortItems_keeps recordBlind_sqTail i _ s

theorem state_ne_cause : R.VQI_STATE_i i.1 ≠ F.SYSCTL_RESET_CAUSE_INSTANCE.addr := by
  have h : F.SYSCTL_RESET_CAUSE_INSTANCE.addr < 0x4520008 := by decide
  rw [R.VQI_STATE_i]
  omega

theorem vqiState_resetMarks {st : Nat} (h : st < 4) (s : State) : vqiState i (resetMarks i st s) = st :=
  (recordBlind_vqiState.overShare i 0 _).trans ((fget_fput_other _ (F.VQI_STATE_i_STATE i.1) _ _ state_ne_cause).trans (vqiState_putVqiState h s))

theorem vqiGen_resetMarks (st : Nat) (s : State) : vqiGen i (resetMarks i st s) = vqiGen i s :=
  (recordBlind_vqiGen.overShare i 0 _).trans ((fget_fput_other _ (F.VQI_STATE_i_GEN i.1) _ _ state_ne_cause).trans (vqiGen_putVqiState st s))

theorem vqi_resetMarks (st : Nat) (s : State) : (resetMarks i st s).vqi = s.vqi := rfl

theorem sqHead_resetMarks (p : Fin 8) (st : Nat) (s : State) : fget (F.VQI_SQ_HEAD_i_p i.1 p.1) (resetMarks i st s) = fget (F.VQI_SQ_HEAD_i_p i.1 p.1) s := by
  have hcause : F.SYSCTL_RESET_CAUSE_INSTANCE.addr < 0x4520008 := by decide
  refine (recordBlind_sqHead.overShare i 0 _).trans ((fget_fput_other _ _ _ _ ?_).trans (fget_putVqiState_other _ st s ?_ ?_))
  · simp only [F.VQI_SQ_HEAD_i_p, R.VQI_SQ_HEAD_i_p]
    omega
  · exact (state_ne_sqHead p).symm
  · simp only [F.VQI_SQ_HEAD_i_p, R.VQI_SQ_HEAD_i_p, R.VQI_ISTATUS_i]
    omega

/-- OVER_SHARE that is clear stays clear when the occupancies are shown. -/
theorem overShare_showOcc (h : fget (F.VQI_STATE_i_OVER_SHARE i.1) s = 0) : fget (F.VQI_STATE_i_OVER_SHARE i.1) (showOcc i s) = 0 := by
  have hocc (t : Fin 4) : R.VQI_STATE_i i.1 ≠ R.VQI_OCC_i_t i.1 t.1 := by
    simp only [R.VQI_STATE_i, R.VQI_OCC_i_t]
    omega
  unfold showOcc
  extract_lets u
  have hu : fget (F.VQI_STATE_i_OVER_SHARE i.1) u = 0 :=
    (forFin_keeps (obs := fget (F.VQI_STATE_i_OVER_SHARE i.1)) (fun t s => fget_fput_other (F.VQI_OCC_i_t i.1 t.1) _ _ s (hocc t)) s).trans h
  unfold whenB
  split
  · exact fget_fput_fits _ u (by show 2 < 32; decide) (Nat.two_pow_pos _)
  · exact hu

theorem vqiReset_shows (st : Fin 4) (s : State) : let t := vqiReset i st.1 s
    vqiState i t = st.1 ∧ vqiGen i t = (vqiGen i s + 1) % 2 ^ 16 ∧ (∀ x ∈ t.vqi.items, x.inst ≠ i) ∧ fget (F.VQI_STATE_i_OVER_SHARE i.1) t = 0 ∧
    ∀ p : Fin 8, fget (F.VQI_SQ_HEAD_i_p i.1 p.1) t = fget (F.VQI_SQ_TAIL_i_p i.1 p.1) s := by
  rw [vqiReset_eq]
  refine ⟨?_, ?_, fun x hx => ?_, overShare_showOcc ?_, fun p => ?_⟩
  · exact (showOcc_keeps recordBlind_vqiState i _).trans (vqiState_resetMarks st.2 _)
  · exact (showOcc_keeps recordBlind_vqiGen i _).trans ((vqiGen_resetMarks st.1 _).trans (vqiGen_summed s))
  · rw [showOcc_vqi] at hx
    exact mem_summed (vqi_resetMarks st.1 (summed i s) ▸ hx)
  · exact fget_fput_fits _ _ (by show 2 < 32; decide) (Nat.two_pow_pos _)
  · exact (showOcc_keeps recordBlind_sqHead i _).trans ((sqHead_resetMarks p st.1 _).trans (sqHead_summed p s))

theorem instanceReset_active (h : vqiState i s = 1) : instanceReset i s = vqiReset i 1 s := if_pos h

theorem instanceReset_disabled (h : vqiState i s = 0) : instanceReset i s = s :=
  (if_neg (by rw [h]; decide)).trans (if_pos h)

theorem instanceReset_refused (h : 2 ≤ vqiState i s) : instanceReset i s = bad s :=
  (if_neg (by rw [vqiActive]; omega)).trans (if_neg (by rw [vqiDisabled]; omega))

/-! ### Enabling and shares (R501) -/

/-- What an instance adds to the sum of shares. -/
def instShare (s : State) (i : Fin 32) : Nat := if ftst (F.VQI_CFG_i_EN i.1) s then fget (F.VQI_SHARE_i i.1) s else 0

theorem shareSum_eq (s : State) : shareSum s = ∑ i, instShare s i := (Fin.sum_univ_def _).symm

/-- An instance as it is enabled. -/
def enabled (i : Fin 32) (s : State) : State := putVqiState i vqiActive (fput (F.VQI_CFG_i_EN i.1) 1 s)

theorem enabled_other (g : Fld) (h : g.addr ≠ R.VQI_STATE_i i.1) (hi : g.addr ≠ R.VQI_ISTATUS_i i.1) (s : State) :
    fget g (enabled i s) = fget g (fput (F.VQI_CFG_i_EN i.1) 1 s) := fget_putVqiState_other g _ _ h hi

theorem cfg_ne {j : Fin 32} : R.VQI_CFG_i j.1 ≠ R.VQI_STATE_i i.1 ∧ R.VQI_CFG_i j.1 ≠ R.VQI_ISTATUS_i i.1 := by
  simp only [R.VQI_CFG_i, R.VQI_STATE_i, R.VQI_ISTATUS_i]
  omega

theorem share_ne {j : Fin 32} : R.VQI_SHARE_i j.1 ≠ R.VQI_STATE_i i.1 ∧ R.VQI_SHARE_i j.1 ≠ R.VQI_ISTATUS_i i.1 ∧ R.VQI_SHARE_i j.1 ≠ R.VQI_CFG_i i.1 := by
  simp only [R.VQI_SHARE_i, R.VQI_STATE_i, R.VQI_ISTATUS_i, R.VQI_CFG_i]
  omega

theorem en_enabled (s : State) : ftst (F.VQI_CFG_i_EN i.1) (enabled i s) = true :=
  (ftst_of_fget (enabled_other _ cfg_ne.1 cfg_ne.2 s)).trans (ftst_fput_one _ s (by show 0 < 32; decide) le_rfl)

theorem en_enabled_other {j : Fin 32} (h : j ≠ i) (s : State) : ftst (F.VQI_CFG_i_EN j.1) (enabled i s) = ftst (F.VQI_CFG_i_EN j.1) s := by
  refine ftst_of_fget ((enabled_other _ cfg_ne.1 cfg_ne.2 s).trans (fget_fput_other _ _ _ s ?_))
  simp only [F.VQI_CFG_i_EN, R.VQI_CFG_i]
  omega

theorem share_enabled (j : Fin 32) (s : State) : fget (F.VQI_SHARE_i j.1) (enabled i s) = fget (F.VQI_SHARE_i j.1) s :=
  (enabled_other _ share_ne.1 share_ne.2.1 s).trans (fget_fput_other _ _ _ s share_ne.2.2)

theorem shareSum_enabled (h : ftst (F.VQI_CFG_i_EN i.1) s = false) : shareSum (enabled i s) = shareSum s + fget (F.VQI_SHARE_i i.1) s := by
  have hinst (j : Fin 32) : instShare (enabled i s) j = instShare s j + if j = i then fget (F.VQI_SHARE_i i.1) s else 0 := by
    by_cases hj : j = i
    · subst hj
      simp only [instShare, en_enabled, share_enabled, h, if_true, Bool.false_eq_true, if_false, Nat.zero_add]
    · simp only [instShare, en_enabled_other hj, share_enabled, if_neg hj, Nat.add_zero]
  rw [shareSum_eq, shareSum_eq, Finset.sum_congr rfl fun j _ => hinst j, Finset.sum_add_distrib, Finset.sum_ite_eq', if_pos (Finset.mem_univ i)]

theorem vqiState_enabled (s : State) : vqiState i (enabled i s) = 1 := vqiState_putVqiState (by decide) _

theorem vqiGen_enabled (s : State) : vqiGen i (enabled i s) = vqiGen i s :=
  (vqiGen_putVqiState _ _).trans (fget_fput_other (F.VQI_CFG_i_EN i.1) (F.VQI_STATE_i_GEN i.1) _ s cfg_ne.1.symm)

theorem vqiEnable_refused (h : ftst (F.VQI_CFG_i_EN i.1) s = false) (hs : 1024 < shareSum s + fget (F.VQI_SHARE_i i.1) s) : vqiEnable i s = bad s :=
  (if_neg (by rw [h]; decide)).trans (if_pos hs)

theorem vqiEnable_enables (h : ftst (F.VQI_CFG_i_EN i.1) s = false) (hs : shareSum s + fget (F.VQI_SHARE_i i.1) s ≤ 1024) :
    vqiEnable i s = showShare (enabled i s) := (if_neg (by rw [h]; decide)).trans (if_neg (Nat.not_lt.2 hs))

theorem fget_showShare_inst (g : Fld) (h : 0x4520000 ≤ g.addr) (s : State) : fget g (showShare s) = fget g s :=
  fget_fput_other F.VQI_SHARE_SUM g _ s fun e => absurd (e ▸ h : 0x4520000 ≤ F.VQI_SHARE_SUM.addr) (by decide)

theorem shareSum_showShare (h : shareSum s ≤ 1024) : fget F.VQI_SHARE_SUM (showShare s) = shareSum s :=
  fget_fput_fits _ s (by decide) (h.trans_lt (by decide))

theorem enabled_shows (h : ftst (F.VQI_CFG_i_EN i.1) s = false) (hs : shareSum s + fget (F.VQI_SHARE_i i.1) s ≤ 1024) : let t := showShare (enabled i s)
    ftst (F.VQI_CFG_i_EN i.1) t = true ∧ vqiState i t = 1 ∧ vqiGen i t = vqiGen i s ∧ fget F.VQI_SHARE_SUM t = shareSum s + fget (F.VQI_SHARE_i i.1) s ∧ SameMem s t := by
  have hcfg : 0x4520000 ≤ R.VQI_CFG_i i.1 := Nat.le_add_right _ _
  have hstate : 0x4520000 ≤ R.VQI_STATE_i i.1 := by
    rw [R.VQI_STATE_i]
    omega
  have hsum := shareSum_enabled h
  refine ⟨?_, ?_, ?_, ?_, sameMem_of rfl rfl⟩
  · exact (ftst_of_fget (fget_showShare_inst _ hcfg _)).trans (en_enabled s)
  · exact (fget_showShare_inst (F.VQI_STATE_i_STATE i.1) hstate _).trans (vqiState_enabled s)
  · exact (fget_showShare_inst (F.VQI_STATE_i_GEN i.1) hstate _).trans (vqiGen_enabled s)
  · exact (shareSum_showShare (hsum.trans_le hs)).trans hsum

/-! ### Migration (R508-R510) -/

section
variable {w : Initiator} {op : Nat}

theorem migCmd_busy (op : Nat) (h : s.vqi.mig ≠ none) : migCmd w op i s = bad s := if_pos (Option.isSome_iff_ne_none.2 h)

theorem migCmd_export_refused (h : s.vqi.mig = none) (hs : vqiState i s ≠ 3) : migCmd w 1 i s = bad s :=
  (if_neg (by rw [h]; decide)).trans (if_pos ⟨rfl, hs⟩)

/-- What a migration command shows that is taken. -/
def migMarks (op : Nat) (i : Fin 32) (s : State) : State :=
  whenB (op == 1) (fun s => wr R.VQI_MIG_SEQ (rd R.VQI_MIG_SEQ s + 1) s) (s |> fput F.VQI_MIG_CMD_INST i.1 |> fput F.VQI_MIG_CMD_BUSY 1)

/-- A migration command that runs. -/
def migTaken (w : Initiator) (op : Nat) (i : Fin 32) (s : State) : State := updVqi (fun v => { v with mig := some (op, i, initWorld w s, initInst w s) }) s

theorem migCmd_taken (h : s.vqi.mig = none) (hs : op = 1 → vqiState i s = 3) : migCmd w op i s = migTaken w op i (migMarks op i s) :=
  (if_neg (by rw [h]; decide)).trans (if_neg fun hc => hc.2 (hs hc.1))

theorem initWorld_updVqi (w : Initiator) (f : VqiSt → VqiSt) (s : State) : initWorld w (updVqi f s) = initWorld w s := by cases w <;> rfl

theorem initInst_updVqi (w : Initiator) (f : VqiSt → VqiSt) (s : State) : initInst w (updVqi f s) = initInst w s := by cases w <;> rfl

theorem mig_migTaken (w : Initiator) (op : Nat) (i : Fin 32) (s : State) :
    (migTaken w op i s).vqi.mig = some (op, i, initWorld w (migTaken w op i s), initInst w (migTaken w op i s)) := by
  rw [migTaken, initWorld_updVqi, initInst_updVqi]
  rfl

theorem seq_export (s : State) : rd R.VQI_MIG_SEQ (migMarks 1 i s) = rd R.VQI_MIG_SEQ s + 1 := by
  refine (rd_wr_same _ _ _).trans (congrArg (· + 1) ?_)
  exact (rd_fput_other _ _ _ (by decide)).trans (rd_fput_other _ _ s (by decide))

theorem seq_restore (s : State) : rd R.VQI_MIG_SEQ (migMarks 2 i s) = rd R.VQI_MIG_SEQ s := (rd_fput_other _ _ _ (by decide)).trans (rd_fput_other _ _ s (by decide))

theorem busy_migMarks (op : Nat) (s : State) : fget F.VQI_MIG_CMD_BUSY (migMarks op i s) = 1 :=
  (whenB_keeps (fun s => fget_wr_other _ _ s (by decide)) _ _).trans (fget_fput_fits _ _ (by decide) (by decide))

/-- What a command shows that is taken on a state whose registers are another's. -/
theorem exportTaken_shows {u : State} (w : Initiator) (i : Fin 32) (hu : rd R.VQI_MIG_SEQ s = rd R.VQI_MIG_SEQ u) : let t := migTaken w 1 i (migMarks 1 i s)
    t.vqi.mig = some (1, i, initWorld w t, initInst w t) ∧ rd R.VQI_MIG_SEQ t = rd R.VQI_MIG_SEQ u + 1 ∧ fget F.VQI_MIG_CMD_BUSY t = 1 :=
  ⟨mig_migTaken w 1 i _, (rd_updVqi ..).trans ((seq_export s).trans (congrArg (· + 1) hu)), (fget_updVqi ..).trans (busy_migMarks 1 s)⟩

theorem restoreTaken_shows {u : State} (w : Initiator) (i : Fin 32) (hu : rd R.VQI_MIG_SEQ s = rd R.VQI_MIG_SEQ u) : let t := migTaken w 2 i (migMarks 2 i s)
    t.vqi.mig = some (2, i, initWorld w t, initInst w t) ∧ rd R.VQI_MIG_SEQ t = rd R.VQI_MIG_SEQ u ∧ fget F.VQI_MIG_CMD_BUSY t = 1 :=
  ⟨mig_migTaken w 2 i _, (rd_updVqi ..).trans ((seq_restore s).trans hu), (fget_updVqi ..).trans (busy_migMarks 2 s)⟩

end

section
variable {w : Ident}

theorem migExport_refused (h : migKey s = none) : migExport i w s = migEnd .failedRefused 0 s := by
  rw [migExport, h]

theorem migExport_done {p : Fin 128} (h : migKey s = some p)
    (hr : (dmaWrite w (migBuf s) (migRecord i s ++ hmac512 s.key.keys[p.1] (migRecord i s)) (useKey p s)).1 = true) :
    migExport i w s = migEnd .done 0 (dmaWrite w (migBuf s) (migRecord i s ++ hmac512 s.key.keys[p.1] (migRecord i s)) (useKey p s)).2 := by
  rw [migExport, h]
  dsimp only
  generalize dmaWrite w (migBuf s) (migRecord i s ++ hmac512 s.key.keys[p.1] (migRecord i s)) (useKey p s) = x at hr ⊢
  obtain ⟨b, t⟩ := x
  obtain rfl : b = true := hr
  rfl

/-- A record that has been read, with the key that its tag is judged by. -/
theorem migRestore_read {r : List Byte} {p : Fin 128} (hr : (dmaRead w (migBuf s) 512 s).1 = some r) (hk : migKey s = some p) :
    let y := useKey p (dmaRead w (migBuf s) 512 s).2
    migRestore i w s = if hmac512 y.key.keys[p.1] (r.take 448) != r.drop 448 then migEnd .failedRefused 1 y
      else if r.take 8 != ascii "Z480VQI1" then migEnd .failedRefused 2 y
      else if !migFieldsOk r then migEnd .failedRefused 3 y
      else if vqiState i y != vqiDisabled then migEnd .failedRefused 4 y
      else if 1024 < shareSum y + mf r 30 2 then migEnd .failedRefused 5 y
      else migEnd .done 0 (migApply i r y) := by
  rw [migRestore, hk]
  generalize dmaRead w (migBuf s) 512 s = x at hr ⊢
  obtain ⟨o, t⟩ := x
  obtain rfl : o = some r := hr
  rfl

/-- A record is judged by its first fault: its tag, its name, its fields, the state of the instance, the sum of shares. -/
theorem migRestore_judged {r : List Byte} {p : Fin 128} (hr : (dmaRead w (migBuf s) 512 s).1 = some r) (hk : migKey s = some p) :
    let y := useKey p (dmaRead w (migBuf s) 512 s).2
    let tagOk := hmac512 y.key.keys[p.1] (r.take 448) = r.drop 448
    let magicOk := r.take 8 = ascii "Z480VQI1"
    (¬tagOk → migRestore i w s = migEnd .failedRefused 1 y) ∧ (tagOk → ¬magicOk → migRestore i w s = migEnd .failedRefused 2 y) ∧
    (tagOk → magicOk → migFieldsOk r = false → migRestore i w s = migEnd .failedRefused 3 y) ∧
    (tagOk → magicOk → migFieldsOk r = true → vqiState i y ≠ 0 → migRestore i w s = migEnd .failedRefused 4 y) ∧
    (tagOk → magicOk → migFieldsOk r = true → vqiState i y = 0 → 1024 < shareSum y + mf r 30 2 → migRestore i w s = migEnd .failedRefused 5 y) ∧
    (tagOk → magicOk → migFieldsOk r = true → vqiState i y = 0 → shareSum y + mf r 30 2 ≤ 1024 → migRestore i w s = migEnd .done 0 (migApply i r y)) := by
  rw [migRestore_read hr hk]
  intro y tagOk magicOk
  have tag (h : tagOk) : ¬ (hmac512 y.key.keys[p.1] (r.take 448) != r.drop 448) = true := fun e => bne_iff_ne.1 e h
  have magic (h : magicOk) : ¬ (r.take 8 != ascii "Z480VQI1") = true := fun e => bne_iff_ne.1 e h
  have fields (h : migFieldsOk r = true) : ¬ (!migFieldsOk r) = true := by
    rw [h]
    decide
  have free (h : vqiState i y = 0) : ¬ (vqiState i y != vqiDisabled) = true := fun e => bne_iff_ne.1 e h
  refine ⟨fun ht => if_pos (bne_iff_ne.2 ht), fun ht hm => ?_, fun ht hm hf => ?_, fun ht hm hf hv => ?_, fun ht hm hf hv hs => ?_, fun ht hm hf hv hs => ?_⟩
  · rw [if_neg (tag ht), if_pos (bne_iff_ne.2 hm)]
  · rw [if_neg (tag ht), if_neg (magic hm), hf]
    rfl
  · rw [if_neg (tag ht), if_neg (magic hm), if_neg (fields hf)]
    exact if_pos (bne_iff_ne.2 hv)
  · rw [if_neg (tag ht), if_neg (magic hm), if_neg (fields hf), if_neg (free hv), if_pos hs]
  · rw [if_neg (tag ht), if_neg (magic hm), if_neg (fields hf), if_neg (free hv), if_neg (Nat.not_lt.2 hs)]

end

/-- An instance as a record leaves it: frozen, one generation on. -/
theorem restored_shows (g : Nat) (s : State) : let t := showShare (putVqiState i vqiFrozen (putVqiGen i (g + 1) s))
    vqiState i t = 3 ∧ vqiGen i t = (g + 1) % 2 ^ 16 := by
  have hstate : 0x4520000 ≤ R.VQI_STATE_i i.1 := by
    rw [R.VQI_STATE_i]
    omega
  refine ⟨?_, ?_⟩
  · exact (fget_showShare_inst (F.VQI_STATE_i_STATE i.1) hstate _).trans (vqiState_putVqiState (by decide) _)
  · exact (fget_showShare_inst (F.VQI_STATE_i_GEN i.1) hstate _).trans ((vqiGen_putVqiState _ _).trans (vqiGen_putVqiGen _ s))

theorem migApply_shows (i : Fin 32) (r : List Byte) (s : State) : vqiState i (migApply i r s) = 3 ∧ vqiGen i (migApply i r s) = (mf r 28 2 + 1) % 2 ^ 16 := by
  unfold migApply
  extract_lets put u1 u2 u3 u4
  exact restored_shows _ u4

/-! ### The commands -/

section
variable {w : Initiator}

theorem exec_instanceReset (hl : Lets w (R.VQI_ICMD_i i.1) true s) : exec (.instanceReset w i) s = .next (instanceReset i (ok (entered w (R.VQI_ICMD_i i.1) s))) :=
  congrArg Host.Outcome.next (regCmd_lets hl _)

/-- The manager's three commands to an instance. -/
theorem exec_vqiCmd (hl : Lets w (R.VQI_CMD_i i.1) true s) : let u := ok (entered w (R.VQI_CMD_i i.1) s)
    exec (.managerReset w i) s = .next (managerReset i u) ∧ exec (.freeze w i) s = .next (vqiFreeze i u) ∧ exec (.thaw w i) s = .next (vqiThaw i u) :=
  ⟨congrArg Host.Outcome.next (regCmd_lets hl _), congrArg Host.Outcome.next (regCmd_lets hl _), congrArg Host.Outcome.next (regCmd_lets hl _)⟩

theorem exec_vqiCfg (hl : Lets w (R.VQI_CFG_i i.1) true s) : let u := ok (entered w (R.VQI_CFG_i i.1) s)
    exec (.vqiEnable w i) s = .next (vqiEnable i u) ∧ exec (.vqiDisable w i) s = .next (vqiDisable i u) :=
  ⟨congrArg Host.Outcome.next (regCmd_lets hl _), congrArg Host.Outcome.next (regCmd_lets hl _)⟩

theorem exec_shareWrite (v : BitVec 11) (hl : Lets w (R.VQI_SHARE_i i.1) true s) :
    exec (.shareWrite w i v) s = .next (shareWrite i v.toNat (ok (entered w (R.VQI_SHARE_i i.1) s))) := congrArg Host.Outcome.next (regCmd_lets hl _)

theorem exec_migCmd (hl : Lets w R.VQI_MIG_CMD true s) : let u := ok (entered w R.VQI_MIG_CMD s)
    exec (.migExport w i) s = .next (migCmd w 1 i u) ∧ exec (.migRestore w i) s = .next (migCmd w 2 i u) :=
  ⟨congrArg Host.Outcome.next (regCmd_lets hl _), congrArg Host.Outcome.next (regCmd_lets hl _)⟩

theorem exec_migDone {op n : Nat} {wd : Bool} (h : s.vqi.mig = some (op, i, wd, n)) :
    exec .migDone s = .next (if op = 1 then migExport i ⟨17, 0x40, wd, n⟩ s else migRestore i ⟨17, 0x40, wd, n⟩ s) := by
  change execMigDone s = _
  rw [execMigDone, h]

end

end

/-- Settles O53: a reset, a freeze and its timeout end items with their records, and the records are beside an instance's state and generation and its pairs' tails. -/
theorem virtualInstanceStates : Obligations.VirtualInstanceStates := by
  unfold Obligations.VirtualInstanceStates
  refine ⟨fun w i s hl => ?_, fun w i s hl => ?_, fun i st s => vqiReset_shows st s, fun i s hs => ⟨fun h => ?_, freezeCheck_waits, fun ht => ?_⟩, fun w i s hl => ?_,
    fun w i v s hl => ?_, fun w i s hl => ?_, fun op i wd n s h => ⟨fun ho => ?_, fun ho => ?_⟩,
    fun i w s => ⟨migExport_refused, fun p => migExport_done, fun r p => migRestore_judged⟩, migApply_shows, fun w i s hl => congrArg Host.Outcome.next (regCmd_lets hl _)⟩
  · rw [exec_instanceReset hl]
    exact ⟨fun h => congrArg Host.Outcome.next (instanceReset_active h), fun h => congrArg Host.Outcome.next (instanceReset_disabled h),
      fun h => congrArg Host.Outcome.next (instanceReset_refused h)⟩
  · obtain ⟨hreset, hfreeze, hthaw⟩ := exec_vqiCmd hl
    rw [hreset, hfreeze, hthaw]
    refine ⟨fun h => congrArg Host.Outcome.next (if_neg h), fun h => congrArg Host.Outcome.next (if_pos h), fun h => congrArg Host.Outcome.next (if_pos h), fun h => ?_,
      fun h => congrArg Host.Outcome.next (if_pos h), fun h => congrArg Host.Outcome.next (if_neg h)⟩
    exact ⟨_, congrArg Host.Outcome.next (vqiFreeze_active h), freezing_shows i _ _⟩
  · rw [freezeCheck_last hs h]
    exact ⟨(frozen_shows i s).1, (frozen_shows i s).2.2⟩
  · obtain ⟨hstate, hgen, hevent⟩ := frozen_shows i (putVqiGen i (vqiGen i s + 1) (abortItems i (fun _ => true) s))
    exact does_of (exec_freezeTimeout_due hs ht) ⟨hstate, hgen.trans (vqiGen_putVqiGen _ _), hevent, fun x hx e => mem_abortItems hx ⟨e, rfl⟩⟩
  · obtain ⟨henable, hdisable⟩ := exec_vqiCfg hl
    refine ⟨fun h hs => henable.trans (congrArg Host.Outcome.next (vqiEnable_refused h hs)), fun h hs => ?_, fun h => hdisable.trans (congrArg Host.Outcome.next (if_neg h)),
      fun h => hdisable.trans (congrArg Host.Outcome.next (if_pos h))⟩
    exact does_of (henable.trans (congrArg Host.Outcome.next (vqiEnable_enables h hs))) (enabled_shows (s := ok (entered w (R.VQI_CFG_i i.1) s)) h hs)
  · rw [exec_shareWrite v hl]
    exact ⟨fun h => congrArg Host.Outcome.next (if_pos h), fun h => congrArg Host.Outcome.next (if_neg h)⟩
  · obtain ⟨hexport, hrestore⟩ := exec_migCmd (i := i) hl
    refine ⟨fun h => ⟨hexport.trans (congrArg Host.Outcome.next (migCmd_busy 1 h)), hrestore.trans (congrArg Host.Outcome.next (migCmd_busy 2 h))⟩,
      fun h hs => hexport.trans (congrArg Host.Outcome.next (migCmd_export_refused h hs)), fun h hs => ?_, fun h => ?_⟩
    · exact does_of (hexport.trans (congrArg Host.Outcome.next (migCmd_taken h fun _ => hs))) (exportTaken_shows w i (rd_ok ..))
    · exact does_of (hrestore.trans (congrArg Host.Outcome.next (migCmd_taken h nofun))) (restoreTaken_shows w i (rd_ok ..))
  · exact (exec_migDone h).trans (congrArg Host.Outcome.next (if_pos ho))
  · exact (exec_migDone h).trans (congrArg Host.Outcome.next (if_neg ho))

end Sys2Proof.Machine
